-- ==== Sys2Proof/Word.lean ====
section
/-!
DEFINITION. The word types of the LZ9400 and their plainest arithmetic (spec/00_scope.md R5 to R8).
-/

namespace Sys2Proof

/-- A 32-bit register or structure word. -/
abbrev Word := BitVec 32

/-- One byte. -/
abbrev Byte := BitVec 8

/-- The bit pattern of an IEEE 754 binary32 number. -/
abbrev F32 := BitVec 32

/-- The bit pattern of an IEEE 754 binary64 number. -/
abbrev F64 := BitVec 64

/-- A device-time instant in nanoseconds (R21): a timestamp of R8, 64 bits, which does not reach its end in
service life, so it is held as a number. -/
abbrev Nanos := Nat

/-- An event or error counter of R8: 32 bits that saturate, with its sticky saturated bit. -/
structure Counter where
  val : BitVec 32 := 0
  sat : Bool := false
  deriving DecidableEq, Repr

/-- Nanoseconds in a microsecond. -/
def usNs : Nat := 1000

/-- Nanoseconds in a millisecond. -/
def msNs : Nat := 1000000

/-- Nanoseconds in a second. -/
def secNs : Nat := 1000000000

end Sys2Proof
end

