-- ==== Sys2Proof/Config/Base.lean ====
section
/-!
DEFINITION. The small enumerations shared by the image, the commands and the state.
-/

namespace Sys2Proof

/-- The seven dies of R10. -/
inductive Die where
  | c0 | c1 | c2 | c3 | m0 | m1 | iod
  deriving DecidableEq, Repr

/-- The number of a die in the recovery blocks (R437) and in the health records (R450): C0 to C3, M0, M1, IOD. -/
def Die.idx : Die → Nat
  | .c0 => 0 | .c1 => 1 | .c2 => 2 | .c3 => 3 | .m0 => 4 | .m1 => 5 | .iod => 6

/-- The die of a number, the I/O die for every number past the memory-side dies. -/
def Die.ofIdx : Nat → Die
  | 0 => .c0 | 1 => .c1 | 2 => .c2 | 3 => .c3 | 4 => .m0 | 5 => .m1 | _ => .iod

/-- The servo states of R31, in the order of SERVO_STATE (R56). -/
inductive Servo where
  | freeRun | acquiring | locked | holdover
  deriving DecidableEq, Repr

/-- The gPTP ports that measure link delay: V0 (R28) and the lidar ports (R36). -/
inductive GptpPort where
  | v0
  | lidar (n : Fin 8)
  deriving DecidableEq, Repr

/-- What a lidar-side port receives and ignores (R36). -/
inductive GptpKind where
  | announce | sync | followUp
  deriving DecidableEq, Repr

/-- One of the two pipelines (R14): the main pipeline or Burlap. -/
inductive Source where
  | main | burlap
  deriving DecidableEq, Repr

/-- 0 for the main pipeline, 1 for Burlap. -/
def Source.idx : Source → Nat
  | .main => 0 | .burlap => 1

end Sys2Proof
end

