-- ==== Sys2Proof/Config/Outputs.lean ====
section
/-!
DEFINITION. The output kinds and the payloads that the pipelines deliver (R323, R333 to R338): what an assembly
window hands over as an operand of ASSEMBLY_COMPLETE.
-/

namespace Sys2Proof

/-- The output kinds of R323 that an assembly window makes; a grid frame names its product. -/
inductive OutKind where
  | objectList | drivable | egoState
  | grid (product : Fin 64)
  | points
  deriving DecidableEq, Repr

/-- The KIND code of an output kind (R323). -/
def OutKind.code : OutKind → Nat
  | .objectList => 1 | .drivable => 2 | .egoState => 3 | .grid _ => 4 | .points => 5

/-- A number for each kind and product, for banks. -/
def OutKind.idx : OutKind → Nat
  | .objectList => 1 | .drivable => 2 | .egoState => 3 | .points => 5 | .grid p => 16 + p.val

/-- An object as a pipeline delivers it (R333), values in FP32; the squared range orders the list (R334). -/
structure ObjectRec where
  trackId : Nat
  cls : Nat
  exist_ : Nat
  new : Bool
  coasted : Bool
  evLidar : Bool
  evCamera : Bool
  ageTicks : Nat
  /-- X, Y, Z, L, W, H, YAW, VX, VY. -/
  geom : List F32
  /-- SIG_X, SIG_Y, SIG_VX, SIG_VY, as the source computed them. -/
  sigma : List F32
  camMask : BitVec 16
  lidarPoints : Nat
  sinceDet : Nat
  deriving DecidableEq, Repr

/-- One sector of a drivable space payload (R335). -/
structure Sector where
  freeRange : F32
  boundary : Fin 4
  conf : BitVec 8
  deriving DecidableEq, Repr

/-- What a pipeline delivers for an Object List, every track alive, or a Drivable Space. -/
inductive Content where
  | objects (alive : List ObjectRec)
  | drivable (maxRange : F32) (sectors : List Sector)
  deriving DecidableEq, Repr

end Sys2Proof
end

