-- ==== Sys2Proof/Config/Sensors.lean ====
section
/-!
DEFINITION. The sections of the image that describe the sensors, as the device reads them: the stream table 0x10
(R57, R101, R114, R125 to R127), the camera ports 0x11 (R86, R102), the parser descriptors 0x12 (R109), the
calibration tables 0x13 (R134) and the warp tables 0x14 (R136).
-/

namespace Sys2Proof

/-- What ALIGN_KIND says of a stream (R57). -/
inductive AlignKind where
  | point | rowBand | egoInput
  deriving DecidableEq, Repr

/-- The code of an ALIGN_KIND (R57). -/
def AlignKind.code : AlignKind → Nat
  | .point => 0 | .rowBand => 1 | .egoInput => 2

/-- A signal record (R114). -/
structure SignalRec where
  startBit : Nat
  length : Nat
  bigEndian : Bool
  signed : Bool
  role : Nat
  invalidEn : Bool
  scale : F32
  offset : F32
  invalidVal : Nat
  deriving DecidableEq, Repr

/-- The lidar fields of a stream entry (R127). -/
structure LidarFields where
  speed : Nat
  phySlave : Bool
  domain : Nat
  logSync : Int
  parser : Nat
  pointRate : Nat
  quotaMain : Nat
  quotaFb : Nat
  fbDecim : Nat
  maxTransitUs : Nat
  portMac : Nat
  deriving DecidableEq, Repr

/-- The camera fields of a stream entry (R101, R127). -/
structure CameraFields where
  vcMap : List Nat
  dataType : Nat
  framesPerTick : Nat
  pyrLevels : Nat
  outFormat : Nat
  cfa : Nat
  width : Nat
  height : Nat
  bandRows : Nat
  deriving DecidableEq, Repr

/-- The IMU fields of a stream entry (R127). -/
structure ImuFields where
  syncMode : Bool
  syncPolHigh : Bool
  drdyFalling : Bool
  spiMode : Nat
  spiDiv : Nat
  syncWidthUs : Nat
  syncRateHz : Nat
  cmd : List Byte
  rxLen : Nat
  checkKind : Nat
  sigFirst : Nat
  sigCount : Nat
  deriving DecidableEq, Repr

/-- The CAN fields of a stream entry (R127). -/
structure CanFields where
  canId : Nat
  ide : Bool
  fdf : Bool
  fdfChk : Bool
  idMask : Nat
  minLen : Nat
  checkKind : Nat
  sigFirst : Nat
  sigCount : Nat
  deriving DecidableEq, Repr

/-- The GNSS fields of a stream entry (R127): the sentence types enabled. -/
structure GnssFields where
  gga : Bool
  rmc : Bool
  zda : Bool
  deriving DecidableEq, Repr

/-- The fields of an entry's SOURCE (R126, R127). -/
inductive SourceFields where
  | lidar (f : LidarFields)
  | camera (f : CameraFields)
  | imu (f : ImuFields)
  | can (f : CanFields)
  | gnss (f : GnssFields)
  deriving DecidableEq, Repr

/-- A valid entry of the stream table (R57, R126). -/
structure StreamEntry where
  kind : AlignKind
  inAge : Bool
  port : Nat
  modeMask : List Nat
  windowUs : Nat
  gateUs : Nat
  horizonUs : Nat
  spanUs : Nat
  periodUs : Nat
  declLatNs : Nat
  src : SourceFields
  deriving DecidableEq, Repr

/-- A CAN bus record of the header of section 0x10 (R125). -/
structure CanBus where
  restricted : Bool
  fdEn : Bool
  nbrp : Nat
  ntseg1 : Nat
  ntseg2 : Nat
  nsjw : Nat
  dbrp : Nat
  dtseg1 : Nat
  dtseg2 : Nat
  dsjw : Nat
  deriving DecidableEq, Repr

/-- Section 0x10, the stream table: valid entries by stream number (R125). -/
structure StreamTable where
  entryCount : Nat
  poseExtrapLimitUs : Nat
  sigs : List SignalRec
  buses : List (Nat × CanBus)
  gnssEn : Bool
  ppsFalling : Bool
  baud : Nat
  entries : List (Nat × StreamEntry)
  deriving DecidableEq, Repr

/-- One entry of a camera's initialisation sequence (R86): op 0 write byte, 1 wait, 2 write word, 3 read and compare. -/
structure InitEntry where
  addr : Nat
  value : Nat
  op : Nat
  deriving DecidableEq, Repr

/-- A port record of section 0x11 (R102). -/
structure CameraPort where
  gear : Nat
  rtxEn : Bool
  cciAddr : Nat
  cciRate : Nat
  trigLatNs : Nat
  lineTimePs : Nat
  centreRow : Nat
  trigWidthUs : Nat
  uplinkLatNs : Nat
  readoutLatNs : Nat
  fsTolUs : Nat
  expMinUs : Nat
  expMaxUs : Nat
  gainMin : Nat
  gainMax : Nat
  targetLuma : Nat
  stepEv16 : Nat
  wbStep : Nat
  regExp : Nat
  regGain : Nat
  regHold : Nat
  regSentinel : Nat
  sentinelVal : Nat
  expInUs : Bool
  init : List InitEntry
  black : List Nat
  ratio1 : Nat
  ratio2 : Nat
  satTh : Nat
  blend : Nat
  knots : List (Nat × Nat)
  weights : List Nat
  tone : List Byte
  deriving DecidableEq, Repr

/-- A field of a parser descriptor (R109). -/
structure ParserField where
  offset : Nat
  bytes : Nat
  be : Bool
  signed : Bool
  inBlock : Bool
  scale : F32
  deriving DecidableEq, Repr

/-- A parser descriptor of section 0x12 (R109), its eight fields in the order of the table. -/
structure ParserDesc where
  udpMatch : Bool
  matchValue : Nat
  pktLen : Nat
  hdrLen : Nat
  blockStride : Nat
  blockCount : Nat
  blockHdrLen : Nat
  pointStride : Nat
  pointsPerBlock : Nat
  tsOff : Nat
  tsFormat : Nat
  tsBe : Bool
  spherical : Bool
  minRange : F32
  elev : List F32
  fields : List ParserField
  deriving DecidableEq, Repr

/-- A quaternion in Hamilton convention, scalar first (R131), as FP32 patterns. -/
structure Quat where
  w : F32
  x : F32
  y : F32
  z : F32
  deriving DecidableEq, Repr

/-- A vector of three FP32 patterns. -/
structure Vec3 where
  x : F32
  y : F32
  z : F32
  deriving DecidableEq, Repr

/-- The limits of a calibration record (R134). -/
structure CalLimits where
  extrAdapt : Bool
  toffAdapt : Bool
  stepTUm : Nat
  stepRUrad : Nat
  stepToff : Nat
  driftR : Nat
  driftTMm : Nat
  driftToffUs : Nat
  deriving DecidableEq, Repr

/-- The values of a calibration record: the extrinsic and the time offset (R131, R134). -/
structure CalRecord where
  q : Quat
  t : Vec3
  toffNs : Int
  deriving DecidableEq, Repr

/-- Section 0x13 (R134): present records by stream number. -/
structure CalSection where
  digest : Nat
  confirmCount : Nat
  gainMin : Nat
  deferLimit : Nat
  records : List (Nat × CalRecord)
  limits : List (Nat × CalLimits)
  deriving DecidableEq, Repr

/-- A camera model of section 0x14 (R136): both grids row by row. -/
structure WarpModel where
  fwdCols : Nat
  fwdRows : Nat
  invStepLog2 : Nat
  alphaMin : F32
  alphaMax : F32
  betaMin : F32
  betaMax : F32
  width : Nat
  height : Nat
  zMin : F32
  fwd : List (F32 × F32)
  inv : List (F32 × F32)
  deriving DecidableEq, Repr

end Sys2Proof
end

