-- ==== Sys2Proof/Config/Engines.lean ====
section
/-!
DEFINITION. The sections of the image that set up the engines, as the device reads them: programs 0x21 (R202),
tensor descriptors (R224), Tweed 0x25 (R170 to R172) and Chambray 0x26 (R190, R191); and a transfer descriptor of
the DMA engines (R230).
-/

namespace Sys2Proof

/-- What SEC-DED found in a read (R207). -/
inductive Ecc where
  | clean | corrected | uncorrectable
  deriving DecidableEq, Repr

/-- The lanes that RADD adds from, and what ECC finds as the bank adder reads the words they go to (R204, R207). -/
structure AddLanes where
  mask : Fin 16
  ecc : Ecc
  deriving DecidableEq, Repr

/-- The cluster whose DMA engine takes a descriptor, and what ECC finds in reading it (R207, R235). -/
structure DescRead where
  cluster : Fin 132
  ecc : Ecc
  deriving DecidableEq, Repr

/-- The sub-operations of VOP (R200). -/
inductive VOp where
  | add | sub | mul | fma | min | max | cmpgt | select | abs | neg | and | or | xor | shift
  deriving DecidableEq, Repr

/-- The functions of VFN (R198). -/
inductive VFn where
  | exp2 | log2 | recip | rsqrt
  deriving DecidableEq, Repr

/-- The places whose floating-point arithmetic no rule gives a rounding or an order of additions. -/
inductive Place where
  | pose | calibration | camera | lidar | signals | tweed | chambray | serge | outputs | host
  deriving DecidableEq, Repr

/-- A program of section 0x21 (R202): its code and its bound. -/
structure Program where
  code : List (BitVec 64)
  fixedOrder : Bool
  maxCycles : Nat
  deriving DecidableEq, Repr

/-- The element formats of a tensor descriptor, in the order of FORMAT (R224). -/
inductive Format where
  | int4 | int8 | uint8 | fp8e4m3 | fp8e5m2 | bf16 | fp16 | fp32 | int32
  | mxfp4 | mxfp6e2m3 | mxfp6e3m2 | mxfp8e4m3 | mxfp8e5m2 | mxint8
  deriving DecidableEq, Repr, Inhabited

/-- The spaces of a tensor descriptor, in the order of SPACE (R224). -/
inductive Space where
  | coreLocal | cluster | memSide | iod | lpddr
  deriving DecidableEq, Repr, Inhabited

/-- A tensor descriptor (R224): extents of dimensions 0 to 5, strides of dimensions 1 to 5. -/
structure Tensor where
  format : Format
  rank : Nat
  space : Space
  die : Nat
  cluster : Nat
  core : Nat
  addr : Nat
  extents : List Nat
  strides : List Nat
  deriving DecidableEq, Repr

/-- A transfer descriptor (R230). -/
structure TransferDesc where
  src : Nat
  dst : Nat
  op : Nat
  srcCount : Nat
  haloReplicate : Bool
  tallyEn : Bool
  tally : Nat
  srcOrg : List Int
  dstOrg : List Nat
  ext : List Nat
  haloLo : List Nat
  haloHi : List Nat
  src2 : Nat
  src3 : Nat
  deriving DecidableEq, Repr

/-- Who sends a Damask command: a window's program from a cluster, or the host processor for a port's query (R271, R288). -/
inductive DmkIssuer where
  | window (w cl : Nat)
  | host (port : Nat)
  deriving DecidableEq, Repr

/-- A Damask command record but for its OP (R271), with the tick it belongs to, its issuer, and what SEC-DED found in the
pages that the copy engine read for it (R267, R285). -/
structure DmkCmd where
  cls : Nat
  seq : Nat
  count : Nat
  result : Nat
  tally : Nat
  tallyEn : Bool
  entry : Nat
  tick : Nat
  issuer : DmkIssuer
  ecc : Ecc
  deriving DecidableEq, Repr

/-- A neighbour query record (R172). -/
structure QueryRec where
  inLevel : Nat
  outLevel : Nat
  kernel : Nat
  probeBound : Nat
  dest : Nat
  deriving DecidableEq, Repr

/-- A farthest-point sampling record (R172). -/
structure FpsRec where
  points : Bool
  level : Nat
  distXy : Bool
  dest : Nat
  candMax : Nat
  samples : Nat
  lanes : Nat
  streams : List Nat
  seedX : F32
  seedY : F32
  deriving DecidableEq, Repr

/-- A scatter channel record (R172). -/
structure ScatterRec where
  source : Nat
  bin : Nat
  scale : BitVec 16
  deriving DecidableEq, Repr

/-- A Tweed engine record of one mode (R171). -/
structure TweedRec where
  enable : Bool
  levels : Nat
  voxel : Vec3
  roiMin : Vec3
  roiMax : Vec3
  levelCellMax : List Nat
  queries : List QueryRec
  fps : List FpsRec
  scatter : List ScatterRec
  scatterLevel : Nat
  scatterBf16 : Bool
  gridDest : Nat
  gridMapDest : Nat
  pointsDest : Nat
  cellDest : List Nat
  deriving DecidableEq, Repr

/-- Section 0x25 (R170): the records of both engines by mode. -/
structure TweedSection where
  sliceUs : Nat
  storePoints : Nat
  storePointsFb : Nat
  main : List (Nat × TweedRec)
  fb : List (Nat × TweedRec)
  deriving DecidableEq, Repr

/-- The operations of a Chambray record, in the order of OP (R191). -/
inductive ChbOp where
  | sample | lift | paint | box
  deriving DecidableEq, Repr, Inhabited

/-- A Chambray operation record (R191). -/
structure ChbRec where
  op : ChbOp
  order : Bool
  norm : Bool
  frame : Nat
  pyrLevel : Nat
  units : List Nat
  cams : List Nat
  src : Nat
  dest : Nat
  aux : Nat
  acc : Nat
  channels : Nat
  inFormat : Nat
  outFormat : Nat
  reduce : Nat
  heights : List F32
  bandTable : Nat
  dMin : F32
  dMax : F32
  dBins : Nat
  depthKind : Nat
  topk : Nat
  pMin : BitVec 16
  wEps : F32
  rowFirst : Nat
  rowCount : Nat
  window : Nat
  /-- Of SAMPLE the grid rows from ROW_FIRST on, of LIFT the cameras by their rank in CAM_MASK, that the Tick Plan gives each
  unit (R175, R188); a unit that the list leaves out takes its equal part. -/
  shares : List (List Nat) := []
  deriving DecidableEq, Repr

/-- A grid record of one mode (R190). -/
structure GridRec where
  w : Nat
  h : Nat
  pitch : F32
  hbinBase : F32
  hbinH : F32
  hbinCount : Nat
  ops : List ChbRec
  deriving DecidableEq, Repr

end Sys2Proof
end

