-- ==== Sys2Proof/Config/Plan.lean ====
section
/-!
DEFINITION. The sections of the image that plan the work, as the device reads them: the Tick Plan 0x20 and Burlap's
plan (R241 to R246), the weight blobs 0x22 (R245), the Damask classes 0x23 (R269) and the Serge problem
definitions 0x24 (R295 to R298).
-/

namespace Sys2Proof

/-- The kinds of window, in the order of KIND (R243). -/
inductive WinKind where
  | core | tweed | chambray | serge | assembly | transmit | host | recompute | golden | staging
  deriving DecidableEq, Repr, Inhabited

/-- The Tweed steps (R168): final insertion, a query of the mode, the FPS instances of one window, scatter. -/
inductive TweedStep where
  | insertion
  | query (q : Nat)
  | fps (instances : List Nat)
  | scatter
  deriving DecidableEq, Repr, Inhabited

/-- A window record (R243). `outputs` are the outputs that an ASSEMBLY or TRANSMIT window's output index stands for, and
`step` the step that a TWEED window's target stands for. -/
structure WindowRec where
  kind : WinKind
  fixedOrder : Bool
  safetyPath : Bool
  target : Nat
  openNs : Int
  durNs : Nat
  program : Option Nat
  edgeFirst : Nat
  edgeCount : Nat
  tallyFirst : Nat
  tallyCount : Nat
  streams : List Nat
  outputs : List OutKind
  step : TweedStep
  deriving DecidableEq, Repr

/-- A core group (R237, R244): the clusters of one die and the cores of each. -/
structure GroupRec where
  die : Nat
  part : Nat
  clusters : List Nat
  cores : List Nat
  deriving DecidableEq, Repr

/-- A partition (R244). -/
structure PartRec where
  die : Nat
  chambray : Bool
  clusters : List Nat
  deriving DecidableEq, Repr

/-- An edge (R240, R244). -/
structure EdgeRec where
  producer : Nat
  consumer : Nat
  stream : Bool
  propagate : Bool
  prevTick : Bool
  viaDie : Option Nat
  inputDesc : Nat
  exitRouter : Nat
  exitDefault : Bool
  tally : Nat
  deriving DecidableEq, Repr

/-- A weight placement (R244). -/
structure WeightRec where
  blob : Nat
  dest : Nat
  stageSrc : Option Nat
  deriving DecidableEq, Repr

/-- A mode record with its tables (R242). -/
structure ModeRec where
  staged : Bool
  ovlBank : Nat
  fallback : Option Nat
  transitions : List Nat
  pMs : Nat
  n : Nat
  dMinor : Nat
  lNs : Nat
  postGateMaxNs : Nat
  windows : List WindowRec
  groups : List GroupRec
  parts : List PartRec
  edges : List EdgeRec
  descs : List Tensor
  weights : List WeightRec
  hostCoreUs : Nat
  recomputePages : Nat
  stageBytes : Nat
  deriving DecidableEq, Repr

/-- Section 0x20 (R241): the present modes. -/
structure PlanSection where
  initialMode : Nat
  ovlBytes0 : Nat
  ovlBytes1 : Nat
  ovlWords0 : Nat
  ovlWords1 : Nat
  modes : List (Nat × ModeRec)
  deriving DecidableEq, Repr

/-- A weight blob (R245). -/
structure Blob where
  bytes : List Byte
  format : Format
  model : Nat
  part : Nat
  deriving DecidableEq, Repr

/-- A Damask class (R269). -/
structure DmkClass where
  half : Nat
  snapshot : Bool
  priority : Nat
  forkClass : Nat
  retainTicks : Nat
  maxSeq : Nat
  maxPages : Nat
  snapBytes : Nat
  deriving DecidableEq, Repr

/-- Section 0x23 (R269): present classes by number; the halves' values as (M0, M1) lists. -/
structure DmkSection where
  classes : List (Nat × DmkClass)
  poolPages : List Nat
  freeTarget : List Nat
  snapSlots : List Nat
  snapSlotBytes : Nat
  poolBase : List Nat
  snapBase : List Nat
  deriving DecidableEq, Repr

/-- The classes of a Serge slot, in the order of CLASS (R294, R295). -/
inductive SlotClass where
  | ego | scan | calib
  deriving DecidableEq, Repr, Inhabited

/-- A variable block (R296). -/
structure VarBlock where
  type : Nat
  fixed : Bool
  validation : Bool
  calStream : Option Nat
  scale : F32
  deriving DecidableEq, Repr

/-- A factor (R297): its kind, robust bit, used block indices and Huber threshold. -/
structure FactorRec where
  kind : Nat
  robust : Bool
  blocks : List Nat
  huber : F32
  deriving DecidableEq, Repr

/-- A noise record (R298). -/
structure NoiseRec where
  role : Nat
  sigma : F32
  holdRate : F32
  huber : F32
  deriving DecidableEq, Repr

/-- A slot record (R295). -/
structure SlotRec where
  unit : Nat
  cls : SlotClass
  gnssAlign : Bool
  modeMask : List Nat
  maxIter : Nat
  spanWindows : Nat
  nw : Nat
  valIters : Nat
  blocks : List VarBlock
  factors : List FactorRec
  nnzL : Nat
  supernodes : Nat
  /-- EPS_GRAD, EPS_STEP, EPS_COST, LAMBDA_INIT, LAMBDA_MIN, LAMBDA_REG, PIVOT_TAU, DIAG_FLOOR. -/
  params : List F32
  cutoffUs : Nat
  packetDesc : Option Nat
  /-- WHEELBASE, TRACK_F, TRACK_R, STEER_RATIO, NH_SIGMA. -/
  geometry : List F32
  inputs : List Nat
  deriving DecidableEq, Repr

/-- Section 0x24 (R295). -/
structure SergeSection where
  slots : List (Nat × SlotRec)
  noise : List NoiseRec
  deriving DecidableEq, Repr

end Sys2Proof
end

