-- ==== Sys2Proof/Config/Bank.lean ====
section
/-!
DEFINITION. The type of sparse plain data by key: a list of key and value pairs in one canonical form. The
operations stand in Sys2Proof/Machine/Bank.lean.
-/

namespace Sys2Proof

/-- Values by key. A key that is not listed holds a default value that the reader of the bank names. -/
abbrev Bank (α : Type) := List (Nat × α)

end Sys2Proof
end

