-- ==== Sys2Proof/Config/Solver.lean ====
section
/-!
DEFINITION. A Serge problem as a solve reads it (R295 to R298, R301, R309 to R311), and what a solve brings from outside the
model: how far its work had come in time.
-/

namespace Sys2Proof

/-- What one sample gives the ego problem (R310, R311): its stream and time; a role of R115, 32 for a GNSS position, 33 for a
GNSS speed, or 64 for an absolute pose; the instant at which it enters; its value or values; and for how long it is held past
its own time, in ns. -/
structure EgoMeasure where
  stream : Nat
  t : Nat
  role : Nat
  at_ : Nat
  values : List F64
  held : Nat
  deriving DecidableEq, Repr

/-- The samples of one IMU stream for one factor (R310): the extrinsic rotation of the copy that its solve read; the newest
sample before the interval, where there is one, and those in it, each with its time and values by role. -/
structure ImuRun where
  stream : Nat
  turn : Quat
  before : Option (Nat × List (Nat × F32))
  samples : List (Nat × List (Nat × F32))
  deriving DecidableEq, Repr

/-- A boundary of an EGO slot's window (R309): its instant, the STATE9 block that stands for it, and the IMU runs that join the
boundary before it to it. -/
structure EgoBoundary where
  b : Nat
  block : Nat
  imus : List ImuRun
  deriving DecidableEq, Repr

/-- The PRIOR factor that marginalisation leaves (R309): its blocks with the values at which it was taken, and the quadratic form
and the gradient over their scalars in order. -/
structure EgoPrior where
  blocks : List (Nat × List F64)
  lam : List (List F64)
  eta : List F64
  deriving DecidableEq, Repr

/-- The window of an EGO slot (R309 to R311): its boundaries, newest first, their measurements, the prior, and the geodetic
position of the first accepted fix. -/
structure EgoWindow where
  bounds : List EgoBoundary := []
  measures : List EgoMeasure := []
  prior : Option EgoPrior := none
  tangent : Option (List F64) := none
  deriving DecidableEq, Repr

/-- A problem as one solve reads it: the slot's definition, the noise records, the active factors with their measurements
(R301), those whose blocks' values at their packets count, the blocks held at their values, the calibration that the solve
reads, the warp models of the camera streams, the IMU streams and wheel-speed roles that feed the slot, and for an EGO slot its
window with the length of a minor tick. -/
structure SrgProblem where
  slot : SlotRec
  noise : List NoiseRec
  factors : List (Nat × List F64)
  extAt : List (Nat × List (List F64))
  fixed : List Nat
  cal : List (Nat × CalRecord)
  warp : List (Nat × WarpModel)
  imus : List Nat
  wheels : List Nat
  minor : Nat
  ego : Option EgoWindow
  deriving DecidableEq, Repr

/-- How far a unit's work had come in time. Everything a solve computes is the model's; its pace is not (R306 plans it at
capacity only). -/
structure SolveRun where
  /-- Operations of the loop that the unit had completed in the window when the timer stopped it (R307). -/
  ops : Nat
  /-- The time left to the deadline at each flagged pivot of the window, in ns (R303). -/
  left : List Nat
  /-- EGO: the one-sigma values were complete at the deadline (R312). -/
  covariance : Bool
  /-- Single-bit errors corrected in the unit's SRAM since the last result (R320). -/
  corrected : Nat
  deriving DecidableEq, Repr

end Sys2Proof
end

