-- ==== Sys2Proof/Config/Commands.lean ====
section
/-!
DEFINITION. What the pipelines hand over at the end of their work, as operands of the commands.
-/

namespace Sys2Proof

/-- An output's content as an assembly window delivers it, with what Felt's check engine finds of its header in the
assembly buffer (R383): the CRCs, and TICK, PLAN_EPOCH and T_VALID. -/
structure Delivered where
  kind : OutKind
  content : Content
  crcOk : Bool
  tickOk : Bool
  deriving DecidableEq, Repr

/-- Three sizes: of a rotation in nrad, of a translation in nm, of a time offset in ns (R139, R140). -/
structure CalMeasure where
  r : Nat
  t : Nat
  toff : Nat
  deriving DecidableEq, Repr

/-- One record of a candidate update (R139): its new value, and as Serge measured them its change from the active copy,
its one-sigma values (R316), its distance from the first candidate of the run, and from the seed (R140). -/
structure CandRecord where
  stream : Nat
  value : CalRecord
  change : CalMeasure
  sigma : CalMeasure
  fromFirst : CalMeasure
  drift : CalMeasure
  deriving DecidableEq, Repr

/-- A candidate update of a CALIB slot (R139): the records, and the validation residuals of the candidate and of the
active copy in one common unit (R316). -/
structure Candidate where
  records : List CandRecord
  valNew : Nat
  valActive : Nat
  deriving DecidableEq, Repr

/-- How the loop of R303 ends: its tests hold, MAX_ITER is reached, the third pivot in one iteration is flagged, the
time_left test fails, the timer of R307 stops it, or R305 discards the result. -/
inductive SolveEnd where
  | converged | maxIter | pivots | time | timer | discarded
  deriving DecidableEq, Repr

/-- What a Serge unit's solve leaves (R303 to R305, R312, R315, R316). -/
structure SolveResult where
  ended : SolveEnd
  /-- A pivot was flagged (R304). -/
  regularised : Bool
  iters : Nat
  cost : F32
  lambda : F64
  /-- The iterate returned, by block. -/
  blocks : Bank (List F64)
  /-- EGO: position, orientation, velocity and angular rate of the entry (R308, R312). -/
  pos : List F64
  quat : List F64
  vel : List F32
  rate : List F32
  /-- EGO: SIG_POS, SIG_YAW and SIG_VEL, none where the deadline fell first (R312). -/
  sigma : Option (List F32)
  /-- SCAN: the covariance of the pose (R315). -/
  cov : List F64
  /-- SCAN, CALIB: residual and inlier fraction by stream (R315, R316). -/
  consist : List (Nat × F32 × Nat)
  /-- CALIB: the candidate (R139). -/
  candidate : Option Candidate
  /-- Single-bit errors corrected in the unit's SRAM since the last result (R320). -/
  corrected : Nat
  deriving DecidableEq, Repr

end Sys2Proof
end

