-- ==== Sys2Proof/Config/Host.lean ====
section
/-!
DEFINITION. Section 0x30 of the image (R360) and what a host sends: a submission entry (R353), with the operations of
R354, and the events of its PCI Express link (R347).
-/

namespace Sys2Proof

/-- A query lane of a port record (R360). -/
structure LaneRec where
  budgetUs : Nat
  nextMinor : Bool
  thisMajor : Bool
  maxOutstanding : Nat
  deriving DecidableEq, Repr

/-- A port record (R360). -/
structure HostPortRec where
  enable : Bool
  maxForks : Nat
  resultStoreKib : Nat
  streamBw : Nat
  lanes : List LaneRec
  deriving DecidableEq, Repr

/-- A host model record (R360). -/
structure HostModel where
  program : Nat
  modeMask : List Nat
  costUs : Nat
  outCh : Nat
  outFormat : Nat
  usesSeq : Bool
  inProduct : Nat
  deriving DecidableEq, Repr

/-- A grid product record (R360). -/
structure ProductRec where
  modeMask : List Nat
  format : Nat
  channels : Nat
  descs : List Nat
  deriving DecidableEq, Repr

/-- Section 0x30 (R360). -/
structure HostSection where
  privPort : Option Nat
  privKeyDigest : Nat
  gridSeq : Nat
  trackSeqBase : Nat
  ports : List HostPortRec
  models : List HostModel
  products : List ProductRec
  deriving DecidableEq, Repr

/-- A submission entry (R353). -/
structure Submission where
  op : BitVec 8
  lane : Nat
  thisMajor : Bool
  queryId : BitVec 32
  args : List Word
  resultAddr : Nat
  resultLen : Nat
  deriving DecidableEq, Repr

/-- The events of a port's PCI Express link that close its session (R347), Hn_PERST_N (R481), and the link's return. -/
inductive PcieEvent where
  | linkDown | hotReset | flr | d3hot | busMasterClear | perst | busMasterSet | linkUp
  deriving DecidableEq, Repr

/-- What the Keccak engine finds of a PRIV_CLAIM's buffer (R359): the SHAKE256 digest of the public key in it, and whether the
signature holds. -/
structure PrivClaim where
  keyDigest : Nat
  signatureHolds : Bool
  deriving DecidableEq, Repr

end Sys2Proof
end

