-- ==== Sys2Proof/Config/Link.lean ====
section
/-!
DEFINITION. Sections 0x27, 0x31 and 0x32 of the image (R378, R389, R394), and what arrives on the vehicle ports
(R364, R365, R373).
-/

namespace Sys2Proof

/-- Section 0x31 (R378). -/
structure LinkSection where
  roleSlave : List Bool
  etherType : Nat
  pcpFast : Nat
  pcpBulk : Nat
  vid : Nat
  ctrlMac : Nat
  portMac : List Nat
  deviceId : BitVec 32
  ctrlId : BitVec 32
  gptpDomain : Nat
  logSync : Int
  stepThUs : Nat
  freshUs : Nat
  consentMaxMs : Nat
  deriving DecidableEq, Repr

/-- A golden segment (R394). -/
structure GoldenSeg where
  program : Nat
  sig : BitVec 64
  deriving DecidableEq, Repr

/-- Section 0x32 (R394): the five thresholds in the order of the table. -/
structure SafetySection where
  disMax : List F32
  resumeTicks : Nat
  goldenCluOff : Nat
  inputs : List Byte
  segs : List GoldenSeg
  deriving DecidableEq, Repr

/-- Section 0x27 (R389): Burlap's plan, in the formats of the Tick Plan. -/
structure BurlapSection where
  windows : List WindowRec
  groups : List GroupRec
  edges : List EdgeRec
  descs : List Tensor
  weights : List WeightRec
  deriving DecidableEq, Repr

/-- A frame from the vehicle controller as it arrives on a port (R364, R374): the fields of its Ethernet header, whether its
FCS holds, and the bytes behind the EtherType: protection header, body and padding. -/
structure CtrlFrame where
  dest : Nat
  etherType : Nat
  vid : Nat
  fcsOk : Bool
  bytes : List Byte
  deriving DecidableEq, Repr

end Sys2Proof
end

