-- ==== Sys2Proof/Config/Image.lean ====
section
/-!
DEFINITION. The boot image of spec/17_image_boot_and_firmware.md as the device reads it: its sections (R402), the
manifest fields it acts on (R400), and what the verification steps of R405 found in a slot.
-/

namespace Sys2Proof

/-- A section entry of the manifest (R401). -/
structure SectionEntry where
  id : Nat
  part : Nat
  phase : Nat
  offset : Nat
  bytes : Nat
  digest : Nat
  deriving DecidableEq, Repr

/-- The manifest (R400) with its section entries. -/
structure Manifest where
  magic : Nat := 0
  formatVersion : Nat := 0
  sectionCount : Nat := 0
  manifestBytes : Nat := 0
  imageBytes : Nat := 0
  serial : BitVec 32 := 0
  rollbackIndex : Nat := 0
  lifecycleMask : BitVec 3 := 0
  retire : Bool := false
  caquecoVersion : Nat := 0
  memGroups : Nat := 0
  memRanks : Bool := false
  inlineEcc : Bool := false
  memGib : Nat := 0
  buildId : Nat := 0
  entries : List SectionEntry := []
  deriving DecidableEq, Repr

/-- What MEM_CONFIG declares of the LPDDR5X fitted on each memory-side die (R400, R487), and what a die's steward finds there:
groups of four channels, one or two ranks, capacity in GiB. -/
structure MemFit where
  groups : Nat
  ranks : Bool
  gib : Nat
  deriving DecidableEq, Repr

/-- What a steward measures and finds of its own die (R432, R434, R487): the latency of the die's link to the IOD, and the
LPDDR5X fitted on a memory-side die. -/
structure DieFit where
  latency : Nat
  memory : MemFit
  deriving DecidableEq, Repr

/-- The fields of a certificate (R404): KIND 1 signs images, KIND 2 binds a device's identity, its KEY_ID the device serial. -/
structure Certificate where
  magic : Nat
  kind : Nat
  format : Nat
  keyId : BitVec 64
  lifecycleMask : BitVec 3
  bindSerial : BitVec 64
  publicKey : List Byte
  signature : List Byte
  deriving DecidableEq, Repr

/-- The fields of the signature block (R404). -/
structure SignatureBlock where
  magic : Nat
  formatVersion : Nat
  rootKey : List Byte
  cert : Certificate
  manifestSig : List Byte
  deriving DecidableEq, Repr

/-- Sections 0x25 and 0x26, 0x10 to 0x33 as one image (R402). Firmware sections 0x01 to 0x05 carry code for the
firmware processors alone and have no content the model reads. -/
structure Image where
  manifest : Manifest
  /-- The digests that the Keccak engine gives of the manifest and of IMAGE_CERT (R422). -/
  manifestDigest : Nat
  certDigest : Nat
  /-- The image copy (R399): the bytes of each section entry that has been read, by the entry's place in the manifest. -/
  sections : List (Nat × List Byte)
  streams : StreamTable
  cameras : List (Nat × CameraPort)
  parsers : List (Nat × ParserDesc)
  cal : CalSection
  warp : List (Nat × WarpModel)
  plan : PlanSection
  programs : List (Nat × Program)
  blobs : List (Nat × Blob)
  damask : DmkSection
  serge : SergeSection
  tweed : TweedSection
  grids : List (Nat × GridRec)
  burlap : BurlapSection
  host : HostSection
  link : LinkSection
  safety : SafetySection
  /-- The trace points that section 0x33 enables, or none where it is absent (R402, R420). -/
  traceMask : List Nat
  deriving DecidableEq, Repr

/-- The image before one is read: nothing present (R344: before section 0x30 is read no host port is enabled). -/
def Image.empty : Image where
  manifest := {}
  manifestDigest := 0
  certDigest := 0
  sections := []
  streams := { entryCount := 0, poseExtrapLimitUs := 0, sigs := [], buses := [], gnssEn := false,
               ppsFalling := false, baud := 0, entries := [] }
  cameras := []
  parsers := []
  cal := { digest := 0, confirmCount := 0, gainMin := 0, deferLimit := 0, records := [], limits := [] }
  warp := []
  plan := { initialMode := 0, ovlBytes0 := 0, ovlBytes1 := 0, ovlWords0 := 0, ovlWords1 := 0, modes := [] }
  programs := []
  blobs := []
  damask := { classes := [], poolPages := [0, 0], freeTarget := [0, 0], snapSlots := [0, 0], snapSlotBytes := 0,
              poolBase := [0, 0], snapBase := [0, 0] }
  serge := { slots := [], noise := [] }
  tweed := { sliceUs := 0, storePoints := 0, storePointsFb := 0, main := [], fb := [] }
  grids := []
  burlap := { windows := [], groups := [], edges := [], descs := [], weights := [] }
  host := { privPort := none, privKeyDigest := 0, gridSeq := 0, trackSeqBase := 0, ports := [], models := [],
            products := [] }
  link := { roleSlave := [], etherType := 0, pcpFast := 0, pcpBulk := 0, vid := 0, ctrlMac := 0, portMac := [],
            deviceId := 0, ctrlId := 0, gptpDomain := 0, logSync := 0, stepThUs := 0, freshUs := 0,
            consentMaxMs := 0 }
  safety := { disMax := [], resumeTicks := 0, goldenCluOff := 0, inputs := [], segs := [] }
  traceMask := []

/-- The lifecycle states of R407, in the order of their codes. -/
inductive Lifecycle where
  | manufacture | development | production | retired
  deriving DecidableEq, Repr

/-- The code of a lifecycle state (R407). -/
def Lifecycle.code : Lifecycle → Nat
  | .manufacture => 0 | .development => 1 | .production => 2 | .retired => 3

/-- The bytes read of one section entry, by its place in the manifest, and the digest that the Keccak engine gives of them
(R401, R405). -/
structure SectionRead where
  entry : Nat
  bytes : List Byte
  digest : Nat
  deriving DecidableEq, Repr

/-- The answers of the Keccak engine about a slot (R405, R421), which are computed outside the model: the digests of ROOT_KEY,
of the manifest and of IMAGE_CERT, and whether the two signatures verify. -/
structure SlotCrypto where
  rootKeyDigest : Nat
  certSigOk : Bool
  manifestSigOk : Bool
  manifestDigest : Nat
  certDigest : Nat
  deriving DecidableEq, Repr

/-- What was read of a slot (R399, R409): the bytes of the manifest, of the signature block and of the sections, and whether a
16 MiB block was not read in time. -/
structure SlotBytes where
  manifest : List Byte
  block : List Byte
  sections : List SectionRead
  blockTimeout : Bool
  deriving DecidableEq, Repr

/-- What reading a slot shows (R399, R405): its bytes, and the answers of the Keccak engine about them. -/
structure SlotRead extends SlotCrypto, SlotBytes where
  deriving DecidableEq, Repr

/-- A slot of the boot NVM (R398). -/
inductive Slot where
  | a | b
  deriving DecidableEq, Repr

/-- The other slot. -/
def Slot.other : Slot → Slot
  | .a => .b | .b => .a

/-- 0 for slot A, 1 for slot B (R423). -/
def Slot.idx : Slot → Nat
  | .a => 0 | .b => 1

/-- The firmware processors in the order of R423. -/
abbrev FwProc := Fin 10

/-- What a wear record holds (R447). -/
structure WearRecord where
  operS : Nat
  canary : List (Nat × Nat)
  canaryAll : Nat
  em : List Nat
  roShift : List (Nat × Nat)
  lifeH : BitVec 32
  lifeBandH : BitVec 32
  lifeMech : BitVec 2
  seq : BitVec 32
  deriving DecidableEq, Repr

/-- The links with an eye margin (R446). -/
inductive EyeLink where
  | camera (n : Fin 16)
  | lidar (n : Fin 8)
  | vehicle (n : Fin 2)
  deriving DecidableEq, Repr

/-- The limits that firmware can tighten (R444). -/
inductive Limit where
  | halve (die : Fin 4)
  | off (die : Fin 7)
  | under (rail : Fin 14)
  | above (rail : Fin 14)
  | current (rail : Fin 4)
  deriving DecidableEq, Repr

/-- The instructions of the TAP (R492); an instruction the device does not have stands under `other`. -/
inductive TapInstr where
  | bypass | idcode | samplePreload | extest | clamp | highz | other
  deriving DecidableEq, Repr

/-- What the header of a slot holds as the start reads it (R408). -/
structure SlotHeader where
  magicOk : Bool := false
  serial : BitVec 32 := 0
  rollbackIndex : Nat := 0
  deriving DecidableEq, Repr

end Sys2Proof
end

