-- ==== Sys2Proof/Config/SensorEvents.lean ====
section
/-!
DEFINITION. What arrives at the sensor ports, as operands of the commands: frames, packets, sentences and the values
a port reports.
-/

namespace Sys2Proof

/-- A valid Sync and Follow_Up pair on V0 (R28): the grandmaster's time of the Sync, correction included, and the
device-time stamp taken at the PHY. -/
structure SyncPair where
  vehicleNs : Int
  stamp : Nanos
  deriving DecidableEq, Repr

/-- A frame received on a lidar port (R106, R107). -/
structure LidarFrame where
  fcsOk : Bool
  dest : Nat
  etherType : Nat
  udpPort : Option Nat
  /-- The port's receive FIFO can hold the frame whole (R108). -/
  fits : Bool
  /-- The payload after the Ethernet header, or after the UDP header (R109). -/
  payload : List Byte
  arrival : Nanos
  deriving DecidableEq, Repr

/-- What the header check of a CSI-2 packet found (R83). -/
inductive EccResult where
  | clean | corrected | uncorrectable
  deriving DecidableEq, Repr

/-- A CSI-2 packet on a camera port (R81 to R83): a row's pixels before unpacking are its values. `row` is the image row that a long packet carries. -/
structure CsiPacket where
  vc : Nat
  dataType : Nat
  ecc : EccResult
  crcOk : Bool
  /-- The image row that a long packet carries, from its place in the frame. -/
  row : Nat
  pixels : List Nat
  arrival : Nanos
  deriving DecidableEq, Repr

/-- The frame statistics of R96: the metered level on the 24-bit linear scale, and the mean luminance and the red,
green (or clear) and blue means of each zone. -/
structure FrameStats where
  metered : Nat
  zoneLuma : List Nat
  zoneR : List Nat
  zoneG : List Nat
  zoneB : List Nat
  histogram : List Nat
  deriving DecidableEq, Repr

/-- A received CAN or CAN FD frame with its start-of-frame stamp (R46, R121). -/
structure CanFrame where
  id : Nat
  ide : Bool
  fdf : Bool
  payload : List Byte
  stamp : Nanos
  /-- The controller's receive error counter and error-passive state after the frame (R129, ISO 11898-1). -/
  rec_ : BitVec 8
  errPassive : Bool
  deriving DecidableEq, Repr

/-- The types of NMEA sentence that R123 names. -/
inductive SentenceKind where
  | gga | rmc | zda | other
  deriving DecidableEq, Repr

/-- An NMEA sentence (R123, R124): what the receiver found in it, and its first start bit's stamp. -/
structure Sentence where
  kind : SentenceKind
  framingErrors : Nat
  checksumOk : Bool
  length : Nat
  parsable : Bool
  fixQuality : Nat
  rmcActive : Bool
  /-- The UTC time the sentence names, in ns since 1970-01-01 without leap seconds (RMC, ZDA). -/
  utcNs : Nat
  /-- Latitude, longitude and altitude, or speed and course, as decoded values. -/
  values : List F64
  stamp : Nanos
  deriving DecidableEq, Repr

end Sys2Proof
end

