-- ==== Sys2Proof/Syntax.lean ====
section
/-!
DEFINITION. The commands of the LZ9400: one constructor per row of spec/opcode_table.json, in its order, with the row's
operands. A command's effect is the indivisible step of that row (spec/95_what_each_step_holds.md). What reaches the
device from outside (frames, stamps, the pace of its units, the results of programs and keys that the spec does not
give) is an operand; everything else the step needs is in the state.
-/

namespace Sys2Proof

/-- A command (a row of spec/opcode_table.json). -/
inductive Instr where
  /-- At every minor tick boundary the Tick Sequencer sends the tick broadcast with k, m, plan epoch, device time,
  frequency adjustment and minor tick length. (R51) -/
  | minorTickBoundary (interval : Nat)
  /-- At each whole multiple of P, k increments and boundary-bound changes such as swaps, mode switches and rejoins
  take effect. (R25) -/
  | majorTickBoundary
  /-- A die receives a tick broadcast, compares it with its local time copy, k and epoch, and applies the carried
  frequency adjustment or reports a fault. (R52) -/
  | tickBroadcastArrival (die : Fin 6)
  /-- A release engine releases a planned window at its planned opening by local device time. (R247) -/
  | windowRelease (src : Source) (tick w : Nat)
  /-- A window whose cores or unit were occupied is released once they are freed, and TSQ_HELD_RELEASE_COUNT
  increments. (R247) -/
  | heldWindowRelease (src : Source) (tick w : Nat)
  /-- A CORE, HOST or RECOMPUTE window reaches its planned end plus 5 %; unfinished cores stop and outputs are marked
  missing. (R248) -/
  | layerWatchdogExpiry (src : Source) (tick w : Nat)
  /-- A Tweed step exceeds its planned window plus 5 %, stops, and its outputs are marked missing. (R168) -/
  | tweedStepTimerExpiry (src : Source) (tick w : Nat)
  /-- A Chambray unit's window exceeds its planned window plus 5 %, stops, and its part is marked missing. (R188) -/
  | chambrayTimerExpiry (tick w : Nat)
  /-- An ASSEMBLY window not complete by its planned end plus 5 % is stopped and marked missing. (R248) -/
  | assemblyTimerExpiry (src : Source) (tick w : Nat)
  /-- Output assembly of tick k completes and Felt selects the content to send. (R382) -/
  | assemblyComplete (src : Source) (tick w : Nat) (contents : List Delivered)
  /-- A STAGING window's copy stops at its planned end and continues in the next STAGING window. (R248) -/
  | stagingWindowEnd (tick w bytes : Nat)
  /-- At the TRANSMIT window opening the output is released on V0 and V1 and written to subscribed host rings. (R261) -/
  | transmitWindow (tick w : Nat)
  /-- A safety-link port finishes a frame and starts the waiting frame of highest precedence. (R368) -/
  | vlinkFrameDone (port : Fin 2)
  /-- A HOST window reaches its planned end and the results and completions of its queries are written. (R357) -/
  | hostWindowEnd (tick w : Nat)
  /-- A stream's gate closes at T_k + G_s and Muslin decides whether the stream is absent for tick k. (R72) -/
  | gateClose (stream : Fin 48)
  /-- SLICE_US has passed since a slice's first arrival and the slice closes and is compensated. (R145) -/
  | sliceTimerExpiry (src : Source) (stream : Fin 48)
  /-- Waiting compensated points are inserted at the later of B_k and the release of the previous table. (R148) -/
  | deferredInsertion (src : Source)
  /-- At the end of the last Tweed window of tick k the valid bitmap and level counts are cleared and max probes
  recorded. (R166) -/
  | tweedTableRelease (src : Source)
  /-- A valid Sync and Follow_Up pair on V0 updates the servo's rate estimate and residual. (R495) -/
  | syncFollowUpReceived (pair : SyncPair)
  /-- A received Announce on V0 is processed to learn the grandmaster identity; a change is a step. (R28) -/
  | announceReceived (grandmaster : Nat)
  /-- No valid Sync for three expected intervals, link down or asCapable false puts the servo into HOLDOVER. (R32) -/
  | vehicleTimeLoss
  /-- Once per second a port on V0 or L0–L7 initiates Pdelay_Req. (R36) -/
  | pdelayReqTimer (port : GptpPort)
  /-- A received Pdelay_Req on V0 or a lidar port is answered. (R28) -/
  | pdelayReqReceived (port : GptpPort)
  /-- A Pdelay response updates the port's mean link delay and asCapable state. (R36) -/
  | pdelayRespReceived (port : GptpPort) (linkDelay : Nat) (asCapable : Bool)
  /-- A frame of EtherType 0x88F7 on V1 is counted and discarded. (R29) -/
  | v1GptpFrame
  /-- A lidar port sends two-step Sync and Follow_Up carrying device time at its logSyncInterval. (R36) -/
  | lidarSyncSend (n : Fin 8)
  /-- A lidar port sends Announce once per second. (R36) -/
  | lidarAnnounceSend (n : Fin 8)
  /-- A received Announce, Sync or Follow_Up on a lidar port is counted and ignored. (R36) -/
  | lidarGptpReceived (n : Fin 8) (kind : GptpKind)
  /-- An accepted lidar frame is parsed, tested, assigned to a tick, subjected to quotas and handed to both Tweed
  engines. (R107) -/
  | lidarFrameReceived (n : Fin 8) (frame : LidarFrame)
  /-- A lidar PHY reports link down; the loss is counted, a health event raised and the port retrains. (R105) -/
  | lidarLinkDown (n : Fin 8)
  /-- A lidar port completes training at its configured speed. (R105) -/
  | lidarLinkUp (n : Fin 8)
  /-- At t_send the device sends a camera trigger message, or skips it when the port is not UP. (R92) -/
  | triggerSend (port : Fin 16)
  /-- A CSI-2 packet from a camera port is checked, stamped and assembled into rows and bands. (R83) -/
  | csi2PacketReceived (port : Fin 16) (pkt : CsiPacket)
  /-- A loss of A-PHY downlink lock lasting 2 ms sends the port to TRAINING and is counted. (R85) -/
  | linkLockLoss (port : Fin 16)
  /-- 100 ms after a failed training or initialisation began, the port starts a new training attempt. (R84) -/
  | retrainIntervalExpiry (port : Fin 16)
  /-- A-PHY training completes and the port enters INIT. (R84) -/
  | trainingSuccess (port : Fin 16)
  /-- Training not complete after 20 ms sends the port to DOWN and is counted. (R84) -/
  | trainingTimeout (port : Fin 16)
  /-- A CCI transaction is acknowledged and the initialisation sequence or exposure write proceeds. (R86) -/
  | cciAck (port : Fin 16) (data : Nat)
  /-- A CCI transaction not acknowledged within 1 ms is a CCI error and may restart or fail initialisation. (R90) -/
  | cciTimeout (port : Fin 16)
  /-- Frame statistics complete and the loop decides the next exposure, gain and white balance. (R97) -/
  | statisticsComplete (port : Fin 16)
  /-- Percale completes a band and writes its base and pyramid levels to the compute dies. (R95) -/
  | percaleBandDone (port : Fin 16) (band : Nat) (dests : List (Nat × Nat))
  /-- The device drives an IMUn_SYNC pulse phase-locked to the minor tick boundaries. (R44) -/
  | imuSyncPulse (n : Fin 4)
  /-- An IMUn_DRDY edge is stamped and starts an SPI transaction, or is counted as overrun or orphan. (R117) -/
  | imuDrdyEdge (n : Fin 4)
  /-- An IMU SPI transaction ends and its payload is checked and decoded into a sample. (R118) -/
  | imuTransactionDone (n : Fin 4) (payload : List Byte)
  /-- No DRDY edge within half the pulse period after a sync pulse is counted as a missed sample. (R45) -/
  | imuMissedSample (n : Fin 4)
  /-- A received CAN frame is stamped and delivered as a sample to every matching stream. (R121) -/
  | canFrameReceived (n : Fin 4) (frame : CanFrame)
  /-- An NMEA sentence is stamped, checked and taken as a GNSS sample. (R123) -/
  | gnssSentenceReceived (sentence : Sentence)
  /-- A PPS edge is stamped, published in TSQ_PPS_STAMP and clears PPS_MISSING. (R47) -/
  | gnssPpsEdge
  /-- No PPS edge for 1.2 s sets PPS_MISSING. (R48) -/
  | ppsMissingTimeout
  /-- No time sentence within 1,000 ms of a PPS rejects the pair and counts it unpaired. (R124) -/
  | gnssPairTimeout
  /-- No usable sample for 3 × PERIOD_US puts the stream into REACQUIRING. (R71) -/
  | absenceTimeout (stream : Fin 48)
  /-- The core waits for the Tick Sequencer's release of the named window. (R200) -/
  | wstart (cl : Fin 132) (co : Fin 64) (imm : Word)
  /-- The core reports completion of its window, ORs NSW into NUM_FLAGS_LAST and idles. (R200) -/
  | endOp (cl : Fin 132) (co : Fin 64)
  /-- The core waits until a cluster tally reaches the immediate value. (R200) -/
  | wtally (cl : Fin 132) (co : Fin 64) (t : Fin 256) (imm : Word)
  /-- The core adds 1 to a named tally, possibly ending waits and fixed-order drains. (R206) -/
  | signalOp (cl : Fin 132) (co : Fin 64) (x : Fin 16)
  /-- The core starts a hardware loop of a fixed count. (R200) -/
  | loopOp (cl : Fin 132) (co : Fin 64) (l : Fin 4) (imm : Word)
  /-- The core starts a loop of min(X, IMM) iterations, setting LOOP_CLAMP when clamped. (R200) -/
  | loopx (cl : Fin 132) (co : Fin 64) (l : Fin 4) (a : Fin 16) (imm : Word)
  /-- The core ends a loop body and branches back while the loop counter remains. (R200) -/
  | endl (cl : Fin 132) (co : Fin 64) (l : Fin 4)
  /-- The core sets an X register to the immediate. (R200) -/
  | movi (cl : Fin 132) (co : Fin 64) (x : Fin 16) (imm : Word)
  /-- The core adds an immediate to an X register modulo 2^32. (R200) -/
  | addi (cl : Fin 132) (co : Fin 64) (x a : Fin 16) (imm : Word)
  /-- The core loads 64 bytes from local or cluster SRAM into a vector register. (R196) -/
  | ldv (cl : Fin 132) (co : Fin 64) (v : Fin 32) (a : Fin 16) (imm : Word) (ecc : Ecc)
  /-- The core stores the lanes of a vector selected by a mask. (R200) -/
  | stvm (cl : Fin 132) (co : Fin 64) (v : Fin 32) (a m : Fin 16)
  /-- The MAC array accumulates A times B over K into an accumulator for the selected format pair. (R213) -/
  | mma (cl : Fin 132) (co : Fin 64) (acc : Fin 8) (xa xb xk : Fin 16) (fmt : BitVec 6) (subA subB : Bool) (ecc : Ecc)
  /-- The core zeroes an accumulator and tags it INT32 or FP32. (R200) -/
  | accz (cl : Fin 132) (co : Fin 64) (a : Fin 8) (fp : Bool)
  /-- The core reads one accumulator column into a vector register. (R200) -/
  | accrd (cl : Fin 132) (co : Fin 64) (v : Fin 32) (a col : Fin 8)
  /-- The core writes a vector register into one accumulator column. (R200) -/
  | accwr (cl : Fin 132) (co : Fin 64) (a : Fin 8) (v : Fin 32) (col : Fin 8)
  /-- Each accumulator row is multiplied by the matching lane of a vector. (R199) -/
  | accscl (cl : Fin 132) (co : Fin 64) (a : Fin 8) (v : Fin 32)
  /-- The vector unit performs the selected lane-wise arithmetic or logical operation. (R217) -/
  | vop (cl : Fin 132) (co : Fin 64) (op : VOp) (int : Bool) (vd va vb vc : Fin 32)
  /-- The vector unit converts lanes to the destination format with rounding and optional saturation. (R215) -/
  | vcvt (cl : Fin 132) (co : Fin 64) (vd va : Fin 32) (int : Bool) (f : Format) (sat : Bool) (shift : BitVec 8)
  /-- The vector unit reduces lanes by sum or maximum in a fixed tree. (R198) -/
  | vred (cl : Fin 132) (co : Fin 64) (vd va : Fin 32) (max : Bool)
  /-- The vector unit computes exp2, log2, reciprocal or reciprocal square root. (R198) -/
  | vfn (cl : Fin 132) (co : Fin 64) (vd va : Fin 32) (f : VFn)
  /-- The online-softmax group updates running row maxima from n score columns. (R199) -/
  | smax (cl : Fin 132) (co : Fin 64) (vd vs : Fin 32) (n : Nat)
  /-- The online-softmax group exponentiates scores against the maxima and adds them to the running sums. (R199) -/
  | sexp (cl : Fin 132) (co : Fin 64) (vs vm vl : Fin 32) (n : Nat)
  /-- The online-softmax group computes rescale factors, rescales sums and takes new maxima. (R199) -/
  | srsc (cl : Fin 132) (co : Fin 64) (va vm vd vl : Fin 32)
  /-- The online-softmax group merges two partial softmax states. (R199) -/
  | smrg (cl : Fin 132) (co : Fin 64) (vd vs : Fin 32)
  /-- The core queues a transfer descriptor to its cluster DMA engine. (R200) -/
  | dmaq (cl : Fin 132) (co : Fin 64) (x : Fin 16)
  /-- The core waits until at most IMM of its descriptors are outstanding. (R200) -/
  | dmaw (cl : Fin 132) (co : Fin 64) (imm : Word)
  /-- The core reduce-adds selected FP32 lanes into cluster SRAM words through the bank adder. (R204) -/
  | radd (cl : Fin 132) (co : Fin 64) (x : Fin 16) (v : Fin 32) (m : AddLanes)
  /-- The core sets CSCALE to an FP32 immediate. (R200) -/
  | setc (cl : Fin 132) (co : Fin 64) (imm : Word)
  /-- The core reads NSW into an X register and clears it. (R218) -/
  | rdnsw (cl : Fin 132) (co : Fin 64) (x : Fin 16)
  /-- An undefined opcode stops the program, sets INVALID and is treated as a window overrun. (R200) -/
  | undefinedOpcode (cl : Fin 132) (co : Fin 64)
  /-- The DMA engine takes a queued descriptor and checks it, refusing a malformed transfer as a class H fault. (R235) -/
  | transferStart (cl : DescRead)
  /-- Every write of a transfer is accepted and the named tally increments. (R235) -/
  | transferComplete (cl : Fin 132) (n : Nat) (ecc : List Ecc)
  /-- A transfer not complete within 100 µs is abandoned and counted. (R235) -/
  | transferTimeout (cl : Fin 132) (n : Nat)
  /-- The scrubber reads the next line of a bank once every 1,024 core cycles. (R207) -/
  | scrubAccess (cl : Fin 132) (bank : Fin 288) (ecc : Ecc)
  /-- A Burlap cluster whose SRAM took a double-bit error has been zeroed and reloaded and runs from the next major
  boundary. (R207) -/
  | burlapClusterReloadDone (cl : Fin 4)
  /-- A mesh or die-link transaction expires at 10 µs and is retried once or leads to partition restart. (R426) -/
  | linkTransactionTimeout (die : Fin 6) (part : Nat) (ofRetry : Bool) (tick w : Nat)
  /-- A mesh or die-link flit fails its CRC and is resent. (R211) -/
  | flitCrcError
  /-- Damask creates a sequence at the lowest free index, or refuses REFUSED_NO_SEQ. (R278) -/
  | create (half : Fin 2) (cmd : DmkCmd)
  /-- Damask writes a view of a sequence and pins its listed pages until the epoch closes. (R274) -/
  | openView (half : Fin 2) (cmd : DmkCmd)
  /-- Damask reserves token positions at the end of a sequence, copying on write or refusing. (R276) -/
  | appendTok (half : Fin 2) (cmd : DmkCmd)
  /-- Damask creates a sequence sharing the source's committed pages. (R277) -/
  | forkSeq (half : Fin 2) (cmd : DmkCmd)
  /-- Damask schedules removal of a sequence at its epoch's close. (R278) -/
  | freeSeq (half : Fin 2) (cmd : DmkCmd)
  /-- Damask records a rebuilt page to replace its dropped entry at the epoch close. (R283) -/
  | restore (half : Fin 2) (cmd : DmkCmd)
  /-- Damask lists recompute queue entries the window may rebuild and reserves slots for them. (R283) -/
  | openQueue (half : Fin 2) (cmd : DmkCmd)
  /-- A Damask command with a reserved OP, a zero COUNT or a bad sequence completes INVALID. (R272) -/
  | damaskReservedOp (half : Fin 2) (cmd : DmkCmd)
  /-- Once every command-issuing window of tick k has ended, Damask commits, discards, frees, releases pins and
  restores the pool. (R275) -/
  | epochClose
  /-- A Serge solve ends CONVERGED or CAPPED and writes its results. (R303) -/
  | solveEnd (unit : Fin 4) (run : SolveRun)
  /-- The unit timer stops a solve at its window's planned end; it ends CAPPED or resumes in the next window. (R307) -/
  | sergeDeadline (unit : Fin 4) (run : Option SolveRun)
  /-- A unit that has not stopped within 2 µs of its deadline is in fault and is reset. (R320) -/
  | sergeStopTimeout (unit : Fin 4)
  /-- A Serge unit reset completes with slots reloaded and R299 rerun. (R320) -/
  | sergeUnitResetDone (unit : Fin 4)
  /-- A golden segment ends and Felt compares every core's signature with SIG. (R391) -/
  | goldenSegmentEnd (cl : Fin 132) (sigs : List (BitVec 64)) (roShift : BitVec 16)
  /-- The budget timer stops golden cores at the window's planned end and discards the segment in progress. (R391) -/
  | goldenBudgetTimer (tick w : Nat)
  /-- After RESUME_TICKS clean major ticks Felt sends a CLEARED notice, clears CLASS_V_ACTIVE and restarts SAFE_OK.
  (R387) -/
  | resumeCountExpiry
  /-- The restarted safety processor pair passes its self-check, ending conditions 0x0001 to 0x0003. (R387) -/
  | selfCheckPass
  /-- The lockstep comparator detects a mismatch between the safety cores, a class V fault. (R381) -/
  | lockstepMismatch
  /-- No REFCLK edges for 10 µs is a class V fault 0x0003. (R54) -/
  | refclkLoss
  /-- An IOD fabric uncorrectable error or 10 µs transaction timeout is class V 0x0004. (R386) -/
  | fabricError
  /-- A firmware processor's 10 ms watchdog expires and that processor alone restarts within 5 ms. (R418) -/
  | fwWatchdogExpiry (p : FwProc)
  /-- The die steward completes the reload of a restarting partition, which then awaits rejoin. (R428) -/
  | reloadDone (die : Fin 6) (part : Nat) (ok : Bool)
  /-- A partition or die not rejoined 300 ms after detection, or restarted a fourth time in 60 s, is declared failed.
  (R433) -/
  | restartTimeout (die : Fin 6) (part : Nat)
  /-- A die steward reports its digests, firmware version and epoch, and the die is admitted or not. (R434) -/
  | dieAdmissionReport (die : Fin 6) (digestsOk versionOk epochOk : Bool) (fit : DieFit)
  /-- A die that has not reported by its admission deadline is not admitted and its modes are unavailable. (R411) -/
  | admissionDeadline (die : Fin 6)
  /-- If SAFE_OK is not running 2,000 ms after reset release the device performs a full device reset. (R411) -/
  | healthDeadline
  /-- Release of PORST_N starts a cold start with all state lost. (R481) -/
  | powerOnReset (strapNvProfile strapTest0 strapTest1 : Bool) (vddOut : List (Fin 4))
  /-- DEVRST_N causes a full device reset that keeps the boot hint and HKP_BOOT_STATUS. (R481) -/
  | deviceReset
  /-- A section's bytes have been read and its digest checked, enabling its use such as camera port enable. (R405) -/
  | sectionVerified (id : BitVec 8) (bytes : List Byte) (digest : Nat)
  /-- Phase 0 is read and verified and the tick, safety and housekeeping firmware and Tick Sequencer start. (R410) -/
  | phase0Loaded (check : SlotCrypto) (img : SlotBytes)
  /-- The whole slot is verified, Felt's start-up checks pass and die stewards begin loading. (R410) -/
  | slotVerified (bad : Option (BitVec 8))
  /-- A 16 MiB block not read within 200 ms fails the slot, leading to the next slot or full device reset. (R409) -/
  | imageBlockTimeout
  /-- The warm-start slot read ends, verified or failed; on success the changeover boundary is set. (R414) -/
  | warmReadDone (check : SlotCrypto) (img : SlotBytes)
  /-- After the last old window on a die ends at a warm start, the die is reloaded with the new image. (R414) -/
  | dieReload (die : Fin 6)
  /-- A write of OPEN to HST_SESSION_CTRL moves a CLOSED session to ATTESTING or back to CLOSED with reason CONFIG.
  (R347) -/
  | sessionOpen (port : Fin 4)
  /-- A write of CLOSE to HST_SESSION_CTRL ends an ATTESTING session or moves an OPEN one to CLOSING. (R347) -/
  | sessionClose (port : Fin 4)
  /-- The housekeeping processor writes a signed attestation report and the session enters OPEN. (R422) -/
  | attestReportDone (port : Fin 4)
  /-- No report 400 ms after OPEN closes the session with reason ATTEST. (R347) -/
  | attestTimeout (port : Fin 4)
  /-- A write to HST_HEARTBEAT in OPEN restarts the heartbeat timer. (R348) -/
  | hstHeartbeat (port : Fin 4) (value : BitVec 32)
  /-- HB_AGE_MS reaching 300 in OPEN sets HB_WARN. (R346) -/
  | hbWarn (port : Fin 4)
  /-- 500 ms without a heartbeat moves the session to CLOSING with reason HEARTBEAT. (R348) -/
  | heartbeatTimeout (port : Fin 4)
  /-- The submission doorbell advances the tail, or is ignored and counted when it overfills the ring. (R352) -/
  | hstSqTail (port : Fin 4) (value : BitVec 32)
  /-- The completion doorbell frees completion entries for further fetches. (R352) -/
  | hstCqHead (port : Fin 4) (value : BitVec 32)
  /-- The stream ring doorbell releases slots, or is ignored and counted when newer than PROD. (R351) -/
  | hstSrCons (port : Fin 4) (ring : Fin 16) (value : BitVec 32)
  /-- A write of 1 clears interrupt status bits. (R346) -/
  | hstIntStatus (port : Fin 4) (value : BitVec 32)
  /-- A write to any other register is stored under its access code or ignored and counted. (R345) -/
  | registerWrite (port : Fin 4) (offset value : BitVec 32)
  /-- Link down, hot reset, FLR, D3hot entry or Bus Master Enable cleared closes the session at once with reason LINK.
  (R347) -/
  | pcieLinkEvent (port : Fin 4) (event : PcieEvent)
  /-- A failed device read of host memory is reported by AER and moves the session to CLOSING with reason DMA. (R343) -/
  | dmaReadFault (port : Fin 4)
  /-- The device fetches a submission entry when a completion entry is free and checks and classifies it. (R352) -/
  | submissionFetch (port : Fin 4) (sub : Submission)
  /-- A query runs a host model over a grid region and returns a grid frame. (R354) -/
  | runModel (port : Fin 4) (data : List Byte)
  /-- A query returns a region of the newest sealed grid frame of a product. (R354) -/
  | readGrid (port : Fin 4)
  /-- A query returns up to 64 ticks of history of a living track. (R354) -/
  | readTrack (port : Fin 4)
  /-- A query forks grid or track memory into a session-owned sequence. (R288) -/
  | hostFork (port : Fin 4)
  /-- A query frees one of the session's forks. (R354) -/
  | freeFork (port : Fin 4)
  /-- A command binds a stream ring to a kind of frame, or is refused. (R358) -/
  | subscribe (port : Fin 4)
  /-- A command ends a ring's subscription at the next major tick boundary. (R358) -/
  | unsubscribe (port : Fin 4)
  /-- A command asks for a fresh attestation report within 200 ms. (R354) -/
  | attest (port : Fin 4)
  /-- A command submits a key and signature for privilege verification on the privileged port. (R359) -/
  | privClaim (port : Fin 4)
  /-- The housekeeping processor finishes verification and sets PRIVILEGED or completes NOT_PERMITTED. (R359) -/
  | privVerifyDone (port : Fin 4) (claim : PrivClaim)
  /-- A privileged command erases and programs 64 KiB sectors of the staged slot from host memory. (R412) -/
  | stageWrite (port : Fin 4)
  /-- A privileged command starts reading and verifying the whole staged slot. (R412) -/
  | stageCommit (port : Fin 4)
  /-- Staged-slot verification ends and its outcome is written, erasing the manifest sector on failure. (R413) -/
  | stageCommitDone (read : SlotRead)
  /-- A privileged command changes the enable mask of 256 trace points. (R420) -/
  | setTraceMask (port : Fin 4)
  /-- A privileged command with active consent starts a warm start and closes every session. (R414) -/
  | warmStart (port : Fin 4)
  /-- A submission with an unlisted OP completes INVALID. (R354) -/
  | unlistedOp (port : Fin 4)
  /-- An accepted Mode Request is decided by the Tick Sequencer and its outcome reported in Status. (R254) -/
  | modeRequest (port : Fin 2) (frame : CtrlFrame)
  /-- An accepted consent makes CONSENT_ACTIVE true for VALID_MS, or withdraws it. (R376) -/
  | warmStartConsent (port : Fin 2) (frame : CtrlFrame)
  /-- An accepted Controller Heartbeat records ECHO_SEQ and CTRL_STATUS and clears silence. (R373) -/
  | controllerHeartbeat (port : Fin 2) (frame : CtrlFrame)
  /-- No accepted controller frame for 20 ms sets CTRL_SILENT. (R377) -/
  | ctrlSilenceTimeout
  /-- VALID_MS after acceptance the warm-start consent lapses. (R376) -/
  | consentExpiry
  /-- A vehicle port loses link, is counted and retrains; losing both is class V 0x000A. (R363) -/
  | vlinkLinkDown (port : Fin 2)
  /-- Every 20 µs each die's Tj is sampled and compared with its thresholds. (R441) -/
  | tempSample (die : Die) (sensors : List Int)
  /-- Tj below the restoration threshold for the required time restores the clock or starts die restart. (R442) -/
  | thermalRestoreTimer (die : Die)
  /-- A rail outside its window for 10 µs triggers its reaction. (R443) -/
  | railExcursion (rail : Fin 14) (mv current : Nat)
  /-- VDD_Cn current above 95 A for 50 µs halves that die's clock. (R443) -/
  | railOvercurrent (rail : Fin 4) (current : Nat)
  /-- A rail or current within limits for the required time ends its reaction. (R443) -/
  | railRestoreTimer (rail : Fin 14) (ofCurrent : Bool) (mv current : Nat)
  /-- VDD_X under its limit for 1 ms causes full device reset. (R443) -/
  | vddXUndervoltageTimer
  /-- 2 ms after a memory rail excursion the device performs a full device reset. (R443) -/
  | memoryRailResetTimer
  /-- Firmware tightens a limit, or a loosening write is ignored, logged and raises a health event. (R444) -/
  | limitWrite (limit : Limit) (value : Nat)
  /-- Every 1 ms each rail's electromigration integral is updated. (R446) -/
  | emEstimatorSample (rail : Fin 14) (current : Nat) (temp : Int)
  /-- Every second the link eye margins are sampled. (R446) -/
  | eyeMarginSample (link : EyeLink) (margin : Nat)
  /-- A canary flop failure increments its wear counter. (R446) -/
  | canaryFailure (cl : Fin 132)
  /-- Every 600 s of operation the housekeeping processor writes a wear record to boot NVM. (R447) -/
  | wearRecordWrite
  /-- The remaining life is computed 3,600 s after start and every 86,400 s, with LIFE_WARN and trend events. (R448) -/
  | lifePrediction (ddrM0 ddrM1 : Nat)
  /-- An enabled trace point emits a record or drops it when its buffer is full. (R420) -/
  | tracePoint (die : Die) (id : BitVec 16) (args : List Word)
  /-- A boundary-scan instruction is loaded, and restricted ones act as BYPASS while SAFE_OK runs. (R492) -/
  | tapInstruction (code : TapInstr)
  /-- A read of TSQ_DEVTIME_LO latches device time, k, m and the vehicle-time offset from one instant. (R56) -/
  | tsqDevtimeLoRead
  /-- A read of TSQ_PPS_STAMP_LO latches TSQ_PPS_STAMP_HI. (R56) -/
  | tsqPpsStampLoRead
  /-- A read of MUS_LAST_TIME_LO latches the newest sample's time and arrival stamp. (R77) -/
  | musLastTimeLoRead (stream : Fin 48)
  /-- A read of a camera block's offset 0x20 latches the white-balance gains of the same frame. (R104) -/
  | exposureUsRead (cam : Fin 16)
  /-- A read of TSQ_PENDING_K_LO latches TSQ_PENDING_K_HI. (R265) -/
  | tsqPendingKLoRead
  /-- A read of SRG_CAL_GEN latches a snapshot of the active calibration records. (R143) -/
  | srgCalGenRead
  /-- A read of a slot's LAST_END_LO latches LAST_END_HI. (R322) -/
  | lastEndLoRead (slot : Fin 16)
  /-- A vehicle port completes retraining and its link returns, which ends condition 0x000A when it was the second
  link lost. (R363) -/
  | vlinkLinkUp (port : Fin 2)
  /-- REFCLK edges return after a loss, releasing the held reset of the safety processor pair so that its self-check
  can run. (R387) -/
  | refclkReturn
  /-- Felt's own timer runs more than 500 ppm past the minor tick length in force with no boundary seen, and raises
  class V 0x0003. (R54) -/
  | tickIntervalTimeout (elapsed : Nat)
  /-- Each second that the servo stays saturated at 250 ppm counts one event in TSQ_SYNC_LOSS_COUNT. (R30) -/
  | servoSaturationSecond
  /-- A PERIOD_US period of a re-acquisition run ends, either breaking the run when it saw no usable arrival or
  completing the third period. (R71) -/
  | reacquisitionPeriodEnd (stream : Fin 48)
  /-- The wait time of an op-1 entry of the camera initialisation sequence runs out, and the sequence proceeds to its
  next entry. (R86) -/
  | initWaitExpiry (port : Fin 16)
  /-- A CAN controller detects a bus protocol error or a CAN XL protocol exception, updating REC and ERR_PASSIVE and
  counting MUS_CAN_PROTO_ERR_COUNT. (R120) -/
  | canProtocolError (n : Fin 4) (rec_ : BitVec 8) (errPassive : Bool)
  /-- A frame arrives on V0 or V1 that is none of the accepted controller messages and is discarded, with
  VLK_RX_REJECT_COUNT and LAST_REJECT updated. (R374) -/
  | unacceptedControllerFrame (port : Fin 2) (frame : CtrlFrame)
  /-- An uncorrectable SEC-DED error in a Serge unit's SRAM puts the unit in fault and starts its reset. (R320) -/
  | sergeUncorrectableSramError (unit : Fin 4)
  /-- The erase and programming of the sectors named by a STAGE_WRITE ends, its completion is written and STAGE_BUSY
  clears. (R412) -/
  | stageWriteDone (head : List Byte)
  /-- A restarted firmware processor has reloaded and checked its firmware and runs again, taking its queued events.
  (R418) -/
  | firmwareRestartComplete (p : FwProc)
  /-- PORST_N goes low and the device puts LPDDR5X into self-refresh, stops NVM writes and completes or discards a
  wear-record write. (R486) -/
  | porstNAsserted
  deriving DecidableEq, Repr

end Sys2Proof
end

