-- ==== Sys2Proof/Config.lean ====
section
/-!
DEFINITION. What the spec leaves to the implementation or leaves open, as constants with no body: no proof can see a
value of one. Each is named in the assumption log.
-/

namespace Sys2Proof.Config

open Sys2Proof

/-- The `n`-th free value of 32 bits that a run draws. -/
opaque free32 : Nat → BitVec 32

/-- Whether an inexact result at a place whose rounding the spec does not state goes to the neighbour of larger magnitude: of
the exact result's sign and its magnitude as a quotient. -/
opaque roundsAway : Place → (neg : Bool) → (num den : Nat) → Bool

/-- Which of n terms a sum whose order the spec does not state takes first, and which of the others second. -/
opaque sumPick : Place → (n which : Nat) → Nat

/-- The target the servo steers the adjustment towards, in 10^-11, from e, the rate estimate and the adjustment in
force: the loop gains and the filtering are left to the implementation (R496). -/
opaque servoTarget : (err : Int) → (rho : Int) → (freq : Int) → Int

/-- The filtering of the rate estimate (R496): from the estimate before (none while clear), and the new measurement as
the quotient of two numbers, in 10^-11. -/
opaque rhoFilter : Option Int → (num : Int) → (den : Nat) → Int

/-- What a health record's ARG0 holds for a counter that no register shows, by a number of the counter (R451). -/
opaque barOf : Nat → Nat

/-- The severity of a health record whose severity the spec does not state, by its code and its first argument. -/
opaque severity : Nat → Nat → BitVec 3

/-- The message code of a log record, by its source and what it reports (R419). -/
opaque logCode : Nat → Nat → BitVec 16

/-- Whether the bound of R35, which is not a whole number of ns, is rounded up. -/
opaque boundRoundsUp : Bool

/-- What the last integrator value adds to the published offset after a time in HOLDOVER, in ns (R31, R496): from e, the
rate estimate, the adjustment in force and the time in ns. -/
opaque holdoverDrift : (err : Int) → (rho : Int) → (freq : Int) → (elapsed : Nat) → Int

/-- The code of a class H fault that the table of R386 does not hold: 0 an overrun of a window without SAFETY_PATH, 1 its refused
or abandoned transfer, 2 an uncorrectable error in a cluster of no partition, 3 one in a
Damask page that no window read. -/
opaque classHCode : (what : Nat) → Nat

/-- A fifth loop opened inside four others, where R200 nests up to four: whether the outermost is forgotten, or the new one never
opens. -/
opaque fifthLoop : Bool

/-- UNIT of a Fault Notice of a code for which the spec states none (R371). -/
opaque faultUnit : Nat → Nat

/-- ARG of a Fault Notice of a code for which the spec states none (R371). -/
opaque faultArg : Nat → Nat

/-- The index of a limit in a health record of code 0x3002 (R451). -/
opaque limitIndex : Limit → Nat

/-- I_ref of a rail's electromigration estimator in 0.1 A, and its T_ref in 0.05 K, fused at manufacture (R446). -/
opaque emCurrent : (rail : Nat) → Nat
opaque emTemp : (rail : Nat) → Nat

/-- How long writing an update to the inactive copy and its replicas takes, in ns; at most 0.5 ms is used (R139). -/
opaque calWriteNs : Nat → Nat

/-- Whether a quotient whose rounding the spec does not state is rounded up, by a number of the place. -/
opaque roundsUp : Nat → Bool

/-- Which of the values within R198's ulps of the exact one a function of VFN gives. -/
opaque vfnStep : VFn → F32 → Nat

/-- A function of VFN where it has no exact value (R198): of an infinity, of log2 and the reciprocals of zero, of log2 and the
reciprocal square root of a negative number. -/
opaque vfn : VFn → F32 → F32

/-- A lane of VOP's shift (R200): neither its direction nor what its amount means is stated. -/
opaque vopShift : BitVec 32 → BitVec 32 → BitVec 32

/-- A loop's first counter where its count lies outside 1 to 65,535 (R200). -/
opaque loopCount : BitVec 32 → BitVec 16

/-- An accumulator word as an instruction that works in the other format reads it (R195, R197). -/
opaque retag : (toFp : Bool) → BitVec 32 → BitVec 32

/-- Which writes of an abandoned transfer had landed (R235), by the transfer's number and the write's number. -/
opaque landed : Nat → Nat → Bool

/-- X, Y and Z of an invalid sampling output (R162), which the spec does not state. -/
opaque fpsInvalid : Nat → F32

/-- The four bits that count sixteen valid views of a painted point (R183), which do not fit them. -/
opaque sixteenViews : Nat

/-- Which of the lists of additions that wait for an accumulator's bank comes next, of the n-th accumulator of a run (R186). -/
opaque arbiter : (n left : Nat) → Nat

/-! ### Percale (R93, R96): what its stages' descriptions leave open -/

/-- The expansion of a value that lies outside the knots. -/
opaque beyondKnots : List (Nat × Nat) → Nat → Nat

/-- The combination of exposures that are all at or above SAT_TH. -/
opaque allSaturated : List Nat → Nat

/-- A plane of a pixel from its 5 × 5 neighbourhood, by the CFA code and the pixel's place in the pattern. -/
opaque demosaic : (cfa place plane : Nat) → List Nat → F32

/-- The pyramid's separable filter runs along the rows first. -/
opaque rowsFirst : Bool

/-- The luminance of a zone from the means of its CFA positions. -/
opaque luminance : (cfa : Nat) → List Nat → Nat

/-- The bin of a pixel in the histogram of log2 luminance. -/
opaque logBin : (cfa place value : Nat) → Nat

/-! ### What the layouts of the image leave open -/

/-- What a reserved code of FORMAT, SPACE, KIND, CLASS or OP stands for (R191, R224, R243, R295). -/
opaque reservedFormat : Format
opaque reservedSpace : Nat → Space
opaque reservedKind : Nat → WinKind
opaque reservedClass : SlotClass
opaque reservedOp : Nat → ChbOp

/-- The tally that a WTALLY word names: R200 gives it no field. -/
opaque tallyOf : BitVec 64 → Fin 256

/-- The outputs that an output index stands for, and the step that a Tweed step's number stands for (R243): their numbering is
not stated. -/
opaque outputsOf : (index : Nat) → List OutKind
opaque stepOf : (number : Nat) → TweedStep

/-- How the Tick Plan shares an operation's cameras and rows among its units (R175), which no table of the image holds. -/
opaque sharesOf : (record : List Byte) → List (List Nat)

/-! ### Serge: what its rules do not state -/

/-- The non-zeros of a diagonal block of a slot's factor, by its dimension (R299): the spec does not state which of its entries
count. -/
opaque nnzDiagonal : (dim : Nat) → Nat

/-- The operations of a slot's factorisation, F of R306. -/
opaque factorFlops : SlotRec → Nat

/-- A component of a block's stored value before anything has set it (R296), by the block's type. -/
opaque blockStart : (type component : Nat) → F64

/-- A plane's offset d is subtracted in a point's distance from it (R301), or added. -/
opaque planeMinus : Bool

/-- The time of a PT_PLANE factor's point relative to its keyframe, in s (R316): its payload holds none (R301). -/
opaque pointTime : SrgProblem → (factor : Nat) → F64

/-- A component of a keyframe's velocity and angular rate (R316), which no record of R301 brings to the slot. -/
opaque keyTwist : SrgProblem → (block component : Nat) → F64

/-- A component of a REPROJ factor's residual, and its derivative along a component of a step, where its landmark lies outside
the camera (R137). -/
opaque reprojOutside : SrgProblem → (factor component : Nat) → F64
opaque reprojOutsideSlope : SrgProblem → (factor component scalar : Nat) → F64

/-- A square-root information of a PRIOR factor that rests on INIT records (R297), by the factor and the component. -/
opaque priorInfo : SrgProblem → (factor component : Nat) → F64

/-- The magnitude of gravity in m/s² (R310). -/
opaque gravity : F64

/-- The square-root information of a component of an IMU factor, from SIGMA of roles 16 to 21 and the interval in ns (R298,
R310): the propagation of the noise is not stated. -/
opaque imuInfo : (sigmas : List F32) → (interval component : Nat) → F64

/-- What an IMU factor holds a component of its bias to (R297): its fifteen residuals take six past those of the states. -/
opaque biasReference : SrgProblem → (stream component : Nat) → F64

/-- Which of roles 16 to 21 gives the loss of an IMU factor (R297, R298). -/
opaque imuRole : Nat

/-- The yaw rate at a boundary that no IMU factor reaches, in the vehicle frame (R311). -/
opaque rateOpen : SrgProblem → (b component : Nat) → F64

/-- Which of several IMU factors the state at b is predicted by (R309), and the prediction where there is none. -/
opaque predictBy : (n : Nat) → Nat
opaque coast : (state : List F64) → (component : Nat) → F64

/-- A component of the mean specific force where no IMU sample lies in the interval (R313). -/
opaque restForce : (component : Nat) → F64

/-- The scale of a covariance where there are no more residuals than variables, which the spec does not state (R312). -/
opaque scaleOpen : (cost : F64) → (residuals scalars : Nat) → F64

/-- A variance of a solve that ends before it has made a factor (R315, R316). -/
opaque noFactorVariance : (row column : Nat) → F64

/-- Whether a landmark is tied to lidar planes (R316). -/
opaque tiedLandmark : SrgProblem → (block : Nat) → Bool

/-- The 32-byte challenge that the entropy source gives a session, by a count of free values (R422). -/
opaque challenge : Nat → Nat

/-- SHAKE256 with an output of n bytes, which FIPS 202 defines and the spec does not (R421). -/
opaque shake256 : (n : Nat) → List Byte → List Byte

/-- The public key of the SLH-DSA-SHAKE-256f key pair of three seeds, and a signature over a message by its private key, by a
count of free values (R421, R422): FIPS 205 defines them and the spec does not. -/
opaque slhPublicKey : (seeds : List Byte) → List Byte
opaque slhSign : (seeds message : List Byte) → Nat → List Byte

end Sys2Proof.Config
end

