-- ==== Sys2Proof/Machine/Bank.lean ====
section
/-!
DEFINITION. The operations of the sparse banks and of memory: reading a key, writing it, and the canonical form that
every write keeps (keys strictly rising, no entry equal to what an unlisted key reads as).
-/

namespace Sys2Proof.Machine

open Sys2Proof

/-- What key `k` holds; an unlisted key holds `dflt`. -/
def bget {α : Type} (dflt : α) (k : Nat) : Bank α → α
  | [] => dflt
  | (a, v) :: rest => if a = k then v else bget dflt k rest

/-- The bank with `v` at key `k`. -/
def bput {α : Type} [DecidableEq α] (dflt : α) (k : Nat) (v : α) : Bank α → Bank α
  | [] => if v = dflt then [] else [(k, v)]
  | (a, w) :: rest =>
    if k < a then (if v = dflt then (a, w) :: rest else (k, v) :: (a, w) :: rest)
    else if k = a then (if v = dflt then rest else (k, v) :: rest)
    else (a, w) :: bput dflt k v rest

/-- The bank with `f` applied at key `k`. -/
def bmod {α : Type} [DecidableEq α] (dflt : α) (k : Nat) (f : α → α) (b : Bank α) : Bank α :=
  bput dflt k (f (bget dflt k b)) b

/-- Every key of the bank is at least `lo`, the keys rise strictly, and no entry equals the default. -/
def bwfFrom {α : Type} [DecidableEq α] (dflt : α) (lo : Nat) : Bank α → Bool
  | [] => true
  | (a, v) :: rest => decide (lo ≤ a) && decide (v ≠ dflt) && bwfFrom dflt (a + 1) rest

/-- The canonical form. -/
def bwf {α : Type} [DecidableEq α] (dflt : α) (b : Bank α) : Bool := bwfFrom dflt 0 b

end Sys2Proof.Machine
end

