-- ==== Sys2Proof/Machine/Bytes.lean ====
section
/-!
DEFINITION. Byte order and the CRC of the device's structures (spec/00_scope.md R5, spec/16_vehicle_link_and_safety.md
R366).
-/

namespace Sys2Proof.Machine

open Sys2Proof

/-- The low `n` bytes of a number, least significant first (R5). -/
def leBytes : Nat → Nat → List Byte
  | 0, _ => []
  | n + 1, v => BitVec.ofNat 8 v :: leBytes n (v / 256)

/-- The low `n` bytes of a number, most significant first, for the Ethernet header (R364). -/
def beBytes (n v : Nat) : List Byte := (leBytes n v).reverse

/-- The number that bytes spell, least significant first. -/
def leNat : List Byte → Nat
  | [] => 0
  | b :: rest => b.toNat + 256 * leNat rest

/-- The number that bytes spell, most significant first. -/
def beNat (bs : List Byte) : Nat := leNat bs.reverse

/-- A 32-bit word in a structure. -/
def w32 (v : Nat) : List Byte := leBytes 4 v

/-- A 64-bit value in a structure, low word first. -/
def w64 (v : Nat) : List Byte := leBytes 8 v

/-- A signed value in two's complement of `n` bits. -/
def twos (n : Nat) (v : Int) : Nat := (BitVec.ofInt n v).toNat

/-- One bit as a number. -/
def bit (b : Bool) : Nat := if b then 1 else 0

/-- One step of the reflected CRC-32C register (polynomial 0x1EDC6F41, reflected 0x82F63B78). -/
def crcBit (c : BitVec 32) : BitVec 32 :=
  if c.getLsbD 0 then (c >>> 1) ^^^ 0x82F63B78#32 else c >>> 1

/-- One byte through the CRC register. -/
def crcByte (c : BitVec 32) (b : Byte) : BitVec 32 :=
  let x := c ^^^ b.setWidth 32
  crcBit (crcBit (crcBit (crcBit (crcBit (crcBit (crcBit (crcBit x)))))))

/-- CRC-32C of a byte string (R366). -/
def crc32c (bs : List Byte) : BitVec 32 := ~~~ (bs.foldl crcByte 0xFFFFFFFF#32)

/-- Pad with zero bytes to a multiple of `n`. -/
def padTo (n : Nat) (bs : List Byte) : List Byte :=
  bs ++ List.replicate ((n - bs.length % n) % n) 0

/-- A number limited to `hi`. -/
def satTo (hi v : Nat) : Nat := min hi v

/-- `a` is newer than `b` under the modular comparison of R8. -/
def newer (a b : BitVec 32) : Bool :=
  let x := (a - b).toNat
  decide (1 ≤ x) && decide (x < 2 ^ 31)

/-- A quotient whose rounding the spec does not state, at a numbered place. -/
def divRound (site num den : Nat) : Nat := if Config.roundsUp site then (num + den - 1) / den else num / den

/-- The same for a signed number. -/
def divRoundInt (site : Nat) (num : Int) (den : Nat) : Int :=
  if Config.roundsUp site then -((-num) / (den : Int)) else num / (den : Int)

end Sys2Proof.Machine
end

