-- ==== Sys2Proof/Machine/TimeState.lean ====
section
/-!
DEFINITION. The time base of spec/02_time_base.md as plain data: the device-time counter, the tick indices, the
vehicle-side servo, the gPTP ports, the PPS stamp and the latches of the time registers (R56).
-/

namespace Sys2Proof.Machine

open Sys2Proof

/-- What a tick broadcast carries (R51). -/
structure Broadcast where
  k : Nat
  m : Nat
  epoch : BitVec 32
  time : Nanos
  freq : Int
  minorUs : Nat
  deriving DecidableEq, Repr

/-- The registers that a read of TSQ_DEVTIME_LO latches from one instant (R56). -/
structure TimeLatch where
  dev : Nat := 0
  k : Nat := 0
  m : Nat := 0
  vt : Int := -9223372036854775808
  deriving DecidableEq, Repr

/-- The newest accepted offset sample of the servo (R495). -/
structure OffsetSample where
  at_ : Nanos
  offset : Int
  resid : Int
  deriving DecidableEq, Repr

/-- The vehicle-side servo (R28 to R35, R495). -/
structure ServoState where
  state : Servo := .freeRun
  /-- O_v, once captured (R29). -/
  ov : Option Int := none
  /-- e, the residual error of the last accepted sample in ns (R29). -/
  err : Int := 0
  /-- The rate estimate, none while it is clear (R495). -/
  rho : Option Int := none
  /-- The newest accepted sample (R495). -/
  prev : Option OffsetSample := none
  /-- The latest sample received, accepted or not, for a capture (R33). -/
  latest : Option OffsetSample := none
  /-- Consecutive Syncs with |e| under 500 ns while ACQUIRING (R31), after the pair from which O_v was captured. -/
  lockRun : Nat := 0
  /-- Consecutive outliers (R33). -/
  outliers : Nat := 0
  /-- A step was decided and O_v is captured at the next major tick boundary (R33). -/
  capturePending : Bool := false
  /-- The published offset before the step, until the capture (R33). -/
  heldOffset : Option Int := none
  /-- The grandmaster identity learned from Announce (R28). -/
  gm : Option Nat := none
  /-- When HOLDOVER was entered. -/
  holdoverSince : Nanos := 0
  /-- When LOCKED was entered, while LOCKED. -/
  lockedSince : Option Nanos := none
  /-- HOLDOVER was entered after at least 60 s of LOCKED (R35). -/
  boundKnown : Bool := false
  /-- When the last valid Sync and Follow_Up pair arrived (R32). -/
  lastSync : Nanos := 0
  /-- The servo is at its 250 ppm limit (R30). -/
  saturated : Bool := false
  /-- When the saturation second being counted began (R30). -/
  satSince : Nanos := 0
  /-- The adjustment the loop steers towards, in 10^-11 (R30, R495). -/
  target : Int := 0
  /-- The adjustments that were in force since the newest accepted sample, newest first, each with the instant from which it
  was, in 10^-11 (R495). -/
  steps : List (Nanos × Int) := []
  /-- O_v has been captured since ρ was last cleared, and no sample has been accepted since (R495). -/
  fresh : Bool := false
  deriving DecidableEq, Repr

/-- The gPTP state of one port (R28, R36). -/
structure GptpState where
  linkDelay : Nat := 0
  asCapable : Bool := false
  /-- When the port last initiated Pdelay_Req. -/
  lastReq : Nanos := 0
  /-- Received Announce, Sync and Follow_Up ignored on a lidar port (R36). -/
  ignored : Counter := {}
  /-- When the port last sent Sync and when Announce (lidar ports, R36). -/
  lastSyncSent : Nanos := 0
  lastAnnounceSent : Nanos := 0
  deriving DecidableEq, Repr

/-- The time base. -/
structure TimeState where
  /-- Device time (R21). -/
  dev : Nanos := 0
  /-- The fractional accumulator below it (R22). -/
  frac : BitVec 32 := 0
  /-- The Tick Sequencer runs (R25). -/
  running : Bool := false
  /-- Tick 0 has begun. -/
  begun : Bool := false
  /-- The major tick count k (R25). -/
  k : Nat := 0
  /-- The minor index m of the minor tick in progress (R25). -/
  m : Nat := 0
  /-- The index of the minor tick boundary that comes next within tick k. -/
  nextM : Nat := 0
  /-- The minor index of the last minor tick of the tick before. -/
  endM : Nat := 0
  /-- The instant of the last minor tick boundary (R51). -/
  lastB : Option Nanos := none
  /-- B_k, the device time at which tick k began, or tick 0 begins (R25). -/
  bk : Nanos := 0
  /-- P, N and D of the plan in force: milliseconds, count, minor ticks (R24, R56). -/
  pMs : Nat := 0
  n : Nat := 0
  dMinor : Nat := 0
  /-- The length of the transition tick in progress in ms (R27). -/
  transition : Option Nat := none
  /-- The frequency adjustment in force, in units of 10^-11 (R30, R56). -/
  freq : Int := 0
  /-- The adjustment that takes effect at the next minor tick boundary (R51). -/
  freqNext : Int := 0
  servo : ServoState := {}
  v0 : GptpState := {}
  vtStep : Counter := {}
  syncLoss : Counter := {}
  skewFault : Counter := {}
  /-- gPTP frames discarded on V1 (R29). -/
  v1Gptp : Counter := {}
  ppsMissing : Bool := true
  ppsStamp : Nanos := 0
  ppsStampHiLatch : BitVec 32 := 0
  latch : TimeLatch := {}
  deriving DecidableEq, Repr

end Sys2Proof.Machine
end

