-- ==== Sys2Proof/Machine/BootState.lean ====
section
/-!
DEFINITION. The state of start-up, staging, warm start, the firmware processors, the log ring and the trace buffer
as plain data (spec/17_image_boot_and_firmware.md), and of the recovery blocks (spec/18_recovery_ladder.md).
-/

namespace Sys2Proof.Machine

open Sys2Proof

/-- Where the start-up of R410 stands. -/
inductive BootPhase where
  /-- Reset is held: test straps, a tripped THERM_TRIP_N, or PORST_N low (R442, R481, R482). -/
  | held
  /-- The first slot of the order is being read, up to the end of phase 0. -/
  | phase0
  /-- Phase 0 is placed and the Tick Sequencer runs; phase 1 is being read. -/
  | phase1
  /-- The whole slot has verified. -/
  | verified
  /-- Both slots have failed (R409). -/
  | noImage
  /-- The device is Retired (R407). -/
  | retired
  deriving DecidableEq, Repr

/-- What stays through a loss of power: the NVM of R398 and R447 and the fuses of R406, R407 and R421. -/
structure NvState where
  slotA : SlotHeader := {}
  slotB : SlotHeader := {}
  /-- The newest valid wear record of either device (R447). -/
  wear : Option WearRecord := none
  /-- 64 KiB erases of each chip select: NVA.cs0, NVA.cs1, NVB.cs0, NVB.cs1 (R423). -/
  erases : List Nat := [0, 0, 0, 0]
  /-- Erases of each 64 KiB sector, by chip select and sector (R446). -/
  sectorErases : Bank Nat := []
  /-- Wear records written to NVA.cs0 and to NVB.cs0 (R447). -/
  wearWrites : List Nat := [0, 0]
  /-- At reset the state in which the device is supplied under LZ9400-AQ2 (R2, R407). -/
  lifecycle : Lifecycle := .production
  rootDigest : Nat := 0
  rollbackCount : Nat := 0
  serial : BitVec 64 := 0
  /-- The fused 256-bit unique seed, and what has been written into the one-time-programmable identity store of 64 KiB (R421). -/
  identitySeed : List Byte := List.replicate 32 0
  identityStore : List Byte := []
  deriving DecidableEq, Repr

/-- Where a warm start stands (R414). -/
inductive WarmPhase where
  | none
  /-- Step 2, from t_0: the slot read. -/
  | reading (slot : Slot)
  /-- Step 4: verified at t_1, B_c to be announced one minor tick before. -/
  | changeover (slot : Slot) (img : Image) (bc : Nanos) (announced : Bool)
  /-- Steps 5 and 6, from B_c until the new main pipeline starts: the mode in force at B_c. -/
  | reload (bc : Nanos) (modeAt : Nat)
  deriving DecidableEq, Repr

/-- What an IMAGE_STAGING command of the privileged port is doing (R412). -/
inductive StageJob where
  | none
  | write (port : Nat) (offset : Nat) (bytes : Nat)
  | commit (port : Nat)
  deriving DecidableEq, Repr

/-- A firmware processor (R417, R418). -/
structure FwState where
  restarting : Bool := false
  restartBegan : Nanos := 0
  /-- Device times of the watchdog restarts within the last 1,000 ms, newest first (R427). -/
  recent : List Nanos := []
  /-- Events in its hardware queue (R418). -/
  queued : Nat := 0
  restarts : Counter := {}
  deriving DecidableEq, Repr

/-- A record of the log ring (R419). -/
structure LogRecord where
  time : Nanos
  seq : BitVec 32
  source : Nat
  severity : Nat
  code : BitVec 16
  args : List Word
  deriving DecidableEq, Repr

/-- A trace record (R420). -/
structure TraceRecord where
  time : Nanos
  id : BitVec 16
  die : Nat
  dieSeq : BitVec 8
  args : List Word
  deriving DecidableEq, Repr

/-- Start-up, staging, warm start, firmware processors, log and trace (R398 to R424). -/
structure BootState where
  phase : BootPhase := .phase0
  /-- PORST_N is high (R481, R486). -/
  porstHigh : Bool := true
  /-- The straps sampled at PORST_N release (R482). -/
  strapNvProfile : Bool := false
  strapTest : Bool := false
  /-- THERM_TRIP_N is driven low and holds the device in reset (R442). -/
  thermTrip : Bool := false
  /-- LPDDR5X is in self-refresh and NVM writes are stopped (R486). -/
  selfRefresh : Bool := false
  nvStopped : Bool := false
  /-- The slot that failed under R409, tried last at the next start (R408). -/
  bootHint : Option Slot := none
  /-- The slot tried now, and whether it is the second. -/
  trying : Slot := .a
  second : Bool := false
  bootSlot : Slot := .a
  slotFallback : Bool := false
  /-- The health event of SLOT_FALLBACK waits until health is established (R408). -/
  fallbackEvent : Bool := false
  noImage : Bool := false
  failA : BitVec 4 := 0
  failB : BitVec 4 := 0
  sectionsVerified : List Nat := []
  /-- The running image; the one before the last changeover, and the first tick of the running one (R414). -/
  image : Image := Image.empty
  prevImage : Image := Image.empty
  changeTick : Nat := 0
  tFallbackMs : BitVec 16 := 0
  tSafeOkMs : BitVec 16 := 0
  tMainMs : BitVec 16 := 0
  warm : WarmPhase := .none
  warmStatus : BitVec 4 := 0
  warmCause : BitVec 4 := 0
  warmCount : Counter := {}
  /-- The first main output of the running image has been delivered (R406). -/
  mainDelivered : Bool := false
  stage : StageJob := .none
  /-- The staged slot's manifest sector has been erased since the last start (R412). -/
  stageErased : Bool := false
  /-- The staged slot has verified and comes first in the order of R408 (R413). -/
  stageVerified : Bool := false
  stageStatus : BitVec 4 := 0
  stageSection : BitVec 8 := 0
  procs : Bank FwState := []
  evqDrop : Counter := {}
  log : List LogRecord := []
  logSeq : BitVec 32 := 0
  traceMask : List Nat := []
  trace : List TraceRecord := []
  /-- Each die's local buffer, newest first, and its record count (R420). -/
  traceLocal : Bank (List TraceRecord) := []
  traceSeq : Bank (BitVec 8) := []
  traceDrop : Counter := {}
  /-- Domains switched on (R438): the clusters that some mode of the image uses, and the compute dies whose Chambray
  domain is. -/
  clustersOn : List Nat := []
  chambrayOn : List Nat := []
  /-- The TAP instruction in force (R492). -/
  tap : TapInstr := .bypass
  nv : NvState := {}
  deriving DecidableEq, Repr

/-- DIE_STATE (R437). -/
inductive DieAdmission where
  | awaiting | admitted | restarting | out
  deriving DecidableEq, Repr

/-- How far a partition or die restart has come (R428). -/
inductive RestartPhase where
  /-- Steps 1 to 5 run. -/
  | running
  /-- Step 5 ended at this device time. -/
  | reloaded (at_ : Nanos)
  deriving DecidableEq, Repr

/-- A partition restart (R428): the partition by its index and as the mode's table gives it. -/
structure PartRestart where
  index : Nat
  part : PartRec
  since : Nanos
  phase : RestartPhase
  deriving DecidableEq, Repr

/-- A die restart (R430, R434). -/
structure DieRestart where
  since : Nanos
  phase : RestartPhase
  readmitted : Bool
  deriving DecidableEq, Repr

/-- The recovery block of a die and its local time base (R51 to R53, R437). -/
structure DieState where
  state : DieAdmission := .awaiting
  lastCause : BitVec 8 := 0
  partRestart : Counter := {}
  dieRestart : Counter := {}
  linkRetry : Counter := {}
  linkTimeout : Counter := {}
  admitFail : Counter := {}
  parts : List PartRestart := []
  restart : Option DieRestart := none
  /-- The die failed re-admission once after a die restart (R434). -/
  readmitRetried : Bool := false
  /-- Restarts begun within the last 60 s: the partition, or none for the die, and when (R433). -/
  history : List (Option PartRec × Nanos) := []
  /-- Partitions declared failed (R433). -/
  failedParts : List PartRec := []
  /-- The die's copy of the time base (R51). -/
  localTime : Nanos := 0
  localFrac : BitVec 32 := 0
  localFreq : Int := 0
  localK : Nat := 0
  localEpoch : BitVec 32 := 0
  /-- The latency of the die's link, measured at its start (R52). -/
  latency : Nat := 0
  /-- The adjustment the die applies at the next minor tick boundary (R52). -/
  localFreqNext : Int := 0
  /-- The broadcast under way to the die (R51). -/
  broadcast : Option Broadcast := none
  /-- The die takes its time copy, k and epoch from the next broadcast: after admission and after a restart (R432). -/
  resync : Bool := true
  /-- An admission report that waits for the tick processor (R417, R418): whether it agrees, and the link's latency. -/
  report : Option (Bool × Nat) := none
  /-- The LPDDR5X that trained on a memory-side die, once its steward has reported it (R487). -/
  memory : Option MemFit := none
  /-- The die has been reloaded with the new image of a warm start (R414). -/
  reloaded : Bool := true
  deriving DecidableEq, Repr

/-- The recovery ladder. -/
structure RecoveryState where
  dies : Bank DieState := []
  /-- When a restart of a partition, a die or a Serge unit last ended (R330). -/
  lastEnd : Nanos := 0
  deriving DecidableEq, Repr

end Sys2Proof.Machine
end

