-- ==== Sys2Proof/Machine/Emission.lean ====
section
/-!
DEFINITION. What the device puts out on its ports. The spec names these acts; the journal of them in the state is the
model's own, so that a statement can speak of them.
-/

namespace Sys2Proof.Machine

open Sys2Proof

/-- An act of the device on one of its ports. -/
inductive Emission where
  /-- gPTP on V0 and the lidar ports (R28, R36). -/
  | pdelayReq (port : GptpPort)
  | pdelayResp (port : GptpPort)
  | lidarSync (n : Nat) (seconds : Nat) (nanos : Nat)
  | lidarAnnounce (n : Nat) (priority1 clockClass timeSource : Nat)
  /-- A camera trigger with its instant at the camera and its pulse width in µs (R40, R92). -/
  | trigger (port : Nat) (tTrig : Int) (widthUs : Nat)
  /-- A CCI write or read on the A-PHY back channel (R86, R98). -/
  | cciWrite (port : Nat) (device addr value bytes : Nat)
  | cciRead (port : Nat) (device addr : Nat)
  /-- An IMU sync pulse and an SPI transaction (R44, R117). -/
  | imuSync (n : Nat) (widthUs : Nat) (high : Bool)
  | spi (n : Nat) (cmd : List Byte) (rxLen : Nat)
  /-- The acknowledge of a valid frame in restricted operation (R120). -/
  | canAck (n : Nat)
  /-- A tick broadcast to the dies (R51). -/
  | broadcast (k m : Nat) (epoch : BitVec 32) (time : Nanos) (freq : Int) (minorUs : Nat)
  /-- The announcement of a switch or a changeover to release engines and stewards, with the length of a transition tick
  (R27, R252, R414). -/
  | announce (target : Nat) (boundary : Nanos) (transitionMs : Option Nat)
  /-- A frame begins on a vehicle port: its bytes from the destination MAC to the end of the body (R364 to R369). -/
  | vlinkFrame (port : Nat) (bytes : List Byte)
  /-- The device's writes to and reads of host memory, and its MSI-X messages (R343, R346, R350 to R352). -/
  | hostWrite (port : Nat) (addr : Nat) (bytes : List Byte)
  | hostRead (port : Nat) (addr : Nat) (len : Nat)
  | msix (port : Nat) (vector : Nat)
  | aer (port : Nat)
  /-- Fuses burnt (R406, R407) and NVM writes (R412, R447). -/
  | fuse (count : Nat)
  | retireFuse
  | nvErase (slot : Nat) (offset : Nat)
  | nvProgram (slot : Nat) (offset : Nat) (bytes : Nat)
  | wearRecord (onB : Bool) (seq : BitVec 32)
  /-- THERM_TRIP_N is driven low (R442). -/
  | thermTrip
  /-- NVA_RESET_N and NVB_RESET_N are driven low for a number of µs (R488). -/
  | nvReset (us : Nat)
  deriving DecidableEq, Repr

end Sys2Proof.Machine
end

