-- ==== Sys2Proof/Machine/HealthState.lean ====
section
/-!
DEFINITION. The state of the limits, the wear monitors and the health records as plain data
(spec/19_health_wear_and_power.md R438 to R452).
-/

namespace Sys2Proof.Machine

open Sys2Proof

/-- A health record (R450). -/
structure HealthRecord where
  time : Nanos
  code : BitVec 16
  severity : Nat
  die : Nat
  unit : BitVec 16
  arg0 : Word
  arg1 : Word
  arg2 : Word
  seq : BitVec 32
  deriving DecidableEq, Repr

/-- The thermal state of a die (R441, R442, R452). Temperatures are in 0.1 °C. -/
structure ThermalState where
  tjNow : Int := 0
  tjMax : Int := -32768
  sampled : Bool := false
  sensorsOut : List Nat := []
  /-- Thresholds in force in °C, and how far the restoration thresholds moved down with them (R444). -/
  halveTh : Nat := 118
  offTh : Nat := 125
  halvedTemp : Bool := false
  halvedCurrent : Bool := false
  offTemp : Bool := false
  offRail : Bool := false
  /-- Tj has been at or below the restoration threshold of each since this instant, without a break. -/
  coolHalve : Option Nanos := none
  coolOff : Option Nanos := none
  /-- When the restoration criterion of a halving by temperature, or by current, was met: the full clock returns at a
  major tick boundary once every halving's is (R442, R443, R445). -/
  tempMet : Option Nanos := none
  currentMet : Option Nanos := none
  /-- The IOD is beyond its threshold (R442), or has no valid sensor (R441). -/
  iodOver : Bool := false
  noSensor : Bool := false
  deriving DecidableEq, Repr

/-- A supply rail (R443, R444, R446): limits that firmware has tightened, in mV and 0.1 A; none leaves R443's. -/
structure RailState where
  underMv : Option Nat := none
  overMv : Option Nat := none
  currentLimit : Option Nat := none
  out : Bool := false
  /-- When the detection of a memory rail's excursion leads to the full device reset (R443). -/
  resetAt : Option Nanos := none
  /-- VDD_X has been under its limit since this instant. -/
  underSince : Option Nanos := none
  overcurrent : Bool := false
  /-- The electromigration integral in 2^-96 of a design life (R446). -/
  em : Nat := 0
  deriving DecidableEq, Repr

/-- Wear, limits and health (R438 to R452). -/
structure HealthState where
  thermal : Bank ThermalState := []
  rails : Bank RailState := []
  operS : Nat := 0
  /-- The device time of the last whole second counted. -/
  operAt : Nanos := 0
  lifeH : BitVec 32 := 0xFFFFFFFF
  lifeBandH : BitVec 32 := 0
  lifeMech : BitVec 2 := 0
  lifeWarn : Bool := false
  wearRecLost : Bool := false
  predTime : Nanos := 0
  predicted : Bool := false
  /-- Operating seconds at the last prediction, and at the start (R448). -/
  predOper : Nat := 0
  startOper : Nat := 0
  thermHalve : Counter := {}
  thermOff : Counter := {}
  railFault : Counter := {}
  healthEvents : Counter := {}
  ddrCorr : Counter := {}
  /-- RO_SHIFT of each cluster, U0.16 (R446). -/
  roShift : Bank Nat := []
  /-- Canary failures of each cluster and of all, 48-bit wear counters (R446). -/
  canary : Bank Nat := []
  canaryAll : Nat := 0
  /-- Counts at the last prediction, for the daily differences (R449). -/
  sramAt : Bank Nat := []
  /-- Links whose eye margin was below 30 % since the last prediction (R449), with the margin. -/
  eyeLow : List (EyeLink × Nat) := []
  lastWear : Nat := 0
  wearSeq : BitVec 32 := 0
  /-- The device that the next wear record goes to: false is NVA.cs0 (R447). -/
  wearOnB : Bool := false
  records : List HealthRecord := []
  seq : BitVec 32 := 0
  deriving DecidableEq, Repr

end Sys2Proof.Machine
end

