-- ==== Sys2Proof/Machine/IngestState.lean ====
section
/-!
DEFINITION. The state of Muslin, of Percale and of the calibration copies as plain data
(spec/03_windows_and_alignment.md to spec/06_frames_and_calibration_tables.md).
-/

namespace Sys2Proof.Machine

open Sys2Proof

/-- MUS_STREAM_STATE (R71, R77). -/
inductive StreamMode where
  | disabled | active | reacquiring
  deriving DecidableEq, Repr

/-- A re-acquisition run (R71): when the period in progress began, whether it saw a usable sample, and the periods
that have each brought one. -/
structure ReacqRun where
  periodStart : Nanos
  seen : Bool
  done : Nat
  deriving DecidableEq, Repr

/-- The status block of one stream (R71, R77) and what Muslin keeps of it between ticks. -/
structure StreamState where
  mode : StreamMode := .disabled
  lastUsable : Option Nanos := none
  /-- The boundary at which the stream last became ACTIVE (R71). -/
  activeSince : Nanos := 0
  run : Option ReacqRun := none
  /-- A run has completed: the stream becomes ACTIVE at the next major tick boundary (R71). -/
  runDone : Bool := false
  /-- The tick whose gate closes next (R72). -/
  nextGate : Nat := 0
  /-- The tick that began as the stream last became DISABLED: the gates of the ticks before it still close (R74). -/
  endGate : Nat := 0
  late : Counter := {}
  stale : Counter := {}
  outOfWindow : Counter := {}
  postOutput : Counter := {}
  absentTicks : Counter := {}
  reacq : Counter := {}
  implausible : Counter := {}
  untriggered : Counter := {}
  /-- Corrected time and arrival stamp of the newest usable sample, and their latched copies (R77). -/
  newestTime : Nanos := 0
  newestArrival : Nanos := 0
  latchTime : Nanos := 0
  latchArrival : Nanos := 0
  /-- The alive counter of the previous accepted sample, none after a clear (R116). -/
  alivePrev : Option Nat := none
  /-- Points counted by the fallback decimation, carried from tick to tick (R112). -/
  decim : Nat := 0
  deriving DecidableEq, Repr

/-- What a stream has contributed to one tick for one pipeline, and what was counted against it (R72, R76). -/
structure Contribution where
  count : Nat := 0
  stale : Nat := 0
  oldest : Nanos := 0
  newest : Nanos := 0
  absent : Bool := false
  far : Bool := false
  reacq : Bool := false
  /-- Points charged to the stream's quota of the tick, and the quota was hit (R111, R112). -/
  charged : Nat := 0
  quotaHit : Bool := false
  quotaDrop : Nat := 0
  deriving DecidableEq, Repr

/-- A sample of an EGO_INPUT stream (R65): the values by role (R115), the values of a GNSS sentence (R123) or the offset
of a PPS pair (R47), with the stale count taken or not. -/
structure EgoSample where
  stream : Nat
  t : Nanos
  arrival : Nanos
  values : List (Nat × F32)
  geo : List F64 := []
  offset : Option Int := none
  staleCounted : Bool := false
  deriving DecidableEq, Repr

/-- An entry of a pose history (R66): position, orientation, velocity and angular rate in the odometry frame. -/
structure PoseEntry where
  b : Nanos := 0
  epoch : Nat := 0
  pos : List F64 := []
  quat : List F64 := []
  vel : List F64 := []
  rate : List F64 := []
  valid : Bool := false
  deriving DecidableEq, Repr

/-- The bands of a camera frame that reached its own tick on time (R63, R100): its trigger instant in units of 0.5 ps, its
exposure, and the bands. -/
structure CamTick where
  tTrig : Int
  expNs : Nat
  bands : List Nat
  deriving DecidableEq, Repr

/-- Muslin: the streams, the contributions of the ticks still open, the ego inputs and the pose histories. -/
structure MuslinState where
  streams : Bank StreamState := []
  /-- Contributions, by tick, stream and pipeline. -/
  contrib : Bank Contribution := []
  /-- Late counts by tick, stream and output, up to each output's seal (R64). -/
  lateFor : Bank Nat := []
  /-- Counts waiting for the next output of a kind and source, by stream and output (R64). -/
  postFor : Bank Nat := []
  /-- A sample has been assigned to the tick, by tick (R138 condition 2). -/
  assigned : Bank Bool := []
  ego : List EgoSample := []
  /-- Camera frames by the tick they belong to, port and frame of it (R63, R180). -/
  cams : Bank (Option CamTick) := []
  /-- The pose histories of S0 and of S3, newest first (R66). -/
  poseMain : List PoseEntry := []
  poseFb : List PoseEntry := []
  deriving DecidableEq, Repr

/-- LINK_STATE of a camera port (R84). -/
inductive CamLink where
  | down | training | init | up
  deriving DecidableEq, Repr

/-- What a camera port's CCI sequencer is doing (R86, R98). -/
inductive CciJob where
  | idle
  /-- The sentinel read of R86 step 1. -/
  | sentinel
  /-- Entry i of the initialisation sequence. -/
  | entry (i : Nat)
  /-- Step j of the exposure write: hold on, exposure, gain, hold off (R98); in INIT or in UP. -/
  | exposure (j : Nat)
  deriving DecidableEq, Repr

/-- The frame a camera port is receiving (R43, R83, R100). Its trigger instant is in units of 0.5 ps. -/
structure CamFrame where
  tick : Nat
  second : Bool
  tTrig : Int
  expNs : Nat
  /-- The frame's Frame Start arrived within tolerance (R43). -/
  triggered : Bool
  /-- Rows of bands still open, with the exposures that have arrived. -/
  rows : List (Nat × List Nat)
  /-- Bands complete or discarded. -/
  closed : List Nat
  /-- Bands on time, which Percale forwards, each with the tick that takes it (R94). -/
  onTime : List (Nat × Nat)
  /-- Bands that Percale has completed (R95). -/
  done : List Nat
  /-- The pixels of the rows that have arrived whole, by row and exposure (R93). -/
  pix : Bank (List Nat) := []
  /-- One more than the highest row of which a packet has arrived (R95). -/
  reached : Nat := 0
  /-- No more of the frame comes: its Frame End, or the loss of the link (R83, R87). -/
  ended : Bool := false
  /-- The frame's statistics are complete (R96). -/
  metered : Bool := false
  /-- The white-balance gains that its Frame Start applied, U4.12 (R99). -/
  wbR : Nat := 0x1000
  wbB : Nat := 0x1000
  deriving DecidableEq, Repr

/-- A camera port (R84 to R99, R104). -/
structure CameraState where
  link : CamLink := .down
  enabled : Bool := false
  gear : Nat := 0
  eyeMargin : Nat := 255
  linkLoss : Counter := {}
  trainFail : Counter := {}
  eccCorr : Counter := {}
  pktDrop : Counter := {}
  bandDrop : Counter := {}
  cciErr : Counter := {}
  trigSkip : Counter := {}
  initFail : Counter := {}
  /-- When the training or initialisation in progress, or the one that failed last, began (R84). -/
  attemptBegan : Nanos := 0
  /-- The retrain interval is running in DOWN (R84). -/
  retrain : Bool := false
  /-- Restarts of the initialisation sequence in this initialisation (R84). -/
  initTries : Nat := 0
  job : CciJob := .idle
  /-- When the CCI transaction or the wait in progress began. -/
  jobBegan : Nanos := 0
  /-- Consecutive CCI errors (R90). -/
  cciRun : Nat := 0
  /-- A training failure and an initialisation failure have been reported since the last UP period (R84). -/
  trainReported : Bool := true
  initReported : Bool := true
  /-- Last committed exposure in ns and gain in U8.8 (R98, R104), and when they were committed. -/
  expNs : Nat := 0
  gain : Nat := 256
  committedAt : Nanos := 0
  /-- The exposure and gain in force before the last commit, for a frame whose trigger is too near (R42). -/
  prevExpNs : Nat := 0
  prevGain : Nat := 256
  /-- Exposure and gain decided and not committed (R97). -/
  want : Option (Nat × Nat) := none
  /-- A decision made while the sequence of the one before is being written. -/
  wantNext : Option (Nat × Nat) := none
  /-- White-balance gains U4.12 in force and those of the next Frame Start (R99). -/
  wbR : Nat := 4096
  wbB : Nat := 4096
  wbNextR : Nat := 4096
  wbNextB : Nat := 4096
  latchWbR : Nat := 4096
  latchWbB : Nat := 4096
  /-- The tick and the frame of it whose trigger is due next (R40). -/
  trigTick : Nat := 0
  trigSecond : Bool := false
  frame : Option CamFrame := none
  /-- The frame before it, of which Percale may still complete bands (R95). -/
  lastFrame : Option CamFrame := none
  /-- The statistics of the last frame (R96). -/
  stats : FrameStats := { metered := 0, zoneLuma := [], zoneR := [], zoneG := [], zoneB := [], histogram := [] }
  /-- Triggers sent whose Frame Start has not arrived: tick, second frame, t_trig in units of 0.5 ps, exposure. -/
  sent : List (Nat × Bool × Int × Nat) := []
  deriving DecidableEq, Repr

/-- LINK_STATE of a lidar port (R129). -/
inductive LidLink where
  | down | training | up
  deriving DecidableEq, Repr

/-- A lidar port (R105 to R113, R129). -/
structure LidarState where
  link : LidLink := .down
  speed : Nat := 0
  eyeMargin : Nat := 255
  linkLoss : Counter := {}
  frameDrop : Counter := {}
  parseDrop : Counter := {}
  quotaDropMain : Counter := {}
  quotaDropFb : Counter := {}
  pointsLast : BitVec 32 := 0
  gptp : GptpState := {}
  deriving DecidableEq, Repr

/-- An IMU port (R44, R45, R117, R118, R129). -/
structure ImuState where
  syncMode : Bool := false
  missed : Counter := {}
  orphan : Counter := {}
  overrun : Counter := {}
  reject : Counter := {}
  counterGap : Counter := {}
  /-- The latest sync pulse and whether a DRDY edge has taken it, or its miss was counted (R45). -/
  pulse : Option Nanos := none
  pulseTaken : Bool := false
  /-- The transaction in progress: sample time (none for an edge that gives no sample) and arrival stamp (R117). -/
  trans : Option (Option Nanos × Nanos) := none
  deriving DecidableEq, Repr

/-- A CAN controller (R120 to R122, R129). -/
structure CanState where
  rec_ : BitVec 8 := 0
  errPassive : Bool := false
  proto : Counter := {}
  reject : Counter := {}
  aliveGap : Counter := {}
  deriving DecidableEq, Repr

/-- The GNSS port (R123, R124, R129). -/
structure GnssState where
  fixQuality : BitVec 4 := 0
  rmcValid : Bool := false
  framing : Counter := {}
  sentenceReject : Counter := {}
  unpaired : Counter := {}
  /-- A PPS stamp that waits for its sentence (R124). -/
  pendingPps : Option Nanos := none
  /-- The newest GNSS-time-minus-device-time offset and its PPS stamp (R47). -/
  offset : Option (Int × Nanos) := none
  deriving DecidableEq, Repr

/-- One stream's record in a calibration copy (R134, R143). -/
structure CalEntry where
  value : CalRecord
  lastGen : BitVec 32 := 0
  lastReject : Nat := 0
  deriving DecidableEq, Repr

/-- A calibration copy (R138). -/
structure CalCopy where
  gen : BitVec 32 := 0
  records : List (Nat × CalEntry) := []
  deriving DecidableEq, Repr

/-- A confirmation run of a problem slot (R139): the candidates counted and the first of them. -/
structure ConfirmRun where
  count : Nat
  first : List (Nat × CalRecord)
  deriving DecidableEq, Repr

/-- The calibration tables (R138 to R143). -/
structure CalState where
  active : CalCopy := {}
  inactive : CalCopy := {}
  seed : List (Nat × CalRecord) := []
  limits : List (Nat × CalLimits) := []
  confirmCount : Nat := 2
  gainMin : Nat := 0
  deferLimit : Nat := 20
  digest : Nat := 0
  /-- An accepted update is written to the inactive copy, and when the write ended (R138 condition 1). -/
  written : Option Nanos := none
  /-- The generation that the inactive copy held before that write (R138 condition 3). -/
  prevGen : BitVec 32 := 0
  deferrals : Nat := 0
  runs : Bank (Option ConfirmRun) := []
  /-- Streams in drift hold (R140). -/
  driftHold : List Nat := []
  /-- A rejection in this major tick sets CALIB_HELD until its end (R141). -/
  rejectedAt : Option Nanos := none
  /-- The generation each tick with an unsealed output is bound to (R138 condition 3). -/
  bound : List (Nat × BitVec 32) := []
  /-- The copies that a reload at a warm start replaced, with the generations that the old image's ticks are bound to
  (R138, R142, R414). -/
  retired : List CalCopy := []
  retiredBound : List (Nat × BitVec 32) := []
  /-- The boundary at which the active copy last changed, and the time offsets of the copy before it by stream (R60). -/
  changedAt : Nanos := 0
  toffBefore : List (Nat × Int) := []
  accept : Counter := {}
  reject : Counter := {}
  defer : Counter := {}
  snapshot : CalCopy := {}
  deriving DecidableEq, Repr

/-- The sensor ports by number: cameras 0 to 15, lidars 0 to 7, IMUs 0 to 3, CAN controllers 0 to 3, GNSS (R10). -/
structure PortState where
  cameras : Bank CameraState := []
  lidars : Bank LidarState := []
  imus : Bank ImuState := []
  cans : Bank CanState := []
  gnss : GnssState := {}
  deriving DecidableEq, Repr

end Sys2Proof.Machine
end

