-- ==== Sys2Proof/Machine/FabricState.lean ====
section
/-!
DEFINITION. The state of the two Tweed engines, the four Chambray units, the cores, the clusters and their DMA
engines as plain data (spec/07_tweed_point_engine.md to spec/10_twill_layout.md).
-/

namespace Sys2Proof.Machine

open Sys2Proof

/-- A decoded lidar point (R110). -/
structure Point where
  p : Vec3
  intensity : F32
  ret : Nat
  stream : Nat
  t : Nanos
  arrival : Nanos
  deriving DecidableEq, Repr

/-- An open motion slice (R145). -/
structure Slice where
  tick : Nat
  number : Nat
  points : List Point
  deriving DecidableEq, Repr

/-- A compensated point (R155). -/
structure PointRec where
  p : Vec3
  intensity : F32
  ret : Nat
  stream : Nat
  dtNs : Int
  /-- The arrival stamp of its packet (R148). -/
  arrival : Nanos
  cell : Option Nat
  slice : Nat
  tick : Nat
  /-- The point waits for its insertion (R148). -/
  pending : Bool
  deriving DecidableEq, Repr

/-- A cell record (R153). -/
structure CellRec where
  key : Nat
  count : Nat
  sweepMap : List Nat
  newest : Nanos
  sumDx : F32
  sumDy : F32
  sumDz : F32
  sumI : F32
  maxI : BitVec 16
  maxDz : BitVec 16
  minDz : BitVec 16
  firstPoint : Nat
  deriving DecidableEq, Repr

/-- One Tweed engine (R144 to R169, R174). -/
structure TweedState where
  slices : Bank (Option Slice) := []
  sliceNo : Bank Nat := []
  /-- The two point stores, by tick parity, oldest first (R155). -/
  stores : Bank (List PointRec) := []
  /-- The tick whose table comes next to be released: those of the ticks before it are released (R166). -/
  tick : Nat := 0
  /-- Valid hash slots: key and cell index (R151). -/
  slots : Bank (Option (Nat × Nat)) := []
  count : Bank Nat := []
  maxProbe : Bank Nat := []
  cells : Bank (Option CellRec) := []
  inserted : Nat := 0
  /-- The provisional anchor of each tick, none where absent (R68, R147). -/
  provisional : List (Nat × Option PoseEntry) := []
  /-- Δ_k in the headers of the scatter outputs, by the destination's descriptor (R163). -/
  headers : Bank (Option (Nat × List F64)) := []
  /-- The final anchor A_k and Δ_k of each tick (R163); an anchor taken under an exception is marked as not valid. -/
  final : List (Nat × PoseEntry × List F64) := []
  /-- Ticks whose outputs set EXTRAPOLATED_FAR, CELL_TABLE_FULL, and that took the sort-merge path (R169). -/
  far : List Nat := []
  full : List Nat := []
  sortMerge : List Nat := []
  maxProbeLast : List Nat := [0, 0, 0, 0]
  cellsLast : Nat := 0
  pointsLast : Nat := 0
  cellFull : Counter := {}
  levelFull : Counter := {}
  sortMergeCount : Counter := {}
  roiDrop : Counter := {}
  nonfinite : Counter := {}
  poseDrop : Counter := {}
  fpsTrunc : Counter := {}
  overrun : Counter := {}
  hwm : Nat := 0
  fullLast : Bool := false
  sortMergeLast : Bool := false
  /-- Consecutive ticks with an overrun, and the last such tick (R168). -/
  overrunRun : Nat := 0
  overrunTick : Option Nat := none
  restarting : Bool := false
  deriving DecidableEq, Repr

/-- UNIT_STATE of a Chambray unit (R193). -/
inductive UnitRun where
  | idle | running | restarting
  deriving DecidableEq, Repr

/-- The band pose list of one frame of a camera (R176): the reference pose, and of each band its pose, its time in ns,
whether C_k replaced its pose, and whether it is present. Once composed (R177): the reference transform and the band
transforms, as twelve FP32 numbers. -/
structure BandPoses where
  tick : Nat
  ref : PoseEntry
  bands : List PoseEntry
  times : List Int
  subst : List Bool
  present : List Nat
  composed : Bool
  bref : List F32
  bs : List (List F32)
  deriving DecidableEq, Repr

/-- A unit's counts of one tick in the order of R193, and the calibration generation that the tick uses. -/
structure ChbRun where
  tick : Nat
  counts : List Nat
  gen : BitVec 32
  deriving DecidableEq, Repr

/-- A Chambray unit (R175 to R193). -/
structure ChbUnit where
  state : UnitRun := .idle
  projLast : BitVec 32 := 0
  sampleInvalidLast : BitVec 32 := 0
  liftContribLast : BitVec 32 := 0
  liftOutLast : BitVec 32 := 0
  paintNoviewLast : BitVec 32 := 0
  bandFlipLast : BitVec 32 := 0
  /-- The ticks in which the unit has begun a window and whose Chambray windows have not all closed. -/
  running : List ChbRun := []
  overrun : Counter := {}
  epochMismatch : Counter := {}
  bandSubst : Counter := {}
  remoteRetry : Counter := {}
  calGenLast : BitVec 32 := 0
  overrunRun : Nat := 0
  deriving DecidableEq, Repr

/-- A contribution of a LIFT operation to a cell (R184 to R186): the bin's probability and the pixel's features. -/
structure Contrib where
  cell : Nat × Nat
  w : F32
  f : List F32
  deriving DecidableEq, Repr

/-- A contribution that an accumulator has received: the first window of its operation, and the unit that sent it. -/
structure Addition where
  window : Nat
  unit : Nat
  of : Contrib
  deriving DecidableEq, Repr

/-- The Chambray units and the two banks of band tables, by camera, frame and tick parity (R178). -/
structure ChambrayState where
  units : Bank ChbUnit := []
  bands : Bank (Option BandPoses) := []
  /-- What the accumulators of the LIFT operations have received since they were cleared (R186). -/
  additions : List Addition := []
  deriving DecidableEq, Repr

/-- What a core waits for (R200). -/
inductive CoreWait where
  | window (w : Nat)
  | tally (t n : Nat)
  | dma (n : Nat)
  | dmaQueue (addr : Nat)
  deriving DecidableEq, Repr

/-- Whether a core runs its program. -/
inductive CoreRun where
  | ready
  | waiting (w : CoreWait)
  | stopped
  deriving DecidableEq, Repr

/-- A core (R195): X, V and ACC registers by index, a vector's lane i at 16 v + i, an accumulator's row r and column
c at 128 a + 8 r + c. The program counter and the loop starts are implied by R200. -/
structure CoreState where
  pc : Nat := 0
  run : CoreRun := .ready
  /-- The window the core works in, once released. -/
  window : Option Nat := none
  x : Bank Word := []
  v : Bank Word := []
  acc : Bank Word := []
  /-- The format tag of each accumulator: true is FP32. -/
  accFp : Bank Bool := []
  lc : Bank (BitVec 16) := []
  /-- Start of each open loop's body with its counter, innermost first. -/
  loops : List (Nat × Nat) := []
  cscale : F32 := 0
  nsw : BitVec 8 := 0
  imem : Bank (BitVec 64) := []
  deriving DecidableEq, Repr

/-- A transfer held by a DMA engine (R230, R235): the issuing core, the descriptor's cluster address, its window, whether it
runs in fixed-order mode (R219), and, once started, the routers of the source's die that it passes (R209), the descriptor
read, when, and the table of the mode it belongs to. -/
structure Transfer where
  core : Nat
  addr : Nat
  window : Option Nat
  fixed : Bool
  route : List Nat := []
  started : Option (TransferDesc × Nanos × Nat)
  deriving DecidableEq, Repr

/-- CLU_STATE of a cluster (R222). -/
inductive CluRun where
  | gated | running | restarting | failed | golden
  deriving DecidableEq, Repr

/-- A buffered reduce-add of fixed-order mode (R219): the window it belongs to, the source in application order, the address
key, the value. -/
structure HeldAdd where
  window : Option Nat
  source : Nat
  key : Nat
  value : F32
  deriving DecidableEq, Repr

/-- A cluster (R203 to R208, R222, R236). -/
structure ClusterState where
  state : CluRun := .gated
  tallies : Bank (BitVec 16) := []
  tallySat : Bool := false
  dma : List Transfer := []
  numFlagsLast : BitVec 8 := 0
  /-- NSW collected from the cores whose windows of a tick have ended (R218), by tick. -/
  numFlags : List (Nat × BitVec 8) := []
  eccCorr : Counter := {}
  eccUncorr : Counter := {}
  descErr : Counter := {}
  timeout : Counter := {}
  lastErr : Nat := 0
  held : List HeldAdd := []
  /-- The line each bank's scrubber reads next (R207). -/
  scrub : Bank Nat := []
  /-- A Burlap cluster reloaded after a double-bit error runs again from the next major tick boundary (R207). -/
  rejoin : Bool := false
  deriving DecidableEq, Repr

/-- The compute fabric. -/
structure FabricState where
  clusters : Bank ClusterState := []
  cores : Bank CoreState := []
  /-- CRC retries of mesh and die-link flits, for the health record (R211). -/
  flitRetry : Counter := {}
  deriving DecidableEq, Repr

end Sys2Proof.Machine
end

