-- ==== Sys2Proof/Machine/PlanState.lean ====
section
/-!
DEFINITION. The state of the Tick Sequencer's plan, of Damask and of Serge as plain data
(spec/11_tick_plan.md to spec/13_serge_solver.md).
-/

namespace Sys2Proof.Machine

open Sys2Proof

/-- What a window of one tick is doing (R247 to R249). -/
inductive WinPhase where
  | planned | held | running | ended | missing
  deriving DecidableEq, Repr

/-- A window of one tick: the plan it comes from (a mode, or Burlap's), its phase, when it was released, the cores that
have not executed END, the descriptors that read as zeros (R249) and the Damask sequences it reserved positions in. -/
structure WinState where
  phase : WinPhase := .planned
  released : Nanos := 0
  active : List Nat := []
  zeroed : List Nat := []
  expired : Bool := false
  /-- A core ended the window with INVALID in its NSW (R218). -/
  invalid : Bool := false
  /-- A view that the window opened was MISSING tokens (R280, R355). -/
  viewMissing : Bool := false
  deriving DecidableEq, Repr

/-- How a solve ended (R303, R305, R307). -/
inductive SolveStatus where
  | converged | capped | discarded | notRun
  deriving DecidableEq, Repr

/-- One tick that the plan runs: the mode, the device time of its start and its validity instant, and what its outputs
carry. Instants are kept because a warm start may change P (R26). -/
structure TickRec where
  mode : Nat
  /-- D of the tick's plan in minor ticks (R325). -/
  dMinor : Nat
  start : Nanos
  valid : Nanos
  epoch : BitVec 32
  calGen : BitVec 32
  modeSwitched : Bool
  transition : Bool
  /-- The main pipeline runs its windows in the tick. -/
  mainRuns : Bool
  /-- Windows marked missing, for the outputs of the tick (R249). -/
  missing : Nat
  missingFb : Nat
  /-- How the EGO solves at the validity instant ended on S0 and on S3, with SOLVER_REGULARISED (R319). -/
  egoMain : SolveStatus × Bool
  egoFb : SolveStatus × Bool
  deriving DecidableEq, Repr

/-- The codes of R355 that a Mode Request can end with (R254). -/
inductive ModeReason where
  | request | search
  deriving DecidableEq, Repr

/-- A pending mode switch (R252). -/
structure PendingMode where
  target : Nat
  /-- The tick at which it takes effect, and the tick from which a staged target is copied. -/
  effect : Nat
  staged : Bool
  copied : Nat
  reason : ModeReason
  announced : Bool
  deriving DecidableEq, Repr

/-- The Tick Sequencer's plan state (R247 to R265). -/
structure PlanState where
  modeInForce : Nat := 0
  mainStopped : Bool := false
  /-- The start interval of R498 is running. -/
  startInterval : Bool := false
  pending : Option PendingMode := none
  pendingKHiLatch : BitVec 32 := 0
  /-- The main pipeline stops at the next major tick boundary: no available mode was found (R255). -/
  stopDue : Bool := false
  modeAvail : List Nat := []
  epochLoad : Nat := 0
  epochMode : Nat := 0
  epochSwitch : Nat := 0
  lNs : Nat := 0
  ticks : List (Nat × TickRec) := []
  /-- Windows of open ticks, by tick, plan and index. -/
  windows : Bank WinState := []
  /-- Consecutive ticks with an expiry of each group, and the last such tick (R250). -/
  groupRun : Bank Nat := []
  groupTick : Bank Nat := []
  wdg : Counter := {}
  winMissing : Counter := {}
  heldRelease : Counter := {}
  modeSwitch : Counter := {}
  modeRefuse : Counter := {}
  hostRefuse : Counter := {}
  missingLast : BitVec 16 := 0
  hostUsedLast : BitVec 32 := 0
  hostUsed : Nat := 0
  /-- Capacity admitted into HOST windows, by tick and window (R257). -/
  hostCharged : Bank Nat := []
  deriving DecidableEq, Repr

/-- A page of a sequence's table (R274, R277, R279). -/
structure PageEntry where
  slot : Nat
  tokens : Nat
  firstTick : Nat
  newestTick : Nat
  snap : Option Nat
  dropped : Bool
  deriving DecidableEq, Repr

/-- Who owns a sequence: the plan, or a host session (R288). -/
inductive SeqOwner where
  | planned
  | session (port : Nat)
  deriving DecidableEq, Repr

/-- A Damask sequence (R269, R270, R278). -/
structure Sequence where
  cls : Nat
  half : Nat
  owner : SeqOwner
  pages : List PageEntry
  /-- Epoch of the tick whose close removes the sequence, once a FREE was taken (R278). -/
  freeAt : Option Nat
  deriving DecidableEq, Repr

/-- A reserved run of token positions in one page (R276): the APPEND it belongs to, the epoch, the window that writes it,
the sequence, the page slot, first position and count, whether the page was newly taken, and its snapshot slot. -/
structure PendingAppend where
  id : Nat
  epoch : Nat
  window : Option Nat
  seq : Nat
  slot : Nat
  first : Nat
  count : Nat
  fresh : Bool
  snap : Option Nat
  deriving DecidableEq, Repr

/-- An entry of a recompute queue that a window may rebuild (R283): its number in the epoch, the dropped page by sequence
and snapshot slot, and the page slot reserved for it. -/
structure Rebuild where
  number : Nat
  epoch : Nat
  seq : Nat
  snap : Nat
  slot : Nat
  restored : Bool
  deriving DecidableEq, Repr

/-- One half of Damask (R266 to R291). -/
structure DmkHalf where
  /-- Reference counts of the page slots (R277). -/
  refs : Bank Nat := []
  /-- Slots pinned, with the epoch that pins them (R275). -/
  pins : List (Nat × Nat) := []
  snapUsed : List Nat := []
  appends : List PendingAppend := []
  rebuilds : List Rebuild := []
  /-- The number of the next APPEND. -/
  nextId : Nat := 0
  /-- Entries listed in the major tick (R283), and that tick. -/
  listed : Nat := 0
  listedTick : Nat := 0
  /-- By epoch: MISSING over all views, over those of the main pipeline's windows, and appends refused (R280, R291). -/
  missing : Bank Nat := []
  missingMain : Bank Nat := []
  refused : Bank Nat := []
  missingLast : BitVec 32 := 0
  refusedLast : BitVec 14 := 0
  appendRefuse : Counter := {}
  createRefuse : Counter := {}
  drop : Counter := {}
  recompute : Counter := {}
  recomputeSkip : Counter := {}
  cow : Counter := {}
  shareSat : Counter := {}
  discard : Counter := {}
  pageEcc : Counter := {}
  deriving DecidableEq, Repr

/-- Damask: the sequences of both halves and each half's pool. -/
structure DamaskState where
  seqs : Bank (Option Sequence) := []
  halves : Bank DmkHalf := []
  /-- The epoch that closes next. -/
  epoch : Nat := 0
  /-- The windows of open epochs that have issued a command: epoch and window (R275). -/
  issuers : List (Nat × Nat) := []
  deriving DecidableEq, Repr

/-- UNIT_STATE of a Serge unit (R322). -/
inductive SrgRun where
  | idle | running | resetting | fault
  deriving DecidableEq, Repr

/-- A complete delta packet that waits for its slot's window (R300). -/
structure Packet where
  slot : Nat
  seq : BitVec 32
  tick : Nat
  wordsOk : Bool
  records : List (Nat × Nat × List F64)
  deriving DecidableEq, Repr

/-- A Serge unit (R292, R320, R322). -/
structure SrgUnit where
  state : SrgRun := .idle
  slotRunning : Option Nat := none
  lastFault : Nat := 0
  sramUsedKib : Nat := 0
  eccCorr : Counter := {}
  eccUncorr : Counter := {}
  reset : Counter := {}
  /-- When the fault being reset was detected (R320). -/
  since : Nanos := 0
  /-- The deadline at which the unit was told to stop, until it has stopped (R307, R320). -/
  stopDue : Option Nanos := none
  /-- The structure check has failed once and the unit was reset for it (R299). -/
  structRetry : Bool := false
  deriving DecidableEq, Repr

/-- A problem slot (R292 to R322). -/
structure SrgSlot where
  unavailable : Bool := false
  suspended : Bool := false
  running : Bool := false
  lastEnd : SolveStatus := .converged
  lastReg : Bool := false
  lastDeadline : Bool := false
  lastIters : Nat := 0
  lastCost : F32 := 0
  lastLambda : F32 := 0
  deadline : Counter := {}
  regularised : Counter := {}
  overflow : Counter := {}
  reject : Counter := {}
  gap : Counter := {}
  reinit : Counter := {}
  absposeLate : Counter := {}
  calBusy : Counter := {}
  /-- The slot has had its first odometry epoch since cold reset (R313), and re-initialises at its next boundary. -/
  begun : Bool := false
  reinitDue : Bool := true
  lastEndTime : Nanos := 0
  lastEndHiLatch : BitVec 32 := 0
  epoch : BitVec 32 := 0
  lastSeq : Option (BitVec 32) := none
  packets : List Packet := []
  /-- Active factors with their measurements, run-time holds, and the current iterate by block (R301). -/
  active : Bank (Option (List F64)) := []
  heldBlocks : List Nat := []
  iterate : Bank (List F64) := []
  /-- The iterate at which the solve started (R305), and the problem as its window reads it. -/
  startIterate : Bank (List F64) := []
  problem : Option SrgProblem := none
  /-- The iterations begun and `regularised` of a solve that spans windows (R303, R307). -/
  iters : Nat := 0
  regSoFar : Bool := false
  /-- EGO: the position of the newest boundary in the ring of STATE9 blocks, and the window with its prior (R309). -/
  ring : Nat := 0
  window : EgoWindow := {}
  /-- Of each active EXTERNAL factor, the iterate of its blocks at which its packet was applied (R301). -/
  extAt : Bank (List (List F64)) := []
  /-- The window of the solve in progress: source, tick and number, and for an EGO slot its boundary. -/
  solveSrc : Source := .main
  solveTick : Nat := 0
  solveWindow : Nat := 0
  solveB : Nanos := 0
  lambda : F64 := 0
  windowsUsed : Nat := 0
  genAtStart : BitVec 32 := 0
  deadlineAt : Nanos := 0
  discardedRun : Nat := 0
  invalidRun : Nat := 0
  deriving DecidableEq, Repr

/-- An ego entry as a solve wrote it (R312): its status, SOLVER_REGULARISED, and its one-sigma values SIG_POS, SIG_YAW and
SIG_VEL as computed. -/
structure EgoEntry where
  entry : PoseEntry
  status : SolveStatus
  reg : Bool
  sigma : List F32
  deriving DecidableEq, Repr

/-- SCAN solves since an output's last seal (R319): the newest end and its SOLVER_REGULARISED, and whether any ended
CAPPED, any regularised. -/
structure ScanEnds where
  last : SolveStatus
  lastReg : Bool
  capped : Bool
  reg : Bool
  deriving DecidableEq, Repr

/-- The consistency entry of one stream (R322, R329). -/
structure Consistency where
  resid : F32 := 0
  inlier : Nat := 0
  tick : Nat := 0
  valid : Bool := false
  deriving DecidableEq, Repr

/-- Serge. -/
structure SergeState where
  units : Bank SrgUnit := []
  slots : Bank SrgSlot := []
  consist : Bank Consistency := []
  /-- The newest ego entries of S0 and S3 with their solve status and one-sigma values (R312). -/
  egoMain : Option EgoEntry := none
  egoFb : Option EgoEntry := none
  /-- A SCAN result that S0 takes as ABSPOSE (R315). -/
  absPose : Option (Nanos × List F64) := none
  /-- By output of the main pipeline. -/
  scans : Bank (Option ScanEnds) := []
  deriving DecidableEq, Repr

end Sys2Proof.Machine
end

