-- ==== Sys2Proof/Machine/OutputState.lean ====
section
/-!
DEFINITION. The outputs that the device assembles, selects and sends, as plain data (spec/14_fused_outputs.md).
-/

namespace Sys2Proof.Machine

open Sys2Proof

/-- One entry of a contribution record (R328). -/
structure ContribEntry where
  stream : Nat
  absent : Bool
  far : Bool
  reacq : Bool
  quota : Bool
  contributed : BitVec 32
  late : BitVec 32
  stale : BitVec 32
  postOutput : BitVec 32
  quotaDrop : BitVec 32
  oldest : Nanos
  newest : Nanos
  deriving DecidableEq, Repr

/-- Felt's comparison of S0 and S3 at a boundary (R329, R393): the five differences. -/
structure EgoBlock where
  b : Nanos := 0
  compared : Bool := false
  disagree : Bool := false
  diffs : List F32 := [0, 0, 0, 0, 0]
  deriving DecidableEq, Repr

/-- One stream entry of a consistency record (R329). -/
structure ConsistEntry where
  stream : Nat
  camera : Bool
  resid : F32
  inlier : Nat
  tick : Nat
  deriving DecidableEq, Repr

/-- The data of a grid product for one tick (R337): the whole grid, cells in rows, channels innermost. -/
structure GridData where
  product : Nat
  format : Nat
  w : Nat
  h : Nat
  channels : Nat
  pitch : F32
  hbinBase : F32
  hbinH : F32
  hbinCount : Nat
  data : List Byte
  deriving DecidableEq, Repr

/-- What an output's records and header take at its seal instant (R64, R325 to R330). `quality` holds bits 2 to 14. -/
structure Seal where
  quality : BitVec 32
  calGen : BitVec 32
  odoEpoch : BitVec 32
  gridC : Int × Int
  gridF : F32 × F32
  anchorYaw : F32
  winMissing : Nat
  appendRefused : Nat
  missingTokens : Nat
  egoEnd : SolveStatus
  egoReg : Bool
  scan : Option (SolveStatus × Bool)
  contrib : List ContribEntry
  /-- The contribution times of the streams with IN_AGE = 1 (R75). -/
  ageTimes : List Nanos
  ego : EgoBlock
  consist : List ConsistEntry
  deriving DecidableEq, Repr

/-- What an output carries in its payload. -/
inductive Payload where
  | missing
  | bytes (b : List Byte)
  | grid (g : GridData)
  deriving DecidableEq, Repr

/-- An output that a source assembles for a tick (R326, R383): the offset and TIME_HOLDOVER of its assembly's start (R55),
its seal, its payload once complete, whether the payload passes R383, and the objects it lists. -/
structure Assembling where
  src : Source
  tick : Nat
  kind : OutKind
  vtOffset : Int
  holdover : Bool
  taken : Option Seal := none
  payload : Option Payload := none
  ok : Bool := false
  objects : List ObjectRec := []
  /-- Every track alive, by number. -/
  alive : List Nat := []
  /-- OUT_SEQ of a grid or point frame, taken at its seal (R327). -/
  seq : BitVec 32 := 0
  deriving DecidableEq, Repr

/-- An output as it goes out (R325). -/
structure Output where
  kind : OutKind
  source : Source
  mode : Nat
  seq : BitVec 32
  k : Nat
  minor : Nat
  epoch : BitVec 32
  tValid : Nanos
  tOutput : Nanos
  ageOldest : Nat
  quality : BitVec 32
  vtOffset : Int
  rec_ : Seal
  payload : Payload
  deriving DecidableEq, Repr

/-- The outputs in hand (R327, R330, R382). -/
structure OutputState where
  /-- The next OUT_SEQ by kind (and product) and source (R327). -/
  seq : Bank (BitVec 32) := []
  /-- Quality bits that arose after a seal and wait for the next output of the kind and source (R330). -/
  carry : Bank (BitVec 32) := []
  /-- When the last output of a kind (and product) and source was sealed (R141, R330). -/
  sealedAt : Bank (Option Nanos) := []
  /-- Its tick and quality word, for the conditions that arise after its seal (R330). -/
  sealedAs : Bank (Option (Nat × BitVec 32)) := []
  /-- The outputs of open ticks by source. -/
  assembling : List Assembling := []
  /-- The source selected for an Object List or Drivable Space of a tick, none where neither has content (R382). -/
  selected : List (Nat × OutKind × Option Source) := []
  /-- The newest frames of each grid product with their seal instants, newest first, for READ_GRID (R354). -/
  newestGrid : Bank (List (Nanos × Assembling)) := []
  deriving DecidableEq, Repr

end Sys2Proof.Machine
end

