-- ==== Sys2Proof/Machine/HostState.lean ====
section
/-!
DEFINITION. The state of the host ports as plain data (spec/15_host_ports_and_sessions.md): the HST registers, the
session, its rings, lanes, identifiers and subscriptions.
-/

namespace Sys2Proof.Machine

open Sys2Proof

/-- STATE of a session (R345, R347). -/
inductive SessState where
  | closed | attesting | open_ | closing
  deriving DecidableEq, Repr

/-- CLOSE_REASON of R345. -/
inductive CloseReason where
  | none | host | heartbeat | link | dma | warmStart | config | attest
  deriving DecidableEq, Repr

/-- A completion entry (R352). -/
structure Completion where
  queryId : BitVec 32
  status : BitVec 8
  origStatus : BitVec 8
  resultPresent : Bool
  resultBytes : Nat
  tick : Nat
  tDone : Nanos
  gen : BitVec 16
  phase : Bool
  deriving DecidableEq, Repr

/-- A stream ring set (R345, R351) with the subscription bound to it (R358). -/
structure StreamRing where
  base : Nat := 0
  slotBytes : Nat := 0
  slotCountLog2 : Nat := 0
  cons : BitVec 32 := 0
  prod : BitVec 32 := 0
  oldest : BitVec 32 := 0
  drop : Counter := {}
  deriving DecidableEq, Repr

/-- A subscription (R358): its kind code, product, region (first and count of columns, rows and channels) and decimation,
the instant from which its frames fall, and once removed the one before which its last frame falls; for a batch kind the
next BATCH_SEQ and the number of the last record delivered. -/
structure Subscription where
  kind : Nat
  product : Nat
  region : List Nat
  decim : Nat
  firstAt : Nanos
  endAt : Option Nanos
  batchSeq : BitVec 32
  batchMark : BitVec 32
  deriving DecidableEq, Repr

/-- A submission in the identifier window (R356): its completion once there is one, and duplicates that wait for it. -/
structure HeldId where
  id : BitVec 32
  done : Option Completion
  result : Option (List Byte)
  deriving DecidableEq, Repr

/-- A submission that has been accepted and not completed: a query, with the tick charged, the window it runs in (R357)
and its number in the order of acceptance, or a command that waits for its turn (R354). `status` is what its run has
found, written at the window's planned end. -/
structure Work where
  sub : Submission
  order : Nat
  tick : Nat
  window : Option Nat
  cost : Nat
  started : Bool
  status : Option (BitVec 8)
  result : List Byte
  deriving DecidableEq, Repr

/-- One host port. -/
structure HostPort where
  state : SessState := .closed
  privileged : Bool := false
  closeReason : CloseReason := .none
  gen : BitVec 16 := 0
  heartbeat : BitVec 32 := 0
  /-- When the heartbeat timer last restarted (R348). -/
  hbAt : Nanos := 0
  /-- When OPEN was written (R347). -/
  openAt : Nanos := 0
  busMaster : Bool := false
  linkUp : Bool := false
  nonce : Bank (BitVec 32) := []
  attestAddr : Nat := 0
  attestLen : Nat := 0
  wbAddr : Nat := 0
  sqBase : Nat := 0
  sqSizeLog2 : Nat := 0
  sqTail : BitVec 32 := 0
  sqHead : BitVec 32 := 0
  cqBase : Nat := 0
  cqSizeLog2 : Nat := 0
  cqHead : BitVec 32 := 0
  cqTail : BitVec 32 := 0
  /-- Completion entries reserved at fetch and not yet written (R352). -/
  cqReserved : Nat := 0
  rings : Bank StreamRing := []
  /-- The subscriptions of each ring: one that ends and one that follows it may stand together (R362). -/
  subs : Bank (List Subscription) := []
  intStatus : BitVec 32 := 0
  /-- The bits that the hardware has set in the cycle of device time `intSetAt` (R7). -/
  intSetBits : BitVec 32 := 0
  intSetAt : Nanos := 0
  intEnable : BitVec 32 := 0
  holdoffUs : BitVec 16 := 0
  /-- When each MSI-X vector last sent a message (R346), and the MSI-X table words and pending bits (R344). -/
  lastMsg : Bank (Option Nanos) := []
  msixTable : Bank (BitVec 32) := []
  msixPending : BitVec 32 := 0
  budgetUsed : Bank Nat := []
  outstanding : Bank Nat := []
  dup : Counter := {}
  stale : Counter := {}
  refuse : Counter := {}
  protoErr : Counter := {}
  closeCount : Counter := {}
  /-- The identifier window, oldest first (R356). -/
  ids : List HeldId := []
  /-- Duplicates that wait for their original: the submission. -/
  waitingDups : List Submission := []
  work : List Work := []
  /-- The session's Damask forks (R288). -/
  forks : List Nat := []
  /-- The device challenge of the session (R422). -/
  challenge : Option Nat := none
  deriving DecidableEq, Repr

/-- A listed track (R354): its space, whether it is alive, and its records with their seal instants and times of validity,
newest first. -/
structure TrackHistory where
  src : Source
  id : Nat
  alive : Bool
  records : List (Nanos × Nanos × ObjectRec)
  deriving DecidableEq, Repr

/-- The host side: the ports, the 64-tick track history of READ_TRACK (R354), and the number of the next query in the
order of acceptance (R357). -/
structure HostState where
  ports : Bank HostPort := []
  tracks : List TrackHistory := []
  order : Nat := 0
  deriving DecidableEq, Repr

end Sys2Proof.Machine
end

