-- ==== Sys2Proof/Machine/LinkState.lean ====
section
/-!
DEFINITION. The state of the vehicle link and of Felt as plain data (spec/16_vehicle_link_and_safety.md).
-/

namespace Sys2Proof.Machine

open Sys2Proof

/-- LINK_STATE of a vehicle port (R395). -/
inductive VlkLink where
  | down | training | up
  deriving DecidableEq, Repr

/-- A message that waits on a port or is being sent (R366 to R369): its identifier, precedence, release instant, start
bound, frames left and all, the quality and offset fixed at its first frame's start, and its body. -/
structure Message where
  msgId : Nat
  prec : Nat
  pcp : Nat
  released : Nanos
  boundNs : Option Nat
  msgTime : Nanos
  fragCount : Nat
  fragNext : Nat
  quality : BitVec 32
  vtOffset : Int
  body : List Byte
  deriving DecidableEq, Repr

/-- A vehicle port (R363 to R369, R395). -/
structure VlkPort where
  link : VlkLink := .down
  eyeMargin : Nat := 255
  txSeq : BitVec 32 := 0
  /-- Frames sent since cold reset, so that SEQ starts at 0 (R369). -/
  txAny : Bool := false
  rxSeq : BitVec 32 := 0
  rxAny : Bool := false
  linkLoss : Counter := {}
  rxReject : Counter := {}
  txLate : Counter := {}
  lastReject : Nat := 0
  echoSeq : BitVec 32 := 0
  ctrlStatus : BitVec 8 := 0
  /-- The message whose frame is on the wire, and the waiting messages in release order. -/
  sending : Option Message := none
  waiting : List Message := []
  deriving DecidableEq, Repr

/-- SAFE_OK_STATE (R370, R379). -/
inductive SafeOk where
  | notStarted | running | stopped
  deriving DecidableEq, Repr

/-- The fault classes (R386). -/
inductive FaultClass where
  | h | v
  deriving DecidableEq, Repr

/-- An active class V condition (R387): its code, the unit of its cause (0 where the code has one), whether its cause
has ended, and whether it lasts until cold reset. -/
structure Condition where
  code : Nat
  unit : Nat
  ended : Bool
  latched : Bool
  deriving DecidableEq, Repr

/-- A golden visit's place on one cluster (R391, R392). -/
structure GoldenVisit where
  seg : Nat := 0
  fails : Nat := 0
  /-- A visit is running in the open GOLDEN window. -/
  running : Bool := false
  /-- The cluster has been scheduled since cold reset, and a visit has passed (R410). -/
  scheduled : Bool := false
  passed : Bool := false
  deriving DecidableEq, Repr

/-- What the next Health Summary reports of the interval since the last (R372). -/
structure HealthWindow where
  disagree : Bool := false
  silent : Bool := false
  holdover : Bool := false
  linkLoss : Bool := false
  tjMax : Option Int := none
  absent : List Nat := []
  classH : Nat := 0
  fallback : Nat := 0
  deriving DecidableEq, Repr

/-- Felt (R379 to R395). -/
structure FeltState where
  safeOk : SafeOk := .notStarted
  pinA : Bool := false
  pinB : Bool := false
  /-- Minor tick boundaries since cold reset, the first included: n of R379 is one less. -/
  boundaries : Nat := 0
  burlapValid : Bool := false
  classV : Bool := false
  conditions : List Condition := []
  /-- Resumption counting (R387): running, and ticks left. -/
  resuming : Bool := false
  resumeLeft : Nat := 0
  /-- The safety processor pair: held in reset while REFCLK is absent, and its self-check outstanding (R387). -/
  pairReset : Bool := false
  selfCheckDue : Bool := false
  refclkLost : Bool := false
  /-- A whole minor tick interval within the band of R54 was measured since the pair's reset (R387). -/
  goodInterval : Bool := false
  /-- The interval in progress has already raised 0x0003 (R54). -/
  intervalFault : Bool := false
  goldenPos : Nat := 0
  golden : Bank GoldenVisit := []
  /-- SELFTEST_INCOMPLETE of the last GOLDEN window, by tick (R330, R391). -/
  goldenIncomplete : List Nat := []
  faultSeq : BitVec 32 := 0
  lastCode : Nat := 0
  lastClass : Option FaultClass := none
  /-- Class H codes noticed since the last minor tick boundary (R371). -/
  noticedH : List Nat := []
  classVCount : Counter := {}
  classHCount : Counter := {}
  e2eFail : Counter := {}
  egoDisagree : Counter := {}
  fallbackCount : Counter := {}
  goldenFail : Counter := {}
  goldenIncompleteCount : Counter := {}
  /-- Clusters declared failed (R392). -/
  failed : List Nat := []
  ego : EgoBlock := {}
  /-- The ego block at each open tick's validity instant (R329). -/
  egoAt : List (Nanos × EgoBlock) := []
  /-- When each solver last changed its odometry epoch, for the motion differences (R393). -/
  epochMainAt : Nanos := 0
  epochFbAt : Nanos := 0
  window : HealthWindow := { silent := true, holdover := true }
  /-- The whole second of device time whose Health Summary went out last (R367). -/
  lastSummary : Nat := 0
  /-- FALLBACK and PARTITION_RESTARTING as in the latest Object List (R369). -/
  lastFallback : Bool := false
  lastRestarting : Bool := false
  deriving DecidableEq, Repr

/-- What the device holds of the vehicle controller (R373 to R377, R395). -/
structure CtrlState where
  silent : Bool := true
  lastAccepted : Nanos := 0
  /-- When the consent lapses, while it is active (R376). -/
  consentUntil : Option Nanos := none
  modeReqId : Option (BitVec 32) := none
  consentReqId : Option (BitVec 32) := none
  lastReqId : BitVec 32 := 0
  lastReqStatus : BitVec 8 := 0
  lastReqMode : BitVec 4 := 0
  deriving DecidableEq, Repr

end Sys2Proof.Machine
end

