-- ==== Sys2Proof/Machine/DevState.lean ====
section
/-!
DEFINITION. The device: every block's state together, all of the machine but the queue of commands.
-/

namespace Sys2Proof.Machine

open Sys2Proof

/-- The state of the LZ9400 but for the queue of waiting commands. -/
structure Dev where
  time : TimeState := {}
  muslin : MuslinState := {}
  ports : PortState := {}
  cal : CalState := {}
  tweed : TweedState := {}
  tweedFb : TweedState := {}
  chambray : ChambrayState := {}
  fabric : FabricState := {}
  plan : PlanState := {}
  damask : DamaskState := {}
  serge : SergeState := {}
  output : OutputState := {}
  host : HostState := {}
  v0 : VlkPort := {}
  v1 : VlkPort := {}
  felt : FeltState := {}
  ctrl : CtrlState := {}
  boot : BootState := {}
  recovery : RecoveryState := {}
  health : HealthState := {}
  /-- The SRAMs and LPDDR5X by packed address; an unlisted byte reads as `memDefault`. -/
  mem : List Host.Cell := []
  /-- What the device has put out, newest first (the model's own journal). -/
  sent : List Emission := []
  /-- How many free values the run has drawn (the model's own). -/
  freeCtr : Nat := 0
  deriving DecidableEq, Repr

end Sys2Proof.Machine
end

