-- ==== Sys2Proof/Machine/Ops.lean ====
section
/-!
DEFINITION. The shared operations: the journal, free values, counters (R8), the host ports' interrupt bits (R346), the
health records (R450), the log ring (R419) and the look-ups in the plan.
-/

namespace Sys2Proof

/-- An event counter after `n` more events (R8): it saturates at its largest value, which sets its sticky bit. -/
def Counter.add (c : Counter) (n : Nat) : Counter :=
  if c.val.toNat + n < 0xFFFFFFFF then { c with val := c.val + BitVec.ofNat 32 n }
  else if n = 0 then c else { val := 0xFFFFFFFF, sat := true }

/-- An event counter after one more event (R8). -/
def Counter.inc (c : Counter) : Counter := Counter.add c 1

end Sys2Proof

namespace Sys2Proof.Machine

open Sys2Proof

/-- Device time now (R21). -/
def Dev.now (d : Dev) : Nanos := d.time.dev

/-- Note an act of the device on its ports. -/
def emit (e : Emission) (d : Dev) : Dev := { d with sent := e :: d.sent }

/-- Note several acts, the first one first. -/
def emitAll (es : List Emission) (d : Dev) : Dev := { d with sent := es.reverse ++ d.sent }

/-- The entry of a number in a list of pairs. -/
def assoc {α : Type} (k : Nat) : List (Nat × α) → Option α
  | [] => none
  | (a, v) :: rest => if a = k then some v else assoc k rest

/-- Insert a value before the first that it comes before. -/
def insertBy {α : Type} (before : α → α → Bool) (x : α) : List α → List α
  | [] => [x]
  | y :: rest => if before x y then x :: y :: rest else y :: insertBy before x rest

/-- A list in an order, equals as they stood. -/
def sortBy {α : Type} (before : α → α → Bool) (l : List α) : List α := l.foldl (fun acc x => insertBy before x acc) []

/-- A free value of 32 bits, and the device that has drawn it. -/
def drawFree (d : Dev) : BitVec 32 × Dev := (Config.free32 d.freeCtr, { d with freeCtr := d.freeCtr + 1 })

/-- A 48-bit wear counter after one more event (R8). -/
def wearInc (v : Nat) : Nat := min (v + 1) 0xFFFFFFFFFFFF

/-! ### The register BAR's blocks (R344) -/

/-- BAR0 offset of the time block. -/
def barTime : Nat := 0x010000
/-- BAR0 offset of the Tick Sequencer block. -/
def barTsq : Nat := 0x020000
/-- BAR0 offset of the Muslin block. -/
def barMus : Nat := 0x030000
/-- BAR0 offset of the Tweed block. -/
def barTwd : Nat := 0x040000
/-- BAR0 offset of the Chambray block. -/
def barChb : Nat := 0x050000
/-- BAR0 offset of the Damask block. -/
def barDmk : Nat := 0x060000
/-- BAR0 offset of the Serge block. -/
def barSrg : Nat := 0x070000
/-- BAR0 offset of the vehicle link and Felt block. -/
def barVlk : Nat := 0x080000
/-- BAR0 offset of the housekeeping block. -/
def barHkp : Nat := 0x090000

/-! ### Host ports -/

/-- Port p of H0 to H3. -/
def Dev.port (d : Dev) (p : Nat) : HostPort := bget {} p d.host.ports

/-- The device with port p replaced. -/
def Dev.setPort (d : Dev) (p : Nat) (h : HostPort) : Dev :=
  { d with host := { d.host with ports := bput {} p h d.host.ports } }

/-- The device with port p changed. -/
def Dev.modPort (d : Dev) (p : Nat) (f : HostPort → HostPort) : Dev := d.setPort p (f (d.port p))

/-- Interrupt bits of R346. -/
def intSession : Nat := 0
/-- ATTEST. -/
def intAttest : Nat := 1
/-- CQ. -/
def intCq : Nat := 2
/-- HEALTH. -/
def intHealth : Nat := 3
/-- HB_WARN. -/
def intHbWarn : Nat := 4
/-- The bit of stream ring r. -/
def intRing (r : Nat) : Nat := 16 + r

/-- The MSI-X vector of bit n is masked in the table (bit 0 of the entry's fourth word). -/
def HostPort.masked (h : HostPort) (n : Nat) : Bool := (bget 0 (4 * n + 3) h.msixTable).getLsbD 0

/-- The port may write to host memory: its link is up and it is bus master (R347, R349). -/
def HostPort.canWrite (h : HostPort) : Bool := h.linkUp && h.busMaster

/-- No message went out on vector n within HOLDOFF_US (R346). -/
def HostPort.holdoffOver (h : HostPort) (n : Nat) (now : Nanos) : Bool :=
  match bget none n h.lastMsg with
  | none => true
  | some t => decide (t + h.holdoffUs.toNat * usNs ≤ now)

/-- The bits of HST_INT_STATUS that the hardware has set in the cycle in progress (R7). -/
def HostPort.setNow (h : HostPort) (now : Nanos) : BitVec 32 := if h.intSetAt = now then h.intSetBits else 0

/-- Set a bit of HST_INT_STATUS of port p: where it becomes set and is enabled, the port sends its MSI-X message unless
HOLDOFF_US has not passed; a masked vector leaves its bit pending (R346). -/
def setInt (p n : Nat) (d : Dev) : Dev :=
  let h := d.port p
  let h := { h with intSetBits := h.setNow d.now ||| (1#32 <<< n), intSetAt := d.now }
  if h.intStatus.getLsbD n then d.setPort p h
  else
    let h := { h with intStatus := h.intStatus ||| (1#32 <<< n) }
    if !h.intEnable.getLsbD n then d.setPort p h
    else if h.masked n then d.setPort p { h with msixPending := h.msixPending ||| (1#32 <<< n) }
    else if h.canWrite && h.holdoffOver n d.now then
      emit (.msix p n) (d.setPort p { h with lastMsg := bput none n (some d.now) h.lastMsg })
    else d.setPort p h

/-- Set a bit on all four ports. -/
def setIntAll (n : Nat) (d : Dev) : Dev := setInt 3 n (setInt 2 n (setInt 1 n (setInt 0 n d)))

/-! ### Health records (R450, R451) -/

/-- What a health record says. -/
structure HealthEvent where
  code : Nat
  severity : BitVec 3
  die : Nat := 6
  unit : Nat := 0
  arg0 : Nat := 0
  arg1 : Nat := 0
  arg2 : Nat := 0

/-- Make one health record: it takes the next HEALTH_SEQ, counts, and sets HEALTH on every port (R346, R450). -/
def healthRecord (e : HealthEvent) (d : Dev) : Dev :=
  let h := d.health
  let seq := h.seq + 1
  let r : HealthRecord :=
    { time := d.now, code := BitVec.ofNat 16 e.code, severity := e.severity.toNat, die := e.die,
      unit := BitVec.ofNat 16 e.unit, arg0 := BitVec.ofNat 32 e.arg0, arg1 := BitVec.ofNat 32 e.arg1,
      arg2 := BitVec.ofNat 32 e.arg2, seq := seq }
  setIntAll intHealth
    { d with health := { h with records := r :: h.records, seq := seq, healthEvents := h.healthEvents.inc } }

/-- A health event (R450). Where its record saturates HKP_HEALTH_EVENT_COUNT, that raises one more (R8). -/
def healthEvent (e : HealthEvent) (d : Dev) : Dev :=
  let d' := healthRecord e d
  if d'.health.healthEvents.sat && !d.health.healthEvents.sat then
    healthRecord { code := 0x1000, severity := Config.severity 0x1000 (barHkp + 0x16C), arg0 := barHkp + 0x16C,
                   arg1 := 0xFFFFFFFF } d'
  else d'

/-- A health event of code 0x1000: the BAR0 offset of the field that records the condition, and its value (R451). -/
def conditionEvent (bar value : Nat) (d : Dev) : Dev :=
  healthEvent { code := 0x1000, severity := Config.severity 0x1000 bar, arg0 := bar, arg1 := value } d

/-- The health event of a counter that has just saturated (R8, R436): raised where the sticky bit has become set. -/
def satEvent (bar : Nat) (before after : Counter) (d : Dev) : Dev :=
  if after.sat && !before.sat then conditionEvent bar 0xFFFFFFFF d else d

/-! ### The log ring (R419) -/

/-- Bytes of a log record with n argument words: 32 to 256, in steps of 32. -/
def logBytes (n : Nat) : Nat := min 256 ((0x14 + 4 * n + 31) / 32 * 32)

/-- The newest records that fit in `room` bytes. -/
def logKeep : Nat → List LogRecord → List LogRecord
  | _, [] => []
  | room, r :: rest =>
    if logBytes r.args.length ≤ room then r :: logKeep (room - logBytes r.args.length) rest else []

/-- Write a log record: it takes the next LOG_SEQ, and the ring of 1 MiB overwrites its oldest (R419). -/
def logWrite (source severity what : Nat) (args : List Nat) (d : Dev) : Dev :=
  let b := d.boot
  let seq := b.logSeq + 1
  let r : LogRecord := { time := d.now, seq := seq, source := source, severity := severity,
                         code := Config.logCode source what, args := (args.take 59).map (BitVec.ofNat 32) }
  { d with boot := { b with log := logKeep 0x100000 (r :: b.log), logSeq := seq } }

/-! ### Firmware processors (R417, R418) -/

/-- Firmware processor p of R423. -/
def Dev.proc (d : Dev) (p : Nat) : FwState := bget {} p d.boot.procs

/-- The device with a firmware processor changed. -/
def modProc (p : Nat) (f : FwState → FwState) (d : Dev) : Dev :=
  { d with boot := { d.boot with procs := bmod {} p f d.boot.procs } }

/-- An event for firmware processor p (R418): while it restarts the event waits in its queue of 256, or is lost and
counted. -/
def fwEvent (p : Nat) (d : Dev) : Dev :=
  if !(d.proc p).restarting then d
  else if (d.proc p).queued < 256 then modProc p (fun f => { f with queued := f.queued + 1 }) d
  else
    let c := d.boot.evqDrop.inc
    satEvent (barHkp + 0x68) d.boot.evqDrop c { d with boot := { d.boot with evqDrop := c } }

/-! ### The plan -/

/-- The image in force. -/
def Dev.image (d : Dev) : Image := d.boot.image

/-- The problem definitions that Serge runs: through a transition tick those of the image before it (R27). -/
def Dev.sergeDefs (d : Dev) : SergeSection := if d.time.transition.isSome then d.boot.prevImage.serge else d.image.serge

/-- The record of mode j in the image in force, where present. -/
def Dev.modeRec (d : Dev) (j : Nat) : Option ModeRec := assoc j d.image.plan.modes

/-- P in ns (R24). -/
def TimeState.pNs (t : TimeState) : Nat := t.pMs * msNs

/-- P/N in ns, or the 1.0 ms minor tick of a transition tick (R24, R27). -/
def TimeState.minorNs (t : TimeState) : Nat :=
  match t.transition with
  | some _ => msNs
  | none => if t.n = 0 then 0 else t.pMs * msNs / t.n

/-- The minor ticks of the tick in progress. -/
def TimeState.minors (t : TimeState) : Nat :=
  match t.transition with
  | some l => l
  | none => t.n

/-- The length of the tick in progress in ns. -/
def TimeState.tickNs (t : TimeState) : Nat :=
  match t.transition with
  | some l => l * msNs
  | none => t.pNs

/-- D in ns (R24). -/
def TimeState.dNs (t : TimeState) : Nat := if t.n = 0 then 0 else t.dMinor * (t.pMs * msNs / t.n)

/-- The published offset is unknown (R31, R56). -/
def vtUnknown : Int := -9223372036854775808

/-- The device time at which the next minor tick boundary of the tick in progress falls (R25). -/
def TimeState.nextBoundary (t : TimeState) : Nanos := t.bk + t.nextM * t.minorNs

/-- The start of tick j, from the tick in progress on (R25, R27). -/
def TimeState.startOf (t : TimeState) (j : Nat) : Nanos :=
  if j ≤ t.k then t.bk - (t.k - j) * t.pNs
  else t.bk + t.tickNs + (j - t.k - 1) * t.pNs

/-- The tick record of tick j, where the tick is open or past and kept. -/
def Dev.tickRec (d : Dev) (j : Nat) : Option TickRec := assoc j d.plan.ticks

/-- B_j (R25). -/
def Dev.startOf (d : Dev) (j : Nat) : Nanos :=
  match d.tickRec j with
  | some r => r.start
  | none => d.time.startOf j

/-- The first multiple of P at or after an instant (R25). -/
def nextMultiple (p t : Nat) : Nat := if p = 0 then t else (t + p - 1) / p * p

/-- P in ns that an image's modes share (R246). -/
def imageP (img : Image) : Nat := match assoc img.plan.initialMode img.plan.modes with | some m => m.pMs * msNs | none => 0

/-- D in ns of an image (R24). -/
def imageD (img : Image) : Nat :=
  match assoc img.plan.initialMode img.plan.modes with
  | some m => if m.n = 0 then 0 else m.dMinor * (m.pMs * msNs / m.n)
  | none => 0

/-- The length in ms of the transition tick from an old plan that ends at `b`, where P changes (R26). -/
def transitionMs (oldP newP b : Nat) : Option Nat :=
  if oldP = newP || newP = 0 then none else some ((nextMultiple newP (b + oldP) - b) / msNs)

/-- T_j of a tick that a changeover at `bc` puts under a new image, the first of them `first`: the transition tick has none
(R26, R27, R414). -/
def validAfter (t : TimeState) (img : Image) (bc first j : Nat) : Option Nanos :=
  match transitionMs t.pNs (imageP img) bc with
  | none => some (bc + (j - first) * imageP img + imageD img)
  | some l => if j = first then none else some (bc + l * msNs + (j - first - 1) * imageP img + imageD img)

/-- T_j, none for a transition tick (R25, R27): of a tick to come, under the plan that will be in force. -/
def Dev.validAt (d : Dev) (j : Nat) : Option Nanos :=
  if j = d.time.k && d.time.transition.isSome then none
  else match d.tickRec j with
    | some r => if r.transition then none else some r.valid
    | none =>
      match d.boot.warm with
      | .changeover _ img bc _ =>
        let first := if d.time.pNs = 0 then j else d.time.k + 1 + (bc - d.time.startOf (d.time.k + 1)) / d.time.pNs
        if first ≤ j then validAfter d.time img bc first j else some (d.time.startOf j + d.time.dNs)
      | _ => some (d.time.startOf j + d.time.dNs)

/-- The plan epoch of R264: no plan is in force before B_0 of a cold start. -/
def PlanState.epoch (p : PlanState) : BitVec 32 :=
  if p.epochLoad = 0 then 0
  else BitVec.ofNat 16 p.epochLoad ++ (BitVec.ofNat 4 p.epochMode ++ BitVec.ofNat 12 p.epochSwitch)

/-- MODE_AVAIL (R265). -/
def PlanState.availMask (p : PlanState) : Nat :=
  (List.range 16).foldl (fun acc j => if p.modeAvail.contains j then acc + 2 ^ j else acc) 0

/-! ### Dies and clusters -/

/-- Die x of C0 to C3, M0, M1 in the recovery blocks (R437). -/
def Dev.die (d : Dev) (x : Nat) : DieState := bget {} x d.recovery.dies

/-- The device with die x replaced. -/
def Dev.setDie (d : Dev) (x : Nat) (s : DieState) : Dev :=
  { d with recovery := { d.recovery with dies := bput {} x s d.recovery.dies } }

/-- The device with die x changed. -/
def Dev.modDie (d : Dev) (x : Nat) (f : DieState → DieState) : Dev := d.setDie x (f (d.die x))

/-- Cluster n (R222). -/
def Dev.cluster (d : Dev) (n : Nat) : ClusterState := bget {} n d.fabric.clusters

/-- The device with cluster n replaced. -/
def Dev.setCluster (d : Dev) (n : Nat) (c : ClusterState) : Dev :=
  { d with fabric := { d.fabric with clusters := bput {} n c d.fabric.clusters } }

/-- The device with cluster n changed. -/
def Dev.modCluster (d : Dev) (n : Nat) (f : ClusterState → ClusterState) : Dev := d.setCluster n (f (d.cluster n))

/-- The thermal state of die x, C0 to C3, M0, M1, IOD (R450). -/
def Dev.thermal (d : Dev) (x : Nat) : ThermalState := bget {} x d.health.thermal

/-- The device with die x's thermal state replaced. -/
def Dev.setThermal (d : Dev) (x : Nat) (t : ThermalState) : Dev :=
  { d with health := { d.health with thermal := bput {} x t d.health.thermal } }

/-- The die of cluster n: 32 clusters on each compute die, then Burlap's on the IOD (R222). -/
def clusterDie (n : Nat) : Nat := if n < 128 then n / 32 else 6

/-- Serge unit u (R292). -/
def Dev.srgUnit (d : Dev) (u : Nat) : SrgUnit := bget {} u d.serge.units

/-- The device with Serge unit u replaced. -/
def Dev.setSrgUnit (d : Dev) (u : Nat) (x : SrgUnit) : Dev :=
  { d with serge := { d.serge with units := bput {} u x d.serge.units } }

/-- Problem slot g (R294). -/
def Dev.srgSlot (d : Dev) (g : Nat) : SrgSlot := bget {} g d.serge.slots

/-- The device with problem slot g replaced. -/
def Dev.setSrgSlot (d : Dev) (g : Nat) (x : SrgSlot) : Dev :=
  { d with serge := { d.serge with slots := bput {} g x d.serge.slots } }

/-- Some partition of a die restarts, or the die does (R428, R430). -/
def DieState.anyRestart (s : DieState) : Bool := !s.parts.isEmpty || s.restart.isSome

/-- CLASS_H_ACTIVE: a partition or a Serge unit is restarting (R370, R385). -/
def Dev.classHActive (d : Dev) : Bool :=
  (List.range 6).any (fun x => (d.die x).anyRestart) ||
  (List.range 4).any (fun u => decide ((d.srgUnit u).state = .resetting))

/-- The two vehicle ports (R363). -/
def Dev.vport (d : Dev) (p : Nat) : VlkPort := if p = 0 then d.v0 else d.v1

/-- The device with a vehicle port replaced. -/
def Dev.setVport (d : Dev) (p : Nat) (v : VlkPort) : Dev := if p = 0 then { d with v0 := v } else { d with v1 := v }

/-- The stream n of Muslin (R77). -/
def Dev.stream (d : Dev) (n : Nat) : StreamState := bget {} n d.muslin.streams

/-- The device with stream n replaced. -/
def Dev.setStream (d : Dev) (n : Nat) (s : StreamState) : Dev :=
  { d with muslin := { d.muslin with streams := bput {} n s d.muslin.streams } }

/-- The stream table's entry n in the image in force (R125). -/
def Dev.entry (d : Dev) (n : Nat) : Option StreamEntry := assoc n d.image.streams.entries

/-- Camera port c (R104). -/
def Dev.camera (d : Dev) (c : Nat) : CameraState := bget {} c d.ports.cameras

/-- The device with camera port c replaced. -/
def Dev.setCamera (d : Dev) (c : Nat) (x : CameraState) : Dev :=
  { d with ports := { d.ports with cameras := bput {} c x d.ports.cameras } }

/-- Lidar port n (R129). -/
def Dev.lidar (d : Dev) (n : Nat) : LidarState := bget {} n d.ports.lidars

/-- The device with lidar port n replaced. -/
def Dev.setLidar (d : Dev) (n : Nat) (x : LidarState) : Dev :=
  { d with ports := { d.ports with lidars := bput {} n x d.ports.lidars } }

/-- IMU port n (R129). -/
def Dev.imu (d : Dev) (n : Nat) : ImuState := bget {} n d.ports.imus

/-- The device with IMU port n replaced. -/
def Dev.setImu (d : Dev) (n : Nat) (x : ImuState) : Dev :=
  { d with ports := { d.ports with imus := bput {} n x d.ports.imus } }

/-- CAN controller n (R129). -/
def Dev.can (d : Dev) (n : Nat) : CanState := bget {} n d.ports.cans

/-- The device with CAN controller n replaced. -/
def Dev.setCan (d : Dev) (n : Nat) (x : CanState) : Dev :=
  { d with ports := { d.ports with cans := bput {} n x d.ports.cans } }

end Sys2Proof.Machine
end

