-- ==== Sys2Proof/Machine/Vlink.lean ====
section
/-!
DEFINITION. The vehicle ports: frames, messages and their queues, and the bodies of Status, Fault Notice and Health
Summary (spec/16_vehicle_link_and_safety.md R364 to R372); the published offset and holdover bound they carry
(spec/02_time_base.md R31, R35).
-/

namespace Sys2Proof.Machine

open Sys2Proof

/-- The published vehicle-time offset (R29, R31, R33). -/
def TimeState.vtOffset (t : TimeState) : Int :=
  let v := t.servo
  match v.state with
  | .freeRun => vtUnknown
  | .holdover =>
    match v.heldOffset, v.ov with
    | some o, _ => o
    | none, some o => o + v.err + Config.holdoverDrift v.err (v.rho.getD 0) t.freq (t.dev - v.holdoverSince)
    | none, none => vtUnknown
  | _ =>
    match v.heldOffset, v.ov with
    | some o, _ => o
    | none, some o => o + v.err
    | none, none => vtUnknown

/-- TIME_HOLDOVER: the servo is in any state but LOCKED (R31). -/
def TimeState.holdover (t : TimeState) : Bool := decide (t.servo.state ≠ .locked)

/-- e_max of R35 after `ns` in HOLDOVER, in ns. -/
def holdoverMax (ns : Nat) : Nat :=
  let up (num den : Nat) : Nat := if Config.boundRoundsUp then (num + den - 1) / den else num / den
  if ns ≤ 100 * secNs then
    500 + up (50 * ns * secNs + 5 * ns * ns) (secNs * secNs)
  else 55500 + up (1050 * (ns - 100 * secNs)) secNs

/-- TSQ_HOLDOVER_BOUND (R35, R56). -/
def TimeState.holdoverBound (t : TimeState) : Nat :=
  if t.servo.state = .holdover then
    if t.servo.boundKnown then
      let e := holdoverMax (t.dev - t.servo.holdoverSince)
      if e < 0xFFFFFFFF then e else 0xFFFFFFFF
    else 0xFFFFFFFF
  else 0

/-- SERVO_STATE (R56). -/
def Servo.code : Servo → Nat
  | .freeRun => 0 | .acquiring => 1 | .locked => 2 | .holdover => 3

/-- SAFE_OK_STATE (R370). -/
def SafeOk.code : SafeOk → Nat
  | .notStarted => 0 | .running => 1 | .stopped => 2

/-! ### Message bodies -/

/-- The Status body (R370). -/
def statusBody (d : Dev) : List Byte :=
  let p := d.plan
  let pend : Nat := match p.pending with | some q => q.target | none => 0
  let isPend := p.pending.isSome
  let eff : Nat := match p.pending with | some q => q.effect | none => 0
  let w8 := d.time.m % 256 + 2 ^ 8 * (p.modeInForce % 16) + 2 ^ 12 * (pend % 16) + 2 ^ 16 * bit isPend
    + 2 ^ 17 * bit p.mainStopped + 2 ^ 18 * SafeOk.code d.felt.safeOk + 2 ^ 20 * bit d.felt.classV
    + 2 ^ 21 * bit d.classHActive + 2 ^ 22 * Servo.code d.time.servo.state + 2 ^ 24 * bit d.ctrl.silent
    + 2 ^ 25 * bit d.ctrl.consentUntil.isSome
  w64 d.time.k ++ w32 w8 ++ w32 p.epoch.toNat ++ w32 p.lNs ++ w32 d.time.holdoverBound
    ++ w32 d.ctrl.lastReqId.toNat ++ w32 (d.ctrl.lastReqStatus.toNat + 2 ^ 8 * d.ctrl.lastReqMode.toNat)
    ++ w64 eff ++ w32 d.felt.faultSeq.toNat ++ w32 d.felt.lastCode
    ++ w32 (p.availMask + 2 ^ 16 * satTo 0xFFFF ((d.now - d.ctrl.lastAccepted) / msNs)) ++ w32 0

/-- CLASS of a Fault Notice (R371). -/
def FaultClass.code : FaultClass → Nat
  | .h => 1 | .v => 2

/-- The Fault Notice body (R371). -/
def faultBody (seq : BitVec 32) (code : Nat) (cls : FaultClass) (cleared : Bool) (at_ : Nanos) (die unit arg : Nat) :
    List Byte :=
  w32 seq.toNat ++ w32 (code + 2 ^ 16 * FaultClass.code cls + 2 ^ 18 * bit cleared) ++ w64 at_
    ++ w32 (die % 256 + 2 ^ 8 * (unit % 256)) ++ w32 arg

/-- The streams of a list as ABSENT_LO and ABSENT_HI (R372). -/
def streamBits (l : List Nat) : Nat :=
  (List.range 48).foldl (fun acc n => if l.contains n then acc + 2 ^ n else acc) 0

/-- The Health Summary body (R372). -/
def summaryBody (d : Dev) : List Byte :=
  let w := d.felt.window
  let h := d.health
  let bits := streamBits w.absent
  w32 h.lifeH.toNat ++ w32 h.lifeBandH.toNat
    ++ w32 (bit h.lifeWarn + 2 * bit (!d.cal.driftHold.isEmpty) + 4 * bit w.disagree + 8 * bit w.silent
        + 16 * bit w.holdover + 32 * bit w.linkLoss)
    ++ w32 (twos 16 (w.tjMax.getD (-32768)) + 2 ^ 16 * (d.felt.failed.length % 65536))
    ++ w32 d.plan.availMask ++ w32 (bits % 2 ^ 32) ++ w32 (bits / 2 ^ 32)
    ++ w32 (satTo 0xFFFF w.classH + 2 ^ 16 * satTo 0xFFFF w.fallback) ++ w32 d.felt.faultSeq.toNat

/-! ### Frames (R364 to R366) -/

/-- Fragments of a body (R366). -/
def fragments (len : Nat) : Nat := if len ≤ 1460 then 1 else (len + 1455) / 1456

/-- The part of a body that fragment i carries (R366). -/
def fragBody (body : List Byte) (count i : Nat) : List Byte :=
  if count = 1 then body else (body.drop (1456 * i)).take 1456

/-- The 40-byte protection header with its CRC, and the body (R365, R366). -/
def protect (msgId port : Nat) (seq : BitVec 32) (msgTime : Nat) (vt : Int) (quality : BitVec 32) (idx count : Nat)
    (source : BitVec 32) (body : List Byte) : List Byte :=
  let head := w32 (msgId + 2 ^ 8 * 1 + 2 ^ 16 * port) ++ w32 seq.toNat ++ w64 msgTime ++ w64 (twos 64 vt)
    ++ w32 quality.toNat ++ w32 (body.length + 2 ^ 16 * idx + 2 ^ 24 * count) ++ w32 source.toNat
  head ++ w32 (crc32c (head ++ body)).toNat ++ body

/-- The Ethernet header of a safety-link frame from the device (R364). -/
def etherHead (l : LinkSection) (port pcp : Nat) : List Byte :=
  beBytes 6 l.ctrlMac ++ beBytes 6 (l.portMac.getD port 0) ++ beBytes 2 0x8100
    ++ beBytes 2 (pcp * 2 ^ 13 + l.vid) ++ beBytes 2 (if l.etherType = 0 then 0x88B5 else l.etherType)

/-! ### Queues (R368) -/

/-- The waiting message that goes out next: the highest precedence, and of equal precedence the first released. -/
def bestMessage : List Message → Option Message
  | [] => none
  | m :: rest =>
    match bestMessage rest with
    | none => some m
    | some b => if b.prec < m.prec then some b else some m

/-- Replace the first message equal to `m` by `f m`, or drop it. -/
def replaceFirst (m : Message) (r : Option Message) : List Message → List Message
  | [] => []
  | x :: rest => if x = m then (match r with | some y => y :: rest | none => rest) else x :: replaceFirst m r rest

/-- Clear VALID of a message whose first frame starts while a class V condition is active (R331, R384). -/
def validAtStart (d : Dev) (q : BitVec 32) : BitVec 32 := if d.felt.classV then q &&& ~~~1#32 else q

/-- A first frame that starts past its message's start bound is counted and raises a health event (R368). -/
def countLate (p : Nat) (m : Message) (d : Dev) : Dev :=
  match m.boundNs with
  | none => d
  | some b =>
    if m.fragNext = 0 && decide (m.released + b < d.now) then
      let v := d.vport p
      let c := v.txLate.inc
      conditionEvent (barVlk + 0x40 * p + 0x14) c.val.toNat
        (satEvent (barVlk + 0x40 * p + 0x14) v.txLate c (d.setVport p { v with txLate := c }))
    else d

/-- The output frame in a body with another quality word (R325, R369): QUALITY at 0x2C, and the header's CRC at 0x7C over
header and records, which end at PAYLOAD_OFF. -/
def requalify (q : BitVec 32) (body : List Byte) : List Byte :=
  let b := body.take 0x2C ++ w32 q.toNat ++ body.drop 0x30
  let off := leNat ((b.drop 0x68).take 4)
  b.take 0x7C ++ w32 (crc32c (b.take 0x7C ++ (b.take off).drop 0x80)).toNat ++ b.drop 0x80

/-- A message as its first frame starts: VALID is fixed then, in an output's header too (R331, R369, R384). -/
def atFirstFrame (d : Dev) (m : Message) : Message :=
  let q := validAtStart d m.quality
  if m.fragNext ≠ 0 || q = m.quality then m
  else { m with quality := q, body := if m.msgId = 3 || m.msgId = 4 || m.msgId = 5 then requalify q m.body else m.body }

/-- At a frame boundary with the link up, start the waiting frame of highest precedence (R368, R369). -/
def startFrame (p : Nat) (d : Dev) : Dev :=
  let v := d.vport p
  if v.link ≠ .up || v.sending.isSome then d
  else match bestMessage v.waiting with
    | none => d
    | some m =>
      let d := countLate p m d
      let v := d.vport p
      let seq : BitVec 32 := if v.txAny then v.txSeq + 1 else 0
      let x := atFirstFrame d m
      let sent := { x with fragNext := m.fragNext + 1 }
      let rest := if m.fragNext + 1 < m.fragCount then some sent else none
      let l := d.image.link
      let bytes := etherHead l p x.pcp ++ protect x.msgId p seq x.msgTime x.vtOffset x.quality m.fragNext x.fragCount
        l.deviceId (fragBody x.body x.fragCount m.fragNext)
      emit (.vlinkFrame p bytes)
        (d.setVport p { v with txSeq := seq, txAny := true, sending := some sent,
                               waiting := replaceFirst m rest v.waiting })

/-- The device sends nothing on V0 and V1 before it has a running image, or once it is Retired (R407, R409). -/
def Dev.linkAllowed (d : Dev) : Bool :=
  match d.boot.phase with
  | .phase1 | .verified => true
  | _ => false

/-- Put a message in one port's queue, if its link is up, and start it where the port is idle. -/
def queueOn (p : Nat) (m : Message) (d : Dev) : Dev :=
  let v := d.vport p
  if v.link = .up && d.linkAllowed then startFrame p (d.setVport p { v with waiting := v.waiting ++ [m] }) else d

/-- Release a message on V0 and V1 (R363). -/
def release (m : Message) (d : Dev) : Dev := queueOn 1 m (queueOn 0 m d)

/-- The bits of QUALITY that a Status, Fault Notice or Health Summary carries (R369). -/
def serviceQuality (d : Dev) : BitVec 32 :=
  BitVec.ofNat 32 (bit (!d.felt.classV) + 2 * bit d.felt.lastFallback + 2 ^ 11 * bit d.felt.ego.disagree
    + 2 ^ 13 * bit d.felt.lastRestarting + 2 ^ 15 * bit d.time.holdover)

/-- A service message released now (R367). -/
def serviceMessage (msgId prec pcp : Nat) (bound : Option Nat) (body : List Byte) (d : Dev) : Message :=
  { msgId := msgId, prec := prec, pcp := pcp, released := d.now, boundNs := bound, msgTime := d.now, fragCount := 1,
    fragNext := 0, quality := serviceQuality d, vtOffset := d.time.vtOffset, body := body }

/-- The start bound of Status in ns: one frame in flight and two Fault Notices, rounded up to the microsecond (R368). -/
def statusBound : Nat := 15000

/-- The start bound of Ego State: that of Status and the Status frame itself (R368). -/
def egoBound : Nat := 16000

/-- Status goes out at every minor tick boundary (R370). -/
def sendStatus (d : Dev) : Dev :=
  release (serviceMessage 0x01 2 d.image.link.pcpFast (some statusBound) (statusBody d) d) d

/-- A Fault Notice with the next FAULT_SEQ (R371). -/
def sendNotice (code : Nat) (cls : FaultClass) (cleared : Bool) (die unit arg : Nat) (d : Dev) : Dev :=
  let seq := d.felt.faultSeq + 1
  let d := { d with felt := { d.felt with faultSeq := seq } }
  release (serviceMessage 0x02 1 d.image.link.pcpFast none (faultBody seq code cls cleared d.now die unit arg) d) d

/-- Health Summary, which opens a new interval (R372). -/
def sendSummary (d : Dev) : Dev :=
  let d := release (serviceMessage 0x06 6 d.image.link.pcpBulk none (summaryBody d) d) d
  let w : HealthWindow := { silent := d.ctrl.silent, holdover := d.time.holdover }
  { d with felt := { d.felt with window := w, lastSummary := d.now / secNs } }

end Sys2Proof.Machine
end

