-- ==== Sys2Proof/Machine/Faults.lean ====
section
/-!
DEFINITION. Detecting a fault: the class V and class H reactions of spec/16_vehicle_link_and_safety.md R384 to R387.
-/

namespace Sys2Proof.Machine

open Sys2Proof

/-- Abandon a warm start for class V before B_c (R414): the running image continues. -/
def abandonWarm (d : Dev) : Dev :=
  match d.boot.warm with
  | .reading _ | .changeover .. =>
    conditionEvent (barHkp + 0x10) 3 { d with boot := { d.boot with warm := .none, warmStatus := 3, warmCause := 0 } }
  | _ => d

/-- A condition of this code and unit is active. -/
def FeltState.hasCond (f : FeltState) (code unit : Nat) : Bool :=
  f.conditions.any (fun c => c.code = code && c.unit = unit)

/-- Add a condition, or bring one back that had ended (R387). -/
def FeltState.addCond (f : FeltState) (code unit : Nat) (latched : Bool) : FeltState :=
  if f.hasCond code unit then
    { f with conditions := f.conditions.map (fun c =>
        if c.code = code && c.unit = unit then { c with ended := false, latched := c.latched || latched } else c) }
  else { f with conditions := f.conditions ++ [{ code := code, unit := unit, ended := false, latched := latched }] }

/-- The condition's cause has ended (R387). -/
def FeltState.endCond (f : FeltState) (code : Nat) (unit : Nat) : FeltState :=
  { f with conditions := f.conditions.map (fun c =>
      if c.code = code && c.unit = unit then { c with ended := true } else c) }

/-- Every condition of a code ends (R387). -/
def FeltState.endAll (f : FeltState) (code : Nat) : FeltState :=
  { f with conditions := f.conditions.map (fun c => if c.code = code then { c with ended := true } else c) }

/-- No condition's cause is still there, and none lasts until cold reset (R387). -/
def FeltState.allEnded (f : FeltState) : Bool := f.conditions.all (fun c => c.ended && !c.latched)

/-- Felt resets the safety processor pair at the detection of 0x0001 to 0x0003 (R387): the self-check is due, and the
reset is held while REFCLK has no edges. -/
def resetPair (code : Nat) (d : Dev) : Dev :=
  if 1 ≤ code && code ≤ 3 then
    { d with
      felt := { d.felt with selfCheckDue := true, goodInterval := false, pairReset := d.felt.refclkLost },
      boot := { d.boot with procs := bmod {} 1 (fun p => { p with restarting := true, restartBegan := d.now }) d.boot.procs } }
  else d

/-- SAFE_OK stops: both pins 0 (R379, R380). Before it has started it stays not started. -/
def stopSafeOk (f : FeltState) : FeltState :=
  { f with pinA := false, pinB := false, safeOk := if f.safeOk = .running then .stopped else f.safeOk }

/-- The detection of a class V fault (R371, R384): SAFE_OK stops, CLASS_V_ACTIVE is set, a Fault Notice goes out on
both ports, a warm start before B_c is abandoned, and a health record is made. -/
def raiseV (code die unit arg : Nat) (latched : Bool) (condUnit : Nat) (d : Dev) : Dev :=
  let c := d.felt.classVCount.inc
  let f := stopSafeOk d.felt
  let f := { f.addCond code condUnit latched with classV := true, classVCount := c, lastCode := code,
                                                  lastClass := some .v, resuming := false, resumeLeft := 0 }
  let d := satEvent (barVlk + 0x10C) d.felt.classVCount c { d with felt := f }
  let d := sendNotice code .v false die unit arg d
  let d := resetPair code (abandonWarm d)
  healthEvent { code := code, severity := Config.severity code arg, die := die, unit := unit, arg0 := arg } (fwEvent 1 d)

/-- The detection of a class H fault (R371, R385): counted, and notified at most once per code and minor tick. -/
def raiseH (code die unit arg : Nat) (d : Dev) : Dev :=
  let c := d.felt.classHCount.inc
  let first := !d.felt.noticedH.contains code
  let w := { d.felt.window with classH := d.felt.window.classH + 1 }
  let f := { d.felt with classHCount := c, window := w }
  let d := satEvent (barVlk + 0x110) d.felt.classHCount c { d with felt := f }
  let d := if first then
      sendNotice code .h false die unit arg
        { d with felt := { d.felt with noticedH := code :: d.felt.noticedH, lastCode := code, lastClass := some .h } }
    else d
  healthEvent { code := code, severity := Config.severity code arg, die := die, unit := unit, arg0 := arg } (fwEvent 1 d)

/-- A class V cause of this code has ended (R387). -/
def endCondition (code unit : Nat) (d : Dev) : Dev := { d with felt := d.felt.endCond code unit }

/-- Every cause of this code has ended (R387). -/
def endConditions (code : Nat) (d : Dev) : Dev := { d with felt := d.felt.endAll code }

end Sys2Proof.Machine
end

