-- ==== Sys2Proof/Machine/Windows.lean ====
section
/-!
DEFINITION. The planned windows: where a window lies, who works in it, marking it missing and what its edges do
(spec/11_tick_plan.md R243, R247 to R250).
-/

namespace Sys2Proof.Machine

open Sys2Proof

/-- The image that the windows of a tick come from (R414). -/
def Dev.imageAt (d : Dev) (tick : Nat) : Image := if tick < d.boot.changeTick then d.boot.prevImage else d.boot.image

/-- The mode record that a tick of the main pipeline runs under (R253). -/
def Dev.modeAt (d : Dev) (tick : Nat) : Option ModeRec :=
  match d.tickRec tick with
  | some r => if r.mainRuns then assoc r.mode (d.imageAt tick).plan.modes else none
  | none => none

/-- A window runs in a tick without the main pipeline: those of the EGO slots, the GOLDEN window, and the TRANSMIT windows
of the Object List and the Drivable Space, under the plan data of the tick's mode (R390, R410, R498). -/
def runsAlone (im : Image) (r : WindowRec) : Bool :=
  match r.kind with
  | .golden => true
  | .transmit => r.outputs.any (fun k => decide (k = .objectList) || decide (k = .drivable))
  | .serge => match assoc r.target im.serge.slots with | some s => decide (s.cls = .ego) | none => false
  | _ => false

/-- The main windows that a tick runs, with their numbers in the plan. -/
def Dev.mainWindows (d : Dev) (tick : Nat) : List (Nat × WindowRec) :=
  match d.tickRec tick with
  | none => []
  | some t =>
    let im := d.imageAt tick
    match assoc t.mode im.plan.modes with
    | none => []
    | some m => (m.windows.zipIdx.map (fun x => (x.2, x.1))).filter (fun x => t.mainRuns || runsAlone im x.2)

/-- The windows of a source in a tick, with their numbers (R243, R389). -/
def Dev.windowsAt (d : Dev) (src : Source) (tick : Nat) : List (Nat × WindowRec) :=
  match src with
  | .burlap => (d.imageAt tick).burlap.windows.zipIdx.map (fun x => (x.2, x.1))
  | .main => d.mainWindows tick

/-- Window w of a source in a tick. -/
def Dev.windowRec (d : Dev) (src : Source) (tick w : Nat) : Option WindowRec := assoc w (d.windowsAt src tick)

/-- The edges of a source's plan in a tick (R240). -/
def Dev.edgesAt (d : Dev) (src : Source) (tick : Nat) : List EdgeRec :=
  match src with
  | .burlap => (d.imageAt tick).burlap.edges
  | .main => match d.modeAt tick with | some m => m.edges | none => []

/-- The groups of a source's plan in a tick (R237). -/
def Dev.groupsAt (d : Dev) (src : Source) (tick : Nat) : List GroupRec :=
  match src with
  | .burlap => (d.imageAt tick).burlap.groups
  | .main => match d.modeAt tick with | some m => m.groups | none => []

/-- The partitions of the mode of a tick (R244). -/
def Dev.partsAt (d : Dev) (tick : Nat) : List PartRec :=
  match d.modeAt tick with | some m => m.parts | none => []

/-- The number of a window of one tick in the bank of windows. -/
def winKey (src : Source) (tick w : Nat) : Nat := (tick * 2 + src.idx) * 65536 + w

/-- The state of a window of one tick. -/
def Dev.win (d : Dev) (src : Source) (tick w : Nat) : WinState := bget {} (winKey src tick w) d.plan.windows

/-- The device with a window's state replaced. -/
def Dev.setWin (d : Dev) (src : Source) (tick w : Nat) (s : WinState) : Dev :=
  { d with plan := { d.plan with windows := bput {} (winKey src tick w) s d.plan.windows } }

/-- T_tick + OPEN_NS (R243). -/
def Dev.opening (d : Dev) (tick : Nat) (r : WindowRec) : Option Int :=
  (d.validAt tick).map (fun t => (t : Int) + r.openNs)

/-- The planned end, T_tick + OPEN_NS + DUR_NS (R243). -/
def Dev.plannedEnd (d : Dev) (tick : Nat) (r : WindowRec) : Option Int :=
  (d.opening tick r).map (fun t => t + r.durNs)

/-- The watchdog expiry, T_tick + OPEN_NS + 1.05 × DUR_NS, rounded up to the nanosecond (R248). -/
def Dev.expiry (d : Dev) (tick : Nat) (r : WindowRec) : Option Int :=
  (d.opening tick r).map (fun t => t + ((105 * r.durNs + 99) / 100 : Nat))

/-- An instant has come. -/
def Dev.reached (d : Dev) (t : Option Int) : Bool :=
  match t with | some x => decide (x ≤ (d.now : Int)) | none => false

/-- A cluster of a plan's group: a compute die's clusters in the plan's order, Burlap's after them (R222, R389). -/
def groupClusters (src : Source) (g : GroupRec) : List Nat :=
  match src with
  | .main => g.clusters.map (fun c => 32 * g.die + c)
  | .burlap => g.clusters.map (fun c => 128 + c)

/-- The number of a core, by cluster and core. -/
def coreKey (cl co : Nat) : Nat := cl * 64 + co

/-- The cores of a group (R237). -/
def groupCores (src : Source) (g : GroupRec) : List Nat :=
  (groupClusters src g).flatMap (fun c => g.cores.map (fun k => coreKey c k))

/-- A window runs a program on a group's cores (R243, R248). -/
def kindOnCores : WinKind → Bool
  | .core | .host | .recompute => true
  | _ => false

/-- The group of a window that runs on cores. -/
def Dev.groupOf (d : Dev) (src : Source) (tick : Nat) (r : WindowRec) : Option GroupRec :=
  if kindOnCores r.kind then (d.groupsAt src tick)[r.target]? else none

/-! ### Chambray's windows and its units' counts (R188, R191, R193) -/

/-- The grid record of a tick's mode (R190). -/
def Dev.gridAt (d : Dev) (tick : Nat) : Option GridRec :=
  match d.tickRec tick with
  | some r => assoc r.mode (d.imageAt tick).grids
  | none => none

/-- The operation of CHAMBRAY window w and the rank of its unit in UNIT_MASK (R191). -/
def gridOp (g : GridRec) (w : Nat) : Option (ChbRec × Nat) :=
  g.ops.findSome? (fun o => if o.window ≤ w && w < o.window + o.units.length then some (o, w - o.window) else none)

/-- The Chambray unit of a window: the plan names one window per unit of an operation (R188, R243). -/
def Dev.chbUnitOf (d : Dev) (tick w : Nat) : Option Nat :=
  (d.gridAt tick).bind (fun g => (gridOp g w).bind (fun o => o.1.units[o.2]?))

/-- The unit on die Cx. -/
def Dev.chb (d : Dev) (x : Nat) : ChbUnit := bget {} x d.chambray.units

/-- The device with a unit changed. -/
def modChb (x : Nat) (f : ChbUnit → ChbUnit) (d : Dev) : Dev :=
  { d with chambray := { d.chambray with units := bmod {} x f d.chambray.units } }

/-- A unit's registers of the last tick (R193): counts of zero where the unit began no window in it. -/
def latchChb (tick : Nat) (gen : BitVec 32) (u : ChbUnit) : ChbUnit :=
  let l := match u.running.find? (fun r => decide (r.tick = tick)) with | some r => r.counts | none => []
  let c (i : Nat) : BitVec 32 := BitVec.ofNat 32 (l.getD i 0)
  { u with projLast := c 0, sampleInvalidLast := c 1, liftContribLast := c 2, liftOutLast := c 3, paintNoviewLast := c 4,
           bandFlipLast := c 5, calGenLast := gen, running := u.running.filter (fun r => decide (tick < r.tick)) }

/-- The generation that a tick's Chambray windows use: of the unit that began one. -/
def Dev.genOfTick (d : Dev) (tick : Nat) : Option (BitVec 32) :=
  (List.range 4).findSome? (fun x => ((d.chb x).running.find? (fun r => decide (r.tick = tick))).map (·.gen))

/-- Where a tick's Chambray windows have all closed, its counts go to the registers of every unit (R193). -/
def closeChambray (tick : Nat) (d : Dev) : Dev :=
  let ws := (d.mainWindows tick).filter (fun x => decide (x.2.kind = .chambray))
  let closed := ws.all (fun x => match (d.win .main tick x.1).phase with | .ended | .missing => true | _ => false)
  if closed && !ws.isEmpty then
    (List.range 4).foldl (fun d x => modChb x (latchChb tick ((d.genOfTick tick).getD (d.chb x).calGenLast)) d) d
  else d

/-! ### Where a window's work lies -/

/-- The die that a main window's work lies on: of its group, of its Chambray unit, M0 for Tweed, the IOD for the rest
(R13, R243). -/
def Dev.windowDie (d : Dev) (tick w : Nat) (r : WindowRec) : Nat :=
  match r.kind with
  | .core | .host | .recompute => match (d.groupsAt .main tick)[r.target]? with | some g => g.die | none => 6
  | .chambray => (d.chbUnitOf tick w).getD 6
  | .tweed => 4
  | _ => 6

/-- The partition of the mode of the tick that a main window's work lies in, if any (R237, R250). -/
def Dev.windowPart (d : Dev) (tick w : Nat) (r : WindowRec) : Option Nat :=
  match r.kind with
  | .core | .host | .recompute => match (d.groupsAt .main tick)[r.target]? with | some g => some g.part | none => none
  | .chambray => (d.chbUnitOf tick w).bind (fun x => (d.partsAt tick).findIdx? (fun p => p.die = x && p.chambray))
  | .tweed => (d.partsAt tick).findIdx? (fun p => p.die = 4)
  | _ => none

/-- The core state of core key q. -/
def Dev.core (d : Dev) (q : Nat) : CoreState := bget {} q d.fabric.cores

/-- The device with a core replaced. -/
def Dev.setCore (d : Dev) (q : Nat) (c : CoreState) : Dev :=
  { d with fabric := { d.fabric with cores := bput {} q c d.fabric.cores } }

/-- A core stops: it runs nothing until its next window (R248). -/
def stopCore (d : Dev) (q : Nat) : Dev :=
  let c := d.core q
  d.setCore q { c with run := .stopped, window := none }

/-- The outstanding transfers of a window are abandoned on a cluster's DMA engine (R235). -/
def dropTransfers (key : Nat) (d : Dev) (cl : Nat) : Dev :=
  d.modCluster cl (fun c => { c with dma := c.dma.filter (fun t => t.window ≠ some key) })

/-- A window of a tick is still to run, or runs, on a cluster. -/
def Dev.busyOn (d : Dev) (src : Source) (tick cl : Nat) : Bool :=
  (d.windowsAt src tick).any (fun x =>
    (match (d.win src tick x.1).phase with | .planned | .held | .running => true | _ => false) &&
    (match d.groupOf src tick x.2 with | some g => (groupClusters src g).contains cl | none => false))

/-- A core's flags are collected as its window of a tick ends (R218). -/
def noteFlags (tick : Nat) (d : Dev) (q : Nat) : Dev :=
  let b := (d.core q).nsw
  d.modCluster (q / 64) (fun c =>
    let old := match c.numFlags.find? (fun e => decide (e.1 = tick)) with | some e => e.2 | none => 0
    { c with numFlags := (tick, old ||| b) :: c.numFlags.filter (fun e => decide (e.1 ≠ tick)) })

/-- NUM_FLAGS_LAST once all the windows of a tick on a cluster have ended (R222). -/
def closeFlags (src : Source) (tick : Nat) (d : Dev) (cl : Nat) : Dev :=
  if d.busyOn src tick cl then d
  else d.modCluster cl (fun c =>
    { c with numFlagsLast := match c.numFlags.find? (fun e => decide (e.1 = tick)) with | some e => e.2 | none => 0,
             numFlags := c.numFlags.filter (fun e => decide (e.1 ≠ tick)) })

/-- The same on every cluster of a window's group. -/
def closeGroupFlags (src : Source) (tick w : Nat) (d : Dev) : Dev :=
  match (d.windowRec src tick w).bind (d.groupOf src tick) with
  | some g => (groupClusters src g).foldl (closeFlags src tick) d
  | none => d

/-- Stop the cores of a window that have not executed END, and abandon its transfers (R248). -/
def stopWindow (src : Source) (tick w : Nat) (d : Dev) : Dev :=
  let s := d.win src tick w
  let d := s.active.foldl stopCore (s.active.foldl (noteFlags tick) d)
  let d := match d.windowRec src tick w with
    | some r => match d.groupOf src tick r with
      | some g => (groupClusters src g).foldl (dropTransfers (winKey src tick w)) d
      | none => d
    | none => d
  d.setWin src tick w { s with active := [] }

/-- One more missing mark in a tick's record (R249). -/
def noteMissing (src : Source) (tick : Nat) (d : Dev) : Dev :=
  { d with plan := { d.plan with ticks := d.plan.ticks.map (fun e =>
      if e.1 = tick then
        (e.1, match src with
          | .main => { e.2 with missing := e.2.missing + 1 }
          | .burlap => { e.2 with missingFb := e.2.missingFb + 1 })
      else e) } }

/-- Force a tally to 0xFFFF without setting TALLY_SAT (R249). -/
def forceTally (tally : Nat) (d : Dev) (cl : Nat) : Dev :=
  d.modCluster cl (fun c => { c with tallies := bput 0 tally 0xFFFF c.tallies })

/-- What ZERO does to the consumer of a producer marked missing (R249): its reads of INPUT_DESC return zeros, and for a
STREAM edge the tally is forced in the consumer's clusters, so that waits end. -/
def zeroEdge (src : Source) (tick : Nat) (e : EdgeRec) (d : Dev) : Dev :=
  let s := d.win src tick e.consumer
  let d := d.setWin src tick e.consumer { s with zeroed := e.inputDesc :: s.zeroed }
  if e.stream then
    match d.windowRec src tick e.consumer with
    | some r => match d.groupOf src tick r with
      | some g => (groupClusters src g).foldl (forceTally e.tally) d
      | none => d
    | none => d
  else d

/-- Why a window is marked missing: the causes that raise their own codes do not raise 0x0101 (R386). -/
inductive MissCause where
  | overrun
  | propagate
  | transfer
  | restart
  | power
  deriving DecidableEq, Repr

/-- The cause leaves 0x0101 to the window (R386). -/
def MissCause.raises : MissCause → Bool
  | .overrun | .propagate | .transfer => true
  | .restart | .power => false

/-- Set a window's missing bit and count it; a main window with SAFETY_PATH raises 0x0101 (R249, R386). -/
def setMissing (cause : MissCause) (src : Source) (tick w : Nat) (d : Dev) : Dev :=
  let d := stopWindow src tick w d
  let s := d.win src tick w
  let d := d.setWin src tick w { s with phase := .missing }
  let c := d.plan.winMissing.inc
  let d := satEvent (barTsq + 0x11C) d.plan.winMissing c { d with plan := { d.plan with winMissing := c } }
  let d := closeGroupFlags src tick w (closeChambray tick (noteMissing src tick d))
  match d.windowRec src tick w with
  | some r =>
    if cause.raises && r.safetyPath && decide (src = .main) then raiseH 0x0101 (d.windowDie tick w r) r.target w d else d
  | none => d

/-- Two open ticks run one plan of a source: an edge with PREV_TICK joins their windows (R240). -/
def Dev.samePlan (d : Dev) (src : Source) (t1 t2 : Nat) : Bool :=
  match d.tickRec t1, d.tickRec t2 with
  | some a, some b =>
    decide ((t1 < d.boot.changeTick) = (t2 < d.boot.changeTick)) &&
    (match src with
      | .burlap => !a.transition && !b.transition
      | .main => decide (a.mode = b.mode) && a.mainRuns && b.mainRuns)
  | _, _ => false

/-- Mark windows missing with all that follows along the edges (R249): under PROPAGATE the consumer is marked too. An edge
into a tick that has not begun acts as that tick begins. `fuel` bounds the chain by the number of windows. -/
def markMissing : (fuel : Nat) → MissCause → Source → (tick w : Nat) → Dev → Dev
  | 0, _, _, _, _, d => d
  | fuel + 1, cause, src, tick, w, d =>
    if (d.win src tick w).phase = .missing || (d.win src tick w).phase = .ended then d
    else
      let d := setMissing cause src tick w d
      ((d.edgesAt src tick).filter (fun e => e.producer = w)).foldl (fun d e =>
        let ctick := if e.prevTick then tick + 1 else tick
        let ph := (d.win src ctick e.consumer).phase
        if e.prevTick && !d.samePlan src tick ctick then d
        else if e.propagate then
          if ph = .planned || ph = .held || (e.stream && decide (ph = .running)) then
            markMissing fuel .propagate src ctick e.consumer d
          else d
        else if ph = .planned || ph = .held || (e.stream && decide (ph = .running)) then zeroEdge src ctick e d
        else d) d

/-- The bound of R249's chains: more windows than a plan holds. -/
def chainFuel : Nat := 4096

/-- How many ticks before the one in progress the model keeps open: no window reaches further. -/
def keptTicks : Nat := 8

/-- Mark window w missing. -/
def miss (cause : MissCause) (src : Source) (tick w : Nat) (d : Dev) : Dev := markMissing chainFuel cause src tick w d

/-- A window marked missing by its engine's timer, or for a transfer that was refused or abandoned: of the main pipeline that is
a class H fault whether or not the window has SAFETY_PATH (R168, R188, R235); the code of one without is not stated
(R386). -/
def faultMiss (cause : MissCause) (src : Source) (tick w : Nat) (d : Dev) : Dev :=
  let d := miss cause src tick w d
  match src, d.windowRec src tick w with
  | .main, some r => if r.safetyPath then d else raiseH (Config.classHCode (bit (cause = .transfer))) (d.windowDie tick w r) r.target w d
  | _, _ => d

/-- Mark missing every main window of a tick that satisfies `p` and has not ended. -/
def missWhere (cause : MissCause) (tick : Nat) (p : Nat → WindowRec → Bool) (d : Dev) : Dev :=
  (d.windowsAt .main tick).foldl (fun d x => if p x.1 x.2 then miss cause .main tick x.1 d else d) d

end Sys2Proof.Machine
end

