-- ==== Sys2Proof/Machine/Recovery.lean ====
section
/-!
DEFINITION. The recovery ladder: partition and die restart, declaration as failed, and the availability of modes
(spec/18_recovery_ladder.md R428 to R434, spec/11_tick_plan.md R252, R254, R255).
-/

namespace Sys2Proof.Machine

open Sys2Proof

/-! ### Modes -/

/-- A die may be used by a mode: it has been admitted (R255, R411). -/
def Dev.dieUsable (d : Dev) (x : Nat) : Bool :=
  match (d.die x).state with
  | .admitted | .restarting => true
  | _ => false

/-- The dies that a mode uses (R237, R244). -/
def modeDies (m : ModeRec) : List Nat := m.groups.map (·.die) ++ m.parts.map (·.die)

/-- The clusters that a mode uses, numbered as in R222. -/
def modeClusters (m : ModeRec) : List Nat := m.groups.flatMap (groupClusters .main)

/-- Two partitions, of the tables of two modes or of one, hold a domain in common (R244). -/
def touches (a b : PartRec) : Bool :=
  decide (a.die = b.die) && (decide (4 ≤ a.die) || a.clusters.any b.clusters.contains || (a.chambray && b.chambray))

/-- A partition of a mode has been declared failed (R433). -/
def Dev.partFailed (d : Dev) (m : ModeRec) : Bool :=
  m.parts.any (fun p => (d.die p.die).failedParts.any (touches p))

/-- Mode j is available (R255): present, its dies admitted, none of its clusters or partitions failed, and none of its
Serge slots unavailable. -/
def Dev.modeAvailable (d : Dev) (j : Nat) : Bool :=
  match d.modeRec j with
  | none => false
  | some m =>
    (modeDies m).all d.dieUsable &&
    (modeClusters m).all (fun c => !d.felt.failed.contains c) &&
    !d.partFailed m &&
    d.image.serge.slots.all (fun s => !(s.2.modeMask.contains j && (d.srgSlot s.1).unavailable))

/-- The first tick whose boundary lies at least two minor ticks after now (R252). -/
def Dev.switchTick (d : Dev) : Nat :=
  let t := d.now + 2 * d.time.minorNs
  let base := d.time.startOf (d.time.k + 1)
  if t ≤ base || d.time.pNs = 0 then d.time.k + 1
  else d.time.k + 1 + (t - base + d.time.pNs - 1) / d.time.pNs

/-- A switch accepted now (R252): a staged target is copied in the two ticks before it starts. -/
def Dev.newSwitch (d : Dev) (target : Nat) (reason : ModeReason) : PendingMode :=
  let j := d.switchTick
  let staged := match d.modeRec target with | some m => m.staged | none => false
  { target := target, effect := if staged then j + 2 else j, staged := staged, copied := 0, reason := reason,
    announced := false }

/-- Accept a switch (R252, R254). -/
def startSwitch (target : Nat) (reason : ModeReason) (d : Dev) : Dev :=
  let stop := match reason with | .search => false | .request => d.plan.stopDue
  { d with plan := { d.plan with pending := some (d.newSwitch target reason), stopDue := stop } }

/-- One more refusal or cancellation (R254). -/
def countModeRefuse (d : Dev) : Dev :=
  let c := d.plan.modeRefuse.inc
  satEvent (barTsq + 0x128) d.plan.modeRefuse c { d with plan := { d.plan with modeRefuse := c } }

/-- Completion status codes of R355. -/
def stOk : BitVec 8 := 0x00
/-- DEGRADED. -/
def stDegraded : BitVec 8 := 0x01
/-- LATE. -/
def stLate : BitVec 8 := 0x02
/-- REFUSED_BUDGET. -/
def stRefused : BitVec 8 := 0x03
/-- DUPLICATE. -/
def stDuplicate : BitVec 8 := 0x04
/-- STALE_ID. -/
def stStale : BitVec 8 := 0x05
/-- ABORTED_DEADLINE. -/
def stAborted : BitVec 8 := 0x06
/-- INVALID. -/
def stInvalid : BitVec 8 := 0x07
/-- SESSION_CLOSED. -/
def stClosed : BitVec 8 := 0x08
/-- NOT_PERMITTED. -/
def stNotPermitted : BitVec 8 := 0x09
/-- MODE_UNAVAILABLE. -/
def stUnavailable : BitVec 8 := 0x0A

/-- Cancel the pending switch: counted, its copy discarded, and a request's status changed to `status` (R254). -/
def cancelSwitch (status : BitVec 8) (d : Dev) : Dev :=
  match d.plan.pending with
  | none => d
  | some q =>
    let d := countModeRefuse { d with plan := { d.plan with pending := none } }
    match q.reason with
    | .request => { d with ctrl := { d.ctrl with lastReqStatus := status } }
    | .search => d

/-- The first available mode along FALLBACK_MODE from mode j itself, in at most `fuel` further steps (R255). -/
def Dev.firstFrom (d : Dev) : (fuel : Nat) → Nat → Option Nat
  | 0, j => if d.modeAvailable j then some j else none
  | fuel + 1, j =>
    if d.modeAvailable j then some j
    else match d.modeRec j with
      | some m => match m.fallback with | some f => d.firstFrom fuel f | none => none
      | none => none

/-- The search of R255 from the FALLBACK_MODE of mode j. -/
def Dev.fallbackOf (d : Dev) (j : Nat) : Option Nat :=
  match d.modeRec j with
  | some m => match m.fallback with | some f => d.firstFrom 15 f | none => none
  | none => none

/-- Start the search of R255 from mode j: a switch to the first available mode, or the main pipeline's stop at the next
major tick boundary. -/
def searchFrom (j : Nat) (d : Dev) : Dev :=
  match d.fallbackOf j with
  | some t => startSwitch t .search d
  | none => { d with plan := { d.plan with stopDue := true } }

/-- The main pipeline's first mode is in force (R498). -/
def PlanState.inForce (p : PlanState) : Bool := p.epochLoad ≠ 0 && !p.startInterval && !p.mainStopped

/-- Take the availability of modes afresh (R255): a pending switch to a mode that has become unavailable is cancelled,
a search continues from its target, and the mode in force, as it becomes unavailable, starts a search, which replaces a
switch that was pending. -/
def refreshModes (d : Dev) : Dev :=
  let gone := d.plan.inForce && d.plan.modeAvail.contains d.plan.modeInForce && !d.modeAvailable d.plan.modeInForce
  let d := { d with plan := { d.plan with modeAvail := (List.range 16).filter d.modeAvailable } }
  let lost := match d.plan.pending with
    | some q => if d.modeAvailable q.target then none else some q
    | none => none
  let d := match lost with
    | none => d
    | some q => match q.reason with
      | .request => cancelSwitch stUnavailable d
      | .search => searchFrom q.target (cancelSwitch stUnavailable d)
  if gone then searchFrom d.plan.modeInForce d else d

/-! ### Restarts -/

/-- Cause codes of R437. -/
def causeWatchdog : Nat := 1
/-- Skew (R52). -/
def causeSkew : Nat := 2
/-- k or plan epoch (R53). -/
def causeEpoch : Nat := 3
/-- Uncorrectable SRAM error (R207). -/
def causeSram : Nat := 4
/-- Transaction timeout (R426). -/
def causeTimeout : Nat := 5
/-- Tweed overrun (R168). -/
def causeTweed : Nat := 6
/-- Chambray overrun (R188). -/
def causeChambray : Nat := 7
/-- Fabric domain (R430). -/
def causeFabric : Nat := 8
/-- Steward escalation (R427). -/
def causeSteward : Nat := 9
/-- Restart failed (R433). -/
def causeFailed : Nat := 10
/-- Golden visit failed (R392). -/
def causeGolden : Nat := 11

/-- The partitions of the mode in force (R244). -/
def Dev.parts (d : Dev) : List PartRec :=
  match d.modeRec d.plan.modeInForce with | some m => m.parts | none => []

/-- A partition restarts. -/
def DieState.partRestarting (s : DieState) (p : PartRec) : Bool := s.parts.any (fun r => touches r.part p)

/-- A partition has been declared failed. -/
def DieState.partFailed (s : DieState) (p : PartRec) : Bool := s.failedParts.any (touches p)

/-- The partition of a tick's mode that a main window's work lies in. -/
def Dev.windowPartRec (d : Dev) (tick w : Nat) (r : WindowRec) : Option PartRec :=
  (d.windowPart tick w r).bind (fun i => (d.partsAt tick)[i]?)

/-- A die's power has been removed by a thermal or supply action (R442, R443). -/
def Dev.powerOff (d : Dev) (x : Nat) : Bool := (d.thermal x).offTemp || (d.thermal x).offRail

/-- A die's clock is halved (R442, R443). -/
def Dev.halved (d : Dev) (x : Nat) : Bool := (d.thermal x).halvedTemp || (d.thermal x).halvedCurrent

/-- Put clusters into a state, unless they are gated, failed, or already there (R222). -/
def setClusters (r : CluRun) (d : Dev) (cl : Nat) : Dev :=
  d.modCluster cl (fun c => if c.state = .gated || c.state = .failed then c else { c with state := r })

/-- Put the Chambray unit of die x into a state (R193). -/
def setUnitState (x : Nat) (r : UnitRun) (d : Dev) : Dev :=
  let us := bmod {} x (fun u => { u with state := r }) d.chambray.units
  { d with chambray := { d.chambray with units := us } }

/-- Erase the cores of a cluster: a power cycle leaves nothing in them (R428, R432). -/
def clearCores (d : Dev) (cl : Nat) : Dev :=
  (List.range 64).foldl (fun d co => d.setCore (coreKey cl co) {}) d

/-- The tallies, transfers and buffered sums of a cluster are discarded (R428 step 2, R432). -/
def clearCluster (d : Dev) (cl : Nat) : Dev :=
  d.modCluster cl (fun c => { c with tallies := [], dma := [], held := [] })

/-- The range of memory that a restart writes with zeros (R428 step 4). The map of packed addresses stands in
Sys2Proof/Machine/Memory.lean; `lo` and `hi` are of it. -/
def zeroRange (lo hi : Nat) (d : Dev) : Dev :=
  { d with mem := d.mem.filter (fun c => c.1 < lo || hi ≤ c.1) }

/-- First packed address of a cluster's SRAM with its cores' local SRAM: 8 MiB are set aside for each cluster. -/
def clusterBase (cl : Nat) : Nat := 0x1_0000_0000 + cl * 0x80_0000

/-- First packed address of a memory-side die's SRAM: die 4 is M0, 5 is M1. -/
def memSideBase (die : Nat) : Nat := 0x2_0000_0000 + (die - 4) * 0x1_0000_0000

/-- A cluster goes down in a restart: cores, tallies, transfers and SRAM (R428 steps 2 to 4). -/
def resetCluster (d : Dev) (cl : Nat) : Dev :=
  setClusters .restarting
    (zeroRange (clusterBase cl) (clusterBase cl + 0x80_0000) (clearCluster (clearCores d cl) cl)) cl

/-- The group counts of R250 of a partition's groups return to 0 (R428 step 1). -/
def clearGroupRuns (i : Nat) (d : Dev) : Dev :=
  let gs := match d.modeRec d.plan.modeInForce with | some m => m.groups | none => []
  let runs := (List.range gs.length).foldl (fun b g =>
    match gs[g]? with
    | some r => if r.part = i then bput 0 g 0 b else b
    | none => b) d.plan.groupRun
  { d with plan := { d.plan with groupRun := runs } }

/-- An entry of the history is of the partition, or with none of the die. -/
def sameEntry (a b : Option PartRec) : Bool :=
  match a, b with
  | some p, some q => touches p q
  | none, none => true
  | _, _ => false

/-- Restarts of a partition, or with none of the die, within the last 60 s (R433). -/
def DieState.recent (s : DieState) (p : Option PartRec) (now : Nat) : Nat :=
  (s.history.filter (fun e => sameEntry e.1 p && decide (now < e.2 + 60 * secNs))).length

/-- A memory-side die's Tweed and Damask contents are emptied (R168, R289, R429). -/
def emptyMemorySide (x : Nat) (d : Dev) : Dev :=
  let d := zeroRange (memSideBase x) (memSideBase x + 0x1_0000_0000) d
  let d := if x = 4 then
      { d with tweed := { d.tweed with slices := [], stores := [], slots := [], count := [], maxProbe := [],
                                       cells := [], inserted := 0 } }
    else d
  let h := x - 4
  let old : DmkHalf := bget {} h d.damask.halves
  let emptied : DmkHalf := { old with refs := [], pins := [], snapUsed := [], appends := [], rebuilds := [],
                                      listed := 0 }
  let kept := d.damask.seqs.filter (fun e => match e.2 with | some q => decide (q.half ≠ h) | none => true)
  { d with damask := { d.damask with seqs := kept, halves := bput {} h emptied d.damask.halves } }

/-- Declare a partition (or, with 0xFF, a die) failed (R433): switched off until cold reset, and the modes that use it
become unavailable. -/
def declareFailed (x i : Nat) (d : Dev) : Dev :=
  let d := d.modDie x (fun s => { s with lastCause := BitVec.ofNat 8 causeFailed })
  let d := { d with recovery := { d.recovery with lastEnd := d.now } }
  let d :=
    if i = 0xFF then
      let d := d.modDie x (fun s => { s with state := .out, restart := none, parts := [] })
      if x < 4 then (List.range 32).foldl (fun d c => setClusters .failed d (32 * x + c)) d else d
    else
      match d.parts[i]? with
      | some p =>
        let d := d.modDie x (fun s => { s with failedParts := p :: s.failedParts,
                                               parts := s.parts.filter (fun r => !touches r.part p) })
        p.clusters.foldl (fun d c => setClusters .failed d (32 * p.die + c)) d
      | none => d
  refreshModes (conditionEvent (barTsq + 0x200 + 0x20 * x) causeFailed (raiseH 0x0103 x i causeFailed d))

/-- Steps 2 to 4 of a partition restart (R428, R429): what the partition holds is discarded. -/
def resetPartition (p : PartRec) (d : Dev) : Dev :=
  let d := p.clusters.foldl (fun d c => resetCluster d (32 * p.die + c)) d
  let d := if p.chambray then setUnitState p.die .restarting d else d
  if 4 ≤ p.die then emptyMemorySide p.die d else d

/-- A CHAMBRAY window of a LIFT operation converts a stripe that lies in a partition's cluster SRAM (R186, R189). -/
def Dev.stripeIn (d : Dev) (p : PartRec) (tick w : Nat) : Bool :=
  match (d.gridAt tick).bind (fun g => gridOp g w), d.chbUnitOf tick w, d.modeAt tick with
  | some (o, _), some x, some m =>
    decide (o.op = .lift) && decide (p.die = x) &&
    (match m.descs[o.acc]? with | some t => p.clusters.contains t.cluster | none => false)
  | _, _, _ => false

/-- The windows of a partition in the open ticks are marked missing (R428 step 1), and those whose accumulator stripe it
holds (R189). -/
def missPartition (p : PartRec) (d : Dev) : Dev :=
  d.plan.ticks.foldl (fun d e => missWhere .restart e.1 (fun w r =>
    (match d.windowPartRec e.1 w r with | some q => touches p q | none => false) ||
    (decide (r.kind = .chambray) && d.stripeIn p e.1 w)) d) d

/-- A partition restart begins (R428). -/
def beginPartition (x i cause : Nat) (p : PartRec) (notice : Bool) (d : Dev) : Dev :=
  let s := d.die x
  let c := s.partRestart.inc
  let now := d.now
  let fourth := decide (3 ≤ s.recent (some p) now)
  let d := d.setDie x { s with parts := s.parts ++ [{ index := i, part := p, since := now, phase := .running }],
                               partRestart := c, lastCause := BitVec.ofNat 8 cause,
                               history := (some p, now) :: s.history.filter (fun e => decide (now < e.2 + 60 * secNs)) }
  let d := satEvent (barTsq + 0x204 + 0x20 * x) s.partRestart c d
  let d := if notice then raiseH 0x0103 x i cause d else d
  let d := resetPartition p (missPartition p (fwEvent (4 + x) (clearGroupRuns i d)))
  if fourth then declareFailed x i d else d

/-- Begin the restart of partition i of die x (R428). A fault covered by the die's restart or by its missing power
begins none; one that arrives while the partition restarts begins its sequence again; a fourth within 60 s is a
declaration. `notice` is clear where the cause raises a code of its own. -/
def restartPartition (x i cause : Nat) (notice : Bool) (d : Dev) : Dev :=
  let s := d.die x
  match d.parts[i]? with
  | none => d
  | some p =>
    if p.die ≠ x || 6 ≤ x || s.restart.isSome || d.powerOff x || s.state ≠ .admitted || s.partFailed p then d
    else if s.partRestarting p then
      resetPartition p (d.setDie x { s with parts := s.parts.map (fun r =>
        if touches r.part p then { r with phase := .running } else r) })
    else beginPartition x i cause p notice d

/-- Begin the restart of a compute or memory-side die (R430). -/
def restartDie (x cause : Nat) (d : Dev) : Dev :=
  let s := d.die x
  if x ≥ 6 || s.state = .out || d.powerOff x then d
  else match s.restart with
    | some r => d.setDie x { s with restart := some { r with phase := .running, readmitted := false } }
    | none =>
      let c := s.dieRestart.inc
      let now := d.now
      let fourth := decide (3 ≤ s.recent none now)
      let d := d.setDie x { s with restart := some { since := now, phase := .running, readmitted := false },
                                   state := .restarting, parts := [], dieRestart := c,
                                   lastCause := BitVec.ofNat 8 cause, readmitRetried := false,
                                   history := (none, now) :: s.history.filter (fun e => decide (now < e.2 + 60 * secNs)) }
      let d := satEvent (barTsq + 0x208 + 0x20 * x) s.dieRestart c d
      let d := modProc (4 + x) (fun f => { f with restarting := true, restartBegan := now }) (raiseH 0x0103 x 0xFF cause d)
      let d := d.plan.ticks.foldl (fun d e => missWhere .restart e.1 (fun w r => decide (d.windowDie e.1 w r = x)) d) d
      let d := if x < 4 then
          let d := (List.range 32).foldl (fun d c => resetCluster d (32 * x + c)) d
          setUnitState x .restarting d
        else emptyMemorySide x d
      if fourth then declareFailed x 0xFF d else d

end Sys2Proof.Machine
end

