-- ==== Sys2Proof/Machine/Time.lean ====
section
/-!
DEFINITION. Device time, vehicle time and sensor time: the servo, gPTP, the dies' copies of device time and the
latches of the time registers (spec/02_time_base.md).
-/

namespace Sys2Proof.Machine

open Sys2Proof

/-- The device with its time base replaced. -/
def Dev.setTime (d : Dev) (t : TimeState) : Dev := { d with time := t }

/-- The device with its servo replaced. -/
def Dev.setServo (d : Dev) (v : ServoState) : Dev := { d with time := { d.time with servo := v } }

/-- The largest frequency adjustment, 250 ppm in units of 10^-11 (R30). -/
def freqLimit : Int := 25000000

/-- A value limited to the servo's range (R30). -/
def clampFreq (v : Int) : Int := if v > freqLimit then freqLimit else if v < -freqLimit then -freqLimit else v

/-- The expected Sync interval in ns, from logSyncInterval (R28). -/
def syncInterval (logSync : Int) : Nat := secNs / 2 ^ (-logSync).toNat

/-- The step threshold in ns; 0 means 10 µs (R33, R378). -/
def stepNs (l : LinkSection) : Nat := (if l.stepThUs = 0 then 10 else l.stepThUs) * usNs

/-- One more event in TSQ_SYNC_LOSS_COUNT (R30, R32). -/
def countSyncLoss (d : Dev) : Dev :=
  let c := d.time.syncLoss.inc
  satEvent (barTime + 0x38) d.time.syncLoss c { d with time := { d.time with syncLoss := c } }

/-- The servo is not LOCKED at some instant of the interval that the next Health Summary covers (R372). -/
def noteHoldover (d : Dev) : Dev := { d with felt := { d.felt with window := { d.felt.window with holdover := true } } }

/-- Loss of vehicle time (R32): from ACQUIRING and LOCKED the servo enters HOLDOVER at the last adjustment. A step not
yet captured gives way to the loss (R55). -/
def loseVehicleTime (d : Dev) : Dev :=
  let v := d.time.servo
  match v.state with
  | .acquiring | .locked =>
    let known := match v.lockedSince with | some t => decide (t + 60 * secNs ≤ d.now) | none => false
    let d := d.setServo { v with state := .holdover, holdoverSince := d.now, boundKnown := v.state = .locked && known,
                                 capturePending := false, heldOffset := none, outliers := 0, lockRun := 0,
                                 lockedSince := none, latest := none, target := d.time.freqNext }
    let d := countSyncLoss (noteHoldover d)
    conditionEvent (barTime + 0x38) d.time.syncLoss.val.toNat d
  | _ => d

/-- A step in vehicle time (R33): the servo enters ACQUIRING, and until the capture at the next major tick boundary the
published offset stays what it was. -/
def vehicleStep (d : Dev) : Dev :=
  let v := d.time.servo
  let c := d.time.vtStep.inc
  let held := match v.heldOffset with | some o => o | none => d.time.vtOffset
  satEvent (barTime + 0x34) d.time.vtStep c <| noteHoldover
    { d with time := { d.time with
        vtStep := c
        servo := { v with state := .acquiring, capturePending := true, heldOffset := some held, lockRun := 0,
                          outliers := 0, lockedSince := none } } }

/-- The adjustments that matter from an instant on: those after it and the one in force at it. -/
def stepsSince (at_ : Nanos) (freq : Int) (steps : List (Nanos × Int)) : List (Nanos × Int) :=
  match steps.filter (fun s => decide (at_ < s.1)), steps.find? (fun s => decide (s.1 ≤ at_)) with
  | l, some s => l ++ [s]
  | [], none => [(at_, freq)]
  | l, none => l

/-- The integral of adjustments, newest first, from an instant to one at which the newest still was in force or that lies
before, in 10^-11 ns (R495): the first known adjustment stands for the time before it. -/
def adjBetween (from_ : Nanos) : (to_ : Nanos) → List (Nanos × Int) → Int
  | _, [] => 0
  | to_, [s] => s.2 * ((to_ : Int) - (min to_ from_ : Nat))
  | to_, s :: rest => s.2 * ((to_ : Int) - (min to_ (max from_ s.1) : Nat)) + adjBetween from_ (min to_ (max from_ s.1)) rest

/-- The capture of O_v at a major tick boundary after a step (R33): from the latest sample, with e = 0. -/
def captureOffset (d : Dev) : Dev :=
  let v := d.time.servo
  match v.capturePending, v.latest with
  | true, some s =>
    d.setServo { v with ov := some s.offset, err := 0, prev := some { s with resid := 0 }, capturePending := false,
                        heldOffset := none, outliers := 0, lockRun := 0, fresh := v.rho.isNone,
                        steps := stepsSince s.at_ d.time.freq v.steps }
  | _, _ => d

/-- The integral of the adjustment in force from the newest accepted sample to a stamp, in 10^-11 ns (R495). -/
def TimeState.adjOver (t : TimeState) (from_ stamp : Nanos) : Int :=
  adjBetween from_ stamp (if t.servo.steps.isEmpty then [(from_, t.freq)] else t.servo.steps)

/-- The innovation e − ê of R495, multiplied by 10^11: ê = e_prev + (ρ − a) × Δt. -/
def innovation11 (e : Int) (prev : OffsetSample) (rho adj : Int) (stamp : Nanos) : Int :=
  (e - prev.resid) * 100000000000 - (rho * ((stamp : Int) - (prev.at_ : Int)) - adj)

/-- A Sync while ACQUIRING (R30, R31): 16 in a row with |e| under 500 ns lock the servo unless it is saturated. DEDUCED (log
entry 195): the pair from which O_v was captured is not one of the 16, and a Sync that is discarded as an outlier counts by
its |e| as any other. -/
def countLock (now : Nanos) (e : Int) (v : ServoState) : ServoState :=
  if v.state ≠ .acquiring then { v with lockRun := 0 }
  else
    let run := if e.natAbs < 500 then v.lockRun + 1 else 0
    if 16 ≤ run && !v.saturated then { v with state := .locked, lockRun := 0, lockedSince := some now }
    else { v with lockRun := run }

/-- An accepted offset sample (R30, R495): it updates the rate estimate, the residual and the loop's target. -/
def acceptSample (stamp : Nanos) (offset e : Int) (d : Dev) : Dev :=
  let t := d.time
  let v := t.servo
  let rho := match v.prev with
    | some p =>
      let dt := stamp - p.at_
      if dt = 0 then v.rho
      else some (Config.rhoFilter v.rho ((offset - p.offset) * 100000000000 + t.adjOver p.at_ stamp) dt)
    | none => v.rho
  d.setServo (countLock d.now e { v with
    rho := rho, err := e, prev := some { at_ := stamp, offset := offset, resid := e }, outliers := 0, fresh := false,
    steps := stepsSince stamp t.freq v.steps, target := clampFreq (Config.servoTarget e (rho.getD 0) t.freq) })

/-- The prediction of a sample's residual is tested (R33, R34, R495): the first sample after the capture that follows a clear
of ρ is not; while ρ is clear, ê is e_prev. -/
def Dev.outlier (d : Dev) (stamp : Nanos) (e : Int) : Bool :=
  let v := d.time.servo
  match v.prev with
  | some p =>
    match v.rho with
    | some r => decide (stepNs d.image.link * 100000000000 < (innovation11 e p r (d.time.adjOver p.at_ stamp) stamp).natAbs)
    | none => !v.fresh && decide (stepNs d.image.link < (e - p.resid).natAbs)
  | none => false

/-- SYNC_FOLLOW_UP_RECEIVED (R28 to R34, R495): a valid pair on V0. -/
def syncFollowUpReceived (pair : SyncPair) (d : Dev) : Dev :=
  if d.v0.link ≠ .up then d
  else
    let offset := pair.vehicleNs - (pair.stamp : Int)
    let sample : OffsetSample := { at_ := pair.stamp, offset := offset, resid := 0 }
    let v := { d.time.servo with lastSync := d.now, latest := some sample }
    match v.state with
    | .freeRun =>
      d.setServo { v with state := .acquiring, ov := some offset, err := 0, prev := some sample, lockRun := 0,
                          outliers := 0, fresh := true, steps := stepsSince pair.stamp d.time.freq v.steps }
    | _ =>
      let v := if v.state = .holdover then { v with state := .acquiring, lockRun := 0, outliers := 0 } else v
      let d := d.setServo v
      if v.capturePending then d
      else
        let e := offset - v.ov.getD offset
        if d.outlier pair.stamp e then
          if 4 ≤ v.outliers + 1 then vehicleStep d
          else d.setServo (countLock d.now e { v with outliers := v.outliers + 1 })
        else acceptSample pair.stamp offset e d

/-- ANNOUNCE_RECEIVED (R28, R33): it serves only to learn the grandmaster identity, whose change is a step and clears
the rate estimate. -/
def announceReceived (grandmaster : Nat) (d : Dev) : Dev :=
  if d.v0.link ≠ .up then d
  else
    let v := d.time.servo
    match v.gm with
    | some g =>
      if g = grandmaster then d
      else
        let d := d.setServo { v with gm := some grandmaster, rho := none, fresh := false }
        if v.state = .freeRun then d else vehicleStep d
    | none => d.setServo { v with gm := some grandmaster }

/-- VEHICLE_TIME_LOSS (R32): no valid pair for three expected intervals, V0 down, or asCapable false. -/
def vehicleTimeLoss (d : Dev) : Dev :=
  let due := decide (d.time.servo.lastSync + 3 * syncInterval d.image.link.logSync ≤ d.now)
  if due || d.v0.link ≠ .up || !d.time.v0.asCapable then loseVehicleTime d else d

/-- SERVO_SATURATION_SECOND (R30): one event for each second that the servo stays saturated in ACQUIRING. -/
def servoSaturationSecond (d : Dev) : Dev :=
  let v := d.time.servo
  if v.saturated && v.state = .acquiring && decide (v.satSince + secNs ≤ d.now) then
    countSyncLoss (d.setServo { v with satSince := v.satSince + secNs })
  else d

/-- The largest change of the adjustment over a minor tick, 10 ppm per second, in 10^-11 (R30). -/
def slewOver (minorNs : Nat) : Int := ((minorNs / 1000 : Nat) : Int)

/-- The adjustment of the next boundary: a step from `v` towards the loop's target within the limits of R30. -/
def slew (v target : Int) (minorNs : Nat) : Int :=
  let s := slewOver minorNs
  clampFreq (if target > v + s then v + s else if target < v - s then v - s else target)

/-- The frequency adjustment at a minor tick boundary (R30, R51, R55): the one announced applies on every die, and the
one of the next boundary is computed. -/
def stepFrequency (d : Dev) : Dev :=
  let t := d.time
  let v := t.servo
  let next := slew t.freqNext v.target t.minorNs
  let sat := decide (next = freqLimit) || decide (next = -freqLimit)
  let v := { v with
    steps := if t.freqNext = t.freq && !v.steps.isEmpty then v.steps else (t.dev, t.freqNext) :: v.steps, saturated := sat,
    satSince := if sat && !v.saturated then t.dev else v.satSince }
  let d := { d with time := { t with freq := t.freqNext, freqNext := next, servo := v } }
  (List.range 6).foldl (fun d x => d.modDie x (fun s => { s with localFreq := s.localFreqNext })) d

/-! ### gPTP -/

/-- gPTP runs on a port: the image is in force (R410) and the port's link is up. -/
def Dev.gptpRuns (d : Dev) (p : GptpPort) : Bool :=
  d.linkAllowed && (match p with
    | .v0 => decide (d.v0.link = .up)
    | .lidar n => decide ((d.lidar n.val).link = .up))

/-- The gPTP state of a port. -/
def Dev.gptp (d : Dev) (p : GptpPort) : GptpState :=
  match p with
  | .v0 => d.time.v0
  | .lidar n => (d.lidar n.val).gptp

/-- The device with a port's gPTP state replaced. -/
def Dev.setGptp (d : Dev) (p : GptpPort) (g : GptpState) : Dev :=
  match p with
  | .v0 => { d with time := { d.time with v0 := g } }
  | .lidar n => d.setLidar n.val { d.lidar n.val with gptp := g }

/-- PDELAY_REQ_TIMER (R28, R36): once per second. -/
def pdelayReqTimer (p : GptpPort) (d : Dev) : Dev :=
  let g := d.gptp p
  if d.gptpRuns p && decide (g.lastReq + secNs ≤ d.now) then
    emit (.pdelayReq p) (d.setGptp p { g with lastReq := d.now })
  else d

/-- PDELAY_REQ_RECEIVED (R28, R36): it is answered. -/
def pdelayReqReceived (p : GptpPort) (d : Dev) : Dev := if d.gptpRuns p then emit (.pdelayResp p) d else d

/-- PDELAY_RESP_RECEIVED (R32, R36): the port's mean link delay and asCapable; asCapable false on V0 is a loss. -/
def pdelayRespReceived (p : GptpPort) (linkDelay : Nat) (asCapable : Bool) (d : Dev) : Dev :=
  if d.gptpRuns p then
    let g := d.gptp p
    let d := d.setGptp p { g with linkDelay := linkDelay, asCapable := asCapable }
    match p with
    | .v0 => if g.asCapable && !asCapable then loseVehicleTime d else d
    | .lidar _ => d
  else d

/-- V1_GPTP_FRAME (R29): counted and discarded. -/
def v1GptpFrame (d : Dev) : Dev :=
  if d.v1.link = .up then
    let c := d.time.v1Gptp.inc
    satEvent (Config.barOf 0) d.time.v1Gptp c { d with time := { d.time with v1Gptp := c } }
  else d

/-- The lidar fields of the stream entry of lidar port n (R126, R127). -/
def Dev.lidarEntry (d : Dev) (n : Nat) : Option (Nat × StreamEntry × LidarFields) :=
  d.image.streams.entries.findSome? (fun e =>
    match e.2.src with
    | .lidar f => if e.2.port = n then some (e.1, e.2, f) else none
    | _ => none)

/-- The Sync interval of lidar port n in ns (R36). -/
def Dev.lidarSyncNs (d : Dev) (n : Nat) : Nat :=
  match d.lidarEntry n with
  | some (_, _, f) => syncInterval f.logSync
  | none => syncInterval (-3)

/-- LIDAR_SYNC_SEND (R36, R37): two-step Sync and Follow_Up with device time, at the port's logSyncInterval. -/
def lidarSyncSend (n : Fin 8) (d : Dev) : Dev :=
  let g := d.gptp (.lidar n)
  if d.gptpRuns (.lidar n) && decide (g.lastSyncSent + d.lidarSyncNs n.val ≤ d.now) then
    emit (.lidarSync n.val (d.now / secNs) (d.now % secNs)) (d.setGptp (.lidar n) { g with lastSyncSent := d.now })
  else d

/-- LIDAR_ANNOUNCE_SEND (R36): once per second. -/
def lidarAnnounceSend (n : Fin 8) (d : Dev) : Dev :=
  let g := d.gptp (.lidar n)
  if d.gptpRuns (.lidar n) && decide (g.lastAnnounceSent + secNs ≤ d.now) then
    emit (.lidarAnnounce n.val 246 248 0xA0) (d.setGptp (.lidar n) { g with lastAnnounceSent := d.now })
  else d

/-- LIDAR_GPTP_RECEIVED (R36): Announce, Sync and Follow_Up are counted and ignored. -/
def lidarGptpReceived (n : Fin 8) (_kind : GptpKind) (d : Dev) : Dev :=
  if (d.lidar n.val).link = .up then
    let g := d.gptp (.lidar n)
    let c := g.ignored.inc
    satEvent (Config.barOf (1 + n.val)) g.ignored c (d.setGptp (.lidar n) { g with ignored := c })
  else d

/-! ### The tick broadcast at a die (R51 to R53) -/

/-- One more event in TSQ_SKEW_FAULT_COUNT (R52, R53). -/
def countSkew (d : Dev) : Dev :=
  let c := d.time.skewFault.inc
  satEvent (barTime + 0x3C) d.time.skewFault c { d with time := { d.time with skewFault := c } }

/-- The outputs of a die for a tick are discarded (R53): its windows that have ended count as not run, so that the die
restart marks them missing with the others. -/
def discardEnded (x tick : Nat) (d : Dev) : Dev :=
  (d.windowsAt .main tick).foldl (fun d w =>
    let s := d.win .main tick w.1
    if s.phase = .ended && decide (d.windowDie tick w.1 w.2 = x) then d.setWin .main tick w.1 { s with phase := .planned }
    else d) d

/-- TICK_BROADCAST_ARRIVAL (R52, R53, R432): the die compares the broadcast, its link's latency added, with its own time
copy, k and epoch. A die just admitted or rejoined takes its copies from it. One die restart serves both faults, and
each records its own event. -/
def tickBroadcastArrival (die : Fin 6) (d : Dev) : Dev :=
  let x := die.val
  let s := d.die x
  match s.broadcast with
  | none => d
  | some b =>
    let s := { s with broadcast := none }
    let at_ := b.time + s.latency
    if s.state ≠ .admitted then d.setDie x s
    else if s.resync then
      d.setDie x { s with resync := false, localTime := at_, localFrac := 0, localFreqNext := b.freq, localK := b.k,
                          localEpoch := b.epoch }
    else
      let skew := decide (at_ + 1 < s.localTime) || decide (s.localTime + 1 < at_)
      let epoch := decide (s.localK ≠ b.k) || decide (s.localEpoch ≠ b.epoch)
      if skew || epoch then
        let d := d.setDie x s
        let d := if epoch then discardEnded x d.time.k d else d
        let d := if skew then countSkew d else d
        let d := if epoch then countSkew d else d
        restartDie x (if skew then causeSkew else causeEpoch) d
      else d.setDie x { s with localFreqNext := b.freq }

/-! ### PPS and the latches of the time registers -/

/-- PPS_MISSING_TIMEOUT (R48): no edge for 1.2 s. -/
def ppsMissingTimeout (d : Dev) : Dev :=
  if decide (d.time.ppsStamp + 1200 * msNs ≤ d.now) then { d with time := { d.time with ppsMissing := true } } else d

/-- The whole register BAR answers reads: not while the device presents its housekeeping block alone (R407, R409), nor
while it is held in reset. -/
def Dev.barOpen (d : Dev) : Bool :=
  match d.boot.phase with
  | .noImage | .retired | .held => false
  | _ => true

/-- TSQ_DEVTIME_LO_READ (R56): device time, k, m and the published offset are latched from one instant. -/
def tsqDevtimeLoRead (d : Dev) : Dev :=
  if d.barOpen then
    let l : TimeLatch := { dev := d.time.dev, k := d.time.k, m := d.time.m, vt := d.time.vtOffset }
    { d with time := { d.time with latch := l } }
  else d

/-- TSQ_PPS_STAMP_LO_READ (R56): the high word is latched. -/
def tsqPpsStampLoRead (d : Dev) : Dev :=
  if d.barOpen then
    { d with time := { d.time with ppsStampHiLatch := BitVec.ofNat 32 (d.time.ppsStamp / 2 ^ 32) } }
  else d

end Sys2Proof.Machine
end

