-- ==== Sys2Proof/Machine/Clock.lean ====
section
/-!
DEFINITION. The time clock: what one cycle does when no command waits (spec/02_time_base.md R21, R22, R51;
spec/19_health_wear_and_power.md R446).
-/

namespace Sys2Proof.Machine

open Sys2Proof

/-- What the fractional accumulator takes in one cycle at an adjustment in units of 10^-11, in 2^-32 ns (R22): the quotient,
whose rounding the spec does not state. -/
def fracInc (freq : Int) : Int :=
  let x := freq * 4294967296
  x / 100000000000 + (if decide (x % 100000000000 ≠ 0) && Config.roundsUp 12 then 1 else 0)

/-- One cycle of a nanosecond counter with its fractional accumulator at a frequency adjustment (R22). -/
def advance (t : Nanos) (frac : BitVec 32) (freq : Int) : Nanos × BitVec 32 :=
  let sum := (frac.toNat : Int) + fracInc freq
  ((((t : Int) + 1 + sum / 4294967296).toNat), BitVec.ofInt 32 sum)

/-- One cycle of a die's copy (R51). -/
def dieCycle (d : Dev) (x : Nat) : Dev :=
  let s := d.die x
  if s.state = .admitted && !s.resync then
    let a := advance s.localTime s.localFrac s.localFreq
    d.setDie x { s with localTime := a.1, localFrac := a.2 }
  else d

/-- Operating seconds (R446): a 48-bit wear counter. -/
def operCycle (d : Dev) : Dev :=
  if d.health.operAt + secNs ≤ d.now then
    { d with health := { d.health with operS := wearInc d.health.operS, operAt := d.health.operAt + secNs } }
  else d

/-- One cycle of the 1.0 GHz time clock, unless the device is held in reset (R21, R22). -/
def clockCycle (d : Dev) : Dev :=
  if d.boot.phase = .held then d
  else
    let a := advance d.time.dev d.time.frac d.time.freq
    operCycle ((List.range 6).foldl dieCycle { d with time := { d.time with dev := a.1, frac := a.2 } })

end Sys2Proof.Machine
end

