-- ==== Sys2Proof/Machine/Layout.lean ====
section
/-!
DEFINITION. Reading the fields of a structure of bytes (spec/00_scope.md R5): words of 32 bits in little-endian order, and the
fields of a word by its lowest bit and its width. A byte past the end reads as 0.
-/

namespace Sys2Proof.Machine

open Sys2Proof

/-- The n bytes at an offset, as a number. -/
def leAt (b : List Byte) (off n : Nat) : Nat := leNat ((b.drop off).take n)

/-- The word at an offset. -/
def wordAt (b : List Byte) (off : Nat) : Nat := leAt b off 4

/-- The field [lo + n − 1 : lo] of the word at an offset. -/
def fieldAt (b : List Byte) (off lo n : Nat) : Nat := wordAt b off / 2 ^ lo % 2 ^ n

/-- One bit of the word at an offset. -/
def flagAt (b : List Byte) (off lo : Nat) : Bool := decide (fieldAt b off lo 1 = 1)

/-- The FP32 pattern at an offset. -/
def f32At (b : List Byte) (off : Nat) : F32 := BitVec.ofNat 32 (wordAt b off)

/-- The signed word at an offset. -/
def intAt (b : List Byte) (off : Nat) : Int := (BitVec.ofNat 32 (wordAt b off)).toInt

/-- The record of n bytes at an offset. -/
def recordAt (b : List Byte) (off n : Nat) : List Byte := (b.drop off).take n

/-- `count` records of n bytes from an offset on. -/
def recordsAt (b : List Byte) (off n : Nat) : (count : Nat) → List (List Byte)
  | 0 => []
  | c + 1 => recordAt b off n :: recordsAt b (off + n) n c

/-- The records of n bytes from an offset on, numbered from 0. -/
def tableAt (b : List Byte) (off n count : Nat) : List (Nat × List Byte) :=
  (recordsAt b off n count).zipIdx.map (fun r => (r.2, r.1))

/-- The numbers of the bits that are set, of n. -/
def maskBits (n mask : Nat) : List Nat := (List.range n).filter (fun i => decide (mask / 2 ^ i % 2 = 1))

/-- The records of a table that are there, by their number. -/
def present {α : Type} (f : List Byte → Option α) (t : List (Nat × List Byte)) : List (Nat × α) :=
  t.filterMap (fun e => (f e.2).map (fun x => (e.1, x)))

/-- A field that stands for none at a value. -/
def noneAt (none_ v : Nat) : Option Nat := if v = none_ then none else some v

end Sys2Proof.Machine
end

