-- ==== Sys2Proof/Machine/Float.lean ====
section
/-!
DEFINITION. Floating-point numbers as exact values: decoding a format of a given exponent and fraction width, and
rounding an exact value to it, to nearest with ties to even.
-/

namespace Sys2Proof.Machine

open Sys2Proof

/-- An exact value m × 2^e. -/
structure Dyadic where
  m : Int
  e : Int
  deriving DecidableEq, Repr

/-- What a floating-point pattern stands for. -/
inductive FpNum where
  | nan
  | inf (neg : Bool)
  | fin (neg : Bool) (v : Dyadic)
  deriving DecidableEq, Repr

/-- A shift to the left by a signed amount that is not negative. -/
def shl (m : Int) (n : Int) : Int := m * (2 ^ n.toNat : Nat)

/-- The sum of two exact values. -/
def Dyadic.add (a b : Dyadic) : Dyadic :=
  if a.e ≤ b.e then { m := a.m + shl b.m (b.e - a.e), e := a.e }
  else { m := shl a.m (a.e - b.e) + b.m, e := b.e }

/-- The product of two exact values. -/
def Dyadic.mul (a b : Dyadic) : Dyadic := { m := a.m * b.m, e := a.e + b.e }

/-- The negated value. -/
def Dyadic.neg (a : Dyadic) : Dyadic := { a with m := -a.m }

/-- The magnitude. -/
def Dyadic.abs (a : Dyadic) : Dyadic := { a with m := a.m.natAbs }

/-- `a` is less than `b`. -/
def Dyadic.lt (a b : Dyadic) : Bool := decide ((a.add b.neg).m < 0)

/-- The value with its binary point moved. -/
def Dyadic.scale (a : Dyadic) (n : Int) : Dyadic := { a with e := a.e + n }

/-- Decode a pattern of 1 + eb + mb bits in the IEEE 754 layout: infinities and NaNs at the largest exponent. -/
def fpDecode (eb mb : Nat) (w : Nat) : FpNum :=
  let neg := decide (w / 2 ^ (eb + mb) % 2 = 1)
  let ex := w / 2 ^ mb % 2 ^ eb
  let fr := w % 2 ^ mb
  let bias : Int := 2 ^ (eb - 1) - 1
  let sgn (v : Nat) : Int := if neg then -(v : Int) else v
  if ex = 2 ^ eb - 1 then (if fr = 0 then .inf neg else .nan)
  else if ex = 0 then .fin neg { m := sgn fr, e := 1 - bias - mb }
  else .fin neg { m := sgn (fr + 2 ^ mb), e := (ex : Int) - bias - mb }

/-- A non-negative number divided by 2^n, rounded to nearest with ties to even. -/
def shrRne (m n : Nat) : Nat :=
  let q := m / 2 ^ n
  let r := m % 2 ^ n
  if 2 * r < 2 ^ n then q else if 2 ^ n < 2 * r then q + 1 else if q % 2 = 0 then q else q + 1

/-- The magnitude of a value in units of the quantum of a format, and that quantum's exponent, rounded to nearest with
ties to even: mb fraction bits, smallest normal exponent emin. -/
def quantise (mb : Nat) (emin : Int) (a : Dyadic) : Nat × Int :=
  let m := a.m.natAbs
  let top : Int := a.e + (m.log2 : Int)
  let q : Int := (if top < emin then emin else top) - mb
  let n := if q ≤ a.e then m * 2 ^ (a.e - q).toNat else shrRne m (q - a.e).toNat
  if n = 2 ^ (mb + 1) then (2 ^ mb, q + 1) else (n, q)

/-- The pattern of a rounded magnitude without its sign, or none past the largest biased exponent `top`. -/
def fpPattern (eb mb top : Nat) (n : Nat) (q : Int) : Option Nat :=
  let bias : Int := 2 ^ (eb - 1) - 1
  if n < 2 ^ mb then some n
  else
    let ex := (q + mb + bias).toNat
    if ex ≤ top then some (ex * 2 ^ mb + (n - 2 ^ mb)) else none

/-- Round an exact value to the IEEE 754 layout, to nearest even; past the largest finite value it is an infinity. `neg`
is the sign of a zero. -/
def fpRound (eb mb : Nat) (neg : Bool) (a : Dyadic) : Nat :=
  let s := if a.m < 0 || (a.m = 0 && neg) then 2 ^ (eb + mb) else 0
  let r := quantise mb (2 - 2 ^ (eb - 1)) a
  match fpPattern eb mb (2 ^ eb - 2) r.1 r.2 with
  | some p => s + p
  | none => s + (2 ^ eb - 1) * 2 ^ mb

/-- What an FP32 pattern stands for. -/
def f32Num (w : F32) : FpNum := fpDecode 8 23 w.toNat

/-- An exact value in FP32. -/
def f32Of (neg : Bool) (a : Dyadic) : F32 := BitVec.ofNat 32 (fpRound 8 23 neg a)

/-- The quiet NaN of FP32. -/
def f32NaN : F32 := 0x7FC00000

/-- An FP32 pattern is a NaN. -/
def f32IsNaN (w : F32) : Bool := decide (f32Num w = .nan)

/-- An FP32 pattern is finite. -/
def f32Finite (w : F32) : Bool := match f32Num w with | .fin _ _ => true | _ => false

/-- An FP32 value is less than or equal to another; false where either is a NaN. -/
def f32Le (a b : F32) : Bool :=
  match f32Num a, f32Num b with
  | .nan, _ => false
  | _, .nan => false
  | .inf n, .inf k => n || !k
  | .inf n, .fin _ _ => n
  | .fin _ _, .inf k => !k
  | .fin _ x, .fin _ y => !y.lt x

/-- The exact value of a finite FP32 pattern, 0 for the others. -/
def f32Value (w : F32) : Dyadic := match f32Num w with | .fin _ v => v | _ => { m := 0, e := 0 }

/-- What an FP64 pattern stands for. -/
def f64Num (w : F64) : FpNum := fpDecode 11 52 w.toNat

/-- An FP64 pattern is finite. -/
def f64Finite (w : F64) : Bool := match f64Num w with | .fin _ _ => true | _ => false

/-- The exact value of a finite FP64 pattern, 0 for the others. -/
def f64Value (w : F64) : Dyadic := match f64Num w with | .fin _ v => v | _ => { m := 0, e := 0 }

/-- An exact value in FP64. -/
def f64Of (neg : Bool) (a : Dyadic) : F64 := BitVec.ofNat 64 (fpRound 11 52 neg a)

/-- An exact value rounded to the nearest whole number; `up` decides a tie. -/
def Dyadic.nearest (a : Dyadic) (up : Bool) : Int :=
  if 0 ≤ a.e then shl a.m a.e
  else
    let n : Int := (2 ^ (-a.e).toNat : Nat)
    let q := a.m / n
    let r := a.m - q * n
    if 2 * r < n then q else if n < 2 * r then q + 1 else if up then q + 1 else q

/-- An exact value rounded down to a whole number. -/
def Dyadic.floor (a : Dyadic) : Int :=
  if 0 ≤ a.e then shl a.m a.e else a.m / ((2 ^ (-a.e).toNat : Nat) : Int)

end Sys2Proof.Machine
end

