-- ==== Sys2Proof/Machine/Formats.lean ====
section
/-!
DEFINITION. The number formats of the cores and the arithmetic on them: element formats (R212), FP32 operations (R217),
conversions (R215), and conversion to block formats (R216) of spec/09_compute_fabric.md.
-/

namespace Sys2Proof.Machine

open Sys2Proof

/-! ### FP32 (R217) -/

/-- A result with what it sets in NSW (R218): a NaN from inputs without one, and an overflow. -/
structure FRes where
  v : F32
  invalid : Bool := false
  ovf : Bool := false
  deriving DecidableEq, Repr

/-- The sign of a number that is no NaN. -/
def FpNum.sign : FpNum → Bool
  | .nan => false
  | .inf n => n
  | .fin n _ => n

/-- A number times 2^n. -/
def FpNum.scale (x : FpNum) (n : Int) : FpNum :=
  match x with
  | .fin s v => .fin s (Dyadic.scale v n)
  | x => x

/-- The exact product; none for infinity times zero. -/
def FpNum.mul : FpNum → FpNum → Option FpNum
  | .nan, _ => some .nan
  | _, .nan => some .nan
  | .inf a, .inf b => some (.inf (a != b))
  | .inf a, .fin b v => if v.m = 0 then none else some (.inf (a != b))
  | .fin a v, .inf b => if v.m = 0 then none else some (.inf (a != b))
  | .fin a v, .fin b w => some (.fin (a != b) (v.mul w))

/-- The exact sum, with the sign of an exact zero under rounding to nearest; none for a sum of opposite infinities. -/
def FpNum.add : FpNum → FpNum → Option FpNum
  | .nan, _ => some .nan
  | _, .nan => some .nan
  | .inf a, .inf b => if a = b then some (.inf a) else none
  | .inf a, .fin _ _ => some (.inf a)
  | .fin _ _, .inf b => some (.inf b)
  | .fin a v, .fin b w =>
    let s := v.add w
    some (.fin (if s.m = 0 then a && b else decide (s.m < 0)) s)

/-- A number in FP32, with the overflow of a finite one. -/
def f32Round : FpNum → FRes
  | .nan => { v := f32NaN }
  | .inf n => { v := if n then 0xFF800000 else 0x7F800000 }
  | .fin n v =>
    let r := f32Of n v
    { v := r, ovf := !f32Finite r }

/-- A result of an operation that is invalid where it has no value. -/
def f32Result : Option FpNum → FRes
  | some x => f32Round x
  | none => { v := f32NaN, invalid := true }

/-- a × b + c with one rounding (R217). -/
def f32Fma (a b c : F32) : FRes :=
  if f32IsNaN a || f32IsNaN b || f32IsNaN c then { v := f32NaN }
  else match (f32Num a).mul (f32Num b) with
    | none => { v := f32NaN, invalid := true }
    | some p => f32Result (p.add (f32Num c))

/-- a + b (R217). -/
def f32Add (a b : F32) : FRes := f32Result ((f32Num a).add (f32Num b))

/-- The sign bit changed. -/
def f32Neg (a : F32) : F32 := if f32IsNaN a then f32NaN else a ^^^ 0x80000000

/-- The sign bit cleared. -/
def f32Abs (a : F32) : F32 := if f32IsNaN a then f32NaN else a &&& 0x7FFFFFFF

/-- a − b (R217). -/
def f32Sub (a b : F32) : FRes := f32Add a (f32Neg b)

/-- a × b (R217). -/
def f32Mul (a b : F32) : FRes := f32Result ((f32Num a).mul (f32Num b))

/-- a is greater than b (R217): false where either is a NaN. -/
def f32Gt (a b : F32) : Bool := !f32IsNaN a && !f32IsNaN b && !f32Le a b

/-- The larger (R217): a NaN where either is one, and +0 over −0. -/
def f32Max (a b : F32) : F32 :=
  if f32IsNaN a || f32IsNaN b then f32NaN
  else if f32Gt a b then a else if f32Gt b a then b else if a.getLsbD 31 then b else a

/-- The smaller (R217): a NaN where either is one, and −0 under +0. -/
def f32Min (a b : F32) : F32 :=
  if f32IsNaN a || f32IsNaN b then f32NaN
  else if f32Gt a b then b else if f32Gt b a then a else if a.getLsbD 31 then a else b

/-- −inf in FP32. -/
def f32NegInf : F32 := 0xFF800000

/-! ### Element formats (R212) -/

/-- A floating-point pattern of a format without infinities. -/
def finiteNum (eb mb w : Nat) : FpNum :=
  let neg := decide (w / 2 ^ (eb + mb) % 2 = 1)
  let ex := w / 2 ^ mb % 2 ^ eb
  let fr := w % 2 ^ mb
  let bias : Int := 2 ^ (eb - 1) - 1
  let m : Nat := if ex = 0 then fr else fr + 2 ^ mb
  let e : Int := (if ex = 0 then 1 else (ex : Int)) - bias - mb
  .fin neg { m := if neg then -(m : Int) else m, e := e }

/-- A two's complement pattern of n bits. -/
def intNum (n w : Nat) : FpNum :=
  let v : Int := if w % 2 ^ n < 2 ^ (n - 1) then (w % 2 ^ n : Nat) else ((w % 2 ^ n : Nat) : Int) - 2 ^ n
  .fin (decide (v < 0)) { m := v, e := 0 }

end Sys2Proof.Machine

namespace Sys2Proof

open Sys2Proof.Machine

/-- The bits of an element (R226, R227). -/
def Format.bits : Format → Nat
  | .int4 | .mxfp4 => 4
  | .mxfp6e2m3 | .mxfp6e3m2 => 6
  | .int8 | .uint8 | .fp8e4m3 | .fp8e5m2 | .mxfp8e4m3 | .mxfp8e5m2 | .mxint8 => 8
  | .bf16 | .fp16 => 16
  | .fp32 | .int32 => 32

/-- A block format (R226). -/
def Format.block : Format → Bool
  | .mxfp4 | .mxfp6e2m3 | .mxfp6e3m2 | .mxfp8e4m3 | .mxfp8e5m2 | .mxint8 => true
  | _ => false

/-- The value of an element (R212), in an MXINT8 element without the fixed factor 2^−6. -/
def Format.num (f : Format) (w : Nat) : FpNum :=
  match f with
  | .int4 => intNum 4 w
  | .int8 | .mxint8 => intNum 8 w
  | .uint8 => .fin false { m := (w % 256 : Nat), e := 0 }
  | .int32 => intNum 32 w
  | .fp8e4m3 | .mxfp8e4m3 => if w % 128 = 127 then .nan else finiteNum 4 3 w
  | .fp8e5m2 | .mxfp8e5m2 => fpDecode 5 2 w
  | .bf16 => fpDecode 8 7 w
  | .fp16 => fpDecode 5 10 w
  | .fp32 => fpDecode 8 23 w
  | .mxfp4 => finiteNum 2 1 w
  | .mxfp6e2m3 => finiteNum 2 3 w
  | .mxfp6e3m2 => finiteNum 3 2 w

end Sys2Proof

namespace Sys2Proof.Machine

open Sys2Proof

/-! ### Conversions (R215, R216) -/

/-- A converted element with what it sets in NSW. -/
structure Conv where
  bits : Nat
  sat : Bool := false
  invalid : Bool := false
  deriving DecidableEq, Repr

/-- Round a finite number to a floating-point layout: its pattern without the sign where that is at most `maxPat`. -/
def narrowPattern (eb mb maxPat : Nat) (v : Dyadic) : Option Nat :=
  let r := quantise mb (2 - 2 ^ (eb - 1)) v
  match fpPattern eb mb (2 ^ eb - 1) r.1 r.2 with
  | some p => if p ≤ maxPat then some p else none
  | none => none

/-- A number in a floating-point layout of 1 + eb + mb bits whose largest finite pattern is `maxPat`, with the patterns
of infinity and of a NaN, where an overflow or an infinity saturates, or becomes infinity where `sat` is clear and the
format has one. -/
def narrowFp (eb mb maxPat : Nat) (infPat : Option Nat) (nan : Bool → Nat) (sat : Bool) (x : FpNum) : Conv :=
  let s (neg : Bool) : Nat := if neg then 2 ^ (eb + mb) else 0
  let big (neg : Bool) : Conv :=
    match infPat with
    | some p => if sat then { bits := s neg + maxPat, sat := true } else { bits := s neg + p }
    | none => { bits := s neg + maxPat, sat := true }
  match x with
  | .nan => { bits := nan false }
  | .inf neg => big neg
  | .fin neg v =>
    match narrowPattern eb mb maxPat v with
    | some p => { bits := s neg + p }
    | none => big neg

/-- A number rounded to nearest, ties to even, as a whole number. -/
def nearestEven (v : Dyadic) : Int :=
  let n := if 0 ≤ v.e then v.m.natAbs * 2 ^ v.e.toNat else shrRne v.m.natAbs (-v.e).toNat
  if v.m < 0 then -(n : Int) else n

/-- A number in two's complement of n bits, limited to lo … hi. -/
def narrowInt (n : Nat) (lo hi : Int) (x : FpNum) : Conv :=
  let enc (i : Int) : Nat := (BitVec.ofInt n i).toNat
  match x with
  | .nan => { bits := 0, invalid := true }
  | .inf neg => { bits := enc (if neg then lo else hi), sat := true }
  | .fin _ v =>
    let i := nearestEven v
    if i < lo then { bits := enc lo, sat := true }
    else if hi < i then { bits := enc hi, sat := true }
    else { bits := enc i }

/-- Convert a number to a format that is no block format (R215). `nanNeg` is the sign of a NaN lane. -/
def convertNum (f : Format) (sat nanNeg : Bool) (x : FpNum) : Conv :=
  match f with
  | .bf16 => narrowFp 8 7 0x7F7F (some 0x7F80) (fun _ => 0x7FC0) sat x
  | .fp16 => narrowFp 5 10 0x7BFF (some 0x7C00) (fun _ => 0x7E00) sat x
  | .fp8e4m3 => narrowFp 4 3 0x7E none (fun _ => if nanNeg then 0xFF else 0x7F) sat x
  | .fp8e5m2 => narrowFp 5 2 0x7B (some 0x7C) (fun _ => 0x7E) sat x
  | .fp32 => narrowFp 8 23 0x7F7FFFFF (some 0x7F800000) (fun _ => 0x7FC00000) sat x
  | .int8 => narrowInt 8 (-128) 127 x
  | .int4 => narrowInt 4 (-8) 7 x
  | .uint8 => narrowInt 8 0 255 x
  | .int32 => narrowInt 32 (-2147483648) 2147483647 x
  | _ => { bits := 0 }

/-- emax of a block format (R216). -/
def emaxOf : Format → Int
  | .mxfp4 | .mxfp6e2m3 => 2
  | .mxfp6e3m2 => 4
  | .mxfp8e4m3 => 8
  | .mxfp8e5m2 => 15
  | _ => 0

/-- Convert a scaled number to the element of a block format (R216): it saturates at the largest finite value. -/
def convertElem (f : Format) (v : FpNum) : Conv :=
  match f with
  | .mxfp4 => narrowFp 2 1 0x7 none (fun _ => 0) true v
  | .mxfp6e2m3 => narrowFp 2 3 0x1F none (fun _ => 0) true v
  | .mxfp6e3m2 => narrowFp 3 2 0x1F none (fun _ => 0) true v
  | .mxfp8e4m3 => narrowFp 4 3 0x7E none (fun _ => 0) true v
  | .mxfp8e5m2 => narrowFp 5 2 0x7B none (fun _ => 0) true v
  | .mxint8 => match v with
    | .fin n d => narrowInt 8 (-128) 127 (.fin n (d.scale 6))
    | x => narrowInt 8 (-128) 127 x
  | _ => { bits := 0 }

/-- The largest magnitude's floor(log2), none where every element is zero. -/
def blockTop : List FpNum → Option Int
  | [] => none
  | .fin _ v :: rest =>
    if v.m = 0 then blockTop rest
    else
      let t : Int := v.e + (v.m.natAbs.log2 : Int)
      match blockTop rest with
      | none => some t
      | some u => some (max t u)
  | _ :: rest => blockTop rest

/-- A block's scale byte and elements, with what it sets in NSW (R216). -/
def convertBlock (f : Format) (xs : List FpNum) : Nat × List Conv :=
  if xs.any (fun x => match x with | .fin _ _ => false | _ => true) then
    (0xFF, xs.map (fun _ => { bits := 0, invalid := true }))
  else match blockTop xs with
    | none => (0, xs.map (fun _ => { bits := 0 }))
    | some t =>
      let e : Int := max (-127) (min 127 (t - emaxOf f))
      ((e + 127).toNat, xs.map (fun x => match x with
        | .fin n v => convertElem f (.fin n (v.scale (-e)))
        | _ => { bits := 0 }))

/-! ### Groups of the MAC array (R213, R214) -/

/-- The product of two elements in a group: NaN for a NaN element, and what R214 says of infinity times zero. -/
structure GroupSum where
  nan : Bool := false
  invalid : Bool := false
  posInf : Bool := false
  negInf : Bool := false
  sum : Dyadic := { m := 0, e := 0 }
  deriving DecidableEq, Repr

/-- One more product in a group. -/
def GroupSum.push (g : GroupSum) (a b : FpNum) : GroupSum :=
  match a.mul b with
  | none => { g with invalid := true }
  | some .nan => { g with nan := true }
  | some (.inf n) => if n then { g with negInf := true } else { g with posInf := true }
  | some (.fin _ v) => { g with sum := g.sum.add v }

/-- The value of a group (R214), none for a NaN that sets INVALID. -/
def GroupSum.value (g : GroupSum) : Option FpNum :=
  if g.invalid || (g.posInf && g.negInf) then none
  else if g.nan then some .nan
  else if g.posInf then some (.inf false)
  else if g.negInf then some (.inf true)
  else some (.fin (decide (g.sum.m < 0)) g.sum)

end Sys2Proof.Machine
end

