-- ==== Sys2Proof/Machine/Real.lean ====
section
/-!
DEFINITION. Real functions to a chosen number of binary places: a number x is held as the whole number nearest below
x × 2^p. The rules name sines, angles, exponentials and roots without an accuracy; these values lie so close to the exact
ones that rounding them to a format of spec/09_compute_fabric.md is rounding the exact ones.
-/

namespace Sys2Proof.Machine

/-- The places that `piLong` and `ln2Long` hold. -/
def longPlaces : Nat := 1400

/-- π × 2^1400, rounded down. -/
def piLong : Nat :=
  86924820446142690721819152023724480675964393839945235451617288799125808204478547035156863363694170760649811767937707487603443689645171717256907458278802439668188872345814523778975789370786379758197309638667340379038854953201624756256778336594175369154259142226451976306540560689921003196064799649537590725917708106837454383970920149448416634882191332097778300424803106626051858765337220852198120016731659396102470786113669

/-- ln 2 × 2^1400, rounded down. -/
def ln2Long : Nat :=
  19178709927296172599827558318812985871142187820537161095651358396410560285854703187500678424035169212135405729708117144803233281567740770643770998043858800644587221736039836200249452279261275580132557003524012249496866364448586319848663429568592008553902928612659439655000156246343419316399787789990695207343950654383846789178723486582690444300957788907992810868787042777423803462480572001754692039155641136147792341006797

/-- A number held to `longPlaces` places, to p places. -/
def toPlaces (p : Nat) (long : Nat) : Int :=
  if p ≤ longPlaces then ((long / 2 ^ (longPlaces - p) : Nat) : Int) else ((long * 2 ^ (p - longPlaces) : Nat) : Int)

/-- π to p places. -/
def piAt (p : Nat) : Int := toPlaces p piLong

/-- The product of two numbers of p places. -/
def mulAt (p : Nat) (a b : Int) : Int := a * b / (2 ^ p : Nat)

/-- The quotient of two numbers of p places. -/
def divAt (p : Nat) (a b : Int) : Int := a * (2 ^ p : Nat) / b

/-- The root of a number bit by bit: the largest r of the form `r + (bits below 2^b)` whose square is at most n. -/
def rootFrom (n : Nat) : (b r : Nat) → Nat
  | 0, r => r
  | b + 1, r => rootFrom n b (if (r + 2 ^ b) * (r + 2 ^ b) ≤ n then r + 2 ^ b else r)

/-- The whole number below the square root of n. -/
def isqrt (n : Nat) : Nat := rootFrom n (n.log2 / 2 + 1) 0

/-- The square root of a number of p places. -/
def sqrtAt (p : Nat) (a : Int) : Int := ((isqrt (a.toNat * 2 ^ p) : Nat) : Int)

/-- Terms of the series of sine (from t = x, k = 1) or cosine (from t = 1, k = 0): each is the one before times
−x² / ((k + 1)(k + 2)). -/
def trigTerms (p : Nat) (x2 : Int) : (n k : Nat) → (t : Int) → Int
  | 0, _, _ => 0
  | n + 1, k, t => t + trigTerms p x2 n (k + 2) (-(mulAt p t x2) / (((k + 1) * (k + 2) : Nat) : Int))

/-- An angle brought between −π and π. -/
def reduceAngle (p : Nat) (x : Int) : Int :=
  let r := x % (2 * piAt p)
  if piAt p < r then r - 2 * piAt p else r

/-- The sine of an angle of p places. -/
def sinAt (p : Nat) (x : Int) : Int :=
  let r := reduceAngle p x
  trigTerms p (mulAt p r r) 64 1 r

/-- The cosine of an angle of p places. -/
def cosAt (p : Nat) (x : Int) : Int :=
  let r := reduceAngle p x
  trigTerms p (mulAt p r r) 64 0 (2 ^ p : Nat)

/-- Terms of the series z − z³/3 + z⁵/5 − …, from the power t of z, k its exponent; z2 is z², negated for the series whose
terms all have one sign. -/
def oddTerms (p : Nat) (z2 : Int) : (n k : Nat) → (t : Int) → Int
  | 0, _, _ => 0
  | n + 1, k, t => t / (k : Int) + oddTerms p z2 n (k + 2) (-(mulAt p t z2))

/-- tan(a / 2) from tan a. -/
def halfTan (p : Nat) (z : Int) : Int :=
  divAt p z ((2 ^ p : Nat) + sqrtAt p ((2 ^ p : Nat) + mulAt p z z))

/-- The arctangent of a number from 0 to 1. -/
def atanAt (p : Nat) (z : Int) : Int :=
  let h := halfTan p (halfTan p (halfTan p z))
  8 * oddTerms p (mulAt p h h) 64 1 h

/-- The angle of the point (x, y) from the x axis, between −π and π; 0 at the origin. -/
def atan2At (p : Nat) (y x : Int) : Int :=
  let ay : Int := y.natAbs
  let ax : Int := x.natAbs
  let a := if ax = 0 ∧ ay = 0 then 0 else if ay ≤ ax then atanAt p (divAt p ay ax) else piAt p / 2 - atanAt p (divAt p ax ay)
  let b := if x < 0 then piAt p - a else a
  if y < 0 then -b else b

/-- Terms of the series of the exponential from the term t of index k. -/
def expTerms (p : Nat) (x : Int) : (n k : Nat) → (t : Int) → Int
  | 0, _, _ => 0
  | n + 1, k, t => t + expTerms p x n (k + 1) (mulAt p t x / ((k + 1 : Nat) : Int))

/-- 2^f for f from 0 to 1. -/
def exp2At (p : Nat) (f : Int) : Int := expTerms p (mulAt p f (toPlaces p ln2Long)) 96 0 (2 ^ p : Nat)

/-- e to the power x. -/
def expAt (p : Nat) (x : Int) : Int :=
  let y := divAt p x (toPlaces p ln2Long)
  let n := y / (2 ^ p : Nat)
  let r := exp2At p (y % (2 ^ p : Nat))
  if 0 ≤ n then r * (2 ^ n.toNat : Nat) else r / (2 ^ (-n).toNat : Nat)

/-- log2 m for m from 1 to 2. -/
def log2At (p : Nat) (m : Int) : Int :=
  let z := divAt p (m - (2 ^ p : Nat)) (m + (2 ^ p : Nat))
  divAt p (2 * oddTerms p (-(mulAt p z z)) 160 1 z) (toPlaces p ln2Long)

/-- a to the power b for a past 0; 0 for others. -/
def powAt (p : Nat) (a b : Int) : Int :=
  if a ≤ 0 then 0
  else
    let k : Int := (a.natAbs.log2 : Int) - p
    let m := if 0 ≤ k then a / (2 ^ k.toNat : Nat) else a * (2 ^ (-k).toNat : Nat)
    let y := mulAt p b (k * (2 ^ p : Nat) + log2At p m)
    let n := y / (2 ^ p : Nat)
    let r := exp2At p (y % (2 ^ p : Nat))
    if 0 ≤ n then r * (2 ^ n.toNat : Nat) else r / (2 ^ (-n).toNat : Nat)

/-- The places that serve the values given: 256 more than the distance of their leading bits from the binary point. -/
def placesFor (xs : List Dyadic) : Nat :=
  256 + xs.foldl (fun n x => max n (x.e + (x.m.natAbs.log2 : Int)).natAbs) 0

/-- An exact value to p places, rounded down. -/
def Dyadic.at (p : Nat) (x : Dyadic) : Int := (x.scale p).floor

end Sys2Proof.Machine
end

