-- ==== Sys2Proof/Machine/Arith.lean ====
section
/-!
DEFINITION. FP32 and FP64 arithmetic outside the vector units. A rule writes a formula and seldom says how its operations
round: each operation gives the exact result where the format holds it, and otherwise one of the two neighbours in the
format; which of them is open, but for the places where the spec says to nearest. The order in which the terms of a long
sum are added is open where no rule states it.
-/

namespace Sys2Proof

open Sys2Proof.Machine

/-- How a result rounds: to nearest with ties to even, towards zero, away from zero, or at a place whose rounding the spec does
not state. -/
inductive Rounding where
  | nearest
  | down
  | up
  | open (place : Place)
  deriving DecidableEq, Repr

namespace Rounding

/-- Whether the magnitude num/den, whose quotient by the quantum is q with remainder r of d, goes to the larger
neighbour. -/
def away (m : Rounding) (neg : Bool) (num den q r d : Nat) : Bool :=
  match m with
  | .nearest => decide (d < 2 * r) || (decide (2 * r = d) && decide (q % 2 = 1))
  | .down => false
  | .up => true
  | .open p => Config.roundsAway p neg num den

/-- The pattern of ±num/den in a layout of eb exponent and mb fraction bits, without its sign: subnormals are kept, and
what rounds past the largest finite value is an infinity. -/
def magnitude (m : Rounding) (eb mb : Nat) (neg : Bool) (num den : Nat) : Nat :=
  if num = 0 then 0
  else
    let t0 : Int := (num.log2 : Int) - (den.log2 : Int)
    let below := if 0 ≤ t0 then decide (num < den * 2 ^ t0.toNat) else decide (num * 2 ^ (-t0).toNat < den)
    let top : Int := if below then t0 - 1 else t0
    let emin : Int := 2 - 2 ^ (eb - 1)
    let e : Int := (if top < emin then emin else top) - mb
    let n := num * 2 ^ (-e).toNat
    let d := den * 2 ^ e.toNat
    let q := n / d
    let k := if n % d = 0 then q else if m.away neg num den q (n % d) d then q + 1 else q
    let big : Nat := (2 ^ eb - 1) * 2 ^ mb
    let r := if k = 2 ^ (mb + 1) then (2 ^ mb, e + 1) else (k, e)
    match fpPattern eb mb (2 ^ eb - 2) r.1 r.2 with
    | some p => p
    | none =>
      match m with
      | .nearest | .up => big
      | .down => big - 1
      | .open p => if Config.roundsAway p neg num den then big else big - 1

/-- ±num/den in a layout; `neg` is the sign, of a zero too. -/
def quotient (m : Rounding) (eb mb : Nat) (neg : Bool) (num den : Nat) : Nat :=
  (if neg then 2 ^ (eb + mb) else 0) + m.magnitude eb mb neg num den

/-- The quiet NaN of a layout. -/
def quietNaN (eb mb : Nat) : Nat := (2 ^ eb - 1) * 2 ^ mb + 2 ^ (mb - 1)

/-- An infinity of a layout. -/
def infinity (eb mb : Nat) (neg : Bool) : Nat := (if neg then 2 ^ (eb + mb) else 0) + (2 ^ eb - 1) * 2 ^ mb

/-- A number in a layout. -/
def encode (m : Rounding) (eb mb : Nat) : FpNum → Nat
  | .nan => quietNaN eb mb
  | .inf n => infinity eb mb n
  | .fin n v =>
    m.quotient eb mb (if v.m = 0 then n else decide (v.m < 0)) (v.m.natAbs * 2 ^ v.e.toNat) (2 ^ (-v.e).toNat)

/-- The quotient of two numbers. -/
def divide (m : Rounding) (eb mb : Nat) : FpNum → FpNum → Nat
  | .nan, _ => quietNaN eb mb
  | _, .nan => quietNaN eb mb
  | .inf _, .inf _ => quietNaN eb mb
  | .inf a, .fin b _ => infinity eb mb (a != b)
  | .fin a _, .inf b => m.quotient eb mb (a != b) 0 1
  | .fin a v, .fin b w =>
    if w.m = 0 then (if v.m = 0 then quietNaN eb mb else infinity eb mb (a != b))
    else m.quotient eb mb (a != b) (v.m.natAbs * 2 ^ (v.e - w.e).toNat) (w.m.natAbs * 2 ^ (w.e - v.e).toNat)

/-- A number of p places in a layout. -/
def places (m : Rounding) (eb mb p : Nat) (x : Int) : Nat := m.quotient eb mb (decide (x < 0)) x.natAbs (2 ^ p)

/-- The square root of a number: an exact root is exact, and another lies above its whole part. -/
def root (m : Rounding) (eb mb : Nat) : FpNum → Nat
  | .nan => quietNaN eb mb
  | .inf n => if n then quietNaN eb mb else infinity eb mb false
  | .fin n v =>
    if v.m = 0 then m.quotient eb mb n 0 1
    else if v.m < 0 then quietNaN eb mb
    else
      let a := if v.e % 2 = 0 then v.m.natAbs else v.m.natAbs * 2
      let e := v.e / 2 - 128
      let s := isqrt (a * 2 ^ 256)
      let t := if s * s = a * 2 ^ 256 then 2 * s else 2 * s + 1
      m.quotient eb mb false (t * 2 ^ (e - 1).toNat) (2 ^ (1 - e).toNat)

/-- A real function of finite values, to the places that serve them; a NaN of the others. -/
def real (m : Rounding) (eb mb : Nat) (f : (p : Nat) → List Int → Int) (xs : List FpNum) : Nat :=
  if xs.all (fun x => match x with | .fin _ _ => true | _ => false) then
    let vs := xs.map (fun x => match x with | .fin _ v => v | _ => { m := 0, e := 0 })
    let p := placesFor vs
    m.places eb mb p (f p (vs.map (·.at p)))
  else quietNaN eb mb

/-! ### FP32 -/

/-- a + b. -/
def add (m : Rounding) (a b : F32) : F32 :=
  BitVec.ofNat 32 (match (f32Num a).add (f32Num b) with | some x => m.encode 8 23 x | none => quietNaN 8 23)

/-- a − b. -/
def sub (m : Rounding) (a b : F32) : F32 := m.add a (f32Neg b)

/-- a × b. -/
def mul (m : Rounding) (a b : F32) : F32 :=
  BitVec.ofNat 32 (match (f32Num a).mul (f32Num b) with | some x => m.encode 8 23 x | none => quietNaN 8 23)

/-- a / b. -/
def div (m : Rounding) (a b : F32) : F32 := BitVec.ofNat 32 (m.divide 8 23 (f32Num a) (f32Num b))

/-- √a. -/
def sqrt (m : Rounding) (a : F32) : F32 := BitVec.ofNat 32 (m.root 8 23 (f32Num a))

/-- sin a. -/
def sin (m : Rounding) (a : F32) : F32 := BitVec.ofNat 32 (m.real 8 23 (fun p xs => sinAt p (xs.headD 0)) [f32Num a])

/-- cos a. -/
def cos (m : Rounding) (a : F32) : F32 := BitVec.ofNat 32 (m.real 8 23 (fun p xs => cosAt p (xs.headD 0)) [f32Num a])

/-- tan a. -/
def tan (m : Rounding) (a : F32) : F32 :=
  BitVec.ofNat 32 (m.real 8 23 (fun p xs => divAt p (sinAt p (xs.headD 0)) (cosAt p (xs.headD 0))) [f32Num a])

/-- atan2(y, x). -/
def atan2 (m : Rounding) (y x : F32) : F32 :=
  BitVec.ofNat 32 (m.real 8 23 (fun p xs => atan2At p (xs.headD 0) (xs.getD 1 0)) [f32Num y, f32Num x])

/-- a to the power b, for a past 0. -/
def power (m : Rounding) (a b : F32) : F32 :=
  BitVec.ofNat 32 (m.real 8 23 (fun p xs => powAt p (xs.headD 0) (xs.getD 1 0)) [f32Num a, f32Num b])

/-- A whole number. -/
def ofInt (m : Rounding) (n : Int) : F32 := BitVec.ofNat 32 (m.encode 8 23 (.fin (decide (n < 0)) { m := n, e := 0 }))

/-- A whole number times an FP32 number. -/
def scaleInt (m : Rounding) (n : Int) (s : F32) : F32 :=
  BitVec.ofNat 32 (match (FpNum.fin (decide (n < 0)) { m := n, e := 0 }).mul (f32Num s) with
    | some x => m.encode 8 23 x | none => quietNaN 8 23)

/-- An FP64 number in FP32. -/
def narrow (m : Rounding) (a : F64) : F32 := BitVec.ofNat 32 (m.encode 8 23 (f64Num a))

/-- The sum of terms added as they stand. -/
def sum (m : Rounding) : List F32 → F32
  | [] => 0
  | x :: xs => xs.foldl m.add x

/-! ### FP64 -/

/-- a + b. -/
def add64 (m : Rounding) (a b : F64) : F64 :=
  BitVec.ofNat 64 (match (f64Num a).add (f64Num b) with | some x => m.encode 11 52 x | none => quietNaN 11 52)

/-- The sign changed. -/
def neg64 (a : F64) : F64 := a ^^^ 0x8000000000000000

/-- a − b. -/
def sub64 (m : Rounding) (a b : F64) : F64 := m.add64 a (neg64 b)

/-- a × b. -/
def mul64 (m : Rounding) (a b : F64) : F64 :=
  BitVec.ofNat 64 (match (f64Num a).mul (f64Num b) with | some x => m.encode 11 52 x | none => quietNaN 11 52)

/-- a / b. -/
def div64 (m : Rounding) (a b : F64) : F64 := BitVec.ofNat 64 (m.divide 11 52 (f64Num a) (f64Num b))

/-- √a. -/
def sqrt64 (m : Rounding) (a : F64) : F64 := BitVec.ofNat 64 (m.root 11 52 (f64Num a))

/-- sin a. -/
def sin64 (m : Rounding) (a : F64) : F64 := BitVec.ofNat 64 (m.real 11 52 (fun p xs => sinAt p (xs.headD 0)) [f64Num a])

/-- cos a. -/
def cos64 (m : Rounding) (a : F64) : F64 := BitVec.ofNat 64 (m.real 11 52 (fun p xs => cosAt p (xs.headD 0)) [f64Num a])

/-- atan2(y, x). -/
def atan264 (m : Rounding) (y x : F64) : F64 :=
  BitVec.ofNat 64 (m.real 11 52 (fun p xs => atan2At p (xs.headD 0) (xs.getD 1 0)) [f64Num y, f64Num x])

/-- A whole number over a whole number. -/
def ratio64 (m : Rounding) (n : Int) (d : Nat) : F64 := BitVec.ofNat 64 (m.quotient 11 52 (decide (n < 0)) n.natAbs d)

/-- An FP32 number in FP64, which holds it. -/
def widen (a : F32) : F64 := BitVec.ofNat 64 (Rounding.nearest.encode 11 52 (f32Num a))

/-- The sum of terms added as they stand. -/
def sum64 (m : Rounding) : List F64 → F64
  | [] => 0
  | x :: xs => xs.foldl m.add64 x

/-! ### Sums in an order that no rule states -/

/-- The element at a place of a list, and the others. -/
def takeAt {α : Type} (i : Nat) (xs : List α) : Option α × List α := (xs[i]?, xs.eraseIdx i)

/-- Terms brought to one: at each step two of them, which is open, are replaced by what `f` makes of them. -/
def merge {α : Type} (f : α → α → α) (dflt : α) (p : Place) : (fuel : Nat) → List α → α
  | 0, xs => xs.headD dflt
  | _ + 1, [] => dflt
  | _ + 1, [x] => x
  | _ + 1, [x, y] => f x y
  | n + 1, xs =>
    let a := takeAt (Config.sumPick p xs.length 0 % xs.length) xs
    let b := takeAt (Config.sumPick p xs.length 1 % (xs.length - 1)) a.2
    merge f dflt p n (f (a.1.getD dflt) (b.1.getD dflt) :: b.2)

/-- A sum of FP32 terms in an open order. -/
def sumAny (m : Rounding) (p : Place) (xs : List F32) : F32 := merge m.add 0 p xs.length xs

/-- A sum of FP64 terms in an open order. -/
def sumAny64 (m : Rounding) (p : Place) (xs : List F64) : F64 := merge m.add64 0 p xs.length xs

end Rounding

end Sys2Proof
end

