-- ==== Sys2Proof/Machine/Memory.lean ====
section
/-!
DEFINITION. Memory: the map of the device's SRAMs and of LPDDR5X onto packed addresses, reading and writing bytes, and
the places of tensor elements (spec/09_compute_fabric.md R196; spec/10_twill_layout.md R223 to R228).
-/

namespace Sys2Proof.Machine

open Sys2Proof

/-! ### The map -/

/-- The cluster that a die and a cluster number name (R222, R224). -/
def clusterOf (die cl : Nat) : Nat := if die < 4 then 32 * die + cl else 128 + cl

/-- First packed address of a core's local SRAM, in the 4 MiB after its cluster's SRAM. -/
def coreBase (cl co : Nat) : Nat := clusterBase cl + 0x40_0000 + co * 0x1_0000

/-- First packed address of the IOD's SRAM. -/
def iodBase : Nat := 0x4_0000_0000

/-- First packed address of a die's LPDDR5X: 2^40 addresses are set aside for each. -/
def ddrBase (die : Nat) : Nat := 0x100_0000_0000 * (1 + die)

/-- First packed address of a space (R224). -/
def spaceBase (s : Space) (die cl co : Nat) : Nat :=
  match s with
  | .coreLocal => coreBase (clusterOf die cl) co
  | .cluster => clusterBase (clusterOf die cl)
  | .memSide => memSideBase die
  | .iod => iodBase
  | .lpddr => ddrBase die

/-- The packed address of a core's address (R196): local SRAM, or its cluster's. -/
def coreAddr (cl co a : Nat) : Option Nat :=
  if a < 0x1_0000 then some (coreBase cl co + a)
  else if 0x100_0000 ≤ a && a < 0x140_0000 then some (clusterBase cl + (a - 0x100_0000))
  else none

/-- The packed address of `n` bytes that a core addresses, where all of them exist in one memory. -/
def coreRange (cl co a n : Nat) : Option Nat :=
  match coreAddr cl co a, coreAddr cl co (a + (n - 1)) with
  | some x, some y => if y = x + (n - 1) then some x else none
  | _, _ => none

/-! ### Bytes -/

/-- What a byte of memory that nothing has written reads as. -/
def memDefault : Byte := 0

/-- The byte at a packed address. -/
def Dev.byte (d : Dev) (a : Nat) : Byte := bget memDefault a d.mem

/-- `n` bytes from a packed address. -/
def Dev.bytes (d : Dev) (a n : Nat) : List Byte := (List.range n).map (fun i => d.byte (a + i))

/-- A little-endian number of `n` bytes (R5). -/
def Dev.readLe (d : Dev) (a n : Nat) : Nat := leNat (d.bytes a n)

/-- Store one byte. -/
def setByte (a : Nat) (v : Byte) (d : Dev) : Dev := { d with mem := bput memDefault a v d.mem }

/-- Store bytes from an address on. -/
def setBytes : (a : Nat) → List Byte → Dev → Dev
  | _, [], d => d
  | a, b :: rest, d => setBytes (a + 1) rest (setByte a b d)

/-- Store bits of one byte: `w` bits from bit `sh` on. -/
def setBits (a sh w v : Nat) (d : Dev) : Dev :=
  let old := (d.byte a).toNat
  let m := 2 ^ w
  let keep := old - (old / 2 ^ sh % m) * 2 ^ sh
  setByte a (BitVec.ofNat 8 (keep + v % m * 2 ^ sh)) d

/-- Memory is in its canonical form. -/
def memWf (m : List Host.Cell) : Bool := bwf memDefault m

/-! ### Rows of elements (R225 to R228) -/

/-- The bytes of a block of 32 elements (R226). -/
def blockBytes (f : Format) : Nat := f.bits * 4

/-- The bytes of a full line of 256 elements (R226). -/
def lineBytes (f : Format) : Nat := 8 + 8 * blockBytes f

/-- The bytes of a row of n elements (R226, R228). -/
def rowBytes (f : Format) (n : Nat) : Nat :=
  if f.block then
    n / 256 * lineBytes f + (if n % 256 = 0 then 0 else 8 + (n % 256 + 31) / 32 * blockBytes f)
  else (n * f.bits + 7) / 8

/-- The place of element i in its row: its byte and, in it, its first bit (R225 to R227). A 6-bit element lies in the
24-bit group of its four. -/
def elemPlace (f : Format) (i : Nat) : Nat × Nat :=
  let start := if f.block then i / 256 * lineBytes f + 8 + i % 256 / 32 * blockBytes f else 0
  let e := if f.block then i % 32 else i
  match f.bits with
  | 4 => (start + e / 2, 4 * (e % 2))
  | 6 => (start + 3 * (e / 4), 6 * (e % 4))
  | n => (start + e * (n / 8), 0)

/-- The place of the scale byte of element i's block in its row (R226). -/
def scalePlace (f : Format) (i : Nat) : Nat := i / 256 * lineBytes f + i % 256 / 32

/-- The bits of element i of the row at a packed address. -/
def Dev.elem (d : Dev) (f : Format) (row i : Nat) : Nat :=
  let p := elemPlace f i
  match f.bits with
  | 4 => (d.byte (row + p.1)).toNat / 2 ^ p.2 % 16
  | 6 => d.readLe (row + p.1) 3 / 2 ^ p.2 % 64
  | n => d.readLe (row + p.1) (n / 8)

/-- Store element i of the row at a packed address; the bits beside a narrow element keep their values. -/
def setElem (f : Format) (row i v : Nat) (d : Dev) : Dev :=
  let p := elemPlace f i
  match f.bits with
  | 4 => setBits (row + p.1) p.2 4 v d
  | 6 =>
    let old := d.readLe (row + p.1) 3
    let keep := old - (old / 2 ^ p.2 % 64) * 2 ^ p.2
    setBytes (row + p.1) (leBytes 3 (keep + v % 64 * 2 ^ p.2)) d
  | n => setBytes (row + p.1) (leBytes (n / 8) v) d

/-- The scale byte of element i's block. -/
def Dev.scale (d : Dev) (f : Format) (row i : Nat) : Nat := (d.byte (row + scalePlace f i)).toNat

/-- Store the scale byte of element i's block. -/
def setScale (f : Format) (row i v : Nat) (d : Dev) : Dev := setByte (row + scalePlace f i) (BitVec.ofNat 8 v) d

/-! ### Tensors (R223 to R225) -/

end Sys2Proof.Machine

namespace Sys2Proof

open Sys2Proof.Machine

/-- The packed address of a tensor's base. -/
def Tensor.start (t : Tensor) : Nat := spaceBase t.space t.die t.cluster t.core + t.addr

/-- The extent of dimension i: 1 at or above the rank. -/
def Tensor.ext (t : Tensor) (i : Nat) : Nat := if i < t.rank then t.extents.getD i 1 else 1

/-- The packed address of the row that indices 1 to 5 select (R225). -/
def Tensor.row (t : Tensor) (idx : List Nat) : Nat :=
  t.start + ((idx.drop 1).zip t.strides).foldl (fun s p => s + p.1 * p.2) 0

end Sys2Proof

namespace Sys2Proof.Machine

open Sys2Proof

/-- The descriptor table that the work of a tick refers to (R223). -/
def Dev.descsAt (d : Dev) (src : Source) (tick : Nat) : List Tensor :=
  match src with
  | .burlap => (d.imageAt tick).burlap.descs
  | .main => match d.modeAt tick with | some m => m.descs | none => []

/-- The tensor of a descriptor index (R223); 0xFFFF names none. -/
def tensorOf (ts : List Tensor) (i : Nat) : Option Tensor := if i = 0xFFFF then none else ts[i]?

/-- Byte n of a row of dimension 0 holds an element or the scale of a block (R226 to R228): no padding. -/
def rowHolds (f : Format) (ext n : Nat) : Bool :=
  if f.block then
    let p := n % lineBytes f
    let first := n / lineBytes f * 256
    if p < 8 then decide (first + 32 * p < ext)
    else
      let b := first + 32 * ((p - 8) / blockBytes f)
      decide (b + (p - 8) % blockBytes f * 8 / f.bits < ext)
  else decide (n * 8 / f.bits < ext)

/-- Byte n from a tensor's start holds an element or a scale byte (R225, R228): the offsets along dimensions `i` to 1, then the
row. -/
def tensorHolds (t : Tensor) : (i n : Nat) → Bool
  | 0, n => rowHolds t.format (t.ext 0) n
  | i + 1, n =>
    if t.rank ≤ i + 1 then tensorHolds t i n
    else
      let s := t.strides.getD i 0
      if s = 0 then tensorHolds t i n else decide (n / s < t.ext (i + 1)) && tensorHolds t i (n % s)

/-- Store a tensor's bytes in its own layout, padding left as it stands (R228, R232, R245). -/
def setSpan (t : Tensor) (bs : List Byte) (d : Dev) : Dev :=
  (bs.zipIdx).foldl (fun d b => if tensorHolds t 5 b.2 then setByte (t.start + b.2) b.1 d else d) d

/-- Store bytes at a tensor's start, as raw content. -/
def setTensor (t : Option Tensor) (bs : List Byte) (d : Dev) : Dev :=
  match t with
  | some t => setBytes t.start bs d
  | none => d

end Sys2Proof.Machine
end

