-- ==== Sys2Proof/Machine/Cores.lean ====
section
/-!
DEFINITION. The cores: registers, control flow, loads and stores, and the vector unit (spec/09_compute_fabric.md R195
to R201, R215 to R218).
-/

namespace Sys2Proof.Machine

open Sys2Proof

/-! ### Registers (R195) -/

/-- X register i; X0 reads 0. -/
def CoreState.xr (c : CoreState) (i : Fin 16) : Word := if i.val = 0 then 0 else bget 0 i.val c.x

/-- X register i written; X0 ignores writes. -/
def CoreState.setX (c : CoreState) (i : Fin 16) (v : Word) : CoreState :=
  if i.val = 0 then c else { c with x := bput 0 i.val v c.x }

/-- Lane i of vector register v; register numbers past 31 wrap. -/
def CoreState.lane (c : CoreState) (v i : Nat) : Word := bget 0 (16 * (v % 32) + i) c.v

/-- Lane i of vector register v written. -/
def CoreState.setLane (c : CoreState) (v i : Nat) (x : Word) : CoreState := { c with v := bput 0 (16 * (v % 32) + i) x c.v }

/-- The 16 lanes. -/
def lanes : List Nat := List.range 16

/-- A vector register written lane by lane. -/
def CoreState.setVec (c : CoreState) (v : Nat) (f : Nat → Word) : CoreState := lanes.foldl (fun s i => s.setLane v i (f i)) c

/-- Word (row, column) of an accumulator. -/
def CoreState.accAt (c : CoreState) (a r k : Nat) : Word := bget 0 (128 * a + 8 * r + k) c.acc

/-- Word (row, column) of an accumulator written. -/
def CoreState.setAcc (c : CoreState) (a r k : Nat) (x : Word) : CoreState :=
  { c with acc := bput 0 (128 * a + 8 * r + k) x c.acc }

/-- The format tag of an accumulator: FP32. -/
def CoreState.fpTag (c : CoreState) (a : Nat) : Bool := bget false a c.accFp

/-- Set flags of NSW (R218). -/
def CoreState.flag (c : CoreState) (bits : BitVec 8) : CoreState := { c with nsw := c.nsw ||| bits }

/-- INVALID. -/
def nswInvalid : BitVec 8 := 0x01
/-- FP_OVF. -/
def nswOvf : BitVec 8 := 0x02
/-- CONV_SAT. -/
def nswConvSat : BitVec 8 := 0x04
/-- INT_SAT. -/
def nswIntSat : BitVec 8 := 0x08
/-- NAN_IN. -/
def nswNanIn : BitVec 8 := 0x10
/-- LOOP_CLAMP. -/
def nswLoopClamp : BitVec 8 := 0x20
/-- TALLY_SAT. -/
def nswTallySat : BitVec 8 := 0x40

/-- A flag where a condition holds. -/
def nswIf (p : Bool) (b : BitVec 8) : BitVec 8 := if p then b else 0

/-- The flags of an FP32 result. -/
def FRes.flags (r : FRes) : BitVec 8 := nswIf r.invalid nswInvalid ||| nswIf r.ovf nswOvf

/-- A vector register written with FP32 results and their flags. -/
def CoreState.setRes (c : CoreState) (v : Nat) (f : Nat → FRes) : CoreState :=
  (c.setVec v (fun i => (f i).v)).flag (lanes.foldl (fun b i => b ||| (f i).flags) 0)

/-! ### Running (R200) -/

/-- The core takes its next instruction: its cluster runs, and it neither waits nor is stopped. -/
def Dev.coreRuns (d : Dev) (cl co : Nat) : Bool :=
  (match (d.cluster cl).state with | .running | .golden => true | _ => false) &&
  decide ((d.core (coreKey cl co)).run = .ready)

/-- The core goes on to the instruction after this one. -/
def CoreState.next (c : CoreState) : CoreState := { c with pc := c.pc + 1 }

/-- An instruction that changes its core alone. -/
def coreOp (cl : Fin 132) (co : Fin 64) (f : CoreState → CoreState) (d : Dev) : Dev :=
  if d.coreRuns cl.val co.val then
    let c := d.core (coreKey cl.val co.val)
    d.setCore (coreKey cl.val co.val) (f c).next
  else d

/-- MOVI (R200). -/
def movi (cl : Fin 132) (co : Fin 64) (x : Fin 16) (imm : Word) (d : Dev) : Dev := coreOp cl co (fun c => c.setX x imm) d

/-- ADDI, modulo 2^32 (R200). -/
def addi (cl : Fin 132) (co : Fin 64) (x a : Fin 16) (imm : Word) (d : Dev) : Dev :=
  coreOp cl co (fun c => c.setX x (c.xr a + imm)) d

/-- SETC (R200). -/
def setc (cl : Fin 132) (co : Fin 64) (imm : Word) (d : Dev) : Dev := coreOp cl co (fun c => { c with cscale := imm }) d

/-- RDNSW (R200, R218). -/
def rdnsw (cl : Fin 132) (co : Fin 64) (x : Fin 16) (d : Dev) : Dev :=
  coreOp cl co (fun c => { c.setX x (c.nsw.setWidth 32) with nsw := 0 }) d

/-! ### Loops (R200, R201) -/

/-- A loop of n passes opens: its body starts at the next instruction. Four loops nest (R200). -/
def CoreState.openLoop (c : CoreState) (l : Fin 4) (n : BitVec 16) : CoreState :=
  let loops := if c.loops.length < 4 then (c.pc + 1, l.val) :: c.loops
    else if Config.fifthLoop then ((c.pc + 1, l.val) :: c.loops).take 4 else c.loops
  { c with lc := bput 0 l.val n c.lc, loops := loops }

/-- A loop count of LOOP: one of 1 to 65,535, else an open value. -/
def loopTimes (imm : Word) : BitVec 16 :=
  if 1 ≤ imm.toNat ∧ imm.toNat ≤ 65535 then imm.setWidth 16 else Config.loopCount imm

/-- LOOP (R200). -/
def loopOp (cl : Fin 132) (co : Fin 64) (l : Fin 4) (imm : Word) (d : Dev) : Dev :=
  coreOp cl co (fun c => c.openLoop l (loopTimes imm)) d

/-- The place of the ENDL that matches a loop of counter l, from an instruction on (R200): opcode 0x0A with the counter
in its first register field; `depth` counts the loops of the same counter opened between. `fuel` bounds the search by
the instruction memory. -/
def matchEnd (c : CoreState) (l : Nat) : (fuel pc depth : Nat) → Option Nat
  | 0, _, _ => none
  | fuel + 1, pc, depth =>
    let w := bget 0 pc c.imem
    let op := (w.toNat) % 256
    let r := w.toNat / 256 % 32
    if op = 0x0A && r = l then (if depth = 0 then some pc else matchEnd c l fuel (pc + 1) (depth - 1))
    else if (op = 0x08 || op = 0x09) && r = l then matchEnd c l fuel (pc + 1) (depth + 1)
    else matchEnd c l fuel (pc + 1) depth

/-- LOOPX (R200): the smaller of X and IMM passes; 0 skips the body. -/
def loopx (cl : Fin 132) (co : Fin 64) (l : Fin 4) (a : Fin 16) (imm : Word) (d : Dev) : Dev :=
  coreOp cl co (fun c =>
    let x := (c.xr a).toNat
    let n := min x imm.toNat
    let c := c.flag (nswIf (decide (imm.toNat < x)) nswLoopClamp)
    if n = 0 then
      match matchEnd c l.val 2048 (c.pc + 1) 0 with
      | some e => { c with pc := e }
      | none => c
    else c.openLoop l (BitVec.ofNat 16 n)) d

/-- ENDL (R200): back to the start of the body while passes remain. -/
def endl (cl : Fin 132) (co : Fin 64) (l : Fin 4) (d : Dev) : Dev :=
  if d.coreRuns cl.val co.val then
    let q := coreKey cl.val co.val
    let c := d.core q
    let n := bget 0 l.val c.lc - 1
    let c := { c with lc := bput 0 l.val n c.lc }
    match c.loops with
    | (start, k) :: rest =>
      if k = l.val && n ≠ 0 then d.setCore q { c with pc := start }
      else if k = l.val then d.setCore q { c with pc := c.pc + 1, loops := rest }
      else d.setCore q c.next
    | [] => d.setCore q c.next
  else d

/-! ### Loads and stores (R196, R207) -/

/-- The partition of the mode in force that a main cluster lies in. -/
def Dev.partOf (d : Dev) (cl : Nat) : Option Nat :=
  d.parts.findIdx? (fun p => p.die = cl / 32 && p.clusters.contains (cl % 32))

/-- Mark Burlap's windows on a cluster missing in every open tick (R207). -/
def missBurlapOn (cl : Nat) (d : Dev) : Dev :=
  d.plan.ticks.foldl (fun d e =>
    (d.windowsAt .burlap e.1).foldl (fun d x =>
      match d.groupOf .burlap e.1 x.2 with
      | some g => if (groupClusters .burlap g).contains cl then miss .restart .burlap e.1 x.1 d else d
      | none => d) d) d

/-- An uncorrectable error in a cluster's SRAM (R207): the cluster's partition restarts with cause 4, or the Burlap
cluster goes down and is reloaded, a class V fault 0x000C. -/
def sramError (cl : Nat) (d : Dev) : Dev :=
  if cl < 128 then
    match d.partOf cl with
    | some i => restartPartition (cl / 32) i causeSram true d
    | none => raiseH (Config.classHCode 2) (cl / 32) cl causeSram d
  else
    let d := missBurlapOn cl d
    resetCluster (raiseV 0x000C 6 (cl - 128) 0 false (cl - 128) d) cl

/-- The window that a core works in: its source, tick and index. -/
def winOfKey (key : Nat) : Source × Nat × Nat :=
  (if key / 65536 % 2 = 0 then .main else .burlap, key / 131072, key % 65536)

/-- Mark the window of a key missing. -/
def missKey (cause : MissCause) (key : Option Nat) (d : Dev) : Dev :=
  match key with
  | some k => miss cause (winOfKey k).1 (winOfKey k).2.1 (winOfKey k).2.2 d
  | none => d

/-- What SEC-DED found in a read of cluster cl's SRAM by a window, if any (R207). -/
def eccRead (cl : Nat) (window : Option Nat) (e : Ecc) (d : Dev) : Dev :=
  let c := d.cluster cl
  let bar := barTsq + 0x1000 + 0x10 * cl
  match e with
  | .clean => d
  | .corrected =>
    let n := c.eccCorr.inc
    satEvent (bar + 4) c.eccCorr n (d.setCluster cl { c with eccCorr := n })
  | .uncorrectable =>
    let n := c.eccUncorr.inc
    let d := satEvent (bar + 8) c.eccUncorr n (d.setCluster cl { c with eccUncorr := n })
    sramError cl (missKey .restart window d)

/-- LDV (R196, R200): 64 bytes at X + IMM; none where the core addresses no memory there. -/
def ldv (cl : Fin 132) (co : Fin 64) (v : Fin 32) (a : Fin 16) (imm : Word) (ecc : Ecc) (d : Dev) : Option Dev :=
  if d.coreRuns cl.val co.val then
    let q := coreKey cl.val co.val
    let c := d.core q
    (coreRange cl.val co.val (c.xr a + imm).toNat 64).map (fun p =>
      let d := d.setCore q (c.setVec v.val (fun i => BitVec.ofNat 32 (d.readLe (p + 4 * i) 4))).next
      eccRead cl.val c.window ecc d)
  else some d

/-- The lanes that a mask selects. -/
def maskLanes (m : Word) : List Nat := lanes.filter (fun i => m.getLsbD i)

/-- The packed addresses of the words of the selected lanes, from a core's address on, where all of them exist. -/
def lanePlaces (cl co a : Nat) (m : Word) : Option (List (Nat × Nat)) :=
  (maskLanes m).mapM (fun i => (coreRange cl co (a + 4 * i) 4).map (fun p => (i, p)))

/-- STVM (R200): the lanes whose bit in Xm[15:0] is set; none where the core addresses no memory there. -/
def stvm (cl : Fin 132) (co : Fin 64) (v : Fin 32) (a m : Fin 16) (d : Dev) : Option Dev :=
  if d.coreRuns cl.val co.val then
    let q := coreKey cl.val co.val
    let c := d.core q
    (lanePlaces cl.val co.val (c.xr a).toNat (c.xr m)).map (fun ps =>
      ps.foldl (fun d e => setBytes e.2 (leBytes 4 (c.lane v.val e.1).toNat) d) (d.setCore q c.next))
  else some d

/-! ### The vector unit (R198, R217) -/

/-- An INT32 lane of VOP. -/
def vopInt (op : VOp) (a b c : Word) : Word :=
  match op with
  | .add => a + b
  | .sub => a - b
  | .mul => a * b
  | .fma => a * b + c
  | .min => if a.toInt ≤ b.toInt then a else b
  | .max => if a.toInt ≤ b.toInt then b else a
  | .abs => if a.toInt < 0 then -a else a
  | .neg => -a
  | .and => a &&& b
  | .or => a ||| b
  | .xor => a ^^^ b
  | .shift => Config.vopShift a b
  | .cmpgt | .select => a

/-- An FP32 lane of VOP. -/
def vopFp (op : VOp) (a b c : F32) : FRes :=
  match op with
  | .add => f32Add a b
  | .sub => f32Sub a b
  | .mul => f32Mul a b
  | .fma => f32Fma a b c
  | .min => { v := f32Min a b }
  | .max => { v := f32Max a b }
  | .abs => { v := f32Abs a }
  | .neg => { v := f32Neg a }
  | op => { v := vopInt op a b c }

/-- A lane is greater in cmpgt. -/
def vopGt (int : Bool) (a b : Word) : Bool := if int then decide (b.toInt < a.toInt) else f32Gt a b

/-- The mask of cmpgt: bit i for lane i. -/
def gtMask (int : Bool) (c : CoreState) (va vb : Nat) : Word :=
  lanes.foldl (fun m i => if vopGt int (c.lane va i) (c.lane vb i) then m ||| (1#32 <<< i) else m) 0

/-- VOP (R200, R217): FP32 or INT32 lanes. cmpgt writes its mask to lane 0 of Vd; select takes Va where lane 0 of Vc has
the lane's bit set, else Vb. -/
def vop (cl : Fin 132) (co : Fin 64) (op : VOp) (int : Bool) (vd va vb vc : Fin 32) (d : Dev) : Dev :=
  coreOp cl co (fun c =>
    match op with
    | .cmpgt => c.setLane vd.val 0 (gtMask int c va.val vb.val)
    | .select =>
      let m := c.lane vc.val 0
      c.setVec vd.val (fun i => if m.getLsbD i then c.lane va.val i else c.lane vb.val i)
    | op =>
      if int then c.setVec vd.val (fun i => vopInt op (c.lane va.val i) (c.lane vb.val i) (c.lane vc.val i))
      else c.setRes vd.val (fun i => vopFp op (c.lane va.val i) (c.lane vb.val i) (c.lane vc.val i))) d

/-- A lane as a number times 2^shift (R215). -/
def shifted (int : Bool) (shift : Int) (w : Word) : FpNum :=
  (if int then intNum 32 w.toNat else f32Num w).scale shift

/-- The flags of a conversion (R218). -/
def Conv.flags (x : Conv) : BitVec 8 := nswIf x.sat nswConvSat ||| nswIf x.invalid nswInvalid

/-- VCVT to a format that is no block format (R215): lane i holds the element in its low bits. -/
def convLanes (c : CoreState) (vd va : Nat) (int : Bool) (f : Format) (sat : Bool) (shift : Int) : CoreState :=
  let r (i : Nat) : Conv := convertNum f sat ((c.lane va i).getLsbD 31) (shifted int shift (c.lane va i))
  (c.setVec vd (fun i => BitVec.ofNat 32 (r i).bits)).flag (lanes.foldl (fun b i => b ||| (r i).flags) 0)

/-- VCVT to a block format (R216): the 32 lanes of Va and the register after it make one block, whose elements go to the
low bits of the lanes of Vd and the register after it, and its scale byte to bits 15 to 8 of lane 0 of Vd. -/
def convBlock (c : CoreState) (vd va : Nat) (int : Bool) (f : Format) (shift : Int) : CoreState :=
  let xs := (List.range 32).map (fun i => shifted int shift (c.lane (va + i / 16) (i % 16)))
  let r := convertBlock f xs
  let elem (i : Nat) : Nat := match r.2[i]? with | some e => e.bits | none => 0
  let c := c.setVec vd (fun i => BitVec.ofNat 32 (elem i + (if i = 0 then 256 * r.1 else 0)))
  let c := c.setVec (vd + 1) (fun i => BitVec.ofNat 32 (elem (16 + i)))
  c.flag (r.2.foldl (fun b e => b ||| e.flags) 0)

/-- VCVT (R215, R216). -/
def vcvt (cl : Fin 132) (co : Fin 64) (vd va : Fin 32) (int : Bool) (f : Format) (sat : Bool) (shift : BitVec 8) (d : Dev) :
    Dev :=
  coreOp cl co (fun c =>
    if f.block then convBlock c vd.val va.val int f shift.toInt
    else convLanes c vd.val va.val int f sat shift.toInt) d

/-- Pair the results of a tree's level. -/
def pairUp (f : F32 → F32 → FRes) : List FRes → List FRes
  | a :: b :: rest =>
    let r := f a.v b.v
    { r with invalid := r.invalid || a.invalid || b.invalid, ovf := r.ovf || a.ovf || b.ovf } :: pairUp f rest
  | l => l

/-- The fixed tree of R198 over 16 lanes. -/
def tree (f : F32 → F32 → FRes) (l : List F32) : FRes :=
  match pairUp f (pairUp f (pairUp f (pairUp f (l.map (fun x => { v := x }))))) with
  | r :: _ => r
  | [] => { v := 0 }

/-- VRED (R198): the sum or the maximum of the lanes, to lane 0 of Vd. -/
def vred (cl : Fin 132) (co : Fin 64) (vd va : Fin 32) (max : Bool) (d : Dev) : Dev :=
  coreOp cl co (fun c =>
    let f : F32 → F32 → FRes := if max then (fun a b => { v := f32Max a b }) else f32Add
    let r := tree f (lanes.map (fun i => c.lane va.val i))
    (c.setLane vd.val 0 r.v).flag r.flags) d

/-- The exact value of a function of VFN at a finite number, as a sign and a quotient; none where there is none. -/
def vfnExact (f : VFn) (x : F32) : Option (Bool × Nat × Nat) :=
  let v := f32Value x
  let p := placesFor [v]
  match f with
  | .exp2 =>
    let n := v.floor
    let r := (exp2At p ((v.add { m := -n, e := 0 }).at p)).toNat
    some (false, r * 2 ^ n.toNat, 2 ^ p * 2 ^ (-n).toNat)
  | .log2 =>
    if v.m ≤ 0 then none
    else
      let k := v.e + (v.m.natAbs.log2 : Int)
      let y := k * (2 ^ p : Nat) + log2At p ((v.scale (-k)).at p)
      some (decide (y < 0), y.natAbs, 2 ^ p)
  | .recip => if v.m = 0 then none else some (decide (v.m < 0), 2 ^ (-v.e).toNat, v.m.natAbs * 2 ^ v.e.toNat)
  | .rsqrt =>
    if v.m ≤ 0 then none
    else
      let odd := v.e % 2 = 1
      let a := if odd then 2 * v.m.natAbs else v.m.natAbs
      let e := (if odd then v.e - 1 else v.e) / 2
      let s := isqrt (2 ^ 512 / a)
      let t := if s * s * a = 2 ^ 512 then 2 * s else 2 * s + 1
      some (false, t * 2 ^ (-e).toNat, 2 ^ 257 * 2 ^ e.toNat)

/-- The ulps within which VFN's results lie (R198). -/
def vfnUlps : VFn → Nat
  | .exp2 | .log2 => 2
  | .recip | .rsqrt => 1

/-- A result of VFN within its ulps of an exact value (R198); which one is open. -/
def vfnNear (f : VFn) (x : F32) (neg : Bool) (num den : Nat) : F32 :=
  let lo := Rounding.down.magnitude 8 23 neg num den
  let exact := lo = Rounding.up.magnitude 8 23 neg num den
  let n := vfnUlps f
  let below := if exact then n else n - 1
  let r := lo + Config.vfnStep f x % (below + n + 1) - below
  BitVec.ofNat 32 ((if neg then 0x80000000 else 0) + min 0x7F800000 r)

/-- A function of VFN (R198, R217): exp2 is +0 at or below −150 and +inf at or above 128, a NaN gives a NaN, and where there is no
exact value the result is not stated. -/
def vfnOf (f : VFn) (x : F32) : FRes :=
  if f32IsNaN x then { v := f32NaN }
  else if decide (f = .exp2) && f32Le x 0xC3160000 then { v := 0 }
  else if decide (f = .exp2) && f32Le 0x43000000 x then { v := 0x7F800000, ovf := f32Finite x }
  else match f32Finite x, vfnExact f x with
    | true, some q =>
      let r := vfnNear f x q.1 q.2.1 q.2.2
      { v := r, ovf := !f32Finite r }
    | _, _ =>
      let r := Config.vfn f x
      if f32IsNaN r then { v := f32NaN, invalid := true } else { v := r }

/-- exp2 of a lane (R198). -/
def exp2Of (x : F32) : FRes := vfnOf .exp2 x

/-- VFN (R198). -/
def vfn (cl : Fin 132) (co : Fin 64) (vd va : Fin 32) (f : VFn) (d : Dev) : Dev :=
  coreOp cl co (fun c => c.setRes vd.val (fun i => vfnOf f (c.lane va.val i))) d

/-! ### The online-softmax group (R199) -/

/-- exp2((x − m) × c), a rounding at each step (R199). -/
def expDiff (x m scale : F32) : FRes :=
  let s := f32Sub x m
  let p := f32Mul s.v scale
  let e := exp2Of p.v
  { v := e.v, invalid := s.invalid || p.invalid || e.invalid, ovf := s.ovf || p.ovf || e.ovf }

/-- SMAX (R199). -/
def smax (cl : Fin 132) (co : Fin 64) (vd vs : Fin 32) (n : Nat) (d : Dev) : Dev :=
  coreOp cl co (fun c => c.setVec vd.val (fun i =>
    (List.range n).foldl (fun m j => f32Max m (c.lane (vs.val + j) i)) (c.lane vd.val i))) d

/-- The rescale factor of a row from its old to its new maximum (R199): 1 where every score so far is masked. -/
def rescale (old new scale : F32) : FRes := if new = f32NegInf then { v := 0x3F800000 } else expDiff old new scale

/-- SRSC (R199). -/
def srsc (cl : Fin 132) (co : Fin 64) (va vm vd vl : Fin 32) (d : Dev) : Dev :=
  coreOp cl co (fun c =>
    let r (i : Nat) : FRes := rescale (c.lane vm.val i) (c.lane vd.val i) c.cscale
    let l (i : Nat) : FRes := f32Mul (c.lane vl.val i) (r i).v
    ((c.setRes va.val r).setRes vl.val l).setVec vm.val (fun i => c.lane vd.val i)) d

/-- Column j of SEXP: the exponentials, and the sums with them added. -/
def sexpColumn (vs vm vl : Nat) (c : CoreState) (j : Nat) : CoreState :=
  let e (i : Nat) : FRes :=
    if c.lane vm i = f32NegInf then { v := 0 } else expDiff (c.lane (vs + j) i) (c.lane vm i) c.cscale
  let s (i : Nat) : FRes := f32Add (c.lane vl i) (e i).v
  (c.setRes (vs + j) e).setRes vl s

/-- SEXP (R199). -/
def sexp (cl : Fin 132) (co : Fin 64) (vs vm vl : Fin 32) (n : Nat) (d : Dev) : Dev :=
  coreOp cl co (fun c => (List.range n).foldl (sexpColumn vs.val vm.val vl.val) c) d

/-- SMRG (R199): merges the state in (Vs, Vs + 1) with that in (Vd, Vd + 1). -/
def smrg (cl : Fin 132) (co : Fin 64) (vd vs : Fin 32) (d : Dev) : Dev :=
  coreOp cl co (fun c =>
    let m (i : Nat) : F32 := f32Max (c.lane vs.val i) (c.lane vd.val i)
    let a1 (i : Nat) : FRes := rescale (c.lane vs.val i) (m i) c.cscale
    let a2 (i : Nat) : FRes := rescale (c.lane vd.val i) (m i) c.cscale
    let p1 (i : Nat) : FRes := f32Mul (a1 i).v (c.lane (vs.val + 1) i)
    let p2 (i : Nat) : FRes := f32Mul (a2 i).v (c.lane (vd.val + 1) i)
    let l (i : Nat) : FRes :=
      let s := f32Add (p1 i).v (p2 i).v
      { s with invalid := s.invalid || (p1 i).invalid || (p2 i).invalid, ovf := s.ovf || (p1 i).ovf || (p2 i).ovf }
    (((c.setVec vd.val m).setRes (vd.val + 1) l).setRes vs.val a1).setRes (vs.val + 1) a2) d

/-! ### Accumulators (R197, R199, R200) -/

/-- The rows and columns of an accumulator. -/
def cells : List (Nat × Nat) := (List.range 16).flatMap (fun r => (List.range 8).map (fun k => (r, k)))

/-- ACCZ (R200): SUB 0 tags INT32, 1 tags FP32. -/
def accz (cl : Fin 132) (co : Fin 64) (a : Fin 8) (fp : Bool) (d : Dev) : Dev :=
  coreOp cl co (fun c =>
    let c := { c with accFp := bput false a.val fp c.accFp }
    cells.foldl (fun c e => c.setAcc a.val e.1 e.2 0) c) d

/-- ACCRD (R200). -/
def accrd (cl : Fin 132) (co : Fin 64) (v : Fin 32) (a col : Fin 8) (d : Dev) : Dev :=
  coreOp cl co (fun c => c.setVec v.val (fun i => c.accAt a.val i col.val)) d

/-- ACCWR (R200). -/
def accwr (cl : Fin 132) (co : Fin 64) (a : Fin 8) (v : Fin 32) (col : Fin 8) (d : Dev) : Dev :=
  coreOp cl co (fun c => lanes.foldl (fun s i => s.setAcc a.val i col.val (c.lane v.val i)) c) d

/-- An accumulator word in the format that an instruction works in. -/
def CoreState.accIn (c : CoreState) (fp : Bool) (a r k : Nat) : Word :=
  if c.fpTag a = fp then c.accAt a r k else Config.retag fp (c.accAt a r k)

/-- ACCSCL (R199): row i multiplied by lane i. -/
def accscl (cl : Fin 132) (co : Fin 64) (a : Fin 8) (v : Fin 32) (d : Dev) : Dev :=
  coreOp cl co (fun c =>
    let r (e : Nat × Nat) : FRes := f32Mul (c.accIn true a.val e.1 e.2) (c.lane v.val e.1)
    let s := cells.foldl (fun s e => (s.setAcc a.val e.1 e.2 (r e).v).flag (r e).flags) c
    { s with accFp := bput false a.val true s.accFp }) d

/-- The operand formats of an FMT (R197) and whether the accumulator is FP32; `subA` and `subB` are the element
sub-formats of the operands' tensor descriptors: E5M2, or E3M2 for MXFP6. None for a pair that is not listed. -/
def fmtPair (fmt : BitVec 6) (subA subB : Bool) : Option (Format × Format × Bool) :=
  let fp8 (b : Bool) : Format := if b then .fp8e5m2 else .fp8e4m3
  let mx8 (b : Bool) : Format := if b then .mxfp8e5m2 else .mxfp8e4m3
  let mx6 (b : Bool) : Format := if b then .mxfp6e3m2 else .mxfp6e2m3
  if fmt.toNat % 16 = 4 then some (fp8 (fmt.getLsbD 4), fp8 (fmt.getLsbD 5), true)
  else match fmt.toNat with
    | 0 => some (.int8, .int8, false)
    | 1 => some (.int8, .int4, false)
    | 2 => some (.int4, .int4, false)
    | 3 => some (.mxint8, .mxint8, true)
    | 5 => some (mx8 subA, mx8 subB, true)
    | 6 => some (mx8 subA, mx6 subB, true)
    | 7 => some (mx8 subA, .mxfp4, true)
    | 8 => some (mx6 subA, mx6 subB, true)
    | 9 => some (mx6 subA, .mxfp4, true)
    | 10 => some (.mxfp4, .mxfp4, true)
    | 11 => some (.bf16, .bf16, true)
    | 12 => some (.fp16, .fp16, true)
    | _ => none

/-- The bytes from one row of an operand to the next. -/
def rowStride (f : Format) (k : Nat) : Nat := (rowBytes f k + 7) / 8 * 8

/-- An operand row of MMA: its format, packed address and length. -/
structure OpRow where
  fmt : Format
  at_ : Nat

/-- Element k of an operand row. -/
def Dev.rowElem (d : Dev) (o : OpRow) (k : Nat) : FpNum := o.fmt.num (d.elem o.fmt o.at_ k)

/-- The unbiased exponent of the block of element k (R212, R213): none under a NaN scale, 0 for a format without
blocks; the 2^−6 of MXINT8 is included. -/
def Dev.rowScale (d : Dev) (o : OpRow) (k : Nat) : Option Int :=
  if o.fmt.block then
    let s := d.scale o.fmt o.at_ k
    if s = 0xFF then none else some ((s : Int) - 127 - (if o.fmt = .mxint8 then 6 else 0))
  else some 0

/-- An accumulator word with its flags so far. -/
structure AccRes where
  v : Word
  flags : BitVec 8 := 0

/-- A NaN element among two. -/
def nanIn (a b : FpNum) : Bool := decide (a = .nan) || decide (b = .nan)

/-- One group of up to 32 K-steps into an accumulator word (R213, R214). -/
def mmaGroup (d : Dev) (a b : OpRow) (fp : Bool) (k0 n : Nat) (s : AccRes) : AccRes :=
  let pairs := (List.range n).map (fun i => (d.rowElem a (k0 + i), d.rowElem b (k0 + i)))
  let g := pairs.foldl (fun (g : GroupSum) p => g.push p.1 p.2) {}
  if fp then
    let nan := nswIf (pairs.any (fun p => nanIn p.1 p.2)) nswNanIn
    match d.rowScale a k0, d.rowScale b k0 with
    | some x, some y =>
      let r : FRes := match g.value with
        | some v => if f32IsNaN s.v then { v := f32NaN } else f32Result ((f32Num s.v).add (v.scale (x + y)))
        | none => { v := f32NaN, invalid := true }
      { v := r.v, flags := s.flags ||| r.flags ||| nan }
    | _, _ =>
      { v := f32NaN,
        flags := s.flags ||| nswNanIn ||| nswIf (g.invalid || (g.posInf && g.negInf)) nswInvalid }
  else
    let x := s.v.toInt + g.sum.nearest false
    if x < -2147483648 then { v := 0x80000000, flags := s.flags ||| nswIntSat }
    else if 2147483647 < x then { v := 0x7FFFFFFF, flags := s.flags ||| nswIntSat }
    else { v := BitVec.ofInt 32 x, flags := s.flags }

/-- FMT 11 and 12: each product is added with one rounding, in increasing K order (R213). -/
def mmaStep (d : Dev) (a b : OpRow) (s : AccRes) (k : Nat) : AccRes :=
  let x := d.rowElem a k
  let y := d.rowElem b k
  let r : FRes := match x.mul y with
    | none => { v := f32NaN, invalid := true }
    | some p => if f32IsNaN s.v then { v := f32NaN } else f32Result ((f32Num s.v).add p)
  { v := r.v, flags := s.flags ||| r.flags ||| nswIf (nanIn x y) nswNanIn }

/-- One accumulator word after K steps (R213). -/
def mmaCell (d : Dev) (a b : OpRow) (fp : Bool) (k : Nat) (v : Word) : AccRes :=
  if a.fmt = .bf16 || a.fmt = .fp16 then (List.range k).foldl (mmaStep d a b) { v := v }
  else (List.range ((k + 31) / 32)).foldl (fun s g => mmaGroup d a b fp (32 * g) (min 32 (k - 32 * g)) s) { v := v }

/-- MMA on a core whose operands lie at packed addresses pa and pb (R197, R213). -/
def mmaCore (d : Dev) (acc : Nat) (fa fb : Format) (fp : Bool) (pa pb k : Nat) (c : CoreState) : CoreState :=
  let r (e : Nat × Nat) : AccRes :=
    mmaCell d { fmt := fa, at_ := pa + e.1 * rowStride fa k } { fmt := fb, at_ := pb + e.2 * rowStride fb k } fp k
      (c.accIn fp acc e.1 e.2)
  let s := cells.foldl (fun s e => (s.setAcc acc e.1 e.2 (r e).v).flag (r e).flags) c
  { s with accFp := bput false acc fp s.accFp }

/-- MMA (R197, R213, R214): none where the core addresses no memory for an operand. A pair that is not listed sets INVALID
and leaves the accumulator, and so does K ≤ 0 without it. -/
def mma (cl : Fin 132) (co : Fin 64) (acc : Fin 8) (xa xb xk : Fin 16) (fmt : BitVec 6) (subA subB : Bool) (ecc : Ecc)
    (d : Dev) : Option Dev :=
  if d.coreRuns cl.val co.val then
    let q := coreKey cl.val co.val
    let c := d.core q
    match fmtPair fmt subA subB with
    | none => some (d.setCore q (c.flag nswInvalid).next)
    | some (fa, fb, fp) =>
      if (c.xr xk).toInt ≤ 0 then some (d.setCore q c.next)
      else
        let k := (c.xr xk).toNat
        match coreRange cl.val co.val (c.xr xa).toNat (16 * rowStride fa k),
              coreRange cl.val co.val (c.xr xb).toNat (8 * rowStride fb k) with
        | some pa, some pb =>
          some (eccRead cl.val c.window ecc (d.setCore q (mmaCore d acc.val fa fb fp pa pb k c).next))
        | _, _ => none
  else some d

end Sys2Proof.Machine
end

