-- ==== Sys2Proof/Machine/Clusters.lean ====
section
/-!
DEFINITION. The clusters: tallies and waits, reduce-adds, the DMA engines with Twill, the scrubber, and the ends of a
core's window (spec/09_compute_fabric.md R200, R203 to R207, R211, R218, R219; spec/10_twill_layout.md R230 to R236).
-/

namespace Sys2Proof.Machine

open Sys2Proof

/-- BAR0 offset of a cluster's Twill block (R236). -/
def barTwl (cl : Nat) : Nat := barTsq + 0x1A00 + 0x10 * cl

/-- Every core of a cluster. -/
def coresOf (cl : Nat) : List Nat := (List.range 64).map (coreKey cl)

/-- The core's program or its window runs under fixed-order mode (R219); a golden visit does (R220). -/
def Dev.fixedOrder (d : Dev) (cl co : Nat) : Bool :=
  decide ((d.cluster cl).state = .golden) ||
  match (d.core (coreKey cl co)).window with
  | some key =>
    let k := winOfKey key
    match d.windowRec k.1 k.2.1 k.2.2 with
    | some r => r.fixedOrder ||
        (match r.program with
        | some p => match assoc p (d.imageAt k.2.1).programs with | some x => x.fixedOrder | none => false
        | none => false)
    | none => false
  | none => false

/-! ### Reduce-adds (R204, R219) -/

/-- One addition by the bank adder into the word at a packed address (R204, R217). -/
def bankAdd (a : Nat) (v : F32) (d : Dev) : Dev :=
  setBytes a (leBytes 4 (f32Add (BitVec.ofNat 32 (d.readLe a 4)) v).v.toNat) d

/-- A buffered sum placed after those of its source and of the sources before it. -/
def insertHeld (x : HeldAdd) : List HeldAdd → List HeldAdd
  | [] => [x]
  | y :: rest => if x.source < y.source then x :: y :: rest else y :: insertHeld x rest

/-- Buffered reduce-adds in source order, each source's in its own order (R219). -/
def sortHeld (l : List HeldAdd) : List HeldAdd := l.foldl (fun acc x => insertHeld x acc) []

/-- What a cluster's banks hold back for a window is applied in source order (R219). -/
def drainCluster (window : Option Nat) (d : Dev) (cl : Nat) : Dev :=
  let held := (d.cluster cl).held
  (sortHeld (held.filter (fun x => decide (x.window = window)))).foldl (fun d x => bankAdd x.key x.value d)
    (d.modCluster cl (fun c => { c with held := held.filter (fun x => decide (x.window ≠ window)) }))

/-- A tally barrier of a window: its buffered reduce-adds are applied, in whichever cluster's banks they are held (R219). -/
def drain (window : Option Nat) (d : Dev) : Dev := (d.fabric.clusters.map (·.1)).foldl (drainCluster window) d

/-- A reduce-add into cluster cl's SRAM from a source of the order of R219: applied, or buffered in fixed-order mode for the
window it belongs to. -/
def reduceAdd (fixed : Bool) (window : Option Nat) (cl source a : Nat) (v : F32) (d : Dev) : Dev :=
  if fixed then
    d.modCluster cl (fun c => { c with held := c.held ++ [{ window := window, source := source, key := a, value := v }] })
  else bankAdd a v d

/-- RADD (R200, R204): the selected lanes into the words of the cluster's SRAM from X on; none where X addresses
none. `ecc` is what SEC-DED found in the words that the adder read (R207). -/
def radd (cl : Fin 132) (co : Fin 64) (x : Fin 16) (v : Fin 32) (m : Fin 16) (ecc : Ecc) (d : Dev) : Option Dev :=
  if d.coreRuns cl.val co.val then
    let q := coreKey cl.val co.val
    let c := d.core q
    let a := (c.xr x).toNat
    let fixed := d.fixedOrder cl.val co.val
    if a < 0x100_0000 then none
    else (lanePlaces cl.val co.val a (c.xr m)).map (fun ps =>
      eccRead cl.val c.window ecc (ps.foldl (fun d e => reduceAdd fixed c.window cl.val co.val e.2 (c.lane v.val e.1) d)
        (d.setCore q c.next)))
  else some d

/-! ### Tallies (R206) -/

/-- Tally t of a cluster. -/
def Dev.tally (d : Dev) (cl t : Nat) : Nat := (bget 0 t (d.cluster cl).tallies).toNat

/-- A core that waits on a tally goes on where its wait is met; the barrier drains its window's buffers (R206, R219). -/
def wakeTally (cl : Nat) (d : Dev) (q : Nat) : Dev :=
  let c := d.core q
  match c.run with
  | .waiting (.tally t n) =>
    if n ≤ d.tally cl t then drain c.window (d.setCore q { c.next with run := .ready }) else d
  | _ => d

/-- One increment of a tally (R206): at 0xFFFF it is ignored and sets TALLY_SAT, which the cluster's cores collect. -/
def incTally (cl t : Nat) (d : Dev) : Dev :=
  if 256 ≤ t then d
  else
    let c := d.cluster cl
    let v := bget 0 t c.tallies
    if v = 0xFFFF then
      (coresOf cl).foldl (fun d q => d.setCore q ((d.core q).flag nswTallySat)) (d.setCluster cl { c with tallySat := true })
    else
      let d := d.setCluster cl { c with tallies := bput 0 t (v + 1) c.tallies }
      (coresOf cl).foldl (wakeTally cl) d

/-- WTALLY (R200, R206). -/
def wtally (cl : Fin 132) (co : Fin 64) (t : Fin 256) (imm : Word) (d : Dev) : Dev :=
  if d.coreRuns cl.val co.val then
    let q := coreKey cl.val co.val
    let c := d.core q
    if imm.toNat ≤ d.tally cl.val t.val then drain c.window (d.setCore q c.next)
    else d.setCore q { c with run := .waiting (.tally t.val imm.toNat) }
  else d

/-- The cluster that SIGNAL's X names: bits 22 to 16 the cluster, bits 26 to 24 the die (R200). -/
def signalTarget (x : Word) : Option Nat :=
  let cl := x.toNat / 2 ^ 16 % 128
  let die := x.toNat / 2 ^ 24 % 8
  if die < 4 && cl < 32 then some (32 * die + cl) else if die = 6 && cl < 4 then some (128 + cl) else none

/-- SIGNAL (R200, R206). -/
def signalOp (cl : Fin 132) (co : Fin 64) (x : Fin 16) (d : Dev) : Dev :=
  if d.coreRuns cl.val co.val then
    let q := coreKey cl.val co.val
    let c := d.core q
    let d := d.setCore q c.next
    match signalTarget (c.xr x) with
    | some target => incTally target ((c.xr x).toNat % 65536) d
    | none => d
  else d

/-! ### Windows on cores (R200, R218, R248, R250) -/

/-- WSTART (R200): the core waits until the Tick Sequencer releases window IMM; one already released to it is taken. -/
def wstart (cl : Fin 132) (co : Fin 64) (imm : Word) (d : Dev) : Dev :=
  if d.coreRuns cl.val co.val then
    let q := coreKey cl.val co.val
    let c := d.core q
    match c.window with
    | some key => if key % 65536 = imm.toNat then d.setCore q c.next
                  else d.setCore q { c with run := .waiting (.window imm.toNat) }
    | none => d.setCore q { c with run := .waiting (.window imm.toNat) }
  else d

/-- A window ends at its planned end whatever its cores do: a HOST window (R357). -/
def Dev.endsOnTime (d : Dev) (src : Source) (tick w : Nat) : Bool :=
  match d.windowRec src tick w with | some r => decide (r.kind = .host) | none => false

/-- A core has executed END in a window: the last core of it ends the window (R200, R248). -/
def leaveWindow (q key : Nat) (invalid : Bool) (d : Dev) : Dev :=
  let k := winOfKey key
  let s := d.win k.1 k.2.1 k.2.2
  let rest := s.active.filter (fun x => x ≠ q)
  let s := { s with active := rest, invalid := s.invalid || invalid }
  let done := rest.isEmpty && s.phase = .running && !d.endsOnTime k.1 k.2.1 k.2.2
  let s := if done then { s with phase := .ended } else s
  d.setWin k.1 k.2.1 k.2.2 s

/-- END (R200, R218): the core is idle until its next window. -/
def endOp (cl : Fin 132) (co : Fin 64) (d : Dev) : Dev :=
  if d.coreRuns cl.val co.val then
    let q := coreKey cl.val co.val
    let c := d.core q
    let d := d.setCore q { c.next with window := none, run := .stopped }
    match c.window with
    | some key =>
      let k := winOfKey key
      closeFlags k.1 k.2.1 (leaveWindow q key (c.nsw.getLsbD 0) (noteFlags k.2.1 d q)) cl.val
    | none => d
  else d

/-- The count of R250 for a group whose window expired in a tick, and the partition's restart at the third. -/
def countExpiry (tick g : Nat) (r : GroupRec) (d : Dev) : Dev :=
  let p := d.plan
  let last := bget 0 g p.groupTick
  let run := if last = tick + 1 then bget 0 g p.groupRun
             else if last = tick then bget 0 g p.groupRun + 1 else 1
  let again := 3 ≤ run
  let d := { d with plan := { p with groupRun := bput 0 g (if again then 0 else run) p.groupRun,
                                     groupTick := bput 0 g (tick + 1) p.groupTick } }
  if again then restartPartition r.die r.part causeWatchdog true d else d

/-- A window on cores overruns (R248, R250): counted and marked missing; the main plan's groups count, and Burlap's
overrun is a class V fault (R246). -/
def overrun (src : Source) (tick w : Nat) (r : WindowRec) (d : Dev) : Dev :=
  let c := d.plan.wdg.inc
  let d := satEvent (barTsq + 0x118) d.plan.wdg c { d with plan := { d.plan with wdg := c } }
  let s := d.win src tick w
  let d := miss .overrun src tick w (d.setWin src tick w { s with expired := true })
  match src with
  | .burlap => raiseV 0x0005 6 r.target w false 0 d
  | .main => match d.groupOf .main tick r with
    | some g => countExpiry tick r.target g d
    | none => d

/-- UNDEFINED_OPCODE (R200): the program stops, INVALID is set, and the owning work overruns. -/
def undefinedOpcode (cl : Fin 132) (co : Fin 64) (d : Dev) : Dev :=
  if d.coreRuns cl.val co.val then
    let q := coreKey cl.val co.val
    let c := d.core q
    let d := d.setCore q { c.flag nswInvalid with run := .stopped }
    match c.window with
    | some key =>
      let k := winOfKey key
      match d.windowRec k.1 k.2.1 k.2.2 with
      | some r => overrun k.1 k.2.1 k.2.2 r d
      | none => d
    | none => d
  else d

/-! ### Transfers (R230 to R235) -/

/-- A signed 32-bit field. -/
def sgn32 (v : Nat) : Int := (BitVec.ofNat 32 v).toInt

/-- A transfer descriptor as it lies in cluster SRAM (R230). -/
def Dev.readTransfer (d : Dev) (a : Nat) : TransferDesc :=
  let w (off : Nat) : Nat := d.readLe (a + off) 4
  let w0 := w 0
  let w1 := w 4
  let halo := w 0x38
  { src := w0 % 65536, dst := w0 / 65536, op := w1 % 4, srcCount := w1 / 4 % 4, haloReplicate := decide (w1 / 16 % 2 = 1),
    tallyEn := decide (w1 / 32 % 2 = 1), tally := w1 / 256 % 256,
    srcOrg := (List.range 4).map (fun i => sgn32 (w (0x08 + 4 * i))),
    dstOrg := (List.range 4).map (fun i => w (0x18 + 4 * i)),
    ext := (List.range 4).map (fun i => w (0x28 + 4 * i)),
    haloLo := (List.range 4).map (fun i => halo / 2 ^ (8 * i) % 16),
    haloHi := (List.range 4).map (fun i => halo / 2 ^ (8 * i + 4) % 16),
    src2 := w 0x3C % 65536, src3 := w 0x3C / 65536 }

/-- The size of the read region in dimension i, in source order (R230, R231). -/
def readSize (t : TransferDesc) (s : Tensor) (i : Nat) : Nat :=
  if i < 4 then t.ext.getD i 1 + t.haloLo.getD i 0 + t.haloHi.getD i 0 else s.ext i

/-- The first read position in dimension i. -/
def readOrg (t : TransferDesc) (i : Nat) : Int :=
  if i < 4 then t.srcOrg.getD i 0 - (t.haloLo.getD i 0 : Nat) else 0

/-- The origin in the destination in dimension i. -/
def dstOrgOf (t : TransferDesc) (i : Nat) : Nat := if i < 4 then t.dstOrg.getD i 0 else 0

/-- The source dimension that lands in destination dimension i (R233). -/
def dstDim (t : TransferDesc) (i : Nat) : Nat := if t.op = 1 then (if i = 0 then 1 else if i = 1 then 0 else i) else i

/-- Every index of the six dimensions. -/
def dims : List Nat := [0, 1, 2, 3, 4, 5]

/-- The sources of a transfer (R230, R234). -/
def sourceIdx (t : TransferDesc) : List Nat :=
  if t.op = 2 then ([t.src, t.src2, t.src3]).take t.srcCount else [t.src]

/-- A read region starts or ends more than 15 elements outside the source (R235). -/
def readOutside (t : TransferDesc) (s : Tensor) : Bool :=
  [0, 1, 2, 3].any (fun i => decide (readOrg t i < -15) ||
    decide ((s.ext i : Int) + 15 < readOrg t i + readSize t s i))

/-- The destination slice exceeds the destination's extents (R235). -/
def dstOutside (t : TransferDesc) (s dst : Tensor) : Bool :=
  dims.any (fun i => decide (dst.ext i < dstOrgOf t i + readSize t s (dstDim t i)))

/-- The formats are not permitted for the operation (R234, R235): Twill converts nothing, and ADD adds FP32 into cluster
SRAM. -/
def formatBad (t : TransferDesc) (ss : List Tensor) (dst : Tensor) : Bool :=
  match t.op with
  | 0 | 1 => ss.any (fun s => decide (s.format ≠ dst.format))
  | 2 => decide (t.srcCount = 0) || ss.any (fun s => decide (s.format ≠ .fp32)) || decide (dst.format ≠ .fp32) ||
      decide (dst.space ≠ .cluster)
  | _ => true

/-- A block format's dimension-0 origin, extent or halo is no multiple of 32 (R231). -/
def blockMisaligned (t : TransferDesc) : Bool :=
  decide (t.srcOrg.getD 0 0 % 32 ≠ 0) || decide (t.dstOrg.getD 0 0 % 32 ≠ 0) || decide (t.ext.getD 0 0 % 32 ≠ 0) ||
  decide (t.haloLo.getD 0 0 % 32 ≠ 0) || decide (t.haloHi.getD 0 0 % 32 ≠ 0)

/-- Why a transfer is refused, as LAST_ERR codes it (R235, R236), in the order of R235. -/
def transferError (ts : List Tensor) (t : TransferDesc) : Option Nat :=
  match (sourceIdx t).mapM (tensorOf ts), tensorOf ts t.dst with
  | some ss, some dst =>
    if ss.any (readOutside t) then some 2
    else if ss.any (fun s => dstOutside t s dst) then some 3
    else if formatBad t ss dst then some 4
    else if dst.format.block && blockMisaligned t then some 5
    else if dst.format.block && t.op = 1 then some 6
    else none
  | _, _ => some 1

/-- The positions of a region of given sizes, dimension 0 fastest. -/
def positions : List Nat → List (List Nat)
  | [] => [[]]
  | n :: rest => (positions rest).flatMap (fun p => (List.range n).map (fun i => i :: p))

/-- An index clamped to an extent. -/
def clampIdx (i : Int) (n : Nat) : Nat := if i < 0 then 0 else min i.toNat (n - 1)

/-- Index 0 clamped to the nearest block of a block format, keeping the element's place in it (R231). -/
def clampBlock (i : Int) (n : Nat) : Nat := clampIdx (i / 32) ((n + 31) / 32) * 32 + (i % 32).toNat

/-- The element, and its block's scale, at an index list of a source (R231): read, or synthesised. -/
def Dev.sourceAt (d : Dev) (zeroed : Bool) (t : TransferDesc) (s : Tensor) (idx : List Int) : Nat × Nat :=
  let inside := dims.all (fun i => decide (0 ≤ idx.getD i 0) && decide (idx.getD i 0 < s.ext i))
  if zeroed || (!inside && !t.haloReplicate) then (0, 0x7F)
  else
    let at_ (i : Nat) : Nat :=
      if i = 0 && s.format.block then clampBlock (idx.getD 0 0) (s.ext 0) else clampIdx (idx.getD i 0) (s.ext i)
    let row := s.row (dims.map at_)
    (d.elem s.format row (at_ 0), if s.format.block then d.scale s.format row (at_ 0) else 0)

/-- One write of a COPY or TRANSPOSE (R231 to R233): the element at a position of the read region, with the scale byte
of the block it begins. Reads see memory as it was, `old`. -/
def moveElem (old : Dev) (zeroed : Bool) (t : TransferDesc) (s dst : Tensor) (p : List Nat) (d : Dev) : Dev :=
  let v := old.sourceAt zeroed t s (dims.map (fun i => readOrg t i + (p.getD i 0 : Nat)))
  let at_ (i : Nat) : Nat := dstOrgOf t i + p.getD (dstDim t i) 0
  let row := dst.row (dims.map at_)
  let d := setElem dst.format row (at_ 0) v.1 d
  if dst.format.block && at_ 0 % 32 = 0 then setScale dst.format row (at_ 0) v.2 d else d

/-- One write of an ADD (R234). -/
def addElem (old : Dev) (zeroed fixed : Bool) (window : Option Nat) (source : Nat) (t : TransferDesc) (s dst : Tensor) (p : List Nat) (d : Dev) :
    Dev :=
  let v := old.sourceAt zeroed t s (dims.map (fun i => readOrg t i + (p.getD i 0 : Nat)))
  let at_ (i : Nat) : Nat := dstOrgOf t i + p.getD i 0
  let row := dst.row (dims.map at_)
  reduceAdd fixed window (clusterOf dst.die dst.cluster) source (row + (elemPlace .fp32 (at_ 0)).1) (BitVec.ofNat 32 v.1) d

/-- What a transfer's writes need to know beside its descriptor: the cluster and core that issued it, the sources that
read as zeros (R249), fixed-order mode. -/
structure MoveCtx where
  cl : Nat
  co : Nat
  zeroed : List Nat
  fixed : Bool
  window : Option Nat

/-- The place of a cluster's DMA engine in the source order of R219 for a destination cluster. -/
def dmaSource (m : MoveCtx) (dst : Tensor) : Nat :=
  if clusterOf dst.die dst.cluster = m.cl then 64 else 65 + 64 * m.cl + m.co

/-- The tensor covers a memory-side die's Damask command port, which is no memory (R271). -/
def commandPort (t : Tensor) : Bool :=
  decide (t.space = .memSide) && decide (0x4000_0000 ≤ t.addr) && decide (t.addr < 0x4001_0000)

/-- The writes of a transfer, those that `keep` selects by number (R231 to R235). Records written to a command port are
commands of their own. -/
def moveData (m : MoveCtx) (ts : List Tensor) (t : TransferDesc) (keep : Nat → Bool) (d : Dev) : Dev :=
  match tensorOf ts t.dst with
  | none => d
  | some dst =>
    if commandPort dst then d else
    (sourceIdx t).foldl (fun d i =>
      match tensorOf ts i with
      | none => d
      | some s =>
        let z := m.zeroed.contains i
        let old := d
        ((positions (dims.map (readSize t s))).zipIdx).foldl (fun d p =>
          if !keep p.2 then d
          else if t.op = 2 then addElem old z m.fixed m.window (dmaSource m dst) t s dst p.1 d
          else moveElem old z t s dst p.1 d) d) d

/-- The descriptor table that a core's transfers refer to (R223): of its window's tick, else of the tick in progress. -/
def Dev.tableOf (d : Dev) (cl : Nat) (window : Option Nat) : List Tensor :=
  match window with
  | some key => d.descsAt (winOfKey key).1 (winOfKey key).2.1
  | none => if cl < 128 then d.descsAt .main d.time.k else d.descsAt .burlap d.time.k

/-- The outstanding transfers of a core (R205). -/
def Dev.outstanding (d : Dev) (cl co : Nat) : Nat :=
  ((d.cluster cl).dma.filter (fun t => t.core = co)).length

/-- Queue a descriptor (R205). -/
def enqueue (cl co a : Nat) (d : Dev) : Dev :=
  let x : Transfer := { core := co, addr := a, window := (d.core (coreKey cl co)).window, fixed := d.fixedOrder cl co,
                        started := none }
  d.modCluster cl (fun c => { c with dma := c.dma ++ [x] })

/-- A core that waits for its transfers goes on where its wait is met (R200). -/
def wakeDma (cl co : Nat) (d : Dev) : Dev :=
  let q := coreKey cl co
  let c := d.core q
  match c.run with
  | .waiting (.dma n) => if d.outstanding cl co ≤ n then d.setCore q { c.next with run := .ready } else d
  | .waiting (.dmaQueue a) =>
    if d.outstanding cl co < 8 then enqueue cl co a (d.setCore q { c.next with run := .ready }) else d
  | _ => d

/-- DMAQ (R200, R205, R230): none where X is no 8-byte-aligned address of a descriptor in the cluster's SRAM. -/
def dmaq (cl : Fin 132) (co : Fin 64) (x : Fin 16) (d : Dev) : Option Dev :=
  if d.coreRuns cl.val co.val then
    let q := coreKey cl.val co.val
    let c := d.core q
    let a := (c.xr x).toNat
    if a % 8 ≠ 0 || a < 0x100_0000 then none
    else (coreRange cl.val co.val a 0x40).map (fun p =>
      if d.outstanding cl.val co.val < 8 then enqueue cl.val co.val p (d.setCore q c.next)
      else d.setCore q { c with run := .waiting (.dmaQueue p) })
  else some d

/-- DMAW (R200). -/
def dmaw (cl : Fin 132) (co : Fin 64) (imm : Word) (d : Dev) : Dev :=
  if d.coreRuns cl.val co.val then
    let q := coreKey cl.val co.val
    let c := d.core q
    if d.outstanding cl.val co.val ≤ imm.toNat then d.setCore q c.next
    else d.setCore q { c with run := .waiting (.dma imm.toNat) }
  else d

/-- The list without its n-th entry. -/
def dropNth {α : Type} : Nat → List α → List α
  | _, [] => []
  | 0, _ :: rest => rest
  | n + 1, x :: rest => x :: dropNth n rest

/-- The list with its n-th entry replaced. -/
def setNth {α : Type} : Nat → α → List α → List α
  | _, _, [] => []
  | 0, y, _ :: rest => y :: rest
  | n + 1, y, x :: rest => x :: setNth n y rest

/-- The engine lets the n-th of its transfers go. -/
def releaseTransfer (cl n : Nat) (co : Nat) (d : Dev) : Dev :=
  wakeDma cl co (d.modCluster cl (fun c => { c with dma := dropNth n c.dma }))

/-- The window of a key is marked missing for a transfer of its own. -/
def faultKey (key : Option Nat) (d : Dev) : Dev :=
  match key with
  | some k => faultMiss .transfer (winOfKey k).1 (winOfKey k).2.1 (winOfKey k).2.2 d
  | none => d

/-- A refused transfer (R235): nothing is written and no tally counts. -/
def refuseTransfer (cl n : Nat) (x : Transfer) (code : Nat) (d : Dev) : Dev :=
  let q := coreKey cl x.core
  let d := d.setCore q ((d.core q).flag nswInvalid)
  let c := (d.cluster cl).descErr.inc
  let old := (d.cluster cl).descErr
  let d := satEvent (barTwl cl) old c (d.modCluster cl (fun s => { s with descErr := c, lastErr := code }))
  faultKey x.window (releaseTransfer cl n x.core d)

/-- The routers of one die from one to another (R209): along the row, then along the column; router 8 row + column serves the
cluster of that number. -/
def meshRoute (a b : Nat) : List Nat :=
  let ra := a / 8
  let ca := a % 8
  let cb := b % 8
  let row := (List.range (max ca cb - min ca cb)).map (fun i => if ca ≤ cb then ca + i else ca - i)
  let rb := b / 8
  let col := (List.range (max ra rb - min ra rb + 1)).map (fun i => if ra ≤ rb then ra + i else ra - i)
  row.map (fun c => 8 * ra + c) ++ col.map (fun r => 8 * r + cb)

/-- The router by which a transfer that no edge names leaves compute die x for a neighbour (R209). -/
def exitOf (x next router : Nat) : Nat :=
  let col := router % 8 % 4
  if next = 4 then col
  else if next = 5 then 4 + col
  else if next = 6 then 26 + col
  else 8 * (router / 8) + (if next = (x + 1) % 4 then 7 else 0)

/-- The edge of a window's plan that reads a descriptor (R239, R244). -/
def Dev.edgeOf (d : Dev) (window : Option Nat) (desc : Nat) : Option EdgeRec :=
  match window with
  | some key =>
    let k := winOfKey key
    (d.edgesAt k.1 k.2.1).find? (fun e => decide (e.consumer = k.2.2) && decide (e.inputDesc = desc))
  | none => none

/-- The routers that a transfer passes on the die of its source (R209, R239): none of a source outside the compute dies. -/
def Dev.routeOf (d : Dev) (window : Option Nat) (t : TransferDesc) (s dst : Tensor) : List Nat :=
  match s.space with
  | .coreLocal | .cluster =>
    if 4 ≤ s.die then []
    else if dst.die = s.die then meshRoute s.cluster dst.cluster
    else
      let e := d.edgeOf window t.src
      let via := match e.bind (·.viaDie) with | some v => v | none => dst.die
      let out := match e with
        | some e => if e.exitDefault then exitOf s.die via s.cluster else e.exitRouter
        | none => exitOf s.die via s.cluster
      meshRoute s.cluster out
  | _ => []

/-- The place that a tensor of a mesh lies at. -/
def meshPlace (ts : List Tensor) (i : Nat) : Option (Nat × Nat) :=
  match tensorOf ts i with
  | some s => if s.space = .coreLocal || s.space = .cluster then some (s.die, s.cluster) else none
  | none => none

/-- The n-th transfer of an engine arrives (R209): none sent before it goes from the same place of the mesh to the same. -/
def Dev.arrives (d : Dev) (cl n : Nat) (ts : List Tensor) (t : TransferDesc) : Bool :=
  ((d.cluster cl).dma.take n).all (fun y => match y.started with
    | some (u, _, _) =>
      let us := d.tableOf cl y.window
      (meshPlace ts t.src).isNone || (meshPlace ts t.dst).isNone || decide (meshPlace us u.src ≠ meshPlace ts t.src) ||
        decide (meshPlace us u.dst ≠ meshPlace ts t.dst)
    | none => true)

/-- TRANSFER_START (R205, R235): the engine takes its next descriptor in queue order, reads it and checks it. `ecc` is what
SEC-DED found in the descriptor (R207). -/
def transferStart (cl : Fin 132) (ecc : Ecc) (d : Dev) : Dev :=
  match (d.cluster cl.val).dma.findIdx? (fun t => t.started.isNone) with
  | none => d
  | some n =>
    match (d.cluster cl.val).dma[n]? with
    | none => d
    | some x =>
      if ecc = .uncorrectable then eccRead cl.val x.window ecc (releaseTransfer cl.val n x.core d)
      else
        let t := d.readTransfer x.addr
        let d := eccRead cl.val x.window ecc d
        let ts := d.tableOf cl.val x.window
        match transferError ts t, tensorOf ts t.src, tensorOf ts t.dst with
        | some code, _, _ => refuseTransfer cl.val n x code d
        | none, some s, some dst =>
          let y := { x with route := d.routeOf x.window t s dst, started := some (t, d.now, d.time.k) }
          d.modCluster cl.val (fun c => { c with dma := setNth n y c.dma })
        | none, _, _ => refuseTransfer cl.val n x 1 d

/-- The descriptors that a window reads as zeros (R249). -/
def Dev.zeroedOf (d : Dev) (window : Option Nat) : List Nat :=
  match window with
  | some key => (d.win (winOfKey key).1 (winOfKey key).2.1 (winOfKey key).2.2).zeroed
  | none => []

/-- What the writes of a transfer need to know. -/
def Dev.moveCtx (d : Dev) (cl : Nat) (x : Transfer) : MoveCtx :=
  { cl := cl, co := x.core, zeroed := d.zeroedOf x.window, fixed := x.fixed, window := x.window }

/-- The cluster whose tally a transfer counts in (R235). -/
def tallyCluster (cl : Nat) (ts : List Tensor) (t : TransferDesc) : Nat :=
  match tensorOf ts t.dst with
  | some dst => if dst.space = .cluster then clusterOf dst.die dst.cluster else cl
  | none => cl

/-- The cluster whose SRAM a descriptor's tensor lies in (R207). -/
def sramOf (ts : List Tensor) (i : Nat) : Option Nat :=
  match tensorOf ts i with
  | some s => match s.space with
    | .coreLocal | .cluster => some (clusterOf s.die s.cluster)
    | _ => none
  | none => none

/-- The tensors that a transfer reads, in order (R207): its sources, and of an ADD the destination. -/
def readsOf (t : TransferDesc) : List Nat := if t.op = 2 then sourceIdx t ++ [t.dst] else sourceIdx t

/-! ### The scrubber and the links (R207, R211, R426) -/

/-- The lines of a bank: 2,048 of a bank of cluster SRAM, 256 of a bank of a core's local SRAM (R196, R203). -/
def bankLines (bank : Nat) : Nat := if bank < 32 then 2048 else 256

/-- SCRUB_ACCESS (R207): the scrubber reads a bank's next line; banks 0 to 31 are the cluster's, then four of each
core. -/
def scrubAccess (cl : Fin 132) (bank : Fin 288) (ecc : Ecc) (d : Dev) : Dev :=
  match (d.cluster cl.val).state with
  | .running | .golden =>
    let d := d.modCluster cl.val (fun c =>
      { c with scrub := bput 0 bank.val ((bget 0 bank.val c.scrub + 1) % bankLines bank.val) c.scrub })
    eccRead cl.val none ecc d
  | _ => d

/-- Place blobs at the destinations of some placements (R244, R245). -/
def placeWeights (img : Image) (ts : List Tensor) (ws : List WeightRec) (p : Tensor → Bool) (d : Dev) : Dev :=
  ws.foldl (fun d w =>
    match tensorOf ts w.dest, assoc w.blob img.blobs with
    | some t, some b => if p t then setSpan t b.bytes d else d
    | _, _ => d) d

/-- A tensor lies in a cluster: its SRAM or its cores' (R224). -/
def inCluster (cl : Nat) (t : Tensor) : Bool :=
  (decide (t.space = .coreLocal) || decide (t.space = .cluster)) && decide (clusterOf t.die t.cluster = cl)

/-- FLIT_CRC_ERROR (R211): the flit is resent, and the retry count goes to a health record. -/
def flitCrcError (d : Dev) : Dev :=
  let c := d.fabric.flitRetry.inc
  let d := satEvent (Config.barOf 9) d.fabric.flitRetry c { d with fabric := { d.fabric with flitRetry := c } }
  conditionEvent (Config.barOf 9) c.val.toNat d

end Sys2Proof.Machine
end

