-- ==== Sys2Proof/Machine/Loading.lean ====
section
/-!
DEFINITION. What the image places in a cluster, a partition and a die: programs in instruction memory, weights in SRAM,
and the overlays of staged modes (spec/11_tick_plan.md R241, R245, R246, R251; spec/17_image_boot_and_firmware.md
R402, R410; spec/18_recovery_ladder.md R428).
-/

namespace Sys2Proof.Machine

open Sys2Proof

/-! ### Instruction memory (R246) -/

/-- A group holds core co of cluster cl. -/
def groupHolds (src : Source) (g : GroupRec) (cl co : Nat) : Bool := (groupClusters src g).contains cl && g.cores.contains co

/-- Some window of a list, of a kind that satisfies `p`, runs on core co of cluster cl. -/
def coreIn (src : Source) (gs : List GroupRec) (ws : List WindowRec) (p : WindowRec → Bool) (cl co : Nat) : Bool :=
  ws.any (fun r => p r && (match gs[r.target]? with | some g => groupHolds src g cl co | none => false))

/-- A CORE window of a list runs program q on core co of cluster cl. -/
def runsProgram (src : Source) (gs : List GroupRec) (ws : List WindowRec) (q cl co : Nat) : Bool :=
  coreIn src gs ws (fun r => decide (r.kind = .core) && decide (r.program = some q)) cl co

/-- Program q is of a CORE window of the mode on the core, or of a host model whose HOST windows use it. -/
def modeProgram (img : Image) (m : ModeRec) (q cl co : Nat) : Bool :=
  runsProgram .main m.groups m.windows q cl co ||
  (img.host.models.any (fun x => decide (x.program = q)) &&
    coreIn .main m.groups m.windows (fun r => decide (r.kind = .host)) cl co)

/-- Program q stays in a core's instruction memory from its load on (R246): those of the resident modes, of the golden
visits, and of Burlap. -/
def residentProgram (img : Image) (q cl co : Nat) : Bool :=
  img.safety.segs.any (fun s => decide (s.program = q)) ||
  (if cl < 128 then img.plan.modes.any (fun e => !e.2.staged && modeProgram img e.2 q cl co)
   else runsProgram .burlap img.burlap.groups img.burlap.windows q cl co)

/-- Where each program of a list starts when they stand one after another from `start` on. -/
def placedFrom : (start : Nat) → List (Nat × Program) → List (Nat × Nat × Program)
  | _, [] => []
  | start, (q, p) :: rest => (q, start, p) :: placedFrom (start + p.code.length) rest

/-- The resident programs of a core in directory order, with their places. -/
def residents (img : Image) (cl co : Nat) : List (Nat × Nat × Program) :=
  placedFrom 0 (img.programs.filter (fun e => residentProgram img e.1 cl co))

/-- First word of instruction-memory overlay bank 0 or 1 (R241): bank 0 is the top words, bank 1 lies below it. -/
def overlayStart (img : Image) (bank : Nat) : Nat :=
  2048 - img.plan.ovlWords0 - (if bank = 0 then 0 else img.plan.ovlWords1)

/-- The programs of a staged mode on a core, with their places in its overlay bank (R251). -/
def overlays (img : Image) (m : ModeRec) (cl co : Nat) : List (Nat × Nat × Program) :=
  placedFrom (overlayStart img m.ovlBank) (img.programs.filter (fun e => modeProgram img m e.1 cl co))

/-- Where a program of a mode, none for Burlap's, starts on a core. -/
def programStart (img : Image) (mode : Option ModeRec) (q cl co : Nat) : Option Nat :=
  let own := match mode with
    | some m => if m.staged then overlays img m cl co else []
    | none => []
  (own ++ residents img cl co).findSome? (fun e => if e.1 = q then some e.2.1 else none)

/-- Store instructions from a word on. -/
def storeCode : (at_ : Nat) → List (BitVec 64) → Bank (BitVec 64) → Bank (BitVec 64)
  | _, [], b => b
  | i, w :: rest, b => storeCode (i + 1) rest (bput 0 i w b)

/-- Store placed programs in a core's instruction memory. -/
def storePrograms (ps : List (Nat × Nat × Program)) (c : CoreState) : CoreState :=
  { c with imem := ps.foldl (fun b e => storeCode e.2.1 e.2.2.code b) c.imem }

/-- Store, in every core of a cluster, the programs that `ps` gives it. -/
def loadPrograms (ps : Nat → List (Nat × Nat × Program)) (cl : Nat) (d : Dev) : Dev :=
  (List.range 64).foldl (fun d co => d.setCore (coreKey cl co) (storePrograms (ps co) (d.core (coreKey cl co)))) d

/-! ### Loads (R245, R251, R402, R428) -/

/-- The weights of the resident modes at their destinations that `p` selects. -/
def loadWeights (img : Image) (p : Tensor → Bool) (d : Dev) : Dev :=
  img.plan.modes.foldl (fun d e => if e.2.staged then d else placeWeights img e.2.descs e.2.weights p d) d

/-- Load a compute cluster: programs and weights of every resident mode, and the golden programs (R246, R428 step 5). -/
def loadCluster (img : Image) (d : Dev) (cl : Nat) : Dev :=
  loadWeights img (inCluster cl) (loadPrograms (residents img cl) cl d)

/-- Load one of Burlap's clusters from section 0x27 (R207, R402). -/
def loadBurlapCluster (img : Image) (d : Dev) (cl : Nat) : Dev :=
  placeWeights img img.burlap.descs img.burlap.weights (inCluster cl) (loadPrograms (residents img cl) cl d)

/-- A blob at the copy of it that the staged modes keep on memory-side die x (R251). -/
def storeStaged (img : Image) (x : Nat) (ts : List Tensor) (d : Dev) (w : WeightRec) : Dev :=
  match w.stageSrc.bind (tensorOf ts), assoc w.blob img.blobs with
  | some t, some b => if t.space = .memSide && t.die = x then setBytes t.start b.bytes d else d
  | _, _ => d

/-- Load a memory-side die: the weights of the staged modes at their STAGE_SRC (R251). -/
def loadMemorySide (img : Image) (x : Nat) (d : Dev) : Dev :=
  img.plan.modes.foldl (fun d e => if e.2.staged then e.2.weights.foldl (storeStaged img x e.2.descs) d else d) d

/-- Load what the plan places on a die (R410, R414, R428). -/
def loadDie (img : Image) (x : Nat) (d : Dev) : Dev :=
  if x < 4 then ((List.range 32).map (fun c => 32 * x + c)).foldl (loadCluster img) d else loadMemorySide img x d

/-- Copy the overlay of a staged mode into the clusters that `p` selects (R251). -/
def copyOverlay (img : Image) (m : ModeRec) (p : Nat → Bool) (d : Dev) : Dev :=
  let d := ((modeClusters m).filter p).eraseDups.foldl (fun d cl => loadPrograms (overlays img m cl) cl d) d
  m.weights.foldl (fun d w =>
    match w.stageSrc.bind (tensorOf m.descs), tensorOf m.descs w.dest, assoc w.blob img.blobs with
    | some s, some t, some b =>
      if p (clusterOf t.die t.cluster) then setSpan t (d.bytes s.start b.bytes.length) d else d
    | _, _, _ => d) d

/-- Reload a partition (R428 step 5): its clusters, with the overlay of a staged mode in force; on a memory-side die, what
the die holds. -/
def loadPartition (p : PartRec) (d : Dev) : Dev :=
  let img := d.image
  if 4 ≤ p.die then loadMemorySide img p.die d
  else
    let cls := p.clusters.map (fun c => 32 * p.die + c)
    let d := cls.foldl (loadCluster img) d
    match d.modeRec d.plan.modeInForce with
    | some m => if m.staged then copyOverlay img m cls.contains d else d
    | none => d

/-- BURLAP_CLUSTER_RELOAD_DONE (R207): the cluster has been zeroed and reloaded with what section 0x27 places there, and
runs again from the next major tick boundary. -/
def burlapClusterReloadDone (cl : Fin 4) (d : Dev) : Dev :=
  let n := 128 + cl.val
  if (d.cluster n).state = .restarting then
    (loadBurlapCluster d.image d n).modCluster n (fun c => { c with rejoin := true })
  else d

/-- Burlap's reloaded clusters at a major tick boundary (R207). -/
def rejoinBurlap (d : Dev) : Dev :=
  [128, 129, 130, 131].foldl (fun d n => d.modCluster n (fun c =>
    if c.rejoin then { c with rejoin := false, state := if c.state = .restarting then .running else c.state } else c)) d

end Sys2Proof.Machine
end

