-- ==== Sys2Proof/Machine/Felt.lean ====
section
/-!
DEFINITION. Felt's monitors, resumption, the golden self-test, the vehicle controller's messages and the vehicle
ports' links (spec/16_vehicle_link_and_safety.md).
-/

namespace Sys2Proof.Machine

open Sys2Proof

/-- The die number of the IOD (R371). -/
def dieIod : Nat := 6

/-- A class V fault on the IOD whose unit and argument the spec does not state. -/
def raiseIod (code : Nat) (d : Dev) : Dev := raiseV code dieIod (Config.faultUnit code) (Config.faultArg code) false 0 d

/-- LOCKSTEP_MISMATCH (R381, R386). -/
def lockstepMismatch (d : Dev) : Dev := raiseIod 0x0001 d

/-- REFCLK_LOSS (R54): no edges for 10 µs. -/
def refclkLoss (d : Dev) : Dev :=
  if d.felt.refclkLost then d else raiseIod 0x0003 { d with felt := { d.felt with refclkLost := true } }

/-- REFCLK_RETURN (R387): the held reset of the safety processor pair is released. -/
def refclkReturn (d : Dev) : Dev :=
  if d.felt.refclkLost then
    let procs := if d.felt.pairReset then
        bmod {} 1 (fun p => { p with restarting := true, restartBegan := d.now }) d.boot.procs
      else d.boot.procs
    { d with felt := { d.felt with refclkLost := false, pairReset := false }, boot := { d.boot with procs := procs } }
  else d

/-- An interval that Felt's timer measured is out of the band of 500 ppm about the minor tick length (R54). -/
def outOfBand (interval minor : Nat) : Bool :=
  decide (minor < 2000 * (interval - minor)) || decide (minor < 2000 * (minor - interval))

/-- The check of a minor tick interval at its end (R54) against the length that was in force in it. -/
def checkInterval (interval minor : Nat) (d : Dev) : Dev :=
  let bad := outOfBand interval minor
  let already := d.felt.intervalFault
  let d := { d with felt := { d.felt with intervalFault := false, goodInterval := d.felt.goodInterval || !bad } }
  if bad && !already then raiseIod 0x0003 d else d

/-- TICK_INTERVAL_TIMEOUT (R54): Felt's timer stands more than 500 ppm past the minor tick length with no boundary
seen. -/
def tickIntervalTimeout (elapsed : Nat) (d : Dev) : Dev :=
  let m := d.time.minorNs
  if d.time.begun && !d.felt.intervalFault && decide (m < elapsed) && outOfBand elapsed m then
    raiseIod 0x0003 { d with felt := { d.felt with intervalFault := true } }
  else d

/-- FABRIC_ERROR (R386): an uncorrectable error or a transaction timeout of the IOD fabric. -/
def fabricError (d : Dev) : Dev := raiseIod 0x0004 d

/-- The safety processor pair runs: it is not in a restart and its reset is not held (R387, R417). -/
def Dev.pairRuns (d : Dev) : Bool := !d.felt.pairReset && !(bget {} 1 d.boot.procs : FwState).restarting

/-- SELF_CHECK_PASS (R387): it ends the conditions 0x0001 to 0x0003, once a whole interval within the band has been
measured and REFCLK is there. -/
def selfCheckPass (d : Dev) : Dev :=
  if d.felt.selfCheckDue && d.pairRuns && d.felt.goodInterval && !d.felt.refclkLost then
    endConditions 0x0003 (endConditions 0x0002 (endConditions 0x0001
      { d with felt := { d.felt with selfCheckDue := false } }))
  else d

/-- The pins while SAFE_OK runs, after n + 1 boundaries: A is n mod 2, B the other (R379). -/
def runPins (f : FeltState) : FeltState :=
  let a := decide ((f.boundaries - 1) % 2 = 1)
  { f with pinA := a, pinB := !a }

/-- SAFE_OK runs from now on (R380, R387). -/
def runSafeOk (f : FeltState) : FeltState := runPins { f with safeOk := .running }

/-- A CLEARED notice for each condition that has ended (R371, R387). -/
def clearNotices : List Condition → Dev → Dev
  | [], d => d
  | c :: rest, d => clearNotices rest (sendNotice c.code .v true dieIod c.unit (Config.faultArg c.code) d)

/-- RESUME_COUNT_EXPIRY (R387): RESUME_TICKS clean major ticks have passed. -/
def resumeCountExpiry (d : Dev) : Dev :=
  let f := d.felt
  if f.classV && f.resuming && f.resumeLeft = 0 && f.allEnded then
    let cs := f.conditions
    let f := { f with classV := false, conditions := [], resuming := false }
    clearNotices cs { d with felt := if f.safeOk = .stopped then runSafeOk f else f }
  else d

/-- The resumption counter at a major tick boundary (R387): it starts once every cause has ended, and then counts the
major ticks; RESUME_TICKS 0 never counts. -/
def countResume (d : Dev) : Dev :=
  let f := d.felt
  let n := d.image.safety.resumeTicks
  if !f.classV || !f.allEnded || n = 0 then d
  else if f.resuming then { d with felt := { f with resumeLeft := f.resumeLeft - 1 } }
  else { d with felt := { f with resuming := true, resumeLeft := n } }

/-! ### The golden self-test (R390 to R392) -/

/-- The place of the golden self-test on a cluster. -/
def Dev.golden (d : Dev) (cl : Nat) : GoldenVisit := bget {} cl d.felt.golden

/-- The device with a cluster's place replaced. -/
def Dev.setGolden (d : Dev) (cl : Nat) (g : GoldenVisit) : Dev :=
  { d with felt := { d.felt with golden := bput {} cl g d.felt.golden } }

/-- The clusters that the GOLDEN window of tick k visits (R390). -/
def goldenClusters (k : Nat) : List Nat :=
  let t := k % 64
  [2 * t, 2 * t + 1] ++ (if t % 16 = 0 then [128 + t / 16] else [])

/-- A cluster is visited unless it is gated, restarting or failed, or lies on a die that is not admitted (R390). -/
def Dev.visitable (d : Dev) (cl : Nat) : Bool :=
  decide ((d.cluster cl).state = .running) && !d.felt.failed.contains cl &&
  (decide (128 ≤ cl) || decide ((d.die (cl / 32)).state = .admitted))

/-- A core starts the program of golden segment `seg` (R391): one that is not resident leaves it stopped. -/
def startGolden (cl seg : Nat) (d : Dev) (co : Nat) : Dev :=
  let q := coreKey cl co
  match (d.image.safety.segs[seg]?).bind (fun s => programStart d.image none s.program cl co) with
  | some pc => d.setCore q { d.core q with pc := pc, run := .ready, window := none, loops := [] }
  | none => stopCore d q

/-- Every core of a cluster starts the same segment (R391). -/
def startSegment (cl seg : Nat) (d : Dev) : Dev := (List.range 64).foldl (startGolden cl seg) d

/-- A visit begins at the segment where the cluster's previous one stopped, with the inputs of section 0x32 in the
cluster's golden region (R220, R391). -/
def beginVisit (d : Dev) (cl : Nat) : Dev :=
  if d.visitable cl then
    let g := { d.golden cl with running := true, scheduled := true }
    let d := (d.modCluster cl (fun c => { c with state := .golden })).setGolden cl g
    startSegment cl g.seg (setBytes (clusterBase cl + d.image.safety.goldenCluOff) d.image.safety.inputs d)
  else d

/-- The GOLDEN window of tick k opens (R390). -/
def openGolden (k : Nat) (d : Dev) : Dev :=
  let d := { d with felt := { d.felt with goldenPos := k % 64 } }
  (goldenClusters k).foldl beginVisit d

/-- A cluster returns from a visit to its work, its cores stopped (R391). -/
def endVisit (cl : Nat) (g : GoldenVisit) (d : Dev) : Dev :=
  (if (d.cluster cl).state = .golden then
    (coresOf cl).foldl stopCore (d.modCluster cl (fun c => { c with state := .running }))
  else d).setGolden cl { g with running := false }

/-- The partition of the mode in force that holds a main cluster (R244). -/
def Dev.clusterPart (d : Dev) (cl : Nat) : Option Nat :=
  d.parts.findIdx? (fun p => decide (p.die = cl / 32) && p.clusters.contains (cl % 32))

/-- A cluster is declared failed (R208, R392). -/
def failCluster (cl : Nat) (d : Dev) : Dev :=
  let d := { d with felt := { d.felt with failed := if d.felt.failed.contains cl then d.felt.failed
                                                    else d.felt.failed ++ [cl] } }
  refreshModes (d.modCluster cl (fun c => { c with state := .failed }))

/-- A failed visit (R392): its fault is raised, a main cluster's partition restarts, and three in a row declare the
cluster failed; a failed Burlap cluster's condition then lasts until cold reset. -/
def failVisit (cl : Nat) (d : Dev) : Dev :=
  let g := d.golden cl
  let n := g.fails + 1
  let c := d.felt.goldenFail.inc
  let d := satEvent (barVlk + 0x120) d.felt.goldenFail c { d with felt := { d.felt with goldenFail := c } }
  let d := endVisit cl { g with fails := n, seg := 0 } d
  if cl < 128 then
    let d := raiseH 0x0104 (cl / 32) cl (Config.faultArg 0x0104) d
    let d := match d.clusterPart cl with
      | some p => restartPartition (cl / 32) p causeGolden false d
      | none => d
    if 3 ≤ n then failCluster cl (raiseH 0x0108 (cl / 32) cl (Config.faultArg 0x0108) d) else d
  else
    let d := raiseV 0x0008 dieIod cl (Config.faultArg 0x0008) (decide (3 ≤ n)) cl d
    if 3 ≤ n then failCluster cl d else d

/-- GOLDEN_SEGMENT_END (R391, R392, R446): Felt compares the signature of every core with the segment's SIG. The visit
passes after the last segment, which resets the count of failures; each visit measures the cluster's oscillators. -/
def goldenSegmentEnd (cl : Fin 132) (sigs : List (BitVec 64)) (roShift : BitVec 16) (d : Dev) : Dev :=
  let g := d.golden cl.val
  if !g.running then d
  else
    let d := { d with health := { d.health with roShift := bput 0 cl.val roShift.toNat d.health.roShift } }
    match d.image.safety.segs[g.seg]? with
    | none => endVisit cl.val { g with seg := 0 } d
    | some s =>
      if (List.range 64).all (fun co => decide (sigs[co]? = some s.sig)) then
        if g.seg + 1 < d.image.safety.segs.length then
          startSegment cl.val (g.seg + 1) (d.setGolden cl.val { g with seg := g.seg + 1 })
        else
          endCondition 0x0008 cl.val (endVisit cl.val { g with seg := 0, fails := 0, passed := true } d)
      else failVisit cl.val d

/-- The budget timer stops one visit (R391): the segment in progress is discarded, and the next visit begins with it. -/
def stopVisit (tick : Nat) (d : Dev) (cl : Nat) : Dev :=
  let g := d.golden cl
  if g.running then
    let c := d.felt.goldenIncompleteCount.inc
    let marks := if d.felt.goldenIncomplete.contains tick then d.felt.goldenIncomplete
      else tick :: d.felt.goldenIncomplete
    endVisit cl g (satEvent (barVlk + 0x124) d.felt.goldenIncompleteCount c
      { d with felt := { d.felt with goldenIncompleteCount := c, goldenIncomplete := marks } })
  else d

/-- GOLDEN_BUDGET_TIMER (R391): at the GOLDEN window's planned end. -/
def goldenBudgetTimer (tick w : Nat) (d : Dev) : Dev :=
  match d.windowRec .main tick w with
  | some r =>
    if r.kind = .golden && decide ((d.win .main tick w).phase = .running) && d.reached (d.plannedEnd tick r) then
      let d := (goldenClusters tick).foldl (stopVisit tick) d
      d.setWin .main tick w { d.win .main tick w with phase := .ended }
    else d
  | none => d

/-! ### The vehicle controller's messages (R365, R373 to R377) -/

end Sys2Proof.Machine

namespace Sys2Proof

/-- MSG_ID (R365). -/
def CtrlFrame.msgId (f : CtrlFrame) : BitVec 8 := BitVec.ofNat 8 (Machine.fieldAt f.bytes 0x00 0 8)

/-- VERSION (R365). -/
def CtrlFrame.version (f : CtrlFrame) : Nat := Machine.fieldAt f.bytes 0x00 8 8

/-- SEQ (R365). -/
def CtrlFrame.seq (f : CtrlFrame) : BitVec 32 := BitVec.ofNat 32 (Machine.wordAt f.bytes 0x04)

/-- MSG_TIME (R365). -/
def CtrlFrame.msgTime (f : CtrlFrame) : Int := Machine.leAt f.bytes 0x08 8

/-- BODY_LEN (R365). -/
def CtrlFrame.bodyLen (f : CtrlFrame) : Nat := Machine.fieldAt f.bytes 0x1C 0 16

/-- FRAG_INDEX (R365). -/
def CtrlFrame.fragIndex (f : CtrlFrame) : Nat := Machine.fieldAt f.bytes 0x1C 16 8

/-- FRAG_COUNT (R365). -/
def CtrlFrame.fragCount (f : CtrlFrame) : Nat := Machine.fieldAt f.bytes 0x1C 24 8

/-- SOURCE_ID (R365). -/
def CtrlFrame.sourceId (f : CtrlFrame) : BitVec 32 := BitVec.ofNat 32 (Machine.wordAt f.bytes 0x20)

/-- The CRC over bytes 0x00 to 0x23 and the body holds (R365, R366). -/
def CtrlFrame.crcOk (f : CtrlFrame) : Bool :=
  decide (Machine.crc32c (f.bytes.take 0x24 ++ (f.bytes.drop 0x28).take f.bodyLen) =
    BitVec.ofNat 32 (Machine.wordAt f.bytes 0x24))

/-- The first word of the body: REQ_ID, or ECHO_SEQ of a heartbeat (R373). -/
def CtrlFrame.word0 (f : CtrlFrame) : BitVec 32 := BitVec.ofNat 32 (Machine.wordAt f.bytes 0x28)

/-- The second word of the body (R373). -/
def CtrlFrame.word1 (f : CtrlFrame) : BitVec 32 := BitVec.ofNat 32 (Machine.wordAt f.bytes 0x2C)

end Sys2Proof

namespace Sys2Proof.Machine

open Sys2Proof

/-- The first check of R374 that a frame fails on a port, if any. -/
def rejectCause (d : Dev) (p : Nat) (f : CtrlFrame) : Option Nat :=
  let l := d.image.link
  let v := d.vport p
  let ether := if l.etherType = 0 then 0x88B5 else l.etherType
  let now : Int := (d.now : Int) + d.time.vtOffset
  if !(decide (f.dest = l.portMac.getD p 0) && decide (f.etherType = ether) && decide (f.vid = l.vid) && f.fcsOk) then
    some 1
  else if !(decide (f.msgId = 0x81) || decide (f.msgId = 0x82) || decide (f.msgId = 0x83)) || f.version ≠ 1
      || f.fragIndex ≠ 0 || f.fragCount ≠ 1 || f.bodyLen ≠ 16 then some 2
  else if f.sourceId ≠ l.ctrlId then some 3
  else if !f.crcOk then some 4
  else if v.rxAny && !newer f.seq v.rxSeq then some 5
  else if d.time.servo.state = .locked && l.freshUs ≠ 0 && decide (l.freshUs * usNs < (f.msgTime - now).natAbs) then
    some 6
  else none

/-- Discard a controller frame: counted, with its cause (R374, R375). -/
def rejectFrame (p cause : Nat) (d : Dev) : Dev :=
  let v := d.vport p
  let c := v.rxReject.inc
  satEvent (barVlk + 0x40 * p + 0x10) v.rxReject c (d.setVport p { v with rxReject := c, lastReject := cause })

/-- An accepted frame: the port's newest SEQ, and the end of silence before its content is processed (R374, R377). -/
def acceptFrame (p : Nat) (f : CtrlFrame) (d : Dev) : Dev :=
  let v := d.vport p
  let d := d.setVport p { v with rxSeq := f.seq, rxAny := true }
  { d with ctrl := { d.ctrl with silent := false, lastAccepted := d.now } }

/-- How a REQ_ID stands to the last one processed of its series (R375). -/
inductive ReqOrder where
  | fresh | copy | old
  deriving DecidableEq, Repr

/-- Compare a REQ_ID with the last one processed (R375). -/
def reqOrder (last : Option (BitVec 32)) (id : BitVec 32) : ReqOrder :=
  match last with
  | none => .fresh
  | some l => if newer id l then .fresh else if id = l then .copy else .old

/-- The outcome of a Mode Request in LAST_REQ_STATUS; a refusal is counted (R254). -/
def reqStatus (st : BitVec 8) (d : Dev) : Dev :=
  let d := if st = stOk then d else countModeRefuse d
  { d with ctrl := { d.ctrl with lastReqStatus := st } }

/-- The decision of R254: the first row of its table that applies. -/
def decideMode (target : Nat) (d : Dev) : Dev :=
  let p := d.plan
  let isForce := p.inForce && decide (target = p.modeInForce)
  if (d.modeRec target).isNone then reqStatus stInvalid d
  else if p.epochLoad = 0 || p.startInterval then reqStatus stUnavailable d
  else if d.ctrl.silent then reqStatus stNotPermitted d
  else if !d.modeAvailable target then reqStatus stUnavailable d
  else if isForce && p.pending.isNone then reqStatus stOk d
  else if isForce then reqStatus stOk (cancelSwitch stOk d)
  else
    let open_ := match d.modeRec p.modeInForce with | some m => m.transitions.contains target | none => false
    if !p.mainStopped && !open_ then reqStatus stNotPermitted d
    else reqStatus stOk (startSwitch target .request d)

/-- An accepted Mode Request (R375). -/
def takeModeRequest (p : Nat) (f : CtrlFrame) (d : Dev) : Dev :=
  match reqOrder d.ctrl.modeReqId f.word0 with
  | .copy => d
  | .old => rejectFrame p 7 d
  | .fresh =>
    let target := f.word1.toNat % 16
    let c := { d.ctrl with modeReqId := some f.word0, lastReqId := f.word0, lastReqMode := BitVec.ofNat 4 target }
    decideMode target { d with ctrl := c }

/-- An accepted Warm-Start Consent (R376). -/
def takeConsent (p : Nat) (f : CtrlFrame) (d : Dev) : Dev :=
  match reqOrder d.ctrl.consentReqId f.word0 with
  | .copy => d
  | .old => rejectFrame p 7 d
  | .fresh =>
    let ms := min (f.word1.toNat % 65536) d.image.link.consentMaxMs
    let until_ := if ms = 0 then none else some (d.now + ms * msNs)
    { d with ctrl := { d.ctrl with consentReqId := some f.word0, consentUntil := until_ } }

/-- An accepted Controller Heartbeat (R373). -/
def takeHeartbeat (p : Nat) (f : CtrlFrame) (d : Dev) : Dev :=
  d.setVport p { d.vport p with echoSeq := f.word0, ctrlStatus := f.word1.setWidth 8 }

/-- A frame that arrives on a vehicle port: checked (R374), and processed by `take` when accepted. -/
def controllerFrame (port : Fin 2) (f : CtrlFrame) (take : Nat → CtrlFrame → Dev → Dev) (d : Dev) : Dev :=
  if (d.vport port.val).link ≠ .up || !d.linkAllowed then d
  else match rejectCause d port.val f with
    | some c => rejectFrame port.val c d
    | none => take port.val f (acceptFrame port.val f d)

/-- MODE_REQUEST (R254, R373 to R375): a frame of MSG_ID 0x81. -/
def modeRequest (port : Fin 2) (f : CtrlFrame) (d : Dev) : Dev :=
  if f.msgId = 0x81 then controllerFrame port f takeModeRequest d else d

/-- WARM_START_CONSENT (R373 to R376): a frame of MSG_ID 0x82. -/
def warmStartConsent (port : Fin 2) (f : CtrlFrame) (d : Dev) : Dev :=
  if f.msgId = 0x82 then controllerFrame port f takeConsent d else d

/-- CONTROLLER_HEARTBEAT (R373, R374): a frame of MSG_ID 0x83. -/
def controllerHeartbeat (port : Fin 2) (f : CtrlFrame) (d : Dev) : Dev :=
  if f.msgId = 0x83 then controllerFrame port f takeHeartbeat d else d

/-- UNACCEPTED_CONTROLLER_FRAME (R374): a frame that fails a check is discarded and counted. -/
def unacceptedControllerFrame (port : Fin 2) (f : CtrlFrame) (d : Dev) : Dev :=
  if (d.vport port.val).link ≠ .up || !d.linkAllowed then d
  else match rejectCause d port.val f with
    | some c => rejectFrame port.val c d
    | none => d

/-- CTRL_SILENCE_TIMEOUT (R254, R377): no accepted frame for 20 ms. A pending switch that a request started is
cancelled. -/
def ctrlSilenceTimeout (d : Dev) : Dev :=
  if !d.ctrl.silent && decide (d.ctrl.lastAccepted + 20 * msNs ≤ d.now) then
    let d := { d with ctrl := { d.ctrl with silent := true },
                      felt := { d.felt with window := { d.felt.window with silent := true } } }
    match d.plan.pending with
    | some q => match q.reason with
      | .request => cancelSwitch stNotPermitted d
      | .search => d
    | none => d
  else d

/-- CONSENT_EXPIRY (R376). -/
def consentExpiry (d : Dev) : Dev :=
  match d.ctrl.consentUntil with
  | some t => if t ≤ d.now then { d with ctrl := { d.ctrl with consentUntil := none } } else d
  | none => d

/-! ### Links and frames of the vehicle ports -/

/-- VLINK_FRAME_DONE (R368): the port starts the waiting frame of highest precedence. -/
def vlinkFrameDone (port : Fin 2) (d : Dev) : Dev :=
  let v := d.vport port.val
  if v.sending.isSome then startFrame port.val (d.setVport port.val { v with sending := none }) else d

/-- VLINK_LINK_DOWN (R32, R363, R386, R396): the loss is counted and raises a health event, the port retrains, what
waited on it is not sent, V0 loses vehicle time, and the second loss is class V. -/
def vlinkLinkDown (port : Fin 2) (d : Dev) : Dev :=
  let p := port.val
  let v := d.vport p
  if v.link ≠ .up then d
  else
    let c := v.linkLoss.inc
    let d := d.setVport p { v with link := .training, linkLoss := c, sending := none, waiting := [] }
    let d := satEvent (barVlk + 0x40 * p + 0x0C) v.linkLoss c d
    let d := { d with felt := { d.felt with window := { d.felt.window with linkLoss := true } } }
    let d := conditionEvent (barVlk + 0x40 * p + 0x0C) c.val.toNat d
    let d := if p = 0 then loseVehicleTime d else d
    if (d.vport (1 - p)).link = .up then d else raiseIod 0x000A d

/-- VLINK_LINK_UP (R363, R387): the link has trained; the return of the second link lost ends condition 0x000A. -/
def vlinkLinkUp (port : Fin 2) (d : Dev) : Dev :=
  let p := port.val
  let v := d.vport p
  if v.link = .up || !d.linkAllowed then d
  else endConditions 0x000A (d.setVport p { v with link := .up, sending := none, waiting := [] })

end Sys2Proof.Machine
end

