-- ==== Sys2Proof/Machine/Reset.lean ====
section
/-!
DEFINITION. The cold resets: power-on reset and full device reset, and the order of the slots
(spec/17_image_boot_and_firmware.md R408, R409; spec/21_package_and_electrical.md R481, R482, R486, R488, R494).
-/

namespace Sys2Proof.Machine

open Sys2Proof

/-- The header of a slot in the boot NVM. -/
def NvState.header (n : NvState) : Slot → SlotHeader
  | .a => n.slotA | .b => n.slotB

/-- The NVM with a slot's header replaced. -/
def NvState.setHeader (n : NvState) (s : Slot) (h : SlotHeader) : NvState :=
  match s with
  | .a => { n with slotA := h }
  | .b => { n with slotB := h }

/-- The slot that the order of R408 puts first: a slot with a wrong MAGIC comes last, otherwise the higher serial first
and A on equal serials; the slot of the boot hint comes last. -/
def firstSlot (n : NvState) (hint : Option Slot) : Slot :=
  let a := n.slotA
  let b := n.slotB
  match hint with
  | some s => s.other
  | none =>
    if !a.magicOk && b.magicOk then .b
    else if a.magicOk && !b.magicOk then .a
    else if a.magicOk && b.magicOk && decide (a.serial.toNat < b.serial.toNat) then .b
    else .a

/-- During the device's own reset NVA_RESET_N and NVB_RESET_N are low for 100 µs (R488). -/
def pulseNvReset (d : Dev) : Dev := emit (.nvReset 100) d

/-- A full device reset: a cold reset that keeps the boot hint and HKP_BOOT_STATUS (R423, R481), and with them what the
NVM, the fuses and the straps hold. -/
def fullReset (hint : Option Slot) (d : Dev) : Dev :=
  let b := d.boot
  let phase : BootPhase := if b.strapTest || b.thermTrip || !b.porstHigh then .held
    else if b.nv.lifecycle = .retired then .retired else .phase0
  pulseNvReset
  { boot := { phase := phase, porstHigh := b.porstHigh, strapNvProfile := b.strapNvProfile, strapTest := b.strapTest,
              thermTrip := b.thermTrip, bootHint := hint, trying := firstSlot b.nv hint, bootSlot := b.bootSlot,
              slotFallback := b.slotFallback, noImage := b.noImage, failA := b.failA, failB := b.failB, nv := b.nv },
    sent := d.sent, freeCtr := d.freeCtr }

/-- A VDD_Cn rail that is outside its window at release: the die's domains stay off (R443, R481). -/
def railOutAtRelease (d : Dev) (x : Nat) : Dev :=
  { d.setThermal x { d.thermal x with offRail := true } with
    health := { (d.setThermal x { d.thermal x with offRail := true }).health with
      rails := bmod {} x (fun r => { r with out := true }) d.health.rails } }

/-- POWER_ON_RESET (R408, R481, R482): release of PORST_N after the rails are in their windows, with the straps sampled
then. Every state is lost but the NVM and the fuses. -/
def powerOnReset (strapNvProfile strapTest0 strapTest1 : Bool) (vddOut : List (Fin 4)) (d : Dev) : Dev :=
  let test := strapTest0 || strapTest1
  let phase : BootPhase := if test then .held else if d.boot.nv.lifecycle = .retired then .retired else .phase0
  let fresh : Dev :=
    { boot := { phase := phase, strapNvProfile := strapNvProfile, strapTest := test, trying := firstSlot d.boot.nv none, nv := d.boot.nv },
      sent := d.sent, freeCtr := d.freeCtr }
  -- the pulse of R488 stands where the reset begins: at PORST_N low, or here where power returns without it
  let fresh := if d.boot.porstHigh then pulseNvReset fresh else fresh
  vddOut.foldl (fun d x => railOutAtRelease d x.val) fresh

/-- DEVICE_RESET (R481, R494): DEVRST_N. While PORST_N is low it does nothing of its own, and a device that holds
THERM_TRIP_N low stays in reset. -/
def deviceReset (d : Dev) : Dev :=
  if !d.boot.porstHigh || d.boot.thermTrip then d else fullReset d.boot.bootHint d

/-- PORST_N_ASSERTED (R486, R479, R494): LPDDR5X enters self-refresh, NVM writes stop, and SAFE_OK is not driven. -/
def porstNAsserted (d : Dev) : Dev :=
  let d := if d.boot.porstHigh then pulseNvReset d else d
  { d with
    boot := { d.boot with porstHigh := false, selfRefresh := true, nvStopped := true, phase := .held },
    felt := { d.felt with pinA := false, pinB := false, safeOk := .notStarted } }

/-- HEALTH_DEADLINE (R409, R411): 2,000 ms after reset release with SAFE_OK not started. With no image, the slots are
tried again in power-on order. -/
def healthDeadline (d : Dev) : Dev :=
  if decide (2000 * msNs ≤ d.now) && d.felt.safeOk = .notStarted && d.boot.phase ≠ .held then
    fullReset (if d.boot.phase = .noImage then none else d.boot.bootHint) d
  else d

end Sys2Proof.Machine
end

