-- ==== Sys2Proof/Machine/Health.lean ====
section
/-!
DEFINITION. Temperature and supply limits, the wear monitors and the prediction of remaining life
(spec/19_health_wear_and_power.md R441 to R449).
-/

namespace Sys2Proof.Machine

open Sys2Proof

/-! ### Temperature (R441, R442, R445) -/

/-- Temperature sensors of a die (R441). -/
def sensorCount (x : Nat) : Nat := if x < 4 then 8 else if x < 6 then 4 else 6

/-- A list of numbers in rising order, with one more. -/
def insertInt (v : Int) : List Int → List Int
  | [] => [v]
  | a :: rest => if v ≤ a then v :: a :: rest else a :: insertInt v rest

/-- A list of numbers in rising order. -/
def sortInt (l : List Int) : List Int := l.foldr insertInt []

/-- Twice the median of a list of numbers, none of an empty list. -/
def median2 (l : List Int) : Option Int :=
  let s := sortInt l
  let n := s.length
  match s[(n - 1) / 2]?, s[n / 2]? with
  | some a, some b => if n = 0 then none else some (a + b)
  | _, _ => none

/-- The sensors of a die that are not excluded, with their readings in 0.1 °C. -/
def validSensors (out : List Nat) (readings : List Int) : List (Nat × Int) :=
  (readings.zipIdx.filter (fun e => !out.contains e.2)).map (fun e => (e.2, e.1))

/-- A reading excludes its sensor (R441): outside -55 °C to 150 °C, or more than 15 °C from the median of the die's
other sensors. -/
def sensorBad (all : List (Nat × Int)) (e : Nat × Int) : Bool :=
  decide (e.2 < -550) || decide (1500 < e.2) ||
  (match median2 ((all.filter (fun o => o.1 ≠ e.1)).map (·.2)) with
   | some m => decide (300 < (2 * e.2 - m).natAbs)
   | none => false)

/-- Exclude one sensor until cold reset, with its health event (R441, R451). -/
def excludeSensor (x n : Nat) (d : Dev) : Dev :=
  let t := d.thermal x
  healthEvent { code := 0x2003, severity := Config.severity 0x2003 n, die := x, unit := n }
    (d.setThermal x { t with sensorsOut := n :: t.sensorsOut })

/-- The largest of a list of readings. -/
def maxReading : List Int → Option Int
  | [] => none
  | v :: rest => match maxReading rest with | none => some v | some w => some (max v w)

/-- A health event of code 0x3000 (R451). -/
def thermalEvent (x th : Nat) (tj : Int) (crossed : Bool) (d : Dev) : Dev :=
  healthEvent { code := 0x3000, severity := Config.severity 0x3000 (bit crossed), die := x, arg0 := th,
                arg1 := twos 32 tj, arg2 := bit crossed } d

/-- Mark missing the windows of a die that are running or held; those released later are marked at their release
(R442). -/
def missOnDie (x : Nat) (d : Dev) : Dev :=
  [d.time.k - 1, d.time.k, d.time.k + 1].eraseDups.foldl (fun d tick =>
    (d.windowsAt .main tick).foldl (fun d y =>
      let ph := (d.win .main tick y.1).phase
      if d.windowDie tick y.1 y.2 = x && (ph = .running || ph = .held) then miss .power .main tick y.1 d else d) d) d

/-- Halve the core clock of a compute die (R442, R443): one halving counts, whatever its causes (R445). -/
def halveClock (x : Nat) (temp : Bool) (d : Dev) : Dev :=
  let t := d.thermal x
  let first := !t.halvedTemp && !t.halvedCurrent
  let d := d.setThermal x (if temp then { t with halvedTemp := true, tempMet := none }
                           else { t with halvedCurrent := true, currentMet := none })
  if first then
    let c := d.health.thermHalve.inc
    missOnDie x (satEvent (barHkp + 0x160) d.health.thermHalve c
      { d with health := { d.health with thermHalve := c } })
  else d

/-- Switch off the domains of a die (R442, R443): one removal counts, whatever its causes; a restart in progress is
abandoned, and repeated at restoration (R445). -/
def removePower (x : Nat) (temp : Bool) (d : Dev) : Dev :=
  let t := d.thermal x
  let first := !t.offTemp && !t.offRail
  let d := d.setThermal x (if temp then { t with offTemp := true } else { t with offRail := true })
  if first then
    let c := d.health.thermOff.inc
    let d := satEvent (barHkp + 0x164) d.health.thermOff c { d with health := { d.health with thermOff := c } }
    let d := missOnDie x d
    let s := d.die x
    let st := if s.state = .out then s.state else .restarting
    let d := d.setDie x { s with state := st, restart := none, parts := [] }
    if x < 4 then
      setUnitState x .restarting ((List.range 32).foldl (fun d c => resetCluster d (32 * x + c)) d)
    else emptyMemorySide x d
  else d

/-- The die restart sequence that restores a die whose power was removed (R442, R443): the count of R433 begins again,
and no further fault code is raised. -/
def restoreDie (x : Nat) (d : Dev) : Dev :=
  let s := d.die x
  if s.state = .out then d
  else
    let c := s.dieRestart.inc
    let d := d.setDie x { s with restart := some { since := d.now, phase := .running, readmitted := false },
                                 state := .restarting, parts := [], dieRestart := c, readmitRetried := false,
                                 history := [] }
    satEvent (barTsq + 0x208 + 0x20 * x) s.dieRestart c d

/-- How far the threshold of a power removal lies above that of the restoration, in °C (R442, R444). -/
def offGap (x : Nat) : Nat := if x < 6 then 25 else 5

/-- Since when Tj is at or below a restoration threshold without a break. -/
def coolSince (now : Nanos) (tj th : Int) (old : Option Nanos) : Option Nanos :=
  if tj ≤ th then (match old with | some t => some t | none => some now) else none

/-- What Tj does on a compute or memory-side die (R442). -/
def actOnDie (x : Nat) (tj : Int) (d : Dev) : Dev :=
  let t := d.thermal x
  let cH := coolSince d.now tj (((t.halveTh : Int) - 6) * 10) t.coolHalve
  let cO := coolSince d.now tj (((t.offTh : Int) - 25) * 10) t.coolOff
  let d := d.setThermal x { t with coolHalve := cH, coolOff := cO }
  let d := if decide ((t.offTh : Int) * 10 ≤ tj) && !t.offTemp then
      removePower x true (raiseH 0x0107 x (Config.faultUnit 0x0107) 1 (thermalEvent x t.offTh tj true d))
    else d
  if x < 4 && decide ((t.halveTh : Int) * 10 ≤ tj) then
    if t.halvedTemp then d.setThermal x { d.thermal x with tempMet := none }
    else if d.powerOff x then d
    else halveClock x true (raiseH 0x0106 x (Config.faultUnit 0x0106) 1 (thermalEvent x t.halveTh tj true d))
  else d

/-- Unit of the condition 0x000B for the IOD's temperature, beside the rails 0 to 13. -/
def condTj : Nat := 16
/-- Unit of the condition 0x000B for an IOD with no valid sensor. -/
def condNoSensor : Nat := 17

/-- THERM_TRIP_N is driven low and the device is held in full reset until power-on reset (R442). -/
def thermTrip (d : Dev) : Dev :=
  let d := emit .thermTrip d
  fullReset d.boot.bootHint { d with boot := { d.boot with thermTrip := true } }

/-- What Tj does on the IOD (R442). -/
def actOnIod (tj : Int) (d : Dev) : Dev :=
  let t := d.thermal 6
  let d := if decide ((t.offTh : Int) * 10 ≤ tj) && !t.iodOver then
      raiseV 0x000B dieIod (Config.faultUnit 0x000B) 1 false condTj
        (thermalEvent 6 t.offTh tj true (d.setThermal 6 { t with iodOver := true }))
    else if decide (tj ≤ ((t.offTh : Int) - 5) * 10) && t.iodOver then
      endCondition 0x000B condTj (thermalEvent 6 (t.offTh - 5) tj false (d.setThermal 6 { t with iodOver := false }))
    else d
  if 1350 ≤ tj then thermTrip d else d

/-- Tj from a sample: TJ_NOW, TJ_MAX and the maximum of the next Health Summary (R372, R452). -/
def noteTj (x : Nat) (tj : Int) (d : Dev) : Dev :=
  let t := d.thermal x
  let w := d.felt.window
  let top := match w.tjMax with | some v => max v tj | none => tj
  { d.setThermal x { t with tjNow := tj, tjMax := max t.tjMax tj, sampled := true } with
    felt := { d.felt with window := { w with tjMax := some top } } }

/-- No valid sensor is left on a die (R441): it counts as being at its power-removal threshold; the IOD counts as being
beyond its 125 °C until cold reset. -/
def noSensors (x : Nat) (d : Dev) : Dev :=
  let t := d.thermal x
  let d := d.setThermal x { t with noSensor := true }
  if x < 6 then actOnDie x ((t.offTh : Int) * 10) d
  else if t.noSensor then d
  else raiseV 0x000B dieIod (Config.faultUnit 0x000B) 1 true condNoSensor d

/-- TEMP_SAMPLE (R441, R442): the readings of a die's sensors in 0.1 °C, in their order. -/
def tempSample (die : Die) (sensors : List Int) (d : Dev) : Dev :=
  if d.boot.phase = .held then d
  else
    let x := die.idx
    let all := validSensors (d.thermal x).sensorsOut (sensors.take (sensorCount x))
    let bad := all.filter (sensorBad all)
    let d := bad.foldl (fun d e => excludeSensor x e.1 d) d
    match maxReading ((all.filter (fun e => !sensorBad all e)).map (·.2)) with
    | some tj =>
      let d := noteTj x tj d
      if x < 6 then actOnDie x tj d else actOnIod tj d
    | none => if (d.thermal x).sensorsOut.length < sensorCount x then d else noSensors x d

/-- THERMAL_RESTORE_TIMER (R442): the restoration criterion of a halving holds for 100 ms, or of a power removal for
1 s. -/
def thermalRestoreTimer (die : Die) (d : Dev) : Dev :=
  let x := die.idx
  let t := d.thermal x
  let held (c : Option Nanos) (n : Nat) : Bool := match c with | some s => decide (s + n ≤ d.now) | none => false
  let d := if t.halvedTemp && t.tempMet.isNone && held t.coolHalve (100 * msNs) then
      thermalEvent x (t.halveTh - 6) t.tjNow false (d.setThermal x { t with tempMet := some d.now })
    else d
  if t.offTemp && held t.coolOff secNs then
    let d := thermalEvent x (t.offTh - 25) t.tjNow false (d.setThermal x { d.thermal x with offTemp := false })
    if t.offRail then d else restoreDie x d
  else d

/-- The full clock of a halved die at a major tick boundary (R442, R445): every criterion was met before the last minor
tick. -/
def restoreClock (d : Dev) (x : Nat) : Dev :=
  let t := d.thermal x
  let met (c : Option Nanos) : Bool := match c with | some s => decide (s + d.time.minorNs < d.now) | none => false
  if (t.halvedTemp || t.halvedCurrent) && (!t.halvedTemp || met t.tempMet) && (!t.halvedCurrent || met t.currentMet) then
    d.setThermal x { t with halvedTemp := false, halvedCurrent := false, tempMet := none, currentMet := none }
  else d

/-- The full clocks at a major tick boundary. -/
def restoreClocks (d : Dev) : Dev := (List.range 4).foldl restoreClock d

/-! ### Rails (R443, R445, R483) -/

/-- Rail r (R452). -/
def Dev.rail (d : Dev) (r : Nat) : RailState := bget {} r d.health.rails

/-- The device with rail r replaced. -/
def Dev.setRail (d : Dev) (r : Nat) (x : RailState) : Dev :=
  { d with health := { d.health with rails := bput {} r x d.health.rails } }

/-- The monitor window of a rail in mV (R483). -/
def railWindow (r : Nat) : Nat × Nat :=
  if r < 4 then (677, 778)
  else match r with
    | 4 => (705, 810) | 5 => (705, 810) | 6 => (752, 864) | 7 => (470, 540) | 8 => (987, 1134) | 9 => (846, 972)
    | 10 => (799, 918) | 11 => (1128, 1296) | 12 => (1692, 1944) | _ => (3102, 3564)

/-- The window in force, narrowed by firmware (R444). -/
def Dev.windowOf (d : Dev) (r : Nat) : Nat × Nat :=
  ((d.rail r).underMv.getD (railWindow r).1, (d.rail r).overMv.getD (railWindow r).2)

/-- A voltage lies outside a rail's limits in force (R443). -/
def Dev.outside (d : Dev) (r mv : Nat) : Bool :=
  decide (mv < (d.windowOf r).1) || decide ((d.windowOf r).2 < mv)

/-- A rail whose excursion may lose memory contents (R443): VDD_M0, VDD_M1, VDDQ, VDD2H, VDD2L. -/
def memoryRail (r : Nat) : Bool := r = 4 || r = 5 || r = 7 || r = 8 || r = 9

/-- A health event of code 0x3001 (R451). -/
def railEvent (r mv current : Nat) (d : Dev) : Dev :=
  healthEvent { code := 0x3001, severity := Config.severity 0x3001 r, unit := r, arg0 := mv, arg1 := current } d

/-- RAIL_EXCURSION (R443): a rail outside its limits for 10 µs, with its voltage in mV and its current in 0.1 A. Every
excursion counts; its reaction is taken once while the rail is out. -/
def railExcursion (rail : Fin 14) (mv current : Nat) (d : Dev) : Dev :=
  let r := rail.val
  if !d.outside r mv || d.boot.phase = .held then d
  else
    let old := d.rail r
    let c := d.health.railFault.inc
    let d := satEvent (barHkp + 0x168) d.health.railFault c { d with health := { d.health with railFault := c } }
    let underNow := if r = 6 && decide (mv < (d.windowOf r).1) then some (d.now - 10 * usNs) else none
    let d := railEvent r mv current (d.setRail r { old with out := true, underSince := underNow })
    if old.out then d
    else if r < 4 then removePower r false (raiseH 0x0107 r r 2 d)
    else
      let d := if memoryRail r then d.setRail r { d.rail r with resetAt := some (d.now + 2 * msNs) } else d
      raiseV 0x000B (if r = 4 then 4 else if r = 5 then 5 else dieIod) r 3 false r d

/-- The current limit in force of a VDD_Cn rail in 0.1 A (R443, R444). -/
def Dev.currentLimit (d : Dev) (r : Nat) : Nat := (d.rail r).currentLimit.getD 950

/-- RAIL_OVERCURRENT (R443): the current of VDD_Cn, in 0.1 A, has been above its limit for 50 µs. -/
def railOvercurrent (rail : Fin 4) (current : Nat) (d : Dev) : Dev :=
  let r := rail.val
  if decide (current ≤ d.currentLimit r) || d.powerOff r || d.boot.phase = .held then d
  else if (d.thermal r).halvedCurrent then d.setThermal r { d.thermal r with currentMet := none }
  else halveClock r false (raiseH 0x0106 r r 2 (d.setRail r { d.rail r with overcurrent := true }))

/-- A rail has been within its limits for the time that R443 asks. -/
def restoreRail (r mv current : Nat) (d : Dev) : Dev :=
  let s := d.rail r
  if !s.out || d.outside r mv then d
  else
    let d := railEvent r mv current (d.setRail r { s with out := false, underSince := none })
    if r < 4 then
      let t := d.thermal r
      let d := d.setThermal r { t with offRail := false }
      if t.offTemp then d else restoreDie r d
    else if memoryRail r then d
    else endCondition 0x000B r d

/-- RAIL_RESTORE_TIMER (R443): a rail back within its limits for the required time, or, with `ofCurrent`, the current of
VDD_Cn below its restoration threshold for 100 ms. -/
def railRestoreTimer (rail : Fin 14) (ofCurrent : Bool) (mv current : Nat) (d : Dev) : Dev :=
  let r := rail.val
  if ofCurrent then
    if r < 4 && (d.thermal r).halvedCurrent && decide (current + 50 < d.currentLimit r) then
      (d.setRail r { d.rail r with overcurrent := false }).setThermal r
        { d.thermal r with currentMet := match (d.thermal r).currentMet with | some t => some t | none => some d.now }
    else d
  else restoreRail r mv current d

/-- VDD_X_UNDERVOLTAGE_TIMER (R443): VDD_X has stayed under its limit for 1 ms. -/
def vddXUndervoltageTimer (d : Dev) : Dev :=
  match (d.rail 6).underSince with
  | some t => if t + msNs ≤ d.now then fullReset d.boot.bootHint d else d
  | none => d

/-- MEMORY_RAIL_RESET_TIMER (R443): 2 ms after the detection of a memory rail's excursion. -/
def memoryRailResetTimer (d : Dev) : Dev :=
  let due (r : Nat) : Bool := match (d.rail r).resetAt with | some t => decide (t ≤ d.now) | none => false
  if [4, 5, 7, 8, 9].any due then fullReset d.boot.bootHint d else d

/-! ### Limits (R444) -/

/-- A limit write is taken: it does not loosen the limit beyond R442 and R443, nor lower a temperature threshold below
100 °C (R444). -/
def limitAllowed (limit : Limit) (v : Nat) : Bool :=
  match limit with
  | .halve _ => decide (100 ≤ v) && decide (v ≤ 118)
  | .off _ => decide (100 ≤ v) && decide (v ≤ 125)
  | .under r => decide ((railWindow r.val).1 ≤ v)
  | .above r => decide (v ≤ (railWindow r.val).2)
  | .current _ => decide (v ≤ 950)

/-- The die of a limit, the IOD where it has none. -/
def limitDie : Limit → Nat
  | .halve x => x.val | .off x => x.val | _ => 6

/-- LIMIT_WRITE (R444): firmware sets a limit; a write that would loosen it is ignored, logged and raises a health
event. -/
def limitWrite (limit : Limit) (value : Nat) (d : Dev) : Dev :=
  if limitAllowed limit value then
    match limit with
    | .halve x => d.setThermal x.val { d.thermal x.val with halveTh := value }
    | .off x => d.setThermal x.val { d.thermal x.val with offTh := value }
    | .under r => d.setRail r.val { d.rail r.val with underMv := some value }
    | .above r => d.setRail r.val { d.rail r.val with overMv := some value }
    | .current r => d.setRail r.val { d.rail r.val with currentLimit := some value }
  else
    let i := Config.limitIndex limit
    healthEvent { code := 0x3002, severity := Config.severity 0x3002 i, die := limitDie limit, arg0 := i, arg1 := value }
      (logWrite 3 (Config.severity 0x3002 i).toNat 0x3002 [i, value] d)

/-! ### Wear (R446, R447) -/

/-- What a rail's estimator adds to its integral in 1 ms (R446), in 2^-96 of a design life of 100,000 h: (I / I_ref)² times
e to the power Ea/k (1/T_ref - 1/T), from the rail's current in 0.1 A and its temperature in 0.1 °C. Ea/k is
0.9 eV over the Boltzmann constant, 14419589706 / 1380649 K; 0 °C is 5463 steps of 0.05 K. -/
def emIncrement (rail current : Nat) (temp : Int) : Nat :=
  let i := Config.emCurrent rail
  let r : Int := Config.emTemp rail
  let t : Int := 2 * temp + 5463
  let x := 14419589706 * 20 * (t - r) * (2 ^ 256 : Nat) / (1380649 * t * r)
  divRound 23 (current ^ 2 * (expAt 256 x).toNat) (i ^ 2 * 360000000000 * 2 ^ 160)

/-- EM_ESTIMATOR_SAMPLE (R446): every 1 ms, from the rail's current in 0.1 A and its temperature in 0.1 °C. -/
def emEstimatorSample (rail : Fin 14) (current : Nat) (temp : Int) (d : Dev) : Dev :=
  let s := d.rail rail.val
  d.setRail rail.val
    { s with em := s.em + emIncrement rail.val current temp }

/-- EYE_MARGIN_SAMPLE (R104, R129, R395, R446): every second, in per cent. -/
def eyeMarginSample (link : EyeLink) (margin : Nat) (d : Dev) : Dev :=
  let d := match link with
    | .camera n => d.setCamera n.val { d.camera n.val with eyeMargin := margin % 256 }
    | .lidar n => d.setLidar n.val { d.lidar n.val with eyeMargin := margin % 256 }
    | .vehicle n => d.setVport n.val { d.vport n.val with eyeMargin := margin % 256 }
  if margin < 30 then
    let low := (link, margin) :: d.health.eyeLow.filter (fun e => e.1 ≠ link)
    { d with health := { d.health with eyeLow := low } }
  else d

/-- CANARY_FAILURE (R446): a canary flop of a cluster has failed. -/
def canaryFailure (cl : Fin 132) (d : Dev) : Dev :=
  { d with health := { d.health with canary := bmod 0 cl.val wearInc d.health.canary,
                                     canaryAll := wearInc d.health.canaryAll } }

/-- One 64 KiB erase of a sector of chip select cs (R412, R423, R446). -/
def NvState.erase (n : NvState) (cs sector : Nat) : NvState :=
  { n with erases := n.erases.modify cs wearInc,
           sectorErases := bmod 0 (cs * 0x100000 + sector) wearInc n.sectorErases }

/-- The largest erase count of any one sector (R446). -/
def NvState.maxSectorErase (n : NvState) : Nat := n.sectorErases.foldl (fun m e => max m e.2) 0

/-- What a wear record holds now (R447). -/
def Dev.wearRecord (d : Dev) (seq : BitVec 32) : WearRecord :=
  let h := d.health
  { operS := h.operS, canary := h.canary, canaryAll := h.canaryAll, em := (List.range 14).map (fun r => (d.rail r).em),
    roShift := h.roShift, lifeH := h.lifeH, lifeBandH := h.lifeBandH, lifeMech := h.lifeMech, seq := seq }

/-- NVM writes are possible: they have not been stopped, and the housekeeping processor runs (R417, R447, R486). -/
def Dev.canWriteNv (d : Dev) : Bool := !d.boot.nvStopped && !(bget {} 3 d.boot.procs : FwState).restarting

/-- Write a wear record whole, to the devices in turn (R447): 256 records fill a 64 KiB sector, and a sector is erased
as its first record is written. -/
def writeWear (d : Dev) : Dev :=
  let seq := d.health.wearSeq + 1
  let onB := d.health.wearOnB
  let i := if onB then 1 else 0
  let nth := d.boot.nv.wearWrites.getD i 0
  let nv := d.boot.nv
  let nv := if nth % 256 = 0 then nv.erase (if onB then 2 else 0) (0x1000 + nth / 256 % 4) else nv
  let nv := { nv with wear := some (d.wearRecord seq), wearWrites := nv.wearWrites.modify i (· + 1) }
  emit (.wearRecord onB seq)
    { d with boot := { d.boot with nv := nv },
             health := { d.health with wearSeq := seq, wearOnB := !onB, lastWear := d.health.operS } }

/-- WEAR_RECORD_WRITE (R447): every 600 s of operation. -/
def wearRecordWrite (d : Dev) : Dev :=
  if d.canWriteNv && decide (d.health.lastWear + 600 ≤ d.health.operS) then writeWear d else d

/-- The wear state of the newest valid record at a start (R447); with none, accumulation begins from zero, except that
the shifts are measured against their reference. -/
def restoreWear (d : Dev) : Dev :=
  match d.boot.nv.wear with
  | some w =>
    let rails := (List.range 14).foldl (fun b r => bmod {} r (fun s => { s with em := w.em.getD r 0 }) b) d.health.rails
    { d with health := { d.health with
        operS := min (w.operS + d.health.operS) 0xFFFFFFFFFFFF, canary := w.canary, canaryAll := w.canaryAll,
        roShift := w.roShift, lifeH := w.lifeH, lifeBandH := w.lifeBandH, lifeMech := w.lifeMech, wearSeq := w.seq,
        rails := rails, lastWear := w.operS, predOper := w.operS, startOper := w.operS } }
  | none =>
    healthEvent { code := 0x2004, severity := Config.severity 0x2004 0 }
      { d with health := { d.health with wearRecLost := true } }

/-! ### Prediction (R448, R449) -/

/-- A damage fraction: numerator and denominator. -/
structure Damage where
  num : Nat
  den : Nat

/-- The damage fractions of the four mechanisms, in their order (R448). -/
def Dev.damages (d : Dev) : List Damage :=
  let s := (List.range 132).foldl (fun m c => max m (bget 0 c d.health.roShift)) 0
  let can := (List.range 132).any (fun c => decide (16 ≤ bget 0 c d.health.canary))
  let em := (List.range 14).foldl (fun m r => max m (d.rail r).em) 0
  [{ num := (25 * s) ^ 5, den := 131072 ^ 5 },
   { num := if can then 9 else 0, den := 10 },
   { num := em, den := 2 ^ 96 },
   { num := d.boot.nv.maxSectorErase, den := 100000 }]

/-- Remaining life of a mechanism in whole hours (R448); past end of life it is 0. -/
def Damage.lifeH (x : Damage) : Nat := if x.den ≤ x.num then 0 else (x.den - x.num) * 100000 / x.den

/-- B in hundredths by mechanism (R448). -/
def bandCoeff : Nat → Nat
  | 0 => 15 | 1 => 5 | 2 => 25 | _ => 5

/-- The uncertainty of a mechanism's remaining life in whole hours (R448). -/
def Damage.bandH (x : Damage) (mech : Nat) : Nat := bandCoeff mech * x.num * 1000 / x.den

/-- `a` has more damage than `b`. -/
def Damage.worse (a b : Damage) : Bool := decide (b.num * a.den < a.num * b.den)

/-- The mechanism with the most damage, the first of equals. -/
def worstDamage : List Damage → Nat → (Nat × Damage) → Nat × Damage
  | [], _, best => best
  | x :: rest, i, best => worstDamage rest (i + 1) (if x.worse best.2 then (i, x) else best)

/-- A trend warning (R449, R451). -/
def trend (die unit what value : Nat) (d : Dev) : Dev :=
  healthEvent { code := 0x2002, severity := Config.severity 0x2002 what, die := die, unit := unit, arg0 := what,
                arg1 := value } d

/-- A port's number and die in a trend warning. -/
def eyeUnit : EyeLink → Nat
  | .camera n => n.val | .lidar n => n.val | .vehicle n => n.val

/-- The trend events at a prediction (R449). -/
def trends (ddrM0 ddrM1 : Nat) (d : Dev) : Dev :=
  let d := if 1000 < ddrM0 then trend 4 0 0 ddrM0 d else d
  let d := if 1000 < ddrM1 then trend 5 0 0 ddrM1 d else d
  let d := d.health.eyeLow.reverse.foldl (fun d e => trend 6 (eyeUnit e.1) 1 e.2 d) d
  let d := (List.range 132).foldl (fun d c =>
    let n := (d.cluster c).eccCorr.val.toNat - bget 0 c d.health.sramAt
    if 100 < n then trend (clusterDie c) c 2 n d else d) d
  let at_ := (List.range 132).foldl (fun b c => bput 0 c (d.cluster c).eccCorr.val.toNat b) d.health.sramAt
  { d with health := { d.health with eyeLow := [], sramAt := at_ } }

/-- A prediction is due (R448): 3,600 s after a cold start, then every 86,400 s of operating time. -/
def HealthState.predDue (h : HealthState) : Bool :=
  if h.predicted then decide (h.predOper + 86400 ≤ h.operS) else decide (h.startOper + 3600 ≤ h.operS)

/-- LIFE_PREDICTION (R447 to R449): `ddrM0` and `ddrM1` are the corrected LPDDR5X errors of each die since the last. -/
def lifePrediction (ddrM0 ddrM1 : Nat) (d : Dev) : Dev :=
  if !d.health.predDue || (bget {} 3 d.boot.procs : FwState).restarting then d
  else
    let c := Counter.add d.health.ddrCorr (ddrM0 + ddrM1)
    let d := satEvent (barHkp + 0x170) d.health.ddrCorr c { d with health := { d.health with ddrCorr := c } }
    let w := worstDamage d.damages 0 (0, { num := 0, den := 1 })
    let life := w.2.lifeH
    let band := w.2.bandH w.1
    let h := { d.health with lifeH := BitVec.ofNat 32 life, lifeBandH := BitVec.ofNat 32 (satTo 0xFFFFFFFF band),
                             lifeMech := BitVec.ofNat 2 w.1, predTime := d.now, predicted := true,
                             predOper := d.health.operS }
    let d := healthEvent { code := 0x2000, severity := Config.severity 0x2000 0, arg0 := life, arg1 := band, arg2 := w.1 }
      { d with health := h }
    let d := if life < 10000 && !d.health.lifeWarn then
        healthEvent { code := 0x2001, severity := 2, arg0 := life, arg1 := band, arg2 := w.1 }
          { d with health := { d.health with lifeWarn := true } }
      else d
    let d := trends ddrM0 ddrM1 d
    if d.boot.nvStopped then d else writeWear d

end Sys2Proof.Machine
end

