-- ==== Sys2Proof/Machine/PlanSections.lean ====
section
/-!
DEFINITION. The layouts of the sections that plan the work: the Tick Plan 0x20 (R224, R241 to R244), the programs 0x21 (R202), the
weights 0x22 (R245) and Burlap's plan 0x27 (R389).
-/

namespace Sys2Proof.Machine

open Sys2Proof

/-! ### Tensor descriptors (R224) -/

/-- A FORMAT code (R224). -/
def formatOf : Nat → Format
  | 0 => .int4 | 1 => .int8 | 2 => .uint8 | 3 => .fp8e4m3 | 4 => .fp8e5m2 | 5 => .bf16 | 6 => .fp16 | 7 => .fp32 | 8 => .int32
  | 9 => .mxfp4 | 10 => .mxfp6e2m3 | 11 => .mxfp6e3m2 | 12 => .mxfp8e4m3 | 13 => .mxfp8e5m2 | 14 => .mxint8
  | _ => Config.reservedFormat

/-- A SPACE code (R224). -/
def spaceOf : Nat → Space
  | 0 => .coreLocal | 1 => .cluster | 2 => .memSide | 3 => .iod | 4 => .lpddr
  | n => Config.reservedSpace n

/-- A tensor descriptor (R224). -/
def tensorRec (b : List Byte) : Tensor :=
  { format := formatOf (fieldAt b 0 0 4), rank := fieldAt b 0 4 3, space := spaceOf (fieldAt b 0 8 3), die := fieldAt b 4 0 3,
    cluster := fieldAt b 4 3 5, core := fieldAt b 4 8 6, addr := 2 ^ 32 * fieldAt b 4 16 8 + wordAt b 8,
    extents := (List.range 6).map (fun i => wordAt b (0x10 + 4 * i)),
    strides := (List.range 5).map (fun i => wordAt b (0x28 + 4 * i)) }

/-! ### Records of a plan (R243, R244) -/

/-- A KIND code of a window, none of a reserved one. -/
def winKind : Nat → Option WinKind
  | 0 => some .core | 1 => some .tweed | 2 => some .chambray | 3 => some .serge | 4 => some .assembly | 5 => some .transmit
  | 6 => some .host | 7 => some .recompute | 8 => some .golden | 9 => some .staging | _ => none

/-- A window record (R243). A reserved KIND leaves what the window is open. -/
def windowRec (b : List Byte) : WindowRec :=
  let code := fieldAt b 0 0 4
  let target := fieldAt b 0 16 16
  { kind := (winKind code).getD (Config.reservedKind code), fixedOrder := flagAt b 0 4, safetyPath := flagAt b 0 5,
    target := target, openNs := intAt b 4, durNs := wordAt b 8, program := noneAt 0xFFFF (fieldAt b 0x0C 0 16),
    edgeFirst := wordAt b 0x10, edgeCount := fieldAt b 0x14 0 16, tallyFirst := fieldAt b 0x14 16 8,
    tallyCount := fieldAt b 0x14 24 8, streams := maskBits 48 (wordAt b 0x18 + 2 ^ 32 * fieldAt b 0x1C 0 16),
    outputs := match winKind code with
      | some .assembly => Config.outputsOf target
      | some .transmit => Config.outputsOf target
      | _ => [],
    step := Config.stepOf target }

/-- A core group (R244): its clusters are those of its die. -/
def groupRec (b : List Byte) : GroupRec :=
  { die := fieldAt b 0 0 3, part := fieldAt b 0 8 6, clusters := maskBits 32 (wordAt b 4),
    cores := maskBits 64 (wordAt b 8 + 2 ^ 32 * wordAt b 0x0C) }

/-- A partition (R244). -/
def partRec (b : List Byte) : PartRec :=
  { die := fieldAt b 0 0 3, chambray := flagAt b 0 3, clusters := maskBits 32 (wordAt b 4) }

/-- An edge (R244). -/
def edgeRec (b : List Byte) : EdgeRec :=
  { producer := fieldAt b 0 0 16, consumer := fieldAt b 0 16 16, stream := flagAt b 4 0, propagate := flagAt b 4 1,
    prevTick := flagAt b 4 2, viaDie := if fieldAt b 4 8 3 < 4 then some (fieldAt b 4 8 3) else none, inputDesc := fieldAt b 4 16 16,
    exitRouter := fieldAt b 8 0 5, exitDefault := flagAt b 8 5, tally := fieldAt b 8 8 8 }

/-- A weight placement (R244). -/
def weightRec (b : List Byte) : WeightRec :=
  { blob := fieldAt b 0 0 16, dest := fieldAt b 0 16 16, stageSrc := noneAt 0xFFFF (fieldAt b 4 0 16) }

/-- A mode record with its tables (R242). -/
def modeRec (sec b : List Byte) : ModeRec :=
  { staged := flagAt b 0 1, ovlBank := fieldAt b 0 2 1, fallback := noneAt 0xFF (fieldAt b 0 8 8),
    transitions := maskBits 16 (fieldAt b 0 16 16), pMs := fieldAt b 4 0 7, n := fieldAt b 4 8 7, dMinor := fieldAt b 4 16 7,
    lNs := wordAt b 8, postGateMaxNs := wordAt b 0x0C,
    windows := (recordsAt sec (wordAt b 0x10) 0x20 (wordAt b 0x14)).map windowRec,
    groups := (recordsAt sec (wordAt b 0x18) 0x10 (fieldAt b 0x1C 0 16)).map groupRec,
    parts := (recordsAt sec (wordAt b 0x20) 8 (fieldAt b 0x1C 16 8)).map partRec,
    edges := (recordsAt sec (wordAt b 0x24) 0x10 (wordAt b 0x28)).map edgeRec,
    descs := (recordsAt sec (wordAt b 0x2C) 0x40 (fieldAt b 0x30 0 16)).map tensorRec,
    weights := (recordsAt sec (wordAt b 0x34) 0x10 (fieldAt b 0x38 0 16)).map weightRec,
    hostCoreUs := wordAt b 0x3C, recomputePages := wordAt b 0x40, stageBytes := wordAt b 0x44 }

/-- The mode record that a table of MODE_OFF names, none where it names none (R241). -/
def modeAt (sec : List Byte) (j : Nat) : Option (Nat × ModeRec) :=
  let off := wordAt sec (0x40 + 4 * j)
  let b := recordAt sec off 0x80
  if off = 0 || !flagAt b 0 0 then none else some (j, modeRec sec b)

/-- Section 0x20 (R241). -/
def planSection (b : List Byte) : PlanSection :=
  { initialMode := fieldAt b 0 24 8, ovlBytes0 := wordAt b 4, ovlBytes1 := wordAt b 8, ovlWords0 := fieldAt b 0x0C 0 12,
    ovlWords1 := fieldAt b 0x0C 16 12, modes := (List.range 16).filterMap (modeAt b) }

/-- Section 0x27 (R389): one plan in the formats of section 0x20, its record that of mode 0. -/
def burlapSection (b : List Byte) : BurlapSection :=
  match modeAt b 0 with
  | some m => { windows := m.2.windows, groups := m.2.groups, edges := m.2.edges, descs := m.2.descs, weights := m.2.weights }
  | none => { windows := [], groups := [], edges := [], descs := [], weights := [] }

/-! ### Programs and weights -/

/-- The 64-bit instructions of a program, of its code's bytes. -/
def codeWords (b : List Byte) (count : Nat) : List (BitVec 64) := (recordsAt b 0 8 count).map (fun w => BitVec.ofNat 64 (leNat w))

/-- A program (R202). -/
def programRec (sec b : List Byte) : Program :=
  { code := codeWords (sec.drop (wordAt b 0)) (fieldAt b 4 0 12), fixedOrder := flagAt b 4 12, maxCycles := wordAt b 8 }

/-- A part of section 0x21 (R202, R402): its programs, numbered from `first`. -/
def programSection (first : Nat) (b : List Byte) : List (Nat × Program) :=
  (tableAt b 0x40 0x10 (wordAt b 4)).map (fun e => (first + e.1, programRec b e.2))

/-- A blob (R245). -/
def blobRec (part : Nat) (sec b : List Byte) : Blob :=
  { bytes := recordAt sec (wordAt b 0) (wordAt b 4), format := formatOf (fieldAt b 8 0 4), model := fieldAt b 8 8 8, part := part }

/-- A part of section 0x22 (R245): its blobs, numbered from `first`. -/
def blobSection (first : Nat) (b : List Byte) : List (Nat × Blob) :=
  (tableAt b (wordAt b 8) 0x10 (wordAt b 4)).map (fun e => (first + e.1, blobRec (fieldAt b 0 16 1) b e.2))

end Sys2Proof.Machine
end

