-- ==== Sys2Proof/Machine/EngineSections.lean ====
section
/-!
DEFINITION. The layouts of the sections of the engines: the Damask classes 0x23 (R269), Serge's problems 0x24 (R295 to R298), the
Tweed records 0x25 (R170 to R172) and the grid and its Chambray operations 0x26 (R190, R191).
-/

namespace Sys2Proof.Machine

open Sys2Proof

/-! ### Section 0x23 -/

/-- A Damask class (R269), none where it is not defined. -/
def dmkClassRec (b : List Byte) : Option DmkClass :=
  if !flagAt b 0 0 then none
  else
    some { half := fieldAt b 0 1 1, snapshot := flagAt b 0 2, priority := fieldAt b 0 8 4, forkClass := fieldAt b 0 16 4,
           retainTicks := fieldAt b 4 0 16, maxSeq := fieldAt b 8 0 13, maxPages := fieldAt b 0x0C 0 12,
           snapBytes := fieldAt b 0x10 0 16 }

/-- Section 0x23 (R269). -/
def damaskSection (b : List Byte) : DmkSection :=
  { classes := present dmkClassRec (tableAt b 0x40 0x20 (fieldAt b 0 16 8)), poolPages := [fieldAt b 4 0 14, fieldAt b 4 16 14],
    freeTarget := [fieldAt b 8 0 16, fieldAt b 8 16 16], snapSlots := [fieldAt b 0x0C 0 16, fieldAt b 0x0C 16 16],
    snapSlotBytes := wordAt b 0x10, poolBase := [wordAt b 0x14, wordAt b 0x18],
    snapBase := [wordAt b 0x1C + 2 ^ 32 * fieldAt b 0x20 0 8, wordAt b 0x24 + 2 ^ 32 * fieldAt b 0x28 0 8] }

/-! ### Section 0x24 -/

/-- A variable block (R296). -/
def varBlockRec (b : List Byte) : VarBlock :=
  { type := fieldAt b 0 0 3, fixed := flagAt b 0 3, validation := flagAt b 0 4, calStream := noneAt 63 (fieldAt b 0 8 6),
    scale := f32At b 4 }

/-- A factor (R297). -/
def factorRec (b : List Byte) : FactorRec :=
  { kind := fieldAt b 0 0 4, robust := flagAt b 0 4,
    blocks := [fieldAt b 4 0 16, fieldAt b 4 16 16, fieldAt b 8 0 16, fieldAt b 8 16 16].filterMap (noneAt 0xFFFF),
    huber := f32At b 0x0C }

/-- A noise record (R298). -/
def noiseRec (b : List Byte) : NoiseRec :=
  { role := fieldAt b 0 0 6, sigma := f32At b 4, holdRate := f32At b 8, huber := f32At b 0x0C }

/-- A CLASS code (R295). -/
def slotClass : Nat → SlotClass
  | 0 => .ego | 1 => .scan | 2 => .calib | _ => Config.reservedClass

/-- A slot record (R295), none where the slot is not defined. -/
def slotRec (sec b : List Byte) : Option SlotRec :=
  if !flagAt b 0 0 then none
  else
    some { unit := fieldAt b 0 1 2, cls := slotClass (fieldAt b 0 3 2), gnssAlign := flagAt b 0 5,
           modeMask := maskBits 16 (fieldAt b 0 16 16), maxIter := fieldAt b 4 0 7, spanWindows := fieldAt b 4 8 6,
           nw := fieldAt b 4 16 7, valIters := fieldAt b 4 24 4,
           blocks := (recordsAt sec (wordAt b 8) 8 (fieldAt b 0x0C 0 16)).map varBlockRec,
           factors := (recordsAt sec (wordAt b 0x10) 0x10 (fieldAt b 0x14 0 21)).map factorRec,
           nnzL := wordAt b 0x18, supernodes := fieldAt b 0x1C 0 16,
           params := (List.range 8).map (fun i => f32At b (0x20 + 4 * i)), cutoffUs := fieldAt b 0x40 0 16,
           packetDesc := noneAt 0xFFFF (fieldAt b 0x40 16 16), geometry := (List.range 5).map (fun i => f32At b (0x44 + 4 * i)),
           inputs := maskBits 48 (wordAt b 0x58 + 2 ^ 32 * fieldAt b 0x5C 0 16) }

/-- Section 0x24 (R295). -/
def sergeSection (b : List Byte) : SergeSection :=
  { slots := present (slotRec b) (tableAt b 0x40 0x80 16), noise := (recordsAt b (wordAt b 4) 0x10 (fieldAt b 8 0 8)).map noiseRec }

/-! ### Section 0x25 -/

/-- A query record (R172). -/
def queryRec (b : List Byte) : QueryRec :=
  { inLevel := fieldAt b 0 0 2, outLevel := fieldAt b 0 2 2, kernel := fieldAt b 0 4 2, probeBound := fieldAt b 0 8 4,
    dest := fieldAt b 0 16 16 }

/-- A farthest-point sampling record (R172). -/
def fpsRec (b : List Byte) : FpsRec :=
  { points := flagAt b 0 0, level := fieldAt b 0 1 2, distXy := flagAt b 0 3, dest := fieldAt b 0 16 16,
    candMax := fieldAt b 4 0 17, samples := fieldAt b 8 0 14, lanes := fieldAt b 0x0C 0 11,
    streams := maskBits 48 (wordAt b 0x10 + 2 ^ 32 * fieldAt b 0x14 0 16), seedX := f32At b 0x18, seedY := f32At b 0x1C }

/-- A scatter channel record (R172). -/
def scatterRec (b : List Byte) : ScatterRec :=
  { source := fieldAt b 0 0 4, bin := fieldAt b 0 4 5, scale := BitVec.ofNat 16 (fieldAt b 0 16 16) }

/-- An engine record (R171). -/
def tweedRec (sec b : List Byte) : TweedRec :=
  let v3 (off step : Nat) : Vec3 := { x := f32At b off, y := f32At b (off + step), z := f32At b (off + 2 * step) }
  { enable := flagAt b 0 0, levels := fieldAt b 0 1 2 + 1, voxel := v3 4 4, roiMin := v3 0x10 8, roiMax := v3 0x14 8,
    levelCellMax := (List.range 4).map (fun i => wordAt b (0x28 + 4 * i)),
    queries := (recordsAt sec (wordAt b 0x38) 8 (fieldAt b 0x3C 0 8)).map queryRec,
    fps := (recordsAt sec (wordAt b 0x40) 0x20 (fieldAt b 0x3C 8 8)).map fpsRec,
    scatter := (recordsAt sec (wordAt b 0x44) 4 (fieldAt b 0x3C 16 8)).map scatterRec,
    scatterLevel := fieldAt b 0x48 0 2, scatterBf16 := flagAt b 0x48 2, gridDest := fieldAt b 0x4C 0 16,
    gridMapDest := fieldAt b 0x4C 16 16, pointsDest := fieldAt b 0x50 0 16,
    cellDest := [fieldAt b 0x54 0 16, fieldAt b 0x54 16 16, fieldAt b 0x58 0 16, fieldAt b 0x58 16 16] }

/-- The offsets of the modes' records in a header (R170, R190), of those that have one. -/
def modeOffsets (b : List Byte) : List (Nat × Nat) :=
  ((List.range 16).map (fun j => (j, wordAt b (0x40 + 4 * j)))).filter (fun e => decide (e.2 ≠ 0))

/-- Section 0x25 (R170): of each mode the main engine's record, then the fallback engine's. -/
def tweedSection (b : List Byte) : TweedSection :=
  { sliceUs := fieldAt b 4 0 16, storePoints := wordAt b 8, storePointsFb := wordAt b 0x0C,
    main := (modeOffsets b).map (fun e => (e.1, tweedRec b (recordAt b e.2 0x80))),
    fb := (modeOffsets b).map (fun e => (e.1, tweedRec b (recordAt b (e.2 + 0x80) 0x80))) }

/-! ### Section 0x26 -/

/-- An OP code of a Chambray record (R191). -/
def chbOpOf : Nat → ChbOp
  | 0 => .sample | 1 => .lift | 2 => .paint | 3 => .box | n => Config.reservedOp n

/-- An operation record (R191). How the Tick Plan shares its work among the units is open (R175). -/
def chbRec (b : List Byte) : ChbRec :=
  { op := chbOpOf (fieldAt b 0 0 3), order := flagAt b 0 3, norm := flagAt b 0 4, frame := fieldAt b 0 5 1,
    pyrLevel := fieldAt b 0 6 2, units := maskBits 4 (fieldAt b 0 8 4), cams := maskBits 16 (fieldAt b 0 16 16),
    src := fieldAt b 4 0 16, dest := fieldAt b 4 16 16, aux := fieldAt b 8 0 16, acc := fieldAt b 8 16 16,
    channels := fieldAt b 0x0C 0 9, inFormat := fieldAt b 0x0C 9 2, outFormat := fieldAt b 0x0C 11 2,
    reduce := fieldAt b 0x0C 13 2, heights := (List.range (fieldAt b 0x10 0 4)).map (fun i => f32At b (0x14 + 4 * i)),
    bandTable := fieldAt b 0x10 16 16, dMin := f32At b 0x14, dMax := f32At b 0x18, dBins := fieldAt b 0x1C 0 8,
    depthKind := fieldAt b 0x1C 8 2, topk := fieldAt b 0x1C 10 5, pMin := BitVec.ofNat 16 (fieldAt b 0x1C 16 16),
    wEps := f32At b 0x20, rowFirst := fieldAt b 0x34 0 16, rowCount := fieldAt b 0x34 16 16, window := fieldAt b 0x38 0 16,
    shares := Config.sharesOf b }

/-- A grid record with its operations (R190). -/
def gridRec (sec b : List Byte) : GridRec :=
  { w := fieldAt b 0 0 16, h := fieldAt b 0 16 16, pitch := f32At b 4, hbinBase := f32At b 8, hbinH := f32At b 0x0C,
    hbinCount := fieldAt b 0x10 0 6, ops := (recordsAt sec (wordAt b 0x14) 0x40 (fieldAt b 0x10 8 8)).map chbRec }

/-- Section 0x26 (R190). -/
def gridSection (b : List Byte) : List (Nat × GridRec) :=
  (modeOffsets b).map (fun e => (e.1, gridRec b (recordAt b e.2 0x20)))

end Sys2Proof.Machine
end

