-- ==== Sys2Proof/Machine/LinkSections.lean ====
section
/-!
DEFINITION. The layouts of the sections of the ports and of safety: the host section 0x30 (R360), the vehicle link 0x31 (R378), the
safety section 0x32 (R394) and the trace mask 0x33 (R420).
-/

namespace Sys2Proof.Machine

open Sys2Proof

/-! ### Section 0x30 -/

/-- A query lane (R360). -/
def laneRec (b : List Byte) : LaneRec :=
  { budgetUs := fieldAt b 0 0 24, nextMinor := flagAt b 0 24, thisMajor := flagAt b 0 25, maxOutstanding := fieldAt b 0 26 6 }

/-- A port record (R360). -/
def hostPortRec (b : List Byte) : HostPortRec :=
  { enable := flagAt b 0 0, maxForks := fieldAt b 0 8 8, resultStoreKib := fieldAt b 0 16 16, streamBw := wordAt b 4,
    lanes := (recordsAt b 0x40 8 (fieldAt b 0 1 4)).map laneRec }

/-- A host model record (R360). -/
def hostModelRec (b : List Byte) : HostModel :=
  { program := fieldAt b 0 0 16, modeMask := maskBits 16 (fieldAt b 0 16 16), costUs := wordAt b 4, outCh := fieldAt b 8 0 9,
    outFormat := fieldAt b 8 9 4, usesSeq := flagAt b 8 13, inProduct := fieldAt b 0x0C 0 16 }

/-- A grid product record (R360). -/
def productRec (b : List Byte) : ProductRec :=
  { modeMask := maskBits 16 (fieldAt b 0 0 16), format := fieldAt b 0 16 4, channels := fieldAt b 4 0 9,
    descs := (List.range 16).map (fun j => leAt b (8 + 2 * j) 2) }

/-- Section 0x30 (R360). -/
def hostSection (b : List Byte) : HostSection :=
  { privPort := if fieldAt b 4 0 3 < 4 then some (fieldAt b 4 0 3) else none, privKeyDigest := leAt b 0x10 32,
    gridSeq := fieldAt b 0x30 0 12, trackSeqBase := fieldAt b 0x30 16 12, ports := (recordsAt b 0x40 0x80 4).map hostPortRec,
    models := (recordsAt b (wordAt b 8) 0x10 (fieldAt b 0 16 8)).map hostModelRec,
    products := (recordsAt b (wordAt b 0x0C) 0x28 (fieldAt b 0 24 8)).map productRec }

/-! ### Section 0x31 -/

/-- A MAC address: its low word, then its upper half. -/
def macAt (b : List Byte) (off : Nat) : Nat := wordAt b off + 2 ^ 32 * fieldAt b (off + 4) 0 16

/-- Section 0x31 (R378). -/
def linkSection (b : List Byte) : LinkSection :=
  { roleSlave := [flagAt b 0 16, flagAt b 0 17], etherType := fieldAt b 4 0 16, pcpFast := fieldAt b 4 16 3,
    pcpBulk := fieldAt b 4 19 3, vid := fieldAt b 8 0 12, ctrlMac := macAt b 0x0C, portMac := [macAt b 0x14, macAt b 0x1C],
    deviceId := BitVec.ofNat 32 (wordAt b 0x24), ctrlId := BitVec.ofNat 32 (wordAt b 0x28), gptpDomain := fieldAt b 0x2C 0 8,
    logSync := (BitVec.ofNat 8 (fieldAt b 0x2C 8 8)).toInt, stepThUs := fieldAt b 0x2C 16 16, freshUs := fieldAt b 0x30 0 16,
    consentMaxMs := fieldAt b 0x30 16 16 }

/-! ### Section 0x32 -/

/-- A golden segment (R394). -/
def goldenSeg (b : List Byte) : GoldenSeg := { program := fieldAt b 0 0 16, sig := BitVec.ofNat 64 (leAt b 8 8) }

/-- Section 0x32 (R394). -/
def safetySection (b : List Byte) : SafetySection :=
  { disMax := (List.range 5).map (fun i => f32At b (4 + 4 * i)), resumeTicks := fieldAt b 0x18 0 8, goldenCluOff := wordAt b 0x1C,
    inputs := recordAt b (wordAt b 0x20) (wordAt b 0x24), segs := (recordsAt b (wordAt b 0x28) 0x10 (fieldAt b 0x2C 0 8)).map goldenSeg }

/-! ### Section 0x33 -/

/-- The trace points that section 0x33 enables (R420). -/
def traceSection (b : List Byte) : List Nat :=
  ((recordAt b 0x40 8192).zipIdx).flatMap (fun e => ((List.range 8).filter (fun i => e.1.getLsbD i)).map (fun i => 8 * e.2 + i))

end Sys2Proof.Machine
end

