-- ==== Sys2Proof/Machine/SensorSections.lean ====
section
/-!
DEFINITION. The layouts of the sections that describe the sensors: the stream table 0x10 (R114, R125 to R127), the camera ports
0x11 (R86, R102), the parser descriptors 0x12 (R109), the calibration tables 0x13 (R134) and the warp tables 0x14 (R136).
-/

namespace Sys2Proof.Machine

open Sys2Proof

/-! ### Section 0x10 -/

/-- A signal record (R114). -/
def signalRec (b : List Byte) : SignalRec :=
  { startBit := fieldAt b 0 0 10, length := fieldAt b 0 10 6, bigEndian := flagAt b 0 16, signed := flagAt b 0 17,
    role := fieldAt b 0 18 6, invalidEn := flagAt b 0 24, scale := f32At b 4, offset := f32At b 8, invalidVal := wordAt b 0x0C }

/-- A CAN bus record (R125), none where the bus is not in use. -/
def canBusRec (b : List Byte) : Option CanBus :=
  if flagAt b 0 0 then
    some { restricted := flagAt b 0 1, fdEn := flagAt b 0 2, nbrp := fieldAt b 0 8 8, ntseg1 := fieldAt b 0 16 8,
           ntseg2 := fieldAt b 0 24 8, nsjw := fieldAt b 4 0 8, dbrp := fieldAt b 4 8 8, dtseg1 := fieldAt b 4 16 6,
           dtseg2 := fieldAt b 4 22 5, dsjw := fieldAt b 4 27 5 }
  else none

/-- The lidar fields of an entry (R127). -/
def lidarRec (b : List Byte) : LidarFields :=
  { speed := fieldAt b 0x20 0 2, phySlave := flagAt b 0x20 2, domain := fieldAt b 0x20 8 8,
    logSync := (BitVec.ofNat 8 (fieldAt b 0x20 16 8)).toInt, parser := fieldAt b 0x20 24 3, pointRate := wordAt b 0x24,
    quotaMain := wordAt b 0x28, quotaFb := wordAt b 0x2C, fbDecim := fieldAt b 0x30 0 4, maxTransitUs := wordAt b 0x34,
    portMac := wordAt b 0x38 + 2 ^ 32 * fieldAt b 0x3C 0 16 }

/-- The camera fields of an entry (R127). -/
def cameraRec (b : List Byte) : CameraFields :=
  { vcMap := (List.range (fieldAt b 0x20 6 2)).map (fun i => fieldAt b 0x20 (2 * i) 2), dataType := fieldAt b 0x20 8 8,
    framesPerTick := fieldAt b 0x20 16 2, pyrLevels := fieldAt b 0x20 18 2, outFormat := fieldAt b 0x20 20 2,
    cfa := fieldAt b 0x20 22 4, width := fieldAt b 0x24 0 16, height := fieldAt b 0x24 16 16, bandRows := fieldAt b 0x28 0 16 }

/-- The IMU fields of an entry (R127). -/
def imuRec (b : List Byte) : ImuFields :=
  { syncMode := flagAt b 0x20 0, syncPolHigh := flagAt b 0x20 1, drdyFalling := flagAt b 0x20 2, spiMode := fieldAt b 0x20 3 2,
    spiDiv := fieldAt b 0x20 8 8, syncWidthUs := fieldAt b 0x20 16 6, syncRateHz := fieldAt b 0x24 0 16,
    cmd := recordAt b 0x28 (min 4 (fieldAt b 0x2C 0 3)), rxLen := fieldAt b 0x2C 8 6, checkKind := fieldAt b 0x2C 14 2,
    sigFirst := fieldAt b 0x30 0 8, sigCount := fieldAt b 0x30 8 8 }

/-- The CAN fields of an entry (R127). -/
def canRec (b : List Byte) : CanFields :=
  { canId := fieldAt b 0x20 0 29, ide := flagAt b 0x20 29, fdf := flagAt b 0x20 30, fdfChk := flagAt b 0x20 31,
    idMask := fieldAt b 0x24 0 29, minLen := fieldAt b 0x28 0 7, checkKind := fieldAt b 0x28 7 1,
    sigFirst := fieldAt b 0x30 0 8, sigCount := fieldAt b 0x30 8 8 }

/-- The GNSS fields of an entry (R127). -/
def gnssRec (b : List Byte) : GnssFields := { gga := flagAt b 0x20 0, rmc := flagAt b 0x20 1, zda := flagAt b 0x20 2 }

/-- The fields of an entry's SOURCE (R126, R127), none of a reserved code. -/
def sourceRec (b : List Byte) : Option SourceFields :=
  match fieldAt b 0 1 3 with
  | 0 => some (.lidar (lidarRec b))
  | 1 => some (.camera (cameraRec b))
  | 2 => some (.imu (imuRec b))
  | 3 => some (.can (canRec b))
  | 4 => some (.gnss (gnssRec b))
  | _ => none

/-- An ALIGN_KIND (R57), none of a reserved code. -/
def alignKind : Nat → Option AlignKind
  | 0 => some .point | 1 => some .rowBand | 2 => some .egoInput | _ => none

/-- A stream entry (R126), none where VALID is clear. -/
def streamRec (b : List Byte) : Option StreamEntry :=
  match flagAt b 0 0, alignKind (fieldAt b 0 4 2), sourceRec b with
  | true, some k, some src =>
    some { kind := k, inAge := flagAt b 0 6, port := fieldAt b 0 8 4, modeMask := maskBits 16 (fieldAt b 4 0 16),
           windowUs := wordAt b 8, gateUs := wordAt b 0x0C, horizonUs := wordAt b 0x10, spanUs := wordAt b 0x14,
           periodUs := wordAt b 0x18, declLatNs := wordAt b 0x1C, src := src }
  | _, _, _ => none

/-- Section 0x10 (R125). -/
def streamSection (b : List Byte) : StreamTable :=
  let head := recordAt b 0 0x40
  { entryCount := fieldAt head 0 16 8, poseExtrapLimitUs := wordAt head 4,
    sigs := (recordsAt b 0x1840 0x10 (fieldAt head 8 0 9)).map signalRec, buses := present canBusRec (tableAt head 0x10 8 4),
    gnssEn := flagAt head 0x30 0, ppsFalling := flagAt head 0x30 1, baud := fieldAt head 0x30 8 24,
    entries := present streamRec (tableAt b 0x40 0x80 48) }

/-! ### Section 0x11 -/

/-- An entry of an initialisation sequence (R86). -/
def initRec (b : List Byte) : InitEntry := { addr := leAt b 0 2, value := leAt b 2 2, op := leAt b 4 1 }

/-- A port record (R102), none where the port is not in use; tables lie at offsets from the start of the section. -/
def portRec (sec b : List Byte) : Option CameraPort :=
  if !flagAt b 0 0 then none
  else
    some { gear := fieldAt b 0 1 3, rtxEn := flagAt b 0 4, cciAddr := fieldAt b 0 8 7, cciRate := fieldAt b 0 16 2,
           trigLatNs := wordAt b 4, lineTimePs := wordAt b 8, centreRow := fieldAt b 0x0C 0 16,
           trigWidthUs := fieldAt b 0x0C 16 16, uplinkLatNs := wordAt b 0x10, readoutLatNs := wordAt b 0x14,
           fsTolUs := fieldAt b 0x18 0 16, expMinUs := wordAt b 0x1C, expMaxUs := wordAt b 0x20,
           gainMin := fieldAt b 0x24 0 16, gainMax := fieldAt b 0x24 16 16, targetLuma := fieldAt b 0x28 0 16,
           stepEv16 := fieldAt b 0x28 16 8, wbStep := fieldAt b 0x28 24 8, regExp := fieldAt b 0x2C 0 16,
           regGain := fieldAt b 0x2C 16 16, regHold := fieldAt b 0x30 0 16, regSentinel := fieldAt b 0x30 16 16,
           sentinelVal := fieldAt b 0x34 0 8, expInUs := flagAt b 0x34 8,
           init := (recordsAt sec (wordAt b 0x38) 8 (fieldAt b 0x3C 0 16)).map initRec,
           black := [fieldAt b 0x40 0 16, fieldAt b 0x40 16 16, fieldAt b 0x44 0 16, fieldAt b 0x44 16 16],
           ratio1 := fieldAt b 0x48 0 16, ratio2 := fieldAt b 0x48 16 16, satTh := fieldAt b 0x4C 0 20,
           blend := fieldAt b 0x50 0 20,
           knots := (recordsAt sec (wordAt b 0x54) 8 (fieldAt b 0x58 0 8)).map (fun k => (fieldAt k 0 0 20, fieldAt k 4 0 20)),
           weights := (recordAt sec (wordAt b 0x5C) 128).map (·.toNat), tone := recordAt sec (wordAt b 0x60) 1024 }

/-- Section 0x11 (R102): a port is enabled by PORT_MASK and by its own ENABLE. -/
def cameraSection (b : List Byte) : List (Nat × CameraPort) :=
  (present (portRec b) (tableAt b 0x40 0x80 16)).filter (fun p => flagAt b 4 p.1)

/-! ### Section 0x12 -/

/-- A field of a parser descriptor (R109). -/
def parserFieldRec (b : List Byte) : ParserField :=
  { offset := fieldAt b 0 0 12, bytes := fieldAt b 0 12 3, be := flagAt b 0 15, signed := flagAt b 0 16, inBlock := flagAt b 0 17,
    scale := f32At b 4 }

/-- A parser descriptor (R109). -/
def parserRec (sec b : List Byte) : ParserDesc :=
  { udpMatch := flagAt b 0 0, matchValue := fieldAt b 0 16 16, pktLen := fieldAt b 4 0 16, hdrLen := fieldAt b 4 16 16,
    blockStride := fieldAt b 8 0 16, blockCount := fieldAt b 8 16 7, blockHdrLen := fieldAt b 8 24 8,
    pointStride := fieldAt b 0x0C 0 16, pointsPerBlock := fieldAt b 0x0C 16 8, tsOff := fieldAt b 0x10 0 16,
    tsFormat := fieldAt b 0x10 16 2, tsBe := flagAt b 0x10 18, spherical := flagAt b 0x10 19, minRange := f32At b 0x14,
    elev := if wordAt b 0x18 = 0 then []
      else (recordsAt sec (wordAt b 0x18) 4 (fieldAt b 0x1C 0 8)).map (fun e => f32At e 0),
    fields := (recordsAt b 0x20 8 8).map parserFieldRec }

/-- Section 0x12 (R109). -/
def parserSection (b : List Byte) : List (Nat × ParserDesc) :=
  (tableAt b 0x10 0x80 (fieldAt b 0 16 8)).map (fun e => (e.1, parserRec b e.2))

/-! ### Section 0x13 -/

/-- The values of a calibration record (R134). -/
def calValues (b : List Byte) : CalRecord :=
  { q := { w := f32At b 4, x := f32At b 8, y := f32At b 0x0C, z := f32At b 0x10 },
    t := { x := f32At b 0x14, y := f32At b 0x18, z := f32At b 0x1C }, toffNs := intAt b 0x20 }

/-- The limits of a calibration record (R134). -/
def calLimits (b : List Byte) : CalLimits :=
  { extrAdapt := flagAt b 0 1, toffAdapt := flagAt b 0 2, stepTUm := fieldAt b 0x24 0 16, stepRUrad := fieldAt b 0x24 16 16,
    stepToff := fieldAt b 0x28 0 16, driftR := fieldAt b 0x28 16 16, driftTMm := fieldAt b 0x2C 0 16,
    driftToffUs := fieldAt b 0x2C 16 16 }

/-- Section 0x13 (R134), with its digest in the manifest (R401). -/
def calSection (digest : Nat) (b : List Byte) : CalSection :=
  let recs := (tableAt b 0x40 0x40 (fieldAt b 0 16 8)).filter (fun e => flagAt e.2 0 0)
  { digest := digest, confirmCount := fieldAt b 4 0 4, gainMin := fieldAt b 4 4 8, deferLimit := fieldAt b 8 0 16,
    records := recs.map (fun e => (e.1, calValues e.2)), limits := recs.map (fun e => (e.1, calLimits e.2)) }

/-! ### Section 0x14 -/

/-- The nodes of a grid (R136): pairs of FP32 numbers, row by row. -/
def gridNodes (sec : List Byte) (off count : Nat) : List (F32 × F32) :=
  (recordsAt sec off 8 count).map (fun n => (f32At n 0, f32At n 4))

/-- A camera model (R136), none where it is not present. -/
def warpRec (sec b : List Byte) : Option WarpModel :=
  if !flagAt b 0 0 then none
  else
    let cols := fieldAt b 0 8 8
    let rows := fieldAt b 0 16 8
    let s := fieldAt b 0 24 3
    let w := fieldAt b 0x1C 0 16
    let h := fieldAt b 0x1C 16 16
    let nodes (n : Nat) : Nat := (n + 2 ^ s - 1) / 2 ^ s + 1
    some { fwdCols := cols, fwdRows := rows, invStepLog2 := s, alphaMin := f32At b 4, alphaMax := f32At b 8,
           betaMin := f32At b 0x0C, betaMax := f32At b 0x10, width := w, height := h, zMin := f32At b 0x20,
           fwd := gridNodes sec (wordAt b 0x14) (cols * rows), inv := gridNodes sec (wordAt b 0x18) (nodes w * nodes h) }

/-- Section 0x14 (R136). -/
def warpSection (b : List Byte) : List (Nat × WarpModel) := present (warpRec b) (tableAt b 0x40 0x40 16)

end Sys2Proof.Machine
end

