-- ==== Sys2Proof/Machine/Manifest.lean ====
section
/-!
DEFINITION. The layouts of a slot (spec/17_image_boot_and_firmware.md R399 to R404): the manifest, its section entries, the
signature block, a certificate; and the image that the bytes of its sections spell.
-/

namespace Sys2Proof.Machine

open Sys2Proof

/-! ### The manifest and the signature block (R400, R401, R404) -/

/-- A section entry (R401). -/
def sectionEntryRec (b : List Byte) : SectionEntry :=
  { id := fieldAt b 0 0 8, part := fieldAt b 0 8 1, phase := fieldAt b 0 9 1, offset := wordAt b 4, bytes := wordAt b 8,
    digest := leAt b 0x10 32 }

/-- The manifest (R400). -/
def manifestRec (b : List Byte) : Manifest :=
  let head := recordAt b 0 0x40
  { magic := wordAt head 0, formatVersion := fieldAt head 4 0 16, sectionCount := fieldAt head 4 16 6, manifestBytes := wordAt head 8,
    imageBytes := wordAt head 0x0C, serial := BitVec.ofNat 32 (wordAt head 0x10), rollbackIndex := fieldAt head 0x14 0 7,
    lifecycleMask := BitVec.ofNat 3 (fieldAt head 0x14 8 3), retire := flagAt head 0x14 11, caquecoVersion := wordAt head 0x18,
    memGroups := fieldAt head 0x1C 0 3, memRanks := flagAt head 0x1C 3, inlineEcc := flagAt head 0x1C 4, memGib := fieldAt head 0x1C 8 8,
    buildId := leAt head 0x20 32, entries := (recordsAt b 0x40 0x40 (fieldAt head 4 16 6)).map sectionEntryRec }

/-- What the first 0x40 bytes of a slot show (R408). -/
def headerRec (head : List Byte) : SlotHeader :=
  { magicOk := decide (wordAt head 0 = 0x4D495A4C), serial := BitVec.ofNat 32 (wordAt head 0x10),
    rollbackIndex := fieldAt head 0x14 0 7 }

/-- The bytes of a certificate: its fields and its signature (R404). -/
def certBytes : Nat := 30048

/-- A certificate (R404). -/
def certRec (b : List Byte) : Certificate :=
  let f := recordAt b 0 0x100
  { magic := wordAt f 0, kind := fieldAt f 4 0 8, format := fieldAt f 4 8 8, keyId := BitVec.ofNat 64 (leAt f 8 8),
    lifecycleMask := BitVec.ofNat 3 (fieldAt f 0x10 0 3), bindSerial := BitVec.ofNat 64 (leAt f 0x14 8), publicKey := recordAt f 0x20 64,
    signature := recordAt b 0x100 29792 }

/-- The signature block (R404). -/
def blockRec (b : List Byte) : SignatureBlock :=
  { magic := wordAt b 0, formatVersion := fieldAt b 4 0 16, rootKey := recordAt b 0x40 64, cert := certRec (recordAt b 0x80 certBytes),
    manifestSig := recordAt b 0x7600 29792 }

/-! ### The sections of an image (R402) -/

/-- The sections by phase: the ID and the part (R402). -/
def phase0Parts : List (Nat × Nat) :=
  [(0x01, 0), (0x02, 0), (0x04, 0), (0x10, 0), (0x12, 0), (0x13, 0), (0x20, 0), (0x21, 0), (0x22, 0), (0x24, 0), (0x25, 0), (0x27, 0),
   (0x31, 0), (0x32, 0), (0x33, 0)]

/-- The sections of phase 1 (R402). -/
def phase1Parts : List (Nat × Nat) :=
  [(0x03, 0), (0x05, 0), (0x11, 0), (0x14, 0), (0x21, 1), (0x22, 1), (0x23, 0), (0x26, 0), (0x30, 0)]

/-- The place in the manifest of a section's part. -/
def placeOf (m : Manifest) (id part : Nat) : Option Nat := m.entries.findIdx? (fun e => decide (e.id = id) && decide (e.part = part))

/-- The bytes of a section's part in the image copy, none where it is absent or not yet read. -/
def partBytes (im : Image) (id part : Nat) : Option (List Byte) :=
  (placeOf im.manifest id part).bind (fun n => (im.sections.find? (fun s => s.1 = n)).map (·.2))

/-- The content of a section: its parts in PART order (R402). -/
def contentOf (im : Image) (id : Nat) : List Byte := (partBytes im id 0).getD [] ++ (partBytes im id 1).getD []

/-- The programs of section 0x21 whose code has been read (R202, R402): the directory is that of part 0's start. -/
def programsRead (im : Image) : List (Nat × Program) :=
  let b := contentOf im 0x21
  ((tableAt b 0x40 0x10 (wordAt b 4)).filter (fun e => decide (wordAt e.2 0 + 8 * fieldAt e.2 4 0 12 ≤ b.length))).map
    (fun e => (e.1, programRec b e.2))

/-- The blobs of section 0x22, numbered across both parts (R245). -/
def blobsRead (im : Image) : List (Nat × Blob) :=
  let b := (partBytes im 0x22 0).getD []
  blobSection 0 b ++ (match partBytes im 0x22 1 with
    | some c => blobSection (wordAt b 4) c
    | none => [])

/-- The image with what the bytes of a section now say. The firmware's sections 0x01 to 0x05 hold code, whose form the spec does
not give. -/
def decoded (im : Image) (id : Nat) : Image :=
  let b := contentOf im id
  match id with
  | 0x10 => { im with streams := streamSection b }
  | 0x11 => { im with cameras := cameraSection b }
  | 0x12 => { im with parsers := parserSection b }
  | 0x13 => { im with cal := calSection (((placeOf im.manifest 0x13 0).bind (fun n => im.manifest.entries[n]?)).map (·.digest) |>.getD 0) b }
  | 0x14 => { im with warp := warpSection b }
  | 0x20 => { im with plan := planSection b }
  | 0x21 => { im with programs := programsRead im }
  | 0x22 => { im with blobs := blobsRead im }
  | 0x23 => { im with damask := damaskSection b }
  | 0x24 => { im with serge := sergeSection b }
  | 0x25 => { im with tweed := tweedSection b }
  | 0x26 => { im with grids := gridSection b }
  | 0x27 => { im with burlap := burlapSection b }
  | 0x30 => { im with host := hostSection b }
  | 0x31 => { im with link := linkSection b }
  | 0x32 => { im with safety := safetySection b }
  | 0x33 => { im with traceMask := if (partBytes im 0x33 0).isSome then traceSection b else [] }
  | _ => im

/-- The image with the bytes of sections added to its copy, and what they say of the sections named. -/
def withSections (im : Image) (reads : List (Nat × List Byte)) (ids : List Nat) : Image :=
  ids.foldl decoded { im with sections := im.sections ++ reads }

/-- The image that a read of a slot gives: its manifest, and the sections of the given phases (R402). -/
def imageOf (parts : List (Nat × Nat)) (r : SlotRead) : Image :=
  withSections { Image.empty with manifest := manifestRec r.manifest, manifestDigest := r.manifestDigest, certDigest := r.certDigest }
    (r.sections.map (fun s => (s.entry, s.bytes))) ((parts.map (·.1)).eraseDups)

end Sys2Proof.Machine
end

