-- ==== Sys2Proof/Machine/Geometry.lean ====
section
/-!
DEFINITION. Vectors, quaternions and rigid transforms (spec/06_frames_and_calibration_tables.md R131) in FP64 and FP32:
Hamilton quaternions with the scalar first, a transform as a position and a quaternion, p_A = R p_B + t. Each operation
rounds as `Machine/Arith.lean` says.
-/

namespace Sys2Proof

/-- A vector's coordinates. -/
def Vec3.list (v : Vec3) : List F32 := [v.x, v.y, v.z]

/-- A quaternion's components, the scalar first. -/
def Quat.list (q : Quat) : List F32 := [q.w, q.x, q.y, q.z]

end Sys2Proof

namespace Sys2Proof.Machine

open Sys2Proof

/-! ### FP64 -/

/-- 1 in FP64. -/
def one64 : F64 := 0x3FF0000000000000

/-- 2 in FP64. -/
def two64 : F64 := 0x4000000000000000

/-- ½ in FP64. -/
def half64 : F64 := 0x3FE0000000000000

/-- The dot product. -/
def dot64 (m : Rounding) (a b : List F64) : F64 := m.sum64 (List.zipWith m.mul64 a b)

/-- The Euclidean norm. -/
def norm64 (m : Rounding) (a : List F64) : F64 := m.sqrt64 (dot64 m a a)

/-- A vector times a number. -/
def scale64 (m : Rounding) (s : F64) (a : List F64) : List F64 := a.map (m.mul64 s)

/-- The sum of two vectors. -/
def vadd64 (m : Rounding) (a b : List F64) : List F64 := List.zipWith m.add64 a b

/-- The difference of two vectors. -/
def vsub64 (m : Rounding) (a b : List F64) : List F64 := List.zipWith m.sub64 a b

/-- The cross product. -/
def cross64 (m : Rounding) : List F64 → List F64 → List F64
  | [a0, a1, a2], [b0, b1, b2] =>
    [m.sub64 (m.mul64 a1 b2) (m.mul64 a2 b1), m.sub64 (m.mul64 a2 b0) (m.mul64 a0 b2),
     m.sub64 (m.mul64 a0 b1) (m.mul64 a1 b0)]
  | _, _ => [0, 0, 0]

/-- The product of two quaternions. -/
def quatMul64 (m : Rounding) : List F64 → List F64 → List F64
  | [aw, ax, ay, az], [bw, bx, bY, bz] =>
    [m.sum64 [m.mul64 aw bw, Rounding.neg64 (m.mul64 ax bx), Rounding.neg64 (m.mul64 ay bY), Rounding.neg64 (m.mul64 az bz)],
     m.sum64 [m.mul64 aw bx, m.mul64 ax bw, m.mul64 ay bz, Rounding.neg64 (m.mul64 az bY)],
     m.sum64 [m.mul64 aw bY, Rounding.neg64 (m.mul64 ax bz), m.mul64 ay bw, m.mul64 az bx],
     m.sum64 [m.mul64 aw bz, m.mul64 ax bY, Rounding.neg64 (m.mul64 ay bx), m.mul64 az bw]]
  | _, _ => [one64, 0, 0, 0]

/-- The conjugate of a quaternion, the inverse of a unit one. -/
def quatConj64 : List F64 → List F64
  | w :: v => w :: v.map Rounding.neg64
  | [] => []

/-- A quaternion over its norm (R131). -/
def quatUnit64 (m : Rounding) (q : List F64) : List F64 :=
  let n := norm64 m q
  q.map (fun x => m.div64 x n)

/-- The rows of the rotation of a unit quaternion. -/
def rotation64 (m : Rounding) : List F64 → List (List F64)
  | [w, x, y, z] =>
    let dbl (a : F64) : F64 := m.mul64 two64 a
    let diag (a b : F64) : F64 := m.sub64 one64 (dbl (m.add64 (m.mul64 a a) (m.mul64 b b)))
    let plus (a b c e : F64) : F64 := dbl (m.add64 (m.mul64 a b) (m.mul64 c e))
    let minus (a b c e : F64) : F64 := dbl (m.sub64 (m.mul64 a b) (m.mul64 c e))
    [[diag y z, minus x y w z, plus x z w y],
     [plus x y w z, diag x z, minus y z w x],
     [minus x z w y, plus y z w x, diag x y]]
  | _ => [[one64, 0, 0], [0, one64, 0], [0, 0, one64]]

/-- A vector under the rotation of a unit quaternion. -/
def rotate64 (m : Rounding) (q v : List F64) : List F64 := (rotation64 m q).map (fun r => dot64 m r v)

/-- The rotation of a rotation vector in radians (the exponential map): none of the zero vector. -/
def quatExp64 (m : Rounding) (v : List F64) : List F64 :=
  let a := norm64 m v
  if (f64Value a).m = 0 then [one64, 0, 0, 0]
  else
    let h := m.mul64 a half64
    let s := m.div64 (m.sin64 h) a
    m.cos64 h :: v.map (m.mul64 s)

/-- The rotation vector of a unit quaternion (the logarithm), of the turn of at most π. -/
def quatLog64 (m : Rounding) (q : List F64) : List F64 :=
  let q := if (f64Value (q.headD 0)).m < 0 then q.map Rounding.neg64 else q
  let v := q.drop 1
  let s := norm64 m v
  if (f64Value s).m = 0 then v.map (m.mul64 two64)
  else scale64 m (m.div64 (m.mul64 two64 (m.atan264 s (q.headD 0))) s) v

/-- The rotation a fraction of the way from one orientation to another along the shorter arc (spherical linear
interpolation, R67). -/
def slerp64 (m : Rounding) (a b : List F64) (f : F64) : List F64 :=
  quatMul64 m a (quatExp64 m (scale64 m f (quatLog64 m (quatMul64 m (quatConj64 a) b))))

/-- The rigid transform a followed after b: p ↦ a (b p). -/
def composeRigid (m : Rounding) (a b : List F64) : List F64 :=
  vadd64 m (rotate64 m (a.drop 3) (b.take 3)) (a.take 3) ++ quatMul64 m (a.drop 3) (b.drop 3)

/-- The inverse of a rigid transform. -/
def invertRigid (m : Rounding) (a : List F64) : List F64 :=
  let q := quatConj64 (a.drop 3)
  (rotate64 m q (a.take 3)).map Rounding.neg64 ++ q

/-- A point under a rigid transform. -/
def applyRigid64 (m : Rounding) (a p : List F64) : List F64 := vadd64 m (rotate64 m (a.drop 3) p) (a.take 3)

/-- A whole number of ns in seconds, in FP64. -/
def seconds64 (m : Rounding) (ns : Int) : F64 := m.ratio64 ns secNs

/-- The pose at a fraction num/den of the time between two entries (R67): position linearly, orientation by spherical
linear interpolation. -/
def poseBetween (a b : List F64) (num den : Nat) : List F64 :=
  let m := Rounding.open .pose
  let f := m.ratio64 num den
  vadd64 m (a.take 3) (scale64 m f (vsub64 m (b.take 3) (a.take 3))) ++ slerp64 m (a.drop 3) (b.drop 3) f

/-- The pose extrapolated by a time in ns at a velocity and an angular rate, both in the odometry frame (R67). -/
def poseAhead (pose vel rate : List F64) (ns : Int) : List F64 :=
  let m := Rounding.open .pose
  let t := seconds64 m ns
  vadd64 m (pose.take 3) (scale64 m t vel) ++ quatMul64 m (quatExp64 m (scale64 m t rate)) (pose.drop 3)

/-- The angle of the turn between two orientations. -/
def turnAngle64 (m : Rounding) (a b : List F64) : F64 := norm64 m (quatLog64 m (quatMul64 m (quatConj64 a) b))

/-- Roll, pitch and yaw (0, 1, 2) of an orientation, the yaw about z first and the roll about x last. -/
def euler64 (m : Rounding) (axis : Nat) (q : List F64) : F64 :=
  let r := rotation64 m q
  let e (i j : Nat) : F64 := (r.getD i []).getD j 0
  match axis with
  | 0 => m.atan264 (e 2 1) (e 2 2)
  | 1 => m.atan264 (Rounding.neg64 (e 2 0)) (norm64 m [e 0 0, e 1 0])
  | _ => m.atan264 (e 1 0) (e 0 0)

/-! ### FP32 -/

/-- A vector of three coordinates. -/
def vec3Of (l : List F32) : Vec3 := { x := l.getD 0 0, y := l.getD 1 0, z := l.getD 2 0 }

/-- The dot product. -/
def dot32 (m : Rounding) (a b : List F32) : F32 := m.sum (List.zipWith m.mul a b)

/-- A rigid transform that is composed in FP64 and stored in FP32 (R146, R177): its rotation, row by row, and its
translation. -/
def viewOf (m : Rounding) (a : List F64) : List F32 := ((rotation64 m (a.drop 3)).flatten ++ a.take 3).map m.narrow

/-- A point under the rotation of a stored transform. -/
def turnBy (m : Rounding) (v : List F32) (p : Vec3) : Vec3 :=
  vec3Of [dot32 m (v.take 3) p.list, dot32 m ((v.drop 3).take 3) p.list, dot32 m ((v.drop 6).take 3) p.list]

/-- A point under a stored transform. -/
def moveBy (m : Rounding) (v : List F32) (p : Vec3) : Vec3 :=
  vec3Of (List.zipWith m.add (turnBy m v p).list (v.drop 9))

/-- A point under the inverse of a stored transform (R185): the transposed rotation of its offset from the translation. -/
def unmoveBy (m : Rounding) (v : List F32) (p : Vec3) : Vec3 :=
  let o := List.zipWith m.sub p.list (v.drop 9)
  let col (n : Nat) : List F32 := [v.getD n 0, v.getD (3 + n) 0, v.getD (6 + n) 0]
  vec3Of [dot32 m (col 0) o, dot32 m (col 1) o, dot32 m (col 2) o]

/-- A calibration record's extrinsic as a rigid transform in FP64 (R131). -/
def rigidOfCal (q : Quat) (t : Vec3) : List F64 := (t.list ++ q.list).map Rounding.widen

/-- A quaternion renormalised in FP64 (R131), in the FP32 of the tables. -/
def renormQuat (q : Quat) : Quat :=
  let m := Rounding.open .calibration
  let l := (quatUnit64 m (q.list.map Rounding.widen)).map m.narrow
  { w := l.getD 0 0, x := l.getD 1 0, y := l.getD 2 0, z := l.getD 3 0 }

/-- The angle of the rotation between two orientations in nrad, rounded up (R139): from the exact relative quaternion, of any
norms. -/
def rotationNrad (a b : Quat) : Nat :=
  let v (q : Quat) : List Dyadic := q.list.map f32Value
  let at_ (q : Quat) (i : Nat) : Dyadic := (v q).getD i { m := 0, e := 0 }
  let mul (i j : Nat) : Dyadic := (at_ a i).mul (at_ b j)
  let add (l : List Dyadic) : Dyadic := l.foldl Dyadic.add { m := 0, e := 0 }
  let w := add [mul 0 0, mul 1 1, mul 2 2, mul 3 3]
  let x := add [mul 0 1, (mul 1 0).neg, (mul 2 3).neg, mul 3 2]
  let y := add [mul 0 2, mul 1 3, (mul 2 0).neg, (mul 3 1).neg]
  let z := add [mul 0 3, (mul 1 2).neg, mul 2 1, (mul 3 0).neg]
  let n := add [x.mul x, y.mul y, z.mul z]
  let p := placesFor [w, n]
  let angle := 2 * atan2At p (sqrtAt p (n.at p)) (w.abs.at p)
  ((angle * 1000000000 + (2 ^ p - 1 : Nat)) / (2 ^ p : Nat)).toNat

/-! ### Whole numbers of a quotient -/

/-- The quotient of two exact values rounded down, for a divisor past 0. -/
def Dyadic.floorDiv (a b : Dyadic) : Int := if b.e ≤ a.e then shl a.m (a.e - b.e) / b.m else a.m / shl b.m (b.e - a.e)

/-- floor of an FP32 number; none of one that is not finite. -/
def floor32 (a : F32) : Option Int := match f32Num a with | .fin _ v => some v.floor | _ => none

end Sys2Proof.Machine
end

