-- ==== Sys2Proof/Machine/Calib.lean ====
section
/-!
DEFINITION. The calibration tables: loading, the acceptance gate, drift hold and the swap
(spec/06_frames_and_calibration_tables.md R131, R134, R138 to R143).
-/

namespace Sys2Proof.Machine

open Sys2Proof

/-- The calibration block's BAR0 offset (R143): the start of the Serge block (R322, R344). -/
def barCal : Nat := barSrg

/-- QUALITY bit CALIB_HELD (R330). -/
def qCalibHeld : Nat := 10

/-! ### Loading (R142) -/

/-- A copy as section 0x13 gives it, with generation 0; every quaternion is renormalised (R131). -/
def copyOf (s : CalSection) : CalCopy :=
  { gen := 0,
    records := s.records.map (fun e => (e.1, { value := { e.2 with q := renormQuat e.2.q } })) }

/-- Both copies loaded from a section, its values as the seed, and the snapshot latched (R142, R143). -/
def loadCal (s : CalSection) (c : CalState) : CalState :=
  let copy := copyOf s
  { c with active := copy, inactive := copy, seed := copy.records.map (fun e => (e.1, e.2.value)), limits := s.limits,
           confirmCount := if s.confirmCount = 0 then 2 else s.confirmCount, gainMin := s.gainMin,
           deferLimit := if s.deferLimit = 0 then 20 else s.deferLimit, digest := s.digest, written := none,
           prevGen := 0, deferrals := 0, runs := [], driftHold := [], bound := [], snapshot := copy }

/-- The time offsets of a copy, by stream. -/
def CalCopy.offsets (c : CalCopy) : List (Nat × Int) := c.records.map (fun e => (e.1, e.2.value.toffNs))

/-- The copies at the changeover `b` of a warm start (R142): kept where the digests agree, reloaded otherwise; the ticks of
the old image keep the copies they are bound to (R138, R414). The snapshot is latched either way (R143). -/
def warmCal (b : Nanos) (s : CalSection) (c : CalState) : CalState :=
  if s.digest = c.digest then { c with snapshot := c.active }
  else { loadCal s c with retired := [c.active, c.inactive], retiredBound := c.bound, changedAt := b,
                          toffBefore := c.active.offsets }

/-- SRG_CAL_GEN_READ (R143): the snapshot of the active copy. -/
def srgCalGenRead (d : Dev) : Dev := { d with cal := { d.cal with snapshot := d.cal.active } }

/-! ### Rejection and drift hold (R139 to R141) -/

/-- LAST_REJECT of some records in a copy (R143). -/
def CalCopy.reject (c : CalCopy) (streams : List Nat) (code : Nat) : CalCopy :=
  { c with records := c.records.map (fun e => if streams.contains e.1 then (e.1, { e.2 with lastReject := code }) else e) }

/-- LAST_REJECT of some records, in both copies. -/
def CalState.noteReject (c : CalState) (streams : List Nat) (code : Nat) : CalState :=
  { c with active := c.active.reject streams code, inactive := c.inactive.reject streams code }

/-- CALIB_HELD from a rejection (R141): outputs sealed from now to the end of the major tick carry it; where the last
output of a kind and source was sealed in this tick already, its next one does. -/
def holdCalib (d : Dev) : Dev :=
  let since := d.time.bk
  let carry := d.output.sealedAt.foldl (fun b e => match e.2 with
    | some t => if since ≤ t then bmod 0 e.1 (fun q => q ||| (1#32 <<< qCalibHeld)) b else b
    | none => b) d.output.carry
  { d with cal := { d.cal with rejectedAt := some d.now }, output := { d.output with carry := carry } }

/-- A rejected candidate or update: counted, and its records carry the cause (R139, R141, R143). -/
def rejectCal (streams : List Nat) (code : Nat) (d : Dev) : Dev :=
  let c := d.cal.reject.inc
  let cal := { d.cal with reject := c }
  let d := satEvent (barCal + 0x08) d.cal.reject c { d with cal := cal.noteReject streams code }
  holdCalib d

/-- Place a record in drift hold, with its health event (R140). -/
def holdDrift (d : Dev) (stream : Nat) : Dev :=
  let cal := d.cal.noteReject [stream] 5
  let held := if cal.driftHold.contains stream then cal.driftHold else stream :: cal.driftHold
  let bits := streamBits held
  let hi := decide (32 ≤ stream)
  conditionEvent (barCal + (if hi then 0x18 else 0x14)) (if hi then bits / 2 ^ 32 else bits % 2 ^ 32)
    { d with cal := { cal with driftHold := held } }

/-! ### The gate (R139, R140) -/

/-- The value of a record in the active copy. -/
def CalState.activeValue (c : CalState) (stream : Nat) : Option CalRecord :=
  (assoc stream c.active.records).map (·.value)

/-- The records of a candidate that change something. -/
def CalState.changed (c : CalState) (x : Candidate) : List CandRecord :=
  x.records.filter (fun r => decide (c.activeValue r.stream ≠ some r.value))

/-- Test 2 of R139 for one record. -/
def stepOk (l : CalLimits) (m : CalMeasure) : Bool :=
  decide (m.r ≤ l.stepRUrad * 1000) && decide (m.t ≤ l.stepTUm * 1000) && decide (m.toff ≤ l.stepToff * 100)

/-- Test 3 of R139 for one record: the one-sigma value of each changed quantity is at most a third of its step limit. -/
def sigmaOk (l : CalLimits) (ch m : CalMeasure) : Bool :=
  (decide (ch.r = 0) || decide (3 * m.r ≤ l.stepRUrad * 1000)) &&
  (decide (ch.t = 0) || decide (3 * m.t ≤ l.stepTUm * 1000)) &&
  (decide (ch.toff = 0) || decide (3 * m.toff ≤ l.stepToff * 100))

/-- Within half the step limits of the first of the run (R139). -/
def halfOk (l : CalLimits) (m : CalMeasure) : Bool :=
  decide (2 * m.r ≤ l.stepRUrad * 1000) && decide (2 * m.t ≤ l.stepTUm * 1000) && decide (2 * m.toff ≤ l.stepToff * 100)

/-- A record lies within its drift limits from the seed (R140). -/
def driftOk (l : CalLimits) (m : CalMeasure) : Bool :=
  decide (m.r ≤ l.driftR * 100000) && decide (m.t ≤ l.driftTMm * 1000000) && decide (m.toff ≤ l.driftToffUs * 1000)

/-- A test over records of a candidate, each with its limits. -/
def CalState.allWithin (c : CalState) (rs : List CandRecord) (p : CalLimits → CandRecord → Bool) : Bool :=
  rs.all (fun r => match assoc r.stream c.limits with | some l => p l r | none => false)

/-- Every record of a candidate lies within half the step limits of the first of its run (R139 test 5). -/
def CalState.nearFirst (c : CalState) (x : Candidate) : Bool := c.allWithin x.records (fun l e => halfOk l e.fromFirst)

/-- The first of tests 1 to 4 that a candidate fails (R139), as LAST_REJECT codes it (R143). -/
def CalState.gateFails (c : CalState) (converged regularised : Bool) (x : Candidate) : Option Nat :=
  if !converged || regularised then some 1
  else if !c.allWithin (c.changed x) (fun l r => stepOk l r.change) then some 2
  else if !c.allWithin (c.changed x) (fun l r => sigmaOk l r.change r.sigma) then some 3
  else if decide ((256 - c.gainMin) * x.valActive < 256 * x.valNew) then some 4
  else none

/-- A copy with the records of an update written under a new generation. -/
def CalCopy.write (c : CalCopy) (gen : BitVec 32) (rs : List CandRecord) : CalCopy :=
  { gen := gen,
    records := c.records.map (fun e => match rs.find? (fun r => r.stream = e.1) with
      | some r => (e.1, { value := { r.value with q := renormQuat r.value.q }, lastGen := gen, lastReject := 0 })
      | none => e) }

/-- Write an accepted update to the inactive copy (R139): the write ends within 0.5 ms. -/
def writeUpdate (rs : List CandRecord) (d : Dev) : Dev :=
  let c := d.cal
  let gen := c.active.gen + 1
  { d with
    cal := { c with inactive := c.active.write gen rs, prevGen := c.inactive.gen, deferrals := 0,
                    written := some (d.now + min (Config.calWriteNs d.freeCtr) 500000) },
    freeCtr := d.freeCtr + 1 }

/-- A completed run (R140): the records within their drift limits are written and leave drift hold, the others are
placed in it. A record whose stream is DISABLED takes no update (R142). -/
def applyRun (x : Candidate) (d : Dev) : Dev :=
  let ok (r : CandRecord) : Bool := match assoc r.stream d.cal.limits with | some l => driftOk l r.drift | none => false
  let x := { x with records := x.records.filter (fun r => decide ((d.stream r.stream).mode ≠ .disabled)) }
  let changed := d.cal.changed x
  let good := changed.filter ok
  let bad := changed.filter (fun r => !ok r)
  let inside := (x.records.filter ok).map (·.stream)
  let d := { d with cal := { d.cal with driftHold := d.cal.driftHold.filter (fun s => !inside.contains s) } }
  let d := (bad.map (·.stream)).foldl holdDrift d
  if good.isEmpty then d else writeUpdate good d

/-- A candidate completes its run while another update awaits its swap (R317): it is not written. -/
def CalState.busy (c : CalState) (slot : Nat) (x : Candidate) : Bool :=
  let count := match bget none slot c.runs with
    | none => 1
    | some r => if c.nearFirst x then r.count + 1 else 1
  c.written.isSome && decide (c.confirmCount ≤ count)

/-- The acceptance gate for a candidate of a problem slot (R139); a run that completes while an update awaits its swap
restarts (R317). -/
def calGate (slot : Nat) (converged regularised : Bool) (x : Candidate) (d : Dev) : Dev :=
  let c := d.cal
  match c.gateFails converged regularised x with
  | some code => rejectCal (x.records.map (·.stream)) code { d with cal := { c with runs := bput none slot none c.runs } }
  | none =>
    let fresh : ConfirmRun := { count := 1, first := x.records.map (fun r => (r.stream, r.value)) }
    let run := match bget none slot c.runs with
      | none => fresh
      | some r => if c.nearFirst x then { r with count := r.count + 1 } else fresh
    if run.count < c.confirmCount then { d with cal := { c with runs := bput none slot (some run) c.runs } }
    else if c.written.isSome then { d with cal := { c with runs := bput none slot none c.runs } }
    else applyRun x { d with cal := { c with runs := bput none slot none c.runs } }

/-! ### The swap (R138) -/

/-- The seal instant of an output of a tick, the planned end of its assembly window, has not come (R64, R138). -/
def Dev.unsealed (d : Dev) (tick : Nat) : Bool :=
  [Source.main, Source.burlap].any (fun src =>
    (d.windowsAt src tick).any (fun x => decide (x.2.kind = .assembly) && !d.reached (d.plannedEnd tick x.2)))

/-- A POINT or ROW_BAND sample has been assigned to a tick (R138 condition 2). -/
def Dev.assignedTo (d : Dev) (tick : Nat) : Bool := bget false tick d.muslin.assigned

/-- The records in which the two copies differ. -/
def CalState.updated (c : CalState) : List Nat :=
  (c.inactive.records.filter (fun e => decide ((assoc e.1 c.active.records).map (·.value) ≠ some e.2.value))).map (·.1)

/-- The calibration at the major tick boundary that begins tick j (R138, R141): a swap whose conditions hold, a
deferral, or the rejection at DEFER_LIMIT. -/
def swapCal (j : Nat) (d : Dev) : Dev :=
  let d := { d with cal := { d.cal with rejectedAt := none, bound := d.cal.bound.filter (fun e => d.unsealed e.1),
                                        retiredBound := d.cal.retiredBound.filter (fun e => d.unsealed e.1) } }
  let c := d.cal
  let ready := match c.written with | some t => decide (t < d.now) | none => false
  let d :=
    if !ready then d
    else if d.assignedTo j || c.bound.any (fun e => e.2 = c.prevGen) then
      let n := c.defer.inc
      let d := satEvent (barCal + 0x0C) c.defer n { d with cal := { c with defer := n, deferrals := c.deferrals + 1 } }
      if c.deferLimit ≤ c.deferrals + 1 then
        rejectCal c.updated 6 { d with cal := { d.cal with written := none, deferrals := 0 } }
      else d
    else
      let n := c.accept.inc
      satEvent (barCal + 0x04) c.accept n
        { d with cal := { c with active := c.inactive, inactive := c.active, accept := n, written := none,
                                 deferrals := 0, changedAt := d.time.bk, toffBefore := c.active.offsets } }
  { d with cal := { d.cal with bound := d.cal.bound ++ [(j, d.cal.active.gen)] } }

/-- CALIB_HELD now (R141). -/
def Dev.calibHeld (d : Dev) : Bool := d.cal.rejectedAt.isSome || !d.cal.driftHold.isEmpty

end Sys2Proof.Machine
end

