-- ==== Sys2Proof/Machine/Muslin.lean ====
section
/-!
DEFINITION. Muslin: the assignment of samples to ticks, late samples, ego inputs, and the streams' states
(spec/03_windows_and_alignment.md R57 to R77).
-/

namespace Sys2Proof.Machine

open Sys2Proof

/-- A counter of a block after n more events, with the health event of its saturation (R8, R436). -/
def bump (bar : Nat) (old : Counter) (n : Nat) (put : Counter → Dev → Dev) (d : Dev) : Dev :=
  let c := Counter.add old n
  satEvent bar old c (put c d)

/-- BAR0 offset of a stream's status block (R77). -/
def barStream (n : Nat) : Nat := barMus + 0x40 * n

/-- W_s (R57). -/
def Dev.windowNs (d : Dev) (e : StreamEntry) : Nat := if e.windowUs = 0 then d.time.pNs else e.windowUs * usNs

/-- H_s (R57). -/
def horizonNs (e : StreamEntry) : Nat := (if e.horizonUs = 0 then 100000 else e.horizonUs) * usNs

/-- X_s (R57). -/
def Dev.spanNs (d : Dev) (e : StreamEntry) : Nat := if e.spanUs = 0 then d.windowNs e else e.spanUs * usNs

/-- G_s in ns. -/
def gateNs (e : StreamEntry) : Nat := e.gateUs * usNs

/-- δ_s of stream n for a sample of an arrival stamp (R60): of the copy active at the stamp, a swap applying from its
boundary on. -/
def Dev.offsetAt (d : Dev) (n : Nat) (a : Nanos) : Int :=
  if a < d.cal.changedAt then (assoc n d.cal.toffBefore).getD 0
  else match d.cal.activeValue n with | some v => v.toffNs | none => 0

/-- The corrected time of a sample time of stream n with an arrival stamp (R60). -/
def Dev.corrected (d : Dev) (n : Nat) (s : Int) (a : Nanos) : Int := s + d.offsetAt n a

/-- A corrected time more than 1 µs after the arrival stamp (R61). -/
def implausible (t : Int) (a : Nanos) : Bool := decide ((a : Int) + usNs < t)

/-- Count implausible samples of stream n (R50, R61). -/
def countImplausible (n count : Nat) (d : Dev) : Dev :=
  bump (barStream n + 0x1C) (d.stream n).implausible count
    (fun c d => d.setStream n { d.stream n with implausible := c }) d

/-! ### Stream states (R71) -/

/-- The period of stream n in ns (R57). -/
def periodNs (e : StreamEntry) : Nat := e.periodUs * usNs

/-- A re-acquisition run with a usable arrival (R71): the first opens it, one in the period in progress or the next carries
it on, and one after a period without any begins a new run. -/
def ReacqRun.arrive (period : Nat) (a : Nanos) : Option ReacqRun → ReacqRun
  | none => { periodStart := a, seen := true, done := 0 }
  | some r =>
    if a < r.periodStart + period then { r with seen := true }
    else if r.seen && decide (a < r.periodStart + 2 * period) then
      { periodStart := r.periodStart + period, seen := true, done := r.done + 1 }
    else { periodStart := a, seen := true, done := 0 }

/-- Usable samples have arrived in three consecutive periods (R71). -/
def ReacqRun.complete (r : ReacqRun) : Bool := r.seen && decide (2 ≤ r.done)

/-- A usable sample of stream n (R71): it restarts the absence time, and in REACQUIRING it counts for its period; the run is
complete once the third of three consecutive periods has brought one. -/
def usable (n : Nat) (t : Int) (a : Nanos) (d : Dev) : Dev :=
  let s := d.stream n
  let s := { s with lastUsable := some a, newestTime := t.toNat, newestArrival := a }
  let period := match d.entry n with | some e => periodNs e | none => 0
  let s := if s.mode = .reacquiring && !s.runDone then
      let r := ReacqRun.arrive period a s.run
      if r.complete then { s with run := none, runDone := true } else { s with run := some r }
    else s
  d.setStream n s

/-- REACQUISITION_PERIOD_END (R71): a period with no usable arrival ends the run, and the next period follows one that brought
a sample. -/
def reacquisitionPeriodEnd (stream : Fin 48) (d : Dev) : Dev :=
  let s := d.stream stream.val
  match d.entry stream.val, s.run with
  | some e, some r =>
    if s.mode ≠ .reacquiring || s.runDone || decide (d.now < r.periodStart + periodNs e) then d
    else if r.seen then
      d.setStream stream.val { s with run := some { periodStart := r.periodStart + periodNs e, seen := false, done := r.done + 1 } }
    else d.setStream stream.val { s with run := none }
  | _, _ => d

/-- Key of a contribution. -/
def contribKey (tick stream : Nat) (src : Source) : Nat := (tick * 48 + stream) * 2 + src.idx

/-- What a stream has contributed to a tick for one pipeline. -/
def Dev.contrib (d : Dev) (tick stream : Nat) (src : Source) : Contribution :=
  bget {} (contribKey tick stream src) d.muslin.contrib

/-- Change a contribution. -/
def modContrib (tick stream : Nat) (src : Source) (f : Contribution → Contribution) (d : Dev) : Dev :=
  { d with muslin := { d.muslin with contrib := bmod {} (contribKey tick stream src) f d.muslin.contrib } }

/-- Change the contributions to both pipelines. -/
def modBoth (tick stream : Nat) (f : Contribution → Contribution) (d : Dev) : Dev :=
  modContrib tick stream .burlap f (modContrib tick stream .main f d)

/-- Add samples of one corrected time to a contribution (R62, R70, R76). -/
def addSamples (n : Nat) (t : Nanos) (far : Bool) (c : Contribution) : Contribution :=
  { c with count := c.count + n, oldest := if c.count = 0 then t else min c.oldest t, newest := max c.newest t,
           far := c.far || far }

/-- A stream enters REACQUIRING (R71): counted, with a health event; the tick in progress carries REACQ. -/
def enterReacquiring (n : Nat) (d : Dev) : Dev :=
  let d := bump (barStream n + 0x18) (d.stream n).reacq 1
    (fun c d =>
      let s := d.stream n
      d.setStream n { s with reacq := c, mode := .reacquiring, run := none, runDone := false, alivePrev := none }) d
  modBoth d.time.k n (fun c => { c with reacq := true })
    (conditionEvent (barStream n + 0x18) (d.stream n).reacq.val.toNat d)

/-- The absence time of stream n has passed (R71). -/
def Dev.absenceDue (d : Dev) (n : Nat) : Bool :=
  let s := d.stream n
  match d.entry n with
  | some e =>
    let since := match s.lastUsable with | some a => max a s.activeSince | none => s.activeSince
    decide (s.mode = .active) && decide (since + 3 * periodNs e ≤ d.now)
  | none => false

/-- The mode, or the start interval, uses stream e now (R71, R498). -/
def Dev.usesStream (d : Dev) (e : StreamEntry) : Bool :=
  e.modeMask.contains d.plan.modeInForce && (!d.plan.startInterval || decide (e.kind ≠ .rowBand))

/-- The state of one stream at the major tick boundary that begins tick k (R71, R74). -/
def stepStream (k : Nat) (d : Dev) (e : Nat × StreamEntry) : Dev :=
  let s := d.stream e.1
  if !d.usesStream e.2 then
    if s.mode = .disabled then d
    else d.setStream e.1 { s with mode := .disabled, run := none, runDone := false, endGate := k }
  else if s.mode = .disabled then
    let s := { s with run := none, runDone := false, alivePrev := none }
    d.setStream e.1 { s with mode := .active, activeSince := d.now, nextGate := k }
  else if s.mode = .reacquiring && s.runDone then
    d.setStream e.1 { s with mode := .active, activeSince := d.now, run := none, runDone := false }
  else if s.mode = .reacquiring then modBoth k e.1 (fun c => { c with reacq := true }) d
  else d

/-- The streams' states at a major tick boundary (R71). -/
def stepStreams (k : Nat) (d : Dev) : Dev := d.image.streams.entries.foldl (stepStream k) d

/-! ### Assignment (R62 to R64) -/

/-- The ticks whose windows may hold a sample of time t: those from the oldest gate that can still matter to the newest
window that can reach back to it. -/
def Dev.ticksNear (d : Dev) (e : StreamEntry) (t : Int) : List Nat :=
  let p := d.time.pNs
  if p = 0 then []
  else
    let back := (d.now - t.toNat) / p + 3
    let ahead := d.windowNs e / p + 3
    (List.range (min back d.time.k + ahead + 1)).map (fun i => d.time.k - min back d.time.k + i)

/-- The candidates of R62, each with its validity instant. -/
def Dev.candidates (d : Dev) (e : StreamEntry) (t : Int) : List (Nat × Nanos) :=
  (d.ticksNear e t).filterMap (fun j =>
    match d.validAt j with
    | some v =>
      if decide ((v : Int) - d.windowNs e < t) && decide (t ≤ (v : Int) + gateNs e) then some (j, v) else none
    | none => none)

/-- The outcome of R62: no window; or the tick that the sample is late against, if any, and the tick that takes it. -/
inductive Assigned where
  | outOfWindow
  | window (late : Option Nat) (tick : Option (Nat × Nanos))
  deriving DecidableEq, Repr

/-- Assign a sample of corrected time t and arrival stamp a (R62). -/
def Dev.assign (d : Dev) (e : StreamEntry) (t : Int) (a : Nanos) : Assigned :=
  match d.candidates e t with
  | [] => .outOfWindow
  | c :: rest =>
    .window (if c.2 + gateNs e < a then some c.1 else none)
      ((c :: rest).find? (fun x => decide (a ≤ x.2 + gateNs e)))

/-- Key of the late counts of one output. -/
def lateKey (tick stream : Nat) (src : Source) (kind : OutKind) : Nat :=
  ((tick * 48 + stream) * 2 + src.idx) * 128 + kind.idx

/-- Key of what waits for the next output of a kind and source. -/
def outKey (src : Source) (kind : OutKind) : Nat := src.idx * 128 + kind.idx

/-- Key of the post-output counts of one stream. -/
def postKey (stream : Nat) (src : Source) (kind : OutKind) : Nat := outKey src kind * 48 + stream

/-- The seal instant of an assembly window has passed (R64); a tick that the model no longer keeps lies long before. -/
def Dev.sealed (d : Dev) (tick : Nat) (r : WindowRec) : Bool :=
  match d.plannedEnd tick r with
  | some t => (d.tickRec tick).isNone || decide (t < (d.now : Int))
  | none => (d.tickRec tick).isNone

/-- A late sample in one output's counts (R64): up to its seal instant in its own record, after it in the next output's. -/
def lateIn (stream tick n : Nat) (src : Source) (post : Bool) (d : Dev) (kind : OutKind) : Dev :=
  if post then
    { d with muslin := { d.muslin with postFor := bmod 0 (postKey stream src kind) (· + n) d.muslin.postFor } }
  else
    { d with muslin := { d.muslin with lateFor := bmod 0 (lateKey tick stream src kind) (· + n) d.muslin.lateFor } }

/-- The assembly windows of a tick; of one that the model no longer keeps, those of the tick in progress. -/
def Dev.assemblies (d : Dev) (src : Source) (tick : Nat) : List WindowRec :=
  ((d.windowsAt src (if (d.tickRec tick).isSome then tick else d.time.k)).map (·.2)).filter (fun r => decide (r.kind = .assembly))

/-- A late sample in the counts of every output of its tick from one source. -/
def lateFrom (stream tick n : Nat) (d : Dev) (src : Source) : Dev :=
  (d.assemblies src tick).foldl (fun d r => r.outputs.foldl (lateIn stream tick n src (d.sealed tick r)) d) d

/-- A main output of the tick of kind 1, 2, 4 or 5 has reached its seal instant (R64). -/
def Dev.anySealed (d : Dev) (tick : Nat) : Bool :=
  (d.assemblies .main tick).any (fun r => r.outputs.any (fun k => decide (k ≠ .egoState)) && d.sealed tick r)

/-- Count n late samples of a stream against a tick (R62, R64). -/
def countLateSamples (stream tick n : Nat) (d : Dev) : Dev :=
  let d := bump (barStream stream + 0x04) (d.stream stream).late n
    (fun c d => d.setStream stream { d.stream stream with late := c }) d
  let d := if d.anySealed tick then
      bump (barStream stream + 0x10) (d.stream stream).postOutput n
        (fun c d => d.setStream stream { d.stream stream with postOutput := c }) d
    else d
  [Source.main, Source.burlap].foldl (lateFrom stream tick n) d

/-- Count a sample that lies in no window (R62). -/
def countOutOfWindow (stream n : Nat) (d : Dev) : Dev :=
  bump (barStream stream + 0x0C) (d.stream stream).outOfWindow n
    (fun c d => d.setStream stream { d.stream stream with outOfWindow := c }) d

/-- A POINT or ROW_BAND sample has been assigned to a tick (R138 condition 2). -/
def noteAssigned (tick : Nat) (d : Dev) : Dev :=
  { d with muslin := { d.muslin with assigned := bput false tick true d.muslin.assigned } }

/-- A contribution time further than the nominal span from the validity instant (R70). -/
def Dev.far (d : Dev) (e : StreamEntry) (valid : Nanos) (t : Int) : Bool :=
  decide (d.spanNs e < ((valid : Int) - t).natAbs)

/-! ### Ego inputs (R65) -/

/-- c_e of a pipeline's EGO slot in ns (R65); 100 µs by default. -/
def Dev.cutoffNs (d : Dev) (src : Source) : Nat :=
  let unit := match src with | .main => 0 | .burlap => 3
  match d.sergeDefs.slots.find? (fun s => s.2.unit = unit && decide (s.2.cls = .ego)) with
  | some s => (if s.2.cutoffUs = 0 then 100 else s.2.cutoffUs) * usNs
  | none => 100 * usNs

/-- The sample of the largest corrected time. -/
def newestOf : List EgoSample → Option EgoSample
  | [] => none
  | x :: rest => match newestOf rest with
    | none => some x
    | some y => if x.t < y.t then some y else some x

/-- The samples of an EGO_INPUT stream that the ego state at boundary b uses (R65). A sample that came while the stream was
ACTIVE stays in use up to H_s when the stream has become REACQUIRING or DISABLED (log entry 196). -/
def Dev.egoUsed (d : Dev) (n : Nat) (e : StreamEntry) (src : Source) (b : Nanos) : List EgoSample :=
  let ce := d.cutoffNs src
  let minor := d.time.minorNs
  let here := d.muslin.ego.filter (fun x => x.stream = n && decide (x.t ≤ b) && decide (x.arrival ≤ b + ce) &&
    decide (b ≤ x.t + horizonNs e))
  let fresh := here.filter (fun x => decide (b < x.t + minor) || decide (b + ce < x.arrival + minor))
  if fresh.isEmpty then (match newestOf here with | some x => [x] | none => []) else fresh

/-- The samples of a stream that have come by the cut-off of boundary b (R65). -/
def Dev.arrivedBy (d : Dev) (n : Nat) (src : Source) (b : Nanos) : List EgoSample :=
  d.muslin.ego.filter (fun x => x.stream = n && decide (x.t ≤ b) && decide (x.arrival ≤ b + d.cutoffNs src))

/-- A sample is found stale at boundary b (R65): it enters the solve of b, or is the newest held, and is older than H_s. -/
def Dev.staleAt (d : Dev) (e : StreamEntry) (b : Nanos) (newest : Option EgoSample) (x : EgoSample) : Bool :=
  let ce := d.cutoffNs .main
  !x.staleCounted && decide (x.arrival ≤ b + ce) && decide (x.t + horizonNs e < b) &&
  (decide (b + ce < x.arrival + d.time.minorNs) || decide (newest = some x))

/-- How long after a boundary a tick's contribution may still be taken from the samples at it (R65, R72): the gate, or the
later cut-off. -/
def Dev.egoDelay (d : Dev) (e : StreamEntry) : Nat := max (gateNs e) (max (d.cutoffNs .main) (d.cutoffNs .burlap))

/-- The stale samples of a stream at boundary b: counted once, and not used again (R65, R76). A sample stays held while a
boundary whose contribution is still to be taken can use it. -/
def stepEgo (b : Nanos) (tick : Nat) (d : Dev) (e : Nat × StreamEntry) : Dev :=
  if e.2.kind ≠ .egoInput then d
  else
    let mine := d.muslin.ego.filter (fun x => x.stream = e.1)
    let newest := newestOf (d.arrivedBy e.1 .main b)
    let stale := (mine.filter (d.staleAt e.2 b newest)).length
    let last := b - (d.egoDelay e.2 + 2 * d.time.minorNs)
    let keep := d.muslin.ego.filter (fun x => x.stream ≠ e.1 || decide (last ≤ x.t + horizonNs e.2) || decide (newestOf mine = some x))
    let ego := keep.map (fun x => if x.stream = e.1 && d.staleAt e.2 b newest x then { x with staleCounted := true } else x)
    let d := { d with muslin := { d.muslin with ego := ego } }
    if stale = 0 then d
    else
      modBoth tick e.1 (fun c => { c with stale := c.stale + stale })
        (bump (barStream e.1 + 0x08) (d.stream e.1).stale stale
          (fun c d => d.setStream e.1 { d.stream e.1 with stale := c }) d)

/-- The ego inputs at a minor tick boundary, for the boundary b that lies one minor tick before: its cut-off has
passed. -/
def stepEgoInputs (b : Nanos) (tick : Nat) (d : Dev) : Dev := d.image.streams.entries.foldl (stepEgo b tick) d

/-- A sample of an EGO_INPUT stream (R61, R65, R71) of corrected time t, with what it carries. -/
def egoSample (n : Nat) (t : Int) (a : Nanos) (x : EgoSample) (d : Dev) : Dev :=
  if implausible t a then countImplausible n 1 d
  else
    let d := usable n t a d
    if (d.stream n).mode = .active then
      { d with muslin := { d.muslin with ego := { x with stream := n, t := t.toNat, arrival := a } :: d.muslin.ego } }
    else d

/-! ### Gates (R72) -/

/-- When Muslin decides on stream n's presence in a tick of validity instant v (R72). -/
def Dev.gateAt (d : Dev) (e : StreamEntry) (v : Nanos) : Nanos :=
  match e.kind with
  | .egoInput => v + d.egoDelay e
  | _ => v + gateNs e

/-- The contribution of an EGO_INPUT stream to tick k: the samples used at boundary T_k (R65, R70). -/
def takeEgo (n tick : Nat) (e : StreamEntry) (v : Nanos) (d : Dev) (src : Source) : Dev :=
  let used := d.egoUsed n e src v
  let newest := match newestOf used with | some x => x.t | none => v
  used.foldl (fun d x => modContrib tick n src (addSamples 1 x.t (decide (newest + d.spanNs e < v))) d) d

/-- The presence of stream n in a tick, decided at its gate close (R72). -/
def decidePresence (n tick : Nat) (d : Dev) : Dev :=
  let main := d.contrib tick n .main
  let fb := d.contrib tick n .burlap
  let none_ (c : Contribution) : Bool := decide (c.count = 0) && decide (c.charged = 0)
  let d := modContrib tick n .main (fun c => { c with absent := none_ c }) d
  let d := modContrib tick n .burlap (fun c => { c with absent := none_ c }) d
  if none_ main && none_ fb then
    bump (barStream n + 0x14) (d.stream n).absentTicks 1
      (fun c d => { d.setStream n { d.stream n with absentTicks := c } with
                    felt := { d.felt with window := { d.felt.window with
                      absent := if d.felt.window.absent.contains n then d.felt.window.absent
                                else n :: d.felt.window.absent } } }) d
  else d

/-- Muslin's part of GATE_CLOSE (R72) for tick j: the ego contribution and the presence. -/
def closeGate (n j : Nat) (e : StreamEntry) (v : Nanos) (d : Dev) : Dev :=
  let d := match e.kind with
    | .egoInput => [Source.main, Source.burlap].foldl (takeEgo n j e v) d
    | _ => d
  let d := decidePresence n j d
  d.setStream n { d.stream n with nextGate := j + 1 }

/-- MUS_LAST_TIME_LO_READ (R77). -/
def musLastTimeLoRead (stream : Fin 48) (d : Dev) : Dev :=
  let s := d.stream stream.val
  d.setStream stream.val { s with latchTime := s.newestTime, latchArrival := s.newestArrival }

end Sys2Proof.Machine
end

