-- ==== Sys2Proof/Machine/Percale.lean ====
section
/-!
DEFINITION. Percale's stages from a frame's rows to the pixels of its levels, and the statistics of a frame
(spec/04_camera_ingest.md R93 to R96).
-/

namespace Sys2Proof.Machine

open Sys2Proof

/-- The key of an image row on an exposure in a frame's rows. -/
def rowKey (y i : Nat) : Nat := 4 * y + i

/-- What Percale works on: a port's settings, its stream's fields, the white-balance gains of red and blue in force, and the
rows of the frame by row and exposure. -/
structure RawFrame where
  port : CameraPort
  fields : CameraFields
  wbR : Nat
  wbB : Nat
  pix : Bank (List Nat)
  deriving DecidableEq, Repr

/-- The exposures of a frame (R101). -/
def RawFrame.exposures (r : RawFrame) : Nat := r.fields.vcMap.length

/-- Row y has all of its exposures. -/
def RawFrame.hasRow (r : RawFrame) (y : Nat) : Bool :=
  (List.range r.exposures).all (fun i => decide ((bget [] (rowKey y i) r.pix).length = r.fields.width))

/-- The largest value on the 24-bit linear scale. -/
def top24 : Nat := 2 ^ 24 - 1

/-- Width or height of a pyramid level. -/
def levelSize (n level : Nat) : Nat := (n + 2 ^ level - 1) / 2 ^ level

/-! ### Unpack, decompand, black level (R93) -/

/-- The segment of a knot table that holds a value: its two knots. -/
def segmentOf (v : Nat) : List (Nat × Nat) → Option ((Nat × Nat) × (Nat × Nat))
  | a :: b :: rest => if decide (a.1 ≤ v) && decide (v ≤ b.1) then some (a, b) else segmentOf v (b :: rest)
  | _ => none

/-- Decompand (R93): the piecewise-linear expansion, applied where there are knots. -/
def decompand (knots : List (Nat × Nat)) (v : Nat) : Nat :=
  if knots.isEmpty then v
  else match segmentOf v knots with
    | some (a, b) =>
      let rise : Int := (b.2 : Int) - a.2
      (max 0 ((a.2 : Int) + divRoundInt 15 (rise * ((v - a.1 : Nat) : Int)) (b.1 - a.1))).toNat
    | none => Config.beyondKnots knots v

/-- The place of a pixel in the 2 × 2 pattern of the colour filter, row by row. -/
def cfaPlace (y x : Nat) : Nat := y % 2 * 2 + x % 2

/-- Black level (R93, R102): on the 20-bit scale ÷ 16, clamped at 0. -/
def blackLevel (r : RawFrame) (y x v : Nat) : Nat := v - 16 * r.port.black.getD (cfaPlace y x) 0

/-- A pixel of an exposure after the black level. -/
def RawFrame.exposed (r : RawFrame) (y x i : Nat) : Nat :=
  blackLevel r y x (decompand r.port.knots ((bget [] (rowKey y i) r.pix).getD x 0))

/-! ### HDR combine (R93) -/

/-- The ratio of exposure 0 to exposure i, U8.8 (R102). -/
def ratioOf (p : CameraPort) : Nat → Nat
  | 0 => 256 | 1 => p.ratio1 | _ => p.ratio2

/-- Exposures i on, longest first: the first below SAT_TH, scaled by its ratio, and blended over the last BLEND below SAT_TH
with the next. -/
def combineFrom (p : CameraPort) (i : Nat) : List Nat → Option Nat
  | [] => none
  | v :: rest =>
    if v < p.satTh then
      let a := v * ratioOf p i
      match rest with
      | [] => some (divRound 16 a 256)
      | w :: _ =>
        if decide (p.blend = 0) || decide (v + p.blend ≤ p.satTh) then some (divRound 16 a 256)
        else
          let k := v + p.blend - p.satTh
          some (divRound 17 ((p.blend - k) * a + k * (w * ratioOf p (i + 1))) (256 * p.blend))
    else combineFrom p (i + 1) rest

/-- A pixel of the frame on the 24-bit linear scale (R93): of one exposure there is nothing to combine. -/
def RawFrame.linear (r : RawFrame) (y x : Nat) : Nat :=
  let vs := (List.range r.exposures).map (r.exposed y x)
  match vs with
  | [v] => min top24 v
  | _ => min top24 (match combineFrom r.port 0 vs with | some v => v | none => Config.allSaturated vs)

/-! ### White balance and demosaic (R93) -/

/-- The colour of a place of the pattern by CFA code: 0 red, 1 green or clear, 2 blue; monochrome is one plane. -/
def cfaColour (cfa place : Nat) : Nat :=
  if cfa = 0 then 0
  else match (cfa - 1) % 4 with
    | 0 => [0, 1, 1, 2].getD place 1
    | 1 => [1, 0, 2, 1].getD place 1
    | 2 => [1, 2, 0, 1].getD place 1
    | _ => [2, 1, 1, 0].getD place 1

/-- White balance (R93, R99): the gain of the place's colour, U4.12, clamped at 2^24 − 1. -/
def RawFrame.balanced (r : RawFrame) (y x : Nat) : Nat :=
  let v := r.linear y x
  if r.fields.cfa = 0 then v
  else match cfaColour r.fields.cfa (cfaPlace y x) with
    | 0 => min top24 (divRound 18 (v * r.wbR) 4096)
    | 2 => min top24 (divRound 18 (v * r.wbB) 4096)
    | _ => v

/-- The planes of an output (R93). -/
def planeCount (cfa : Nat) : Nat := if cfa = 0 then 1 else 3

/-- The row nearest to y that Percale has, of a list of rows (R95). -/
def nearestRow (y : Nat) (rows : List Nat) : Nat :=
  rows.foldl (fun b r => if (max r y - min r y) < (max b y - min b y) then r else b) (rows.headD y)

/-- A coordinate moved by o − 2 and kept inside a size. -/
def clampAt (c o size : Nat) : Nat := min (c + o - 2) (size - 1)

/-- The pixels of the 5 × 5 neighbourhood of a pixel, row by row (R93): rows that Percale does not have are those nearest to
them (R95), and columns outside the frame are those nearest too (log entry 202). -/
def RawFrame.neighbours (r : RawFrame) (rows : List Nat) (y x : Nat) : List Nat :=
  (List.range 5).flatMap (fun oy => (List.range 5).map (fun ox =>
    r.balanced (nearestRow (clampAt y oy r.fields.height) rows) (clampAt x ox r.fields.width)))

/-- A pixel of a plane at the base (R93): monochrome passes its plane; the interpolation of a colour is not stated. -/
def RawFrame.base (r : RawFrame) (rows : List Nat) (plane y x : Nat) : F32 :=
  let y := nearestRow y rows
  if r.fields.cfa = 0 then f32Of false { m := r.balanced y x, e := 0 }
  else Config.demosaic r.fields.cfa (cfaPlace y x) plane (r.neighbours rows y x)

/-! ### Tone, format and pyramid (R93) -/

/-- The output format of OUT_FORMAT. -/
def outFormatOf : Nat → Format
  | 0 => .fp16 | 1 => .uint8 | _ => .fp8e4m3

/-- A value of the base in the output format: linear with 1.0 = 2^24, or through the tone table. -/
def toneOf (p : CameraPort) (format : Nat) (v : F32) : Nat :=
  if format = 1 then (p.tone.getD (min 1023 ((f32Value v).scale (-14)).floor.toNat) 0).toNat
  else (convertNum (outFormatOf format) true false ((f32Num v).scale (-24))).bits

/-- One pass of the pyramid's filter over five values, [1 4 6 4 1]/16 (R93). -/
def filterTaps (l : List F32) : F32 :=
  let m := Rounding.open .camera
  m.sumAny .camera (List.zipWith m.mul [0x3D800000, 0x3E800000, 0x3EC00000, 0x3E800000, 0x3D800000] l)

/-- The pyramid's separable filter over a 5 × 5 neighbourhood, row by row, in FP32 (R93): the order of its two passes is not
stated. -/
def filterPlane (l : List F32) : F32 :=
  let at_ (y x : Nat) : F32 := l.getD (5 * y + x) 0
  let five (f : Nat → F32) : F32 := filterTaps ((List.range 5).map f)
  if Config.rowsFirst then five (fun y => five (fun x => at_ y x)) else five (fun x => five (fun y => at_ y x))

/-- A pixel of a level in the output format (R93): a level is the one above it, filtered and decimated by 2. -/
def RawFrame.pixel (r : RawFrame) (rows : List Nat) (plane : Nat) : (level y x : Nat) → Nat
  | 0, y, x => toneOf r.port r.fields.outFormat (r.base rows plane y x)
  | l + 1, y, x =>
    let h := levelSize r.fields.height l
    let w := levelSize r.fields.width l
    let taps := (List.range 5).flatMap (fun oy => (List.range 5).map (fun ox =>
      (f32Round ((outFormatOf r.fields.outFormat).num
        (r.pixel rows plane l (clampAt (2 * y) oy h) (clampAt (2 * x) ox w)))).v))
    (convertNum (outFormatOf r.fields.outFormat) true false (f32Num (filterPlane taps))).bits

/-- Write the pixels of some rows of a level, as a tensor [H][W][C]. -/
def writeLevel (r : RawFrame) (rows : List Nat) (t : Tensor) (level first count : Nat) (d : Dev) : Dev :=
  (List.range count).foldl (fun d j => (List.range (levelSize r.fields.width level)).foldl (fun d x =>
    (List.range (planeCount r.fields.cfa)).foldl (fun d c =>
      setElem t.format (t.row [0, x, first + j]) c (r.pixel rows c level (first + j) x) d) d) d) d

/-! ### Statistics (R96) -/

/-- The mean of numbers, 0 of none. -/
def meanNat (l : List Nat) : Nat := if l.isEmpty then 0 else divRound 19 (l.foldl (· + ·) 0) l.length

/-- The complete rows of a frame. -/
def RawFrame.wholeRows (r : RawFrame) : List Nat := (List.range r.fields.height).filter r.hasRow

/-- The pixels of a zone at a place of the pattern, after the HDR combine (R96): zone (zy, zx) of 16 × 16 holds the pixels
whose place scaled to 16 lies in it. -/
def RawFrame.zonePixels (r : RawFrame) (zy zx place : Nat) : List Nat :=
  (r.wholeRows.filter (fun y => decide (y * 16 / r.fields.height = zy))).flatMap (fun y =>
    ((List.range r.fields.width).filter (fun x => decide (x * 16 / r.fields.width = zx) && decide (cfaPlace y x = place))).map
      (r.linear y))

/-- The means of a zone at the four places of the pattern. -/
def RawFrame.zone (r : RawFrame) (z : Nat) : List Nat :=
  (List.range 4).map (fun place => meanNat (r.zonePixels (z / 16) (z % 16) place))

/-- The mean of a colour of a zone. -/
def zoneColour (cfa colour : Nat) (zone : List Nat) : Nat :=
  meanNat ((zone.zipIdx.filter (fun e => decide (cfaColour cfa e.2 = colour))).map (·.1))

/-- The luminance of a zone: a monochrome zone's mean; of a colour the spec does not say how it is made. -/
def zoneLuma (cfa : Nat) (zone : List Nat) : Nat := if cfa = 0 then meanNat zone else Config.luminance cfa zone

/-- The 4-bit weight of a zone (R96, R102): two to a byte, the first in the low half. -/
def zoneWeight (p : CameraPort) (z : Nat) : Nat := p.weights.getD (z / 2) 0 / 16 ^ (z % 2) % 16

/-- The frame's statistics (R96). -/
def RawFrame.stats (r : RawFrame) : FrameStats :=
  let zones := (List.range 256).map r.zone
  let cfa := r.fields.cfa
  let luma := zones.map (zoneLuma cfa)
  let ws := (List.range 256).map (zoneWeight r.port)
  let total := ws.foldl (· + ·) 0
  let sum := (ws.zip luma).foldl (fun n e => n + e.1 * e.2) 0
  let bins := r.wholeRows.flatMap (fun y => (List.range r.fields.width).map (fun x => Config.logBin cfa (cfaPlace y x) (r.linear y x)))
  { metered := if total = 0 then 0 else divRound 20 sum total, zoneLuma := luma,
    zoneR := zones.map (zoneColour cfa 0), zoneG := zones.map (zoneColour cfa 1), zoneB := zones.map (zoneColour cfa 2),
    histogram := (List.range 256).map (fun b => (bins.filter (fun n => decide (n = b))).length) }

end Sys2Proof.Machine
end

