-- ==== Sys2Proof/Machine/Camera.lean ====
section
/-!
DEFINITION. The camera ports: links, initialisation, triggers, rows and bands, and the exposure and white-balance loop
(spec/02_time_base.md R40 to R43; spec/04_camera_ingest.md).
-/

namespace Sys2Proof.Machine

open Sys2Proof

/-- BAR0 offset of a camera port's block (R104). -/
def barCam (c : Nat) : Nat := barMus + 0x0C00 + 0x40 * c

/-- The record of camera port c in section 0x11, where enabled (R102). -/
def Dev.camRec (d : Dev) (c : Nat) : Option CameraPort := assoc c d.image.cameras

/-- The stream of camera port c with its fields (R82, R101). -/
def Dev.camStream (d : Dev) (c : Nat) : Option (Nat × StreamEntry × CameraFields) :=
  d.image.streams.entries.findSome? (fun e => match e.2.src with
    | .camera f => if e.2.port = c then some (e.1, e.2, f) else none
    | _ => none)

/-- Change camera port c. -/
def modCamera (c : Nat) (f : CameraState → CameraState) (d : Dev) : Dev := d.setCamera c (f (d.camera c))

/-! ### Exposure and triggers (R40 to R42, R87, R92) -/

/-- An instant in units of 0.5 ps from one in ns. -/
def halfPs (t : Int) : Int := 2000 * t

/-- An instant in ns from one in units of 0.5 ps; the rounding is not stated. -/
def nsOf (t : Int) : Int := divRoundInt 1 t 2000

/-- t_trig of a frame of validity instant v and exposure e, in units of 0.5 ps (R40). -/
def trigAt (r : CameraPort) (pNs : Nat) (v : Nanos) (second : Bool) (e : Nat) : Int :=
  halfPs ((v : Int) - r.trigLatNs) - 2 * (r.centreRow * r.lineTimePs : Nat) - 1000 * (e : Int)
    + (if second then 1000 * (pNs : Int) else 0)

/-- t_send, in units of 0.5 ps (R40). -/
def sendAt (r : CameraPort) (pNs : Nat) (v : Nanos) (second : Bool) (e : Nat) : Int :=
  trigAt r pNs v second e - halfPs r.uplinkLatNs

/-- The exposure and gain that a frame runs at (R42, R98): the committed ones if its t_send lies at least two minor
ticks after the commit, else those before. -/
def frameExposure (d : Dev) (r : CameraPort) (s : CameraState) (v : Nanos) (second : Bool) : Nat × Nat :=
  if halfPs ((s.committedAt : Int) + 2 * d.time.minorNs) ≤ sendAt r d.time.pNs v second s.expNs
  then (s.expNs, s.gain) else (s.prevExpNs, s.prevGain)

/-- The frame after a frame of a port (R101). -/
def nextFrame (perTick tick : Nat) (second : Bool) : Nat × Bool :=
  if perTick = 2 && !second then (tick, true) else (tick + 1, false)

/-- The first frame from a given one whose t_send lies after an instant (R88), in at most `fuel` steps. -/
def Dev.frameAfter (d : Dev) (r : CameraPort) (s : CameraState) (perTick : Nat) (t : Nanos) :
    (fuel tick : Nat) → Bool → Nat × Bool
  | 0, tick, second => (tick, second)
  | fuel + 1, tick, second =>
    let past := match d.validAt tick with
      | some v => decide (sendAt r d.time.pNs v second (frameExposure d r s v second).1 ≤ halfPs t)
      | none => true
    if past then
      let n := nextFrame perTick tick second
      d.frameAfter r s perTick t fuel n.1 n.2
    else (tick, second)

/-- The frames of a port at the boundary that begins tick k, where its stream has just become ACTIVE (R88). -/
def armTriggers (k : Nat) (d : Dev) (e : Nat × StreamEntry) : Dev :=
  match e.2.src with
  | .camera f =>
    match d.camRec e.2.port with
    | some r =>
      let s := d.stream e.1
      if s.mode = .active && s.activeSince = d.now then
        let n := d.frameAfter r (d.camera e.2.port) f.framesPerTick d.now 16 k false
        modCamera e.2.port (fun c => { c with trigTick := n.1, trigSecond := n.2 }) d
      else d
    | none => d
  | _ => d

/-- The triggers of streams that become ACTIVE at a major tick boundary. -/
def armAll (k : Nat) (d : Dev) : Dev := d.image.streams.entries.foldl (armTriggers k) d

/-- TRIGGER_SEND (R40, R87, R92): at t_send of the port's next frame. -/
def triggerSend (port : Fin 16) (d : Dev) : Dev :=
  let c := port.val
  let s := d.camera c
  match d.camRec c, d.camStream c, d.validAt s.trigTick with
  | some r, some (n, _, f), some v =>
    let x := frameExposure d r s v s.trigSecond
    let tTrig := trigAt r d.time.pNs v s.trigSecond x.1
    if !d.time.begun || decide (halfPs d.now < tTrig - halfPs r.uplinkLatNs) || decide ((d.stream n).mode = .disabled) then d
    else
      let nx := nextFrame f.framesPerTick s.trigTick s.trigSecond
      let d := modCamera c (fun s => { s with trigTick := nx.1, trigSecond := nx.2 }) d
      if s.link ≠ .up then
        bump (barCam c + 0x1C) s.trigSkip 1 (fun k d => modCamera c (fun s => { s with trigSkip := k }) d) d
      else
        let width := if r.trigWidthUs = 0 then 10 else r.trigWidthUs
        emit (.trigger c (nsOf tTrig) width)
          (modCamera c (fun q => { q with sent := q.sent ++ [(s.trigTick, s.trigSecond, tTrig, x.1)] }) d)
  | _, _, none => modCamera c (fun q => { q with trigTick := q.trigTick + 1, trigSecond := false }) d
  | _, _, _ => d

/-! ### Links (R84 to R86) -/

/-- Begin the initialisation of a port: the read of the sentinel register (R86). -/
def beginInit (c : Nat) (r : CameraPort) (d : Dev) : Dev :=
  emit (.cciRead c r.cciAddr r.regSentinel)
    (modCamera c (fun s => { s with link := .init, job := .sentinel, jobBegan := d.now, initTries := 0,
                                    attemptBegan := d.now, want := none, wantNext := none }) d)

/-- The frame of a port of which no more comes: its bands on time stay Percale's to complete (R87, R95). -/
def CameraState.cut (s : CameraState) : CameraState :=
  { s with frame := s.frame.map (fun x => { x with rows := [], ended := true, metered := true }), sent := [] }

/-- Begin training (R84). -/
def beginTraining (c : Nat) (d : Dev) : Dev :=
  modCamera c (fun s => { s.cut with link := .training, retrain := false, attemptBegan := d.now, job := .idle,
                                     want := none, wantNext := none }) d

/-- A camera port enabled by section 0x11 starts training (R84, R410). -/
def enableCamera (d : Dev) (e : Nat × CameraPort) : Dev :=
  beginTraining e.1 (modCamera e.1 (fun s => { s with enabled := true, gear := e.2.gear }) d)

/-- TRAINING_SUCCESS (R84): the port enters INIT. -/
def trainingSuccess (port : Fin 16) (d : Dev) : Dev :=
  match d.camRec port.val with
  | some r => if (d.camera port.val).link = .training then beginInit port.val r d else d
  | none => d

/-- The port goes to DOWN after a failed attempt, and tries again 100 ms after it began (R84). -/
def goDown (c : Nat) (d : Dev) : Dev :=
  modCamera c (fun s => { s.cut with link := .down, retrain := true, job := .idle, want := none, wantNext := none }) d

/-- TRAINING_TIMEOUT (R84): training has not completed in 20 ms. -/
def trainingTimeout (port : Fin 16) (d : Dev) : Dev :=
  let c := port.val
  let s := d.camera c
  if s.link = .training && decide (s.attemptBegan + 20 * msNs ≤ d.now) then
    let d := bump (barCam c + 0x08) s.trainFail 1 (fun k d => modCamera c (fun s => { s with trainFail := k }) d) (goDown c d)
    if s.trainReported then d
    else conditionEvent (barCam c + 0x08) (d.camera c).trainFail.val.toNat
      (modCamera c (fun s => { s with trainReported := true }) d)
  else d

/-- RETRAIN_INTERVAL_EXPIRY (R84). -/
def retrainIntervalExpiry (port : Fin 16) (d : Dev) : Dev :=
  let s := d.camera port.val
  if s.link = .down && s.retrain && decide (s.attemptBegan + 100 * msNs ≤ d.now) then beginTraining port.val d else d

/-- The band of a row (R100). -/
def bandOf (f : CameraFields) (y : Nat) : Nat := if f.bandRows = 0 then 0 else y / f.bandRows

/-- Bands of a frame (R100). -/
def bandCount (f : CameraFields) : Nat := if f.bandRows = 0 then 1 else (f.height + f.bandRows - 1) / f.bandRows

/-- Count discarded bands of a port (R83). -/
def dropBands (c n : Nat) (d : Dev) : Dev :=
  if n = 0 then d
  else bump (barCam c + 0x14) (d.camera c).bandDrop n (fun k d => modCamera c (fun s => { s with bandDrop := k }) d) d

/-- The open bands of a frame of which something has arrived. -/
def begunBands (f : CameraFields) (x : CamFrame) : List Nat := (x.rows.map (fun r => bandOf f r.1)).eraseDups

/-- LINK_LOCK_LOSS (R85, R87): the port retrains; a band begun is discarded whole, the rest of the frame is missing. -/
def linkLockLoss (port : Fin 16) (d : Dev) : Dev :=
  let c := port.val
  let s := d.camera c
  if s.link ≠ .up && s.link ≠ .init then d
  else
    let n := match d.camStream c, s.frame with
      | some (_, _, f), some x => if x.triggered && !x.ended then (begunBands f x).length else 0
      | _, _ => 0
    let d := beginTraining c (dropBands c n d)
    let d := bump (barCam c + 0x04) s.linkLoss 1 (fun k d => modCamera c (fun s => { s with linkLoss := k }) d) d
    conditionEvent (barCam c + 0x04) (d.camera c).linkLoss.val.toNat d

/-- ABSENCE_TIMEOUT (R71, R84): the stream enters REACQUIRING, and a camera port that is UP goes to INIT. -/
def absenceTimeout (stream : Fin 48) (d : Dev) : Dev :=
  let n := stream.val
  if !d.absenceDue n then d
  else
    let d := enterReacquiring n d
    match d.entry n with
    | some e => match e.src with
      | .camera _ => match d.camRec e.port with
        | some r => if (d.camera e.port).link = .up then beginInit e.port r d else d
        | none => d
      | _ => d
    | none => d

/-! ### The CCI tunnel (R86, R89, R90, R98) -/

/-- REG_EXP for an exposure (R102): in lines of r_c, or in µs. -/
def expReg (r : CameraPort) (e : Nat) : Nat :=
  if r.expInUs then divRound 2 e 1000 else if r.lineTimePs = 0 then 0 else divRound 3 (e * 1000) r.lineTimePs

/-- Write j of the exposure sequence (R98): hold on, REG_EXP, REG_GAIN, hold off. The values and the widths of these writes are
the model's choice (log entry 197). -/
def expWrite (c : Nat) (r : CameraPort) (e g : Nat) : Nat → Emission
  | 0 => .cciWrite c r.cciAddr r.regHold 1 1
  | 1 => .cciWrite c r.cciAddr r.regExp (expReg r e) 2
  | 2 => .cciWrite c r.cciAddr r.regGain g 2
  | _ => .cciWrite c r.cciAddr r.regHold 0 1

/-- Start write j of the exposure sequence: of what the loop wants in UP, of the committed values in INIT. -/
def startExposure (c : Nat) (r : CameraPort) (j : Nat) (d : Dev) : Dev :=
  let s := d.camera c
  let x := match s.link, s.want with | .up, some w => w | _, _ => (s.expNs, s.gain)
  emit (expWrite c r x.1 x.2 j) (modCamera c (fun s => { s with job := .exposure j, jobBegan := d.now }) d)

/-- The port is UP (R84). -/
def goUp (c : Nat) (d : Dev) : Dev :=
  modCamera c (fun s => { s.cut with link := .up, job := .idle, trainReported := false, initReported := false }) d

/-- Start entry i of the initialisation sequence, or finish it (R86). -/
def startEntry (c : Nat) (r : CameraPort) (i : Nat) (d : Dev) : Dev :=
  match r.init[i]? with
  | none => goUp c d
  | some e =>
    let d := modCamera c (fun s => { s with job := .entry i, jobBegan := d.now }) d
    match e.op with
    | 0 => emit (.cciWrite c r.cciAddr e.addr (e.value % 256) 1) d
    | 1 => d
    | 2 => emit (.cciWrite c r.cciAddr e.addr e.value 2) d
    | _ => emit (.cciRead c r.cciAddr e.addr) d

/-- Initialisation has failed for good (R84). -/
def failInit (c : Nat) (d : Dev) : Dev :=
  let s := d.camera c
  let d := bump (barCam c + 0x2C) s.initFail 1 (fun k d => modCamera c (fun s => { s with initFail := k }) d) (goDown c d)
  if s.initReported then d
  else conditionEvent (barCam c + 0x2C) (d.camera c).initFail.val.toNat
    (modCamera c (fun s => { s with initReported := true }) d)

/-- A CCI error (R84, R90, R98): counted; the third in a row raises a health event. The initialisation restarts from
its first entry at most three times, also where the error fell in the read of the sentinel or in INIT's exposure writes (log
entry 198); an exposure sequence in UP commits nothing. -/
def cciError (c : Nat) (r : CameraPort) (d : Dev) : Dev :=
  let s := d.camera c
  let d := bump (barCam c + 0x18) s.cciErr 1
    (fun k d => modCamera c (fun s => { s with cciErr := k, cciRun := s.cciRun + 1 }) d) d
  let d := if (d.camera c).cciRun = 3 then conditionEvent (barCam c + 0x18) (d.camera c).cciErr.val.toNat d else d
  if s.link = .init then
    if s.initTries < 3 then startEntry c r 0 (modCamera c (fun s => { s with initTries := s.initTries + 1 }) d)
    else failInit c d
  else
    let d := modCamera c (fun s => { s with job := .idle, want := s.wantNext, wantNext := none }) d
    if (d.camera c).want.isSome then startExposure c r 0 d else d

/-- The exposure sequence ends (R98): in UP what it wrote is committed, in INIT the port comes up. -/
def endExposure (c : Nat) (r : CameraPort) (d : Dev) : Dev :=
  let s := d.camera c
  if s.link = .init then goUp c d
  else match s.want with
    | some w =>
      let applied := decide (s.committedAt + 2 * d.time.minorNs ≤ d.now)
      let d := modCamera c (fun s => { s with
          job := .idle, want := s.wantNext, wantNext := none, expNs := w.1, gain := w.2, committedAt := d.now,
          prevExpNs := if applied then s.expNs else s.prevExpNs,
          prevGain := if applied then s.gain else s.prevGain }) d
      if (d.camera c).want.isSome then startExposure c r 0 d else d
    | none => modCamera c (fun s => { s with job := .idle }) d

/-- CCI_ACK (R86, R98): the transaction in progress is acknowledged, with the data of a read. -/
def cciAck (port : Fin 16) (data : Nat) (d : Dev) : Dev :=
  let c := port.val
  match d.camRec c with
  | none => d
  | some r =>
    let s := d.camera c
    let good (d : Dev) : Dev := modCamera c (fun s => { s with cciRun := 0 }) d
    match s.job with
    | .idle => d
    | .sentinel => if data % 256 = r.sentinelVal then startExposure c r 0 (good d) else startEntry c r 0 (good d)
    | .entry i =>
      match r.init[i]? with
      | none => d
      | some e =>
        if e.op = 1 then d
        else if e.op = 3 && decide (data ≠ e.value) then cciError c r d
        else startEntry c r (i + 1) (good d)
    | .exposure j => if j < 3 then startExposure c r (j + 1) (good d) else endExposure c r (good d)

/-- CCI_TIMEOUT (R90): no acknowledgement within 1 ms. -/
def cciTimeout (port : Fin 16) (d : Dev) : Dev :=
  let c := port.val
  let s := d.camera c
  let waits := match s.job, d.camRec c with
    | .entry i, some r => match r.init[i]? with | some e => decide (e.op = 1) | none => false
    | _, _ => false
  match d.camRec c with
  | some r => if s.job = .idle || waits || decide (d.now < s.jobBegan + msNs) then d else cciError c r d
  | none => d

/-- INIT_WAIT_EXPIRY (R86): the wait of an entry of op 1 has run out. -/
def initWaitExpiry (port : Fin 16) (d : Dev) : Dev :=
  let c := port.val
  let s := d.camera c
  match s.job, d.camRec c with
  | .entry i, some r =>
    match r.init[i]? with
    | some e => if e.op = 1 && decide (s.jobBegan + e.addr * usNs ≤ d.now) then startEntry c r (i + 1) d else d
    | none => d
  | _, _ => d

/-! ### Packets, rows and bands (R43, R63, R81 to R83, R100) -/

/-- Expected arrival of the Frame Start of a trigger, in units of 0.5 ps (R43). -/
def startExpected (r : CameraPort) (tTrig : Int) (e : Nat) : Int := tTrig + halfPs ((r.trigLatNs : Int) + e + r.readoutLatNs)

/-- The tolerance of R43 in units of 0.5 ps. -/
def startTol (r : CameraPort) : Int := halfPs ((if r.fsTolUs = 0 then 200 else r.fsTolUs) * usNs : Nat)

/-- Count dropped packets of a port (R81, R83). -/
def dropPacket (c : Nat) (d : Dev) : Dev :=
  bump (barCam c + 0x10) (d.camera c).pktDrop 1 (fun k d => modCamera c (fun s => { s with pktDrop := k }) d) d

/-- A frame that begins, with what its trigger fixed; of none, an untriggered frame (R43). -/
def newFrame : Option (Nat × Bool × Int × Nat) → CamFrame
  | some x => { tick := x.1, second := x.2.1, tTrig := x.2.2.1, expNs := x.2.2.2, triggered := true, rows := [], closed := [],
                onTime := [], done := [] }
  | none => { tick := 0, second := false, tTrig := 0, expNs := 0, triggered := false, rows := [], closed := [], onTime := [],
              done := [] }

/-- The bands of a triggered frame that are still open as no more of it comes (R83). -/
def openBands (f : CameraFields) (x : CamFrame) : Nat :=
  if x.triggered && !x.ended then bandCount f - x.closed.length else 0

/-- A Frame Start (R43, R83, R99): the frame of the trigger it matches, or an untriggered frame. The bands of a frame whose
Frame End did not come have incomplete rows. -/
def frameStart (c n : Nat) (f : CameraFields) (r : CameraPort) (a : Nanos) (d : Dev) : Dev :=
  let left := match (d.camera c).frame with | some x => openBands f x | none => 0
  let d := dropBands c left d
  let s := d.camera c
  let waiting := s.sent.filter (fun x => decide (halfPs a ≤ startExpected r x.2.2.1 x.2.2.2 + startTol r))
  let s := { s with wbR := s.wbNextR, wbB := s.wbNextB, lastFrame := s.frame }
  let begin_ (x : Option (Nat × Bool × Int × Nat)) : Option CamFrame := some { newFrame x with wbR := s.wbR, wbB := s.wbB }
  let stray (sent : List (Nat × Bool × Int × Nat)) (d : Dev) : Dev :=
    bump (barStream n + 0x20) (d.stream n).untriggered 1 (fun k d => d.setStream n { d.stream n with untriggered := k })
      (d.setCamera c { s with sent := sent, frame := begin_ none })
  match waiting with
  | x :: rest =>
    if startExpected r x.2.2.1 x.2.2.2 - startTol r ≤ halfPs a then
      d.setCamera c { s with sent := rest, frame := begin_ (some x) }
    else stray waiting d
  | [] => stray [] d

/-- Mid-exposure of row y of a frame, in units of 0.5 ps (R40). -/
def midExposure (r : CameraPort) (tTrig : Int) (e y : Nat) : Int :=
  tTrig + halfPs r.trigLatNs + 2 * (y * r.lineTimePs : Nat) + 1000 * (e : Int)

/-- First row and row count of a band (R100). -/
def bandRows (f : CameraFields) (b : Nat) : Nat × Nat :=
  let first := b * f.bandRows
  (first, min ((b + 1) * f.bandRows) f.height - first)

/-- The tick that a frame belongs to by its time (R62, R100): the second frame of a trigger's tick lies P/2 after T_k. -/
def CamFrame.ownTick (x : CamFrame) : Nat := if x.second then x.tick + 1 else x.tick

/-- A band that is on time for its frame's own tick joins what Chambray uses of the frame (R63, R180). -/
def keepBand (c : Nat) (x : CamFrame) (b j : Nat) (d : Dev) : Dev :=
  let key := (j * 16 + c) * 2 + bit x.second
  let old := match bget none key d.muslin.cams with | some o => o.bands | none => []
  let now_ : CamTick := { tTrig := x.tTrig, expNs := x.expNs, bands := old ++ [b] }
  { d with muslin := { d.muslin with cams := bput none key (some now_) d.muslin.cams } }

/-- A band whose rows are complete goes to Muslin (R61, R63, R70, R71, R76): the frame's time assigns it, its own arrival stamp
judges it. -/
def takeBand (c n : Nat) (e : StreamEntry) (f : CameraFields) (r : CameraPort) (x : CamFrame) (b : Nat) (a : Nanos)
    (d : Dev) : Dev :=
  let rows := bandRows f b
  let mid (y : Nat) : Int := nsOf (midExposure r x.tTrig x.expNs y)
  let t := d.corrected n (mid (rows.1 + rows.2 / 2)) a
  if implausible t a then countImplausible n 1 d
  else
    let d := usable n t a d
    if (d.stream n).mode ≠ .active then d
    else match d.assign e (d.corrected n (mid r.centreRow) a) a with
      | .outOfWindow => countOutOfWindow n 1 d
      | .window late tick =>
        let d := match late with | some j => countLateSamples n j 1 d | none => d
        match tick with
        | none => d
        | some (j, v) =>
          let first := mid rows.1
          let last := mid (rows.1 + (rows.2 - 1))
          let far := d.far e v t
          let d := noteAssigned j d
          let d := modContrib j n .main (fun q => addSamples 0 last.toNat far (addSamples 1 first.toNat far q)) d
          let d := if j = x.ownTick then keepBand c x b j d else d
          modCamera c (fun s => match s.frame with
            | some y => { s with frame := some { y with onTime := y.onTime ++ [(b, j)] } }
            | none => s) d

/-- Every row of a band has all of its exposures (R83). -/
def bandComplete (f : CameraFields) (x : CamFrame) (b : Nat) : Bool :=
  let rows := bandRows f b
  (List.range rows.2).all (fun i =>
    match assoc (rows.1 + i) x.rows with
    | some es => (List.range f.vcMap.length).all (fun j => es.contains j)
    | none => false)

/-- Close a band of the frame in progress: its rows are no longer held. -/
def closeBand (f : CameraFields) (b : Nat) (x : CamFrame) : CamFrame :=
  { x with closed := b :: x.closed, rows := x.rows.filter (fun y => bandOf f y.1 ≠ b) }

/-- Note a row's exposure. -/
def addRow (y i : Nat) : List (Nat × List Nat) → List (Nat × List Nat)
  | [] => [(y, [i])]
  | e :: rest => if e.1 = y then (y, i :: e.2) :: rest else e :: addRow y i rest

/-- An image row on exposure i (R83): a row of the wrong width, or one whose payload failed, spoils its band; a row past
the height is dropped. The bands of an untriggered frame, and rows without a frame, are not counted as dropped bands (log entry
199). -/
def imageRow (c n i : Nat) (e : StreamEntry) (f : CameraFields) (r : CameraPort) (p : CsiPacket) (d : Dev) : Dev :=
  if f.height ≤ p.row then dropPacket c d
  else
    let d := if p.crcOk then d else dropPacket c d
    match (d.camera c).frame with
    | none => d
    | some x =>
      let b := bandOf f p.row
      let whole := p.crcOk && decide (p.pixels.length = f.width)
      let x := if x.triggered && whole then { x with pix := bput [] (rowKey p.row i) p.pixels x.pix } else x
      let x := { x with reached := max x.reached (p.row + 1) }
      let d := modCamera c (fun s => { s with frame := some x }) d
      if !x.triggered || x.ended || x.closed.contains b then d
      else if !whole then dropBands c 1 (modCamera c (fun s => { s with frame := some (closeBand f b x) }) d)
      else
        let x := { x with rows := addRow p.row i x.rows }
        if bandComplete f x b then
          takeBand c n e f r x b p.arrival (modCamera c (fun s => { s with frame := some (closeBand f b x) }) d)
        else modCamera c (fun s => { s with frame := some x }) d

/-- A Frame End: the bands still open have an incomplete row (R83). -/
def frameEnd (c : Nat) (f : CameraFields) (d : Dev) : Dev :=
  match (d.camera c).frame with
  | none => d
  | some x =>
    let all := List.range (bandCount f)
    dropBands c (openBands f x) (modCamera c (fun s => { s with frame := some { x with rows := [], closed := all, ended := true } }) d)

/-- CSI2_PACKET_RECEIVED (R81 to R83). A short packet of a data type that the table does not give is dropped and counted like
a long one (log entry 200). -/
def csi2PacketReceived (port : Fin 16) (pkt : CsiPacket) (d : Dev) : Dev :=
  let c := port.val
  if (d.camera c).link ≠ .up then d
  else match d.camRec c, d.camStream c with
    | some r, some (n, e, f) =>
      if pkt.ecc = .uncorrectable then dropPacket c d
      else
        let d := if pkt.ecc = .corrected then
            bump (barCam c + 0x0C) (d.camera c).eccCorr 1 (fun k d => modCamera c (fun s => { s with eccCorr := k }) d) d
          else d
        match f.vcMap.findIdx? (· = pkt.vc) with
        | none => d
        | some i =>
          if pkt.dataType = 0x00 then (if i = 0 then frameStart c n f r pkt.arrival d else d)
          else if pkt.dataType = 0x01 then (if i + 1 = f.vcMap.length then frameEnd c f d else d)
          else if pkt.dataType = 0x02 || pkt.dataType = 0x03 then d
          else if pkt.dataType = f.dataType then imageRow c n i e f r pkt d
          else if pkt.dataType = 0x12 && pkt.crcOk then d
          else dropPacket c d
    | _, _ => d

/-- What Percale works on at a port. -/
def rawFrame (r : CameraPort) (f : CameraFields) (x : CamFrame) : RawFrame :=
  { port := r, fields := f, wbR := x.wbR, wbB := x.wbB, pix := x.pix }

/-- The rows that Percale has for its stages (R95): the complete ones, but those of a band that is discarded or late. -/
def percaleRows (r : RawFrame) (f : CameraFields) (x : CamFrame) : List Nat :=
  r.wholeRows.filter (fun y => !x.closed.contains (bandOf f y) || (assoc (bandOf f y) x.onTime).isSome)

/-- A band's rows of one level, at the destination that the Tick Plan names for it by a descriptor (R94). -/
def writeBand (r : RawFrame) (rows : List Nat) (band : Nat × Nat) (ts : List Tensor) (d : Dev) (dst : Nat × Nat) : Dev :=
  let first := band.1 / 2 ^ dst.1
  let last := (band.1 + (band.2 - 1)) / 2 ^ dst.1
  match tensorOf ts dst.2 with
  | some t => if dst.1 ≤ r.fields.pyrLevels then writeLevel r rows t dst.1 first (last + 1 - first) d else d
  | none => d

/-- The last row that a band needs has arrived (R95): row last(b) + 2 (2^(L+1) − 1), the frame's last row where that comes
first, or no more of the frame comes. -/
def CamFrame.hasNeeded (x : CamFrame) (f : CameraFields) (b : Nat) : Bool :=
  let rows := bandRows f b
  x.ended || decide (min (rows.1 + (rows.2 - 1) + 2 * (2 ^ (f.pyrLevels + 1) - 1)) (f.height - 1) < x.reached)

/-- The tick of a band of a frame that Percale may complete now (R94, R95), none where there is nothing to do. -/
def CamFrame.ready (x : CamFrame) (f : CameraFields) (b : Nat) : Option Nat :=
  if x.done.contains b || !x.hasNeeded f b then none else assoc b x.onTime

/-- Percale writes a band of a frame for a tick. -/
def writeFrameBand (c : Nat) (r : CameraPort) (f : CameraFields) (x : CamFrame) (b tick : Nat) (dests : List (Nat × Nat))
    (d : Dev) : Dev :=
  let raw := rawFrame r f x
  dests.foldl (writeBand raw (percaleRows raw f x) (bandRows f b) (d.descsAt .main tick)) d

/-- PERCALE_BAND_DONE (R93 to R95): Percale writes an on-time band's base and pyramid levels to the destinations that the
Tick Plan of its tick names; `dests` gives a descriptor for each level. The band is one of the frame in progress, or of the
one before it. -/
def percaleBandDone (port : Fin 16) (band : Nat) (dests : List (Nat × Nat)) (d : Dev) : Dev :=
  let c := port.val
  match d.camRec c, d.camStream c with
  | some r, some (_, _, f) =>
    let s := d.camera c
    match s.frame.bind (fun x => (x.ready f band).map (fun k => (x, k))),
        s.lastFrame.bind (fun x => ({ x with ended := true }.ready f band).map (fun k => (x, k))) with
    | some (x, k), _ =>
      modCamera c (fun s => { s with frame := some { x with done := band :: x.done } }) (writeFrameBand c r f x band k dests d)
    | none, some (x, k) =>
      modCamera c (fun s => { s with lastFrame := some { x with done := band :: x.done } }) (writeFrameBand c r f x band k dests d)
    | none, none => d
  | _, _ => d

/-! ### The loop (R96 to R99) -/

/-- E_gate in ns (R97). -/
def expGate (e : StreamEntry) (f : CameraFields) (r : CameraPort) : Nat :=
  (2 * ((gateNs e : Int) - (divRound 4 ((f.height - r.centreRow) * r.lineTimePs) 1000 : Nat) - r.readoutLatNs - 2000)).toNat

/-- The exposure for a product at a gain. -/
def expFor (product gain : Nat) : Nat := if gain = 0 then 0 else divRound 5 product gain

/-- The gain for a product at an exposure. -/
def gainFor (product e : Nat) : Nat := if e = 0 then 0xFFFF else divRound 6 product e

/-- The new exposure and gain for a product (R97): up through exposure to E_gate, gain, and exposure to EXP_MAX; down in
the reverse order. -/
def splitProduct (r : CameraPort) (gate e g product : Nat) : Nat × Nat :=
  let up := decide (e * g ≤ product)
  let x := if up then
      let e1 := max e (min (expFor product g) gate)
      let g1 := max g (min (gainFor product e1) r.gainMax)
      (max e1 (expFor product g1), g1)
    else
      let e1 := if gate < e then max gate (expFor product g) else e
      let g1 := max r.gainMin (min g (gainFor product e1))
      (min e1 (expFor product g1), g1)
  (max (r.expMinUs * usNs) (min x.1 (r.expMaxUs * usNs)), max r.gainMin (min x.2 r.gainMax))

/-- The mean of one colour over the qualifying zones, as a sum: their count is the same for all (R99). -/
def zoneSum (luma vals : List Nat) : Nat :=
  ((luma.zip vals).filter (fun z => decide (2 ^ 24 * 5 ≤ 100 * z.1) && decide (100 * z.1 ≤ 2 ^ 24 * 90))).foldl
    (fun s z => s + z.2) 0

/-- Zones whose luminance lies between 5 % and 90 % of full scale (R99). -/
def zonesIn (luma : List Nat) : Nat :=
  (luma.filter (fun z => decide (2 ^ 24 * 5 ≤ 100 * z) && decide (100 * z ≤ 2 ^ 24 * 90))).length

/-- A white-balance gain moved towards its target by at most WB_STEP/256 of its value, U4.12 (R99). -/
def moveGain (gain target step : Nat) : Nat :=
  let lim := gain * step / 256
  min 0xFFFF (max (gain - lim) (min (gain + lim) target))

/-- The gray-world gain of a colour, U4.12 (R99); of a colour without light the largest (log entry 201). -/
def grayGain (green colour : Nat) : Nat := if colour = 0 then 0xFFFF else min 0xFFFF (divRound 8 (green * 4096) colour)

/-- The exposure-gain product after the loop's correction (R97): times TARGET_LUMA / M, limited to STEP_EV16 / 16 EV either way,
and moved by the whole step where M is 0. TARGET_LUMA is a fraction of 2^24. -/
def stepProduct (product target metered step : Nat) : Nat :=
  let t := target * 256
  let up := decide (metered = 0) || decide (metered ^ 16 * 2 ^ step < t ^ 16)
  let down := decide (t ^ 16 * 2 ^ step < metered ^ 16)
  let power := 2 ^ (step / 16) * (exp2At 256 (((step % 16 : Nat) * 2 ^ 252 : Nat) : Int)).toNat
  if up then divRound 21 (product * power) (2 ^ 256)
  else if down then divRound 21 (product * 2 ^ 256) power
  else divRound 21 (product * t) metered

/-- The loop's decision for the next frame (R97 to R99) from the statistics of a frame. A port that is not UP, or whose
stream a mode has disabled, keeps its state (R88). -/
def loopDecision (c : Nat) (r : CameraPort) (n : Nat) (e : StreamEntry) (f : CameraFields) (stats : FrameStats) (d : Dev) : Dev :=
  let s := d.camera c
  if s.link ≠ .up || decide ((d.stream n).mode = .disabled) then d
  else
    let product := stepProduct (s.expNs * s.gain) r.targetLuma stats.metered r.stepEv16
    let x := splitProduct r (expGate e f r) s.expNs s.gain product
    let green := zoneSum stats.zoneLuma stats.zoneG
    let wb := decide (16 ≤ zonesIn stats.zoneLuma) && decide (f.cfa ≠ 0)
    let wr := if wb then moveGain s.wbNextR (grayGain green (zoneSum stats.zoneLuma stats.zoneR)) r.wbStep else s.wbNextR
    let wB := if wb then moveGain s.wbNextB (grayGain green (zoneSum stats.zoneLuma stats.zoneB)) r.wbStep else s.wbNextB
    if s.job = .idle then startExposure c r 0 (d.setCamera c { s with want := some x, wbNextR := wr, wbNextB := wB })
    else d.setCamera c { s with wantNext := some x, wbNextR := wr, wbNextB := wB }

/-- STATISTICS_COMPLETE (R96 to R99): the statistics of the frame whose rows have all arrived, once, and the loop's
decision. -/
def statisticsComplete (port : Fin 16) (d : Dev) : Dev :=
  let c := port.val
  match (d.camera c).frame, d.camRec c, d.camStream c with
  | some x, some r, some (n, e, f) =>
    if !x.triggered || x.metered || decide (x.closed.length < bandCount f) then d
    else
      let stats := (rawFrame r f x).stats
      let d := modCamera c (fun s => { s with stats := stats, frame := some { x with metered := true } }) d
      loopDecision c r n e f stats d
  | _, _, _ => d

/-- EXPOSURE_US_READ (R104): the read latches the white-balance gains of the same frame. -/
def exposureUsRead (cam : Fin 16) (d : Dev) : Dev :=
  modCamera cam.val (fun s => { s with latchWbR := s.wbR, latchWbB := s.wbB }) d

/-- The camera ports at the changeover of a warm start (R84, R415): a port whose record differs retrains, one that is no
longer enabled goes down. -/
def changeCamera (old : Image) (d : Dev) (c : Nat) : Dev :=
  match assoc c old.cameras, d.camRec c with
  | a, some r => if a = some r then d else enableCamera d (c, r)
  | some _, none => modCamera c (fun s => { s.cut with link := .down, enabled := false, gear := 0, retrain := false, job := .idle,
                                                       want := none, wantNext := none }) d
  | none, none => d

end Sys2Proof.Machine
end

