-- ==== Sys2Proof/Machine/Poses.lean ====
section
/-!
DEFINITION. Poses taken from the pose histories, and the place of the fusion grid (spec/03_windows_and_alignment.md R66
to R68; spec/06_frames_and_calibration_tables.md R133).
-/

namespace Sys2Proof.Machine

open Sys2Proof

/-- The EGO slot of a pipeline: of S0, or of S3 for Burlap (R65, R66). -/
def Dev.egoSlot (d : Dev) (src : Source) : Option Nat :=
  let unit := match src with | .main => 0 | .burlap => 3
  (d.sergeDefs.slots.find? (fun s => s.2.unit = unit && decide (s.2.cls = .ego))).map (·.1)

/-- The current odometry epoch of a pipeline (R132, R147). -/
def Dev.odoEpoch (d : Dev) (src : Source) : Nat :=
  match d.egoSlot src with | some g => (d.srgSlot g).epoch.toNat | none => 0

/-- A pipeline's pose history, newest first (R66). -/
def Dev.history (d : Dev) (src : Source) : List PoseEntry :=
  match src with | .main => d.muslin.poseMain | .burlap => d.muslin.poseFb

/-- The pose of an entry as one list. -/
def PoseEntry.pose (e : PoseEntry) : List F64 := e.pos ++ e.quat

/-- A pose at an instant as an entry. -/
def entryOf (t : Nanos) (epoch : Nat) (p : List F64) : PoseEntry :=
  { b := t, epoch := epoch, pos := p.take 3, quat := p.drop 3, valid := true }

/-- The newest entry at or before an instant, of a list newest first. -/
def lastAt (t : Int) (l : List PoseEntry) : Option PoseEntry := l.find? (fun e => decide ((e.b : Int) ≤ t))

/-- The oldest entry at or after an instant, of a list newest first. -/
def firstAt (t : Int) (l : List PoseEntry) : Option PoseEntry := l.reverse.find? (fun e => decide (t ≤ (e.b : Int)))

/-- A pose taken under R67 with its extrapolation span, 0 where it is interpolated. -/
structure Taken where
  pose : PoseEntry
  span : Int
  deriving DecidableEq, Repr

/-- The pose extrapolated from the newest valid entry (R67). -/
def extrapolate (t : Int) : List PoseEntry → Option Taken
  | [] => none
  | e :: _ =>
    let span := t - (e.b : Int)
    some { pose := entryOf t.toNat e.epoch (poseAhead e.pose e.vel e.rate span), span := span }

/-- The pose at an instant from valid entries, newest first (R67): interpolated between the nearest entries on either side
where they lie within 4 × P/N of each other, extrapolated otherwise. Where the two belong to different odometry epochs the
older one counts as invalid, and so does every entry before it (R132). -/
def poseFrom (minor : Nat) (t : Int) (l : List PoseEntry) : Option Taken :=
  match lastAt t l, firstAt t l with
  | some a, some b =>
    if a.b = b.b then some { pose := a, span := 0 }
    else if b.b - a.b ≤ 4 * minor && decide (a.epoch = b.epoch) then
      some { pose := entryOf t.toNat a.epoch (poseBetween a.pose b.pose (t - a.b).toNat (b.b - a.b)), span := 0 }
    else extrapolate t l
  | _, _ => extrapolate t l

/-- A pipeline's valid entries, newest first. -/
def Dev.validPoses (d : Dev) (src : Source) : List PoseEntry := (d.history src).filter (·.valid)

/-- A pipeline's history holds a valid entry of the current odometry epoch (R147, R163). -/
def Dev.hasCurrent (d : Dev) (src : Source) : Bool :=
  (d.validPoses src).any (fun e => decide (e.epoch = d.odoEpoch src))

/-- The pose of a pipeline at an instant (R67), none where its history holds no valid entry of the current odometry epoch
(R68, R147, R163). It carries the epoch of the entries it is taken from. -/
def Dev.poseAt (d : Dev) (src : Source) (t : Int) : Option Taken :=
  if d.hasCurrent src then poseFrom d.time.minorNs t (d.validPoses src) else none

/-- POSE_EXTRAP_LIMIT (R58): 3 × P/N where the field is 0. -/
def Dev.extrapLimit (d : Dev) : Nat :=
  let us := d.image.streams.poseExtrapLimitUs
  if us = 0 then 3 * d.time.minorNs else us * usNs

/-- The pose's extrapolation span is past the limit (R67). -/
def Dev.pastLimit (d : Dev) (x : Taken) : Bool := decide ((d.extrapLimit : Int) < x.span)

/-- The identity pose. -/
def identityPose : List F64 := [0, 0, 0, 0x3FF0000000000000, 0, 0, 0]

/-- Grid placement along one axis (R133): c = floor(p / q + 1/2), and the fractional offset f = p − q × c in FP32. -/
def gridAxis (p : F64) (q : F32) : Int × F32 :=
  let pv := f64Value p
  let qv := f32Value q
  if qv.m ≤ 0 then (0, 0)
  else
    let c := ((pv.scale 1).add qv).floorDiv (qv.scale 1)
    (c, f32Of false (pv.add ((qv.mul { m := c, e := 0 }).neg)))

/-- The copy of a generation among some. -/
def copyAt (gen : BitVec 32) (l : List CalCopy) : Option CalCopy := l.find? (fun c => decide (c.gen = gen))

/-- The calibration copy that a tick is bound to (R138): of the generation active at its start. A tick of the image before a
warm start is bound to that image's copies (R414). -/
def Dev.calFor (d : Dev) (tick : Nat) : CalCopy :=
  let c := d.cal
  match assoc tick c.bound, assoc tick c.retiredBound with
  | some gen, _ => (copyAt gen [c.active, c.inactive]).getD c.active
  | none, some gen => (copyAt gen c.retired).getD c.active
  | none, none => c.active

/-- A stream's extrinsic in a tick as a rigid transform (R131, R138). -/
def Dev.extrinsic (d : Dev) (tick stream : Nat) : List F64 :=
  match assoc stream (d.calFor tick).records with
  | some e => rigidOfCal e.value.q e.value.t
  | none => identityPose

end Sys2Proof.Machine
end

