-- ==== Sys2Proof/Machine/Tweed.lean ====
section
/-!
DEFINITION. The Tweed point engines: slices and compensation, the hash table, neighbour queries, farthest-point
sampling, scatter, and the table's release (spec/07_tweed_point_engine.md R144 to R169).
-/

namespace Sys2Proof.Machine

open Sys2Proof

/-- BAR0 offset of an engine's block (R174). -/
def barTwdOf (src : Source) : Nat := barTwd + 0x40 * src.idx

/-- A pipeline's Tweed engine. -/
def Dev.engine (d : Dev) (src : Source) : TweedState := match src with | .main => d.tweed | .burlap => d.tweedFb

/-- The device with a Tweed engine replaced. -/
def Dev.setEngine (d : Dev) (src : Source) (e : TweedState) : Dev :=
  match src with | .main => { d with tweed := e } | .burlap => { d with tweedFb := e }

/-- The device with a Tweed engine changed. -/
def modEngine (src : Source) (f : TweedState → TweedState) (d : Dev) : Dev := d.setEngine src (f (d.engine src))

/-- The engine takes points (R168): the main one not while its partition restarts, or its die has no power. -/
def Dev.engineRuns (d : Dev) (src : Source) : Bool :=
  match src with
  | .burlap => true
  | .main =>
    let s := d.die 4
    decide (s.state = .admitted) && s.parts.isEmpty && s.failedParts.isEmpty && !d.powerOff 4

/-- The engine record of a tick (R170, R171): of the tick's mode, the main one only where the main pipeline runs. -/
def Dev.tweedRec (d : Dev) (src : Source) (tick : Nat) : Option TweedRec :=
  match d.tickRec tick with
  | none => none
  | some r =>
    let s := (d.imageAt tick).tweed
    match src with
    | .burlap => assoc r.mode s.fb
    | .main => if r.mainRuns then assoc r.mode s.main else none

/-- One of the engine's counters after n more events. -/
def bumpTwd (src : Source) (off : Nat) (get : TweedState → Counter) (put : Counter → TweedState → TweedState) (n : Nat)
    (d : Dev) : Dev :=
  bump (barTwdOf src + off) (get (d.engine src)) n (fun c d => modEngine src (put c) d) d

/-- A tick's outputs set EXTRAPOLATED_FAR for the engine (R147, R163, R169). -/
def noteFar (src : Source) (tick : Nat) (d : Dev) : Dev :=
  modEngine src (fun e => if e.far.contains tick then e else { e with far := tick :: e.far }) d

/-- A tick's outputs set CELL_TABLE_FULL for the engine (R152, R169). -/
def noteFull (src : Source) (tick : Nat) (d : Dev) : Dev :=
  modEngine src (fun e => if e.full.contains tick then e else { e with full := tick :: e.full }) d

/-! ### Keys and the hash table (R150, R151) -/

/-- The bucket of a key (R151). -/
def bucketOf (src : Source) (key : Nat) : Nat :=
  let h := key * 0x9E3779B97F4A7C15 % 2 ^ 64
  let h := Nat.xor h (h / 2 ^ 29)
  h / 2 ^ (64 - match src with | .main => 18 | .burlap => 16)

/-- Buckets of an engine's table (R144). -/
def bucketCount : Source → Nat
  | .main => 2 ^ 18 | .burlap => 2 ^ 16

/-- A level-0 index along an axis (R150): floor(coordinate / voxel) plus the bias. -/
def cellIndex (coord voxel : F32) (bias : Nat) : Int :=
  let v := f32Value voxel
  if v.m ≤ 0 then -1 else (f32Value coord).floorDiv v + bias

/-- The key of level-0 indices at a level (R150). -/
def keyOf (ix iy iz level : Nat) : Nat :=
  ix / 2 ^ level + iy / 2 ^ level * 2 ^ 20 + iz / 2 ^ level * 2 ^ 40 + level * 2 ^ 56

/-- IX of a key. -/
def keyX (k : Nat) : Nat := k % 2 ^ 20
/-- IY of a key. -/
def keyY (k : Nat) : Nat := k / 2 ^ 20 % 2 ^ 20
/-- IZ of a key. -/
def keyZ (k : Nat) : Nat := k / 2 ^ 40 % 2 ^ 16
/-- LEVEL of a key. -/
def keyLevel (k : Nat) : Nat := k / 2 ^ 56 % 4

/-- Hash slot s of bucket b: its key and cell index where it is valid. -/
def TweedState.slot (e : TweedState) (b s : Nat) : Option (Nat × Nat) := bget none (8 * b + s) e.slots

/-- The cell index of a key in a bucket. -/
def TweedState.inBucket (e : TweedState) (b key : Nat) : Option Nat :=
  (List.range 8).findSome? (fun s => match e.slot b s with
    | some (k, i) => if k = key then some i else none
    | none => none)

/-- The first slot of a bucket that is not valid. -/
def TweedState.freeSlot (e : TweedState) (b : Nat) : Option Nat := (List.range 8).find? (fun s => (e.slot b s).isNone)

/-- R151's insertion from probe step `step` on, at most `fuel` buckets: the cell index, none where it returns full. -/
def insertFrom (src : Source) (key levelMax : Nat) : (fuel step : Nat) → TweedState → Option Nat × TweedState
  | 0, _, e => (none, e)
  | fuel + 1, step, e =>
    let b := (bucketOf src key + step) % bucketCount src
    let l := keyLevel key
    match e.inBucket b key with
    | some i => (some i, e)
    | none => match e.freeSlot b with
      | none => insertFrom src key levelMax fuel (step + 1) e
      | some s =>
        let n := bget 0 l e.count
        if n = levelMax then (none, e)
        else
          let probe := max (bget 0 l e.maxProbe) (step + 1)
          (some n, { e with slots := bput none (8 * b + s) (some (key, n)) e.slots, count := bput 0 l (n + 1) e.count,
                            maxProbe := bput 0 l probe e.maxProbe, hwm := max e.hwm probe })

/-- Insert a key (R151). -/
def insertKey (src : Source) (key levelMax : Nat) (e : TweedState) : Option Nat × TweedState :=
  insertFrom src key levelMax 32 0 e

/-- R157's look-up from probe step `step` on. -/
def findFrom (src : Source) (key : Nat) : (fuel step : Nat) → TweedState → Option Nat
  | 0, _, _ => none
  | fuel + 1, step, e =>
    let b := (bucketOf src key + step) % bucketCount src
    match e.inBucket b key with
    | some i => some i
    | none => if (e.slot b 7).isNone then none else findFrom src key fuel (step + 1) e

/-- Look a key up (R157): at most max_probe of its level's buckets are read. -/
def TweedState.find (e : TweedState) (src : Source) (key : Nat) : Option Nat :=
  findFrom src key (bget 0 (keyLevel key) e.maxProbe) 0 e

/-! ### Cell records (R153, R154) -/

/-- The number of a cell in the bank of cells. -/
def cellKey (level i : Nat) : Nat := level * 2 ^ 21 + i

/-- An FP32 value in FP16 (R153). -/
def toHalf (v : F32) : BitVec 16 := BitVec.ofNat 16 (convertNum .fp16 true (v.getLsbD 31) (f32Num v)).bits

/-- An FP16 pattern in FP32. -/
def ofHalf (h : BitVec 16) : F32 := (f32Round (Format.num .fp16 h.toNat)).v

/-- The larger of two FP16 values. -/
def maxHalf (a b : BitVec 16) : BitVec 16 := if f32Gt (ofHalf b) (ofHalf a) then b else a

/-- The smaller of two FP16 values. -/
def minHalf (a b : BitVec 16) : BitVec 16 := if f32Gt (ofHalf a) (ofHalf b) then b else a

/-- The centre of a level's cell along an axis in FP32 (R150, R153): the cell spans 2^level level-0 indices. -/
def cellCentre (voxel : F32) (index bias level : Nat) : F32 :=
  (Rounding.open .tweed).mul (f32Of false { m := 2 * (((index / 2 ^ level) * 2 ^ level : Nat) : Int) + (2 ^ level : Nat) - 2 * bias, e := -1 }) voxel

/-- What a point brings to a cell. -/
structure Hit where
  dx : F32
  dy : F32
  dz : F32
  intensity : F32
  sweepBit : Nat
  t : Nanos
  store : Nat

/-- The record of a cell's first point (R153). -/
def firstHit (key : Nat) (h : Hit) : CellRec :=
  { key := key, count := 1, sweepMap := [h.sweepBit], newest := h.t, sumDx := h.dx, sumDy := h.dy, sumDz := h.dz,
    sumI := h.intensity, maxI := toHalf h.intensity, maxDz := toHalf h.dz, minDz := toHalf h.dz, firstPoint := h.store }

/-- A cell record with one more point (R153, R154). -/
def addHit (c : CellRec) (h : Hit) : CellRec :=
  { c with count := c.count + 1, sweepMap := if c.sweepMap.contains h.sweepBit then c.sweepMap else h.sweepBit :: c.sweepMap,
           newest := max c.newest h.t, sumDx := Rounding.add (.open .tweed) c.sumDx h.dx, sumDy := Rounding.add (.open .tweed) c.sumDy h.dy,
           sumDz := Rounding.add (.open .tweed) c.sumDz h.dz, sumI := Rounding.add (.open .tweed) c.sumI h.intensity,
           maxI := maxHalf c.maxI (toHalf h.intensity), maxDz := maxHalf c.maxDz (toHalf h.dz),
           minDz := minHalf c.minDz (toHalf h.dz) }

/-- A cell record updated for a point. -/
def hitCell (level i key : Nat) (h : Hit) (e : TweedState) : TweedState :=
  let k := cellKey level i
  let c := match bget none k e.cells with
    | none => firstHit key h
    | some c => addHit c h
  { e with cells := bput none k (some c) e.cells }

/-! ### Insertion (R148, R149, R152, R155) -/

/-- The point store of a tick, by its parity (R155). -/
def TweedState.store (e : TweedState) (tick : Nat) : List PointRec := bget [] (tick % 2) e.stores

/-- A coordinate lies in a box of the ROI: closed at the minimum, open at the maximum (R149). -/
def inSpan (lo hi v : F32) : Bool := f32Le lo v && f32Gt hi v

/-- A point lies in the ROI (R149). -/
def inRoi (r : TweedRec) (p : Vec3) : Bool :=
  inSpan r.roiMin.x r.roiMax.x p.x && inSpan r.roiMin.y r.roiMax.y p.y && inSpan r.roiMin.z r.roiMax.z p.z

/-- The level-0 indices of a point, where they lie in the key's fields (R150). -/
def indices (r : TweedRec) (p : Vec3) : Option (Nat × Nat × Nat) :=
  let x := cellIndex p.x r.voxel.x (2 ^ 19)
  let y := cellIndex p.y r.voxel.y (2 ^ 19)
  let z := cellIndex p.z r.voxel.z (2 ^ 15)
  if 0 ≤ x && x < 2 ^ 20 && 0 ≤ y && y < 2 ^ 20 && 0 ≤ z && z < 2 ^ 16 then some (x.toNat, y.toNat, z.toNat) else none

/-- The sweep index of a corrected time (R154). -/
def Dev.sweep (d : Dev) (e : StreamEntry) (valid : Nanos) (t : Int) : Nat :=
  if e.periodUs = 0 then 0 else min 3 ((t - ((valid : Int) - d.windowNs e)) / (periodNs e : Nat)).toNat

/-- Change entry i of a point store. -/
def modPoint (tick i : Nat) (f : PointRec → PointRec) (e : TweedState) : TweedState :=
  let l := e.store tick
  match l[i]? with
  | some p => { e with stores := bput [] (tick % 2) (setNth i (f p) l) e.stores }
  | none => e

/-- The levels of an engine record. -/
def levelsOf (r : TweedRec) : List Nat := List.range r.levels

/-- What a point brings to its cell of a level: its offsets are from that cell's centre (R153). -/
def hitAt (r : TweedRec) (ix : Nat × Nat × Nat) (p : PointRec) (sweepBit : Nat) (t : Nanos) (store level : Nat) : Hit :=
  let m := Rounding.open .tweed
  { dx := m.sub p.p.x (cellCentre r.voxel.x ix.1 (2 ^ 19) level), dy := m.sub p.p.y (cellCentre r.voxel.y ix.2.1 (2 ^ 19) level),
    dz := m.sub p.p.z (cellCentre r.voxel.z ix.2.2 (2 ^ 15) level), intensity := p.intensity, sweepBit := sweepBit, t := t,
    store := store }

/-- Insert a point at the levels above level 0 (R152); `hit` is what it brings at a level. -/
def insertHigher (src : Source) (tick : Nat) (r : TweedRec) (ix : Nat × Nat × Nat) (hit : Nat → Hit) (d : Dev) (l : Nat) : Dev :=
  let key := keyOf ix.1 ix.2.1 ix.2.2 l
  match insertKey src key (r.levelCellMax.getD l 0) (d.engine src) with
  | (some i, e) => d.setEngine src (hitCell l i key (hit l) e)
  | (none, e) =>
    noteFull src tick
      (bumpTwd src 0x10 (·.levelFull) (fun c e => { e with levelFull := c }) 1 (d.setEngine src e))

/-- A point of stream n inserted at level 0 is a contribution of its stream (R70, R155). -/
def contributePoint (src : Source) (tick n : Nat) (e : StreamEntry) (valid : Nanos) (t : Int) (d : Dev) : Dev :=
  modContrib tick n src (addSamples 1 t.toNat (d.far e valid t)) d

/-- Insert store entry i of a tick at every configured level (R149 to R155). -/
def insertPoint (src : Source) (tick i : Nat) (d : Dev) : Dev :=
  let d := modEngine src (modPoint tick i (fun p => { p with pending := false })) d
  match ((d.engine src).store tick)[i]?, d.tweedRec src tick, d.validAt tick with
  | some p, some r, some valid =>
    if !r.enable then d
    else if !inRoi r p.p then bumpTwd src 0x18 (·.roiDrop) (fun c e => { e with roiDrop := c }) 1 d
    else match indices r p.p, d.entry p.stream with
      | some ix, some e =>
        let t : Int := valid + p.dtNs
        let hit := hitAt r ix p (4 * e.port + d.sweep e valid t) t.toNat i
        let key := keyOf ix.1 ix.2.1 ix.2.2 0
        match insertKey src key (r.levelCellMax.getD 0 0) (d.engine src) with
        | (none, s) =>
          noteFull src tick (bumpTwd src 0x0C (·.cellFull) (fun c e => { e with cellFull := c }) 1 (d.setEngine src s))
        | (some c, s) =>
          let s := hitCell 0 c key (hit 0) s
          let s := modPoint tick i (fun p => { p with cell := some c }) { s with inserted := s.inserted + 1 }
          let d := contributePoint src tick p.stream e valid t (d.setEngine src s)
          ((levelsOf r).drop 1).foldl (insertHigher src tick r ix hit) d
      | _, _ => bumpTwd src 0x18 (·.roiDrop) (fun c e => { e with roiDrop := c }) 1 d
  | _, _, _ => d

/-- Points of a tick may be inserted now (R148): its major tick has begun, and the tables of the ticks before it are
released. -/
def Dev.mayInsert (d : Dev) (src : Source) (tick : Nat) : Bool :=
  d.time.begun && decide (tick ≤ d.time.k) && decide ((d.engine src).tick = tick)

/-- DEFERRED_INSERTION (R148): the waiting points that may be inserted now are, in arrival order. -/
def deferredInsertion (src : Source) (d : Dev) : Dev :=
  let tick := (d.engine src).tick
  if d.mayInsert src tick && d.engineRuns src then
    let waiting := ((d.engine src).store tick).zipIdx.filter (fun x => x.1.pending && decide (x.1.tick = tick))
    (sortBy (fun a b : PointRec × Nat => decide (a.1.arrival < b.1.arrival)) waiting).foldl
      (fun d x => insertPoint src tick x.2 d) d
  else d

/-! ### Slices (R145 to R147) -/

/-- SLICE_US in ns (R145). -/
def Dev.sliceNs (d : Dev) : Nat := (if d.image.tweed.sliceUs = 0 then 500 else d.image.tweed.sliceUs) * usNs

/-- The slice that stream n has open. -/
def Dev.slice (d : Dev) (src : Source) (n : Nat) : Option Slice := bget none n (d.engine src).slices

/-- A slice's mid-time (R145): half the sum of its smallest and largest corrected times. -/
def midTime (l : List Point) : Int :=
  let ts := l.map (·.t)
  divRoundInt 9 ((ts.foldl min (ts.headD 0) : Nat) + (ts.foldl max 0 : Nat) : Int) 2

/-- The provisional anchor of a tick (R68): outer none where no point of it has come. -/
def TweedState.anchor (e : TweedState) (tick : Nat) : Option (Option PoseEntry) := assoc tick e.provisional

/-- What the compensation of a slice takes (R146, R147). -/
inductive SliceMove where
  | discard
  | apply (pose : List F64) (far : Bool)
  deriving DecidableEq, Repr

/-- The transform of a slice that closes now (R146, R147). -/
def Dev.sliceMove (d : Dev) (src : Source) (n : Nat) (s : Slice) : SliceMove :=
  let ext := d.extrinsic s.tick n
  match (d.engine src).anchor s.tick, d.poseAt src (midTime s.points) with
  | some (some a), some m =>
    if m.pose.epoch ≠ a.epoch then .discard
    else
      let r := Rounding.open .tweed
      .apply (composeRigid r (invertRigid r a.pose) (composeRigid r m.pose.pose ext)) (d.pastLimit m)
  | _, _ => .apply ext true

/-- A compensated point of a slice, where its coordinates are finite (R146, R147): `move` is the slice's transform, composed
in FP64 and applied in FP32. -/
def compensate (move : List F32) (valid : Nanos) (s : Slice) (p : Point) : Option PointRec :=
  let v := moveBy (.open .tweed) move p.p
  if f32Finite v.x && f32Finite v.y && f32Finite v.z then
    some { p := v, intensity := p.intensity, ret := p.ret, stream := p.stream, dtNs := (p.t : Int) - valid,
           arrival := p.arrival, cell := none,
           slice := s.number, tick := s.tick, pending := true }
  else none

/-- Write a compensated point to the store of its tick, which the first point of a tick takes over from the tick two
before (R155, R166); it is inserted at once where it may be (R148). -/
def storePoint (src : Source) (tick : Nat) (d : Dev) (p : PointRec) : Dev :=
  let e := d.engine src
  let old := e.store tick
  let kept := if old.any (fun x => decide (x.tick ≠ tick)) then [] else old
  let d := d.setEngine src { e with stores := bput [] (tick % 2) (kept ++ [p]) e.stores }
  if d.mayInsert src tick then insertPoint src tick kept.length d else d

/-- A slice closes (R145 to R148). -/
def closeSlice (src : Source) (n : Nat) (d : Dev) : Dev :=
  match d.slice src n with
  | none => d
  | some s =>
    let d := modEngine src (fun e => { e with slices := bput none n none e.slices }) d
    match d.validAt s.tick, d.sliceMove src n s with
    | some _, .discard =>
      bumpTwd src 0x20 (·.poseDrop) (fun c e => { e with poseDrop := c }) s.points.length d
    | some valid, .apply move far =>
      let d := if far then noteFar src s.tick d else d
      let good := s.points.filterMap (compensate (viewOf (.open .tweed) move) valid s)
      let d := bumpTwd src 0x1C (·.nonfinite) (fun c e => { e with nonfinite := c }) (s.points.length - good.length) d
      good.foldl (storePoint src s.tick) d
    | none, _ => d

/-- SLICE_TIMER_EXPIRY (R145): SLICE_US has passed since the arrival stamp of the slice's first point. -/
def sliceTimerExpiry (src : Source) (stream : Fin 48) (d : Dev) : Dev :=
  match d.slice src stream.val with
  | some s => match s.points with
    | p :: _ => if p.arrival + d.sliceNs ≤ d.now then closeSlice src stream.val d else d
    | [] => d
  | none => d

/-- The key of a stream's slice numbers in a tick. -/
def sliceKey (tick n : Nat) : Nat := tick * 48 + n

/-- Open a slice with its first point (R145). -/
def openSlice (src : Source) (tick n : Nat) (p : Point) (d : Dev) : Dev :=
  modEngine src (fun e =>
    let k := sliceKey tick n
    let num := bget 0 k e.sliceNo
    { e with slices := bput none n (some { tick := tick, number := num, points := [p] }) e.slices,
             sliceNo := bput 0 k (num + 1) e.sliceNo }) d

/-- Take the provisional anchor of a tick at the arrival of its first POINT sample (R68). -/
def takeProvisional (src : Source) (tick : Nat) (valid : Nanos) (d : Dev) : Dev :=
  match d.engineRuns src, (d.engine src).anchor tick with
  | false, _ => d
  | true, some _ => d
  | true, none =>
    let p := (d.poseAt src valid).map (·.pose)
    modEngine src (fun e => { e with provisional := (tick, p) :: e.provisional }) d

/-- A point of stream n that Muslin hands to an engine (R145, R166, R167): it joins or closes the open slice; a released
table is not opened again. -/
def offerPoint (src : Source) (tick n : Nat) (d : Dev) (p : Point) : Dev :=
  if !d.engineRuns src || decide (tick < (d.engine src).tick) then d
  else
    match d.slice src n with
    | none => openSlice src tick n p d
    | some s =>
      let first := match s.points with | q :: _ => q.t | [] => p.t
      if s.tick ≠ tick || decide (first + d.sliceNs ≤ p.t) then openSlice src tick n p (closeSlice src n d)
      else modEngine src (fun e =>
        { e with slices := bput none n (some { s with points := s.points ++ [p] }) e.slices }) d

/-! ### The final anchor (R163) -/

/-- A final anchor with Δ_k and whether an exception applied (R163). -/
structure FinalAnchor where
  pose : PoseEntry
  delta : List F64
  far : Bool
  deriving DecidableEq, Repr

/-- A_k taken now (R68, R163). A pose that is taken under one of the exceptions is marked as not valid; a tick to which no point
came has no Â_k to differ from, and falls under none. -/
def Dev.finalAnchor (d : Dev) (src : Source) (tick : Nat) (valid : Nanos) : FinalAnchor :=
  let prov := match (d.engine src).anchor tick with | some a => a | none => none
  let came := ((d.engine src).anchor tick).isSome
  match d.poseAt src valid, prov with
  | none, some p => { pose := { p with valid := false }, delta := identityPose, far := true }
  | none, none => { pose := { entryOf valid (d.odoEpoch src) identityPose with valid := false }, delta := identityPose, far := true }
  | some a, none => { pose := { a.pose with valid := !came }, delta := identityPose, far := came || d.pastLimit a }
  | some a, some p =>
    if a.pose.epoch = p.epoch then
      let r := Rounding.open .tweed
      { pose := a.pose, delta := composeRigid r (invertRigid r a.pose.pose) p.pose, far := d.pastLimit a }
    else { pose := { a.pose with valid := false }, delta := identityPose, far := true }

/-- Take the final anchor of a tick in one engine (R163). -/
def takeFinal (src : Source) (tick : Nat) (valid : Nanos) (d : Dev) : Dev :=
  let a := d.finalAnchor src tick valid
  let d := modEngine src (fun e => { e with final := (tick, a.pose, a.delta) :: e.final }) d
  if a.far then noteFar src tick d else d

/-! ### Queries (R156 to R159) -/

/-- The offsets of a kernel, in number order (R156). -/
def kernelSize : Nat → Nat
  | 0 => 27 | 1 => 9 | 2 => 8 | _ => 1

/-- The input key of an output key for offset number o of a kernel at an input level, none where an index leaves its
field (R156). -/
def neighbour (kernel level key o : Nat) : Option Nat :=
  let x : Int := keyX key
  let y : Int := keyY key
  let z : Int := keyZ key
  let t : Int × Int × Int := match kernel with
    | 0 => (x + (o % 3 : Nat) - 1, y + (o / 3 % 3 : Nat) - 1, z + (o / 9 : Nat) - 1)
    | 1 => (x + (o % 3 : Nat) - 1, y + (o / 3 : Nat) - 1, z)
    | 2 => (2 * x + (o % 2 : Nat), 2 * y + (o / 2 % 2 : Nat), 2 * z + (o / 4 : Nat))
    | _ => (x / 2, y / 2, z / 2)
  if 0 ≤ t.1 && t.1 < 2 ^ (20 - level) && 0 ≤ t.2.1 && t.2.1 < 2 ^ (20 - level) && 0 ≤ t.2.2 && t.2.2 < 2 ^ (16 - level) then
    some (t.1.toNat + t.2.1.toNat * 2 ^ 20 + t.2.2.toNat * 2 ^ 40 + level * 2 ^ 56)
  else none

/-- The cells of a level in index order. -/
def TweedState.cellsOf (e : TweedState) (level : Nat) : List (Nat × CellRec) :=
  (List.range (bget 0 level e.count)).filterMap (fun i => (bget none (cellKey level i) e.cells).map (fun c => (i, c)))

/-- The pairs (input, output) of one offset (R159). -/
def TweedState.pairs (e : TweedState) (src : Source) (q : QueryRec) (o : Nat) : List (Nat × Nat) :=
  (e.cellsOf q.outLevel).filterMap (fun c =>
    match neighbour q.kernel q.inLevel c.2.key o with
    | some k => (e.find src k).map (fun i => (i, c.1))
    | none => none)

/-- START_o of the lists in order. -/
def starts : (at_ : Nat) → List (List (Nat × Nat)) → List Nat
  | _, [] => []
  | n, l :: rest => n :: starts (n + l.length) rest

/-- A rule book's bytes (R159). -/
def ruleBook (e : TweedState) (src : Source) (tick qi : Nat) (q : QueryRec) (merge : Bool) : List Byte :=
  let k := kernelSize q.kernel
  let lists := (List.range k).map (e.pairs src q)
  let all := lists.flatten
  let head := w32 (qi + k * 256 + bit merge * 2 ^ 13) ++ w32 0 ++ w64 tick ++ w32 (bget 0 q.inLevel e.count) ++
    w32 (bget 0 q.outLevel e.count) ++ w32 all.length ++ w32 0 ++ (starts 0 lists).flatMap w32
  head ++ List.replicate (0x100 - head.length) 0 ++ all.flatMap (fun p => w32 p.1 ++ w32 p.2)

/-- Answer a query at the opening of its window (R158). -/
def runQuery (src : Source) (tick qi : Nat) (q : QueryRec) (d : Dev) : Dev :=
  let merge := decide (q.probeBound < bget 0 q.inLevel (d.engine src).maxProbe)
  let d := if merge then
      modEngine src (fun e => if e.sortMerge.contains tick then e else { e with sortMerge := tick :: e.sortMerge })
        (bumpTwd src 0x14 (·.sortMergeCount) (fun c e => { e with sortMergeCount := c }) 1 d)
    else d
  setTensor (tensorOf (d.descsAt src tick) q.dest) (ruleBook (d.engine src) src tick qi q merge) d

/-! ### Farthest-point sampling (R161, R162) -/

/-- A cell's centroid in the provisional frame (R161). -/
def centroidOf (r : TweedRec) (c : CellRec) : Vec3 :=
  let l := keyLevel c.key
  let m := Rounding.open .tweed
  let n := m.ofInt c.count
  let at_ (voxel : F32) (index bias : Nat) (sum : F32) : F32 :=
    m.add (cellCentre voxel (index * 2 ^ l) bias l) (m.div sum n)
  { x := at_ r.voxel.x (keyX c.key) (2 ^ 19) c.sumDx, y := at_ r.voxel.y (keyY c.key) (2 ^ 19) c.sumDy,
    z := at_ r.voxel.z (keyZ c.key) (2 ^ 15) c.sumDz }

/-- The points of a tick inserted at level 0, with their store indices. -/
def TweedState.insertedPoints (e : TweedState) (tick : Nat) : List (Nat × PointRec) :=
  ((e.store tick).zipIdx.filter (fun x => decide (x.1.tick = tick) && x.1.cell.isSome)).map (fun x => (x.2, x.1))

/-- The candidates of an instance (R161). -/
def TweedState.candidates (e : TweedState) (tick : Nat) (r : TweedRec) (f : FpsRec) : List (Nat × Vec3) :=
  if f.points then
    ((e.insertedPoints tick).filter (fun x => f.streams.contains x.2.stream)).map (fun x => (x.1, x.2.p))
  else (e.cellsOf f.level).map (fun c => (c.1, centroidOf r c.2))

/-- Every r-th entry, starting at the first. -/
def everyNth {α : Type} (r : Nat) (l : List α) : List α := (l.zipIdx.filter (fun x => decide (x.2 % r = 0))).map (·.1)

/-- The index of the first largest value. -/
def argMax : List F32 → (i best : Nat) → (v : F32) → Nat
  | [], _, best, _ => best
  | x :: rest, i, best, v => if f32Gt x v then argMax rest (i + 1) i x else argMax rest (i + 1) best v

/-- The index of the first smallest value. -/
def argMin : List F32 → (i best : Nat) → (v : F32) → Nat
  | [], _, best, _ => best
  | x :: rest, i, best, v => if f32Gt v x then argMin rest (i + 1) i x else argMin rest (i + 1) best v

/-- The squared Euclidean distance of two points in FP32 (R161). -/
def distSq (xy : Bool) (a b : Vec3) : F32 :=
  let m := Rounding.open .tweed
  let sq (u v : F32) : F32 := let d := m.sub u v; m.mul d d
  let p := m.add (sq a.x b.x) (sq a.y b.y)
  if xy then p else m.add p (sq a.z b.z)

/-- The sampling loop of R161: at most `fuel` samples from candidate s on, with the distances so far. -/
def fpsLoop (xy : Bool) (cs : List Vec3) : (fuel : Nat) → (dist : List F32) → (s : Nat) → List Nat
  | 0, _, _ => []
  | fuel + 1, dist, s =>
    match cs[s]? with
    | none => []
    | some c =>
      let dist := (dist.zip cs).map (fun p => f32Min p.1 (distSq xy p.2 c))
      let next := match dist with | v :: rest => argMax rest 1 0 v | [] => 0
      match dist[next]? with
      | some v => if f32Gt v 0 then s :: fpsLoop xy cs fuel dist next else [s]
      | none => [s]

/-- The samples of an instance: indices into its candidates (R161). -/
def fpsRun (f : FpsRec) (cs : List Vec3) : List Nat :=
  let seed : Vec3 := { x := f.seedX, y := f.seedY, z := 0 }
  let near := cs.map (fun c => distSq true c seed)
  match near with
  | [] => []
  | v :: rest => fpsLoop f.distXy cs f.samples (cs.map (fun _ => 0x7F800000)) (argMin rest 1 0 v)

/-- One output entry (R162). -/
def fpsEntry (cs : List (Nat × Vec3)) (s : Option Nat) (n : Nat) : List Byte :=
  match s.bind (fun i => cs[i]?) with
  | some (idx, p) => w32 p.x.toNat ++ w32 p.y.toNat ++ w32 p.z.toNat ++ w32 idx
  | none => w32 (Config.fpsInvalid (3 * n)).toNat ++ w32 (Config.fpsInvalid (3 * n + 1)).toNat ++
      w32 (Config.fpsInvalid (3 * n + 2)).toNat ++ w32 0xFFFFFFFF

/-- Run one instance (R161, R162). -/
def runFps (src : Source) (tick : Nat) (r : TweedRec) (d : Dev) (f : FpsRec) : Dev :=
  let cs := (d.engine src).candidates tick r f
  let tooMany := decide (f.candMax < cs.length)
  let cs := if tooMany && 0 < f.candMax then everyNth ((cs.length + f.candMax - 1) / f.candMax) cs else cs
  let d := if tooMany then bumpTwd src 0x24 (·.fpsTrunc) (fun c e => { e with fpsTrunc := c }) 1 d else d
  let out := fpsRun f (cs.map (·.2))
  let bytes := (List.range f.samples).flatMap (fun n => fpsEntry cs out[n]? n)
  setTensor (tensorOf (d.descsAt src tick) f.dest) bytes d

/-! ### Scatter (R164, R165) -/

/-- Where a cell lands (R164): its centroid in the final frame, its grid cell and its height bin, none outside. -/
structure Landing where
  cell : CellRec
  centroid : Vec3
  at_ : Option (Nat × Nat)
  bin : Option Nat

/-- A number in 0 to n − 1. -/
def inRange (i : Int) (n : Nat) : Option Nat := if 0 ≤ i && i < n then some i.toNat else none

/-- The grid index of a rotated coordinate along an axis (R164): floor((r + f) / q) + size / 2, none outside the grid. -/
def gridIndex (m : Rounding) (r f q : F32) (size : Nat) : Option Nat :=
  (floor32 (m.div (m.add r f) q)).bind (fun i => inRange (i + (size / 2 : Nat)) size)

/-- The height bin of a height (R164): floor((z − base) / bin height), none outside. -/
def heightBin (m : Rounding) (g : GridRec) (z : F32) : Option Nat :=
  (floor32 (m.div (m.sub z g.hbinBase) g.hbinH)).bind (fun i => inRange i g.hbinCount)

/-- The grid cell of a point of the final vehicle frame (R164 steps 1 and 2): `turn` is the rotation of A_k as a stored
transform, `fx` and `fy` the fractional offset. -/
def gridCell (m : Rounding) (g : GridRec) (turn : List F32) (fx fy : F32) (p : Vec3) : Option (Nat × Nat) :=
  let r := turnBy m turn p
  match gridIndex m r.x fx g.pitch g.w, gridIndex m r.y fy g.pitch g.h with
  | some i, some j => some (i, j)
  | _, _ => none

/-- The landing of a cell (R164). -/
def landing (r : TweedRec) (g : GridRec) (pose : PoseEntry) (delta : List F64) (c : CellRec) : Landing :=
  let m := Rounding.open .tweed
  let pf := moveBy m (viewOf m delta) (centroidOf r c)
  let f (n : Nat) : F32 := (gridAxis (pose.pos.getD n 0) g.pitch).2
  { cell := c, centroid := pf, at_ := gridCell m g (viewOf m pose.pose) (f 0) (f 1) pf, bin := heightBin m g pf.z }

/-- A whole number in FP32. -/
def f32OfNat (n : Nat) : F32 := f32Of false { m := n, e := 0 }

/-- The largest of some values, 0 for none. -/
def maxOf (l : List F32) : F32 := match l with | [] => 0 | v :: rest => rest.foldl f32Max v

/-- The smallest of some values, 0 for none. -/
def minOf (l : List F32) : F32 := match l with | [] => 0 | v :: rest => rest.foldl f32Min v

/-- A mean weighted by counts (R164). -/
def weightedMean (l : List (F32 × Nat)) : F32 :=
  let m := Rounding.open .tweed
  m.div (m.sumAny .tweed (l.map (fun x => m.mul x.1 (m.ofInt x.2)))) (m.ofInt (l.foldl (fun n x => n + x.2) 0 : Nat))

/-- The height in the final vehicle frame of an offset along z from a cell's centre (R163, R164): of the point above or below
the cell's centroid. -/
def cellHeight (r : TweedRec) (delta : List F64) (c : CellRec) (offset : F32) : F32 :=
  let m := Rounding.open .tweed
  let l := keyLevel c.key
  let z := m.add (cellCentre r.voxel.z (keyZ c.key * 2 ^ l) (2 ^ 15) l) offset
  (moveBy m (viewOf m delta) { centroidOf r c with z := z }).z

/-- A channel's value over the cells that land in one grid cell (R164, R172). -/
def channelValue (r : TweedRec) (delta : List F64) (ch : ScatterRec) (ls : List Landing) : F32 :=
  let m := Rounding.open .tweed
  let cs := ls.map (·.cell)
  match ch.source with
  | 0 => m.ofInt (cs.foldl (fun n c => n + c.count) 0 : Nat)
  | 1 => maxOf (cs.map (fun c => cellHeight r delta c (ofHalf c.maxDz)))
  | 2 => weightedMean (ls.map (fun l => (l.centroid.z, l.cell.count)))
  | 3 => minOf (cs.map (fun c => cellHeight r delta c (ofHalf c.minDz)))
  | 4 => maxOf (cs.map (fun c => ofHalf c.maxI))
  | 5 => weightedMean (cs.map (fun c => (m.div c.sumI (m.ofInt c.count), c.count)))
  | 6 => m.ofInt ((ls.filter (fun l => l.bin = some ch.bin)).foldl (fun n l => n + l.cell.count) 0 : Nat)
  | _ => m.ofInt ((cs.flatMap (·.sweepMap)).eraseDups.length : Nat)

/-- A channel's element of a grid cell (R164): 0 where no source cell lands. -/
def channelElem (r : TweedRec) (delta : List F64) (ls : List Landing) (ch : ScatterRec) : Nat :=
  if ls.isEmpty then 0
  else
    let v := Rounding.mul (.open .tweed) (channelValue r delta ch ls) (ofHalf ch.scale)
    (convertNum (if r.scatterBf16 then .bf16 else .fp8e4m3) true (v.getLsbD 31) (f32Num v)).bits

/-- The cells that land in grid cell (i, j). -/
def landedAt (ls : List Landing) (i j : Nat) : List Landing := ls.filter (fun l => l.at_ = some (i, j))

/-- Write the grid (R164, R165): dimension 0 of its tensor runs over the channels, 1 over i, 2 over j. -/
def writeGrid (r : TweedRec) (g : GridRec) (delta : List F64) (ls : List Landing) (t : Option Tensor) (d : Dev) : Dev :=
  match t with
  | none => d
  | some t =>
    ((List.range g.h).flatMap (fun j => (List.range g.w).map (fun i => (i, j)))).foldl (fun d p =>
      let here := landedAt ls p.1 p.2
      (r.scatter.zipIdx).foldl (fun d ch =>
        setElem t.format (t.row [ch.2, p.1, p.2]) ch.2 (channelElem r delta here ch.1) d) d) d

/-- A word of the grid index map (R165). -/
def mapWord (g : GridRec) (l : Landing) : List Byte :=
  let cell := match l.at_ with | some (i, j) => j * g.w + i | none => 0
  let bin := match l.bin with | some b => b | none => 0
  w32 (cell + bin * 2 ^ 22 + bit l.bin.isNone * 2 ^ 30 + bit l.at_.isNone * 2 ^ 31)

/-- A point record's bytes (R155). -/
def pointBytes (p : PointRec) (v : Vec3) : List Byte :=
  w32 v.x.toNat ++ w32 v.y.toNat ++ w32 v.z.toNat ++
  w32 ((toHalf p.intensity).toNat + p.ret % 256 * 2 ^ 16 + p.stream * 2 ^ 24) ++ w32 (twos 32 p.dtNs) ++
  w32 (p.cell.getD 0xFFFFFFFF) ++ w32 (p.slice % 65536) ++ w32 0

/-- The point list (R165). -/
def pointList (e : TweedState) (tick : Nat) (delta : List F64) : List Byte :=
  let view := viewOf (.open .tweed) delta
  (e.insertedPoints tick).flatMap (fun x => pointBytes x.2 (moveBy (.open .tweed) view x.2.p))

/-- A cell record's bytes (R153). -/
def cellBytes (c : CellRec) : List Byte :=
  w64 c.key ++ w32 c.count ++ w32 (c.sweepMap.foldl (fun m b => m + 2 ^ b) 0) ++ w64 c.newest ++
  w32 c.sumDx.toNat ++ w32 c.sumDy.toNat ++ w32 c.sumDz.toNat ++ w32 c.sumI.toNat ++
  w32 (c.maxI.toNat + c.maxDz.toNat * 65536) ++ w32 c.minDz.toNat ++ w32 c.firstPoint ++ w32 0 ++ w32 0 ++ w32 0

/-- The final anchor and Δ_k of a tick. -/
def TweedState.finalOf (e : TweedState) (tick : Nat) : Option (PoseEntry × List F64) := assoc tick e.final

/-- The scatter outputs carry Δ_k in their headers (R163), whose layout the spec does not give. -/
def noteHeaders (r : TweedRec) (tick : Nat) (delta : List F64) (e : TweedState) : TweedState :=
  let dests := (r.gridDest :: r.gridMapDest :: r.pointsDest :: r.cellDest).filter (· ≠ 0xFFFF)
  { e with headers := dests.foldl (fun b n => bput none n (some (tick, delta)) b) e.headers }

/-- Scatter (R163 to R165). -/
def runScatter (src : Source) (tick : Nat) (r : TweedRec) (d : Dev) : Dev :=
  match (d.engine src).finalOf tick, d.tickRec tick with
  | some (pose, delta), some tr =>
    match assoc tr.mode (d.imageAt tick).grids with
    | none => d
    | some g =>
      let e := d.engine src
      let ts := d.descsAt src tick
      let ls := (e.cellsOf r.scatterLevel).map (fun c => landing r g pose delta c.2)
      let d := modEngine src (noteHeaders r tick delta) d
      let d := writeGrid r g delta ls (tensorOf ts r.gridDest) d
      let d := setTensor (tensorOf ts r.gridMapDest) (ls.flatMap (mapWord g)) d
      let d := setTensor (tensorOf ts r.pointsDest) (pointList e tick delta) d
      (r.cellDest.zipIdx).foldl (fun d x =>
        setTensor (tensorOf ts x.1) ((e.cellsOf x.2).flatMap (fun c => cellBytes c.2)) d) d
  | _, _ => d

/-- The work of a Tweed step, from the opening of its window (R156 to R165, R168). -/
def runStep (src : Source) (tick : Nat) (s : TweedStep) (d : Dev) : Dev :=
  match d.tweedRec src tick with
  | none => d
  | some r =>
    if !d.engineRuns src || !r.enable then d
    else match s with
      | .insertion => d
      | .query q => match r.queries[q]? with | some x => runQuery src tick q x d | none => d
      | .fps is => (is.filterMap (fun i => r.fps[i]?)).foldl (runFps src tick r) d
      | .scatter => runScatter src tick r d

/-! ### Overruns and release (R166, R168) -/

/-- TWEED_STEP_TIMER_EXPIRY (R168): a step that still runs at its planned window plus 5 % stops and is marked missing;
the main engine's third tick in a row restarts its partition, an overrun of the fallback engine is class V. -/
def tweedStepTimerExpiry (src : Source) (tick w : Nat) (d : Dev) : Dev :=
  match d.windowRec src tick w with
  | none => d
  | some r =>
    if r.kind ≠ .tweed || (d.win src tick w).phase ≠ .running || !d.reached (d.expiry tick r) then d
    else
      let e := d.engine src
      let again := match e.overrunTick with | some t => decide (t = tick) | none => false
      let next := match e.overrunTick with | some t => decide (t + 1 = tick) | none => false
      let run := if again then e.overrunRun else if next then e.overrunRun + 1 else 1
      let third := decide (3 ≤ run) && !again
      let d := modEngine src (fun e => { e with overrunRun := if third then 0 else run, overrunTick := some tick }) d
      let d := bumpTwd src 0x28 (·.overrun) (fun c e => { e with overrun := c }) 1 d
      let d := faultMiss .overrun src tick w d
      match src with
      | .burlap => raiseV 0x0005 6 r.target w false 0 d
      | .main =>
        if third then match d.parts.findIdx? (fun p => p.die = 4) with
          | some i => restartPartition 4 i causeTweed true d
          | none => d
        else d

/-- The Tweed windows of a tick. -/
def Dev.tweedWindows (d : Dev) (src : Source) (tick : Nat) : List WindowRec :=
  ((d.windowsAt src tick).map (·.2)).filter (fun r => r.kind = .tweed)

/-- The end of the last planned Tweed window of a tick has come (R166). -/
def Dev.tweedDone (d : Dev) (src : Source) (tick : Nat) : Bool :=
  !(d.tweedWindows src tick).isEmpty && (d.tweedWindows src tick).all (fun r => d.reached (d.plannedEnd tick r))

/-- The table is cleared and its registers written (R166, R174). -/
def releaseTable (e : TweedState) : TweedState :=
  { e with maxProbeLast := [0, 1, 2, 3].map (fun l => bget 0 l e.maxProbe),
           cellsLast := e.count.foldl (fun n x => n + x.2) 0, pointsLast := e.inserted,
           fullLast := e.full.contains e.tick, sortMergeLast := e.sortMerge.contains e.tick,
           slots := [], count := [], maxProbe := [], cells := [], inserted := 0, tick := e.tick + 1 }

/-- TWEED_TABLE_RELEASE (R166). -/
def tweedTableRelease (src : Source) (d : Dev) : Dev :=
  if d.tweedDone src (d.engine src).tick then modEngine src releaseTable d else d

/-- An engine at the boundary that begins tick k (R166): where the ticks before it had no Tweed window, nothing of them
is left to release. -/
def stepEngine (k : Nat) (d : Dev) (src : Source) : Dev :=
  let e := d.engine src
  if e.tick < k && (d.tweedWindows src (k - 1)).isEmpty then
    modEngine src (fun e => { e with slots := [], count := [], maxProbe := [], cells := [], inserted := 0, tick := k }) d
  else d

end Sys2Proof.Machine
end

