-- ==== Sys2Proof/Machine/Chambray.lean ====
section
/-!
DEFINITION. Chambray: band pose lists, transforms, projection and sampling, the four operations, overruns, and the
die-link transactions (spec/08_chambray_view_transform.md; spec/18_recovery_ladder.md R426).
-/

namespace Sys2Proof.Machine

open Sys2Proof

/-- BAR0 offset of a unit's block (R193). -/
def barChbOf (x : Nat) : Nat := barChb + 0x40 * x

/-- Add to one of a unit's counts of a tick, in the order of R193. -/
def countChb (x tick i n : Nat) (d : Dev) : Dev :=
  modChb x (fun u => { u with running := u.running.map (fun r =>
    if r.tick = tick then { r with counts := r.counts.set i (r.counts.getD i 0 + n) } else r) }) d

/-! ### Operations and windows (R188, R191) -/

/-- A share of n items for rank r of m: consecutive, in equal parts; its first item and the one after its last. -/
def share (n r m : Nat) : Nat × Nat := (n * r / m, n * (r + 1) / m)

/-- The items of a share. -/
def shareOf (n r m : Nat) : List Nat := (List.range n).filter (fun i => decide ((share n r m).1 ≤ i) && decide (i < (share n r m).2))

/-- Of SAMPLE's rows or LIFT's cameras, those that the Tick Plan gives the unit of a rank (R175, R188). -/
def partOf (o : ChbRec) (n rank : Nat) : List Nat :=
  match o.shares[rank]? with
  | some l => l.filter (fun i => decide (i < n))
  | none => shareOf n rank o.units.length

/-- Chambray's FP32 arithmetic: its results' rounding is not stated. -/
def chbR : Rounding := .open .chambray

/-! ### Transforms (R176 to R178) -/

/-- The key of a band pose list: camera, frame and tick parity. -/
def bandKey (cam : Nat) (second : Bool) (tick : Nat) : Nat := (cam * 2 + bit second) * 2 + tick % 2

/-- A band's time (R100) in ns: the mid-exposure of its centre row. -/
def bandTime (f : CameraFields) (r : CameraPort) (x : CamTick) (b : Nat) : Int :=
  let rows := bandRows f b
  nsOf (midExposure r x.tTrig x.expNs (rows.1 + rows.2 / 2))

/-- A frame of a camera for a tick: as its bands found it, or with none of them on time as its trigger was or is to be
sent. -/
def Dev.frameFor (d : Dev) (tick : Nat) (v : Nanos) (cam : Nat) (r : CameraPort) (second : Bool) : CamTick :=
  match bget none ((tick * 16 + cam) * 2 + bit second) d.muslin.cams with
  | some x => x
  | none =>
    let s := d.camera cam
    let v0 := if second then v - d.time.pNs else v
    let e := (frameExposure d r s v0 second).1
    match s.sent.find? (fun x => decide (x.1 = tick - bit second) && decide (x.2.1 = second)) with
    | some x => { tTrig := x.2.2.1, expNs := x.2.2.2, bands := [] }
    | none => { tTrig := trigAt r d.time.pNs v0 second e, expNs := e, bands := [] }

/-- The band pose list of a frame (R176), and whether a pose is past the extrapolation limit (R67). C_k is valid where it is
taken from valid entries of the current epoch. -/
def Dev.bandList (d : Dev) (tick : Nat) (v : Nanos) (f : CameraFields) (r : CameraPort) (x : CamTick) : BandPoses × Bool :=
  let ref := d.poseAt .main v
  let refPose := match ref with
    | some p => { p.pose with valid := decide (p.pose.epoch = d.odoEpoch .main) }
    | none => { entryOf v (d.odoEpoch .main) identityPose with valid := false }
  let times := (List.range (bandCount f)).map (bandTime f r x)
  let taken := times.map (fun t => d.poseAt .main t)
  let keep (p : Option Taken) : Option PoseEntry :=
    match p with | some q => if q.pose.epoch = refPose.epoch then some q.pose else none | none => none
  let far := (ref :: taken).any (fun p => match p with | some q => d.pastLimit q | none => false)
  ({ tick := tick, ref := refPose, bands := taken.map (fun p => (keep p).getD refPose), times := times,
     subst := taken.map (fun p => (keep p).isNone), present := x.bands, composed := false, bref := [], bs := [] }, far)

/-- The operations of a tick's mode that use a camera. -/
def Dev.opsOf (d : Dev) (tick cam : Nat) : List ChbRec :=
  match d.gridAt tick with
  | some g => g.ops.filter (fun o => o.cams.contains cam)
  | none => []

/-- The frames of a camera that a tick uses (R176, R180): the one at T_k where no operation selects one. -/
def Dev.framesUsed (d : Dev) (tick cam : Nat) : List Bool :=
  let l := [false, true].filter (fun s => (d.opsOf tick cam).any (fun o => decide (decide (o.frame = 1) = s)))
  if l.isEmpty then [false] else l

/-- The band pose lists of a camera stream at its gate close, of each frame that the tick uses (R176): a camera and tick with
a replaced pose counts once on each unit that uses the camera. -/
def buildBands (tick : Nat) (v : Nanos) (cam : Nat) (f : CameraFields) (d : Dev) : Dev :=
  match d.camRec cam with
  | none => d
  | some r =>
    let ls := (d.framesUsed tick cam).map (fun s => (s, d.bandList tick v f r (d.frameFor tick v cam r s)))
    let d := ls.foldl (fun d l =>
      { d with chambray := { d.chambray with bands := bput none (bandKey cam l.1 tick) (some l.2.1) d.chambray.bands } }) d
    let d := if ls.any (fun l => l.2.2) then noteFar .main tick d else d
    if ls.any (fun l => l.2.1.subst.any id) then
      (((d.opsOf tick cam).flatMap (·.units)).eraseDups).foldl (fun d u =>
        bump (barChbOf u + 0x24) (d.chb u).bandSubst 1 (fun c => modChb u (fun s => { s with bandSubst := c })) d) d
    else d

/-- The band pose list of a camera's frame for a tick. -/
def Dev.bandsOf (d : Dev) (tick cam : Nat) (second : Bool) : Option BandPoses :=
  match bget none (bandKey cam second tick) d.chambray.bands with
  | some b => if b.tick = tick then some b else none
  | none => none

/-- The final anchor of the main engine for a tick, where it was taken from a valid entry (R163). -/
def Dev.anchorOf (d : Dev) (tick : Nat) : Option PoseEntry :=
  match d.tweed.finalOf tick with
  | some (p, _) => if p.valid then some p else none
  | none => none

/-- The transforms of a camera's frame, none of them by the identity (R177): A_k and C_k are valid and of one epoch. -/
def sameEpoch (a : Option PoseEntry) (b : BandPoses) : Option PoseEntry :=
  match a with
  | some p => if b.ref.valid && decide (p.epoch = b.ref.epoch) then some p else none
  | none => none

/-- Compose a camera's transforms (R177). -/
def composeBands (ec : List F64) (a : Option PoseEntry) (b : BandPoses) : BandPoses :=
  let ei := invertRigid chbR ec
  let via (m : PoseEntry) : List F32 :=
    match sameEpoch a b with
    | some p => viewOf chbR (composeRigid chbR ei (composeRigid chbR (invertRigid chbR m.pose) p.pose))
    | none => viewOf chbR ei
  { b with composed := true, bref := via b.ref, bs := b.bands.map via }

/-- Compose the transforms of camera `cam` for an operation, unless an earlier window of the tick has (R177). -/
def composeCamera (tick : Nat) (o : ChbRec) (d : Dev) (cam : Nat) : Dev :=
  let second := decide (o.frame = 1)
  match d.bandsOf tick cam second, d.camStream cam with
  | some b, some (n, _, _) =>
    if b.composed then d
    else
      let a := d.anchorOf tick
      let b' := composeBands (d.extrinsic tick n) a b
      let d := { d with chambray := { d.chambray with bands := bput none (bandKey cam second tick) (some b') d.chambray.bands } }
      if (sameEpoch a b).isNone then
        o.units.foldl (fun d u =>
          bump (barChbOf u + 0x20) (d.chb u).epochMismatch 1 (fun c => modChb u (fun s => { s with epochMismatch := c })) d)
          (noteFar .main tick d)
      else d
  | _, _ => d

/-- Entry b of a band table (R178). -/
def bandEntry (f : CameraFields) (v : Nanos) (p : BandPoses) (b : Nat) : List Byte :=
  match p.bs[b]? with
  | none => List.replicate 64 0
  | some t =>
    (List.range 12).flatMap (fun i => w32 (t.getD i 0).toNat) ++
    w32 ((bandRows f b).1 % 65536 + 2 ^ 16 * bit (p.present.contains b) + 2 ^ 17 * bit (p.subst.getD b false)) ++
    w32 (twos 32 (p.times.getD b 0 - v)) ++ w64 0

/-- Write the band tables of an operation's cameras, one after the other (R178, R191). -/
def writeBandTables (tick : Nat) (v : Nanos) (o : ChbRec) (t : Option Tensor) (d : Dev) : Dev :=
  match t with
  | none => d
  | some t =>
    (o.cams.zipIdx).foldl (fun d c =>
      match d.bandsOf tick c.1 (decide (o.frame = 1)), d.camStream c.1 with
      | some p, some (_, _, f) => setBytes (t.start + 4096 * c.2) ((List.range 64).flatMap (bandEntry f v p)) d
      | _, _ => d) d

/-! ### Projection and sampling (R136, R137, R179, R180) -/

/-- A camera as an operation sees it. -/
structure View where
  cam : Nat
  rank : Nat
  fields : CameraFields
  model : WarpModel
  poses : BandPoses
  deriving DecidableEq, Repr

/-- The cameras of an operation that have a band pose list and a model. -/
def Dev.views (d : Dev) (tick : Nat) (o : ChbRec) : List View :=
  (o.cams.zipIdx).filterMap (fun c =>
    match d.bandsOf tick c.1 (decide (o.frame = 1)), d.camStream c.1, assoc c.1 (d.imageAt tick).warp with
    | some p, some (_, _, f), some m => some { cam := c.1, rank := c.2, fields := f, model := m, poses := p }
    | _, _, _ => none)

/-- A node of a grid of `cols` columns. -/
def nodeAt (g : List (F32 × F32)) (cols c r : Nat) : F32 × F32 := g.getD (r * cols + c) (f32NaN, f32NaN)

/-- The place of an angle in a grid of n nodes spaced evenly from lo to hi (R136). -/
def gridPos (v lo hi : F32) (n : Nat) : F32 :=
  chbR.mul (chbR.div (chbR.sub v lo) (chbR.sub hi lo)) (chbR.ofInt (n - 1 : Nat))

/-- The lower node of a place, and the fraction past it. -/
def cellOf (pos : F32) (nodes : Nat) : Nat × F32 :=
  let v := f32Value pos
  let i := min v.floor.toNat (nodes - 2)
  (i, f32Of false (v.add { m := -(i : Int), e := 0 }))

/-- A bilinear interpolation of four nodes (R137): of the first row, then the second, at the fractions along a row and
across rows. -/
def bilinear (a b c e fx fy : F32) : F32 :=
  let along (p q f : F32) : F32 := chbR.add p (chbR.mul f (chbR.sub q p))
  along (along a b fx) (along c e fx) fy

/-- Interpolate between four nodes. -/
def interpolate (g : List (F32 × F32)) (cols : Nat) (x y : Nat × F32) : F32 × F32 :=
  let a := nodeAt g cols x.1 y.1
  let b := nodeAt g cols (x.1 + 1) y.1
  let c := nodeAt g cols x.1 (y.1 + 1)
  let e := nodeAt g cols (x.1 + 1) (y.1 + 1)
  (bilinear a.1 b.1 c.1 e.1 x.2 y.2, bilinear a.2 b.2 c.2 e.2 x.2 y.2)

/-- The angles of a point of F under a transform (R136), with its depth. -/
def anglesOf (t : List F32) (p : Vec3) : F32 × F32 × F32 :=
  let q := moveBy chbR t p
  (chbR.atan2 q.x q.z, chbR.atan2 q.y q.z, q.z)

/-- One projection pass: u and v, none outside the camera (R137). -/
def onePass (m : WarpModel) (t : List F32) (p : Vec3) : Option (F32 × F32) :=
  let a := anglesOf t p
  if f32Gt m.zMin a.2.2 || !(f32Le m.alphaMin a.1 && f32Le a.1 m.alphaMax && f32Le m.betaMin a.2.1 && f32Le a.2.1 m.betaMax) then
    none
  else
    let x := cellOf (gridPos a.1 m.alphaMin m.alphaMax m.fwdCols) m.fwdCols
    let y := cellOf (gridPos a.2.1 m.betaMin m.betaMax m.fwdRows) m.fwdRows
    let nan (i j : Nat) : Bool := f32IsNaN (nodeAt m.fwd m.fwdCols (x.1 + i) (y.1 + j)).1
    if nan 0 0 || nan 1 0 || nan 0 1 || nan 1 1 then none else some (interpolate m.fwd m.fwdCols x y)

/-- The band of a base-level v, clamped (R179). -/
def bandAt (f : CameraFields) (v : F32) : Nat :=
  if f.bandRows = 0 then 0
  else
    let b := (f32Value v).floorDiv { m := f.bandRows, e := 0 }
    min b.toNat (bandCount f - 1)

/-- A projection in two passes (R179): its place, the passes made, and whether the second ended in another band. -/
structure Projected where
  uv : Option (F32 × F32)
  passes : Nat
  flip : Bool
  deriving DecidableEq, Repr

/-- Project a point of F into a camera (R179). -/
def View.project (s : View) (p : Vec3) : Projected :=
  match onePass s.model s.poses.bref p with
  | none => { uv := none, passes := 1, flip := false }
  | some q =>
    let b := bandAt s.fields q.2
    match onePass s.model (s.poses.bs.getD b []) p with
    | none => { uv := none, passes := 2, flip := false }
    | some u => { uv := some u, passes := 2, flip := decide (bandAt s.fields u.2 ≠ b) }

/-- The taps along one axis (R180): the two indices, clamped, with their weights. -/
def tapsOf (c : F32) (level size : Nat) : List (Nat × F32) :=
  let x := chbR.sub (f32Of false ((f32Value c).scale (-(level : Int)))) 0x3F000000
  let i := (f32Value x).floor
  let w := chbR.sub x (chbR.ofInt i)
  let clampTo (k : Int) : Nat := if k < 0 then 0 else min k.toNat (size - 1)
  [(clampTo i, chbR.sub 0x3F800000 w), (clampTo (i + 1), w)]

/-- The format of IN_FORMAT and OUT_FORMAT (R191). -/
def chbFormat : Nat → Format
  | 0 => .fp8e4m3 | 1 => .bf16 | _ => .fp16

/-- A feature or probability of a pixel in IN_FORMAT, in FP32 (R180, R184); zeros where the input was marked missing
(R249). -/
def Dev.feature (d : Dev) (o : ChbRec) (t : Option Tensor) (zeroed : Bool) (c x y rank : Nat) : F32 :=
  let f := chbFormat o.inFormat
  match t with
  | some t => if zeroed then 0 else (f32Round (Format.num f (d.elem f (t.row [c, x, y, rank]) c))).v
  | none => 0

/-- Sample the features of a camera at (u, v) (R180): none where a tap with weight lies in a band that is not present. -/
def Dev.sampleAt (d : Dev) (o : ChbRec) (t : Option Tensor) (zeroed : Bool) (s : View) (uv : F32 × F32) : Option (List F32) :=
  let xs := tapsOf uv.1 o.pyrLevel (levelSize s.fields.width o.pyrLevel)
  let ys := tapsOf uv.2 o.pyrLevel (levelSize s.fields.height o.pyrLevel)
  let bad := ys.any (fun y => decide ((f32Value y.2).m ≠ 0) && !s.poses.present.contains (bandOf s.fields (y.1 * 2 ^ o.pyrLevel)))
  if bad then none
  else some ((List.range o.channels).map (fun c =>
    chbR.sumAny .chambray (ys.flatMap (fun y => xs.map (fun x =>
      chbR.mul (chbR.mul x.2 y.2) (d.feature o t zeroed c x.1 y.1 s.rank))))))

/-- One projected and sampled point. -/
structure Shot where
  cam : Nat
  proj : Projected
  feats : Option (List F32)
  deriving DecidableEq, Repr

/-- Project and sample a point in one camera. -/
def Dev.shoot (d : Dev) (o : ChbRec) (t : Option Tensor) (zeroed : Bool) (p : Vec3) (s : View) : Shot :=
  let q := s.project p
  { cam := s.cam, proj := q, feats := match q.uv with | some uv => d.sampleAt o t zeroed s uv | none => none }

/-- Count some shots of a unit (R193). -/
def countShots (x tick : Nat) (l : List Shot) (d : Dev) : Dev :=
  countChb x tick 5 (l.filter (fun s => s.proj.flip)).length
    (countChb x tick 1 (l.filter (fun s => s.proj.uv.isSome && s.feats.isNone)).length
      (countChb x tick 0 (l.foldl (fun n s => n + s.proj.passes) 0) d))

/-- An FP32 value in a format, under the rules of the cores (R215, R216). -/
def encodeTo (f : Format) (v : F32) : Nat := (convertNum f true (v.getLsbD 31) (f32Num v)).bits

/-- Write features and the word after them in a row (R182, R183, R186). -/
def writeFeatures (o : ChbRec) (row : Nat) (fs : List F32) (word : Nat) (d : Dev) : Dev :=
  let f := chbFormat o.outFormat
  let d := (fs.zipIdx).foldl (fun d v => setElem f row v.2 (encodeTo f v.1) d) d
  setBytes (row + rowBytes f fs.length) (w32 word) d

/-- The mask of some cameras. -/
def camMask (cs : List Nat) : Nat := (List.range 16).foldl (fun m c => if cs.contains c then m + 2 ^ c else m) 0

/-- Channel c of some feature lists. -/
def column (fs : List (List F32)) (c : Nat) : List F32 := fs.map (fun f => f.getD c 0)

/-- The mean of some valid samples by channel, 0 without one. -/
def meanFeatures (n : Nat) (fs : List (List F32)) : List F32 :=
  (List.range n).map (fun c => 
    if fs.isEmpty then 0 else chbR.div (chbR.sumAny .chambray (column fs c)) (chbR.ofInt (fs.length : Nat)))

/-! ### SAMPLE (R181, R182) -/

/-- What the operations of one window need: the unit, the tick, its operation and rank, the grid, A_k and its place. -/
structure ChbCtx where
  x : Nat
  tick : Nat
  op : ChbRec
  rank : Nat
  grid : GridRec
  /-- The rotation of A_k as a stored transform, and that of its inverse. -/
  turn : List F32
  back : List F32
  fx : F32
  fy : F32
  views : List View
  src : Option Tensor
  dest : Option Tensor
  aux : Option Tensor
  acc : Option Tensor
  srcZero : Bool
  auxZero : Bool

/-- The point of F at a doubled grid place and a height (R181). -/
def ChbCtx.pointAt (c : ChbCtx) (i2 j2 : Int) (h : F32) : Vec3 :=
  let half (n : Int) : F32 := f32Of false { m := n, e := -1 }
  let rx := chbR.sub (chbR.mul c.grid.pitch (half i2)) c.fx
  let ry := chbR.sub (chbR.mul c.grid.pitch (half j2)) c.fy
  let q (n : Nat) : F32 := c.back.getD (6 + n) 0
  let rz := chbR.div (chbR.sub (chbR.sub h (chbR.mul (q 0) rx)) (chbR.mul (q 1) ry)) (q 2)
  turnBy chbR c.back { x := rx, y := ry, z := rz }

/-- The camera is skipped for the tile of a cell: its eight corners lie on one side of the range (R182). -/
def ChbCtx.culled (c : ChbCtx) (i j : Nat) (s : View) : Bool :=
  let i0 : Int := 2 * (i / 16 * 16 : Nat) - c.grid.w
  let j0 : Int := 2 * (j / 16 * 16 : Nat) - c.grid.h
  let hs := [minOf c.op.heights, maxOf c.op.heights]
  let corners := hs.flatMap (fun h => [c.pointAt i0 j0 h, c.pointAt (i0 + 32) j0 h, c.pointAt i0 (j0 + 32) h,
    c.pointAt (i0 + 32) (j0 + 32) h])
  let as := corners.map (anglesOf s.poses.bref)
  as.all (fun a => f32Gt s.model.alphaMin a.1) || as.all (fun a => f32Gt a.1 s.model.alphaMax) ||
  as.all (fun a => f32Gt s.model.betaMin a.2.1) || as.all (fun a => f32Gt a.2.1 s.model.betaMax)

/-- The shots of a cell by height. -/
def ChbCtx.cellShots (c : ChbCtx) (d : Dev) (i j : Nat) : List (List Shot) :=
  let vs := c.views.filter (fun s => !c.culled i j s)
  c.op.heights.map (fun h =>
    vs.map (d.shoot c.op c.src c.srcZero (c.pointAt (2 * (i : Int) - c.grid.w + 1) (2 * (j : Int) - c.grid.h + 1) h)))

/-- The features of a cell under REDUCE (R182). -/
def reduceShots (o : ChbRec) (ls : List (List Shot)) : List F32 :=
  let valid (l : List Shot) : List (List F32) := l.filterMap (·.feats)
  let all := ls.flatMap valid
  match o.reduce with
  | 0 => meanFeatures o.channels all
  | 1 => (List.range o.channels).map (fun c => maxOf (column all c))
  | _ => ls.flatMap (fun l => meanFeatures o.channels (valid l))

/-- One cell of a SAMPLE. -/
def sampleCell (c : ChbCtx) (t : Tensor) (d : Dev) (p : Nat × Nat) : Dev :=
  let ls := c.cellShots d p.1 p.2
  let ok (l : List Shot) : List Nat := (l.filter (fun s => s.feats.isSome)).map (·.cam)
  let word := camMask (ls.flatMap ok) + 2 ^ 16 * (ls.filter (fun l => !(ok l).isEmpty)).length
  writeFeatures c.op (t.row [0, p.1, p.2]) (reduceShots c.op ls) word (countShots c.x c.tick ls.flatten d)

/-- A SAMPLE operation over a unit's rows (R181, R182). -/
def runSample (c : ChbCtx) (d : Dev) : Dev :=
  match c.dest with
  | none => d
  | some t =>
    let rows := (partOf c.op c.op.rowCount c.rank).map (· + c.op.rowFirst)
    (rows.flatMap (fun j => (List.range c.grid.w).map (fun i => (i, j)))).foldl (sampleCell c t) d

/-! ### PAINT (R183) -/

/-- The point of entry n of a point list (R155, R165): zeros where the list was marked missing (R249). -/
def Dev.listPoint (d : Dev) (t : Tensor) (zeroed : Bool) (n : Nat) : Vec3 :=
  let w (off : Nat) : F32 := if zeroed then 0 else BitVec.ofNat 32 (d.readLe (t.start + 32 * n + off) 4)
  { x := w 0, y := w 4, z := w 8 }

/-- The number of valid views in four bits (R183); sixteen do not fit, and what they give is not stated. -/
def viewCount (n : Nat) : Nat := if n < 16 then n else Config.sixteenViews % 16

/-- One point of a PAINT. -/
def paintPoint (c : ChbCtx) (list t : Tensor) (d : Dev) (n : Nat) : Dev :=
  let l := c.views.map (d.shoot c.op c.src c.srcZero (d.listPoint list c.auxZero n))
  let fs := l.filterMap (·.feats)
  let cams := (l.filter (fun s => s.feats.isSome)).map (·.cam)
  let d := if fs.isEmpty then countChb c.x c.tick 4 1 d else d
  writeFeatures c.op (t.row [0, n]) (meanFeatures c.op.channels fs) (camMask cams + 2 ^ 16 * viewCount cams.length)
    (countShots c.x c.tick l d)

/-- A PAINT operation over a unit's points: those that Tweed's list of the tick holds (R165, R183). -/
def runPaint (c : ChbCtx) (d : Dev) : Dev :=
  match c.aux, c.dest with
  | some list, some t =>
    (shareOf (d.tweed.insertedPoints c.tick).length c.rank c.op.units.length).foldl (paintPoint c list t) d
  | _, _ => d

/-! ### LIFT (R184 to R186) -/

/-- The bins of a pixel that take part (R184), with their probabilities. -/
def binsOf (o : ChbRec) (ps : List F32) : List (Nat × F32) :=
  let pMin := ofHalf o.pMin
  let on := (ps.zipIdx.filter (fun p => f32Le pMin p.1)).map (fun p => (p.2, p.1))
  let better (a b : Nat × F32) : Bool := f32Gt b.2 a.2 || (!f32Gt a.2 b.2 && decide (b.1 < a.1))
  if o.topk = 0 then on else on.filter (fun a => decide ((on.filter (better a)).length < o.topk))

/-- The depth of bin n (R184). -/
def depthOf (o : ChbRec) (n : Nat) : F32 :=
  let u := chbR.div (f32Of false { m := 2 * n + 1, e := -1 }) (chbR.ofInt o.dBins)
  let one : F32 := 0x3F800000
  match o.depthKind with
  | 0 => chbR.add o.dMin (chbR.mul u (chbR.sub o.dMax o.dMin))
  | 1 =>
    let near := chbR.div one o.dMin
    chbR.div one (chbR.sub near (chbR.mul u (chbR.sub near (chbR.div one o.dMax))))
  | _ => chbR.mul o.dMin (chbR.power (chbR.div o.dMax o.dMin) u)

/-- The point of the camera frame at a depth along the ray of two angles (R185). -/
def rayPoint (depth : F32) (a : F32 × F32) : Vec3 :=
  { x := chbR.mul depth (chbR.tan a.1), y := chbR.mul depth (chbR.tan a.2), z := depth }

/-- The contributions of a pixel of a camera, none for those that fall outside (R185). -/
def ChbCtx.pixel (c : ChbCtx) (d : Dev) (s : View) (x y : Nat) : List (Option Contrib) :=
  let l := c.op.pyrLevel
  let b := bandOf s.fields ((2 * y + 1) * 2 ^ l / 2)
  if !s.poses.present.contains b then []
  else
    let step := s.model.invStepLog2 + 1
    let place (k : Nat) : Nat × F32 :=
      ((2 * k + 1) * 2 ^ l / 2 ^ step, f32Of false { m := ((2 * k + 1) * 2 ^ l % 2 ^ step : Nat), e := -(step : Int) })
    let cols := (s.model.width + 2 ^ s.model.invStepLog2 - 1) / 2 ^ s.model.invStepLog2 + 1
    let a := interpolate s.model.inv cols (place x) (place y)
    let fs := (List.range c.op.channels).map (fun k => d.feature c.op c.src c.srcZero k x y s.rank)
    let ps := (List.range c.op.dBins).map (fun n => d.feature c.op c.aux c.auxZero n x y s.rank)
    (binsOf c.op ps).map (fun p =>
      let pf := unmoveBy chbR (s.poses.bs.getD b []) (rayPoint (depthOf c.op p.1) a)
      match gridCell chbR c.grid c.turn c.fx c.fy pf, heightBin chbR c.grid pf.z with
      | some q, some _ => some { cell := q, w := p.2, f := fs }
      | _, _ => none)

/-- The contributions of a camera. -/
def ChbCtx.lifted (c : ChbCtx) (d : Dev) (s : View) : List (Option Contrib) :=
  (List.range (levelSize s.fields.height c.op.pyrLevel)).flatMap (fun y =>
    (List.range (levelSize s.fields.width c.op.pyrLevel)).flatMap (fun x => c.pixel d s x y))

/-- The accumulators of a cell (R186): stripe d lies on die Cd, in the region of ACC. -/
def ChbCtx.accRow (c : ChbCtx) (t : Tensor) (i j : Nat) : Nat :=
  let rows := max 1 (c.grid.h / 4)
  ({ t with die := j / rows } : Tensor).row [0, i, j % rows]

/-- The stripe of a row. -/
def ChbCtx.stripe (c : ChbCtx) (j : Nat) : Nat := j / max 1 (c.grid.h / 4)

/-- The FP32 word at an address. -/
def Dev.word (d : Dev) (a : Nat) : F32 := BitVec.ofNat 32 (d.readLe a 4)

/-- The stripe of a row cannot take additions (R188, R189): its die's Chambray domain or the partition that holds the
accumulators restarts, or the die does. -/
def Dev.stripeDown (d : Dev) (c : ChbCtx) (t : Tensor) (j : Nat) : Bool :=
  let x := c.stripe j
  decide ((d.chb x).state = .restarting) || (d.die x).restart.isSome ||
    (d.die x).parts.any (fun r => r.part.clusters.contains t.cluster)

/-- An accumulator after additions in the order they reach its bank (R186, R204): each list keeps its own order, and which of
them is next the die links leave open. -/
def arrive (n : Nat) : (fuel : Nat) → F32 → List (List F32) → F32
  | 0, acc, _ => acc
  | fuel + 1, acc, qs =>
    let qs := qs.filter (fun q => !q.isEmpty)
    let i := Config.arbiter n fuel % max 1 qs.length
    match qs[i]? with
    | some (v :: rest) => arrive n fuel (f32Add acc v).v (qs.set i rest)
    | _ => acc

/-- The terms of one channel of a cell as they keep their order: each on its own, or with ORDER each unit's. -/
def termLists (order : Bool) (l : List Addition) (term : Contrib → F32) : List (List F32) :=
  if order then (List.range 4).map (fun x => (l.filter (fun a => decide (a.unit = x))).map (fun a => term a.of))
  else l.map (fun a => [term a.of])

/-- The accumulators of a cell, from what they have received since they were cleared (R186). -/
def sumCell (c : ChbCtx) (t : Tensor) (d : Dev) (p : Nat × Nat) : Dev :=
  let l := d.chambray.additions.filter (fun a => decide (a.window = c.op.window) && decide (a.of.cell = p))
  let row := c.accRow t p.1 p.2
  let one (n : Nat) (d : Dev) (term : Contrib → F32) : Dev :=
    setBytes (row + 4 * n) (w32 (arrive d.freeCtr l.length 0 (termLists c.op.order l term)).toNat)
      { d with freeCtr := d.freeCtr + 1 }
  let d := (List.range c.op.channels).foldl (fun d n => one n d (fun k => chbR.mul k.w (k.f.getD n 0))) d
  one c.op.channels d (·.w)

/-- Every cell of the grid. -/
def gridCells (g : GridRec) : List (Nat × Nat) :=
  (List.range g.h).flatMap (fun j => (List.range g.w).map (fun i => (i, j)))

/-- Clear the accumulators of a grid (R186). -/
def clearAcc (c : ChbCtx) (t : Tensor) (d : Dev) : Dev :=
  (gridCells c.grid).foldl (fun d p => setBytes (c.accRow t p.1 p.2) (List.replicate (4 * (c.op.channels + 1)) 0) d)
    { d with chambray := { d.chambray with
        additions := d.chambray.additions.filter (fun a => decide (a.window ≠ c.op.window)) } }

/-- Convert one cell to OUT_FORMAT, with its weight in FP32 after the channels (R186). -/
def convertCell (c : ChbCtx) (acc t : Tensor) (d : Dev) (p : Nat × Nat) : Dev :=
  let row := c.accRow acc p.1 p.2
  let w := d.word (row + 4 * c.op.channels)
  let fs := (List.range c.op.channels).map (fun n =>
    let v := d.word (row + 4 * n)
    if !c.op.norm then v else if f32Gt c.op.wEps w then 0 else chbR.div v w)
  writeFeatures c.op (t.row [0, p.1, p.2]) fs w.toNat d

/-- A window of the operation has been released in the tick. -/
def Dev.opReleased (d : Dev) (c : ChbCtx) (rank : Nat) : Bool :=
  match (d.win .main c.tick (c.op.window + rank)).phase with | .running | .ended => true | _ => false

/-- Convert the stripes of some units. -/
def convertStripes (c : ChbCtx) (acc t : Tensor) (units : List Nat) (d : Dev) : Dev :=
  ((gridCells c.grid).filter (fun p => units.contains (c.stripe p.2))).foldl (convertCell c acc t) d

/-- The units of the operation whose windows have been released in the tick. -/
def Dev.opUnits (d : Dev) (c : ChbCtx) : List Nat :=
  (List.range c.op.units.length).filterMap (fun r => if d.opReleased c r then c.op.units[r]? else none)

/-- A LIFT operation on a unit's cameras (R184 to R186): the first window of the operation clears the accumulators, and
the stripes of the units whose windows have opened are converted after each unit's additions. Additions to a stripe that is
down are lost (R189). -/
def runLift (c : ChbCtx) (d : Dev) : Dev :=
  match c.acc, c.dest with
  | some acc, some t =>
    let others := (List.range c.op.units.length).filter (fun r => decide (r ≠ c.rank))
    let d := if others.any (d.opReleased c) then d else clearAcc c acc d
    let mine := partOf c.op c.op.cams.length c.rank
    let all := (c.views.filter (fun s => mine.contains s.rank)).flatMap (c.lifted d)
    let ks := all.filterMap id
    let d := countChb c.x c.tick 3 (all.length - ks.length) (countChb c.x c.tick 2 ks.length (countChb c.x c.tick 0 all.length d))
    let kept := ks.filter (fun k => !d.stripeDown c acc k.cell.2)
    let d := { d with chambray := { d.chambray with
      additions := d.chambray.additions ++ kept.map (fun k => { window := c.op.window, unit := c.x, of := k }) } }
    let d := ((kept.map (·.cell)).eraseDups).foldl (sumCell c acc) d
    convertStripes c acc t (c.x :: d.opUnits c) d
  | _, _ => d

/-- A unit stops in a LIFT (R188): of its additions those that it had made stay, which of them the spec leaves open, and the
stripes of the units that run or have ended are converted again. -/
def stopLift (c : ChbCtx) (d : Dev) : Dev :=
  match c.acc, c.dest with
  | some acc, some t =>
    let n := d.freeCtr
    let mine (a : Addition) : Bool := decide (a.window = c.op.window) && decide (a.unit = c.x)
    let cells := ((d.chambray.additions.filter mine).map (·.of.cell)).eraseDups
    let kept := d.chambray.additions.zipIdx.filter (fun a => !mine a.1 || Config.landed n a.2)
    let d := { d with freeCtr := n + 1, chambray := { d.chambray with additions := kept.map (·.1) } }
    let d := cells.foldl (sumCell c acc) d
    convertStripes c acc t (d.opUnits c) d
  | _, _ => d

/-! ### BOX (R187) -/

/-- The rectangle of a box in a camera (R187). -/
def boxRect (s : View) (ps : List Projected) : List F32 :=
  let uvs := ps.filterMap (·.uv)
  let u0 := f32Max 0 (minOf (uvs.map (·.1)))
  let v0 := f32Max 0 (minOf (uvs.map (·.2)))
  let u1 := f32Min (f32OfNat s.fields.width) (maxOf (uvs.map (·.1)))
  let v1 := f32Min (f32OfNat s.fields.height) (maxOf (uvs.map (·.2)))
  if uvs.isEmpty || f32Le u1 u0 || f32Le v1 v0 then [f32NaN, f32NaN, f32NaN, f32NaN] else [u0, v0, u1, v1]

/-- Corner n of a box (R187): its centre, and half its length along the yaw, half its width across and half its height up or
down, by bits 0, 1 and 2 of n. -/
def boxCorner (box : List F32) (n : Nat) : Vec3 :=
  let b (i : Nat) : F32 := box.getD i 0
  let half (i k : Nat) : F32 := let h := chbR.mul 0x3F000000 (b i); if n / 2 ^ k % 2 = 1 then h else f32Neg h
  let l := half 3 0
  let w := half 4 1
  let co := chbR.cos (b 6)
  let si := chbR.sin (b 6)
  { x := chbR.add (b 0) (chbR.sub (chbR.mul co l) (chbR.mul si w)),
    y := chbR.add (b 1) (chbR.add (chbR.mul si l) (chbR.mul co w)), z := chbR.add (b 2) (half 5 2) }

/-- One box in one camera. -/
def boxIn (c : ChbCtx) (t : Tensor) (n : Nat) (box : List F32) (d : Dev) (s : View) : Dev :=
  let ps := (List.range 8).map (fun k => s.project (boxCorner box k))
  let d := countChb c.x c.tick 5 (ps.filter (·.flip)).length (countChb c.x c.tick 0 (ps.foldl (fun m p => m + p.passes) 0) d)
  setBytes (t.start + 16 * (n * c.op.cams.length + s.rank)) ((boxRect s ps).flatMap (fun v => w32 v.toNat)) d

/-- A BOX operation over a unit's boxes: dimension 1 of AUX counts them (R187). -/
def runBox (c : ChbCtx) (d : Dev) : Dev :=
  match c.aux, c.dest with
  | some a, some t =>
    (shareOf (a.ext 1) c.rank c.op.units.length).foldl (fun d n =>
      let box := (List.range 8).map (fun i => if c.auxZero then 0 else d.word (a.start + 32 * n + 4 * i))
      c.views.foldl (boxIn c t n box) d) d
  | _, _ => d

/-! ### Windows (R188) -/

/-- The context of a window of an operation. -/
def Dev.chbCtx (d : Dev) (tick w : Nat) (g : GridRec) (o : ChbRec) (rank x : Nat) : ChbCtx :=
  let ts := d.descsAt .main tick
  let a := match d.tweed.finalOf tick with | some (p, _) => p.pose | none => identityPose
  let z := (d.win .main tick w).zeroed
  { x := x, tick := tick, op := o, rank := rank, grid := g, turn := viewOf chbR a,
    back := viewOf chbR ((a.take 3) ++ quatConj64 (a.drop 3)), fx := (gridAxis (a.getD 0 0) g.pitch).2,
    fy := (gridAxis (a.getD 1 0) g.pitch).2, views := d.views tick o, src := tensorOf ts o.src, dest := tensorOf ts o.dest,
    aux := tensorOf ts o.aux, acc := tensorOf ts o.acc, srcZero := z.contains o.src, auxZero := z.contains o.aux }

/-- The unit begins a window of a tick. -/
def beginUnit (x tick : Nat) (gen : BitVec 32) (d : Dev) : Dev :=
  modChb x (fun u =>
    let runs := if u.running.any (fun r => decide (r.tick = tick)) then u.running
      else u.running ++ [{ tick := tick, counts := [0, 0, 0, 0, 0, 0], gen := gen }]
    { u with state := .running, running := runs }) d

/-- The work of a CHAMBRAY window from its opening (R177 to R188). -/
def runChambray (tick w : Nat) (d : Dev) : Dev :=
  match d.gridAt tick, d.tickRec tick with
  | some g, some tr => match gridOp g w with
    | none => d
    | some (o, rank) => match o.units[rank]? with
      | none => d
      | some x =>
        if (d.chb x).state = .restarting then d
        else
          let d := o.cams.foldl (composeCamera tick o) d
          let d := beginUnit x tick (d.calFor tick).gen d
          let c := d.chbCtx tick w g o rank x
          let d := match o.op with
            | .sample => runSample c d
            | .lift => runLift c d
            | .paint => runPaint c d
            | .box => runBox c d
          match o.op with
          | .sample | .lift => writeBandTables tick tr.valid o (tensorOf (d.descsAt .main tick) o.bandTable) d
          | _ => d
  | _, _ => d

/-- CHAMBRAY_TIMER_EXPIRY (R188, R386): a window that still runs at its planned window plus 5 % stops and is marked
missing; three consecutive overruns on one unit restart its partition. -/
def chambrayTimerExpiry (tick w : Nat) (d : Dev) : Dev :=
  match d.windowRec .main tick w with
  | none => d
  | some r =>
    if r.kind ≠ .chambray || (d.win .main tick w).phase ≠ .running || !d.reached (d.expiry tick r) then d
    else
      let x := (d.chbUnitOf tick w).getD 0
      let d := match d.gridAt tick with
        | some g => match gridOp g w with
          | some (o, rank) => if o.op = .lift then stopLift (d.chbCtx tick w g o rank x) d else d
          | none => d
        | none => d
      let d := bump (barChbOf x + 0x1C) (d.chb x).overrun 1 (fun c => modChb x (fun u => { u with overrun := c })) d
      let run := (d.chb x).overrunRun + 1
      let d := modChb x (fun u => { u with state := .idle, overrunRun := if 3 ≤ run then 0 else run }) d
      let d := faultMiss .overrun .main tick w d
      if 3 ≤ run then
        match d.parts.findIdx? (fun p => p.die = x && p.chambray) with
        | some i => restartPartition x i causeChambray true d
        | none => d
      else d

/-- A CHAMBRAY window that its unit has ended in time: the run of overruns is broken. -/
def chambrayEnded (x : Nat) (d : Dev) : Dev := modChb x (fun u => { u with state := .idle, overrunRun := 0 }) d

/-! ### Die-link transactions -/

/-- LINK_TRANSACTION_TIMEOUT (R186, R426): the first expiry of a transaction is retried; where the retry expires, the
owning work is marked missing and the partition that issued it, or that the IOD addressed, restarts. A retried addition
of a LIFT window counts on its unit too. -/
def linkTransactionTimeout (die : Fin 6) (part : Nat) (ofRetry : Bool) (tick w : Nat) (d : Dev) : Dev :=
  let s := d.die die.val
  let bar := barTsq + 0x200 + 0x20 * die.val
  if ofRetry then
    let c := s.linkTimeout.inc
    let d := satEvent (bar + 0x10) s.linkTimeout c (d.setDie die.val { s with linkTimeout := c })
    restartPartition die.val part causeTimeout true (miss .transfer .main tick w d)
  else
    let c := s.linkRetry.inc
    let d := satEvent (bar + 0x0C) s.linkRetry c (d.setDie die.val { s with linkRetry := c })
    match d.windowRec .main tick w, (d.gridAt tick).bind (fun g => gridOp g w) with
    | some r, some (o, rank) =>
      if r.kind = .chambray && decide (o.op = .lift) then
        let x := o.units.getD rank 0
        bump (barChbOf x + 0x28) (d.chb x).remoteRetry 1 (fun c => modChb x (fun u => { u with remoteRetry := c })) d
      else d
    | _, _ => d

end Sys2Proof.Machine
end

