-- ==== Sys2Proof/Machine/Range.lean ====
section
/-!
DEFINITION. The lidar links, the inertial units, CAN and GNSS (spec/02_time_base.md R44 to R48;
spec/05_range_and_inertial_ingest.md R105, R114 to R124, R129).
-/

namespace Sys2Proof.Machine

open Sys2Proof

/-- BAR0 offset of a lidar port's block (R129). -/
def barLid (n : Nat) : Nat := barMus + 0x1000 + 0x40 * n
/-- BAR0 offset of an IMU port's block (R129). -/
def barImu (n : Nat) : Nat := barMus + 0x1200 + 0x40 * n
/-- BAR0 offset of a CAN controller's block (R129). -/
def barCan (n : Nat) : Nat := barMus + 0x1300 + 0x40 * n
/-- BAR0 offset of the GNSS block (R129). -/
def barGnss : Nat := barMus + 0x1400

/-! ### Lidar links (R105) -/

/-- Change lidar port n. -/
def modLidar (n : Nat) (f : LidarState → LidarState) (d : Dev) : Dev := d.setLidar n (f (d.lidar n))

/-- LIDAR_LINK_DOWN (R36, R105): the loss is counted and raises a health event, and the port retrains. -/
def lidarLinkDown (n : Fin 8) (d : Dev) : Dev :=
  let s := d.lidar n.val
  if s.link ≠ .up then d
  else
    let d := modLidar n.val (fun s => { s with link := .training, gptp := { s.gptp with asCapable := false } }) d
    let d := bump (barLid n.val + 0x04) s.linkLoss 1 (fun c d => modLidar n.val (fun s => { s with linkLoss := c }) d) d
    conditionEvent (barLid n.val + 0x04) (d.lidar n.val).linkLoss.val.toNat d

/-- LIDAR_LINK_UP (R105): the port has trained at its configured speed. -/
def lidarLinkUp (n : Fin 8) (d : Dev) : Dev :=
  if (d.lidar n.val).link = .training then modLidar n.val (fun s => { s with link := .up }) d else d

/-- A lidar port that a valid entry names starts training (R105, R410). -/
def enableLidar (d : Dev) (e : Nat × StreamEntry) : Dev :=
  match e.2.src with
  | .lidar f => modLidar e.2.port (fun s => { s with link := .training, speed := f.speed }) d
  | .imu f => d.setImu e.2.port { d.imu e.2.port with syncMode := f.syncMode }
  | _ => d

/-! ### Signal records (R114 to R116) -/

/-- Bit i of a payload: byte i / 8, bit i mod 8. -/
def payloadBit (p : List Byte) (i : Nat) : Bool := (p.getD (i / 8) 0).getLsbD (i % 8)

/-- The bit positions of a signal from its most significant bit (R114). -/
def signalBits (s : SignalRec) : List Nat :=
  if s.bigEndian then
    (List.range s.length).map (fun j =>
      let i := (s.startBit / 8) * 8 + (7 - s.startBit % 8) + j
      (i / 8) * 8 + (7 - i % 8))
  else (List.range s.length).map (fun j => s.startBit + (s.length - 1 - j))

/-- The raw value of a signal without its sign. -/
def rawNat (s : SignalRec) (p : List Byte) : Nat :=
  (signalBits s).foldl (fun v i => 2 * v + bit (payloadBit p i)) 0

/-- The raw value of a signal. -/
def rawInt (s : SignalRec) (p : List Byte) : Int :=
  let v := rawNat s p
  if s.signed && decide (2 ^ (s.length - 1) ≤ v) then (v : Int) - 2 ^ s.length else v

/-- The bytes that a signal touches. -/
def signalBytes (s : SignalRec) : List Nat := ((signalBits s).map (· / 8)).eraseDups

/-- One bit of a CRC register of w bits, most significant bit first. -/
def crcMsb (w poly : Nat) (c : Nat) : Nat :=
  if c / 2 ^ (w - 1) % 2 = 1 then Nat.xor (2 * c % 2 ^ w) poly else 2 * c % 2 ^ w

/-- A CRC of w bits over bytes, most significant bit first. -/
def crcOver (w poly init : Nat) (bs : List Byte) : Nat :=
  bs.foldl (fun c b => (List.range 8).foldl (fun c _ => crcMsb w poly c) (Nat.xor c (b.toNat * 2 ^ (w - 8)))) init

/-- The check values of R118 (IMU: 1 a 16-bit sum, 2 a CRC-16) and R122 (CAN: a CRC-8), over the bytes outside the check
signal. -/
def checkValue (can : Bool) (kind : Nat) (bs : List Byte) : Nat :=
  if can then Nat.xor (crcOver 8 0x1D 0xFF bs) 0xFF
  else if kind = 1 then (bs.foldl (fun s b => s + b.toNat) 0) % 65536
  else crcOver 16 0x1021 0xFFFF bs

/-- The bytes of a payload outside some positions. -/
def bytesOutside (p : List Byte) (pos : List Nat) : List Byte :=
  (p.zipIdx.filter (fun b => !pos.contains b.2)).map (·.1)

/-- The signals of a stream (R114, R127). -/
def Dev.signals (d : Dev) (first count : Nat) : List SignalRec := (d.image.streams.sigs.drop first).take count

/-- What the check of R116 says of a sample. -/
inductive CheckResult where
  | reject
  | pass (counter : Option Nat) (gap : Bool)
  deriving DecidableEq, Repr

/-- A signal is absent from a sample: its raw value is INVALID_VAL, with INVALID_EN set (R116). -/
def signalAbsent (p : List Byte) (s : SignalRec) : Bool := s.invalidEn && decide (rawNat s p = s.invalidVal % 2 ^ s.length)

/-- Check a sample (R116): its check value, and its alive counter against the previous accepted sample. An absent check value
or counter is not compared (log entry 203). -/
def checkSample (can : Bool) (kind : Nat) (sigs : List SignalRec) (checked p : List Byte) (prev : Option Nat) :
    CheckResult :=
  let sigs := sigs.filter (fun s => !signalAbsent p s)
  let bad := match sigs.find? (fun s => s.role = 31) with
    | some s => decide (kind ≠ 0) &&
        decide (rawNat s p ≠ checkValue can kind (bytesOutside checked (signalBytes s)) % 2 ^ s.length)
    | none => false
  if bad then .reject
  else match sigs.find? (fun s => s.role = 30) with
    | none => .pass none false
    | some s =>
      let c := rawNat s p
      match prev with
      | none => .pass (some c) false
      | some q => if c = q then .reject else .pass (some c) (decide (c ≠ (q + 1) % 2 ^ s.length))

/-- raw × SCALE + OFFSET of a signal record in FP32 (R115). -/
def signalValue (raw : Int) (s : SignalRec) : F32 :=
  let m := Rounding.open .signals
  m.add (m.scaleInt raw s.scale) s.offset

/-- The values of a sample by role (R115, R116): roles 0, 30 and 31 carry none, and a signal at its INVALID_VAL is
absent. -/
def signalValues (sigs : List SignalRec) (p : List Byte) : List (Nat × F32) :=
  (sigs.filter (fun s => decide (s.role ≠ 0) && decide (s.role ≠ 30) && decide (s.role ≠ 31) &&
    !signalAbsent p s)).map (fun s => (s.role, signalValue (rawInt s p) s))

/-- A sample with values by role, of corrected time t. -/
def valueSample (n : Nat) (t : Int) (a : Nanos) (values : List (Nat × F32)) (d : Dev) : Dev :=
  egoSample n t a { stream := n, t := 0, arrival := 0, values := values } d

/-! ### Inertial units (R44, R45, R117, R118) -/

/-- The stream of IMU port n. -/
def Dev.imuStream (d : Dev) (n : Nat) : Option (Nat × StreamEntry × ImuFields) :=
  d.image.streams.entries.findSome? (fun e => match e.2.src with
    | .imu f => if e.2.port = n then some (e.1, e.2, f) else none
    | _ => none)

/-- Change IMU port n. -/
def modImu (n : Nat) (f : ImuState → ImuState) (d : Dev) : Dev := d.setImu n (f (d.imu n))

/-- The pulses of a minor tick at a rate whose period divides it (R44), 0 at a slower rate. -/
def pulsesPerMinor (f : ImuFields) (minor : Nat) : Nat := minor * f.syncRateHz / secNs

/-- The newest pulse instant of a port up to now (R44): evenly over each minor tick, or on every j-th boundary where the period
is j × P/N. A pulse that does not fall on a whole ns is rounded in a way that the spec does not state. -/
def Dev.pulseDue (d : Dev) (f : ImuFields) : Option Nanos :=
  let t := d.time
  let minor := t.minorNs
  let start := t.bk + t.m * minor
  let n := pulsesPerMinor f minor
  if !t.begun || f.syncRateHz = 0 || minor = 0 then none
  else if 0 < n then
    ((List.range n).map (fun i => start + divRound 22 (i * secNs) f.syncRateHz)).reverse.find? (fun x => decide (x ≤ d.now))
  else if (t.k * t.n + t.m) % (secNs / (f.syncRateHz * minor)) = 0 then some start else none

/-- IMU_SYNC_PULSE (R44). -/
def imuSyncPulse (n : Fin 4) (d : Dev) : Dev :=
  match d.imuStream n.val with
  | some (_, _, f) =>
    match d.pulseDue f with
    | some t =>
      let again := match (d.imu n.val).pulse with | some q => decide (t ≤ q) | none => false
      if !f.syncMode || again then d
      else
        emit (.imuSync n.val (if f.syncWidthUs = 0 then 10 else f.syncWidthUs) f.syncPolHigh)
          (modImu n.val (fun s => { s with pulse := some t, pulseTaken := false }) d)
    | none => d
  | none => d

/-- A time in ns is at most half the pulse period (R45). -/
def halfPeriod (f : ImuFields) (ns : Nat) : Bool := decide (2 * ns * f.syncRateHz ≤ secNs)

/-- The pulse that a DRDY edge belongs to (R45). -/
def drdyPulse (f : ImuFields) (s : ImuState) (now : Nanos) : Option Nanos :=
  match s.pulse with
  | some t => if halfPeriod f (now - t) && !s.pulseTaken then some t else none
  | none => none

/-- IMU_DRDY_EDGE (R44, R45, R117, R118): stamped; an edge without a pulse of its own, or during a transaction, is
counted and gives no sample; an edge outside a transaction starts one. -/
def imuDrdyEdge (n : Fin 4) (d : Dev) : Dev :=
  match d.imuStream n.val with
  | none => d
  | some (_, e, f) =>
    let s := d.imu n.val
    let time : Option Int :=
      if f.syncMode then (drdyPulse f s d.now).map (fun t => (t : Int) + e.declLatNs)
      else some ((d.now : Int) - e.declLatNs)
    let d := if f.syncMode then
        match drdyPulse f s d.now with
        | some _ => modImu n.val (fun s => { s with pulseTaken := true }) d
        | none => bump (barImu n.val + 0x08) s.orphan 1 (fun c d => modImu n.val (fun s => { s with orphan := c }) d) d
      else d
    if s.trans.isSome then
      bump (barImu n.val + 0x0C) s.overrun 1 (fun c d => modImu n.val (fun s => { s with overrun := c }) d) d
    else
      emit (.spi n.val f.cmd f.rxLen)
        (modImu n.val (fun s => { s with trans := some (time.map (·.toNat), d.now) }) d)

/-- A sample of a port that passes the check of R116, or its reject. -/
def imuSample (n stream : Nat) (f : ImuFields) (t a : Nanos) (p : List Byte) (d : Dev) : Dev :=
  let s := d.imu n
  let sigs := d.signals f.sigFirst f.sigCount
  match checkSample false f.checkKind sigs p p (d.stream stream).alivePrev with
  | .reject => bump (barImu n + 0x10) s.reject 1 (fun c d => modImu n (fun s => { s with reject := c }) d) d
  | .pass c gap =>
    let d := if gap then
        bump (barImu n + 0x14) s.counterGap 1 (fun c d => modImu n (fun s => { s with counterGap := c }) d) d
      else d
    let d := d.setStream stream { d.stream stream with alivePrev := c }
    valueSample stream (d.corrected stream t a) a (signalValues sigs p) d

/-- IMU_TRANSACTION_DONE (R116 to R118): the payload of the transaction in progress. -/
def imuTransactionDone (n : Fin 4) (payload : List Byte) (d : Dev) : Dev :=
  match d.imuStream n.val, (d.imu n.val).trans with
  | some (stream, _, f), some (t, a) =>
    let d := modImu n.val (fun s => { s with trans := none }) d
    match t with
    | some t => imuSample n.val stream f t a payload d
    | none => d
  | _, _ => d

/-- IMU_MISSED_SAMPLE (R45): no DRDY edge within half the pulse period. -/
def imuMissedSample (n : Fin 4) (d : Dev) : Dev :=
  match d.imuStream n.val, (d.imu n.val).pulse with
  | some (_, _, f), some t =>
    let s := d.imu n.val
    if f.syncMode && !s.pulseTaken && !halfPeriod f (d.now - t) then
      bump (barImu n.val + 0x04) s.missed 1
        (fun c d => modImu n.val (fun s => { s with missed := c, pulseTaken := true }) d) d
    else d
  | _, _ => d

/-! ### CAN (R46, R120 to R122) -/

/-- Change CAN controller n. -/
def modCan (n : Nat) (f : CanState → CanState) (d : Dev) : Dev := d.setCan n (f (d.can n))

/-- A frame is delivered to a stream (R121). -/
def canMatches (f : CanFields) (x : CanFrame) : Bool :=
  decide (x.ide = f.ide) && decide (Nat.land x.id f.idMask = Nat.land f.canId f.idMask) &&
  (!f.fdfChk || decide (x.fdf = f.fdf))

/-- Count a rejected CAN sample (R121, R122). -/
def canReject (n : Nat) (d : Dev) : Dev :=
  bump (barCan n + 0x08) (d.can n).reject 1 (fun c d => modCan n (fun s => { s with reject := c }) d) d

/-- A frame for one stream (R116, R121, R122). -/
def canDeliver (n : Nat) (x : CanFrame) (d : Dev) (e : Nat × StreamEntry) : Dev :=
  match e.2.src with
  | .can f =>
    if e.2.port ≠ n || !canMatches f x then d
    else if x.payload.length < f.minLen then canReject n d
    else
      let sigs := d.signals f.sigFirst f.sigCount
      match checkSample true f.checkKind sigs (x.payload.take f.minLen) x.payload (d.stream e.1).alivePrev with
      | .reject => canReject n d
      | .pass c gap =>
        let d := if gap then
            bump (barCan n + 0x0C) (d.can n).aliveGap 1 (fun c d => modCan n (fun s => { s with aliveGap := c }) d) d
          else d
        let d := d.setStream e.1 { d.stream e.1 with alivePrev := c }
        valueSample e.1 (d.corrected e.1 ((x.stamp : Int) - e.2.declLatNs) x.stamp) x.stamp (signalValues sigs x.payload) d
  | _ => d

/-- CAN_FRAME_RECEIVED (R46, R120, R121): acknowledged in restricted operation, and delivered to every matching stream of an
enabled bus. -/
def canFrameReceived (n : Fin 4) (frame : CanFrame) (d : Dev) : Dev :=
  match assoc n.val d.image.streams.buses with
  | none => d
  | some b =>
    let d := modCan n.val (fun s => { s with rec_ := frame.rec_, errPassive := frame.errPassive }) d
    let d := if b.restricted then emit (.canAck n.val) d else d
    d.image.streams.entries.foldl (canDeliver n.val frame) d

/-- CAN_PROTOCOL_ERROR (R120): a protocol error or a CAN XL protocol exception, with the controller's counter and state
after it. -/
def canProtocolError (n : Fin 4) (rec_ : BitVec 8) (errPassive : Bool) (d : Dev) : Dev :=
  if (assoc n.val d.image.streams.buses).isNone then d
  else bump (barCan n.val + 0x04) (d.can n.val).proto 1
    (fun c d => modCan n.val (fun s => { s with proto := c, rec_ := rec_, errPassive := errPassive }) d) d

/-! ### GNSS (R47, R48, R123, R124) -/

/-- The GNSS stream. -/
def Dev.gnssStream (d : Dev) : Option (Nat × StreamEntry × GnssFields) :=
  d.image.streams.entries.findSome? (fun e => match e.2.src with
    | .gnss f => some (e.1, e.2, f)
    | _ => none)

/-- Change the GNSS port. -/
def modGnss (f : GnssState → GnssState) (d : Dev) : Dev :=
  { d with ports := { d.ports with gnss := f d.ports.gnss } }

/-- Count an unpaired PPS (R124). -/
def gnssUnpaired (d : Dev) : Dev :=
  bump (barGnss + 0x0C) d.ports.gnss.unpaired 1
    (fun c d => modGnss (fun s => { s with unpaired := c, pendingPps := none }) d) d

/-- A sentence of this type is enabled (R123). -/
def gnssEnabled (f : GnssFields) : SentenceKind → Bool
  | .gga => f.gga | .rmc => f.rmc | .zda => f.zda | .other => false

/-- A sentence of the type that pairs with a PPS (R124): the offset sample, or the pair's rejection. -/
def gnssPair (n : Nat) (f : GnssFields) (x : Sentence) (d : Dev) : Dev :=
  let pairs := if f.zda then decide (x.kind = .zda) else decide (x.kind = .rmc)
  match d.ports.gnss.pendingPps with
  | some p =>
    if !pairs || decide (x.stamp ≤ p) then d
    else if decide (p + secNs < x.stamp) then gnssUnpaired d
    else if x.utcNs % secNs ≠ 0 then gnssUnpaired d
    else
      let off : Int := (x.utcNs : Int) - p
      let d := modGnss (fun s => { s with pendingPps := none, offset := some (off, p) }) d
      egoSample n (d.corrected n p x.stamp) x.stamp { stream := n, t := 0, arrival := 0, values := [], offset := some off } d
  | none => d

/-- GNSS_SENTENCE_RECEIVED (R123, R124). -/
def gnssSentenceReceived (sentence : Sentence) (d : Dev) : Dev :=
  match d.gnssStream with
  | none => d
  | some (n, e, f) =>
    if !d.image.streams.gnssEn then d
    else
      let d := if sentence.framingErrors = 0 then d
        else bump (barGnss + 0x04) d.ports.gnss.framing sentence.framingErrors
          (fun c d => modGnss (fun s => { s with framing := c }) d) d
      if !gnssEnabled f sentence.kind then d
      else if !sentence.checksumOk || decide (82 < sentence.length) || !sentence.parsable then
        bump (barGnss + 0x08) d.ports.gnss.sentenceReject 1
          (fun c d => modGnss (fun s => { s with sentenceReject := c }) d) d
      else
        let d := match sentence.kind with
          | .gga => modGnss (fun s => { s with fixQuality := BitVec.ofNat 4 sentence.fixQuality }) d
          | .rmc => modGnss (fun s => { s with rmcValid := sentence.rmcActive }) d
          | _ => d
        let absent := match sentence.kind with
          | .gga => decide (sentence.fixQuality = 0)
          | .rmc => !sentence.rmcActive
          | _ => false
        let t := d.corrected n ((sentence.stamp : Int) - e.declLatNs) sentence.stamp
        let d := egoSample n t sentence.stamp
          { stream := n, t := 0, arrival := 0, values := [], geo := if absent then [] else sentence.values } d
        gnssPair n f sentence d

/-- GNSS_PPS_EDGE (R47, R48, R124): stamped and published; a PPS that still waits for its sentence stays unpaired. -/
def gnssPpsEdge (d : Dev) : Dev :=
  let d := { d with time := { d.time with ppsStamp := d.now, ppsMissing := false } }
  if d.image.streams.gnssEn then
    let d := if d.ports.gnss.pendingPps.isSome then gnssUnpaired d else d
    modGnss (fun s => { s with pendingPps := some d.now }) d
  else d

/-- GNSS_PAIR_TIMEOUT (R124): no sentence of the kind that pairs has begun within 1,000 ms of a PPS. The event does not come
where one has begun in time and is still being received (log entry 204). -/
def gnssPairTimeout (d : Dev) : Dev :=
  match d.ports.gnss.pendingPps with
  | some p => if p + secNs ≤ d.now then gnssUnpaired d else d
  | none => d

end Sys2Proof.Machine
end

