-- ==== Sys2Proof/Machine/Lidar.lean ====
section
/-!
DEFINITION. Lidar ingest: frames, parsing, quotas, and handing the points to the Tweed engines
(spec/05_range_and_inertial_ingest.md R106 to R113; spec/02_time_base.md R50).
-/

namespace Sys2Proof.Machine

open Sys2Proof

/-! ### Decoding (R109, R110) -/

/-- A field's bytes as a number in its byte order. -/
def numOf (be : Bool) (bs : List Byte) : Nat := if be then beNat bs else leNat bs

/-- `n` bytes of a payload from an offset on. -/
def sliceBytes (p : List Byte) (off n : Nat) : List Byte := (List.range n).map (fun i => p.getD (off + i) 0)

/-- The raw value of field f of a point: block and point starts give its place; 0 where the field is absent. -/
def rawField (p : List Byte) (f : ParserField) (block point : Nat) : Int :=
  let v := numOf f.be (sliceBytes p ((if f.inBlock then block else point) + f.offset) f.bytes)
  if f.signed && 0 < f.bytes && decide (2 ^ (8 * f.bytes - 1) ≤ v) then (v : Int) - 2 ^ (8 * f.bytes) else v

/-- A field of the descriptor; one that is not there is absent. -/
def parserField (q : ParserDesc) (i : Nat) : ParserField :=
  match q.fields[i]? with
  | some f => f
  | none => { offset := 0, bytes := 0, be := false, signed := false, inBlock := false, scale := 0 }

end Sys2Proof.Machine

namespace Sys2Proof

/-- A parser descriptor's field is present (R109). -/
def ParserField.present (f : ParserField) : Bool := decide (0 < f.bytes)

end Sys2Proof

namespace Sys2Proof.Machine

open Sys2Proof

/-- A field's value times its scale, exactly. -/
def scaledField (p : List Byte) (f : ParserField) (block point : Nat) : Dyadic :=
  (f32Value f.scale).mul { m := rawField p f block point, e := 0 }

/-- A field's value in FP32, raw × SCALE (R109). -/
def floatField (p : List Byte) (f : ParserField) (block point : Nat) : F32 :=
  (Rounding.open .lidar).scaleInt (rawField p f block point) f.scale

/-- A point in spherical coordinates (R110): range, azimuth, elevation. -/
def ofSpherical (r az el : F32) : Vec3 :=
  let m := Rounding.open .lidar
  let h := m.mul r (m.cos el)
  { x := m.mul h (m.cos az), y := m.mul h (m.sin az), z := m.mul r (m.sin el) }

/-- The range of a Cartesian point (R110). -/
def rangeOf (v : Vec3) : F32 :=
  let m := Rounding.open .lidar
  m.sqrt (m.sum [m.mul v.x v.x, m.mul v.y v.y, m.mul v.z v.z])

/-- The packet's time stamp (R110); none for the reserved format, whose packets are discarded and counted (log entry 205). -/
def packetStamp (q : ParserDesc) (p : List Byte) : Option Nat :=
  let at_ (off n : Nat) : Nat := numOf q.tsBe (sliceBytes p (q.tsOff + off) n)
  match q.tsFormat with
  | 0 => some (at_ 0 8)
  | 1 => some (at_ 0 6 * secNs + at_ 6 4)
  | 2 => some (at_ 0 4 * secNs + at_ 4 4)
  | _ => none

/-- A decoded point with its stamp (R110). -/
structure Decoded where
  p : Vec3
  intensity : F32
  ret : Nat
  stamp : Int
  deriving DecidableEq, Repr

/-- What decoding a point gives: a CHANNEL past the elevation table discards the packet, a no-return is no sample. -/
inductive DecodeResult where
  | badChannel
  | noReturn
  | point (x : Decoded)
  deriving DecidableEq, Repr

/-- Decode a point (R110). CHANNEL is tested where the elevation table is read, not where field 2 gives the elevation (log
entry 206). -/
def decodePoint (fs : ParserDesc) (p : List Byte) (stamp block point : Nat) : DecodeResult :=
  let val (i : Nat) : F32 := floatField p (parserField fs i) block point
  let nat (i : Nat) : Nat := (scaledField p (parserField fs i) block point).floor.toNat
  let t : Int := stamp +
    ((scaledField p (parserField fs 4) block point).add (scaledField p (parserField fs 5) block point)).nearest (Config.roundsUp 10)
  let channel := nat 6
  let useTable := fs.spherical && !(parserField fs 2).present
  if useTable && decide (fs.elev.length ≤ channel) then .badChannel
  else
    let xyz : Vec3 := { x := val 0, y := val 1, z := val 2 }
    let range := if fs.spherical then val 0 else rangeOf xyz
    if f32IsNaN range || f32Le range fs.minRange then .noReturn
    else
      let el := if useTable then fs.elev.getD channel 0 else val 2
      let v := if fs.spherical then ofSpherical (val 0) (val 1) el else xyz
      .point { p := v, intensity := val 3, ret := nat 7, stamp := t }

/-- The starts of every point of a packet: block 0 first, and within a block point 0 first (R110, R111). -/
def pointStarts (q : ParserDesc) : List (Nat × Nat) :=
  (List.range q.blockCount).flatMap (fun b =>
    let block := q.hdrLen + b * q.blockStride
    (List.range q.pointsPerBlock).map (fun i => (block, block + q.blockHdrLen + i * q.pointStride)))

/-- Decode a packet (R107, R110): none where it does not match its descriptor or is discarded. -/
def decodePacket (q : ParserDesc) (f : LidarFrame) : Option (List Decoded) :=
  let matched := if q.udpMatch then decide (f.udpPort = some q.matchValue) else decide (f.etherType = q.matchValue)
  if !matched || f.payload.length ≠ q.pktLen then none
  else match packetStamp q f.payload with
    | none => none
    | some stamp =>
      let rs := (pointStarts q).map (fun s => decodePoint q f.payload stamp s.1 s.2)
      if rs.contains .badChannel then none
      else some (rs.filterMap (fun r => match r with | .point x => some x | _ => none))

/-! ### Quotas (R111 to R113) -/

/-- Count points of a lidar port over a quota. -/
def quotaDrop (port : Nat) (src : Source) (d : Dev) : Dev :=
  match src with
  | .main => bump (barLid port + 0x10) (d.lidar port).quotaDropMain 1
      (fun c d => modLidar port (fun s => { s with quotaDropMain := c }) d) d
  | .burlap => bump (barLid port + 0x14) (d.lidar port).quotaDropFb 1
      (fun c d => modLidar port (fun s => { s with quotaDropFb := c }) d) d

/-- Charge a point to a pipeline's quota of a tick and hand it to the engine, or discard it over the quota (R111). -/
def chargePoint (src : Source) (quota tick n port : Nat) (p : Point) (d : Dev) : Dev :=
  let c := d.contrib tick n src
  if c.charged < quota then
    offerPoint src tick n (modContrib tick n src (fun c => { c with charged := c.charged + 1 }) d) p
  else
    quotaDrop port src (modContrib tick n src (fun c => { c with quotaHit := true, quotaDrop := c.quotaDrop + 1 }) d)

/-- FB_DECIM (R112, R127). -/
def decimOf (f : LidarFields) : Nat := if f.fbDecim = 0 then 1 else f.fbDecim

/-- A point assigned to a tick (R68, R111, R112): the first of them takes the provisional anchor of both pipelines; then to the main engine under its quota, and one in FB_DECIM to the fallback
engine under its own. -/
def admitPoint (n tick : Nat) (e : StreamEntry) (f : LidarFields) (valid : Nanos) (p : Point) (d : Dev) : Dev :=
  let d := [Source.main, Source.burlap].foldl (fun d src => takeProvisional src tick valid d) (noteAssigned tick d)
  let d := chargePoint .main f.quotaMain tick n e.port p d
  let s := d.stream n
  let keep := decide (s.decim = 0)
  let d := d.setStream n { s with decim := (s.decim + 1) % decimOf f }
  if keep then chargePoint .burlap f.quotaFb tick n e.port p d else d

/-- One point of a plausible packet (R60 to R62, R71). -/
def takePoint (n : Nat) (e : StreamEntry) (f : LidarFields) (a : Nanos) (d : Dev) (x : Decoded) : Dev :=
  let t := d.corrected n x.stamp a
  if implausible t a then countImplausible n 1 d
  else
    let d := usable n t a d
    if (d.stream n).mode ≠ .active then d
    else match d.assign e t a with
      | .outOfWindow => countOutOfWindow n 1 d
      | .window late tick =>
        let d := match late with | some k => countLateSamples n k 1 d | none => d
        match tick with
        | some (k, v) =>
          admitPoint n k e f v
            { p := x.p, intensity := x.intensity, ret := x.ret, stream := n, t := t.toNat, arrival := a } d
        | none => d

/-- Maximum transit time in ns (R50, R127). -/
def transitNs (f : LidarFields) : Nat := (if f.maxTransitUs = 0 then 5000 else f.maxTransitUs) * usNs

/-- A point stamp that makes the packet implausible (R50). -/
def badStamp (f : LidarFields) (a : Nanos) (x : Decoded) : Bool :=
  decide ((a : Int) + usNs < x.stamp) || decide (x.stamp < (a : Int) - transitNs f)

/-- Count frames of port n dropped before the parser. -/
def dropFrame (n : Nat) (d : Dev) : Dev :=
  bump (barLid n + 0x08) (d.lidar n).frameDrop 1 (fun c d => modLidar n (fun s => { s with frameDrop := c }) d) d

/-- Count packets of port n that the parser discards. -/
def dropParse (n : Nat) (d : Dev) : Dev :=
  bump (barLid n + 0x0C) (d.lidar n).parseDrop 1 (fun c d => modLidar n (fun s => { s with parseDrop := c }) d) d

/-- A decoded packet (R50, R107). -/
def takePacket (n : Nat) (e : StreamEntry) (f : LidarFields) (a : Nanos) (ps : List Decoded) (d : Dev) : Dev :=
  if ps.any (badStamp f a) then countImplausible n ps.length d
  else ps.foldl (takePoint n e f a) d

/-- The gPTP multicast address of R106. -/
def gptpMac : Nat := 0x0180C200000E

/-- LIDAR_FRAME_RECEIVED (R106 to R108): FCS, destination and the port's FIFO, then the parser. A frame of EtherType
0x88F7 is the gPTP function's. A PARSER field that names no descriptor drops every frame at the parser (log entry 207). -/
def lidarFrameReceived (n : Fin 8) (frame : LidarFrame) (d : Dev) : Dev :=
  match d.lidarEntry n.val with
  | none => d
  | some (s, e, f) =>
    if (d.lidar n.val).link ≠ .up then d
    else if !frame.fcsOk then dropFrame n.val d
    else if frame.dest ≠ f.portMac && frame.dest ≠ 0xFFFFFFFFFFFF && frame.dest ≠ gptpMac then d
    else if frame.etherType = 0x88F7 then d
    else if !frame.fits then dropFrame n.val d
    else match assoc f.parser d.image.parsers with
      | none => dropParse n.val d
      | some q => match decodePacket q frame with
        | none => dropParse n.val d
        | some ps => takePacket s e f frame.arrival ps d

end Sys2Proof.Machine
end

