-- ==== Sys2Proof/Machine/Gates.lean ====
section
/-!
DEFINITION. The gate close of a stream and what it starts in the engines (spec/03_windows_and_alignment.md R72;
spec/07_tweed_point_engine.md R145, R163; spec/08_chambray_view_transform.md R176).
-/

namespace Sys2Proof.Machine

open Sys2Proof

/-- The next tick, from j on, that has a validity instant, with that instant: a transition tick has none (R27). -/
def Dev.nextValid (d : Dev) (j : Nat) : Option (Nat × Nanos) :=
  match d.validAt j with
  | some v => some (j, v)
  | none => (d.validAt (j + 1)).map (fun v => (j + 1, v))

/-- The open slice of stream n in an engine closes where it belongs to tick j or one before (R145). -/
def closeTickSlice (n j : Nat) (d : Dev) (src : Source) : Dev :=
  match d.slice src n with
  | some s => if s.tick ≤ j then closeSlice src n d else d
  | none => d

/-- Stream n has no gate of tick j to close: it is DISABLED, from a boundary on that does not lie after the tick (R72,
R74). -/
def Dev.noGate (d : Dev) (n j : Nat) : Bool := decide ((d.stream n).mode = .disabled) && decide ((d.stream n).endGate ≤ j)

/-- Every POINT stream in use has closed its gate of tick j (R163). -/
def Dev.pointGatesClosed (d : Dev) (j : Nat) : Bool :=
  d.image.streams.entries.all (fun e =>
    decide (e.2.kind ≠ .point) || d.noGate e.1 j || decide (j < (d.stream e.1).nextGate))

/-- A POINT stream's gate (R113, R129, R145, R163): its slices close, POINTS_LAST is written, and the last of them takes
the final anchor in both engines. -/
def closePointGate (n j : Nat) (v : Nanos) (e : StreamEntry) (d : Dev) : Dev :=
  let d := [Source.main, Source.burlap].foldl (closeTickSlice n j) d
  let pts := (d.contrib j n .main).charged
  let d := modLidar e.port (fun s => { s with pointsLast := BitVec.ofNat 32 pts }) d
  if d.pointGatesClosed j then takeFinal .burlap j v (takeFinal .main j v d) else d

/-- GATE_CLOSE (R72, R74): at T_j + G_s, or for an EGO_INPUT stream no earlier than the cut-off of its boundary. The gates of
the ticks before a switch that disables the stream close as planned. -/
def gateClose (stream : Fin 48) (d : Dev) : Dev :=
  let n := stream.val
  match d.entry n, d.nextValid (d.stream n).nextGate with
  | some e, some (j, v) =>
    if d.noGate n j || decide (d.now < d.gateAt e v) then d
    else
      let d := closeGate n j e v d
      match e.kind, e.src with
      | .point, _ => closePointGate n j v e d
      | .rowBand, .camera f => buildBands j v e.port f d
      | _, _ => d
  | _, _ => d

end Sys2Proof.Machine
end

