-- ==== Sys2Proof/Machine/Damask.lean ====
section
/-!
DEFINITION. Damask: its commands, reclaim, the epoch close and page errors, and the completion of transfers, which may
read its pages (spec/12_damask_temporal_memory.md; spec/10_twill_layout.md R232 to R235).
-/

namespace Sys2Proof.Machine

open Sys2Proof

/-- BAR0 offset of a half's block (R291). -/
def barDmkOf (h : Nat) : Nat := barDmk + 0x40 * h

/-- A half: 0 on M0, 1 on M1. -/
def Dev.half (d : Dev) (h : Nat) : DmkHalf := bget {} h d.damask.halves

/-- The device with a half changed. -/
def modHalf (h : Nat) (f : DmkHalf → DmkHalf) (d : Dev) : Dev :=
  { d with damask := { d.damask with halves := bmod {} h f d.damask.halves } }

/-- Count n events of a half's counter at an offset of its block. -/
def bumpDmk (h off : Nat) (get : DmkHalf → Counter) (put : Counter → DmkHalf → DmkHalf) (n : Nat) (d : Dev) : Dev :=
  if n = 0 then d else bump (barDmkOf h + off) (get (d.half h)) n (fun c => modHalf h (put c)) d

/-- Sequence i (R270). -/
def Dev.seqOf (d : Dev) (i : Nat) : Option Sequence := bget none i d.damask.seqs

/-- The device with a sequence replaced. -/
def setSeq (i : Nat) (q : Option Sequence) (d : Dev) : Dev :=
  { d with damask := { d.damask with seqs := bput none i q d.damask.seqs } }

/-- The sequences of a half. -/
def Dev.seqsOf (d : Dev) (h : Nat) : List (Nat × Sequence) :=
  d.damask.seqs.filterMap (fun e => match e.2 with
    | some q => if q.half = h then some (e.1, q) else none
    | none => none)

/-- The record of a class (R269). -/
def Dev.dmkClass (d : Dev) (c : Nat) : Option DmkClass := assoc c d.image.damask.classes

/-- A half serves commands: its die is admitted and none of its partitions restarts (R289). -/
def Dev.halfRuns (d : Dev) (h : Nat) : Bool :=
  let s := d.die (4 + h)
  decide (s.state = .admitted) && s.parts.isEmpty && s.failedParts.isEmpty && !d.powerOff (4 + h)

/-! ### Slots (R266, R275, R277, R282) -/

/-- The reference count of a slot (R277). -/
def DmkHalf.ref (s : DmkHalf) (p : Nat) : Nat := bget 0 p s.refs

/-- A slot is in the free pool. -/
def DmkHalf.isFree (s : DmkHalf) (p : Nat) : Bool :=
  decide (s.ref p = 0) && !s.pins.any (fun x => x.1 = p) && !s.rebuilds.any (fun r => r.slot = p)

/-- The free slots of a half. -/
def Dev.freeSlots (d : Dev) (h : Nat) : List Nat :=
  (List.range (d.image.damask.poolPages.getD h 0)).filter (d.half h).isFree

/-- Change a slot's reference count. -/
def setRef (h p n : Nat) (d : Dev) : Dev := modHalf h (fun s => { s with refs := bput 0 p n s.refs }) d

/-- One of some numbers: which, the spec leaves open. -/
def pick (l : List Nat) (d : Dev) : Option (Nat × Dev) :=
  let f := drawFree d
  if l.isEmpty then none else l[f.1.toNat % l.length]?.map (fun x => (x, f.2))

/-- Take a free page slot, with a reference count of 1. -/
def takeSlot (h : Nat) (d : Dev) : Option (Nat × Dev) :=
  (pick (d.freeSlots h) d).map (fun x => (x.1, setRef h x.1 1 x.2))

/-- Take a free snapshot slot, where one is free (R282). -/
def takeSnap (h : Nat) (d : Dev) : Option Nat × Dev :=
  let used := (d.half h).snapUsed
  match pick ((List.range (d.image.damask.snapSlots.getD h 0)).filter (fun p => !used.contains p)) d with
  | some x => (some x.1, modHalf h (fun s => { s with snapUsed := x.1 :: s.snapUsed }) x.2)
  | none => (none, d)

/-- Some table entry or reservation of a half holds a snapshot slot. -/
def Dev.snapHeld (d : Dev) (h snap : Nat) : Bool :=
  (d.seqsOf h).any (fun e => e.2.pages.any (fun p => p.snap = some snap)) ||
  (d.half h).appends.any (fun a => a.snap = some snap)

/-- A snapshot slot is freed once no page holds it (R282). -/
def releaseSnap (h : Nat) (snap : Option Nat) (d : Dev) : Dev :=
  match snap with
  | some n => if d.snapHeld h n then d else modHalf h (fun s => { s with snapUsed := s.snapUsed.filter (fun x => x ≠ n) }) d
  | none => d

/-- Take an entry out of a sequence's table: its count falls, and its snapshot slot is freed with the last holder. -/
def removeEntry (h i : Nat) (p : PageEntry) (d : Dev) : Dev :=
  match d.seqOf i with
  | none => d
  | some q =>
    let d := setSeq i (some { q with pages := q.pages.filter (fun x => x ≠ p) }) d
    let d := if p.dropped then d else setRef h p.slot ((d.half h).ref p.slot - 1) d
    releaseSnap h p.snap d

/-- Positions are reserved in a slot. -/
def DmkHalf.reserved (s : DmkHalf) (p : Nat) : Bool := s.appends.any (fun a => a.slot = p)

/-! ### Reclaim (R279) -/

/-- A page lies beyond its class's horizon at tick k (R270). -/
def beyond (c : DmkClass) (k : Nat) (p : PageEntry) : Bool := decide (p.newestTick + c.retainTicks ≤ k)

/-- A table entry as reclaim sees it: its class's priority, its sequence and the entry. -/
structure Victim where
  priority : Nat
  seq : Nat
  page : PageEntry

/-- The entries of a half that satisfy `p`. -/
def Dev.victims (d : Dev) (h : Nat) (p : DmkClass → PageEntry → Bool) : List Victim :=
  (d.seqsOf h).flatMap (fun e => match d.dmkClass e.2.cls with
    | some c => (e.2.pages.filter (p c)).map (fun x => { priority := c.priority, seq := e.1, page := x })
    | none => [])

/-- Older first, the lower slot on a tie. -/
def Victim.older (a b : Victim) : Bool :=
  decide (a.page.newestTick < b.page.newestTick) ||
  (decide (a.page.newestTick = b.page.newestTick) && decide (a.page.slot < b.page.slot))

/-- Of lower priority first, then older (R279). -/
def Victim.before (a b : Victim) : Bool :=
  decide (a.priority < b.priority) || (decide (a.priority = b.priority) && a.older b)

/-- Enough slots of a half are free. -/
def Dev.enough (d : Dev) (h need : Nat) : Bool := decide (need ≤ (d.freeSlots h).length)

/-- Drop a page: its entry stays, marked, and its slot is freed (R279). -/
def dropPage (h : Nat) (d : Dev) (v : Victim) : Dev :=
  match d.seqOf v.seq with
  | none => d
  | some q =>
    let d := setSeq v.seq (some { q with pages := q.pages.map (fun p => if p = v.page then { p with dropped := true } else p) }) d
    bumpDmk h 0x18 (·.drop) (fun c s => { s with drop := c }) 1 (setRef h v.page.slot 0 d)

/-- Reclaim until `need` slots are free, for tick k; `keep` is a slot that stays (R279). -/
def reclaim (h k need : Nat) (keep : Option Nat) (d : Dev) : Dev :=
  let held (d : Dev) (p : PageEntry) : Bool := (d.half h).reserved p.slot || decide (keep = some p.slot)
  let old := sortBy Victim.older (d.victims h (fun c p => beyond c k p && (p.dropped || !held d p)))
  let d := old.foldl (fun d v => if d.enough h need then d else removeEntry h v.seq v.page d) d
  let pinned (p : PageEntry) : Bool := (d.half h).pins.any (fun x => x.1 = p.slot)
  let drop := sortBy Victim.before (d.victims h (fun c p => c.snapshot && !p.dropped && p.snap.isSome &&
    decide ((d.half h).ref p.slot = 1) && !pinned p && !held d p))
  drop.foldl (fun d v => if d.enough h need then d else dropPage h d v) d

/-- The device with `need` free slots, reclaimed where they are short; none where that is not possible. -/
def obtain_ (h k need : Nat) (keep : Option Nat) (d : Dev) : Option Dev :=
  if d.enough h need then some d
  else
    let d := reclaim h k need keep d
    if d.enough h need then some d else none

/-! ### Copies (R267, R276) -/

/-- Copy `n` bytes of memory. -/
def copyRange (src dst n : Nat) (d : Dev) : Dev :=
  let cells := d.mem.filter (fun c => decide (src ≤ c.1) && decide (c.1 < src + n))
  cells.foldl (fun d c => setByte (c.1 - src + dst) c.2 d) (zeroRange dst (dst + n) d)

/-- First packed address of a page slot (R266). -/
def Dev.pageAddr (d : Dev) (h p : Nat) : Nat := memSideBase (4 + h) + d.image.damask.poolBase.getD h 0 + 0x1_0000 * p

/-- First packed address of a snapshot slot (R282). -/
def Dev.snapAddr (d : Dev) (h p : Nat) : Nat :=
  ddrBase (4 + h) + d.image.damask.snapBase.getD h 0 + d.image.damask.snapSlotBytes * p

/-- Copy a page into a fresh slot, and its snapshot slot for a class with SNAPSHOT (R276, R277): the new slots. -/
def copyPage (h : Nat) (snapshot : Bool) (p : PageEntry) (d : Dev) : Option (Nat × Option Nat × Dev) :=
  (takeSlot h d).map (fun x =>
    let d := copyRange (x.2.pageAddr h p.slot) (x.2.pageAddr h x.1) 0x1_0000 x.2
    match snapshot, p.snap with
    | true, some s =>
      let y := takeSnap h d
      match y.1 with
      | some n => (x.1, some n, copyRange (y.2.snapAddr h s) (y.2.snapAddr h n) y.2.image.damask.snapSlotBytes y.2)
      | none => (x.1, none, y.2)
    | _, _ => (x.1, none, d))

/-! ### Completions (R272) -/

/-- STATUS codes of R272. -/
inductive DmkStatus where
  | ok | refusedPool | refusedSeqFull | refusedNoSeq | invalid
  deriving DecidableEq, Repr

/-- The code of a status (R272). -/
def DmkStatus.code : DmkStatus → Nat
  | .ok => 0 | .refusedPool => 1 | .refusedSeqFull => 2 | .refusedNoSeq => 3 | .invalid => 4

/-- A command's completion with its list (R272), and the page that its copies read first. -/
structure DmkReply where
  status : DmkStatus
  seq : Nat := 0
  entries : List (List Byte) := []
  copies : Nat := 0
  missing : Nat := 0
  source : Option Nat := none
  deriving DecidableEq, Repr

/-- The bytes of a completion and its list. -/
def DmkReply.bytes (r : DmkReply) : List Byte :=
  w32 (r.status.code + 2 ^ 16 * (r.seq % 4096)) ++ w32 (r.entries.length % 65536 + 2 ^ 16 * (r.copies % 65536)) ++
  w32 (r.missing % 2 ^ 32) ++ w32 0 ++ r.entries.flatten

/-- The epoch that a command belongs to: its tick's, or the next to close where that has closed (R275). -/
def Dev.epochOf (d : Dev) (c : DmkCmd) : Nat := max c.tick d.damask.epoch

/-- Write a completion to the result area and count the tally (R272). -/
def reply (c : DmkCmd) (r : DmkReply) (d : Dev) : Dev :=
  match tensorOf (d.descsAt .main c.tick) c.result with
  | none => d
  | some t =>
    let d := setBytes t.start r.bytes d
    match c.issuer with
    | .window _ cl => if c.tallyEn then incTally cl c.tally d else d
    | .host _ => d

/-- A window has issued a command of an epoch (R275). -/
def noteIssuer (c : DmkCmd) (d : Dev) : Dev :=
  match c.issuer with
  | .window w _ =>
    let e := (d.epochOf c, w)
    { d with damask := { d.damask with issuers := if d.damask.issuers.contains e then d.damask.issuers else e :: d.damask.issuers } }
  | .host _ => d

/-! ### Page errors (R285) -/

/-- A double-bit error in a page: it is dropped where it holds a snapshot slot, and otherwise leaves every table. -/
def losePage (h slot : Nat) (d : Dev) : Dev :=
  let vs := d.victims h (fun _ p => decide (p.slot = slot) && !p.dropped)
  let d := vs.foldl (fun d v =>
    if v.page.snap.isSome then
      match d.seqOf v.seq with
      | some q =>
        setSeq v.seq (some { q with pages := q.pages.map (fun p => if p = v.page then { p with dropped := true } else p) })
          (setRef h slot ((d.half h).ref slot - 1) d)
      | none => d
    else removeEntry h v.seq v.page d) d
  let d := bumpDmk h 0x30 (·.pageEcc) (fun c s => { s with pageEcc := c }) 1 d
  conditionEvent (barDmkOf h + 0x30) (d.half h).pageEcc.val.toNat d

/-- A double-bit error in a page read is a class H fault, and the reading window's outputs are missing (R285). -/
def pageFault (h : Nat) (window : Option Nat) (d : Dev) : Dev :=
  match window with
  | some _ => faultKey window d
  | none => raiseH (Config.classHCode 3) (4 + h) 0 0 d

/-- What the copies of a command found in the pages they read (R267, R285). -/
def copyErrors (h : Nat) (c : DmkCmd) (r : DmkReply) (d : Dev) : Dev :=
  match c.ecc, r.source with
  | .uncorrectable, some slot =>
    losePage h slot (pageFault h (match c.issuer with | .window w _ => some (winKey .main c.tick w) | .host _ => none) d)
  | _, _ => d

/-- Serve a command on a half: its effect `f`, the completion, and a refusal's counter. -/
def serveDmk (h : Fin 2) (c : DmkCmd) (f : Dev → DmkReply × Dev) (d : Dev) : Dev :=
  if d.halfRuns h.val then
    let x := f (noteIssuer c d)
    copyErrors h.val c x.1 (reply c x.1 x.2)
  else d

/-! ### Commands (R271 to R278) -/

/-- A sequence of a half by its index, as commands name it. -/
def Dev.seqIn (d : Dev) (h i : Nat) : Option Sequence :=
  match d.seqOf i with
  | some q => if q.half = h then some q else none
  | none => none

/-- The lowest free sequence index (R278). -/
def Dev.freeIndex (d : Dev) : Option Nat := (List.range 4096).find? (fun i => (d.seqOf i).isNone)

/-- Sequences of a class. -/
def Dev.classCount (d : Dev) (c : Nat) : Nat :=
  (d.damask.seqs.filter (fun e => match e.2 with | some q => decide (q.cls = c) | none => false)).length

/-- A new sequence of a class can be had: its index (R278). -/
def Dev.newIndex (d : Dev) (cls : Nat) (c : DmkClass) : Option Nat :=
  if c.maxSeq ≤ d.classCount cls then none else d.freeIndex

/-- One more refused CREATE or FORK. -/
def refuseCreate (h : Nat) (st : DmkStatus) (d : Dev) : DmkReply × Dev :=
  ({ status := st }, bumpDmk h 0x14 (·.createRefuse) (fun c s => { s with createRefuse := c }) 1 d)

/-- The owner of a sequence that a command makes (R288). -/
def ownerOf : DmkIssuer → SeqOwner
  | .window _ _ => .planned
  | .host p => .session p

/-- CREATE (R278). -/
def create (half : Fin 2) (cmd : DmkCmd) (d : Dev) : Dev :=
  serveDmk half cmd (fun d =>
    match d.dmkClass cmd.cls with
    | none => ({ status := .invalid }, d)
    | some c =>
      if c.half ≠ half.val then ({ status := .invalid }, d)
      else match d.newIndex cmd.cls c with
        | none => refuseCreate half.val .refusedNoSeq d
        | some i =>
          ({ status := .ok, seq := i },
           setSeq i (some { cls := cmd.cls, half := half.val,
                            owner := ownerOf cmd.issuer, pages := [], freeAt := none }) d)) d

/-- An entry of a view (R274). -/
def viewEntry (p : PageEntry) : List Byte := w32 (p.slot + 2 ^ 13 * p.tokens) ++ w32 (p.newestTick % 2 ^ 32) ++
  w32 (p.firstTick % 2 ^ 32) ++ w32 0

/-- A command of the main pipeline's own windows, not of a HOST window (R280). -/
def Dev.ofMain (d : Dev) (c : DmkCmd) : Bool :=
  match c.issuer with
  | .window w _ => (match d.windowRec .main c.tick w with | some r => decide (r.kind ≠ .host) | none => true)
  | .host _ => false

/-- A window's view was MISSING tokens (R280). -/
def noteMissingView (c : DmkCmd) (missing : Nat) (d : Dev) : Dev :=
  match c.issuer with
  | .window w _ => if missing = 0 then d else
      let s := d.win .main c.tick w
      d.setWin .main c.tick w { s with viewMissing := true }
  | .host _ => d

/-- OPEN_VIEW (R274, R275): the pages within the horizon, oldest first, pinned until the epoch closes. -/
def openView (half : Fin 2) (cmd : DmkCmd) (d : Dev) : Dev :=
  serveDmk half cmd (fun d =>
    match d.seqIn half.val cmd.seq with
    | none => ({ status := .invalid, seq := cmd.seq }, d)
    | some q => match d.dmkClass q.cls with
      | none => ({ status := .invalid, seq := cmd.seq }, d)
      | some c =>
        let e := d.epochOf cmd
        let near := q.pages.filter (fun p => !beyond c e p)
        let shown := near.filter (fun p => !p.dropped)
        let missing := (near.filter (·.dropped)).foldl (fun n p => n + p.tokens) 0
        let main := if d.ofMain cmd then missing else 0
        let d := noteMissingView cmd missing d
        ({ status := .ok, seq := cmd.seq, entries := shown.map viewEntry, missing := missing },
         modHalf half.val (fun s => { s with
           pins := s.pins ++ (shown.map (fun p => (p.slot, e))).filter (fun x => !s.pins.contains x),
           missing := bmod 0 e (· + missing) s.missing, missingMain := bmod 0 e (· + main) s.missingMain }) d)) d

/-- An entry of an APPEND or OPEN_QUEUE result (R276, R283). -/
def pageEntry (slot first count : Nat) (snap : Option Nat) : List Byte :=
  w32 (slot + 2 ^ 13 * first + 2 ^ 19 * count) ++ w32 (snap.getD 0xFFFF) ++ w32 0 ++ w32 0

/-- Where a sequence's next positions go: the slot of its last page with room, the positions used in it, its snapshot
slot, and its table entry where it is committed. -/
structure Tail where
  slot : Nat
  used : Nat
  snap : Option Nat
  page : Option PageEntry

/-- The last page of a sequence that can be filled (R276). -/
def Dev.tail (d : Dev) (h i : Nat) (q : Sequence) : Option Tail :=
  let mine := (d.half h).appends.filter (fun a => a.seq = i)
  let used (slot base : Nat) : Nat := (mine.filter (fun a => a.slot = slot)).foldl (fun n a => max n (a.first + a.count)) base
  match (mine.filter (·.fresh)).getLast? with
  | some a => some { slot := a.slot, used := used a.slot 0, snap := a.snap, page := none }
  | none => match q.pages.getLast? with
    | some p => if p.dropped then none else some { slot := p.slot, used := used p.slot p.tokens, snap := p.snap, page := some p }
    | none => none

/-- Reserve positions in a page. -/
def reserve (h : Nat) (a : PendingAppend) (d : Dev) : Dev := modHalf h (fun s => { s with appends := s.appends ++ [a] }) d

/-- Take new pages for `rest` positions, at most `fuel` of them: their entries. -/
def freshPages (h : Nat) (snapshot : Bool) (a : PendingAppend) : (fuel rest : Nat) → Dev → List (List Byte) × Dev
  | 0, _, d => ([], d)
  | fuel + 1, rest, d =>
    if rest = 0 then ([], d)
    else match takeSlot h d with
      | none => ([], d)
      | some x =>
        let y := if snapshot then takeSnap h x.2 else (none, x.2)
        let n := min rest 64
        let d := reserve h { a with slot := x.1, first := 0, count := n, fresh := true, snap := y.1 } y.2
        let more := freshPages h snapshot a fuel (rest - n) d
        (pageEntry x.1 0 n y.1 :: more.1, more.2)

/-- One more command refused for want of pages or positions (R279). -/
def countRefused (h : Nat) (d : Dev) : Dev :=
  bumpDmk h 0x10 (·.appendRefuse) (fun c s => { s with appendRefuse := c }) 1 d

/-- A refused APPEND (R276, R279, R280). -/
def refuseAppend (h : Nat) (cmd : DmkCmd) (st : DmkStatus) (d : Dev) : DmkReply × Dev :=
  let e := d.epochOf cmd
  let d := modHalf h (fun s => { s with refused := bmod 0 e (· + 1) s.refused }) d
  ({ status := st, seq := cmd.seq }, countRefused h d)

/-- Copy the last page before a write where it is shared (R276): the page to write, the copies made. -/
def ownTail (h i : Nat) (snapshot : Bool) (t : Tail) (d : Dev) : Tail × Nat × Dev :=
  match t.page with
  | none => (t, 0, d)
  | some p =>
    if (d.half h).ref p.slot ≤ 1 then (t, 0, d)
    else match copyPage h snapshot p d, d.seqOf i with
      | some x, some q =>
        let p' := { p with slot := x.1, snap := x.2.1 }
        let d := setSeq i (some { q with pages := q.pages.map (fun y => if y = p then p' else y) }) x.2.2
        let d := setRef h p.slot ((d.half h).ref p.slot - 1) d
        let d := bumpDmk h 0x24 (·.cow) (fun c s => { s with cow := c }) 1 d
        ({ t with slot := x.1, snap := x.2.1, page := some p' }, 1, d)
      | _, _ => (t, 0, d)

/-- An APPEND of a sequence whose class is known (R276). -/
def appendTo (h : Nat) (cmd : DmkCmd) (q : Sequence) (c : DmkClass) (d : Dev) : DmkReply × Dev :=
  let i := cmd.seq
  let t := (d.tail h i q).filter (fun t => decide (t.used < 64))
  let room := match t with | some t => 64 - t.used | none => 0
  let n1 := min room cmd.count
  let rest := cmd.count - n1
  let fresh := (rest + 63) / 64
  let shared := match t with | some t => t.page.isSome && decide (1 < (d.half h).ref t.slot) | none => false
  let pendingFresh := ((d.half h).appends.filter (fun a => a.seq = i && a.fresh)).length
  let e := d.epochOf cmd
  if c.maxPages < q.pages.length + pendingFresh + fresh then refuseAppend h cmd .refusedSeqFull d
  else match obtain_ h e (fresh + bit shared) (t.map (·.slot)) d with
    | none => refuseAppend h cmd .refusedPool d
    | some d =>
      let id := (d.half h).nextId
      let d := modHalf h (fun s => { s with nextId := id + 1 }) d
      let w := match cmd.issuer with | .window w _ => some w | .host _ => none
      let a : PendingAppend := { id := id, epoch := e, window := w, seq := i, slot := 0, first := 0, count := 0, fresh := false,
                                 snap := none }
      let source := if shared then t.map (·.slot) else none
      let (first, copies, d) := match t with
        | none => (([] : List (List Byte)), 0, d)
        | some t =>
          let x := ownTail h i c.snapshot t d
          ([pageEntry x.1.slot t.used n1 x.1.snap], x.2.1,
            reserve h { a with slot := x.1.slot, first := t.used, count := n1, snap := x.1.snap } x.2.2)
      let more := freshPages h c.snapshot a fresh rest d
      ({ status := .ok, seq := i, entries := first ++ more.1, copies := copies, source := source }, more.2)

/-- APPEND (R276). -/
def appendTok (half : Fin 2) (cmd : DmkCmd) (d : Dev) : Dev :=
  serveDmk half cmd (fun d =>
    match d.seqIn half.val cmd.seq with
    | none => ({ status := .invalid, seq := cmd.seq }, d)
    | some q => match d.dmkClass q.cls with
      | none => ({ status := .invalid, seq := cmd.seq }, d)
      | some c =>
        if cmd.count = 0 || 4096 < cmd.count then ({ status := .invalid, seq := cmd.seq }, d)
        else appendTo half.val cmd q c d) d

/-- Share a source's pages with a fork, copying those at 65,535 (R277): the fork's table and the copies made. -/
def sharePages (h : Nat) (snapshot : Bool) : List PageEntry → Dev → List PageEntry × Nat × Dev
  | [], d => ([], 0, d)
  | p :: rest, d =>
    if p.dropped then
      let x := sharePages h snapshot rest d
      (p :: x.1, x.2.1, x.2.2)
    else if (d.half h).ref p.slot < 65535 then
      let x := sharePages h snapshot rest (setRef h p.slot ((d.half h).ref p.slot + 1) d)
      (p :: x.1, x.2.1, x.2.2)
    else match copyPage h snapshot p d with
      | none => ([], 0, d)
      | some y =>
        let d := bumpDmk h 0x28 (·.shareSat) (fun c s => { s with shareSat := c }) 1 y.2.2
        let x := sharePages h snapshot rest d
        ({ p with slot := y.1, snap := y.2.1 } :: x.1, x.2.1 + 1, x.2.2)

/-- Fork a sequence (R277): the new index, and what the reply says. -/
def forkOf (h : Nat) (cmd : DmkCmd) (owner : SeqOwner) (d : Dev) : DmkReply × Dev :=
  match d.seqIn h cmd.seq with
  | none => ({ status := .invalid, seq := cmd.seq }, d)
  | some q => match d.dmkClass q.cls with
    | none => ({ status := .invalid, seq := cmd.seq }, d)
    | some src => match d.dmkClass src.forkClass with
      | none => ({ status := .invalid, seq := cmd.seq }, d)
      | some c => match d.newIndex src.forkClass c with
        | none => refuseCreate h .refusedNoSeq d
        | some i =>
          let full := q.pages.filter (fun p => !p.dropped && decide (65535 ≤ (d.half h).ref p.slot))
          match obtain_ h (d.epochOf cmd) full.length none d with
          | none => refuseCreate h .refusedPool (countRefused h d)
          | some d =>
            let q := (d.seqOf cmd.seq).getD q
            let x := sharePages h c.snapshot q.pages d
            ({ status := .ok, seq := i, copies := x.2.1, source := full.head?.map (·.slot) },
             setSeq i (some { cls := src.forkClass, half := h, owner := owner, pages := x.1, freeAt := none }) x.2.2)

/-- FORK (R277). -/
def forkSeq (half : Fin 2) (cmd : DmkCmd) (d : Dev) : Dev :=
  serveDmk half cmd (fun d =>
    forkOf half.val cmd (ownerOf cmd.issuer) d) d

/-- FREE (R278): the sequence goes at its epoch's close. -/
def freeSeq (half : Fin 2) (cmd : DmkCmd) (d : Dev) : Dev :=
  serveDmk half cmd (fun d =>
    match d.seqIn half.val cmd.seq with
    | none => ({ status := .invalid, seq := cmd.seq }, d)
    | some q =>
      ({ status := .ok, seq := cmd.seq },
       if q.freeAt.isSome then d else setSeq cmd.seq (some { q with freeAt := some (d.epochOf cmd) }) d)) d

/-- RESTORE (R283): the entry's rebuilt page replaces the dropped one at the epoch close. -/
def restore (half : Fin 2) (cmd : DmkCmd) (d : Dev) : Dev :=
  serveDmk half cmd (fun d =>
    let e := d.epochOf cmd
    let hit (r : Rebuild) : Bool := decide (r.number = cmd.entry) && decide (r.epoch = e) && decide (r.seq = cmd.seq)
    if (d.half half.val).rebuilds.any hit then
      ({ status := .ok, seq := cmd.seq },
       modHalf half.val (fun s => { s with rebuilds := s.rebuilds.map (fun r => if hit r then { r with restored := true } else r) }) d)
    else ({ status := .invalid, seq := cmd.seq }, d)) d

/-- The queue of R283: dropped pages within their horizon, of the highest priority first, then the newest. -/
def Dev.queue (d : Dev) (h e : Nat) : List Victim :=
  let waiting := d.victims h (fun c p => p.dropped && p.snap.isSome && !beyond c e p)
  let free := waiting.filter (fun v => !(d.half h).rebuilds.any (fun r => r.seq = v.seq && some r.snap = v.page.snap))
  sortBy (fun a b => decide (b.priority < a.priority) ||
    (decide (a.priority = b.priority) && decide (b.page.newestTick < a.page.newestTick))) free

/-- List entries of the queue, each with a slot reserved for it (R283). -/
def listQueue (h e : Nat) : List Victim → Dev → List (List Byte) × Dev
  | [], d => ([], d)
  | v :: rest, d =>
    match (obtain_ h e 1 none d).bind (fun d => pick (d.freeSlots h) d), v.page.snap with
    | some x, some snap =>
      let n := (d.half h).listed
      let d := modHalf h (fun s => { s with
        listed := n + 1,
        rebuilds := s.rebuilds ++ [{ number := n, epoch := e, seq := v.seq, snap := snap, slot := x.1, restored := false }] }) x.2
      let more := listQueue h e rest d
      (pageEntry x.1 0 v.page.tokens (some snap) :: more.1, more.2)
    | _, _ => listQueue h e rest (bumpDmk h 0x20 (·.recomputeSkip) (fun c s => { s with recomputeSkip := c }) 1 d)

/-- OPEN_QUEUE (R283). -/
def openQueue (half : Fin 2) (cmd : DmkCmd) (d : Dev) : Dev :=
  serveDmk half cmd (fun d =>
    let e := d.epochOf cmd
    let d := modHalf half.val (fun s => if s.listedTick = e then s else { s with listed := 0, listedTick := e }) d
    let most := match d.modeAt cmd.tick with | some m => m.recomputePages | none => 0
    let room := most - (d.half half.val).listed
    let x := listQueue half.val e ((d.queue half.val e).take room) d
    ({ status := .ok, entries := x.1 }, x.2)) d

/-- DAMASK_RESERVED_OP (R272). -/
def damaskReservedOp (half : Fin 2) (cmd : DmkCmd) (d : Dev) : Dev :=
  serveDmk half cmd (fun d => ({ status := .invalid, seq := cmd.seq }, d)) d

/-! ### The epoch close (R275, R283, R284) -/

/-- The writing window of a reservation was marked missing. -/
def Dev.writerMissing (d : Dev) (a : PendingAppend) : Bool :=
  match a.window with
  | some w => decide ((d.win .main a.epoch w).phase = .missing)
  | none => false

/-- Commit a reservation: its tokens become the sequence's. -/
def commitAppend (h : Nat) (d : Dev) (a : PendingAppend) : Dev :=
  match d.seqOf a.seq with
  | none => setRef h a.slot ((d.half h).ref a.slot - bit a.fresh) d
  | some q =>
    let held := q.pages.any (fun p => p.slot = a.slot && !p.dropped)
    let pages := if held then
        q.pages.map (fun p => if p.slot = a.slot && !p.dropped then
          { p with tokens := a.first + a.count, newestTick := a.epoch } else p)
      else q.pages ++ [{ slot := a.slot, tokens := a.first + a.count, firstTick := a.epoch, newestTick := a.epoch,
                         snap := a.snap, dropped := false }]
    setSeq a.seq (some { q with pages := pages }) d

/-- Discard a reservation: a page newly taken goes back, unless another reservation of it was committed. -/
def discardAppend (h : Nat) (d : Dev) (a : PendingAppend) : Dev :=
  let kept := match d.seqOf a.seq with | some q => q.pages.any (fun p => p.slot = a.slot && !p.dropped) | none => false
  if a.fresh && !kept then releaseSnap h a.snap (setRef h a.slot 0 d) else d

/-- Steps 1 and 2 of R275 on a half. -/
def closeAppends (h e : Nat) (d : Dev) : Dev :=
  let mine := (d.half h).appends.filter (fun a => decide (a.epoch ≤ e))
  let d := modHalf h (fun s => { s with appends := s.appends.filter (fun a => decide (e < a.epoch)) }) d
  let bad := mine.filter d.writerMissing
  let d := (mine.filter (fun a => !d.writerMissing a)).foldl (commitAppend h) d
  let d := bad.foldl (discardAppend h) d
  bumpDmk h 0x2C (·.discard) (fun c s => { s with discard := c }) ((bad.map (·.id)).eraseDups).length d

/-- One rebuilt page at the close (R283): it replaces its dropped entry, unless that has gone. -/
def closeRebuild (h e : Nat) (d : Dev) (r : Rebuild) : Dev :=
  if !r.restored then d
  else match d.seqOf r.seq with
    | none => d
    | some q =>
      let old (p : PageEntry) : Bool := p.dropped && decide (p.snap = some r.snap) &&
        (match d.dmkClass q.cls with | some c => !beyond c e p | none => false)
      if q.pages.any old then
        let d := setSeq r.seq (some { q with pages := q.pages.map (fun p =>
          if old p then { p with dropped := false, slot := r.slot } else p) }) (setRef h r.slot 1 d)
        bumpDmk h 0x1C (·.recompute) (fun c s => { s with recompute := c }) 1 d
      else d

/-- The rebuilt pages of an epoch; the slots of the others return. -/
def closeRebuilds (h e : Nat) (d : Dev) : Dev :=
  let mine := (d.half h).rebuilds.filter (fun r => decide (r.epoch ≤ e))
  let d := modHalf h (fun s => { s with rebuilds := s.rebuilds.filter (fun r => decide (e < r.epoch)) }) d
  mine.foldl (closeRebuild h e) d

/-- Remove a freed sequence (R278). -/
def removeSeq (h : Nat) (d : Dev) (e : Nat × Sequence) : Dev :=
  setSeq e.1 none (e.2.pages.foldl (fun d p => removeEntry h e.1 p d) d)

/-- The close of an epoch on one half (R275). -/
def closeHalf (h e : Nat) (d : Dev) : Dev :=
  let d := closeAppends h e d
  let gone := (d.seqsOf h).filter (fun q => match q.2.freeAt with | some f => decide (f ≤ e) | none => false)
  let d := closeRebuilds h e (gone.foldl (removeSeq h) d)
  let d := modHalf h (fun s => { s with
    pins := s.pins.filter (fun p => decide (e < p.2)),
    missingLast := BitVec.ofNat 32 (bget 0 e s.missing), refusedLast := BitVec.ofNat 14 (bget 0 e s.refused) }) d
  reclaim h e (d.image.damask.freeTarget.getD h 0) none d

/-- Every window of the epoch's tick that issued a command has ended; where none did, the tick is over (R275). -/
def Dev.epochDue (d : Dev) : Bool :=
  let e := d.damask.epoch
  let ws := d.damask.issuers.filter (fun x => x.1 = e)
  let gone (x : Nat × Nat) : Bool := match (d.win .main e x.2).phase with | .ended | .missing => true | _ => false
  (decide (e < d.time.k) || (decide (e = d.time.k) && d.time.begun && !ws.isEmpty)) &&
    (ws.all gone || decide (e + keptTicks < d.time.k))

/-- EPOCH_CLOSE (R275): the next epoch closes on both halves. -/
def epochClose (d : Dev) : Dev :=
  if d.epochDue then
    let e := d.damask.epoch
    let d := closeHalf 1 e (closeHalf 0 e d)
    { d with damask := { d.damask with epoch := e + 1, issuers := d.damask.issuers.filter (fun x => decide (e < x.1)) } }
  else d

/-! ### Transfers that read pages (R232 to R235, R285) -/

/-- The half that a transfer from tensor s reads pages of, and the slots from that of its first read position to that of its
last. -/
def Dev.pagesRead (d : Dev) (s : Tensor) (t : TransferDesc) : Option (Nat × List Nat) :=
  if s.space = .memSide then
    let h := s.die - 4
    let base := d.pageAddr h 0
    let place (f : Nat → Int) : Nat := s.row (dims.map (fun i => clampIdx (f i) (s.ext i)))
    let lo := place (readOrg t)
    let hi := place (fun i => readOrg t i + readSize t s i - 1)
    if base ≤ lo && hi < base + 0x1_0000 * d.image.damask.poolPages.getD h 0 then
      some (h, List.range' ((lo - base) / 0x1_0000) ((hi - base) / 0x1_0000 + 1 - (lo - base) / 0x1_0000))
    else none
  else none

/-- A double-bit error in a page that a transfer reads (R285): in which, where it reads several, no rule says. -/
def losePageOf (h : Nat) (slots : List Nat) (d : Dev) : Dev :=
  match slots with
  | [p] => losePage h p d
  | _ => match pick slots d with
    | some x => losePage h x.1 x.2
    | none => d

end Sys2Proof.Machine
end

