-- ==== Sys2Proof/Machine/Dual.lean ====
section
/-!
DEFINITION. Numbers of a Serge solve with a derivative (spec/13_serge_solver.md R303, R308): the value of a formula and its
rate of change along one component of a step, each operation rounded to nearest in FP64. A Jacobian's entries are what the
rules of differentiation make of a residual's formula.
-/

namespace Sys2Proof

/-- A value and its derivative along one component of a step. -/
structure Dual where
  v : F64
  d : F64
  deriving DecidableEq, Repr

end Sys2Proof

namespace Sys2Proof.Machine

open Sys2Proof

/-- How Serge rounds (R308). -/
def srgR : Rounding := .nearest

/-- A value that no step changes. -/
def dcon (a : F64) : Dual := { v := a, d := 0 }

/-- A whole number. -/
def dnat (n : Nat) : Dual := dcon (srgR.ratio64 n 1)

/-- a + b. -/
def dadd (a b : Dual) : Dual := { v := srgR.add64 a.v b.v, d := srgR.add64 a.d b.d }

/-- −a. -/
def dneg (a : Dual) : Dual := { v := Rounding.neg64 a.v, d := Rounding.neg64 a.d }

/-- a − b. -/
def dsub (a b : Dual) : Dual := dadd a (dneg b)

/-- a × b. -/
def dmul (a b : Dual) : Dual :=
  { v := srgR.mul64 a.v b.v, d := srgR.add64 (srgR.mul64 a.d b.v) (srgR.mul64 a.v b.d) }

/-- a / b. -/
def ddiv (a b : Dual) : Dual :=
  let q := srgR.div64 a.v b.v
  { v := q, d := srgR.div64 (srgR.sub64 a.d (srgR.mul64 q b.d)) b.v }

/-- √a; of 0 the derivative is 0. -/
def dsqrt (a : Dual) : Dual :=
  let r := srgR.sqrt64 a.v
  { v := r, d := if (f64Value r).m = 0 then 0 else srgR.div64 a.d (srgR.mul64 two64 r) }

/-- sin a. -/
def dsin (a : Dual) : Dual := { v := srgR.sin64 a.v, d := srgR.mul64 (srgR.cos64 a.v) a.d }

/-- cos a. -/
def dcos (a : Dual) : Dual := { v := srgR.cos64 a.v, d := Rounding.neg64 (srgR.mul64 (srgR.sin64 a.v) a.d) }

/-- atan2(y, x). -/
def datan2 (y x : Dual) : Dual :=
  { v := srgR.atan264 y.v x.v,
    d := srgR.div64 (srgR.sub64 (srgR.mul64 x.v y.d) (srgR.mul64 y.v x.d))
      (srgR.add64 (srgR.mul64 x.v x.v) (srgR.mul64 y.v y.v)) }

/-! ### Vectors, quaternions and poses; a pose is its unit quaternion, then its translation, as a block stores it (R296) -/

/-- A vector's element. -/
def dat (l : List Dual) (i : Nat) : Dual := l.getD i (dcon 0)

/-- The sum of terms added as they stand. -/
def dsum : List Dual → Dual
  | [] => dcon 0
  | x :: xs => xs.foldl dadd x

/-- The dot product. -/
def ddot (a b : List Dual) : Dual := dsum (List.zipWith dmul a b)

/-- The Euclidean norm. -/
def dnorm (a : List Dual) : Dual := dsqrt (ddot a a)

/-- The sum of two vectors. -/
def dvadd (a b : List Dual) : List Dual := List.zipWith dadd a b

/-- The difference of two vectors. -/
def dvsub (a b : List Dual) : List Dual := List.zipWith dsub a b

/-- A vector times a number. -/
def dscale (s : Dual) (a : List Dual) : List Dual := a.map (dmul s)

/-- The cross product. -/
def dcross (a b : List Dual) : List Dual :=
  let e (i j : Nat) : Dual := dsub (dmul (dat a i) (dat b j)) (dmul (dat a j) (dat b i))
  [e 1 2, e 2 0, e 0 1]

/-- The product of two quaternions. -/
def dqmul (a b : List Dual) : List Dual :=
  let aw := dat a 0
  let bw := dat b 0
  let av := (a.drop 1).take 3
  let bv := (b.drop 1).take 3
  dsub (dmul aw bw) (ddot av bv) :: dvadd (dvadd (dscale aw bv) (dscale bw av)) (dcross av bv)

/-- The conjugate of a quaternion, the inverse of a unit one. -/
def dqconj (q : List Dual) : List Dual := dat q 0 :: ((q.drop 1).take 3).map dneg

/-- A quaternion over its norm (R131). -/
def dqunit (q : List Dual) : List Dual := let n := dnorm q; q.map (fun x => ddiv x n)

/-- A vector under the rotation of a unit quaternion: v + 2w (u × v) + 2 u × (u × v). -/
def drot (q v : List Dual) : List Dual :=
  let u := (q.drop 1).take 3
  let c := dcross u v
  let two := dnat 2
  dvadd v (dvadd (dscale (dmul two (dat q 0)) c) (dscale two (dcross u c)))

/-- The exponential map: the rotation of a rotation vector. -/
def dqexp (v : List Dual) : List Dual :=
  let a := dnorm v
  let h := ddiv a (dnat 2)
  let s := if (f64Value a.v).m = 0 then dcon half64 else ddiv (dsin h) a
  dcos h :: dscale s v

/-- The rotation vector of a unit quaternion, of the turn of at most π. -/
def dqlog (q : List Dual) : List Dual :=
  let q := if (f64Value (dat q 0).v).m < 0 then q.map dneg else q
  let v := (q.drop 1).take 3
  let s := dnorm v
  if (f64Value s.v).m = 0 then dscale (ddiv (dnat 2) (dat q 0)) v
  else dscale (ddiv (dmul (dnat 2) (datan2 s (dat q 0))) s) v

/-- The orientation of a pose. -/
def poseQ (p : List Dual) : List Dual := p.take 4

/-- The translation of a pose. -/
def poseT (p : List Dual) : List Dual := (p.drop 4).take 3

/-- A point under a pose. -/
def dapply (p v : List Dual) : List Dual := dvadd (drot (poseQ p) v) (poseT p)

/-- A point under the inverse of a pose. -/
def dunapply (p v : List Dual) : List Dual := drot (dqconj (poseQ p)) (dvsub v (poseT p))

/-- A pose carried by a constant twist for a time (R67, R316): the velocity and the angular rate are in the frame that holds
the pose. -/
def dcarry (p vel rate : List Dual) (t : Dual) : List Dual :=
  dqmul (dqexp (dscale t rate)) (poseQ p) ++ dvadd (poseT p) (dscale t vel)

/-- A block's value after a step (R296): rotations on the right through the exponential map, renormalised (R131); the other
components are added. The components of a step stand in the order of the stored value. -/
def dretract (type : Nat) (w d : List Dual) : List Dual :=
  if type = 2 ∨ type = 3 ∨ type = 4 then
    dqunit (dqmul (w.take 4) (dqexp (d.take 3))) ++ dvadd (w.drop 4) (d.drop 3)
  else dvadd w d

/-- The step from one value of a block to another (R301: x − x_0). -/
def dminus (type : Nat) (x x0 : List Dual) : List Dual :=
  if type = 2 ∨ type = 3 ∨ type = 4 then
    dqlog (dqmul (dqconj (x0.take 4)) (x.take 4)) ++ dvsub (x.drop 4) (x0.drop 4)
  else dvsub x x0

end Sys2Proof.Machine
end

