-- ==== Sys2Proof/Machine/Linear.lean ====
section
/-!
DEFINITION. The linear algebra of a Serge solve (spec/13_serge_solver.md R303, R304, R308, R309, R312): sums of products in FP64,
the LDLᵀ factorisation in index order, the solution of a factored system, entries of an inverse, and the Schur complement. A
unit performs fused multiply-adds (R292) in a fixed order that no rule states, so the order of every sum is open.
-/

namespace Sys2Proof.Machine

open Sys2Proof

/-- a × b + c, rounded once (R292, R308). -/
def srgFma (a b c : F64) : F64 :=
  BitVec.ofNat 64 (match ((f64Num a).mul (f64Num b)).bind (fun p => p.add (f64Num c)) with
    | some x => srgR.encode 11 52 x
    | none => Rounding.quietNaN 11 52)

/-- The terms of a sum in the order in which a unit takes them. -/
def srgOrder {α : Type} : (fuel : Nat) → List α → List α
  | 0, xs => xs
  | n + 1, xs =>
    let t := Rounding.takeAt (Config.sumPick .serge xs.length 0 % xs.length) xs
    match t.1 with
    | some x => x :: srgOrder n t.2
    | none => []

/-- A number with products added to it. -/
def srgSum (start : F64) (terms : List (F64 × F64)) : F64 :=
  (srgOrder terms.length terms).foldl (fun s t => srgFma t.1 t.2 s) start

/-- The product of two vectors. -/
def srgDot (a b : List F64) : F64 := srgSum 0 (a.zip b)

/-- An entry of a matrix held by its rows. -/
def mat (a : List (List F64)) (i j : Nat) : F64 := (a.getD i []).getD j 0

/-- A matrix times a vector. -/
def matVec (a : List (List F64)) (v : List F64) : List F64 := a.map (fun r => srgDot r v)

/-- One column of a factor: its pivot, and the column of L with its 1. -/
structure LdlCol where
  pivot : F64
  col : List F64
  deriving DecidableEq, Repr

/-- Column j of the factor of a symmetric matrix, from the columns before it. -/
def ldlCol (a : List (List F64)) (j : Nat) (cs : List LdlCol) : LdlCol :=
  let part (i : Nat) : List (F64 × F64) := cs.map (fun c => (Rounding.neg64 (srgR.mul64 (c.col.getD i 0) c.pivot), c.col.getD j 0))
  let d := srgSum (mat a j j) (part j)
  { pivot := d,
    col := (List.range a.length).map (fun i =>
      if i < j then 0 else if i = j then one64 else srgR.div64 (srgSum (mat a i j) (part i)) d) }

/-- LDLᵀ of a symmetric matrix, column by column in index order (R299, R303). -/
def ldlt (a : List (List F64)) : List LdlCol :=
  (List.range a.length).foldl (fun cs j => cs ++ [ldlCol a j cs]) []

/-- L y = b. -/
def ldlForward (f : List LdlCol) (b : List F64) : List F64 :=
  (List.range b.length).foldl (fun y i =>
    y ++ [srgSum (b.getD i 0) (y.zipIdx.map (fun e => (Rounding.neg64 ((f.map (·.col)).getD e.2 [] |>.getD i 0), e.1)))]) []

/-- Lᵀ x = z: the last row first, in front of the values already found. -/
def ldlBackward (f : List LdlCol) (z : List F64) : List F64 :=
  (f.zip z).foldr (fun e x =>
    let below := e.1.col.drop (z.length - x.length)
    srgSum e.2 ((below.zip x).map (fun p => (Rounding.neg64 p.1, p.2))) :: x) []

/-- The solution of a factored system. -/
def ldlSolve (f : List LdlCol) (b : List F64) : List F64 :=
  ldlBackward f (List.zipWith (fun y c => srgR.div64 y c.pivot) (ldlForward f b) f)

/-- A column of the inverse of a factored matrix, from which selected inversion takes its entries (R312, R316). -/
def ldlInverse (f : List LdlCol) (j : Nat) : List F64 :=
  ldlSolve f ((List.range f.length).map (fun i => if i = j then one64 else 0))

/-- What is left of a matrix and a vector when the first n scalars are eliminated (the Schur complement, R309). -/
def schur (n : Nat) (h : List (List F64)) (g : List F64) : List (List F64) × List F64 :=
  let cs := (List.range n).foldl (fun cs j => cs ++ [ldlCol h j cs]) []
  let y := (List.range n).foldl (fun y i =>
    y ++ [srgSum (g.getD i 0) ((y.zip cs).map (fun e => (Rounding.neg64 (e.2.col.getD i 0), e.1)))]) ([] : List F64)
  let rest := (List.range (h.length - n)).map (· + n)
  (rest.map (fun i => rest.map (fun j =>
     srgSum (mat h i j) (cs.map (fun c => (Rounding.neg64 (srgR.mul64 (c.col.getD i 0) c.pivot), c.col.getD j 0))))),
   rest.map (fun i => srgSum (g.getD i 0) ((y.zip cs).map (fun e => (Rounding.neg64 (e.2.col.getD i 0), e.1)))))

end Sys2Proof.Machine
end

