-- ==== Sys2Proof/Machine/Factors.lean ====
section
/-!
DEFINITION. The residuals of a Serge problem's factors (spec/13_serge_solver.md R296 to R298, R301, R309 to R311, R316;
spec/06_frames_and_calibration_tables.md R131, R136, R137): each kind's formula over the stored values of its blocks, whitened
by its σ. Where a rule names a residual without its formula, log entries 208 to 210 say what it is taken to be.
-/

namespace Sys2Proof.Machine

open Sys2Proof

/-- The dimension of a block (R296). -/
def blockDim : Nat → Nat
  | 0 => 1 | 1 => 3 | 2 => 3 | 3 => 6 | 4 => 9 | 5 => 6 | 6 => 1 | _ => 0

/-- The values of a block in its stored form (R296, R301): a rotation is a unit quaternion. -/
def blockWords : Nat → Nat
  | 0 => 1 | 1 => 3 | 2 => 4 | 3 => 7 | 4 => 10 | 5 => 6 | 6 => 1 | _ => 0

/-- The type of block i of a slot. -/
def blockType (s : SlotRec) (i : Nat) : Nat := match s.blocks[i]? with | some b => b.type | none => 7

/-- The blocks of a type, in index order. -/
def blocksOf (s : SlotRec) (type : Nat) : List Nat := (s.blocks.zipIdx.filter (fun b => decide (b.1.type = type))).map (·.2)

/-- The stored values of the blocks. -/
abbrev Env := Nat → List Dual

/-- An FP32 number in FP64 (R308). -/
def dwiden (v : F32) : Dual := dcon (Rounding.widen v)

/-- The two FP32 numbers of a payload word, the low half first (R301). -/
def unpack (w : F64) : List Dual := [dwiden (w.extractLsb' 0 32), dwiden (w.extractLsb' 32 32)]

/-- ns as seconds. -/
def dseconds (ns : Int) : Dual := dcon (seconds64 srgR ns)

/-- The blocks of a factor that have a type, in its order. -/
def factorBlocks (s : SlotRec) (f : FactorRec) (type : Nat) : List Nat := f.blocks.filter (fun b => decide (blockType s b = type))

/-! ### Factors of packets (R301, R315, R316) -/

/-- A keyframe's pose at a time relative to it, with the stream's time offset (R316): carried by its twist. -/
def keyframeAt (p : SrgProblem) (env : Env) (f : FactorRec) (key : Nat) (t : Dual) : List Dual :=
  let w (i : Nat) : Dual := dcon (Config.keyTwist p key i)
  let off := match (factorBlocks p.slot f 6).head? with | some b => dat (env b) 0 | none => dcon 0
  dcarry (env key) [w 0, w 1, w 2] [w 3, w 4, w 5] (dadd t off)

/-- The pose under which a factor's sensor lies: its keyframe's, or a SCAN slot's as it stands. -/
def sensorPose (p : SrgProblem) (env : Env) (f : FactorRec) (t : Dual) : List Dual :=
  match (factorBlocks p.slot f 3).head? with
  | some key => if p.slot.cls = .calib then keyframeAt p env f key t else env key
  | none => []

/-- PT_PLANE: the distance of the point from its plane, over σ. -/
def planeResidual (p : SrgProblem) (env : Env) (i : Nat) (f : FactorRec) (w : List F64) : List Dual :=
  let v := w.flatMap unpack
  let q := match (factorBlocks p.slot f 3)[1]? with | some e => dapply (env e) (v.take 3) | none => v.take 3
  let pt := dapply (sensorPose p env f (dcon (Config.pointTime p i))) q
  let n := ddot ((v.drop 3).take 3) pt
  [ddiv (if Config.planeMinus then dsub n (dat v 6) else dadd n (dat v 6)) (dat v 7)]

/-- The lower node of a place in a grid, and the fraction past it. -/
def gridNode (pos : Dual) (nodes : Nat) : Nat × Dual :=
  let i := min (f64Value pos.v).floor.toNat (nodes - 2)
  (i, dsub pos (dnat i))

/-- The pixel of a point in the camera frame (R136, R137), none outside the camera. -/
def cameraPixel (m : WarpModel) (pt : List Dual) : Option (List Dual) :=
  let a := datan2 (dat pt 0) (dat pt 2)
  let b := datan2 (dat pt 1) (dat pt 2)
  let le (x y : F64) : Bool := match f64Num x, f64Num y with | .fin _ u, .fin _ v => !v.lt u | _, _ => false
  let place (v : Dual) (lo hi : F32) (n : Nat) : Dual :=
    dmul (ddiv (dsub v (dwiden lo)) (dsub (dwiden hi) (dwiden lo))) (dnat (n - 1))
  if !le (Rounding.widen m.zMin) (dat pt 2).v || !le (Rounding.widen m.alphaMin) a.v || !le a.v (Rounding.widen m.alphaMax) ||
      !le (Rounding.widen m.betaMin) b.v || !le b.v (Rounding.widen m.betaMax) then none
  else
    let x := gridNode (place a m.alphaMin m.alphaMax m.fwdCols) m.fwdCols
    let y := gridNode (place b m.betaMin m.betaMax m.fwdRows) m.fwdRows
    let node (i j : Nat) : F32 × F32 := m.fwd.getD ((y.1 + j) * m.fwdCols + x.1 + i) (f32NaN, f32NaN)
    if [node 0 0, node 1 0, node 0 1, node 1 1].any (fun e => f32IsNaN e.1) then none
    else
      let along (u v f : Dual) : Dual := dadd u (dmul f (dsub v u))
      let pick (g : F32 × F32 → F32) : Dual :=
        let n (i j : Nat) : Dual := dwiden (g (node i j))
        along (along (n 0 0) (n 1 0) x.2) (along (n 0 1) (n 1 1) x.2) y.2
      some [pick (·.1), pick (·.2)]

/-- The camera stream of a REPROJ factor: its extrinsic block's (R296). -/
def reprojStream (s : SlotRec) (f : FactorRec) : Option Nat :=
  ((factorBlocks s f 3)[1]?).bind (fun b => (s.blocks[b]?).bind (·.calStream))

/-- The error of a REPROJ factor in base-level pixels: where its landmark projects, less where it was seen; none outside the
camera. -/
def reprojError (p : SrgProblem) (env : Env) (f : FactorRec) (w : List F64) : Option (List Dual) :=
  let v := w.flatMap unpack
  match (factorBlocks p.slot f 3)[1]?, (factorBlocks p.slot f 1).head?, (reprojStream p.slot f).bind (fun n => assoc n p.warp) with
  | some e, some l, some m =>
    (cameraPixel m (dunapply (env e) (dunapply (sensorPose p env f (dat v 2)) (env l)))).map (fun uv => dvsub uv (v.take 2))
  | _, _, _ => none

/-- REPROJ: the error over σ. `seed` is the scalar along which the derivative is taken. -/
def reprojResidual (p : SrgProblem) (env : Env) (seed i : Nat) (f : FactorRec) (w : List F64) : List Dual :=
  match reprojError p env f w with
  | some e => e.map (fun x => ddiv x (dat (w.flatMap unpack) 3))
  | none => [0, 1].map (fun c => { v := Config.reprojOutside p i c, d := Config.reprojOutsideSlope p i c seed })

/-- RELPOSE: the second pose in the first's frame against the one measured, each component times its square-root
information. -/
def relposeResidual (p : SrgProblem) (env : Env) (f : FactorRec) (w : List F64) : List Dual :=
  let v := w.flatMap unpack
  match factorBlocks p.slot f 3 with
  | a :: b :: _ =>
    let q := dqmul (dqconj (poseQ (env a))) (poseQ (env b))
    let e := dqlog (dqmul (dqconj (dqexp (v.take 3))) q) ++ dvsub (dunapply (env a) (poseT (env b))) ((v.drop 3).take 3)
    List.zipWith dmul e (v.drop 6)
  | _ => []

/-- The steps of a factor's blocks from values they had, in its blocks' order. -/
def stepsFrom (s : SlotRec) (env : Env) (blocks : List (Nat × List F64)) : List Dual :=
  blocks.flatMap (fun b => dminus (blockType s b.1) (env b.1) (b.2.map dcon))

/-- EXTERNAL: r + J (x − x_0), from a word that holds m, the m residuals and the rows of J (R301). -/
def externalResidual (p : SrgProblem) (env : Env) (i : Nat) (f : FactorRec) (w : List F64) : List Dual :=
  let m := (w.headD 0).toNat % 256
  let x0 := f.blocks.zip ((assoc i p.extAt).getD [])
  let step := stepsFrom p.slot env x0
  (List.range m).map (fun r =>
    dadd (dcon (w.getD (1 + r) 0)) (ddot ((w.drop (1 + m + r * step.length)).take step.length |>.map dcon) step))

/-- PRIOR from INIT records: the steps from the values they set, each times its square-root information. -/
def initResidual (p : SrgProblem) (env : Env) (i : Nat) (f : FactorRec) : List Dual :=
  (stepsFrom p.slot env (f.blocks.zip ((assoc i p.extAt).getD []))).zipIdx.map (fun e => dmul (dcon (Config.priorInfo p i e.2)) e.1)

/-- The residual of a factor that a packet measures. -/
def packetResidual (p : SrgProblem) (env : Env) (seed i : Nat) (f : FactorRec) (w : List F64) : List Dual :=
  match f.kind with
  | 0 => initResidual p env i f
  | 8 => planeResidual p env i f w
  | 9 => reprojResidual p env seed i f w
  | 10 => relposeResidual p env f w
  | 11 => externalResidual p env i f w
  | _ => []

/-! ### The ego problem (R309 to R311) -/

/-- The noise record of a role (R298). -/
def noiseOf (p : SrgProblem) (role : Nat) : NoiseRec :=
  (p.noise.find? (fun n => n.role = role)).getD { role := role, sigma := 0, holdRate := 0, huber := 0 }

/-- The threshold of a loss, none where it is 0 (R298). -/
def huberOf (v : F32) : Option F64 := if v.toNat % 2 ^ 31 = 0 then none else some (Rounding.widen v)

/-- The BIAS6 block of an IMU stream: one for each, in order (R309). -/
def biasOf (p : SrgProblem) (env : Env) (stream : Nat) : List Dual :=
  match (blocksOf p.slot 5)[p.imus.idxOf stream]? with | some b => env b | none => List.replicate 6 (dcon 0)

/-- The three values of an IMU sample from a role on, less the bias, in the vehicle frame (R310). -/
def inVehicle (turn : Quat) (bias : List Dual) (role : Nat) (vs : List (Nat × F32)) : List Dual :=
  let v (r : Nat) : Dual := dwiden ((assoc r vs).getD 0)
  drot (turn.list.map dwiden) (dvsub [v role, v (role + 1), v (role + 2)] bias)

/-- The samples of an IMU factor at the ends of its intervals (R310): the newest one before stands at the start of the first, and
the newest of all holds to b. -/
def runPoints (r : ImuRun) (lo b : Nat) : List (Nat × List (Nat × F32)) :=
  let start := match r.before, r.samples with
    | some s, _ => [(lo, s.2)]
    | none, s :: _ => [(lo, s.2)]
    | none, [] => []
  let inside := start ++ r.samples
  match inside.getLast? with
  | some s => if s.1 = b then inside else inside ++ [(b, s.2)]
  | none => []

/-- What preintegration comes to (R310): rotation, velocity and position over the interval, in the frame of its start. -/
structure Preint where
  q : List Dual
  v : List Dual
  t : List Dual

/-- One interval by the midpoint rule (R310). -/
def preintStep (turn : Quat) (bias : List Dual) (x : Preint) (a b : Nat × List (Nat × F32)) : Preint :=
  let h := dseconds ((b.1 : Int) - a.1)
  let half := dcon half64
  let gyro := bias.take 3
  let acc := bias.drop 3
  let rate := dscale half (dvadd (inVehicle turn gyro 19 a.2) (inVehicle turn gyro 19 b.2))
  let q := dqunit (dqmul x.q (dqexp (dscale h rate)))
  let f := dscale half (dvadd (drot x.q (inVehicle turn acc 16 a.2)) (drot q (inVehicle turn acc 16 b.2)))
  { q := q, v := dvadd x.v (dscale h f),
    t := dvadd (dvadd x.t (dscale h x.v)) (dscale (dmul half (dmul h h)) f) }

/-- The preintegration of an IMU run over (lo, b] (R310). -/
def preintegrate (r : ImuRun) (bias : List Dual) (lo b : Nat) : Preint :=
  let ps := runPoints r lo b
  (ps.zip (ps.drop 1)).foldl (fun x e => preintStep r.turn bias x e.1 e.2)
    { q := [dnat 1, dcon 0, dcon 0, dcon 0], v := [dcon 0, dcon 0, dcon 0], t := [dcon 0, dcon 0, dcon 0] }

/-- The velocity of a state. -/
def stateV (x : List Dual) : List Dual := x.drop 7

/-- What gravity adds to a velocity in a time. -/
def fallen (t : Dual) : List Dual := [dcon 0, dcon 0, dneg (dmul (dcon Config.gravity) t)]

/-- IMU: the state at b against the one before it moved by the preintegrated samples, and the bias. -/
def imuResidual (p : SrgProblem) (env : Env) (i j : EgoBoundary) (r : ImuRun) : List Dual :=
  let bias := biasOf p env r.stream
  let x := env i.block
  let y := env j.block
  let m := preintegrate r bias i.b j.b
  let h := dseconds ((j.b : Int) - i.b)
  let back (v : List Dual) : List Dual := drot (dqconj (poseQ x)) v
  let e := dqlog (dqmul (dqconj m.q) (dqmul (dqconj (poseQ x)) (poseQ y))) ++
    dvsub (back (dvsub (dvsub (dvsub (poseT y) (poseT x)) (dscale h (stateV x))) (dscale (dcon half64) (dscale h (fallen h))))) m.t ++
    dvsub (back (dvsub (dvsub (stateV y) (stateV x)) (fallen h))) m.v ++
    bias.zipIdx.map (fun e => dsub e.1 (dcon (Config.biasReference p r.stream e.2)))
  let sig := [16, 17, 18, 19, 20, 21].map (fun n => (noiseOf p n).sigma)
  e.zipIdx.map (fun c => dmul (dcon (Config.imuInfo sig (j.b - i.b) c.2)) c.1)

/-- The mean of vectors. -/
def dmean (l : List (List Dual)) : List Dual :=
  [0, 1, 2].map (fun i => ddiv (dsum (l.map (fun v => dat v i))) (dnat l.length))

/-- The mean bias-corrected angular rate over the IMUs at a boundary, in the vehicle frame (R312). -/
def boundaryRate (p : SrgProblem) (env : Env) (e : EgoBoundary) : List Dual :=
  let one (r : ImuRun) : Option (List Dual) :=
    let s := match r.samples.getLast? with | some x => some x | none => r.before
    s.map (fun s => inVehicle r.turn ((biasOf p env r.stream).take 3) 19 s.2)
  let l := e.imus.filterMap one
  if l.isEmpty then [0, 1, 2].map (fun i => dcon (Config.rateOpen p e.b i)) else dmean l

/-- The state at an instant (R310): orientation, position, velocity and the angular rate in the vehicle frame; between two
boundaries at constant twist (R67). -/
def stateAt (p : SrgProblem) (env : Env) (w : EgoWindow) (t : Nat) : List Dual × List Dual × List Dual × List Dual :=
  let own (e : EgoBoundary) : List Dual × List Dual × List Dual × List Dual :=
    let x := env e.block
    (poseQ x, poseT x, stateV x, boundaryRate p env e)
  match w.bounds.find? (fun e => decide (e.b ≤ t)), w.bounds.reverse.find? (fun e => decide (t ≤ e.b)) with
  | some a, some c =>
    if a.b = c.b then own a
    else
      let x := env a.block
      let y := env c.block
      let h := dseconds ((c.b : Int) - a.b)
      let f := ddiv (dseconds ((t : Int) - a.b)) h
      let turn := dqlog (dqmul (dqconj (poseQ x)) (poseQ y))
      let move := dvsub (poseT y) (poseT x)
      (dqmul (poseQ x) (dqexp (dscale f turn)), dvadd (poseT x) (dscale f move), move.map (fun v => ddiv v h), turn.map (fun v => ddiv v h))
  | some a, none => own a
  | none, some c => own c
  | none, none => ([], [], [], [])

/-- The SCALAR block of a wheel speed's scale: one for each role that feeds the slot, in order (R309). -/
def wheelScale (p : SrgProblem) (env : Env) (role : Nat) : Dual :=
  if role = 7 then dnat 1
  else match (blocksOf p.slot 0)[p.wheels.idxOf role]? with | some b => dat (env b) 0 | none => dnat 1

/-- The WGS 84 semi-major axis in m, and the square of the eccentricity, from the flattening 1 / 298.257223563. -/
def wgsA : F64 := srgR.ratio64 6378137 1
def wgsE2 : F64 := let f := srgR.ratio64 1000000000 298257223563; srgR.mul64 f (srgR.sub64 two64 f)

/-- A geodetic position (latitude and longitude in rad, height in m) in the earth's frame (R311). -/
def earthOf (g : List F64) : List F64 :=
  let lat := g.getD 0 0
  let lon := g.getD 1 0
  let h := g.getD 2 0
  let s := srgR.sin64 lat
  let c := srgR.cos64 lat
  let n := srgR.div64 wgsA (srgR.sqrt64 (srgR.sub64 one64 (srgR.mul64 wgsE2 (srgR.mul64 s s))))
  let r := srgR.mul64 (srgR.add64 n h) c
  [srgR.mul64 r (srgR.cos64 lon), srgR.mul64 r (srgR.sin64 lon),
   srgR.mul64 (srgR.add64 (srgR.mul64 n (srgR.sub64 one64 wgsE2)) h) s]

/-- A geodetic position in the local tangent plane at another (R311): east, north and up. -/
def tangentOf (ref g : List F64) : List F64 :=
  let d := vsub64 srgR (earthOf g) (earthOf ref)
  let sp := srgR.sin64 (ref.getD 0 0)
  let cp := srgR.cos64 (ref.getD 0 0)
  let sl := srgR.sin64 (ref.getD 1 0)
  let cl := srgR.cos64 (ref.getD 1 0)
  let n := Rounding.neg64
  [dot64 srgR [n sl, cl, 0] d,
   dot64 srgR [n (srgR.mul64 sp cl), n (srgR.mul64 sp sl), cp] d,
   dot64 srgR [srgR.mul64 cp cl, srgR.mul64 cp sl, sp] d]

/-- GNSS_POS: the fix in the odometry frame, through the alignment's yaw and translation, against the state's position. -/
def gnssError (p : SrgProblem) (env : Env) (w : EgoWindow) (pos : List Dual) (g : List F64) : List Dual :=
  let yaw := match (blocksOf p.slot 0).getLast? with | some b => dat (env b) 0 | none => dcon 0
  let move := match (blocksOf p.slot 1).head? with | some b => env b | none => [dcon 0, dcon 0, dcon 0]
  let fix := (tangentOf (w.tangent.getD g) g).map dcon
  let c := dcos yaw
  let s := dsin yaw
  let x := dsub (dmul c (dat fix 0)) (dmul s (dat fix 1))
  let y := dadd (dmul s (dat fix 0)) (dmul c (dat fix 1))
  dvsub (dvadd [x, y, dat fix 2] move) pos

/-- The residual of an absolute pose (R315) before it is whitened: rotation, then translation. -/
def absError (q t : List Dual) (v : List F64) : List Dual :=
  let m := v.map dcon
  dqlog (dqmul (dqconj (m.take 4)) q) ++ dvsub t ((m.drop 4).take 3)

/-- A vector whitened by a covariance: D^−½ L⁻¹ e, where the covariance is L D Lᵀ. -/
def whiten (cov : List (List F64)) (e : List Dual) : List Dual :=
  let f := ldlt cov
  let y := (List.range e.length).foldl (fun y i =>
    y ++ [dsub (dat e i) (dsum (y.zipIdx.map (fun k => dmul (dcon (mat (f.map (·.col)) k.2 i)) k.1)))]) []
  List.zipWith (fun v c => ddiv v (dcon (srgR.sqrt64 c.pivot))) y f

/-- What a measurement is held against (R311): the error of its prediction, before σ. -/
def measureError (p : SrgProblem) (env : Env) (w : EgoWindow) (m : EgoMeasure) : List Dual :=
  let s := stateAt p env w m.at_
  let v := drot (dqconj s.1) s.2.2.1
  let vx := dat v 0
  let wz := dat s.2.2.2 2
  let z := dcon (m.values.headD 0)
  let geo (i : Nat) : Dual := dwiden (p.slot.geometry.getD i 0)
  let wheel (side : Dual) (track : Nat) : List Dual :=
    [dsub (dmul (dadd vx (dmul side (ddiv (dmul wz (geo track)) (dnat 2)))) (wheelScale p env m.role)) z]
  match m.role with
  | 1 => wheel (dneg (dnat 1)) 1
  | 2 => wheel (dnat 1) 1
  | 3 => wheel (dneg (dnat 1)) 2
  | 4 => wheel (dnat 1) 2
  | 7 => [dsub vx z]
  | 5 => [dsub wz (ddiv (dmul vx (ddiv (dsin z) (dcos z))) (geo 0))]
  | 6 => [dsub wz (ddiv (dmul vx (ddiv (dsin z) (dcos z))) (geo 0))]
  | 8 => [dsub wz z]
  | 32 => gnssError p env w s.2.1 m.values
  | 33 => [dsub (dnorm [dat s.2.2.1 0, dat s.2.2.1 1]) z]
  | 64 => absError s.1 s.2.1 m.values
  | _ => []

/-- The σ of a measurement (R298, R310): its variance grows by HOLD_RATE for each second of hold. -/
def measureSigma (p : SrgProblem) (m : EgoMeasure) : F64 :=
  let n := noiseOf p m.role
  let s := Rounding.widen n.sigma
  if m.held = 0 then s
  else srgR.sqrt64 (srgR.add64 (srgR.mul64 s s) (srgR.mul64 (Rounding.widen n.holdRate) (seconds64 srgR m.held)))

/-- A measurement's residual. -/
def measureResidual (p : SrgProblem) (env : Env) (w : EgoWindow) (m : EgoMeasure) : List Dual :=
  let e := measureError p env w m
  if m.role = 64 then
    whiten ((List.range 6).map (fun i => (m.values.drop (7 + 6 * i)).take 6)) e
  else e.map (fun x => ddiv x (dcon (measureSigma p m)))

/-- NONHOLO: the lateral and the vertical velocity at the vehicle origin are 0 with NH_SIGMA (R297). -/
def nonholoResidual (p : SrgProblem) (env : Env) (e : EgoBoundary) : List Dual :=
  let x := env e.block
  let v := drot (dqconj (poseQ x)) (stateV x)
  [ddiv (dat v 1) (dwiden (p.slot.geometry.getD 4 0)), ddiv (dat v 2) (dwiden (p.slot.geometry.getD 4 0))]

/-- The residual of the prior that marginalisation left (R309): D^½ Lᵀ (x − x_0) + D^−½ L⁻¹ η, whose half square is its quadratic
form; a scalar whose pivot is not past 0 has no part in it. -/
def priorResidual (p : SrgProblem) (env : Env) (q : EgoPrior) : List Dual :=
  let f := ldlt q.lam
  let step := stepsFrom p.slot env q.blocks
  let y := ldlForward f q.eta
  f.zipIdx.map (fun c =>
    if (f64Value c.1.pivot).m ≤ 0 then dcon 0
    else
      let r := srgR.sqrt64 c.1.pivot
      dadd (dmul (dcon r) (ddot (c.1.col.map dcon) step)) (dcon (srgR.div64 (y.getD c.2 0) r)))

/-! ### All factors of a problem -/

/-- A factor at an iterate: its index in the factor table where it has one, the threshold of its loss, and its residual. -/
structure FactorValue where
  index : Option Nat
  huber : Option F64
  r : List Dual
  deriving DecidableEq, Repr

/-- The factors of an EGO slot's window. -/
def egoValues (p : SrgProblem) (env : Env) (w : EgoWindow) : List FactorValue :=
  let pairs := w.bounds.zip (w.bounds.drop 1)
  (match w.prior with | some q => [{ index := none, huber := none, r := priorResidual p env q }] | none => []) ++
  pairs.flatMap (fun e => e.1.imus.map (fun r =>
    { index := none, huber := huberOf (noiseOf p Config.imuRole).huber, r := imuResidual p env e.2 e.1 r })) ++
  w.measures.map (fun m =>
    { index := none, huber := if m.role = 64 then none else huberOf (noiseOf p m.role).huber, r := measureResidual p env w m }) ++
  w.bounds.map (fun e => { index := none, huber := none, r := nonholoResidual p env e })

/-- The factors that packets measure. `seed` is the scalar along which derivatives are taken. -/
def packetValues (p : SrgProblem) (env : Env) (seed : Nat) : List FactorValue :=
  p.factors.filterMap (fun a => (p.slot.factors[a.1]?).map (fun f =>
    { index := some a.1, huber := if f.robust then some (Rounding.widen f.huber) else none,
      r := packetResidual p env seed a.1 f a.2 }))

/-- The active factors of a problem. -/
def factorValues (p : SrgProblem) (env : Env) (seed : Nat) : List FactorValue :=
  packetValues p env seed ++ (match p.ego with | some w => egoValues p env w | none => [])

end Sys2Proof.Machine
end

