-- ==== Sys2Proof/Machine/Solver.lean ====
section
/-!
DEFINITION. What a Serge unit computes: the damped Gauss–Newton loop of R303 operation by operation over the factors of
`Machine/Factors.lean`, and what its end leaves (spec/13_serge_solver.md R296, R303 to R312, R315, R316).
-/

namespace Sys2Proof.Machine

open Sys2Proof

/-! ### FP64 (R308) -/

/-- The sign cleared. -/
def f64Abs (a : F64) : F64 := a &&& 0x7FFFFFFFFFFFFFFF

/-- a is less than or equal to b; false where either is a NaN. -/
def FpNum.le : FpNum → FpNum → Bool
  | .nan, _ => false
  | _, .nan => false
  | .inf n, .inf k => n || !k
  | .inf n, .fin _ _ => n
  | .fin _ _, .inf k => !k
  | .fin _ x, .fin _ y => !y.lt x

/-- a ≤ b. -/
def f64Le (a b : F64) : Bool := (f64Num a).le (f64Num b)

/-- a < b. -/
def f64Lt (a b : F64) : Bool := f64Le a b && !f64Le b a

/-- The larger of two values; the second where the first is a NaN. -/
def f64Max (a b : F64) : F64 := if f64Le b a then a else b

/-- An FP32 value widened exactly (R308). -/
def widen (v : F32) : F64 := Rounding.widen v

/-- An FP64 value rounded to FP32 (R308). -/
def narrow (v : F64) : F32 := srgR.narrow v

/-! ### Blocks (R296) -/

/-- A parameter of the slot in FP64, by its place in SlotRec.params. -/
def slotParam (s : SlotRec) (i : Nat) : F64 := widen (s.params.getD i 0)

/-- PIVOT_TAU; 0 means 10^−12 (R295). -/
def slotTau (s : SlotRec) : F64 := if s.params.getD 6 0 &&& 0x7FFFFFFF = 0 then 0x3D719799812DEA11 else slotParam s 6

/-- The blocks that a solve changes. -/
def freeBlocks (p : SrgProblem) : List (Nat × VarBlock) :=
  (p.slot.blocks.zipIdx.map (fun b => (b.2, b.1))).filter (fun b => !p.fixed.contains b.1)

/-- The scalar variables of a solve. -/
def scalarCount (p : SrgProblem) : Nat := (freeBlocks p).foldl (fun n b => n + blockDim b.2.type) 0

/-- SCALE of each component of a step (R296). -/
def stepScales (p : SrgProblem) : List F64 := (freeBlocks p).flatMap (fun b => List.replicate (blockDim b.2.type) (widen b.2.scale))

/-- The scalars of a solve in order: each with its block, its place in it, and the block's dimension. -/
def scalarsOf (p : SrgProblem) : List (Nat × Nat × Nat) :=
  (freeBlocks p).flatMap (fun b => (List.range (blockDim b.2.type)).map (fun c => (b.1, c, blockDim b.2.type)))

/-- The stored values of the blocks at an iterate. -/
def envAt (x : Bank (List F64)) : Env := fun b => (bget [] b x).map dcon

/-- The blocks at an iterate with a unit step along one scalar (R296). -/
def seedAt (s : SlotRec) (x : Bank (List F64)) (e : Nat × Nat × Nat) : Env := fun b =>
  let w := envAt x b
  if b = e.1 then
    dretract (blockType s b) w ((List.range e.2.2).map (fun i => if i = e.2.1 then { v := 0, d := one64 } else dcon 0))
  else w

/-- The iterate after a step (R296). -/
def retract (p : SrgProblem) (x : Bank (List F64)) (step : List F64) : Bank (List F64) :=
  ((freeBlocks p).foldl (fun a b =>
    let n := blockDim b.2.type
    let w := dretract b.2.type (envAt x b.1) ((a.2.take n).map dcon)
    (bput [] b.1 (w.map (·.v)) a.1, a.2.drop n)) (x, step)).1

/-! ### The cost and its derivatives (R297, R303) -/

/-- A factor's residual as numbers. -/
def residualOf (f : FactorValue) : List F64 := f.r.map (·.v)

/-- The square of the norm of a factor's residual. -/
def square (r : List F64) : F64 := srgDot r r

/-- A factor's square through its loss (R297): past the threshold k of a Huber loss, 2k|r| − k². -/
def lossOf (huber : Option F64) (r : List F64) : F64 :=
  let s := square r
  match huber with
  | none => s
  | some k =>
    let n := srgR.sqrt64 s
    if f64Le n k then s else srgR.sub64 (srgR.mul64 two64 (srgR.mul64 k n)) (srgR.mul64 k k)

/-- The weight of a factor in H and g (R303): 1, or k/|r| past the threshold of its loss. -/
def weightOf (huber : Option F64) (r : List F64) : F64 :=
  match huber with
  | none => one64
  | some k => let n := srgR.sqrt64 (square r); if f64Le n k then one64 else srgR.div64 k n

/-- The active factors at an iterate. -/
def valuesAt (p : SrgProblem) (x : Bank (List F64)) : List FactorValue := factorValues p (envAt x) 0

/-- The cost (R303): half the sum over the factors. -/
def costOf (fs : List FactorValue) : F64 :=
  srgR.mul64 half64 (srgSum 0 (fs.map (fun f => (lossOf f.huber (residualOf f), one64))))

/-- The derivative of a component of the i-th factor's residual. -/
def slopeAt (fs : List FactorValue) (i component : Nat) : F64 :=
  match (fs.drop i).head? with | some v => (dat v.r component).d | none => 0

/-- The rows of the system at an iterate (R303): of each component of a residual its factor's weight, its value and its
derivatives along the scalars. -/
def rowsAt (p : SrgProblem) (x : Bank (List F64)) : List (F64 × F64 × List F64) :=
  let cols := (scalarsOf p).zipIdx.map (fun e => factorValues p (seedAt p.slot x e.1) e.2)
  (valuesAt p x).zipIdx.flatMap (fun f =>
    let w := weightOf f.1.huber (residualOf f.1)
    (residualOf f.1).zipIdx.map (fun r =>
      (w, r.1, cols.map (fun c => slopeAt c f.2 r.2))))

/-- H = Jᵀ W J. -/
def hessian (n : Nat) (rows : List (F64 × F64 × List F64)) : List (List F64) :=
  (List.range n).map (fun i => (List.range n).map (fun j =>
    srgSum 0 (rows.map (fun r => (srgR.mul64 r.1 (r.2.2.getD i 0), r.2.2.getD j 0)))))

/-- g = Jᵀ W r. -/
def gradient (n : Nat) (rows : List (F64 × F64 × List F64)) : List F64 :=
  (List.range n).map (fun i => srgSum 0 (rows.map (fun r => (srgR.mul64 r.1 (r.2.2.getD i 0), r.2.1))))

/-- H at an iterate. -/
def hessianAt (p : SrgProblem) (x : Bank (List F64)) : List (List F64) := hessian (scalarCount p) (rowsAt p x)

/-- g at an iterate. -/
def gradientAt (p : SrgProblem) (x : Bank (List F64)) : List F64 := gradient (scalarCount p) (rowsAt p x)

/-- The damping diagonal D (R303): diag(H) with each entry raised to DIAG_FLOOR. -/
def damping (s : SlotRec) (h : List (List F64)) : List F64 := h.zipIdx.map (fun r => f64Max (r.1.getD r.2 0) (slotParam s 7))

/-- H + λD. -/
def damped (s : SlotRec) (h : List (List F64)) (lambda : F64) : List (List F64) :=
  h.zipIdx.map (fun r => r.1.zipIdx.map (fun e =>
    if e.2 = r.2 then srgFma lambda (f64Max e.1 (slotParam s 7)) e.1 else e.1))

/-! ### The loop (R303 to R305) -/

/-- Where the loop stands between two operations. -/
inductive SolvePhase where
  | evaluate | assemble | factor | step
  deriving DecidableEq, Repr

/-- A solve between two operations: x, λ, the cost, the iterations begun, `regularised`, the flagged pivots of the iteration
and of the window, the iterate and the λ of its last factor, and its end. -/
structure SolveLoop where
  x : Bank (List F64)
  lambda : F64
  cost : F64
  it : Nat
  regularised : Bool
  tries : Nat
  flags : Nat
  factorAt : Option (Bank (List F64) × F64)
  phase : SolvePhase
  ended : Option SolveEnd
  deriving DecidableEq, Repr

/-- The loop ends. -/
def SolveLoop.finish (l : SolveLoop) (e : SolveEnd) : SolveLoop := { l with ended := some e }

/-- What a factorisation comes to: a value out of range, a flagged pivot, or a factor. -/
inductive Factored where
  | bad | flagged | good
  deriving DecidableEq, Repr

/-- A pivot is flagged (R304): it is zero, negative, or smaller than PIVOT_TAU times the largest diagonal entry. -/
def flaggedPivot (least pivot : F64) : Bool := f64Le pivot 0 || f64Lt pivot least

/-- The largest diagonal entry of a matrix. -/
def topDiagonal (a : List (List F64)) : F64 := a.zipIdx.foldl (fun m r => f64Max m (r.1.getD r.2 0)) 0

/-- The columns in turn: the first flagged pivot abandons the factorisation (R304), a value out of range discards the solve
(R305). -/
def factorTest (least : F64) : List LdlCol → Factored
  | [] => .good
  | c :: rest =>
    if !f64Finite c.pivot then .bad
    else if flaggedPivot least c.pivot then .flagged
    else if c.col.all f64Finite then factorTest least rest else .bad

/-- The factorisation of a matrix. -/
def factorise (s : SlotRec) (a : List (List F64)) : Factored := factorTest (srgR.mul64 (slotTau s) (topDiagonal a)) (ldlt a)

/-- The cost of an iterate; none where a residual or the cost is out of range (R305). -/
def evaluate (p : SrgProblem) (x : Bank (List F64)) : Option F64 :=
  let fs := valuesAt p x
  let c := costOf fs
  if fs.all (fun f => (residualOf f).all f64Finite) && f64Finite c then some c else none

/-- The greatest magnitude of a list. -/
def maxAbs (l : List F64) : F64 := l.foldl (fun m v => f64Max m (f64Abs v)) 0

/-- cost = evaluate(x). -/
def solveEvaluate (p : SrgProblem) (l : SolveLoop) : SolveLoop :=
  match evaluate p l.x with
  | some c => { l with cost := c, phase := .assemble }
  | none => l.finish .discarded

/-- An iteration begins: H and g are assembled, and the gradient test is made; past MAX_ITER the solve ends. -/
def solveAssemble (p : SrgProblem) (l : SolveLoop) : SolveLoop :=
  if p.slot.maxIter ≤ l.it then l.finish .maxIter
  else
    let l := { l with it := l.it + 1, tries := 0 }
    let rows := rowsAt p l.x
    let g := gradient (scalarCount p) rows
    let h := hessian (scalarCount p) rows
    if !rows.all (fun r => r.2.2.all f64Finite) || !g.all f64Finite || !h.all (fun r => r.all f64Finite) then
      l.finish .discarded
    else if f64Le (maxAbs g) (slotParam p.slot 0) then l.finish .converged
    else { l with phase := .factor }

/-- t_fact and t_solve of R306 in ns. -/
def factorNs (s : SlotRec) : Nat := (Config.factorFlops s + 127) / 128 + 24 * s.supernodes
def solveNs (s : SlotRec) : Nat := (4 * s.nnzL + 127) / 128 + 16 * s.supernodes

/-- A factorisation: on a flagged pivot λ rises, and the unit tries again while it may (R303, R304). `left` gives the time
left at the n-th flagged pivot of the window. -/
def solveFactor (p : SrgProblem) (left : Nat → Nat) (l : SolveLoop) : SolveLoop :=
  match factorise p.slot (damped p.slot (hessianAt p l.x) l.lambda) with
  | .bad => l.finish .discarded
  | .good => { l with phase := .step, factorAt := some (l.x, l.lambda) }
  | .flagged =>
    let t := { l with regularised := true, lambda := f64Max (srgR.mul64 0x4010000000000000 l.lambda) (slotParam p.slot 5),
                      tries := l.tries + 1, flags := l.flags + 1 }
    if t.tries = 3 then t.finish .pivots
    else if left l.flags < factorNs p.slot + solveNs p.slot then t.finish .time
    else t

/-- The floor of λ (R303, R304). -/
def lambdaFloor (s : SlotRec) (regularised : Bool) : F64 := if regularised then slotParam s 5 else slotParam s 4

/-- The step test or the cost test of R303 holds. -/
def stepSmall (p : SrgProblem) (d : List F64) (cost new : F64) : Bool :=
  (d.zip (stepScales p)).all (fun e => f64Le (srgR.div64 (f64Abs e.1) e.2) (slotParam p.slot 1)) ||
  f64Le (srgR.sub64 cost new) (srgR.mul64 (slotParam p.slot 2) cost)

/-- A step is computed and evaluated, and taken where it gains (R303). -/
def solveStep (p : SrgProblem) (l : SolveLoop) : SolveLoop :=
  let h := hessianAt p l.x
  let g := gradientAt p l.x
  let d := ldlSolve (ldlt (damped p.slot h l.lambda)) (g.map Rounding.neg64)
  let y := retract p l.x d
  match (if d.all f64Finite then evaluate p y else none) with
  | none => l.finish .discarded
  | some c =>
    let pred := srgR.sub64 (Rounding.neg64 (srgDot g d)) (srgR.mul64 half64 (srgDot d (matVec h d)))
    let gain := srgR.div64 (srgR.sub64 l.cost c) pred
    let floor (v : F64) : F64 := f64Max v (lambdaFloor p.slot l.regularised)
    if f64Lt 0 gain then
      if stepSmall p d l.cost c then { l with x := y, cost := c }.finish .converged
      else
        let lam := if f64Lt 0x3FE8000000000000 gain then srgR.div64 l.lambda 0x4008000000000000
          else if f64Lt gain 0x3FD0000000000000 then srgR.mul64 l.lambda two64 else l.lambda
        { l with x := y, cost := c, lambda := floor lam, phase := .assemble }
    else { l with lambda := floor (srgR.mul64 l.lambda 0x4010000000000000), phase := .assemble }

/-- One operation of the loop. -/
def solveOp (p : SrgProblem) (left : Nat → Nat) (l : SolveLoop) : SolveLoop :=
  match l.phase with
  | .evaluate => solveEvaluate p l
  | .assemble => solveAssemble p l
  | .factor => solveFactor p left l
  | .step => solveStep p l

/-- At most n operations: the loop stops at its end. -/
def solveOps (p : SrgProblem) (left : Nat → Nat) : Nat → SolveLoop → SolveLoop
  | 0, l => l
  | n + 1, l => if l.ended.isSome then l else solveOps p left n (solveOp p left l)

/-- As many operations as a solve can have: the evaluation, and for each iteration its assembly, three factorisations and
its step, and the last assembly. -/
def solveBound (s : SlotRec) : Nat := 5 * s.maxIter + 2

/-! ### What a solve reads (R296, R301, R303, R310, R311, R316) -/

/-- The blocks that a solve holds (R296, R301): by their records, by a packet, or by EXTR_ADAPT or TOFF_ADAPT. -/
def fixedBlocks (s : SlotRec) (held : List Nat) (limits : List (Nat × CalLimits)) : List Nat :=
  (s.blocks.zipIdx.filter (fun b => b.1.fixed || held.contains b.2 ||
    (match b.1.calStream.bind (fun n => assoc n limits) with
     | some l => if b.1.type = 6 then !l.toffAdapt else !l.extrAdapt
     | none => false))).map (·.2)

/-- A factor touches a block with VALIDATION set (R316). -/
def validates (s : SlotRec) (f : FactorRec) : Bool :=
  f.blocks.any (fun b => match s.blocks[b]? with | some v => v.validation | none => false)

/-- The active factors of a solve with their measurements (R301, R316). -/
def activeFactors (s : SlotRec) (active : Bank (Option (List F64))) : List (Nat × List F64) :=
  active.filterMap (fun a => match a.2, s.factors[a.1]? with
    | some m, some f => if validates s f then none else some (a.1, m)
    | _, _ => none)

/-- The samples of a role in a list of values. -/
def roleValue (r : Nat) (vs : List (Nat × F32)) : Option F32 := (vs.find? (fun v => v.1 = r)).map (·.2)

/-- A wheel speed under the direction of travel of its frame (R311): with its sign, and 0 at standstill. -/
def wheelValue (vs : List (Nat × F32)) (v : F32) : F64 :=
  match roleValue 9 vs with
  | none => widen v
  | some dir => if f64Lt (widen dir) 0 then Rounding.neg64 (f64Abs (widen v))
                else if f64Lt 0 (widen dir) then f64Abs (widen v) else 0

/-- What a sample gives (R311), by role: wheel speeds and the vehicle speed under the direction of travel, the road-wheel
angle, the yaw rate, and of a GNSS stream its position with GNSS_ALIGN set, and its speed. -/
def sampleMeasures (s : SlotRec) (x : EgoSample) : List (Nat × List F64) :=
  x.values.filterMap (fun v =>
    if v.1 = 5 then some (5, [srgR.div64 (widen v.2) (widen (s.geometry.getD 3 0))])
    else if v.1 = 6 ∨ v.1 = 8 then some (v.1, [widen v.2])
    else if v.1 = 1 ∨ v.1 = 2 ∨ v.1 = 3 ∨ v.1 = 4 ∨ v.1 = 7 then some (v.1, [wheelValue x.values v.2])
    else none) ++
  (if x.geo.length = 3 then (if s.gnssAlign then [(32, x.geo)] else [])
   else if x.geo.length = 2 then [(33, x.geo.take 1)] else [])

/-- A sample that no newer one of its stream has followed is held at b (R65, R310). -/
def Dev.heldSample (d : Dev) (src : Source) (b : Nanos) (x : EgoSample) : Bool :=
  decide (x.t + d.time.minorNs ≤ b) && decide (x.arrival + d.time.minorNs ≤ b + d.cutoffNs src)

/-- The measurements that a sample brings to the solve for b (R310): at its own time, or at the oldest boundary of the
window where it is older; a held sample at b. -/
def Dev.measuresOf (d : Dev) (s : SlotRec) (src : Source) (b : Nanos) (x : EgoSample) : List EgoMeasure :=
  let oldest := b - (s.nw - 1) * d.time.minorNs
  let held := d.heldSample src b x
  (sampleMeasures s x).map (fun m => { stream := x.stream, t := x.t, role := m.1, at_ := if held then b else max x.t oldest, values := m.2,
                                       held := if held then b - x.t else 0 })

/-- The roles 16 to 21 of a sample. -/
def imuValues (x : EgoSample) : Nat × List (Nat × F32) := (x.t, x.values.filter (fun v => decide (16 ≤ v.1) && decide (v.1 ≤ 21)))

/-- The IMU samples of a stream for the factor that joins b − P/N and b (R310). -/
def Dev.imuRun (d : Dev) (n : Nat) (src : Source) (b : Nanos) : ImuRun :=
  let lo := b - d.time.minorNs
  let here := d.muslin.ego.filter (fun x => x.stream = n && decide (x.arrival ≤ b + d.cutoffNs src))
  let turn := match d.cal.activeValue n with | some v => v.q | none => { w := 0x3F800000, x := 0, y := 0, z := 0 }
  { stream := n, turn := turn, before := (newestOf (here.filter (fun x => decide (x.t ≤ lo)))).map imuValues,
    samples := (sortBy (fun a c => decide (a.t < c.t)) (here.filter (fun x => decide (lo < x.t) && decide (x.t ≤ b)))).map imuValues }

/-- The streams of a kind that feed a slot. -/
def Dev.feeding (d : Dev) (s : SlotRec) (f : StreamEntry → Bool) : List Nat :=
  s.inputs.filter (fun n => match d.entry n with | some e => f e | none => false)

/-- The wheel-speed roles that feed a slot (R309). -/
def Dev.wheelRoles (d : Dev) (s : SlotRec) : List Nat :=
  let roles (e : StreamEntry) : List Nat := match e.src with
    | .can f => ((d.image.streams.sigs.drop f.sigFirst).take f.sigCount).map (·.role)
    | _ => []
  [1, 2, 3, 4].filter (fun r => !(d.feeding s (fun e => (roles e).contains r)).isEmpty)

/-- The boundaries, the measurements and the first fix that the solve for b adds to an EGO slot's window (R309 to R311): a sample
held at b leaves its earlier place. -/
def Dev.widenWindow (d : Dev) (s : SlotRec) (src : Source) (b block : Nat) (w : EgoWindow) : EgoWindow :=
  let used := s.inputs.filterMap (fun n => (d.entry n).map (fun e => (n, e, d.egoUsed n e src b)))
  let imus := used.filterMap (fun u => match u.2.1.src with | .imu _ => some (d.imuRun u.1 src b) | _ => none)
  let new := used.flatMap (fun u => u.2.2.flatMap (d.measuresOf s src b))
  let abs : List EgoMeasure := match src with
    | .burlap => []
    | .main => match d.serge.absPose with
      | some (t, v) => [{ stream := 63, t := t, role := 64, at_ := t, values := v, held := 0 }]
      | none => []
  let kept := w.measures.filter (fun m => !new.any (fun h => decide (h.stream = m.stream) && decide (h.t = m.t) && decide (h.role = m.role)))
  { w with bounds := { b := b, block := block, imus := imus.filter (fun r => r.before.isSome || !r.samples.isEmpty) } :: w.bounds,
           measures := kept ++ new ++ abs,
           tangent := match w.tangent with
             | some t => some t
             | none => (new.find? (fun m => decide (m.role = 32))).map (·.values) }

/-- The positions of a slot's ring that no boundary takes (R309): a solve leaves them. -/
def emptyRing (s : SlotRec) (w : EgoWindow) : List Nat :=
  (blocksOf s 4).filter (fun b => !w.bounds.any (fun e => decide (e.block = b)))

/-- The problem of a slot as a solve reads it now. -/
def Dev.problemOf (d : Dev) (g : Nat) (s : SlotRec) : SrgProblem :=
  let x := d.srgSlot g
  let ego := decide (s.cls = .ego)
  { slot := s, noise := d.sergeDefs.noise, factors := activeFactors s x.active, extAt := x.extAt,
    fixed := fixedBlocks s x.heldBlocks d.cal.limits ++ (if ego then emptyRing s x.window else []),
    cal := d.cal.active.records.map (fun e => (e.1, e.2.value)),
    warp := ((s.blocks.filterMap (·.calStream)).eraseDups).filterMap (fun n =>
      match d.entry n with
      | some e => (assoc e.port d.image.warp).map (fun m => (n, m))
      | none => none),
    imus := d.feeding s (fun e => match e.src with | .imu _ => true | _ => false), wheels := d.wheelRoles s,
    minor := d.time.minorNs, ego := if ego then some x.window else none }

/-! ### The ring (R309, R313) -/

/-- A problem with some factors alone: the window of an EGO slot, and no packets. -/
def egoPart (p : SrgProblem) (w : EgoWindow) : SrgProblem := { p with factors := [], ego := some w }

/-- The factors that touch the oldest boundary of a window (R309): the prior, the IMU factors to the next one, and the
measurements before it. -/
def oldestPart (w : EgoWindow) : EgoWindow :=
  match w.bounds.reverse with
  | a :: c :: _ => { w with bounds := [c, a], measures := w.measures.filter (fun m => decide (m.at_ < c.b)) }
  | _ => w

/-- The PRIOR factor after the oldest boundary of a window is marginalised at an iterate (R309), by Schur complement. -/
def marginalise (p : SrgProblem) (w : EgoWindow) (x : Bank (List F64)) : Option EgoPrior :=
  match w.bounds.getLast? with
  | none => w.prior
  | some a =>
    let q := egoPart p (oldestPart w)
    let order := (scalarsOf q).filter (fun e => decide (e.1 = a.block)) ++ (scalarsOf q).filter (fun e => decide (e.1 ≠ a.block))
    let cols := order.zipIdx.map (fun e => factorValues q (seedAt q.slot x e.1) e.2)
    let nonholo (f : FactorValue × Nat) : Bool := decide (1 < w.bounds.length) && decide (f.2 + 2 = (valuesAt q x).length)
    let rows := ((valuesAt q x).zipIdx.filter (fun f => !nonholo f)).flatMap (fun f =>
      let wt := weightOf f.1.huber (residualOf f.1)
      (residualOf f.1).zipIdx.map (fun r =>
        (wt, r.1, cols.map (fun c => slopeAt c f.2 r.2))))
    let n := (order.filter (fun e => decide (e.1 = a.block))).length
    let s := schur n (hessian order.length rows) (gradient order.length rows)
    let rest := order.drop n
    let touched := ((rest.zipIdx.filter (fun e => (s.1.getD e.2 []).any (fun v => decide ((f64Value v).m ≠ 0)))).map (fun e => e.1.1)).eraseDups
    let keep := (rest.zipIdx.filter (fun e => touched.contains e.1.1)).map (·.2)
    let blocks := ((rest.filter (fun e => touched.contains e.1)).map (·.1)).eraseDups
    some { blocks := blocks.map (fun b => (b, bget [] b x)), lam := keep.map (fun i => keep.map (fun j => mat s.1 i j)),
           eta := keep.map (fun i => s.2.getD i 0) }

/-- The window after its oldest boundary has been marginalised. -/
def dropOldest (p : SrgProblem) (w : EgoWindow) (x : Bank (List F64)) : EgoWindow :=
  match w.bounds.reverse with
  | _ :: c :: rest =>
    { w with bounds := (({ c with imus := [] } : EgoBoundary) :: rest).reverse,
             measures := w.measures.filter (fun m => decide (c.b ≤ m.at_)), prior := marginalise p w x }
  | _ => { w with bounds := [], measures := [], prior := marginalise p w x }

/-- The state at b predicted from the one before by the IMU factor (R309): moved by its preintegrated samples. -/
def egoPredict (p : SrgProblem) (w : EgoWindow) (x : Bank (List F64)) : List F64 :=
  match w.bounds with
  | e :: a :: _ =>
    let s := bget [] a.block x
    match e.imus[Config.predictBy e.imus.length]? with
    | some r =>
      let m := preintegrate r (biasOf p (envAt x) r.stream) a.b e.b
      let i := s.map dcon
      let h := dseconds ((e.b : Int) - a.b)
      let t := dvadd (dvadd (dvadd (poseT i) (dscale h (stateV i))) (dscale (dcon half64) (dscale h (fallen h)))) (drot (poseQ i) m.t)
      let v := dvadd (dvadd (stateV i) (fallen h)) (drot (poseQ i) m.v)
      (dqunit (dqmul (poseQ i) m.q) ++ t ++ v).map (·.v)
    | none => s.zipIdx.map (fun c => Config.coast s c.2)
  | _ => []

/-- The mean of numbers. -/
def srgMean (l : List F64) : F64 := srgR.div64 (srgSum 0 (l.map (fun v => (v, one64)))) (srgR.ratio64 l.length 1)

/-- The state at which an EGO problem re-initialises (R130, R313): at the origin of its odometry frame, roll and pitch from the
mean specific force over the interval, yaw 0, and the velocity along x from role 7 or from the mean of the wheel speeds. -/
def egoInit (w : EgoWindow) : List F64 :=
  match w.bounds.head? with
  | none => []
  | some e =>
    let forces := e.imus.flatMap (fun r =>
      r.samples.map (fun s => inVehicle r.turn [dcon 0, dcon 0, dcon 0] 16 s.2))
    let f := if forces.isEmpty then [0, 1, 2].map Config.restForce
      else [0, 1, 2].map (fun i => srgMean (forces.map (fun v => (dat v i).v)))
    let c (i : Nat) : F64 := f.getD i 0
    let half (a : F64) : F64 := srgR.mul64 half64 a
    let roll := half (srgR.atan264 (c 1) (c 2))
    let pitch := half (srgR.atan264 (Rounding.neg64 (c 0)) (norm64 srgR [c 1, c 2]))
    let q := quatMul64 srgR [srgR.cos64 pitch, 0, srgR.sin64 pitch, 0] [srgR.cos64 roll, srgR.sin64 roll, 0, 0]
    let speeds (r : List Nat) : List F64 := (w.measures.filter (fun m => r.contains m.role)).map (fun m => m.values.headD 0)
    let v := if !(speeds [7]).isEmpty then (speeds [7]).getLastD 0
      else if !(speeds [1, 2, 3, 4]).isEmpty then srgMean (speeds [1, 2, 3, 4]) else 0
    q ++ [0, 0, 0] ++ rotate64 srgR q [v, 0, 0]

/-! ### What its end leaves (R308, R312, R315, R316) -/

/-- The scale of a covariance (R312, R316): the larger of 1 and 2 × cost / (residuals − scalar variables). -/
def covScale (cost : F64) (residuals scalars : Nat) : F64 :=
  if scalars < residuals then
    f64Max one64 (srgR.div64 (srgR.mul64 two64 cost) (srgR.ratio64 (residuals - scalars : Nat) 1))
  else Config.scaleOpen cost residuals scalars

/-- The residuals of some factors. -/
def residualCount (fs : List FactorValue) : Nat := fs.foldl (fun n f => n + f.r.length) 0

/-- The scale at the returned iterate. -/
def scaleAt (p : SrgProblem) (l : SolveLoop) : F64 := covScale l.cost (residualCount (valuesAt p l.x)) (scalarCount p)

/-- The newest boundary of a problem's window. -/
def newestBound (p : SrgProblem) : Option EgoBoundary := p.ego.bind (·.bounds.head?)

/-- The stored words of the newest state: orientation, position, velocity (R296). -/
def newestState (p : SrgProblem) (x : Bank (List F64)) : List F64 :=
  match newestBound p with | some e => bget [] e.block x | none => []

/-- The angular rate of the newest state (R66, R312): the mean bias-corrected one over the IMUs at b, in the odometry frame. -/
def newestRate (p : SrgProblem) (x : Bank (List F64)) : List F64 :=
  match newestBound p with
  | some e => (drot ((newestState p x).take 4 |>.map dcon) (boundaryRate p (envAt x) e)).map (·.v)
  | none => [0, 0, 0]

/-- The factorisation at λ = 0 for the marginal covariance flags a pivot (R312). -/
def marginalFlag (p : SrgProblem) (l : SolveLoop) : Bool :=
  decide (factorise p.slot (damped p.slot (hessianAt p l.x) 0) = .flagged)

/-- The places of a block's scalars among those of a solve. -/
def placesOf (p : SrgProblem) (b : Nat) : List Nat :=
  ((scalarsOf p).zipIdx.filter (fun e => decide (e.1.1 = b))).map (·.2)

/-- The variances at some places of a factored matrix's inverse (R312, R316), scaled. -/
def variancesAt (f : List LdlCol) (scale : F64) (places : List Nat) : List F64 :=
  places.map (fun i => srgR.mul64 scale ((ldlInverse f i).getD i 0))

/-- The largest of variances. -/
def topVariance (l : List F64) : F64 := l.foldl f64Max 0

/-- SIG_POS, SIG_YAW and SIG_VEL (R312): of the state at b, whose rotations are about the vehicle's axes (R296). -/
def egoSigma (p : SrgProblem) (l : SolveLoop) : List F32 :=
  let lam := if marginalFlag p l then slotParam p.slot 5 else 0
  let f := ldlt (damped p.slot (hessianAt p l.x) lam)
  let v := match newestBound p with | some e => variancesAt f (scaleAt p l) (placesOf p e.block) | none => []
  [topVariance ((v.drop 3).take 3), v.getD 2 0, topVariance (v.drop 6)].map (fun x => narrow (srgR.sqrt64 x))

/-- The last factor of a solve. -/
def finalFactor (p : SrgProblem) (l : SolveLoop) : Option (List LdlCol) :=
  l.factorAt.map (fun e => ldlt (damped p.slot (hessianAt p e.1) e.2))

/-- The covariance of a SCAN slot's pose, row by row, from the factor (R315). -/
def scanCovariance (p : SrgProblem) (l : SolveLoop) : List F64 :=
  (List.range (scalarCount p)).flatMap (fun i => match finalFactor p l with
    | some f => ldlInverse f i
    | none => (List.range (scalarCount p)).map (Config.noFactorVariance i))

/-- The extrinsic block's stream of a PT_PLANE factor, which is its lidar's (R297, R315). -/
def planeStream (s : SlotRec) (i : Nat) : Option Nat :=
  match s.factors[i]? with
  | some f => if f.kind = 8 then f.blocks.findSome? (fun b => (s.blocks[b]?).bind (·.calStream)) else none
  | none => none

/-- A residual lies within its factor's HUBER. -/
def insideHuber (s : SlotRec) (i : Nat) (r : List F64) : Bool :=
  match s.factors[i]? with | some f => f64Le (srgR.sqrt64 (square r)) (widen f.huber) | none => false

/-- The root mean square of numbers. -/
def rmsOf (l : List F64) : F32 := narrow (srgR.sqrt64 (srgR.div64 (square l) (srgR.ratio64 l.length 1)))

/-- A fraction as U0.16, at most 0xFFFF. -/
def fraction16 (num den : Nat) : Nat := if den = 0 then 0 else min 0xFFFF (divRound 13 (num * 65536) den)

/-- The consistency values of a SCAN solve (R315): for each lidar stream the root mean square of its whitened residuals, and
the fraction of its factors inside HUBER. -/
def scanConsist (p : SrgProblem) (x : Bank (List F64)) : List (Nat × F32 × Nat) :=
  let rs := (valuesAt p x).filterMap (fun f => f.index.bind (fun i => (planeStream p.slot i).map (fun n => (n, i, residualOf f))))
  ((rs.map (·.1)).eraseDups).map (fun n =>
    let mine := rs.filter (fun r => decide (r.1 = n))
    (n, rmsOf (mine.flatMap (fun r => r.2.2)),
      fraction16 (mine.filter (fun r => insideHuber p.slot r.2.1 r.2.2)).length mine.length))

/-- The streams whose calibration a slot's blocks mirror (R296). -/
def calStreams (s : SlotRec) : List Nat := (s.blocks.filterMap (·.calStream)).eraseDups

/-- The REPROJ factors of a camera whose landmarks are tied to lidar planes (R316). -/
def tiedFactors (p : SrgProblem) (n : Nat) : List (Nat × FactorRec × List F64) :=
  p.factors.filterMap (fun a => match p.slot.factors[a.1]? with
    | some f =>
      if f.kind = 9 && decide (reprojStream p.slot f = some n) && (factorBlocks p.slot f 1).any (Config.tiedLandmark p) then
        some (a.1, f, a.2)
      else none
    | none => none)

/-- The consistency values of a CALIB solve (R316): of each camera, the root mean square reprojection error in base-level pixels
and the fraction of the factors within HUBER. -/
def Dev.calConsist (d : Dev) (p : SrgProblem) (x : Bank (List F64)) : List (Nat × F32 × Nat) :=
  ((calStreams p.slot).filter (fun n => match d.entry n with | some e => decide (e.kind = .rowBand) | none => false)).map (fun n =>
    let fs := tiedFactors p n
    let errs := fs.filterMap (fun a => (reprojError p (envAt x) a.2.1 a.2.2).map (fun e => square (e.map (·.v))))
    let rms := narrow (srgR.sqrt64 (srgMean errs))
    let inside := fs.filter (fun a => insideHuber p.slot a.1 ((packetResidual p (envAt x) 0 a.1 a.2.1 a.2.2).map (·.v)))
    (n, rms, fraction16 inside.length fs.length))

/-- A stream's calibration as an iterate holds it, rounded as it leaves the unit (R308); a block that is held keeps its
value. -/
def calValue (p : SrgProblem) (x : Bank (List F64)) (n : Nat) (old : CalRecord) : CalRecord :=
  p.slot.blocks.zipIdx.foldl (fun v b =>
    if decide (b.1.calStream ≠ some n) || p.fixed.contains b.2 then v
    else
      let w := bget [] b.2 x
      let f (i : Nat) : F32 := narrow (w.getD i 0)
      if b.1.type = 6 then
        { v with toffNs := (Dyadic.mul (f64Value (w.getD 0 0)) { m := 1000000000, e := 0 }).nearest (Config.roundsUp 14) }
      else if b.1.type = 3 then
        { v with q := { w := f 0, x := f 1, y := f 2, z := f 3 }, t := { x := f 4, y := f 5, z := f 6 } }
      else v) old

/-- The smallest whole number whose square is at least a number. -/
def ceilSqrt (n : Nat) : Nat := if n.sqrt * n.sqrt = n then n.sqrt else n.sqrt + 1

/-- The norm of the difference of two translations in nm, rounded up (R139). -/
def shiftNm (a b : Vec3) : Nat :=
  let sq (x y : F32) : Dyadic := let v := (f32Value x).add (f32Value y).neg; v.mul v
  let s := ((sq a.x b.x).add (sq a.y b.y)).add (sq a.z b.z)
  ceilSqrt (-(Dyadic.neg (s.mul { m := 1000000000000000000, e := 0 })).floor).toNat

/-- How far two calibration values lie apart (R139). -/
def calDistance (a b : CalRecord) : CalMeasure :=
  { r := if a.q = b.q then 0 else rotationNrad a.q b.q, t := shiftNm a.t b.t, toff := (a.toffNs - b.toffNs).natAbs }

/-- A number as a whole number of some unit, rounded up. -/
def wholeUp (v : F64) (perUnit : Nat) : Nat :=
  (-(Dyadic.neg ((f64Value v).mul { m := perUnit, e := 0 })).floor).toNat

/-- The one-sigma uncertainty of a stream's rotation in nrad (0), translation in nm (1) or time offset in ns (2), rounded up
(R316): from the marginals of its blocks. -/
def calSigma (p : SrgProblem) (l : SolveLoop) (n what : Nat) : Nat :=
  let mine := (freeBlocks p).filter (fun b => decide (b.2.calStream = some n) && decide (b.2.type = if what = 2 then 6 else 3))
  match mine.head? with
  | none => 0
  | some b =>
    let places := placesOf p b.1
    let places := match what with | 0 => places.take 3 | 1 => places.drop 3 | _ => places
    let vs := match finalFactor p l with
      | some f => variancesAt f (scaleAt p l) places
      | none => places.map (fun i => Config.noFactorVariance i i)
    wholeUp (srgR.sqrt64 (topVariance vs)) 1000000000

/-- A problem over one VALIDATION keyframe alone (R316): the held-out factors that touch it, with the calibration held. -/
def heldOut (p : SrgProblem) (s : SrgSlot) (key : Nat) : SrgProblem :=
  { p with factors := s.active.filterMap (fun a => match a.2, p.slot.factors[a.1]? with
             | some m, some f => if f.blocks.contains key then some (a.1, m) else none
             | _, _ => none),
           fixed := (List.range p.slot.blocks.length).filter (fun b => decide (b ≠ key)) }

/-- A Gauss–Newton step. -/
def gaussStep (p : SrgProblem) (x : Bank (List F64)) : Bank (List F64) :=
  retract p x (ldlSolve (ldlt (hessianAt p x)) ((gradientAt p x).map Rounding.neg64))

/-- n Gauss–Newton steps. -/
def gaussSteps (p : SrgProblem) : Nat → Bank (List F64) → Bank (List F64)
  | 0, x => x
  | n + 1, x => gaussSteps p n (gaussStep p x)

/-- The value of a block that mirrors a calibration record (R296). -/
def calBlock (type : Nat) (v : CalRecord) : List F64 :=
  if type = 6 then [seconds64 srgR v.toffNs]
  else [v.q.w, v.q.x, v.q.y, v.q.z, v.t.x, v.t.y, v.t.z].map widen

/-- The blocks with CAL_STREAM set take calibration values (R296). -/
def withCal (s : SlotRec) (value : Nat → Option CalRecord) (it : Bank (List F64)) : Bank (List F64) :=
  s.blocks.zipIdx.foldl (fun it b => match b.1.calStream.bind value with
    | some v => bput [] b.2 (calBlock b.1.type v) it
    | none => it) it

/-- The validation residual of calibration values (R316): each VALIDATION keyframe's pose re-estimated alone, then the cost of
the held-out factors. Costs compare as whole numbers of 2^−1074. -/
def validation (p : SrgProblem) (s : SrgSlot) (x : Bank (List F64)) (values : List (Nat × CalRecord)) : Nat :=
  let x := withCal p.slot (fun n => assoc n values) x
  let keys := (p.slot.blocks.zipIdx.filter (fun b => b.1.validation)).map (·.2)
  let y := keys.foldl (fun y k => gaussSteps (heldOut p s k) p.slot.valIters y) x
  let all : SrgProblem :=
    { p with factors := s.active.filterMap (fun a => match a.2, p.slot.factors[a.1]? with
               | some m, some f => if validates p.slot f then some (a.1, m) else none
               | _, _ => none) }
  ((f64Value (costOf (valuesAt all y))).scale 1074).floor.toNat

/-- The candidate of a CALIB slot (R139, R140, R316). -/
def Dev.candidateOf (d : Dev) (g : Nat) (p : SrgProblem) (l : SolveLoop) : Candidate :=
  let seed (n : Nat) (v : CalRecord) : CalRecord := (assoc n d.cal.seed).getD v
  let first (n : Nat) (v : CalRecord) : CalRecord :=
    match bget none g d.cal.runs with | some r => (assoc n r.first).getD v | none => v
  let values := (calStreams p.slot).filterMap (fun n => (assoc n p.cal).map (fun old => (n, old, calValue p l.x n old)))
  { records := values.map (fun e =>
      { stream := e.1, value := e.2.2, change := calDistance e.2.1 e.2.2, drift := calDistance (seed e.1 e.2.1) e.2.2,
        fromFirst := calDistance (first e.1 e.2.2) e.2.2,
        sigma := { r := calSigma p l e.1 0, t := calSigma p l e.1 1, toff := calSigma p l e.1 2 } }),
    valNew := validation p (d.srgSlot g) l.x (values.map (fun e => (e.1, e.2.2))),
    valActive := validation p (d.srgSlot g) l.x (values.map (fun e => (e.1, e.2.1))) }

/-- What a solve leaves: `whole` is set where the work past the loop is complete (R312). -/
def Dev.resultOf (d : Dev) (g : Nat) (p : SrgProblem) (whole : Bool) (corrected : Nat) (l : SolveLoop) : SolveResult :=
  let w := newestState p l.x
  let ended := l.ended.getD .timer
  let ego := decide (p.slot.cls = .ego)
  let done := whole && decide (ended ≠ .discarded)
  { ended := ended, regularised := l.regularised || (ego && done && marginalFlag p l), iters := l.it, cost := narrow l.cost,
    lambda := l.lambda, blocks := l.x, pos := (w.drop 4).take 3,
    quat := quatUnit64 srgR (w.take 4), vel := ((w.drop 7).take 3).map narrow,
    rate := (newestRate p l.x).map narrow,
    sigma := if ego && done then some (egoSigma p l) else none,
    cov := if decide (p.slot.cls = .scan) && decide (ended = .converged) then scanCovariance p l else [],
    consist := match p.slot.cls with
      | .ego => []
      | .scan => scanConsist p l.x
      | .calib => d.calConsist p l.x,
    candidate := if p.slot.cls = .calib then some (d.candidateOf g p l) else none,
    corrected := corrected }

end Sys2Proof.Machine
end

