-- ==== Sys2Proof/Machine/Serge.lean ====
section
/-!
DEFINITION. Serge: the resident structure, delta packets, the solves and what their ends do, and the faults of its units
(spec/13_serge_solver.md R292 to R322).
-/

namespace Sys2Proof.Machine

open Sys2Proof

/-- BAR0 offset of a unit's block (R322). -/
def barUnit (u : Nat) : Nat := barSrg + 0x1000 + 0x40 * u

/-- BAR0 offset of a slot's block (R322). -/
def barSlot (g : Nat) : Nat := barSrg + 0x1100 + 0x40 * g

/-- The device with slot g changed. -/
def modSlot (g : Nat) (f : SrgSlot → SrgSlot) (d : Dev) : Dev := d.setSrgSlot g (f (d.srgSlot g))

/-- The device with unit u changed. -/
def modUnit (u : Nat) (f : SrgUnit → SrgUnit) (d : Dev) : Dev := d.setSrgUnit u (f (d.srgUnit u))

/-- One of a slot's counters after n more events (R8, R322). -/
def bumpSlot (g off : Nat) (get : SrgSlot → Counter) (put : Counter → SrgSlot → SrgSlot) (n : Nat) (d : Dev) : Dev :=
  bump (barSlot g + off) (get (d.srgSlot g)) n (fun c d => modSlot g (put c) d) d

/-- One of a unit's counters after n more events. -/
def bumpUnit (u off : Nat) (get : SrgUnit → Counter) (put : Counter → SrgUnit → SrgUnit) (n : Nat) (d : Dev) : Dev :=
  bump (barUnit u + off) (get (d.srgUnit u)) n (fun c d => modUnit u (put c) d) d

/-- The record of slot g in the image in force (R295). -/
def Dev.slotRec (d : Dev) (g : Nat) : Option SlotRec := assoc g d.sergeDefs.slots

/-- The slots bound to unit u (R292). -/
def Dev.slotsOf (d : Dev) (u : Nat) : List (Nat × SlotRec) := d.sergeDefs.slots.filter (fun s => s.2.unit = u)

/-! ### Structure (R293, R296, R299) -/

/-- The dimension of block i of a slot. -/
def slotDim (s : SlotRec) (i : Nat) : Nat := match s.blocks[i]? with | some b => blockDim b.type | none => 0

/-- The sum of a factor's block dimensions. -/
def factorCols (s : SlotRec) (f : FactorRec) : Nat := f.blocks.foldl (fun n b => n + slotDim s b) 0

/-- The largest residual dimension of a factor (R297). -/
def factorRows (s : SlotRec) (f : FactorRec) : Nat :=
  match f.kind with
  | 0 => factorCols s f
  | 1 => 15 | 2 => 1 | 3 => 1 | 4 => 2 | 5 => 3 | 6 => 1 | 7 => 6 | 8 => 1 | 9 => 2 | 10 => 6
  | _ => 16

/-- Bytes of SRAM that a slot takes (R293). -/
def footprint (s : SlotRec) : Nat :=
  8 * s.nnzL + s.factors.foldl (fun n f => n + 8 * (factorRows s f * factorCols s f) + 16) 0 +
  96 * s.blocks.foldl (fun n b => n + blockDim b.type) 0 + 256 * 1024

/-- The smallest number of a list. -/
def least : List Nat → Option Nat
  | [] => none
  | x :: rest => match least rest with
    | none => some x
    | some y => some (min x y)

/-- The blocks past block j that a factor joins to it. -/
def joined (s : SlotRec) (j : Nat) : List Nat :=
  (s.factors.flatMap (fun f => if f.blocks.contains j then f.blocks.filter (fun i => decide (j < i)) else [])).eraseDups

/-- One block eliminated (R299): its column is what its factors join to it with what earlier columns left to it, and all
of it but the first goes to the first. -/
def eliminate (s : SlotRec) (acc : Bank (List Nat) × List (List Nat)) (j : Nat) : Bank (List Nat) × List (List Nat) :=
  let col := (joined s j ++ bget [] j acc.1).eraseDups
  let left := match least col with
    | some p => bmod [] p (fun l => (l ++ col.filter (fun i => decide (i ≠ p))).eraseDups) acc.1
    | none => acc.1
  (left, acc.2 ++ [col])

/-- The block columns of a slot's factor, in index order (R299). -/
def columnsOf (s : SlotRec) : List (List Nat) := ((List.range s.blocks.length).foldl (eliminate s) ([], [])).2

/-- Two consecutive columns belong to one supernode (R299): below the second's block they have the same structure. -/
def sameColumn (j : Nat) (a b : List Nat) : Bool :=
  a.contains (j + 1) && (a.filter (fun i => decide (i ≠ j + 1))).all b.contains && b.all a.contains

/-- The supernodes of columns from block j on. -/
def supernodesFrom : Nat → List (List Nat) → Nat
  | _, [] => 0
  | _, [_] => 1
  | j, a :: b :: rest => (if sameColumn j a b then 0 else 1) + supernodesFrom (j + 1) (b :: rest)

/-- The non-zeros of a slot's factor (R293, R299): of each block column its diagonal block's, and all of the blocks below. -/
def factorNonzeros (s : SlotRec) (cols : List (List Nat)) : Nat :=
  cols.zipIdx.foldl (fun n c =>
    n + Config.nnzDiagonal (slotDim s c.2) + slotDim s c.2 * c.1.foldl (fun m b => m + slotDim s b) 0) 0

/-- The counts of the symbolic factorisation equal those of the image (R299). -/
def structureOk (s : SlotRec) : Bool :=
  let cols := columnsOf s
  decide (factorNonzeros s cols = s.nnzL) &&
  decide (supernodesFrom 0 cols = s.supernodes)

/-! ### Loading -/

/-- A slot as an image load leaves it: its registers stay (R322). -/
def freshSlot (s : SrgSlot) : SrgSlot :=
  { s with running := false, lastSeq := none, packets := [], active := [], heldBlocks := [], iterate := [], extAt := [],
           startIterate := [], problem := none, iters := 0, regSoFar := false, ring := 0, window := {}, lambda := 0,
           windowsUsed := 0, discardedRun := 0 }

/-- Each problem of a unit is loaded from the image copy; an EGO slot starts a new odometry epoch (R313). -/
def loadSlots (u : Nat) (d : Dev) : Dev :=
  (d.slotsOf u).foldl (fun d s => modSlot s.1 (fun x => { freshSlot x with
    reinitDue := x.reinitDue || decide (s.2.cls = .ego) }) d) d

/-! ### Faults (R320) -/

/-- A unit's fault (R320): its reset begins, and the slots it ran stop. -/
def faultUnit (u cause : Nat) (latched : Bool) (d : Dev) : Dev :=
  let x := d.srgUnit u
  let d := match x.slotRunning with
    | some g =>
      let s := d.srgSlot g
      let d := d.setWin s.solveSrc s.solveTick s.solveWindow
        { d.win s.solveSrc s.solveTick s.solveWindow with phase := .ended }
      modSlot g (fun s => { s with running := false }) d
    | none => d
  let d := modUnit u (fun x => { x with state := .resetting, slotRunning := none, lastFault := cause, since := d.now,
                                        stopDue := none }) d
  let d := bumpUnit u 0x10 (·.reset) (fun c x => { x with reset := c }) 1 d
  if u = 3 then raiseV 0x0007 dieIod u cause latched 0 d else raiseH 0x0105 dieIod u cause d

/-- The structure check of a unit's slots (R299): a slot whose counts differ is unavailable; the EGO slots' units are
reset for it once, and then stay in fault until cold reset. -/
def checkStructure (u : Nat) (d : Dev) : Dev :=
  let bad := (d.slotsOf u).filter (fun s => !structureOk s.2)
  if bad.isEmpty then d
  else if bad.any (fun s => decide (s.2.cls = .ego)) then
    if (d.srgUnit u).structRetry then
      let d := modUnit u (fun x => { x with state := .fault, lastFault := 4 }) d
      let d := bad.foldl (fun d s => modSlot s.1 (fun x => { x with unavailable := true }) d) d
      let d := if u = 3 then raiseV 0x0007 dieIod u 4 true 0 d else raiseH 0x0105 dieIod u 4 d
      refreshModes d
    else faultUnit u 4 false (modUnit u (fun x => { x with structRetry := true }) d)
  else refreshModes (bad.foldl (fun d s => modSlot s.1 (fun x => { x with unavailable := true }) d) d)

/-- A unit takes its slots from an image (R299, R410, R414). -/
def loadUnit (d : Dev) (u : Nat) : Dev :=
  let kib := divRound 11 ((d.slotsOf u).foldl (fun n s => n + footprint s.2) 0) 1024
  checkStructure u (modUnit u (fun x => { x with sramUsedKib := kib, structRetry := false }) (loadSlots u d))

/-- SERGE_UNIT_RESET_DONE (R299, R313, R320): a unit's reset is complete. -/
def sergeUnitResetDone (unit : Fin 4) (d : Dev) : Dev :=
  let u := unit.val
  if (d.srgUnit u).state ≠ .resetting then d
  else
    let d := { d with recovery := { d.recovery with lastEnd := d.now } }
    checkStructure u (loadSlots u (modUnit u (fun x => { x with state := .idle }) d))

/-- SERGE_UNCORRECTABLE_SRAM_ERROR (R320). -/
def sergeUncorrectableSramError (unit : Fin 4) (d : Dev) : Dev :=
  let u := unit.val
  if (d.srgUnit u).state = .fault then d
  else faultUnit u 2 false (bumpUnit u 0x0C (·.eccUncorr) (fun c x => { x with eccUncorr := c }) 1 d)

/-- SERGE_STOP_TIMEOUT (R320): a unit has not stopped 2 µs after its deadline. -/
def sergeStopTimeout (unit : Fin 4) (d : Dev) : Dev :=
  let u := unit.val
  match (d.srgUnit u).stopDue with
  | some t => if t + 2 * usNs ≤ d.now then faultUnit u 1 false d else d
  | none => d

/-! ### Delta packets (R300 to R302) -/

/-- The records of a packet from an address on (R300): index, operation and payload words. -/
def Dev.packetRecords (d : Dev) : (n a : Nat) → List (Nat × Nat × List F64)
  | 0, _ => []
  | n + 1, a =>
    let head := d.readLe a 4
    let len := head / 2 ^ 24
    (head % 2 ^ 20, head / 2 ^ 20 % 16, (List.range len).map (fun i => BitVec.ofNat 64 (d.readLe (a + 8 + 8 * i) 8))) ::
      d.packetRecords n (a + 8 + 8 * len)

/-- The packet in a buffer (R300). -/
def Dev.readPacket (d : Dev) (a : Nat) : Packet :=
  let rs := d.packetRecords (d.readLe (a + 0x0C) 2) (a + 0x20)
  { slot := d.readLe a 4 % 16, seq := BitVec.ofNat 32 (d.readLe (a + 4) 4), tick := d.readLe (a + 8) 4,
    wordsOk := decide (rs.foldl (fun n r => n + 1 + r.2.2.length) 0 = d.readLe (a + 0x10) 4), records := rs }

/-- A transfer into a slot's packet buffer has completed: the packet waits for the slot's next window (R300). -/
def packetComplete (ts : List Tensor) (dst : Nat) (d : Dev) : Dev :=
  match d.sergeDefs.slots.find? (fun s => decide (s.2.packetDesc = some dst)), tensorOf ts dst with
  | some s, some t =>
    let p := d.readPacket t.start
    modSlot s.1 (fun x => { x with packets := x.packets ++ [p] }) d
  | _, _ => d

/-- The words that a SET of a factor kind holds (R301). -/
def setWords : Nat → Option Nat
  | 8 => some 4 | 9 => some 2 | 10 => some 6 | _ => none

/-- A record of a packet fits the slot (R302). -/
def recordOk (s : SlotRec) (r : Nat × Nat × List F64) : Bool :=
  let len := r.2.2.length
  let factor := s.factors[r.1]?
  let block := s.blocks[r.1]?
  match r.2.1 with
  | 0 => match factor with | some f => decide (setWords f.kind = some len) | none => false
  | 1 => factor.isSome && decide (len = 0)
  | 2 => match factor with
    | some f =>
      let m := (r.2.2.headD 0).toNat % 256
      decide (f.kind = 11) && decide (1 ≤ m) && decide (m ≤ 16) && decide (len = 1 + m + m * factorCols s f)
    | none => false
  | 3 => match block with | some b => decide (len = blockWords b.type) | none => false
  | 4 => block.isSome && decide (len = 0)
  | 5 => block.isSome && decide (len = 0)
  | _ => false

/-- An initial value of a block (R301). A PRIOR factor on the block measures from it (R297). -/
def setInitial (s : SlotRec) (b : Nat) (w : List F64) (x : SrgSlot) : SrgSlot :=
  let x := { x with iterate := bput [] b w x.iterate }
  s.factors.zipIdx.foldl (fun x f =>
    if f.1.kind = 0 && f.1.blocks.contains b then
      { x with active := bput none f.2 (some []) x.active, extAt := bput [] f.2 (f.1.blocks.map (fun k => bget [] k x.iterate)) x.extAt }
    else x) x

/-- What a record does (R301). -/
def applyRecord (s : SlotRec) (x : SrgSlot) (r : Nat × Nat × List F64) : SrgSlot :=
  match r.2.1 with
  | 0 => { x with active := bput none r.1 (some r.2.2) x.active }
  | 1 => { x with active := bput none r.1 none x.active, extAt := bput [] r.1 [] x.extAt }
  | 2 =>
    let at_ := match s.factors[r.1]? with | some f => f.blocks.map (fun b => bget [] b x.iterate) | none => []
    { x with active := bput none r.1 (some r.2.2) x.active, extAt := bput [] r.1 at_ x.extAt }
  | 3 => setInitial s r.1 r.2.2 x
  | 4 => { x with heldBlocks := if x.heldBlocks.contains r.1 then x.heldBlocks else r.1 :: x.heldBlocks }
  | 5 => { x with heldBlocks := x.heldBlocks.filter (fun b => b ≠ r.1) }
  | _ => x

/-- A packet at its slot's window (R302). -/
def applyPacket (g : Nat) (s : SlotRec) (d : Dev) (p : Packet) : Dev :=
  let x := d.srgSlot g
  let fresh := match x.lastSeq with | some l => newer p.seq l | none => true
  if p.slot ≠ g || !fresh || !p.wordsOk || !p.records.all (recordOk s) then
    bumpSlot g 0x1C (·.reject) (fun c x => { x with reject := c }) 1 d
  else
    let gap := match x.lastSeq with | some l => decide (p.seq ≠ l + 1) | none => false
    let d := if gap then bumpSlot g 0x20 (·.gap) (fun c x => { x with gap := c }) 1 d else d
    modSlot g (fun x => { p.records.foldl (applyRecord s) x with lastSeq := some p.seq }) d

/-- The complete packets of a slot, in order of sequence number (R300). -/
def applyPackets (g : Nat) (s : SlotRec) (d : Dev) : Dev :=
  let ps := sortBy (fun a b => newer b.seq a.seq) (d.srgSlot g).packets
  ps.foldl (applyPacket g s) (modSlot g (fun x => { x with packets := [] }) d)

/-! ### The start of a solve -/

/-- The blocks as a solve starts: those with CAL_STREAM set take their values from the copy that the solve reads (R296), and one
that nothing has set has its starting value. -/
def startBlocks (s : SlotRec) (c : CalState) (it : Bank (List F64)) : Bank (List F64) :=
  withCal s c.activeValue (s.blocks.zipIdx.foldl (fun it b =>
    if (bget [] b.2 it).isEmpty then bput [] b.2 ((List.range (blockWords b.1.type)).map (Config.blockStart b.1.type)) it else it) it)

/-- What makes the state at boundary b valid (R312): a sample of an IMU stream within the minor tick before it, or a WHEEL
or YAW factor near it; a held sample enters at b (R310). -/
def Dev.egoSupported (d : Dev) (src : Source) (s : SlotRec) (b : Nanos) : Bool :=
  s.inputs.any (fun n => match d.entry n with
    | some e =>
      let used := d.egoUsed n e src b
      let fresh (x : EgoSample) : Bool := decide (b < x.t + d.time.minorNs)
      (match e.src with | .imu _ => used.any fresh | _ => false) ||
      used.any (fun x => x.values.any (fun v => [1, 2, 3, 4, 5, 6, 7, 8].contains v.1) &&
        (decide (b ≤ x.t + d.extrapLimit) || !(fresh x || decide (b + d.cutoffNs src < x.arrival + d.time.minorNs))))
    | none => false)

/-- A slot's EGO problem re-initialises (R313): the ring and the prior are cleared, and but for the first time after cold
reset a new odometry epoch begins, counted. -/
def reinitEgo (s : SlotRec) (src : Source) (g : Nat) (b : Nanos) (d : Dev) : Dev :=
  let x := d.srgSlot g
  let d := modSlot g (fun x => { x with
    reinitDue := false, iterate := (blocksOf s 4).foldl (fun it k => bput [] k [] it) x.iterate, ring := 0,
    window := { tangent := x.window.tangent }, problem := none, discardedRun := 0 }) d
  if x.begun then
    let d := modSlot g (fun x => { x with epoch := x.epoch + 1 }) d
    let felt := match src with
      | .main => { d.felt with epochMainAt := b }
      | .burlap => { d.felt with epochFbAt := b }
    bumpSlot g 0x24 (·.reinit) (fun c x => { x with reinit := c }) 1 { d with felt := felt }
  else d

/-- The pipeline that an EGO slot serves (R314). -/
def egoSource (s : SlotRec) : Source := if s.unit = 3 then .burlap else .main

/-- The ring moves on to boundary b (R309): where it is full, the oldest position is marginalised into the PRIOR factor and
stands for b, with the state predicted from the one before; after a re-initialisation b takes the ring's first position with
the state of R313. -/
def advanceRing (g : Nat) (s : SlotRec) (src : Source) (b : Nanos) (fresh : Bool) (d : Dev) : Dev :=
  let x := d.srgSlot g
  let blocks := blocksOf s 4
  let at_ := if fresh || blocks.isEmpty then 0 else (x.ring + 1) % blocks.length
  let w := if x.window.bounds.length < blocks.length then x.window
    else dropOldest (x.problem.getD (d.problemOf g s)) x.window x.iterate
  let w := d.widenWindow s src b (blocks.getD at_ 0) w
  let d := modSlot g (fun x => { x with ring := at_, window := w, iterate := startBlocks s d.cal x.iterate }) d
  let it := (d.srgSlot g).iterate
  let state := if w.bounds.length ≤ 1 then egoInit w else egoPredict (d.problemOf g s) w it
  let d := modSlot g (fun x => { x with iterate := bput [] (blocks.getD at_ 0) state x.iterate }) d
  modSlot g (fun x => { x with problem := some (d.problemOf g s) }) d

/-- What the window of an EGO slot takes in (R309, R313, R315). -/
def startEgo (g : Nat) (s : SlotRec) (b : Nanos) (d : Dev) : Dev :=
  let src := egoSource s
  let x := d.srgSlot g
  let long := decide (d.extrapLimit < x.invalidRun * d.time.minorNs)
  let fresh := x.reinitDue || (long && d.egoSupported src s b)
  let d := if fresh then reinitEgo s src g b d else d
  let d := advanceRing g s src b (fresh || x.problem.isNone) d
  match src with
  | .main => { d with serge := { d.serge with absPose := none } }
  | .burlap => d

/-- The boundary of an EGO window, c_e before its opening (R309). -/
def Dev.egoBoundary (d : Dev) (src : Source) (opening : Int) : Nanos := (opening - d.cutoffNs src).toNat

/-- A SERGE window opens for its slot on an idle unit (R300, R303, R309, R315, R316): the packets are applied, and a solve
starts, or a CALIB solve that has windows left resumes. -/
def startSolve (src : Source) (tick w g : Nat) (s : SlotRec) (opening : Int) (planned : Nanos) (d : Dev) : Dev :=
  let d := applyPackets g s d
  let resumed := (d.srgSlot g).running
  let b := d.egoBoundary (egoSource s) opening
  let d := match s.cls with
    | .ego => startEgo g s b d
    | .scan =>
      match assoc tick d.tweed.provisional with
      | some (some a) => modSlot g (fun x => { x with iterate := bput [] 0 (a.quat ++ a.pos) x.iterate }) d
      | _ => d
    | .calib => d
  let d := if resumed then modSlot g (fun x => { x with windowsUsed := x.windowsUsed + 1 }) d
    else modSlot g (fun x => { x with
      running := true, windowsUsed := 1, lambda := widen (s.params.getD 3 0), genAtStart := d.cal.active.gen, iters := 0,
      regSoFar := false, iterate := startBlocks s d.cal x.iterate, startIterate := startBlocks s d.cal x.iterate }) d
  let d := match s.cls with
    | .ego => d
    | _ => modSlot g (fun x => { x with problem := some (d.problemOf g s) }) d
  let d := modSlot g (fun x => { x with solveSrc := src, solveTick := tick, solveWindow := w, solveB := b,
                                        deadlineAt := planned }) d
  let d := modUnit s.unit (fun x => { x with state := .running, slotRunning := some g }) d
  d.setWin src tick w { d.win src tick w with phase := .running, released := d.now }

/-- The changeover boundary of a warm start that has been set (R414 step 4). -/
def Dev.cutAt (d : Dev) : Option Nanos :=
  match d.boot.warm with
  | .changeover _ _ bc _ => some bc
  | _ => none

/-- A planned end, cut at B_c (R414 step 5). -/
def Dev.cutEnd (d : Dev) (t : Nanos) : Nanos := match d.cutAt with | some bc => min t bc | none => t

/-- The release of a SERGE window (R248, R292, R320): a slot that cannot solve lets it pass, and a unit still at work
holds it. -/
def releaseSerge (src : Source) (tick w : Nat) (r : WindowRec) (d : Dev) : Dev :=
  let pass : Dev := d.setWin src tick w { d.win src tick w with phase := .ended, released := d.now }
  match d.slotRec r.target, d.opening tick r, d.plannedEnd tick r with
  | some s, some o, some e =>
    let x := d.srgSlot r.target
    if x.unavailable || x.suspended then pass
    else match (d.srgUnit s.unit).state with
      | .idle => startSolve src tick w r.target s o (d.cutEnd e.toNat) d
      | .running => d.setWin src tick w { d.win src tick w with phase := .held }
      | .resetting | .fault => pass
  | _, _, _ => pass

/-! ### The end of a solve (R303 to R305, R312, R315 to R317, R319) -/

/-- How an end is recorded (R303, R305). -/
def solveStatus : SolveEnd → SolveStatus
  | .converged => .converged
  | .maxIter | .pivots | .time | .timer => .capped
  | .discarded => .discarded

/-- 0x7BFF in FP16: what an invalid entry carries in each one-sigma value (R312), as the FP32 value 65,504. -/
def sigmaInvalid : F32 := 0x477FE000

/-- The ego entry of boundary b as its solve leaves it (R312). -/
def writeEgo (g : Nat) (s : SlotRec) (r : SolveResult) (status : SolveStatus) (reg : Bool) (d : Dev) : Dev :=
  let src := egoSource s
  let x := d.srgSlot g
  let b := x.solveB
  let ok := decide (status ≠ .discarded) && d.egoSupported src s b
  let d := if ok && !x.begun then
      let felt := match src with
        | .main => { d.felt with epochMainAt := b }
        | .burlap => { d.felt with epochFbAt := b }
      modSlot g (fun x => { x with begun := true, epoch := x.epoch + 1 }) { d with felt := felt }
    else d
  let run := if status = .discarded then x.discardedRun + 1 else 0
  let d := modSlot g (fun x => { x with discardedRun := run, reinitDue := x.reinitDue || decide (3 ≤ run) }) d
  let prev := match src with | .main => d.serge.egoMain | .burlap => d.serge.egoFb
  let old := match prev with | some e => e.sigma | none => [sigmaInvalid, sigmaInvalid, sigmaInvalid]
  let sigma := if ok then r.sigma.getD old else [sigmaInvalid, sigmaInvalid, sigmaInvalid]
  let entry : PoseEntry := { b := b, epoch := (d.srgSlot g).epoch.toNat, pos := r.pos, quat := r.quat,
                             vel := r.vel.map widen, rate := r.rate.map widen, valid := ok }
  let e : EgoEntry := { entry := entry, status := status, reg := reg, sigma := sigma }
  match src with
  | .main => { d with serge := { d.serge with egoMain := some e } }
  | .burlap => { d with serge := { d.serge with egoFb := some e } }

/-- The consistency values of a solve (R315, R316). -/
def writeConsist (tick : Nat) (r : SolveResult) (d : Dev) : Dev :=
  { d with serge := { d.serge with consist := r.consist.foldl (fun b e =>
      bput {} e.1 { resid := e.2.1, inlier := e.2.2, tick := tick, valid := true } b) d.serge.consist } }

/-- The outputs of the main pipeline that carry SCAN statuses (R319). -/
def Dev.scanKeys (d : Dev) : List Nat :=
  [OutKind.objectList, .drivable, .points].map (outKey .main) ++
  (List.finRange 64).filterMap (fun p =>
    if p.val < d.image.host.products.length then some (outKey .main (.grid p)) else none)

/-- A SCAN end reaches the next output of each kind (R319). -/
def noteScan (status : SolveStatus) (reg : Bool) (d : Dev) : Dev :=
  let capped := decide (status = .capped)
  { d with serge := { d.serge with scans := d.scanKeys.foldl (fun b k =>
      let old : Option ScanEnds := bget none k b
      let c := match old with | some e => e.capped | none => false
      let g := match old with | some e => e.reg | none => false
      bput none k (some { last := status, lastReg := reg, capped := c || capped, reg := g || reg }) b) d.serge.scans } }

/-- T_k still lies in S0's window of NW boundaries (R315). -/
def Dev.inRing (d : Dev) (t : Nanos) : Bool :=
  match d.egoSlot .main with
  | some g => match d.slotRec g, d.serge.egoMain with
    | some s, some e => decide (e.entry.b < t + s.nw * d.time.minorNs)
    | _, _ => false
  | none => false

/-- The results of a SCAN solve (R315). -/
def endScan (g : Nat) (r : SolveResult) (status : SolveStatus) (reg : Bool) (d : Dev) : Dev :=
  let tick := (d.srgSlot g).solveTick
  let d := noteScan status reg d
  let d := if status = .discarded then d else writeConsist tick r d
  if status ≠ .converged then d
  else match d.validAt tick with
    | some t =>
      if d.inRing t then { d with serge := { d.serge with absPose := some (t, bget [] 0 r.blocks ++ r.cov) } }
      else bumpSlot g 0x28 (·.absposeLate) (fun c x => { x with absposeLate := c }) 1 d
    | none => bumpSlot g 0x28 (·.absposeLate) (fun c x => { x with absposeLate := c }) 1 d

/-- The results of a CALIB solve (R139, R305, R316, R317). -/
def endCalib (g : Nat) (r : SolveResult) (status : SolveStatus) (reg : Bool) (d : Dev) : Dev :=
  let d := if status = .discarded then d else writeConsist (d.srgSlot g).solveTick r d
  let busy (d : Dev) : Dev := bumpSlot g 0x2C (·.calBusy) (fun c x => { x with calBusy := c }) 1 d
  let cand : Candidate := r.candidate.getD { records := [], valNew := 0, valActive := 0 }
  if (d.srgSlot g).genAtStart ≠ d.cal.active.gen then
    busy { d with cal := { d.cal with runs := bput none g none d.cal.runs } }
  else
    let converged := decide (status = .converged)
    let d := if (d.cal.gateFails converged reg cand).isNone && d.cal.busy g cand then busy d else d
    calGate g converged reg cand d

/-- The unit stops: its window has ended. -/
def stopUnit (g : Nat) (s : SlotRec) (d : Dev) : Dev :=
  let x := d.srgSlot g
  let d := modUnit s.unit (fun u => { u with state := .idle, slotRunning := none, stopDue := none }) d
  d.setWin x.solveSrc x.solveTick x.solveWindow { d.win x.solveSrc x.solveTick x.solveWindow with phase := .ended }

/-- A solve ends (R303 to R305, R307). -/
def endSolve (g : Nat) (s : SlotRec) (r : SolveResult) (d : Dev) : Dev :=
  let status := solveStatus r.ended
  let deadline := decide (r.ended = .time) || decide (r.ended = .timer)
  let reg := r.regularised || decide (status = .discarded)
  let d := stopUnit g s d
  let d := bumpUnit s.unit 0x08 (·.eccCorr) (fun c x => { x with eccCorr := c }) r.corrected d
  let d := if r.regularised then bumpSlot g 0x14 (·.regularised) (fun c x => { x with regularised := c }) 1 d else d
  let d := if deadline then bumpSlot g 0x10 (·.deadline) (fun c x => { x with deadline := c }) 1 d else d
  let d := if status = .discarded then bumpSlot g 0x18 (·.overflow) (fun c x => { x with overflow := c }) 1 d else d
  let it := if status = .discarded then (d.srgSlot g).startIterate else r.blocks
  let last := if status = .capped then deadline else (d.srgSlot g).lastDeadline
  let d := modSlot g (fun x => { x with
    running := false, windowsUsed := 0, iterate := it, lambda := r.lambda, lastEnd := status, lastReg := reg,
    lastDeadline := last, lastIters := r.iters, lastCost := r.cost,
    lastLambda := narrow r.lambda, lastEndTime := d.now }) d
  match s.cls with
  | .ego => writeEgo g s r status reg d
  | .scan => endScan g r status reg d
  | .calib => endCalib g r status reg d

/-- The loop of a slot as its window begins it (R303, R307): with a fresh evaluation and assembly. -/
def loopStart (x : SrgSlot) : SolveLoop :=
  { x := x.iterate, lambda := x.lambda, cost := 0, it := x.iters, regularised := x.regSoFar, tries := 0, flags := 0,
    factorAt := none, phase := .evaluate, ended := none }

/-- The loop of slot g after n operations of its window. A flagged pivot for which the command brings no time has what is
left now. -/
def Dev.loopAt (d : Dev) (g : Nat) (p : SrgProblem) (left : List Nat) (n : Nat) : SolveLoop :=
  solveOps p (fun i => left.getD i ((d.srgSlot g).deadlineAt - d.now)) n (loopStart (d.srgSlot g))

/-- The problem that a slot's solve reads. -/
def Dev.solveProblem (d : Dev) (g : Nat) (s : SlotRec) : SrgProblem := (d.srgSlot g).problem.getD (d.problemOf g s)

/-- The result of a solve that has run to the end of its loop (R303). -/
def Dev.wholeSolve (d : Dev) (g : Nat) (s : SlotRec) (r : SolveRun) : SolveResult :=
  let p := d.solveProblem g s
  d.resultOf g p true r.corrected (d.loopAt g p r.left (solveBound s))

/-- The result of a solve that the timer has stopped (R307), where the loop had not ended before, or at the work past it
(R312). -/
def Dev.cutSolve (d : Dev) (g : Nat) (s : SlotRec) (r : SolveRun) : SolveResult :=
  let p := d.solveProblem g s
  let l := d.loopAt g p r.left r.ops
  d.resultOf g p (r.covariance && l.ended.isSome) r.corrected l

/-- SOLVE_END (R303): the solve of a unit ends before its deadline. -/
def solveEnd (unit : Fin 4) (run : SolveRun) (d : Dev) : Dev :=
  let x := d.srgUnit unit.val
  match x.state, x.slotRunning with
  | .running, some g => match d.slotRec g with
    | some s => if d.now ≤ (d.srgSlot g).deadlineAt then endSolve g s (d.wholeSolve g s run) d else d
    | none => d
  | _, _ => d

/-- A CALIB solve that has windows left stops at its deadline (R307): the iterate and λ are kept. -/
def pauseSolve (g : Nat) (s : SlotRec) (r : SolveResult) (d : Dev) : Dev :=
  let d := stopUnit g s d
  let d := bumpUnit s.unit 0x08 (·.eccCorr) (fun c x => { x with eccCorr := c }) r.corrected d
  modSlot g (fun x => { x with lambda := r.lambda, iterate := r.blocks, iters := r.iters, regSoFar := r.regularised }) d

/-- SERGE_DEADLINE (R307): the planned end of a solve's window. `run` says how far the unit had come, none where it has not
stopped. A solve whose window the warm start's B_c cut ends as at its last window. -/
def sergeDeadline (unit : Fin 4) (run : Option SolveRun) (d : Dev) : Dev :=
  let x := d.srgUnit unit.val
  match x.state, x.slotRunning with
  | .running, some g => match d.slotRec g with
    | none => d
    | some s =>
      let y := d.srgSlot g
      if d.now < y.deadlineAt then d
      else match run with
        | none => modUnit unit.val (fun u => { u with stopDue := some (u.stopDue.getD y.deadlineAt) }) d
        | some r =>
          if s.cls = .calib && decide (y.windowsUsed < s.spanWindows) && decide ((d.cutSolve g s r).ended = .timer) &&
              decide (d.cutAt ≠ some y.deadlineAt) then
            pauseSolve g s (d.cutSolve g s r) d
          else endSolve g s (d.cutSolve g s r) d
  | _, _ => d

/-- LAST_END_LO_READ (R322). -/
def lastEndLoRead (slot : Fin 16) (d : Dev) : Dev :=
  modSlot slot.val (fun x => { x with lastEndHiLatch := BitVec.ofNat 32 (x.lastEndTime / 2 ^ 32) }) d

/-! ### Boundaries -/

/-- The slots under a mode's mask (R320): one outside it is suspended with its state kept. -/
def suspendSlots (mode : Nat) (d : Dev) : Dev :=
  d.sergeDefs.slots.foldl (fun d s => modSlot s.1 (fun x => { x with suspended := !s.2.modeMask.contains mode }) d) d

/-- The entry of a boundary at which no solve ran (R312). -/
def notRun (b : Nanos) (epoch : Nat) : EgoEntry :=
  { entry := { b := b, epoch := epoch }, status := .notRun, reg := false,
    sigma := [sigmaInvalid, sigmaInvalid, sigmaInvalid] }

/-- The ego entry of boundary b of a pipeline. -/
def Dev.egoEntry (d : Dev) (src : Source) (b : Nanos) : EgoEntry :=
  match (match src with | .main => d.serge.egoMain | .burlap => d.serge.egoFb) with
  | some e => if e.entry.b = b then e else notRun b (d.odoEpoch src)
  | none => notRun b (d.odoEpoch src)

/-- POSE_HISTORY_ENTRY (R66, R312): the entry of boundary b enters a pipeline's history, which holds 8,192;
a valid one of S3's ends its class V condition (R387). -/
def enterHistory (b : Nanos) (d : Dev) (src : Source) : Dev :=
  let e := d.egoEntry src b
  let d := match d.egoSlot src with
    | some g => modSlot g (fun x => { x with invalidRun := if e.entry.valid then 0 else x.invalidRun + 1 }) d
    | none => d
  match src with
  | .main => { d with serge := { d.serge with egoMain := some e },
                      muslin := { d.muslin with poseMain := (e.entry :: d.muslin.poseMain).take 8192 } }
  | .burlap =>
    let d := { d with serge := { d.serge with egoFb := some e },
                      muslin := { d.muslin with poseFb := (e.entry :: d.muslin.poseFb).take 8192 } }
    if e.entry.valid && decide ((d.srgUnit 3).state ≠ .fault) then endCondition 0x0007 0 d else d

end Sys2Proof.Machine
end

