-- ==== Sys2Proof/Machine/Transfers.lean ====
section
/-!
DEFINITION. The end of a transfer of a DMA engine: its writes, its tally, and what a completed packet or a time-out starts
in Serge (spec/10_twill_layout.md R232 to R235; spec/13_serge_solver.md R300, R320).
-/

namespace Sys2Proof.Machine

open Sys2Proof

/-- What SEC-DED found in the SRAM that a transfer read from one tensor acts on its cluster (R207), or on the Damask page
(R285). -/
def tensorEcc (ts : List Tensor) (t : TransferDesc) (window : Option Nat) (d : Dev) (e : Nat × Ecc) : Dev :=
  match sramOf ts e.1, (tensorOf ts e.1).bind (fun s => d.pagesRead s t) with
  | some c, _ => eccRead c window e.2 d
  | none, some (h, slots) => if e.2 = .uncorrectable then losePageOf h slots (pageFault h window d) else d
  | none, none => d

/-- TRANSFER_COMPLETE (R232 to R235): every write of the n-th transfer has been accepted, and its tally counts; a packet
written to a Serge slot's buffer is complete (R300). `ecc` is what SEC-DED found in what it read, tensor by tensor. -/
def transferComplete (cl : Fin 132) (n : Nat) (ecc : List Ecc) (d : Dev) : Dev :=
  match (d.cluster cl.val).dma[n]? with
  | some x => match x.started with
    | some (t, _, _) =>
      let ts := d.tableOf cl.val x.window
      if !d.arrives cl.val n ts t then d
      else
        let d := moveData (d.moveCtx cl.val x) ts t (fun _ => true) d
        let d := releaseTransfer cl.val n x.core d
        let d := if t.tallyEn then incTally (tallyCluster cl.val ts t) t.tally d else d
        ((readsOf t).zip ecc).foldl (tensorEcc ts t x.window) (packetComplete ts t.dst d)
    | none => d
  | none => d

/-- The Serge unit whose packet buffer a descriptor is (R300). -/
def Dev.packetUnit (d : Dev) (dst : Nat) : Option Nat :=
  (d.sergeDefs.slots.find? (fun s => decide (s.2.packetDesc = some dst))).map (fun s => s.2.unit)

/-- TRANSFER_TIMEOUT (R205, R235): 100 µs after its start the n-th transfer is abandoned; the writes that landed stay, no
tally counts, and the owning window is marked missing. Where it carried a Serge packet, the unit is in fault (R320). -/
def transferTimeout (cl : Fin 132) (n : Nat) (d : Dev) : Dev :=
  match (d.cluster cl.val).dma[n]? with
  | some x => match x.started with
    | some (t, since, _) =>
      if d.now < since + 100 * usNs then d
      else
        let ctr := d.freeCtr
        let d := moveData (d.moveCtx cl.val x) (d.tableOf cl.val x.window) t (Config.landed ctr) { d with freeCtr := ctr + 1 }
        let old := (d.cluster cl.val).timeout
        let c := old.inc
        let d := satEvent (barTwl cl.val + 4) old c (d.modCluster cl.val (fun s => { s with timeout := c }))
        let d := faultKey x.window (releaseTransfer cl.val n x.core d)
        match d.packetUnit t.dst with
        | some u => if (d.srgUnit u).state = .fault then d else faultUnit u 3 false d
        | none => d
    | none => d
  | none => d

end Sys2Proof.Machine
end

