-- ==== Sys2Proof/Machine/Outputs.lean ====
section
/-!
DEFINITION. The outputs: their records, the quality word, the seal, the payloads, Felt's checks and the selection
(spec/14_fused_outputs.md R323 to R341; spec/16_vehicle_link_and_safety.md R382, R383, R393).
-/

namespace Sys2Proof.Machine

open Sys2Proof

/-! ### Contribution records (R73, R76, R328) -/

/-- The EGO_INPUT streams that a pipeline's solver uses (R295). -/
def Dev.egoInputs (d : Dev) (src : Source) : List Nat :=
  match d.egoSlot src with
  | some g => match d.slotRec g with | some s => s.inputs | none => []
  | none => []

/-- The streams that an output of a tick lists (R328), in stream-number order. -/
def Dev.listed (d : Dev) (src : Source) (tick mode : Nat) : List (Nat × StreamEntry) :=
  (sortBy (fun a b : Nat × StreamEntry => decide (a.1 < b.1)) (d.imageAt tick).streams.entries).filter (fun e =>
    e.2.modeMask.contains mode &&
    (match src, e.2.kind with
      | .main, _ => true
      | .burlap, .point => true
      | .burlap, .egoInput => (d.egoInputs .burlap).contains e.1
      | .burlap, .rowBand => false))

/-- Every window of a source that reads stream n in the tick is marked missing (R73). -/
def Dev.streamLost (d : Dev) (src : Source) (tick n : Nat) : Bool :=
  let ws := (d.windowsAt src tick).filter (fun x => x.2.streams.contains n)
  !ws.isEmpty && ws.all (fun x => decide ((d.win src tick x.1).phase = .missing))

/-- The smallest and largest of some times, 0 where there are none. -/
def spanOf : List Nat → Nat × Nat
  | [] => (0, 0)
  | t :: rest => rest.foldl (fun p x => (min p.1 x, max p.2 x)) (t, t)

/-- The times of a stream's points that an engine has inserted for a tick (R73, R155). -/
def Dev.pointTimes (d : Dev) (src : Source) (tick n : Nat) (v : Nanos) : List Nat :=
  (((d.engine src).insertedPoints tick).filter (fun x => x.2.stream = n)).map (fun x => ((v : Int) + x.2.dtNs).toNat)

/-- What stream n has contributed to an output at its seal: count, oldest and newest time (R73, R76). A point contributes where
the engine's store holds it as inserted (R155). -/
def Dev.contributed (d : Dev) (src : Source) (tick n : Nat) (e : StreamEntry) : Nat × Nanos × Nanos :=
  let c := d.contrib tick n src
  if d.streamLost src tick n then (0, 0, 0)
  else if e.kind ≠ .point then (if c.count = 0 then (0, 0, 0) else (c.count, c.oldest, c.newest))
  else
    let ts := d.pointTimes src tick n ((d.validAt tick).getD 0)
    (ts.length, (spanOf ts).1, (spanOf ts).2)

/-- A count as its field holds it (R328). -/
def sat32 (n : Nat) : BitVec 32 := BitVec.ofNat 32 (satTo 0xFFFFFFFF n)

/-- The contribution entry of stream n in an output of a tick (R328): ABSENT where nothing of it reached the output (R72, R73,
R155). -/
def Dev.contribEntry (d : Dev) (src : Source) (kind : OutKind) (tick n : Nat) (e : StreamEntry) : ContribEntry :=
  let c := d.contrib tick n src
  let x := d.contributed src tick n e
  { stream := n, absent := c.absent || decide (x.1 = 0), far := c.far, reacq := c.reacq,
    quota := c.quotaHit, contributed := sat32 x.1, late := sat32 (bget 0 (lateKey tick n src kind) d.muslin.lateFor),
    stale := sat32 c.stale, postOutput := sat32 (bget 0 (postKey n src kind) d.muslin.postFor),
    quotaDrop := sat32 c.quotaDrop, oldest := x.2.1, newest := x.2.2 }

/-- The contribution entry of an EGO_INPUT stream in the Ego State of boundary b (R65, R328). -/
def Dev.egoContrib (d : Dev) (src : Source) (tick : Nat) (b : Nanos) (n : Nat) (e : StreamEntry) : ContribEntry :=
  let used := d.egoUsed n e src b
  let mine := d.muslin.ego.filter (fun x => x.stream = n)
  let stale := (mine.filter (d.staleAt e b (newestOf (d.arrivedBy n .main b)))).length
  let s := spanOf (used.map (·.t))
  { stream := n, absent := used.isEmpty, far := !used.isEmpty && decide (s.2 + d.spanNs e < b),
    reacq := (d.contrib tick n src).reacq, quota := false, contributed := sat32 used.length, late := 0,
    stale := sat32 stale, postOutput := 0, quotaDrop := 0, oldest := s.1, newest := s.2 }

/-- The contribution times of R75: the oldest of a stream, the newest of an EGO_INPUT stream. -/
def ageTimes (es : List (Nat × StreamEntry)) (cs : List ContribEntry) : List Nanos :=
  cs.filterMap (fun c => match assoc c.stream es with
    | some e => if e.inAge && decide (c.contributed.toNat ≠ 0) then
        some (if e.kind = .egoInput then c.newest else c.oldest)
                else none
    | none => none)

/-- AGE_OLDEST_NS (R326). -/
def ageOf (tOutput : Nanos) (ts : List Nanos) : Nat :=
  if ts.isEmpty then 0xFFFFFFFF else min (tOutput - (spanOf ts).1) 0xFFFFFFFE

/-! ### The quality word (R330, R332) -/

/-- Bit n of the quality word. -/
def qbit (n : Nat) (b : Bool) : BitVec 32 := if b then 1#32 <<< n else 0

/-- The bits that contribution entries set (R330). -/
def contribQuality (cs : List ContribEntry) : BitVec 32 :=
  qbit 2 (cs.any (·.absent)) ||| qbit 3 (cs.any (fun c => decide (c.late ≠ 0) || decide (c.postOutput ≠ 0))) |||
  qbit 4 (cs.any (·.far)) ||| qbit 5 (cs.any (·.quota))

/-- The bits that a solve sets (R332). -/
def solveQuality (s : SolveStatus) (reg : Bool) : BitVec 32 :=
  qbit 8 (decide (s = .capped)) ||| qbit 9 (reg || decide (s = .discarded))

/-- A partition, a die or a Serge unit has been restarting at some instant from b to now (R330). -/
def Dev.restartedSince (d : Dev) (b : Nanos) : Bool := d.classHActive || decide (b < d.recovery.lastEnd)

/-- The planned end of a tick's GOLDEN window. -/
def Dev.goldenEnd (d : Dev) (tick : Nat) : Option Int :=
  match (d.windowsAt .main tick).find? (fun x => x.2.kind = .golden) with
  | some x => d.plannedEnd tick x.2
  | none => none

/-- The last tick whose GOLDEN window had ended at an instant, among the tick k and the two before it. -/
def Dev.lastGolden (d : Dev) (k : Nat) (b : Nanos) : Option Nat :=
  [k, k - 1, k - 2].find? (fun j => match d.goldenEnd j with | some t => decide (t ≤ (b : Int)) | none => false)

/-- Bits that wait for the next output of a kind and source (R330), and CALIB_HELD (R141). -/
def Dev.carried (d : Dev) (key : Nat) : BitVec 32 := bget 0 key d.output.carry ||| qbit qCalibHeld d.calibHeld

/-- The bits that conditions of a tick set which may arise at any time: a stream absent or lost, poses and points too far, a
quota hit, a full table and thinned memory (R330). -/
def Dev.tickConditions (d : Dev) (src : Source) (tick mode : Nat) : BitVec 32 :=
  let cs := (d.listed src tick mode).map (fun e => (e.1, d.contrib tick e.1 src))
  let e := d.engine src
  let thinned := decide (src = .main) && [0, 1].any (fun h => decide (0 < bget 0 tick (d.half h).missingMain))
  qbit 2 (cs.any (fun c => c.2.absent || d.streamLost src tick c.1)) |||
  qbit 4 (cs.any (·.2.far) || e.far.contains tick) ||| qbit 5 (cs.any (·.2.quotaHit)) ||| qbit 6 (e.full.contains tick) |||
  qbit 7 thinned

/-- The conditions of the tick of the last output of a kind and source that have arisen after its seal (R330). -/
def Dev.arisen (d : Dev) (src : Source) (key : Nat) : BitVec 32 :=
  match bget none key d.output.sealedAs with
  | some (k, q) => match d.tickRec k with
    | some r => d.tickConditions src k r.mode &&& ~~~q
    | none => 0
  | none => 0

/-! ### The seal (R64, R326) -/

/-- The ego block at an instant (R329). -/
def Dev.egoBlockAt (d : Dev) (t : Nanos) : EgoBlock := (assoc t d.felt.egoAt).getD { b := t }

/-- The consistency entries of a main output (R329): every lidar and camera stream of the mode that has a value. -/
def Dev.consistEntries (d : Dev) (tick mode : Nat) : List ConsistEntry :=
  (sortBy (fun a b : Nat × StreamEntry => decide (a.1 < b.1)) (d.imageAt tick).streams.entries).filterMap (fun e =>
    let c : Consistency := bget {} e.1 d.serge.consist
    if e.2.modeMask.contains mode && decide (e.2.kind ≠ .egoInput) && c.valid then
      some { stream := e.1, camera := decide (e.2.kind = .rowBand), resid := c.resid, inlier := c.inlier, tick := c.tick }
    else none)

/-- The final anchor of a tick as an engine has taken it. -/
def Dev.anchor (d : Dev) (src : Source) (tick : Nat) : Option PoseEntry := ((d.engine src).finalOf tick).map (·.1)

/-- The arithmetic of the outputs' and of Felt's own values: its results' rounding is not stated. -/
def outR : Rounding := .open .outputs

/-- The yaw of an orientation in [−π, π) (R325). -/
def yawOf (quat : List F64) : F32 :=
  let y := outR.narrow (euler64 outR 2 quat)
  if f32Le 0x40490FDB y then 0xC0490FDB else y

/-- The grid fields of an output (R133, R325): zero where the engine took no anchor. -/
def Dev.gridFields (d : Dev) (src : Source) (tick mode : Nat) : (Int × Int) × (F32 × F32) × F32 :=
  match d.anchor src tick with
  | none => ((0, 0), (0, 0), 0)
  | some a =>
    let q := match assoc mode (d.imageAt tick).grids with | some g => g.pitch | none => 0
    let x := gridAxis (a.pos.getD 0 0) q
    let y := gridAxis (a.pos.getD 1 0) q
    ((x.1, y.1), (x.2, y.2), yawOf a.quat)

/-- CAL_GEN of a tick (R138). -/
def Dev.calGenOf (d : Dev) (tick : Nat) : BitVec 32 :=
  ((assoc tick d.cal.bound).or (assoc tick d.cal.retiredBound)).getD d.cal.active.gen

/-- The records and header values of an output of a tick as they stand now (R325 to R330). -/
def Dev.sealOf (d : Dev) (src : Source) (kind : OutKind) (tick : Nat) (r : TickRec) : Seal :=
  let es := d.listed src tick r.mode
  let cs := es.map (fun e => d.contribEntry src kind tick e.1 e.2)
  let main := decide (src = .main)
  let e := d.engine src
  let key := outKey src kind
  let ego := if main then r.egoMain else r.egoFb
  let scan : Option ScanEnds := if main then bget none key d.serge.scans else none
  let block := d.egoBlockAt r.valid
  let total (f : DmkHalf → Nat) : Nat := if main then f (d.half 0) + f (d.half 1) else 0
  let missing := total (fun h => bget 0 tick h.missingMain)
  let refused := total (fun h => bget 0 tick h.refused)
  let g := d.gridFields src tick r.mode
  let q := contribQuality cs ||| qbit 4 (e.far.contains tick) ||| qbit 6 (e.full.contains tick) |||
    qbit 7 (decide (0 < missing)) ||| solveQuality ego.1 ego.2 |||
    (match scan with | some s => qbit 8 s.capped ||| qbit 9 s.reg | none => 0) |||
    d.carried key ||| d.arisen src key ||| qbit 11 block.disagree ||| qbit 12 r.modeSwitched |||
    qbit 13 (d.restartedSince r.start) ||| qbit 14 (decide (0 < tick) && d.felt.goldenIncomplete.contains (tick - 1))
  { quality := q, calGen := d.calGenOf tick,
    odoEpoch := BitVec.ofNat 32 (match d.anchor src tick with | some a => a.epoch | none => d.odoEpoch src),
    gridC := g.1, gridF := g.2.1, anchorYaw := g.2.2,
    winMissing := if main then r.missing else r.missingFb, appendRefused := refused, missingTokens := missing,
    egoEnd := ego.1, egoReg := ego.2, scan := scan.map (fun s => (s.last, s.lastReg)), contrib := cs,
    ageTimes := ageTimes es cs, ego := block, consist := if main then d.consistEntries tick r.mode else [] }

/-- What waited for the output that has just been sealed is taken (R64, R319, R330). -/
def takeCarried (src : Source) (kind : OutKind) (ss : List Nat) (d : Dev) : Dev :=
  let key := outKey src kind
  { d with
    output := { d.output with carry := bput 0 key 0 d.output.carry, sealedAt := bput none key (some d.now) d.output.sealedAt },
    muslin := { d.muslin with postFor := ss.foldl (fun b n => bput 0 (postKey n src kind) 0 b) d.muslin.postFor },
    serge := { d.serge with scans := if src = .main then bput none key none d.serge.scans else d.serge.scans } }

/-- An output that a source assembles for a tick, if it has begun. -/
def Dev.assembling (d : Dev) (src : Source) (tick : Nat) (kind : OutKind) : Option Assembling :=
  d.output.assembling.find? (fun a => decide (a.src = src) && a.tick = tick && decide (a.kind = kind))

/-- Put an output in place of the one of its source, tick and kind. -/
def putAssembling (a : Assembling) (d : Dev) : Dev :=
  let rest := d.output.assembling.filter (fun x => !(decide (x.src = a.src) && x.tick = a.tick && decide (x.kind = a.kind)))
  { d with output := { d.output with assembling := a :: rest } }

/-- The assembly of an output starts (R55): the offset and TIME_HOLDOVER are sampled. -/
def beginOutput (src : Source) (tick : Nat) (d : Dev) (kind : OutKind) : Dev :=
  putAssembling { src := src, tick := tick, kind := kind, vtOffset := d.time.vtOffset, holdover := d.time.holdover } d

/-- The output as begun; where its window never opened, as begun now. -/
def Dev.begun (d : Dev) (src : Source) (tick : Nat) (kind : OutKind) : Assembling :=
  (d.assembling src tick kind).getD
    { src := src, tick := tick, kind := kind, vtOffset := d.time.vtOffset, holdover := d.time.holdover }

/-- The next OUT_SEQ of a kind and source (R327). -/
def takeSeq (src : Source) (kind : OutKind) (d : Dev) : BitVec 32 × Dev :=
  let key := outKey src kind
  let n := bget 0 key d.output.seq
  (n, { d with output := { d.output with seq := bput 0 key (n + 1) d.output.seq } })

/-- A kind takes its OUT_SEQ as it is sealed: a grid or point frame, of which there is one source (R327). -/
def frameKind : OutKind → Bool
  | .grid _ | .points => true
  | _ => false

/-- A grid frame that has sealed stands among the newest of its product, in place of what stood there of its tick
(R354). -/
def keepGrid (p : Nat) (a : Assembling) (d : Dev) : Dev :=
  let old := (bget [] p d.output.newestGrid).filter (fun x => x.2.tick ≠ a.tick)
  { d with output := { d.output with newestGrid := bput [] p (((d.now, a) :: old).take 4) d.output.newestGrid } }

/-- The track histories after a sealed list (R354, R403): the main tracks of the last 64 ticks. -/
def keepTracks (a : Assembling) (d : Dev) : Dev :=
  match a.src, d.validAt a.tick with
  | .main, some v =>
    let recent (l : List (Nanos × Nanos × ObjectRec)) := l.filter (fun r => decide (v < r.2.1 + 64 * d.time.pNs))
    let step (h : TrackHistory) : TrackHistory :=
      match a.objects.find? (fun o => o.trackId = h.id) with
        | some o => { h with alive := true, records := recent ((d.now, v, o) :: h.records) }
        | none => { h with alive := a.alive.contains h.id, records := recent h.records }
    let known (o : ObjectRec) : Bool := d.host.tracks.any (fun h => h.id = o.trackId)
    let new := (a.objects.filter (fun o => !known o)).map (fun o =>
      { src := a.src, id := o.trackId, alive := true, records := [(d.now, v, o)] : TrackHistory })
    { d with host := { d.host with tracks := (d.host.tracks.map step).filter (·.alive) ++ new } }
  | _, _ => d

/-- What queries read of an output that has sealed (R354, R357). -/
def keepOutput (a : Assembling) (d : Dev) : Dev :=
  match a.kind with
  | .grid p => keepGrid p.val a d
  | .objectList => if a.payload.isSome then keepTracks a d else d
  | _ => d

/-- The output of a kind and source that was sealed last, with its quality word (R330). -/
def noteSealed (key tick : Nat) (q : BitVec 32) (d : Dev) : Dev :=
  { d with output := { d.output with sealedAs := bput none key (some (tick, q)) d.output.sealedAs } }

/-- Seal an output, once (R64). -/
def sealOutput (src : Source) (tick : Nat) (d : Dev) (kind : OutKind) : Dev :=
  let a := d.begun src tick kind
  match a.taken, d.tickRec tick with
  | none, some r =>
    let s := d.sealOf src kind tick r
    let n := if frameKind kind then takeSeq src kind d else (0, d)
    let a := { a with taken := some s, seq := n.1 }
    let n := (n.1, noteSealed (outKey src kind) tick s.quality n.2)
    keepOutput a (takeCarried src kind (s.contrib.map (·.stream)) (putAssembling a n.2))
  | _, _ => d

/-- Seal the outputs of an assembly window whose planned end has passed. -/
def sealWindow (src : Source) (tick : Nat) (d : Dev) (x : Nat × WindowRec) : Dev :=
  match d.plannedEnd tick x.2 with
  | some t => if x.2.kind = .assembly && decide (t < (d.now : Int)) then x.2.outputs.foldl (sealOutput src tick) d else d
  | none => d

/-- The outputs whose seal instant has just passed (R64). -/
def sealDue (d : Dev) : Dev :=
  d.plan.ticks.foldl (fun d e =>
    [Source.main, Source.burlap].foldl (fun d src => (d.windowsAt src e.1).foldl (sealWindow src e.1) d) d) d

/-! ### Payloads (R333 to R338, R497) -/

/-- A narrow field in FP16 (R497). -/
def half16 (v : F32) : Nat := encodeTo .fp16 v

/-- The squared range of a box centre (R334). -/
def rangeSq (o : ObjectRec) : Dyadic :=
  let c (i : Nat) : Dyadic := f32Value (o.geom.getD i 0)
  (((c 0).mul (c 0)).add ((c 1).mul (c 1))).add ((c 2).mul (c 2))

/-- Objects in the order of R334: nearest, then higher EXIST, then lower TRACK_ID. -/
def nearer (a b : ObjectRec) : Bool :=
  let ra := rangeSq a
  let rb := rangeSq b
  ra.lt rb || (!rb.lt ra && (decide (b.exist_ < a.exist_) || (decide (a.exist_ = b.exist_) && decide (a.trackId < b.trackId))))

/-- The most objects of a source's list (R334). -/
def mostObjects : Source → Nat
  | .main => 512
  | .burlap => 128

/-- An object record (R333). Burlap's outputs are lidar-only. -/
def objectBytes (src : Source) (o : ObjectRec) : List Byte :=
  let cam := decide (src = .main)
  w32 (o.trackId % 2 ^ 31 + 2 ^ 31 * src.idx) ++
  w32 (o.cls % 256 + 2 ^ 8 * (o.exist_ % 256) + 2 ^ 16 * bit o.new + 2 ^ 17 * bit o.coasted + 2 ^ 18 * bit o.evLidar +
    2 ^ 19 * bit (o.evCamera && cam) + 2 ^ 24 * satTo 255 o.ageTicks) ++
  ((List.range 9).flatMap (fun i => w32 (o.geom.getD i 0).toNat)) ++
  w32 (half16 (o.sigma.getD 0 0) + 2 ^ 16 * half16 (o.sigma.getD 1 0)) ++
  w32 (half16 (o.sigma.getD 2 0) + 2 ^ 16 * half16 (o.sigma.getD 3 0)) ++
  w32 ((if cam then o.camMask.toNat else 0) + 2 ^ 16 * satTo 0xFFFF o.lidarPoints) ++
  w32 (satTo 0xFFFF o.sinceDet) ++ w32 0

/-- The objects that a list holds (R334). -/
def listedObjects (src : Source) (alive : List ObjectRec) : List ObjectRec :=
  (sortBy nearer alive).take (mostObjects src)

/-- An Object List payload (R333). -/
def objectList (src : Source) (alive : List ObjectRec) : List Byte :=
  let os := listedObjects src alive
  w32 os.length ++ w32 (alive.length - os.length) ++ w64 0 ++ os.flatMap (objectBytes src)

/-- A Drivable Space payload (R335). -/
def drivableBytes (maxRange : F32) (ss : List Sector) : List Byte :=
  w32 (ss.length % 1024) ++ w32 maxRange.toNat ++ w64 0 ++
  ss.flatMap (fun s => w32 (half16 s.freeRange + 2 ^ 16 * s.boundary.val + 2 ^ 24 * s.conf.toNat))

/-- An FP16 field is finite (R383). -/
def halfFinite (w : Nat) : Bool := decide (w / 2 ^ 10 % 32 ≠ 31)

/-- The value of a finite FP16 field. -/
def halfValue (w : Nat) : Dyadic := match fpDecode 5 10 w with | .fin _ v => v | _ => { m := 0, e := 0 }

/-- The checks of R383 on the fields of a content. -/
def contentOk (src : Source) : Content → Bool
  | .objects alive => (listedObjects src alive).all (fun o => o.geom.all f32Finite && o.sigma.all (fun v => halfFinite (half16 v)))
  | .drivable m ss =>
    decide (64 ≤ ss.length) && decide (ss.length ≤ 720) && f32Finite m &&
    ss.all (fun s => halfFinite (half16 s.freeRange) && !(f32Value m).lt (halfValue (half16 s.freeRange)))

/-- A content as a payload. -/
def contentBytes (src : Source) : Content → List Byte
  | .objects alive => objectList src alive
  | .drivable m ss => drivableBytes m ss

/-- The data of a grid product of a tick (R337, R360). -/
def Dev.gridData (d : Dev) (tick mode product : Nat) : Option GridData :=
  let im := d.imageAt tick
  match im.host.products[product]?, assoc mode im.grids with
  | some p, some g =>
    match tensorOf (d.descsAt .main tick) (p.descs.getD mode 0xFFFF) with
    | none => none
    | some t =>
      let n := t.format.bits / 8
      let data := (List.range g.h).flatMap (fun j => (List.range g.w).flatMap (fun i =>
        (List.range p.channels).flatMap (fun c => leBytes n (d.elem t.format (t.row [c, i, j]) c))))
      some { product := product, format := p.format, w := g.w, h := g.h, channels := p.channels, pitch := g.pitch,
             hbinBase := g.hbinBase, hbinH := g.hbinH, hbinCount := g.hbinCount, data := data }
  | _, _ => none

/-- Bytes of an element of a grid frame's FORMAT (R337): UINT8 and FP8 take one, BF16 two. -/
def gridElem (format : Nat) : Nat := if format = 5 then 2 else 1

/-- The header of a grid frame's payload over a region and channels (R337): first and count of columns, rows and
channels. -/
def gridHead (g : GridData) (cf cc rf rc hf hc : Nat) : List Byte :=
  w32 (g.product % 65536 + 2 ^ 16 * (g.format % 16)) ++ w32 (g.w + 2 ^ 16 * g.h) ++ w32 g.pitch.toNat ++
  w32 (cf + 2 ^ 16 * cc) ++ w32 (rf + 2 ^ 16 * rc) ++ w32 (hf + 2 ^ 16 * hc) ++ w32 g.hbinBase.toNat ++ w32 g.hbinH.toNat ++
  w32 g.hbinCount ++ (List.replicate 28 (0 : Byte))

/-- A grid frame's payload over a region and channels (R337). -/
def gridPayload (g : GridData) (cf cc rf rc hf hc : Nat) : List Byte :=
  let n := gridElem g.format
  gridHead g cf cc rf rc hf hc ++
  (List.range rc).flatMap (fun j => (List.range cc).flatMap (fun i =>
    (g.data.drop ((((rf + j) * g.w + (cf + i)) * g.channels + hf) * n)).take (hc * n)))

/-- The whole of a payload: a grid frame's over its whole grid. -/
def payloadBytes : Payload → List Byte
  | .missing => []
  | .bytes b => b
  | .grid g => gridPayload g 0 g.w 0 g.h 0 g.channels

/-- What PAINT wrote for point n (R183): its features and view word. -/
def Dev.painted (d : Dev) (tick mode n : Nat) : Option (List Byte × List Byte) :=
  match assoc mode (d.imageAt tick).grids with
  | none => none
  | some g => match g.ops.find? (fun o => o.op = .paint) with
    | none => none
    | some o => match tensorOf (d.descsAt .main tick) o.dest with
      | none => none
      | some t =>
        let f := chbFormat o.outFormat
        let row := t.row [0, n]
        some (d.bytes row (rowBytes f o.channels), d.bytes (row + rowBytes f o.channels) 4)

/-- A mode's PAINT operation: its channels and format (R338). -/
def Dev.paintOf (d : Dev) (tick mode : Nat) : Option (Nat × Nat) :=
  match assoc mode (d.imageAt tick).grids with
  | none => none
  | some g => (g.ops.find? (fun o => o.op = .paint)).map (fun o => (o.channels, o.outFormat))

/-- The code of a painted feature's format (R224). -/
def featCode (format : Nat) : Nat := match chbFormat format with | .fp8e4m3 => 3 | .bf16 => 5 | _ => 6

/-- A record of a point frame (R338). -/
def Dev.pointRecord (d : Dev) (tick mode : Nat) (delta : List F64) (i : Nat) (p : PointRec) : List Byte :=
  let v := moveBy (.open .tweed) (viewOf (.open .tweed) delta) p.p
  let body := match d.painted tick mode i with
    | some (fs, w) => pointBytes p v ++ w ++ fs
    | none => pointBytes p v ++ w32 0
  padTo ((body.length + 7) / 8 * 8) body

/-- A point frame's payload (R338): the points of the main engine in point-list order. -/
def Dev.pointFrame (d : Dev) (tick mode : Nat) : List Byte :=
  let e := d.engine .main
  let delta := match e.finalOf tick with | some x => x.2 | none => identityPose
  let ps := (e.insertedPoints tick).zipIdx.map (fun x => d.pointRecord tick mode delta x.2 x.1.2)
  let n := match d.paintOf tick mode with | some c => rowBytes (chbFormat c.2) c.1 | none => 0
  let head := w32 ps.length ++
    w32 ((36 + n + 7) / 8 * 8 + (match d.paintOf tick mode with | some c => 2 ^ 16 * c.1 + 2 ^ 25 * featCode c.2 | none => 0)) ++
    List.replicate 24 (0 : Byte)
  head ++ ps.flatten

/-! ### Completion and selection (R382, R383) -/

/-- No SAFETY_PATH window of the source in the tick ended with INVALID (R383). -/
def Dev.invalidClear (d : Dev) (src : Source) (tick : Nat) : Bool :=
  (d.windowsAt src tick).all (fun x => !(x.2.safetyPath && (d.win src tick x.1).invalid))

/-- The objects of a content. -/
def objectsOf (src : Source) : Content → List ObjectRec
  | .objects alive => listedObjects src alive
  | .drivable _ _ => []

/-- Put a completed output in place; where it had sealed already, it enters what queries read. -/
def putCompleted (a : Assembling) (d : Dev) : Dev :=
  let d := putAssembling a d
  if a.taken.isSome then keepOutput a d else d

/-- The numbers of all the tracks alive in a content. -/
def aliveOf : Content → List Nat
  | .objects alive => alive.map (·.trackId)
  | .drivable _ _ => []

/-- One output of an assembly window completes (R323, R383): an Object List or Drivable Space with what the pipeline has
delivered for it, a grid or point frame with what lies in memory. -/
def completeOutput (src : Source) (tick : Nat) (cs : List Delivered) (d : Dev) (kind : OutKind) : Dev :=
  let a := d.begun src tick kind
  match kind, d.tickRec tick with
  | .grid p, some r => match d.gridData tick r.mode p.val with
    | some g => putCompleted { a with payload := some (.grid g), ok := true } d
    | none => d
  | .points, some r => putCompleted { a with payload := some (.bytes (d.pointFrame tick r.mode)), ok := true } d
  | _, _ => match cs.find? (fun c => decide (c.kind = kind)) with
    | none => d
    | some c =>
      let ok := c.crcOk && c.tickOk && d.invalidClear src tick && contentOk src c.content
      putCompleted { a with payload := some (.bytes (contentBytes src c.content)), ok := ok,
                            objects := objectsOf src c.content, alive := aliveOf c.content } d

/-- A valid output of Burlap's (R380, R387): it ends the conditions of its pipeline and of the IOD's fabric, and that of an
SRAM error once the cluster runs again. -/
def burlapDelivers (d : Dev) : Dev :=
  let d := { d with felt := { d.felt with burlapValid := true } }
  let d := endConditions 0x0006 (endConditions 0x0005 (endConditions 0x0004 d))
  if [128, 129, 130, 131].any (fun n => decide ((d.cluster n).state = .restarting)) then d else endConditions 0x000C d

/-- Content rejected under R383: counted, with its code (R386, R395). -/
def rejectContent (src : Source) (kind : OutKind) (d : Dev) : Dev :=
  let c := d.felt.e2eFail.inc
  let d := satEvent (barVlk + 0x114) d.felt.e2eFail c { d with felt := { d.felt with e2eFail := c } }
  match src with
  | .main => raiseH 0x0102 dieIod kind.code 0 d
  | .burlap => raiseV 0x0006 dieIod kind.code 0 false kind.code d

/-- The assembly window of an output of a source in a tick is not marked missing. -/
def Dev.notMissing (d : Dev) (src : Source) (tick : Nat) (kind : OutKind) : Bool :=
  (d.windowsAt src tick).all (fun x => !(decide (x.2.kind = .assembly) && x.2.outputs.contains kind &&
    decide ((d.win src tick x.1).phase = .missing)))

/-- The content of a source for an output of a tick, with the result of its checks, where its assembly has completed. -/
def Dev.candidate (d : Dev) (src : Source) (tick : Nat) (kind : OutKind) : Option Bool :=
  match d.assembling src tick kind with
  | some a => if a.payload.isSome && d.notMissing src tick kind then some a.ok else none
  | none => none

/-- The source already selected for an output of a tick. -/
def Dev.selection (d : Dev) (tick : Nat) (kind : OutKind) : Option (Option Source) :=
  (d.output.selected.find? (fun s => s.1 = tick && decide (s.2.1 = kind))).map (·.2.2)

/-- Note a selection; a valid content ends 0x0009 of its kind (R387). -/
def noteSelection (tick : Nat) (kind : OutKind) (s : Option Source) (d : Dev) : Dev :=
  let d := { d with output := { d.output with selected := (tick, kind, s) :: d.output.selected } }
  match s with
  | some _ => endCondition 0x0009 kind.code d
  | none => raiseV 0x0009 dieIod kind.code 0 false kind.code d

/-- Felt's selection of an Object List or Drivable Space of a tick, once (R382). -/
def selectOutput (tick : Nat) (d : Dev) (kind : OutKind) : Dev :=
  if (decide (kind ≠ .objectList) && decide (kind ≠ .drivable)) || (d.selection tick kind).isSome then d
  else
    let main := d.candidate .main tick kind
    if main = some true then noteSelection tick kind (some .main) d
    else
      let d := if main = some false then rejectContent .main kind d else d
      match d.candidate .burlap tick kind with
      | some true => noteSelection tick kind (some .burlap) d
      | some false => noteSelection tick kind none (rejectContent .burlap kind d)
      | none => noteSelection tick kind none d

/-- ASSEMBLY_COMPLETE (R382): the assembly of a window's outputs ends; Felt selects where it is the main pipeline's. -/
def assemblyComplete (src : Source) (tick w : Nat) (contents : List Delivered) (d : Dev) : Dev :=
  match d.windowRec src tick w with
  | none => d
  | some r =>
    let s := d.win src tick w
    if r.kind ≠ .assembly || s.phase ≠ .running then d
    else
      let d := d.setWin src tick w { s with phase := .ended }
      let d := r.outputs.foldl (completeOutput src tick contents) d
      match src with
      | .main => r.outputs.foldl (selectOutput tick) d
      | .burlap =>
        if r.outputs.any (fun k => decide (d.candidate .burlap tick k = some true)) then burlapDelivers d else d

/-- TSQ_WDG_COUNT after one more expiry (R248, R265). -/
def countWdg (d : Dev) : Dev :=
  bump (barTsq + 0x118) d.plan.wdg 1 (fun c d => { d with plan := { d.plan with wdg := c } }) d

/-- ASSEMBLY_TIMER_EXPIRY (R248, R382): an assembly window that has not completed is marked missing; Felt selects for a
main one, at the latest now. -/
def assemblyTimerExpiry (src : Source) (tick w : Nat) (d : Dev) : Dev :=
  match d.windowRec src tick w with
  | none => d
  | some r =>
    if r.kind ≠ .assembly || !d.reached (d.expiry tick r) then d
    else
      let d := match (d.win src tick w).phase with
        | .running =>
          let d := miss .overrun src tick w (countWdg d)
          (match src with
            | .burlap => raiseV 0x0005 dieIod r.target w false 0 d
            | .main => d)
        | _ => d
      match src with
      | .main => r.outputs.foldl (selectOutput tick) d
      | .burlap => d

/-! ### The frame (R324, R325) -/

/-- END of a solve as the header codes it (R325). -/
def SolveStatus.code : SolveStatus → Nat
  | .converged => 0 | .capped => 1 | .discarded => 2 | .notRun => 3

/-- A contribution entry's bytes (R328). -/
def contribBytes (c : ContribEntry) : List Byte :=
  w32 (c.stream + 2 ^ 8 * bit c.absent + 2 ^ 9 * bit c.far + 2 ^ 10 * bit c.reacq + 2 ^ 11 * bit c.quota) ++
  w32 c.contributed.toNat ++ w32 c.late.toNat ++ w32 c.stale.toNat ++ w32 c.postOutput.toNat ++ w32 c.quotaDrop.toNat ++
  w64 c.oldest ++ w64 c.newest

/-- The consistency record's bytes (R329). -/
def consistBytes (e : EgoBlock) (cs : List ConsistEntry) : List Byte :=
  (List.range 5).flatMap (fun i => w32 (if e.compared then (e.diffs.getD i 0).toNat else 0)) ++
  w32 (bit e.compared + 2 * bit e.disagree) ++ w64 0 ++
  cs.flatMap (fun c => w32 (c.stream + 2 ^ 6 * bit c.camera) ++ w32 c.resid.toNat ++ w32 (c.inlier % 65536) ++ w32 c.tick)

/-- Bytes 0x00 to 0x7B of the header (R325). -/
def headerBytes (o : Output) (final : Bool) (quality : BitVec 32) (payload : List Byte) : List Byte :=
  let s := o.rec_
  let n := s.contrib.length
  let m := s.consist.length
  let missing := decide (o.payload = .missing)
  let consistOff := 0x80 + 0x28 * n
  let payloadOff := consistOff + 0x20 + 0x10 * m
  w32 (o.kind.code + 2 ^ 8 * 1 + 2 ^ 16 * (o.mode % 16) + 2 ^ 20 * o.source.idx + 2 ^ 21 * bit final + 2 ^ 22 * bit missing) ++
  w32 o.seq.toNat ++ w64 o.k ++ w32 (o.minor % 256) ++ w32 o.epoch.toNat ++ w64 o.tValid ++ w64 o.tOutput ++
  w32 o.ageOldest ++ w32 quality.toNat ++ w64 (twos 64 o.vtOffset) ++ w32 s.calGen.toNat ++ w32 s.odoEpoch.toNat ++
  w32 (twos 32 s.gridC.1) ++ w32 (twos 32 s.gridC.2) ++ w32 s.gridF.1.toNat ++ w32 s.gridF.2.toNat ++ w32 s.anchorYaw.toNat ++
  w32 (satTo 0xFFFF s.winMissing + 2 ^ 16 * satTo 0xFFFF s.appendRefused) ++ w32 (satTo 0xFFFFFFFF s.missingTokens) ++
  w32 (SolveStatus.code s.egoEnd + 2 ^ 2 * bit s.egoReg +
    (match s.scan with
      | some x => 2 ^ 3 * SolveStatus.code x.1 + 2 ^ 5 * bit x.2 + 2 ^ 6
      | none => 0) + 2 ^ 8 * n + 2 ^ 16 * m) ++
  w32 0x80 ++ w32 consistOff ++ w32 payloadOff ++ w32 payload.length ++ w64 0 ++
  w32 (if payload.isEmpty then 0 else (crc32c payload).toNat)

/-- A frame of an output (R324): `final` and the payload are those of its receiver. -/
def frameBytes (o : Output) (final : Bool) (quality : BitVec 32) (payload : List Byte) : List Byte :=
  let head := headerBytes o final quality payload
  let recs := o.rec_.contrib.flatMap contribBytes ++ consistBytes o.rec_.ego o.rec_.consist
  head ++ w32 (crc32c (head ++ recs)).toNat ++ recs ++ payload

/-- The quality word of an output but for class V (R330, R331): VALID, FALLBACK, the sealed bits and TIME_HOLDOVER. -/
def qualityOf (valid : Bool) (src : Source) (holdover : Bool) (s : Seal) : BitVec 32 :=
  qbit 0 valid ||| qbit 1 (decide (src = .burlap)) ||| s.quality ||| qbit 15 holdover

/-- The planned release of a kind's TRANSMIT window in a tick (R75, R261). -/
def Dev.releaseAt (d : Dev) (tick : Nat) (kind : OutKind) : Option Int :=
  match (d.windowsAt .main tick).find? (fun x => decide (x.2.kind = .transmit) && x.2.outputs.contains kind) with
  | some x => d.opening tick x.2
  | none => none

/-- An output of a tick from what a source has assembled, with its OUT_SEQ (R325). -/
def Dev.outputOf (d : Dev) (a : Assembling) (s : Seal) (r : TickRec) (n : BitVec 32) (payload : Payload) : Output :=
  let tOut := ((d.releaseAt a.tick a.kind).getD d.now).toNat
  { kind := a.kind, source := a.src, mode := r.mode, seq := n, k := a.tick, minor := r.dMinor, epoch := r.epoch,
    tValid := r.valid, tOutput := tOut, ageOldest := ageOf tOut s.ageTimes,
    quality := qualityOf (decide (payload ≠ .missing)) a.src a.holdover s, vtOffset := a.vtOffset, rec_ := s,
    payload := payload }

/-- An output of a tick made ready to go out (R325): of the source selected, or with no payload. -/
def buildOutput (tick : Nat) (kind : OutKind) (sel : Option Source) (d : Dev) : Option (Output × List ObjectRec × Dev) :=
  match d.tickRec tick with
  | none => none
  | some r =>
    let src := sel.getD .main
    let d := sealOutput src tick d kind
    let a := d.begun src tick kind
    match a.taken with
    | none => none
    | some s =>
      let payload : Payload := if sel.isSome then a.payload.getD .missing else .missing
      let n := if frameKind kind then (a.seq, d) else takeSeq src kind d
      some (d.outputOf a s r n.1 payload, (if sel.isSome then a.objects else []), n.2)

/-! ### Ego State (R312, R336, R382, R393) -/

/-- The components of a vector of the odometry frame in the vehicle frame (R314, R336). -/
def vehicleVec (e : PoseEntry) (v : List F64) : List F32 := (rotate64 outR (quatConj64 e.quat) v).map outR.narrow

/-- The ego entry of a boundary as a payload (R336). -/
def egoPayload (e : EgoEntry) : List Byte :=
  let p (i : Nat) : List Byte := w64 (e.entry.pos.getD i 0).toNat
  let q (i : Nat) : List Byte := w64 (e.entry.quat.getD i 0).toNat
  let v (x : List F64) (i : Nat) : List Byte := w32 ((vehicleVec e.entry x).getD i 0).toNat
  p 0 ++ p 1 ++ p 2 ++ q 0 ++ q 1 ++ q 2 ++ q 3 ++
  v e.entry.vel 0 ++ v e.entry.vel 1 ++ v e.entry.vel 2 ++ v e.entry.rate 0 ++ v e.entry.rate 1 ++ v e.entry.rate 2 ++
  w32 (bit e.entry.valid) ++ w32 (half16 (e.sigma.getD 0 0) + 2 ^ 16 * half16 (e.sigma.getD 1 0)) ++
  w32 (half16 (e.sigma.getD 2 0)) ++ w32 0

/-- The norm of an orientation lies within 10^-6 of 1 (R383). -/
def quatUnit (q : List F64) : Bool :=
  let n : Dyadic := q.foldl (fun (s : Dyadic) v => s.add ((f64Value v).mul (f64Value v))) { m := 0, e := 0 }
  let lim : Dyadic := { m := 1000000000000, e := 0 }
  let s := n.mul lim
  q.all f64Finite && !s.lt { m := 999999 * 999999, e := 0 } && !(Dyadic.lt { m := 1000001 * 1000001, e := 0 } s)

/-- The norm of the difference of two vectors (R329). -/
def diffNorm (a b : List F32) : F32 :=
  let v := List.zipWith outR.sub a b
  outR.sqrt (dot32 outR v v)

/-- The larger of the roll and pitch differences (R329), each the short way round. -/
def diffRollPitch (a b : List F64) : F32 :=
  let one (axis : Nat) : F32 :=
    let x := f32Abs (outR.narrow (outR.sub64 (euler64 outR axis a) (euler64 outR axis b)))
    f32Min x (f32Abs (outR.sub 0x40C90FDB x))
  f32Max (one 0) (one 1)

/-- The translation and rotation differences of two rigid motions, each from a pose to a pose (R329). -/
def diffMotion (a0 a1 b0 b1 : List F64) : F32 × F32 :=
  let x := composeRigid outR (invertRigid outR a0) a1
  let y := composeRigid outR (invertRigid outR b0) b1
  (outR.narrow (norm64 outR (vsub64 outR (x.take 3) (y.take 3))), outR.narrow (turnAngle64 outR (x.drop 3) (y.drop 3)))

/-- Felt's comparison of S0 and S3 at boundary b (R329, R393). -/
def Dev.compareEgo (d : Dev) (b : Nanos) : EgoBlock :=
  let a := (d.egoEntry .main b).entry
  let f := (d.egoEntry .burlap b).entry
  if !(a.valid && f.valid) then { b := b }
  else
    let from_ := b - d.time.pNs
    let a0 := d.muslin.poseMain.find? (fun e => e.b = from_ && e.valid)
    let f0 := d.muslin.poseFb.find? (fun e => e.b = from_ && e.valid)
    let stable := decide (d.felt.epochMainAt < from_) && decide (d.felt.epochFbAt < from_)
    let motion : Option (F32 × F32) := match a0, f0 with
      | some a0, some f0 =>
        if stable then some (diffMotion a0.pose a.pose f0.pose f.pose) else none
      | _, _ => none
    let diffs := [diffNorm (vehicleVec a a.vel) (vehicleVec f f.vel), diffNorm (vehicleVec a a.rate) (vehicleVec f f.rate),
      diffRollPitch a.quat f.quat, (motion.map (·.1)).getD 0, (motion.map (·.2)).getD 0]
    let tested := if motion.isSome then [0, 1, 2, 3, 4] else [0, 1, 2]
    { b := b, compared := true, diffs := diffs,
      disagree := tested.any (fun i => !f32Le (diffs.getD i 0) (d.image.safety.disMax.getD i 0)) }

/-- EGO_CROSS_CHECK (R393): the comparison at boundary b is counted and kept. -/
def crossCheck (b : Nanos) (d : Dev) : Dev :=
  let x := d.compareEgo b
  let keep := if d.plan.ticks.any (fun t => t.2.valid = b && !t.2.transition) then ((b, x) :: d.felt.egoAt).take 64 else d.felt.egoAt
  let last := if x.compared then x else d.felt.ego
  let d := { d with felt := { d.felt with egoAt := keep, ego := last } }
  if x.disagree then
    bump (barVlk + 0x118) d.felt.egoDisagree 1 (fun c d => { d with felt := { d.felt with
      egoDisagree := c, window := { d.felt.window with disagree := true } } }) d
  else d

/-- An entry of a source passes R383. -/
def Dev.egoPasses (d : Dev) (src : Source) (b : Nanos) : Bool :=
  let e := (d.egoEntry src b).entry
  e.valid && quatUnit e.quat

/-- The Ego State of boundary b from a source, in minor tick (k, m), with its planned release instant (R75, R325, R336). -/
def egoOutput (src : Source) (k m : Nat) (b out : Nanos) (block : EgoBlock) (d : Dev) : Option (Output × Dev) :=
  match d.tickRec k with
  | none => none
  | some r =>
    let e := d.egoEntry src b
    let es := (sortBy (fun a b : Nat × StreamEntry => decide (a.1 < b.1)) (d.imageAt k).streams.entries).filter (fun x =>
      decide (x.2.kind = .egoInput) && x.2.modeMask.contains r.mode && (d.egoInputs src).contains x.1)
    let cs := es.map (fun x => d.egoContrib src k b x.1 x.2)
    let key := outKey src .egoState
    let incomplete := match d.lastGolden k b with | some j => d.felt.goldenIncomplete.contains j | none => false
    let q := contribQuality cs ||| solveQuality e.status e.reg ||| d.carried key ||| qbit 11 block.disagree |||
      qbit 12 (r.modeSwitched && decide (b = r.start)) ||| qbit 13 (d.restartedSince r.start) ||| qbit 14 incomplete
    let s : Seal := {
      quality := q, calGen := d.calGenOf k, odoEpoch := BitVec.ofNat 32 e.entry.epoch, gridC := (0, 0), gridF := (0, 0),
      anchorYaw := 0, winMissing := 0, appendRefused := 0, missingTokens := 0, egoEnd := e.status, egoReg := e.reg,
      scan := none, contrib := cs, ageTimes := ageTimes es cs, ego := block, consist := [] }
    let d := takeCarried src .egoState [] d
    let (n, d) := takeSeq src .egoState d
    let o : Output := {
      kind := .egoState, source := src, mode := r.mode, seq := n, k := k, minor := m, epoch := r.epoch, tValid := b,
      tOutput := out, ageOldest := ageOf out s.ageTimes, quality := qualityOf (d.egoPasses src b) src d.time.holdover s,
      vtOffset := d.time.vtOffset, rec_ := s, payload := .bytes (egoPayload e) }
    some (o, d)

/-- A valid entry that fails its check is rejected content (R383). -/
def rejectEgo (src : Source) (b : Nanos) (d : Dev) : Dev :=
  if (d.egoEntry src b).entry.valid && !d.egoPasses src b then rejectContent src .egoState d else d

/-- Some solver has had an odometry epoch since cold reset (R132). -/
def Dev.egoBegun (d : Dev) : Bool :=
  [Source.main, Source.burlap].any (fun s => match d.egoSlot s with | some g => (d.srgSlot g).begun | none => false)

/-- The source of the Ego State of b (R382): S0's entry where it is valid and passes, else S3's, else S0's with 0x0009. -/
def selectEgo (b : Nanos) (d : Dev) : Source × Dev :=
  let ends (d : Dev) : Dev := endCondition 0x0009 OutKind.egoState.code d
  if d.egoPasses .main b then (.main, ends d)
  else
    let d := rejectEgo .main b d
    if d.egoPasses .burlap b then (.burlap, ends d)
    else
      let d := rejectEgo .burlap b d
      (.main, if d.egoBegun then raiseV 0x0009 dieIod OutKind.egoState.code 0 false OutKind.egoState.code d else d)

end Sys2Proof.Machine
end

