-- ==== Sys2Proof/Machine/Sessions.lean ====
section
/-!
DEFINITION. The host ports: their registers, interrupts, sessions and rings
(spec/15_host_ports_and_sessions.md R342 to R352, R359, R362; spec/17_image_boot_and_firmware.md R422).
-/

namespace Sys2Proof.Machine

open Sys2Proof

/-! ### Firmware processors (R417, R423) -/

/-- The host processor. -/
def procHost : Nat := 2
/-- The housekeeping processor. -/
def procHkp : Nat := 3

/-- Firmware processor p runs. -/
def Dev.fwRuns (d : Dev) (p : Nat) : Bool := !(d.proc p).restarting

/-! ### Writes to host memory and counters -/

/-- Write to host memory, where the port can (R343, R349). -/
def hostWrite (p addr : Nat) (bytes : List Byte) (d : Dev) : Dev :=
  if (d.port p).canWrite then emit (.hostWrite p addr bytes) d else d

/-- Write a word of the write-back area (R350). -/
def writeBack (p off : Nat) (v : BitVec 32) (d : Dev) : Dev := hostWrite p ((d.port p).wbAddr + off) (w32 v.toNat) d

/-- One more ignored write or doorbell of a port (R345). -/
def countProto (p : Nat) (d : Dev) : Dev :=
  bump 0x34C (d.port p).protoErr 1 (fun c d => d.modPort p (fun h => { h with protoErr := c })) d

/-- The session of a port takes a state; a change sets SESSION (R346). -/
def setSession (p : Nat) (s : SessState) (d : Dev) : Dev :=
  if (d.port p).state = s then d else setInt p intSession (d.modPort p (fun h => { h with state := s }))

/-- A session is open or closing: doorbells and writes of its rings are in force (R345). -/
def HostPort.live (h : HostPort) : Bool := decide (h.state = .open_) || decide (h.state = .closing)

/-! ### Completions (R352, R355, R356) -/

/-- Write a completion entry to the ring, where the session still stands, and count its status (R345, R352). -/
def writeCompletion (p : Nat) (c : Completion) (d : Dev) : Dev :=
  let h := d.port p
  if !h.live then d
  else
    let size := 2 ^ h.cqSizeLog2
    let addr := h.cqBase + 32 * (h.cqTail.toNat % size)
    let head := w32 c.queryId.toNat ++
      w32 (c.status.toNat + 2 ^ 8 * c.origStatus.toNat + 2 ^ 16 * bit c.resultPresent) ++ w32 (c.resultBytes % 2 ^ 32) ++
      w32 (c.tick % 2 ^ 32) ++ w64 c.tDone ++ w32 c.gen.toNat
    let d := hostWrite p (addr + 0x1C) (w32 (bit c.phase)) (hostWrite p addr head d)
    let d := d.modPort p (fun h => { h with cqTail := h.cqTail + 1, cqReserved := h.cqReserved - 1 })
    let d := if c.status = stDuplicate then
        bump 0x340 (d.port p).dup 1 (fun k d => d.modPort p (fun h => { h with dup := k })) d
      else if c.status = stStale then
        bump 0x344 (d.port p).stale 1 (fun k d => d.modPort p (fun h => { h with stale := k })) d
      else if c.status = stRefused then
        bump 0x348 (d.port p).refuse 1 (fun k d => d.modPort p (fun h => { h with refuse := k })) d
      else d
    setInt p intCq (writeBack p 0x04 (d.port p).cqTail d)

/-- The bytes of results that the store holds. -/
def storeSum (l : List HeldId) : Nat := l.foldl (fun n x => n + (match x.result with | some b => b.length | none => 0)) 0

/-- Drop results, the oldest first, until the store holds at most `room` bytes (R356). -/
def evict (room : Nat) : List HeldId → List HeldId
  | [] => []
  | x :: rest => if storeSum (x :: rest) ≤ room then x :: rest else { x with result := none } :: evict room rest

/-- The record of section 0x30 for a port. -/
def Dev.portRec (d : Dev) (p : Nat) : Option HostPortRec := d.image.host.ports[p]?

/-- A port's result store in bytes (R356). -/
def Dev.storeBytes (d : Dev) (p : Nat) : Nat := match d.portRec p with | some r => r.resultStoreKib * 1024 | none => 0

/-- Put a completion and its result beside the held identifier (R356). -/
def holdDone (cap : Nat) (id : BitVec 32) (c : Completion) (r : Option (List Byte)) (l : List HeldId) : List HeldId :=
  match r with
  | some b =>
    let l := if b.length ≤ cap then evict (cap - b.length) l else l
    l.map (fun x => if x.id = id then { x with done := some c, result := if b.length ≤ cap then some b else none } else x)
  | none => l.map (fun x => if x.id = id then { x with done := some c } else x)

/-- A completion of a submission now. -/
def Dev.completion (d : Dev) (p : Nat) (sub : Submission) (status orig : BitVec 8) (tick : Nat) (present : Bool)
    (bytes : Nat) : Completion :=
  let h := d.port p
  { queryId := sub.queryId, status := status, origStatus := orig, resultPresent := present, resultBytes := bytes,
    tick := tick, tDone := d.now, gen := h.gen, phase := decide (h.cqTail.toNat / 2 ^ h.cqSizeLog2 % 2 = 0) }

/-- A duplicate completes after its original (R356): with the original's result, where it is still held and fits. No tick
was charged, and the spec gives none. -/
def finishDup (p : Nat) (c : Completion) (stored : Option (List Byte)) (d : Dev) (sub : Submission) : Dev :=
  let f := drawFree d
  match stored with
  | some b =>
    if b.length ≤ sub.resultLen then
      writeCompletion p (f.2.completion p sub stDuplicate c.status f.1.toNat true b.length) (hostWrite p sub.resultAddr b f.2)
    else writeCompletion p (f.2.completion p sub stDuplicate c.status f.1.toNat false 0) f.2
  | none => writeCompletion p (f.2.completion p sub stDuplicate c.status f.1.toNat false 0) f.2

/-- Complete a submission, and the duplicates that waited for it: `result` is what is written, `bytes` RESULT_BYTES
(R352, R355, R356). -/
def complete (p : Nat) (sub : Submission) (status : BitVec 8) (tick : Nat) (result : Option (List Byte)) (bytes : Nat)
    (d : Dev) : Dev :=
  let d := match result with | some b => hostWrite p sub.resultAddr b d | none => d
  let c := d.completion p sub status 0 tick result.isSome bytes
  let d := writeCompletion p c d
  let cap := d.storeBytes p
  let d := d.modPort p (fun h => { h with ids := holdDone cap sub.queryId c result h.ids })
  let stored := match (d.port p).ids.find? (fun x => x.id = sub.queryId) with | some x => x.result | none => none
  let dups := (d.port p).waitingDups.filter (fun x => x.queryId = sub.queryId)
  let d := d.modPort p (fun h => { h with waitingDups := h.waitingDups.filter (fun x => x.queryId ≠ sub.queryId) })
  dups.foldl (finishDup p c stored) d

/-- Complete a submission that no tick was charged for, with no result. -/
def completePlain (p : Nat) (status : BitVec 8) (d : Dev) (sub : Submission) : Dev :=
  let f := drawFree d
  complete p sub status f.1.toNat none 0 f.2

/-- Complete with a result, where RESULT_LEN holds it; else INVALID with the need (R355). -/
def completeWith (p : Nat) (sub : Submission) (status : BitVec 8) (tick : Nat) (b : List Byte) (d : Dev) : Dev :=
  if b.isEmpty then complete p sub status tick none 0 d
  else if b.length ≤ sub.resultLen then complete p sub status tick (some b) b.length d
  else complete p sub stInvalid tick none b.length d

/-! ### Closing (R347 to R349) -/

/-- The first tick that begins at or after now (R288). -/
def Dev.nextStart (d : Dev) : Nat := if d.now ≤ d.time.bk then d.time.k else d.time.k + 1

/-- A session's forks are freed in the epoch of the first tick that begins at or after the close (R288). -/
def freeForks (p : Nat) (d : Dev) : Dev :=
  let e := d.nextStart
  let d := (d.port p).forks.foldl (fun d i => match d.seqOf i with
    | some q => if q.freeAt.isSome then d else setSeq i (some { q with freeAt := some e }) d
    | none => d) d
  d.modPort p (fun h => { h with forks := [] })

/-- The window of a key is running. -/
def Dev.keyRunning (d : Dev) (key : Nat) : Bool := decide ((bget {} key d.plan.windows).phase = .running)

/-- The next query in a window: in order of acceptance over all ports (R357), with its port. -/
def Dev.nextIn (d : Dev) (key : Nat) : Option (Nat × Work) :=
  let all := (List.range 4).flatMap (fun p => ((d.port p).work.filter (fun w => w.window = some key && w.status.isNone)).map
    (fun w => (p, w)))
  (sortBy (fun a b : Nat × Work => decide (a.2.order < b.2.order)) all).head?

/-- A submission of port p runs, or its run has ended: a query that has its turn in a running window, or a command whose
work has begun. -/
def Dev.inHand (d : Dev) (p : Nat) (w : Work) : Bool :=
  w.started || w.status.isSome ||
  (match w.window with
    | some key => d.keyRunning key && decide ((d.nextIn key) = some (p, w))
    | none => false)

/-- The start of the tick after the one in progress. -/
def Dev.nextMajor (d : Dev) : Nanos := d.time.startOf (d.time.k + 1)

/-- A subscription ends at an instant, if it does not end before (R327, R349, R358). -/
def endSub (t : Nanos) (s : Subscription) : Subscription :=
  match s.endAt with
  | some e => { s with endAt := some (min e t) }
  | none => { s with endAt := some t }

/-- The bank of a port's subscriptions with every one changed. -/
def mapSubs (f : Subscription → Subscription) (b : Bank (List Subscription)) : Bank (List Subscription) :=
  b.foldl (fun acc e => bput [] e.1 (e.2.map f) acc) []

/-- A session enters CLOSING (R347, R349): subscriptions end at the next major tick boundary, lanes are released, forks
freed and identifiers discarded; what has not started completes SESSION_CLOSED. -/
def closing (p : Nat) (reason : CloseReason) (d : Dev) : Dev :=
  let t := d.nextMajor
  let gone := (d.port p).work.filter (fun w => !d.inHand p w)
  let d := d.modPort p (fun h => { h with
    subs := mapSubs (endSub t) h.subs, outstanding := [], budgetUsed := [], closeReason := reason,
    work := h.work.filter (fun w => d.inHand p w) })
  let d := (gone.map (·.sub)).foldl (completePlain p stClosed) d
  setSession p .closing (freeForks p (d.modPort p (fun h => { h with ids := [] })))

/-- A session becomes CLOSED (R347, R349): nothing of it remains. -/
def closeNow (p : Nat) (reason : Option CloseReason) (d : Dev) : Dev :=
  let d := freeForks p d
  let d := d.modPort p (fun h => { h with
    subs := [], work := [], waitingDups := [], ids := [], outstanding := [], budgetUsed := [], privileged := false,
    challenge := none, closeReason := reason.getD h.closeReason })
  let d := setSession p .closed d
  bump 0x354 (d.port p).closeCount 1 (fun c d => d.modPort p (fun h => { h with closeCount := c })) d

/-- A session in CLOSING becomes CLOSED at a major tick boundary (R347). -/
def closeDue (d : Dev) (p : Nat) : Dev := if (d.port p).state = .closing then closeNow p none d else d

/-! ### Opening and attestation (R347, R422) -/

/-- The bytes of an attestation report (R422). -/
def reportLen : Nat := 80416

/-- The memory of a session's rings: first address and size of each in use. -/
def HostPort.spans (h : HostPort) : List (Nat × Nat) :=
  (h.sqBase, 64 * 2 ^ h.sqSizeLog2) :: (h.cqBase, 32 * 2 ^ h.cqSizeLog2) ::
  (h.rings.filter (fun r => r.2.slotBytes ≠ 0)).map (fun r => (r.2.base, r.2.slotBytes * 2 ^ r.2.slotCountLog2))

/-- Two rings overlap. -/
def overlap (a b : Nat × Nat) : Bool := decide (a.1 < b.1 + b.2) && decide (b.1 < a.1 + a.2)

/-- No two of some rings overlap. -/
def apart : List (Nat × Nat) → Bool
  | [] => true
  | a :: rest => rest.all (fun b => !overlap a b) && apart rest

/-- A stream ring is unused, or its base and sizes are valid (R345, R347). -/
def StreamRing.ok (r : StreamRing) : Bool :=
  decide (r.slotBytes = 0) ||
  (decide (r.base % 4096 = 0) && decide (r.slotBytes % 4096 = 0) && decide (r.slotBytes ≤ 0x10000000) &&
    decide (1 ≤ r.slotCountLog2) && decide (r.slotCountLog2 ≤ 10))

/-- Every configured ring is valid (R347), and the write-back area and report buffer are aligned (R345). -/
def HostPort.ringsOk (h : HostPort) : Bool :=
  let size (n : Nat) : Bool := decide (6 ≤ n) && decide (n ≤ 12)
  decide (h.sqBase % 4096 = 0) && size h.sqSizeLog2 && decide (h.cqBase % 4096 = 0) && size h.cqSizeLog2 &&
  h.rings.all (fun r => r.2.ok) && apart h.spans && decide (h.wbAddr % 256 = 0) && decide (h.attestAddr % 64 = 0)

/-- The stream rings with their configuration alone. -/
def freshRings (b : Bank StreamRing) : Bank StreamRing :=
  b.foldl (fun acc e => bput {} e.1 { base := e.2.base, slotBytes := e.2.slotBytes, slotCountLog2 := e.2.slotCountLog2 } acc) []

/-- The per-session state is cleared, and the session's counters (R345, R347). -/
def HostPort.fresh (h : HostPort) : HostPort :=
  { h with
    privileged := false, sqTail := 0, sqHead := 0, cqHead := 0, cqTail := 0, cqReserved := 0, rings := freshRings h.rings,
    subs := [], budgetUsed := [], outstanding := [], dup := {}, stale := {}, refuse := {}, protoErr := {}, ids := [],
    waitingDups := [], work := [], forks := [] }

/-- A warm start runs, from its acceptance to its changeover boundary (R414). -/
def Dev.warmRunning (d : Dev) : Bool :=
  match d.boot.warm with
  | .reading _ | .changeover _ _ _ _ => true
  | _ => false

/-- SESSION_OPEN (R347, R414): OPEN is written. -/
def sessionOpen (port : Fin 4) (d : Dev) : Dev :=
  let p := port.val
  let h := d.port p
  let enabled := match d.portRec p with | some r => r.enable | none => false
  let refuse (r : CloseReason) : Dev := d.setPort p { h with closeReason := r }
  if !d.barOpen || !h.linkUp then d
  else if h.state ≠ .closed then countProto p d
  else if d.warmRunning then refuse .warmStart
  else if !enabled || !h.busMaster || !h.ringsOk || decide (h.attestLen < reportLen) then refuse .config
  else
    let c := Config.challenge d.freeCtr % 2 ^ 256
    let h := { h.fresh with gen := h.gen + 1, openAt := d.now, challenge := some c }
    setSession p .attesting { d.setPort p h with freeCtr := d.freeCtr + 1 }

/-- SESSION_CLOSE (R347, R362): CLOSE is written. In the cycle of a heartbeat expiry the reason is HOST. -/
def sessionClose (port : Fin 4) (d : Dev) : Dev :=
  let p := port.val
  let h := d.port p
  if !d.barOpen || !h.linkUp then d
  else match h.state with
    | .attesting => closeNow p (some .host) d
    | .open_ => closing p .host d
    | .closing =>
      if h.closeReason = .heartbeat && d.now = h.hbAt + 500 * msNs then d.setPort p { h with closeReason := .host }
      else countProto p d
    | .closed => countProto p d

/-- The body of an attestation report (R422). -/
def Dev.reportBody (d : Dev) (p : Nat) : List Byte :=
  let h := d.port p
  let b := d.boot
  w32 0x54415A4C ++ w32 reportLen ++ w64 b.nv.serial.toNat ++
  (List.range 8).flatMap (fun i => w32 (bget 0 i h.nonce).toNat) ++
  w32 (p + 2 ^ 16 * h.gen.toNat) ++
  w32 (b.nv.lifecycle.code + 2 ^ 8 * (b.nv.rollbackCount % 128) + 2 ^ 15 * b.bootSlot.idx) ++
  w32 b.image.manifest.serial.toNat ++ w32 d.plan.epoch.toNat ++ leBytes 32 b.image.manifestDigest ++ leBytes 32 b.image.certDigest ++
  leBytes 32 (h.challenge.getD 0) ++ w64 d.now ++ List.replicate 344 0

/-- The first n bytes of a string, with zero bytes behind a shorter one. -/
def exactly (n : Nat) (b : List Byte) : List Byte := (b ++ List.replicate (n - b.length) 0).take n

/-- The ASCII label of the identity key: "LZ9400 identity" (R421). -/
def identityLabel : List Byte := [0x4C, 0x5A, 0x39, 0x34, 0x30, 0x30, 0x20, 0x69, 0x64, 0x65, 0x6E, 0x74, 0x69, 0x74, 0x79]

/-- The three 32-byte seeds of the identity key: the 96 bytes of SHAKE256 over the fused seed and the label (R421). -/
def identitySeeds (nv : NvState) : List Byte := Config.shake256 96 (nv.identitySeed ++ identityLabel)

/-- The device certificate: the bytes of the identity store (R421, R422). -/
def deviceCert (nv : NvState) : List Byte := exactly certBytes nv.identityStore

/-- The identity store holds a certificate of KIND 2 that binds the device's public key and its serial (R404, R421). -/
def identityBound (nv : NvState) : Bool :=
  let c := certRec (deviceCert nv)
  decide (c.kind = 2) && decide (c.keyId = nv.serial) && decide (c.publicKey = Config.slhPublicKey (identitySeeds nv))

/-- A report is written to the host: body, device certificate, and the signature of both by the identity key (R421, R422). -/
def writeReport (p : Nat) (d : Dev) : Dev :=
  let signed := d.reportBody p ++ deviceCert d.boot.nv
  let bytes := signed ++ exactly 49856 (Config.slhSign (identitySeeds d.boot.nv) signed d.freeCtr)
  setInt p intAttest (hostWrite p (d.port p).attestAddr bytes { d with freeCtr := d.freeCtr + 1 })

/-- The command at the head of a port's commands (R354). -/
def Dev.headCommand (d : Dev) (p : Nat) : Option Work := (d.port p).work.find? (fun w => w.window.isNone)

/-- A command leaves the port's work. -/
def dropWork (p order : Nat) (d : Dev) : Dev :=
  d.modPort p (fun h => { h with work := h.work.filter (fun w => w.order ≠ order) })

/-- The head command completes. -/
def finishCommand (p : Nat) (w : Work) (status : BitVec 8) (b : List Byte) (d : Dev) : Dev :=
  let d := dropWork p w.order d
  let f := drawFree d
  completeWith p w.sub status f.1.toNat b f.2

/-- The head command of a port is one of an operation whose work has begun. -/
def Dev.begunCommand (d : Dev) (p : Nat) (op : BitVec 8) : Option Work :=
  match d.headCommand p with
  | some w => if w.started && w.sub.op = op then some w else none
  | none => none

/-- ATTEST_REPORT_DONE (R347, R422): the report of an OPEN, or of an ATTEST. -/
def attestReportDone (port : Fin 4) (d : Dev) : Dev :=
  let p := port.val
  let h := d.port p
  if !d.fwRuns procHkp || !h.canWrite then d
  else match h.state with
    | .attesting =>
      if d.now < h.openAt + 400 * msNs then
        let d := writeReport p d
        setSession p .open_ (d.modPort p (fun h => { h with hbAt := d.now }))
      else d
    | .open_ | .closing => match d.begunCommand p 0x12 with
      | some w => finishCommand p w stOk [] (writeReport p d)
      | none => d
    | .closed => d

/-- ATTEST_TIMEOUT (R347): no report 400 ms after OPEN. -/
def attestTimeout (port : Fin 4) (d : Dev) : Dev :=
  let h := d.port port.val
  if h.state = .attesting && decide (h.openAt + 400 * msNs ≤ d.now) then closeNow port.val (some .attest) d else d

/-! ### Heartbeat (R346, R348) -/

/-- HST_HEARTBEAT (R345, R348): any write in OPEN restarts the timer. -/
def hstHeartbeat (port : Fin 4) (value : BitVec 32) (d : Dev) : Dev :=
  let h := d.port port.val
  if !d.barOpen || !h.linkUp then d
  else d.setPort port.val { h with heartbeat := value, hbAt := if h.state = .open_ then d.now else h.hbAt }

/-- HB_WARN (R346): 300 ms without a heartbeat in OPEN. -/
def hbWarn (port : Fin 4) (d : Dev) : Dev :=
  let h := d.port port.val
  if h.state = .open_ && decide (h.hbAt + 300 * msNs ≤ d.now) then setInt port.val intHbWarn d else d

/-- HEARTBEAT_TIMEOUT (R348): 500 ms without a heartbeat in OPEN. -/
def heartbeatTimeout (port : Fin 4) (d : Dev) : Dev :=
  let h := d.port port.val
  if h.state = .open_ && decide (h.hbAt + 500 * msNs ≤ d.now) then closing port.val .heartbeat d else d

/-! ### Link events (R343, R347, R481) -/

/-- A session that a link event ends (R347, R349): nothing more is written to host memory. -/
def linkClose (p : Nat) (d : Dev) : Dev :=
  if (d.port p).state = .closed then d else closeNow p (some .link) d

/-- PCIE_LINK_EVENT (R347, R481). Every reset of the port, D3hot and a lost link leave Bus Master Enable clear; PERST_N
resets the port's registers but those kept from cold reset. -/
def pcieLinkEvent (port : Fin 4) (event : PcieEvent) (d : Dev) : Dev :=
  let p := port.val
  let off (up : Bool) (d : Dev) : Dev :=
    linkClose p (d.modPort p (fun h => { h with busMaster := false, linkUp := up && h.linkUp }))
  match event with
  | .linkDown => off false d
  | .hotReset | .flr | .d3hot | .busMasterClear => off true d
  | .perst =>
    let d := off false d
    d.modPort p (fun h => { gen := h.gen, closeCount := h.closeCount, closeReason := h.closeReason })
  | .busMasterSet => d.modPort p (fun h => { h with busMaster := h.linkUp })
  | .linkUp => if d.boot.phase = .held then d else d.modPort p (fun h => { h with linkUp := true })

/-- DMA_READ_FAULT (R343): reported by AER; the session enters CLOSING. -/
def dmaReadFault (port : Fin 4) (d : Dev) : Dev :=
  let h := d.port port.val
  if !h.linkUp then d
  else
    let d := emit (.aer port.val) d
    if h.state = .open_ then closing port.val .dma d else d

/-! ### Registers (R345, R346) -/

/-- The low word of an address register replaced. -/
def setLo (a : Nat) (v : BitVec 32) : Nat := a / 2 ^ 32 * 2 ^ 32 + v.toNat

/-- The high word of an address register replaced. -/
def setHi (a : Nat) (v : BitVec 32) : Nat := v.toNat * 2 ^ 32 + a % 2 ^ 32

/-- A configuration register of the HST block written, none where the offset is of no such register (R345). -/
def HostPort.configWrite (h : HostPort) (off : Nat) (v : BitVec 32) : Option HostPort :=
  let ring (f : StreamRing → StreamRing) : Option HostPort :=
    some { h with rings := bmod {} ((off - 0x100) / 0x20) f h.rings }
  if 0x020 ≤ off && off < 0x040 then some { h with nonce := bput 0 ((off - 0x020) / 4) v h.nonce }
  else if 0x100 ≤ off && off < 0x300 then
    match off % 0x20 with
    | 0x00 => ring (fun r => { r with base := setLo r.base v })
    | 0x04 => ring (fun r => { r with base := setHi r.base v })
    | 0x08 => ring (fun r => { r with slotBytes := v.toNat })
    | 0x0C => ring (fun r => { r with slotCountLog2 := v.toNat % 16 })
    | _ => none
  else match off with
    | 0x040 => some { h with attestAddr := setLo h.attestAddr v }
    | 0x044 => some { h with attestAddr := setHi h.attestAddr v }
    | 0x048 => some { h with attestLen := v.toNat }
    | 0x050 => some { h with wbAddr := setLo h.wbAddr v }
    | 0x054 => some { h with wbAddr := setHi h.wbAddr v }
    | 0x060 => some { h with sqBase := setLo h.sqBase v }
    | 0x064 => some { h with sqBase := setHi h.sqBase v }
    | 0x068 => some { h with sqSizeLog2 := v.toNat % 16 }
    | 0x080 => some { h with cqBase := setLo h.cqBase v }
    | 0x084 => some { h with cqBase := setHi h.cqBase v }
    | 0x088 => some { h with cqSizeLog2 := v.toNat % 16 }
    | _ => none

/-- HST_SQ_TAIL (R345, R352). -/
def hstSqTail (port : Fin 4) (value : BitVec 32) (d : Dev) : Dev :=
  let p := port.val
  let h := d.port p
  if !d.barOpen || !h.linkUp then d
  else if !h.live || decide (2 ^ h.sqSizeLog2 < (value - h.sqHead).toNat) then countProto p d
  else d.setPort p { h with sqTail := value }

/-- HST_CQ_HEAD (R345, R352): a head beyond the tail is ignored and counted. -/
def hstCqHead (port : Fin 4) (value : BitVec 32) (d : Dev) : Dev :=
  let p := port.val
  let h := d.port p
  if !d.barOpen || !h.linkUp then d
  else if !h.live || newer value h.cqTail then countProto p d
  else d.setPort p { h with cqHead := value }

/-- HST_SR_CONS (R345, R351). -/
def hstSrCons (port : Fin 4) (ring : Fin 16) (value : BitVec 32) (d : Dev) : Dev :=
  let p := port.val
  let h := d.port p
  let r : StreamRing := bget {} ring.val h.rings
  if !d.barOpen || !h.linkUp then d
  else if !h.live || newer value r.prod then countProto p d
  else d.setPort p { h with rings := bput {} ring.val { r with cons := value } h.rings }

/-- HST_INT_STATUS (R7, R345, R346): a write of 1 clears a bit, but for one that the hardware has set in the same cycle. -/
def hstIntStatus (port : Fin 4) (value : BitVec 32) (d : Dev) : Dev :=
  let h := d.port port.val
  if !d.barOpen || !h.linkUp then d
  else d.setPort port.val { h with intStatus := h.intStatus &&& ~~~(value &&& ~~~(h.setNow d.now)) }

/-- The bits of HST_INT_STATUS and HST_INT_ENABLE that are not reserved (R345). -/
def intBits : BitVec 32 := 0xFFFF001F

/-- A word of the MSI-X table written (R344): a vector that is unmasked with its bit pending sends its message. -/
def msixWrite (p i : Nat) (v : BitVec 32) (d : Dev) : Dev :=
  let d := d.modPort p (fun h => { h with msixTable := bput 0 i v h.msixTable })
  let n := i / 4
  let h := d.port p
  if i % 4 = 3 && !v.getLsbD 0 && h.msixPending.getLsbD n && h.canWrite then
    emit (.msix p n) (d.setPort p { h with msixPending := h.msixPending &&& ~~~(1#32 <<< n),
                                           lastMsg := bput none n (some d.now) h.lastMsg })
  else d

/-- A write to any other word of BAR0 (R344, R345): stored under its access code; a configuration register outside CLOSED
is ignored and counted; every other write is ignored. -/
def otherWrite (p off : Nat) (v : BitVec 32) (d : Dev) : Dev :=
  let h := d.port p
  match h.configWrite off v with
  | some h' => if h.state = .closed then d.setPort p h' else countProto p d
  | none =>
    if off = 0x304 then d.setPort p { h with intEnable := v &&& intBits }
    else if off = 0x308 then d.setPort p { h with holdoffUs := v.setWidth 16 }
    else if 0x2000 ≤ off && off < 0x2200 then msixWrite p ((off - 0x2000) / 4) v d
    else d

/-- REGISTER_WRITE (R344, R345): a 32-bit write to BAR0. -/
def registerWrite (port : Fin 4) (offset value : BitVec 32) (d : Dev) : Dev :=
  let off := offset.toNat
  if !d.barOpen || !(d.port port.val).linkUp || off % 4 ≠ 0 then d
  else if off = 0x004 then
    match value.toNat % 4 with
    | 1 => sessionOpen port d
    | 2 => sessionClose port d
    | _ => d
  else if off = 0x00C then hstHeartbeat port value d
  else if off = 0x06C then hstSqTail port value d
  else if off = 0x08C then hstCqHead port value d
  else if off = 0x300 then hstIntStatus port value d
  else if 0x100 ≤ off && off < 0x300 && off % 0x20 = 0x10 then hstSrCons port (Fin.ofNat 16 ((off - 0x100) / 0x20)) value d
  else otherWrite port.val off value d

/-! ### Stream rings (R350, R351) -/

/-- Write a frame into the next slot of a stream ring, its parts in the order given, each with its offset (R324, R351). -/
def writeSlot (p r : Nat) (parts : List (Nat × List Byte)) (d : Dev) : Dev :=
  let ring (d : Dev) : StreamRing := bget {} r (d.port p).rings
  let setRing (d : Dev) (x : StreamRing) : Dev := d.modPort p (fun h => { h with rings := bput {} r x h.rings })
  let x := ring d
  let count := BitVec.ofNat 32 (2 ^ x.slotCountLog2)
  let full := !newer x.cons (x.prod - count)
  let d := if full then
      let d := bump (0x11C + 0x20 * r) x.drop 1 (fun c d => setRing d { ring d with drop := c }) d
      let d := setRing d { ring d with oldest := x.prod - count + 1 }
      writeBack p (0x14 + 8 * r) (ring d).oldest d
    else d
  let addr := x.base + x.slotBytes * (x.prod.toNat % 2 ^ x.slotCountLog2)
  let d := hostWrite p addr (List.replicate 8 0) d
  let d := parts.foldl (fun d e => hostWrite p (addr + e.1) e.2 d) d
  let d := setRing d { ring d with prod := x.prod + 1 }
  setInt p (intRing r) (writeBack p (0x10 + 8 * r) (ring d).prod d)

end Sys2Proof.Machine
end

