-- ==== Sys2Proof/Machine/Queries.lean ====
section
/-!
DEFINITION. Submissions: fetch, identifiers, admission to HOST windows, the queries of R354 and their completion
(spec/15_host_ports_and_sessions.md R352 to R357, spec/11_tick_plan.md R257, spec/12_damask_temporal_memory.md R288).
-/

namespace Sys2Proof

/-- An argument of a submission (R353). -/
def Submission.arg (s : Submission) (i : Nat) : Word := s.args.getD i 0

end Sys2Proof

namespace Sys2Proof.Machine

open Sys2Proof

/-! ### Identifiers (R356) -/

/-- The newest held identifier. -/
def newestId : List HeldId → Option (BitVec 32)
  | [] => none
  | x :: rest => match newestId rest with
    | some n => some (if newer x.id n then x.id else n)
    | none => some x.id

/-- The oldest held identifier. -/
def oldestId : List HeldId → Option (BitVec 32)
  | [] => none
  | x :: rest => match oldestId rest with
    | some o => some (if newer o x.id then x.id else o)
    | none => some x.id

/-- The classes of R356. -/
inductive IdClass where
  | new | duplicate | stale
  deriving DecidableEq, Repr

/-- The class of an identifier against those held (R356). -/
def classify (x : BitVec 32) (held : List HeldId) : IdClass :=
  match newestId held, oldestId held with
  | some n, some o =>
    if newer x n then .new
    else if held.any (fun h => h.id = x) then .duplicate
    else if newer o x then .stale
    else .new
  | _, _ => .new

/-- An identifier enters the window of 4,096 (R356). -/
def holdId (x : BitVec 32) (held : List HeldId) : List HeldId :=
  let l := held ++ [{ id := x, done := none, result := none }]
  l.drop (l.length - 4096)

/-! ### Regions and frames (R337, R354) -/

/-- A region of a grid and channels. -/
structure Region where
  cf : Nat
  cc : Nat
  rf : Nat
  rc : Nat
  hf : Nat
  hc : Nat
  deriving DecidableEq, Repr

/-- The low and the high half of an argument word. -/
def halves (v : Word) : Nat × Nat := (v.toNat % 65536, v.toNat / 65536)

/-- The region that two words and a channel word name. -/
def regionOf (cols rows ch : Word) : Region :=
  { cf := (halves cols).1, cc := (halves cols).2, rf := (halves rows).1, rc := (halves rows).2,
    hf := ch.toNat % 512, hc := ch.toNat / 65536 % 512 }

/-- A region lies in a grid and its channels; it is not empty. -/
def Region.fits (r : Region) (g : GridRec) (channels : Nat) : Bool :=
  decide (0 < r.cc) && decide (0 < r.rc) && decide (0 < r.hc) && decide (r.cf + r.cc ≤ g.w) && decide (r.rf + r.rc ≤ g.h) &&
  decide (r.hf + r.hc ≤ channels)

/-- Bytes of a main output's header and records in a mode at the most (R324 to R329). -/
def Dev.headMost (d : Dev) (mode : Nat) : Nat :=
  let es := d.image.streams.entries.filter (fun e => e.2.modeMask.contains mode)
  0x80 + 0x28 * es.length + 0x20 + 0x10 * (es.filter (fun e => decide (e.2.kind ≠ .egoInput))).length

/-- The payload of a frame for its receiver: a grid over a region. -/
def payloadFor (r : Option Region) : Payload → List Byte
  | .missing => []
  | .bytes b => b
  | .grid g => match r with
    | some r => gridPayload g r.cf r.cc r.rf r.rc r.hf r.hc
    | none => payloadBytes (.grid g)

/-- The newest frame of a grid product that had sealed by an instant (R354). -/
def Dev.newestFrame (d : Dev) (product : Nat) (t : Int) : Option Assembling :=
  ((bget [] product d.output.newestGrid).find? (fun x => decide ((x.1 : Int) ≤ t))).map (·.2)

/-- The output that an assembled grid frame goes out as. -/
def Dev.gridOutput (d : Dev) (a : Assembling) : Option Output :=
  match a.taken, d.tickRec a.tick with
  | some s, some r => some (d.outputOf a s r a.seq (a.payload.getD .missing))
  | _, _ => none

/-! ### Admission (R257, R357) -/

/-- The mode whose windows the main pipeline runs in a tick, as planned now. -/
def Dev.plannedMode (d : Dev) (tick : Nat) : Option Nat :=
  match d.tickRec tick with
  | some t => if t.mainRuns then some t.mode else none
  | none =>
    if !d.plan.inForce || d.plan.stopDue then none
    else match d.plan.pending with
      | some q => if q.effect ≤ tick then some q.target else some d.plan.modeInForce
      | none => some d.plan.modeInForce

/-- A HOST window that queries may be admitted into: its key, opening, planned end, and capacity in core-ns. -/
structure HostSlot where
  key : Nat
  opening : Int
  endsAt : Int
  capacity : Nat

/-- The HOST windows of a tick, as planned now (R257). -/
def Dev.hostSlots (d : Dev) (tick : Nat) : List HostSlot :=
  match d.plannedMode tick with
  | none => []
  | some j => match assoc j (d.imageAt tick).plan.modes with
    | none => []
    | some m => m.windows.zipIdx.filterMap (fun x =>
        if x.1.kind ≠ .host then none
        else match d.opening tick x.1, m.groups[x.1.target]? with
          | some t, some g => some { key := winKey .main tick x.2, opening := t, endsAt := t + x.1.durNs,
                                     capacity := (groupCores .main g).length * x.1.durNs }
          | _, _ => none)

/-- Core-ns free in a HOST window. -/
def Dev.freeIn (d : Dev) (s : HostSlot) : Nat := s.capacity - bget 0 s.key d.plan.hostCharged

/-- The target window of a query of a cost in core-ns (R257). -/
def Dev.hostTarget (d : Dev) (thisMajor : Bool) (cost : Nat) : Option Nat :=
  let k := d.time.k
  let all := sortBy (fun a b : HostSlot => decide (a.opening < b.opening)) (d.hostSlots k ++ d.hostSlots (k + 1))
  if thisMajor then
    match d.validAt k with
    | none => none
    | some v =>
      if (v : Int) - 5 * msNs < d.now then none
      else (all.find? (fun s => decide ((d.now : Int) < s.opening) && decide (s.endsAt < (d.nextMajor : Int)) &&
        decide (cost ≤ d.freeIn s))).map (·.key)
  else
    let n := d.time.minorNs
    let b := if n = 0 then d.nextMajor else d.time.bk + ((d.now - d.time.bk) / n + 1) * n
    match all.find? (fun s => decide ((b : Int) ≤ s.opening)) with
    | some s => if cost ≤ d.freeIn s then some s.key else none
    | none => none

/-- What the checks of a query find: a refusal, or its cost in core-µs (R354, R355). -/
inductive QueryCheck where
  | refused (status : BitVec 8)
  | cost (us : Nat)
  deriving DecidableEq, Repr

/-- A model or product runs in the mode in force (R355). -/
def inMode (d : Dev) (mask : List Nat) (cost : Nat) : QueryCheck :=
  if d.plan.inForce && mask.contains d.plan.modeInForce then .cost cost else .refused stUnavailable

/-- The grid of the mode in force. -/
def Dev.gridNow (d : Dev) : Option GridRec := assoc d.plan.modeInForce d.image.grids

/-- The checks of RUN_MODEL (R354, R355). -/
def Dev.checkModel (d : Dev) (p : Nat) (s : Submission) : QueryCheck :=
  match d.image.host.models[(s.arg 0).toNat % 256]? with
  | none => .refused stInvalid
  | some m =>
    let r := { regionOf (s.arg 1) (s.arg 2) 0 with hc := 1 }
    let fork := (s.arg 3).getLsbD 12
    let fits := match d.gridNow with | some g => r.fits g 1 | none => false
    let own := (d.port p).forks.contains ((s.arg 3).toNat % 4096)
    if !(d.image.host.products[m.inProduct]?).isSome || !fits || (fork && m.usesSeq && !own) then .refused stInvalid
    else inMode d m.modeMask (m.costUs * ((r.cc + 63) / 64) * ((r.rc + 63) / 64))

/-- The checks of READ_GRID (R354, R355): 1 core-µs per started 256 KiB of result. -/
def Dev.checkGrid (d : Dev) (s : Submission) : QueryCheck :=
  match d.image.host.products[(s.arg 0).toNat % 65536]?, d.gridNow with
  | some x, some g =>
    let r := regionOf (s.arg 1) (s.arg 2) (s.arg 3)
    let need := d.headMost d.plan.modeInForce + 0x40 + r.cc * r.rc * r.hc * gridElem x.format
    if r.fits g x.channels then inMode d x.modeMask ((need + 262143) / 262144) else .refused stInvalid
  | _, _ => .refused stInvalid

/-- The checks of a query by its operation (R354). -/
def Dev.checkQuery (d : Dev) (p : Nat) (s : Submission) : QueryCheck :=
  match s.op.toNat with
  | 1 => d.checkModel p s
  | 2 => d.checkGrid s
  | 4 => .cost 2
  | _ => .cost 1

/-- One more query refused at admission (R257). -/
def countHostRefuse (d : Dev) : Dev :=
  bump (barTsq + 0x12C) d.plan.hostRefuse 1 (fun c d => { d with plan := { d.plan with hostRefuse := c } }) d

/-- Accept a query into a window (R257): the lane's budget and the window's capacity are charged. -/
def admitQuery (p : Nat) (s : Submission) (us key : Nat) (d : Dev) : Dev :=
  let w : Work := { sub := s, order := d.host.order, tick := d.time.k, window := some key, cost := us, started := false,
                    status := none, result := [] }
  let d := { d with host := { d.host with order := d.host.order + 1 } }
  let d := { d with plan := { d.plan with hostUsed := d.plan.hostUsed + us,
                                          hostCharged := bmod 0 key (· + us * 1000) d.plan.hostCharged } }
  d.modPort p (fun h => { h with work := h.work ++ [w], budgetUsed := bmod 0 s.lane (· + us) h.budgetUsed,
                                 outstanding := bmod 0 s.lane (· + 1) h.outstanding })

/-- Check a new query and admit or refuse it (R257, R355). -/
def takeQuery (p : Nat) (s : Submission) (d : Dev) : Dev :=
  let no (st : BitVec 8) (d : Dev) : Dev := completePlain p st d s
  match (d.portRec p).bind (fun r => r.lanes[s.lane]?) with
  | none => no stInvalid d
  | some l =>
    if !(if s.thisMajor then l.thisMajor else l.nextMinor) || s.resultAddr % 64 ≠ 0 then no stInvalid d
    else match d.checkQuery p s with
      | .refused st => no st d
      | .cost us =>
        if l.maxOutstanding ≤ bget 0 s.lane (d.port p).outstanding then no stRefused d
        else if l.budgetUs < bget 0 s.lane (d.port p).budgetUsed + us then no stRefused (countHostRefuse d)
        else match d.hostTarget s.thisMajor (us * 1000) with
          | some key => admitQuery p s us key d
          | none => no stRefused (countHostRefuse d)

/-- A command waits for its turn (R354). -/
def takeCommand (p : Nat) (s : Submission) (d : Dev) : Dev :=
  let w : Work := { sub := s, order := d.host.order, tick := d.time.k, window := none, cost := 0, started := false,
                    status := none, result := [] }
  { d with host := { d.host with order := d.host.order + 1 } }.modPort p (fun h => { h with work := h.work ++ [w] })

/-- An entry that has been fetched is checked (R353, R356). A stale one does not enter the window. -/
def takeSubmission (p : Nat) (s : Submission) (d : Dev) : Dev :=
  let h := d.port p
  match classify s.queryId h.ids with
  | .stale => completePlain p stStale d s
  | .duplicate => match h.ids.find? (fun x => x.id = s.queryId) with
    | some x => match x.done with
      | some c => finishDup p c x.result d s
      | none => d.setPort p { h with waitingDups := h.waitingDups ++ [s] }
    | none => d
  | .new =>
    let d := d.setPort p { h with ids := holdId s.queryId h.ids }
    if 1 ≤ s.op.toNat && s.op.toNat ≤ 5 then takeQuery p s d else takeCommand p s d

/-- The completion ring has a free entry (R352). -/
def HostPort.roomForOne (h : HostPort) : Bool :=
  decide ((h.cqTail + BitVec.ofNat 32 h.cqReserved - h.cqHead).toNat < 2 ^ h.cqSizeLog2)

/-- SUBMISSION_FETCH (R343, R352): the entry at HST_SQ_HEAD is read from host memory, with what it holds as the operand. -/
def submissionFetch (port : Fin 4) (sub : Submission) (d : Dev) : Dev :=
  let p := port.val
  let h := d.port p
  if h.state ≠ .open_ || !h.canWrite || !d.fwRuns procHost || h.sqHead = h.sqTail || !h.roomForOne then d
  else
    let d := emit (.hostRead p (h.sqBase + 64 * (h.sqHead.toNat % 2 ^ h.sqSizeLog2)) 64) d
    let d := d.setPort p { h with sqHead := h.sqHead + 1, cqReserved := h.cqReserved + 1 }
    takeSubmission p sub (writeBack p 0x00 (h.sqHead + 1) d)

/-! ### Running queries (R354, R357) -/

/-- The query of an operation that port p has in hand: the next of its window, which runs. -/
def Dev.currentQuery (d : Dev) (p op : Nat) : Option (Nat × Work) :=
  match (d.port p).work.find? (fun w => decide (w.sub.op.toNat = op) && w.status.isNone && w.window.isSome && d.inHand p w) with
  | some w => w.window.map (fun key => (key, w))
  | none => none

/-- The record of the window of a key. -/
def Dev.keyRec (d : Dev) (key : Nat) : Option WindowRec :=
  d.windowRec (winOfKey key).1 (winOfKey key).2.1 (winOfKey key).2.2

/-- The opening of the window of a key; long past where the plan no longer has it. -/
def Dev.keyOpening (d : Dev) (key : Nat) : Int :=
  match d.keyRec key with | some r => (d.opening (winOfKey key).2.1 r).getD 0 | none => 0

/-- The planned end of the window of a key has come. -/
def Dev.keyOver (d : Dev) (key : Nat) : Bool :=
  match d.keyRec key with | some r => d.reached (d.plannedEnd (winOfKey key).2.1 r) | none => true

/-- The ended queries of a window are written, in order of acceptance (R357); `late` where the host held back its
credits for more than 200 µs past the planned end (R355). -/
def flushWindow (key : Nat) (late : Bool) (d : Dev) : Dev :=
  let all := (List.range 4).flatMap (fun p => ((d.port p).work.filter (fun w => w.window = some key && w.status.isSome)).map
    (fun w => (p, w)))
  (sortBy (fun a b : Nat × Work => decide (a.2.order < b.2.order)) all).foldl (fun d e =>
    let w := e.2
    let st := w.status.getD stOk
    let d := dropWork e.1 w.order d
    let d := d.modPort e.1 (fun h => { h with outstanding := bmod 0 w.sub.lane (· - 1) h.outstanding })
    completeWith e.1 w.sub (if late && st = stOk then stLate else st) w.tick w.result d) d

/-- A query's run ends with a status and a result; past the window's planned end it is written at once (R357). The
mark of a view with MISSING above 0 is the next query's from here (R280). -/
def endQuery (p key : Nat) (w : Work) (st : BitVec 8) (b : List Byte) (d : Dev) : Dev :=
  let x : WinState := bget {} key d.plan.windows
  let d := { d with plan := { d.plan with windows := bput {} key { x with viewMissing := false } d.plan.windows } }
  let d := d.modPort p (fun h => { h with work := h.work.map (fun y =>
    if y.order = w.order then { y with started := true, status := some st, result := b } else y) })
  if d.keyOver key then flushWindow key false d else d

/-- RUN_MODEL (R354): a model's program has run over a region, with what it wrote as the operand. -/
def runModel (port : Fin 4) (data : List Byte) (d : Dev) : Dev :=
  let p := port.val
  match d.currentQuery p 1 with
  | none => d
  | some (key, w) =>
    let x : WinState := bget {} key d.plan.windows
    let s := w.sub
    match d.image.host.models[(s.arg 0).toNat % 256]? with
    | none => endQuery p key w stInvalid [] d
    | some m =>
      match (d.newestFrame m.inProduct (d.keyOpening key)).bind d.gridOutput with
      | none => endQuery p key w stDegraded [] d
      | some o =>
        let r := regionOf (s.arg 1) (s.arg 2) 0
        let f := drawFree d
        match o.payload with
        | .grid g =>
          let g := { g with product := 0x8000 + (s.arg 0).toNat % 256, format := m.outFormat, channels := m.outCh }
          let payload := gridHead g r.cf r.cc r.rf r.rc 0 m.outCh ++ data
          let st := if x.viewMissing || !x.zeroed.isEmpty then stDegraded else stOk
          endQuery p key w st (frameBytes { o with seq := f.1 } false (validAtStart d o.quality) payload) f.2
        | _ => endQuery p key w stDegraded (frameBytes { o with seq := f.1 } false (validAtStart d o.quality) []) f.2

/-- READ_GRID (R354). -/
def readGrid (port : Fin 4) (d : Dev) : Dev :=
  let p := port.val
  match d.currentQuery p 2 with
  | none => d
  | some (key, w) =>
    let s := w.sub
    match (d.newestFrame ((s.arg 0).toNat % 65536) (d.keyOpening key)).bind d.gridOutput with
    | none => endQuery p key w stDegraded [] d
    | some o =>
      let payload := payloadFor (some (regionOf (s.arg 1) (s.arg 2) (s.arg 3))) o.payload
      endQuery p key w (if o.payload = .missing then stDegraded else stOk)
        (frameBytes o false (validAtStart d o.quality) payload) d

/-- READ_TRACK (R354): up to 64 records of a track that is alive, newest first. -/
def readTrack (port : Fin 4) (d : Dev) : Dev :=
  let p := port.val
  match d.currentQuery p 3 with
  | none => d
  | some (key, w) =>
    let a := w.sub.arg 0
    let src : Source := if a.getLsbD 31 then .burlap else .main
    match d.host.tracks.find? (fun h => decide (h.src = src) && h.alive && h.id = a.toNat % 2 ^ 31) with
    | none => endQuery p key w stInvalid [] d
    | some h =>
      let es := h.records.filter (fun e => decide ((e.1 : Int) ≤ d.keyOpening key))
      if es.isEmpty then endQuery p key w stInvalid [] d
      else
        let bytes := w32 es.length ++ List.replicate 12 0 ++ es.flatMap (fun e => w64 e.2.1 ++ objectBytes src e.2.2)
        endQuery p key w stOk bytes d

/-- The planned sequence that a FORK names (R354, R360). -/
def Dev.forkSource (d : Dev) (s : Submission) : Nat :=
  if (s.arg 0).getLsbD 0 then d.image.host.trackSeqBase + (s.arg 1).toNat else d.image.host.gridSeq

/-- The FORK that the host processor issues for a query, in the epoch of the query's tick (R288). -/
def hostForkCmd (p seq tick : Nat) : DmkCmd :=
  { cls := 0, seq := seq, count := 0, result := 0xFFFF, tally := 0, tallyEn := false, entry := 0, tick := tick,
    issuer := .host p, ecc := .clean }

/-- HOST_FORK (R288, R354, R355): refused where the port's MAX_FORKS is reached or Damask refuses. While the half's die
restarts the fork gets no answer. -/
def hostFork (port : Fin 4) (d : Dev) : Dev :=
  let p := port.val
  match d.currentQuery p 4 with
  | none => d
  | some (key, w) =>
    if !d.fwRuns procHost then d
    else
      let i := d.forkSource w.sub
      let most := match d.portRec p with | some r => r.maxForks | none => 0
      match d.seqOf i with
      | none => endQuery p key w stInvalid [] d
      | some q =>
        if most ≤ (d.port p).forks.length then endQuery p key w stRefused [] d
        else if !d.halfRuns q.half then d
        else
          let x := forkOf q.half (hostForkCmd p i w.tick) (.session p) d
          match x.1.status with
          | .ok =>
            let d := x.2.modPort p (fun h => { h with forks := h.forks ++ [x.1.seq] })
            endQuery p key w stOk (w32 (x.1.seq % 4096) ++ List.replicate 12 0) d
          | .invalid => endQuery p key w stInvalid [] x.2
          | _ => endQuery p key w stRefused [] x.2

/-- FREE_FORK (R288, R354): the sequence goes at the epoch close of the query's tick. -/
def freeFork (port : Fin 4) (d : Dev) : Dev :=
  let p := port.val
  match d.currentQuery p 5 with
  | none => d
  | some (key, w) =>
    let i := (w.sub.arg 0).toNat % 4096
    if !d.fwRuns procHost then d
    else match (d.port p).forks.contains i, d.seqOf i with
      | true, some q =>
        if !d.halfRuns q.half then d
        else
          let d := setSeq i (some { q with freeAt := some (d.epochOf (hostForkCmd p i w.tick)) }) d
          endQuery p key w stOk [] (d.modPort p (fun h => { h with forks := h.forks.filter (fun x => x ≠ i) }))
      | _, _ => endQuery p key w stInvalid [] d

/-- The queries of a window that have not ended complete ABORTED_DEADLINE (R250, R355, R362). -/
def abortQueries (key : Nat) (d : Dev) : Dev :=
  let d := (List.range 4).foldl (fun d p => d.modPort p (fun h => { h with work := h.work.map (fun w =>
    if w.window = some key && w.status.isNone then { w with status := some stAborted, result := [] } else w) })) d
  flushWindow key false d

/-- HOST_WINDOW_END (R355, R357, R362): at the planned end the results of the ended queries are written. A window that
does not run completes the others ABORTED_DEADLINE; one whose queries have all ended has ended. -/
def hostWindowEnd (tick w : Nat) (d : Dev) : Dev :=
  let key := winKey .main tick w
  match d.windowRec .main tick w with
  | none => d
  | some r =>
    match d.plannedEnd tick r with
    | none => d
    | some t =>
      if r.kind ≠ .host || (d.now : Int) < t then d
      else
        let d := flushWindow key (decide (t + 200 * usNs < d.now)) d
        match (d.win .main tick w).phase with
        | .running =>
          if (d.nextIn key).isSome then d
          else
            let d := stopWindow .main tick w d
            closeGroupFlags .main tick w (d.setWin .main tick w { d.win .main tick w with phase := .ended })
        | _ => abortQueries key d

/-- Queries of a tick whose windows the plan no longer has, after a mode switch, complete ABORTED_DEADLINE. -/
def dropLostQueries (tick : Nat) (d : Dev) : Dev :=
  let keys := ((List.range 4).flatMap (fun p => (d.port p).work.filterMap (·.window))).eraseDups
  keys.foldl (fun d key =>
    if (winOfKey key).2.1 = tick && !(match d.keyRec key with | some r => decide (r.kind = .host) | none => false) then
      abortQueries key d
    else d) d

/-- The budgets of a port's lanes are restored at a major tick boundary (R257). -/
def restoreBudgets (d : Dev) (p : Nat) : Dev := d.modPort p (fun h => { h with budgetUsed := [] })

end Sys2Proof.Machine
end

