-- ==== Sys2Proof/Machine/Subscriptions.lean ====
section
/-!
DEFINITION. The commands of the host processor, subscriptions and their frames and batches, and privilege
(spec/15_host_ports_and_sessions.md R346, R351, R354, R358, R359; spec/14_fused_outputs.md R327).
-/

namespace Sys2Proof.Machine

open Sys2Proof

/-! ### Commands in their turn (R354) -/

/-- The head command of a port where it is one of an operation that has not begun, and the host processor runs. -/
def Dev.headOp (d : Dev) (p : Nat) (op : Nat) : Option Work :=
  match d.headCommand p with
  | some w => if !w.started && decide (w.sub.op.toNat = op) && d.fwRuns procHost then some w else none
  | none => none

/-- A command's work begins. -/
def startCommand (p order : Nat) (d : Dev) : Dev :=
  d.modPort p (fun h => { h with work := h.work.map (fun w => if w.order = order then { w with started := true } else w) })

/-- Operations of R354. -/
def listedOps : List Nat := [0x01, 0x02, 0x03, 0x04, 0x05, 0x10, 0x11, 0x12, 0x20, 0x21, 0x22, 0x23, 0x24]

/-- UNLISTED_OP (R354). -/
def unlistedOp (port : Fin 4) (d : Dev) : Dev :=
  match d.headCommand port.val with
  | some w => if listedOps.contains w.sub.op.toNat || !d.fwRuns procHost then d else finishCommand port.val w stInvalid [] d
  | none => d

/-- ATTEST (R354, R422): a fresh report is asked for. -/
def attest (port : Fin 4) (d : Dev) : Dev :=
  match d.headOp port.val 0x12 with
  | some w => startCommand port.val w.order d
  | none => d

/-! ### Privilege (R359) -/

/-- The bytes of a key and a signature (R359). -/
def privBytes : Nat := 64 + 49856

/-- A PRIV_CLAIM fails: NOT_PERMITTED and a health event (R359). -/
def failClaim (p : Nat) (w : Work) (d : Dev) : Dev :=
  conditionEvent 0x008 (bit (d.port p).privileged) (finishCommand p w stNotPermitted [] d)

/-- PRIV_CLAIM (R343, R359): on the privileged port the host's key and signature are read; elsewhere the claim fails. -/
def privClaim (port : Fin 4) (d : Dev) : Dev :=
  let p := port.val
  match d.headOp p 0x20 with
  | none => d
  | some w =>
    if d.image.host.privPort = some p && decide (privBytes ≤ (w.sub.arg 2).toNat) then
      emit (.hostRead p ((w.sub.arg 0).toNat + 2 ^ 32 * (w.sub.arg 1).toNat) privBytes) (startCommand p w.order d)
    else failClaim p w d

/-- PRIV_VERIFY_DONE (R359): the key's digest is PRIV_KEY_DIGEST and the signature holds, or the claim fails. -/
def privVerifyDone (port : Fin 4) (claim : PrivClaim) (d : Dev) : Dev :=
  let p := port.val
  match d.begunCommand p 0x20 with
  | none => d
  | some w =>
    if !d.fwRuns procHkp then d
    else if decide (claim.keyDigest = d.image.host.privKeyDigest) && claim.signatureHolds then
      finishCommand p w stOk [] (d.modPort p (fun h => { h with privileged := true }))
    else failClaim p w d

/-- A privileged command in its turn: without privilege it completes NOT_PERMITTED (R359). -/
def privileged (p op : Nat) (f : Work → Dev → Dev) (d : Dev) : Dev :=
  match d.headOp p op with
  | none => d
  | some w => if (d.port p).privileged then f w d else finishCommand p w stNotPermitted [] d

/-- The 256 identifiers from a first one under a mask of eight words (R354, R420). -/
def maskIds (first : Nat) (words : List Word) : List Nat :=
  ((List.range 256).filter (fun i => (words.getD (i / 32) 0).getLsbD (i % 32))).map (fun i => (first + i) % 65536)

/-- SET_TRACE_MASK (R354, R420). -/
def setTraceMask (port : Fin 4) (d : Dev) : Dev :=
  privileged port.val 0x23 (fun w d =>
    let first := (w.sub.arg 0).toNat % 65536
    let on := maskIds first (w.sub.args.drop 1)
    let range := (List.range 256).map (fun i => (first + i) % 65536)
    let kept := d.boot.traceMask.filter (fun i => !range.contains i)
    finishCommand port.val w stOk [] { d with boot := { d.boot with traceMask := kept ++ on } }) d

/-! ### Subscriptions (R358) -/

/-- The modes of the image in force. -/
def Dev.modes (d : Dev) : List Nat := d.image.plan.modes.map (·.1)

/-- The largest of some numbers. -/
def largest (l : List Nat) : Nat := l.foldl max 0

/-- Bytes of a point record in a mode (R338). -/
def Dev.pointBytesIn (d : Dev) (mode : Nat) : Nat :=
  match assoc mode d.image.grids with
  | none => 40
  | some g => match g.ops.find? (fun o => o.op = .paint) with
    | some o => (36 + rowBytes (chbFormat o.outFormat) o.channels + 7) / 8 * 8
    | none => 40

/-- The bytes of an Ego State's header and records at the most (R324, R328, R329). -/
def Dev.egoHeadMost (d : Dev) (mode : Nat) : Nat :=
  0x80 + 0x20 + 0x28 * (d.image.streams.entries.filter (fun e => e.2.modeMask.contains mode && decide (e.2.kind = .egoInput))).length

/-- The largest frame that a subscription can produce (R333 to R338, R358); a batch closes when its slot is full. -/
def Dev.frameMost (d : Dev) (kind product : Nat) (r : Region) : Nat :=
  let most := largest (d.modes.map d.headMost)
  match kind with
  | 1 => most + 0x10 + 0x40 * 512
  | 2 => most + 0x10 + 4 * 720
  | 3 => largest (d.modes.map d.egoHeadMost) + 0x60
  | 4 => match d.image.host.products[product]? with
    | some x => most + 0x40 + r.cc * r.rc * r.hc * gridElem x.format
    | none => most
  | 5 => largest (d.modes.map (fun j => d.headMost j + 0x20 + d.pointBytesIn j * d.image.tweed.storePoints))
  | _ => 0x20 + 0x100

/-- The bytes per P that a subscription counts with (R358): a batch kind SLOT_BYTES in each minor tick, Ego State one frame
for each boundary it selects, the others one frame. -/
def Dev.perTick (d : Dev) (kind product decim slot : Nat) (r : Region) : Nat :=
  if 6 ≤ kind then slot * d.time.n
  else if kind = 3 then d.frameMost kind product r * ((d.time.n + decim - 1) / max 1 decim)
  else d.frameMost kind product r

/-- The region of a list of six numbers. -/
def regionList (l : List Nat) : Region :=
  { cf := l.getD 0 0, cc := l.getD 1 0, rf := l.getD 2 0, rc := l.getD 3 0, hf := l.getD 4 0, hc := l.getD 5 0 }

/-- The numbers of a region. -/
def Region.nums (r : Region) : List Nat := [r.cf, r.cc, r.rf, r.rc, r.hf, r.hc]

/-- Bytes per P of a port's standing subscriptions. -/
def Dev.streamed (d : Dev) (p : Nat) : Nat :=
  (d.port p).subs.foldl (fun n e => e.2.foldl (fun n s =>
    if s.endAt.isSome then n
    else n + d.perTick s.kind s.product s.decim (bget {} e.1 (d.port p).rings : StreamRing).slotBytes (regionList s.region)) n) 0

/-- A region lies inside a product in every mode that produces it (R355, R358). -/
def Dev.inProduct (d : Dev) (product : Nat) (r : Region) : Bool :=
  match d.image.host.products[product]? with
  | none => false
  | some x => x.modeMask.all (fun j => match assoc j d.image.grids with | some g => r.fits g x.channels | none => true)

/-- The newest record number of a batch kind (R450, R419, R420). -/
def Dev.recordMark (d : Dev) (kind : Nat) : BitVec 32 :=
  match kind with
  | 6 => d.health.seq
  | 7 => d.boot.logSeq
  | _ => 0

/-- What SUBSCRIBE finds (R355, R358): a refusal, or the subscription. -/
def Dev.subscription (d : Dev) (p : Nat) (s : Submission) : BitVec 8 × Option (Nat × Subscription) :=
  let a := (s.arg 0).toNat
  let ring := a % 16
  let kind := a / 2 ^ 8 % 16
  let decim := a / 2 ^ 16 % 128
  let product := (s.arg 1).toNat % 65536
  let r := regionOf (s.arg 2) (s.arg 3) (s.arg 4)
  let x : StreamRing := bget {} ring (d.port p).rings
  let taken := (bget [] ring (d.port p).subs).any (fun s => s.endAt.isNone)
  if x.slotBytes = 0 || taken || kind = 0 || 8 < kind || (decide (kind = 3) && (decide (decim = 0) || decide (100 < decim))) ||
      (decide (kind = 4) && !d.inProduct product r) || x.slotBytes < d.frameMost kind product r then (stInvalid, none)
  else
    let decim := if kind = 3 then decim else 1
    let total := d.streamed p + d.perTick kind product decim x.slotBytes r
    let bw := match d.portRec p with | some r => r.streamBw | none => 0
    if bw * 1000 * d.time.pMs < total then (stRefused, none)
    else (stOk, some (ring, { kind := kind, product := if kind = 4 then product else 0, region := if kind = 4 then r.nums else [],
                              decim := decim, firstAt := d.nextMajor, endAt := none, batchSeq := 0, batchMark := 0 }))

/-- SUBSCRIBE (R354, R358, R362). -/
def subscribe (port : Fin 4) (d : Dev) : Dev :=
  let p := port.val
  match d.headOp p 0x10 with
  | none => d
  | some w =>
    let x := d.subscription p w.sub
    let d := match x.2 with
      | some (ring, s) => d.modPort p (fun h => { h with subs := bmod [] ring (fun l => l ++ [s]) h.subs })
      | none => d
    finishCommand p w x.1 [] d

/-- UNSUBSCRIBE (R327, R354, R358): the ring's subscription ends at the next major tick boundary. -/
def unsubscribe (port : Fin 4) (d : Dev) : Dev :=
  let p := port.val
  match d.headOp p 0x11 with
  | none => d
  | some w =>
    let ring := (w.sub.arg 0).toNat % 16
    let t := d.nextMajor
    finishCommand p w stOk [] (d.modPort p (fun h => { h with subs := bmod [] ring (fun l => l.map (endSub t)) h.subs }))

/-- The subscriptions that have ended leave at a major tick boundary (R358). -/
def dropSubs (d : Dev) (p : Nat) : Dev :=
  let now := d.now
  d.modPort p (fun h => { h with subs := h.subs.foldl (fun acc e =>
    bput [] e.1 (e.2.filter (fun s => match s.endAt with | some t => decide (now < t) | none => true)) acc) [] })

/-! ### Frames (R324, R327, R351, R358) -/

/-- A frame's parts in the order in which they are written (R324): payload, records, header. -/
def frameParts (o : Output) (final : Bool) (q : BitVec 32) (payload : List Byte) : List (Nat × List Byte) :=
  let f := frameBytes o final q payload
  let off := f.length - payload.length
  [(off, payload), (0x80, (f.take off).drop 0x80), (0, f.take 0x80)]

/-- A subscription takes an output (R358). -/
def Subscription.takes (s : Subscription) (o : Output) : Bool :=
  decide (s.kind = o.kind.code) &&
  (match o.kind with
    | .grid p => decide (s.product = p.val)
    | .egoState => decide (o.minor % max 1 s.decim = 0)
    | _ => true) &&
  decide (s.firstAt ≤ o.tOutput) && (match s.endAt with | some t => decide (o.tOutput < t) | none => true)

/-- The time of the next output that a subscription would take after this one (R358). -/
def Dev.nextTaken (d : Dev) (s : Subscription) (o : Output) : Nanos :=
  match o.kind with
  | .egoState =>
    let n := d.time.minors
    let left := n - o.minor
    let step := max 1 s.decim - o.minor % max 1 s.decim
    o.tOutput + min step left * d.time.minorNs
  | _ => o.tOutput + d.time.pNs

/-- The mode that follows tick k, none where the main pipeline does not run then, or the image changes. -/
def Dev.modeAfter (d : Dev) (k : Nat) : Option Nat :=
  if k < d.boot.changeTick && d.boot.changeTick ≤ k + 1 then none else d.plannedMode (k + 1)

/-- A mode's plan sends outputs of a kind (R323). -/
def Dev.produces (d : Dev) (mode : Nat) (kind : OutKind) : Bool :=
  decide (kind = .egoState) ||
  (match d.modeRec mode with
    | some m => m.windows.any (fun w => decide (w.kind = .transmit) && w.outputs.contains kind)
    | none => false)

/-- The output is the last of its kind in the old mode (R327). -/
def Dev.lastOfMode (d : Dev) (o : Output) : Bool :=
  match d.modeAfter o.k with
  | some j => decide (j ≠ o.mode) && !d.produces j o.kind
  | none => false

/-- Deliver an output to one ring's subscription. -/
def deliverTo (o : Output) (p r : Nat) (d : Dev) (s : Subscription) : Dev :=
  if s.takes o then
    let ends := match s.endAt with | some t => decide (t ≤ d.nextTaken s o) | none => false
    let region := if s.region.isEmpty then none else some (regionList s.region)
    writeSlot p r (frameParts o (ends || d.lastOfMode o) (validAtStart d o.quality) (payloadFor region o.payload)) d
  else d

/-- Deliver an output to every ring of a port that is subscribed to it (R349, R351). -/
def deliverPort (o : Output) (d : Dev) (p : Nat) : Dev :=
  if (d.port p).live then (d.port p).subs.foldl (fun d e => e.2.foldl (deliverTo o p e.1) d) d else d

/-- Deliver an output to the hosts. -/
def deliver (o : Output) (d : Dev) : Dev := [0, 1, 2, 3].foldl (deliverPort o) d

/-! ### Batches (R358) -/

/-- A record in a batch: its number, device time and bytes. -/
structure BatchRecord where
  num : BitVec 32
  time : Nanos
  bytes : List Byte

/-- A health record's bytes (R450). -/
def healthBytes (r : HealthRecord) : List Byte :=
  w64 r.time ++ w32 (r.code.toNat + 2 ^ 16 * (r.severity % 8) + 2 ^ 24 * (r.die % 8)) ++ w32 r.unit.toNat ++
  w32 r.arg0.toNat ++ w32 r.arg1.toNat ++ w32 r.arg2.toNat ++ w32 r.seq.toNat

/-- A log record's bytes (R419). -/
def logRecordBytes (r : LogRecord) : List Byte :=
  let n := logBytes r.args.length
  let body := w64 r.time ++ w32 r.seq.toNat ++ w32 (r.source % 16 + 2 ^ 4 * (r.severity % 8) + 2 ^ 8 * (n / 32 - 1)) ++
    w32 (r.code.toNat + 2 ^ 16 * (4 * r.args.length)) ++ r.args.flatMap (fun a => w32 a.toNat)
  (body ++ List.replicate n 0).take n

/-- A trace record's bytes (R420). -/
def traceBytes (r : TraceRecord) : List Byte :=
  w64 r.time ++ w32 (r.id.toNat + 2 ^ 16 * (r.die % 8) + 2 ^ 24 * r.dieSeq.toNat) ++
  (List.range 5).flatMap (fun i => w32 (r.args.getD i 0).toNat)

/-- The records of a batch kind since a mark, oldest first. -/
def Dev.batchRecords (d : Dev) (kind : Nat) (mark : BitVec 32) : List BatchRecord :=
  match kind with
  | 6 => ((d.health.records.filter (fun r => newer r.seq mark)).map
      (fun r => { num := r.seq, time := r.time, bytes := healthBytes r : BatchRecord })).reverse
  | 7 => ((d.boot.log.filter (fun r => newer r.seq mark)).map
      (fun r => { num := r.seq, time := r.time, bytes := logRecordBytes r : BatchRecord })).reverse
  | _ => (d.boot.trace.map (fun r => { num := 0, time := r.time, bytes := traceBytes r : BatchRecord })).reverse

/-- Split records into batches that fill a slot at the most (R358): `have_` are those of the open batch, newest first. -/
def splitBatches (room : Nat) : (have_ : List BatchRecord) → (used : Nat) → List BatchRecord → List (List BatchRecord)
  | h, _, [] => if h.isEmpty then [] else [h.reverse]
  | h, used, r :: rest =>
    if used + r.bytes.length ≤ room || h.isEmpty then splitBatches room (r :: h) (used + r.bytes.length) rest
    else h.reverse :: splitBatches room [r] r.bytes.length rest

/-- The bytes of a batch (R358). -/
def batchBytes (kind : Nat) (seq : BitVec 32) (rs : List BatchRecord) : List Byte :=
  let body := rs.flatMap (·.bytes)
  w32 (kind + 2 ^ 16 * (rs.length % 65536)) ++ w32 body.length ++ w32 seq.toNat ++ w32 0 ++
  w64 ((rs.head?.map (·.time)).getD 0) ++ w64 ((rs.getLast?.map (·.time)).getD 0) ++ body

/-- Replace a subscription of a ring. -/
def putSub (p r : Nat) (s x : Subscription) (d : Dev) : Dev :=
  d.modPort p (fun h => { h with subs := bmod [] r (fun l => l.map (fun y => if y = s then x else y)) h.subs })

/-- Close the batch of one subscription at a minor tick boundary (R358). -/
def closeBatch (p r : Nat) (d : Dev) (s : Subscription) : Dev :=
  if s.kind < 6 then d
  else if d.now ≤ s.firstAt then putSub p r s { s with batchMark := d.recordMark s.kind } d
  else
    let rs := d.batchRecords s.kind s.batchMark
    let slot := (bget {} r (d.port p).rings : StreamRing).slotBytes
    let bs := splitBatches (slot - 0x20) [] 0 rs
    let x := bs.foldl (fun (x : BitVec 32 × Dev) b => (x.1 + 1, writeSlot p r [(0, batchBytes s.kind x.1 b)] x.2)) (s.batchSeq, d)
    putSub p r s { s with batchSeq := x.1, batchMark := d.recordMark s.kind } x.2

/-- BATCH_CLOSE (R358): the batches of every subscribed ring; the trace records delivered leave the buffer. -/
def closeBatches (d : Dev) : Dev :=
  let traced := [0, 1, 2, 3].any (fun p => (d.port p).live && (d.port p).subs.any (fun e => e.2.any (fun s =>
    decide (s.kind = 8) && decide (s.firstAt < d.now))))
  let d := [0, 1, 2, 3].foldl (fun d p =>
    if (d.port p).live then (d.port p).subs.foldl (fun d e => e.2.foldl (closeBatch p e.1) d) d else d) d
  if traced then { d with boot := { d.boot with trace := [] } } else d

end Sys2Proof.Machine
end

