-- ==== Sys2Proof/Machine/Transmit.lean ====
section
/-!
DEFINITION. The release of outputs: on the vehicle link and to the hosts (spec/14_fused_outputs.md R323, R327, R339;
spec/16_vehicle_link_and_safety.md R367 to R369, R382, R395; spec/17_image_boot_and_firmware.md R406).
-/

namespace Sys2Proof.Machine

open Sys2Proof

/-- An output as a message on V0 and V1 (R367, R369). -/
def outputMessage (msgId prec pcp : Nat) (bound : Nat) (o : Output) (final : Bool) (d : Dev) : Message :=
  let body := frameBytes o final o.quality (payloadBytes o.payload)
  { msgId := msgId, prec := prec, pcp := pcp, released := d.now, boundNs := some bound, msgTime := o.tOutput,
    fragCount := fragments body.length, fragNext := 0, quality := o.quality, vtOffset := o.vtOffset, body := body }

/-- Put an output in the queues of V0 and V1, where its kind goes there (R323, R367): `bound` is the start bound. -/
def sendOutput (o : Output) (bound : Nat) (d : Dev) : Dev :=
  let l := d.image.link
  let final := d.lastOfMode o
  match o.kind with
  | .egoState => release (outputMessage 0x03 3 l.pcpFast bound o final d) d
  | .objectList => release (outputMessage 0x04 4 l.pcpBulk bound o final d) d
  | .drivable => release (outputMessage 0x05 5 l.pcpBulk bound o final d) d
  | _ => d

/-- An output with SOURCE 1 counts (R372, R395). -/
def countFallback (o : Output) (d : Dev) : Dev :=
  if o.source = .burlap then
    bump (barVlk + 0x11C) d.felt.fallbackCount 1 (fun c d => { d with felt := { d.felt with
      fallbackCount := c, window := { d.felt.window with fallback := d.felt.window.fallback + 1 } } }) d
  else d

/-- What the latest Object List shows (R369, R423): FALLBACK and PARTITION_RESTARTING, and when the first of each source
went out. -/
def noteList (o : Output) (d : Dev) : Dev :=
  if o.kind ≠ .objectList then d
  else
    let ms := BitVec.ofNat 16 (satTo 0xFFFF (d.now / msNs))
    let sent := decide (o.payload ≠ .missing)
    let b := d.boot
    let b := match o.source with
      | .main => { b with tMainMs := if sent && b.tMainMs = 0 then ms else b.tMainMs }
      | .burlap => { b with tFallbackMs := if sent && b.tFallbackMs = 0 then ms else b.tFallbackMs }
    { d with boot := b, felt := { d.felt with lastFallback := decide (o.source = .burlap),
                                              lastRestarting := o.quality.getLsbD 13 } }

/-- ROLLBACK_FUSE_BURN (R406): after the first main output of a tick of an image whose ROLLBACK_INDEX exceeds the count, the
housekeeping processor burns fuses up to it; an Ego State is none (R332, R410). -/
def burnRollback (o : Output) (d : Dev) : Dev :=
  if d.boot.mainDelivered || o.source ≠ .main || o.kind = .egoState || decide (o.payload = .missing) || !d.fwRuns procHkp then d
  else
    let b := d.boot
    let want := min 64 b.image.manifest.rollbackIndex
    let d := { d with boot := { b with mainDelivered := true } }
    if b.nv.rollbackCount < want then
      emit (.fuse (want - b.nv.rollbackCount)) { d with boot := { d.boot with nv := { d.boot.nv with rollbackCount := want } } }
    else d

/-- Send an output of a tick everywhere it goes (R323). -/
def sendEverywhere (o : Output) (bound : Nat) (d : Dev) : Dev :=
  burnRollback o (noteList o (countFallback o (deliver o (sendOutput o bound d))))

/-- The descriptors of a frame's data: a grid product's, or that of the painted features (R338, R360). -/
def Dev.frameDescs (d : Dev) (tick : Nat) (kind : OutKind) : List Nat :=
  match kind, d.tickRec tick with
  | .grid p, some r => match (d.imageAt tick).host.products[p.val]? with | some x => [x.descs.getD r.mode 0xFFFF] | none => []
  | .points, some r => match assoc r.mode (d.imageAt tick).grids with
    | some g => (g.ops.filter (fun o => o.op = .paint)).map (·.dest)
    | none => []
  | _, _ => []

/-- A window that produces a frame's data in its tick is marked missing (R249, R339). -/
def Dev.producerMissing (d : Dev) (tick : Nat) (kind : OutKind) : Bool :=
  (d.edgesAt .main tick).any (fun e => !e.prevTick && (d.frameDescs tick kind).contains e.inputDesc &&
    decide ((d.win .main tick e.producer).phase = .missing))

/-- The source whose content an output of a tick carries: Felt's selection, or the main pipeline's frame where neither its
assembly nor a producing window was marked missing (R339, R382). -/
def Dev.contentOf (d : Dev) (tick : Nat) (kind : OutKind) : Option Source :=
  if frameKind kind then
    (if (d.candidate .main tick kind).isSome && !d.producerMissing tick kind then some .main else none)
  else (d.selection tick kind).getD none

/-- One output of a TRANSMIT window: a grid or point frame only while the main pipeline runs (R339). -/
def transmitOutput (tick bound : Nat) (runs : Bool) (d : Dev) (kind : OutKind) : Dev :=
  if kind = .egoState || (frameKind kind && !runs) then d
  else
    let d := selectOutput tick d kind
    match buildOutput tick kind (d.contentOf tick kind) d with
    | some x => sendEverywhere x.1 bound x.2.2
    | none => d

/-- TRANSMIT_WINDOW (R75, R261, R367): at its opening a window's outputs are released. -/
def transmitWindow (tick w : Nat) (d : Dev) : Dev :=
  match d.windowRec .main tick w, d.tickRec tick with
  | some r, some t =>
    let s := d.win .main tick w
    if r.kind ≠ .transmit || s.phase ≠ .planned || t.transition || !d.reached (d.opening tick r) then d
    else
      let d := d.setWin .main tick w { s with phase := .ended, released := d.now }
      r.outputs.foldl (transmitOutput tick r.durNs t.mainRuns) d
  | _, _ => d

end Sys2Proof.Machine
end

