-- ==== Sys2Proof/Machine/Release.lean ====
section
/-!
DEFINITION. The release of windows, held releases, the layer watchdog and the STAGING windows
(spec/11_tick_plan.md R247 to R252, R257).
-/

namespace Sys2Proof.Machine

open Sys2Proof

/-! ### When and whether a window is released -/

/-- The instant that a window's release engine holds: the local copy of its die where that runs, else device time
(R51, R247). -/
def Dev.engineTime (d : Dev) (src : Source) (tick w : Nat) (r : WindowRec) : Nanos :=
  match src with
  | .burlap => d.now
  | .main =>
    let s := d.die (d.windowDie tick w r)
    if d.windowDie tick w r < 6 && decide (s.state = .admitted) && !s.resync then s.localTime else d.now

/-- The planned opening has come. -/
def Dev.opens (d : Dev) (src : Source) (tick w : Nat) (r : WindowRec) : Bool :=
  match d.opening tick r with
  | some t => (d.tickRec tick).isSome && decide (t ≤ (d.engineTime src tick w r : Int))
  | none => false

/-- A cluster of a list cannot run work: it restarts or has failed (R207, R222). -/
def Dev.clustersDown (d : Dev) (cls : List Nat) : Bool :=
  cls.any (fun c => match (d.cluster c).state with | .restarting | .failed => true | _ => false)

/-- The group of a window, as clusters. -/
def Dev.windowClusters (d : Dev) (src : Source) (tick : Nat) (r : WindowRec) : List Nat :=
  match d.groupOf src tick r with | some g => groupClusters src g | none => []

/-- What keeps the place of a window from running it: missing power or a halved clock (R442, R443), a die that is not
admitted, a partition or unit in restart or failed (R428, R430, R433), a Burlap cluster in reload (R207). -/
def Dev.blocked (d : Dev) (src : Source) (tick w : Nat) (r : WindowRec) : Option MissCause :=
  match src with
  | .burlap => if d.clustersDown (d.windowClusters src tick r) then some .restart else none
  | .main =>
    let x := d.windowDie tick w r
    if 6 ≤ x then none
    else if d.powerOff x || d.halved x then some .power
    else
      let s := d.die x
      let part := match d.windowPartRec tick w r with
        | some p => s.partRestarting p || s.partFailed p
        | none => false
      let unit := match r.kind with
        | .chambray => (match d.chbUnitOf tick w with | some u => decide ((d.chb u).state = .restarting) | none => false)
        | _ => false
      if s.state ≠ .admitted || part || unit || d.clustersDown (d.windowClusters src tick r) then some .restart
      else none

/-- The windows of a tick whose place cannot run them are marked missing as the tick begins, and those that open in a
later part of the restart with them (R249, R428 step 1, R442). -/
def missBlocked (src : Source) (tick : Nat) (d : Dev) : Dev :=
  (d.windowsAt src tick).foldl (fun d x =>
    match d.blocked src tick x.1 x.2 with
    | some c => miss c src tick x.1 d
    | none => d) d

/-! ### Cores (R200, R206, R247) -/

/-- The tallies that a window names are cleared in its group's clusters (R206). -/
def clearTallies (r : WindowRec) (d : Dev) (cl : Nat) : Dev :=
  d.modCluster cl (fun c =>
    { c with tallies := (List.range r.tallyCount).foldl (fun b i => bput 0 (r.tallyFirst + i) 0 b) c.tallies })

/-- A core takes a window: one that waits for it in WSTART goes on, any other starts the window's program. -/
def startCore (key w : Nat) (start : Nat → Option Nat) (d : Dev) (q : Nat) : Dev :=
  let c := { d.core q with window := some key }
  match c.run with
  | .waiting (.window n) =>
    if n = w then d.setCore q { c.next with run := .ready }
    else d.setCore q { c with pc := (start q).getD c.pc, loops := [], run := .ready }
  | _ => d.setCore q { c with pc := (start q).getD c.pc, loops := [], run := .ready }

/-- Where a window's program starts on a core. -/
def Dev.startOn (d : Dev) (src : Source) (tick : Nat) (r : WindowRec) (q : Nat) : Option Nat :=
  let mode := match src with | .main => d.modeAt tick | .burlap => none
  r.program.bind (fun p => programStart (d.imageAt tick) mode p (q / 64) (q % 64))

/-- A window's cores are still at work in an earlier window (R247). -/
def Dev.coresBusy (d : Dev) (src : Source) (tick : Nat) (r : WindowRec) : Bool :=
  match d.groupOf src tick r with
  | some g => (groupCores src g).any (fun q => (d.core q).window.isSome)
  | none => false

/-- Release a window to its cores. -/
def releaseCores (src : Source) (tick w : Nat) (r : WindowRec) (d : Dev) : Dev :=
  match d.groupOf src tick r with
  | none => d
  | some g =>
    let d := (groupClusters src g).foldl (clearTallies r) d
    let qs := groupCores src g
    let d := qs.foldl (startCore (winKey src tick w) w (d.startOn src tick r)) d
    d.setWin src tick w { d.win src tick w with phase := .running, released := d.now, active := qs }

/-! ### Units -/

/-- A TWEED or CHAMBRAY window that runs has ended in time. -/
def settleWindow (src : Source) (tick : Nat) (d : Dev) (x : Nat × WindowRec) : Dev :=
  let s := d.win src tick x.1
  if s.phase ≠ .running then d
  else match x.2.kind with
    | .tweed => d.setWin src tick x.1 { s with phase := .ended }
    | .chambray =>
      let d := d.setWin src tick x.1 { s with phase := .ended }
      closeChambray tick (match d.chbUnitOf tick x.1 with | some u => chambrayEnded u d | none => d)
    | _ => d

/-- Two windows use one unit. -/
def Dev.sameUnit (d : Dev) (t1 : Nat) (a : Nat × WindowRec) (t2 : Nat) (b : Nat × WindowRec) : Bool :=
  decide (a.2.kind = b.2.kind) &&
  (match a.2.kind with
  | .tweed => true
  | .chambray => decide (d.chbUnitOf t1 a.1 = d.chbUnitOf t2 b.1)
  | _ => false)

/-- The windows of open ticks that ran on a window's unit before it have ended when it is released. -/
def settleUnit (src : Source) (tick : Nat) (x : Nat × WindowRec) (d : Dev) : Dev :=
  d.plan.ticks.foldl (fun d e =>
    (d.windowsAt src e.1).foldl (fun d y =>
      if !(e.1 = tick && y.1 = x.1) && d.sameUnit tick x e.1 y then settleWindow src e.1 d y else d) d) d

/-- The windows whose timer of R168 or R188 has passed without their expiry have ended. -/
def settlePassed (d : Dev) : Dev :=
  d.plan.ticks.foldl (fun d e =>
    [Source.main, Source.burlap].foldl (fun d src =>
      (d.windowsAt src e.1).foldl (fun d x =>
        match d.expiry e.1 x.2 with
        | some t => if t < (d.now : Int) then settleWindow src e.1 d x else d
        | none => d) d) d) d

/-- The window runs from now on. -/
def runWindow (src : Source) (tick w : Nat) (d : Dev) : Dev :=
  d.setWin src tick w { d.win src tick w with phase := .running, released := d.now }

/-- The release of a window, its place being free (R247). -/
def releaseNow (src : Source) (tick w : Nat) (r : WindowRec) (d : Dev) : Dev :=
  match r.kind with
  | .core | .host | .recompute => releaseCores src tick w r d
  | .tweed => runStep src tick r.step (runWindow src tick w (settleUnit src tick (w, r) d))
  | .chambray => runChambray tick w (runWindow src tick w (settleUnit src tick (w, r) d))
  | .serge => releaseSerge src tick w r d
  | .assembly => r.outputs.foldl (beginOutput src tick) (runWindow src tick w d)
  | .golden => openGolden tick (runWindow src tick w d)
  | .staging => runWindow src tick w d
  | .transmit => d

/-- A solve of the transition tick (R27): number `m` of S0, or of S3, from CUTOFF_US after the boundary of minor tick m to
0.9 ms after it. -/
def releaseTransition (src : Source) (tick m : Nat) (t : TickRec) (d : Dev) : Dev :=
  let b := t.start + m * msNs
  let o := b + d.cutoffNs src
  match d.egoSlot src with
  | none => d
  | some g => match d.slotRec g with
    | none => d
    | some s =>
      if (d.win src tick m).phase ≠ .planned || m ≠ d.time.m || tick ≠ d.time.k || d.now < o
          || (d.srgUnit s.unit).state ≠ .idle || (d.srgSlot g).unavailable || (d.srgSlot g).suspended then d
      else startSolve src tick m g s o (b + 900 * usNs) d

/-- WINDOW_RELEASE (R247): a window of an open tick at its planned opening. One whose cores are still occupied is held,
and one whose place cannot run it is marked missing. -/
def windowRelease (src : Source) (tick w : Nat) (d : Dev) : Dev :=
  match d.tickRec tick, d.windowRec src tick w with
  | none, _ => d
  | some t, x =>
   if t.transition then releaseTransition src tick w t d
   else match x with
   | none => d
   | some r =>
    let s := d.win src tick w
    if s.phase ≠ .planned || r.kind = .transmit || !d.opens src tick w r then d
    else match d.blocked src tick w r with
      | some c => miss c src tick w d
      | none =>
        if d.coresBusy src tick r then d.setWin src tick w { s with phase := .held }
        else releaseNow src tick w r d

/-- A held window's place is free: its cores have left their earlier window, or its unit has ended. -/
def Dev.freed (d : Dev) (src : Source) (tick : Nat) (r : WindowRec) : Bool :=
  match r.kind with
  | .core | .host | .recompute => !d.coresBusy src tick r
  | .serge => match d.slotRec r.target with | some s => decide ((d.srgUnit s.unit).state ≠ .running) | none => true
  | _ => true

/-- A unit's window may be late without a mark of its own: its opening has passed. -/
def Dev.lateUnit (d : Dev) (tick : Nat) (r : WindowRec) : Bool :=
  (decide (r.kind = .tweed) || decide (r.kind = .chambray)) &&
  (match d.opening tick r with | some t => decide (t < (d.now : Int)) | none => false)

/-- HELD_WINDOW_RELEASE (R247): a held window is released when its cores or unit are freed, and counted. -/
def heldWindowRelease (src : Source) (tick w : Nat) (d : Dev) : Dev :=
  match d.windowRec src tick w with
  | none => d
  | some r =>
    let s := d.win src tick w
    let held := decide (s.phase = .held) || (decide (s.phase = .planned) && d.lateUnit tick r)
    if !held || !d.opens src tick w r || !d.freed src tick r then d
    else match d.blocked src tick w r with
      | some c => miss c src tick w d
      | none =>
        let d := bump (barTsq + 0x120) d.plan.heldRelease 1
          (fun c d => { d with plan := { d.plan with heldRelease := c } }) d
        releaseNow src tick w r d

/-! ### Ends by timers -/

/-- LAYER_WATCHDOG_EXPIRY (R248, R250): a CORE, HOST or RECOMPUTE window that has not ended at its expiry; the queries of
a HOST window complete ABORTED_DEADLINE. -/
def layerWatchdogExpiry (src : Source) (tick w : Nat) (d : Dev) : Dev :=
  match d.windowRec src tick w with
  | none => d
  | some r =>
    let open_ := match (d.win src tick w).phase with | .planned | .held | .running => true | _ => false
    if !kindOnCores r.kind || !open_ || !d.reached (d.expiry tick r) || (d.tickRec tick).isNone then d
    else
      let d := if r.kind = .host then abortQueries (winKey src tick w) d else d
      overrun src tick w r d

/-- The mode record that a pending staged switch copies in a tick: ticks j and j + 1 of a switch that starts at
j + 2 (R252). -/
def Dev.copying (d : Dev) (tick : Nat) : Option (PendingMode × ModeRec) :=
  match d.plan.pending with
  | some q =>
    if q.staged && decide (q.effect ≤ tick + 2) && decide (tick < q.effect) then (d.modeRec q.target).map (fun m => (q, m))
    else none
  | none => none

/-- The staged copy is complete (R248, R252). -/
def Dev.copied (d : Dev) (q : PendingMode) : Bool :=
  match d.modeRec q.target with | some m => decide (m.stageBytes ≤ q.copied) | none => false

/-- STAGING_WINDOW_END (R248, R251, R252): the copy stops at the window's planned end and keeps what it has copied. -/
def stagingWindowEnd (tick w bytes : Nat) (d : Dev) : Dev :=
  match d.windowRec .main tick w with
  | none => d
  | some r =>
    let s := d.win .main tick w
    if r.kind ≠ .staging || s.phase ≠ .running || !d.reached (d.plannedEnd tick r) then d
    else
      let d := d.setWin .main tick w { s with phase := .ended }
      match d.copying tick with
      | none => d
      | some (q, m) =>
        let q' := { q with copied := min m.stageBytes (q.copied + bytes) }
        let d := { d with plan := { d.plan with pending := some q' } }
        if d.copied q' then copyOverlay d.image m (fun _ => true) d else d

end Sys2Proof.Machine
end

