-- ==== Sys2Proof/Machine/Boot.lean ====
section
/-!
DEFINITION. Verifying a slot, the start-up, staging and the read of a warm start
(spec/17_image_boot_and_firmware.md R398 to R416, R498).
-/

namespace Sys2Proof.Machine

open Sys2Proof

/-! ### Verification (R405 to R407) -/

/-- The current lifecycle state is in a LIFECYCLE_MASK (R400, R405): Retired is in none. -/
def inMask (l : Lifecycle) (mask : BitVec 3) : Bool := mask.getLsbD l.code

/-- Steps 1 to 5 of R405: the first that fails. -/
def earlyCause (nv : NvState) (r : SlotRead) : Option Nat :=
  let m := manifestRec r.manifest
  let b := blockRec r.block
  if !(decide (m.magic = 0x4D495A4C) && decide (m.formatVersion = 1) && decide (m.manifestBytes = 0x40 + 0x40 * m.sectionCount) &&
      decide (b.magic = 0x47535A4C)) then some 1
  else if r.rootKeyDigest ≠ nv.rootDigest then some 2
  else if !(decide (b.cert.kind = 1) && r.certSigOk) then some 3
  else if !(inMask nv.lifecycle b.cert.lifecycleMask && inMask nv.lifecycle m.lifecycleMask &&
      (decide (b.cert.bindSerial = 0) || decide (b.cert.bindSerial = nv.serial)) && decide (nv.lifecycle ≠ .retired)) then some 4
  else if !r.manifestSigOk then some 5
  else none

/-- The entry of a section's part is in its phase (R402). -/
def entryIs (phase : Nat) (p : Nat × Nat) (e : SectionEntry) : Bool := decide (e.id = p.1) && decide (e.part = p.2) && decide (e.phase = phase)

/-- Two section entries do not overlap. -/
def entriesApart (a b : SectionEntry) : Bool := decide (a.offset + a.bytes ≤ b.offset) || decide (b.offset + b.bytes ≤ a.offset)

/-- Step 7 of R405: the sections of R402 are there, 0x33 or not, with the right PART and PHASE, at aligned offsets that do not
overlap and lie within IMAGE_BYTES. -/
def sectionsOk (m : Manifest) : Bool :=
  phase0Parts.all (fun p => decide (p.1 = 0x33) || m.entries.any (entryIs 0 p)) &&
  phase1Parts.all (fun p => m.entries.any (entryIs 1 p)) &&
  m.entries.all (fun e => !(phase0Parts ++ phase1Parts).any (fun p => decide (p.1 = e.id)) ||
    phase0Parts.any (fun p => entryIs 0 p e) || phase1Parts.any (fun p => entryIs 1 p e)) &&
  m.entries.all (fun e => decide (e.offset % 0x10000 = 0) && decide (e.offset + e.bytes ≤ m.imageBytes)) &&
  decide (m.entries.Pairwise (fun a b => entriesApart a b = true))

/-- Step 8 of R405: the ID of the first section of the given ones whose digest differs from that of the bytes read. -/
def badSection (parts : List (Nat × Nat)) (r : SlotRead) : Option Nat :=
  ((manifestRec r.manifest).entries.zipIdx.find? (fun e => parts.any (fun p => decide (p = (e.1.id, e.1.part))) &&
    !r.sections.any (fun s => decide (s.entry = e.2) && decide (s.digest = e.1.digest)))).map (fun e => e.1.id)

/-- Steps 6 to 8, of the sections read, and the block timeout. -/
def lateCause (nv : NvState) (parts : List (Nat × Nat)) (r : SlotRead) : Option Nat :=
  let m := manifestRec r.manifest
  if m.rollbackIndex < nv.rollbackCount then some 6
  else if !sectionsOk m then some 7
  else if (badSection parts r).isSome then some 8
  else if r.blockTimeout then some 9
  else none

/-- A slot that verifies through step 5 with RETIRE set retires the device (R407). -/
def retires (nv : NvState) (r : SlotRead) : Bool :=
  (manifestRec r.manifest).retire && (earlyCause nv r).isNone &&
  (decide (nv.lifecycle = .development) || decide (nv.lifecycle = .production))

/-- The failure cause of a slot of which the given sections have been read (R405); one that retires the device is loaded no
further. -/
def slotCause (nv : NvState) (parts : List (Nat × Nat)) (r : SlotRead) : Option Nat :=
  match earlyCause nv r with
  | some e => some e
  | none => if retires nv r then some 4 else lateCause nv parts r

/-- The Retired fuse is burnt (R407). -/
def burnRetired (d : Dev) : Dev :=
  emit .retireFuse { d with boot := { d.boot with nv := { d.boot.nv with lifecycle := .retired } } }

/-- Reading a slot shows what its header holds (R408). -/
def noteHeader (s : Slot) (r : SlotRead) (d : Dev) : Dev :=
  { d with boot := { d.boot with nv := d.boot.nv.setHeader s (headerRec r.manifest) } }

/-! ### The boot NVM (R398, R412) -/

/-- The chip select that holds a 64 KiB stripe of a slot (R398), numbered as in R423. -/
def stripeCs (s : Slot) (stripe : Nat) : Nat := (if stripe % 2 = 0 then 0 else 2) + s.idx

/-- Erase a 64 KiB stripe of a slot; the first holds the manifest (R399, R412). -/
def eraseStripe (s : Slot) (d : Dev) (stripe : Nat) : Dev :=
  let nv := d.boot.nv.erase (stripeCs s stripe) (stripe / 2)
  let nv := if stripe = 0 then nv.setHeader s { nv.header s with magicOk := false } else nv
  emit (.nvErase s.idx (stripe * 0x10000)) { d with boot := { d.boot with nv := nv } }

/-- Erase a slot's manifest sector (R412, R414). -/
def eraseManifest (s : Slot) (d : Dev) : Dev := eraseStripe s d 0

/-- The staged slot: the one not used at the last start (R412). -/
def Dev.stagedSlot (d : Dev) : Slot := d.boot.bootSlot.other

/-- The slot that a warm start reads: the first of the order of R408, a verified staged slot before it (R413). -/
def Dev.warmSlot (d : Dev) : Slot :=
  if d.boot.stageVerified then d.stagedSlot else firstSlot d.boot.nv d.boot.bootHint

/-! ### A failing slot (R408, R409) -/

/-- The failure cause of a slot in HKP_BOOT_STATUS (R423). -/
def noteFail (s : Slot) (cause : Nat) (d : Dev) : Dev :=
  let c := BitVec.ofNat 4 cause
  { d with boot := match s with
      | .a => { d.boot with failA := c }
      | .b => { d.boot with failB := c } }

/-- The slot tried now fails (R409): before the Tick Sequencer has started the next is read, or none is left; after it
the device resets with the boot hint set. -/
def failSlot (cause : Nat) (d : Dev) : Dev :=
  let s := d.boot.trying
  let d := noteFail s cause d
  match d.boot.phase with
  | .phase0 =>
    if d.boot.second then { d with boot := { d.boot with phase := .noImage, noImage := true } }
    else { d with boot := { d.boot with trying := s.other, second := true } }
  | .phase1 => fullReset (some s) d
  | _ => d

/-! ### Start-up (R410, R438) -/

/-- The clusters that some mode of an image uses, and the compute dies whose Chambray domain is in a partition (R438). -/
def usedClusters (img : Image) : List Nat := (img.plan.modes.flatMap (fun e => modeClusters e.2)).eraseDups

/-- The compute dies whose Chambray domain some mode uses (R438). -/
def usedChambray (img : Image) : List Nat :=
  (img.plan.modes.flatMap (fun e => (e.2.parts.filter (fun p => decide (p.die < 4) && p.chambray)).map (·.die))).eraseDups

/-- Switch the domains on (R438): those of Burlap, and those that some mode uses. -/
def switchOn (d : Dev) : Dev :=
  let cls := usedClusters d.image
  let d := { d with boot := { d.boot with clustersOn := cls, chambrayOn := usedChambray d.image } }
  (cls ++ [128, 129, 130, 131]).foldl (fun d c => d.modCluster c (fun x => { x with state := .running })) d

/-- Load Burlap from its sections (R402). -/
def loadBurlap (d : Dev) : Dev := [128, 129, 130, 131].foldl (loadBurlapCluster d.image) d

/-- The Tick Sequencer starts with the tick parameters of INITIAL_MODE; tick 0 begins at the first multiple of P
(R25, R498). -/
def startSequencer (d : Dev) : Dev :=
  match d.modeRec d.image.plan.initialMode with
  | some m =>
    d.setTime { d.time with running := true, begun := false, k := 0, m := 0, nextM := 0, lastB := none,
                            bk := nextMultiple (m.pMs * msNs) d.now, pMs := m.pMs, n := m.n, dMinor := m.dMinor }
  | none => d

/-- Phase 0 of the slot tried now is in place (R410): firmware runs, Serge's structures are built, the ports of phase 0
are enabled, and the Tick Sequencer starts. -/
def startImage (img : Image) (d : Dev) : Dev :=
  let b := d.boot
  let d := { d with boot := { b with phase := .phase1, image := img, prevImage := img, bootSlot := b.trying,
                                     traceMask := img.traceMask, sectionsVerified := [] },
                    cal := loadCal img.cal d.cal }
  let d := loadBurlap (switchOn (restoreWear d))
  let d := startSequencer d
  let d := (List.range 4).foldl loadUnit d
  img.streams.entries.foldl enableLidar d

/-- PHASE0_LOADED (R405 to R410): the manifest and phase 0 of the slot tried now have been read and checked. -/
def phase0Loaded (read : SlotRead) (d : Dev) : Dev :=
  if d.boot.phase ≠ .phase0 then d
  else
    let nv := d.boot.nv
    let d := noteHeader d.boot.trying read d
    if retires nv read then
      burnRetired { d with boot := { d.boot with phase := .retired } }
    else match slotCause nv phase0Parts read with
      | some c => failSlot c d
      | none => startImage (imageOf phase0Parts read) d

/-- SECTION_VERIFIED (R405, R409, R410): a section of phase 1 has been read and the Keccak engine gives its digest; where that
is the manifest's, the section comes into use, the camera ports with section 0x11. -/
def sectionVerified (id : BitVec 8) (bytes : List Byte) (digest : Nat) (d : Dev) : Dev :=
  let n := id.toNat
  let im := d.boot.image
  if d.boot.phase ≠ .phase1 || !d.fwRuns procHkp || d.boot.sectionsVerified.contains n then d
  else
    match phase1Parts.find? (fun p => decide (p.1 = n)) with
    | none => d
    | some p =>
      match placeOf im.manifest n p.2 with
      | none => d
      | some i =>
        if ((im.manifest.entries[i]?).map (·.digest)) ≠ some digest then failSlot 8 d
        else
          let im := withSections im [(i, bytes)] [n]
          let d := { d with boot := { d.boot with sectionsVerified := n :: d.boot.sectionsVerified, image := im } }
          if n = 0x11 then im.cameras.foldl enableCamera d else d

/-- SLOT_VERIFIED (R408 to R410): the whole slot has verified, or a section of it has not. Where an earlier slot of the
order had failed, SLOT_FALLBACK is set. -/
def slotVerified (bad : Option (BitVec 8)) (d : Dev) : Dev :=
  if d.boot.phase ≠ .phase1 || !d.fwRuns procHkp then d
  else match bad with
    | some _ => failSlot 8 d
    | none =>
      if !phase1Parts.all (fun p => d.boot.sectionsVerified.contains p.1) then d
      else
        let fell := d.boot.second || d.boot.bootHint.isSome
        { d with boot := { d.boot with phase := .verified, prevImage := d.boot.image, fallbackEvent := fell,
                                       slotFallback := d.boot.slotFallback || fell } }

/-! ### Staging (R354, R412, R413, R416) -/

/-- STAGE_BUSY: a staging command or the read of a slot runs (R413, R414, R423). -/
def Dev.stageBusy (d : Dev) : Bool :=
  decide (d.boot.stage ≠ .none) || decide (d.boot.phase ≠ .verified) ||
  (match d.boot.warm with | .reading _ => true | _ => false)

/-- The arguments of a STAGE_WRITE hold (R354, R398). -/
def stageArgsOk (offset len : Nat) : Bool :=
  decide (offset % 0x10000 = 0) && decide (len % 0x10000 = 0) && decide (0 < len) && decide (len ≤ 0x1000000) &&
  decide (offset + len ≤ 0x20000000)

/-- STAGE_WRITE (R343, R354, R412): the sectors are erased, and the data are read from the host. -/
def stageWrite (port : Fin 4) (d : Dev) : Dev :=
  let p := port.val
  privileged p 0x21 (fun w d =>
    let offset := (w.sub.arg 0).toNat
    let len := (w.sub.arg 1).toNat
    if !stageArgsOk offset len then finishCommand p w stInvalid [] d
    else if d.stageBusy || d.boot.nvStopped then finishCommand p w stRefused [] d
    else
      let s := d.stagedSlot
      let d := if d.boot.stageErased then d else eraseManifest s d
      let d := { d with boot := { d.boot with stageErased := true, stageVerified := false,
                                              stage := .write p offset len } }
      let d := ((List.range (len / 0x10000)).map (fun i => offset / 0x10000 + i)).foldl (eraseStripe s) d
      emit (.hostRead p ((w.sub.arg 2).toNat + 2 ^ 32 * (w.sub.arg 3).toNat) len) (startCommand p w.order d)) d

/-- A staging command of a port completes, where its session still has it (R416). -/
def finishStage (p : Nat) (op : BitVec 8) (result : List Byte) (d : Dev) : Dev :=
  match d.begunCommand p op with
  | some w => finishCommand p w stOk result d
  | none => d

/-- STAGE_WRITE_DONE (R412): the sectors are programmed. `head` is what the first 0x40 bytes of the manifest sector hold
where it is among them. -/
def stageWriteDone (head : List Byte) (d : Dev) : Dev :=
  match d.boot.stage with
  | .write p offset len =>
    if d.boot.nvStopped || !d.fwRuns procHkp then d
    else
      let s := d.stagedSlot
      let nv := if offset = 0 then d.boot.nv.setHeader s (headerRec head) else d.boot.nv
      finishStage p 0x21 [] (emit (.nvProgram s.idx offset len) { d with boot := { d.boot with stage := .none, nv := nv } })
  | _ => d

/-- STAGE_COMMIT (R412): the read and verification of the staged slot begin. -/
def stageCommit (port : Fin 4) (d : Dev) : Dev :=
  let p := port.val
  privileged p 0x22 (fun w d =>
    if d.stageBusy then finishCommand p w stRefused [] d
    else startCommand p w.order { d with boot := { d.boot with stage := .commit p } }) d

/-- OUTCOME of a STAGE_COMMIT (R413): cause 10 where the slot is not newer than the running image. -/
def stageOutcome (nv : NvState) (running : BitVec 32) (r : SlotRead) : Nat :=
  match slotCause nv (phase0Parts ++ phase1Parts) r with
  | some n => n
  | none => if running.toNat < (manifestRec r.manifest).serial.toNat then 0 else 10

/-- The result of a STAGE_COMMIT (R413), with the ID of the failing section and the header of the staged slot. -/
def stageResult (outcome sec : Nat) (h : SlotHeader) : List Byte :=
  w32 (outcome + 2 ^ 8 * sec) ++ w32 h.serial.toNat ++ w32 (h.rollbackIndex % 128) ++ w32 0

/-- A STAGE_COMMIT ends with an outcome (R412, R413): a failure erases the staged slot's manifest sector, and a verified
slot comes first at the next start. -/
def endCommit (p outcome sec : Nat) (h : SlotHeader) (d : Dev) : Dev :=
  let s := d.stagedSlot
  let hint := if outcome = 0 && decide (d.boot.bootHint = some s) then none else d.boot.bootHint
  let d := { d with boot := { d.boot with stage := .none, stageStatus := BitVec.ofNat 4 outcome, stageSection := BitVec.ofNat 8 sec,
                                          stageVerified := decide (outcome = 0), bootHint := hint } }
  let d := if outcome = 0 then d else eraseManifest s d
  finishStage p 0x22 (stageResult outcome sec h) d

/-- STAGE_COMMIT_DONE (R407, R412, R413). -/
def stageCommitDone (read : SlotRead) (d : Dev) : Dev :=
  match d.boot.stage with
  | .commit p =>
    if !d.fwRuns procHkp then d
    else
      let nv := d.boot.nv
      let d := noteHeader d.stagedSlot read d
      let d := if retires nv read then burnRetired d else d
      let outcome := stageOutcome nv d.image.manifest.serial read
      endCommit p outcome (if outcome = 8 then (badSection (phase0Parts ++ phase1Parts) read).getD 0 else 0) (headerRec read.manifest) d
  | _ => d

/-! ### Warm start: acceptance and read (R376, R414) -/

/-- CONSENT_ACTIVE (R376). -/
def Dev.consentActive (d : Dev) : Bool :=
  match d.ctrl.consentUntil with | some t => decide (d.now < t) | none => false

/-- A session at the acceptance of a warm start (R414). -/
def warmClose (d : Dev) (p : Nat) : Dev :=
  match (d.port p).state with
  | .attesting | .open_ => closing p .warmStart d
  | _ => d

/-- WARM_START (R354, R376, R414 step 1). -/
def warmStart (port : Fin 4) (d : Dev) : Dev :=
  let p := port.val
  privileged p 0x24 (fun w d =>
    if !d.consentActive || d.felt.classV then finishCommand p w stNotPermitted [] d
    else if d.stageBusy || decide (d.boot.warm ≠ .none) then finishCommand p w stRefused [] d
    else
      let d := finishCommand p w stOk [] d
      let d := { d with ctrl := { d.ctrl with consentUntil := none },
                        boot := { d.boot with warm := .reading d.warmSlot } }
      [0, 1, 2, 3].foldl warmClose d) d

/-- The read of a warm start fails (R414 step 3): the running image continues, and the slot's manifest sector is erased
unless it is the running one's. -/
def failWarm (s : Slot) (cause : Nat) (d : Dev) : Dev :=
  let d := { d with boot := { d.boot with warm := .none, warmStatus := 2, warmCause := BitVec.ofNat 4 cause } }
  let d := if s = d.boot.bootSlot then d
    else eraseManifest s { d with boot := { d.boot with stageVerified := false } }
  conditionEvent (barHkp + 0x10) (2 + 2 ^ 4 * cause) d

/-- The first major tick boundary at or after an instant (R414). -/
def Dev.majorFrom (d : Dev) (t : Nanos) : Nanos :=
  let base := d.time.startOf (d.time.k + 1)
  if t ≤ base then base else base + nextMultiple d.time.pNs (t - base)

/-- The solves in progress end at B_c at the latest (R414 step 5). -/
def cutSolves (bc : Nanos) (d : Dev) : Dev :=
  d.sergeDefs.slots.foldl (fun d s => modSlot s.1 (fun x => { x with deadlineAt := min x.deadlineAt bc }) d) d

/-- WARM_READ_DONE (R405, R414 steps 3 and 4): the slot has failed, or has verified at t_1 and B_c is set. -/
def warmReadDone (read : SlotRead) (d : Dev) : Dev :=
  match d.boot.warm with
  | .reading s =>
    if !d.fwRuns procHkp then d
    else
      let nv := d.boot.nv
      let d := noteHeader s read d
      let d := if retires nv read then burnRetired d else d
      match slotCause nv (phase0Parts ++ phase1Parts) read with
      | some c => failWarm s c d
      | none =>
        let bc := d.majorFrom (d.now + 2 * d.time.minorNs)
        cutSolves bc { d with boot := { d.boot with warm := .changeover s (imageOf (phase0Parts ++ phase1Parts) read) bc false } }
  | _ => d

/-- IMAGE_BLOCK_TIMEOUT (R409): a 16 MiB block of the slot being read has not been read in 200 ms. -/
def imageBlockTimeout (d : Dev) : Dev :=
  match d.boot.phase with
  | .phase0 | .phase1 => failSlot 9 d
  | .verified =>
    match d.boot.warm, d.boot.stage with
    | .reading s, _ => failWarm s 9 d
    | _, .commit p => endCommit p 9 0 (d.boot.nv.header d.stagedSlot) d
    | _, _ => d
  | _ => d

end Sys2Proof.Machine
end

