-- ==== Sys2Proof/Machine/Ladder.lean ====
section
/-!
DEFINITION. Die admission, the reload and rejoin of partitions and dies, firmware processors, trace points and the TAP
(spec/17_image_boot_and_firmware.md R411, R414, R417 to R420; spec/18_recovery_ladder.md R426 to R434;
spec/21_package_and_electrical.md R492).
-/

namespace Sys2Proof.Machine

open Sys2Proof

/-! ### Admission (R411, R434) -/

/-- One more admission failure of a die (R434). -/
def countAdmitFail (x : Nat) (d : Dev) : Dev :=
  bump (barTsq + 0x200 + 0x20 * x + 0x14) (d.die x).admitFail 1
    (fun c d => d.modDie x (fun s => { s with admitFail := c })) d

/-- A die is admitted: it takes its copies from the next broadcast, and its link's latency has been measured (R52,
R411). -/
def admitDie (x latency : Nat) (d : Dev) : Dev :=
  refreshModes (loadDie d.image x (d.modDie x (fun s => { s with state := .admitted, resync := true, latency := latency })))

/-- A die is not admitted (R411, R437). -/
def rejectDie (x : Nat) (d : Dev) : Dev :=
  refreshModes (countAdmitFail x (d.modDie x (fun s => { s with state := .out })))

/-- A die restart has reloaded the die, and it has not reported since (R430, R434). -/
def DieState.reportDue (s : DieState) : Bool :=
  match s.restart with
  | some r => (match r.phase with | .reloaded _ => !r.readmitted | .running => false)
  | none => false

/-- The tick processor decides on a die's report (R411, R434): after a die restart a first failure brings one more die
restart, a second one declares the die failed. -/
def decideReport (x : Nat) (ok : Bool) (latency : Nat) (d : Dev) : Dev :=
  let s := d.die x
  if s.state = .awaiting then (if ok then admitDie x latency d else rejectDie x d)
  else if !s.reportDue then d
  else if ok then
    d.setDie x { s with restart := s.restart.map (fun r => { r with readmitted := true }), latency := latency }
  else
    let d := countAdmitFail x d
    if s.readmitRetried then declareFailed x 0xFF d
    else
      let d := restartDie x s.lastCause.toNat (d.modDie x (fun s => { s with restart := none }))
      d.modDie x (fun s => { s with readmitRetried := true })

/-- MEM_CONFIG of the running image (R400). -/
def Dev.memConfig (d : Dev) : MemFit :=
  let m := d.image.manifest
  { groups := m.memGroups, ranks := m.memRanks, gib := m.memGib }

/-- The LPDDR5X of a memory-side die, as far as it has been reported, differs from MEM_CONFIG (R487). -/
def Dev.memMismatch (d : Dev) : Bool :=
  [4, 5].any (fun x => match (d.die x).memory with | some m => decide (m ≠ d.memConfig) | none => false)

/-- A memory-side die's steward reports what LPDDR5X has trained (R487): a difference from MEM_CONFIG raises a health event,
and at a start the other memory-side die, if it has been admitted, is admitted no longer. -/
def noteMemory (x : Nat) (m : MemFit) (start : Bool) (d : Dev) : Dev :=
  if x < 4 then d
  else
    let d := d.modDie x (fun s => { s with memory := some m })
    if m = d.memConfig then d
    else
      let y := 9 - x
      let d := if start && decide ((d.die y).state = .admitted) then rejectDie y d else d
      conditionEvent (barTsq + 0x200 + 0x20 * x) 0 d

/-- DIE_ADMISSION_REPORT (R411, R417, R434, R487): a steward reports its digests, firmware version and epoch, the latency it has
measured and, on a memory-side die, the LPDDR5X that has trained. While the tick processor restarts the report waits. -/
def dieAdmissionReport (die : Fin 6) (digestsOk versionOk epochOk : Bool) (latency : Nat) (memory : MemFit) (d : Dev) : Dev :=
  let x := die.val
  let s := d.die x
  let start := decide (s.state = .awaiting) && s.reloaded && decide (d.boot.phase = .verified)
  if !(start || s.reportDue) || !d.fwRuns (4 + x) || d.powerOff x then d
  else
    let d := noteMemory x memory start d
    let ok := digestsOk && versionOk && epochOk && (decide (x < 4) || !d.memMismatch)
    if d.fwRuns 0 then decideReport x ok latency d
    else fwEvent 0 (d.modDie x (fun s => { s with report := some (ok, latency) }))

/-- The admission deadline: 1,800 ms after reset release, or B_c + 1,000 ms (R411, R414). -/
def Dev.admissionLimit (d : Dev) : Nanos :=
  match d.boot.warm with
  | .reload bc _ => bc + 1000 * msNs
  | _ => 1800 * msNs

/-- A die awaits its admission: from reset release, or through the reload of a warm start (R437). -/
def Dev.awaits (d : Dev) (x : Nat) : Bool :=
  let s := d.die x
  decide (s.state = .awaiting) || (!s.reloaded && decide (s.state ≠ .out))

/-- ADMISSION_DEADLINE (R411, R414): a die that has not reported is not admitted. -/
def admissionDeadline (die : Fin 6) (d : Dev) : Dev :=
  let x := die.val
  if d.awaits x && decide (d.admissionLimit ≤ d.now) && decide (d.boot.phase ≠ .held) then
    rejectDie x (d.modDie x (fun s => { s with restart := none, parts := [], reloaded := true, report := none }))
  else d

/-- A main window of the old image still has work on a die (R414 step 5). -/
def Dev.oldWork (d : Dev) (x : Nat) : Bool :=
  d.plan.ticks.any (fun e => decide (e.1 < d.boot.changeTick) && (d.windowsAt .main e.1).any (fun w =>
    decide (d.windowDie e.1 w.1 w.2 = x) &&
    (match (d.win .main e.1 w.1).phase with | .planned | .held | .running => true | _ => false)))

/-- DIE_RELOAD (R414 step 5): after its last old window a die is reloaded with the new image, and awaits admission. -/
def dieReload (die : Fin 6) (d : Dev) : Dev :=
  let x := die.val
  let s := d.die x
  match d.boot.warm with
  | .reload _ _ =>
    if s.reloaded || s.state = .out || d.oldWork x || d.powerOff x then d
    else
      let d := d.setDie x { s with state := .awaiting, restart := none, parts := [], report := none, resync := true,
                                   reloaded := true }
      if x < 4 then
        let cls := (List.range 32).map (fun c => 32 * x + c)
        let d := cls.foldl resetCluster d
        setUnitState x .idle (loadDie d.image x (cls.foldl (setClusters .running) d))
      else loadDie d.image x (emptyMemorySide x d)
  | _ => d

/-! ### Restarts (R428 to R434) -/

/-- RELOAD_DONE (R417, R428 step 5): a steward has reloaded its partition, or with 0xFF its die. An uncorrectable error
during the copy restarts the sequence. -/
def reloadDone (die : Fin 6) (part : Nat) (ok : Bool) (d : Dev) : Dev :=
  let x := die.val
  let s := d.die x
  if !d.fwRuns (4 + x) || d.powerOff x then d
  else if part = 0xFF then
    match s.restart with
    | some r =>
      if r.phase ≠ .running then d
      else if ok then
        loadDie d.image x (d.setDie x { s with restart := some { r with phase := .reloaded d.now } })
      else d
    | none => d
  else
    match s.parts.find? (fun r => decide (r.index = part) && decide (r.phase = .running)) with
    | none => d
    | some q =>
      if ok then
        loadPartition q.part (d.setDie x { s with parts := s.parts.map (fun r =>
          if r.index = part then { r with phase := .reloaded d.now } else r) })
      else resetPartition q.part d

/-- RESTART_TIMEOUT (R433): a partition or die that has not rejoined 300 ms after its detection is declared failed. -/
def restartTimeout (die : Fin 6) (part : Nat) (d : Dev) : Dev :=
  let x := die.val
  let s := d.die x
  let past (since : Nanos) : Bool := decide (since + 300 * msNs ≤ d.now)
  if d.powerOff x then d
  else if part = 0xFF then
    match s.restart with
    | some r => if past r.since then declareFailed x 0xFF d else d
    | none => d
  else match s.parts.find? (fun r => decide (r.index = part)) with
    | some r => if past r.since then declareFailed x part d else d
    | none => d

/-- Step 5 ended at least one minor tick ago (R428 step 6). -/
def Dev.mayRejoin (d : Dev) (p : RestartPhase) : Bool :=
  match p with
  | .reloaded t => decide (t + d.time.minorNs ≤ d.now)
  | .running => false

/-- A partition rejoins (R428 step 6). -/
def rejoinPart (x : Nat) (d : Dev) (r : PartRestart) : Dev :=
  if !d.mayRejoin r.phase then d
  else
    let d := d.modDie x (fun s => { s with parts := s.parts.filter (fun q => !touches q.part r.part) })
    let d := { d with recovery := { d.recovery with lastEnd := d.now } }
    let p := r.part
    let d := p.clusters.foldl (fun d c => setClusters .running d (32 * p.die + c)) d
    if p.chambray then setUnitState p.die .idle d else d

/-- A die that has been reloaded and re-admitted rejoins (R430, R434): its copies come from the next broadcast. -/
def rejoinDie (x : Nat) (r : DieRestart) (d : Dev) : Dev :=
  if !d.mayRejoin r.phase || !r.readmitted then d
  else
    let d := d.modDie x (fun s => { s with restart := none, parts := [], state := .admitted, resync := true,
                                           readmitRetried := false })
    let d := { d with recovery := { d.recovery with lastEnd := d.now } }
    if x < 4 then
      setUnitState x .idle ((List.range 32).foldl (fun d c => setClusters .running d (32 * x + c)) d)
    else d

/-- PARTITION_REJOIN at a major tick boundary (R428, R430). -/
def rejoin (d : Dev) (x : Nat) : Dev :=
  let s := d.die x
  if d.powerOff x then d
  else match s.restart with
    | some r => rejoinDie x r d
    | none => s.parts.foldl (rejoinPart x) d

/-! ### Firmware processors (R417, R418, R427) -/

/-- The severity of a fault in health records and in the log (R419, R450). -/
def sevFault : Nat := 4

/-- BAR0 offset of HKP_FW_RESTART_COUNT of processor p (R423). -/
def barFw (p : Nat) : Nat := barHkp + 0x40 + 4 * p

/-- FW_WATCHDOG_EXPIRY (R418, R427): the processor alone restarts, counted and logged; the safety pair's is a class V
fault, a third within 1,000 ms raises a health event, and a steward's fourth restarts its die. -/
def fwWatchdogExpiry (p : FwProc) (d : Dev) : Dev :=
  let q := p.val
  let f := d.proc q
  if f.restarting || d.boot.phase = .held then d
  else
    let recent := (d.now :: f.recent).filter (fun t => decide (d.now < t + 1000 * msNs))
    let c := f.restarts.inc
    let d := modProc q (fun f => { f with restarting := true, restartBegan := d.now, recent := recent, restarts := c }) d
    let d := satEvent (barFw q) f.restarts c d
    let d := logWrite q (Config.severity 0x1000 (barFw q)).toNat (barFw q) [c.val.toNat] d
    let d := if q = 1 then raiseV 0x0002 dieIod (Config.faultUnit 0x0002) (Config.faultArg 0x0002) false 0 d else d
    let d := if 3 ≤ recent.length then
        healthEvent { code := 0x1000, severity := BitVec.ofNat 3 sevFault, unit := q, arg0 := barFw q, arg1 := c.val.toNat }
          (logWrite q sevFault (barFw q) [c.val.toNat] d)
      else d
    if 4 ≤ q && decide (4 ≤ recent.length) then restartDie (q - 4) causeSteward d else d

/-- FIRMWARE_RESTART_COMPLETE (R417, R418): the processor runs again and takes its queued events; the tick processor
decides the reports that waited. -/
def firmwareRestartComplete (p : FwProc) (d : Dev) : Dev :=
  let q := p.val
  if !(d.proc q).restarting || (decide (q = 1) && d.felt.pairReset) then d
  else
    let d := modProc q (fun f => { f with restarting := false, queued := 0 }) d
    if q ≠ 0 then d
    else (List.range 6).foldl (fun d x =>
      match (d.die x).report with
      | some r => decideReport x r.1 r.2 (d.modDie x (fun s => { s with report := none }))
      | none => d) d

/-! ### Trace points (R420) and the TAP (R492) -/

/-- A dropped trace record. -/
def dropTrace (d : Dev) : Dev :=
  bump (barHkp + 0x6C) d.boot.traceDrop 1 (fun c d => { d with boot := { d.boot with traceDrop := c } }) d

/-- Put a record into the trace buffer of 8,192 records. -/
def putTrace (d : Dev) (r : TraceRecord) : Dev :=
  if d.boot.trace.length < 8192 then { d with boot := { d.boot with trace := r :: d.boot.trace } } else dropTrace d

/-- TRACE_POINT (R420): an enabled point emits a record into its die's local buffer of 64, or drops it. The record count
of the die advances in either case. -/
def tracePoint (die : Die) (id : BitVec 16) (args : List Word) (d : Dev) : Dev :=
  if !d.boot.traceMask.contains id.toNat then d
  else
    let x := die.idx
    let n : BitVec 8 := bget 0 x d.boot.traceSeq + 1
    let buf : List TraceRecord := bget [] x d.boot.traceLocal
    let d := { d with boot := { d.boot with traceSeq := bput 0 x n d.boot.traceSeq } }
    if buf.length < 64 then
      let r : TraceRecord := { time := d.now, id := id, die := x, dieSeq := n, args := args.take 5 }
      { d with boot := { d.boot with traceLocal := bput [] x (r :: buf) d.boot.traceLocal } }
    else dropTrace d

/-- The local buffers go to the trace buffer in IOD SRAM. -/
def moveTrace (d : Dev) : Dev :=
  let rs := (List.range 7).flatMap (fun x => (bget [] x d.boot.traceLocal : List TraceRecord).reverse)
  rs.foldl putTrace { d with boot := { d.boot with traceLocal := [] } }

/-- TAP_INSTRUCTION (R492): an instruction is loaded. -/
def tapInstruction (code : TapInstr) (d : Dev) : Dev := { d with boot := { d.boot with tap := code } }

/-- The instruction that the TAP acts on: while SAFE_OK runs every one but BYPASS, IDCODE and SAMPLE/PRELOAD is treated as
BYPASS (R492). -/
def Dev.tapActs (d : Dev) : TapInstr :=
  match d.boot.tap with
  | .bypass => .bypass
  | .idcode => .idcode
  | .samplePreload => .samplePreload
  | t => if d.felt.safeOk = .running then .bypass else t

end Sys2Proof.Machine
end

