-- ==== Sys2Proof/Machine/Boundary.lean ====
section
/-!
DEFINITION. The minor and major tick boundaries: the broadcast, the safety link's service, the start of SAFE_OK, mode
switches, the changeover of a warm start, the main pipeline's start and the beginning of a tick
(spec/02_time_base.md R25 to R27, R51; spec/11_tick_plan.md R252 to R255, R264, R265;
spec/16_vehicle_link_and_safety.md R379, R380; spec/17_image_boot_and_firmware.md R410, R414, R415, R498).
-/

namespace Sys2Proof.Machine

open Sys2Proof

/-! ### The beginning of a tick -/

/-- What a producer of the tick before does to its PREV_TICK consumers as a tick begins (R240, R249). -/
def prevEdges (src : Source) (tick : Nat) (d : Dev) : Dev :=
  if tick = 0 || !d.samePlan src (tick - 1) tick then d
  else
    ((d.edgesAt src tick).filter (fun e => e.prevTick && decide ((d.win src (tick - 1) e.producer).phase = .missing))).foldl
      (fun d e => if e.propagate then miss .propagate src tick e.consumer d else zeroEdge src tick e d) d

/-- The record of tick k, which begins at `b`. -/
def Dev.newTick (d : Dev) (b : Nanos) (switched : Bool) : TickRec :=
  let p := d.plan
  let tr := d.time.transition.isSome
  { mode := p.modeInForce, dMinor := d.time.dMinor, start := b, valid := b + d.time.dNs, epoch := p.epoch, calGen := d.cal.active.gen,
    modeSwitched := switched, transition := tr, mainRuns := !p.startInterval && !p.mainStopped && !tr, missing := 0,
    missingFb := 0, egoMain := (.notRun, false), egoFb := (.notRun, false) }

/-- The keys of a bank from `lo` on. -/
def fromKey {α : Type} (lo : Nat) (b : Bank α) : Bank α := b.filter (fun e => decide (lo ≤ e.1))

/-- What concerns only ticks before those kept leaves the state. -/
def dropOldTicks (k : Nat) (d : Dev) : Dev :=
  let lo := k - keptTicks
  { d with
    plan := { d.plan with ticks := d.plan.ticks.filter (fun e => decide (lo ≤ e.1)),
                          windows := fromKey (winKey .main lo 0) d.plan.windows,
                          hostCharged := fromKey (winKey .main lo 0) d.plan.hostCharged },
    muslin := { d.muslin with contrib := fromKey (contribKey lo 0 .main) d.muslin.contrib },
    output := { d.output with assembling := d.output.assembling.filter (fun a => decide (lo ≤ a.tick)),
                              selected := d.output.selected.filter (fun s => decide (lo ≤ s.1)) } }

/-- Tick k begins at `b`: its record, the marks it starts with, and the ticks that leave. -/
def openTick (k : Nat) (b : Nanos) (switched : Bool) (d : Dev) : Dev :=
  let d := dropOldTicks k d
  let d := { d with plan := { d.plan with ticks := d.plan.ticks ++ [(k, d.newTick b switched)] } }
  [Source.main, Source.burlap].foldl (fun d src => missBlocked src k (prevEdges src k d)) d

/-! ### The mode in force (R252 to R255, R264, R498) -/

/-- L_NS of a mode, 0 where it has none. -/
def Dev.lOf (d : Dev) (j : Nat) : Nat := match d.modeRec j with | some m => m.lNs | none => 0

/-- A pending switch takes effect (R253, R254, R264). -/
def switchMode (q : PendingMode) (d : Dev) : Dev :=
  let p := d.plan
  let d := { d with plan := { p with
    modeInForce := q.target, mainStopped := false, stopDue := false, pending := none, epochMode := q.target,
    epochSwitch := (p.epochSwitch + 1) % 4096, lNs := d.lOf q.target, groupRun := [], groupTick := [] } }
  suspendSlots q.target (bump (barTsq + 0x124) p.modeSwitch 1 (fun c d => { d with plan := { d.plan with modeSwitch := c } }) d)

/-- The main pipeline stops, no available mode having been found (R255, R264). -/
def stopMain (d : Dev) : Dev :=
  let p := d.plan
  { d with plan := { p with mainStopped := true, stopDue := false, epochSwitch := (p.epochSwitch + 1) % 4096 } }

/-- The switch and the stop that fall on the boundary of tick k (R252 to R255): with whether a switch took effect. A
staged target whose copy is incomplete is cancelled. -/
def takeSwitch (k : Nat) (d : Dev) : Bool × Dev :=
  match d.plan.pending with
  | some q =>
    if k < q.effect then (false, if d.plan.stopDue then stopMain d else d)
    else if q.staged && !d.copied q then
      let d := cancelSwitch stAborted d
      (false, if d.plan.stopDue then stopMain d else d)
    else (true, switchMode q d)
  | none => (false, if d.plan.stopDue then stopMain d else d)

/-- Every die has been admitted or turned away, and the whole slot has verified: the main pipeline may start
(R410, R414 step 7). -/
def Dev.mainReady (d : Dev) : Bool :=
  decide (d.boot.phase = .verified) && d.plan.startInterval && !d.plan.mainStopped && d.time.transition.isNone &&
  !(List.range 6).any d.awaits

/-- The mode in which the main pipeline starts (R255, R414 step 7, R498). -/
def Dev.firstMode (d : Dev) : Option Nat :=
  let boot := d.firstFrom 16 d.image.plan.initialMode
  match d.boot.warm with
  | .reload _ j => if d.modeAvailable j then some j else boot
  | _ => boot

/-- A warm start has ended with the start of the new main pipeline (R414, R423). -/
def endWarm (d : Dev) : Dev :=
  match d.boot.warm with
  | .reload .. =>
    bump (barHkp + 0x14) d.boot.warmCount 1 (fun c d => { d with boot := { d.boot with warmCount := c } })
      { d with boot := { d.boot with warm := .none, warmStatus := 1, warmCause := 0 } }
  | _ => d

/-- The main pipeline starts, or no available mode is found (R255, R264, R498): with whether it started. -/
def startMain (d : Dev) : Bool × Dev :=
  if !d.mainReady then (false, d)
  else match d.firstMode with
    | none => (false, endWarm { d with plan := { d.plan with mainStopped := true } })
    | some j =>
      let d := match d.modeRec j with
        | some m => if m.staged then copyOverlay d.image m (fun _ => true) d else d
        | none => d
      let d := { d with plan := { d.plan with modeInForce := j, epochMode := j, startInterval := false, lNs := d.lOf j } }
      (true, suspendSlots j (endWarm d))

/-- B_0 of a cold start (R264, R498): the start interval begins under INITIAL_MODE. -/
def beginPlan (d : Dev) : Dev :=
  let j := d.image.plan.initialMode
  suspendSlots j { d with plan := { d.plan with
    epochLoad := 1, epochMode := j, epochSwitch := 0, modeInForce := j, startInterval := true } }

/-! ### The changeover of a warm start (R26, R27, R142, R414, R415) -/

/-- The start mode of a warm start (R498). -/
def warmMode (img : Image) (old : Nat) : Nat := if (assoc old img.plan.modes).isSome then old else img.plan.initialMode

/-- LOAD after one more image load (R264). -/
def nextLoad (l : Nat) : Nat := if (l + 1) % 65536 = 0 then 1 else (l + 1) % 65536

/-- A solve that has not ended when its problem is replaced ends at B_c as capped, its iterate kept (R307, R414 step 5). -/
def capRunning (d : Dev) (u : Nat) : Dev :=
  match (d.srgUnit u).slotRunning with
  | some g =>
    match assoc g d.boot.prevImage.serge.slots with
    | some s =>
      let d := bumpSlot g 0x10 (·.deadline) (fun c x => { x with deadline := c }) 1 (stopUnit g s d)
      modSlot g (fun x => { x with running := false, windowsUsed := 0, lastEnd := .capped, lastDeadline := true,
                                   lastEndTime := d.now }) d
    | none => d
  | none => d

/-- A Serge unit takes its slots of the new section 0x24 (R313, R414 step 5): with the section unchanged its EGO slot goes
on. -/
def reloadUnit (d : Dev) (u : Nat) : Dev :=
  let d := capRunning d u
  if d.boot.prevImage.serge = d.image.serge then
    (d.slotsOf u).foldl (fun d s => if s.2.cls = .ego then d else modSlot s.1 freshSlot d) d
  else loadUnit d u

/-- A lidar port whose record differs from that of the old image retrains (R415). -/
def changeLidar (old : Image) (d : Dev) (e : Nat × StreamEntry) : Dev :=
  if old.streams.entries.any (fun o => decide (o.2.port = e.2.port) && decide (o.2.src = e.2.src)) then d else enableLidar d e

/-- What the image and the firmware are from B_c on (R414, R415). -/
def changeBoot (k : Nat) (b : Nanos) (slot : Slot) (img : Image) (d : Dev) : Dev :=
  let o := d.boot
  let d := { d with boot := { o with
    image := img, prevImage := o.image, changeTick := k, bootSlot := slot, warm := .reload b d.plan.modeInForce,
    mainDelivered := false, stageErased := false, stageVerified := false, traceMask := img.traceMask,
    log := logKeep 0x10000 o.log } }
  let d := (List.range 10).foldl (fun d p => modProc p (fun f => { f with restarting := true, restartBegan := d.now }) d) d
  (List.range 6).foldl (fun d x => d.modDie x (fun s =>
    if s.state = .out then s else { s with reloaded := false, report := none })) d

/-- The plan from B_c on (R26, R264, R498). -/
def changePlan (b : Nanos) (d : Dev) : Dev :=
  let img := d.image
  let p := d.plan
  let j := warmMode img p.modeInForce
  let t := d.time
  let d := match assoc img.plan.initialMode img.plan.modes with
    | some m => d.setTime { t with transition := transitionMs t.pNs (imageP img) b, pMs := m.pMs, n := m.n, dMinor := m.dMinor }
    | none => d
  { d with plan := { p with
    epochLoad := nextLoad p.epochLoad, epochMode := j, epochSwitch := 0, modeInForce := j, startInterval := true,
    mainStopped := false, stopDue := false, pending := none, lNs := 0, groupRun := [], groupTick := [] } }

/-- Serge under the new image: at the end of the transition tick where there is one (R27, R313). -/
def changeSerge (d : Dev) : Dev :=
  suspendSlots d.plan.modeInForce ((List.range 4).foldl reloadUnit d)

/-- The changeover at B_c, the boundary of tick k (R414 steps 4 and 5, R415). -/
def changeover (k : Nat) (b : Nanos) (slot : Slot) (img : Image) (d : Dev) : Dev :=
  let old := d.image
  let d := changeBoot k b slot img (cancelSwitch stUnavailable d)
  let d := changePlan b d
  let d := loadBurlap { d with cal := warmCal b img.cal d.cal, host := { d.host with tracks := [] },
                               output := { d.output with newestGrid := [] } }
  let d := (List.range 132).foldl (fun d cl => d.setGolden cl { d.golden cl with seg := 0 }) d
  let d := (List.range 16).foldl (changeCamera old) d
  let d := img.streams.entries.foldl (changeLidar old) d
  refreshModes (if d.time.transition.isSome then d else changeSerge d)

/-! ### MAJOR_TICK_BOUNDARY (R25) -/

/-- The tick that begins next, where its boundary has come: its number and its B. -/
def Dev.majorDue (d : Dev) : Option (Nat × Nanos) :=
  let t := d.time
  if !t.running then none
  else if !t.begun then (if t.bk ≤ t.dev then some (0, t.bk) else none)
  else if decide (t.minors ≤ t.nextM) && decide (t.bk + t.tickNs ≤ t.dev) then some (t.k + 1, t.bk + t.tickNs)
  else none

/-- The host ports at a major tick boundary (R257, R265, R347, R358). -/
def hostBoundary (d : Dev) : Dev :=
  let d := [0, 1, 2, 3].foldl (fun d p => restoreBudgets (dropSubs (closeDue d p) p) p) (closeBatches d)
  { d with plan := { d.plan with hostUsedLast := BitVec.ofNat 32 d.plan.hostUsed, hostUsed := 0 } }

/-- The plan at the boundary `b` that begins tick k: the start interval's beginning, a changeover, a switch, a stop, or
the main pipeline's start. It answers whether the tick sets MODE_SWITCHED. -/
def planBoundary (k : Nat) (b : Nanos) (first : Bool) (d : Dev) : Bool × Dev :=
  if first then startMain (beginPlan d)
  else
    let d := if d.time.transition.isSome then changeSerge (d.setTime { d.time with transition := none }) else d
    match d.boot.warm with
    | .changeover slot img bc _ => if bc ≤ b then (false, changeover k b slot img d) else takeSwitch k d
    | _ => if d.plan.startInterval then startMain d else takeSwitch k d

/-- The dies' own k and epoch at a major tick boundary (R52, R53, R264): each counts for itself, and takes the epoch that was
announced. -/
def dieBoundary (d : Dev) (x : Nat) : Dev :=
  d.modDie x (fun s =>
    if s.state = .admitted && !s.resync then { s with localK := s.localK + 1, localEpoch := d.plan.epoch } else s)

/-- MAJOR_TICK_BOUNDARY (R25 to R27, R33, R71, R138, R253, R257, R347, R358, R387, R414, R428, R498): the next tick begins. -/
def majorTickBoundary (d : Dev) : Dev :=
  match d.majorDue with
  | none => d
  | some (k, b) =>
    let first := !d.time.begun
    let d := hostBoundary d
    let d := planBoundary k b first (d.setTime { d.time with k := k, bk := b, endM := d.time.m, m := 0, nextM := 0, begun := true })
    let switched := d.1
    let d := armAll k (stepStreams k (captureOffset (swapCal k d.2)))
    let d := rejoinBurlap (restoreClocks ((List.range 6).foldl rejoin d))
    let d := [Source.main, Source.burlap].foldl (stepEngine k) d
    let d := openTick k b switched ((List.range 6).foldl dieBoundary d)
    dropLostQueries k (countResume d)

/-! ### MINOR_TICK_BOUNDARY (R51) -/

/-- Felt's start-up checks have passed (R410): the whole slot has verified, and the first golden visits of Burlap's clusters
have passed or not yet been scheduled. -/
def Dev.checksPassed (d : Dev) : Bool :=
  decide (d.boot.phase = .verified) && !d.felt.selfCheckDue &&
  [128, 129, 130, 131].all (fun c => (d.golden c).passed || !(d.golden c).scheduled)

/-- HKP_BOOT_STATUS (R423). -/
def Dev.bootStatus (d : Dev) : Nat :=
  let b := d.boot
  b.bootSlot.idx + 2 * bit b.slotFallback + 2 ^ 2 * bit b.noImage + 2 ^ 4 * b.failA.toNat + 2 ^ 8 * b.failB.toNat
    + 2 ^ 12 * b.nv.lifecycle.code + 2 ^ 16 * b.nv.rollbackCount

/-- SAFE_OK_START (R380): with it, health is established, and a SLOT_FALLBACK raises its health event (R408). -/
def startSafeOk (d : Dev) : Dev :=
  let f := d.felt
  if f.safeOk ≠ .notStarted || !d.checksPassed || !f.burlapValid || f.classV then d
  else
    let ms := BitVec.ofNat 16 (satTo 0xFFFF (d.now / msNs))
    let d := { d with felt := runSafeOk f, boot := { d.boot with tSafeOkMs := ms } }
    if d.boot.fallbackEvent then
      conditionEvent barHkp d.bootStatus { d with boot := { d.boot with fallbackEvent := false } }
    else d

/-- Felt at a minor tick boundary (R371, R379): the boundary counts, and the pins change while SAFE_OK runs. -/
def feltBoundary (d : Dev) : Dev :=
  let f := { d.felt with boundaries := d.felt.boundaries + 1, noticedH := [] }
  { d with felt := if f.safeOk = .running then runPins f else f }

/-- The tick broadcast of a boundary (R51), to every die. -/
def sendBroadcast (b : Nanos) (d : Dev) : Dev :=
  let t := d.time
  let x : Broadcast := { k := t.k, m := t.m, epoch := d.plan.epoch, time := b, freq := t.freqNext, minorUs := t.minorNs / usNs }
  (List.range 6).foldl (fun d n => d.modDie n (fun s => { s with broadcast := some x }))
    (emit (.broadcast x.k x.m x.epoch b x.freq x.minorUs) d)

/-- One announcement to the release engines and stewards (R252, R418). -/
def announceTo (target : Nat) (b : Nanos) (tr : Option Nat) (d : Dev) : Dev :=
  (List.range 6).foldl (fun d x => fwEvent (4 + x) d) (emit (.announce target b tr) d)

/-- MODE_SWITCH_ANNOUNCE (R252, R264, R414): one minor tick before the boundary `b` that begins tick k, what takes effect there
is announced. -/
def announce (k : Nat) (b : Nanos) (d : Dev) : Dev :=
  match d.boot.warm with
  | .changeover slot img bc said =>
    if said || b < bc then d
    else
      announceTo (warmMode img d.plan.modeInForce) b (transitionMs d.time.pNs (imageP img) b)
        { d with boot := { d.boot with warm := .changeover slot img bc true } }
  | _ =>
    match d.plan.pending with
    | some q =>
      if q.announced || k < q.effect then d
      else announceTo q.target b none { d with plan := { d.plan with pending := some { q with announced := true } } }
    | none =>
      match d.mainReady, d.firstMode with
      | true, some j => if j = d.plan.epochMode then d else announceTo j b none d
      | _, _ => d

/-- How the EGO solves of a tick's validity instant ended (R319). -/
def noteEgoEnds (b : Nanos) (d : Dev) : Dev :=
  let m := d.egoEntry .main b
  let f := d.egoEntry .burlap b
  { d with plan := { d.plan with ticks := d.plan.ticks.map (fun e =>
      if e.2.valid = b && !e.2.transition then (e.1, { e.2 with egoMain := (m.status, m.reg), egoFb := (f.status, f.reg) })
      else e) } }

/-- EGO_STATE_SEND (R382): the Ego State of boundary b, in minor tick (k, m), goes out one minor tick after it. -/
def sendEgo (k m : Nat) (b out : Nanos) (d : Dev) : Dev :=
  let x := selectEgo b d
  match egoOutput x.1 k m b out (x.2.compareEgo b) x.2 with
  | some o => sendEverywhere o.1 egoBound o.2
  | none => x.2

/-- What happens at boundary `out`, one minor tick after boundary `b` of minor tick (k, m) (R65, R66, R312, R382, R393). -/
def egoBoundary (k m : Nat) (b out : Nanos) (d : Dev) : Dev :=
  let d := crossCheck b (noteEgoEnds b ([Source.main, Source.burlap].foldl (enterHistory b) d))
  stepEgoInputs b k (sendEgo k m b out d)

/-- Health Summary goes out at the first boundary at or after each whole second (R367, R372). -/
def summaryDue (d : Dev) : Dev := if d.felt.lastSummary < d.now / secNs then sendSummary d else d

/-- Every window of a tick has ended. -/
def Dev.tickOver (d : Dev) (tick : Nat) : Bool :=
  [Source.main, Source.burlap].all (fun src => (d.windowsAt src tick).all (fun w =>
    match (d.win src tick w.1).phase with | .ended | .missing => true | _ => false))

/-- MISSING_LAST (R265): of the last tick whose windows have all ended. -/
def noteMissingLast (d : Dev) : Dev :=
  match d.plan.ticks.reverse.find? (fun e => d.tickOver e.1) with
  | some e => { d with plan := { d.plan with missingLast := BitVec.ofNat 16 (satTo 0xFFFF (e.2.missing + e.2.missingFb)) } }
  | none => d

/-- The minor tick before the one that begins: its boundary and its (k, m). -/
def Dev.minorBefore (d : Dev) : Option (Nanos × Nat × Nat) :=
  let t := d.time
  t.lastB.map (fun p => (p, (if t.nextM = 0 then t.k - 1 else t.k), (if t.nextM = 0 then t.endM else t.m)))

/-- The link traffic and the records of a boundary, once the time base has moved on. -/
def minorService (prev : Option (Nanos × Nat × Nat)) (b : Nanos) (d : Dev) : Dev :=
  let t := d.time
  let d := if t.nextM = t.minors then announce (t.k + 1) (t.bk + t.tickNs) d else d
  let d := sendStatus (sendBroadcast b (startSafeOk (feltBoundary d)))
  let d := match prev with | some p => egoBoundary p.2.1 p.2.2 p.1 b d | none => d
  noteMissingLast (settlePassed (closeBatches (moveTrace (summaryDue d))))

/-- MINOR_TICK_BOUNDARY (R30, R51, R54, R66, R252, R358, R370, R372, R379, R380, R382, R393): the next minor tick begins;
`interval` is what Felt's timer has measured of the last, in ns. -/
def minorTickBoundary (interval : Nat) (d : Dev) : Dev :=
  let t := d.time
  let b := t.nextBoundary
  if !t.running || !t.begun || decide (t.minors ≤ t.nextM) || decide (t.dev < b) then d
  else
    let prev := d.minorBefore
    let d := stepFrequency d
    let d := match prev with | some p => checkInterval interval (b - p.1) d | none => d
    minorService prev b (d.setTime { d.time with m := t.nextM, nextM := t.nextM + 1, lastB := some b })

/-! ### Reads that latch -/

/-- TSQ_PENDING_K_LO_READ (R265): the high word of the first tick of the pending mode is latched. -/
def tsqPendingKLoRead (d : Dev) : Dev :=
  if d.barOpen then
    let k := match d.plan.pending with | some q => q.effect | none => 0
    { d with plan := { d.plan with pendingKHiLatch := BitVec.ofNat 32 (k / 2 ^ 32) } }
  else d

/-! ### The block without a command -/

/-- One cycle of the time clock with no command waiting: time advances, and the outputs whose seal instant has passed take
their records (R22, R64). -/
def idleCycle (d : Dev) : Dev := sealDue (clockCycle d)

end Sys2Proof.Machine
end

