-- ==== Sys2Proof/Machine/State.lean ====
section
/-!
DEFINITION. The machine's state with its queue of commands, the reasons a step can stop, and the state after reset.
-/

namespace Sys2Proof.Machine

open Sys2Proof

/-- The machine: the device and the commands that wait, first in, first out. -/
structure State where
  dev : Dev := {}
  pending : List Instr := []
  deriving DecidableEq, Repr

/-- Why a command stops with a fault. -/
inductive Fault where
  /-- A core's load or store at an address that is neither its local SRAM nor its cluster's SRAM (R196, R203): raised
  by LDV, STVM, MMA, RADD and DMAQ. Safe: the spec gives such an access no effect. -/
  | coreAddress
  deriving DecidableEq, Repr

/-- Why a command is refused. -/
inductive Refusal where
  /-- An arm of exec that has no meaning yet. Safe. -/
  | notModelled (mnemonic : String)
  deriving DecidableEq, Repr

/-- The machine right after reset: PORST_N released, device time 0, nothing read from the boot NVM. -/
def State.reset : State := { dev := {}, pending := [] }

end Sys2Proof.Machine
end

