-- ==== Sys2Proof/Machine/Meanings.lean ====
section
/-!
DEFINITION. The meaning of each command: one definition for each row of spec/opcode_table.json, in its order, over the
effect of that row's step on the device. The queue of waiting commands stays as it is.
-/

namespace Sys2Proof.Machine

open Sys2Proof

/-- What a command answers. -/
abbrev Outcome : Type := Host.Outcome State Fault Refusal

/-- A command with an effect on the device. -/
def act (f : Dev → Dev) (s : State) : Outcome := .next { s with dev := f s.dev }

/-- A command of a core whose operands may name an address that the core cannot reach. -/
def attempt (f : Dev → Option Dev) (s : State) : Outcome :=
  match f s.dev with
  | some d => .next { s with dev := d }
  | none => .fault .coreAddress

/-- MINOR_TICK_BOUNDARY (R51). -/
def execMinorTickBoundary (interval : Nat) (s : State) : Outcome := act (minorTickBoundary interval) s

/-- MAJOR_TICK_BOUNDARY (R25). -/
def execMajorTickBoundary (s : State) : Outcome := act majorTickBoundary s

/-- TICK_BROADCAST_ARRIVAL (R52). -/
def execTickBroadcastArrival (die : Fin 6) (s : State) : Outcome := act (tickBroadcastArrival die) s

/-- WINDOW_RELEASE (R247). -/
def execWindowRelease (src : Source) (tick w : Nat) (s : State) : Outcome := act (windowRelease src tick w) s

/-- HELD_WINDOW_RELEASE (R247). -/
def execHeldWindowRelease (src : Source) (tick w : Nat) (s : State) : Outcome := act (heldWindowRelease src tick w) s

/-- LAYER_WATCHDOG_EXPIRY (R248). -/
def execLayerWatchdogExpiry (src : Source) (tick w : Nat) (s : State) : Outcome :=
  act (layerWatchdogExpiry src tick w) s

/-- TWEED_STEP_TIMER_EXPIRY (R168). -/
def execTweedStepTimerExpiry (src : Source) (tick w : Nat) (s : State) : Outcome :=
  act (tweedStepTimerExpiry src tick w) s

/-- CHAMBRAY_TIMER_EXPIRY (R188). -/
def execChambrayTimerExpiry (tick w : Nat) (s : State) : Outcome := act (chambrayTimerExpiry tick w) s

/-- ASSEMBLY_TIMER_EXPIRY (R248). -/
def execAssemblyTimerExpiry (src : Source) (tick w : Nat) (s : State) : Outcome :=
  act (assemblyTimerExpiry src tick w) s

/-- ASSEMBLY_COMPLETE (R382). -/
def execAssemblyComplete (src : Source) (tick w : Nat) (contents : List Delivered) (s : State) : Outcome :=
  act (assemblyComplete src tick w contents) s

/-- STAGING_WINDOW_END (R248). -/
def execStagingWindowEnd (tick w bytes : Nat) (s : State) : Outcome := act (stagingWindowEnd tick w bytes) s

/-- TRANSMIT_WINDOW (R261). -/
def execTransmitWindow (tick w : Nat) (s : State) : Outcome := act (transmitWindow tick w) s

/-- VLINK_FRAME_DONE (R368). -/
def execVlinkFrameDone (port : Fin 2) (s : State) : Outcome := act (vlinkFrameDone port) s

/-- HOST_WINDOW_END (R357). -/
def execHostWindowEnd (tick w : Nat) (s : State) : Outcome := act (hostWindowEnd tick w) s

/-- GATE_CLOSE (R72). -/
def execGateClose (stream : Fin 48) (s : State) : Outcome := act (gateClose stream) s

/-- SLICE_TIMER_EXPIRY (R145). -/
def execSliceTimerExpiry (src : Source) (stream : Fin 48) (s : State) : Outcome :=
  act (sliceTimerExpiry src stream) s

/-- DEFERRED_INSERTION (R148). -/
def execDeferredInsertion (src : Source) (s : State) : Outcome := act (deferredInsertion src) s

/-- TWEED_TABLE_RELEASE (R166). -/
def execTweedTableRelease (src : Source) (s : State) : Outcome := act (tweedTableRelease src) s

/-- SYNC_FOLLOW_UP_RECEIVED (R495). -/
def execSyncFollowUpReceived (pair : SyncPair) (s : State) : Outcome := act (syncFollowUpReceived pair) s

/-- ANNOUNCE_RECEIVED (R28). -/
def execAnnounceReceived (grandmaster : Nat) (s : State) : Outcome := act (announceReceived grandmaster) s

/-- VEHICLE_TIME_LOSS (R32). -/
def execVehicleTimeLoss (s : State) : Outcome := act vehicleTimeLoss s

/-- PDELAY_REQ_TIMER (R36). -/
def execPdelayReqTimer (port : GptpPort) (s : State) : Outcome := act (pdelayReqTimer port) s

/-- PDELAY_REQ_RECEIVED (R28). -/
def execPdelayReqReceived (port : GptpPort) (s : State) : Outcome := act (pdelayReqReceived port) s

/-- PDELAY_RESP_RECEIVED (R36). -/
def execPdelayRespReceived (port : GptpPort) (linkDelay : Nat) (asCapable : Bool) (s : State) : Outcome :=
  act (pdelayRespReceived port linkDelay asCapable) s

/-- V1_GPTP_FRAME (R29). -/
def execV1GptpFrame (s : State) : Outcome := act v1GptpFrame s

/-- LIDAR_SYNC_SEND (R36). -/
def execLidarSyncSend (n : Fin 8) (s : State) : Outcome := act (lidarSyncSend n) s

/-- LIDAR_ANNOUNCE_SEND (R36). -/
def execLidarAnnounceSend (n : Fin 8) (s : State) : Outcome := act (lidarAnnounceSend n) s

/-- LIDAR_GPTP_RECEIVED (R36). -/
def execLidarGptpReceived (n : Fin 8) (kind : GptpKind) (s : State) : Outcome := act (lidarGptpReceived n kind) s

/-- LIDAR_FRAME_RECEIVED (R107). -/
def execLidarFrameReceived (n : Fin 8) (frame : LidarFrame) (s : State) : Outcome :=
  act (lidarFrameReceived n frame) s

/-- LIDAR_LINK_DOWN (R105). -/
def execLidarLinkDown (n : Fin 8) (s : State) : Outcome := act (lidarLinkDown n) s

/-- LIDAR_LINK_UP (R105). -/
def execLidarLinkUp (n : Fin 8) (s : State) : Outcome := act (lidarLinkUp n) s

/-- TRIGGER_SEND (R92). -/
def execTriggerSend (port : Fin 16) (s : State) : Outcome := act (triggerSend port) s

/-- CSI2_PACKET_RECEIVED (R83). -/
def execCsi2PacketReceived (port : Fin 16) (pkt : CsiPacket) (s : State) : Outcome :=
  act (csi2PacketReceived port pkt) s

/-- LINK_LOCK_LOSS (R85). -/
def execLinkLockLoss (port : Fin 16) (s : State) : Outcome := act (linkLockLoss port) s

/-- RETRAIN_INTERVAL_EXPIRY (R84). -/
def execRetrainIntervalExpiry (port : Fin 16) (s : State) : Outcome := act (retrainIntervalExpiry port) s

/-- TRAINING_SUCCESS (R84). -/
def execTrainingSuccess (port : Fin 16) (s : State) : Outcome := act (trainingSuccess port) s

/-- TRAINING_TIMEOUT (R84). -/
def execTrainingTimeout (port : Fin 16) (s : State) : Outcome := act (trainingTimeout port) s

/-- CCI_ACK (R86). -/
def execCciAck (port : Fin 16) (data : Nat) (s : State) : Outcome := act (cciAck port data) s

/-- CCI_TIMEOUT (R90). -/
def execCciTimeout (port : Fin 16) (s : State) : Outcome := act (cciTimeout port) s

/-- STATISTICS_COMPLETE (R97). -/
def execStatisticsComplete (port : Fin 16) (s : State) : Outcome := act (statisticsComplete port) s

/-- PERCALE_BAND_DONE (R95). -/
def execPercaleBandDone (port : Fin 16) (band : Nat) (dests : List (Nat × Nat)) (s : State) : Outcome :=
  act (percaleBandDone port band dests) s

/-- IMU_SYNC_PULSE (R44). -/
def execImuSyncPulse (n : Fin 4) (s : State) : Outcome := act (imuSyncPulse n) s

/-- IMU_DRDY_EDGE (R117). -/
def execImuDrdyEdge (n : Fin 4) (s : State) : Outcome := act (imuDrdyEdge n) s

/-- IMU_TRANSACTION_DONE (R118). -/
def execImuTransactionDone (n : Fin 4) (payload : List Byte) (s : State) : Outcome :=
  act (imuTransactionDone n payload) s

/-- IMU_MISSED_SAMPLE (R45). -/
def execImuMissedSample (n : Fin 4) (s : State) : Outcome := act (imuMissedSample n) s

/-- CAN_FRAME_RECEIVED (R121). -/
def execCanFrameReceived (n : Fin 4) (frame : CanFrame) (s : State) : Outcome := act (canFrameReceived n frame) s

/-- GNSS_SENTENCE_RECEIVED (R123). -/
def execGnssSentenceReceived (sentence : Sentence) (s : State) : Outcome := act (gnssSentenceReceived sentence) s

/-- GNSS_PPS_EDGE (R47). -/
def execGnssPpsEdge (s : State) : Outcome := act gnssPpsEdge s

/-- PPS_MISSING_TIMEOUT (R48). -/
def execPpsMissingTimeout (s : State) : Outcome := act ppsMissingTimeout s

/-- GNSS_PAIR_TIMEOUT (R124). -/
def execGnssPairTimeout (s : State) : Outcome := act gnssPairTimeout s

/-- ABSENCE_TIMEOUT (R71). -/
def execAbsenceTimeout (stream : Fin 48) (s : State) : Outcome := act (absenceTimeout stream) s

/-- WSTART (R200). -/
def execWstart (cl : Fin 132) (co : Fin 64) (imm : Word) (s : State) : Outcome := act (wstart cl co imm) s

/-- END (R200). -/
def execEndOp (cl : Fin 132) (co : Fin 64) (s : State) : Outcome := act (endOp cl co) s

/-- WTALLY (R200). -/
def execWtally (cl : Fin 132) (co : Fin 64) (t : Fin 256) (imm : Word) (s : State) : Outcome :=
  act (wtally cl co t imm) s

/-- SIGNAL (R206). -/
def execSignalOp (cl : Fin 132) (co : Fin 64) (x : Fin 16) (s : State) : Outcome := act (signalOp cl co x) s

/-- LOOP (R200). -/
def execLoopOp (cl : Fin 132) (co : Fin 64) (l : Fin 4) (imm : Word) (s : State) : Outcome :=
  act (loopOp cl co l imm) s

/-- LOOPX (R200). -/
def execLoopx (cl : Fin 132) (co : Fin 64) (l : Fin 4) (a : Fin 16) (imm : Word) (s : State) : Outcome :=
  act (loopx cl co l a imm) s

/-- ENDL (R200). -/
def execEndl (cl : Fin 132) (co : Fin 64) (l : Fin 4) (s : State) : Outcome := act (endl cl co l) s

/-- MOVI (R200). -/
def execMovi (cl : Fin 132) (co : Fin 64) (x : Fin 16) (imm : Word) (s : State) : Outcome := act (movi cl co x imm) s

/-- ADDI (R200). -/
def execAddi (cl : Fin 132) (co : Fin 64) (x a : Fin 16) (imm : Word) (s : State) : Outcome :=
  act (addi cl co x a imm) s

/-- LDV (R196). -/
def execLdv (cl : Fin 132) (co : Fin 64) (v : Fin 32) (a : Fin 16) (imm : Word) (ecc : Ecc) (s : State) : Outcome :=
  attempt (ldv cl co v a imm ecc) s

/-- STVM (R200). -/
def execStvm (cl : Fin 132) (co : Fin 64) (v : Fin 32) (a m : Fin 16) (s : State) : Outcome :=
  attempt (stvm cl co v a m) s

/-- MMA (R213). -/
def execMma (cl : Fin 132) (co : Fin 64) (acc : Fin 8) (xa xb xk : Fin 16) (fmt : BitVec 6) (subA subB : Bool) (ecc
    : Ecc) (s : State) : Outcome := attempt (mma cl co acc xa xb xk fmt subA subB ecc) s

/-- ACCZ (R200). -/
def execAccz (cl : Fin 132) (co : Fin 64) (a : Fin 8) (fp : Bool) (s : State) : Outcome := act (accz cl co a fp) s

/-- ACCRD (R200). -/
def execAccrd (cl : Fin 132) (co : Fin 64) (v : Fin 32) (a col : Fin 8) (s : State) : Outcome :=
  act (accrd cl co v a col) s

/-- ACCWR (R200). -/
def execAccwr (cl : Fin 132) (co : Fin 64) (a : Fin 8) (v : Fin 32) (col : Fin 8) (s : State) : Outcome :=
  act (accwr cl co a v col) s

/-- ACCSCL (R199). -/
def execAccscl (cl : Fin 132) (co : Fin 64) (a : Fin 8) (v : Fin 32) (s : State) : Outcome :=
  act (accscl cl co a v) s

/-- VOP (R217). -/
def execVop (cl : Fin 132) (co : Fin 64) (op : VOp) (int : Bool) (vd va vb vc : Fin 32) (s : State) : Outcome :=
  act (vop cl co op int vd va vb vc) s

/-- VCVT (R215). -/
def execVcvt (cl : Fin 132) (co : Fin 64) (vd va : Fin 32) (int : Bool) (f : Format) (sat : Bool) (shift : BitVec 8)
    (s : State) : Outcome := act (vcvt cl co vd va int f sat shift) s

/-- VRED (R198). -/
def execVred (cl : Fin 132) (co : Fin 64) (vd va : Fin 32) (max : Bool) (s : State) : Outcome :=
  act (vred cl co vd va max) s

/-- VFN (R198). -/
def execVfn (cl : Fin 132) (co : Fin 64) (vd va : Fin 32) (f : VFn) (s : State) : Outcome :=
  act (vfn cl co vd va f) s

/-- SMAX (R199). -/
def execSmax (cl : Fin 132) (co : Fin 64) (vd vs : Fin 32) (n : Nat) (s : State) : Outcome :=
  act (smax cl co vd vs n) s

/-- SEXP (R199). -/
def execSexp (cl : Fin 132) (co : Fin 64) (vs vm vl : Fin 32) (n : Nat) (s : State) : Outcome :=
  act (sexp cl co vs vm vl n) s

/-- SRSC (R199). -/
def execSrsc (cl : Fin 132) (co : Fin 64) (va vm vd vl : Fin 32) (s : State) : Outcome :=
  act (srsc cl co va vm vd vl) s

/-- SMRG (R199). -/
def execSmrg (cl : Fin 132) (co : Fin 64) (vd vs : Fin 32) (s : State) : Outcome := act (smrg cl co vd vs) s

/-- DMAQ (R200). -/
def execDmaq (cl : Fin 132) (co : Fin 64) (x : Fin 16) (s : State) : Outcome := attempt (dmaq cl co x) s

/-- DMAW (R200). -/
def execDmaw (cl : Fin 132) (co : Fin 64) (imm : Word) (s : State) : Outcome := act (dmaw cl co imm) s

/-- RADD (R204). -/
def execRadd (cl : Fin 132) (co : Fin 64) (x : Fin 16) (v : Fin 32) (m : AddLanes) (s : State) : Outcome :=
  attempt (radd cl co x v m.mask m.ecc) s

/-- SETC (R200). -/
def execSetc (cl : Fin 132) (co : Fin 64) (imm : Word) (s : State) : Outcome := act (setc cl co imm) s

/-- RDNSW (R218). -/
def execRdnsw (cl : Fin 132) (co : Fin 64) (x : Fin 16) (s : State) : Outcome := act (rdnsw cl co x) s

/-- UNDEFINED_OPCODE (R200). -/
def execUndefinedOpcode (cl : Fin 132) (co : Fin 64) (s : State) : Outcome := act (undefinedOpcode cl co) s

/-- TRANSFER_START (R235). -/
def execTransferStart (cl : DescRead) (s : State) : Outcome := act (transferStart cl.cluster cl.ecc) s

/-- TRANSFER_COMPLETE (R235). -/
def execTransferComplete (cl : Fin 132) (n : Nat) (ecc : List Ecc) (s : State) : Outcome :=
  act (transferComplete cl n ecc) s

/-- TRANSFER_TIMEOUT (R235). -/
def execTransferTimeout (cl : Fin 132) (n : Nat) (s : State) : Outcome := act (transferTimeout cl n) s

/-- SCRUB_ACCESS (R207). -/
def execScrubAccess (cl : Fin 132) (bank : Fin 288) (ecc : Ecc) (s : State) : Outcome :=
  act (scrubAccess cl bank ecc) s

/-- BURLAP_CLUSTER_RELOAD_DONE (R207). -/
def execBurlapClusterReloadDone (cl : Fin 4) (s : State) : Outcome := act (burlapClusterReloadDone cl) s

/-- LINK_TRANSACTION_TIMEOUT (R426). -/
def execLinkTransactionTimeout (die : Fin 6) (part : Nat) (ofRetry : Bool) (tick w : Nat) (s : State) : Outcome :=
  act (linkTransactionTimeout die part ofRetry tick w) s

/-- FLIT_CRC_ERROR (R211). -/
def execFlitCrcError (s : State) : Outcome := act flitCrcError s

/-- CREATE (R278). -/
def execCreate (half : Fin 2) (cmd : DmkCmd) (s : State) : Outcome := act (create half cmd) s

/-- OPEN_VIEW (R274). -/
def execOpenView (half : Fin 2) (cmd : DmkCmd) (s : State) : Outcome := act (openView half cmd) s

/-- APPEND (R276). -/
def execAppendTok (half : Fin 2) (cmd : DmkCmd) (s : State) : Outcome := act (appendTok half cmd) s

/-- FORK (R277). -/
def execForkSeq (half : Fin 2) (cmd : DmkCmd) (s : State) : Outcome := act (forkSeq half cmd) s

/-- FREE (R278). -/
def execFreeSeq (half : Fin 2) (cmd : DmkCmd) (s : State) : Outcome := act (freeSeq half cmd) s

/-- RESTORE (R283). -/
def execRestore (half : Fin 2) (cmd : DmkCmd) (s : State) : Outcome := act (restore half cmd) s

/-- OPEN_QUEUE (R283). -/
def execOpenQueue (half : Fin 2) (cmd : DmkCmd) (s : State) : Outcome := act (openQueue half cmd) s

/-- DAMASK_RESERVED_OP (R272). -/
def execDamaskReservedOp (half : Fin 2) (cmd : DmkCmd) (s : State) : Outcome := act (damaskReservedOp half cmd) s

/-- EPOCH_CLOSE (R275). -/
def execEpochClose (s : State) : Outcome := act epochClose s

/-- SOLVE_END (R303). -/
def execSolveEnd (unit : Fin 4) (run : SolveRun) (s : State) : Outcome := act (solveEnd unit run) s

/-- SERGE_DEADLINE (R307). -/
def execSergeDeadline (unit : Fin 4) (run : Option SolveRun) (s : State) : Outcome := act (sergeDeadline unit run) s

/-- SERGE_STOP_TIMEOUT (R320). -/
def execSergeStopTimeout (unit : Fin 4) (s : State) : Outcome := act (sergeStopTimeout unit) s

/-- SERGE_UNIT_RESET_DONE (R320). -/
def execSergeUnitResetDone (unit : Fin 4) (s : State) : Outcome := act (sergeUnitResetDone unit) s

/-- GOLDEN_SEGMENT_END (R391). -/
def execGoldenSegmentEnd (cl : Fin 132) (sigs : List (BitVec 64)) (roShift : BitVec 16) (s : State) : Outcome :=
  act (goldenSegmentEnd cl sigs roShift) s

/-- GOLDEN_BUDGET_TIMER (R391). -/
def execGoldenBudgetTimer (tick w : Nat) (s : State) : Outcome := act (goldenBudgetTimer tick w) s

/-- RESUME_COUNT_EXPIRY (R387). -/
def execResumeCountExpiry (s : State) : Outcome := act resumeCountExpiry s

/-- SELF_CHECK_PASS (R387). -/
def execSelfCheckPass (s : State) : Outcome := act selfCheckPass s

/-- LOCKSTEP_MISMATCH (R381). -/
def execLockstepMismatch (s : State) : Outcome := act lockstepMismatch s

/-- REFCLK_LOSS (R54). -/
def execRefclkLoss (s : State) : Outcome := act refclkLoss s

/-- FABRIC_ERROR (R386). -/
def execFabricError (s : State) : Outcome := act fabricError s

/-- FW_WATCHDOG_EXPIRY (R418). -/
def execFwWatchdogExpiry (p : FwProc) (s : State) : Outcome := act (fwWatchdogExpiry p) s

/-- RELOAD_DONE (R428). -/
def execReloadDone (die : Fin 6) (part : Nat) (ok : Bool) (s : State) : Outcome := act (reloadDone die part ok) s

/-- RESTART_TIMEOUT (R433). -/
def execRestartTimeout (die : Fin 6) (part : Nat) (s : State) : Outcome := act (restartTimeout die part) s

/-- DIE_ADMISSION_REPORT (R434). -/
def execDieAdmissionReport (die : Fin 6) (digestsOk versionOk epochOk : Bool) (fit : DieFit) (s : State) :
    Outcome :=
  act (dieAdmissionReport die digestsOk versionOk epochOk fit.latency fit.memory) s

/-- ADMISSION_DEADLINE (R411). -/
def execAdmissionDeadline (die : Fin 6) (s : State) : Outcome := act (admissionDeadline die) s

/-- HEALTH_DEADLINE (R411). -/
def execHealthDeadline (s : State) : Outcome := act healthDeadline s

/-- POWER_ON_RESET (R481). -/
def execPowerOnReset (strapNvProfile strapTest0 strapTest1 : Bool) (vddOut : List (Fin 4)) (s : State) : Outcome :=
  act (powerOnReset strapNvProfile strapTest0 strapTest1 vddOut) s

/-- DEVICE_RESET (R481). -/
def execDeviceReset (s : State) : Outcome := act deviceReset s

/-- SECTION_VERIFIED (R405). -/
def execSectionVerified (id : BitVec 8) (bytes : List Byte) (digest : Nat) (s : State) : Outcome :=
  act (sectionVerified id bytes digest) s

/-- PHASE0_LOADED (R410). -/
def execPhase0Loaded (check : SlotCrypto) (img : SlotBytes) (s : State) : Outcome :=
  act (phase0Loaded { toSlotCrypto := check, toSlotBytes := img }) s

/-- SLOT_VERIFIED (R410). -/
def execSlotVerified (bad : Option (BitVec 8)) (s : State) : Outcome := act (slotVerified bad) s

/-- IMAGE_BLOCK_TIMEOUT (R409). -/
def execImageBlockTimeout (s : State) : Outcome := act imageBlockTimeout s

/-- WARM_READ_DONE (R414). -/
def execWarmReadDone (check : SlotCrypto) (img : SlotBytes) (s : State) : Outcome :=
  act (warmReadDone { toSlotCrypto := check, toSlotBytes := img }) s

/-- DIE_RELOAD (R414). -/
def execDieReload (die : Fin 6) (s : State) : Outcome := act (dieReload die) s

/-- SESSION_OPEN (R347). -/
def execSessionOpen (port : Fin 4) (s : State) : Outcome := act (sessionOpen port) s

/-- SESSION_CLOSE (R347). -/
def execSessionClose (port : Fin 4) (s : State) : Outcome := act (sessionClose port) s

/-- ATTEST_REPORT_DONE (R422). -/
def execAttestReportDone (port : Fin 4) (s : State) : Outcome := act (attestReportDone port) s

/-- ATTEST_TIMEOUT (R347). -/
def execAttestTimeout (port : Fin 4) (s : State) : Outcome := act (attestTimeout port) s

/-- HST_HEARTBEAT (R348). -/
def execHstHeartbeat (port : Fin 4) (value : BitVec 32) (s : State) : Outcome := act (hstHeartbeat port value) s

/-- HB_WARN (R346). -/
def execHbWarn (port : Fin 4) (s : State) : Outcome := act (hbWarn port) s

/-- HEARTBEAT_TIMEOUT (R348). -/
def execHeartbeatTimeout (port : Fin 4) (s : State) : Outcome := act (heartbeatTimeout port) s

/-- HST_SQ_TAIL (R352). -/
def execHstSqTail (port : Fin 4) (value : BitVec 32) (s : State) : Outcome := act (hstSqTail port value) s

/-- HST_CQ_HEAD (R352). -/
def execHstCqHead (port : Fin 4) (value : BitVec 32) (s : State) : Outcome := act (hstCqHead port value) s

/-- HST_SR_CONS (R351). -/
def execHstSrCons (port : Fin 4) (ring : Fin 16) (value : BitVec 32) (s : State) : Outcome :=
  act (hstSrCons port ring value) s

/-- HST_INT_STATUS (R346). -/
def execHstIntStatus (port : Fin 4) (value : BitVec 32) (s : State) : Outcome := act (hstIntStatus port value) s

/-- REGISTER_WRITE (R345). -/
def execRegisterWrite (port : Fin 4) (offset value : BitVec 32) (s : State) : Outcome :=
  act (registerWrite port offset value) s

/-- PCIE_LINK_EVENT (R347). -/
def execPcieLinkEvent (port : Fin 4) (event : PcieEvent) (s : State) : Outcome := act (pcieLinkEvent port event) s

/-- DMA_READ_FAULT (R343). -/
def execDmaReadFault (port : Fin 4) (s : State) : Outcome := act (dmaReadFault port) s

/-- SUBMISSION_FETCH (R352). -/
def execSubmissionFetch (port : Fin 4) (sub : Submission) (s : State) : Outcome := act (submissionFetch port sub) s

/-- RUN_MODEL (R354). -/
def execRunModel (port : Fin 4) (data : List Byte) (s : State) : Outcome := act (runModel port data) s

/-- READ_GRID (R354). -/
def execReadGrid (port : Fin 4) (s : State) : Outcome := act (readGrid port) s

/-- READ_TRACK (R354). -/
def execReadTrack (port : Fin 4) (s : State) : Outcome := act (readTrack port) s

/-- HOST_FORK (R288). -/
def execHostFork (port : Fin 4) (s : State) : Outcome := act (hostFork port) s

/-- FREE_FORK (R354). -/
def execFreeFork (port : Fin 4) (s : State) : Outcome := act (freeFork port) s

/-- SUBSCRIBE (R358). -/
def execSubscribe (port : Fin 4) (s : State) : Outcome := act (subscribe port) s

/-- UNSUBSCRIBE (R358). -/
def execUnsubscribe (port : Fin 4) (s : State) : Outcome := act (unsubscribe port) s

/-- ATTEST (R354). -/
def execAttest (port : Fin 4) (s : State) : Outcome := act (attest port) s

/-- PRIV_CLAIM (R359). -/
def execPrivClaim (port : Fin 4) (s : State) : Outcome := act (privClaim port) s

/-- PRIV_VERIFY_DONE (R359). -/
def execPrivVerifyDone (port : Fin 4) (claim : PrivClaim) (s : State) : Outcome := act (privVerifyDone port claim) s

/-- STAGE_WRITE (R412). -/
def execStageWrite (port : Fin 4) (s : State) : Outcome := act (stageWrite port) s

/-- STAGE_COMMIT (R412). -/
def execStageCommit (port : Fin 4) (s : State) : Outcome := act (stageCommit port) s

/-- STAGE_COMMIT_DONE (R413). -/
def execStageCommitDone (read : SlotRead) (s : State) : Outcome := act (stageCommitDone read) s

/-- SET_TRACE_MASK (R420). -/
def execSetTraceMask (port : Fin 4) (s : State) : Outcome := act (setTraceMask port) s

/-- WARM_START (R414). -/
def execWarmStart (port : Fin 4) (s : State) : Outcome := act (warmStart port) s

/-- UNLISTED_OP (R354). -/
def execUnlistedOp (port : Fin 4) (s : State) : Outcome := act (unlistedOp port) s

/-- MODE_REQUEST (R254). -/
def execModeRequest (port : Fin 2) (frame : CtrlFrame) (s : State) : Outcome := act (modeRequest port frame) s

/-- WARM_START_CONSENT (R376). -/
def execWarmStartConsent (port : Fin 2) (frame : CtrlFrame) (s : State) : Outcome :=
  act (warmStartConsent port frame) s

/-- CONTROLLER_HEARTBEAT (R373). -/
def execControllerHeartbeat (port : Fin 2) (frame : CtrlFrame) (s : State) : Outcome :=
  act (controllerHeartbeat port frame) s

/-- CTRL_SILENCE_TIMEOUT (R377). -/
def execCtrlSilenceTimeout (s : State) : Outcome := act ctrlSilenceTimeout s

/-- CONSENT_EXPIRY (R376). -/
def execConsentExpiry (s : State) : Outcome := act consentExpiry s

/-- VLINK_LINK_DOWN (R363). -/
def execVlinkLinkDown (port : Fin 2) (s : State) : Outcome := act (vlinkLinkDown port) s

/-- TEMP_SAMPLE (R441). -/
def execTempSample (die : Die) (sensors : List Int) (s : State) : Outcome := act (tempSample die sensors) s

/-- THERMAL_RESTORE_TIMER (R442). -/
def execThermalRestoreTimer (die : Die) (s : State) : Outcome := act (thermalRestoreTimer die) s

/-- RAIL_EXCURSION (R443). -/
def execRailExcursion (rail : Fin 14) (mv current : Nat) (s : State) : Outcome :=
  act (railExcursion rail mv current) s

/-- RAIL_OVERCURRENT (R443). -/
def execRailOvercurrent (rail : Fin 4) (current : Nat) (s : State) : Outcome := act (railOvercurrent rail current) s

/-- RAIL_RESTORE_TIMER (R443). -/
def execRailRestoreTimer (rail : Fin 14) (ofCurrent : Bool) (mv current : Nat) (s : State) : Outcome :=
  act (railRestoreTimer rail ofCurrent mv current) s

/-- VDD_X_UNDERVOLTAGE_TIMER (R443). -/
def execVddXUndervoltageTimer (s : State) : Outcome := act vddXUndervoltageTimer s

/-- MEMORY_RAIL_RESET_TIMER (R443). -/
def execMemoryRailResetTimer (s : State) : Outcome := act memoryRailResetTimer s

/-- LIMIT_WRITE (R444). -/
def execLimitWrite (limit : Limit) (value : Nat) (s : State) : Outcome := act (limitWrite limit value) s

/-- EM_ESTIMATOR_SAMPLE (R446). -/
def execEmEstimatorSample (rail : Fin 14) (current : Nat) (temp : Int) (s : State) : Outcome :=
  act (emEstimatorSample rail current temp) s

/-- EYE_MARGIN_SAMPLE (R446). -/
def execEyeMarginSample (link : EyeLink) (margin : Nat) (s : State) : Outcome := act (eyeMarginSample link margin) s

/-- CANARY_FAILURE (R446). -/
def execCanaryFailure (cl : Fin 132) (s : State) : Outcome := act (canaryFailure cl) s

/-- WEAR_RECORD_WRITE (R447). -/
def execWearRecordWrite (s : State) : Outcome := act wearRecordWrite s

/-- LIFE_PREDICTION (R448). -/
def execLifePrediction (ddrM0 ddrM1 : Nat) (s : State) : Outcome := act (lifePrediction ddrM0 ddrM1) s

/-- TRACE_POINT (R420). -/
def execTracePoint (die : Die) (id : BitVec 16) (args : List Word) (s : State) : Outcome :=
  act (tracePoint die id args) s

/-- TAP_INSTRUCTION (R492). -/
def execTapInstruction (code : TapInstr) (s : State) : Outcome := act (tapInstruction code) s

/-- TSQ_DEVTIME_LO_READ (R56). -/
def execTsqDevtimeLoRead (s : State) : Outcome := act tsqDevtimeLoRead s

/-- TSQ_PPS_STAMP_LO_READ (R56). -/
def execTsqPpsStampLoRead (s : State) : Outcome := act tsqPpsStampLoRead s

/-- MUS_LAST_TIME_LO_READ (R77). -/
def execMusLastTimeLoRead (stream : Fin 48) (s : State) : Outcome := act (musLastTimeLoRead stream) s

/-- EXPOSURE_US_READ (R104). -/
def execExposureUsRead (cam : Fin 16) (s : State) : Outcome := act (exposureUsRead cam) s

/-- TSQ_PENDING_K_LO_READ (R265). -/
def execTsqPendingKLoRead (s : State) : Outcome := act tsqPendingKLoRead s

/-- SRG_CAL_GEN_READ (R143). -/
def execSrgCalGenRead (s : State) : Outcome := act srgCalGenRead s

/-- LAST_END_LO_READ (R322). -/
def execLastEndLoRead (slot : Fin 16) (s : State) : Outcome := act (lastEndLoRead slot) s

/-- VLINK_LINK_UP (R363). -/
def execVlinkLinkUp (port : Fin 2) (s : State) : Outcome := act (vlinkLinkUp port) s

/-- REFCLK_RETURN (R387). -/
def execRefclkReturn (s : State) : Outcome := act refclkReturn s

/-- TICK_INTERVAL_TIMEOUT (R54). -/
def execTickIntervalTimeout (elapsed : Nat) (s : State) : Outcome := act (tickIntervalTimeout elapsed) s

/-- SERVO_SATURATION_SECOND (R30). -/
def execServoSaturationSecond (s : State) : Outcome := act servoSaturationSecond s

/-- REACQUISITION_PERIOD_END (R71). -/
def execReacquisitionPeriodEnd (stream : Fin 48) (s : State) : Outcome := act (reacquisitionPeriodEnd stream) s

/-- INIT_WAIT_EXPIRY (R86). -/
def execInitWaitExpiry (port : Fin 16) (s : State) : Outcome := act (initWaitExpiry port) s

/-- CAN_PROTOCOL_ERROR (R120). -/
def execCanProtocolError (n : Fin 4) (rec_ : BitVec 8) (errPassive : Bool) (s : State) : Outcome :=
  act (canProtocolError n rec_ errPassive) s

/-- UNACCEPTED_CONTROLLER_FRAME (R374). -/
def execUnacceptedControllerFrame (port : Fin 2) (frame : CtrlFrame) (s : State) : Outcome :=
  act (unacceptedControllerFrame port frame) s

/-- SERGE_UNCORRECTABLE_SRAM_ERROR (R320). -/
def execSergeUncorrectableSramError (unit : Fin 4) (s : State) : Outcome := act (sergeUncorrectableSramError unit) s

/-- STAGE_WRITE_DONE (R412). -/
def execStageWriteDone (head : List Byte) (s : State) : Outcome := act (stageWriteDone head) s

/-- FIRMWARE_RESTART_COMPLETE (R418). -/
def execFirmwareRestartComplete (p : FwProc) (s : State) : Outcome := act (firmwareRestartComplete p) s

/-- PORST_N_ASSERTED (R486). -/
def execPorstNAsserted (s : State) : Outcome := act porstNAsserted s

end Sys2Proof.Machine
end

