-- ==== Sys2Proof/Machine/Dispatch.lean ====
section
/-!
DEFINITION. The dispatch: one arm per constructor of Instr, each a direct call of its meaning.
-/

namespace Sys2Proof.Machine

def exec (i : Instr) (s : State) : Host.Outcome State Fault Refusal :=
  match i with
  | .minorTickBoundary interval => Sys2Proof.Machine.execMinorTickBoundary interval s
  | .majorTickBoundary => Sys2Proof.Machine.execMajorTickBoundary s
  | .tickBroadcastArrival die => Sys2Proof.Machine.execTickBroadcastArrival die s
  | .windowRelease src tick w => Sys2Proof.Machine.execWindowRelease src tick w s
  | .heldWindowRelease src tick w => Sys2Proof.Machine.execHeldWindowRelease src tick w s
  | .layerWatchdogExpiry src tick w => Sys2Proof.Machine.execLayerWatchdogExpiry src tick w s
  | .tweedStepTimerExpiry src tick w => Sys2Proof.Machine.execTweedStepTimerExpiry src tick w s
  | .chambrayTimerExpiry tick w => Sys2Proof.Machine.execChambrayTimerExpiry tick w s
  | .assemblyTimerExpiry src tick w => Sys2Proof.Machine.execAssemblyTimerExpiry src tick w s
  | .assemblyComplete src tick w contents => Sys2Proof.Machine.execAssemblyComplete src tick w contents s
  | .stagingWindowEnd tick w bytes => Sys2Proof.Machine.execStagingWindowEnd tick w bytes s
  | .transmitWindow tick w => Sys2Proof.Machine.execTransmitWindow tick w s
  | .vlinkFrameDone port => Sys2Proof.Machine.execVlinkFrameDone port s
  | .hostWindowEnd tick w => Sys2Proof.Machine.execHostWindowEnd tick w s
  | .gateClose stream => Sys2Proof.Machine.execGateClose stream s
  | .sliceTimerExpiry src stream => Sys2Proof.Machine.execSliceTimerExpiry src stream s
  | .deferredInsertion src => Sys2Proof.Machine.execDeferredInsertion src s
  | .tweedTableRelease src => Sys2Proof.Machine.execTweedTableRelease src s
  | .syncFollowUpReceived pair => Sys2Proof.Machine.execSyncFollowUpReceived pair s
  | .announceReceived grandmaster => Sys2Proof.Machine.execAnnounceReceived grandmaster s
  | .vehicleTimeLoss => Sys2Proof.Machine.execVehicleTimeLoss s
  | .pdelayReqTimer port => Sys2Proof.Machine.execPdelayReqTimer port s
  | .pdelayReqReceived port => Sys2Proof.Machine.execPdelayReqReceived port s
  | .pdelayRespReceived port linkDelay asCapable => Sys2Proof.Machine.execPdelayRespReceived port linkDelay asCapable s
  | .v1GptpFrame => Sys2Proof.Machine.execV1GptpFrame s
  | .lidarSyncSend n => Sys2Proof.Machine.execLidarSyncSend n s
  | .lidarAnnounceSend n => Sys2Proof.Machine.execLidarAnnounceSend n s
  | .lidarGptpReceived n kind => Sys2Proof.Machine.execLidarGptpReceived n kind s
  | .lidarFrameReceived n frame => Sys2Proof.Machine.execLidarFrameReceived n frame s
  | .lidarLinkDown n => Sys2Proof.Machine.execLidarLinkDown n s
  | .lidarLinkUp n => Sys2Proof.Machine.execLidarLinkUp n s
  | .triggerSend port => Sys2Proof.Machine.execTriggerSend port s
  | .csi2PacketReceived port pkt => Sys2Proof.Machine.execCsi2PacketReceived port pkt s
  | .linkLockLoss port => Sys2Proof.Machine.execLinkLockLoss port s
  | .retrainIntervalExpiry port => Sys2Proof.Machine.execRetrainIntervalExpiry port s
  | .trainingSuccess port => Sys2Proof.Machine.execTrainingSuccess port s
  | .trainingTimeout port => Sys2Proof.Machine.execTrainingTimeout port s
  | .cciAck port data => Sys2Proof.Machine.execCciAck port data s
  | .cciTimeout port => Sys2Proof.Machine.execCciTimeout port s
  | .statisticsComplete port => Sys2Proof.Machine.execStatisticsComplete port s
  | .percaleBandDone port band dests => Sys2Proof.Machine.execPercaleBandDone port band dests s
  | .imuSyncPulse n => Sys2Proof.Machine.execImuSyncPulse n s
  | .imuDrdyEdge n => Sys2Proof.Machine.execImuDrdyEdge n s
  | .imuTransactionDone n payload => Sys2Proof.Machine.execImuTransactionDone n payload s
  | .imuMissedSample n => Sys2Proof.Machine.execImuMissedSample n s
  | .canFrameReceived n frame => Sys2Proof.Machine.execCanFrameReceived n frame s
  | .gnssSentenceReceived sentence => Sys2Proof.Machine.execGnssSentenceReceived sentence s
  | .gnssPpsEdge => Sys2Proof.Machine.execGnssPpsEdge s
  | .ppsMissingTimeout => Sys2Proof.Machine.execPpsMissingTimeout s
  | .gnssPairTimeout => Sys2Proof.Machine.execGnssPairTimeout s
  | .absenceTimeout stream => Sys2Proof.Machine.execAbsenceTimeout stream s
  | .wstart cl co imm => Sys2Proof.Machine.execWstart cl co imm s
  | .endOp cl co => Sys2Proof.Machine.execEndOp cl co s
  | .wtally cl co t imm => Sys2Proof.Machine.execWtally cl co t imm s
  | .signalOp cl co x => Sys2Proof.Machine.execSignalOp cl co x s
  | .loopOp cl co l imm => Sys2Proof.Machine.execLoopOp cl co l imm s
  | .loopx cl co l a imm => Sys2Proof.Machine.execLoopx cl co l a imm s
  | .endl cl co l => Sys2Proof.Machine.execEndl cl co l s
  | .movi cl co x imm => Sys2Proof.Machine.execMovi cl co x imm s
  | .addi cl co x a imm => Sys2Proof.Machine.execAddi cl co x a imm s
  | .ldv cl co v a imm ecc => Sys2Proof.Machine.execLdv cl co v a imm ecc s
  | .stvm cl co v a m => Sys2Proof.Machine.execStvm cl co v a m s
  | .mma cl co acc xa xb xk fmt subA subB ecc => Sys2Proof.Machine.execMma cl co acc xa xb xk fmt subA subB ecc s
  | .accz cl co a fp => Sys2Proof.Machine.execAccz cl co a fp s
  | .accrd cl co v a col => Sys2Proof.Machine.execAccrd cl co v a col s
  | .accwr cl co a v col => Sys2Proof.Machine.execAccwr cl co a v col s
  | .accscl cl co a v => Sys2Proof.Machine.execAccscl cl co a v s
  | .vop cl co op int vd va vb vc => Sys2Proof.Machine.execVop cl co op int vd va vb vc s
  | .vcvt cl co vd va int f sat shift => Sys2Proof.Machine.execVcvt cl co vd va int f sat shift s
  | .vred cl co vd va max => Sys2Proof.Machine.execVred cl co vd va max s
  | .vfn cl co vd va f => Sys2Proof.Machine.execVfn cl co vd va f s
  | .smax cl co vd vs n => Sys2Proof.Machine.execSmax cl co vd vs n s
  | .sexp cl co vs vm vl n => Sys2Proof.Machine.execSexp cl co vs vm vl n s
  | .srsc cl co va vm vd vl => Sys2Proof.Machine.execSrsc cl co va vm vd vl s
  | .smrg cl co vd vs => Sys2Proof.Machine.execSmrg cl co vd vs s
  | .dmaq cl co x => Sys2Proof.Machine.execDmaq cl co x s
  | .dmaw cl co imm => Sys2Proof.Machine.execDmaw cl co imm s
  | .radd cl co x v m => Sys2Proof.Machine.execRadd cl co x v m s
  | .setc cl co imm => Sys2Proof.Machine.execSetc cl co imm s
  | .rdnsw cl co x => Sys2Proof.Machine.execRdnsw cl co x s
  | .undefinedOpcode cl co => Sys2Proof.Machine.execUndefinedOpcode cl co s
  | .transferStart cl => Sys2Proof.Machine.execTransferStart cl s
  | .transferComplete cl n ecc => Sys2Proof.Machine.execTransferComplete cl n ecc s
  | .transferTimeout cl n => Sys2Proof.Machine.execTransferTimeout cl n s
  | .scrubAccess cl bank ecc => Sys2Proof.Machine.execScrubAccess cl bank ecc s
  | .burlapClusterReloadDone cl => Sys2Proof.Machine.execBurlapClusterReloadDone cl s
  | .linkTransactionTimeout die part ofRetry tick w => Sys2Proof.Machine.execLinkTransactionTimeout die part ofRetry tick w s
  | .flitCrcError => Sys2Proof.Machine.execFlitCrcError s
  | .create half cmd => Sys2Proof.Machine.execCreate half cmd s
  | .openView half cmd => Sys2Proof.Machine.execOpenView half cmd s
  | .appendTok half cmd => Sys2Proof.Machine.execAppendTok half cmd s
  | .forkSeq half cmd => Sys2Proof.Machine.execForkSeq half cmd s
  | .freeSeq half cmd => Sys2Proof.Machine.execFreeSeq half cmd s
  | .restore half cmd => Sys2Proof.Machine.execRestore half cmd s
  | .openQueue half cmd => Sys2Proof.Machine.execOpenQueue half cmd s
  | .damaskReservedOp half cmd => Sys2Proof.Machine.execDamaskReservedOp half cmd s
  | .epochClose => Sys2Proof.Machine.execEpochClose s
  | .solveEnd unit run => Sys2Proof.Machine.execSolveEnd unit run s
  | .sergeDeadline unit run => Sys2Proof.Machine.execSergeDeadline unit run s
  | .sergeStopTimeout unit => Sys2Proof.Machine.execSergeStopTimeout unit s
  | .sergeUnitResetDone unit => Sys2Proof.Machine.execSergeUnitResetDone unit s
  | .goldenSegmentEnd cl sigs roShift => Sys2Proof.Machine.execGoldenSegmentEnd cl sigs roShift s
  | .goldenBudgetTimer tick w => Sys2Proof.Machine.execGoldenBudgetTimer tick w s
  | .resumeCountExpiry => Sys2Proof.Machine.execResumeCountExpiry s
  | .selfCheckPass => Sys2Proof.Machine.execSelfCheckPass s
  | .lockstepMismatch => Sys2Proof.Machine.execLockstepMismatch s
  | .refclkLoss => Sys2Proof.Machine.execRefclkLoss s
  | .fabricError => Sys2Proof.Machine.execFabricError s
  | .fwWatchdogExpiry p => Sys2Proof.Machine.execFwWatchdogExpiry p s
  | .reloadDone die part ok => Sys2Proof.Machine.execReloadDone die part ok s
  | .restartTimeout die part => Sys2Proof.Machine.execRestartTimeout die part s
  | .dieAdmissionReport die digestsOk versionOk epochOk fit => Sys2Proof.Machine.execDieAdmissionReport die digestsOk versionOk epochOk fit s
  | .admissionDeadline die => Sys2Proof.Machine.execAdmissionDeadline die s
  | .healthDeadline => Sys2Proof.Machine.execHealthDeadline s
  | .powerOnReset strapNvProfile strapTest0 strapTest1 vddOut => Sys2Proof.Machine.execPowerOnReset strapNvProfile strapTest0 strapTest1 vddOut s
  | .deviceReset => Sys2Proof.Machine.execDeviceReset s
  | .sectionVerified id bytes digest => Sys2Proof.Machine.execSectionVerified id bytes digest s
  | .phase0Loaded check img => Sys2Proof.Machine.execPhase0Loaded check img s
  | .slotVerified bad => Sys2Proof.Machine.execSlotVerified bad s
  | .imageBlockTimeout => Sys2Proof.Machine.execImageBlockTimeout s
  | .warmReadDone check img => Sys2Proof.Machine.execWarmReadDone check img s
  | .dieReload die => Sys2Proof.Machine.execDieReload die s
  | .sessionOpen port => Sys2Proof.Machine.execSessionOpen port s
  | .sessionClose port => Sys2Proof.Machine.execSessionClose port s
  | .attestReportDone port => Sys2Proof.Machine.execAttestReportDone port s
  | .attestTimeout port => Sys2Proof.Machine.execAttestTimeout port s
  | .hstHeartbeat port value => Sys2Proof.Machine.execHstHeartbeat port value s
  | .hbWarn port => Sys2Proof.Machine.execHbWarn port s
  | .heartbeatTimeout port => Sys2Proof.Machine.execHeartbeatTimeout port s
  | .hstSqTail port value => Sys2Proof.Machine.execHstSqTail port value s
  | .hstCqHead port value => Sys2Proof.Machine.execHstCqHead port value s
  | .hstSrCons port ring value => Sys2Proof.Machine.execHstSrCons port ring value s
  | .hstIntStatus port value => Sys2Proof.Machine.execHstIntStatus port value s
  | .registerWrite port offset value => Sys2Proof.Machine.execRegisterWrite port offset value s
  | .pcieLinkEvent port event => Sys2Proof.Machine.execPcieLinkEvent port event s
  | .dmaReadFault port => Sys2Proof.Machine.execDmaReadFault port s
  | .submissionFetch port sub => Sys2Proof.Machine.execSubmissionFetch port sub s
  | .runModel port data => Sys2Proof.Machine.execRunModel port data s
  | .readGrid port => Sys2Proof.Machine.execReadGrid port s
  | .readTrack port => Sys2Proof.Machine.execReadTrack port s
  | .hostFork port => Sys2Proof.Machine.execHostFork port s
  | .freeFork port => Sys2Proof.Machine.execFreeFork port s
  | .subscribe port => Sys2Proof.Machine.execSubscribe port s
  | .unsubscribe port => Sys2Proof.Machine.execUnsubscribe port s
  | .attest port => Sys2Proof.Machine.execAttest port s
  | .privClaim port => Sys2Proof.Machine.execPrivClaim port s
  | .privVerifyDone port claim => Sys2Proof.Machine.execPrivVerifyDone port claim s
  | .stageWrite port => Sys2Proof.Machine.execStageWrite port s
  | .stageCommit port => Sys2Proof.Machine.execStageCommit port s
  | .stageCommitDone read => Sys2Proof.Machine.execStageCommitDone read s
  | .setTraceMask port => Sys2Proof.Machine.execSetTraceMask port s
  | .warmStart port => Sys2Proof.Machine.execWarmStart port s
  | .unlistedOp port => Sys2Proof.Machine.execUnlistedOp port s
  | .modeRequest port frame => Sys2Proof.Machine.execModeRequest port frame s
  | .warmStartConsent port frame => Sys2Proof.Machine.execWarmStartConsent port frame s
  | .controllerHeartbeat port frame => Sys2Proof.Machine.execControllerHeartbeat port frame s
  | .ctrlSilenceTimeout => Sys2Proof.Machine.execCtrlSilenceTimeout s
  | .consentExpiry => Sys2Proof.Machine.execConsentExpiry s
  | .vlinkLinkDown port => Sys2Proof.Machine.execVlinkLinkDown port s
  | .tempSample die sensors => Sys2Proof.Machine.execTempSample die sensors s
  | .thermalRestoreTimer die => Sys2Proof.Machine.execThermalRestoreTimer die s
  | .railExcursion rail mv current => Sys2Proof.Machine.execRailExcursion rail mv current s
  | .railOvercurrent rail current => Sys2Proof.Machine.execRailOvercurrent rail current s
  | .railRestoreTimer rail ofCurrent mv current => Sys2Proof.Machine.execRailRestoreTimer rail ofCurrent mv current s
  | .vddXUndervoltageTimer => Sys2Proof.Machine.execVddXUndervoltageTimer s
  | .memoryRailResetTimer => Sys2Proof.Machine.execMemoryRailResetTimer s
  | .limitWrite limit value => Sys2Proof.Machine.execLimitWrite limit value s
  | .emEstimatorSample rail current temp => Sys2Proof.Machine.execEmEstimatorSample rail current temp s
  | .eyeMarginSample link margin => Sys2Proof.Machine.execEyeMarginSample link margin s
  | .canaryFailure cl => Sys2Proof.Machine.execCanaryFailure cl s
  | .wearRecordWrite => Sys2Proof.Machine.execWearRecordWrite s
  | .lifePrediction ddrM0 ddrM1 => Sys2Proof.Machine.execLifePrediction ddrM0 ddrM1 s
  | .tracePoint die id args => Sys2Proof.Machine.execTracePoint die id args s
  | .tapInstruction code => Sys2Proof.Machine.execTapInstruction code s
  | .tsqDevtimeLoRead => Sys2Proof.Machine.execTsqDevtimeLoRead s
  | .tsqPpsStampLoRead => Sys2Proof.Machine.execTsqPpsStampLoRead s
  | .musLastTimeLoRead stream => Sys2Proof.Machine.execMusLastTimeLoRead stream s
  | .exposureUsRead cam => Sys2Proof.Machine.execExposureUsRead cam s
  | .tsqPendingKLoRead => Sys2Proof.Machine.execTsqPendingKLoRead s
  | .srgCalGenRead => Sys2Proof.Machine.execSrgCalGenRead s
  | .lastEndLoRead slot => Sys2Proof.Machine.execLastEndLoRead slot s
  | .vlinkLinkUp port => Sys2Proof.Machine.execVlinkLinkUp port s
  | .refclkReturn => Sys2Proof.Machine.execRefclkReturn s
  | .tickIntervalTimeout elapsed => Sys2Proof.Machine.execTickIntervalTimeout elapsed s
  | .servoSaturationSecond => Sys2Proof.Machine.execServoSaturationSecond s
  | .reacquisitionPeriodEnd stream => Sys2Proof.Machine.execReacquisitionPeriodEnd stream s
  | .initWaitExpiry port => Sys2Proof.Machine.execInitWaitExpiry port s
  | .canProtocolError n rec_ errPassive => Sys2Proof.Machine.execCanProtocolError n rec_ errPassive s
  | .unacceptedControllerFrame port frame => Sys2Proof.Machine.execUnacceptedControllerFrame port frame s
  | .sergeUncorrectableSramError unit => Sys2Proof.Machine.execSergeUncorrectableSramError unit s
  | .stageWriteDone head => Sys2Proof.Machine.execStageWriteDone head s
  | .firmwareRestartComplete p => Sys2Proof.Machine.execFirmwareRestartComplete p s
  | .porstNAsserted => Sys2Proof.Machine.execPorstNAsserted s

end Sys2Proof.Machine
end

