-- ==== Sys2Proof/Machine/Registers.lean ====
section
/-!
DEFINITION. What a read of BAR0 returns (spec/15_host_ports_and_sessions.md R344, R345): every register block of the device,
word by word, as a view of the state. Reserved fields, offsets that no block defines and write-only fields read as 0
(R6, R7, R344). The effect of the seven reads that latch is that of their commands.
-/

namespace Sys2Proof.Machine

open Sys2Proof

/-! ### Fields of a word -/

/-- A word from its fields: lowest bit, width and value, the upper bits of a value left off. Bits in no field are 0 (R6). -/
def regWord (fields : List (Nat × Nat × Nat)) : Nat := fields.foldl (fun w f => w + 2 ^ f.1 * (f.2.2 % 2 ^ f.2.1)) 0

/-- The low word of a value of 64 bits. -/
def lowWord (v : Nat) : Nat := v % 2 ^ 32

/-- Its high word. -/
def highWord (v : Nat) : Nat := v / 2 ^ 32 % 2 ^ 32

/-- A signed value as a word of w bits. -/
def signedWord (w : Nat) (v : Int) : Nat := (BitVec.ofInt w v).toNat

/-- The sticky saturated bits of some counters, bit 0 for the first (R8). -/
def satBits (cs : List Counter) : Nat := (cs.zipIdx.map (fun c => 2 ^ c.2 * bit c.1.sat)).sum

/-- Word i of a run of event counters. -/
def counterAt (cs : List Counter) (i : Nat) : Nat := match cs[i]? with | some c => c.val.toNat | none => 0

/-- The bits of some numbers below 32, from number `lo` on. -/
def maskWord (lo : Nat) (ns : List Nat) : Nat := ((List.range 32).map (fun i => 2 ^ i * bit (ns.contains (lo + i)))).sum

/-! ### HST, MSI-X (R344, R345) -/

/-- STATE (R345). -/
def SessState.code : SessState → Nat
  | .closed => 0 | .attesting => 1 | .open_ => 2 | .closing => 3

/-- CLOSE_REASON (R345). -/
def CloseReason.code : CloseReason → Nat
  | .none => 0 | .host => 1 | .heartbeat => 2 | .link => 3 | .dma => 4 | .warmStart => 5 | .config => 6 | .attest => 7

/-- HB_AGE_MS (R345, R348): in OPEN and CLOSING the time since the last heartbeat; a session that is not open has none. -/
def Dev.hbAgeMs (d : Dev) (p : Nat) : Nat :=
  if (d.port p).live then satTo 0xFFFF ((d.now - (d.port p).hbAt) / msNs) else 0

/-- BUDGET_LEFT of lane n (R345): what the port record of section 0x30 gives the lane of an OPEN session, less what the major
tick has used. -/
def Dev.budgetLeft (d : Dev) (p n : Nat) : Nat :=
  if (d.port p).state = .open_ then
    match (d.portRec p).bind (fun r => r.lanes[n]?) with
    | some l => l.budgetUs - bget 0 n (d.port p).budgetUsed
    | none => 0
  else 0

/-- Word i of stream ring r's set (R345). -/
def ringWord (r : StreamRing) (i : Nat) : Nat :=
  match i with
  | 0 => lowWord r.base
  | 1 => highWord r.base
  | 2 => lowWord r.slotBytes
  | 3 => regWord [(0, 4, r.slotCountLog2)]
  | 4 => r.cons.toNat
  | 5 => r.prod.toNat
  | 6 => r.oldest.toNat
  | _ => r.drop.val.toNat

/-- The HST block of port p (R345). -/
def Dev.hstWord (d : Dev) (p off : Nat) : Nat :=
  let h := d.port p
  if 0x020 ≤ off && off < 0x040 then (bget 0 ((off - 0x020) / 4) h.nonce).toNat
  else if 0x100 ≤ off && off < 0x300 then ringWord (bget {} ((off - 0x100) / 0x20) h.rings) (off % 0x20 / 4)
  else if 0x320 ≤ off && off < 0x340 then
    let n := (off - 0x320) / 4
    regWord [(0, 24, d.budgetLeft p n), (24, 7, bget 0 n h.outstanding)]
  else match off with
  | 0x000 => regWord [(0, 16, 1), (16, 2, p)]
  | 0x008 => regWord [(0, 2, h.state.code), (2, 1, bit h.privileged), (3, 1, bit (decide (d.image.host.privPort = some p))),
                      (4, 4, h.closeReason.code), (16, 16, h.gen.toNat)]
  | 0x00C => h.heartbeat.toNat
  | 0x010 => regWord [(0, 16, d.hbAgeMs p)]
  | 0x040 => lowWord h.attestAddr
  | 0x044 => highWord h.attestAddr
  | 0x048 => lowWord h.attestLen
  | 0x050 => lowWord h.wbAddr
  | 0x054 => highWord h.wbAddr
  | 0x060 => lowWord h.sqBase
  | 0x064 => highWord h.sqBase
  | 0x068 => regWord [(0, 4, h.sqSizeLog2)]
  | 0x06C => h.sqTail.toNat
  | 0x070 => h.sqHead.toNat
  | 0x080 => lowWord h.cqBase
  | 0x084 => highWord h.cqBase
  | 0x088 => regWord [(0, 4, h.cqSizeLog2)]
  | 0x08C => h.cqHead.toNat
  | 0x090 => h.cqTail.toNat
  | 0x300 => h.intStatus.toNat
  | 0x304 => h.intEnable.toNat
  | 0x308 => h.holdoffUs.toNat
  | 0x340 => h.dup.val.toNat
  | 0x344 => h.stale.val.toNat
  | 0x348 => h.refuse.val.toNat
  | 0x34C => h.protoErr.val.toNat
  | 0x350 => satBits [h.dup, h.stale, h.refuse, h.protoErr]
  | 0x354 => h.closeCount.val.toNat
  | 0x358 => bit h.closeCount.sat
  | _ => 0

/-! ### The time block (R56) -/

/-- TSQ_HOLDOVER_MS (R56): the time in the current HOLDOVER. -/
def TimeState.holdoverMs (t : TimeState) : Nat :=
  if t.servo.state = .holdover then satTo 0xFFFFFFFF ((t.dev - t.servo.holdoverSince) / msNs) else 0

/-- TSQ_SERVO_ERR (R56): the last e, held at ±(2^31 − 1). -/
def ServoState.errRead (s : ServoState) : Int := max (-2147483647) (min 2147483647 s.err)

/-- A read of the time block (R56). -/
def Dev.timeWord (d : Dev) (off : Nat) : Nat :=
  let t := d.time
  if 0x050 ≤ off && off < 0x070 then
    let g := (d.lidar ((off - 0x050) / 4)).gptp
    regWord [(0, 16, satTo 0xFFFF g.linkDelay), (16, 1, bit g.asCapable)]
  else match off with
  | 0x000 => lowWord t.dev
  | 0x004 => highWord t.latch.dev
  | 0x008 => lowWord t.latch.k
  | 0x00C => highWord t.latch.k
  | 0x010 => regWord [(0, 8, t.latch.m)]
  | 0x014 => regWord [(0, 7, t.pMs), (8, 7, t.n), (16, 7, t.dMinor)]
  | 0x018 => lowWord (signedWord 64 t.latch.vt)
  | 0x01C => highWord (signedWord 64 t.latch.vt)
  | 0x020 => regWord [(0, 2, Servo.code t.servo.state), (2, 1, bit t.holdover), (3, 1, bit t.servo.saturated),
                      (8, 8, d.image.link.gptpDomain)]
  | 0x024 => signedWord 32 t.freq
  | 0x028 => signedWord 32 t.servo.errRead
  | 0x02C => t.holdoverBound
  | 0x030 => t.holdoverMs
  | 0x034 => t.vtStep.val.toNat
  | 0x038 => t.syncLoss.val.toNat
  | 0x03C => t.skewFault.val.toNat
  | 0x040 => regWord [(0, 1, bit t.ppsMissing), (1, 3, satBits [t.vtStep, t.syncLoss, t.skewFault])]
  | 0x044 => lowWord t.ppsStamp
  | 0x048 => t.ppsStampHiLatch.toNat
  | _ => 0

/-! ### The Tick Sequencer (R222, R236, R265, R437) -/

/-- The plan status block (R265), offsets from 0x100. -/
def Dev.planWord (d : Dev) (off : Nat) : Nat :=
  let p := d.plan
  let counters := [p.wdg, p.winMissing, p.heldRelease, p.modeSwitch, p.modeRefuse, p.hostRefuse]
  let target := match p.pending with | some q => q.target | none => 0
  let effect := match p.pending with | some q => q.effect | none => 0
  let staging := match p.pending with | some q => q.staged && !d.copied q | none => false
  if 0x118 ≤ off && off < 0x130 then counterAt counters ((off - 0x118) / 4)
  else match off with
  | 0x100 => regWord [(0, 4, p.modeInForce), (4, 4, target), (8, 1, bit p.pending.isSome), (9, 1, bit staging),
                      (10, 1, bit p.mainStopped)]
  | 0x104 => p.epoch.toNat
  | 0x108 => regWord [(0, 16, p.availMask)]
  | 0x10C => lowWord p.lNs
  | 0x110 => lowWord effect
  | 0x114 => p.pendingKHiLatch.toNat
  | 0x130 => satBits counters
  | 0x134 => p.missingLast.toNat
  | 0x138 => p.hostUsedLast.toNat
  | _ => 0

/-- DIE_STATE (R437): a die whose power is removed reads as restarting. -/
def Dev.dieStateCode (d : Dev) (x : Nat) : Nat :=
  match (d.die x).state with
  | .out => 3
  | .awaiting => if d.powerOff x then 2 else 0
  | .admitted => if d.powerOff x then 2 else 1
  | .restarting => 2

/-- The partitions of the mode in force, by index, that lie on die x and restart (R244, R437): through a restart of the whole
die, all of them. -/
def Dev.restartingParts (d : Dev) (x : Nat) : List Nat :=
  let ps := match d.modeRec d.plan.modeInForce with | some m => m.parts | none => []
  (ps.zipIdx.filter (fun p => decide (p.1.die = x) && ((d.die x).partRestarting p.1 || (d.die x).restart.isSome))).map (·.2)

/-- The event counters of a recovery block, from 0x04 (R437). -/
def DieState.counters (s : DieState) : List Counter := [s.partRestart, s.dieRestart, s.linkRetry, s.linkTimeout, s.admitFail]

/-- The recovery block of die x (R437). -/
def Dev.dieWord (d : Dev) (x off : Nat) : Nat :=
  match off with
  | 0x00 => regWord [(0, 2, d.dieStateCode x), (8, 8, (d.die x).lastCause.toNat)]
  | 0x18 => maskWord 0 (d.restartingParts x)
  | 0x1C => maskWord 32 (d.restartingParts x)
  | _ => counterAt (d.die x).counters (off / 4 - 1)

/-- TSQ_RECOVERY_SAT_LO and _HI (R437). -/
def Dev.recoverySat (d : Dev) (dies : List Nat) : Nat :=
  regWord (dies.zipIdx.map (fun x => (8 * x.2, 5, satBits (d.die x.1).counters)))

/-- CLU_STATE (R222): a cluster that the plan uses reads as restarting while its die's power is removed, until the die
rejoins. -/
def Dev.clusterStateCode (d : Dev) (n : Nat) : Nat :=
  match (d.cluster n).state with
  | .gated => 0
  | .running => if n < 128 && d.powerOff (clusterDie n) then 2 else 1
  | .restarting => 2
  | .failed => 3
  | .golden => if n < 128 && d.powerOff (clusterDie n) then 2 else 4

/-- The status block of cluster n (R222). -/
def Dev.clusterWord (d : Dev) (n i : Nat) : Nat :=
  let c := d.cluster n
  match i with
  | 0 => regWord [(0, 3, d.clusterStateCode n), (8, 8, c.numFlagsLast.toNat)]
  | 1 => c.eccCorr.val.toNat
  | 2 => c.eccUncorr.val.toNat
  | _ => satBits [c.eccCorr, c.eccUncorr]

/-- The Twill block of cluster n (R236). -/
def Dev.twillWord (d : Dev) (n i : Nat) : Nat :=
  let c := d.cluster n
  match i with
  | 0 => c.descErr.val.toNat
  | 1 => c.timeout.val.toNat
  | 2 => satBits [c.descErr, c.timeout]
  | _ => regWord [(0, 4, c.lastErr)]

/-- A read of the Tick Sequencer block (R344). -/
def Dev.tsqWord (d : Dev) (off : Nat) : Nat :=
  if 0x100 ≤ off && off < 0x140 then d.planWord off
  else if 0x200 ≤ off && off < 0x2C0 then d.dieWord ((off - 0x200) / 0x20) (off % 0x20)
  else if off = 0x2C0 then d.recoverySat [0, 1, 2, 3]
  else if off = 0x2C4 then d.recoverySat [4, 5]
  else if 0x1000 ≤ off && off < 0x1840 then d.clusterWord ((off - 0x1000) / 0x10) (off % 0x10 / 4)
  else if 0x1A00 ≤ off && off < 0x2240 then d.twillWord ((off - 0x1A00) / 0x10) (off % 0x10 / 4)
  else 0

/-! ### Muslin (R77, R104, R129) -/

/-- MUS_STREAM_STATE (R77). -/
def StreamMode.code : StreamMode → Nat
  | .disabled => 0 | .active => 1 | .reacquiring => 2

/-- The status block of stream n (R77). -/
def Dev.streamWord (d : Dev) (n off : Nat) : Nat :=
  let s := d.stream n
  let counters := [s.late, s.stale, s.outOfWindow, s.postOutput, s.absentTicks, s.reacq, s.implausible, s.untriggered]
  let kind := match d.entry n with | some e => e.kind.code | none => 0
  if 0x04 ≤ off && off < 0x24 then counterAt counters (off / 4 - 1)
  else match off with
  | 0x00 => regWord [(0, 2, s.mode.code), (8, 2, kind)]
  | 0x24 => satBits counters
  | 0x28 => lowWord s.latchArrival
  | 0x2C => highWord s.latchArrival
  | 0x30 => lowWord s.newestTime
  | 0x34 => highWord s.latchTime
  | _ => 0

/-- LINK_STATE of a camera port (R104). -/
def CamLink.code : CamLink → Nat
  | .down => 0 | .training => 1 | .init => 2 | .up => 3

/-- EXPOSURE_US (R104). -/
def CameraState.exposureUs (c : CameraState) : Nat := satTo 0xFFFF (c.expNs / usNs)

/-- The block of camera port c (R104). -/
def Dev.cameraWord (d : Dev) (c off : Nat) : Nat :=
  let s := d.camera c
  let counters := [s.linkLoss, s.trainFail, s.eccCorr, s.pktDrop, s.bandDrop, s.cciErr, s.trigSkip]
  if 0x04 ≤ off && off < 0x20 then counterAt counters (off / 4 - 1)
  else match off with
  | 0x00 => regWord [(0, 2, s.link.code), (2, 3, s.gear), (8, 8, s.eyeMargin)]
  | 0x20 => regWord [(0, 16, s.exposureUs), (16, 16, s.gain)]
  | 0x24 => regWord [(0, 16, s.latchWbR), (16, 16, s.latchWbB)]
  | 0x28 => satBits (counters ++ [s.initFail])
  | 0x2C => s.initFail.val.toNat
  | _ => 0

/-- LINK_STATE of a lidar port (R129). -/
def LidLink.code : LidLink → Nat
  | .down => 0 | .training => 1 | .up => 2

/-- The block of lidar port n (R129). -/
def Dev.lidarWord (d : Dev) (n off : Nat) : Nat :=
  let s := d.lidar n
  let counters := [s.linkLoss, s.frameDrop, s.parseDrop, s.quotaDropMain, s.quotaDropFb]
  if 0x04 ≤ off && off < 0x18 then counterAt counters (off / 4 - 1)
  else match off with
  | 0x00 => regWord [(0, 2, s.link.code), (2, 2, s.speed), (8, 8, s.eyeMargin)]
  | 0x18 => s.pointsLast.toNat
  | 0x1C => satBits counters
  | _ => 0

/-- The block of IMU n (R129). -/
def Dev.imuWord (d : Dev) (n off : Nat) : Nat :=
  let s := d.imu n
  let counters := [s.missed, s.orphan, s.overrun, s.reject, s.counterGap]
  match off with
  | 0x00 => bit s.syncMode
  | 0x18 => satBits counters
  | _ => counterAt counters (off / 4 - 1)

/-- The block of CAN controller n (R129). -/
def Dev.canWord (d : Dev) (n off : Nat) : Nat :=
  let s := d.can n
  let counters := [s.proto, s.reject, s.aliveGap]
  match off with
  | 0x00 => regWord [(0, 8, s.rec_.toNat), (8, 1, bit s.errPassive)]
  | 0x10 => satBits counters
  | _ => counterAt counters (off / 4 - 1)

/-- The block of GNSS0 (R129). -/
def Dev.gnssWord (d : Dev) (off : Nat) : Nat :=
  let s := d.ports.gnss
  let counters := [s.framing, s.sentenceReject, s.unpaired]
  match off with
  | 0x00 => regWord [(0, 4, s.fixQuality.toNat), (4, 1, bit s.rmcValid)]
  | 0x10 => satBits counters
  | _ => counterAt counters (off / 4 - 1)

/-- A read of the Muslin block (R344). -/
def Dev.musWord (d : Dev) (off : Nat) : Nat :=
  let o := off % 0x40
  if off < 0xC00 then d.streamWord (off / 0x40) o
  else if off < 0x1000 then d.cameraWord ((off - 0xC00) / 0x40) o
  else if off < 0x1200 then d.lidarWord ((off - 0x1000) / 0x40) o
  else if off < 0x1300 then d.imuWord ((off - 0x1200) / 0x40) o
  else if off < 0x1400 then d.canWord ((off - 0x1300) / 0x40) o
  else if off < 0x1440 then d.gnssWord o
  else 0

/-! ### The engines and Damask (R174, R193, R291) -/

/-- The block of a Tweed engine (R174). -/
def TweedState.word (e : TweedState) (off : Nat) : Nat :=
  let counters := [e.cellFull, e.levelFull, e.sortMergeCount, e.roiDrop, e.nonfinite, e.poseDrop, e.fpsTrunc, e.overrun]
  if 0x0C ≤ off && off < 0x2C then counterAt counters (off / 4 - 3)
  else match off with
  | 0x00 => regWord (e.maxProbeLast.zipIdx.map (fun p => (8 * p.2, 8, p.1)))
  | 0x04 => regWord [(0, 21, e.cellsLast)]
  | 0x08 => regWord [(0, 22, e.pointsLast)]
  | 0x2C => satBits counters
  | 0x30 => regWord [(0, 8, e.hwm)]
  | 0x34 => regWord [(0, 1, bit e.fullLast), (1, 1, bit e.sortMergeLast)]
  | _ => 0

/-- UNIT_STATE of a Chambray unit (R193). -/
def UnitRun.code : UnitRun → Nat
  | .idle => 0 | .running => 1 | .restarting => 2

/-- The block of a Chambray unit (R193). -/
def ChbUnit.word (u : ChbUnit) (off : Nat) : Nat :=
  let counters := [u.overrun, u.epochMismatch, u.bandSubst, u.remoteRetry]
  if 0x1C ≤ off && off < 0x2C then counterAt counters (off / 4 - 7)
  else match off with
  | 0x00 => u.state.code
  | 0x04 => u.projLast.toNat
  | 0x08 => u.sampleInvalidLast.toNat
  | 0x0C => u.liftContribLast.toNat
  | 0x10 => u.liftOutLast.toNat
  | 0x14 => u.paintNoviewLast.toNat
  | 0x18 => u.bandFlipLast.toNat
  | 0x2C => satBits counters
  | 0x30 => u.calGenLast.toNat
  | _ => 0

/-- The block of a Damask half (R291). -/
def Dev.dmkWord (d : Dev) (h off : Nat) : Nat :=
  let s := d.half h
  let counters := [s.appendRefuse, s.createRefuse, s.drop, s.recompute, s.recomputeSkip, s.cow, s.shareSat, s.discard, s.pageEcc]
  if 0x10 ≤ off && off < 0x34 then counterAt counters (off / 4 - 4)
  else match off with
  | 0x00 => regWord [(0, 14, (d.freeSlots h).length)]
  | 0x04 => regWord [(0, 14, (s.refs.filter (fun r => decide (1 < r.2))).length),
                     (16, 14, ((d.seqsOf h).map (fun q => (q.2.pages.filter (·.dropped)).length)).sum)]
  | 0x08 => regWord [(0, 13, (d.seqsOf h).length)]
  | 0x0C => s.missingLast.toNat
  | 0x34 => satBits counters
  | 0x38 => s.refusedLast.toNat
  | _ => 0

/-! ### Serge and the calibration block (R143, R322) -/

/-- Bytes 0x00 to 0x2F of a calibration record, in words (R134, R143). -/
def calWord (r : CalRecord) (l : CalLimits) (i : Nat) : Nat :=
  match i with
  | 0 => regWord [(0, 1, 1), (1, 1, bit l.extrAdapt), (2, 1, bit l.toffAdapt)]
  | 1 => r.q.w.toNat
  | 2 => r.q.x.toNat
  | 3 => r.q.y.toNat
  | 4 => r.q.z.toNat
  | 5 => r.t.x.toNat
  | 6 => r.t.y.toNat
  | 7 => r.t.z.toNat
  | 8 => signedWord 32 r.toffNs
  | 9 => regWord [(0, 16, l.stepTUm), (16, 16, l.stepRUrad)]
  | 10 => regWord [(0, 16, l.stepToff), (16, 16, l.driftR)]
  | 11 => regWord [(0, 16, l.driftTMm), (16, 16, l.driftToffUs)]
  | _ => 0

/-- A read of the record window of stream n (R143): the snapshot. A stream without a record reads as not PRESENT. -/
def CalState.recordWord (c : CalState) (n off : Nat) : Nat :=
  match assoc n c.snapshot.records with
  | none => 0
  | some e =>
    if off = 0x30 then e.lastGen.toNat
    else if off = 0x34 then regWord [(0, 8, e.lastReject)]
    else match assoc n c.limits with
      | some l => calWord e.value l (off / 4)
      | none => 0

/-- A read of the calibration block (R143). -/
def CalState.word (c : CalState) (off : Nat) : Nat :=
  let counters := [c.accept, c.reject, c.defer]
  if 0x100 ≤ off && off < 0xD00 then c.recordWord ((off - 0x100) / 0x40) (off % 0x40)
  else match off with
  | 0x00 => c.active.gen.toNat
  | 0x04 => c.accept.val.toNat
  | 0x08 => c.reject.val.toNat
  | 0x0C => c.defer.val.toNat
  | 0x10 => satBits counters
  | 0x14 => maskWord 0 c.driftHold
  | 0x18 => maskWord 32 (c.driftHold.filter (fun n => decide (n < 48)))
  | _ => 0

/-- UNIT_STATE of a Serge unit (R322). -/
def SrgRun.code : SrgRun → Nat
  | .idle => 0 | .running => 1 | .resetting => 2 | .fault => 2

/-- The block of a Serge unit (R322). -/
def SrgUnit.word (u : SrgUnit) (off : Nat) : Nat :=
  match off with
  | 0x00 => regWord [(0, 2, u.state.code), (4, 4, u.slotRunning.getD 0), (8, 4, u.lastFault)]
  | 0x04 => regWord [(0, 16, u.sramUsedKib)]
  | 0x08 => u.eccCorr.val.toNat
  | 0x0C => u.eccUncorr.val.toNat
  | 0x10 => u.reset.val.toNat
  | 0x14 => satBits [u.eccCorr, u.eccUncorr, u.reset]
  | _ => 0

/-- CLASS (R295). -/
def SlotClass.code : SlotClass → Nat
  | .ego => 0 | .scan => 1 | .calib => 2

/-- SLOT_STATE (R322). -/
def Dev.slotStateCode (d : Dev) (g : Nat) : Nat :=
  if (assoc g d.sergeDefs.slots).isNone then 0
  else if (d.srgSlot g).unavailable then 3
  else if (d.srgSlot g).suspended then 2
  else 1

/-- The block of problem slot g (R322). -/
def Dev.slotWord (d : Dev) (g off : Nat) : Nat :=
  let s := d.srgSlot g
  let counters := [s.deadline, s.regularised, s.overflow, s.reject, s.gap, s.reinit, s.absposeLate, s.calBusy]
  let cls := match assoc g d.sergeDefs.slots with | some r => SlotClass.code r.cls | none => 0
  if 0x10 ≤ off && off < 0x30 then counterAt counters (off / 4 - 4)
  else match off with
  | 0x00 => regWord [(0, 2, d.slotStateCode g), (2, 2, cls)]
  | 0x04 => regWord [(0, 2, s.lastEnd.code), (2, 1, bit s.lastReg), (3, 1, bit s.lastDeadline), (8, 7, s.lastIters)]
  | 0x08 => s.lastCost.toNat
  | 0x0C => s.lastLambda.toNat
  | 0x30 => satBits counters
  | 0x34 => lowWord s.lastEndTime
  | 0x38 => s.lastEndHiLatch.toNat
  | 0x3C => s.epoch.toNat
  | _ => 0

/-- The consistency entry of stream n (R322). -/
def Dev.consistWord (d : Dev) (n i : Nat) : Nat :=
  let c : Consistency := bget {} n d.serge.consist
  match i with
  | 0 => c.resid.toNat
  | 1 => regWord [(0, 16, c.inlier)]
  | 2 => lowWord c.tick
  | _ => 0

/-- A read of the Serge block (R322, R344). -/
def Dev.srgWord (d : Dev) (off : Nat) : Nat :=
  if off < 0xD00 then d.cal.word off
  else if 0x1000 ≤ off && off < 0x1100 then (d.srgUnit ((off - 0x1000) / 0x40)).word (off % 0x40)
  else if 0x1100 ≤ off && off < 0x1500 then d.slotWord ((off - 0x1100) / 0x40) (off % 0x40)
  else if 0x1800 ≤ off && off < 0x1B00 then d.consistWord ((off - 0x1800) / 0x10) (off % 0x10 / 4)
  else 0

/-! ### The vehicle link and Felt (R395) -/

/-- LINK_STATE of a vehicle port (R395). -/
def VlkLink.code : VlkLink → Nat
  | .down => 0 | .training => 1 | .up => 2

/-- The block of a vehicle port (R395): TX_SEQ is the last SEQ sent. -/
def VlkPort.word (v : VlkPort) (off : Nat) : Nat :=
  match off with
  | 0x00 => regWord [(0, 2, v.link.code), (8, 8, v.eyeMargin)]
  | 0x04 => v.txSeq.toNat
  | 0x08 => v.rxSeq.toNat
  | 0x0C => v.linkLoss.val.toNat
  | 0x10 => v.rxReject.val.toNat
  | 0x14 => v.txLate.val.toNat
  | 0x18 => regWord [(0, 3, v.lastReject), (4, 3, satBits [v.linkLoss, v.rxReject, v.txLate])]
  | 0x1C => v.echoSeq.toNat
  | 0x20 => v.ctrlStatus.toNat
  | _ => 0

/-- CONSENT_LEFT_MS (R395). -/
def Dev.consentLeft (d : Dev) : Nat := match d.ctrl.consentUntil with | some t => satTo 0xFFFF ((t - d.now) / msNs) | none => 0

/-- A read of the vehicle link and Felt block (R395). -/
def Dev.vlkWord (d : Dev) (off : Nat) : Nat :=
  let f := d.felt
  let counters := [f.classVCount, f.classHCount, f.e2eFail, f.egoDisagree, f.fallbackCount, f.goldenFail, f.goldenIncompleteCount]
  if off < 0x40 then d.v0.word off
  else if off < 0x80 then d.v1.word (off - 0x40)
  else if 0x10C ≤ off && off < 0x128 then counterAt counters ((off - 0x10C) / 4)
  else if 0x130 ≤ off && off < 0x144 then maskWord (8 * (off - 0x130)) (f.failed.filter (fun n => decide (n < 132)))
  else match off with
  | 0x80 => regWord [(0, 1, bit d.ctrl.silent), (1, 1, bit d.ctrl.consentUntil.isSome), (16, 16, d.consentLeft)]
  | 0x84 => d.ctrl.lastReqId.toNat
  | 0x88 => regWord [(0, 8, d.ctrl.lastReqStatus.toNat), (8, 4, d.ctrl.lastReqMode.toNat)]
  | 0x100 => regWord [(0, 2, f.safeOk.code), (2, 1, bit f.classV), (3, 1, bit d.classHActive), (8, 8, f.resumeLeft),
                      (16, 6, f.goldenPos)]
  | 0x104 => f.faultSeq.toNat
  | 0x108 => regWord [(0, 16, f.lastCode), (16, 2, match f.lastClass with | some c => c.code | none => 0)]
  | 0x128 => satBits counters
  | _ => 0

/-! ### Housekeeping (R423, R452) -/

/-- THERM_STATE of die x (R452). -/
def Dev.thermCode (d : Dev) (x : Nat) : Nat :=
  if x = 6 then (if (d.thermal x).iodOver then 3 else 0)
  else if d.powerOff x then 2
  else if d.halved x then 1
  else 0

/-- The counters whose SAT bits stand at 0x070 (R423): the ten firmware processors', the event queues' and the trace's. -/
def Dev.fwCounters (d : Dev) : List Counter :=
  (List.range 10).map (fun p => (d.proc p).restarts) ++ [d.boot.evqDrop, d.boot.traceDrop]

/-- A read of the housekeeping block below 0x100 (R423). -/
def Dev.hkpWord (d : Dev) (off : Nat) : Nat :=
  let b := d.boot
  let stageBusy := match b.stage, b.warm with
    | .none, .reading _ => true
    | .none, _ => false
    | _, _ => true
  if 0x020 ≤ off && off < 0x040 then b.image.manifestDigest / 2 ^ (8 * (off - 0x020)) % 2 ^ 32
  else if 0x040 ≤ off && off < 0x068 then counterAt d.fwCounters ((off - 0x040) / 4)
  else if 0x080 ≤ off && off < 0x0A0 then
    let v := b.nv.erases.getD ((off - 0x080) / 8) 0
    if off % 8 = 0 then lowWord v else highWord v % 2 ^ 16
  else match off with
  | 0x000 => regWord [(0, 1, b.bootSlot.idx), (1, 1, bit b.slotFallback), (2, 1, bit b.noImage), (4, 4, b.failA.toNat),
                      (8, 4, b.failB.toNat), (12, 2, b.nv.lifecycle.code), (16, 7, b.nv.rollbackCount)]
  | 0x004 => b.image.manifest.serial.toNat
  | 0x008 => regWord [(0, 16, b.tFallbackMs.toNat), (16, 16, b.tSafeOkMs.toNat)]
  | 0x00C => b.tMainMs.toNat
  | 0x010 => regWord [(0, 4, b.warmStatus.toNat), (4, 4, b.warmCause.toNat)]
  | 0x014 => b.warmCount.val.toNat
  | 0x018 => regWord [(0, 4, b.stageStatus.toNat), (4, 1, bit stageBusy), (8, 8, b.stageSection.toNat)]
  | 0x068 => b.evqDrop.val.toNat
  | 0x06C => b.traceDrop.val.toNat
  | 0x070 => satBits d.fwCounters
  | 0x074 => b.logSeq.toNat
  | 0x078 => lowWord b.nv.serial.toNat
  | 0x07C => highWord b.nv.serial.toNat
  | _ => 0

/-- A read of the health and wear registers, from 0x100 of the housekeeping block (R452). -/
def Dev.healthWord (d : Dev) (off : Nat) : Nat :=
  let h := d.health
  let counters := [h.thermHalve, h.thermOff, h.railFault, h.healthEvents, h.ddrCorr]
  let rail (r : Nat) : RailState := bget {} r h.rails
  if 0x120 ≤ off && off < 0x13C then
    let t := d.thermal ((off - 0x120) / 4)
    regWord [(0, 16, signedWord 16 t.tjNow), (16, 16, signedWord 16 t.tjMax)]
  else if 0x140 ≤ off && off < 0x15C then
    let x := (off - 0x140) / 4
    let t := d.thermal x
    regWord [(0, 2, d.thermCode x), (8, 8, if x = 6 then 0 else t.halveTh), (16, 8, t.offTh),
             (24, 8, maskWord 0 (t.sensorsOut.filter (fun n => decide (n < 8))))]
  else if 0x160 ≤ off && off < 0x174 then counterAt counters ((off - 0x160) / 4)
  else if 0x180 ≤ off && off < 0x1B8 then satTo 0xFFFFFFFF ((rail ((off - 0x180) / 4)).em / 2 ^ 64)
  else if 0x200 ≤ off && off < 0x308 then
    let j := (off - 0x200) / 4
    regWord [(0, 16, bget 0 (2 * j) h.roShift), (16, 16, bget 0 (2 * j + 1) h.roShift)]
  else match off with
  | 0x100 => lowWord h.operS
  | 0x104 => highWord h.operS % 2 ^ 16
  | 0x108 => h.lifeH.toNat
  | 0x10C => h.lifeBandH.toNat
  | 0x110 => regWord [(0, 2, h.lifeMech.toNat), (2, 1, bit h.lifeWarn), (3, 1, bit h.wearRecLost)]
  | 0x114 => lowWord h.predTime
  | 0x118 => highWord h.predTime
  | 0x174 => satBits counters
  | 0x178 => maskWord 0 ((List.range 14).filter (fun r => (rail r).out))
  | 0x310 => lowWord h.canaryAll
  | 0x314 => highWord h.canaryAll % 2 ^ 16
  | _ => 0

/-! ### BAR0 (R344) -/

/-- What a word of BAR0 of port p holds (R344). -/
def Dev.barWord (d : Dev) (p off : Nat) : Nat :=
  if off < 0x1000 then d.hstWord p off
  else if 0x2000 ≤ off && off < 0x2200 then (bget 0 ((off - 0x2000) / 4) (d.port p).msixTable).toNat
  else if off = 0x3000 then (d.port p).msixPending.toNat
  else if barTime ≤ off && off < barTime + 0x100 then d.timeWord (off - barTime)
  else if barTsq ≤ off && off < barTsq + 0x4000 then d.tsqWord (off - barTsq)
  else if barMus ≤ off && off < barMus + 0x2000 then d.musWord (off - barMus)
  else if barTwd ≤ off && off < barTwd + 0x40 then d.tweed.word (off - barTwd)
  else if barTwd + 0x40 ≤ off && off < barTwd + 0x80 then d.tweedFb.word (off - (barTwd + 0x40))
  else if barChb ≤ off && off < barChb + 0x100 then
    (bget {} ((off - barChb) / 0x40) d.chambray.units : ChbUnit).word (off % 0x40)
  else if barDmk ≤ off && off < barDmk + 0x80 then d.dmkWord ((off - barDmk) / 0x40) (off % 0x40)
  else if barSrg ≤ off && off < barSrg + 0x2000 then d.srgWord (off - barSrg)
  else if barVlk ≤ off && off < barVlk + 0x1000 then d.vlkWord (off - barVlk)
  else if barHkp ≤ off && off < barHkp + 0x100 then d.hkpWord (off - barHkp)
  else if barHkp + 0x100 ≤ off && off < barHkp + 0x1000 then d.healthWord (off - barHkp)
  else 0

/-- The BAR0 offsets at which a read of port p answers: all of them, the housekeeping block alone where the device has no
image or is Retired (R407, R409), none while it is held in reset or the link is down. -/
def Dev.readable (d : Dev) (p off : Nat) : Bool :=
  (d.port p).linkUp &&
  (match d.boot.phase with
   | .held => false
   | .noImage | .retired => decide (barHkp ≤ off) && decide (off < barHkp + 0x1000)
   | _ => true)

/-- What a 32-bit read of BAR0 of port p returns at a word offset, none where the port does not answer (R344, R407, R409). -/
def Dev.readBar (d : Dev) (p off : Nat) : Option Word :=
  if d.readable p off then some (BitVec.ofNat 32 (d.barWord p off)) else none

end Sys2Proof.Machine
end

