-- ==== Sys2Proof/Machine/CoreWords.lean ====
section
/-!
DEFINITION. The 64-bit words of the cores' instruction memories: the fields and opcodes of R200 (spec/09_compute_fabric.md),
and the command that the word at a core's program counter spells.
-/

namespace Sys2Proof.Machine

open Sys2Proof

/-- What an execution of a word takes that the word does not hold: the outcome of its SRAM read, whether a vector operation
takes its lanes as INT32, and the element sub-formats of the operands' tensor descriptors (R197, R198, R207). -/
structure CoreSide where
  ecc : Ecc
  int : Bool
  subA : Bool
  subB : Bool
  deriving DecidableEq, Repr

/-- Bits of a word, from bit `lo`, `w` of them. -/
def wordField (x : BitVec 64) (lo w : Nat) : Nat := x.toNat / 2 ^ lo % 2 ^ w

/-- Register operand i of a word, 0 for the first, where it names a register of a file of n (R200). -/
def regField (n : Nat) (x : BitVec 64) (i : Nat) : Option (Fin n) :=
  let r := wordField x (8 + 5 * i) 5
  if h : r < n then some ⟨r, h⟩ else none

/-- The X register of operand i. -/
def xField (x : BitVec 64) (i : Nat) : Option (Fin 16) := regField 16 x i

/-- The V register of operand i. -/
def vField (x : BitVec 64) (i : Nat) : Option (Fin 32) := regField 32 x i

/-- The accumulator of operand i. -/
def accField (x : BitVec 64) (i : Nat) : Option (Fin 8) := regField 8 x i

/-- The loop counter of operand i. -/
def lcField (x : BitVec 64) (i : Nat) : Option (Fin 4) := regField 4 x i

/-- SUB. -/
def subField (x : BitVec 64) : Nat := wordField x 28 4

/-- IMM. -/
def immField (x : BitVec 64) : Word := BitVec.ofNat 32 (x.toNat / 2 ^ 32)

/-- IMM as an index below n, where it is one. -/
def immIndex (n : Nat) (x : BitVec 64) : Option (Fin n) :=
  if h : x.toNat / 2 ^ 32 < n then some ⟨x.toNat / 2 ^ 32, h⟩ else none

/-- The operations of VOP in the order in which R200 names them. -/
def vopOf (sub : Nat) : Option VOp :=
  [VOp.add, .sub, .mul, .fma, .min, .max, .cmpgt, .select, .abs, .neg, .and, .or, .xor, .shift][sub]?

/-- The functions of VFN in the order in which R200 names them. -/
def vfnOfSub (sub : Nat) : Option VFn := [VFn.exp2, .log2, .recip, .rsqrt][sub]?

/-- Loops and waits: opcodes 0x01 to 0x0A (R200). -/
def flowWord (cl : Fin 132) (co : Fin 64) (x : BitVec 64) : Option Instr :=
  match wordField x 0 8 with
  | 0x01 => some (.wstart cl co (immField x))
  | 0x02 => some (.endOp cl co)
  | 0x03 => some (.wtally cl co (Config.tallyOf x) (immField x))
  | 0x04 => (xField x 0).map (fun a => .signalOp cl co a)
  | 0x08 => (lcField x 0).map (fun l => .loopOp cl co l (immField x))
  | 0x09 => (lcField x 0).bind (fun l => (xField x 1).map (fun a => .loopx cl co l a (immField x)))
  | 0x0A => (lcField x 0).map (fun l => .endl cl co l)
  | _ => none

/-- X registers, loads and stores, transfers and the status word: opcodes 0x0C to 0x11 and 0x30 to 0x3C (R200). -/
def scalarWord (cl : Fin 132) (co : Fin 64) (s : CoreSide) (x : BitVec 64) : Option Instr :=
  match wordField x 0 8 with
  | 0x0C => (xField x 0).map (fun r => .movi cl co r (immField x))
  | 0x0D => (xField x 0).bind (fun r => (xField x 1).map (fun a => .addi cl co r a (immField x)))
  | 0x10 => (vField x 0).bind (fun v => (xField x 1).map (fun a => .ldv cl co v a (immField x) s.ecc))
  | 0x11 => (vField x 0).bind (fun v => (xField x 1).bind (fun a => (xField x 2).map (fun m => .stvm cl co v a m)))
  | 0x30 => (xField x 0).map (fun a => .dmaq cl co a)
  | 0x31 => some (.dmaw cl co (immField x))
  | 0x32 => (xField x 0).bind (fun a => (vField x 1).bind (fun v => (xField x 2).map (fun m => .radd cl co a v { mask := m, ecc := s.ecc })))
  | 0x38 => some (.setc cl co (immField x))
  | 0x3C => (xField x 0).map (fun a => .rdnsw cl co a)
  | _ => none

/-- The MAC array and the accumulators: opcodes 0x18 to 0x1C (R200). -/
def macWord (cl : Fin 132) (co : Fin 64) (s : CoreSide) (x : BitVec 64) : Option Instr :=
  match wordField x 0 8 with
  | 0x18 => (accField x 0).bind (fun a => (xField x 1).bind (fun xa => (xField x 2).bind (fun xb => (xField x 3).map (fun xk =>
      .mma cl co a xa xb xk (BitVec.ofNat 6 (wordField x 32 6)) s.subA s.subB s.ecc))))
  | 0x19 => (accField x 0).bind (fun a => if subField x < 2 then some (.accz cl co a (decide (subField x = 1))) else none)
  | 0x1A => (vField x 0).bind (fun v => (accField x 1).bind (fun a => (immIndex 8 x).map (fun c => .accrd cl co v a c)))
  | 0x1B => (accField x 0).bind (fun a => (vField x 1).bind (fun v => (immIndex 8 x).map (fun c => .accwr cl co a v c)))
  | 0x1C => (accField x 0).bind (fun a => (vField x 1).map (fun v => .accscl cl co a v))
  | _ => none

/-- The vector unit and the online-softmax group: opcodes 0x20 to 0x2B (R200). -/
def vectorWord (cl : Fin 132) (co : Fin 64) (s : CoreSide) (x : BitVec 64) : Option Instr :=
  (vField x 0).bind (fun d => (vField x 1).bind (fun a => (vField x 2).bind (fun b => (vField x 3).bind (fun c =>
    match wordField x 0 8 with
    | 0x20 => (vopOf (subField x)).map (fun op => .vop cl co op s.int d a b c)
    | 0x21 => some (.vcvt cl co d a s.int (formatOf (wordField x 32 4)) (decide (wordField x 36 1 = 1))
        (BitVec.ofNat 8 (wordField x 37 8)))
    | 0x22 => if subField x < 2 then some (.vred cl co d a (decide (subField x = 1))) else none
    | 0x23 => (vfnOfSub (subField x)).map (fun f => .vfn cl co d a f)
    | 0x28 => some (.smax cl co d a (immField x).toNat)
    | 0x29 => some (.sexp cl co d a b (immField x).toNat)
    | 0x2A => some (.srsc cl co d a b c)
    | 0x2B => some (.smrg cl co d a)
    | _ => none))))

/-- The opcodes of R200. -/
def opcodes : List Nat :=
  [0x01, 0x02, 0x03, 0x04, 0x08, 0x09, 0x0A, 0x0C, 0x0D, 0x10, 0x11, 0x18, 0x19, 0x1A, 0x1B, 0x1C, 0x20, 0x21, 0x22, 0x23,
   0x28, 0x29, 0x2A, 0x2B, 0x30, 0x31, 0x32, 0x38, 0x3C]

/-- The command that a word spells on a core (R200): an opcode that R200 does not name is an undefined opcode. A word whose
opcode is named and whose operand names no register, column or sub-operation spells none. -/
def coreCommand (cl : Fin 132) (co : Fin 64) (s : CoreSide) (x : BitVec 64) : Option Instr :=
  if !opcodes.contains (wordField x 0 8) then some (.undefinedOpcode cl co)
  else (flowWord cl co x).or ((scalarWord cl co s x).or ((macWord cl co s x).or (vectorWord cl co s x)))

/-- The command that a core that runs executes next (R200): what the word at its program counter spells. -/
def Dev.nextCommand (d : Dev) (cl : Fin 132) (co : Fin 64) (s : CoreSide) : Option Instr :=
  if d.coreRuns cl.val co.val then
    coreCommand cl co s (bget 0 (d.core (coreKey cl.val co.val)).pc (d.core (coreKey cl.val co.val)).imem)
  else none

end Sys2Proof.Machine
end

