-- ==== Sys2Proof/Safety.lean ====
section
/-!
DEFINITION. What counts as a safe run: the forms and rules of the state that every step keeps.
-/

namespace Sys2Proof.Machine

open Sys2Proof

/-- Memory is in its canonical form. -/
abbrev memOk (m : List Host.Cell) : Prop := memWf m = true

/-- The rule of the SAFE_OK pins (R379, R384): while SAFE_OK runs the two pins are each other's opposite and no fault of
class V is present; at any other time both are 0. -/
def pinsOk (s : SafeOk) (a b v : Bool) : Prop :=
  (s = .running → a = !b ∧ v = false) ∧ (s ≠ .running → a = false ∧ b = false)

/-- The rule of the SAFE_OK pins over a state. -/
def State.safePins (s : State) : Prop := pinsOk s.dev.felt.safeOk s.dev.felt.pinA s.dev.felt.pinB s.dev.felt.classV

/-- The state with another device and the same queue. -/
abbrev State.withDev (s : State) (d : Dev) : State := { s with dev := d }

/-! ### What a command may change -/

/-- The parts of the device (Sys2Proof/Machine/DevState.lean). -/
inductive Part where
  | time | muslin | ports | cal | tweed | tweedFb | chambray | fabric | plan | damask | serge | output
  | host | v0 | v1 | felt | ctrl | boot | recovery | health | mem | sent | freeCtr
  deriving DecidableEq, Repr

/-- Every part. -/
def Part.all : List Part :=
  [.time, .muslin, .ports, .cal, .tweed, .tweedFb, .chambray, .fabric, .plan, .damask, .serge, .output,
   .host, .v0, .v1, .felt, .ctrl, .boot, .recovery, .health, .mem, .sent, .freeCtr]

/-- A part is the same in two devices. -/
def Dev.same : Part → Dev → Dev → Prop
  | .time, a, b => a.time = b.time
  | .muslin, a, b => a.muslin = b.muslin
  | .ports, a, b => a.ports = b.ports
  | .cal, a, b => a.cal = b.cal
  | .tweed, a, b => a.tweed = b.tweed
  | .tweedFb, a, b => a.tweedFb = b.tweedFb
  | .chambray, a, b => a.chambray = b.chambray
  | .fabric, a, b => a.fabric = b.fabric
  | .plan, a, b => a.plan = b.plan
  | .damask, a, b => a.damask = b.damask
  | .serge, a, b => a.serge = b.serge
  | .output, a, b => a.output = b.output
  | .host, a, b => a.host = b.host
  | .v0, a, b => a.v0 = b.v0
  | .v1, a, b => a.v1 = b.v1
  | .felt, a, b => a.felt = b.felt
  | .ctrl, a, b => a.ctrl = b.ctrl
  | .boot, a, b => a.boot = b.boot
  | .recovery, a, b => a.recovery = b.recovery
  | .health, a, b => a.health = b.health
  | .mem, a, b => a.mem = b.mem
  | .sent, a, b => a.sent = b.sent
  | .freeCtr, a, b => a.freeCtr = b.freeCtr

/-- Two devices differ in the parts of `L` only. -/
structure OnlyIn (L : List Part) (a b : Dev) : Prop where
  keep : ∀ p, p ∉ L → Dev.same p a b

end Sys2Proof.Machine

namespace Sys2Proof

open Sys2Proof.Machine

/-- A step that ends in a next state. -/
def Completes (s : State) : Prop := ∃ t, step s = .next t

/-- The parts that a command may change: every other part is as before it. -/
def Instr.parts (i : Instr) : List Part :=
  match i with
  | .minorTickBoundary .. => [.time, .muslin, .chambray, .plan, .serge, .output, .host, .v0, .v1, .felt, .boot,
      .recovery, .health, .sent]
  | .majorTickBoundary .. => Part.all
  | .tickBroadcastArrival .. => [.time, .tweed, .chambray, .fabric, .plan, .damask, .host, .v0, .v1, .felt, .ctrl,
      .boot, .recovery, .health, .mem, .sent]
  | .windowRelease .. => [.tweed, .tweedFb, .chambray, .fabric, .plan, .serge, .output, .host, .v0, .v1, .felt,
      .boot, .health, .mem, .sent, .freeCtr]
  | .heldWindowRelease .. => [.tweed, .tweedFb, .chambray, .fabric, .plan, .serge, .output, .host, .v0, .v1, .felt,
      .boot, .health, .mem, .sent, .freeCtr]
  | .layerWatchdogExpiry .. => [.tweed, .chambray, .fabric, .plan, .damask, .host, .v0, .v1, .felt, .ctrl, .boot,
      .recovery, .health, .mem, .sent, .freeCtr]
  | .tweedStepTimerExpiry .. => [.tweed, .tweedFb, .chambray, .fabric, .plan, .damask, .host, .v0, .v1, .felt,
      .ctrl, .boot, .recovery, .health, .mem, .sent]
  | .chambrayTimerExpiry .. => [.tweed, .chambray, .fabric, .plan, .damask, .host, .v0, .v1, .felt, .ctrl, .boot,
      .recovery, .health, .mem, .sent, .freeCtr]
  | .assemblyTimerExpiry .. => [.chambray, .fabric, .plan, .output, .host, .v0, .v1, .felt, .boot, .health, .sent]
  | .assemblyComplete .. => [.plan, .output, .host, .v0, .v1, .felt, .boot, .health, .sent]
  | .stagingWindowEnd .. => [.fabric, .plan, .mem]
  | .transmitWindow .. => [.muslin, .plan, .serge, .output, .host, .v0, .v1, .felt, .boot, .health, .sent]
  | .vlinkFrameDone .. => [.host, .v0, .v1, .health, .sent]
  | .hostWindowEnd .. => [.fabric, .plan, .host, .health, .sent, .freeCtr]
  | .gateClose .. => [.muslin, .ports, .tweed, .tweedFb, .chambray, .host, .felt, .health, .sent]
  | .sliceTimerExpiry .. => [.muslin, .tweed, .tweedFb, .host, .health, .sent]
  | .deferredInsertion .. => [.muslin, .tweed, .tweedFb, .host, .health, .sent]
  | .tweedTableRelease .. => [.tweed, .tweedFb]
  | .syncFollowUpReceived .. => [.time, .host, .felt, .health, .sent]
  | .announceReceived .. => [.time, .host, .felt, .health, .sent]
  | .vehicleTimeLoss .. => [.time, .host, .felt, .health, .sent]
  | .pdelayReqTimer .. => [.time, .ports, .sent]
  | .pdelayReqReceived .. => [.sent]
  | .pdelayRespReceived .. => [.time, .ports, .host, .felt, .health, .sent]
  | .v1GptpFrame .. => [.time, .host, .health, .sent]
  | .lidarSyncSend .. => [.time, .ports, .sent]
  | .lidarAnnounceSend .. => [.time, .ports, .sent]
  | .lidarGptpReceived .. => [.time, .ports, .host, .health, .sent]
  | .lidarFrameReceived .. => [.muslin, .ports, .tweed, .tweedFb, .host, .health, .sent]
  | .lidarLinkDown .. => [.ports, .host, .health, .sent]
  | .lidarLinkUp .. => [.ports]
  | .triggerSend .. => [.ports, .host, .health, .sent]
  | .csi2PacketReceived .. => [.muslin, .ports, .host, .health, .sent]
  | .linkLockLoss .. => [.ports, .host, .health, .sent]
  | .retrainIntervalExpiry .. => [.ports]
  | .trainingSuccess .. => [.ports, .sent]
  | .trainingTimeout .. => [.ports, .host, .health, .sent]
  | .cciAck .. => [.ports, .host, .health, .sent]
  | .cciTimeout .. => [.ports, .host, .health, .sent]
  | .statisticsComplete .. => [.ports, .sent]
  | .percaleBandDone .. => [.ports, .mem]
  | .imuSyncPulse .. => [.ports, .sent]
  | .imuDrdyEdge .. => [.ports, .host, .health, .sent]
  | .imuTransactionDone .. => [.muslin, .ports, .host, .health, .sent]
  | .imuMissedSample .. => [.ports, .host, .health, .sent]
  | .canFrameReceived .. => [.muslin, .ports, .host, .health, .sent]
  | .gnssSentenceReceived .. => [.muslin, .ports, .host, .health, .sent]
  | .gnssPpsEdge .. => [.time, .ports, .host, .health, .sent]
  | .ppsMissingTimeout .. => [.time]
  | .gnssPairTimeout .. => [.ports, .host, .health, .sent]
  | .absenceTimeout .. => [.muslin, .ports, .host, .health, .sent]
  | .wstart .. => [.fabric]
  | .endOp .. => [.fabric, .plan]
  | .wtally .. => [.fabric, .mem]
  | .signalOp .. => [.fabric, .mem]
  | .loopOp .. => [.fabric]
  | .loopx .. => [.fabric]
  | .endl .. => [.fabric]
  | .movi .. => [.fabric]
  | .addi .. => [.fabric]
  | .ldv .. => [.tweed, .chambray, .fabric, .plan, .damask, .host, .v0, .v1, .felt, .ctrl, .boot, .recovery,
      .health, .mem, .sent]
  | .stvm .. => [.fabric, .mem]
  | .mma .. => [.tweed, .chambray, .fabric, .plan, .damask, .host, .v0, .v1, .felt, .ctrl, .boot, .recovery,
      .health, .mem, .sent]
  | .accz .. => [.fabric]
  | .accrd .. => [.fabric]
  | .accwr .. => [.fabric]
  | .accscl .. => [.fabric]
  | .vop .. => [.fabric]
  | .vcvt .. => [.fabric]
  | .vred .. => [.fabric]
  | .vfn .. => [.fabric]
  | .smax .. => [.fabric]
  | .sexp .. => [.fabric]
  | .srsc .. => [.fabric]
  | .smrg .. => [.fabric]
  | .dmaq .. => [.fabric]
  | .dmaw .. => [.fabric]
  | .radd .. => [.tweed, .chambray, .fabric, .plan, .damask, .host, .v0, .v1, .felt, .ctrl, .boot, .recovery,
      .health, .mem, .sent]
  | .setc .. => [.fabric]
  | .rdnsw .. => [.fabric]
  | .undefinedOpcode .. => [.tweed, .chambray, .fabric, .plan, .damask, .host, .v0, .v1, .felt, .ctrl, .boot,
      .recovery, .health, .mem, .sent]
  | .transferStart .. => [.tweed, .chambray, .fabric, .plan, .damask, .host, .v0, .v1, .felt, .ctrl, .boot,
      .recovery, .health, .mem, .sent]
  | .transferComplete .. => [.tweed, .chambray, .fabric, .plan, .damask, .serge, .host, .v0, .v1, .felt, .ctrl,
      .boot, .recovery, .health, .mem, .sent, .freeCtr]
  | .transferTimeout .. => [.chambray, .fabric, .plan, .serge, .host, .v0, .v1, .felt, .boot, .health, .mem, .sent,
      .freeCtr]
  | .scrubAccess .. => [.tweed, .chambray, .fabric, .plan, .damask, .host, .v0, .v1, .felt, .ctrl, .boot,
      .recovery, .health, .mem, .sent]
  | .burlapClusterReloadDone .. => [.fabric, .mem]
  | .linkTransactionTimeout .. => [.tweed, .chambray, .fabric, .plan, .damask, .host, .v0, .v1, .felt, .ctrl,
      .boot, .recovery, .health, .mem, .sent]
  | .flitCrcError .. => [.fabric, .host, .health, .sent]
  | .create .. => [.chambray, .fabric, .plan, .damask, .host, .v0, .v1, .felt, .boot, .health, .mem, .sent]
  | .openView .. => [.chambray, .fabric, .plan, .damask, .host, .v0, .v1, .felt, .boot, .health, .mem, .sent]
  | .appendTok .. => [.chambray, .fabric, .plan, .damask, .host, .v0, .v1, .felt, .boot, .health, .mem, .sent,
      .freeCtr]
  | .forkSeq .. => [.chambray, .fabric, .plan, .damask, .host, .v0, .v1, .felt, .boot, .health, .mem, .sent, .freeCtr]
  | .freeSeq .. => [.chambray, .fabric, .plan, .damask, .host, .v0, .v1, .felt, .boot, .health, .mem, .sent]
  | .restore .. => [.chambray, .fabric, .plan, .damask, .host, .v0, .v1, .felt, .boot, .health, .mem, .sent]
  | .openQueue .. => [.chambray, .fabric, .plan, .damask, .host, .v0, .v1, .felt, .boot, .health, .mem, .sent,
      .freeCtr]
  | .damaskReservedOp .. => [.chambray, .fabric, .plan, .damask, .host, .v0, .v1, .felt, .boot, .health, .mem, .sent]
  | .epochClose .. => [.damask, .host, .health, .sent]
  | .solveEnd .. => [.cal, .plan, .serge, .output, .host, .felt, .health, .sent, .freeCtr]
  | .sergeDeadline .. => [.cal, .plan, .serge, .output, .host, .felt, .health, .sent, .freeCtr]
  | .sergeStopTimeout .. => [.plan, .serge, .host, .v0, .v1, .felt, .boot, .health, .sent]
  | .sergeUnitResetDone .. => [.plan, .serge, .host, .v0, .v1, .felt, .ctrl, .boot, .recovery, .health, .sent]
  | .goldenSegmentEnd .. => [.tweed, .chambray, .fabric, .plan, .damask, .host, .v0, .v1, .felt, .ctrl, .boot,
      .recovery, .health, .mem, .sent]
  | .goldenBudgetTimer .. => [.fabric, .plan, .host, .felt, .health, .sent]
  | .resumeCountExpiry .. => [.host, .v0, .v1, .felt, .health, .sent]
  | .selfCheckPass .. => [.felt]
  | .lockstepMismatch .. => [.host, .v0, .v1, .felt, .boot, .health, .sent]
  | .refclkLoss .. => [.host, .v0, .v1, .felt, .boot, .health, .sent]
  | .fabricError .. => [.host, .v0, .v1, .felt, .boot, .health, .sent]
  | .fwWatchdogExpiry .. => [.tweed, .chambray, .fabric, .plan, .damask, .host, .v0, .v1, .felt, .ctrl, .boot,
      .recovery, .health, .mem, .sent]
  | .reloadDone .. => [.tweed, .chambray, .fabric, .damask, .recovery, .mem]
  | .restartTimeout .. => [.fabric, .plan, .host, .v0, .v1, .felt, .ctrl, .boot, .recovery, .health, .sent]
  | .dieAdmissionReport .. => [.tweed, .chambray, .fabric, .plan, .damask, .host, .v0, .v1, .felt, .ctrl, .boot,
      .recovery, .health, .mem, .sent]
  | .admissionDeadline .. => [.plan, .host, .ctrl, .recovery, .health, .sent]
  | .healthDeadline .. => Part.all
  | .powerOnReset .. => Part.all
  | .deviceReset .. => Part.all
  | .sectionVerified .. => Part.all
  | .phase0Loaded .. => Part.all
  | .slotVerified .. => Part.all
  | .imageBlockTimeout .. => Part.all
  | .warmReadDone .. => [.serge, .host, .boot, .health, .sent]
  | .dieReload .. => [.tweed, .chambray, .fabric, .damask, .recovery, .mem]
  | .sessionOpen .. => [.host, .health, .sent, .freeCtr]
  | .sessionClose .. => [.damask, .host, .health, .sent, .freeCtr]
  | .attestReportDone .. => [.host, .health, .sent, .freeCtr]
  | .attestTimeout .. => [.damask, .host, .health, .sent]
  | .hstHeartbeat .. => [.host]
  | .hbWarn .. => [.host, .sent]
  | .heartbeatTimeout .. => [.damask, .host, .health, .sent, .freeCtr]
  | .hstSqTail .. => [.host, .health, .sent]
  | .hstCqHead .. => [.host, .health, .sent]
  | .hstSrCons .. => [.host, .health, .sent]
  | .hstIntStatus .. => [.host]
  | .registerWrite .. => [.damask, .host, .health, .sent, .freeCtr]
  | .pcieLinkEvent .. => [.damask, .host, .health, .sent]
  | .dmaReadFault .. => [.damask, .host, .health, .sent, .freeCtr]
  | .submissionFetch .. => [.plan, .host, .health, .sent, .freeCtr]
  | .runModel .. => [.plan, .host, .health, .sent, .freeCtr]
  | .readGrid .. => [.plan, .host, .health, .sent, .freeCtr]
  | .readTrack .. => [.plan, .host, .health, .sent, .freeCtr]
  | .hostFork .. => [.plan, .damask, .host, .health, .mem, .sent, .freeCtr]
  | .freeFork .. => [.plan, .damask, .host, .health, .sent, .freeCtr]
  | .subscribe .. => [.host, .health, .sent, .freeCtr]
  | .unsubscribe .. => [.host, .health, .sent, .freeCtr]
  | .attest .. => [.host]
  | .privClaim .. => [.host, .health, .sent, .freeCtr]
  | .privVerifyDone .. => [.host, .health, .sent, .freeCtr]
  | .stageWrite .. => [.host, .boot, .health, .sent, .freeCtr]
  | .stageCommit .. => [.host, .boot, .health, .sent, .freeCtr]
  | .stageCommitDone .. => [.host, .boot, .health, .sent, .freeCtr]
  | .setTraceMask .. => [.host, .boot, .health, .sent, .freeCtr]
  | .warmStart .. => [.damask, .host, .ctrl, .boot, .health, .sent, .freeCtr]
  | .unlistedOp .. => [.host, .health, .sent, .freeCtr]
  | .modeRequest .. => [.plan, .host, .v0, .v1, .ctrl, .health, .sent]
  | .warmStartConsent .. => [.host, .v0, .v1, .ctrl, .health, .sent]
  | .controllerHeartbeat .. => [.host, .v0, .v1, .ctrl, .health, .sent]
  | .ctrlSilenceTimeout .. => [.plan, .host, .felt, .ctrl, .health, .sent]
  | .consentExpiry .. => [.ctrl]
  | .vlinkLinkDown .. => [.time, .host, .v0, .v1, .felt, .boot, .health, .sent]
  | .tempSample .. => Part.all
  | .thermalRestoreTimer .. => [.host, .recovery, .health, .sent]
  | .railExcursion .. => [.tweed, .chambray, .fabric, .plan, .damask, .host, .v0, .v1, .felt, .boot, .recovery,
      .health, .mem, .sent]
  | .railOvercurrent .. => [.chambray, .fabric, .plan, .host, .v0, .v1, .felt, .boot, .health, .sent]
  | .railRestoreTimer .. => [.host, .felt, .recovery, .health, .sent]
  | .vddXUndervoltageTimer .. => Part.all
  | .memoryRailResetTimer .. => Part.all
  | .limitWrite .. => [.host, .boot, .health, .sent]
  | .emEstimatorSample .. => [.health]
  | .eyeMarginSample .. => [.ports, .v0, .v1, .health]
  | .canaryFailure .. => [.health]
  | .wearRecordWrite .. => [.boot, .health, .sent]
  | .lifePrediction .. => [.host, .boot, .health, .sent]
  | .tracePoint .. => [.host, .boot, .health, .sent]
  | .tapInstruction .. => [.boot]
  | .tsqDevtimeLoRead .. => [.time]
  | .tsqPpsStampLoRead .. => [.time]
  | .musLastTimeLoRead .. => [.muslin]
  | .exposureUsRead .. => [.ports]
  | .tsqPendingKLoRead .. => [.plan]
  | .srgCalGenRead .. => [.cal]
  | .lastEndLoRead .. => [.serge]
  | .vlinkLinkUp .. => [.v0, .v1, .felt]
  | .refclkReturn .. => [.felt, .boot]
  | .tickIntervalTimeout .. => [.host, .v0, .v1, .felt, .boot, .health, .sent]
  | .servoSaturationSecond .. => [.time, .host, .health, .sent]
  | .reacquisitionPeriodEnd .. => [.muslin]
  | .initWaitExpiry .. => [.ports, .sent]
  | .canProtocolError .. => [.ports, .host, .health, .sent]
  | .unacceptedControllerFrame .. => [.host, .v0, .v1, .health, .sent]
  | .sergeUncorrectableSramError .. => [.plan, .serge, .host, .v0, .v1, .felt, .boot, .health, .sent]
  | .stageWriteDone .. => [.host, .boot, .health, .sent, .freeCtr]
  | .firmwareRestartComplete .. => [.tweed, .chambray, .fabric, .plan, .damask, .host, .v0, .v1, .felt, .ctrl,
      .boot, .recovery, .health, .mem, .sent]
  | .porstNAsserted .. => [.felt, .boot, .sent]

/-- The commands that reset the device or may do so: the resets themselves, the deadlines and rail timers that cause
one, a temperature sample (THERM_TRIP_N), and the reading of an image block, which resets a device whose last slot
fails and starts the sequencer of one that verifies. -/
def Instr.mayReset (i : Instr) : Bool :=
  match i with
  | .healthDeadline .. => true
  | .powerOnReset .. => true
  | .deviceReset .. => true
  | .sectionVerified .. => true
  | .phase0Loaded .. => true
  | .slotVerified .. => true
  | .imageBlockTimeout .. => true
  | .tempSample .. => true
  | .vddXUndervoltageTimer .. => true
  | .memoryRailResetTimer .. => true
  | _ => false

/-- The cluster and core of a core's instruction (R200). -/
def Instr.onCore : Instr → Option (Fin 132 × Fin 64)
  | .wstart cl co .. => some (cl, co)
  | .endOp cl co .. => some (cl, co)
  | .wtally cl co .. => some (cl, co)
  | .signalOp cl co .. => some (cl, co)
  | .loopOp cl co .. => some (cl, co)
  | .loopx cl co .. => some (cl, co)
  | .endl cl co .. => some (cl, co)
  | .movi cl co .. => some (cl, co)
  | .addi cl co .. => some (cl, co)
  | .ldv cl co .. => some (cl, co)
  | .stvm cl co .. => some (cl, co)
  | .mma cl co .. => some (cl, co)
  | .accz cl co .. => some (cl, co)
  | .accrd cl co .. => some (cl, co)
  | .accwr cl co .. => some (cl, co)
  | .accscl cl co .. => some (cl, co)
  | .vop cl co .. => some (cl, co)
  | .vcvt cl co .. => some (cl, co)
  | .vred cl co .. => some (cl, co)
  | .vfn cl co .. => some (cl, co)
  | .smax cl co .. => some (cl, co)
  | .sexp cl co .. => some (cl, co)
  | .srsc cl co .. => some (cl, co)
  | .smrg cl co .. => some (cl, co)
  | .dmaq cl co .. => some (cl, co)
  | .dmaw cl co .. => some (cl, co)
  | .radd cl co .. => some (cl, co)
  | .setc cl co .. => some (cl, co)
  | .rdnsw cl co .. => some (cl, co)
  | .undefinedOpcode cl co .. => some (cl, co)
  | _ => none

/-- A core's instruction is the one that the word at its program counter spells (R200): what a run keeps to in which the cores
execute their own programs. -/
def State.spelt (s : State) (i : Instr) : Prop :=
  ∀ cl co, i.onCore = some (cl, co) → ∃ side, s.dev.nextCommand cl co side = some i

/-- The memory that a core's command addresses, and its alignment, exist (R196, R200): what its completion takes besides a
core that runs. Every other command addresses none. -/
def Instr.reaches (i : Instr) (d : Dev) : Bool :=
  match i with
  | .ldv cl co _ a imm _ => (coreRange cl.val co.val ((d.core (coreKey cl.val co.val)).xr a + imm).toNat 64).isSome
  | .stvm cl co _ a m =>
    (lanePlaces cl.val co.val ((d.core (coreKey cl.val co.val)).xr a).toNat ((d.core (coreKey cl.val co.val)).xr m)).isSome
  | .mma cl co _ xa xb xk fmt subA subB _ =>
    let c := d.core (coreKey cl.val co.val)
    match fmtPair fmt subA subB with
    | none => true
    | some (fa, fb, _) => decide ((c.xr xk).toInt ≤ 0) ||
      ((coreRange cl.val co.val (c.xr xa).toNat (16 * rowStride fa (c.xr xk).toNat)).isSome &&
        (coreRange cl.val co.val (c.xr xb).toNat (8 * rowStride fb (c.xr xk).toNat)).isSome)
  | .radd cl co x _ m =>
    let c := d.core (coreKey cl.val co.val)
    decide (0x1000000 ≤ (c.xr x).toNat) && (lanePlaces cl.val co.val (c.xr x).toNat (c.xr m.mask)).isSome
  | .dmaq cl co x =>
    let a := ((d.core (coreKey cl.val co.val)).xr x).toNat
    decide (a % 8 = 0) && decide (0x1000000 ≤ a) && (coreRange cl.val co.val a 0x40).isSome
  | _ => true

/-- A core's command on a core that does not run: it waits. -/
def Instr.idle (i : Instr) (d : Dev) : Bool :=
  match i.onCore with
  | some (cl, co) => !d.coreRuns cl.val co.val
  | none => false

/-! ### A conforming servo (R496) -/

/-- What a run of devices meets outside: at each of its points, whether the grandmaster meets R462, the mean link delay stays
within 100 ns and no step or loss occurs (R496), and the rate of vehicle time against REFCLK's in 10^-11. -/
structure VehicleSide where
  steady : Nat → Prop
  rate : Nat → Int

/-- A run in which the servo conforms (R30, R496), whatever its gains and its filter: under the three conditions it reaches LOCKED
within 60 s of entering ACQUIRING and holds the residual frequency error within 0.05 ppm while LOCKED, and its adjustment
never leaves 250 ppm. -/
def ServoConforms (run : Nat → Dev) (v : VehicleSide) : Prop :=
  (∀ i n, (run i).time.servo.state ≠ .acquiring → (run (i + 1)).time.servo.state = .acquiring →
    (∀ j, i < j → j ≤ n → v.steady j) → (run (i + 1)).now + 60 * secNs < (run n).now →
    ∃ j, i < j ∧ j ≤ n ∧ (run j).now ≤ (run (i + 1)).now + 60 * secNs ∧ (run j).time.servo.state = .locked) ∧
  (∀ i, (run i).time.servo.state = .locked → v.steady i → (v.rate i - (run i).time.freq).natAbs ≤ 5000) ∧
  (∀ i, (run i).time.freq.natAbs ≤ 25000000)

end Sys2Proof
end

