-- ==== Sys2Proof/Certificates/Slice0/Obligations.lean ====
section
/-!
DEFINITION. The statements for the provers. Each docstring says what it states; OBLIGATIONS.json names the rules.
-/

open Sys2Proof Sys2Proof.Machine

/-- For every command c, every rest of the queue and every state, a step of the state whose queue is c followed by the
rest is exec of c on the state with the rest as its queue. On an empty queue (the model's choice, log entry 1) a
step answers a next state with an empty queue; unless the device is held in reset its device time is what one cycle
of the time clock makes of it, with the fractional accumulator and the frequency adjustment of R22; held in reset it
stays. (spec/00_introduction.md, R22) -/
def Obligations.StepRunsFrontCommand : Prop :=
  (∀ (c : Instr) (rest : List Instr) (s : State),
    step { s with pending := c :: rest } = exec c { s with pending := rest }) ∧
  (∀ s : State, s.pending = [] →
    ∃ t, step s = .next t ∧ t.pending = [] ∧
      (s.dev.boot.phase ≠ .held →
        (t.dev.time.dev, t.dev.time.frac) = advance s.dev.time.dev s.dev.time.frac s.dev.time.freq) ∧
      (s.dev.boot.phase = .held → t.dev.time.dev = s.dev.time.dev))

/-- The only stop of the model. For every one of the 193 commands, every operand and every state: where the memory that
the command addresses exists (Instr.reaches of Sys2Proof/Safety.lean; it is true of every command but LDV, STVM,
MMA, RADD and DMAQ), exec answers a next state with the same queue. Where one of the five addresses memory that the
core cannot reach, exec answers the fault coreAddress, except on a core that does not run, which waits: there the
state is as before. No command is refused. (spec/opcode_table.json, R196, R200) -/
def Obligations.EveryCommandCompletes : Prop :=
  ∀ (i : Instr) (s : State),
    (i.reaches s.dev = true → ∃ t, exec i s = .next t ∧ t.pending = s.pending) ∧
    (i.idle s.dev = true → exec i s = .next s) ∧
    (i.reaches s.dev = false → i.idle s.dev = false → exec i s = .fault .coreAddress)

/-- The table of the spec gives none of its rows bits: no word of any length spells a command, and a fetch word leaves
every state as it is. The 64-bit word in a core's instruction memory does spell one, whatever the bits of its unused
fields: the opcode in bits [7:0], register operands of five bits from bit 8 on, SUB in [31:28], IMM in [63:32]. So
stated of MOVI, ADDI, LDV, WSTART, END and LOOP; a word whose opcode R200 does not name is an undefined opcode.
(spec/opcode_table.json, R200) -/
def Obligations.WordsOfTheTableAndTheCores : Prop :=
  (∀ nbits w : Nat, decodeTableWord nbits w = none) ∧
  (∀ (s : State) (nbits w : Nat), s.withFetchWord nbits w = s) ∧
  (∀ (cl : Fin 132) (co : Fin 64) (side : CoreSide) (x : BitVec 64) (imm : Word), imm = BitVec.ofNat 32 (x.toNat / 2 ^ 32) →
    (∀ r : Fin 16, x.toNat % 2 ^ 8 = 0x0C → x.toNat / 2 ^ 8 % 2 ^ 5 = r.val →
      coreCommand cl co side x = some (.movi cl co r imm)) ∧
    (∀ r a : Fin 16, x.toNat % 2 ^ 8 = 0x0D → x.toNat / 2 ^ 8 % 2 ^ 5 = r.val → x.toNat / 2 ^ 13 % 2 ^ 5 = a.val →
      coreCommand cl co side x = some (.addi cl co r a imm)) ∧
    (∀ (v : Fin 32) (a : Fin 16), x.toNat % 2 ^ 8 = 0x10 → x.toNat / 2 ^ 8 % 2 ^ 5 = v.val →
      x.toNat / 2 ^ 13 % 2 ^ 5 = a.val → coreCommand cl co side x = some (.ldv cl co v a imm side.ecc)) ∧
    (x.toNat % 2 ^ 8 = 0x01 → coreCommand cl co side x = some (.wstart cl co imm)) ∧
    (x.toNat % 2 ^ 8 = 0x02 → coreCommand cl co side x = some (.endOp cl co)) ∧
    (∀ l : Fin 4, x.toNat % 2 ^ 8 = 0x08 → x.toNat / 2 ^ 8 % 2 ^ 5 = l.val →
      coreCommand cl co side x = some (.loopOp cl co l imm)) ∧
    (opcodes.contains (x.toNat % 2 ^ 8) = false → coreCommand cl co side x = some (.undefinedOpcode cl co)))

/-- For every state whose memory lists rising addresses and no entry that equals what an unlisted address reads as,
every step that answers a next state gives one whose memory is in that form: stores of cores and transfers, Damask's
copies, Percale's writes and the zeroing of a restart all keep it. (R210, R428, R94) -/
def Obligations.EveryStepKeepsMemoryCanonical : Prop :=
  ∀ s t : State, memOk s.dev.mem → step s = .next t → memOk t.dev.mem

/-- While SAFE_OK runs its two pins are each other's opposite and no class V condition is in force; whenever it is not
started or stopped both pins are 0. Every step that answers a next state keeps this, so the pair (1, 1), which the
spec says is never driven, never appears. (R379, R380, R384, R387) -/
def Obligations.EveryStepKeepsSafeOkRule : Prop :=
  ∀ s t : State, s.safePins → step s = .next t → t.safePins

/-- The memory of the state after reset is in its canonical form (it lists nothing), both SAFE_OK pins are 0 with
SAFE_OK not started, no command waits, and the device is not past phase 0 of its start. (R379, R482) -/
def Obligations.ResetStateIsCanonical : Prop :=
  memOk State.reset.dev.mem ∧ State.reset.safePins ∧ State.reset.dev.felt.safeOk = .notStarted ∧
    State.reset.pending = [] ∧ State.reset.dev.boot.phase = .phase0

/-- Over every step that answers a next state: the count of burnt rollback fuses never falls, and a device that is
Retired stays Retired. Resets are steps too, so the fuses outlive them. (R406, R407) -/
def Obligations.FusesOnlyBurn : Prop :=
  ∀ s t : State, step s = .next t →
    s.dev.boot.nv.rollbackCount ≤ t.dev.boot.nv.rollbackCount ∧
    (s.dev.boot.nv.lifecycle = .retired → t.dev.boot.nv.lifecycle = .retired)

/-- For every command that neither resets the device nor may reset it (Instr.mayReset of Sys2Proof/Safety.lean names
those): device time and whether the sequencer runs are as before it, and k, m, the next minor tick, B_k and whether
B_0 has come change by MINOR_TICK_BOUNDARY and MAJOR_TICK_BOUNDARY only. (R22, R24, R25) -/
def Obligations.CommandsNeverStepDeviceTime : Prop :=
  ∀ (i : Instr) (s t : State), i.mayReset = false → exec i s = .next t →
    t.dev.time.dev = s.dev.time.dev ∧ t.dev.time.running = s.dev.time.running ∧
    ((∀ n, i ≠ .minorTickBoundary n) → i ≠ .majorTickBoundary →
      t.dev.time.k = s.dev.time.k ∧ t.dev.time.m = s.dev.time.m ∧ t.dev.time.nextM = s.dev.time.nextM ∧
      t.dev.time.bk = s.dev.time.bk ∧ t.dev.time.begun = s.dev.time.begun)

/-- For every command other than MAJOR_TICK_BOUNDARY that neither resets the device nor may reset it: the mode in force,
the three parts of the plan epoch (the image loads, the mode, the switches), P, N, D and whether the tick is a
transition tick are as before it. A request, a search, a warm start's reading or a restart changes none of them by
itself. (R26, R252, R253, R264) -/
def Obligations.PlanChangesAtMajorBoundariesOnly : Prop :=
  ∀ (i : Instr) (s t : State), i.mayReset = false → i ≠ .majorTickBoundary → exec i s = .next t →
    t.dev.plan.modeInForce = s.dev.plan.modeInForce ∧ t.dev.plan.epochLoad = s.dev.plan.epochLoad ∧
    t.dev.plan.epochMode = s.dev.plan.epochMode ∧ t.dev.plan.epochSwitch = s.dev.plan.epochSwitch ∧
    t.dev.time.pMs = s.dev.time.pMs ∧ t.dev.time.n = s.dev.time.n ∧ t.dev.time.dMinor = s.dev.time.dMinor ∧
    t.dev.time.transition = s.dev.time.transition

/-- The frame of all 193 commands. Instr.parts (Sys2Proof/Safety.lean) names for each command the parts of the device it
may change; after every next state every other part is as before it, and the queue is as before it. So no command
but those that name memory changes a byte of it, none but those that name the core fabric a core's register, none
but those that name a host port's registers one of them, and so on for the calibration copies, Damask, Serge, the
vehicle ports, the fuses and the rest. The commands that may reset the device name every part.
(spec/00_introduction.md) -/
def Obligations.EveryCommandKeepsItsFrame : Prop :=
  ∀ (i : Instr) (s t : State), exec i s = .next t → OnlyIn i.parts s.dev t.dev ∧ t.pending = s.pending

/-- When the sequencer runs and the next minor tick's boundary has come, MINOR_TICK_BOUNDARY makes it the current one: m
becomes its index, the next index is one more, and k, B_k and device time stay. When the next tick is due (majorDue:
B_0 has come, or all N minor ticks of the tick have begun and P has passed), MAJOR_TICK_BOUNDARY makes it the
current one: k and B_k are its own, its first minor tick is next, device time stays. A broadcast that reaches an
admitted die whose k and epoch agree and whose time is within 1 ns is taken and changes only that die's next
frequency. (R24, R25, R51, R52, R53) -/
def Obligations.TickBoundariesAdvance : Prop :=
  (∀ (s : State) (interval : Nat), s.dev.time.running = true → s.dev.time.begun = true →
    s.dev.time.nextM < s.dev.time.minors → s.dev.time.nextBoundary ≤ s.dev.time.dev →
    ∃ t, exec (.minorTickBoundary interval) s = .next t ∧ t.dev.time.m = s.dev.time.nextM ∧
      t.dev.time.nextM = s.dev.time.nextM + 1 ∧ t.dev.time.k = s.dev.time.k ∧ t.dev.time.bk = s.dev.time.bk ∧
      t.dev.time.dev = s.dev.time.dev) ∧
  (∀ (s : State) (k : Nat) (b : Nanos), s.dev.majorDue = some (k, b) →
    ∃ t, exec .majorTickBoundary s = .next t ∧ t.dev.time.k = k ∧ t.dev.time.bk = b ∧ t.dev.time.nextM = 0 ∧
      t.dev.time.begun = true ∧ t.dev.time.dev = s.dev.time.dev) ∧
  (∀ (s : State) (die : Fin 6) (b : Broadcast), (s.dev.die die.val).broadcast = some b →
    (s.dev.die die.val).state = .admitted → (s.dev.die die.val).resync = false →
    (s.dev.die die.val).localK = b.k → (s.dev.die die.val).localEpoch = b.epoch →
    (s.dev.die die.val).localTime ≤ b.time + (s.dev.die die.val).latency + 1 →
    b.time + (s.dev.die die.val).latency ≤ (s.dev.die die.val).localTime + 1 →
    exec (.tickBroadcastArrival die) s =
      .next (s.withDev (s.dev.setDie die.val
        { s.dev.die die.val with broadcast := none, localFreqNext := b.freq })))

/-- A broadcast whose instant differs by more than 1 ns from the copy of an admitted die, or whose k or epoch differ, is
taken, counts TSQ_SKEW_FAULT_COUNT once for each of the two faults, discards the ended tick's windows where k or the
epoch differ, and restarts the die once, with cause 2 for a skew and 3 otherwise. (R52, R53, R432) -/
def Obligations.SkewRestartsTheDie : Prop :=
  (∀ (s : State) (die : Fin 6) (b : Broadcast), (s.dev.die die.val).broadcast = some b →
    (s.dev.die die.val).state = .admitted → (s.dev.die die.val).resync = false →
    (s.dev.die die.val).localK = b.k → (s.dev.die die.val).localEpoch = b.epoch →
    (b.time + (s.dev.die die.val).latency + 1 < (s.dev.die die.val).localTime ∨
      (s.dev.die die.val).localTime + 1 < b.time + (s.dev.die die.val).latency) →
    exec (.tickBroadcastArrival die) s =
      .next (s.withDev (restartDie die.val causeSkew
        (countSkew (s.dev.setDie die.val { s.dev.die die.val with broadcast := none }))))) ∧
  (∀ (s : State) (die : Fin 6) (b : Broadcast), (s.dev.die die.val).broadcast = some b →
    (s.dev.die die.val).state = .admitted → (s.dev.die die.val).resync = false →
    ((s.dev.die die.val).localK ≠ b.k ∨ (s.dev.die die.val).localEpoch ≠ b.epoch) →
    (s.dev.die die.val).localTime ≤ b.time + (s.dev.die die.val).latency + 1 →
    b.time + (s.dev.die die.val).latency ≤ (s.dev.die die.val).localTime + 1 →
    exec (.tickBroadcastArrival die) s =
      .next (s.withDev (restartDie die.val causeEpoch (countSkew (discardEnded die.val s.dev.time.k
        (s.dev.setDie die.val { s.dev.die die.val with broadcast := none }))))))

/-- A planned window (no TRANSMIT window) of an open tick that is no transition tick, whose opening has come by the
clock of its release engine: where its die, unit or partition cannot run it, WINDOW_RELEASE marks it missing with
that cause; where its place can and its cores are still in an earlier window it is held and nothing else changes;
otherwise it is released, by its kind. Before its opening nothing happens. In a transition tick WINDOW_RELEASE goes
by that tick's own rule (releaseTransition). A held window, and a unit's window whose opening has passed, is
released by HELD_WINDOW_RELEASE when its place is free, after TSQ_HELD_RELEASE_COUNT has counted; where the place
cannot run it it is marked missing. (R27, R247, R428, R442) -/
def Obligations.WindowsAreReleasedOrHeld : Prop :=
  (∀ (s : State) (src : Source) (tick w : Nat) (tr : TickRec) (r : WindowRec),
    s.dev.tickRec tick = some tr → tr.transition = false → s.dev.windowRec src tick w = some r →
    (s.dev.win src tick w).phase = .planned → r.kind ≠ .transmit →
    (s.dev.opens src tick w r = false → exec (.windowRelease src tick w) s =
        .next (s.withDev (s.dev))) ∧
    (s.dev.opens src tick w r = true → ∀ c, s.dev.blocked src tick w r = some c →
      exec (.windowRelease src tick w) s =
        .next (s.withDev (miss c src tick w s.dev))) ∧
    (s.dev.opens src tick w r = true → s.dev.blocked src tick w r = none → s.dev.coresBusy src tick r = true →
      exec (.windowRelease src tick w) s =
        .next (s.withDev (s.dev.setWin src tick w { s.dev.win src tick w with phase := .held }))) ∧
    (s.dev.opens src tick w r = true → s.dev.blocked src tick w r = none → s.dev.coresBusy src tick r = false →
      exec (.windowRelease src tick w) s =
        .next (s.withDev (releaseNow src tick w r s.dev)))) ∧
  (∀ (s : State) (src : Source) (tick w : Nat) (tr : TickRec), s.dev.tickRec tick = some tr → tr.transition = true →
    exec (.windowRelease src tick w) s =
        .next (s.withDev (releaseTransition src tick w tr s.dev))) ∧
  (∀ (s : State) (src : Source) (tick w : Nat) (r : WindowRec), s.dev.windowRec src tick w = some r →
    ((s.dev.win src tick w).phase = .held ∨ ((s.dev.win src tick w).phase = .planned ∧ s.dev.lateUnit tick r = true)) →
    s.dev.opens src tick w r = true → s.dev.freed src tick r = true →
    (∀ c, s.dev.blocked src tick w r = some c → exec (.heldWindowRelease src tick w) s =
        .next (s.withDev (miss c src tick w s.dev))) ∧
    (s.dev.blocked src tick w r = none →
      exec (.heldWindowRelease src tick w) s =
        .next (s.withDev (releaseNow src tick w r (bump (barTsq + 0x120) s.dev.plan.heldRelease 1
          (fun c d => { d with plan := { d.plan with heldRelease := c } }) s.dev)))))

/-- The layer watchdog: a CORE, HOST or RECOMPUTE window of a tick on record that is planned, held or running overruns,
a HOST window's queries aborted first. The Tweed timer: a running step counts TWD_OVERRUN_COUNT and is marked
missing; Burlap's is then class V fault 0x0005, and at the third of the main engine's ticks in a row M0's partition
restarts. The Chambray timer: a running window, its LIFT stopped where it is one, counts its unit's overrun, frees
the unit and is marked missing; at the unit's third in a row the die's partition with Chambray restarts. The
assembly timer: a running window counts TSQ_WDG_COUNT and is marked missing, Burlap's as class V fault 0x0005; of a
main window, running or not, Felt then selects each output. (R168, R188, R246, R248, R250, R382) -/
def Obligations.WatchdogsStopLateWindows : Prop :=
  (∀ (s : State) (src : Source) (tick w : Nat) (r : WindowRec), s.dev.windowRec src tick w = some r →
    s.dev.reached (s.dev.expiry tick r) = false →
    exec (.layerWatchdogExpiry src tick w) s = .next s ∧ exec (.tweedStepTimerExpiry src tick w) s = .next s ∧
      exec (.assemblyTimerExpiry src tick w) s = .next s ∧
      (src = .main → exec (.chambrayTimerExpiry tick w) s = .next s)) ∧
  (∀ (s : State) (src : Source) (tick w : Nat) (r : WindowRec), s.dev.windowRec src tick w = some r →
    (s.dev.tickRec tick).isSome = true → s.dev.reached (s.dev.expiry tick r) = true →
    ((s.dev.win src tick w).phase = .planned ∨ (s.dev.win src tick w).phase = .held ∨ (s.dev.win src tick w).phase = .running) →
    ((r.kind = .core ∨ r.kind = .recompute) →
      exec (.layerWatchdogExpiry src tick w) s =
        .next (s.withDev (overrun src tick w r s.dev))) ∧
    (r.kind = .host →
      exec (.layerWatchdogExpiry src tick w) s =
        .next (s.withDev (overrun src tick w r (abortQueries (winKey src tick w) s.dev))))) ∧
  (∀ (s : State) (src : Source) (tick w run : Nat) (r : WindowRec) (d1 : Dev), s.dev.windowRec src tick w = some r →
    r.kind = .tweed → (s.dev.win src tick w).phase = .running → s.dev.reached (s.dev.expiry tick r) = true →
    run = (match (s.dev.engine src).overrunTick with
      | some t => if t = tick then (s.dev.engine src).overrunRun else if t + 1 = tick then (s.dev.engine src).overrunRun + 1 else 1
      | none => 1) →
    d1 = faultMiss .overrun src tick w (bumpTwd src 0x28 (·.overrun) (fun c e => { e with overrun := c }) 1
      (modEngine src (fun e => { e with
        overrunRun := if 3 ≤ run ∧ (s.dev.engine src).overrunTick ≠ some tick then 0 else run, overrunTick := some tick }) s.dev)) →
    (src = .burlap → exec (.tweedStepTimerExpiry src tick w) s =
        .next (s.withDev (raiseV 0x0005 6 r.target w false 0 d1))) ∧
    (src = .main → (run < 3 ∨ (s.dev.engine src).overrunTick = some tick) → exec (.tweedStepTimerExpiry src tick w) s =
        .next (s.withDev (d1))) ∧
    (∀ i, src = .main → 3 ≤ run → (s.dev.engine src).overrunTick ≠ some tick → d1.parts.findIdx? (fun p => p.die = 4) = some i →
      exec (.tweedStepTimerExpiry src tick w) s =
        .next (s.withDev (restartPartition 4 i causeTweed true d1)))) ∧
  (∀ (s : State) (tick w x rank run : Nat) (r : WindowRec) (g : GridRec) (o : ChbRec) (d0 d1 d2 : Dev),
    s.dev.windowRec .main tick w = some r → r.kind = .chambray → (s.dev.win .main tick w).phase = .running →
    s.dev.reached (s.dev.expiry tick r) = true → s.dev.gridAt tick = some g → gridOp g w = some (o, rank) → o.units[rank]? = some x →
    d0 = (if o.op = .lift then stopLift (s.dev.chbCtx tick w g o rank x) s.dev else s.dev) →
    d1 = bump (barChbOf x + 0x1C) (d0.chb x).overrun 1 (fun c => modChb x (fun u => { u with overrun := c })) d0 →
    run = (d1.chb x).overrunRun + 1 →
    d2 = faultMiss .overrun .main tick w
      (modChb x (fun u => { u with state := .idle, overrunRun := if 3 ≤ run then 0 else run }) d1) →
    (run < 3 → exec (.chambrayTimerExpiry tick w) s =
        .next (s.withDev (d2))) ∧
    (∀ i, 3 ≤ run → d2.parts.findIdx? (fun p => p.die = x && p.chambray) = some i →
      exec (.chambrayTimerExpiry tick w) s =
        .next (s.withDev (restartPartition x i causeChambray true d2)))) ∧
  (∀ (s : State) (tick w : Nat) (r : WindowRec), s.dev.windowRec .main tick w = some r → r.kind = .assembly →
    s.dev.reached (s.dev.expiry tick r) = true →
    exec (.assemblyTimerExpiry .main tick w) s =
        .next (s.withDev (r.outputs.foldl (selectOutput tick)
        (if (s.dev.win .main tick w).phase = .running then miss .overrun .main tick w (countWdg s.dev) else s.dev)))) ∧
  (∀ (s : State) (tick w : Nat) (r : WindowRec), s.dev.windowRec .burlap tick w = some r → r.kind = .assembly →
    s.dev.reached (s.dev.expiry tick r) = true → (s.dev.win .burlap tick w).phase = .running →
    exec (.assemblyTimerExpiry .burlap tick w) s =
        .next (s.withDev (raiseV 0x0005 dieIod r.target w false 0 (miss .overrun .burlap tick w (countWdg s.dev)))))

/-- A running ASSEMBLY window ends with its outputs completed; of the main pipeline each output is then selected by
Felt, of Burlap a candidate output counts as a delivery. A running STAGING window stops at its planned end; where a
staged switch is pending whose copying this tick does, the bytes copied are kept, at most those of the target, and a
complete copy is taken. A TRANSMIT window whose opening has come releases its outputs, in a tick that is no
transition tick. A HOST window past its planned end writes the results of its ended queries; with none left a
running one has ended and its clusters' flags are collected, and one that does not run aborts the others. A running
GOLDEN window past its planned end stops every visit of its tick. (R75, R248, R252, R261, R355, R362, R367, R382,
R391) -/
def Obligations.WindowsEnd : Prop :=
  (∀ (s : State) (tick w : Nat) (contents : List Delivered) (r : WindowRec),
    s.dev.windowRec .main tick w = some r → r.kind = .assembly → (s.dev.win .main tick w).phase = .running →
    exec (.assemblyComplete .main tick w contents) s =
        .next (s.withDev (r.outputs.foldl (selectOutput tick)
          (r.outputs.foldl (completeOutput .main tick contents)
            (s.dev.setWin .main tick w { s.dev.win .main tick w with phase := .ended }))))) ∧
  (∀ (s : State) (tick w : Nat) (contents : List Delivered) (r : WindowRec) (d1 : Dev),
    s.dev.windowRec .burlap tick w = some r → r.kind = .assembly → (s.dev.win .burlap tick w).phase = .running →
    d1 = r.outputs.foldl (completeOutput .burlap tick contents)
      (s.dev.setWin .burlap tick w { s.dev.win .burlap tick w with phase := .ended }) →
    exec (.assemblyComplete .burlap tick w contents) s =
        .next (s.withDev (if r.outputs.any (fun k => decide (d1.candidate .burlap tick k = some true))
          then burlapDelivers d1 else d1))) ∧
  (∀ (s : State) (tick w bytes : Nat) (r : WindowRec) (d1 : Dev) (q : PendingMode) (m : ModeRec),
    s.dev.windowRec .main tick w = some r → r.kind = .staging → (s.dev.win .main tick w).phase = .running →
    s.dev.reached (s.dev.plannedEnd tick r) = true →
    d1 = s.dev.setWin .main tick w { s.dev.win .main tick w with phase := .ended } →
    (d1.copying tick = none → exec (.stagingWindowEnd tick w bytes) s =
        .next (s.withDev (d1))) ∧
    (d1.copying tick = some (q, m) →
      ∃ (q' : PendingMode) (d2 : Dev), q' = { q with copied := min m.stageBytes (q.copied + bytes) } ∧
        d2 = { d1 with plan := { d1.plan with pending := some q' } } ∧
        exec (.stagingWindowEnd tick w bytes) s =
        .next (s.withDev (if d2.copied q' then copyOverlay d2.image m (fun _ => true) d2 else d2)))) ∧
  (∀ (s : State) (tick w : Nat) (r : WindowRec) (t : TickRec), s.dev.windowRec .main tick w = some r →
    s.dev.tickRec tick = some t → r.kind = .transmit → (s.dev.win .main tick w).phase = .planned → t.transition = false →
    s.dev.reached (s.dev.opening tick r) = true →
    exec (.transmitWindow tick w) s =
        .next (s.withDev (r.outputs.foldl (transmitOutput tick r.durNs t.mainRuns)
          (s.dev.setWin .main tick w { s.dev.win .main tick w with phase := .ended, released := s.dev.now })))) ∧
  (∀ (s : State) (tick w : Nat) (r : WindowRec) (e : Int) (d1 : Dev), s.dev.windowRec .main tick w = some r →
    r.kind = .host → s.dev.plannedEnd tick r = some e → e ≤ (s.dev.now : Int) →
    d1 = flushWindow (winKey .main tick w) (decide (e + 200 * usNs < s.dev.now)) s.dev →
    ((d1.win .main tick w).phase ≠ .running →
      exec (.hostWindowEnd tick w) s =
        .next (s.withDev (abortQueries (winKey .main tick w) d1))) ∧
    ((d1.win .main tick w).phase = .running → d1.nextIn (winKey .main tick w) = none →
      ∃ d2 : Dev, d2 = stopWindow .main tick w d1 ∧
      exec (.hostWindowEnd tick w) s =
        .next (s.withDev (closeGroupFlags .main tick w
          (d2.setWin .main tick w { d2.win .main tick w with phase := .ended })))) ∧
    ((d1.win .main tick w).phase = .running → (d1.nextIn (winKey .main tick w)).isSome = true →
      exec (.hostWindowEnd tick w) s =
        .next (s.withDev (d1)))) ∧
  (∀ (s : State) (tick w : Nat) (r : WindowRec), s.dev.windowRec .main tick w = some r → r.kind = .golden →
    (s.dev.win .main tick w).phase = .running → s.dev.reached (s.dev.plannedEnd tick r) = true →
    ∃ d1 : Dev, d1 = (goldenClusters tick).foldl (stopVisit tick) s.dev ∧
      exec (.goldenBudgetTimer tick w) s =
        .next (s.withDev (d1.setWin .main tick w { d1.win .main tick w with phase := .ended })))

/-- With V0 up: the first valid pair in FREE_RUN captures O_v from it, sets e to 0 and enters ACQUIRING. In any other
state with no capture pending (HOLDOVER becomes ACQUIRING first) the sample's innovation is tested: an outlier only
counts, itself and among the Syncs of the lock, the fourth in a row is a step, and any other sample is accepted;
while a capture is pending the sample is only kept as the latest. With a rate estimate ρ a sample is an outlier
where its innovation exceeds the step threshold. An Announce learns the grandmaster's identity; a changed one clears
ρ and, outside FREE_RUN, is a step. At three expected intervals without a pair, with V0 down or without asCapable,
vehicle time is lost. Each second of saturation in ACQUIRING counts. (R28, R30, R31, R32, R33, R34, R495) -/
def Obligations.VehicleTimeServo : Prop :=
  (∀ (s : State) (pair : SyncPair), s.dev.v0.link = .up → s.dev.time.servo.state = .freeRun →
    ∃ t, exec (.syncFollowUpReceived pair) s = .next t ∧ t.dev.time.servo.state = .acquiring ∧
      t.dev.time.servo.ov = some (pair.vehicleNs - (pair.stamp : Int)) ∧ t.dev.time.servo.err = 0 ∧
      t.dev.time.servo.lastSync = s.dev.now ∧ t.dev.time.dev = s.dev.time.dev) ∧
  (∀ (s : State) (pair : SyncPair) (off e : Int) (v1 v : ServoState), s.dev.v0.link = .up →
    s.dev.time.servo.state ≠ .freeRun → off = pair.vehicleNs - (pair.stamp : Int) → e = off - s.dev.time.servo.ov.getD off →
    v1 = { s.dev.time.servo with lastSync := s.dev.now, latest := some { at_ := pair.stamp, offset := off, resid := 0 } } →
    v = (if s.dev.time.servo.state = .holdover then { v1 with state := .acquiring, lockRun := 0, outliers := 0 } else v1) →
    (s.dev.time.servo.capturePending = true → exec (.syncFollowUpReceived pair) s =
        .next (s.withDev (s.dev.setServo v))) ∧
    (s.dev.time.servo.capturePending = false → (s.dev.setServo v).outlier pair.stamp e = true → v.outliers < 3 →
      exec (.syncFollowUpReceived pair) s =
        .next (s.withDev ((s.dev.setServo v).setServo (countLock s.dev.now e { v with outliers := v.outliers + 1 })))) ∧
    (s.dev.time.servo.capturePending = false → (s.dev.setServo v).outlier pair.stamp e = true → 3 ≤ v.outliers →
      exec (.syncFollowUpReceived pair) s =
        .next (s.withDev (vehicleStep (s.dev.setServo v)))) ∧
    (s.dev.time.servo.capturePending = false → (s.dev.setServo v).outlier pair.stamp e = false →
      exec (.syncFollowUpReceived pair) s =
        .next (s.withDev (acceptSample pair.stamp off e (s.dev.setServo v))))) ∧
  (∀ (d : Dev) (stamp : Nanos) (e r : Int) (p : OffsetSample), d.time.servo.prev = some p → d.time.servo.rho = some r →
    (d.outlier stamp e = true ↔
      stepNs d.image.link * 100000000000 < (innovation11 e p r (d.time.adjOver p.at_ stamp) stamp).natAbs)) ∧
  (∀ (s : State) (gm : Nat), s.dev.v0.link = .up →
    (s.dev.time.servo.gm = some gm → exec (.announceReceived gm) s =
        .next (s.withDev (s.dev))) ∧
    (s.dev.time.servo.gm = none → exec (.announceReceived gm) s =
        .next (s.withDev (s.dev.setServo { s.dev.time.servo with gm := some gm }))) ∧
    (∀ g, s.dev.time.servo.gm = some g → g ≠ gm → s.dev.time.servo.state = .freeRun →
      exec (.announceReceived gm) s =
        .next (s.withDev (s.dev.setServo { s.dev.time.servo with gm := some gm, rho := none, fresh := false }))) ∧
    (∀ g, s.dev.time.servo.gm = some g → g ≠ gm → s.dev.time.servo.state ≠ .freeRun →
      exec (.announceReceived gm) s =
        .next (s.withDev (vehicleStep (s.dev.setServo { s.dev.time.servo with gm := some gm, rho := none, fresh := false }))))) ∧
  (∀ s : State, (s.dev.time.servo.lastSync + 3 * syncInterval s.dev.image.link.logSync ≤ s.dev.now ∨ s.dev.v0.link ≠ .up ∨
      s.dev.time.v0.asCapable = false) →
    exec .vehicleTimeLoss s =
        .next (s.withDev (loseVehicleTime s.dev))) ∧
  (∀ s : State, s.dev.time.servo.saturated = true → s.dev.time.servo.state = .acquiring →
    s.dev.time.servo.satSince + secNs ≤ s.dev.now →
    exec .servoSaturationSecond s =
        .next (s.withDev (countSyncLoss
          (s.dev.setServo { s.dev.time.servo with satSince := s.dev.time.servo.satSince + secNs }))))

/-- When a lidar port's gPTP function runs and its sync interval has passed, LIDAR_SYNC_SEND sends exactly one message:
device time divided by 10^9 in the seconds field and the remainder in the nanoseconds field, whatever the servo
holds; it changes nothing of the device but the instant of the port's last Sync. Announce sends no time at all.
Neither message has a field for vehicle time, an offset or UTC. (R37) -/
def Obligations.LidarTimeIsDeviceTime : Prop :=
  (∀ (s : State) (n : Fin 8), s.dev.gptpRuns (.lidar n) = true →
    (s.dev.gptp (.lidar n)).lastSyncSent + s.dev.lidarSyncNs n.val ≤ s.dev.now →
    ∃ d1 : Dev, d1 = s.dev.setGptp (.lidar n) { s.dev.gptp (.lidar n) with lastSyncSent := s.dev.now } ∧
      exec (.lidarSyncSend n) s =
        .next (s.withDev ({ d1 with
          sent := .lidarSync n.val (s.dev.time.dev / 1000000000) (s.dev.time.dev % 1000000000) :: s.dev.sent }))) ∧
  (∀ (s : State) (n : Fin 8), s.dev.gptpRuns (.lidar n) = true → (s.dev.gptp (.lidar n)).lastAnnounceSent + secNs ≤ s.dev.now →
    ∃ d1 : Dev, d1 = s.dev.setGptp (.lidar n) { s.dev.gptp (.lidar n) with lastAnnounceSent := s.dev.now } ∧
      exec (.lidarAnnounceSend n) s =
        .next (s.withDev ({ d1 with sent := .lidarAnnounce n.val 246 248 0xA0 :: s.dev.sent })))

/-- Where a port's gPTP function runs: once a second it sends Pdelay_Req; it answers a received one; a response sets its
mean link delay and asCapable, and asCapable becoming false on V0 loses vehicle time. Announce, Sync and Follow_Up
on a lidar port whose link is up only count. A frame of EtherType 0x88F7 on V1 with its link up only counts. (R28,
R29, R32, R36) -/
def Obligations.GptpPortsFollowTheirRoles : Prop :=
  (∀ (s : State) (p : GptpPort), s.dev.gptpRuns p = true → (s.dev.gptp p).lastReq + secNs ≤ s.dev.now →
    exec (.pdelayReqTimer p) s =
        .next (s.withDev (emit (.pdelayReq p) (s.dev.setGptp p { s.dev.gptp p with lastReq := s.dev.now })))) ∧
  (∀ (s : State) (p : GptpPort), s.dev.gptpRuns p = true →
    exec (.pdelayReqReceived p) s =
        .next (s.withDev (emit (.pdelayResp p) s.dev))) ∧
  (∀ (s : State) (p : GptpPort) (linkDelay : Nat) (asCapable : Bool), s.dev.gptpRuns p = true →
    exec (.pdelayRespReceived p linkDelay asCapable) s =
        .next (s.withDev (if p = .v0 ∧ (s.dev.gptp p).asCapable = true ∧ asCapable = false
          then loseVehicleTime (s.dev.setGptp p { s.dev.gptp p with linkDelay := linkDelay, asCapable := asCapable })
          else s.dev.setGptp p { s.dev.gptp p with linkDelay := linkDelay, asCapable := asCapable }))) ∧
  (∀ (s : State) (n : Fin 8) (kind : GptpKind), (s.dev.lidar n.val).link = .up →
    exec (.lidarGptpReceived n kind) s =
        .next (s.withDev (satEvent (Config.barOf (1 + n.val)) (s.dev.gptp (.lidar n)).ignored
          (s.dev.gptp (.lidar n)).ignored.inc
          (s.dev.setGptp (.lidar n) { s.dev.gptp (.lidar n) with ignored := (s.dev.gptp (.lidar n)).ignored.inc })))) ∧
  (∀ s : State, s.dev.v1.link = .up →
    exec .v1GptpFrame s =
        .next (s.withDev (satEvent (Config.barOf 0) s.dev.time.v1Gptp s.dev.time.v1Gptp.inc
          { s.dev with time := { s.dev.time with v1Gptp := s.dev.time.v1Gptp.inc } })))

/-- For a stream with a gate in its next tick, at the gate's instant: the tick's record is closed; a POINT stream's
points and slices follow, a camera's bands are built, an EGO_INPUT stream has nothing more. Before that instant
nothing happens. A slice SLICE_US old, counted from its first point's arrival stamp, closes; a younger one stays.
While the engine runs and may insert, every waiting point of its tick is inserted, in the order of their arrival.
After the last planned Tweed window of its tick the table is released. (R72, R74, R94, R145, R148, R149, R166) -/
def Obligations.GatesCloseAndTweedFollows : Prop :=
  (∀ (s : State) (stream : Fin 48) (e : StreamEntry) (j v : Nat) (d1 : Dev),
    s.dev.entry stream.val = some e → s.dev.nextValid (s.dev.stream stream.val).nextGate = some (j, v) → s.dev.noGate stream.val j = false →
    d1 = closeGate stream.val j e v s.dev →
    (s.dev.now < s.dev.gateAt e v → exec (.gateClose stream) s =
        .next (s.withDev (s.dev))) ∧
    (s.dev.gateAt e v ≤ s.dev.now → e.kind = .point → exec (.gateClose stream) s =
        .next (s.withDev (closePointGate stream.val j v e d1))) ∧
    (∀ f, s.dev.gateAt e v ≤ s.dev.now → e.kind = .rowBand → e.src = .camera f →
      exec (.gateClose stream) s =
        .next (s.withDev (buildBands j v e.port f d1))) ∧
    (s.dev.gateAt e v ≤ s.dev.now → e.kind = .egoInput → exec (.gateClose stream) s =
        .next (s.withDev (d1)))) ∧
  (∀ (s : State) (src : Source) (stream : Fin 48) (sl : Slice) (p : Point) (rest : List Point),
    s.dev.slice src stream.val = some sl → sl.points = p :: rest →
    (p.arrival + s.dev.sliceNs ≤ s.dev.now → exec (.sliceTimerExpiry src stream) s =
        .next (s.withDev (closeSlice src stream.val s.dev))) ∧
    (s.dev.now < p.arrival + s.dev.sliceNs → exec (.sliceTimerExpiry src stream) s =
        .next (s.withDev (s.dev)))) ∧
  (∀ (s : State) (src : Source) (tick : Nat) (waiting : List (PointRec × Nat)), tick = (s.dev.engine src).tick →
    s.dev.mayInsert src tick = true → s.dev.engineRuns src = true →
    waiting = (((s.dev.engine src).store tick).zipIdx.filter (fun x => x.1.pending && decide (x.1.tick = tick))) →
    exec (.deferredInsertion src) s =
        .next (s.withDev ((sortBy (fun a b : PointRec × Nat => decide (a.1.arrival < b.1.arrival)) waiting).foldl
          (fun d x => insertPoint src tick x.2 d) s.dev))) ∧
  (∀ (s : State) (src : Source), s.dev.tweedDone src (s.dev.engine src).tick = true →
    exec (.tweedTableRelease src) s =
        .next (s.withDev (modEngine src releaseTable s.dev)))

/-- On a lidar port with a stream entry and its link up, whatever its stream's state: a frame with a bad FCS counts as a
drop and does nothing else. A frame whose FCS is good, addressed to the port, to all stations or to gPTP's group
address, is left to the gPTP function where its EtherType is 0x88F7; otherwise one that finds no room counts as a
drop, and one that does is parsed: a packet that the parser accepts is taken with its points at the frame's arrival
stamp, any other counts as a parse drop. A frame for another station is ignored. Loss of the link of an up port
retrains it with asCapable false, counts, and raises a health event with the count; on a port that is not up it does
nothing. A training port comes up. (R36, R61, R105, R106, R107, R108) -/
def Obligations.LidarPortsTakeFrames : Prop :=
  (∀ (s : State) (n : Fin 8) (frame : LidarFrame) (st : Nat) (e : StreamEntry) (f : LidarFields),
    s.dev.lidarEntry n.val = some (st, e, f) → (s.dev.lidar n.val).link = .up →
    (frame.fcsOk = false → exec (.lidarFrameReceived n frame) s =
        .next (s.withDev (dropFrame n.val s.dev))) ∧
    (frame.fcsOk = true → (frame.dest = f.portMac ∨ frame.dest = 0xFFFFFFFFFFFF ∨ frame.dest = gptpMac) →
      (frame.etherType = 0x88F7 → exec (.lidarFrameReceived n frame) s =
        .next (s.withDev (s.dev))) ∧
      (frame.etherType ≠ 0x88F7 → frame.fits = false → exec (.lidarFrameReceived n frame) s =
        .next (s.withDev (dropFrame n.val s.dev))) ∧
      (∀ q ps, frame.etherType ≠ 0x88F7 → frame.fits = true → assoc f.parser s.dev.image.parsers = some q →
        decodePacket q frame = some ps → exec (.lidarFrameReceived n frame) s =
        .next (s.withDev (takePacket st e f frame.arrival ps s.dev))) ∧
      (∀ q, frame.etherType ≠ 0x88F7 → frame.fits = true → assoc f.parser s.dev.image.parsers = some q →
        decodePacket q frame = none → exec (.lidarFrameReceived n frame) s =
        .next (s.withDev (dropParse n.val s.dev)))) ∧
    (frame.fcsOk = true → frame.dest ≠ f.portMac → frame.dest ≠ 0xFFFFFFFFFFFF → frame.dest ≠ gptpMac →
      exec (.lidarFrameReceived n frame) s =
        .next (s.withDev (s.dev)))) ∧
  (∀ (s : State) (n : Fin 8) (d1 : Dev), (s.dev.lidar n.val).link = .up →
    d1 = bump (barLid n.val + 0x04) (s.dev.lidar n.val).linkLoss 1 (fun c d => modLidar n.val (fun x => { x with linkLoss := c }) d)
      (modLidar n.val (fun x => { x with link := .training, gptp := { x.gptp with asCapable := false } }) s.dev) →
    exec (.lidarLinkDown n) s =
        .next (s.withDev (conditionEvent (barLid n.val + 0x04) (d1.lidar n.val).linkLoss.val.toNat d1))) ∧
  (∀ (s : State) (n : Fin 8), (s.dev.lidar n.val).link ≠ .up → exec (.lidarLinkDown n) s =
        .next (s.withDev (s.dev))) ∧
  (∀ (s : State) (n : Fin 8), (s.dev.lidar n.val).link = .training →
    exec (.lidarLinkUp n) s =
        .next (s.withDev (modLidar n.val (fun x => { x with link := .up }) s.dev)))

/-- Loss of lock in UP or INIT discards the bands begun of a triggered frame that has not ended, retrains the port,
counts, and raises a health event with the count. A DOWN port due a retry starts training 100 ms after its failed
attempt began. A training port that trains enters INIT from its sequence's start; one that has not trained in 20 ms
goes DOWN, counted, and the first failure since it was up raises a health event. When no usable sample has come for
the absence timeout the stream enters REACQUIRING, and where its camera port is up the port initialises again. In
REACQUIRING a period that ends without a usable sample ends the run of periods, and one that brought a sample is
followed by the next. (R71, R84, R85, R87) -/
def Obligations.CameraLinksTrainAndRecover : Prop :=
  (∀ (s : State) (port : Fin 16) (n : Nat) (d1 : Dev),
    ((s.dev.camera port.val).link = .up ∨ (s.dev.camera port.val).link = .init) →
    n = (match s.dev.camStream port.val, (s.dev.camera port.val).frame with
      | some (_, _, f), some x => if x.triggered && !x.ended then (begunBands f x).length else 0
      | _, _ => 0) →
    d1 = bump (barCam port.val + 0x04) (s.dev.camera port.val).linkLoss 1
      (fun k d => modCamera port.val (fun x => { x with linkLoss := k }) d)
      (beginTraining port.val (dropBands port.val n s.dev)) →
    exec (.linkLockLoss port) s =
        .next (s.withDev (conditionEvent (barCam port.val + 0x04) (d1.camera port.val).linkLoss.val.toNat d1))) ∧
  (∀ (s : State) (port : Fin 16), (s.dev.camera port.val).link = .down → (s.dev.camera port.val).retrain = true →
    (s.dev.camera port.val).attemptBegan + 100 * msNs ≤ s.dev.now →
    exec (.retrainIntervalExpiry port) s =
        .next (s.withDev (beginTraining port.val s.dev))) ∧
  (∀ (s : State) (port : Fin 16) (r : CameraPort), s.dev.camRec port.val = some r → (s.dev.camera port.val).link = .training →
    exec (.trainingSuccess port) s =
        .next (s.withDev (beginInit port.val r s.dev))) ∧
  (∀ (s : State) (port : Fin 16) (d1 : Dev), (s.dev.camera port.val).link = .training →
    (s.dev.camera port.val).attemptBegan + 20 * msNs ≤ s.dev.now →
    d1 = bump (barCam port.val + 0x08) (s.dev.camera port.val).trainFail 1
      (fun k d => modCamera port.val (fun x => { x with trainFail := k }) d) (goDown port.val s.dev) →
    ((s.dev.camera port.val).trainReported = true → exec (.trainingTimeout port) s =
        .next (s.withDev (d1))) ∧
    ((s.dev.camera port.val).trainReported = false →
      exec (.trainingTimeout port) s =
        .next (s.withDev (conditionEvent (barCam port.val + 0x08) (d1.camera port.val).trainFail.val.toNat
          (modCamera port.val (fun x => { x with trainReported := true }) d1))))) ∧
  (∀ (s : State) (stream : Fin 48) (e : StreamEntry) (d1 : Dev), s.dev.absenceDue stream.val = true →
    d1 = enterReacquiring stream.val s.dev → d1.entry stream.val = some e →
    ((∀ f, e.src ≠ .camera f) → exec (.absenceTimeout stream) s =
        .next (s.withDev (d1))) ∧
    (∀ f r, e.src = .camera f → d1.camRec e.port = some r →
      ((d1.camera e.port).link = .up → exec (.absenceTimeout stream) s =
        .next (s.withDev (beginInit e.port r d1))) ∧
      ((d1.camera e.port).link ≠ .up → exec (.absenceTimeout stream) s =
        .next (s.withDev (d1))))) ∧
  (∀ (s : State) (stream : Fin 48) (e : StreamEntry) (r : ReacqRun), s.dev.entry stream.val = some e →
    (s.dev.stream stream.val).run = some r → (s.dev.stream stream.val).mode = .reacquiring → (s.dev.stream stream.val).runDone = false →
    r.periodStart + periodNs e ≤ s.dev.now →
    (r.seen = false → exec (.reacquisitionPeriodEnd stream) s =
        .next (s.withDev (s.dev.setStream stream.val { s.dev.stream stream.val with run := none }))) ∧
    (r.seen = true →
      exec (.reacquisitionPeriodEnd stream) s =
        .next (s.withDev (s.dev.setStream stream.val { s.dev.stream stream.val with
          run := some { periodStart := r.periodStart + periodNs e, seen := false, done := r.done + 1 } }))))

/-- The sentinel read decides between the exposure sequence and the whole initialisation. An acknowledged write or a
matching read of the initialisation sequence ends a run of CCI errors and starts the sequence's next entry; a verify
that reads another value is a CCI error; the last of the four exposure transactions ends the sequence, the others
start the next. A transaction of a port with a record that has not been acknowledged 1 ms after it began is a CCI
error; before that nothing happens. The wait of an entry of op 1 ends on its own time. A read of EXPOSURE_US latches
the white-balance gains. (R86, R90, R98, R104) -/
def Obligations.CciTransactionsEnd : Prop :=
  (∀ (s : State) (port : Fin 16) (data i : Nat) (r : CameraPort) (e : InitEntry), s.dev.camRec port.val = some r →
    (s.dev.camera port.val).job = .entry i → r.init[i]? = some e → e.op ≠ 1 →
    ((e.op ≠ 3 ∨ data = e.value) →
      exec (.cciAck port data) s =
        .next (s.withDev (startEntry port.val r (i + 1) (modCamera port.val (fun x => { x with cciRun := 0 }) s.dev)))) ∧
    (e.op = 3 → data ≠ e.value → exec (.cciAck port data) s =
        .next (s.withDev (cciError port.val r s.dev)))) ∧
  (∀ (s : State) (port : Fin 16) (data : Nat) (r : CameraPort), s.dev.camRec port.val = some r →
    (s.dev.camera port.val).job = .sentinel →
    (data % 256 = r.sentinelVal →
      exec (.cciAck port data) s =
        .next (s.withDev (startExposure port.val r 0 (modCamera port.val (fun x => { x with cciRun := 0 }) s.dev)))) ∧
    (data % 256 ≠ r.sentinelVal →
      exec (.cciAck port data) s =
        .next (s.withDev (startEntry port.val r 0 (modCamera port.val (fun x => { x with cciRun := 0 }) s.dev))))) ∧
  (∀ (s : State) (port : Fin 16) (data j : Nat) (r : CameraPort), s.dev.camRec port.val = some r →
    (s.dev.camera port.val).job = .exposure j →
    (j < 3 → exec (.cciAck port data) s =
        .next (s.withDev (startExposure port.val r (j + 1) (modCamera port.val (fun x => { x with cciRun := 0 }) s.dev)))) ∧
    (3 ≤ j → exec (.cciAck port data) s =
        .next (s.withDev (endExposure port.val r (modCamera port.val (fun x => { x with cciRun := 0 }) s.dev))))) ∧
  (∀ (s : State) (port : Fin 16) (r : CameraPort), s.dev.camRec port.val = some r →
    ((∃ j, (s.dev.camera port.val).job = .exposure j) ∨ (s.dev.camera port.val).job = .sentinel) →
    ((s.dev.camera port.val).jobBegan + msNs ≤ s.dev.now → exec (.cciTimeout port) s =
        .next (s.withDev (cciError port.val r s.dev))) ∧
    (s.dev.now < (s.dev.camera port.val).jobBegan + msNs → exec (.cciTimeout port) s =
        .next (s.withDev (s.dev)))) ∧
  (∀ (s : State) (port : Fin 16) (i : Nat) (r : CameraPort) (e : InitEntry), s.dev.camRec port.val = some r →
    (s.dev.camera port.val).job = .entry i → r.init[i]? = some e →
    (e.op ≠ 1 → (s.dev.camera port.val).jobBegan + msNs ≤ s.dev.now → exec (.cciTimeout port) s =
        .next (s.withDev (cciError port.val r s.dev))) ∧
    (e.op = 1 → (s.dev.camera port.val).jobBegan + e.addr * usNs ≤ s.dev.now →
      exec (.initWaitExpiry port) s =
        .next (s.withDev (startEntry port.val r (i + 1) s.dev)))) ∧
  (∀ (s : State) (cam : Fin 16),
    exec (.exposureUsRead cam) s =
        .next (s.withDev (modCamera cam.val (fun x => { x with latchWbR := x.wbR, latchWbB := x.wbB }) s.dev)))

/-- At t_send of a frame of a stream in use an up port sends its trigger and notes it; a port that is not up counts a
skip; either way the next frame is its next. A packet on a port that is not up does nothing; one with an
uncorrectable header is dropped; otherwise a corrected one counts, and a frame start on the first mapped channel, a
frame end on the last and a row of the stream's type are taken, frame and line synchronisation of the others does
nothing more, and a packet of another type that is not a valid embedded one is dropped. A band of the frame in
progress that was on time, not yet written, and whose needed rows have come is written once, by Percale's stages, at
the destinations of the tick it was assigned to; so is one of the frame before it, whose rows have all come; another
is not. The statistics of a triggered frame whose bands are all closed are kept, once; those of an up port whose
stream is in use start an exposure sequence when none runs, and wait otherwise; the white balance follows when 16
zones have light. With a metered luminance of 0 the exposure-gain product moves up by the whole step, and no
white-balance gain moves by more than WB_STEP/256 of its value, but down to the largest that fits. (R40, R63, R81,
R82, R87, R92, R94, R95, R96, R97, R99) -/
def Obligations.CameraFramesAreTriggeredAndTaken : Prop :=
  (∀ (s : State) (port : Fin 16) (r : CameraPort) (n : Nat) (e : StreamEntry) (f : CameraFields) (v : Nat) (x : Nat × Nat)
      (t : Int) (nx : Nat × Bool) (d1 : Dev),
    s.dev.camRec port.val = some r → s.dev.camStream port.val = some (n, e, f) →
    s.dev.validAt (s.dev.camera port.val).trigTick = some v → s.dev.time.begun = true → (s.dev.stream n).mode ≠ .disabled →
    x = frameExposure s.dev r (s.dev.camera port.val) v (s.dev.camera port.val).trigSecond →
    t = trigAt r s.dev.time.pNs v (s.dev.camera port.val).trigSecond x.1 → t - halfPs r.uplinkLatNs ≤ halfPs s.dev.now →
    nx = nextFrame f.framesPerTick (s.dev.camera port.val).trigTick (s.dev.camera port.val).trigSecond →
    d1 = modCamera port.val (fun y => { y with trigTick := nx.1, trigSecond := nx.2 }) s.dev →
    ((s.dev.camera port.val).link = .up →
      exec (.triggerSend port) s =
        .next (s.withDev (emit (.trigger port.val (nsOf t) (if r.trigWidthUs = 0 then 10 else r.trigWidthUs))
          (modCamera port.val (fun q => { q with
            sent := q.sent ++ [((s.dev.camera port.val).trigTick, (s.dev.camera port.val).trigSecond, t, x.1)] }) d1)))) ∧
    ((s.dev.camera port.val).link ≠ .up →
      exec (.triggerSend port) s =
        .next (s.withDev (bump (barCam port.val + 0x1C) (s.dev.camera port.val).trigSkip 1
          (fun k d => modCamera port.val (fun y => { y with trigSkip := k }) d) d1)))) ∧
  (∀ (s : State) (port : Fin 16) (pkt : CsiPacket) (r : CameraPort) (n i : Nat) (e : StreamEntry) (f : CameraFields),
    (s.dev.camera port.val).link = .up → s.dev.camRec port.val = some r → s.dev.camStream port.val = some (n, e, f) →
    (pkt.ecc = .uncorrectable → exec (.csi2PacketReceived port pkt) s =
        .next (s.withDev (dropPacket port.val s.dev))) ∧
    (∀ d0 : Dev, pkt.ecc ≠ .uncorrectable → f.vcMap.findIdx? (· = pkt.vc) = some i →
      d0 = (if pkt.ecc = .corrected then bump (barCam port.val + 0x0C) (s.dev.camera port.val).eccCorr 1
        (fun k d => modCamera port.val (fun y => { y with eccCorr := k }) d) s.dev else s.dev) →
      (pkt.dataType = 0x00 → i = 0 → exec (.csi2PacketReceived port pkt) s =
        .next (s.withDev (frameStart port.val n f r pkt.arrival d0))) ∧
      (pkt.dataType = 0x00 → i ≠ 0 → exec (.csi2PacketReceived port pkt) s =
        .next (s.withDev (d0))) ∧
      (pkt.dataType = 0x01 → i + 1 = f.vcMap.length → exec (.csi2PacketReceived port pkt) s =
        .next (s.withDev (frameEnd port.val f d0))) ∧
      (pkt.dataType = 0x01 → i + 1 ≠ f.vcMap.length → exec (.csi2PacketReceived port pkt) s =
        .next (s.withDev (d0))) ∧
      ((pkt.dataType = 0x02 ∨ pkt.dataType = 0x03) → exec (.csi2PacketReceived port pkt) s =
        .next (s.withDev (d0))) ∧
      (pkt.dataType = f.dataType → 0x10 ≤ pkt.dataType → exec (.csi2PacketReceived port pkt) s =
        .next (s.withDev (imageRow port.val n i e f r pkt d0))) ∧
      (pkt.dataType ≠ f.dataType → pkt.dataType = 0x12 → pkt.crcOk = true → exec (.csi2PacketReceived port pkt) s =
        .next (s.withDev (d0))) ∧
      (pkt.dataType ≠ f.dataType → 0x10 ≤ pkt.dataType → (pkt.dataType ≠ 0x12 ∨ pkt.crcOk = false) →
        exec (.csi2PacketReceived port pkt) s =
        .next (s.withDev (dropPacket port.val d0))))) ∧
  (∀ (s : State) (port : Fin 16) (band tick : Nat) (dests : List (Nat × Nat)) (x : CamFrame) (r : CameraPort) (n : Nat)
      (e : StreamEntry) (f : CameraFields) (raw : RawFrame),
    (s.dev.camera port.val).frame = some x → s.dev.camRec port.val = some r → s.dev.camStream port.val = some (n, e, f) →
    x.done.contains band = false → x.hasNeeded f band = true → assoc band x.onTime = some tick →
    raw = { port := r, fields := f, wbR := x.wbR, wbB := x.wbB, pix := x.pix } →
    exec (.percaleBandDone port band dests) s =
        .next (s.withDev (modCamera port.val (fun y => { y with frame := some { x with done := band :: x.done } })
          (dests.foldl (writeBand raw (percaleRows raw f x) (bandRows f band) (s.dev.descsAt .main tick)) s.dev)))) ∧
  (∀ (s : State) (port : Fin 16) (band tick : Nat) (dests : List (Nat × Nat)) (x : CamFrame) (r : CameraPort) (n : Nat)
      (e : StreamEntry) (f : CameraFields) (raw : RawFrame),
    (∀ y, (s.dev.camera port.val).frame = some y → y.ready f band = none) → s.dev.camRec port.val = some r →
    s.dev.camStream port.val = some (n, e, f) →
    ((s.dev.camera port.val).lastFrame = some x → x.done.contains band = false → assoc band x.onTime = some tick →
      raw = { port := r, fields := f, wbR := x.wbR, wbB := x.wbB, pix := x.pix } →
      exec (.percaleBandDone port band dests) s =
        .next (s.withDev (modCamera port.val (fun y => { y with lastFrame := some { x with done := band :: x.done } })
          (dests.foldl (writeBand raw (percaleRows raw f x) (bandRows f band) (s.dev.descsAt .main tick)) s.dev)))) ∧
    ((∀ y, (s.dev.camera port.val).lastFrame = some y → y.done.contains band = true ∨ assoc band y.onTime = none) →
      exec (.percaleBandDone port band dests) s =
        .next (s.withDev (s.dev)))) ∧
  (∀ (s : State) (port : Fin 16) (pkt : CsiPacket), (s.dev.camera port.val).link ≠ .up → exec (.csi2PacketReceived port pkt) s =
        .next (s.withDev (s.dev))) ∧
  (∀ (s : State) (port : Fin 16), ((s.dev.camera port.val).frame = none ∨
      ∃ x, (s.dev.camera port.val).frame = some x ∧ (x.triggered = false ∨ x.metered = true)) → exec (.statisticsComplete port) s =
        .next (s.withDev (s.dev))) ∧
  (∀ (s : State) (port : Fin 16) (x : CamFrame) (stats : FrameStats) (r : CameraPort) (n : Nat) (e : StreamEntry)
      (f : CameraFields) (d1 : Dev) (w : Nat × Nat) (wr wb : Nat),
    (s.dev.camera port.val).frame = some x → s.dev.camRec port.val = some r → s.dev.camStream port.val = some (n, e, f) →
    x.triggered = true → x.metered = false → bandCount f ≤ x.closed.length →
    stats = (rawFrame r f x).stats →
    d1 = modCamera port.val (fun y => { y with stats := stats, frame := some { x with metered := true } }) s.dev →
    (d1.camera port.val).link = .up → (d1.stream n).mode ≠ .disabled →
    w = splitProduct r (expGate e f r) (d1.camera port.val).expNs (d1.camera port.val).gain
      (stepProduct ((d1.camera port.val).expNs * (d1.camera port.val).gain) r.targetLuma stats.metered r.stepEv16) →
    wr = (if zonesIn stats.zoneLuma < 16 ∨ f.cfa = 0 then (d1.camera port.val).wbNextR else
      moveGain (d1.camera port.val).wbNextR (grayGain (zoneSum stats.zoneLuma stats.zoneG) (zoneSum stats.zoneLuma stats.zoneR))
        r.wbStep) →
    wb = (if zonesIn stats.zoneLuma < 16 ∨ f.cfa = 0 then (d1.camera port.val).wbNextB else
      moveGain (d1.camera port.val).wbNextB (grayGain (zoneSum stats.zoneLuma stats.zoneG) (zoneSum stats.zoneLuma stats.zoneB))
        r.wbStep) →
    ((d1.camera port.val).job = .idle →
      exec (.statisticsComplete port) s =
        .next (s.withDev (startExposure port.val r 0
          (d1.setCamera port.val { d1.camera port.val with want := some w, wbNextR := wr, wbNextB := wb })))) ∧
    ((d1.camera port.val).job ≠ .idle →
      exec (.statisticsComplete port) s =
        .next (s.withDev (d1.setCamera port.val
          { d1.camera port.val with wantNext := some w, wbNextR := wr, wbNextB := wb })))) ∧
  (∀ (product target metered step : Nat), metered = 0 →
    stepProduct product target metered step =
      divRound 21 (product * (2 ^ (step / 16) * (exp2At 256 (((step % 16 : Nat) * 2 ^ 252 : Nat) : Int)).toNat)) (2 ^ 256)) ∧
  (∀ gain target step : Nat, 256 * moveGain gain target step ≤ 256 * gain + gain * step ∧
    (256 * gain ≤ 256 * moveGain gain target step + gain * step ∨ moveGain gain target step = 0xFFFF))

/-- In sync mode a pulse due and not yet given is driven with the entry's width and polarity. A DRDY edge outside a
transaction starts one, with its sample time: the pulse's leading edge plus the declared latency in sync mode, the
edge minus the latency in data-ready mode; an edge during a transaction counts an overrun and an edge without a
pulse of its own an orphan. A transaction's payload goes to the port's sample check where the edge had a sample
time, and only ends the transaction where it had none. No edge within half the pulse period counts a missed sample,
once. Where the port has no stream, or nothing is due, each does nothing. (R44, R45, R117, R118) -/
def Obligations.ImuPortsSampleAndCount : Prop :=
  (∀ (s : State) (n : Fin 4) (k t : Nat) (e : StreamEntry) (f : ImuFields), s.dev.imuStream n.val = some (k, e, f) →
    f.syncMode = true → s.dev.pulseDue f = some t → (∀ q, (s.dev.imu n.val).pulse = some q → q < t) →
    exec (.imuSyncPulse n) s =
        .next (s.withDev (emit (.imuSync n.val (if f.syncWidthUs = 0 then 10 else f.syncWidthUs) f.syncPolHigh)
          (modImu n.val (fun x => { x with pulse := some t, pulseTaken := false }) s.dev)))) ∧
  (∀ (s : State) (n : Fin 4) (k : Nat) (e : StreamEntry) (f : ImuFields), s.dev.imuStream n.val = some (k, e, f) →
    f.syncMode = false →
    ((s.dev.imu n.val).trans = none →
      exec (.imuDrdyEdge n) s =
        .next (s.withDev (emit (.spi n.val f.cmd f.rxLen)
          (modImu n.val (fun x => { x with trans := some (some ((s.dev.now : Int) - e.declLatNs).toNat, s.dev.now) }) s.dev)))) ∧
    ((s.dev.imu n.val).trans.isSome = true →
      exec (.imuDrdyEdge n) s =
        .next (s.withDev (bump (barImu n.val + 0x0C) (s.dev.imu n.val).overrun 1
          (fun c d => modImu n.val (fun x => { x with overrun := c }) d) s.dev)))) ∧
  (∀ (s : State) (n : Fin 4) (k : Nat) (e : StreamEntry) (f : ImuFields) (time : Option Int) (d1 : Dev),
    s.dev.imuStream n.val = some (k, e, f) → f.syncMode = true →
    ((∃ p, drdyPulse f (s.dev.imu n.val) s.dev.now = some p ∧ time = some ((p : Int) + e.declLatNs) ∧
        d1 = modImu n.val (fun x => { x with pulseTaken := true }) s.dev) ∨
      (drdyPulse f (s.dev.imu n.val) s.dev.now = none ∧ time = none ∧
        d1 = bump (barImu n.val + 0x08) (s.dev.imu n.val).orphan 1 (fun c d => modImu n.val (fun x => { x with orphan := c }) d) s.dev)) →
    ((s.dev.imu n.val).trans = none →
      exec (.imuDrdyEdge n) s =
        .next (s.withDev (emit (.spi n.val f.cmd f.rxLen)
          (modImu n.val (fun x => { x with trans := some (time.map (·.toNat), d1.now) }) d1)))) ∧
    ((s.dev.imu n.val).trans.isSome = true →
      exec (.imuDrdyEdge n) s =
        .next (s.withDev (bump (barImu n.val + 0x0C) (s.dev.imu n.val).overrun 1
          (fun c d => modImu n.val (fun x => { x with overrun := c }) d) d1)))) ∧
  (∀ (s : State) (n : Fin 4) (k t a : Nat) (e : StreamEntry) (f : ImuFields) (payload : List Byte),
    s.dev.imuStream n.val = some (k, e, f) → (s.dev.imu n.val).trans = some (some t, a) →
    exec (.imuTransactionDone n payload) s =
        .next (s.withDev (imuSample n.val k f t a payload (modImu n.val (fun x => { x with trans := none }) s.dev)))) ∧
  (∀ (s : State) (n : Fin 4) (k a : Nat) (e : StreamEntry) (f : ImuFields) (payload : List Byte),
    s.dev.imuStream n.val = some (k, e, f) → (s.dev.imu n.val).trans = some (none, a) →
    exec (.imuTransactionDone n payload) s =
        .next (s.withDev (modImu n.val (fun x => { x with trans := none }) s.dev))) ∧
  (∀ (s : State) (n : Fin 4) (k t : Nat) (e : StreamEntry) (f : ImuFields), s.dev.imuStream n.val = some (k, e, f) →
    (s.dev.imu n.val).pulse = some t → f.syncMode = true → (s.dev.imu n.val).pulseTaken = false →
    secNs < 2 * (s.dev.now - t) * f.syncRateHz →
    exec (.imuMissedSample n) s =
        .next (s.withDev (bump (barImu n.val + 0x04) (s.dev.imu n.val).missed 1
          (fun c d => modImu n.val (fun x => { x with missed := c, pulseTaken := true }) d) s.dev))) ∧
  (∀ (s : State) (n : Fin 4) (payload : List Byte), s.dev.imuStream n.val = none →
    exec (.imuSyncPulse n) s =
        .next (s.withDev (s.dev)) ∧ exec (.imuDrdyEdge n) s =
        .next (s.withDev (s.dev)) ∧ exec (.imuTransactionDone n payload) s =
        .next (s.withDev (s.dev)) ∧ exec (.imuMissedSample n) s =
        .next (s.withDev (s.dev))) ∧
  (∀ (s : State) (n : Fin 4) (k : Nat) (e : StreamEntry) (f : ImuFields) (payload : List Byte), s.dev.imuStream n.val = some (k, e, f) →
    ((f.syncMode = false ∨ s.dev.pulseDue f = none ∨
        ∃ t q, s.dev.pulseDue f = some t ∧ (s.dev.imu n.val).pulse = some q ∧ t ≤ q) → exec (.imuSyncPulse n) s =
        .next (s.withDev (s.dev))) ∧
    ((s.dev.imu n.val).trans = none → exec (.imuTransactionDone n payload) s =
        .next (s.withDev (s.dev))) ∧
    ((f.syncMode = false ∨ (s.dev.imu n.val).pulse = none ∨ (s.dev.imu n.val).pulseTaken = true ∨
        ∃ t, (s.dev.imu n.val).pulse = some t ∧ 2 * (s.dev.now - t) * f.syncRateHz ≤ secNs) → exec (.imuMissedSample n) s =
        .next (s.withDev (s.dev))))

/-- A frame on an enabled CAN bus updates the bus's error state, is acknowledged in restricted operation, and is
delivered to the image's streams in their order; a protocol error counts. Framing errors count first; a sentence of
a kind that is not enabled does nothing more; a readable one of an enabled kind with its checksum right becomes a
sample of the stream, without values where it reports no fix, and pairs with the PPS that waits; one with a wrong
checksum, too long or unreadable counts a reject. A PPS edge publishes its stamp and clears the PPS-missing bit,
which 1.2 s without an edge set; where a PPS still waited it stays unpaired, as it does after 1,000 ms; the edge
leaves the time counter as it was. On a bus that is not enabled, without a GNSS stream in use, and for a timer that
is not due, nothing happens. (R46, R47, R48, R120, R121, R123, R124) -/
def Obligations.CanAndGnssInputs : Prop :=
  (∀ (s : State) (n : Fin 4) (frame : CanFrame) (b : CanBus) (d1 : Dev), assoc n.val s.dev.image.streams.buses = some b →
    d1 = modCan n.val (fun x => { x with rec_ := frame.rec_, errPassive := frame.errPassive }) s.dev →
    (b.restricted = true →
      exec (.canFrameReceived n frame) s =
        .next (s.withDev (s.dev.image.streams.entries.foldl (canDeliver n.val frame) (emit (.canAck n.val) d1)))) ∧
    (b.restricted = false →
      exec (.canFrameReceived n frame) s =
        .next (s.withDev (s.dev.image.streams.entries.foldl (canDeliver n.val frame) d1)))) ∧
  (∀ (s : State) (n : Fin 4) (rec_ : BitVec 8) (errPassive : Bool), (assoc n.val s.dev.image.streams.buses).isSome = true →
    exec (.canProtocolError n rec_ errPassive) s =
        .next (s.withDev (bump (barCan n.val + 0x04) (s.dev.can n.val).proto 1
          (fun c d => modCan n.val (fun x => { x with proto := c, rec_ := rec_, errPassive := errPassive }) d) s.dev))) ∧
  (∀ (s : State) (q : Sentence) (n : Nat) (e : StreamEntry) (f : GnssFields) (d0 d1 : Dev) (absent : Bool),
    s.dev.gnssStream = some (n, e, f) → s.dev.image.streams.gnssEn = true →
    d0 = (if q.framingErrors = 0 then s.dev else bump (barGnss + 0x04) s.dev.ports.gnss.framing q.framingErrors
      (fun c d => modGnss (fun x => { x with framing := c }) d) s.dev) →
    d1 = (match q.kind with
      | .gga => modGnss (fun x => { x with fixQuality := BitVec.ofNat 4 q.fixQuality }) d0
      | .rmc => modGnss (fun x => { x with rmcValid := q.rmcActive }) d0
      | _ => d0) →
    absent = (match q.kind with | .gga => decide (q.fixQuality = 0) | .rmc => !q.rmcActive | _ => false) →
    (gnssEnabled f q.kind = false → exec (.gnssSentenceReceived q) s =
        .next (s.withDev (d0))) ∧
    (gnssEnabled f q.kind = true → (q.checksumOk = false ∨ 82 < q.length ∨ q.parsable = false) →
      exec (.gnssSentenceReceived q) s =
        .next (s.withDev (bump (barGnss + 0x08) d0.ports.gnss.sentenceReject 1
          (fun c d => modGnss (fun x => { x with sentenceReject := c }) d) d0))) ∧
    (gnssEnabled f q.kind = true → q.checksumOk = true → q.length ≤ 82 → q.parsable = true →
      exec (.gnssSentenceReceived q) s =
        .next (s.withDev (gnssPair n f q (egoSample n (d1.corrected n ((q.stamp : Int) - e.declLatNs) q.stamp) q.stamp
          { stream := n, t := 0, arrival := 0, values := [], geo := if absent then [] else q.values } d1))))) ∧
  (∀ s : State, ∃ t, exec .gnssPpsEdge s = .next t ∧ t.dev.time.ppsStamp = s.dev.now ∧ t.dev.time.ppsMissing = false ∧
    t.dev.time.dev = s.dev.time.dev) ∧
  (∀ s : State, s.dev.time.ppsStamp + 1200 * msNs ≤ s.dev.now →
    exec .ppsMissingTimeout s =
        .next (s.withDev ({ s.dev with time := { s.dev.time with ppsMissing := true } }))) ∧
  (∀ s : State, s.dev.now < s.dev.time.ppsStamp + 1200 * msNs → exec .ppsMissingTimeout s =
        .next (s.withDev (s.dev))) ∧
  (∀ (s : State) (p : Nat), s.dev.ports.gnss.pendingPps = some p →
    (p + secNs ≤ s.dev.now → exec .gnssPairTimeout s =
        .next (s.withDev (gnssUnpaired s.dev))) ∧ (s.dev.now < p + secNs → exec .gnssPairTimeout s =
        .next (s.withDev (s.dev)))) ∧
  (∀ s : State, s.dev.ports.gnss.pendingPps = none → exec .gnssPairTimeout s =
        .next (s.withDev (s.dev))) ∧
  (∀ (s : State) (n : Fin 4) (frame : CanFrame) (rec_ : BitVec 8) (errPassive : Bool), assoc n.val s.dev.image.streams.buses = none →
    exec (.canFrameReceived n frame) s =
        .next (s.withDev (s.dev)) ∧ exec (.canProtocolError n rec_ errPassive) s =
        .next (s.withDev (s.dev))) ∧
  (∀ (s : State) (q : Sentence), (s.dev.gnssStream = none ∨ s.dev.image.streams.gnssEn = false) → exec (.gnssSentenceReceived q) s =
        .next (s.withDev (s.dev)))

/-- On a core that runs: MOVI and ADDI set X (X0 keeps reading 0) to IMM and to Xa + IMM modulo 2^32, SETC sets CSCALE,
RDNSW reads NSW into X and clears it; each goes on to the next instruction and changes nothing else of the device.
LOOP opens a loop of IMM passes at the next instruction; LOOPX one of the smaller of X and IMM with LOOP_CLAMP where
X exceeds IMM, and 0 passes go on past the matching ENDL (where none follows, at the next instruction: the model's
choice). ENDL takes one pass off its counter, returns to the body's start while passes remain, and otherwise closes
the loop. A count of LOOP outside 1 to 65,535 is an open value. (R200, R201, R218) -/
def Obligations.CoreScalarInstructions : Prop :=
  (∀ (s : State) (cl : Fin 132) (co : Fin 64) (c : CoreState), s.dev.coreRuns cl.val co.val = true →
    c = s.dev.core (coreKey cl.val co.val) →
    (∀ x imm, exec (.movi cl co x imm) s =
        .next (s.withDev (s.dev.setCore (coreKey cl.val co.val) ((c.setX x imm).next)))) ∧
    (∀ x a imm, exec (.addi cl co x a imm) s =
        .next (s.withDev (s.dev.setCore (coreKey cl.val co.val) ((c.setX x (c.xr a + imm)).next)))) ∧
    (∀ imm, exec (.setc cl co imm) s =
        .next (s.withDev (s.dev.setCore (coreKey cl.val co.val) (({ c with cscale := imm }).next)))) ∧
    (∀ x, exec (.rdnsw cl co x) s =
        .next (s.withDev (s.dev.setCore (coreKey cl.val co.val) (({ c.setX x (c.nsw.setWidth 32) with nsw := 0 }).next)))) ∧
    (∀ l imm, exec (.loopOp cl co l imm) s =
        .next (s.withDev (s.dev.setCore (coreKey cl.val co.val) ((c.openLoop l (loopTimes imm)).next))))) ∧
  (∀ imm : Word, 1 ≤ imm.toNat → imm.toNat ≤ 65535 → loopTimes imm = imm.setWidth 16) ∧
  (∀ (s : State) (cl : Fin 132) (co : Fin 64) (c : CoreState) (l : Fin 4) (a : Fin 16) (imm : Word) (c1 : CoreState), s.dev.coreRuns cl.val co.val = true → c = s.dev.core (coreKey cl.val co.val) →
    c1 = (if imm.toNat < (c.xr a).toNat then c.flag nswLoopClamp else c) →
    (min (c.xr a).toNat imm.toNat ≠ 0 →
      exec (.loopx cl co l a imm) s =
        .next (s.withDev (s.dev.setCore (coreKey cl.val co.val) ((c1.openLoop l (BitVec.ofNat 16 (min (c.xr a).toNat imm.toNat))).next)))) ∧
    (∀ e, min (c.xr a).toNat imm.toNat = 0 → matchEnd c1 l.val 2048 (c1.pc + 1) 0 = some e →
      exec (.loopx cl co l a imm) s =
        .next (s.withDev (s.dev.setCore (coreKey cl.val co.val) (({ c1 with pc := e }).next)))) ∧
    (min (c.xr a).toNat imm.toNat = 0 → matchEnd c1 l.val 2048 (c1.pc + 1) 0 = none →
      exec (.loopx cl co l a imm) s =
        .next (s.withDev (s.dev.setCore (coreKey cl.val co.val) (c1.next))))) ∧
  (∀ (s : State) (cl : Fin 132) (co : Fin 64) (c : CoreState) (l : Fin 4) (n : BitVec 16) (c1 : CoreState), s.dev.coreRuns cl.val co.val = true → c = s.dev.core (coreKey cl.val co.val) →
    n = bget 0 l.val c.lc - 1 → c1 = { c with lc := bput 0 l.val n c.lc } →
    (∀ start rest, c.loops = (start, l.val) :: rest → n ≠ 0 →
      exec (.endl cl co l) s =
        .next (s.withDev (s.dev.setCore (coreKey cl.val co.val) ({ c1 with pc := start })))) ∧
    (∀ start rest, c.loops = (start, l.val) :: rest → n = 0 →
      exec (.endl cl co l) s =
        .next (s.withDev (s.dev.setCore (coreKey cl.val co.val) ({ c1 with pc := c1.pc + 1, loops := rest })))) ∧
    ((∀ start rest, c.loops ≠ (start, l.val) :: rest) →
      exec (.endl cl co l) s =
        .next (s.withDev (s.dev.setCore (coreKey cl.val co.val) (c1.next)))))

/-- On a core that runs: WSTART goes on where window IMM has been released to it and waits for it otherwise. END leaves
the core idle until its next window; its flags are collected for its window's tick, and the window's completion is
seen. WTALLY and DMAW go on where their condition holds and wait otherwise. SIGNAL adds 1 to the tally that X names,
where it names one. An undefined opcode stops the core with INVALID, and the window the core is in overruns. (R200,
R205, R206, R218, R230, R249) -/
def Obligations.CoreWindowInstructions : Prop :=
  (∀ (s : State) (cl : Fin 132) (co : Fin 64) (c : CoreState), s.dev.coreRuns cl.val co.val = true →
    c = s.dev.core (coreKey cl.val co.val) →
    (∀ (imm : Word) (key : Nat), c.window = some key → key % 65536 = imm.toNat →
      exec (.wstart cl co imm) s =
        .next (s.withDev (s.dev.setCore (coreKey cl.val co.val) (c.next)))) ∧
    (∀ imm : Word, (∀ key, c.window = some key → key % 65536 ≠ imm.toNat) →
      exec (.wstart cl co imm) s =
        .next (s.withDev (s.dev.setCore (coreKey cl.val co.val) ({ c with run := .waiting (.window imm.toNat) })))) ∧
    (∀ (t : Fin 256) (imm : Word), imm.toNat ≤ s.dev.tally cl.val t.val →
      exec (.wtally cl co t imm) s =
        .next (s.withDev (drain c.window (s.dev.setCore (coreKey cl.val co.val) (c.next))))) ∧
    (∀ (t : Fin 256) (imm : Word), s.dev.tally cl.val t.val < imm.toNat →
      exec (.wtally cl co t imm) s =
        .next (s.withDev (s.dev.setCore (coreKey cl.val co.val) ({ c with run := .waiting (.tally t.val imm.toNat) })))) ∧
    (∀ imm : Word, s.dev.outstanding cl.val co.val ≤ imm.toNat → exec (.dmaw cl co imm) s =
        .next (s.withDev (s.dev.setCore (coreKey cl.val co.val) (c.next)))) ∧
    (∀ imm : Word, imm.toNat < s.dev.outstanding cl.val co.val →
      exec (.dmaw cl co imm) s =
        .next (s.withDev (s.dev.setCore (coreKey cl.val co.val) ({ c with run := .waiting (.dma imm.toNat) })))) ∧
    (∀ (x : Fin 16) (target : Nat), signalTarget (c.xr x) = some target →
      exec (.signalOp cl co x) s =
        .next (s.withDev (incTally target ((c.xr x).toNat % 65536) (s.dev.setCore (coreKey cl.val co.val) (c.next))))) ∧
    (∀ x : Fin 16, signalTarget (c.xr x) = none → exec (.signalOp cl co x) s =
        .next (s.withDev (s.dev.setCore (coreKey cl.val co.val) (c.next))))) ∧
  (∀ (s : State) (cl : Fin 132) (co : Fin 64) (c : CoreState) (d1 : Dev), s.dev.coreRuns cl.val co.val = true → c = s.dev.core (coreKey cl.val co.val) →
    d1 = s.dev.setCore (coreKey cl.val co.val) ({ c.next with window := none, run := .stopped }) →
    (c.window = none → exec (.endOp cl co) s =
        .next (s.withDev (d1))) ∧
    (∀ key, c.window = some key →
      exec (.endOp cl co) s =
        .next (s.withDev (closeFlags (winOfKey key).1 (winOfKey key).2.1
          (leaveWindow (coreKey cl.val co.val) key (c.nsw.getLsbD 0)
            (noteFlags (winOfKey key).2.1 d1 (coreKey cl.val co.val))) cl.val)))) ∧
  (∀ (s : State) (cl : Fin 132) (co : Fin 64) (c : CoreState) (d1 : Dev), s.dev.coreRuns cl.val co.val = true → c = s.dev.core (coreKey cl.val co.val) → d1 = s.dev.setCore (coreKey cl.val co.val) ({ c.flag nswInvalid with run := .stopped }) →
    (c.window = none → exec (.undefinedOpcode cl co) s =
        .next (s.withDev (d1))) ∧
    (∀ key r, c.window = some key → d1.windowRec (winOfKey key).1 (winOfKey key).2.1 (winOfKey key).2.2 = some r →
      exec (.undefinedOpcode cl co) s =
        .next (s.withDev (overrun (winOfKey key).1 (winOfKey key).2.1 (winOfKey key).2.2 r d1))))

/-- On a core that runs, where the address range lies in its local SRAM or its cluster's: LDV loads 64 bytes at X + IMM
into V, little-endian, and reports what SEC-DED found; STVM stores exactly the lanes of V whose bit of Xm[15:0] is
set, 4 bytes each at X + 4 × lane, and every byte outside them stays; RADD, in cluster SRAM only, adds each selected
lane into its word, or holds it back in fixed-order mode, and reports what SEC-DED found; DMAQ, at an 8-byte-aligned
cluster address, queues the descriptor, or waits while 8 of the core's are outstanding. Where the core addresses no
memory the command faults by name. (R196, R200, R203, R204, R205, R207, R230) -/
def Obligations.CoreMemoryInstructions : Prop :=
  (∀ (s : State) (cl : Fin 132) (co : Fin 64) (c : CoreState) (v : Fin 32) (a : Fin 16) (imm : Word) (ecc : Ecc), s.dev.coreRuns cl.val co.val = true → c = s.dev.core (coreKey cl.val co.val) →
    (∀ p, coreRange cl.val co.val (c.xr a + imm).toNat 64 = some p →
      exec (.ldv cl co v a imm ecc) s =
        .next (s.withDev (eccRead cl.val c.window ecc
          (s.dev.setCore (coreKey cl.val co.val) ((c.setVec v.val (fun i => BitVec.ofNat 32 (s.dev.readLe (p + 4 * i) 4))).next))))) ∧
    (coreRange cl.val co.val (c.xr a + imm).toNat 64 = none →
      exec (.ldv cl co v a imm ecc) s = .fault .coreAddress)) ∧
  (∀ (s : State) (cl : Fin 132) (co : Fin 64) (c : CoreState) (v : Fin 32) (a m : Fin 16), s.dev.coreRuns cl.val co.val = true → c = s.dev.core (coreKey cl.val co.val) →
    (∀ ps, lanePlaces cl.val co.val (c.xr a).toNat (c.xr m) = some ps →
      ∃ t, exec (.stvm cl co v a m) s = .next t ∧
        t.dev = ps.foldl (fun d e => setBytes e.2 (leBytes 4 (c.lane v.val e.1).toNat) d) (s.dev.setCore (coreKey cl.val co.val) (c.next)) ∧
        ∀ b : Nat, (∀ e ∈ ps, b < e.2 ∨ e.2 + 4 ≤ b) → t.dev.byte b = s.dev.byte b) ∧
    (lanePlaces cl.val co.val (c.xr a).toNat (c.xr m) = none →
      exec (.stvm cl co v a m) s = .fault .coreAddress)) ∧
  (∀ (s : State) (cl : Fin 132) (co : Fin 64) (c : CoreState) (x : Fin 16) (v : Fin 32) (m : AddLanes), s.dev.coreRuns cl.val co.val = true → c = s.dev.core (coreKey cl.val co.val) →
    (∀ ps, 0x1000000 ≤ (c.xr x).toNat → lanePlaces cl.val co.val (c.xr x).toNat (c.xr m.mask) = some ps →
      exec (.radd cl co x v m) s =
        .next (s.withDev (eccRead cl.val c.window m.ecc (ps.foldl
          (fun d e => reduceAdd (s.dev.fixedOrder cl.val co.val) c.window cl.val co.val e.2 (c.lane v.val e.1) d)
          (s.dev.setCore (coreKey cl.val co.val) (c.next)))))) ∧
    ((c.xr x).toNat < 0x1000000 → exec (.radd cl co x v m) s = .fault .coreAddress)) ∧
  (∀ (s : State) (cl : Fin 132) (co : Fin 64) (c : CoreState) (x : Fin 16), s.dev.coreRuns cl.val co.val = true → c = s.dev.core (coreKey cl.val co.val) →
    (∀ p, (c.xr x).toNat % 8 = 0 → 0x1000000 ≤ (c.xr x).toNat → coreRange cl.val co.val (c.xr x).toNat 0x40 = some p →
      (s.dev.outstanding cl.val co.val < 8 → exec (.dmaq cl co x) s =
        .next (s.withDev (enqueue cl.val co.val p (s.dev.setCore (coreKey cl.val co.val) (c.next))))) ∧
      (8 ≤ s.dev.outstanding cl.val co.val → exec (.dmaq cl co x) s =
        .next (s.withDev (s.dev.setCore (coreKey cl.val co.val) ({ c with run := .waiting (.dmaQueue p) }))))) ∧
    (((c.xr x).toNat % 8 ≠ 0 ∨ (c.xr x).toNat < 0x1000000) → exec (.dmaq cl co x) s = .fault .coreAddress))

/-- In every state whose memory is in its canonical form, when STVM on a core that runs answers a next state, each
selected lane's four bytes at its place read back as the lane, least significant byte first, whichever lanes are
selected and wherever in the core's or its cluster's SRAM they lie; every byte of memory outside those places reads
as before, and the form is kept. (R5, R196, R200, R210) -/
def Obligations.StoredLanesReadBack : Prop :=
  ∀ (s : State) (cl : Fin 132) (co : Fin 64) (c : CoreState) (v : Fin 32) (a m : Fin 16) (ps : List (Nat × Nat)), s.dev.coreRuns cl.val co.val = true → c = s.dev.core (coreKey cl.val co.val) → memOk s.dev.mem →
    lanePlaces cl.val co.val (c.xr a).toNat (c.xr m) = some ps →
    ∃ t, exec (.stvm cl co v a m) s = .next t ∧ memOk t.dev.mem ∧
      (∀ e ∈ ps, BitVec.ofNat 32 (t.dev.readLe e.2 4) = c.lane v.val e.1) ∧
      ∀ b : Nat, (∀ e ∈ ps, b < e.2 ∨ e.2 + 4 ≤ b) → t.dev.byte b = s.dev.byte b

/-- On a core that runs: ACCZ zeroes all 128 words of ACC and tags it INT32 or FP32; ACCRD reads a column of ACC into V
and ACCWR writes one from V; ACCSCL multiplies row i by lane i in FP32, flags it and tags ACC FP32. MMA with a
listed pair of formats, K above 0 and both operands in memory accumulates all 128 sums, with the flags of each, and
reports what SEC-DED found; a pair that is not listed sets INVALID and leaves ACC; K of 0 or below leaves ACC; an
operand where no memory is faults. (R197, R199, R200, R207, R213, R214) -/
def Obligations.MatrixUnitInstructions : Prop :=
  (∀ (s : State) (cl : Fin 132) (co : Fin 64) (c : CoreState), s.dev.coreRuns cl.val co.val = true →
    c = s.dev.core (coreKey cl.val co.val) →
    (∀ a fp, exec (.accz cl co a fp) s =
        .next (s.withDev (s.dev.setCore (coreKey cl.val co.val) ((cells.foldl (fun (x : CoreState) e => x.setAcc a.val e.1 e.2 0)
          { c with accFp := bput false a.val fp c.accFp }).next)))) ∧
    (∀ v a col, exec (.accrd cl co v a col) s =
        .next (s.withDev (s.dev.setCore (coreKey cl.val co.val) ((c.setVec v.val (fun i => c.accAt a.val i col.val)).next)))) ∧
    (∀ a v col, exec (.accwr cl co a v col) s =
        .next (s.withDev (s.dev.setCore (coreKey cl.val co.val) ((lanes.foldl
          (fun x i => x.setAcc a.val i col.val (c.lane v.val i)) c).next)))) ∧
    (∀ (a : Fin 8) (v : Fin 32) (c1 : CoreState),
      c1 = cells.foldl (fun x e => (x.setAcc a.val e.1 e.2 (f32Mul (c.accIn true a.val e.1 e.2) (c.lane v.val e.1)).v).flag
        (f32Mul (c.accIn true a.val e.1 e.2) (c.lane v.val e.1)).flags) c →
      exec (.accscl cl co a v) s =
        .next (s.withDev (s.dev.setCore (coreKey cl.val co.val) (({ c1 with accFp := bput false a.val true c1.accFp }).next))))) ∧
  (∀ (s : State) (cl : Fin 132) (co : Fin 64) (c : CoreState) (acc : Fin 8) (xa xb xk : Fin 16) (fmt : BitVec 6) (subA subB : Bool) (ecc : Ecc), s.dev.coreRuns cl.val co.val = true → c = s.dev.core (coreKey cl.val co.val) →
    (fmtPair fmt subA subB = none →
      exec (.mma cl co acc xa xb xk fmt subA subB ecc) s =
        .next (s.withDev (s.dev.setCore (coreKey cl.val co.val) ((c.flag nswInvalid).next)))) ∧
    (∀ fa fb fp, fmtPair fmt subA subB = some (fa, fb, fp) →
      ((c.xr xk).toInt ≤ 0 → exec (.mma cl co acc xa xb xk fmt subA subB ecc) s =
        .next (s.withDev (s.dev.setCore (coreKey cl.val co.val) (c.next)))) ∧
      (∀ pa pb, 0 < (c.xr xk).toInt →
        coreRange cl.val co.val (c.xr xa).toNat (16 * rowStride fa (c.xr xk).toNat) = some pa →
        coreRange cl.val co.val (c.xr xb).toNat (8 * rowStride fb (c.xr xk).toNat) = some pb →
        exec (.mma cl co acc xa xb xk fmt subA subB ecc) s =
        .next (s.withDev (eccRead cl.val c.window ecc
          (s.dev.setCore (coreKey cl.val co.val) ((mmaCore s.dev acc.val fa fb fp pa pb (c.xr xk).toNat c).next))))) ∧
      (0 < (c.xr xk).toInt →
        coreRange cl.val co.val (c.xr xa).toNat (16 * rowStride fa (c.xr xk).toNat) = none →
        exec (.mma cl co acc xa xb xk fmt subA subB ecc) s = .fault .coreAddress)))

/-- On a core that runs: VOP in INT32 writes each lane of Vd with the wrapping sum, difference, product or product plus
Vc, the smaller, larger, absolute, negated value, and, or or exclusive or; in FP32 with the binary32 result and its
flags; cmpgt writes the mask of greater lanes to lane 0 of Vd, and select takes Va where lane 0 of Vc has the lane's
bit set, else Vb. VCVT converts to a block format or lane by lane; VRED puts the tree's sum or maximum into lane 0
of Vd with its flags; VFN applies its function to each lane. An INT32 shift is an open value. (R198, R200, R215,
R216, R217, R218) -/
def Obligations.VectorUnitInstructions : Prop :=
  (∀ (s : State) (cl : Fin 132) (co : Fin 64) (c : CoreState), s.dev.coreRuns cl.val co.val = true →
    c = s.dev.core (coreKey cl.val co.val) →
    (∀ op vd va vb vc, op ≠ .cmpgt → op ≠ .select →
      exec (.vop cl co op true vd va vb vc) s =
        .next (s.withDev (s.dev.setCore (coreKey cl.val co.val) ((c.setVec vd.val
          (fun i => vopInt op (c.lane va.val i) (c.lane vb.val i) (c.lane vc.val i))).next)))) ∧
    (∀ op vd va vb vc, op ≠ .cmpgt → op ≠ .select →
      exec (.vop cl co op false vd va vb vc) s =
        .next (s.withDev (s.dev.setCore (coreKey cl.val co.val) ((c.setRes vd.val
          (fun i => vopFp op (c.lane va.val i) (c.lane vb.val i) (c.lane vc.val i))).next)))) ∧
    (∀ int vd va vb vc, exec (.vop cl co .cmpgt int vd va vb vc) s =
        .next (s.withDev (s.dev.setCore (coreKey cl.val co.val) ((c.setLane vd.val 0 (gtMask int c va.val vb.val)).next)))) ∧
    (∀ int vd va vb vc, exec (.vop cl co .select int vd va vb vc) s =
        .next (s.withDev (s.dev.setCore (coreKey cl.val co.val) ((c.setVec vd.val
          (fun i => if (c.lane vc.val 0).getLsbD i then c.lane va.val i else c.lane vb.val i)).next)))) ∧
    (∀ vd va int f sat shift, f.block = true →
      exec (.vcvt cl co vd va int f sat shift) s =
        .next (s.withDev (s.dev.setCore (coreKey cl.val co.val) ((convBlock c vd.val va.val int f shift.toInt).next)))) ∧
    (∀ vd va int f sat shift, f.block = false →
      exec (.vcvt cl co vd va int f sat shift) s =
        .next (s.withDev (s.dev.setCore (coreKey cl.val co.val) ((convLanes c vd.val va.val int f sat shift.toInt).next)))) ∧
    (∀ vd va, exec (.vred cl co vd va false) s =
        .next (s.withDev (s.dev.setCore (coreKey cl.val co.val) (((c.setLane vd.val 0 (tree f32Add (lanes.map (fun i => c.lane va.val i))).v).flag
          (tree f32Add (lanes.map (fun i => c.lane va.val i))).flags).next)))) ∧
    (∀ vd va, ∃ x, tree (fun a b => { v := f32Max a b }) (lanes.map (fun i => c.lane va.val i)) = x ∧
      exec (.vred cl co vd va true) s =
        .next (s.withDev (s.dev.setCore (coreKey cl.val co.val) (((c.setLane vd.val 0 x.v).flag x.flags).next)))) ∧
    (∀ vd va f, exec (.vfn cl co vd va f) s =
        .next (s.withDev (s.dev.setCore (coreKey cl.val co.val) ((c.setRes vd.val (fun i => vfnOf f (c.lane va.val i))).next))))) ∧
  (∀ a b c : Word, vopInt .add a b c = a + b ∧ vopInt .sub a b c = a - b ∧ vopInt .mul a b c = a * b ∧
    vopInt .fma a b c = a * b + c ∧ vopInt .neg a b c = -a ∧ vopInt .and a b c = a &&& b ∧
    vopInt .or a b c = a ||| b ∧ vopInt .xor a b c = a ^^^ b ∧
    (vopInt .min a b c).toInt = min a.toInt b.toInt ∧ (vopInt .max a b c).toInt = max a.toInt b.toInt)

/-- On a core that runs: SMAX raises each lane of Vd to the largest of the n columns from Vs on; SEXP turns the columns
into exponentials in order, adding each to Vl; SRSC writes the rescale factor to Va, multiplies Vl by it and copies
Vd to Vm; SMRG merges the two states: the larger maximum to Vd, the rescaled sum to Vd + 1 and the two factors to Vs
and Vs + 1. A row whose new maximum is −inf has the rescale factor 1. (R199, R200) -/
def Obligations.SoftmaxInstructions : Prop :=
  (∀ (s : State) (cl : Fin 132) (co : Fin 64) (c : CoreState), s.dev.coreRuns cl.val co.val = true →
    c = s.dev.core (coreKey cl.val co.val) →
    (∀ vd vs n, exec (.smax cl co vd vs n) s =
        .next (s.withDev (s.dev.setCore (coreKey cl.val co.val) ((c.setVec vd.val (fun i =>
          (List.range n).foldl (fun m j => f32Max m (c.lane (vs.val + j) i)) (c.lane vd.val i))).next)))) ∧
    (∀ vs vm vl n, exec (.sexp cl co vs vm vl n) s =
        .next (s.withDev (s.dev.setCore (coreKey cl.val co.val) (((List.range n).foldl (sexpColumn vs.val vm.val vl.val) c).next)))) ∧
    (∀ (va vm vd vl : Fin 32) (r : Nat → FRes), r = (fun i => rescale (c.lane vm.val i) (c.lane vd.val i) c.cscale) →
      exec (.srsc cl co va vm vd vl) s =
        .next (s.withDev (s.dev.setCore (coreKey cl.val co.val) ((((c.setRes va.val r).setRes vl.val (fun i => f32Mul (c.lane vl.val i) (r i).v)).setVec
          vm.val (fun i => c.lane vd.val i)).next)))) ∧
    (∀ (vd vs : Fin 32) (m : Nat → F32) (a1 a2 p1 p2 l : Nat → FRes),
      m = (fun i => f32Max (c.lane vs.val i) (c.lane vd.val i)) →
      a1 = (fun i => rescale (c.lane vs.val i) (m i) c.cscale) → a2 = (fun i => rescale (c.lane vd.val i) (m i) c.cscale) →
      p1 = (fun i => f32Mul (a1 i).v (c.lane (vs.val + 1) i)) → p2 = (fun i => f32Mul (a2 i).v (c.lane (vd.val + 1) i)) →
      l = (fun i => { f32Add (p1 i).v (p2 i).v with
        invalid := (f32Add (p1 i).v (p2 i).v).invalid || (p1 i).invalid || (p2 i).invalid,
        ovf := (f32Add (p1 i).v (p2 i).v).ovf || (p1 i).ovf || (p2 i).ovf }) →
      exec (.smrg cl co vd vs) s =
        .next (s.withDev (s.dev.setCore (coreKey cl.val co.val) (((((c.setVec vd.val m).setRes (vd.val + 1) l).setRes vs.val a1).setRes (vs.val + 1) a2).next))))) ∧
  (∀ old scale : F32, (rescale old f32NegInf scale).v = 0x3F800000)

/-- For a core that waits or is stopped, or whose cluster is gated, restarting or failed, each of the 29 instructions
and an undefined opcode leave the whole machine as it is. (R200, R428) -/
def Obligations.CoresThatDoNotRunIgnoreInstructions : Prop :=
  ∀ (s : State) (cl : Fin 132) (co : Fin 64) (i : Instr), s.dev.coreRuns cl.val co.val = false → i.onCore = some (cl, co) →
    exec i s = .next s

/-- TRANSFER_START takes the engine's first descriptor that has not started. One with an uncorrectable error is lost
with its cluster's handling of it; of any other, what SEC-DED found is reported first: one that fails a check is
refused with its code, and one that passes starts at this instant, its descriptor and its route noted.
TRANSFER_COMPLETE of a started transfer that has not overtaken one between the same places moves its data, frees its
place, counts its tally when TALLY_EN is set, completes a packet it wrote, and reports what SEC-DED found in each
tensor it read. A started transfer that has not completed 100 µs after its start is abandoned: the writes that
landed stay, its timeout counts, its window is marked missing, and where it carried a Serge packet a unit not yet in
fault is. (R205, R206, R207, R209, R232, R233, R234, R235, R236, R300, R320) -/
def Obligations.TransfersMoveDataAtCompletion : Prop :=
  (∀ (s : State) (cl : DescRead) (n : Nat) (x : Transfer),
    (s.dev.cluster cl.cluster.val).dma.findIdx? (fun t => t.started.isNone) = some n →
    (s.dev.cluster cl.cluster.val).dma[n]? = some x →
    (cl.ecc = .uncorrectable → exec (.transferStart cl) s =
        .next (s.withDev (eccRead cl.cluster.val x.window cl.ecc
        (releaseTransfer cl.cluster.val n x.core s.dev)))) ∧
    (∀ d1 : Dev, cl.ecc ≠ .uncorrectable → d1 = eccRead cl.cluster.val x.window cl.ecc s.dev →
      (∀ code, transferError (d1.tableOf cl.cluster.val x.window) (s.dev.readTransfer x.addr) = some code →
        exec (.transferStart cl) s =
        .next (s.withDev (refuseTransfer cl.cluster.val n x code d1))) ∧
      (∀ src dst, transferError (d1.tableOf cl.cluster.val x.window) (s.dev.readTransfer x.addr) = none →
        tensorOf (d1.tableOf cl.cluster.val x.window) (s.dev.readTransfer x.addr).src = some src →
        tensorOf (d1.tableOf cl.cluster.val x.window) (s.dev.readTransfer x.addr).dst = some dst →
        exec (.transferStart cl) s =
        .next (s.withDev (d1.modCluster cl.cluster.val (fun c => { c with
            dma := setNth n { x with
              route := d1.routeOf x.window (s.dev.readTransfer x.addr) src dst
              started := some (s.dev.readTransfer x.addr, d1.now, d1.time.k) } c.dma })))))) ∧
  (∀ (s : State) (cl : Fin 132) (n : Nat) (ecc : List Ecc) (x : Transfer) (t : TransferDesc) (since : Nanos) (k : Nat) (d1 : Dev),
    (s.dev.cluster cl.val).dma[n]? = some x → x.started = some (t, since, k) →
    s.dev.arrives cl.val n (s.dev.tableOf cl.val x.window) t = true →
    d1 = releaseTransfer cl.val n x.core (moveData (s.dev.moveCtx cl.val x) (s.dev.tableOf cl.val x.window) t (fun _ => true) s.dev) →
    exec (.transferComplete cl n ecc) s =
        .next (s.withDev (((readsOf t).zip ecc).foldl (tensorEcc (s.dev.tableOf cl.val x.window) t x.window)
          (packetComplete (s.dev.tableOf cl.val x.window) t.dst (if t.tallyEn = true
            then incTally (tallyCluster cl.val (s.dev.tableOf cl.val x.window) t) t.tally d1 else d1))))) ∧
  (∀ (s : State) (cl : Fin 132) (n : Nat) (x : Transfer) (t : TransferDesc) (since : Nanos) (k : Nat) (d1 d2 : Dev),
    (s.dev.cluster cl.val).dma[n]? = some x → x.started = some (t, since, k) →
    (s.dev.now < since + 100 * usNs → exec (.transferTimeout cl n) s =
        .next (s.withDev (s.dev))) ∧
    (since + 100 * usNs ≤ s.dev.now →
      d1 = moveData (s.dev.moveCtx cl.val x) (s.dev.tableOf cl.val x.window) t (Config.landed s.dev.freeCtr)
        { s.dev with freeCtr := s.dev.freeCtr + 1 } →
      d2 = faultKey x.window (releaseTransfer cl.val n x.core
        (satEvent (barTwl cl.val + 4) (d1.cluster cl.val).timeout (d1.cluster cl.val).timeout.inc
          (d1.modCluster cl.val (fun c => { c with timeout := (d1.cluster cl.val).timeout.inc })))) →
      (d2.packetUnit t.dst = none → exec (.transferTimeout cl n) s =
        .next (s.withDev (d2))) ∧
      (∀ u, d2.packetUnit t.dst = some u →
        exec (.transferTimeout cl n) s =
        .next (s.withDev (if (d2.srgUnit u).state = .fault then d2 else faultUnit u 3 false d2)))))

/-- A scrub access of a cluster that runs, or is in a golden visit, advances the bank's line and reports what SEC-DED
found. A flit error counts and raises a health event. The first expiry of a link transaction counts a retry; for a
LIFT window the unit that did the work counts it too. The expiry of the retry counts, marks the owning work missing
and restarts the partition. A restarting Burlap cluster that has been reloaded rejoins at the next major tick
boundary. (R186, R207, R211, R407, R426, R428) -/
def Obligations.ScrubbingLinksAndReloads : Prop :=
  (∀ (s : State) (cl : Fin 132) (bank : Fin 288) (ecc : Ecc),
    ((s.dev.cluster cl.val).state = .running ∨ (s.dev.cluster cl.val).state = .golden) →
    exec (.scrubAccess cl bank ecc) s =
        .next (s.withDev (eccRead cl.val none ecc (s.dev.modCluster cl.val (fun c => { c with
          scrub := bput 0 bank.val ((bget 0 bank.val c.scrub + 1) % bankLines bank.val) c.scrub }))))) ∧
  (∀ s : State, exec .flitCrcError s =
        .next (s.withDev (conditionEvent (Config.barOf 9) s.dev.fabric.flitRetry.inc.val.toNat
          (satEvent (Config.barOf 9) s.dev.fabric.flitRetry s.dev.fabric.flitRetry.inc
            { s.dev with fabric := { s.dev.fabric with flitRetry := s.dev.fabric.flitRetry.inc } })))) ∧
  (∀ (s : State) (die : Fin 6) (part tick w : Nat),
    exec (.linkTransactionTimeout die part true tick w) s =
        .next (s.withDev (restartPartition die.val part causeTimeout true (miss .transfer .main tick w
          (satEvent (barTsq + 0x200 + 0x20 * die.val + 0x10) (s.dev.die die.val).linkTimeout (s.dev.die die.val).linkTimeout.inc
            (s.dev.setDie die.val { s.dev.die die.val with linkTimeout := (s.dev.die die.val).linkTimeout.inc })))))) ∧
  (∀ (s : State) (die : Fin 6) (part tick w : Nat) (d1 : Dev),
    d1 = satEvent (barTsq + 0x200 + 0x20 * die.val + 0x0C) (s.dev.die die.val).linkRetry (s.dev.die die.val).linkRetry.inc
      (s.dev.setDie die.val { s.dev.die die.val with linkRetry := (s.dev.die die.val).linkRetry.inc }) →
    (d1.windowRec .main tick w = none → exec (.linkTransactionTimeout die part false tick w) s =
        .next (s.withDev (d1))) ∧
    (∀ r g o rank, d1.windowRec .main tick w = some r → d1.gridAt tick = some g → gridOp g w = some (o, rank) →
      r.kind = .chambray → o.op = .lift →
      exec (.linkTransactionTimeout die part false tick w) s =
        .next (s.withDev (bump (barChbOf (o.units.getD rank 0) + 0x28)
          (d1.chb (o.units.getD rank 0)).remoteRetry 1
          (fun c => modChb (o.units.getD rank 0) (fun u => { u with remoteRetry := c })) d1))) ∧
    (∀ r, d1.windowRec .main tick w = some r → r.kind ≠ .chambray → exec (.linkTransactionTimeout die part false tick w) s =
        .next (s.withDev (d1)))) ∧
  (∀ (s : State) (cl : Fin 4), (s.dev.cluster (128 + cl.val)).state = .restarting →
    exec (.burlapClusterReloadDone cl) s =
        .next (s.withDev ((loadBurlapCluster s.dev.image s.dev (128 + cl.val)).modCluster (128 + cl.val)
          (fun c => { c with rejoin := true }))))

/-- On a half that runs, after the issuer is noted: CREATE of a class of the half with room takes the lowest free index,
completes OK with it and makes an empty sequence of the issuer's; without room it is refused and counted; a class of
the other half or none is INVALID. FORK completes as forkOf says. FREE of a sequence of the half notes the epoch of
its release, once, and completes OK; another is INVALID. A reserved operation is INVALID and changes no sequence.
Every completion is written to its RESULT, and counts its tally. While the half's die restarts none of these
commands changes anything. (R271, R272, R273, R277, R278, R285, R288) -/
def Obligations.DamaskSequenceCommands : Prop :=
  (∀ (s : State) (half : Fin 2) (cmd : DmkCmd) (d0 : Dev), s.dev.halfRuns half.val = true → d0 = noteIssuer cmd s.dev →
    (∀ c i, d0.dmkClass cmd.cls = some c → c.half = half.val → d0.newIndex cmd.cls c = some i →
      exec (.create half cmd) s =
        .next (s.withDev (copyErrors half.val cmd { status := .ok, seq := i } (reply cmd { status := .ok, seq := i }
          (setSeq i (some { cls := cmd.cls, half := half.val, owner := ownerOf cmd.issuer, pages := [], freeAt := none })
            d0))))) ∧
    (∀ c, d0.dmkClass cmd.cls = some c → c.half = half.val → d0.newIndex cmd.cls c = none →
      exec (.create half cmd) s =
        .next (s.withDev (copyErrors half.val cmd { status := .refusedNoSeq } (reply cmd { status := .refusedNoSeq }
          (bumpDmk half.val 0x14 (·.createRefuse) (fun c x => { x with createRefuse := c }) 1 d0))))) ∧
    (∀ c, d0.dmkClass cmd.cls = some c → c.half ≠ half.val →
      exec (.create half cmd) s =
        .next (s.withDev (copyErrors half.val cmd { status := .invalid } (reply cmd { status := .invalid } d0))))) ∧
  (∀ (s : State) (half : Fin 2) (cmd : DmkCmd) (r : DmkReply) (d1 : Dev), s.dev.halfRuns half.val = true →
    forkOf half.val cmd (ownerOf cmd.issuer) (noteIssuer cmd s.dev) = (r, d1) →
    exec (.forkSeq half cmd) s =
        .next (s.withDev (copyErrors half.val cmd r (reply cmd r d1)))) ∧
  (∀ (s : State) (half : Fin 2) (cmd : DmkCmd) (d0 : Dev), s.dev.halfRuns half.val = true → d0 = noteIssuer cmd s.dev →
    (∀ q, d0.seqIn half.val cmd.seq = some q → q.freeAt = none →
      exec (.freeSeq half cmd) s =
        .next (s.withDev (copyErrors half.val cmd { status := .ok, seq := cmd.seq } (reply cmd { status := .ok, seq := cmd.seq }
          (setSeq cmd.seq (some { q with freeAt := some (d0.epochOf cmd) }) d0))))) ∧
    (d0.seqIn half.val cmd.seq = none →
      exec (.freeSeq half cmd) s =
        .next (s.withDev (copyErrors half.val cmd { status := .invalid, seq := cmd.seq }
          (reply cmd { status := .invalid, seq := cmd.seq } d0))))) ∧
  (∀ (s : State) (half : Fin 2) (cmd : DmkCmd), s.dev.halfRuns half.val = true →
    exec (.damaskReservedOp half cmd) s =
        .next (s.withDev (copyErrors half.val cmd { status := .invalid, seq := cmd.seq }
          (reply cmd { status := .invalid, seq := cmd.seq } (noteIssuer cmd s.dev))))) ∧
  (∀ (s : State) (half : Fin 2) (cmd : DmkCmd) (i : Instr), s.dev.halfRuns half.val = false →
    i ∈ [.create half cmd, .openView half cmd, .appendTok half cmd, .forkSeq half cmd, .freeSeq half cmd,
      .restore half cmd, .openQueue half cmd, .damaskReservedOp half cmd] → exec i s = .next s)

/-- On a half that runs: OPEN_VIEW of a sequence lists its pages within the horizon that are not dropped, oldest first,
pins each until the epoch closes, and reports the tokens of the dropped ones as missing. APPEND of 1 to 4,096 tokens
goes as appendTo says; any other count is INVALID. RESTORE of an entry that was listed in this epoch marks it
restored, and of another is INVALID. OPEN_QUEUE lists up to RECOMPUTE_PAGES entries of the queue, counting those of
its epoch. When an epoch is due it closes on both halves, the next one begins, and its issuers are dropped. (R268,
R274, R275, R276, R281, R282, R283) -/
def Obligations.DamaskPageCommands : Prop :=
  (∀ (s : State) (half : Fin 2) (cmd : DmkCmd) (d0 : Dev) (q : Sequence) (c : DmkClass), s.dev.halfRuns half.val = true →
    d0 = noteIssuer cmd s.dev → d0.seqIn half.val cmd.seq = some q → d0.dmkClass q.cls = some c →
    (∀ near shown missing r d1, near = q.pages.filter (fun p => !beyond c (d0.epochOf cmd) p) →
      shown = near.filter (fun p => !p.dropped) →
      missing = (near.filter (·.dropped)).foldl (fun n p => n + p.tokens) 0 →
      r = { status := .ok, seq := cmd.seq, entries := shown.map viewEntry, missing := missing } →
      d1 = noteMissingView cmd missing d0 →
      exec (.openView half cmd) s =
        .next (s.withDev (copyErrors half.val cmd r (reply cmd r (modHalf half.val (fun x => { x with
          pins := x.pins ++ (shown.map (fun p => (p.slot, d0.epochOf cmd))).filter (fun y => !x.pins.contains y),
          missing := bmod 0 (d0.epochOf cmd) (· + missing) x.missing,
          missingMain := bmod 0 (d0.epochOf cmd) (· + if d0.ofMain cmd then missing else 0) x.missingMain }) d1))))) ∧
    (1 ≤ cmd.count → cmd.count ≤ 4096 → ∀ r d1, appendTo half.val cmd q c d0 = (r, d1) →
      exec (.appendTok half cmd) s =
        .next (s.withDev (copyErrors half.val cmd r (reply cmd r d1)))) ∧
    ((cmd.count = 0 ∨ 4096 < cmd.count) →
      exec (.appendTok half cmd) s =
        .next (s.withDev (copyErrors half.val cmd { status := .invalid, seq := cmd.seq }
          (reply cmd { status := .invalid, seq := cmd.seq } d0))))) ∧
  (∀ (s : State) (half : Fin 2) (cmd : DmkCmd) (d0 : Dev) (hit : Rebuild → Bool), s.dev.halfRuns half.val = true →
    d0 = noteIssuer cmd s.dev →
    hit = (fun r => decide (r.number = cmd.entry) && decide (r.epoch = d0.epochOf cmd) && decide (r.seq = cmd.seq)) →
    ((d0.half half.val).rebuilds.any hit = true →
      exec (.restore half cmd) s =
        .next (s.withDev (copyErrors half.val cmd { status := .ok, seq := cmd.seq } (reply cmd { status := .ok, seq := cmd.seq }
          (modHalf half.val (fun x => { x with
            rebuilds := x.rebuilds.map (fun r => if hit r then { r with restored := true } else r) }) d0))))) ∧
    ((d0.half half.val).rebuilds.any hit = false →
      exec (.restore half cmd) s =
        .next (s.withDev (copyErrors half.val cmd { status := .invalid, seq := cmd.seq }
          (reply cmd { status := .invalid, seq := cmd.seq } d0))))) ∧
  (∀ (s : State) (half : Fin 2) (cmd : DmkCmd) (m : ModeRec) (d1 : Dev) (x : List (List Byte) × Dev),
    s.dev.halfRuns half.val = true →
    d1 = modHalf half.val (fun y => if y.listedTick = (noteIssuer cmd s.dev).epochOf cmd then y
      else { y with listed := 0, listedTick := (noteIssuer cmd s.dev).epochOf cmd }) (noteIssuer cmd s.dev) →
    d1.modeAt cmd.tick = some m →
    x = listQueue half.val ((noteIssuer cmd s.dev).epochOf cmd)
      ((d1.queue half.val ((noteIssuer cmd s.dev).epochOf cmd)).take (m.recomputePages - (d1.half half.val).listed)) d1 →
    exec (.openQueue half cmd) s =
        .next (s.withDev (copyErrors half.val cmd { status := .ok, entries := x.1 }
          (reply cmd { status := .ok, entries := x.1 } x.2)))) ∧
  (∀ (s : State) (d1 : Dev), s.dev.epochDue = true → d1 = closeHalf 1 s.dev.damask.epoch (closeHalf 0 s.dev.damask.epoch s.dev) →
    exec .epochClose s =
        .next (s.withDev ({ d1 with damask := { d1.damask with
          epoch := s.dev.damask.epoch + 1,
          issuers := d1.damask.issuers.filter (fun x => decide (s.dev.damask.epoch < x.1)) } })))

/-- A running solve that ends no later than its deadline ends as its loop does, run to its end. At the deadline: a unit
that has not stopped is given until 2 µs after it; a CALIB solve with windows of its span left, whose loop the timer
stops and whose window the warm start does not cut, keeps its iterate for the next window; any other ends, with what
its loop had come to. 2 µs after the deadline a unit that has not stopped is in fault; so is one with an
uncorrectable SRAM error, which counts, unless it is in fault already. A unit whose reset is complete is idle, its
slots are loaded again and their structure checked. (R303, R307, R313, R316, R320) -/
def Obligations.SergeSolvesEndOrFault : Prop :=
  (∀ (s : State) (unit : Fin 4) (run : SolveRun) (g : Nat) (r : SlotRec), (s.dev.srgUnit unit.val).state = .running →
    (s.dev.srgUnit unit.val).slotRunning = some g → s.dev.slotRec g = some r → s.dev.now ≤ (s.dev.srgSlot g).deadlineAt →
    exec (.solveEnd unit run) s =
        .next (s.withDev (endSolve g r (s.dev.wholeSolve g r run) s.dev))) ∧
  (∀ (s : State) (unit : Fin 4) (g : Nat) (r : SlotRec), (s.dev.srgUnit unit.val).state = .running →
    (s.dev.srgUnit unit.val).slotRunning = some g → s.dev.slotRec g = some r → (s.dev.srgSlot g).deadlineAt ≤ s.dev.now →
    exec (.sergeDeadline unit none) s =
        .next (s.withDev (modUnit unit.val (fun u => { u with
          stopDue := some (u.stopDue.getD (s.dev.srgSlot g).deadlineAt) }) s.dev)) ∧
    (∀ run : SolveRun,
      (r.cls = .calib → (s.dev.srgSlot g).windowsUsed < r.spanWindows → (s.dev.cutSolve g r run).ended = .timer →
        s.dev.cutAt ≠ some (s.dev.srgSlot g).deadlineAt →
        exec (.sergeDeadline unit (some run)) s =
        .next (s.withDev (pauseSolve g r (s.dev.cutSolve g r run) s.dev))) ∧
      ((r.cls ≠ .calib ∨ r.spanWindows ≤ (s.dev.srgSlot g).windowsUsed ∨ (s.dev.cutSolve g r run).ended ≠ .timer ∨
          s.dev.cutAt = some (s.dev.srgSlot g).deadlineAt) →
        exec (.sergeDeadline unit (some run)) s =
        .next (s.withDev (endSolve g r (s.dev.cutSolve g r run) s.dev))))) ∧
  (∀ (s : State) (unit : Fin 4) (t : Nanos), (s.dev.srgUnit unit.val).stopDue = some t → t + 2 * usNs ≤ s.dev.now →
    exec (.sergeStopTimeout unit) s =
        .next (s.withDev (faultUnit unit.val 1 false s.dev))) ∧
  (∀ (s : State) (unit : Fin 4), (s.dev.srgUnit unit.val).state ≠ .fault →
    exec (.sergeUncorrectableSramError unit) s =
        .next (s.withDev (faultUnit unit.val 2 false
          (bumpUnit unit.val 0x0C (·.eccUncorr) (fun c x => { x with eccUncorr := c }) 1 s.dev)))) ∧
  (∀ (s : State) (unit : Fin 4), (s.dev.srgUnit unit.val).state = .resetting →
    exec (.sergeUnitResetDone unit) s =
        .next (s.withDev (checkStructure unit.val (loadSlots unit.val (modUnit unit.val (fun x => { x with state := .idle })
          { s.dev with recovery := { s.dev.recovery with lastEnd := s.dev.now } })))))

/-- In a running visit, with the oscillators' shift recorded: where the signature of every core equals the segment's SIG
the visit goes on to the next segment, or after the last one passes, ends, resets its count of failures and ends
condition 0x0008 of the cluster. Where the signature of one core differs the visit fails. Outside a visit nothing
happens. (R220, R391, R392, R446) -/
def Obligations.GoldenVisitsPassOrFail : Prop :=
  (∀ (s : State) (cl : Fin 132) (sigs : List (BitVec 64)) (roShift : BitVec 16) (seg : GoldenSeg) (d0 : Dev),
    (s.dev.golden cl.val).running = true → s.dev.image.safety.segs[(s.dev.golden cl.val).seg]? = some seg →
    d0 = { s.dev with health := { s.dev.health with roShift := bput 0 cl.val roShift.toNat s.dev.health.roShift } } →
    ((∀ co, co < 64 → sigs[co]? = some seg.sig) → (s.dev.golden cl.val).seg + 1 < s.dev.image.safety.segs.length →
      exec (.goldenSegmentEnd cl sigs roShift) s =
        .next (s.withDev (startSegment cl.val ((s.dev.golden cl.val).seg + 1) (d0.setGolden cl.val
          { s.dev.golden cl.val with seg := (s.dev.golden cl.val).seg + 1 })))) ∧
    ((∀ co, co < 64 → sigs[co]? = some seg.sig) → s.dev.image.safety.segs.length ≤ (s.dev.golden cl.val).seg + 1 →
      exec (.goldenSegmentEnd cl sigs roShift) s =
        .next (s.withDev (endCondition 0x0008 cl.val
          (endVisit cl.val { s.dev.golden cl.val with seg := 0, fails := 0, passed := true } d0)))) ∧
    ((∃ co, co < 64 ∧ sigs[co]? ≠ some seg.sig) →
      exec (.goldenSegmentEnd cl sigs roShift) s =
        .next (s.withDev (failVisit cl.val d0)))) ∧
  (∀ (s : State) (cl : Fin 132) (sigs : List (BitVec 64)) (roShift : BitVec 16), (s.dev.golden cl.val).running = false →
    exec (.goldenSegmentEnd cl sigs roShift) s =
        .next (s.withDev (s.dev)))

/-- In every state, a lockstep mismatch (code 0x0001), a fabric error (0x0004), the loss of a REFCLK that was there, and
a tick interval more than 500 ppm past the minor tick length that was not reported before (0x0003), each leave a
state in which CLASS_V_ACTIVE is set, LAST_FAULT_CODE is the fault's code, SAFE_OK does not run and both pins are 0;
device time, the tick and the mode in force stay. (R54, R370, R381, R384, R386) -/
def Obligations.ClassVFaultsStopSafeOk : Prop :=
  ∀ (s : State) (i : Instr) (code : Nat),
    (i = .lockstepMismatch ∧ code = 0x0001) ∨ (i = .fabricError ∧ code = 0x0004) ∨
      (i = .refclkLoss ∧ s.dev.felt.refclkLost = false ∧ code = 0x0003) ∨
      (∃ elapsed, i = .tickIntervalTimeout elapsed ∧ s.dev.time.begun = true ∧ s.dev.felt.intervalFault = false ∧
        s.dev.time.minorNs < elapsed ∧ outOfBand elapsed s.dev.time.minorNs = true ∧ code = 0x0003) →
    ∃ t, exec i s = .next t ∧ t.dev.felt.classV = true ∧ t.dev.felt.lastCode = code ∧ t.dev.felt.safeOk ≠ .running ∧
      t.dev.felt.pinA = false ∧ t.dev.felt.pinB = false ∧ t.dev.time = s.dev.time ∧
      t.dev.plan.modeInForce = s.dev.plan.modeInForce

/-- When every condition has ended, the resume count has run out and CLASS_V_ACTIVE is set, RESUME_COUNT_EXPIRY clears
CLASS_V_ACTIVE and the conditions, sends a CLEARED notice for each, and a stopped SAFE_OK runs again. A passed
self-check, with the pair running, a whole good interval measured and REFCLK there, ends the conditions 0x0001 to
0x0003. The return of REFCLK releases the pair's held reset: the processor restarts. (R384, R387) -/
def Obligations.ClassVEndsAfterCleanTicks : Prop :=
  (∀ s : State, s.dev.felt.classV = true → s.dev.felt.resuming = true → s.dev.felt.resumeLeft = 0 → s.dev.felt.allEnded = true →
    ∀ f, f = { s.dev.felt with classV := false, conditions := [], resuming := false } →
    (f.safeOk = .stopped → exec .resumeCountExpiry s =
        .next (s.withDev (clearNotices s.dev.felt.conditions { s.dev with felt := runSafeOk f }))) ∧
    (f.safeOk ≠ .stopped → exec .resumeCountExpiry s =
        .next (s.withDev (clearNotices s.dev.felt.conditions { s.dev with felt := f })))) ∧
  (∀ s : State, s.dev.felt.selfCheckDue = true → s.dev.pairRuns = true → s.dev.felt.goodInterval = true → s.dev.felt.refclkLost = false →
    exec .selfCheckPass s =
        .next (s.withDev (endConditions 0x0003 (endConditions 0x0002 (endConditions 0x0001
          { s.dev with felt := { s.dev.felt with selfCheckDue := false } }))))) ∧
  (∀ s : State, s.dev.felt.refclkLost = true →
    (s.dev.felt.pairReset = true → exec .refclkReturn s =
        .next (s.withDev ({ s.dev with
        felt := { s.dev.felt with refclkLost := false, pairReset := false }
        boot := { s.dev.boot with procs := bmod {} 1 (fun p => { p with restarting := true, restartBegan := s.dev.now }) s.dev.boot.procs } }))) ∧
    (s.dev.felt.pairReset = false → exec .refclkReturn s =
        .next (s.withDev ({ s.dev with felt := { s.dev.felt with refclkLost := false, pairReset := false } }))))

/-- The watchdog of a processor that runs, in a device that is not held: it restarts alone, with its count, its start
and the restarts of the last 1,000 ms noted, and it is logged. The safety pair's is class V fault 0x0002. A third
within 1,000 ms raises a health event and is logged as a fault; a steward's fourth restarts its die. A processor
restart that completes, unless the pair is held in reset, empties its queue; the tick processor then decides every
waiting admission report, in the order of the dies. A watchdog of a processor that restarts, or in a held device,
and the end of a restart of one that runs, change nothing. (R417, R418, R427) -/
def Obligations.FirmwareProcessorsRestartAlone : Prop :=
  (∀ (s : State) (p : FwProc) (recent : List Nanos) (d1 d2 d3 : Dev), (s.dev.proc p.val).restarting = false → s.dev.boot.phase ≠ .held →
    recent = (s.dev.now :: (s.dev.proc p.val).recent).filter (fun t => decide (s.dev.now < t + 1000 * msNs)) →
    d1 = logWrite p.val (Config.severity 0x1000 (barFw p.val)).toNat (barFw p.val) [(s.dev.proc p.val).restarts.inc.val.toNat]
      (satEvent (barFw p.val) (s.dev.proc p.val).restarts (s.dev.proc p.val).restarts.inc
        (modProc p.val (fun f => { f with
          restarting := true, restartBegan := s.dev.now, recent := recent, restarts := (s.dev.proc p.val).restarts.inc }) s.dev)) →
    d2 = (if p.val = 1 then raiseV 0x0002 dieIod (Config.faultUnit 0x0002) (Config.faultArg 0x0002) false 0 d1 else d1) →
    d3 = healthEvent { code := 0x1000, severity := BitVec.ofNat 3 sevFault, unit := p.val, arg0 := barFw p.val, arg1 := (s.dev.proc p.val).restarts.inc.val.toNat }
      (logWrite p.val sevFault (barFw p.val) [(s.dev.proc p.val).restarts.inc.val.toNat] d2) →
    (recent.length < 3 → exec (.fwWatchdogExpiry p) s =
        .next (s.withDev (d2))) ∧
    (3 ≤ recent.length → (recent.length < 4 ∨ p.val < 4) → exec (.fwWatchdogExpiry p) s =
        .next (s.withDev (d3))) ∧
    (4 ≤ recent.length → 4 ≤ p.val → exec (.fwWatchdogExpiry p) s =
        .next (s.withDev (restartDie (p.val - 4) causeSteward d3)))) ∧
  (∀ (s : State) (p : FwProc), ((s.dev.proc p.val).restarting = true ∨ s.dev.boot.phase = .held) → exec (.fwWatchdogExpiry p) s =
        .next (s.withDev (s.dev))) ∧
  (∀ (s : State) (p : FwProc), (s.dev.proc p.val).restarting = false → exec (.firmwareRestartComplete p) s =
        .next (s.withDev (s.dev))) ∧
  (∀ (s : State) (p : FwProc), (s.dev.proc p.val).restarting = true → p.val ≠ 0 → (p.val = 1 → s.dev.felt.pairReset = false) →
    exec (.firmwareRestartComplete p) s =
        .next (s.withDev (modProc p.val (fun f => { f with restarting := false, queued := 0 }) s.dev))) ∧
  (∀ (s : State) (p : FwProc), (s.dev.proc p.val).restarting = true → p.val = 1 → s.dev.felt.pairReset = true →
    exec (.firmwareRestartComplete p) s =
        .next (s.withDev (s.dev))) ∧
  (∀ (s : State) (p : FwProc), (s.dev.proc p.val).restarting = true → p.val = 0 →
    exec (.firmwareRestartComplete p) s =
        .next (s.withDev ((List.range 6).foldl (fun d x => match (d.die x).report with
        | some r => decideReport x r.1 r.2 (d.modDie x (fun y => { y with report := none }))
        | none => d) (modProc p.val (fun f => { f with restarting := false, queued := 0 }) s.dev))))

/-- With the die's steward running and power on: the reload of a running die restart or partition restart ends with its
contents loaded, and where a partition's copy had an uncorrectable error its sequence starts again. A restart 300 ms
old is declared failed. A report that is awaited passes where its three checks hold and, on a memory-side die, the
LPDDR5X found agrees with MEM_CONFIG; it is decided while the tick processor runs, and waits while it restarts. A
die that has not reported by its deadline is not admitted. In a warm start's reload a die with no old work left is
reloaded, awaits admission and takes its time anew. (R411, R414, R417, R428, R430, R433, R434, R487) -/
def Obligations.PartitionsAndDiesRecover : Prop :=
  (∀ (s : State) (die : Fin 6) (r : DieRestart), s.dev.fwRuns (4 + die.val) = true → s.dev.powerOff die.val = false →
    (s.dev.die die.val).restart = some r → r.phase = .running →
    exec (.reloadDone die 0xFF true) s =
        .next (s.withDev (loadDie s.dev.image die.val (s.dev.setDie die.val
          { s.dev.die die.val with restart := some { r with phase := .reloaded s.dev.now } })))) ∧
  (∀ (s : State) (die : Fin 6) (part : Nat) (q : PartRestart), s.dev.fwRuns (4 + die.val) = true → s.dev.powerOff die.val = false →
    part ≠ 0xFF → (s.dev.die die.val).parts.find? (fun r => decide (r.index = part) && decide (r.phase = .running)) = some q →
    exec (.reloadDone die part true) s =
        .next (s.withDev (loadPartition q.part (s.dev.setDie die.val { s.dev.die die.val with
          parts := (s.dev.die die.val).parts.map (fun r => if r.index = part then { r with phase := .reloaded s.dev.now } else r) }))) ∧
    exec (.reloadDone die part false) s =
        .next (s.withDev (resetPartition q.part s.dev))) ∧
  (∀ (s : State) (die : Fin 6) (r : DieRestart), s.dev.powerOff die.val = false → (s.dev.die die.val).restart = some r →
    (r.since + 300 * msNs ≤ s.dev.now → exec (.restartTimeout die 0xFF) s =
        .next (s.withDev (declareFailed die.val 0xFF s.dev))) ∧
    (s.dev.now < r.since + 300 * msNs → exec (.restartTimeout die 0xFF) s =
        .next (s.withDev (s.dev)))) ∧
  (∀ (s : State) (die : Fin 6) (part : Nat) (q : PartRestart), s.dev.powerOff die.val = false → part ≠ 0xFF →
    (s.dev.die die.val).parts.find? (fun r => decide (r.index = part)) = some q → q.since + 300 * msNs ≤ s.dev.now →
    exec (.restartTimeout die part) s =
        .next (s.withDev (declareFailed die.val part s.dev))) ∧
  (∀ (s : State) (die : Fin 6) (digestsOk versionOk epochOk : Bool) (fit : DieFit) (start ok : Bool) (d1 : Dev),
    start = (decide ((s.dev.die die.val).state = .awaiting) && (s.dev.die die.val).reloaded && decide (s.dev.boot.phase = .verified)) →
    (start = true ∨ (s.dev.die die.val).reportDue = true) → s.dev.fwRuns (4 + die.val) = true → s.dev.powerOff die.val = false →
    d1 = noteMemory die.val fit.memory start s.dev →
    ok = (digestsOk && versionOk && epochOk && (decide (die.val < 4) || !d1.memMismatch)) →
    (d1.fwRuns 0 = true →
      exec (.dieAdmissionReport die digestsOk versionOk epochOk fit) s =
        .next (s.withDev (decideReport die.val ok fit.latency d1))) ∧
    (d1.fwRuns 0 = false →
      exec (.dieAdmissionReport die digestsOk versionOk epochOk fit) s =
        .next (s.withDev (fwEvent 0 (d1.modDie die.val (fun x => { x with
          report := some (ok, fit.latency) })))))) ∧
  (∀ (s : State) (die : Fin 6), s.dev.awaits die.val = true → s.dev.admissionLimit ≤ s.dev.now → s.dev.boot.phase ≠ .held →
    exec (.admissionDeadline die) s =
        .next (s.withDev (rejectDie die.val (s.dev.modDie die.val (fun x => { x with
          restart := none, parts := [], reloaded := true, report := none }))))) ∧
  (∀ (s : State) (die : Fin 6) (since : Nanos) (b : Nat) (d1 : Dev), s.dev.boot.warm = .reload since b →
    (s.dev.die die.val).reloaded = false → (s.dev.die die.val).state ≠ .out → s.dev.oldWork die.val = false → s.dev.powerOff die.val = false →
    d1 = s.dev.setDie die.val { s.dev.die die.val with
      state := .awaiting, restart := none, parts := [], report := none, resync := true, reloaded := true } →
    (4 ≤ die.val → exec (.dieReload die) s =
        .next (s.withDev (loadDie d1.image die.val (emptyMemorySide die.val d1)))) ∧
    (die.val < 4 → ∀ d2 : Dev, d2 = ((List.range 32).map (fun c => 32 * die.val + c)).foldl resetCluster d1 →
      exec (.dieReload die) s =
        .next (s.withDev (setUnitState die.val .idle (loadDie d2.image die.val
          (((List.range 32).map (fun c => 32 * die.val + c)).foldl (setClusters .running) d2))))))

/-- DEVICE_RESET with PORST_N high and no thermal trip, HEALTH_DEADLINE 2,000 ms after release with SAFE_OK not started,
and POWER_ON_RESET each leave device time at 0, empty memory, SAFE_OK not started with both pins 0, and the boot NVM
and fuses as they were; a device reset keeps the straps and its boot hint, and HEALTH_DEADLINE without an image
tries the slots in power-on order. A test strap holds the device, a Retired device starts nothing. PORST_N low holds
the device, stops NVM writes, puts LPDDR5X into self-refresh and drives no SAFE_OK. NVA_RESET_N and NVB_RESET_N are
low for 100 µs where the reset begins: in DEVICE_RESET, and in PORST_N low where it was high. A deviceReset under
PORST_N low or a thermal trip, and a health deadline that is not due, change nothing. (R21, R407, R408, R409, R411,
R479, R481, R482, R486, R488, R494) -/
def Obligations.ResetsLoseAllButTheNvm : Prop :=
  (∀ s : State, s.dev.boot.porstHigh = true → s.dev.boot.thermTrip = false →
    ∃ t, exec .deviceReset s = .next t ∧ t = s.withDev (fullReset s.dev.boot.bootHint s.dev) ∧ t.dev.time.dev = 0 ∧ t.dev.mem = [] ∧
      t.dev.felt.safeOk = .notStarted ∧ t.dev.felt.pinA = false ∧ t.dev.felt.pinB = false ∧ t.dev.boot.nv = s.dev.boot.nv ∧
      t.dev.sent = (emit (.nvReset 100) s.dev).sent ∧ t.dev.boot.bootHint = s.dev.boot.bootHint ∧ t.dev.boot.strapTest = s.dev.boot.strapTest ∧
      (s.dev.boot.strapTest = true → t.dev.boot.phase = .held) ∧
      (s.dev.boot.strapTest = false → s.dev.boot.nv.lifecycle = .retired → t.dev.boot.phase = .retired) ∧
      (s.dev.boot.strapTest = false → s.dev.boot.nv.lifecycle ≠ .retired → t.dev.boot.phase = .phase0)) ∧
  (∀ s : State, (s.dev.boot.porstHigh = false ∨ s.dev.boot.thermTrip = true) → exec .deviceReset s =
        .next (s.withDev (s.dev))) ∧
  (∀ s : State, 2000 * msNs ≤ s.dev.now → s.dev.felt.safeOk = .notStarted → s.dev.boot.phase ≠ .held →
    ∃ t, exec .healthDeadline s = .next t ∧ t.dev.time.dev = 0 ∧ t.dev.mem = [] ∧ t.dev.boot.nv = s.dev.boot.nv ∧
      (s.dev.boot.phase = .noImage → t.dev.boot.bootHint = none) ∧
      (s.dev.boot.phase ≠ .noImage → t.dev.boot.bootHint = s.dev.boot.bootHint)) ∧
  (∀ (s : State) (profile t0 t1 : Bool) (out : List (Fin 4)),
    ∃ t, exec (.powerOnReset profile t0 t1 out) s = .next t ∧ t.dev.time.dev = 0 ∧ t.dev.mem = [] ∧
      t.dev.felt.safeOk = .notStarted ∧ t.dev.felt.pinA = false ∧ t.dev.felt.pinB = false ∧ t.dev.boot.nv = s.dev.boot.nv ∧
      t.dev.boot.bootHint = none ∧ t.dev.boot.strapNvProfile = profile ∧ t.dev.boot.strapTest = (t0 || t1) ∧
      ((t0 = true ∨ t1 = true) → t.dev.boot.phase = .held)) ∧
  (∀ (s : State) (d1 : Dev), d1 = (if s.dev.boot.porstHigh = true then emit (.nvReset 100) s.dev else s.dev) →
    exec .porstNAsserted s =
        .next (s.withDev ({ d1 with
        boot := { d1.boot with porstHigh := false, selfRefresh := true, nvStopped := true, phase := .held }
        felt := { d1.felt with pinA := false, pinB := false, safeOk := .notStarted } }))) ∧
  (∀ s : State, (s.dev.now < 2000 * msNs ∨ s.dev.felt.safeOk ≠ .notStarted ∨ s.dev.boot.phase = .held) → exec .healthDeadline s =
        .next (s.withDev (s.dev)))

/-- A slot read in phase 0 shows its header; where it retires the device the fuse is burnt and the device is Retired;
where a check of R405 fails the slot fails with the first one's cause; otherwise its image starts, with the sections
of phase 0. In phase 1, with the housekeeping processor running, a section not yet verified whose digest is the
section entry's comes into use, the camera ports with theirs, and one of another digest fails the slot with cause 8.
A bad section fails the slot; with every section of phase 1 verified the slot is verified, noting a fallback, and
before that the report does nothing. A block not read in time fails the slot with cause 9, a warm start's slot too,
and ends a STAGE_COMMIT with that outcome. A warm start's slot that verifies sets B_c and cuts the solves at it; one
that fails ends the warm start. Outside its phase each of them does nothing. (R401, R402, R405, R406, R407, R408,
R409, R410, R413, R414) -/
def Obligations.BootReadsVerifyOrFail : Prop :=
  (∀ (s : State) (check : SlotCrypto) (img : SlotBytes) (r : SlotRead), r = { toSlotCrypto := check, toSlotBytes := img } →
    (s.dev.boot.phase ≠ .phase0 → exec (.phase0Loaded check img) s =
        .next (s.withDev (s.dev))) ∧
    (s.dev.boot.phase = .phase0 → retires s.dev.boot.nv r = true →
      ∃ d1, d1 = noteHeader s.dev.boot.trying r s.dev ∧
        exec (.phase0Loaded check img) s =
        .next (s.withDev (burnRetired { d1 with boot := { d1.boot with phase := .retired } }))) ∧
    (∀ c, s.dev.boot.phase = .phase0 → retires s.dev.boot.nv r = false → slotCause s.dev.boot.nv phase0Parts r = some c →
      exec (.phase0Loaded check img) s =
        .next (s.withDev (failSlot c (noteHeader s.dev.boot.trying r s.dev)))) ∧
    (s.dev.boot.phase = .phase0 → retires s.dev.boot.nv r = false → slotCause s.dev.boot.nv phase0Parts r = none →
      exec (.phase0Loaded check img) s =
        .next (s.withDev (startImage (imageOf phase0Parts r) (noteHeader s.dev.boot.trying r s.dev))))) ∧
  (∀ (s : State) (id : BitVec 8) (bytes : List Byte) (digest part i : Nat) (e : SectionEntry), s.dev.boot.phase = .phase1 →
    s.dev.fwRuns procHkp = true → s.dev.boot.sectionsVerified.contains id.toNat = false →
    phase1Parts.find? (fun p => decide (p.1 = id.toNat)) = some (id.toNat, part) →
    placeOf s.dev.boot.image.manifest id.toNat part = some i → s.dev.boot.image.manifest.entries[i]? = some e →
    (e.digest ≠ digest → exec (.sectionVerified id bytes digest) s =
        .next (s.withDev (failSlot 8 s.dev))) ∧
    (∀ d1 : Dev, e.digest = digest → d1 = { s.dev with boot := { s.dev.boot with
        sectionsVerified := id.toNat :: s.dev.boot.sectionsVerified
        image := withSections s.dev.boot.image [(i, bytes)] [id.toNat] } } →
      (id.toNat = 0x11 → exec (.sectionVerified id bytes digest) s =
        .next (s.withDev (d1.boot.image.cameras.foldl enableCamera d1))) ∧
      (id.toNat ≠ 0x11 → exec (.sectionVerified id bytes digest) s =
        .next (s.withDev (d1))))) ∧
  (∀ (s : State) (id : BitVec 8) (bytes : List Byte) (digest : Nat),
    (s.dev.boot.phase ≠ .phase1 ∨ s.dev.fwRuns procHkp = false ∨ s.dev.boot.sectionsVerified.contains id.toNat = true) →
    exec (.sectionVerified id bytes digest) s =
        .next (s.withDev (s.dev))) ∧
  (∀ s : State, s.dev.boot.phase = .phase1 → s.dev.fwRuns procHkp = true →
    (∀ bad, exec (.slotVerified (some bad)) s =
        .next (s.withDev (failSlot 8 s.dev))) ∧
    (phase1Parts.all (fun p => s.dev.boot.sectionsVerified.contains p.1) = false → exec (.slotVerified none) s =
        .next (s.withDev (s.dev))) ∧
    (phase1Parts.all (fun p => s.dev.boot.sectionsVerified.contains p.1) = true →
      exec (.slotVerified none) s =
        .next (s.withDev ({ s.dev with boot := { s.dev.boot with
        phase := .verified, prevImage := s.dev.boot.image, fallbackEvent := s.dev.boot.second || s.dev.boot.bootHint.isSome,
        slotFallback := s.dev.boot.slotFallback || (s.dev.boot.second || s.dev.boot.bootHint.isSome) } })))) ∧
  (∀ s : State, ((s.dev.boot.phase = .phase0 ∨ s.dev.boot.phase = .phase1) → exec .imageBlockTimeout s =
        .next (s.withDev (failSlot 9 s.dev))) ∧
    (∀ sl, s.dev.boot.phase = .verified → s.dev.boot.warm = .reading sl → exec .imageBlockTimeout s =
        .next (s.withDev (failWarm sl 9 s.dev))) ∧
    (∀ p, s.dev.boot.phase = .verified → s.dev.boot.warm = .none → s.dev.boot.stage = .commit p →
      exec .imageBlockTimeout s =
        .next (s.withDev (endCommit p 9 0 (s.dev.boot.nv.header s.dev.stagedSlot) s.dev)))) ∧
  (∀ (s : State) (check : SlotCrypto) (img : SlotBytes) (r : SlotRead) (sl : Slot) (d1 : Dev),
    r = { toSlotCrypto := check, toSlotBytes := img } → s.dev.boot.warm = .reading sl → s.dev.fwRuns procHkp = true →
    d1 = (if retires s.dev.boot.nv r = true then burnRetired (noteHeader sl r s.dev) else noteHeader sl r s.dev) →
    (∀ c, slotCause s.dev.boot.nv (phase0Parts ++ phase1Parts) r = some c → exec (.warmReadDone check img) s =
        .next (s.withDev (failWarm sl c d1))) ∧
    (∀ bc, slotCause s.dev.boot.nv (phase0Parts ++ phase1Parts) r = none →
      bc = d1.majorFrom (d1.now + 2 * d1.time.minorNs) →
      exec (.warmReadDone check img) s =
        .next (s.withDev (cutSolves bc { d1 with boot := { d1.boot with
          warm := .changeover sl (imageOf (phase0Parts ++ phase1Parts) r) bc false } }))))

/-- With the port's link up and its registers presented: OPEN in CLOSED clears the per-session state, counts a
generation, draws a challenge and enters ATTESTING where the port is enabled, bus master and well configured, is
refused CONFIG where it is not, and WARM_START during a warm start; in any other state it counts as ignored. CLOSE
closes an ATTESTING session at once, puts an open one into CLOSING, and counts otherwise, but for the cycle in which
a heartbeat expiry began the CLOSING. The report in time opens the session with its heartbeat timer starting; 400 ms
without one close it. 300 ms without a heartbeat set HB_WARN. Writes to a port whose link is down or whose registers
are not presented, and timers that are not due, change nothing. (R343, R345, R346, R347, R414, R422) -/
def Obligations.SessionsOpenAndClose : Prop :=
  (∀ (s : State) (port : Fin 4) (r : HostPortRec), s.dev.barOpen = true → (s.dev.port port.val).linkUp = true →
    ((s.dev.port port.val).state ≠ .closed → exec (.sessionOpen port) s =
        .next (s.withDev (countProto port.val s.dev))) ∧
    ((s.dev.port port.val).state = .closed → s.dev.warmRunning = true →
      exec (.sessionOpen port) s =
        .next (s.withDev (s.dev.setPort port.val { s.dev.port port.val with closeReason := .warmStart }))) ∧
    ((s.dev.port port.val).state = .closed → s.dev.warmRunning = false → s.dev.portRec port.val = some r →
      (r.enable = true → (s.dev.port port.val).busMaster = true → (s.dev.port port.val).ringsOk = true →
        reportLen ≤ (s.dev.port port.val).attestLen →
        ∃ d1, d1 = s.dev.setPort port.val { (s.dev.port port.val).fresh with
            gen := (s.dev.port port.val).gen + 1, openAt := s.dev.now, challenge := some (Config.challenge s.dev.freeCtr % 2 ^ 256) } ∧
          exec (.sessionOpen port) s =
        .next (s.withDev (setSession port.val .attesting { d1 with freeCtr := s.dev.freeCtr + 1 }))) ∧
      ((r.enable = false ∨ (s.dev.port port.val).busMaster = false ∨ (s.dev.port port.val).ringsOk = false ∨
          (s.dev.port port.val).attestLen < reportLen) →
        exec (.sessionOpen port) s =
        .next (s.withDev (s.dev.setPort port.val { s.dev.port port.val with closeReason := .config }))))) ∧
  (∀ (s : State) (port : Fin 4), s.dev.barOpen = true → (s.dev.port port.val).linkUp = true →
    ((s.dev.port port.val).state = .attesting → exec (.sessionClose port) s =
        .next (s.withDev (closeNow port.val (some .host) s.dev))) ∧
    ((s.dev.port port.val).state = .open_ → exec (.sessionClose port) s =
        .next (s.withDev (closing port.val .host s.dev))) ∧
    ((s.dev.port port.val).state = .closed → exec (.sessionClose port) s =
        .next (s.withDev (countProto port.val s.dev))) ∧
    ((s.dev.port port.val).state = .closing →
      ((s.dev.port port.val).closeReason ≠ .heartbeat ∨ s.dev.now ≠ (s.dev.port port.val).hbAt + 500 * msNs) →
        exec (.sessionClose port) s =
        .next (s.withDev (countProto port.val s.dev)))) ∧
  (∀ (s : State) (port : Fin 4), s.dev.fwRuns procHkp = true → (s.dev.port port.val).canWrite = true →
    ((s.dev.port port.val).state = .attesting → s.dev.now < (s.dev.port port.val).openAt + 400 * msNs →
      ∃ d1, d1 = (writeReport port.val s.dev).modPort port.val (fun h => { h with hbAt := (writeReport port.val s.dev).now }) ∧
        exec (.attestReportDone port) s =
        .next (s.withDev (setSession port.val .open_ d1))) ∧
    (∀ w, ((s.dev.port port.val).state = .open_ ∨ (s.dev.port port.val).state = .closing) → s.dev.begunCommand port.val 0x12 = some w →
      exec (.attestReportDone port) s =
        .next (s.withDev (finishCommand port.val w stOk [] (writeReport port.val s.dev))))) ∧
  (∀ (s : State) (port : Fin 4), (s.dev.port port.val).state = .attesting → (s.dev.port port.val).openAt + 400 * msNs ≤ s.dev.now →
    exec (.attestTimeout port) s =
        .next (s.withDev (closeNow port.val (some .attest) s.dev))) ∧
  (∀ (s : State) (port : Fin 4), ((s.dev.port port.val).state ≠ .attesting ∨ s.dev.now < (s.dev.port port.val).openAt + 400 * msNs) →
    exec (.attestTimeout port) s =
        .next (s.withDev (s.dev))) ∧
  (∀ (s : State) (port : Fin 4), (s.dev.port port.val).state = .open_ → (s.dev.port port.val).hbAt + 300 * msNs ≤ s.dev.now →
    exec (.hbWarn port) s =
        .next (s.withDev (setInt port.val intHbWarn s.dev))) ∧
  (∀ (s : State) (port : Fin 4), ((s.dev.port port.val).state ≠ .open_ ∨ s.dev.now < (s.dev.port port.val).hbAt + 300 * msNs) →
    exec (.hbWarn port) s =
        .next (s.withDev (s.dev))) ∧
  (∀ (s : State) (port : Fin 4), (s.dev.barOpen = false ∨ (s.dev.port port.val).linkUp = false) →
    exec (.sessionOpen port) s =
        .next (s.withDev (s.dev)) ∧ exec (.sessionClose port) s =
        .next (s.withDev (s.dev)))

/-- A write of HST_HEARTBEAT in OPEN sets the port's timer to now, so that a HEARTBEAT_TIMEOUT in the same cycle after
it leaves the session open; in any other state it leaves the timer and every counter. 500 ms after the last write in
OPEN the session enters CLOSING with reason HEARTBEAT; before that, and in any other state, nothing happens. A write
to a port that does not answer changes nothing. (R345, R348) -/
def Obligations.HeartbeatsKeepSessionsOpen : Prop :=
  (∀ (s : State) (port : Fin 4) (value : BitVec 32), s.dev.barOpen = true → (s.dev.port port.val).linkUp = true →
    ((s.dev.port port.val).state = .open_ →
      exec (.hstHeartbeat port value) s =
        .next (s.withDev (s.dev.setPort port.val { s.dev.port port.val with heartbeat := value, hbAt := s.dev.now }))) ∧
    ((s.dev.port port.val).state ≠ .open_ →
      exec (.hstHeartbeat port value) s =
        .next (s.withDev (s.dev.setPort port.val { s.dev.port port.val with heartbeat := value })))) ∧
  (∀ (s : State) (port : Fin 4), (s.dev.port port.val).state = .open_ → (s.dev.port port.val).hbAt + 500 * msNs ≤ s.dev.now →
    exec (.heartbeatTimeout port) s =
        .next (s.withDev (closing port.val .heartbeat s.dev))) ∧
  (∀ (s : State) (port : Fin 4), ((s.dev.port port.val).state ≠ .open_ ∨ s.dev.now < (s.dev.port port.val).hbAt + 500 * msNs) →
    exec (.heartbeatTimeout port) s =
        .next (s.withDev (s.dev))) ∧
  (∀ (s : State) (port : Fin 4) (value : BitVec 32), (s.dev.barOpen = false ∨ (s.dev.port port.val).linkUp = false) →
    exec (.hstHeartbeat port value) s =
        .next (s.withDev (s.dev)))

/-- With the port's link up and its registers presented: a submission tail, completion head or stream consumer index is
taken in a live session where it does not run past its ring, and is ignored and counted otherwise. A write to
HST_INT_STATUS clears the bits written as 1, but for those that the hardware has set at the same device time. A
register write at a doorbell's, the heartbeat's, HST_INT_STATUS's or the session word's offset acts as that command;
INT_ENABLE keeps its bits 0 to 4 and 16 to 31; a configuration register is stored in CLOSED and counted as ignored
otherwise; an offset that is no multiple of 4, and one of a read-only or undefined word, does nothing. A port that
does not answer takes no write. (R6, R7, R344, R345, R346, R351, R352) -/
def Obligations.DoorbellsAndRegisterWrites : Prop :=
  (∀ (s : State) (port : Fin 4) (value : BitVec 32), s.dev.barOpen = true → (s.dev.port port.val).linkUp = true →
    ((s.dev.port port.val).live = true → (value - (s.dev.port port.val).sqHead).toNat ≤ 2 ^ (s.dev.port port.val).sqSizeLog2 →
      exec (.hstSqTail port value) s =
        .next (s.withDev (s.dev.setPort port.val { s.dev.port port.val with sqTail := value }))) ∧
    (((s.dev.port port.val).live = false ∨ 2 ^ (s.dev.port port.val).sqSizeLog2 < (value - (s.dev.port port.val).sqHead).toNat) →
      exec (.hstSqTail port value) s =
        .next (s.withDev (countProto port.val s.dev))) ∧
    ((s.dev.port port.val).live = true → newer value (s.dev.port port.val).cqTail = false →
      exec (.hstCqHead port value) s =
        .next (s.withDev (s.dev.setPort port.val { s.dev.port port.val with cqHead := value }))) ∧
    (((s.dev.port port.val).live = false ∨ newer value (s.dev.port port.val).cqTail = true) →
      exec (.hstCqHead port value) s =
        .next (s.withDev (countProto port.val s.dev))) ∧
    ((s.dev.port port.val).intSetAt ≠ s.dev.now → exec (.hstIntStatus port value) s =
        .next (s.withDev (s.dev.setPort port.val
          { s.dev.port port.val with intStatus := (s.dev.port port.val).intStatus &&& ~~~value }))) ∧
    ((s.dev.port port.val).intSetAt = s.dev.now → exec (.hstIntStatus port value) s =
        .next (s.withDev (s.dev.setPort port.val { s.dev.port port.val with
          intStatus := (s.dev.port port.val).intStatus &&& ~~~(value &&& ~~~(s.dev.port port.val).intSetBits) })))) ∧
  (∀ (s : State) (port : Fin 4) (ring : Fin 16) (value : BitVec 32) (r : StreamRing), s.dev.barOpen = true →
    (s.dev.port port.val).linkUp = true → r = bget {} ring.val (s.dev.port port.val).rings →
    ((s.dev.port port.val).live = true → newer value r.prod = false →
      exec (.hstSrCons port ring value) s =
        .next (s.withDev (s.dev.setPort port.val
          { s.dev.port port.val with rings := bput {} ring.val { r with cons := value } (s.dev.port port.val).rings }))) ∧
    (((s.dev.port port.val).live = false ∨ newer value r.prod = true) →
      exec (.hstSrCons port ring value) s =
        .next (s.withDev (countProto port.val s.dev)))) ∧
  (∀ (s : State) (port : Fin 4) (value : BitVec 32), s.dev.barOpen = true → (s.dev.port port.val).linkUp = true →
    (value.toNat % 4 = 1 → exec (.registerWrite port 0x004 value) s = exec (.sessionOpen port) s) ∧
    (value.toNat % 4 = 2 → exec (.registerWrite port 0x004 value) s = exec (.sessionClose port) s) ∧
    ((value.toNat % 4 = 0 ∨ value.toNat % 4 = 3) → exec (.registerWrite port 0x004 value) s =
        .next (s.withDev (s.dev))) ∧
    exec (.registerWrite port 0x00C value) s = exec (.hstHeartbeat port value) s ∧
    exec (.registerWrite port 0x06C value) s = exec (.hstSqTail port value) s ∧
    exec (.registerWrite port 0x08C value) s = exec (.hstCqHead port value) s ∧
    exec (.registerWrite port 0x300 value) s = exec (.hstIntStatus port value) s ∧
    (∀ ring : Fin 16, exec (.registerWrite port (BitVec.ofNat 32 (0x110 + 0x20 * ring.val)) value) s =
      exec (.hstSrCons port ring value) s) ∧
    exec (.registerWrite port 0x304 value) s =
        .next (s.withDev (s.dev.setPort port.val { s.dev.port port.val with intEnable := value &&& 0xFFFF001F#32 })) ∧
    exec (.registerWrite port 0x308 value) s =
        .next (s.withDev (s.dev.setPort port.val { s.dev.port port.val with holdoffUs := value.setWidth 16 }))) ∧
  (∀ (s : State) (port : Fin 4) (offset value : BitVec 32) (h : HostPort), s.dev.barOpen = true → (s.dev.port port.val).linkUp = true →
    offset.toNat % 4 = 0 → (s.dev.port port.val).configWrite offset.toNat value = some h →
    ((s.dev.port port.val).state = .closed → exec (.registerWrite port offset value) s =
        .next (s.withDev (s.dev.setPort port.val h))) ∧
    ((s.dev.port port.val).state ≠ .closed → exec (.registerWrite port offset value) s =
        .next (s.withDev (countProto port.val s.dev)))) ∧
  (∀ (s : State) (port : Fin 4) (offset value : BitVec 32), (offset.toNat % 4 ≠ 0 ∨ 0x2200 ≤ offset.toNat) →
    exec (.registerWrite port offset value) s =
        .next (s.withDev (s.dev))) ∧
  (∀ (s : State) (port : Fin 4) (offset value : BitVec 32) (ring : Fin 16), (s.dev.barOpen = false ∨ (s.dev.port port.val).linkUp = false) →
    exec (.registerWrite port offset value) s =
        .next (s.withDev (s.dev)) ∧ exec (.hstSqTail port value) s =
        .next (s.withDev (s.dev)) ∧ exec (.hstCqHead port value) s =
        .next (s.withDev (s.dev)) ∧
    exec (.hstSrCons port ring value) s =
        .next (s.withDev (s.dev)) ∧ exec (.hstIntStatus port value) s =
        .next (s.withDev (s.dev)))

/-- Loss of the link closes the session and leaves the link down and Bus Master Enable clear; a hot reset, FLR, D3hot or
clearing the bit close it and leave the link as it was. PERST_N returns the port's registers to their reset values
but the generation, the reason and the close count. Bus Master Enable can be set only with the link up, and the link
comes up in a device that is not held. A read fault is reported, and puts an open session into CLOSING. In OPEN,
with a submission waiting, a completion entry free and the host processor running, the entry at the head is read and
the head goes on; otherwise the fetch does nothing. A read fault without a link, and a link that comes up in a held
device, do nothing. (R343, R347, R349, R352, R353, R481) -/
def Obligations.PortEventsAndFetches : Prop :=
  (∀ (s : State) (port : Fin 4),
    exec (.pcieLinkEvent port .linkDown) s =
        .next (s.withDev (linkClose port.val (s.dev.modPort port.val (fun h => { h with busMaster := false, linkUp := false })))) ∧
    (∀ e ∈ [PcieEvent.hotReset, .flr, .d3hot, .busMasterClear],
      exec (.pcieLinkEvent port e) s =
        .next (s.withDev (linkClose port.val (s.dev.modPort port.val (fun h => { h with busMaster := false }))))) ∧
    exec (.pcieLinkEvent port .perst) s =
        .next (s.withDev ((linkClose port.val
          (s.dev.modPort port.val (fun h => { h with busMaster := false, linkUp := false }))).modPort port.val
            (fun h => { gen := h.gen, closeCount := h.closeCount, closeReason := h.closeReason }))) ∧
    exec (.pcieLinkEvent port .busMasterSet) s =
        .next (s.withDev (s.dev.modPort port.val (fun h => { h with busMaster := h.linkUp }))) ∧
    (s.dev.boot.phase ≠ .held →
      exec (.pcieLinkEvent port .linkUp) s =
        .next (s.withDev (s.dev.modPort port.val (fun h => { h with linkUp := true }))))) ∧
  (∀ (s : State) (port : Fin 4), (s.dev.port port.val).linkUp = false → exec (.dmaReadFault port) s =
        .next (s.withDev (s.dev))) ∧
  (∀ (s : State) (port : Fin 4), s.dev.boot.phase = .held → exec (.pcieLinkEvent port .linkUp) s =
        .next (s.withDev (s.dev))) ∧
  (∀ (s : State) (port : Fin 4), (s.dev.port port.val).linkUp = true →
    ((s.dev.port port.val).state = .open_ → exec (.dmaReadFault port) s =
        .next (s.withDev (closing port.val .dma (emit (.aer port.val) s.dev)))) ∧
    ((s.dev.port port.val).state ≠ .open_ → exec (.dmaReadFault port) s =
        .next (s.withDev (emit (.aer port.val) s.dev)))) ∧
  (∀ (s : State) (port : Fin 4) (sub : Submission) (h : HostPort), h = s.dev.port port.val → h.state = .open_ → h.canWrite = true →
    s.dev.fwRuns procHost = true → h.sqHead ≠ h.sqTail → h.roomForOne = true →
    exec (.submissionFetch port sub) s =
        .next (s.withDev (takeSubmission port.val sub (writeBack port.val 0x00 (h.sqHead + 1)
          ((emit (.hostRead port.val (h.sqBase + 64 * (h.sqHead.toNat % 2 ^ h.sqSizeLog2)) 64) s.dev).setPort port.val
            { h with sqHead := h.sqHead + 1, cqReserved := h.cqReserved + 1 }))))) ∧
  (∀ (s : State) (port : Fin 4) (sub : Submission), ((s.dev.port port.val).state ≠ .open_ ∨ (s.dev.port port.val).canWrite = false ∨
      s.dev.fwRuns procHost = false ∨ (s.dev.port port.val).sqHead = (s.dev.port port.val).sqTail ∨ (s.dev.port port.val).roomForOne = false) →
    exec (.submissionFetch port sub) s =
        .next (s.withDev (s.dev)))

/-- READ_GRID of a product with a newest frame answers the frame's header and its region's payload, OK unless the
payload is missing, and DEGRADED without a frame. READ_TRACK answers the newest records of a living track from
before the window's opening, and INVALID for another or where there are none. RUN_MODEL answers the program's output
under a grid header, DEGRADED where a view or a source was incomplete or the frame holds no grid, INVALID for a
model that does not exist. HOST_FORK of a sequence is refused at the port's MAX_FORKS, and a fork that Damask makes
is answered with its number and held; FREE_FORK of a held one is noted for its epoch's close. Neither acts while the
host processor restarts. On a port without such a query in hand each does nothing. (R280, R288, R354, R355, R357) -/
def Obligations.QueriesAreAnswered : Prop :=
  (∀ (s : State) (port : Fin 4) (key : Nat) (w : Work), s.dev.currentQuery port.val 2 = some (key, w) →
    (∀ o, (s.dev.newestFrame ((w.sub.arg 0).toNat % 65536) (s.dev.keyOpening key)).bind s.dev.gridOutput = some o →
      exec (.readGrid port) s =
        .next (s.withDev (endQuery port.val key w (if o.payload = .missing then stDegraded else stOk)
          (frameBytes o false (validAtStart s.dev o.quality)
            (payloadFor (some (regionOf (w.sub.arg 1) (w.sub.arg 2) (w.sub.arg 3))) o.payload)) s.dev))) ∧
    ((s.dev.newestFrame ((w.sub.arg 0).toNat % 65536) (s.dev.keyOpening key)).bind s.dev.gridOutput = none →
      exec (.readGrid port) s =
        .next (s.withDev (endQuery port.val key w stDegraded [] s.dev)))) ∧
  (∀ (s : State) (port : Fin 4) (key : Nat) (w : Work) (src : Source), s.dev.currentQuery port.val 3 = some (key, w) →
    src = (if (w.sub.arg 0).getLsbD 31 then .burlap else .main) →
    (∀ h es, s.dev.host.tracks.find? (fun h => decide (h.src = src) && h.alive && h.id = (w.sub.arg 0).toNat % 2 ^ 31) = some h →
      es = h.records.filter (fun e => decide ((e.1 : Int) ≤ s.dev.keyOpening key)) → es ≠ [] →
      exec (.readTrack port) s =
        .next (s.withDev (endQuery port.val key w stOk
          (w32 es.length ++ List.replicate 12 0 ++ es.flatMap (fun e => w64 e.2.1 ++ objectBytes src e.2.2)) s.dev))) ∧
    (s.dev.host.tracks.find? (fun h => decide (h.src = src) && h.alive && h.id = (w.sub.arg 0).toNat % 2 ^ 31) = none →
      exec (.readTrack port) s =
        .next (s.withDev (endQuery port.val key w stInvalid [] s.dev))) ∧
    (∀ h, s.dev.host.tracks.find? (fun h => decide (h.src = src) && h.alive && h.id = (w.sub.arg 0).toNat % 2 ^ 31) = some h →
      h.records.filter (fun e => decide ((e.1 : Int) ≤ s.dev.keyOpening key)) = [] →
      exec (.readTrack port) s =
        .next (s.withDev (endQuery port.val key w stInvalid [] s.dev)))) ∧
  (∀ (s : State) (port : Fin 4) (data : List Byte) (key : Nat) (w : Work), s.dev.currentQuery port.val 1 = some (key, w) →
    (s.dev.image.host.models[(w.sub.arg 0).toNat % 256]? = none →
      exec (.runModel port data) s =
        .next (s.withDev (endQuery port.val key w stInvalid [] s.dev))) ∧
    (∀ m, s.dev.image.host.models[(w.sub.arg 0).toNat % 256]? = some m →
      ((s.dev.newestFrame m.inProduct (s.dev.keyOpening key)).bind s.dev.gridOutput = none →
        exec (.runModel port data) s =
        .next (s.withDev (endQuery port.val key w stDegraded [] s.dev))) ∧
      (∀ o g g' r, (s.dev.newestFrame m.inProduct (s.dev.keyOpening key)).bind s.dev.gridOutput = some o → o.payload = .grid g →
        r = regionOf (w.sub.arg 1) (w.sub.arg 2) 0 →
        g' = { g with product := 0x8000 + (w.sub.arg 0).toNat % 256, format := m.outFormat, channels := m.outCh } →
        exec (.runModel port data) s =
        .next (s.withDev (endQuery port.val key w
          (if (bget {} key s.dev.plan.windows : WinState).viewMissing || !(bget {} key s.dev.plan.windows : WinState).zeroed.isEmpty
            then stDegraded else stOk)
          (frameBytes { o with seq := (drawFree s.dev).1 } false (validAtStart s.dev o.quality)
            (gridHead g' r.cf r.cc r.rf r.rc 0 m.outCh ++ data)) (drawFree s.dev).2))) ∧
      (∀ o, (s.dev.newestFrame m.inProduct (s.dev.keyOpening key)).bind s.dev.gridOutput = some o → (∀ g, o.payload ≠ .grid g) →
        exec (.runModel port data) s =
        .next (s.withDev (endQuery port.val key w stDegraded
          (frameBytes { o with seq := (drawFree s.dev).1 } false (validAtStart s.dev o.quality) []) (drawFree s.dev).2))))) ∧
  (∀ (s : State) (port : Fin 4) (key : Nat) (w : Work) (q : Sequence) (r : HostPortRec), s.dev.currentQuery port.val 4 = some (key, w) →
    s.dev.fwRuns procHost = true → s.dev.portRec port.val = some r → s.dev.seqOf (s.dev.forkSource w.sub) = some q →
    (r.maxForks ≤ (s.dev.port port.val).forks.length → exec (.hostFork port) s =
        .next (s.withDev (endQuery port.val key w stRefused [] s.dev))) ∧
    (∀ x : DmkReply × Dev, (s.dev.port port.val).forks.length < r.maxForks → s.dev.halfRuns q.half = true →
      x = forkOf q.half (hostForkCmd port.val (s.dev.forkSource w.sub) w.tick) (.session port.val) s.dev →
      (x.1.status = .ok → exec (.hostFork port) s =
        .next (s.withDev (endQuery port.val key w stOk (w32 (x.1.seq % 4096) ++ List.replicate 12 0)
          (x.2.modPort port.val (fun h => { h with forks := h.forks ++ [x.1.seq] }))))) ∧
      (x.1.status = .invalid → exec (.hostFork port) s =
        .next (s.withDev (endQuery port.val key w stInvalid [] x.2))) ∧
      (x.1.status ≠ .ok → x.1.status ≠ .invalid → exec (.hostFork port) s =
        .next (s.withDev (endQuery port.val key w stRefused [] x.2))))) ∧
  (∀ (s : State) (port : Fin 4) (key : Nat) (w : Work) (i : Nat), s.dev.currentQuery port.val 5 = some (key, w) →
    s.dev.fwRuns procHost = true → i = (w.sub.arg 0).toNat % 4096 →
    (∀ q, (s.dev.port port.val).forks.contains i = true → s.dev.seqOf i = some q → s.dev.halfRuns q.half = true →
      exec (.freeFork port) s =
        .next (s.withDev (endQuery port.val key w stOk []
          ((setSeq i (some { q with freeAt := some (s.dev.epochOf (hostForkCmd port.val i w.tick)) }) s.dev).modPort port.val
            (fun h => { h with forks := h.forks.filter (fun x => x ≠ i) }))))) ∧
    ((s.dev.port port.val).forks.contains i = false → exec (.freeFork port) s =
        .next (s.withDev (endQuery port.val key w stInvalid [] s.dev)))) ∧
  (∀ (s : State) (port : Fin 4) (key : Nat) (w : Work), s.dev.fwRuns procHost = false →
    (s.dev.currentQuery port.val 4 = some (key, w) → exec (.hostFork port) s =
        .next (s.withDev (s.dev))) ∧
    (s.dev.currentQuery port.val 5 = some (key, w) → exec (.freeFork port) s =
        .next (s.withDev (s.dev)))) ∧
  (∀ (s : State) (port : Fin 4) (data : List Byte),
    (s.dev.currentQuery port.val 1 = none → exec (.runModel port data) s =
        .next (s.withDev (s.dev))) ∧ (s.dev.currentQuery port.val 2 = none → exec (.readGrid port) s =
        .next (s.withDev (s.dev))) ∧
    (s.dev.currentQuery port.val 3 = none → exec (.readTrack port) s =
        .next (s.withDev (s.dev))) ∧ (s.dev.currentQuery port.val 4 = none → exec (.hostFork port) s =
        .next (s.withDev (s.dev))) ∧
    (s.dev.currentQuery port.val 5 = none → exec (.freeFork port) s =
        .next (s.withDev (s.dev))))

/-- Each acts on its port's head command, not begun, while the host processor runs. SUBSCRIBE completes with the status
of its check and starts the subscription it made; UNSUBSCRIBE ends the ring's at the next major tick boundary;
ATTEST asks for a report. PRIV_CLAIM on the privileged port, with room for key and signature, reads them; elsewhere,
or with too few bytes for them, it fails. The verification gives the privilege where key and signature hold, and
fails otherwise. SET_TRACE_MASK sets 256 identifiers for a privileged port and is NOT_PERMITTED without privilege.
An operation that R354 does not list completes INVALID. Where the port's head command is not one of the operation,
each does nothing. (R327, R343, R354, R358, R359, R362, R420, R422) -/
def Obligations.HostCommandsComplete : Prop :=
  (∀ (s : State) (port : Fin 4) (w : Work), s.dev.headOp port.val 0x10 = some w →
    (∀ st ring sub, s.dev.subscription port.val w.sub = (st, some (ring, sub)) →
      exec (.subscribe port) s =
        .next (s.withDev (finishCommand port.val w st []
          (s.dev.modPort port.val (fun h => { h with subs := bmod [] ring (fun l => l ++ [sub]) h.subs }))))) ∧
    (∀ st, s.dev.subscription port.val w.sub = (st, none) → exec (.subscribe port) s =
        .next (s.withDev (finishCommand port.val w st [] s.dev)))) ∧
  (∀ (s : State) (port : Fin 4) (w : Work), s.dev.headOp port.val 0x11 = some w →
    exec (.unsubscribe port) s =
        .next (s.withDev (finishCommand port.val w stOk [] (s.dev.modPort port.val (fun h => { h with
          subs := bmod [] ((w.sub.arg 0).toNat % 16) (fun l => l.map (endSub s.dev.nextMajor)) h.subs }))))) ∧
  (∀ (s : State) (port : Fin 4) (w : Work), s.dev.headOp port.val 0x12 = some w →
    exec (.attest port) s =
        .next (s.withDev (startCommand port.val w.order s.dev))) ∧
  (∀ (s : State) (port : Fin 4) (w : Work), s.dev.headOp port.val 0x20 = some w →
    (s.dev.image.host.privPort = some port.val → privBytes ≤ (w.sub.arg 2).toNat →
      exec (.privClaim port) s =
        .next (s.withDev (emit (.hostRead port.val ((w.sub.arg 0).toNat + 2 ^ 32 * (w.sub.arg 1).toNat) privBytes)
          (startCommand port.val w.order s.dev)))) ∧
    ((s.dev.image.host.privPort ≠ some port.val ∨ (w.sub.arg 2).toNat < privBytes) →
      exec (.privClaim port) s =
        .next (s.withDev (failClaim port.val w s.dev)))) ∧
  (∀ (s : State) (port : Fin 4) (claim : PrivClaim) (w : Work), s.dev.begunCommand port.val 0x20 = some w →
    s.dev.fwRuns procHkp = true →
    (claim.keyDigest = s.dev.image.host.privKeyDigest → claim.signatureHolds = true →
      exec (.privVerifyDone port claim) s =
        .next (s.withDev (finishCommand port.val w stOk []
          (s.dev.modPort port.val (fun h => { h with privileged := true }))))) ∧
    ((claim.keyDigest ≠ s.dev.image.host.privKeyDigest ∨ claim.signatureHolds = false) →
      exec (.privVerifyDone port claim) s =
        .next (s.withDev (failClaim port.val w s.dev)))) ∧
  (∀ (s : State) (port : Fin 4) (w : Work), s.dev.headOp port.val 0x23 = some w →
    ((s.dev.port port.val).privileged = false →
      exec (.setTraceMask port) s =
        .next (s.withDev (finishCommand port.val w stNotPermitted [] s.dev))) ∧
    ((s.dev.port port.val).privileged = true → ∀ first, first = (w.sub.arg 0).toNat % 65536 →
      exec (.setTraceMask port) s =
        .next (s.withDev (finishCommand port.val w stOk [] { s.dev with boot := { s.dev.boot with
          traceMask := s.dev.boot.traceMask.filter (fun i => !((List.range 256).map (fun j => (first + j) % 65536)).contains i) ++
            maskIds first (w.sub.args.drop 1) } })))) ∧
  (∀ (s : State) (port : Fin 4) (w : Work), s.dev.headCommand port.val = some w → listedOps.contains w.sub.op.toNat = false →
    s.dev.fwRuns procHost = true →
    exec (.unlistedOp port) s =
        .next (s.withDev (finishCommand port.val w stInvalid [] s.dev))) ∧
  (∀ (s : State) (port : Fin 4) (claim : PrivClaim),
    (s.dev.headOp port.val 0x10 = none → exec (.subscribe port) s =
        .next (s.withDev (s.dev))) ∧ (s.dev.headOp port.val 0x11 = none → exec (.unsubscribe port) s =
        .next (s.withDev (s.dev))) ∧
    (s.dev.headOp port.val 0x12 = none → exec (.attest port) s =
        .next (s.withDev (s.dev))) ∧ (s.dev.headOp port.val 0x20 = none → exec (.privClaim port) s =
        .next (s.withDev (s.dev))) ∧
    (s.dev.headOp port.val 0x23 = none → exec (.setTraceMask port) s =
        .next (s.withDev (s.dev))) ∧
    (s.dev.begunCommand port.val 0x20 = none → exec (.privVerifyDone port claim) s =
        .next (s.withDev (s.dev))) ∧
    ((∀ w, s.dev.headCommand port.val = some w → listedOps.contains w.sub.op.toNat = true) → exec (.unlistedOp port) s =
        .next (s.withDev (s.dev))))

/-- A privileged STAGE_WRITE with good arguments, nothing in progress and writes allowed erases the slot's manifest
where it is the first, notes the write, erases its stripes and reads the data; its completion shows the header where
it wrote the first sector. STAGE_COMMIT begins a verification, whose end notes the header, retires the device where
R407 says so, and gives the outcome: the first cause of R405 with its section, 10 where SERIAL is not above the
running image's, else 0. While one is in progress both are refused. WARM_START with consent and no class V condition
is refused while staging or another warm start runs, else it begins, consumes the consent and closes the sessions;
without them it is NOT_PERMITTED. Without privilege each is NOT_PERMITTED. Where the head command is another, each
does nothing. (R354, R359, R376, R407, R412, R413, R414) -/
def Obligations.StagingAndWarmStartCommands : Prop :=
  (∀ (s : State) (port : Fin 4) (w : Work) (d1 : Dev), s.dev.headOp port.val 0x21 = some w → (s.dev.port port.val).privileged = true →
    (stageArgsOk (w.sub.arg 0).toNat (w.sub.arg 1).toNat = false →
      exec (.stageWrite port) s =
        .next (s.withDev (finishCommand port.val w stInvalid [] s.dev))) ∧
    (stageArgsOk (w.sub.arg 0).toNat (w.sub.arg 1).toNat = true → (s.dev.stageBusy = true ∨ s.dev.boot.nvStopped = true) →
      exec (.stageWrite port) s =
        .next (s.withDev (finishCommand port.val w stRefused [] s.dev))) ∧
    (stageArgsOk (w.sub.arg 0).toNat (w.sub.arg 1).toNat = true → s.dev.stageBusy = false → s.dev.boot.nvStopped = false →
      d1 = (if s.dev.boot.stageErased = true then s.dev else eraseManifest s.dev.stagedSlot s.dev) →
      exec (.stageWrite port) s =
        .next (s.withDev (emit (.hostRead port.val ((w.sub.arg 2).toNat + 2 ^ 32 * (w.sub.arg 3).toNat) (w.sub.arg 1).toNat)
          (startCommand port.val w.order (((List.range ((w.sub.arg 1).toNat / 0x10000)).map
              (fun i => (w.sub.arg 0).toNat / 0x10000 + i)).foldl (eraseStripe s.dev.stagedSlot)
            { d1 with boot := { d1.boot with
              stageErased := true, stageVerified := false,
              stage := .write port.val (w.sub.arg 0).toNat (w.sub.arg 1).toNat } })))))) ∧
  (∀ (s : State) (head : List Byte) (p offset len : Nat), s.dev.boot.stage = .write p offset len → s.dev.boot.nvStopped = false →
    s.dev.fwRuns procHkp = true →
    exec (.stageWriteDone head) s =
        .next (s.withDev (finishStage p 0x21 [] (emit (.nvProgram s.dev.stagedSlot.idx offset len) { s.dev with boot := { s.dev.boot with
        stage := .none, nv := if offset = 0 then s.dev.boot.nv.setHeader s.dev.stagedSlot (headerRec head) else s.dev.boot.nv } })))) ∧
  (∀ (s : State) (port : Fin 4) (w : Work), s.dev.headOp port.val 0x22 = some w → (s.dev.port port.val).privileged = true →
    (s.dev.stageBusy = true → exec (.stageCommit port) s =
        .next (s.withDev (finishCommand port.val w stRefused [] s.dev))) ∧
    (s.dev.stageBusy = false → exec (.stageCommit port) s =
        .next (s.withDev (startCommand port.val w.order
          { s.dev with boot := { s.dev.boot with stage := .commit port.val } })))) ∧
  (∀ (s : State) (r : SlotRead) (p outcome sec : Nat), s.dev.boot.stage = .commit p → s.dev.fwRuns procHkp = true →
    outcome = (match slotCause s.dev.boot.nv (phase0Parts ++ phase1Parts) r with
      | some c => c
      | none => if s.dev.image.manifest.serial.toNat < (manifestRec r.manifest).serial.toNat then 0 else 10) →
    sec = (if outcome = 8 then (badSection (phase0Parts ++ phase1Parts) r).getD 0 else 0) →
    exec (.stageCommitDone r) s =
        .next (s.withDev (endCommit p outcome sec (headerRec r.manifest)
          (if retires s.dev.boot.nv r = true then burnRetired (noteHeader s.dev.stagedSlot r s.dev) else noteHeader s.dev.stagedSlot r s.dev)))) ∧
  (∀ (s : State) (port : Fin 4) (w : Work), s.dev.headOp port.val 0x24 = some w → (s.dev.port port.val).privileged = true →
    ((s.dev.consentActive = false ∨ s.dev.felt.classV = true) →
      exec (.warmStart port) s =
        .next (s.withDev (finishCommand port.val w stNotPermitted [] s.dev))) ∧
    (s.dev.consentActive = true → s.dev.felt.classV = false → (s.dev.stageBusy = true ∨ s.dev.boot.warm ≠ .none) →
      exec (.warmStart port) s =
        .next (s.withDev (finishCommand port.val w stRefused [] s.dev))) ∧
    (∀ d1 : Dev, s.dev.consentActive = true → s.dev.felt.classV = false → s.dev.stageBusy = false → s.dev.boot.warm = .none →
      d1 = finishCommand port.val w stOk [] s.dev →
      exec (.warmStart port) s =
        .next (s.withDev ([0, 1, 2, 3].foldl warmClose { d1 with
          ctrl := { d1.ctrl with consentUntil := none }
          boot := { d1.boot with warm := .reading d1.warmSlot } })))) ∧
  (∀ (s : State) (port : Fin 4) (w : Work), (s.dev.port port.val).privileged = false →
    (s.dev.headOp port.val 0x21 = some w → exec (.stageWrite port) s =
        .next (s.withDev (finishCommand port.val w stNotPermitted [] s.dev))) ∧
    (s.dev.headOp port.val 0x22 = some w → exec (.stageCommit port) s =
        .next (s.withDev (finishCommand port.val w stNotPermitted [] s.dev))) ∧
    (s.dev.headOp port.val 0x24 = some w → exec (.warmStart port) s =
        .next (s.withDev (finishCommand port.val w stNotPermitted [] s.dev)))) ∧
  (∀ (s : State) (port : Fin 4), (s.dev.headOp port.val 0x21 = none → exec (.stageWrite port) s =
        .next (s.withDev (s.dev))) ∧
    (s.dev.headOp port.val 0x22 = none → exec (.stageCommit port) s =
        .next (s.withDev (s.dev))) ∧ (s.dev.headOp port.val 0x24 = none → exec (.warmStart port) s =
        .next (s.withDev (s.dev))))

/-- On an up vehicle port that may carry content: a frame that passes every check becomes the port's newest, ends
silence, and then acts by its kind: a Mode Request not processed before is decided, a Warm-Start Consent not
processed before sets CONSENT_ACTIVE for VALID_MS, at most CONSENT_MAX_MS of the image (the model's choice, log
entry 25), replacing an earlier one; a Controller Heartbeat sets the echo and the controller's status. A frame that
fails a check only counts, with its cause. An expired consent ends. (R254, R373, R374, R375, R376) -/
def Obligations.ControllerFramesAreChecked : Prop :=
  (∀ (s : State) (port : Fin 2) (f : CtrlFrame), (s.dev.vport port.val).link = .up → s.dev.linkAllowed = true →
    rejectCause s.dev port.val f = none →
    (f.msgId = 0x81 → exec (.modeRequest port f) s =
        .next (s.withDev (takeModeRequest port.val f (acceptFrame port.val f s.dev)))) ∧
    (f.msgId = 0x82 → (reqOrder s.dev.ctrl.consentReqId f.word0 = .fresh) → 0 < f.word1.toNat % 65536 →
      0 < s.dev.image.link.consentMaxMs →
      ∃ t, exec (.warmStartConsent port f) s = .next t ∧ t.dev.ctrl.silent = false ∧ t.dev.ctrl.lastAccepted = s.dev.now ∧
        t.dev.ctrl.consentReqId = some f.word0 ∧
        t.dev.ctrl.consentUntil = some (s.dev.now + min (f.word1.toNat % 65536) s.dev.image.link.consentMaxMs * msNs)) ∧
    (f.msgId = 0x83 → ∃ t, exec (.controllerHeartbeat port f) s = .next t ∧ t.dev.ctrl.silent = false ∧
      (t.dev.vport port.val).echoSeq = f.word0 ∧ (t.dev.vport port.val).ctrlStatus = f.word1.setWidth 8 ∧
      (t.dev.vport port.val).rxSeq = f.seq)) ∧
  (∀ (s : State) (port : Fin 2) (f : CtrlFrame) (c : Nat), (s.dev.vport port.val).link = .up → s.dev.linkAllowed = true →
    rejectCause s.dev port.val f = some c →
    exec (.unacceptedControllerFrame port f) s =
        .next (s.withDev (rejectFrame port.val c s.dev)) ∧
    (f.msgId = 0x81 → exec (.modeRequest port f) s =
        .next (s.withDev (rejectFrame port.val c s.dev)))) ∧
  (∀ (s : State) (t : Nanos), s.dev.ctrl.consentUntil = some t →
    (t ≤ s.dev.now → exec .consentExpiry s =
        .next (s.withDev ({ s.dev with ctrl := { s.dev.ctrl with consentUntil := none } }))) ∧
    (s.dev.now < t → exec .consentExpiry s =
        .next (s.withDev (s.dev))))

/-- 20 ms after the last accepted frame CTRL_SILENT is set, and noted for the Health Summary; a pending switch that a
request started is cancelled NOT_PERMITTED as R254 says, one that a search started goes ahead; no output, pin, mode
in force or other state changes. Before 20 ms, and while silent, nothing happens. Accepting a frame clears
CTRL_SILENT and starts the 20 ms anew, and each kind of frame is processed on the state after that. (R377) -/
def Obligations.ControllerSilence : Prop :=
  (∀ (s : State) (d1 : Dev), s.dev.ctrl.silent = false → s.dev.ctrl.lastAccepted + 20 * msNs ≤ s.dev.now →
    d1 = { s.dev with
      ctrl := { s.dev.ctrl with silent := true }
      felt := { s.dev.felt with window := { s.dev.felt.window with silent := true } } } →
    ((∀ q, s.dev.plan.pending = some q → q.reason ≠ .request) → exec .ctrlSilenceTimeout s =
        .next (s.withDev (d1))) ∧
    (∀ q, s.dev.plan.pending = some q → q.reason = .request →
      exec .ctrlSilenceTimeout s =
        .next (s.withDev ({ countModeRefuse { d1 with plan := { d1.plan with pending := none } } with
          ctrl := { s.dev.ctrl with silent := true, lastReqStatus := stNotPermitted } })))) ∧
  (∀ s : State, (s.dev.ctrl.silent = true ∨ s.dev.now < s.dev.ctrl.lastAccepted + 20 * msNs) → exec .ctrlSilenceTimeout s =
        .next (s.withDev (s.dev))) ∧
  (∀ (s : State) (port : Fin 2) (f : CtrlFrame), (s.dev.vport port.val).link = .up → s.dev.linkAllowed = true →
    rejectCause s.dev port.val f = none →
    (acceptFrame port.val f s.dev).ctrl.silent = false ∧ (acceptFrame port.val f s.dev).ctrl.lastAccepted = s.dev.now ∧
    (f.msgId = 0x81 → exec (.modeRequest port f) s =
        .next (s.withDev (takeModeRequest port.val f (acceptFrame port.val f s.dev)))) ∧
    (f.msgId = 0x82 → exec (.warmStartConsent port f) s =
        .next (s.withDev (takeConsent port.val f (acceptFrame port.val f s.dev)))) ∧
    (f.msgId = 0x83 → exec (.controllerHeartbeat port f) s =
        .next (s.withDev (takeHeartbeat port.val f (acceptFrame port.val f s.dev)))))

/-- In INT4, element 2n of a row is bits [3:0] of its byte n and element 2n + 1 is bits [7:4]; in MXFP4 the same within
the element bytes of a block. In the 6-bit formats elements 4n to 4n + 3 of a block are bits [5:0], [11:6], [17:12]
and [23:18] of the little-endian group of three bytes at byte 3n of the block's elements. A core that reads an
operand and a transfer that moves one read elements so. (R227) -/
def Obligations.NarrowElementsArePacked : Prop :=
  (∀ (d : Dev) (row n : Nat),
    d.elem .int4 row (2 * n) = (d.byte (row + n)).toNat % 16 ∧ d.elem .int4 row (2 * n + 1) = (d.byte (row + n)).toNat / 16) ∧
  (∀ (d : Dev) (row line block n at_ : Nat), block < 8 → n < 16 →
    at_ = row + (line * lineBytes .mxfp4 + 8 + block * blockBytes .mxfp4) →
    d.elem .mxfp4 row (256 * line + 32 * block + 2 * n) = (d.byte (at_ + n)).toNat % 16 ∧
    d.elem .mxfp4 row (256 * line + 32 * block + 2 * n + 1) = (d.byte (at_ + n)).toNat / 16) ∧
  (∀ (d : Dev) (f : Format) (row line block n j at_ : Nat), f = .mxfp6e3m2 ∨ f = .mxfp6e2m3 → block < 8 → n < 8 → j < 4 →
    at_ = row + (line * lineBytes f + 8 + block * blockBytes f) →
    d.elem f row (256 * line + 32 * block + 4 * n + j) =
      ((d.byte (at_ + 3 * n)).toNat + 256 * (d.byte (at_ + 3 * n + 1)).toNat + 65536 * (d.byte (at_ + 3 * n + 2)).toNat) /
        2 ^ (6 * j) % 64)

/-- The loss of an up link counts, raises a health event, retrains, drops the frame being sent and the waiting ones; on
V0 vehicle time is lost; with the other link down it is class V fault 0x000A. A link that comes up, where the device
may carry content, starts empty and ends condition 0x000A. When a frame has gone out, the port starts the waiting
frame of highest precedence. A loss of a link that is not up, a link that comes up already up or in a device that
may not carry content, and the end of a frame on an idle port do nothing. (R363, R368, R386, R387, R396) -/
def Obligations.VehicleLinksAndFrames : Prop :=
  (∀ (s : State) (port : Fin 2) (d1 d2 d3 : Dev), (s.dev.vport port.val).link = .up →
    d1 = satEvent (barVlk + 0x40 * port.val + 0x0C) (s.dev.vport port.val).linkLoss (s.dev.vport port.val).linkLoss.inc
      (s.dev.setVport port.val { s.dev.vport port.val with
        link := .training, linkLoss := (s.dev.vport port.val).linkLoss.inc, sending := none, waiting := [] }) →
    d2 = conditionEvent (barVlk + 0x40 * port.val + 0x0C) (s.dev.vport port.val).linkLoss.inc.val.toNat
      { d1 with felt := { d1.felt with window := { d1.felt.window with linkLoss := true } } } →
    d3 = (if port.val = 0 then loseVehicleTime d2 else d2) →
    ((d3.vport (1 - port.val)).link = .up → exec (.vlinkLinkDown port) s =
        .next (s.withDev (d3))) ∧
    ((d3.vport (1 - port.val)).link ≠ .up → exec (.vlinkLinkDown port) s =
        .next (s.withDev (raiseIod 0x000A d3)))) ∧
  (∀ (s : State) (port : Fin 2), (s.dev.vport port.val).link ≠ .up → s.dev.linkAllowed = true →
    exec (.vlinkLinkUp port) s =
        .next (s.withDev (endConditions 0x000A (s.dev.setVport port.val
          { s.dev.vport port.val with link := .up, sending := none, waiting := [] })))) ∧
  (∀ (s : State) (port : Fin 2), (s.dev.vport port.val).sending.isSome = true →
    exec (.vlinkFrameDone port) s =
        .next (s.withDev (startFrame port.val (s.dev.setVport port.val { s.dev.vport port.val with sending := none })))) ∧
  (∀ (s : State) (port : Fin 2), ((s.dev.vport port.val).link ≠ .up → exec (.vlinkLinkDown port) s =
        .next (s.withDev (s.dev))) ∧
    (((s.dev.vport port.val).link = .up ∨ s.dev.linkAllowed = false) → exec (.vlinkLinkUp port) s =
        .next (s.withDev (s.dev))) ∧
    ((s.dev.vport port.val).sending = none → exec (.vlinkFrameDone port) s =
        .next (s.withDev (s.dev))))

/-- A sample excludes the sensors that deviate; the largest reading left is noted as Tj and acted on, by the die or as
the IOD's, and a die with no sensor left acts as R441 says. The restoration criterion of a halving that has held 100
ms is noted; that of a power removal that has held 1 s restarts the die unless its rail is out. An excursion of a
rail already out counts and is reported again; the first of VDD_C removes the die's power as class H 0x0107, of
another is class V 0x000B, and of a memory rail sets the reset 2 ms on. A rail back within its limits is reported,
and restores what it had stopped, but for a memory rail. Overcurrent halves the clock once, as class H 0x0106; its
criterion is noted when met. VDD_X under its limit for 1 ms and a memory rail's 2 ms reset the device. A limit write
within its bounds takes effect, and any other is logged, reported and ignored. What is not outside a limit or not
due, and in a held device a sample or an excursion, does nothing. (R441, R442, R443, R444, R445) -/
def Obligations.TemperaturesRailsAndLimits : Prop :=
  (∀ (s : State) (die : Die) (sensors : List Int) (all : List (Nat × Int)) (d1 : Dev), s.dev.boot.phase ≠ .held →
    all = validSensors (s.dev.thermal die.idx).sensorsOut (sensors.take (sensorCount die.idx)) →
    d1 = (all.filter (sensorBad all)).foldl (fun d e => excludeSensor die.idx e.1 d) s.dev →
    (∀ tj, maxReading ((all.filter (fun e => !sensorBad all e)).map (·.2)) = some tj →
      (die.idx < 6 → exec (.tempSample die sensors) s =
        .next (s.withDev (actOnDie die.idx tj (noteTj die.idx tj d1)))) ∧
      (6 ≤ die.idx → exec (.tempSample die sensors) s =
        .next (s.withDev (actOnIod tj (noteTj die.idx tj d1))))) ∧
    (maxReading ((all.filter (fun e => !sensorBad all e)).map (·.2)) = none →
      ((d1.thermal die.idx).sensorsOut.length < sensorCount die.idx → exec (.tempSample die sensors) s =
        .next (s.withDev (d1))) ∧
      (sensorCount die.idx ≤ (d1.thermal die.idx).sensorsOut.length → exec (.tempSample die sensors) s =
        .next (s.withDev (noSensors die.idx d1))))) ∧
  (∀ (s : State) (die : Die) (d1 d2 : Dev) (halveMet offMet : Bool),
    halveMet = ((s.dev.thermal die.idx).halvedTemp && (s.dev.thermal die.idx).tempMet.isNone &&
      (match (s.dev.thermal die.idx).coolHalve with | some t => decide (t + 100 * msNs ≤ s.dev.now) | none => false)) →
    offMet = ((s.dev.thermal die.idx).offTemp &&
      (match (s.dev.thermal die.idx).coolOff with | some t => decide (t + 1000 * msNs ≤ s.dev.now) | none => false)) →
    d1 = (if halveMet = true then
        thermalEvent die.idx ((s.dev.thermal die.idx).halveTh - 6) (s.dev.thermal die.idx).tjNow false
          (s.dev.setThermal die.idx { s.dev.thermal die.idx with tempMet := some s.dev.now })
      else s.dev) →
    d2 = thermalEvent die.idx ((s.dev.thermal die.idx).offTh - 25) (s.dev.thermal die.idx).tjNow false
      (d1.setThermal die.idx { d1.thermal die.idx with offTemp := false }) →
    (offMet = false → exec (.thermalRestoreTimer die) s =
        .next (s.withDev (d1))) ∧
    (offMet = true → (s.dev.thermal die.idx).offRail = true → exec (.thermalRestoreTimer die) s =
        .next (s.withDev (d2))) ∧
    (offMet = true → (s.dev.thermal die.idx).offRail = false → exec (.thermalRestoreTimer die) s =
        .next (s.withDev (restoreDie die.idx d2)))) ∧
  (∀ (s : State) (rail : Fin 14) (mv current : Nat) (d1 d2 : Dev), s.dev.outside rail.val mv = true → s.dev.boot.phase ≠ .held →
    d1 = satEvent (barHkp + 0x168) s.dev.health.railFault s.dev.health.railFault.inc
      { s.dev with health := { s.dev.health with railFault := s.dev.health.railFault.inc } } →
    d2 = railEvent rail.val mv current (d1.setRail rail.val { s.dev.rail rail.val with
      out := true
      underSince := if rail.val = 6 ∧ mv < (d1.windowOf rail.val).1 then some (d1.now - 10 * usNs) else none }) →
    ((s.dev.rail rail.val).out = true → exec (.railExcursion rail mv current) s =
        .next (s.withDev (d2))) ∧
    ((s.dev.rail rail.val).out = false → rail.val < 4 →
      exec (.railExcursion rail mv current) s =
        .next (s.withDev (removePower rail.val false (raiseH 0x0107 rail.val rail.val 2 d2)))) ∧
    ((s.dev.rail rail.val).out = false → 4 ≤ rail.val →
      exec (.railExcursion rail mv current) s =
        .next (s.withDev (raiseV 0x000B (if rail.val = 4 then 4 else if rail.val = 5 then 5 else dieIod)
          rail.val 3 false rail.val (if memoryRail rail.val = true
            then d2.setRail rail.val { d2.rail rail.val with resetAt := some (d2.now + 2 * msNs) } else d2))))) ∧
  (∀ (s : State) (rail : Fin 14) (mv current : Nat), (s.dev.outside rail.val mv = false ∨ s.dev.boot.phase = .held) →
    exec (.railExcursion rail mv current) s =
        .next (s.withDev (s.dev))) ∧
  (∀ (s : State) (rail : Fin 4) (current : Nat), s.dev.currentLimit rail.val < current → s.dev.powerOff rail.val = false →
    s.dev.boot.phase ≠ .held →
    ((s.dev.thermal rail.val).halvedCurrent = true →
      exec (.railOvercurrent rail current) s =
        .next (s.withDev (s.dev.setThermal rail.val { s.dev.thermal rail.val with currentMet := none }))) ∧
    ((s.dev.thermal rail.val).halvedCurrent = false →
      exec (.railOvercurrent rail current) s =
        .next (s.withDev (halveClock rail.val false (raiseH 0x0106 rail.val rail.val 2
          (s.dev.setRail rail.val { s.dev.rail rail.val with overcurrent := true })))))) ∧
  (∀ (s : State) (rail : Fin 4) (current : Nat),
    (current ≤ s.dev.currentLimit rail.val ∨ s.dev.powerOff rail.val = true ∨ s.dev.boot.phase = .held) →
    exec (.railOvercurrent rail current) s =
        .next (s.withDev (s.dev))) ∧
  (∀ (s : State) (rail : Fin 14) (mv current : Nat), ((s.dev.rail rail.val).out = false ∨ s.dev.outside rail.val mv = true) →
    exec (.railRestoreTimer rail false mv current) s =
        .next (s.withDev (s.dev))) ∧
  (∀ (s : State) (rail : Fin 14) (mv current : Nat) (d1 d2 : Dev), (s.dev.rail rail.val).out = true → s.dev.outside rail.val mv = false →
    d1 = railEvent rail.val mv current (s.dev.setRail rail.val { s.dev.rail rail.val with out := false, underSince := none }) →
    d2 = d1.setThermal rail.val { d1.thermal rail.val with offRail := false } →
    (rail.val < 4 → (d1.thermal rail.val).offTemp = true → exec (.railRestoreTimer rail false mv current) s =
        .next (s.withDev (d2))) ∧
    (rail.val < 4 → (d1.thermal rail.val).offTemp = false →
      exec (.railRestoreTimer rail false mv current) s =
        .next (s.withDev (restoreDie rail.val d2))) ∧
    (4 ≤ rail.val → memoryRail rail.val = true → exec (.railRestoreTimer rail false mv current) s =
        .next (s.withDev (d1))) ∧
    (4 ≤ rail.val → memoryRail rail.val = false →
      exec (.railRestoreTimer rail false mv current) s =
        .next (s.withDev (endCondition 0x000B rail.val d1)))) ∧
  (∀ (s : State) (rail : Fin 14) (mv current : Nat) (d1 : Dev),
    d1 = s.dev.setRail rail.val { s.dev.rail rail.val with overcurrent := false } →
    (rail.val < 4 → (s.dev.thermal rail.val).halvedCurrent = true → current + 50 < s.dev.currentLimit rail.val →
      ((s.dev.thermal rail.val).currentMet = none → exec (.railRestoreTimer rail true mv current) s =
        .next (s.withDev (d1.setThermal rail.val
          { d1.thermal rail.val with currentMet := some d1.now }))) ∧
      (∀ t, (s.dev.thermal rail.val).currentMet = some t → exec (.railRestoreTimer rail true mv current) s =
        .next (s.withDev (d1.setThermal rail.val
          { d1.thermal rail.val with currentMet := some t })))) ∧
    ((4 ≤ rail.val ∨ (s.dev.thermal rail.val).halvedCurrent = false ∨ s.dev.currentLimit rail.val ≤ current + 50) →
      exec (.railRestoreTimer rail true mv current) s =
        .next (s.withDev (s.dev)))) ∧
  (∀ (s : State) (t : Nanos), (s.dev.rail 6).underSince = some t →
    (t + msNs ≤ s.dev.now → exec .vddXUndervoltageTimer s =
        .next (s.withDev (fullReset s.dev.boot.bootHint s.dev))) ∧
    (s.dev.now < t + msNs → exec .vddXUndervoltageTimer s =
        .next (s.withDev (s.dev)))) ∧
  (∀ (s : State) (r : Nat) (t : Nanos), r ∈ [4, 5, 7, 8, 9] → (s.dev.rail r).resetAt = some t → t ≤ s.dev.now →
    exec .memoryRailResetTimer s =
        .next (s.withDev (fullReset s.dev.boot.bootHint s.dev))) ∧
  (∀ s : State, (∀ r ∈ [4, 5, 7, 8, 9], ∀ t, (s.dev.rail r).resetAt = some t → s.dev.now < t) → exec .memoryRailResetTimer s =
        .next (s.withDev (s.dev))) ∧
  (∀ (s : State) (limit : Limit) (value : Nat),
    (∀ x, limit = .halve x → 100 ≤ value → value ≤ 118 →
      exec (.limitWrite limit value) s =
        .next (s.withDev (s.dev.setThermal x.val { s.dev.thermal x.val with halveTh := value }))) ∧
    (∀ x, limit = .off x → 100 ≤ value → value ≤ 125 →
      exec (.limitWrite limit value) s =
        .next (s.withDev (s.dev.setThermal x.val { s.dev.thermal x.val with offTh := value }))) ∧
    (∀ r, limit = .current r → value ≤ 950 →
      exec (.limitWrite limit value) s =
        .next (s.withDev (s.dev.setRail r.val { s.dev.rail r.val with currentLimit := some value }))) ∧
    (∀ r, limit = .under r → (railWindow r.val).1 ≤ value →
      exec (.limitWrite limit value) s =
        .next (s.withDev (s.dev.setRail r.val { s.dev.rail r.val with underMv := some value }))) ∧
    (∀ r, limit = .above r → value ≤ (railWindow r.val).2 →
      exec (.limitWrite limit value) s =
        .next (s.withDev (s.dev.setRail r.val { s.dev.rail r.val with overMv := some value }))) ∧
    (limitAllowed limit value = false → exec (.limitWrite limit value) s =
        .next (s.withDev (healthEvent
          { code := 0x3002, severity := Config.severity 0x3002 (Config.limitIndex limit), die := limitDie limit,
            arg0 := Config.limitIndex limit, arg1 := value }
          (logWrite 3 (Config.severity 0x3002 (Config.limitIndex limit)).toNat 0x3002 [Config.limitIndex limit, value] s.dev)))))

/-- Each sample of a rail's estimator adds its increment. An eye sample sets its link's margin, and one below 30 per
cent is kept as the link's low one. A failed canary adds one to its cluster's count and to the device's. The wear
record is written 600 s of operation after the last, while NVM writes are possible. A prediction that is due, with
the telemetry processor running, counts the LPDDR5X errors, publishes the life of the mechanism of most damage with
its band, and raises its health event; below 10,000 hours it also sets the warning and raises its event, once; it
ends with the trend events and a wear record. What is not due does nothing. (R446, R447, R448, R449) -/
def Obligations.WearIsRecorded : Prop :=
  (∀ (s : State) (rail : Fin 14) (current : Nat) (temp : Int),
    exec (.emEstimatorSample rail current temp) s =
        .next (s.withDev (s.dev.setRail rail.val { s.dev.rail rail.val with
        em := (s.dev.rail rail.val).em + emIncrement rail.val current temp }))) ∧
  (∀ (s : State) (link : EyeLink) (margin : Nat) (d1 : Dev),
    ((∃ n : Fin 16, link = .camera n ∧ d1 = s.dev.setCamera n.val { s.dev.camera n.val with eyeMargin := margin % 256 }) ∨
      (∃ n : Fin 8, link = .lidar n ∧ d1 = s.dev.setLidar n.val { s.dev.lidar n.val with eyeMargin := margin % 256 }) ∨
      (∃ n : Fin 2, link = .vehicle n ∧ d1 = s.dev.setVport n.val { s.dev.vport n.val with eyeMargin := margin % 256 })) →
    (30 ≤ margin → exec (.eyeMarginSample link margin) s =
        .next (s.withDev (d1))) ∧
    (margin < 30 → exec (.eyeMarginSample link margin) s =
        .next (s.withDev ({ d1 with health := { d1.health with
        eyeLow := (link, margin) :: d1.health.eyeLow.filter (fun e => e.1 ≠ link) } })))) ∧
  (∀ (s : State) (cl : Fin 132), exec (.canaryFailure cl) s =
        .next (s.withDev ({ s.dev with health := { s.dev.health with
        canary := bmod 0 cl.val wearInc s.dev.health.canary, canaryAll := wearInc s.dev.health.canaryAll } }))) ∧
  (∀ s : State, s.dev.canWriteNv = true → s.dev.health.lastWear + 600 ≤ s.dev.health.operS →
    exec .wearRecordWrite s =
        .next (s.withDev (writeWear s.dev))) ∧
  (∀ s : State, (s.dev.canWriteNv = false ∨ s.dev.health.operS < s.dev.health.lastWear + 600) → exec .wearRecordWrite s =
        .next (s.withDev (s.dev))) ∧
  (∀ (s : State) (m0 m1 : Nat), (s.dev.health.predDue = false ∨ (bget {} 3 s.dev.boot.procs : FwState).restarting = true) →
    exec (.lifePrediction m0 m1) s =
        .next (s.withDev (s.dev))) ∧
  (∀ (s : State) (m0 m1 life band : Nat) (w : Nat × Damage) (d1 d2 d3 : Dev), s.dev.health.predDue = true →
    (bget {} 3 s.dev.boot.procs : FwState).restarting = false →
    d1 = satEvent (barHkp + 0x170) s.dev.health.ddrCorr (Counter.add s.dev.health.ddrCorr (m0 + m1))
      { s.dev with health := { s.dev.health with ddrCorr := Counter.add s.dev.health.ddrCorr (m0 + m1) } } →
    w = worstDamage d1.damages 0 (0, { num := 0, den := 1 }) → life = w.2.lifeH → band = w.2.bandH w.1 →
    d2 = healthEvent { code := 0x2000, severity := Config.severity 0x2000 0, arg0 := life, arg1 := band, arg2 := w.1 }
      { d1 with health := { d1.health with
        lifeH := BitVec.ofNat 32 life
        lifeBandH := BitVec.ofNat 32 (satTo 0xFFFFFFFF band)
        lifeMech := BitVec.ofNat 2 w.1
        predTime := d1.now
        predicted := true
        predOper := d1.health.operS } } →
    d3 = (if life < 10000 ∧ d2.health.lifeWarn = false then
        healthEvent { code := 0x2001, severity := 2, arg0 := life, arg1 := band, arg2 := w.1 }
          { d2 with health := { d2.health with lifeWarn := true } }
      else d2) →
    ((trends m0 m1 d3).boot.nvStopped = false → exec (.lifePrediction m0 m1) s =
        .next (s.withDev (writeWear (trends m0 m1 d3)))) ∧
    ((trends m0 m1 d3).boot.nvStopped = true → exec (.lifePrediction m0 m1) s =
        .next (s.withDev (trends m0 m1 d3))))

/-- A trace point whose identifier is enabled advances its die's record number and puts its record, with at most five
arguments, into the die's local buffer of 64, or is dropped and counted where it is full; one not enabled does
nothing. A TAP instruction is loaded. With the registers presented, a read of TSQ_DEVTIME_LO latches device time, k,
m and the published offset from one instant, one of TSQ_PPS_STAMP_LO the stamp's high word, one of TSQ_PENDING_K_LO
the pending mode's first tick. A read of a stream's last time, of the calibration generation, of a camera's exposure
or of a slot's last end latches its snapshot. A read of BAR0 answers where the link is up and the device is not
held, and in a device without an image or Retired in the housekeeping block alone; the session command word, the
offsets between the HST block and the MSI-X table and those past 0x2200 up to the pending bits read 0;
TSQ_DEVTIME_HI reads the latch, HST_INT_STATUS and INT_ENABLE their bits. (R6, R56, R77, R104, R143, R265, R322,
R344, R345, R407, R420, R492) -/
def Obligations.TraceTapAndLatches : Prop :=
  (∀ (s : State) (die : Die) (id : BitVec 16) (args : List Word) (n : BitVec 8) (d1 : Dev),
    s.dev.boot.traceMask.contains id.toNat = true → n = bget 0 die.idx s.dev.boot.traceSeq + 1 →
    d1 = { s.dev with boot := { s.dev.boot with traceSeq := bput 0 die.idx n s.dev.boot.traceSeq } } →
    (((bget [] die.idx s.dev.boot.traceLocal : List TraceRecord)).length < 64 →
      exec (.tracePoint die id args) s =
        .next (s.withDev ({ d1 with boot := { d1.boot with
        traceLocal := bput [] die.idx ({ time := s.dev.now, id := id, die := die.idx, dieSeq := n, args := args.take 5 } ::
          bget [] die.idx s.dev.boot.traceLocal) d1.boot.traceLocal } }))) ∧
    (64 ≤ ((bget [] die.idx s.dev.boot.traceLocal : List TraceRecord)).length →
      exec (.tracePoint die id args) s =
        .next (s.withDev (dropTrace d1)))) ∧
  (∀ (s : State) (die : Die) (id : BitVec 16) (args : List Word), s.dev.boot.traceMask.contains id.toNat = false →
    exec (.tracePoint die id args) s =
        .next (s.withDev (s.dev))) ∧
  (∀ (s : State) (code : TapInstr), exec (.tapInstruction code) s =
        .next (s.withDev ({ s.dev with boot := { s.dev.boot with tap := code } }))) ∧
  (∀ s : State, s.dev.barOpen = true →
    ∃ t, exec .tsqDevtimeLoRead s = .next t ∧ t.dev.time.latch.dev = s.dev.time.dev ∧ t.dev.time.latch.k = s.dev.time.k ∧
      t.dev.time.latch.m = s.dev.time.m ∧ t.dev.time.latch.vt = s.dev.time.vtOffset) ∧
  (∀ s : State, s.dev.barOpen = true → exec .tsqPpsStampLoRead s =
        .next (s.withDev ({ s.dev with time := { s.dev.time with
        ppsStampHiLatch := BitVec.ofNat 32 (s.dev.time.ppsStamp / 2 ^ 32) } }))) ∧
  (∀ s : State, s.dev.barOpen = true → exec .tsqPendingKLoRead s =
        .next (s.withDev ({ s.dev with plan := { s.dev.plan with
        pendingKHiLatch := BitVec.ofNat 32 ((match s.dev.plan.pending with | some q => q.effect | none => 0) / 2 ^ 32) } }))) ∧
  (∀ (s : State) (n : Fin 48), exec (.musLastTimeLoRead n) s =
        .next (s.withDev (s.dev.setStream n.val { s.dev.stream n.val with
        latchTime := (s.dev.stream n.val).newestTime, latchArrival := (s.dev.stream n.val).newestArrival }))) ∧
  (∀ s : State, exec .srgCalGenRead s =
        .next (s.withDev ({ s.dev with cal := { s.dev.cal with snapshot := s.dev.cal.active } }))) ∧
  (∀ (s : State) (slot : Fin 16), exec (.lastEndLoRead slot) s =
        .next (s.withDev (modSlot slot.val (fun x => { x with
        lastEndHiLatch := BitVec.ofNat 32 (x.lastEndTime / 2 ^ 32) }) s.dev))) ∧
  (∀ (s : State) (cam : Fin 16), exec (.exposureUsRead cam) s =
        .next (s.withDev (modCamera cam.val (fun c => { c with
        latchWbR := c.wbR, latchWbB := c.wbB }) s.dev))) ∧
  (∀ s : State, s.dev.barOpen = false →
    exec .tsqDevtimeLoRead s =
        .next (s.withDev (s.dev)) ∧ exec .tsqPpsStampLoRead s =
        .next (s.withDev (s.dev)) ∧ exec .tsqPendingKLoRead s =
        .next (s.withDev (s.dev))) ∧
  (∀ (d : Dev) (p off : Nat),
    ((d.port p).linkUp = false ∨ d.boot.phase = .held → d.readBar p off = none) ∧
    ((d.boot.phase = .noImage ∨ d.boot.phase = .retired) → (off < barHkp ∨ barHkp + 0x1000 ≤ off) → d.readBar p off = none) ∧
    ((d.port p).linkUp = true → (d.boot.phase = .noImage ∨ d.boot.phase = .retired) → barHkp ≤ off → off < barHkp + 0x1000 →
      d.readBar p off = some (BitVec.ofNat 32 (d.barWord p off))) ∧
    ((d.port p).linkUp = true → d.boot.phase ≠ .held → (d.boot.phase ≠ .noImage ∧ d.boot.phase ≠ .retired) →
      d.readBar p off = some (BitVec.ofNat 32 (d.barWord p off)) ∧
      d.readBar p 0x004 = some 0 ∧ ((0x1000 ≤ off ∧ off < 0x2000) ∨ (0x2200 ≤ off ∧ off < 0x3000) → d.readBar p off = some 0) ∧
      d.readBar p (barTime + 0x004) = some (BitVec.ofNat 32 (d.time.latch.dev / 2 ^ 32)) ∧
      d.readBar p 0x300 = some (d.port p).intStatus ∧ d.readBar p 0x304 = some (d.port p).intEnable))

/-- Whatever the arithmetic of the unit comes to: the loop of R303 begun at its evaluation ends within five operations
for each of MAX_ITER iterations and two more; it begins at most MAX_ITER iterations; once a pivot has been flagged λ
does not fall below LAMBDA_REG, where that is a number; and past the evaluation the cost that the loop holds is that
of its iterate, so what it returns is the last accepted iterate or the first. (R303, R304) -/
def Obligations.EverySolveEndsWithinItsBound : Prop :=
  (∀ (p : SrgProblem) (left : Nat → Nat) (l : SolveLoop), l.phase = .evaluate → l.ended = none →
    (solveOps p left (5 * p.slot.maxIter + 2) l).ended ≠ none) ∧
  (∀ (p : SrgProblem) (left : Nat → Nat) (n : Nat) (l : SolveLoop), l.it ≤ p.slot.maxIter →
    (solveOps p left n l).it ≤ p.slot.maxIter) ∧
  (∀ (p : SrgProblem) (left : Nat → Nat) (n : Nat) (l : SolveLoop), f64Num (slotParam p.slot 5) ≠ .nan →
    (l.regularised = true → f64Le (slotParam p.slot 5) l.lambda = true) →
    (solveOps p left n l).regularised = true → f64Le (slotParam p.slot 5) (solveOps p left n l).lambda = true) ∧
  (∀ (p : SrgProblem) (left : Nat → Nat) (n : Nat) (l : SolveLoop), (l.phase ≠ .evaluate → evaluate p l.x = some l.cost) →
    (solveOps p left n l).phase ≠ .evaluate →
    evaluate p (solveOps p left n l).x = some (solveOps p left n l).cost)
end

