-- ==== Sys2Proof/Laws/Bank.lean ====
section
/-!
SUPPORT. The laws of the sparse banks and of memory: a read after a write, and that every operation keeps the canonical
form.
-/

namespace Sys2Proof.Machine

open Sys2Proof

variable {α : Type} [DecidableEq α]

/-- The canonical form from a bound holds from every lower bound. -/
theorem bwfFrom_mono {dflt : α} {lo lo' : Nat} {b : Bank α} (hl : lo' ≤ lo) (h : bwfFrom dflt lo b = true) :
    bwfFrom dflt lo' b = true := by
  cases b with
  | nil => rfl
  | cons e t =>
    simp only [bwfFrom, Bool.and_eq_true, decide_eq_true_eq] at h ⊢
    exact ⟨⟨Nat.le_trans hl h.1.1, h.1.2⟩, h.2⟩

/-- A write keeps the canonical form. -/
theorem bwfFrom_bput {dflt : α} {lo k : Nat} {v : α} {b : Bank α} (hk : lo ≤ k) (h : bwfFrom dflt lo b = true) :
    bwfFrom dflt lo (bput dflt k v b) = true := by
  induction b generalizing lo with
  | nil =>
    unfold bput
    split <;> simp_all [bwfFrom]
  | cons e t ih =>
    obtain ⟨a, w⟩ := e
    simp only [bwfFrom, Bool.and_eq_true, decide_eq_true_eq] at h
    unfold bput
    split
    · split
      · simp [bwfFrom, h]
      · simp_all [bwfFrom]
    · split
      · subst_vars
        split
        · exact bwfFrom_mono (by omega) h.2
        · simp_all [bwfFrom]
      · have : a + 1 ≤ k := by omega
        simp [bwfFrom, h, ih this h.2]

/-- Removing entries keeps the canonical form. -/
theorem bwfFrom_filter {dflt : α} {lo : Nat} {p : Nat × α → Bool} {b : Bank α} (h : bwfFrom dflt lo b = true) :
    bwfFrom dflt lo (b.filter p) = true := by
  induction b generalizing lo with
  | nil => rfl
  | cons e t ih =>
    obtain ⟨a, w⟩ := e
    simp only [bwfFrom, Bool.and_eq_true, decide_eq_true_eq] at h
    simp only [List.filter]
    split
    · simp [bwfFrom, h, ih h.2]
    · exact bwfFrom_mono (by omega) (ih h.2)

theorem bwf_bput {dflt : α} {k : Nat} {v : α} {b : Bank α} (h : bwf dflt b = true) : bwf dflt (bput dflt k v b) = true :=
  bwfFrom_bput (Nat.zero_le _) h

theorem bwf_bmod {dflt : α} {k : Nat} {f : α → α} {b : Bank α} (h : bwf dflt b = true) :
    bwf dflt (bmod dflt k f b) = true := bwf_bput h

theorem bwf_filter {dflt : α} {p : Nat × α → Bool} {b : Bank α} (h : bwf dflt b = true) :
    bwf dflt (b.filter p) = true := bwfFrom_filter h

/-- Below its first key a canonical bank holds the default. -/
theorem bget_of_lt {dflt : α} {lo k : Nat} {b : Bank α} (h : bwfFrom dflt lo b = true) (hk : k < lo) :
    bget dflt k b = dflt := by
  induction b generalizing lo with
  | nil => rfl
  | cons e t ih =>
    obtain ⟨a, w⟩ := e
    simp only [bwfFrom, Bool.and_eq_true, decide_eq_true_eq] at h
    have : a ≠ k := by omega
    simp only [bget, this, if_false]
    exact ih h.2 (by omega)

/-- A read after a write to the same key gives what was written. -/
theorem bget_bput_same {dflt : α} {k : Nat} {v : α} {b : Bank α} (h : bwf dflt b = true) :
    bget dflt k (bput dflt k v b) = v := by
  unfold bwf at h
  generalize 0 = lo at h
  induction b generalizing lo with
  | nil =>
    unfold bput
    split
    · simp_all [bget]
    · simp [bget]
  | cons e t ih =>
    obtain ⟨a, w⟩ := e
    simp only [bwfFrom, Bool.and_eq_true, decide_eq_true_eq] at h
    unfold bput
    split
    · split
      · have : a ≠ k := by omega
        simp only [bget, this, if_false]
        exact (bget_of_lt h.2 (by omega)).trans (by simp_all)
      · simp [bget]
    · split
      · split
        · subst_vars; exact bget_of_lt h.2 (by omega)
        · simp [bget]
      · have : a ≠ k := by omega
        simp only [bget, this, if_false]
        exact ih _ h.2

/-- A write leaves every other key alone. -/
theorem bget_bput_ne {dflt : α} {k j : Nat} {v : α} {b : Bank α} (hj : j ≠ k) :
    bget dflt j (bput dflt k v b) = bget dflt j b := by
  induction b with
  | nil =>
    unfold bput
    split
    · rfl
    · simp [bget, hj.symm]
  | cons e t ih =>
    obtain ⟨a, w⟩ := e
    unfold bput
    split
    · split
      · rfl
      · simp [bget, hj.symm]
    · split
      · subst_vars
        split <;> simp [bget, hj.symm]
      · simp only [bget, ih]

end Sys2Proof.Machine
end

