-- ==== Sys2Proof/Laws/Kept.lean ====
section
/-!
SUPPORT. What the operations keep: memory in its canonical form, the rule of the SAFE_OK pins, where the device stands in
time and in its plan, the fuses. The files Kept<Part>.lean hold one lemma for each operation of the machine; each is
proved by its parts' lemmas, and no proof over the machine needs to unfold an operation for these.
-/

set_option linter.unusedVariables false

namespace Sys2Proof.Machine

open Sys2Proof

/-- Where the device stands in time: what only the clock, the boundaries and the resets move. -/
structure Pos where
  dev : Nanos
  running : Bool
  begun : Bool
  k : Nat
  m : Nat
  nextM : Nat
  bk : Nanos

/-- Where the device stands in its plan: what only a major tick boundary and the resets move. -/
structure PlanPos where
  pMs : Nat
  n : Nat
  dMinor : Nat
  transition : Option Nat
  mode : Nat
  load : Nat
  epochMode : Nat
  switch : Nat

/-- Where a device stands in time. -/
abbrev Dev.pos (d : Dev) : Pos :=
  ⟨d.time.dev, d.time.running, d.time.begun, d.time.k, d.time.m, d.time.nextM, d.time.bk⟩

/-- Where a device stands in its plan. -/
abbrev Dev.planPos (d : Dev) : PlanPos :=
  ⟨d.time.pMs, d.time.n, d.time.dMinor, d.time.transition, d.plan.modeInForce, d.plan.epochLoad, d.plan.epochMode,
      d.plan.epochSwitch⟩

/-- What of a device is followed: the memory's form, the pins of SAFE_OK, where the device stands (`none`: not
    followed), a
count of burnt rollback fuses that is reached, and whether it is Retired. -/
structure Keep where
  mem : Bool
  pins : Bool
  pos : Option Pos
  plan : Option PlanPos
  burnt : Nat
  retired : Bool

/-- The device has what is followed. -/
structure Kept (q : Keep) (d : Dev) : Prop where
  mem : q.mem = true → memOk d.mem
  pins : q.pins = true → pinsOk d.felt.safeOk d.felt.pinA d.felt.pinB d.felt.classV
  pos : ∀ p, q.pos = some p → d.pos = p
  plan : ∀ p, q.plan = some p → d.planPos = p
  burnt : q.burnt ≤ d.boot.nv.rollbackCount
  retired : q.retired = true → d.boot.nv.lifecycle = .retired

/-- A new record that leaves everything followed as it was. -/
theorem Kept.mk' {q : Keep} {d a1 a2 a3 a4 a5 a6 a7 a8 a9 a10 a11 a12 a13 a14 a15 a16 a17 a18 a19 a20 a21 a22 a23}
    (h : Kept q d) (e1 : a21 = d.mem) (e2 : a16.safeOk = d.felt.safeOk) (e3 : a16.pinA = d.felt.pinA) (e4 : a16.pinB
        = d.felt.pinB)
    (e5 : a16.classV = d.felt.classV)
    (e6 : Dev.pos ⟨a1, a2, a3, a4, a5, a6, a7, a8, a9, a10, a11, a12, a13, a14, a15, a16, a17, a18, a19, a20, a21,
        a22, a23⟩ = d.pos)
    (e9 : Dev.planPos ⟨a1, a2, a3, a4, a5, a6, a7, a8, a9, a10, a11, a12, a13, a14, a15, a16, a17, a18, a19, a20,
        a21, a22, a23⟩ = d.planPos)
    (e7 : a18.nv.rollbackCount = d.boot.nv.rollbackCount) (e8 : a18.nv.lifecycle = d.boot.nv.lifecycle) :
    Kept q ⟨a1, a2, a3, a4, a5, a6, a7, a8, a9, a10, a11, a12, a13, a14, a15, a16, a17, a18, a19, a20, a21, a22, a23⟩
        :=
  ⟨fun x => by rw [show _ = d.mem from e1]; exact h.mem x,
   fun x => by show pinsOk a16.safeOk a16.pinA a16.pinB a16.classV; rw [e2, e3, e4, e5]; exact h.pins x,
   fun p x => e6.trans (h.pos p x), fun p x => e9.trans (h.plan p x),
   by show q.burnt ≤ a18.nv.rollbackCount; rw [e7]; exact h.burnt,
   fun x => e8.trans (h.retired x)⟩

/-- A repetition keeps what each round keeps. -/
theorem Kept.foldl {q : Keep} {α : Type} {g : Dev → α → Dev} {l : List α} {d : Dev}
    (hg : ∀ d x, Kept q d → Kept q (g d x)) (h : Kept q d) : Kept q (l.foldl g d) := by
  induction l generalizing d with
  | nil => exact h
  | cons a t ih => exact ih (hg d a h)

/-- A new record with pins that hold their rule. -/
theorem Kept.mkPins {q : Keep} {d a1 a2 a3 a4 a5 a6 a7 a8 a9 a10 a11 a12 a13 a14 a15 a16 a17 a18 a19 a20 a21 a22 a23}
    (h : Kept q d) (e1 : a21 = d.mem) (e2 : pinsOk d.felt.safeOk d.felt.pinA d.felt.pinB d.felt.classV → pinsOk
        a16.safeOk a16.pinA a16.pinB a16.classV)
    (e6 : Dev.pos ⟨a1, a2, a3, a4, a5, a6, a7, a8, a9, a10, a11, a12, a13, a14, a15, a16, a17, a18, a19, a20, a21,
        a22, a23⟩ = d.pos)
    (e9 : Dev.planPos ⟨a1, a2, a3, a4, a5, a6, a7, a8, a9, a10, a11, a12, a13, a14, a15, a16, a17, a18, a19, a20,
        a21, a22, a23⟩ = d.planPos)
    (e7 : a18.nv.rollbackCount = d.boot.nv.rollbackCount) (e8 : a18.nv.lifecycle = d.boot.nv.lifecycle) :
    Kept q ⟨a1, a2, a3, a4, a5, a6, a7, a8, a9, a10, a11, a12, a13, a14, a15, a16, a17, a18, a19, a20, a21, a22, a23⟩
        :=
  ⟨fun x => by rw [show _ = d.mem from e1]; exact h.mem x,
   fun x => e2 (h.pins x),
   fun p x => e6.trans (h.pos p x), fun p x => e9.trans (h.plan p x),
   by show q.burnt ≤ a18.nv.rollbackCount; rw [e7]; exact h.burnt,
   fun x => e8.trans (h.retired x)⟩

/-- A new record with memory in its form. -/
theorem Kept.mkMem {q : Keep} {d a1 a2 a3 a4 a5 a6 a7 a8 a9 a10 a11 a12 a13 a14 a15 a16 a17 a18 a19 a20 a21 a22 a23}
    (h : Kept q d) (e1 : memOk d.mem → memOk a21) (e2 : a16.safeOk = d.felt.safeOk) (e3 : a16.pinA = d.felt.pinA) (e4
        : a16.pinB = d.felt.pinB)
    (e5 : a16.classV = d.felt.classV)
    (e6 : Dev.pos ⟨a1, a2, a3, a4, a5, a6, a7, a8, a9, a10, a11, a12, a13, a14, a15, a16, a17, a18, a19, a20, a21,
        a22, a23⟩ = d.pos)
    (e9 : Dev.planPos ⟨a1, a2, a3, a4, a5, a6, a7, a8, a9, a10, a11, a12, a13, a14, a15, a16, a17, a18, a19, a20,
        a21, a22, a23⟩ = d.planPos)
    (e7 : a18.nv.rollbackCount = d.boot.nv.rollbackCount) (e8 : a18.nv.lifecycle = d.boot.nv.lifecycle) :
    Kept q ⟨a1, a2, a3, a4, a5, a6, a7, a8, a9, a10, a11, a12, a13, a14, a15, a16, a17, a18, a19, a20, a21, a22, a23⟩
        :=
  ⟨fun x => e1 (h.mem x),
   fun x => by show pinsOk a16.safeOk a16.pinA a16.pinB a16.classV; rw [e2, e3, e4, e5]; exact h.pins x,
   fun p x => e6.trans (h.pos p x), fun p x => e9.trans (h.plan p x),
   by show q.burnt ≤ a18.nv.rollbackCount; rw [e7]; exact h.burnt,
   fun x => e8.trans (h.retired x)⟩

/-- A new record that stands elsewhere in time, where that is not followed. -/
theorem Kept.mkPos {q : Keep} {d a1 a2 a3 a4 a5 a6 a7 a8 a9 a10 a11 a12 a13 a14 a15 a16 a17 a18 a19 a20 a21 a22 a23}
    (hq : q.pos = none) (h : Kept q d) (e1 : a21 = d.mem) (e2 : a16.safeOk = d.felt.safeOk) (e3 : a16.pinA =
        d.felt.pinA)
    (e4 : a16.pinB = d.felt.pinB) (e5 : a16.classV = d.felt.classV)
    (e9 : Dev.planPos ⟨a1, a2, a3, a4, a5, a6, a7, a8, a9, a10, a11, a12, a13, a14, a15, a16, a17, a18, a19, a20,
        a21, a22, a23⟩ = d.planPos)
    (e7 : a18.nv.rollbackCount = d.boot.nv.rollbackCount) (e8 : a18.nv.lifecycle = d.boot.nv.lifecycle) :
    Kept q ⟨a1, a2, a3, a4, a5, a6, a7, a8, a9, a10, a11, a12, a13, a14, a15, a16, a17, a18, a19, a20, a21, a22, a23⟩
        :=
  ⟨fun x => by rw [show _ = d.mem from e1]; exact h.mem x,
   fun x => by show pinsOk a16.safeOk a16.pinA a16.pinB a16.classV; rw [e2, e3, e4, e5]; exact h.pins x,
   fun p x => by simp [hq] at x, fun p x => e9.trans (h.plan p x),
   by show q.burnt ≤ a18.nv.rollbackCount; rw [e7]; exact h.burnt,
   fun x => e8.trans (h.retired x)⟩

/-- The device right after a reset. -/
theorem Kept.fresh {q : Keep} {d : Dev} {b : BootState} {sent : List Emission} {n : Nat} (hq : q.pos = none) (hm :
    q.plan = none) (h : Kept q d)
    (e7 : b.nv.rollbackCount = d.boot.nv.rollbackCount) (e8 : b.nv.lifecycle = d.boot.nv.lifecycle) :
    Kept q { boot := b, sent := sent, freeCtr := n } where
  mem _ := rfl
  pins _ := ⟨fun e => by simp at e, fun _ => ⟨rfl, rfl⟩⟩
  pos p x := by simp [hq] at x
  plan p x := by simp [hm] at x
  burnt := by
    show q.burnt ≤ b.nv.rollbackCount
    rw [e7]; exact h.burnt
  retired x := e8.trans (h.retired x)

/-- A repetition over a pair. -/
theorem Kept.foldlSnd {q : Keep} {α β : Type} {g : β × Dev → α → β × Dev} {l : List α} {x : β × Dev}
    (hg : ∀ x a, Kept q x.2 → Kept q (g x a).2) (h : Kept q x.2) : Kept q (l.foldl g x).2 := by
  induction l generalizing x with
  | nil => exact h
  | cons a t ih => exact ih (hg x a h)

/-- A new record with the fuses only more burnt. -/
theorem Kept.mkBoot {q : Keep} {d a1 a2 a3 a4 a5 a6 a7 a8 a9 a10 a11 a12 a13 a14 a15 a16 a17 a18 a19 a20 a21 a22 a23}
    (h : Kept q d) (e1 : a21 = d.mem) (e2 : a16.safeOk = d.felt.safeOk) (e3 : a16.pinA = d.felt.pinA) (e4 : a16.pinB
        = d.felt.pinB)
    (e5 : a16.classV = d.felt.classV)
    (e6 : Dev.pos ⟨a1, a2, a3, a4, a5, a6, a7, a8, a9, a10, a11, a12, a13, a14, a15, a16, a17, a18, a19, a20, a21,
        a22, a23⟩ = d.pos)
    (e9 : Dev.planPos ⟨a1, a2, a3, a4, a5, a6, a7, a8, a9, a10, a11, a12, a13, a14, a15, a16, a17, a18, a19, a20,
        a21, a22, a23⟩ = d.planPos)
    (e7 : d.boot.nv.rollbackCount ≤ a18.nv.rollbackCount) (e8 : d.boot.nv.lifecycle = .retired → a18.nv.lifecycle =
        .retired) :
    Kept q ⟨a1, a2, a3, a4, a5, a6, a7, a8, a9, a10, a11, a12, a13, a14, a15, a16, a17, a18, a19, a20, a21, a22, a23⟩
        :=
  ⟨fun x => by rw [show _ = d.mem from e1]; exact h.mem x,
   fun x => by show pinsOk a16.safeOk a16.pinA a16.pinB a16.classV; rw [e2, e3, e4, e5]; exact h.pins x,
   fun p x => e6.trans (h.pos p x), fun p x => e9.trans (h.plan p x), Nat.le_trans h.burnt e7,
   fun x => e8 (h.retired x)⟩

/-- A header write leaves the rollback fuses. -/
theorem NvState.setHeader_rollbackCount (n : NvState) (s : Slot) (x : SlotHeader) : (n.setHeader s x).rollbackCount =
    n.rollbackCount := by
  cases s <;> rfl

/-- A header write leaves the lifecycle fuses. -/
theorem NvState.setHeader_lifecycle (n : NvState) (s : Slot) (x : SlotHeader) : (n.setHeader s x).lifecycle =
    n.lifecycle := by
  cases s <;> rfl

/-- A new record that stands elsewhere in the plan, where that is not followed. -/
theorem Kept.mkPlan {q : Keep} {d a1 a2 a3 a4 a5 a6 a7 a8 a9 a10 a11 a12 a13 a14 a15 a16 a17 a18 a19 a20 a21 a22 a23}
    (hm : q.plan = none) (h : Kept q d) (e1 : a21 = d.mem) (e2 : a16.safeOk = d.felt.safeOk) (e3 : a16.pinA =
        d.felt.pinA)
    (e4 : a16.pinB = d.felt.pinB) (e5 : a16.classV = d.felt.classV)
    (e6 : Dev.pos ⟨a1, a2, a3, a4, a5, a6, a7, a8, a9, a10, a11, a12, a13, a14, a15, a16, a17, a18, a19, a20, a21,
        a22, a23⟩ = d.pos)
    (e7 : a18.nv.rollbackCount = d.boot.nv.rollbackCount) (e8 : a18.nv.lifecycle = d.boot.nv.lifecycle) :
    Kept q ⟨a1, a2, a3, a4, a5, a6, a7, a8, a9, a10, a11, a12, a13, a14, a15, a16, a17, a18, a19, a20, a21, a22, a23⟩
        :=
  ⟨fun x => by rw [show _ = d.mem from e1]; exact h.mem x,
   fun x => by show pinsOk a16.safeOk a16.pinA a16.pinB a16.classV; rw [e2, e3, e4, e5]; exact h.pins x,
   fun p x => e6.trans (h.pos p x), fun p x => by simp [hm] at x,
   by show q.burnt ≤ a18.nv.rollbackCount; rw [e7]; exact h.burnt,
   fun x => e8.trans (h.retired x)⟩

/-- A new record that stands elsewhere, where that is not followed. -/
theorem Kept.mkBoth {q : Keep} {d a1 a2 a3 a4 a5 a6 a7 a8 a9 a10 a11 a12 a13 a14 a15 a16 a17 a18 a19 a20 a21 a22 a23}
    (hq : q.pos = none) (hm : q.plan = none) (h : Kept q d) (e1 : a21 = d.mem) (e2 : a16.safeOk = d.felt.safeOk) (e3
        : a16.pinA = d.felt.pinA)
    (e4 : a16.pinB = d.felt.pinB) (e5 : a16.classV = d.felt.classV)
    (e7 : a18.nv.rollbackCount = d.boot.nv.rollbackCount) (e8 : a18.nv.lifecycle = d.boot.nv.lifecycle) :
    Kept q ⟨a1, a2, a3, a4, a5, a6, a7, a8, a9, a10, a11, a12, a13, a14, a15, a16, a17, a18, a19, a20, a21, a22, a23⟩
        :=
  ⟨fun x => by rw [show _ = d.mem from e1]; exact h.mem x,
   fun x => by show pinsOk a16.safeOk a16.pinA a16.pinB a16.classV; rw [e2, e3, e4, e5]; exact h.pins x,
   fun p x => by simp [hq] at x, fun p x => by simp [hm] at x,
   by show q.burnt ≤ a18.nv.rollbackCount; rw [e7]; exact h.burnt,
   fun x => e8.trans (h.retired x)⟩

end Sys2Proof.Machine
end

