-- ==== Sys2Proof/Laws/KeptFaults.lean ====
section
/-!
SUPPORT. What the operations of the shared operations, the vehicle links, faults, windows and recovery keep (Sys2Proof/Laws/Kept.lean): one lemma for each.
-/

set_option linter.unusedVariables false

namespace Sys2Proof.Machine

open Sys2Proof

/-! ### Ops -/

theorem emit_kept {q : Keep} (e : Emission) {d : Dev} (h : Kept q d) :
    Kept q (emit e d) := by
  unfold emit
  repeat' (first
    | with_reducible assumption | intro _
    | ((conv => (arg 2; arg 23; skip)); with_reducible refine Kept.mk' ?_ rfl rfl rfl rfl rfl rfl rfl rfl rfl))

theorem emitAll_kept {q : Keep} (es : List Emission) {d : Dev} (h : Kept q d) :
    Kept q (emitAll es d) := by
  unfold emitAll
  repeat' (first
    | with_reducible assumption | intro _
    | ((conv => (arg 2; arg 23; skip)); with_reducible refine Kept.mk' ?_ rfl rfl rfl rfl rfl rfl rfl rfl rfl))

theorem drawFree_kept {q : Keep} {d : Dev} (h : Kept q d) :
    Kept q (drawFree d).2 := by
  unfold drawFree
  repeat' (first
    | with_reducible assumption | intro _
    | ((conv => (arg 2; arg 23; skip)); with_reducible refine Kept.mk' ?_ rfl rfl rfl rfl rfl rfl rfl rfl rfl)
    | split | dsimp -zeta only)

theorem Dev_setPort_kept {q : Keep} (p : Nat) (hh : HostPort) {d : Dev} (h : Kept q d) :
    Kept q (Dev.setPort d p hh) := by
  unfold Dev.setPort
  repeat' (first
    | with_reducible assumption | intro _
    | (extract_lets +onlyGivenNames -underBinder dd; (subst dd))
    | ((conv => (arg 2; arg 23; skip)); with_reducible refine Kept.mk' ?_ rfl rfl rfl rfl rfl rfl rfl rfl rfl))

theorem Dev_modPort_kept {q : Keep} (p : Nat) (f : HostPort → HostPort) {d : Dev} (h : Kept q d) :
    Kept q (Dev.modPort d p f) := by
  unfold Dev.modPort
  repeat' (first
    | with_reducible assumption | intro _ | with_reducible apply Dev_setPort_kept)

theorem setInt_kept {q : Keep} (p : Nat) (n : Nat) {d : Dev} (h : Kept q d) :
    Kept q (setInt p n d) := by
  unfold setInt
  repeat' (first
    | with_reducible assumption | intro _
    | (extract_lets +onlyGivenNames -underBinder dd; (subst dd))
    | with_reducible apply Dev_setPort_kept | with_reducible apply emit_kept | split)

theorem setIntAll_kept {q : Keep} (n : Nat) {d : Dev} (h : Kept q d) :
    Kept q (setIntAll n d) := by
  unfold setIntAll
  repeat' (first
    | with_reducible assumption | intro _ | with_reducible apply setInt_kept)

theorem healthRecord_kept {q : Keep} (e : HealthEvent) {d : Dev} (h : Kept q d) :
    Kept q (healthRecord e d) := by
  unfold healthRecord
  repeat' (first
    | with_reducible assumption | intro _
    | (extract_lets +onlyGivenNames -underBinder dd; (subst dd))
    | ((conv => (arg 2; arg 23; skip)); with_reducible refine Kept.mk' ?_ rfl rfl rfl rfl rfl rfl rfl rfl rfl)
    | with_reducible apply setIntAll_kept)

theorem healthEvent_kept {q : Keep} (e : HealthEvent) {d : Dev} (h : Kept q d) :
    Kept q (healthEvent e d) := by
  unfold healthEvent
  repeat' (first
    | with_reducible assumption | intro _
    | (extract_lets +onlyGivenNames -underBinder dd; first
        | ((have hh : Kept q dd := ?_); on_goal 2 => clear_value dd; on_goal 1 => subst dd)
        | (subst dd))
    | with_reducible apply healthRecord_kept | split)

theorem conditionEvent_kept {q : Keep} (bar : Nat) (value : Nat) {d : Dev} (h : Kept q d) :
    Kept q (conditionEvent bar value d) := by
  unfold conditionEvent
  repeat' (first
    | with_reducible assumption | intro _ | with_reducible apply healthEvent_kept)

theorem satEvent_kept {q : Keep} (bar : Nat) (before : Counter) (after : Counter) {d : Dev} (h : Kept q d) :
    Kept q (satEvent bar before after d) := by
  unfold satEvent
  repeat' (first
    | with_reducible assumption | intro _ | with_reducible apply conditionEvent_kept | split)

theorem logWrite_kept {q : Keep} (source : Nat) (severity : Nat) (what : Nat) (args : List Nat) {d : Dev} (h : Kept q
    d) :
    Kept q (logWrite source severity what args d) := by
  unfold logWrite
  repeat' (first
    | with_reducible assumption | intro _
    | (extract_lets +onlyGivenNames -underBinder dd; (subst dd))
    | ((conv => (arg 2; arg 23; skip)); with_reducible refine Kept.mk' ?_ rfl rfl rfl rfl rfl rfl rfl rfl rfl))

theorem modProc_kept {q : Keep} (p : Nat) (f : FwState → FwState) {d : Dev} (h : Kept q d) :
    Kept q (modProc p f d) := by
  unfold modProc
  repeat' (first
    | with_reducible assumption | intro _
    | (extract_lets +onlyGivenNames -underBinder dd; (subst dd))
    | ((conv => (arg 2; arg 23; skip)); with_reducible refine Kept.mk' ?_ rfl rfl rfl rfl rfl rfl rfl rfl rfl))

theorem fwEvent_kept {q : Keep} (p : Nat) {d : Dev} (h : Kept q d) :
    Kept q (fwEvent p d) := by
  unfold fwEvent
  repeat' (first
    | with_reducible assumption | intro _
    | (extract_lets +onlyGivenNames -underBinder dd; (subst dd))
    | ((conv => (arg 2; arg 23; skip)); with_reducible refine Kept.mk' ?_ rfl rfl rfl rfl rfl rfl rfl rfl rfl)
    | with_reducible apply modProc_kept | with_reducible apply satEvent_kept | split)

theorem Dev_setDie_kept {q : Keep} (x : Nat) (s : DieState) {d : Dev} (h : Kept q d) :
    Kept q (Dev.setDie d x s) := by
  unfold Dev.setDie
  repeat' (first
    | with_reducible assumption | intro _
    | (extract_lets +onlyGivenNames -underBinder dd; (subst dd))
    | ((conv => (arg 2; arg 23; skip)); with_reducible refine Kept.mk' ?_ rfl rfl rfl rfl rfl rfl rfl rfl rfl))

theorem Dev_modDie_kept {q : Keep} (x : Nat) (f : DieState → DieState) {d : Dev} (h : Kept q d) :
    Kept q (Dev.modDie d x f) := by
  unfold Dev.modDie
  repeat' (first
    | with_reducible assumption | intro _ | with_reducible apply Dev_setDie_kept)

theorem Dev_setCluster_kept {q : Keep} (n : Nat) (c : ClusterState) {d : Dev} (h : Kept q d) :
    Kept q (Dev.setCluster d n c) := by
  unfold Dev.setCluster
  repeat' (first
    | with_reducible assumption | intro _
    | (extract_lets +onlyGivenNames -underBinder dd; (subst dd))
    | ((conv => (arg 2; arg 23; skip)); with_reducible refine Kept.mk' ?_ rfl rfl rfl rfl rfl rfl rfl rfl rfl))

theorem Dev_modCluster_kept {q : Keep} (n : Nat) (f : ClusterState → ClusterState) {d : Dev} (h : Kept q d) :
    Kept q (Dev.modCluster d n f) := by
  unfold Dev.modCluster
  repeat' (first
    | with_reducible assumption | intro _ | with_reducible apply Dev_setCluster_kept)

theorem Dev_setThermal_kept {q : Keep} (x : Nat) (t : ThermalState) {d : Dev} (h : Kept q d) :
    Kept q (Dev.setThermal d x t) := by
  unfold Dev.setThermal
  repeat' (first
    | with_reducible assumption | intro _
    | (extract_lets +onlyGivenNames -underBinder dd; (subst dd))
    | ((conv => (arg 2; arg 23; skip)); with_reducible refine Kept.mk' ?_ rfl rfl rfl rfl rfl rfl rfl rfl rfl))

theorem Dev_setSrgUnit_kept {q : Keep} (u : Nat) (x : SrgUnit) {d : Dev} (h : Kept q d) :
    Kept q (Dev.setSrgUnit d u x) := by
  unfold Dev.setSrgUnit
  repeat' (first
    | with_reducible assumption | intro _
    | (extract_lets +onlyGivenNames -underBinder dd; (subst dd))
    | ((conv => (arg 2; arg 23; skip)); with_reducible refine Kept.mk' ?_ rfl rfl rfl rfl rfl rfl rfl rfl rfl))

theorem Dev_setSrgSlot_kept {q : Keep} (g : Nat) (x : SrgSlot) {d : Dev} (h : Kept q d) :
    Kept q (Dev.setSrgSlot d g x) := by
  unfold Dev.setSrgSlot
  repeat' (first
    | with_reducible assumption | intro _
    | (extract_lets +onlyGivenNames -underBinder dd; (subst dd))
    | ((conv => (arg 2; arg 23; skip)); with_reducible refine Kept.mk' ?_ rfl rfl rfl rfl rfl rfl rfl rfl rfl))

theorem Dev_setVport_kept {q : Keep} (p : Nat) (v : VlkPort) {d : Dev} (h : Kept q d) :
    Kept q (Dev.setVport d p v) := by
  unfold Dev.setVport
  repeat' (first
    | with_reducible assumption | intro _
    | ((conv => (arg 2; arg 23; skip)); with_reducible refine Kept.mk' ?_ rfl rfl rfl rfl rfl rfl rfl rfl rfl)
    | split)

theorem Dev_setStream_kept {q : Keep} (n : Nat) (s : StreamState) {d : Dev} (h : Kept q d) :
    Kept q (Dev.setStream d n s) := by
  unfold Dev.setStream
  repeat' (first
    | with_reducible assumption | intro _
    | (extract_lets +onlyGivenNames -underBinder dd; (subst dd))
    | ((conv => (arg 2; arg 23; skip)); with_reducible refine Kept.mk' ?_ rfl rfl rfl rfl rfl rfl rfl rfl rfl))

theorem Dev_setCamera_kept {q : Keep} (c : Nat) (x : CameraState) {d : Dev} (h : Kept q d) :
    Kept q (Dev.setCamera d c x) := by
  unfold Dev.setCamera
  repeat' (first
    | with_reducible assumption | intro _
    | (extract_lets +onlyGivenNames -underBinder dd; (subst dd))
    | ((conv => (arg 2; arg 23; skip)); with_reducible refine Kept.mk' ?_ rfl rfl rfl rfl rfl rfl rfl rfl rfl))

theorem Dev_setLidar_kept {q : Keep} (n : Nat) (x : LidarState) {d : Dev} (h : Kept q d) :
    Kept q (Dev.setLidar d n x) := by
  unfold Dev.setLidar
  repeat' (first
    | with_reducible assumption | intro _
    | (extract_lets +onlyGivenNames -underBinder dd; (subst dd))
    | ((conv => (arg 2; arg 23; skip)); with_reducible refine Kept.mk' ?_ rfl rfl rfl rfl rfl rfl rfl rfl rfl))

theorem Dev_setImu_kept {q : Keep} (n : Nat) (x : ImuState) {d : Dev} (h : Kept q d) :
    Kept q (Dev.setImu d n x) := by
  unfold Dev.setImu
  repeat' (first
    | with_reducible assumption | intro _
    | (extract_lets +onlyGivenNames -underBinder dd; (subst dd))
    | ((conv => (arg 2; arg 23; skip)); with_reducible refine Kept.mk' ?_ rfl rfl rfl rfl rfl rfl rfl rfl rfl))

theorem Dev_setCan_kept {q : Keep} (n : Nat) (x : CanState) {d : Dev} (h : Kept q d) :
    Kept q (Dev.setCan d n x) := by
  unfold Dev.setCan
  repeat' (first
    | with_reducible assumption | intro _
    | (extract_lets +onlyGivenNames -underBinder dd; (subst dd))
    | ((conv => (arg 2; arg 23; skip)); with_reducible refine Kept.mk' ?_ rfl rfl rfl rfl rfl rfl rfl rfl rfl))

/-! ### Vlink -/

theorem countLate_kept {q : Keep} (p : Nat) (m : Message) {d : Dev} (h : Kept q d) :
    Kept q (countLate p m d) := by
  unfold countLate
  repeat' (first
    | with_reducible assumption | intro _
    | (extract_lets +onlyGivenNames -underBinder dd; (subst dd))
    | with_reducible apply conditionEvent_kept | with_reducible apply satEvent_kept
    | with_reducible apply Dev_setVport_kept | split)

theorem startFrame_kept {q : Keep} (p : Nat) {d : Dev} (h : Kept q d) :
    Kept q (startFrame p d) := by
  unfold startFrame
  repeat' (first
    | with_reducible assumption | intro _
    | (extract_lets +onlyGivenNames -underBinder dd; first
        | ((have hh : Kept q dd := ?_); on_goal 2 => clear_value dd; on_goal 1 => subst dd)
        | (subst dd))
    | with_reducible apply countLate_kept | with_reducible apply emit_kept | with_reducible apply Dev_setVport_kept
    | split)

theorem queueOn_kept {q : Keep} (p : Nat) (m : Message) {d : Dev} (h : Kept q d) :
    Kept q (queueOn p m d) := by
  unfold queueOn
  repeat' (first
    | with_reducible assumption | intro _
    | (extract_lets +onlyGivenNames -underBinder dd; (subst dd))
    | with_reducible apply startFrame_kept | with_reducible apply Dev_setVport_kept | split)

theorem release_kept {q : Keep} (m : Message) {d : Dev} (h : Kept q d) :
    Kept q (release m d) := by
  unfold release
  repeat' (first
    | with_reducible assumption | intro _ | with_reducible apply queueOn_kept)

theorem sendStatus_kept {q : Keep} {d : Dev} (h : Kept q d) :
    Kept q (sendStatus d) := by
  unfold sendStatus
  repeat' (first
    | with_reducible assumption | intro _ | with_reducible apply release_kept)

theorem sendNotice_kept {q : Keep} (code : Nat) (cls : FaultClass) (cleared : Bool) (die : Nat) (unit : Nat) (arg :
    Nat) {d : Dev} (h : Kept q d) :
    Kept q (sendNotice code cls cleared die unit arg d) := by
  unfold sendNotice
  repeat' (first
    | with_reducible assumption | intro _
    | (extract_lets +onlyGivenNames -underBinder dd; first
        | ((have hh : Kept q dd := ?_); on_goal 2 => clear_value dd; on_goal 1 => subst dd)
        | (subst dd))
    | ((conv => (arg 2; arg 23; skip)); with_reducible refine Kept.mk' ?_ rfl rfl rfl rfl rfl rfl rfl rfl rfl)
    | with_reducible apply release_kept)

theorem sendSummary_kept {q : Keep} {d : Dev} (h : Kept q d) :
    Kept q (sendSummary d) := by
  unfold sendSummary
  repeat' (first
    | with_reducible assumption | intro _
    | (extract_lets +onlyGivenNames -underBinder dd; first
        | ((have hh : Kept q dd := ?_); on_goal 2 => clear_value dd; on_goal 1 => subst dd)
        | (subst dd))
    | ((conv => (arg 2; arg 23; skip)); with_reducible refine Kept.mk' ?_ rfl rfl rfl rfl rfl rfl rfl rfl rfl)
    | with_reducible apply release_kept)

/-! ### Faults -/

theorem abandonWarm_kept {q : Keep} {d : Dev} (h : Kept q d) :
    Kept q (abandonWarm d) := by
  unfold abandonWarm
  repeat' (first
    | with_reducible assumption | intro _
    | (extract_lets +onlyGivenNames -underBinder dd; (subst dd))
    | ((conv => (arg 2; arg 23; skip)); with_reducible refine Kept.mk' ?_ rfl rfl rfl rfl rfl rfl rfl rfl rfl)
    | with_reducible apply conditionEvent_kept | split)

theorem resetPair_kept {q : Keep} (code : Nat) {d : Dev} (h : Kept q d) :
    Kept q (resetPair code d) := by
  unfold resetPair
  repeat' (first
    | with_reducible assumption | intro _
    | (extract_lets +onlyGivenNames -underBinder dd; (subst dd))
    | ((conv => (arg 2; arg 23; skip)); with_reducible refine Kept.mk' ?_ rfl rfl rfl rfl rfl rfl rfl rfl rfl)
    | split)

theorem raiseV_kept {q : Keep} (code die unit arg : Nat) (latched : Bool) (condUnit : Nat) {d : Dev} (h : Kept q d) :
    Kept q (raiseV code die unit arg latched condUnit d) := by
  unfold raiseV
  refine healthEvent_kept _ (fwEvent_kept _ (resetPair_kept _ (abandonWarm_kept (sendNotice_kept _ _ _ _ _ _
    (satEvent_kept _ _ _ (Kept.mkPins h rfl (fun hp => ?_) rfl rfl rfl rfl))))))
  have a (f : FeltState) : (f.addCond code condUnit latched).safeOk = f.safeOk ∧ (f.addCond code condUnit
      latched).pinA = f.pinA
      ∧ (f.addCond code condUnit latched).pinB = f.pinB := by unfold FeltState.addCond; split <;> simp
  obtain ⟨x, y, z⟩ := a (stopSafeOk d.felt)
  simp only [x, y, z]
  unfold stopSafeOk pinsOk
  by_cases hs : d.felt.safeOk = .running <;> simp [hs]

theorem raiseH_kept {q : Keep} (code : Nat) (die : Nat) (unit : Nat) (arg : Nat) {d : Dev} (h : Kept q d) :
    Kept q (raiseH code die unit arg d) := by
  unfold raiseH
  repeat' (first
    | with_reducible assumption | intro _
    | (extract_lets +onlyGivenNames -underBinder dd; first
        | ((have hh : Kept q dd := ?_); on_goal 2 => clear_value dd; on_goal 1 => subst dd)
        | (subst dd))
    | ((conv => (arg 2; arg 23; skip)); with_reducible refine Kept.mk' ?_ rfl rfl rfl rfl rfl rfl rfl rfl rfl)
    | with_reducible apply satEvent_kept | with_reducible apply sendNotice_kept
    | with_reducible apply healthEvent_kept | with_reducible apply fwEvent_kept | split)

theorem endCondition_kept {q : Keep} (code : Nat) (unit : Nat) {d : Dev} (h : Kept q d) :
    Kept q (endCondition code unit d) := by
  unfold endCondition
  repeat' (first
    | with_reducible assumption | intro _
    | ((conv => (arg 2; arg 23; skip)); with_reducible refine Kept.mk' ?_ rfl rfl rfl rfl rfl rfl rfl rfl rfl))

theorem endConditions_kept {q : Keep} (code : Nat) {d : Dev} (h : Kept q d) :
    Kept q (endConditions code d) := by
  unfold endConditions
  repeat' (first
    | with_reducible assumption | intro _
    | ((conv => (arg 2; arg 23; skip)); with_reducible refine Kept.mk' ?_ rfl rfl rfl rfl rfl rfl rfl rfl rfl))

/-! ### Windows -/

theorem Dev_setWin_kept {q : Keep} (src : Source) (tick : Nat) (w : Nat) (s : WinState) {d : Dev} (h : Kept q d) :
    Kept q (Dev.setWin d src tick w s) := by
  unfold Dev.setWin
  repeat' (first
    | with_reducible assumption | intro _
    | (extract_lets +onlyGivenNames -underBinder dd; (subst dd))
    | ((conv => (arg 2; arg 23; skip)); with_reducible refine Kept.mk' ?_ rfl rfl rfl rfl rfl rfl rfl rfl rfl))

theorem modChb_kept {q : Keep} (x : Nat) (f : ChbUnit → ChbUnit) {d : Dev} (h : Kept q d) :
    Kept q (modChb x f d) := by
  unfold modChb
  repeat' (first
    | with_reducible assumption | intro _
    | (extract_lets +onlyGivenNames -underBinder dd; (subst dd))
    | ((conv => (arg 2; arg 23; skip)); with_reducible refine Kept.mk' ?_ rfl rfl rfl rfl rfl rfl rfl rfl rfl))

theorem closeChambray_kept {q : Keep} (tick : Nat) {d : Dev} (h : Kept q d) :
    Kept q (closeChambray tick d) := by
  unfold closeChambray
  repeat' (first
    | with_reducible assumption | intro _
    | (extract_lets +onlyGivenNames -underBinder dd; (subst dd))
    | with_reducible apply modChb_kept | with_reducible apply Kept.foldl | with_reducible apply Kept.foldlSnd | split)

theorem Dev_setCore_kept {q : Keep} (qq : Nat) (c : CoreState) {d : Dev} (h : Kept q d) :
    Kept q (Dev.setCore d qq c) := by
  unfold Dev.setCore
  repeat' (first
    | with_reducible assumption | intro _
    | (extract_lets +onlyGivenNames -underBinder dd; (subst dd))
    | ((conv => (arg 2; arg 23; skip)); with_reducible refine Kept.mk' ?_ rfl rfl rfl rfl rfl rfl rfl rfl rfl))

theorem stopCore_kept {q : Keep} (qq : Nat) {d : Dev} (h : Kept q d) :
    Kept q (stopCore d qq) := by
  unfold stopCore
  repeat' (first
    | with_reducible assumption | intro _
    | (extract_lets +onlyGivenNames -underBinder dd; (subst dd))
    | with_reducible apply Dev_setCore_kept)

theorem dropTransfers_kept {q : Keep} (key : Nat) (cl : Nat) {d : Dev} (h : Kept q d) :
    Kept q (dropTransfers key d cl) := by
  unfold dropTransfers
  repeat' (first
    | with_reducible assumption | intro _ | with_reducible apply Dev_modCluster_kept)

theorem noteFlags_kept {q : Keep} (tick : Nat) (qq : Nat) {d : Dev} (h : Kept q d) :
    Kept q (noteFlags tick d qq) := by
  unfold noteFlags
  repeat' (first
    | with_reducible assumption | intro _
    | (extract_lets +onlyGivenNames -underBinder dd; (subst dd))
    | with_reducible apply Dev_modCluster_kept)

theorem closeFlags_kept {q : Keep} (src : Source) (tick : Nat) (cl : Nat) {d : Dev} (h : Kept q d) :
    Kept q (closeFlags src tick d cl) := by
  unfold closeFlags
  repeat' (first
    | with_reducible assumption | intro _ | with_reducible apply Dev_modCluster_kept | split)

theorem closeGroupFlags_kept {q : Keep} (src : Source) (tick : Nat) (w : Nat) {d : Dev} (h : Kept q d) :
    Kept q (closeGroupFlags src tick w d) := by
  unfold closeGroupFlags
  repeat' (first
    | with_reducible assumption | intro _ | with_reducible apply closeFlags_kept | with_reducible apply Kept.foldl
    | with_reducible apply Kept.foldlSnd | split)

theorem stopWindow_kept {q : Keep} (src : Source) (tick : Nat) (w : Nat) {d : Dev} (h : Kept q d) :
    Kept q (stopWindow src tick w d) := by
  unfold stopWindow
  repeat' (first
    | with_reducible assumption | intro _
    | (extract_lets +onlyGivenNames -underBinder dd; first
        | ((have hh : Kept q dd := ?_); on_goal 2 => clear_value dd; on_goal 1 => subst dd)
        | (subst dd))
    | with_reducible apply stopCore_kept | with_reducible apply noteFlags_kept
    | with_reducible apply dropTransfers_kept | with_reducible apply Dev_setWin_kept
    | with_reducible apply Kept.foldl | with_reducible apply Kept.foldlSnd | split)

theorem noteMissing_kept {q : Keep} (src : Source) (tick : Nat) {d : Dev} (h : Kept q d) :
    Kept q (noteMissing src tick d) := by
  unfold noteMissing
  repeat' (first
    | with_reducible assumption | intro _
    | (extract_lets +onlyGivenNames -underBinder dd; (subst dd))
    | ((conv => (arg 2; arg 23; skip)); with_reducible refine Kept.mk' ?_ rfl rfl rfl rfl rfl rfl rfl rfl rfl))

theorem forceTally_kept {q : Keep} (tally : Nat) (cl : Nat) {d : Dev} (h : Kept q d) :
    Kept q (forceTally tally d cl) := by
  unfold forceTally
  repeat' (first
    | with_reducible assumption | intro _ | with_reducible apply Dev_modCluster_kept)

theorem zeroEdge_kept {q : Keep} (src : Source) (tick : Nat) (e : EdgeRec) {d : Dev} (h : Kept q d) :
    Kept q (zeroEdge src tick e d) := by
  unfold zeroEdge
  repeat' (first
    | with_reducible assumption | intro _
    | (extract_lets +onlyGivenNames -underBinder dd; first
        | ((have hh : Kept q dd := ?_); on_goal 2 => clear_value dd; on_goal 1 => subst dd)
        | (subst dd))
    | with_reducible apply Dev_setWin_kept | with_reducible apply forceTally_kept | with_reducible apply Kept.foldl
    | with_reducible apply Kept.foldlSnd | split)

theorem setMissing_kept {q : Keep} (cause : MissCause) (src : Source) (tick : Nat) (w : Nat) {d : Dev} (h : Kept q d)
    :
    Kept q (setMissing cause src tick w d) := by
  unfold setMissing
  repeat' (first
    | with_reducible assumption | intro _
    | (extract_lets +onlyGivenNames -underBinder dd; first
        | ((have hh : Kept q dd := ?_); on_goal 2 => clear_value dd; on_goal 1 => subst dd)
        | (subst dd))
    | ((conv => (arg 2; arg 23; skip)); with_reducible refine Kept.mk' ?_ rfl rfl rfl rfl rfl rfl rfl rfl rfl)
    | with_reducible apply stopWindow_kept | with_reducible apply Dev_setWin_kept
    | with_reducible apply satEvent_kept | with_reducible apply closeGroupFlags_kept
    | with_reducible apply closeChambray_kept | with_reducible apply noteMissing_kept
    | with_reducible apply raiseH_kept | split)

theorem markMissing_kept {q : Keep} (fuel : Nat) (cause : MissCause) (src : Source) (tick w : Nat) {d : Dev}
    (h : Kept q d) : Kept q (markMissing fuel cause src tick w d) := by
  induction fuel generalizing cause tick w d with
  | zero => exact h
  | succ n ih =>
    unfold markMissing
    repeat' (first
      | with_reducible assumption | intro _ | with_reducible apply ih | with_reducible apply setMissing_kept
      | with_reducible apply zeroEdge_kept | with_reducible apply Kept.foldl | split | extract_lets)

theorem miss_kept {q : Keep} (cause : MissCause) (src : Source) (tick : Nat) (w : Nat) {d : Dev} (h : Kept q d) :
    Kept q (miss cause src tick w d) := by
  unfold miss
  repeat' (first
    | with_reducible assumption | intro _ | with_reducible apply markMissing_kept)

theorem faultMiss_kept {q : Keep} (cause : MissCause) (src : Source) (tick : Nat) (w : Nat) {d : Dev} (h : Kept q d) :
    Kept q (faultMiss cause src tick w d) := by
  unfold faultMiss
  repeat' (first
    | with_reducible assumption | intro _
    | (extract_lets +onlyGivenNames -underBinder dd; first
        | ((have hh : Kept q dd := ?_); on_goal 2 => clear_value dd; on_goal 1 => subst dd)
        | (subst dd))
    | with_reducible apply miss_kept | with_reducible apply raiseH_kept | split)

theorem missWhere_kept {q : Keep} (cause : MissCause) (tick : Nat) (p : Nat → WindowRec → Bool) {d : Dev} (h : Kept q
    d) :
    Kept q (missWhere cause tick p d) := by
  unfold missWhere
  repeat' (first
    | with_reducible assumption | intro _ | with_reducible apply miss_kept | with_reducible apply Kept.foldl
    | with_reducible apply Kept.foldlSnd | split)

/-! ### Recovery -/

theorem startSwitch_kept {q : Keep} (target : Nat) (reason : ModeReason) {d : Dev} (h : Kept q d) :
    Kept q (startSwitch target reason d) := by
  unfold startSwitch
  repeat' (first
    | with_reducible assumption | intro _
    | (extract_lets +onlyGivenNames -underBinder dd; (subst dd))
    | ((conv => (arg 2; arg 23; skip)); with_reducible refine Kept.mk' ?_ rfl rfl rfl rfl rfl rfl rfl rfl rfl))

theorem countModeRefuse_kept {q : Keep} {d : Dev} (h : Kept q d) :
    Kept q (countModeRefuse d) := by
  unfold countModeRefuse
  repeat' (first
    | with_reducible assumption | intro _
    | (extract_lets +onlyGivenNames -underBinder dd; (subst dd))
    | ((conv => (arg 2; arg 23; skip)); with_reducible refine Kept.mk' ?_ rfl rfl rfl rfl rfl rfl rfl rfl rfl)
    | with_reducible apply satEvent_kept)

theorem cancelSwitch_kept {q : Keep} (status : BitVec 8) {d : Dev} (h : Kept q d) :
    Kept q (cancelSwitch status d) := by
  unfold cancelSwitch
  repeat' (first
    | with_reducible assumption | intro _
    | (extract_lets +onlyGivenNames -underBinder dd; first
        | ((have hh : Kept q dd := ?_); on_goal 2 => clear_value dd; on_goal 1 => subst dd)
        | (subst dd))
    | ((conv => (arg 2; arg 23; skip)); with_reducible refine Kept.mk' ?_ rfl rfl rfl rfl rfl rfl rfl rfl rfl)
    | with_reducible apply countModeRefuse_kept | split)

theorem searchFrom_kept {q : Keep} (j : Nat) {d : Dev} (h : Kept q d) :
    Kept q (searchFrom j d) := by
  unfold searchFrom
  repeat' (first
    | with_reducible assumption | intro _
    | (extract_lets +onlyGivenNames -underBinder dd; (subst dd))
    | ((conv => (arg 2; arg 23; skip)); with_reducible refine Kept.mk' ?_ rfl rfl rfl rfl rfl rfl rfl rfl rfl)
    | with_reducible apply startSwitch_kept | split)

theorem refreshModes_kept {q : Keep} {d : Dev} (h : Kept q d) :
    Kept q (refreshModes d) := by
  unfold refreshModes
  repeat' (first
    | with_reducible assumption | intro _
    | (extract_lets +onlyGivenNames -underBinder dd; first
        | ((have hh : Kept q dd := ?_); on_goal 2 => clear_value dd; on_goal 1 => subst dd)
        | (subst dd))
    | ((conv => (arg 2; arg 23; skip)); with_reducible refine Kept.mk' ?_ rfl rfl rfl rfl rfl rfl rfl rfl rfl)
    | with_reducible apply cancelSwitch_kept | with_reducible apply searchFrom_kept | split)

theorem setClusters_kept {q : Keep} (r : CluRun) (cl : Nat) {d : Dev} (h : Kept q d) :
    Kept q (setClusters r d cl) := by
  unfold setClusters
  repeat' (first
    | with_reducible assumption | intro _ | with_reducible apply Dev_modCluster_kept)

theorem setUnitState_kept {q : Keep} (x : Nat) (r : UnitRun) {d : Dev} (h : Kept q d) :
    Kept q (setUnitState x r d) := by
  unfold setUnitState
  repeat' (first
    | with_reducible assumption | intro _
    | (extract_lets +onlyGivenNames -underBinder dd; (subst dd))
    | ((conv => (arg 2; arg 23; skip)); with_reducible refine Kept.mk' ?_ rfl rfl rfl rfl rfl rfl rfl rfl rfl))

theorem clearCores_kept {q : Keep} (cl : Nat) {d : Dev} (h : Kept q d) :
    Kept q (clearCores d cl) := by
  unfold clearCores
  repeat' (first
    | with_reducible assumption | intro _ | with_reducible apply Dev_setCore_kept | with_reducible apply Kept.foldl)

theorem clearCluster_kept {q : Keep} (cl : Nat) {d : Dev} (h : Kept q d) :
    Kept q (clearCluster d cl) := by
  unfold clearCluster
  repeat' (first
    | with_reducible assumption | intro _ | with_reducible apply Dev_modCluster_kept)

theorem zeroRange_kept {q : Keep} (lo hi : Nat) {d : Dev} (h : Kept q d) : Kept q (zeroRange lo hi d) :=
  Kept.mkMem h (fun hm => bwf_filter hm) rfl rfl rfl rfl rfl rfl rfl rfl

theorem resetCluster_kept {q : Keep} (cl : Nat) {d : Dev} (h : Kept q d) :
    Kept q (resetCluster d cl) := by
  unfold resetCluster
  repeat' (first
    | with_reducible assumption | intro _ | with_reducible apply setClusters_kept
    | with_reducible apply zeroRange_kept | with_reducible apply clearCluster_kept
    | with_reducible apply clearCores_kept)

theorem clearGroupRuns_kept {q : Keep} (i : Nat) {d : Dev} (h : Kept q d) :
    Kept q (clearGroupRuns i d) := by
  unfold clearGroupRuns
  repeat' (first
    | with_reducible assumption | intro _
    | (extract_lets +onlyGivenNames -underBinder dd; (subst dd))
    | ((conv => (arg 2; arg 23; skip)); with_reducible refine Kept.mk' ?_ rfl rfl rfl rfl rfl rfl rfl rfl rfl))

theorem emptyMemorySide_kept {q : Keep} (x : Nat) {d : Dev} (h : Kept q d) :
    Kept q (emptyMemorySide x d) := by
  unfold emptyMemorySide
  repeat' (first
    | with_reducible assumption | intro _
    | (extract_lets +onlyGivenNames -underBinder dd; first
        | ((have hh : Kept q dd := ?_); on_goal 2 => clear_value dd; on_goal 1 => subst dd)
        | (subst dd))
    | ((conv => (arg 2; arg 23; skip)); with_reducible refine Kept.mk' ?_ rfl rfl rfl rfl rfl rfl rfl rfl rfl)
    | with_reducible apply zeroRange_kept | split)

theorem declareFailed_kept {q : Keep} (x : Nat) (i : Nat) {d : Dev} (h : Kept q d) :
    Kept q (declareFailed x i d) := by
  unfold declareFailed
  repeat' (first
    | with_reducible assumption | intro _
    | (extract_lets +onlyGivenNames -underBinder dd; first
        | ((have hh : Kept q dd := ?_); on_goal 2 => clear_value dd; on_goal 1 => subst dd)
        | (subst dd))
    | ((conv => (arg 2; arg 23; skip)); with_reducible refine Kept.mk' ?_ rfl rfl rfl rfl rfl rfl rfl rfl rfl)
    | with_reducible apply Dev_modDie_kept | with_reducible apply setClusters_kept
    | with_reducible apply refreshModes_kept | with_reducible apply conditionEvent_kept
    | with_reducible apply raiseH_kept | with_reducible apply Kept.foldl | with_reducible apply Kept.foldlSnd | split)

theorem resetPartition_kept {q : Keep} (p : PartRec) {d : Dev} (h : Kept q d) :
    Kept q (resetPartition p d) := by
  unfold resetPartition
  repeat' (first
    | with_reducible assumption | intro _
    | (extract_lets +onlyGivenNames -underBinder dd; first
        | ((have hh : Kept q dd := ?_); on_goal 2 => clear_value dd; on_goal 1 => subst dd)
        | (subst dd))
    | with_reducible apply resetCluster_kept | with_reducible apply setUnitState_kept
    | with_reducible apply emptyMemorySide_kept | with_reducible apply Kept.foldl
    | with_reducible apply Kept.foldlSnd | split)

theorem missPartition_kept {q : Keep} (p : PartRec) {d : Dev} (h : Kept q d) :
    Kept q (missPartition p d) := by
  unfold missPartition
  repeat' (first
    | with_reducible assumption | intro _ | with_reducible apply missWhere_kept | with_reducible apply Kept.foldl)

theorem beginPartition_kept {q : Keep} (x : Nat) (i : Nat) (cause : Nat) (p : PartRec) (notice : Bool) {d : Dev} (h :
    Kept q d) :
    Kept q (beginPartition x i cause p notice d) := by
  unfold beginPartition
  repeat' (first
    | with_reducible assumption | intro _
    | (extract_lets +onlyGivenNames -underBinder dd; first
        | ((have hh : Kept q dd := ?_); on_goal 2 => clear_value dd; on_goal 1 => subst dd)
        | (subst dd))
    | with_reducible apply Dev_setDie_kept | with_reducible apply satEvent_kept | with_reducible apply raiseH_kept
    | with_reducible apply resetPartition_kept | with_reducible apply missPartition_kept
    | with_reducible apply fwEvent_kept | with_reducible apply clearGroupRuns_kept
    | with_reducible apply declareFailed_kept | split)

theorem restartPartition_kept {q : Keep} (x : Nat) (i : Nat) (cause : Nat) (notice : Bool) {d : Dev} (h : Kept q d) :
    Kept q (restartPartition x i cause notice d) := by
  unfold restartPartition
  repeat' (first
    | with_reducible assumption | intro _
    | (extract_lets +onlyGivenNames -underBinder dd; (subst dd))
    | with_reducible apply resetPartition_kept | with_reducible apply Dev_setDie_kept
    | with_reducible apply beginPartition_kept | split)

theorem restartDie_kept {q : Keep} (x : Nat) (cause : Nat) {d : Dev} (h : Kept q d) :
    Kept q (restartDie x cause d) := by
  unfold restartDie
  repeat' (first
    | with_reducible assumption | intro _
    | (extract_lets +onlyGivenNames -underBinder dd; first
        | ((have hh : Kept q dd := ?_); on_goal 2 => clear_value dd; on_goal 1 => subst dd)
        | (subst dd))
    | with_reducible apply Dev_setDie_kept | with_reducible apply satEvent_kept | with_reducible apply modProc_kept
    | with_reducible apply raiseH_kept | with_reducible apply missWhere_kept | with_reducible apply resetCluster_kept
    | with_reducible apply setUnitState_kept | with_reducible apply emptyMemorySide_kept
    | with_reducible apply declareFailed_kept | with_reducible apply Kept.foldl | with_reducible apply Kept.foldlSnd
    | split)

end Sys2Proof.Machine
end

