-- ==== Sys2Proof/Laws/KeptTime.lean ====
section
/-!
SUPPORT. What the operations of time, the clock and calibration keep (Sys2Proof/Laws/Kept.lean): one lemma for each.
-/

set_option linter.unusedVariables false

namespace Sys2Proof.Machine

open Sys2Proof

/-! ### Time -/

theorem Dev_setTime_kept {q : Keep} (t : TimeState) {d : Dev} (e : Dev.pos { d with time := t } = d.pos)
    (e' : Dev.planPos { d with time := t } = d.planPos) (h : Kept q d) :
    Kept q (Dev.setTime d t) := Kept.mk' h rfl rfl rfl rfl rfl e e' rfl rfl
theorem Dev_setTime_good_tick {q : Keep} (t : TimeState) {d : Dev} (hq : q.pos = none)
    (e' : Dev.planPos { d with time := t } = d.planPos) (h : Kept q d) :
    Kept q (Dev.setTime d t) := Kept.mkPos hq h rfl rfl rfl rfl rfl e' rfl rfl
theorem Dev_setTime_good_plan {q : Keep} (t : TimeState) {d : Dev} (hm : q.plan = none)
    (e : Dev.pos { d with time := t } = d.pos) (h : Kept q d) :
    Kept q (Dev.setTime d t) := Kept.mkPlan hm h rfl rfl rfl rfl rfl e rfl rfl
theorem Dev_setTime_good_both {q : Keep} (t : TimeState) {d : Dev} (hq : q.pos = none) (hm : q.plan = none) (h : Kept
    q d) :
    Kept q (Dev.setTime d t) := Kept.mkBoth hq hm h rfl rfl rfl rfl rfl rfl rfl

theorem Dev_setServo_kept {q : Keep} (v : ServoState) {d : Dev} (h : Kept q d) :
    Kept q (Dev.setServo d v) := by
  unfold Dev.setServo
  repeat' (first
    | with_reducible assumption | intro _
    | (extract_lets +onlyGivenNames -underBinder dd; (subst dd))
    | ((conv => (arg 2; arg 23; skip)); with_reducible refine Kept.mk' ?_ rfl rfl rfl rfl rfl rfl rfl rfl rfl))

theorem countSyncLoss_kept {q : Keep} {d : Dev} (h : Kept q d) :
    Kept q (countSyncLoss d) := by
  unfold countSyncLoss
  repeat' (first
    | with_reducible assumption | intro _
    | (extract_lets +onlyGivenNames -underBinder dd; (subst dd))
    | ((conv => (arg 2; arg 23; skip)); with_reducible refine Kept.mk' ?_ rfl rfl rfl rfl rfl rfl rfl rfl rfl)
    | with_reducible apply satEvent_kept)

theorem noteHoldover_kept {q : Keep} {d : Dev} (h : Kept q d) :
    Kept q (noteHoldover d) := by
  unfold noteHoldover
  repeat' (first
    | with_reducible assumption | intro _
    | (extract_lets +onlyGivenNames -underBinder dd; (subst dd))
    | ((conv => (arg 2; arg 23; skip)); with_reducible refine Kept.mk' ?_ rfl rfl rfl rfl rfl rfl rfl rfl rfl))

theorem loseVehicleTime_kept {q : Keep} {d : Dev} (h : Kept q d) :
    Kept q (loseVehicleTime d) := by
  unfold loseVehicleTime
  repeat' (first
    | with_reducible assumption | intro _
    | (extract_lets +onlyGivenNames -underBinder dd; first
        | ((have hh : Kept q dd := ?_); on_goal 2 => clear_value dd; on_goal 1 => subst dd)
        | (subst dd))
    | with_reducible apply Dev_setServo_kept | with_reducible apply countSyncLoss_kept
    | with_reducible apply noteHoldover_kept | with_reducible apply conditionEvent_kept | split)

theorem vehicleStep_kept {q : Keep} {d : Dev} (h : Kept q d) :
    Kept q (vehicleStep d) := by
  unfold vehicleStep
  repeat' (first
    | with_reducible assumption | intro _
    | (extract_lets +onlyGivenNames -underBinder dd; (subst dd))
    | ((conv => (arg 2; arg 23; skip)); with_reducible refine Kept.mk' ?_ rfl rfl rfl rfl rfl rfl rfl rfl rfl)
    | with_reducible apply satEvent_kept | with_reducible apply noteHoldover_kept)

theorem captureOffset_kept {q : Keep} {d : Dev} (h : Kept q d) :
    Kept q (captureOffset d) := by
  unfold captureOffset
  repeat' (first
    | with_reducible assumption | intro _
    | (extract_lets +onlyGivenNames -underBinder dd; (subst dd))
    | with_reducible apply Dev_setServo_kept | split)

theorem acceptSample_kept {q : Keep} (stamp : Nanos) (offset : Int) (e : Int) {d : Dev} (h : Kept q d) :
    Kept q (acceptSample stamp offset e d) := by
  unfold acceptSample
  repeat' (first
    | with_reducible assumption | intro _
    | (extract_lets +onlyGivenNames -underBinder dd; (subst dd))
    | with_reducible apply Dev_setServo_kept)

theorem syncFollowUpReceived_kept {q : Keep} (pair : SyncPair) {d : Dev} (h : Kept q d) :
    Kept q (syncFollowUpReceived pair d) := by
  unfold syncFollowUpReceived
  repeat' (first
    | with_reducible assumption | intro _
    | (extract_lets +onlyGivenNames -underBinder dd; first
        | ((have hh : Kept q dd := ?_); on_goal 2 => clear_value dd; on_goal 1 => subst dd)
        | (subst dd))
    | with_reducible apply Dev_setServo_kept | with_reducible apply vehicleStep_kept
    | with_reducible apply acceptSample_kept | split)

theorem announceReceived_kept {q : Keep} (grandmaster : Nat) {d : Dev} (h : Kept q d) :
    Kept q (announceReceived grandmaster d) := by
  unfold announceReceived
  repeat' (first
    | with_reducible assumption | intro _
    | (extract_lets +onlyGivenNames -underBinder dd; first
        | ((have hh : Kept q dd := ?_); on_goal 2 => clear_value dd; on_goal 1 => subst dd)
        | (subst dd))
    | with_reducible apply Dev_setServo_kept | with_reducible apply vehicleStep_kept | split)

theorem vehicleTimeLoss_kept {q : Keep} {d : Dev} (h : Kept q d) :
    Kept q (vehicleTimeLoss d) := by
  unfold vehicleTimeLoss
  repeat' (first
    | with_reducible assumption | intro _
    | (extract_lets +onlyGivenNames -underBinder dd; (subst dd))
    | with_reducible apply loseVehicleTime_kept | split)

theorem servoSaturationSecond_kept {q : Keep} {d : Dev} (h : Kept q d) :
    Kept q (servoSaturationSecond d) := by
  unfold servoSaturationSecond
  repeat' (first
    | with_reducible assumption | intro _
    | (extract_lets +onlyGivenNames -underBinder dd; (subst dd))
    | with_reducible apply countSyncLoss_kept | with_reducible apply Dev_setServo_kept | split)

theorem stepFrequency_kept {q : Keep} {d : Dev} (h : Kept q d) :
    Kept q (stepFrequency d) := by
  unfold stepFrequency
  repeat' (first
    | with_reducible assumption | intro _
    | (extract_lets +onlyGivenNames -underBinder dd; first
        | ((have hh : Kept q dd := ?_); on_goal 2 => clear_value dd; on_goal 1 => subst dd)
        | (subst dd))
    | ((conv => (arg 2; arg 23; skip)); with_reducible refine Kept.mk' ?_ rfl rfl rfl rfl rfl rfl rfl rfl rfl)
    | with_reducible apply Dev_modDie_kept | with_reducible apply Kept.foldl)

theorem Dev_setGptp_kept {q : Keep} (p : GptpPort) (g : GptpState) {d : Dev} (h : Kept q d) :
    Kept q (Dev.setGptp d p g) := by
  unfold Dev.setGptp
  repeat' (first
    | with_reducible assumption | intro _
    | (extract_lets +onlyGivenNames -underBinder dd; (subst dd))
    | ((conv => (arg 2; arg 23; skip)); with_reducible refine Kept.mk' ?_ rfl rfl rfl rfl rfl rfl rfl rfl rfl)
    | with_reducible apply Dev_setLidar_kept | split)

theorem pdelayReqTimer_kept {q : Keep} (p : GptpPort) {d : Dev} (h : Kept q d) :
    Kept q (pdelayReqTimer p d) := by
  unfold pdelayReqTimer
  repeat' (first
    | with_reducible assumption | intro _
    | (extract_lets +onlyGivenNames -underBinder dd; (subst dd))
    | with_reducible apply emit_kept | with_reducible apply Dev_setGptp_kept | split)

theorem pdelayReqReceived_kept {q : Keep} (p : GptpPort) {d : Dev} (h : Kept q d) :
    Kept q (pdelayReqReceived p d) := by
  unfold pdelayReqReceived
  repeat' (first
    | with_reducible assumption | intro _ | with_reducible apply emit_kept | split)

theorem pdelayRespReceived_kept {q : Keep} (p : GptpPort) (linkDelay : Nat) (asCapable : Bool) {d : Dev} (h : Kept q
    d) :
    Kept q (pdelayRespReceived p linkDelay asCapable d) := by
  unfold pdelayRespReceived
  repeat' (first
    | with_reducible assumption | intro _
    | (extract_lets +onlyGivenNames -underBinder dd; first
        | ((have hh : Kept q dd := ?_); on_goal 2 => clear_value dd; on_goal 1 => subst dd)
        | (subst dd))
    | with_reducible apply Dev_setGptp_kept | with_reducible apply loseVehicleTime_kept | split)

theorem v1GptpFrame_kept {q : Keep} {d : Dev} (h : Kept q d) :
    Kept q (v1GptpFrame d) := by
  unfold v1GptpFrame
  repeat' (first
    | with_reducible assumption | intro _
    | (extract_lets +onlyGivenNames -underBinder dd; (subst dd))
    | ((conv => (arg 2; arg 23; skip)); with_reducible refine Kept.mk' ?_ rfl rfl rfl rfl rfl rfl rfl rfl rfl)
    | with_reducible apply satEvent_kept | split)

theorem lidarSyncSend_kept {q : Keep} (n : Fin 8) {d : Dev} (h : Kept q d) :
    Kept q (lidarSyncSend n d) := by
  unfold lidarSyncSend
  repeat' (first
    | with_reducible assumption | intro _
    | (extract_lets +onlyGivenNames -underBinder dd; (subst dd))
    | with_reducible apply emit_kept | with_reducible apply Dev_setGptp_kept | split)

theorem lidarAnnounceSend_kept {q : Keep} (n : Fin 8) {d : Dev} (h : Kept q d) :
    Kept q (lidarAnnounceSend n d) := by
  unfold lidarAnnounceSend
  repeat' (first
    | with_reducible assumption | intro _
    | (extract_lets +onlyGivenNames -underBinder dd; (subst dd))
    | with_reducible apply emit_kept | with_reducible apply Dev_setGptp_kept | split)

theorem lidarGptpReceived_kept {q : Keep} (n : Fin 8) (x0 : GptpKind) {d : Dev} (h : Kept q d) :
    Kept q (lidarGptpReceived n x0 d) := by
  unfold lidarGptpReceived
  repeat' (first
    | with_reducible assumption | intro _
    | (extract_lets +onlyGivenNames -underBinder dd; (subst dd))
    | with_reducible apply satEvent_kept | with_reducible apply Dev_setGptp_kept | split)

theorem countSkew_kept {q : Keep} {d : Dev} (h : Kept q d) :
    Kept q (countSkew d) := by
  unfold countSkew
  repeat' (first
    | with_reducible assumption | intro _
    | (extract_lets +onlyGivenNames -underBinder dd; (subst dd))
    | ((conv => (arg 2; arg 23; skip)); with_reducible refine Kept.mk' ?_ rfl rfl rfl rfl rfl rfl rfl rfl rfl)
    | with_reducible apply satEvent_kept)

theorem discardEnded_kept {q : Keep} (x : Nat) (tick : Nat) {d : Dev} (h : Kept q d) :
    Kept q (discardEnded x tick d) := by
  unfold discardEnded
  repeat' (first
    | with_reducible assumption | intro _
    | (extract_lets +onlyGivenNames -underBinder dd; (subst dd))
    | with_reducible apply Dev_setWin_kept | with_reducible apply Kept.foldl | with_reducible apply Kept.foldlSnd
    | split)

theorem tickBroadcastArrival_kept {q : Keep} (die : Fin 6) {d : Dev} (h : Kept q d) :
    Kept q (tickBroadcastArrival die d) := by
  unfold tickBroadcastArrival
  repeat' (first
    | with_reducible assumption | intro _
    | (extract_lets +onlyGivenNames -underBinder dd; first
        | ((have hh : Kept q dd := ?_); on_goal 2 => clear_value dd; on_goal 1 => subst dd)
        | (subst dd))
    | with_reducible apply Dev_setDie_kept | with_reducible apply discardEnded_kept
    | with_reducible apply countSkew_kept | with_reducible apply restartDie_kept | split)

theorem ppsMissingTimeout_kept {q : Keep} {d : Dev} (h : Kept q d) :
    Kept q (ppsMissingTimeout d) := by
  unfold ppsMissingTimeout
  repeat' (first
    | with_reducible assumption | intro _
    | (extract_lets +onlyGivenNames -underBinder dd; (subst dd))
    | ((conv => (arg 2; arg 23; skip)); with_reducible refine Kept.mk' ?_ rfl rfl rfl rfl rfl rfl rfl rfl rfl)
    | split)

theorem tsqDevtimeLoRead_kept {q : Keep} {d : Dev} (h : Kept q d) :
    Kept q (tsqDevtimeLoRead d) := by
  unfold tsqDevtimeLoRead
  repeat' (first
    | with_reducible assumption | intro _
    | (extract_lets +onlyGivenNames -underBinder dd; (subst dd))
    | ((conv => (arg 2; arg 23; skip)); with_reducible refine Kept.mk' ?_ rfl rfl rfl rfl rfl rfl rfl rfl rfl)
    | split)

theorem tsqPpsStampLoRead_kept {q : Keep} {d : Dev} (h : Kept q d) :
    Kept q (tsqPpsStampLoRead d) := by
  unfold tsqPpsStampLoRead
  repeat' (first
    | with_reducible assumption | intro _
    | (extract_lets +onlyGivenNames -underBinder dd; (subst dd))
    | ((conv => (arg 2; arg 23; skip)); with_reducible refine Kept.mk' ?_ rfl rfl rfl rfl rfl rfl rfl rfl rfl)
    | split)

/-! ### Clock -/

theorem dieCycle_kept {q : Keep} (x : Nat) {d : Dev} (h : Kept q d) :
    Kept q (dieCycle d x) := by
  unfold dieCycle
  repeat' (first
    | with_reducible assumption | intro _
    | (extract_lets +onlyGivenNames -underBinder dd; (subst dd))
    | with_reducible apply Dev_setDie_kept | split)

theorem operCycle_kept {q : Keep} {d : Dev} (h : Kept q d) :
    Kept q (operCycle d) := by
  unfold operCycle
  repeat' (first
    | with_reducible assumption | intro _
    | (extract_lets +onlyGivenNames -underBinder dd; (subst dd))
    | ((conv => (arg 2; arg 23; skip)); with_reducible refine Kept.mk' ?_ rfl rfl rfl rfl rfl rfl rfl rfl rfl)
    | split)

theorem clockCycle_kept {q : Keep} {d : Dev} (hq : q.pos = none) (h : Kept q d) :
    Kept q (clockCycle d) := by
  unfold clockCycle
  repeat' (first
    | with_reducible assumption | intro _
    | (extract_lets +onlyGivenNames -underBinder dd; (subst dd))
    | ((conv => (arg 2; arg 23; skip)); with_reducible refine Kept.mkPos hq ?_ rfl rfl rfl rfl rfl rfl rfl rfl)
    | with_reducible apply operCycle_kept | with_reducible apply dieCycle_kept | with_reducible apply Kept.foldl
    | with_reducible apply Kept.foldlSnd | split)

/-! ### Calib -/

theorem srgCalGenRead_kept {q : Keep} {d : Dev} (h : Kept q d) :
    Kept q (srgCalGenRead d) := by
  unfold srgCalGenRead
  repeat' (first
    | with_reducible assumption | intro _
    | (extract_lets +onlyGivenNames -underBinder dd; (subst dd))
    | ((conv => (arg 2; arg 23; skip)); with_reducible refine Kept.mk' ?_ rfl rfl rfl rfl rfl rfl rfl rfl rfl))

theorem holdCalib_kept {q : Keep} {d : Dev} (h : Kept q d) :
    Kept q (holdCalib d) := by
  unfold holdCalib
  repeat' (first
    | with_reducible assumption | intro _
    | (extract_lets +onlyGivenNames -underBinder dd; (subst dd))
    | ((conv => (arg 2; arg 23; skip)); with_reducible refine Kept.mk' ?_ rfl rfl rfl rfl rfl rfl rfl rfl rfl))

theorem rejectCal_kept {q : Keep} (streams : List Nat) (code : Nat) {d : Dev} (h : Kept q d) :
    Kept q (rejectCal streams code d) := by
  unfold rejectCal
  repeat' (first
    | with_reducible assumption | intro _
    | (extract_lets +onlyGivenNames -underBinder dd; first
        | ((have hh : Kept q dd := ?_); on_goal 2 => clear_value dd; on_goal 1 => subst dd)
        | (subst dd))
    | ((conv => (arg 2; arg 23; skip)); with_reducible refine Kept.mk' ?_ rfl rfl rfl rfl rfl rfl rfl rfl rfl)
    | with_reducible apply satEvent_kept | with_reducible apply holdCalib_kept)

theorem holdDrift_kept {q : Keep} (stream : Nat) {d : Dev} (h : Kept q d) :
    Kept q (holdDrift d stream) := by
  unfold holdDrift
  repeat' (first
    | with_reducible assumption | intro _
    | (extract_lets +onlyGivenNames -underBinder dd; (subst dd))
    | ((conv => (arg 2; arg 23; skip)); with_reducible refine Kept.mk' ?_ rfl rfl rfl rfl rfl rfl rfl rfl rfl)
    | with_reducible apply conditionEvent_kept)

theorem writeUpdate_kept {q : Keep} (rs : List CandRecord) {d : Dev} (h : Kept q d) :
    Kept q (writeUpdate rs d) := by
  unfold writeUpdate
  repeat' (first
    | with_reducible assumption | intro _
    | (extract_lets +onlyGivenNames -underBinder dd; (subst dd))
    | ((conv => (arg 2; arg 23; skip)); with_reducible refine Kept.mk' ?_ rfl rfl rfl rfl rfl rfl rfl rfl rfl))

theorem applyRun_kept {q : Keep} (x : Candidate) {d : Dev} (h : Kept q d) :
    Kept q (applyRun x d) := by
  unfold applyRun
  repeat' (first
    | with_reducible assumption | intro _
    | (extract_lets +onlyGivenNames -underBinder dd; first
        | ((have hh : Kept q dd := ?_); on_goal 2 => clear_value dd; on_goal 1 => subst dd)
        | (subst dd))
    | ((conv => (arg 2; arg 23; skip)); with_reducible refine Kept.mk' ?_ rfl rfl rfl rfl rfl rfl rfl rfl rfl)
    | with_reducible apply holdDrift_kept | with_reducible apply writeUpdate_kept | with_reducible apply Kept.foldl
    | with_reducible apply Kept.foldlSnd | split)

theorem calGate_kept {q : Keep} (slot : Nat) (converged : Bool) (regularised : Bool) (x : Candidate) {d : Dev} (h :
    Kept q d) :
    Kept q (calGate slot converged regularised x d) := by
  unfold calGate
  repeat' (first
    | with_reducible assumption | intro _
    | (extract_lets +onlyGivenNames -underBinder dd; (subst dd))
    | ((conv => (arg 2; arg 23; skip)); with_reducible refine Kept.mk' ?_ rfl rfl rfl rfl rfl rfl rfl rfl rfl)
    | with_reducible apply rejectCal_kept | with_reducible apply applyRun_kept | split)

theorem swapCal_kept {q : Keep} (j : Nat) {d : Dev} (h : Kept q d) :
    Kept q (swapCal j d) := by
  unfold swapCal
  repeat' (first
    | with_reducible assumption | intro _
    | (extract_lets +onlyGivenNames -underBinder dd; first
        | ((have hh : Kept q dd := ?_); on_goal 2 => clear_value dd; on_goal 1 => subst dd)
        | (subst dd))
    | ((conv => (arg 2; arg 23; skip)); with_reducible refine Kept.mk' ?_ rfl rfl rfl rfl rfl rfl rfl rfl rfl)
    | with_reducible apply satEvent_kept | with_reducible apply rejectCal_kept | split)

/-! ### Muslin -/

theorem bump_kept {q : Keep} (bar : Nat) (old : Counter) (n : Nat) (put : Counter → Dev → Dev) {d : Dev}
    (hput : ∀ c d, Kept q d → Kept q (put c d)) (h : Kept q d) : Kept q (bump bar old n put d) :=
  satEvent_kept _ _ _ (hput _ _ h)

theorem countImplausible_kept {q : Keep} (n : Nat) (count : Nat) {d : Dev} (h : Kept q d) :
    Kept q (countImplausible n count d) := by
  unfold countImplausible
  repeat' (first
    | with_reducible assumption | intro _
    | (extract_lets +onlyGivenNames -underBinder dd; (subst dd))
    | with_reducible apply bump_kept | with_reducible apply Dev_setStream_kept)

theorem usable_kept {q : Keep} (n : Nat) (t : Int) (a : Nanos) {d : Dev} (h : Kept q d) :
    Kept q (usable n t a d) := by
  unfold usable
  repeat' (first
    | with_reducible assumption | intro _
    | (extract_lets +onlyGivenNames -underBinder dd; (subst dd))
    | with_reducible apply Dev_setStream_kept)

theorem reacquisitionPeriodEnd_kept {q : Keep} (stream : Fin 48) {d : Dev} (h : Kept q d) :
    Kept q (reacquisitionPeriodEnd stream d) := by
  unfold reacquisitionPeriodEnd
  repeat' (first
    | with_reducible assumption | intro _
    | (extract_lets +onlyGivenNames -underBinder dd; (subst dd))
    | with_reducible apply Dev_setStream_kept | split)

theorem modContrib_kept {q : Keep} (tick : Nat) (stream : Nat) (src : Source) (f : Contribution → Contribution) {d :
    Dev} (h : Kept q d) :
    Kept q (modContrib tick stream src f d) := by
  unfold modContrib
  repeat' (first
    | with_reducible assumption | intro _
    | (extract_lets +onlyGivenNames -underBinder dd; (subst dd))
    | ((conv => (arg 2; arg 23; skip)); with_reducible refine Kept.mk' ?_ rfl rfl rfl rfl rfl rfl rfl rfl rfl))

theorem modBoth_kept {q : Keep} (tick : Nat) (stream : Nat) (f : Contribution → Contribution) {d : Dev} (h : Kept q
    d) :
    Kept q (modBoth tick stream f d) := by
  unfold modBoth
  repeat' (first
    | with_reducible assumption | intro _ | with_reducible apply modContrib_kept)

theorem enterReacquiring_kept {q : Keep} (n : Nat) {d : Dev} (h : Kept q d) :
    Kept q (enterReacquiring n d) := by
  unfold enterReacquiring
  repeat' (first
    | with_reducible assumption | intro _
    | (extract_lets +onlyGivenNames -underBinder dd; first
        | ((have hh : Kept q dd := ?_); on_goal 2 => clear_value dd; on_goal 1 => subst dd)
        | (subst dd))
    | with_reducible apply bump_kept | with_reducible apply Dev_setStream_kept | with_reducible apply modBoth_kept
    | with_reducible apply conditionEvent_kept)

theorem stepStream_kept {q : Keep} (k : Nat) (e : Nat × StreamEntry) {d : Dev} (h : Kept q d) :
    Kept q (stepStream k d e) := by
  unfold stepStream
  repeat' (first
    | with_reducible assumption | intro _
    | (extract_lets +onlyGivenNames -underBinder dd; (subst dd))
    | with_reducible apply Dev_setStream_kept | with_reducible apply modBoth_kept | split)

theorem stepStreams_kept {q : Keep} (k : Nat) {d : Dev} (h : Kept q d) :
    Kept q (stepStreams k d) := by
  unfold stepStreams
  repeat' (first
    | with_reducible assumption | intro _ | with_reducible apply stepStream_kept | with_reducible apply Kept.foldl)

theorem lateIn_kept {q : Keep} (stream : Nat) (tick : Nat) (n : Nat) (src : Source) (post : Bool) (kind : OutKind) {d
    : Dev} (h : Kept q d) :
    Kept q (lateIn stream tick n src post d kind) := by
  unfold lateIn
  repeat' (first
    | with_reducible assumption | intro _
    | (extract_lets +onlyGivenNames -underBinder dd; (subst dd))
    | ((conv => (arg 2; arg 23; skip)); with_reducible refine Kept.mk' ?_ rfl rfl rfl rfl rfl rfl rfl rfl rfl)
    | split)

theorem lateFrom_kept {q : Keep} (stream : Nat) (tick : Nat) (n : Nat) (src : Source) {d : Dev} (h : Kept q d) :
    Kept q (lateFrom stream tick n d src) := by
  unfold lateFrom
  repeat' (first
    | with_reducible assumption | intro _ | with_reducible apply lateIn_kept | with_reducible apply Kept.foldl)

theorem countLateSamples_kept {q : Keep} (stream : Nat) (tick : Nat) (n : Nat) {d : Dev} (h : Kept q d) :
    Kept q (countLateSamples stream tick n d) := by
  unfold countLateSamples
  repeat' (first
    | with_reducible assumption | intro _
    | (extract_lets +onlyGivenNames -underBinder dd; first
        | ((have hh : Kept q dd := ?_); on_goal 2 => clear_value dd; on_goal 1 => subst dd)
        | (subst dd))
    | with_reducible apply bump_kept | with_reducible apply Dev_setStream_kept | with_reducible apply lateFrom_kept
    | with_reducible apply Kept.foldl | with_reducible apply Kept.foldlSnd | split)

theorem countOutOfWindow_kept {q : Keep} (stream : Nat) (n : Nat) {d : Dev} (h : Kept q d) :
    Kept q (countOutOfWindow stream n d) := by
  unfold countOutOfWindow
  repeat' (first
    | with_reducible assumption | intro _
    | (extract_lets +onlyGivenNames -underBinder dd; (subst dd))
    | with_reducible apply bump_kept | with_reducible apply Dev_setStream_kept)

theorem noteAssigned_kept {q : Keep} (tick : Nat) {d : Dev} (h : Kept q d) :
    Kept q (noteAssigned tick d) := by
  unfold noteAssigned
  repeat' (first
    | with_reducible assumption | intro _
    | (extract_lets +onlyGivenNames -underBinder dd; (subst dd))
    | ((conv => (arg 2; arg 23; skip)); with_reducible refine Kept.mk' ?_ rfl rfl rfl rfl rfl rfl rfl rfl rfl))

theorem stepEgo_kept {q : Keep} (b : Nanos) (tick : Nat) (e : Nat × StreamEntry) {d : Dev} (h : Kept q d) :
    Kept q (stepEgo b tick d e) := by
  unfold stepEgo
  repeat' (first
    | with_reducible assumption | intro _
    | (extract_lets +onlyGivenNames -underBinder dd; first
        | ((have hh : Kept q dd := ?_); on_goal 2 => clear_value dd; on_goal 1 => subst dd)
        | (subst dd))
    | ((conv => (arg 2; arg 23; skip)); with_reducible refine Kept.mk' ?_ rfl rfl rfl rfl rfl rfl rfl rfl rfl)
    | with_reducible apply modBoth_kept | with_reducible apply bump_kept | with_reducible apply Dev_setStream_kept
    | split)

theorem stepEgoInputs_kept {q : Keep} (b : Nanos) (tick : Nat) {d : Dev} (h : Kept q d) :
    Kept q (stepEgoInputs b tick d) := by
  unfold stepEgoInputs
  repeat' (first
    | with_reducible assumption | intro _ | with_reducible apply stepEgo_kept | with_reducible apply Kept.foldl)

theorem egoSample_kept {q : Keep} (n : Nat) (t : Int) (a : Nanos) (x : EgoSample) {d : Dev} (h : Kept q d) :
    Kept q (egoSample n t a x d) := by
  unfold egoSample
  repeat' (first
    | with_reducible assumption | intro _
    | (extract_lets +onlyGivenNames -underBinder dd; first
        | ((have hh : Kept q dd := ?_); on_goal 2 => clear_value dd; on_goal 1 => subst dd)
        | (subst dd))
    | ((conv => (arg 2; arg 23; skip)); with_reducible refine Kept.mk' ?_ rfl rfl rfl rfl rfl rfl rfl rfl rfl)
    | with_reducible apply countImplausible_kept | with_reducible apply usable_kept | split)

theorem takeEgo_kept {q : Keep} (n : Nat) (tick : Nat) (e : StreamEntry) (v : Nanos) (src : Source) {d : Dev} (h :
    Kept q d) :
    Kept q (takeEgo n tick e v d src) := by
  unfold takeEgo
  repeat' (first
    | with_reducible assumption | intro _
    | (extract_lets +onlyGivenNames -underBinder dd; (subst dd))
    | with_reducible apply modContrib_kept | with_reducible apply Kept.foldl)

theorem decidePresence_kept {q : Keep} (n : Nat) (tick : Nat) {d : Dev} (h : Kept q d) :
    Kept q (decidePresence n tick d) := by
  unfold decidePresence
  repeat' (first
    | with_reducible assumption | intro _
    | (extract_lets +onlyGivenNames -underBinder dd; first
        | ((have hh : Kept q dd := ?_); on_goal 2 => clear_value dd; on_goal 1 => subst dd)
        | (subst dd))
    | ((conv => (arg 2; arg 23; skip)); with_reducible refine Kept.mk' ?_ rfl rfl rfl rfl rfl rfl rfl rfl rfl)
    | with_reducible apply modContrib_kept | with_reducible apply bump_kept | with_reducible apply Dev_setStream_kept
    | split)

theorem closeGate_kept {q : Keep} (n : Nat) (j : Nat) (e : StreamEntry) (v : Nanos) {d : Dev} (h : Kept q d) :
    Kept q (closeGate n j e v d) := by
  unfold closeGate
  repeat' (first
    | with_reducible assumption | intro _
    | (extract_lets +onlyGivenNames -underBinder dd; first
        | ((have hh : Kept q dd := ?_); on_goal 2 => clear_value dd; on_goal 1 => subst dd)
        | (subst dd))
    | with_reducible apply takeEgo_kept | with_reducible apply decidePresence_kept
    | with_reducible apply Dev_setStream_kept | with_reducible apply Kept.foldl | with_reducible apply Kept.foldlSnd
    | split)

theorem musLastTimeLoRead_kept {q : Keep} (stream : Fin 48) {d : Dev} (h : Kept q d) :
    Kept q (musLastTimeLoRead stream d) := by
  unfold musLastTimeLoRead
  repeat' (first
    | with_reducible assumption | intro _
    | (extract_lets +onlyGivenNames -underBinder dd; (subst dd))
    | with_reducible apply Dev_setStream_kept)

end Sys2Proof.Machine
end

