-- ==== Sys2Proof/Laws/KeptCores.lean ====
section
/-!
SUPPORT. What the operations of memory, the cores, the clusters, Tweed, Damask and loading keep (Sys2Proof/Laws/Kept.lean): one lemma for each.
-/

set_option linter.unusedVariables false

namespace Sys2Proof.Machine

open Sys2Proof

/-! ### Memory -/

theorem setByte_kept {q : Keep} (a : Nat) (v : Byte) {d : Dev} (h : Kept q d) : Kept q (setByte a v d) :=
  Kept.mkMem h (fun hm => bwf_bput hm) rfl rfl rfl rfl rfl rfl rfl rfl

theorem setBytes_kept {q : Keep} (a : Nat) (bs : List Byte) {d : Dev} (h : Kept q d) : Kept q (setBytes a bs d) := by
  induction bs generalizing a d with
  | nil => exact h
  | cons b t ih => exact ih _ (setByte_kept _ _ h)

theorem setBits_kept {q : Keep} (a : Nat) (sh : Nat) (w : Nat) (v : Nat) {d : Dev} (h : Kept q d) :
    Kept q (setBits a sh w v d) := by
  unfold setBits
  repeat' (first
    | with_reducible assumption | intro _
    | (extract_lets +onlyGivenNames -underBinder dd; (subst dd))
    | with_reducible apply setByte_kept)

theorem setElem_kept {q : Keep} (f : Format) (row : Nat) (i : Nat) (v : Nat) {d : Dev} (h : Kept q d) :
    Kept q (setElem f row i v d) := by
  unfold setElem
  repeat' (first
    | with_reducible assumption | intro _
    | (extract_lets +onlyGivenNames -underBinder dd; (subst dd))
    | with_reducible apply setBits_kept | with_reducible apply setBytes_kept | split)

theorem setScale_kept {q : Keep} (f : Format) (row : Nat) (i : Nat) (v : Nat) {d : Dev} (h : Kept q d) :
    Kept q (setScale f row i v d) := by
  unfold setScale
  repeat' (first
    | with_reducible assumption | intro _ | with_reducible apply setByte_kept)

theorem setSpan_kept {q : Keep} (t : Tensor) (bs : List Byte) {d : Dev} (h : Kept q d) :
    Kept q (setSpan t bs d) := by
  unfold setSpan
  repeat' (first
    | with_reducible assumption | intro _ | with_reducible apply setByte_kept | with_reducible apply Kept.foldl
    | with_reducible apply Kept.foldlSnd | split)

theorem setTensor_kept {q : Keep} (t : Option Tensor) (bs : List Byte) {d : Dev} (h : Kept q d) :
    Kept q (setTensor t bs d) := by
  unfold setTensor
  repeat' (first
    | with_reducible assumption | intro _ | with_reducible apply setBytes_kept | split)

/-! ### Cores -/

theorem coreOp_kept {q : Keep} (cl : Fin 132) (co : Fin 64) (f : CoreState → CoreState) {d : Dev} (h : Kept q d) :
    Kept q (coreOp cl co f d) := by
  unfold coreOp
  repeat' (first
    | with_reducible assumption | intro _
    | (extract_lets +onlyGivenNames -underBinder dd; (subst dd))
    | with_reducible apply Dev_setCore_kept | split)

theorem movi_kept {q : Keep} (cl : Fin 132) (co : Fin 64) (x : Fin 16) (imm : Word) {d : Dev} (h : Kept q d) :
    Kept q (movi cl co x imm d) := by
  unfold movi
  repeat' (first
    | with_reducible assumption | intro _ | with_reducible apply coreOp_kept)

theorem addi_kept {q : Keep} (cl : Fin 132) (co : Fin 64) (x : Fin 16) (a : Fin 16) (imm : Word) {d : Dev} (h : Kept
    q d) :
    Kept q (addi cl co x a imm d) := by
  unfold addi
  repeat' (first
    | with_reducible assumption | intro _ | with_reducible apply coreOp_kept)

theorem setc_kept {q : Keep} (cl : Fin 132) (co : Fin 64) (imm : Word) {d : Dev} (h : Kept q d) :
    Kept q (setc cl co imm d) := by
  unfold setc
  repeat' (first
    | with_reducible assumption | intro _ | with_reducible apply coreOp_kept)

theorem rdnsw_kept {q : Keep} (cl : Fin 132) (co : Fin 64) (x : Fin 16) {d : Dev} (h : Kept q d) :
    Kept q (rdnsw cl co x d) := by
  unfold rdnsw
  repeat' (first
    | with_reducible assumption | intro _ | with_reducible apply coreOp_kept)

theorem loopOp_kept {q : Keep} (cl : Fin 132) (co : Fin 64) (l : Fin 4) (imm : Word) {d : Dev} (h : Kept q d) :
    Kept q (loopOp cl co l imm d) := by
  unfold loopOp
  repeat' (first
    | with_reducible assumption | intro _ | with_reducible apply coreOp_kept)

theorem loopx_kept {q : Keep} (cl : Fin 132) (co : Fin 64) (l : Fin 4) (a : Fin 16) (imm : Word) {d : Dev} (h : Kept
    q d) :
    Kept q (loopx cl co l a imm d) := by
  unfold loopx
  repeat' (first
    | with_reducible assumption | intro _ | with_reducible apply coreOp_kept)

theorem endl_kept {q : Keep} (cl : Fin 132) (co : Fin 64) (l : Fin 4) {d : Dev} (h : Kept q d) :
    Kept q (endl cl co l d) := by
  unfold endl
  repeat' (first
    | with_reducible assumption | intro _
    | (extract_lets +onlyGivenNames -underBinder dd; (subst dd))
    | with_reducible apply Dev_setCore_kept | split)

theorem missBurlapOn_kept {q : Keep} (cl : Nat) {d : Dev} (h : Kept q d) :
    Kept q (missBurlapOn cl d) := by
  unfold missBurlapOn
  repeat' (first
    | with_reducible assumption | intro _ | with_reducible apply miss_kept | with_reducible apply Kept.foldl
    | with_reducible apply Kept.foldlSnd | split)

theorem sramError_kept {q : Keep} (cl : Nat) {d : Dev} (h : Kept q d) :
    Kept q (sramError cl d) := by
  unfold sramError
  repeat' (first
    | with_reducible assumption | intro _
    | (extract_lets +onlyGivenNames -underBinder dd; first
        | ((have hh : Kept q dd := ?_); on_goal 2 => clear_value dd; on_goal 1 => subst dd)
        | (subst dd))
    | with_reducible apply restartPartition_kept | with_reducible apply raiseH_kept
    | with_reducible apply missBurlapOn_kept | with_reducible apply resetCluster_kept
    | with_reducible apply raiseV_kept | split)

theorem missKey_kept {q : Keep} (cause : MissCause) (key : Option Nat) {d : Dev} (h : Kept q d) :
    Kept q (missKey cause key d) := by
  unfold missKey
  repeat' (first
    | with_reducible assumption | intro _ | with_reducible apply miss_kept | split)

theorem eccRead_kept {q : Keep} (cl : Nat) (window : Option Nat) (e : Ecc) {d : Dev} (h : Kept q d) :
    Kept q (eccRead cl window e d) := by
  unfold eccRead
  repeat' (first
    | with_reducible assumption | intro _
    | (extract_lets +onlyGivenNames -underBinder dd; first
        | ((have hh : Kept q dd := ?_); on_goal 2 => clear_value dd; on_goal 1 => subst dd)
        | (subst dd))
    | with_reducible apply satEvent_kept | with_reducible apply Dev_setCluster_kept
    | with_reducible apply sramError_kept | with_reducible apply missKey_kept | split)

theorem ldv_kept {q : Keep} (cl : Fin 132) (co : Fin 64) (v : Fin 32) (a : Fin 16) (imm : Word) (ecc : Ecc) {d : Dev}
    (h : Kept q d) :
    ∀ e, ldv cl co v a imm ecc d = some e → Kept q e := by
  intro e he
  unfold ldv at he
  repeat' (first
    | (extract_lets at he) | (obtain ⟨p, -, rfl⟩ := Option.map_eq_some_iff.mp he)
    | (obtain rfl := Option.some.inj he) | (cases he) | split at he)
  all_goals repeat' (first
    | with_reducible assumption | intro _ | with_reducible apply Dev_setCore_kept | with_reducible apply eccRead_kept)

theorem stvm_kept {q : Keep} (cl : Fin 132) (co : Fin 64) (v : Fin 32) (a : Fin 16) (m : Fin 16) {d : Dev} (h : Kept
    q d) :
    ∀ e, stvm cl co v a m d = some e → Kept q e := by
  intro e he
  unfold stvm at he
  repeat' (first
    | (extract_lets at he) | (obtain ⟨p, -, rfl⟩ := Option.map_eq_some_iff.mp he)
    | (obtain rfl := Option.some.inj he) | (cases he) | split at he)
  all_goals repeat' (first
    | with_reducible assumption | intro _ | with_reducible apply setBytes_kept
    | with_reducible apply Dev_setCore_kept | with_reducible apply Kept.foldl)

theorem vop_kept {q : Keep} (cl : Fin 132) (co : Fin 64) (op : VOp) (int : Bool) (vd : Fin 32) (va : Fin 32) (vb :
    Fin 32) (vc : Fin 32) {d : Dev} (h : Kept q d) :
    Kept q (vop cl co op int vd va vb vc d) := by
  unfold vop
  repeat' (first
    | with_reducible assumption | intro _ | with_reducible apply coreOp_kept)

theorem vcvt_kept {q : Keep} (cl : Fin 132) (co : Fin 64) (vd : Fin 32) (va : Fin 32) (int : Bool) (f : Format) (sat
    : Bool) (shift : BitVec 8) {d : Dev} (h : Kept q d) :
    Kept q (vcvt cl co vd va int f sat shift d) := by
  unfold vcvt
  repeat' (first
    | with_reducible assumption | intro _ | with_reducible apply coreOp_kept)

theorem vred_kept {q : Keep} (cl : Fin 132) (co : Fin 64) (vd : Fin 32) (va : Fin 32) (max : Bool) {d : Dev} (h :
    Kept q d) :
    Kept q (vred cl co vd va max d) := by
  unfold vred
  repeat' (first
    | with_reducible assumption | intro _ | with_reducible apply coreOp_kept)

theorem vfn_kept {q : Keep} (cl : Fin 132) (co : Fin 64) (vd : Fin 32) (va : Fin 32) (f : VFn) {d : Dev} (h : Kept q
    d) :
    Kept q (vfn cl co vd va f d) := by
  unfold vfn
  repeat' (first
    | with_reducible assumption | intro _ | with_reducible apply coreOp_kept)

theorem smax_kept {q : Keep} (cl : Fin 132) (co : Fin 64) (vd : Fin 32) (vs : Fin 32) (n : Nat) {d : Dev} (h : Kept q
    d) :
    Kept q (smax cl co vd vs n d) := by
  unfold smax
  repeat' (first
    | with_reducible assumption | intro _ | with_reducible apply coreOp_kept)

theorem srsc_kept {q : Keep} (cl : Fin 132) (co : Fin 64) (va : Fin 32) (vm : Fin 32) (vd : Fin 32) (vl : Fin 32) {d
    : Dev} (h : Kept q d) :
    Kept q (srsc cl co va vm vd vl d) := by
  unfold srsc
  repeat' (first
    | with_reducible assumption | intro _ | with_reducible apply coreOp_kept)

theorem sexp_kept {q : Keep} (cl : Fin 132) (co : Fin 64) (vs : Fin 32) (vm : Fin 32) (vl : Fin 32) (n : Nat) {d :
    Dev} (h : Kept q d) :
    Kept q (sexp cl co vs vm vl n d) := by
  unfold sexp
  repeat' (first
    | with_reducible assumption | intro _ | with_reducible apply coreOp_kept)

theorem smrg_kept {q : Keep} (cl : Fin 132) (co : Fin 64) (vd : Fin 32) (vs : Fin 32) {d : Dev} (h : Kept q d) :
    Kept q (smrg cl co vd vs d) := by
  unfold smrg
  repeat' (first
    | with_reducible assumption | intro _ | with_reducible apply coreOp_kept)

theorem accz_kept {q : Keep} (cl : Fin 132) (co : Fin 64) (a : Fin 8) (fp : Bool) {d : Dev} (h : Kept q d) :
    Kept q (accz cl co a fp d) := by
  unfold accz
  repeat' (first
    | with_reducible assumption | intro _ | with_reducible apply coreOp_kept)

theorem accrd_kept {q : Keep} (cl : Fin 132) (co : Fin 64) (v : Fin 32) (a : Fin 8) (col : Fin 8) {d : Dev} (h : Kept
    q d) :
    Kept q (accrd cl co v a col d) := by
  unfold accrd
  repeat' (first
    | with_reducible assumption | intro _ | with_reducible apply coreOp_kept)

theorem accwr_kept {q : Keep} (cl : Fin 132) (co : Fin 64) (a : Fin 8) (v : Fin 32) (col : Fin 8) {d : Dev} (h : Kept
    q d) :
    Kept q (accwr cl co a v col d) := by
  unfold accwr
  repeat' (first
    | with_reducible assumption | intro _ | with_reducible apply coreOp_kept)

theorem accscl_kept {q : Keep} (cl : Fin 132) (co : Fin 64) (a : Fin 8) (v : Fin 32) {d : Dev} (h : Kept q d) :
    Kept q (accscl cl co a v d) := by
  unfold accscl
  repeat' (first
    | with_reducible assumption | intro _ | with_reducible apply coreOp_kept)

theorem mma_kept {q : Keep} (cl : Fin 132) (co : Fin 64) (acc : Fin 8) (xa : Fin 16) (xb : Fin 16) (xk : Fin 16) (fmt
    : BitVec 6) (subA : Bool) (subB : Bool) (ecc : Ecc) {d : Dev} (h : Kept q d) :
    ∀ e, mma cl co acc xa xb xk fmt subA subB ecc d = some e → Kept q e := by
  intro e he
  unfold mma at he
  repeat' (first
    | (extract_lets at he) | (obtain ⟨p, -, rfl⟩ := Option.map_eq_some_iff.mp he)
    | (obtain rfl := Option.some.inj he) | (cases he) | split at he)
  all_goals repeat' (first
    | with_reducible assumption | intro _ | with_reducible apply Dev_setCore_kept | with_reducible apply eccRead_kept)

/-! ### Clusters -/

theorem bankAdd_kept {q : Keep} (a : Nat) (v : F32) {d : Dev} (h : Kept q d) :
    Kept q (bankAdd a v d) := by
  unfold bankAdd
  repeat' (first
    | with_reducible assumption | intro _ | with_reducible apply setBytes_kept)

theorem drainCluster_kept {q : Keep} (window : Option Nat) (cl : Nat) {d : Dev} (h : Kept q d) :
    Kept q (drainCluster window d cl) := by
  unfold drainCluster
  repeat' (first
    | with_reducible assumption | intro _
    | (extract_lets +onlyGivenNames -underBinder dd; (subst dd))
    | with_reducible apply bankAdd_kept | with_reducible apply Dev_modCluster_kept | with_reducible apply Kept.foldl)

theorem drain_kept {q : Keep} (window : Option Nat) {d : Dev} (h : Kept q d) :
    Kept q (drain window d) := by
  unfold drain
  repeat' (first
    | with_reducible assumption | intro _ | with_reducible apply drainCluster_kept | with_reducible apply Kept.foldl)

theorem reduceAdd_kept {q : Keep} (fixed : Bool) (window : Option Nat) (cl : Nat) (source : Nat) (a : Nat) (v : F32)
    {d : Dev} (h : Kept q d) :
    Kept q (reduceAdd fixed window cl source a v d) := by
  unfold reduceAdd
  repeat' (first
    | with_reducible assumption | intro _ | with_reducible apply Dev_modCluster_kept
    | with_reducible apply bankAdd_kept | split)

theorem radd_kept {q : Keep} (cl : Fin 132) (co : Fin 64) (x : Fin 16) (v : Fin 32) (m : Fin 16) (ecc : Ecc) {d :
    Dev} (h : Kept q d) :
    ∀ e, radd cl co x v m ecc d = some e → Kept q e := by
  intro e he
  unfold radd at he
  repeat' (first
    | (extract_lets at he) | (obtain ⟨p, -, rfl⟩ := Option.map_eq_some_iff.mp he)
    | (obtain rfl := Option.some.inj he) | (cases he) | split at he)
  all_goals repeat' (first
    | with_reducible assumption | intro _ | with_reducible apply eccRead_kept | with_reducible apply reduceAdd_kept
    | with_reducible apply Dev_setCore_kept | with_reducible apply Kept.foldl)

theorem wakeTally_kept {q : Keep} (cl : Nat) (qq : Nat) {d : Dev} (h : Kept q d) :
    Kept q (wakeTally cl d qq) := by
  unfold wakeTally
  repeat' (first
    | with_reducible assumption | intro _
    | (extract_lets +onlyGivenNames -underBinder dd; (subst dd))
    | with_reducible apply drain_kept | with_reducible apply Dev_setCore_kept | split)

theorem incTally_kept {q : Keep} (cl : Nat) (t : Nat) {d : Dev} (h : Kept q d) :
    Kept q (incTally cl t d) := by
  unfold incTally
  repeat' (first
    | with_reducible assumption | intro _
    | (extract_lets +onlyGivenNames -underBinder dd; first
        | ((have hh : Kept q dd := ?_); on_goal 2 => clear_value dd; on_goal 1 => subst dd)
        | (subst dd))
    | with_reducible apply Dev_setCore_kept | with_reducible apply Dev_setCluster_kept
    | with_reducible apply wakeTally_kept | with_reducible apply Kept.foldl | with_reducible apply Kept.foldlSnd
    | split)

theorem wtally_kept {q : Keep} (cl : Fin 132) (co : Fin 64) (t : Fin 256) (imm : Word) {d : Dev} (h : Kept q d) :
    Kept q (wtally cl co t imm d) := by
  unfold wtally
  repeat' (first
    | with_reducible assumption | intro _
    | (extract_lets +onlyGivenNames -underBinder dd; (subst dd))
    | with_reducible apply drain_kept | with_reducible apply Dev_setCore_kept | split)

theorem signalOp_kept {q : Keep} (cl : Fin 132) (co : Fin 64) (x : Fin 16) {d : Dev} (h : Kept q d) :
    Kept q (signalOp cl co x d) := by
  unfold signalOp
  repeat' (first
    | with_reducible assumption | intro _
    | (extract_lets +onlyGivenNames -underBinder dd; first
        | ((have hh : Kept q dd := ?_); on_goal 2 => clear_value dd; on_goal 1 => subst dd)
        | (subst dd))
    | with_reducible apply Dev_setCore_kept | with_reducible apply incTally_kept | split)

theorem wstart_kept {q : Keep} (cl : Fin 132) (co : Fin 64) (imm : Word) {d : Dev} (h : Kept q d) :
    Kept q (wstart cl co imm d) := by
  unfold wstart
  repeat' (first
    | with_reducible assumption | intro _
    | (extract_lets +onlyGivenNames -underBinder dd; (subst dd))
    | with_reducible apply Dev_setCore_kept | split)

theorem leaveWindow_kept {q : Keep} (qq : Nat) (key : Nat) (invalid : Bool) {d : Dev} (h : Kept q d) :
    Kept q (leaveWindow qq key invalid d) := by
  unfold leaveWindow
  repeat' (first
    | with_reducible assumption | intro _
    | (extract_lets +onlyGivenNames -underBinder dd; (subst dd))
    | with_reducible apply Dev_setWin_kept)

theorem endOp_kept {q : Keep} (cl : Fin 132) (co : Fin 64) {d : Dev} (h : Kept q d) :
    Kept q (endOp cl co d) := by
  unfold endOp
  repeat' (first
    | with_reducible assumption | intro _
    | (extract_lets +onlyGivenNames -underBinder dd; first
        | ((have hh : Kept q dd := ?_); on_goal 2 => clear_value dd; on_goal 1 => subst dd)
        | (subst dd))
    | with_reducible apply Dev_setCore_kept | with_reducible apply closeFlags_kept
    | with_reducible apply leaveWindow_kept | with_reducible apply noteFlags_kept | split)

theorem countExpiry_kept {q : Keep} (tick : Nat) (g : Nat) (r : GroupRec) {d : Dev} (h : Kept q d) :
    Kept q (countExpiry tick g r d) := by
  unfold countExpiry
  repeat' (first
    | with_reducible assumption | intro _
    | (extract_lets +onlyGivenNames -underBinder dd; first
        | ((have hh : Kept q dd := ?_); on_goal 2 => clear_value dd; on_goal 1 => subst dd)
        | (subst dd))
    | ((conv => (arg 2; arg 23; skip)); with_reducible refine Kept.mk' ?_ rfl rfl rfl rfl rfl rfl rfl rfl rfl)
    | with_reducible apply restartPartition_kept | split)

theorem overrun_kept {q : Keep} (src : Source) (tick : Nat) (w : Nat) (r : WindowRec) {d : Dev} (h : Kept q d) :
    Kept q (overrun src tick w r d) := by
  unfold overrun
  repeat' (first
    | with_reducible assumption | intro _
    | (extract_lets +onlyGivenNames -underBinder dd; first
        | ((have hh : Kept q dd := ?_); on_goal 2 => clear_value dd; on_goal 1 => subst dd)
        | (subst dd))
    | ((conv => (arg 2; arg 23; skip)); with_reducible refine Kept.mk' ?_ rfl rfl rfl rfl rfl rfl rfl rfl rfl)
    | with_reducible apply satEvent_kept | with_reducible apply miss_kept | with_reducible apply Dev_setWin_kept
    | with_reducible apply raiseV_kept | with_reducible apply countExpiry_kept | split)

theorem undefinedOpcode_kept {q : Keep} (cl : Fin 132) (co : Fin 64) {d : Dev} (h : Kept q d) :
    Kept q (undefinedOpcode cl co d) := by
  unfold undefinedOpcode
  repeat' (first
    | with_reducible assumption | intro _
    | (extract_lets +onlyGivenNames -underBinder dd; first
        | ((have hh : Kept q dd := ?_); on_goal 2 => clear_value dd; on_goal 1 => subst dd)
        | (subst dd))
    | with_reducible apply Dev_setCore_kept | with_reducible apply overrun_kept | split)

theorem moveElem_kept {q : Keep} (old : Dev) (zeroed : Bool) (t : TransferDesc) (s : Tensor) (dst : Tensor) (p : List
    Nat) {d : Dev} (h : Kept q d) :
    Kept q (moveElem old zeroed t s dst p d) := by
  unfold moveElem
  repeat' (first
    | with_reducible assumption | intro _
    | (extract_lets +onlyGivenNames -underBinder dd; first
        | ((have hh : Kept q dd := ?_); on_goal 2 => clear_value dd; on_goal 1 => subst dd)
        | (subst dd))
    | with_reducible apply setElem_kept | with_reducible apply setScale_kept | split)

theorem addElem_kept {q : Keep} (old : Dev) (zeroed : Bool) (fixed : Bool) (window : Option Nat) (source : Nat) (t :
    TransferDesc) (s : Tensor) (dst : Tensor) (p : List Nat) {d : Dev} (h : Kept q d) :
    Kept q (addElem old zeroed fixed window source t s dst p d) := by
  unfold addElem
  repeat' (first
    | with_reducible assumption | intro _
    | (extract_lets +onlyGivenNames -underBinder dd; (subst dd))
    | with_reducible apply reduceAdd_kept)

theorem moveData_kept {q : Keep} (m : MoveCtx) (ts : List Tensor) (t : TransferDesc) (keep : Nat → Bool) {d : Dev} (h
    : Kept q d) :
    Kept q (moveData m ts t keep d) := by
  unfold moveData
  repeat' (first
    | with_reducible assumption | intro _
    | (extract_lets +onlyGivenNames -underBinder dd; first
        | ((have hh : Kept q dd := ?_); on_goal 2 => clear_value dd; on_goal 1 => subst dd)
        | (subst dd))
    | with_reducible apply addElem_kept | with_reducible apply moveElem_kept | with_reducible apply Kept.foldl
    | with_reducible apply Kept.foldlSnd | split)

theorem enqueue_kept {q : Keep} (cl : Nat) (co : Nat) (a : Nat) {d : Dev} (h : Kept q d) :
    Kept q (enqueue cl co a d) := by
  unfold enqueue
  repeat' (first
    | with_reducible assumption | intro _
    | (extract_lets +onlyGivenNames -underBinder dd; (subst dd))
    | with_reducible apply Dev_modCluster_kept)

theorem wakeDma_kept {q : Keep} (cl : Nat) (co : Nat) {d : Dev} (h : Kept q d) :
    Kept q (wakeDma cl co d) := by
  unfold wakeDma
  repeat' (first
    | with_reducible assumption | intro _
    | (extract_lets +onlyGivenNames -underBinder dd; (subst dd))
    | with_reducible apply Dev_setCore_kept | with_reducible apply enqueue_kept | split)

theorem dmaq_kept {q : Keep} (cl : Fin 132) (co : Fin 64) (x : Fin 16) {d : Dev} (h : Kept q d) :
    ∀ e, dmaq cl co x d = some e → Kept q e := by
  intro e he
  unfold dmaq at he
  repeat' (first
    | (extract_lets at he) | (obtain ⟨p, -, rfl⟩ := Option.map_eq_some_iff.mp he)
    | (obtain rfl := Option.some.inj he) | (cases he) | split at he)
  all_goals repeat' (first
    | with_reducible assumption | intro _ | with_reducible apply enqueue_kept | with_reducible apply Dev_setCore_kept
    | split)

theorem dmaw_kept {q : Keep} (cl : Fin 132) (co : Fin 64) (imm : Word) {d : Dev} (h : Kept q d) :
    Kept q (dmaw cl co imm d) := by
  unfold dmaw
  repeat' (first
    | with_reducible assumption | intro _
    | (extract_lets +onlyGivenNames -underBinder dd; (subst dd))
    | with_reducible apply Dev_setCore_kept | split)

theorem releaseTransfer_kept {q : Keep} (cl : Nat) (n : Nat) (co : Nat) {d : Dev} (h : Kept q d) :
    Kept q (releaseTransfer cl n co d) := by
  unfold releaseTransfer
  repeat' (first
    | with_reducible assumption | intro _ | with_reducible apply wakeDma_kept
    | with_reducible apply Dev_modCluster_kept)

theorem faultKey_kept {q : Keep} (key : Option Nat) {d : Dev} (h : Kept q d) :
    Kept q (faultKey key d) := by
  unfold faultKey
  repeat' (first
    | with_reducible assumption | intro _ | with_reducible apply faultMiss_kept | split)

theorem refuseTransfer_kept {q : Keep} (cl : Nat) (n : Nat) (x : Transfer) (code : Nat) {d : Dev} (h : Kept q d) :
    Kept q (refuseTransfer cl n x code d) := by
  unfold refuseTransfer
  repeat' (first
    | with_reducible assumption | intro _
    | (extract_lets +onlyGivenNames -underBinder dd; first
        | ((have hh : Kept q dd := ?_); on_goal 2 => clear_value dd; on_goal 1 => subst dd)
        | (subst dd))
    | with_reducible apply Dev_setCore_kept | with_reducible apply satEvent_kept
    | with_reducible apply Dev_modCluster_kept | with_reducible apply faultKey_kept
    | with_reducible apply releaseTransfer_kept)

theorem transferStart_kept {q : Keep} (cl : Fin 132) (ecc : Ecc) {d : Dev} (h : Kept q d) :
    Kept q (transferStart cl ecc d) := by
  unfold transferStart
  repeat' (first
    | with_reducible assumption | intro _
    | (extract_lets +onlyGivenNames -underBinder dd; first
        | ((have hh : Kept q dd := ?_); on_goal 2 => clear_value dd; on_goal 1 => subst dd)
        | (subst dd))
    | with_reducible apply eccRead_kept | with_reducible apply releaseTransfer_kept
    | with_reducible apply refuseTransfer_kept | with_reducible apply Dev_modCluster_kept | split)

theorem scrubAccess_kept {q : Keep} (cl : Fin 132) (bank : Fin 288) (ecc : Ecc) {d : Dev} (h : Kept q d) :
    Kept q (scrubAccess cl bank ecc d) := by
  unfold scrubAccess
  repeat' (first
    | with_reducible assumption | intro _
    | (extract_lets +onlyGivenNames -underBinder dd; first
        | ((have hh : Kept q dd := ?_); on_goal 2 => clear_value dd; on_goal 1 => subst dd)
        | (subst dd))
    | with_reducible apply Dev_modCluster_kept | with_reducible apply eccRead_kept | split)

theorem placeWeights_kept {q : Keep} (img : Image) (ts : List Tensor) (ws : List WeightRec) (p : Tensor → Bool) {d :
    Dev} (h : Kept q d) :
    Kept q (placeWeights img ts ws p d) := by
  unfold placeWeights
  repeat' (first
    | with_reducible assumption | intro _ | with_reducible apply setSpan_kept | with_reducible apply Kept.foldl
    | with_reducible apply Kept.foldlSnd | split)

theorem flitCrcError_kept {q : Keep} {d : Dev} (h : Kept q d) :
    Kept q (flitCrcError d) := by
  unfold flitCrcError
  repeat' (first
    | with_reducible assumption | intro _
    | (extract_lets +onlyGivenNames -underBinder dd; first
        | ((have hh : Kept q dd := ?_); on_goal 2 => clear_value dd; on_goal 1 => subst dd)
        | (subst dd))
    | ((conv => (arg 2; arg 23; skip)); with_reducible refine Kept.mk' ?_ rfl rfl rfl rfl rfl rfl rfl rfl rfl)
    | with_reducible apply satEvent_kept | with_reducible apply conditionEvent_kept)

/-! ### Poses -/

/-! ### Tweed -/

theorem Dev_setEngine_kept {q : Keep} (src : Source) (e : TweedState) {d : Dev} (h : Kept q d) :
    Kept q (Dev.setEngine d src e) := by
  unfold Dev.setEngine
  repeat' (first
    | with_reducible assumption | intro _
    | ((conv => (arg 2; arg 23; skip)); with_reducible refine Kept.mk' ?_ rfl rfl rfl rfl rfl rfl rfl rfl rfl)
    | split)

theorem modEngine_kept {q : Keep} (src : Source) (f : TweedState → TweedState) {d : Dev} (h : Kept q d) :
    Kept q (modEngine src f d) := by
  unfold modEngine
  repeat' (first
    | with_reducible assumption | intro _ | with_reducible apply Dev_setEngine_kept)

theorem bumpTwd_kept {q : Keep} (src : Source) (off : Nat) (get : TweedState → Counter) (put : Counter → TweedState →
    TweedState) (n : Nat) {d : Dev} (h : Kept q d) :
    Kept q (bumpTwd src off get put n d) := by
  unfold bumpTwd
  repeat' (first
    | with_reducible assumption | intro _ | with_reducible apply bump_kept | with_reducible apply modEngine_kept)

theorem noteFar_kept {q : Keep} (src : Source) (tick : Nat) {d : Dev} (h : Kept q d) :
    Kept q (noteFar src tick d) := by
  unfold noteFar
  repeat' (first
    | with_reducible assumption | intro _ | with_reducible apply modEngine_kept)

theorem noteFull_kept {q : Keep} (src : Source) (tick : Nat) {d : Dev} (h : Kept q d) :
    Kept q (noteFull src tick d) := by
  unfold noteFull
  repeat' (first
    | with_reducible assumption | intro _ | with_reducible apply modEngine_kept)

theorem insertHigher_kept {q : Keep} (src : Source) (tick : Nat) (r : TweedRec) (ix : Nat × Nat × Nat) (hit : Nat →
    Hit) (l : Nat) {d : Dev} (h : Kept q d) :
    Kept q (insertHigher src tick r ix hit d l) := by
  unfold insertHigher
  repeat' (first
    | with_reducible assumption | intro _
    | (extract_lets +onlyGivenNames -underBinder dd; (subst dd))
    | with_reducible apply Dev_setEngine_kept | with_reducible apply noteFull_kept
    | with_reducible apply bumpTwd_kept | split)

theorem contributePoint_kept {q : Keep} (src : Source) (tick : Nat) (n : Nat) (e : StreamEntry) (valid : Nanos) (t :
    Int) {d : Dev} (h : Kept q d) :
    Kept q (contributePoint src tick n e valid t d) := by
  unfold contributePoint
  repeat' (first
    | with_reducible assumption | intro _ | with_reducible apply modContrib_kept)

theorem insertPoint_kept {q : Keep} (src : Source) (tick : Nat) (i : Nat) {d : Dev} (h : Kept q d) :
    Kept q (insertPoint src tick i d) := by
  unfold insertPoint
  repeat' (first
    | with_reducible assumption | intro _
    | (extract_lets +onlyGivenNames -underBinder dd; first
        | ((have hh : Kept q dd := ?_); on_goal 2 => clear_value dd; on_goal 1 => subst dd)
        | (subst dd))
    | with_reducible apply modEngine_kept | with_reducible apply bumpTwd_kept | with_reducible apply noteFull_kept
    | with_reducible apply Dev_setEngine_kept | with_reducible apply contributePoint_kept
    | with_reducible apply insertHigher_kept | with_reducible apply Kept.foldl | with_reducible apply Kept.foldlSnd
    | split)

theorem deferredInsertion_kept {q : Keep} (src : Source) {d : Dev} (h : Kept q d) :
    Kept q (deferredInsertion src d) := by
  unfold deferredInsertion
  repeat' (first
    | with_reducible assumption | intro _
    | (extract_lets +onlyGivenNames -underBinder dd; (subst dd))
    | with_reducible apply insertPoint_kept | with_reducible apply Kept.foldl | with_reducible apply Kept.foldlSnd
    | split)

theorem storePoint_kept {q : Keep} (src : Source) (tick : Nat) (p : PointRec) {d : Dev} (h : Kept q d) :
    Kept q (storePoint src tick d p) := by
  unfold storePoint
  repeat' (first
    | with_reducible assumption | intro _
    | (extract_lets +onlyGivenNames -underBinder dd; first
        | ((have hh : Kept q dd := ?_); on_goal 2 => clear_value dd; on_goal 1 => subst dd)
        | (subst dd))
    | with_reducible apply Dev_setEngine_kept | with_reducible apply insertPoint_kept | split)

theorem closeSlice_kept {q : Keep} (src : Source) (n : Nat) {d : Dev} (h : Kept q d) :
    Kept q (closeSlice src n d) := by
  unfold closeSlice
  repeat' (first
    | with_reducible assumption | intro _
    | (extract_lets +onlyGivenNames -underBinder dd; first
        | ((have hh : Kept q dd := ?_); on_goal 2 => clear_value dd; on_goal 1 => subst dd)
        | (subst dd))
    | with_reducible apply modEngine_kept | with_reducible apply bumpTwd_kept | with_reducible apply noteFar_kept
    | with_reducible apply storePoint_kept | with_reducible apply Kept.foldl | with_reducible apply Kept.foldlSnd
    | split)

theorem sliceTimerExpiry_kept {q : Keep} (src : Source) (stream : Fin 48) {d : Dev} (h : Kept q d) :
    Kept q (sliceTimerExpiry src stream d) := by
  unfold sliceTimerExpiry
  repeat' (first
    | with_reducible assumption | intro _ | with_reducible apply closeSlice_kept | split)

theorem openSlice_kept {q : Keep} (src : Source) (tick : Nat) (n : Nat) (p : Point) {d : Dev} (h : Kept q d) :
    Kept q (openSlice src tick n p d) := by
  unfold openSlice
  repeat' (first
    | with_reducible assumption | intro _ | with_reducible apply modEngine_kept)

theorem takeProvisional_kept {q : Keep} (src : Source) (tick : Nat) (valid : Nanos) {d : Dev} (h : Kept q d) :
    Kept q (takeProvisional src tick valid d) := by
  unfold takeProvisional
  repeat' (first
    | with_reducible assumption | intro _
    | (extract_lets +onlyGivenNames -underBinder dd; (subst dd))
    | with_reducible apply modEngine_kept | split)

theorem offerPoint_kept {q : Keep} (src : Source) (tick : Nat) (n : Nat) (p : Point) {d : Dev} (h : Kept q d) :
    Kept q (offerPoint src tick n d p) := by
  unfold offerPoint
  repeat' (first
    | with_reducible assumption | intro _
    | (extract_lets +onlyGivenNames -underBinder dd; (subst dd))
    | with_reducible apply openSlice_kept | with_reducible apply closeSlice_kept
    | with_reducible apply modEngine_kept | split)

theorem takeFinal_kept {q : Keep} (src : Source) (tick : Nat) (valid : Nanos) {d : Dev} (h : Kept q d) :
    Kept q (takeFinal src tick valid d) := by
  unfold takeFinal
  repeat' (first
    | with_reducible assumption | intro _
    | (extract_lets +onlyGivenNames -underBinder dd; first
        | ((have hh : Kept q dd := ?_); on_goal 2 => clear_value dd; on_goal 1 => subst dd)
        | (subst dd))
    | with_reducible apply modEngine_kept | with_reducible apply noteFar_kept | split)

theorem runQuery_kept {q : Keep} (src : Source) (tick : Nat) (qi : Nat) (qq : QueryRec) {d : Dev} (h : Kept q d) :
    Kept q (runQuery src tick qi qq d) := by
  unfold runQuery
  repeat' (first
    | with_reducible assumption | intro _
    | (extract_lets +onlyGivenNames -underBinder dd; first
        | ((have hh : Kept q dd := ?_); on_goal 2 => clear_value dd; on_goal 1 => subst dd)
        | (subst dd))
    | with_reducible apply modEngine_kept | with_reducible apply bumpTwd_kept | with_reducible apply setTensor_kept
    | split)

theorem runFps_kept {q : Keep} (src : Source) (tick : Nat) (r : TweedRec) (f : FpsRec) {d : Dev} (h : Kept q d) :
    Kept q (runFps src tick r d f) := by
  unfold runFps
  repeat' (first
    | with_reducible assumption | intro _
    | (extract_lets +onlyGivenNames -underBinder dd; first
        | ((have hh : Kept q dd := ?_); on_goal 2 => clear_value dd; on_goal 1 => subst dd)
        | (subst dd))
    | with_reducible apply bumpTwd_kept | with_reducible apply setTensor_kept | split)

theorem writeGrid_kept {q : Keep} (r : TweedRec) (g : GridRec) (delta : List F64) (ls : List Landing) (t : Option
    Tensor) {d : Dev} (h : Kept q d) :
    Kept q (writeGrid r g delta ls t d) := by
  unfold writeGrid
  repeat' (first
    | with_reducible assumption | intro _
    | (extract_lets +onlyGivenNames -underBinder dd; (subst dd))
    | with_reducible apply setElem_kept | with_reducible apply Kept.foldl | with_reducible apply Kept.foldlSnd
    | split)

theorem runScatter_kept {q : Keep} (src : Source) (tick : Nat) (r : TweedRec) {d : Dev} (h : Kept q d) :
    Kept q (runScatter src tick r d) := by
  unfold runScatter
  repeat' (first
    | with_reducible assumption | intro _
    | (extract_lets +onlyGivenNames -underBinder dd; first
        | ((have hh : Kept q dd := ?_); on_goal 2 => clear_value dd; on_goal 1 => subst dd)
        | (subst dd))
    | with_reducible apply modEngine_kept | with_reducible apply writeGrid_kept | with_reducible apply setTensor_kept
    | with_reducible apply Kept.foldl | with_reducible apply Kept.foldlSnd | split)

theorem runStep_kept {q : Keep} (src : Source) (tick : Nat) (s : TweedStep) {d : Dev} (h : Kept q d) :
    Kept q (runStep src tick s d) := by
  unfold runStep
  repeat' (first
    | with_reducible assumption | intro _ | with_reducible apply runQuery_kept | with_reducible apply runFps_kept
    | with_reducible apply runScatter_kept | with_reducible apply Kept.foldl | with_reducible apply Kept.foldlSnd
    | split)

theorem tweedStepTimerExpiry_kept {q : Keep} (src : Source) (tick : Nat) (w : Nat) {d : Dev} (h : Kept q d) :
    Kept q (tweedStepTimerExpiry src tick w d) := by
  unfold tweedStepTimerExpiry
  repeat' (first
    | with_reducible assumption | intro _
    | (extract_lets +onlyGivenNames -underBinder dd; first
        | ((have hh : Kept q dd := ?_); on_goal 2 => clear_value dd; on_goal 1 => subst dd)
        | (subst dd))
    | with_reducible apply modEngine_kept | with_reducible apply bumpTwd_kept | with_reducible apply overrun_kept
    | with_reducible apply faultMiss_kept | with_reducible apply raiseV_kept
    | with_reducible apply restartPartition_kept | split)

theorem tweedTableRelease_kept {q : Keep} (src : Source) {d : Dev} (h : Kept q d) :
    Kept q (tweedTableRelease src d) := by
  unfold tweedTableRelease
  repeat' (first
    | with_reducible assumption | intro _ | with_reducible apply modEngine_kept | split)

theorem stepEngine_kept {q : Keep} (k : Nat) (src : Source) {d : Dev} (h : Kept q d) :
    Kept q (stepEngine k d src) := by
  unfold stepEngine
  repeat' (first
    | with_reducible assumption | intro _
    | (extract_lets +onlyGivenNames -underBinder dd; (subst dd))
    | with_reducible apply modEngine_kept | split)

/-! ### Damask -/

theorem modHalf_kept {q : Keep} (hh : Nat) (f : DmkHalf → DmkHalf) {d : Dev} (h : Kept q d) :
    Kept q (modHalf hh f d) := by
  unfold modHalf
  repeat' (first
    | with_reducible assumption | intro _
    | (extract_lets +onlyGivenNames -underBinder dd; (subst dd))
    | ((conv => (arg 2; arg 23; skip)); with_reducible refine Kept.mk' ?_ rfl rfl rfl rfl rfl rfl rfl rfl rfl))

theorem bumpDmk_kept {q : Keep} (hh : Nat) (off : Nat) (get : DmkHalf → Counter) (put : Counter → DmkHalf → DmkHalf)
    (n : Nat) {d : Dev} (h : Kept q d) :
    Kept q (bumpDmk hh off get put n d) := by
  unfold bumpDmk
  repeat' (first
    | with_reducible assumption | intro _ | with_reducible apply bump_kept | with_reducible apply modHalf_kept
    | split)

theorem setSeq_kept {q : Keep} (i : Nat) (qq : Option Sequence) {d : Dev} (h : Kept q d) :
    Kept q (setSeq i qq d) := by
  unfold setSeq
  repeat' (first
    | with_reducible assumption | intro _
    | (extract_lets +onlyGivenNames -underBinder dd; (subst dd))
    | ((conv => (arg 2; arg 23; skip)); with_reducible refine Kept.mk' ?_ rfl rfl rfl rfl rfl rfl rfl rfl rfl))

theorem setRef_kept {q : Keep} (hh : Nat) (p : Nat) (n : Nat) {d : Dev} (h : Kept q d) :
    Kept q (setRef hh p n d) := by
  unfold setRef
  repeat' (first
    | with_reducible assumption | intro _ | with_reducible apply modHalf_kept)

theorem pick_kept {q : Keep} (l : List Nat) {d : Dev} (h : Kept q d) : ∀ e, pick l d = some e → Kept q e.2 := by
  intro e he
  unfold pick at he
  extract_lets f at he
  split at he
  · cases he
  · obtain ⟨x, -, rfl⟩ := Option.map_eq_some_iff.mp he
    exact drawFree_kept h

theorem takeSlot_kept {q : Keep} (hh : Nat) {d : Dev} (h : Kept q d) : ∀ e, takeSlot hh d = some e → Kept q e.2 := by
  intro e he
  obtain ⟨x, hx, rfl⟩ := Option.map_eq_some_iff.mp he
  exact setRef_kept _ _ _ (pick_kept _ h _ hx)

theorem takeSnap_kept {q : Keep} (hh : Nat) {d : Dev} (h : Kept q d) : Kept q (takeSnap hh d).2 := by
  unfold takeSnap
  extract_lets used
  split
  · rename_i x hx
    exact modHalf_kept _ _ (pick_kept _ h _ hx)
  · exact h

theorem releaseSnap_kept {q : Keep} (hh : Nat) (snap : Option Nat) {d : Dev} (h : Kept q d) :
    Kept q (releaseSnap hh snap d) := by
  unfold releaseSnap
  repeat' (first
    | with_reducible assumption | intro _ | with_reducible apply modHalf_kept | split)

theorem removeEntry_kept {q : Keep} (hh : Nat) (i : Nat) (p : PageEntry) {d : Dev} (h : Kept q d) :
    Kept q (removeEntry hh i p d) := by
  unfold removeEntry
  repeat' (first
    | with_reducible assumption | intro _
    | (extract_lets +onlyGivenNames -underBinder dd; first
        | ((have hh : Kept q dd := ?_); on_goal 2 => clear_value dd; on_goal 1 => subst dd)
        | (subst dd))
    | with_reducible apply setSeq_kept | with_reducible apply setRef_kept | with_reducible apply releaseSnap_kept
    | split)

theorem dropPage_kept {q : Keep} (hh : Nat) (v : Victim) {d : Dev} (h : Kept q d) :
    Kept q (dropPage hh d v) := by
  unfold dropPage
  repeat' (first
    | with_reducible assumption | intro _
    | (extract_lets +onlyGivenNames -underBinder dd; first
        | ((have hh : Kept q dd := ?_); on_goal 2 => clear_value dd; on_goal 1 => subst dd)
        | (subst dd))
    | with_reducible apply setSeq_kept | with_reducible apply bumpDmk_kept | with_reducible apply setRef_kept | split)

theorem reclaim_kept {q : Keep} (hh : Nat) (k : Nat) (need : Nat) (keep : Option Nat) {d : Dev} (h : Kept q d) :
    Kept q (reclaim hh k need keep d) := by
  unfold reclaim
  repeat' (first
    | with_reducible assumption | intro _
    | (extract_lets +onlyGivenNames -underBinder dd; first
        | ((have hh : Kept q dd := ?_); on_goal 2 => clear_value dd; on_goal 1 => subst dd)
        | (subst dd))
    | with_reducible apply removeEntry_kept | with_reducible apply dropPage_kept | with_reducible apply Kept.foldl
    | with_reducible apply Kept.foldlSnd | split)

theorem obtain_kept {q : Keep} (hh : Nat) (k : Nat) (need : Nat) (keep : Option Nat) {d : Dev} (h : Kept q d) :
    ∀ e, obtain_ hh k need keep d = some e → Kept q e := by
  intro e he
  unfold obtain_ at he
  repeat' (first
    | (extract_lets at he) | (obtain ⟨p, -, rfl⟩ := Option.map_eq_some_iff.mp he)
    | (obtain rfl := Option.some.inj he) | (cases he) | split at he)
  all_goals repeat' (first
    | with_reducible assumption | intro _ | with_reducible apply reclaim_kept)

theorem copyRange_kept {q : Keep} (src : Nat) (dst : Nat) (n : Nat) {d : Dev} (h : Kept q d) :
    Kept q (copyRange src dst n d) := by
  unfold copyRange
  repeat' (first
    | with_reducible assumption | intro _
    | (extract_lets +onlyGivenNames -underBinder dd; (subst dd))
    | with_reducible apply setByte_kept | with_reducible apply zeroRange_kept | with_reducible apply Kept.foldl)

theorem copyPage_kept {q : Keep} (hh : Nat) (snapshot : Bool) (p : PageEntry) {d : Dev} (h : Kept q d) :
    ∀ e, copyPage hh snapshot p d = some e → Kept q e.2.2 := by
  intro e he
  obtain ⟨x, hx, rfl⟩ := Option.map_eq_some_iff.mp he
  have h1 := copyRange_kept (x.2.pageAddr hh p.slot) (x.2.pageAddr hh x.1) 0x1_0000 (takeSlot_kept _ h _ hx)
  dsimp only
  split
  · split
    · exact copyRange_kept _ _ _ (takeSnap_kept _ h1)
    · exact takeSnap_kept _ h1
  · exact h1

theorem reply_kept {q : Keep} (c : DmkCmd) (r : DmkReply) {d : Dev} (h : Kept q d) :
    Kept q (reply c r d) := by
  unfold reply
  repeat' (first
    | with_reducible assumption | intro _
    | (extract_lets +onlyGivenNames -underBinder dd; first
        | ((have hh : Kept q dd := ?_); on_goal 2 => clear_value dd; on_goal 1 => subst dd)
        | (subst dd))
    | with_reducible apply setBytes_kept | with_reducible apply incTally_kept | split)

theorem noteIssuer_kept {q : Keep} (c : DmkCmd) {d : Dev} (h : Kept q d) :
    Kept q (noteIssuer c d) := by
  unfold noteIssuer
  repeat' (first
    | with_reducible assumption | intro _
    | (extract_lets +onlyGivenNames -underBinder dd; (subst dd))
    | ((conv => (arg 2; arg 23; skip)); with_reducible refine Kept.mk' ?_ rfl rfl rfl rfl rfl rfl rfl rfl rfl)
    | split)

theorem losePage_kept {q : Keep} (hh : Nat) (slot : Nat) {d : Dev} (h : Kept q d) :
    Kept q (losePage hh slot d) := by
  unfold losePage
  repeat' (first
    | with_reducible assumption | intro _
    | (extract_lets +onlyGivenNames -underBinder dd; first
        | ((have hh : Kept q dd := ?_); on_goal 2 => clear_value dd; on_goal 1 => subst dd)
        | (subst dd))
    | with_reducible apply setSeq_kept | with_reducible apply setRef_kept | with_reducible apply removeEntry_kept
    | with_reducible apply bumpDmk_kept | with_reducible apply conditionEvent_kept | with_reducible apply Kept.foldl
    | with_reducible apply Kept.foldlSnd | split)

theorem pageFault_kept {q : Keep} (hh : Nat) (window : Option Nat) {d : Dev} (h : Kept q d) :
    Kept q (pageFault hh window d) := by
  unfold pageFault
  repeat' (first
    | with_reducible assumption | intro _ | with_reducible apply faultKey_kept | with_reducible apply raiseH_kept
    | split)

theorem copyErrors_kept {q : Keep} (hh : Nat) (c : DmkCmd) (r : DmkReply) {d : Dev} (h : Kept q d) :
    Kept q (copyErrors hh c r d) := by
  unfold copyErrors
  repeat' (first
    | with_reducible assumption | intro _ | with_reducible apply losePage_kept | with_reducible apply pageFault_kept
    | split)

theorem serveDmk_kept {q : Keep} (hh : Fin 2) (c : DmkCmd) (f : Dev → DmkReply × Dev) {d : Dev} (hf : ∀ d, Kept q d →
    Kept q (f d).2) (h : Kept q d) :
    Kept q (serveDmk hh c f d) := by
  unfold serveDmk
  repeat' (first
    | with_reducible assumption | intro _
    | (extract_lets +onlyGivenNames -underBinder dd; (subst dd))
    | with_reducible apply hf | with_reducible apply noteIssuer_kept | with_reducible apply copyErrors_kept
    | with_reducible apply reply_kept | split)

theorem refuseCreate_kept {q : Keep} (hh : Nat) (st : DmkStatus) {d : Dev} (h : Kept q d) :
    Kept q (refuseCreate hh st d).2 := by
  unfold refuseCreate
  repeat' (first
    | with_reducible assumption | intro _ | with_reducible apply bumpDmk_kept)

theorem create_kept {q : Keep} (half : Fin 2) (cmd : DmkCmd) {d : Dev} (h : Kept q d) :
    Kept q (create half cmd d) := by
  unfold create
  repeat' (first
    | with_reducible assumption | intro _ | with_reducible apply serveDmk_kept
    | with_reducible apply refuseCreate_kept | with_reducible apply setSeq_kept | split)

theorem noteMissingView_kept {q : Keep} (c : DmkCmd) (missing : Nat) {d : Dev} (h : Kept q d) :
    Kept q (noteMissingView c missing d) := by
  unfold noteMissingView
  repeat' (first
    | with_reducible assumption | intro _
    | (extract_lets +onlyGivenNames -underBinder dd; (subst dd))
    | with_reducible apply Dev_setWin_kept | split)

theorem openView_kept {q : Keep} (half : Fin 2) (cmd : DmkCmd) {d : Dev} (h : Kept q d) :
    Kept q (openView half cmd d) := by
  unfold openView
  repeat' (first
    | with_reducible assumption | intro _
    | (extract_lets +onlyGivenNames -underBinder dd; first
        | ((have hh : Kept q dd := ?_); on_goal 2 => clear_value dd; on_goal 1 => subst dd)
        | (subst dd))
    | with_reducible apply serveDmk_kept | with_reducible apply noteMissingView_kept
    | with_reducible apply modHalf_kept | with_reducible apply Kept.foldl | with_reducible apply Kept.foldlSnd
    | split)

theorem reserve_kept {q : Keep} (hh : Nat) (a : PendingAppend) {d : Dev} (h : Kept q d) :
    Kept q (reserve hh a d) := by
  unfold reserve
  repeat' (first
    | with_reducible assumption | intro _ | with_reducible apply modHalf_kept)

theorem freshPages_kept {q : Keep} (hh : Nat) (snapshot : Bool) (a : PendingAppend) (fuel rest : Nat) {d : Dev} (h :
    Kept q d) :
    Kept q (freshPages hh snapshot a fuel rest d).2 := by
  induction fuel generalizing rest d with
  | zero => exact h
  | succ n ih =>
    unfold freshPages
    split
    · exact h
    · split
      · exact h
      · rename_i x hx
        have hx := takeSlot_kept _ h _ hx
        extract_lets y m d1 more
        refine ih _ (reserve_kept _ _ ?_)
        by_cases hs : snapshot = true
        · simpa [y, hs] using takeSnap_kept hh hx
        · simpa [y, hs] using hx

theorem countRefused_kept {q : Keep} (hh : Nat) {d : Dev} (h : Kept q d) :
    Kept q (countRefused hh d) := by
  unfold countRefused
  repeat' (first
    | with_reducible assumption | intro _ | with_reducible apply bumpDmk_kept)

theorem refuseAppend_kept {q : Keep} (hh : Nat) (cmd : DmkCmd) (st : DmkStatus) {d : Dev} (h : Kept q d) :
    Kept q (refuseAppend hh cmd st d).2 := by
  unfold refuseAppend
  repeat' (first
    | with_reducible assumption | intro _
    | (extract_lets +onlyGivenNames -underBinder dd; first
        | ((have hh : Kept q dd := ?_); on_goal 2 => clear_value dd; on_goal 1 => subst dd)
        | (subst dd))
    | with_reducible apply modHalf_kept | with_reducible apply countRefused_kept)

theorem ownTail_kept {q : Keep} (hh : Nat) (i : Nat) (snapshot : Bool) (t : Tail) {d : Dev} (h : Kept q d) :
    Kept q (ownTail hh i snapshot t d).2.2 := by
  unfold ownTail
  repeat' (first
    | with_reducible assumption | intro _
    | (extract_lets +onlyGivenNames -underBinder dd; first
        | ((have hh : Kept q dd := ?_); on_goal 2 => clear_value dd; on_goal 1 => subst dd)
        | (subst dd))
    | with_reducible apply setSeq_kept | with_reducible apply setRef_kept | with_reducible apply bumpDmk_kept
    | with_reducible refine copyPage_kept _ _ _ ?_ _ (by assumption)
    | with_reducible refine copyPage_kept _ _ _ ?_ (_, _) (by assumption) | split)

theorem appendTo_kept {q : Keep} (hh : Nat) (cmd : DmkCmd) (qq : Sequence) (c : DmkClass) {d : Dev} (h : Kept q d) :
    Kept q (appendTo hh cmd qq c d).2 := by
  unfold appendTo
  repeat' (first
    | with_reducible assumption | intro _
    | (extract_lets +onlyGivenNames -underBinder dd; first
        | ((have hh : Kept q dd := ?_); on_goal 2 => clear_value dd; on_goal 1 => subst dd)
        | ((have hh : Kept q dd.2.2 := ?_); on_goal 2 => clear_value dd; on_goal 1 => subst dd)
        | (subst dd))
    | with_reducible apply refuseAppend_kept | with_reducible apply modHalf_kept | with_reducible apply ownTail_kept
    | with_reducible apply reserve_kept | with_reducible apply freshPages_kept
    | with_reducible refine obtain_kept _ _ _ _ ?_ _ (by assumption)
    | with_reducible refine obtain_kept _ _ _ _ ?_ (_, _) (by assumption) | split)

theorem appendTok_kept {q : Keep} (half : Fin 2) (cmd : DmkCmd) {d : Dev} (h : Kept q d) :
    Kept q (appendTok half cmd d) := by
  unfold appendTok
  repeat' (first
    | with_reducible assumption | intro _ | with_reducible apply serveDmk_kept | with_reducible apply appendTo_kept
    | split)

theorem sharePages_kept {q : Keep} (hh : Nat) (snapshot : Bool) (l : List PageEntry) {d : Dev} (h : Kept q d) :
    Kept q (sharePages hh snapshot l d).2.2 := by
  induction l generalizing d with
  | nil => exact h
  | cons p t ih =>
    unfold sharePages
    split
    · exact ih h
    · split
      · exact ih (setRef_kept _ _ _ h)
      · split
        · exact h
        · rename_i y hy
          exact ih (bumpDmk_kept _ _ _ _ _ (copyPage_kept _ _ _ h _ hy))

theorem forkOf_kept {q : Keep} (hh : Nat) (cmd : DmkCmd) (owner : SeqOwner) {d : Dev} (h : Kept q d) :
    Kept q (forkOf hh cmd owner d).2 := by
  unfold forkOf
  repeat' (first
    | with_reducible assumption | intro _
    | (extract_lets +onlyGivenNames -underBinder dd; first
        | ((have hh : Kept q dd.2.2 := ?_); on_goal 2 => clear_value dd; on_goal 1 => subst dd)
        | (subst dd))
    | with_reducible apply refuseCreate_kept | with_reducible apply countRefused_kept
    | with_reducible apply sharePages_kept | with_reducible apply setSeq_kept
    | with_reducible refine obtain_kept _ _ _ _ ?_ _ (by assumption)
    | with_reducible refine obtain_kept _ _ _ _ ?_ (_, _) (by assumption) | split)

theorem forkSeq_kept {q : Keep} (half : Fin 2) (cmd : DmkCmd) {d : Dev} (h : Kept q d) :
    Kept q (forkSeq half cmd d) := by
  unfold forkSeq
  repeat' (first
    | with_reducible assumption | intro _ | with_reducible apply serveDmk_kept | with_reducible apply forkOf_kept)

theorem freeSeq_kept {q : Keep} (half : Fin 2) (cmd : DmkCmd) {d : Dev} (h : Kept q d) :
    Kept q (freeSeq half cmd d) := by
  unfold freeSeq
  repeat' (first
    | with_reducible assumption | intro _ | with_reducible apply serveDmk_kept | with_reducible apply setSeq_kept
    | split)

theorem restore_kept {q : Keep} (half : Fin 2) (cmd : DmkCmd) {d : Dev} (h : Kept q d) :
    Kept q (restore half cmd d) := by
  unfold restore
  repeat' (first
    | with_reducible assumption | intro _
    | (extract_lets +onlyGivenNames -underBinder dd; (subst dd))
    | with_reducible apply serveDmk_kept | with_reducible apply modHalf_kept | split)

theorem listQueue_kept {q : Keep} (hh e : Nat) (l : List Victim) {d : Dev} (h : Kept q d) : Kept q (listQueue hh e l
    d).2 := by
  induction l generalizing d with
  | nil => exact h
  | cons v t ih =>
    unfold listQueue
    split
    · rename_i x snap hx hs
      obtain ⟨d1, h1, h2⟩ := Option.bind_eq_some_iff.mp hx
      exact ih (modHalf_kept _ _ (pick_kept _ (obtain_kept _ _ _ _ h _ h1) _ h2))
    · exact ih (bumpDmk_kept _ _ _ _ _ h)

theorem openQueue_kept {q : Keep} (half : Fin 2) (cmd : DmkCmd) {d : Dev} (h : Kept q d) :
    Kept q (openQueue half cmd d) := by
  unfold openQueue
  repeat' (first
    | with_reducible assumption | intro _
    | (extract_lets +onlyGivenNames -underBinder dd; first
        | ((have hh : Kept q dd := ?_); on_goal 2 => clear_value dd; on_goal 1 => subst dd)
        | ((have hh : Kept q dd.2 := ?_); on_goal 2 => clear_value dd; on_goal 1 => subst dd)
        | (subst dd))
    | with_reducible apply serveDmk_kept | with_reducible apply modHalf_kept | with_reducible apply listQueue_kept)

theorem damaskReservedOp_kept {q : Keep} (half : Fin 2) (cmd : DmkCmd) {d : Dev} (h : Kept q d) :
    Kept q (damaskReservedOp half cmd d) := by
  unfold damaskReservedOp
  repeat' (first
    | with_reducible assumption | intro _ | with_reducible apply serveDmk_kept)

theorem commitAppend_kept {q : Keep} (hh : Nat) (a : PendingAppend) {d : Dev} (h : Kept q d) :
    Kept q (commitAppend hh d a) := by
  unfold commitAppend
  repeat' (first
    | with_reducible assumption | intro _
    | (extract_lets +onlyGivenNames -underBinder dd; (subst dd))
    | with_reducible apply setRef_kept | with_reducible apply setSeq_kept | split)

theorem discardAppend_kept {q : Keep} (hh : Nat) (a : PendingAppend) {d : Dev} (h : Kept q d) :
    Kept q (discardAppend hh d a) := by
  unfold discardAppend
  repeat' (first
    | with_reducible assumption | intro _
    | (extract_lets +onlyGivenNames -underBinder dd; (subst dd))
    | with_reducible apply releaseSnap_kept | with_reducible apply setRef_kept | split)

theorem closeAppends_kept {q : Keep} (hh : Nat) (e : Nat) {d : Dev} (h : Kept q d) :
    Kept q (closeAppends hh e d) := by
  unfold closeAppends
  repeat' (first
    | with_reducible assumption | intro _
    | (extract_lets +onlyGivenNames -underBinder dd; first
        | ((have hh : Kept q dd := ?_); on_goal 2 => clear_value dd; on_goal 1 => subst dd)
        | (subst dd))
    | with_reducible apply modHalf_kept | with_reducible apply commitAppend_kept
    | with_reducible apply discardAppend_kept | with_reducible apply bumpDmk_kept | with_reducible apply Kept.foldl)

theorem closeRebuild_kept {q : Keep} (hh : Nat) (e : Nat) (r : Rebuild) {d : Dev} (h : Kept q d) :
    Kept q (closeRebuild hh e d r) := by
  unfold closeRebuild
  repeat' (first
    | with_reducible assumption | intro _
    | (extract_lets +onlyGivenNames -underBinder dd; first
        | ((have hh : Kept q dd := ?_); on_goal 2 => clear_value dd; on_goal 1 => subst dd)
        | (subst dd))
    | with_reducible apply setSeq_kept | with_reducible apply setRef_kept | with_reducible apply bumpDmk_kept | split)

theorem closeRebuilds_kept {q : Keep} (hh : Nat) (e : Nat) {d : Dev} (h : Kept q d) :
    Kept q (closeRebuilds hh e d) := by
  unfold closeRebuilds
  repeat' (first
    | with_reducible assumption | intro _
    | (extract_lets +onlyGivenNames -underBinder dd; first
        | ((have hh : Kept q dd := ?_); on_goal 2 => clear_value dd; on_goal 1 => subst dd)
        | (subst dd))
    | with_reducible apply modHalf_kept | with_reducible apply closeRebuild_kept | with_reducible apply Kept.foldl)

theorem removeSeq_kept {q : Keep} (hh : Nat) (e : Nat × Sequence) {d : Dev} (h : Kept q d) :
    Kept q (removeSeq hh d e) := by
  unfold removeSeq
  repeat' (first
    | with_reducible assumption | intro _ | with_reducible apply setSeq_kept | with_reducible apply removeEntry_kept
    | with_reducible apply Kept.foldl)

theorem closeHalf_kept {q : Keep} (hh : Nat) (e : Nat) {d : Dev} (h : Kept q d) :
    Kept q (closeHalf hh e d) := by
  unfold closeHalf
  repeat' (first
    | with_reducible assumption | intro _
    | (extract_lets +onlyGivenNames -underBinder dd; first
        | ((have hh : Kept q dd := ?_); on_goal 2 => clear_value dd; on_goal 1 => subst dd)
        | (subst dd))
    | with_reducible apply closeAppends_kept | with_reducible apply closeRebuilds_kept
    | with_reducible apply removeSeq_kept | with_reducible apply modHalf_kept | with_reducible apply reclaim_kept
    | with_reducible apply Kept.foldl)

theorem epochClose_kept {q : Keep} {d : Dev} (h : Kept q d) :
    Kept q (epochClose d) := by
  unfold epochClose
  repeat' (first
    | with_reducible assumption | intro _
    | (extract_lets +onlyGivenNames -underBinder dd; first
        | ((have hh : Kept q dd := ?_); on_goal 2 => clear_value dd; on_goal 1 => subst dd)
        | (subst dd))
    | ((conv => (arg 2; arg 23; skip)); with_reducible refine Kept.mk' ?_ rfl rfl rfl rfl rfl rfl rfl rfl rfl)
    | with_reducible apply closeHalf_kept | split)

theorem losePageOf_kept {q : Keep} (hh : Nat) (slots : List Nat) {d : Dev} (h : Kept q d) :
    Kept q (losePageOf hh slots d) := by
  unfold losePageOf
  repeat' (first
    | with_reducible assumption | intro _ | with_reducible apply losePage_kept
    | with_reducible refine pick_kept _ ?_ _ (by assumption)
    | with_reducible refine pick_kept _ ?_ (_, _) (by assumption) | split)

/-! ### Loading -/

theorem loadPrograms_kept {q : Keep} (ps : Nat → List (Nat × Nat × Program)) (cl : Nat) {d : Dev} (h : Kept q d) :
    Kept q (loadPrograms ps cl d) := by
  unfold loadPrograms
  repeat' (first
    | with_reducible assumption | intro _ | with_reducible apply Dev_setCore_kept | with_reducible apply Kept.foldl)

theorem loadWeights_kept {q : Keep} (img : Image) (p : Tensor → Bool) {d : Dev} (h : Kept q d) :
    Kept q (loadWeights img p d) := by
  unfold loadWeights
  repeat' (first
    | with_reducible assumption | intro _ | with_reducible apply placeWeights_kept | with_reducible apply Kept.foldl
    | with_reducible apply Kept.foldlSnd | split)

theorem loadCluster_kept {q : Keep} (img : Image) (cl : Nat) {d : Dev} (h : Kept q d) :
    Kept q (loadCluster img d cl) := by
  unfold loadCluster
  repeat' (first
    | with_reducible assumption | intro _ | with_reducible apply loadWeights_kept
    | with_reducible apply loadPrograms_kept)

theorem loadBurlapCluster_kept {q : Keep} (img : Image) (cl : Nat) {d : Dev} (h : Kept q d) :
    Kept q (loadBurlapCluster img d cl) := by
  unfold loadBurlapCluster
  repeat' (first
    | with_reducible assumption | intro _ | with_reducible apply placeWeights_kept
    | with_reducible apply loadPrograms_kept)

theorem storeStaged_kept {q : Keep} (img : Image) (x : Nat) (ts : List Tensor) (w : WeightRec) {d : Dev} (h : Kept q
    d) :
    Kept q (storeStaged img x ts d w) := by
  unfold storeStaged
  repeat' (first
    | with_reducible assumption | intro _ | with_reducible apply setBytes_kept | split)

theorem loadMemorySide_kept {q : Keep} (img : Image) (x : Nat) {d : Dev} (h : Kept q d) :
    Kept q (loadMemorySide img x d) := by
  unfold loadMemorySide
  repeat' (first
    | with_reducible assumption | intro _ | with_reducible apply storeStaged_kept | with_reducible apply Kept.foldl
    | with_reducible apply Kept.foldlSnd | split)

theorem loadDie_kept {q : Keep} (img : Image) (x : Nat) {d : Dev} (h : Kept q d) :
    Kept q (loadDie img x d) := by
  unfold loadDie
  repeat' (first
    | with_reducible assumption | intro _ | with_reducible apply loadCluster_kept
    | with_reducible apply loadMemorySide_kept | with_reducible apply Kept.foldl | with_reducible apply Kept.foldlSnd
    | split)

theorem copyOverlay_kept {q : Keep} (img : Image) (m : ModeRec) (p : Nat → Bool) {d : Dev} (h : Kept q d) :
    Kept q (copyOverlay img m p d) := by
  unfold copyOverlay
  repeat' (first
    | with_reducible assumption | intro _
    | (extract_lets +onlyGivenNames -underBinder dd; first
        | ((have hh : Kept q dd := ?_); on_goal 2 => clear_value dd; on_goal 1 => subst dd)
        | (subst dd))
    | with_reducible apply loadPrograms_kept | with_reducible apply setSpan_kept | with_reducible apply Kept.foldl
    | with_reducible apply Kept.foldlSnd | split)

theorem loadPartition_kept {q : Keep} (p : PartRec) {d : Dev} (h : Kept q d) :
    Kept q (loadPartition p d) := by
  unfold loadPartition
  repeat' (first
    | with_reducible assumption | intro _
    | (extract_lets +onlyGivenNames -underBinder dd; first
        | ((have hh : Kept q dd := ?_); on_goal 2 => clear_value dd; on_goal 1 => subst dd)
        | (subst dd))
    | with_reducible apply loadMemorySide_kept | with_reducible apply loadCluster_kept
    | with_reducible apply copyOverlay_kept | with_reducible apply Kept.foldl | with_reducible apply Kept.foldlSnd
    | split)

theorem burlapClusterReloadDone_kept {q : Keep} (cl : Fin 4) {d : Dev} (h : Kept q d) :
    Kept q (burlapClusterReloadDone cl d) := by
  unfold burlapClusterReloadDone
  repeat' (first
    | with_reducible assumption | intro _
    | (extract_lets +onlyGivenNames -underBinder dd; (subst dd))
    | with_reducible apply loadBurlapCluster_kept | with_reducible apply Dev_modCluster_kept | split)

theorem rejoinBurlap_kept {q : Keep} {d : Dev} (h : Kept q d) :
    Kept q (rejoinBurlap d) := by
  unfold rejoinBurlap
  repeat' (first
    | with_reducible assumption | intro _ | with_reducible apply Dev_modCluster_kept
    | with_reducible apply Kept.foldl)

end Sys2Proof.Machine
end

