-- ==== Sys2Proof/Laws/KeptLimits.lean ====
section
/-!
SUPPORT. What the operations of Felt, the resets and health keep (Sys2Proof/Laws/Kept.lean): one lemma for each.
-/

set_option linter.unusedVariables false

namespace Sys2Proof.Machine

open Sys2Proof

/-! ### Felt -/

theorem raiseIod_kept {q : Keep} (code : Nat) {d : Dev} (h : Kept q d) :
    Kept q (raiseIod code d) := by
  unfold raiseIod
  repeat' (first
    | with_reducible assumption | intro _ | with_reducible apply raiseV_kept)

theorem lockstepMismatch_kept {q : Keep} {d : Dev} (h : Kept q d) :
    Kept q (lockstepMismatch d) := by
  unfold lockstepMismatch
  repeat' (first
    | with_reducible assumption | intro _ | with_reducible apply raiseIod_kept)

theorem refclkLoss_kept {q : Keep} {d : Dev} (h : Kept q d) :
    Kept q (refclkLoss d) := by
  unfold refclkLoss
  repeat' (first
    | with_reducible assumption | intro _
    | (extract_lets +onlyGivenNames -underBinder dd; (subst dd))
    | ((conv => (arg 2; arg 23; skip)); with_reducible refine Kept.mk' ?_ rfl rfl rfl rfl rfl rfl rfl rfl rfl)
    | with_reducible apply raiseIod_kept | split)

theorem refclkReturn_kept {q : Keep} {d : Dev} (h : Kept q d) :
    Kept q (refclkReturn d) := by
  unfold refclkReturn
  repeat' (first
    | with_reducible assumption | intro _
    | (extract_lets +onlyGivenNames -underBinder dd; (subst dd))
    | ((conv => (arg 2; arg 23; skip)); with_reducible refine Kept.mk' ?_ rfl rfl rfl rfl rfl rfl rfl rfl rfl)
    | split)

theorem checkInterval_kept {q : Keep} (interval : Nat) (minor : Nat) {d : Dev} (h : Kept q d) :
    Kept q (checkInterval interval minor d) := by
  unfold checkInterval
  repeat' (first
    | with_reducible assumption | intro _
    | (extract_lets +onlyGivenNames -underBinder dd; first
        | ((have hh : Kept q dd := ?_); on_goal 2 => clear_value dd; on_goal 1 => subst dd)
        | (subst dd))
    | ((conv => (arg 2; arg 23; skip)); with_reducible refine Kept.mk' ?_ rfl rfl rfl rfl rfl rfl rfl rfl rfl)
    | with_reducible apply raiseIod_kept | split)

theorem tickIntervalTimeout_kept {q : Keep} (elapsed : Nat) {d : Dev} (h : Kept q d) :
    Kept q (tickIntervalTimeout elapsed d) := by
  unfold tickIntervalTimeout
  repeat' (first
    | with_reducible assumption | intro _
    | (extract_lets +onlyGivenNames -underBinder dd; (subst dd))
    | ((conv => (arg 2; arg 23; skip)); with_reducible refine Kept.mk' ?_ rfl rfl rfl rfl rfl rfl rfl rfl rfl)
    | with_reducible apply raiseIod_kept | split)

theorem fabricError_kept {q : Keep} {d : Dev} (h : Kept q d) :
    Kept q (fabricError d) := by
  unfold fabricError
  repeat' (first
    | with_reducible assumption | intro _ | with_reducible apply raiseIod_kept)

theorem selfCheckPass_kept {q : Keep} {d : Dev} (h : Kept q d) :
    Kept q (selfCheckPass d) := by
  unfold selfCheckPass
  repeat' (first
    | with_reducible assumption | intro _
    | (extract_lets +onlyGivenNames -underBinder dd; (subst dd))
    | ((conv => (arg 2; arg 23; skip)); with_reducible refine Kept.mk' ?_ rfl rfl rfl rfl rfl rfl rfl rfl rfl)
    | with_reducible apply endConditions_kept | split)

theorem clearNotices_kept {q : Keep} (cs : List Condition) {d : Dev} (h : Kept q d) : Kept q (clearNotices cs d) := by
  induction cs generalizing d with
  | nil => exact h
  | cons c t ih => exact ih (sendNotice_kept _ _ _ _ _ _ h)

theorem resumeCountExpiry_kept {q : Keep} {d : Dev} (h : Kept q d) : Kept q (resumeCountExpiry d) := by
  unfold resumeCountExpiry
  extract_lets f cs f'
  split
  · refine clearNotices_kept _ (Kept.mkPins h rfl (fun hp => ?_) rfl rfl rfl rfl)
    have hv : f.classV = true := by simp_all
    have hn : f.safeOk ≠ .running := fun e => by simp [(hp.1 e).2, f] at hv
    split
    · simp [pinsOk, runSafeOk, runPins, f']
    · exact ⟨fun e => absurd e hn, hp.2⟩
  · exact h

theorem countResume_kept {q : Keep} {d : Dev} (h : Kept q d) :
    Kept q (countResume d) := by
  unfold countResume
  repeat' (first
    | with_reducible assumption | intro _
    | (extract_lets +onlyGivenNames -underBinder dd; (subst dd))
    | ((conv => (arg 2; arg 23; skip)); with_reducible refine Kept.mk' ?_ rfl rfl rfl rfl rfl rfl rfl rfl rfl)
    | split)

theorem Dev_setGolden_kept {q : Keep} (cl : Nat) (g : GoldenVisit) {d : Dev} (h : Kept q d) :
    Kept q (Dev.setGolden d cl g) := by
  unfold Dev.setGolden
  repeat' (first
    | with_reducible assumption | intro _
    | (extract_lets +onlyGivenNames -underBinder dd; (subst dd))
    | ((conv => (arg 2; arg 23; skip)); with_reducible refine Kept.mk' ?_ rfl rfl rfl rfl rfl rfl rfl rfl rfl))

theorem startGolden_kept {q : Keep} (cl : Nat) (seg : Nat) (co : Nat) {d : Dev} (h : Kept q d) :
    Kept q (startGolden cl seg d co) := by
  unfold startGolden
  repeat' (first
    | with_reducible assumption | intro _
    | (extract_lets +onlyGivenNames -underBinder dd; (subst dd))
    | with_reducible apply Dev_setCore_kept | with_reducible apply stopCore_kept | split)

theorem startSegment_kept {q : Keep} (cl : Nat) (seg : Nat) {d : Dev} (h : Kept q d) :
    Kept q (startSegment cl seg d) := by
  unfold startSegment
  repeat' (first
    | with_reducible assumption | intro _ | with_reducible apply startGolden_kept | with_reducible apply Kept.foldl)

theorem beginVisit_kept {q : Keep} (cl : Nat) {d : Dev} (h : Kept q d) :
    Kept q (beginVisit d cl) := by
  unfold beginVisit
  repeat' (first
    | with_reducible assumption | intro _
    | (extract_lets +onlyGivenNames -underBinder dd; first
        | ((have hh : Kept q dd := ?_); on_goal 2 => clear_value dd; on_goal 1 => subst dd)
        | (subst dd))
    | with_reducible apply Dev_modCluster_kept | with_reducible apply Dev_setGolden_kept
    | with_reducible apply startSegment_kept | with_reducible apply setBytes_kept | split)

theorem openGolden_kept {q : Keep} (k : Nat) {d : Dev} (h : Kept q d) :
    Kept q (openGolden k d) := by
  unfold openGolden
  repeat' (first
    | with_reducible assumption | intro _
    | (extract_lets +onlyGivenNames -underBinder dd; first
        | ((have hh : Kept q dd := ?_); on_goal 2 => clear_value dd; on_goal 1 => subst dd)
        | (subst dd))
    | ((conv => (arg 2; arg 23; skip)); with_reducible refine Kept.mk' ?_ rfl rfl rfl rfl rfl rfl rfl rfl rfl)
    | with_reducible apply beginVisit_kept | with_reducible apply Kept.foldl)

theorem endVisit_kept {q : Keep} (cl : Nat) (g : GoldenVisit) {d : Dev} (h : Kept q d) :
    Kept q (endVisit cl g d) := by
  unfold endVisit
  repeat' (first
    | with_reducible assumption | intro _ | with_reducible apply stopCore_kept
    | with_reducible apply Dev_modCluster_kept | with_reducible apply Dev_setGolden_kept
    | with_reducible apply Kept.foldl | with_reducible apply Kept.foldlSnd | split)

theorem failCluster_kept {q : Keep} (cl : Nat) {d : Dev} (h : Kept q d) :
    Kept q (failCluster cl d) := by
  unfold failCluster
  repeat' (first
    | with_reducible assumption | intro _
    | (extract_lets +onlyGivenNames -underBinder dd; first
        | ((have hh : Kept q dd := ?_); on_goal 2 => clear_value dd; on_goal 1 => subst dd)
        | (subst dd))
    | ((conv => (arg 2; arg 23; skip)); with_reducible refine Kept.mk' ?_ rfl rfl rfl rfl rfl rfl rfl rfl rfl)
    | with_reducible apply refreshModes_kept | with_reducible apply Dev_modCluster_kept)

theorem failVisit_kept {q : Keep} (cl : Nat) {d : Dev} (h : Kept q d) :
    Kept q (failVisit cl d) := by
  unfold failVisit
  repeat' (first
    | with_reducible assumption | intro _
    | (extract_lets +onlyGivenNames -underBinder dd; first
        | ((have hh : Kept q dd := ?_); on_goal 2 => clear_value dd; on_goal 1 => subst dd)
        | (subst dd))
    | ((conv => (arg 2; arg 23; skip)); with_reducible refine Kept.mk' ?_ rfl rfl rfl rfl rfl rfl rfl rfl rfl)
    | with_reducible apply satEvent_kept | with_reducible apply endVisit_kept | with_reducible apply raiseH_kept
    | with_reducible apply restartPartition_kept | with_reducible apply failCluster_kept
    | with_reducible apply raiseV_kept | split)

theorem goldenSegmentEnd_kept {q : Keep} (cl : Fin 132) (sigs : List (BitVec 64)) (roShift : BitVec 16) {d : Dev} (h
    : Kept q d) :
    Kept q (goldenSegmentEnd cl sigs roShift d) := by
  unfold goldenSegmentEnd
  repeat' (first
    | with_reducible assumption | intro _
    | (extract_lets +onlyGivenNames -underBinder dd; first
        | ((have hh : Kept q dd := ?_); on_goal 2 => clear_value dd; on_goal 1 => subst dd)
        | (subst dd))
    | ((conv => (arg 2; arg 23; skip)); with_reducible refine Kept.mk' ?_ rfl rfl rfl rfl rfl rfl rfl rfl rfl)
    | with_reducible apply endVisit_kept | with_reducible apply startSegment_kept
    | with_reducible apply Dev_setGolden_kept | with_reducible apply endCondition_kept
    | with_reducible apply failVisit_kept | split)

theorem stopVisit_kept {q : Keep} (tick : Nat) (cl : Nat) {d : Dev} (h : Kept q d) :
    Kept q (stopVisit tick d cl) := by
  unfold stopVisit
  repeat' (first
    | with_reducible assumption | intro _
    | (extract_lets +onlyGivenNames -underBinder dd; (subst dd))
    | ((conv => (arg 2; arg 23; skip)); with_reducible refine Kept.mk' ?_ rfl rfl rfl rfl rfl rfl rfl rfl rfl)
    | with_reducible apply endVisit_kept | with_reducible apply satEvent_kept | split)

theorem goldenBudgetTimer_kept {q : Keep} (tick : Nat) (w : Nat) {d : Dev} (h : Kept q d) :
    Kept q (goldenBudgetTimer tick w d) := by
  unfold goldenBudgetTimer
  repeat' (first
    | with_reducible assumption | intro _
    | (extract_lets +onlyGivenNames -underBinder dd; first
        | ((have hh : Kept q dd := ?_); on_goal 2 => clear_value dd; on_goal 1 => subst dd)
        | (subst dd))
    | with_reducible apply stopVisit_kept | with_reducible apply Dev_setWin_kept | with_reducible apply Kept.foldl
    | with_reducible apply Kept.foldlSnd | split)

theorem rejectFrame_kept {q : Keep} (p : Nat) (cause : Nat) {d : Dev} (h : Kept q d) :
    Kept q (rejectFrame p cause d) := by
  unfold rejectFrame
  repeat' (first
    | with_reducible assumption | intro _
    | (extract_lets +onlyGivenNames -underBinder dd; (subst dd))
    | with_reducible apply satEvent_kept | with_reducible apply Dev_setVport_kept)

theorem acceptFrame_kept {q : Keep} (p : Nat) (f : CtrlFrame) {d : Dev} (h : Kept q d) :
    Kept q (acceptFrame p f d) := by
  unfold acceptFrame
  repeat' (first
    | with_reducible assumption | intro _
    | (extract_lets +onlyGivenNames -underBinder dd; first
        | ((have hh : Kept q dd := ?_); on_goal 2 => clear_value dd; on_goal 1 => subst dd)
        | (subst dd))
    | ((conv => (arg 2; arg 23; skip)); with_reducible refine Kept.mk' ?_ rfl rfl rfl rfl rfl rfl rfl rfl rfl)
    | with_reducible apply Dev_setVport_kept)

theorem reqStatus_kept {q : Keep} (st : BitVec 8) {d : Dev} (h : Kept q d) :
    Kept q (reqStatus st d) := by
  unfold reqStatus
  repeat' (first
    | with_reducible assumption | intro _
    | (extract_lets +onlyGivenNames -underBinder dd; first
        | ((have hh : Kept q dd := ?_); on_goal 2 => clear_value dd; on_goal 1 => subst dd)
        | (subst dd))
    | ((conv => (arg 2; arg 23; skip)); with_reducible refine Kept.mk' ?_ rfl rfl rfl rfl rfl rfl rfl rfl rfl)
    | with_reducible apply countModeRefuse_kept | split)

theorem decideMode_kept {q : Keep} (target : Nat) {d : Dev} (h : Kept q d) :
    Kept q (decideMode target d) := by
  unfold decideMode
  repeat' (first
    | with_reducible assumption | intro _
    | (extract_lets +onlyGivenNames -underBinder dd; (subst dd))
    | with_reducible apply reqStatus_kept | with_reducible apply cancelSwitch_kept
    | with_reducible apply startSwitch_kept | split)

theorem takeModeRequest_kept {q : Keep} (p : Nat) (f : CtrlFrame) {d : Dev} (h : Kept q d) :
    Kept q (takeModeRequest p f d) := by
  unfold takeModeRequest
  repeat' (first
    | with_reducible assumption | intro _
    | (extract_lets +onlyGivenNames -underBinder dd; (subst dd))
    | ((conv => (arg 2; arg 23; skip)); with_reducible refine Kept.mk' ?_ rfl rfl rfl rfl rfl rfl rfl rfl rfl)
    | with_reducible apply rejectFrame_kept | with_reducible apply decideMode_kept | split)

theorem takeConsent_kept {q : Keep} (p : Nat) (f : CtrlFrame) {d : Dev} (h : Kept q d) :
    Kept q (takeConsent p f d) := by
  unfold takeConsent
  repeat' (first
    | with_reducible assumption | intro _
    | (extract_lets +onlyGivenNames -underBinder dd; (subst dd))
    | ((conv => (arg 2; arg 23; skip)); with_reducible refine Kept.mk' ?_ rfl rfl rfl rfl rfl rfl rfl rfl rfl)
    | with_reducible apply rejectFrame_kept | split)

theorem takeHeartbeat_kept {q : Keep} (p : Nat) (f : CtrlFrame) {d : Dev} (h : Kept q d) :
    Kept q (takeHeartbeat p f d) := by
  unfold takeHeartbeat
  repeat' (first
    | with_reducible assumption | intro _
    | (extract_lets +onlyGivenNames -underBinder dd; (subst dd))
    | with_reducible apply Dev_setVport_kept)

theorem controllerFrame_kept {q : Keep} (port : Fin 2) (f : CtrlFrame) (take : Nat → CtrlFrame → Dev → Dev) {d : Dev}
    (htake : ∀ n f d, Kept q d → Kept q (take n f d)) (h : Kept q d) :
    Kept q (controllerFrame port f take d) := by
  unfold controllerFrame
  repeat' (first
    | with_reducible assumption | intro _ | with_reducible apply htake | with_reducible apply rejectFrame_kept
    | with_reducible apply acceptFrame_kept | split)

theorem modeRequest_kept {q : Keep} (port : Fin 2) (f : CtrlFrame) {d : Dev} (h : Kept q d) :
    Kept q (modeRequest port f d) := by
  unfold modeRequest
  repeat' (first
    | with_reducible assumption | intro _ | with_reducible apply controllerFrame_kept
    | with_reducible apply takeModeRequest_kept | split)

theorem warmStartConsent_kept {q : Keep} (port : Fin 2) (f : CtrlFrame) {d : Dev} (h : Kept q d) :
    Kept q (warmStartConsent port f d) := by
  unfold warmStartConsent
  repeat' (first
    | with_reducible assumption | intro _ | with_reducible apply controllerFrame_kept
    | with_reducible apply takeConsent_kept | split)

theorem controllerHeartbeat_kept {q : Keep} (port : Fin 2) (f : CtrlFrame) {d : Dev} (h : Kept q d) :
    Kept q (controllerHeartbeat port f d) := by
  unfold controllerHeartbeat
  repeat' (first
    | with_reducible assumption | intro _ | with_reducible apply controllerFrame_kept
    | with_reducible apply takeHeartbeat_kept | split)

theorem unacceptedControllerFrame_kept {q : Keep} (port : Fin 2) (f : CtrlFrame) {d : Dev} (h : Kept q d) :
    Kept q (unacceptedControllerFrame port f d) := by
  unfold unacceptedControllerFrame
  repeat' (first
    | with_reducible assumption | intro _ | with_reducible apply rejectFrame_kept | split)

theorem ctrlSilenceTimeout_kept {q : Keep} {d : Dev} (h : Kept q d) :
    Kept q (ctrlSilenceTimeout d) := by
  unfold ctrlSilenceTimeout
  repeat' (first
    | with_reducible assumption | intro _
    | (extract_lets +onlyGivenNames -underBinder dd; first
        | ((have hh : Kept q dd := ?_); on_goal 2 => clear_value dd; on_goal 1 => subst dd)
        | (subst dd))
    | ((conv => (arg 2; arg 23; skip)); with_reducible refine Kept.mk' ?_ rfl rfl rfl rfl rfl rfl rfl rfl rfl)
    | with_reducible apply cancelSwitch_kept | split)

theorem consentExpiry_kept {q : Keep} {d : Dev} (h : Kept q d) :
    Kept q (consentExpiry d) := by
  unfold consentExpiry
  repeat' (first
    | with_reducible assumption | intro _
    | (extract_lets +onlyGivenNames -underBinder dd; (subst dd))
    | ((conv => (arg 2; arg 23; skip)); with_reducible refine Kept.mk' ?_ rfl rfl rfl rfl rfl rfl rfl rfl rfl)
    | split)

theorem vlinkFrameDone_kept {q : Keep} (port : Fin 2) {d : Dev} (h : Kept q d) :
    Kept q (vlinkFrameDone port d) := by
  unfold vlinkFrameDone
  repeat' (first
    | with_reducible assumption | intro _
    | (extract_lets +onlyGivenNames -underBinder dd; (subst dd))
    | with_reducible apply startFrame_kept | with_reducible apply Dev_setVport_kept | split)

theorem vlinkLinkDown_kept {q : Keep} (port : Fin 2) {d : Dev} (h : Kept q d) :
    Kept q (vlinkLinkDown port d) := by
  unfold vlinkLinkDown
  repeat' (first
    | with_reducible assumption | intro _
    | (extract_lets +onlyGivenNames -underBinder dd; first
        | ((have hh : Kept q dd := ?_); on_goal 2 => clear_value dd; on_goal 1 => subst dd)
        | (subst dd))
    | ((conv => (arg 2; arg 23; skip)); with_reducible refine Kept.mk' ?_ rfl rfl rfl rfl rfl rfl rfl rfl rfl)
    | with_reducible apply Dev_setVport_kept | with_reducible apply satEvent_kept
    | with_reducible apply conditionEvent_kept | with_reducible apply loseVehicleTime_kept
    | with_reducible apply raiseIod_kept | split)

theorem vlinkLinkUp_kept {q : Keep} (port : Fin 2) {d : Dev} (h : Kept q d) :
    Kept q (vlinkLinkUp port d) := by
  unfold vlinkLinkUp
  repeat' (first
    | with_reducible assumption | intro _
    | (extract_lets +onlyGivenNames -underBinder dd; (subst dd))
    | with_reducible apply endConditions_kept | with_reducible apply Dev_setVport_kept | split)

/-! ### Reset -/

theorem pulseNvReset_kept {q : Keep} {d : Dev} (h : Kept q d) :
    Kept q (pulseNvReset d) := by
  unfold pulseNvReset
  repeat' (first
    | with_reducible assumption | intro _ | with_reducible apply emit_kept)

theorem fullReset_kept {q : Keep} (hint : Option Slot) {d : Dev} (hq : q.pos = none) (hm : q.plan = none) (h : Kept q
    d) : Kept q (fullReset hint d) := by
  unfold fullReset
  extract_lets b phase
  exact pulseNvReset_kept (Kept.fresh hq hm h rfl rfl)

theorem railOutAtRelease_kept {q : Keep} (x : Nat) {d : Dev} (h : Kept q d) : Kept q (railOutAtRelease d x) :=
  Kept.mk' h rfl rfl rfl rfl rfl rfl rfl rfl rfl

theorem powerOnReset_kept {q : Keep} (strapNvProfile strapTest0 strapTest1 : Bool) (vddOut : List (Fin 4)) {d : Dev}
    (hq : q.pos = none) (hm : q.plan = none)
    (h : Kept q d) : Kept q (powerOnReset strapNvProfile strapTest0 strapTest1 vddOut d) := by
  unfold powerOnReset
  extract_lets test phase fresh fresh'
  have hf : Kept q fresh := Kept.fresh hq hm h rfl rfl
  refine Kept.foldl (fun d x hd => railOutAtRelease_kept _ hd) ?_
  subst fresh'
  split
  · exact pulseNvReset_kept hf
  · exact hf

theorem deviceReset_kept {q : Keep} {d : Dev} (hq : q.pos = none) (hm : q.plan = none) (h : Kept q d) :
    Kept q (deviceReset d) := by
  unfold deviceReset
  repeat' (first
    | with_reducible assumption | intro _ | with_reducible apply fullReset_kept | split)

theorem porstNAsserted_kept {q : Keep} {d : Dev} (h : Kept q d) : Kept q (porstNAsserted d) := by
  unfold porstNAsserted
  extract_lets d'
  have hd : Kept q d' := by
    subst d'
    split
    · exact pulseNvReset_kept h
    · exact h
  exact Kept.mkPins hd rfl (fun _ => ⟨fun e => by simp at e, fun _ => ⟨rfl, rfl⟩⟩) rfl rfl rfl rfl

theorem healthDeadline_kept {q : Keep} {d : Dev} (hq : q.pos = none) (hm : q.plan = none) (h : Kept q d) :
    Kept q (healthDeadline d) := by
  unfold healthDeadline
  repeat' (first
    | with_reducible assumption | intro _ | with_reducible apply fullReset_kept | split)

/-! ### Health -/

theorem excludeSensor_kept {q : Keep} (x : Nat) (n : Nat) {d : Dev} (h : Kept q d) :
    Kept q (excludeSensor x n d) := by
  unfold excludeSensor
  repeat' (first
    | with_reducible assumption | intro _
    | (extract_lets +onlyGivenNames -underBinder dd; (subst dd))
    | with_reducible apply healthEvent_kept | with_reducible apply Dev_setThermal_kept)

theorem thermalEvent_kept {q : Keep} (x : Nat) (th : Nat) (tj : Int) (crossed : Bool) {d : Dev} (h : Kept q d) :
    Kept q (thermalEvent x th tj crossed d) := by
  unfold thermalEvent
  repeat' (first
    | with_reducible assumption | intro _ | with_reducible apply healthEvent_kept)

theorem missOnDie_kept {q : Keep} (x : Nat) {d : Dev} (h : Kept q d) :
    Kept q (missOnDie x d) := by
  unfold missOnDie
  repeat' (first
    | with_reducible assumption | intro _
    | (extract_lets +onlyGivenNames -underBinder dd; (subst dd))
    | with_reducible apply miss_kept | with_reducible apply Kept.foldl | with_reducible apply Kept.foldlSnd | split)

theorem halveClock_kept {q : Keep} (x : Nat) (temp : Bool) {d : Dev} (h : Kept q d) :
    Kept q (halveClock x temp d) := by
  unfold halveClock
  repeat' (first
    | with_reducible assumption | intro _
    | (extract_lets +onlyGivenNames -underBinder dd; first
        | ((have hh : Kept q dd := ?_); on_goal 2 => clear_value dd; on_goal 1 => subst dd)
        | (subst dd))
    | ((conv => (arg 2; arg 23; skip)); with_reducible refine Kept.mk' ?_ rfl rfl rfl rfl rfl rfl rfl rfl rfl)
    | with_reducible apply Dev_setThermal_kept | with_reducible apply missOnDie_kept
    | with_reducible apply satEvent_kept | split)

theorem removePower_kept {q : Keep} (x : Nat) (temp : Bool) {d : Dev} (h : Kept q d) :
    Kept q (removePower x temp d) := by
  unfold removePower
  repeat' (first
    | with_reducible assumption | intro _
    | (extract_lets +onlyGivenNames -underBinder dd; first
        | ((have hh : Kept q dd := ?_); on_goal 2 => clear_value dd; on_goal 1 => subst dd)
        | (subst dd))
    | ((conv => (arg 2; arg 23; skip)); with_reducible refine Kept.mk' ?_ rfl rfl rfl rfl rfl rfl rfl rfl rfl)
    | with_reducible apply Dev_setThermal_kept | with_reducible apply satEvent_kept
    | with_reducible apply missOnDie_kept | with_reducible apply Dev_setDie_kept
    | with_reducible apply setUnitState_kept | with_reducible apply resetCluster_kept
    | with_reducible apply emptyMemorySide_kept | with_reducible apply Kept.foldl
    | with_reducible apply Kept.foldlSnd | split)

theorem restoreDie_kept {q : Keep} (x : Nat) {d : Dev} (h : Kept q d) :
    Kept q (restoreDie x d) := by
  unfold restoreDie
  repeat' (first
    | with_reducible assumption | intro _
    | (extract_lets +onlyGivenNames -underBinder dd; first
        | ((have hh : Kept q dd := ?_); on_goal 2 => clear_value dd; on_goal 1 => subst dd)
        | (subst dd))
    | with_reducible apply Dev_setDie_kept | with_reducible apply satEvent_kept | split)

theorem actOnDie_kept {q : Keep} (x : Nat) (tj : Int) {d : Dev} (h : Kept q d) :
    Kept q (actOnDie x tj d) := by
  unfold actOnDie
  repeat' (first
    | with_reducible assumption | intro _
    | (extract_lets +onlyGivenNames -underBinder dd; first
        | ((have hh : Kept q dd := ?_); on_goal 2 => clear_value dd; on_goal 1 => subst dd)
        | (subst dd))
    | with_reducible apply Dev_setThermal_kept | with_reducible apply removePower_kept
    | with_reducible apply raiseH_kept | with_reducible apply thermalEvent_kept
    | with_reducible apply halveClock_kept | split)

theorem thermTrip_kept {q : Keep} {d : Dev} (hq : q.pos = none) (hm : q.plan = none) (h : Kept q d) :
    Kept q (thermTrip d) := by
  unfold thermTrip
  repeat' (first
    | with_reducible assumption | intro _
    | (extract_lets +onlyGivenNames -underBinder dd; first
        | ((have hh : Kept q dd := ?_); on_goal 2 => clear_value dd; on_goal 1 => subst dd)
        | (subst dd))
    | ((conv => (arg 2; arg 23; skip)); with_reducible refine Kept.mk' ?_ rfl rfl rfl rfl rfl rfl rfl rfl rfl)
    | with_reducible apply emit_kept | with_reducible apply fullReset_kept)

theorem actOnIod_kept {q : Keep} (tj : Int) {d : Dev} (hq : q.pos = none) (hm : q.plan = none) (h : Kept q d) :
    Kept q (actOnIod tj d) := by
  unfold actOnIod
  repeat' (first
    | with_reducible assumption | intro _
    | (extract_lets +onlyGivenNames -underBinder dd; first
        | ((have hh : Kept q dd := ?_); on_goal 2 => clear_value dd; on_goal 1 => subst dd)
        | (subst dd))
    | with_reducible apply raiseV_kept | with_reducible apply thermalEvent_kept
    | with_reducible apply Dev_setThermal_kept | with_reducible apply endCondition_kept
    | with_reducible apply thermTrip_kept | split)

theorem noteTj_kept {q : Keep} (x : Nat) (tj : Int) {d : Dev} (h : Kept q d) :
    Kept q (noteTj x tj d) := by
  unfold noteTj
  repeat' (first
    | with_reducible assumption | intro _
    | (extract_lets +onlyGivenNames -underBinder dd; first
        | ((have hh : Kept q dd := ?_); on_goal 2 => clear_value dd; on_goal 1 => subst dd)
        | (subst dd))
    | ((conv => (arg 2; arg 23; skip)); with_reducible refine Kept.mk' ?_ rfl rfl rfl rfl rfl rfl rfl rfl rfl)
    | with_reducible apply Dev_setThermal_kept)

theorem noSensors_kept {q : Keep} (x : Nat) {d : Dev} (h : Kept q d) :
    Kept q (noSensors x d) := by
  unfold noSensors
  repeat' (first
    | with_reducible assumption | intro _
    | (extract_lets +onlyGivenNames -underBinder dd; first
        | ((have hh : Kept q dd := ?_); on_goal 2 => clear_value dd; on_goal 1 => subst dd)
        | (subst dd))
    | with_reducible apply Dev_setThermal_kept | with_reducible apply actOnDie_kept
    | with_reducible apply raiseV_kept | split)

theorem tempSample_kept {q : Keep} (die : Die) (sensors : List Int) {d : Dev} (hq : q.pos = none) (hm : q.plan =
    none) (h : Kept q d) :
    Kept q (tempSample die sensors d) := by
  unfold tempSample
  repeat' (first
    | with_reducible assumption | intro _
    | (extract_lets +onlyGivenNames -underBinder dd; first
        | ((have hh : Kept q dd := ?_); on_goal 2 => clear_value dd; on_goal 1 => subst dd)
        | (subst dd))
    | with_reducible apply excludeSensor_kept | with_reducible apply noteTj_kept | with_reducible apply actOnDie_kept
    | with_reducible apply actOnIod_kept | with_reducible apply noSensors_kept | with_reducible apply Kept.foldl
    | with_reducible apply Kept.foldlSnd | split)

theorem thermalRestoreTimer_kept {q : Keep} (die : Die) {d : Dev} (h : Kept q d) :
    Kept q (thermalRestoreTimer die d) := by
  unfold thermalRestoreTimer
  repeat' (first
    | with_reducible assumption | intro _
    | (extract_lets +onlyGivenNames -underBinder dd; first
        | ((have hh : Kept q dd := ?_); on_goal 2 => clear_value dd; on_goal 1 => subst dd)
        | (subst dd))
    | with_reducible apply thermalEvent_kept | with_reducible apply Dev_setThermal_kept
    | with_reducible apply restoreDie_kept | split)

theorem restoreClock_kept {q : Keep} (x : Nat) {d : Dev} (h : Kept q d) :
    Kept q (restoreClock d x) := by
  unfold restoreClock
  repeat' (first
    | with_reducible assumption | intro _
    | (extract_lets +onlyGivenNames -underBinder dd; (subst dd))
    | with_reducible apply Dev_setThermal_kept | split)

theorem restoreClocks_kept {q : Keep} {d : Dev} (h : Kept q d) :
    Kept q (restoreClocks d) := by
  unfold restoreClocks
  repeat' (first
    | with_reducible assumption | intro _ | with_reducible apply restoreClock_kept | with_reducible apply Kept.foldl)

theorem Dev_setRail_kept {q : Keep} (r : Nat) (x : RailState) {d : Dev} (h : Kept q d) :
    Kept q (Dev.setRail d r x) := by
  unfold Dev.setRail
  repeat' (first
    | with_reducible assumption | intro _
    | (extract_lets +onlyGivenNames -underBinder dd; (subst dd))
    | ((conv => (arg 2; arg 23; skip)); with_reducible refine Kept.mk' ?_ rfl rfl rfl rfl rfl rfl rfl rfl rfl))

theorem railEvent_kept {q : Keep} (r : Nat) (mv : Nat) (current : Nat) {d : Dev} (h : Kept q d) :
    Kept q (railEvent r mv current d) := by
  unfold railEvent
  repeat' (first
    | with_reducible assumption | intro _ | with_reducible apply healthEvent_kept)

theorem railExcursion_kept {q : Keep} (rail : Fin 14) (mv : Nat) (current : Nat) {d : Dev} (h : Kept q d) :
    Kept q (railExcursion rail mv current d) := by
  unfold railExcursion
  repeat' (first
    | with_reducible assumption | intro _
    | (extract_lets +onlyGivenNames -underBinder dd; first
        | ((have hh : Kept q dd := ?_); on_goal 2 => clear_value dd; on_goal 1 => subst dd)
        | (subst dd))
    | ((conv => (arg 2; arg 23; skip)); with_reducible refine Kept.mk' ?_ rfl rfl rfl rfl rfl rfl rfl rfl rfl)
    | with_reducible apply satEvent_kept | with_reducible apply railEvent_kept
    | with_reducible apply Dev_setRail_kept | with_reducible apply removePower_kept
    | with_reducible apply raiseH_kept | with_reducible apply raiseV_kept | split)

theorem railOvercurrent_kept {q : Keep} (rail : Fin 4) (current : Nat) {d : Dev} (h : Kept q d) :
    Kept q (railOvercurrent rail current d) := by
  unfold railOvercurrent
  repeat' (first
    | with_reducible assumption | intro _
    | (extract_lets +onlyGivenNames -underBinder dd; (subst dd))
    | with_reducible apply Dev_setThermal_kept | with_reducible apply halveClock_kept
    | with_reducible apply raiseH_kept | with_reducible apply Dev_setRail_kept | split)

theorem restoreRail_kept {q : Keep} (r : Nat) (mv : Nat) (current : Nat) {d : Dev} (h : Kept q d) :
    Kept q (restoreRail r mv current d) := by
  unfold restoreRail
  repeat' (first
    | with_reducible assumption | intro _
    | (extract_lets +onlyGivenNames -underBinder dd; first
        | ((have hh : Kept q dd := ?_); on_goal 2 => clear_value dd; on_goal 1 => subst dd)
        | (subst dd))
    | with_reducible apply railEvent_kept | with_reducible apply Dev_setRail_kept
    | with_reducible apply Dev_setThermal_kept | with_reducible apply restoreDie_kept
    | with_reducible apply endCondition_kept | split)

theorem railRestoreTimer_kept {q : Keep} (rail : Fin 14) (ofCurrent : Bool) (mv : Nat) (current : Nat) {d : Dev} (h :
    Kept q d) :
    Kept q (railRestoreTimer rail ofCurrent mv current d) := by
  unfold railRestoreTimer
  repeat' (first
    | with_reducible assumption | intro _
    | (extract_lets +onlyGivenNames -underBinder dd; (subst dd))
    | with_reducible apply Dev_setRail_kept | with_reducible apply Dev_setThermal_kept
    | with_reducible apply restoreRail_kept | split)

theorem vddXUndervoltageTimer_kept {q : Keep} {d : Dev} (hq : q.pos = none) (hm : q.plan = none) (h : Kept q d) :
    Kept q (vddXUndervoltageTimer d) := by
  unfold vddXUndervoltageTimer
  repeat' (first
    | with_reducible assumption | intro _ | with_reducible apply fullReset_kept | split)

theorem memoryRailResetTimer_kept {q : Keep} {d : Dev} (hq : q.pos = none) (hm : q.plan = none) (h : Kept q d) :
    Kept q (memoryRailResetTimer d) := by
  unfold memoryRailResetTimer
  repeat' (first
    | with_reducible assumption | intro _
    | (extract_lets +onlyGivenNames -underBinder dd; (subst dd))
    | with_reducible apply fullReset_kept | split)

theorem limitWrite_kept {q : Keep} (limit : Limit) (value : Nat) {d : Dev} (h : Kept q d) :
    Kept q (limitWrite limit value d) := by
  unfold limitWrite
  repeat' (first
    | with_reducible assumption | intro _
    | (extract_lets +onlyGivenNames -underBinder dd; (subst dd))
    | with_reducible apply Dev_setThermal_kept | with_reducible apply Dev_setRail_kept
    | with_reducible apply healthEvent_kept | with_reducible apply logWrite_kept | split)

theorem emEstimatorSample_kept {q : Keep} (rail : Fin 14) (current : Nat) (temp : Int) {d : Dev} (h : Kept q d) :
    Kept q (emEstimatorSample rail current temp d) := by
  unfold emEstimatorSample
  repeat' (first
    | with_reducible assumption | intro _
    | (extract_lets +onlyGivenNames -underBinder dd; (subst dd))
    | with_reducible apply Dev_setRail_kept)

theorem eyeMarginSample_kept {q : Keep} (link : EyeLink) (margin : Nat) {d : Dev} (h : Kept q d) :
    Kept q (eyeMarginSample link margin d) := by
  unfold eyeMarginSample
  repeat' (first
    | with_reducible assumption | intro _
    | (extract_lets +onlyGivenNames -underBinder dd; first
        | ((have hh : Kept q dd := ?_); on_goal 2 => clear_value dd; on_goal 1 => subst dd)
        | (subst dd))
    | ((conv => (arg 2; arg 23; skip)); with_reducible refine Kept.mk' ?_ rfl rfl rfl rfl rfl rfl rfl rfl rfl)
    | with_reducible apply Dev_setCamera_kept | with_reducible apply Dev_setLidar_kept
    | with_reducible apply Dev_setVport_kept | split)

theorem canaryFailure_kept {q : Keep} (cl : Fin 132) {d : Dev} (h : Kept q d) :
    Kept q (canaryFailure cl d) := by
  unfold canaryFailure
  repeat' (first
    | with_reducible assumption | intro _
    | (extract_lets +onlyGivenNames -underBinder dd; (subst dd))
    | ((conv => (arg 2; arg 23; skip)); with_reducible refine Kept.mk' ?_ rfl rfl rfl rfl rfl rfl rfl rfl rfl))

theorem writeWear_kept {q : Keep} {d : Dev} (h : Kept q d) :
    Kept q (writeWear d) := by
  unfold writeWear
  repeat' (first
    | with_reducible assumption | intro _
    | (extract_lets +onlyGivenNames -underBinder dd; (subst dd))
    | ((conv => (arg 2; arg 23; skip)); with_reducible refine Kept.mk' ?_ rfl rfl rfl rfl rfl rfl rfl rfl rfl)
    | with_reducible apply emit_kept | split)

theorem wearRecordWrite_kept {q : Keep} {d : Dev} (h : Kept q d) :
    Kept q (wearRecordWrite d) := by
  unfold wearRecordWrite
  repeat' (first
    | with_reducible assumption | intro _ | with_reducible apply writeWear_kept | split)

theorem restoreWear_kept {q : Keep} {d : Dev} (h : Kept q d) :
    Kept q (restoreWear d) := by
  unfold restoreWear
  repeat' (first
    | with_reducible assumption | intro _
    | (extract_lets +onlyGivenNames -underBinder dd; (subst dd))
    | ((conv => (arg 2; arg 23; skip)); with_reducible refine Kept.mk' ?_ rfl rfl rfl rfl rfl rfl rfl rfl rfl)
    | with_reducible apply healthEvent_kept | with_reducible apply Kept.foldl | with_reducible apply Kept.foldlSnd
    | split)

theorem trend_kept {q : Keep} (die : Nat) (unit : Nat) (what : Nat) (value : Nat) {d : Dev} (h : Kept q d) :
    Kept q (trend die unit what value d) := by
  unfold trend
  repeat' (first
    | with_reducible assumption | intro _ | with_reducible apply healthEvent_kept)

theorem trends_kept {q : Keep} (ddrM0 : Nat) (ddrM1 : Nat) {d : Dev} (h : Kept q d) :
    Kept q (trends ddrM0 ddrM1 d) := by
  unfold trends
  repeat' (first
    | with_reducible assumption | intro _
    | (extract_lets +onlyGivenNames -underBinder dd; first
        | ((have hh : Kept q dd := ?_); on_goal 2 => clear_value dd; on_goal 1 => subst dd)
        | (subst dd))
    | ((conv => (arg 2; arg 23; skip)); with_reducible refine Kept.mk' ?_ rfl rfl rfl rfl rfl rfl rfl rfl rfl)
    | with_reducible apply trend_kept | with_reducible apply Kept.foldl | with_reducible apply Kept.foldlSnd | split)

theorem lifePrediction_kept {q : Keep} (ddrM0 : Nat) (ddrM1 : Nat) {d : Dev} (h : Kept q d) :
    Kept q (lifePrediction ddrM0 ddrM1 d) := by
  unfold lifePrediction
  repeat' (first
    | with_reducible assumption | intro _
    | (extract_lets +onlyGivenNames -underBinder dd; first
        | ((have hh : Kept q dd := ?_); on_goal 2 => clear_value dd; on_goal 1 => subst dd)
        | (subst dd))
    | ((conv => (arg 2; arg 23; skip)); with_reducible refine Kept.mk' ?_ rfl rfl rfl rfl rfl rfl rfl rfl rfl)
    | with_reducible apply satEvent_kept | with_reducible apply healthEvent_kept | with_reducible apply trends_kept
    | with_reducible apply writeWear_kept | split)

end Sys2Proof.Machine
end

