-- ==== Sys2Proof/Laws/KeptSensors.lean ====
section
/-!
SUPPORT. What the operations of the sensor ports keep (Sys2Proof/Laws/Kept.lean): one lemma for each.
-/

set_option linter.unusedVariables false

namespace Sys2Proof.Machine

open Sys2Proof

/-! ### Percale -/

theorem writeLevel_kept {q : Keep} (r : RawFrame) (rows : List Nat) (t : Tensor) (level : Nat) (first : Nat) (count :
    Nat) {d : Dev} (h : Kept q d) :
    Kept q (writeLevel r rows t level first count d) := by
  unfold writeLevel
  repeat' (first
    | with_reducible assumption | intro _ | with_reducible apply setElem_kept | with_reducible apply Kept.foldl)

/-! ### Camera -/

theorem modCamera_kept {q : Keep} (c : Nat) (f : CameraState → CameraState) {d : Dev} (h : Kept q d) :
    Kept q (modCamera c f d) := by
  unfold modCamera
  repeat' (first
    | with_reducible assumption | intro _ | with_reducible apply Dev_setCamera_kept)

theorem armTriggers_kept {q : Keep} (k : Nat) (e : Nat × StreamEntry) {d : Dev} (h : Kept q d) :
    Kept q (armTriggers k d e) := by
  unfold armTriggers
  repeat' (first
    | with_reducible assumption | intro _
    | (extract_lets +onlyGivenNames -underBinder dd; (subst dd))
    | with_reducible apply modCamera_kept | split)

theorem armAll_kept {q : Keep} (k : Nat) {d : Dev} (h : Kept q d) :
    Kept q (armAll k d) := by
  unfold armAll
  repeat' (first
    | with_reducible assumption | intro _ | with_reducible apply armTriggers_kept | with_reducible apply Kept.foldl)

theorem triggerSend_kept {q : Keep} (port : Fin 16) {d : Dev} (h : Kept q d) :
    Kept q (triggerSend port d) := by
  unfold triggerSend
  repeat' (first
    | with_reducible assumption | intro _
    | (extract_lets +onlyGivenNames -underBinder dd; first
        | ((have hh : Kept q dd := ?_); on_goal 2 => clear_value dd; on_goal 1 => subst dd)
        | (subst dd))
    | with_reducible apply modCamera_kept | with_reducible apply bump_kept | with_reducible apply emit_kept | split)

theorem beginInit_kept {q : Keep} (c : Nat) (r : CameraPort) {d : Dev} (h : Kept q d) :
    Kept q (beginInit c r d) := by
  unfold beginInit
  repeat' (first
    | with_reducible assumption | intro _ | with_reducible apply emit_kept | with_reducible apply modCamera_kept)

theorem beginTraining_kept {q : Keep} (c : Nat) {d : Dev} (h : Kept q d) :
    Kept q (beginTraining c d) := by
  unfold beginTraining
  repeat' (first
    | with_reducible assumption | intro _ | with_reducible apply modCamera_kept)

theorem enableCamera_kept {q : Keep} (e : Nat × CameraPort) {d : Dev} (h : Kept q d) :
    Kept q (enableCamera d e) := by
  unfold enableCamera
  repeat' (first
    | with_reducible assumption | intro _ | with_reducible apply beginTraining_kept
    | with_reducible apply modCamera_kept)

theorem trainingSuccess_kept {q : Keep} (port : Fin 16) {d : Dev} (h : Kept q d) :
    Kept q (trainingSuccess port d) := by
  unfold trainingSuccess
  repeat' (first
    | with_reducible assumption | intro _ | with_reducible apply beginInit_kept | split)

theorem goDown_kept {q : Keep} (c : Nat) {d : Dev} (h : Kept q d) :
    Kept q (goDown c d) := by
  unfold goDown
  repeat' (first
    | with_reducible assumption | intro _ | with_reducible apply modCamera_kept)

theorem trainingTimeout_kept {q : Keep} (port : Fin 16) {d : Dev} (h : Kept q d) :
    Kept q (trainingTimeout port d) := by
  unfold trainingTimeout
  repeat' (first
    | with_reducible assumption | intro _
    | (extract_lets +onlyGivenNames -underBinder dd; first
        | ((have hh : Kept q dd := ?_); on_goal 2 => clear_value dd; on_goal 1 => subst dd)
        | (subst dd))
    | with_reducible apply bump_kept | with_reducible apply modCamera_kept | with_reducible apply goDown_kept
    | with_reducible apply conditionEvent_kept | split)

theorem retrainIntervalExpiry_kept {q : Keep} (port : Fin 16) {d : Dev} (h : Kept q d) :
    Kept q (retrainIntervalExpiry port d) := by
  unfold retrainIntervalExpiry
  repeat' (first
    | with_reducible assumption | intro _
    | (extract_lets +onlyGivenNames -underBinder dd; (subst dd))
    | with_reducible apply beginTraining_kept | split)

theorem dropBands_kept {q : Keep} (c : Nat) (n : Nat) {d : Dev} (h : Kept q d) :
    Kept q (dropBands c n d) := by
  unfold dropBands
  repeat' (first
    | with_reducible assumption | intro _ | with_reducible apply bump_kept | with_reducible apply modCamera_kept
    | split)

theorem linkLockLoss_kept {q : Keep} (port : Fin 16) {d : Dev} (h : Kept q d) :
    Kept q (linkLockLoss port d) := by
  unfold linkLockLoss
  repeat' (first
    | with_reducible assumption | intro _
    | (extract_lets +onlyGivenNames -underBinder dd; first
        | ((have hh : Kept q dd := ?_); on_goal 2 => clear_value dd; on_goal 1 => subst dd)
        | (subst dd))
    | with_reducible apply beginTraining_kept | with_reducible apply dropBands_kept | with_reducible apply bump_kept
    | with_reducible apply modCamera_kept | with_reducible apply conditionEvent_kept | split)

theorem absenceTimeout_kept {q : Keep} (stream : Fin 48) {d : Dev} (h : Kept q d) :
    Kept q (absenceTimeout stream d) := by
  unfold absenceTimeout
  repeat' (first
    | with_reducible assumption | intro _
    | (extract_lets +onlyGivenNames -underBinder dd; first
        | ((have hh : Kept q dd := ?_); on_goal 2 => clear_value dd; on_goal 1 => subst dd)
        | (subst dd))
    | with_reducible apply enterReacquiring_kept | with_reducible apply beginInit_kept | split)

theorem startExposure_kept {q : Keep} (c : Nat) (r : CameraPort) (j : Nat) {d : Dev} (h : Kept q d) :
    Kept q (startExposure c r j d) := by
  unfold startExposure
  repeat' (first
    | with_reducible assumption | intro _
    | (extract_lets +onlyGivenNames -underBinder dd; (subst dd))
    | with_reducible apply emit_kept | with_reducible apply modCamera_kept)

theorem goUp_kept {q : Keep} (c : Nat) {d : Dev} (h : Kept q d) :
    Kept q (goUp c d) := by
  unfold goUp
  repeat' (first
    | with_reducible assumption | intro _ | with_reducible apply modCamera_kept)

theorem startEntry_kept {q : Keep} (c : Nat) (r : CameraPort) (i : Nat) {d : Dev} (h : Kept q d) :
    Kept q (startEntry c r i d) := by
  unfold startEntry
  repeat' (first
    | with_reducible assumption | intro _
    | (extract_lets +onlyGivenNames -underBinder dd; first
        | ((have hh : Kept q dd := ?_); on_goal 2 => clear_value dd; on_goal 1 => subst dd)
        | (subst dd))
    | with_reducible apply goUp_kept | with_reducible apply modCamera_kept | with_reducible apply emit_kept | split)

theorem failInit_kept {q : Keep} (c : Nat) {d : Dev} (h : Kept q d) :
    Kept q (failInit c d) := by
  unfold failInit
  repeat' (first
    | with_reducible assumption | intro _
    | (extract_lets +onlyGivenNames -underBinder dd; first
        | ((have hh : Kept q dd := ?_); on_goal 2 => clear_value dd; on_goal 1 => subst dd)
        | (subst dd))
    | with_reducible apply bump_kept | with_reducible apply modCamera_kept | with_reducible apply goDown_kept
    | with_reducible apply conditionEvent_kept | split)

theorem cciError_kept {q : Keep} (c : Nat) (r : CameraPort) {d : Dev} (h : Kept q d) :
    Kept q (cciError c r d) := by
  unfold cciError
  repeat' (first
    | with_reducible assumption | intro _
    | (extract_lets +onlyGivenNames -underBinder dd; first
        | ((have hh : Kept q dd := ?_); on_goal 2 => clear_value dd; on_goal 1 => subst dd)
        | (subst dd))
    | with_reducible apply bump_kept | with_reducible apply modCamera_kept | with_reducible apply conditionEvent_kept
    | with_reducible apply startEntry_kept | with_reducible apply failInit_kept
    | with_reducible apply startExposure_kept | split)

theorem endExposure_kept {q : Keep} (c : Nat) (r : CameraPort) {d : Dev} (h : Kept q d) :
    Kept q (endExposure c r d) := by
  unfold endExposure
  repeat' (first
    | with_reducible assumption | intro _
    | (extract_lets +onlyGivenNames -underBinder dd; first
        | ((have hh : Kept q dd := ?_); on_goal 2 => clear_value dd; on_goal 1 => subst dd)
        | (subst dd))
    | with_reducible apply goUp_kept | with_reducible apply modCamera_kept | with_reducible apply startExposure_kept
    | split)

theorem cciAck_kept {q : Keep} (port : Fin 16) (data : Nat) {d : Dev} (h : Kept q d) :
    Kept q (cciAck port data d) := by
  unfold cciAck
  repeat' (first
    | with_reducible assumption | intro _
    | (extract_lets +onlyGivenNames -underBinder dd; (subst dd))
    | with_reducible apply modCamera_kept | with_reducible apply startExposure_kept
    | with_reducible apply startEntry_kept | with_reducible apply cciError_kept
    | with_reducible apply endExposure_kept | split)

theorem cciTimeout_kept {q : Keep} (port : Fin 16) {d : Dev} (h : Kept q d) :
    Kept q (cciTimeout port d) := by
  unfold cciTimeout
  repeat' (first
    | with_reducible assumption | intro _
    | (extract_lets +onlyGivenNames -underBinder dd; (subst dd))
    | with_reducible apply cciError_kept | split)

theorem initWaitExpiry_kept {q : Keep} (port : Fin 16) {d : Dev} (h : Kept q d) :
    Kept q (initWaitExpiry port d) := by
  unfold initWaitExpiry
  repeat' (first
    | with_reducible assumption | intro _
    | (extract_lets +onlyGivenNames -underBinder dd; (subst dd))
    | with_reducible apply startEntry_kept | split)

theorem dropPacket_kept {q : Keep} (c : Nat) {d : Dev} (h : Kept q d) :
    Kept q (dropPacket c d) := by
  unfold dropPacket
  repeat' (first
    | with_reducible assumption | intro _ | with_reducible apply bump_kept | with_reducible apply modCamera_kept)

theorem frameStart_kept {q : Keep} (c : Nat) (n : Nat) (f : CameraFields) (r : CameraPort) (a : Nanos) {d : Dev} (h :
    Kept q d) :
    Kept q (frameStart c n f r a d) := by
  unfold frameStart
  repeat' (first
    | with_reducible assumption | intro _
    | (extract_lets +onlyGivenNames -underBinder dd; first
        | ((have hh : Kept q dd := ?_); on_goal 2 => clear_value dd; on_goal 1 => subst dd)
        | (subst dd))
    | with_reducible apply dropBands_kept | with_reducible apply bump_kept | with_reducible apply Dev_setStream_kept
    | with_reducible apply Dev_setCamera_kept | split)

theorem keepBand_kept {q : Keep} (c : Nat) (x : CamFrame) (b : Nat) (j : Nat) {d : Dev} (h : Kept q d) :
    Kept q (keepBand c x b j d) := by
  unfold keepBand
  repeat' (first
    | with_reducible assumption | intro _
    | (extract_lets +onlyGivenNames -underBinder dd; (subst dd))
    | ((conv => (arg 2; arg 23; skip)); with_reducible refine Kept.mk' ?_ rfl rfl rfl rfl rfl rfl rfl rfl rfl))

theorem takeBand_kept {q : Keep} (c : Nat) (n : Nat) (e : StreamEntry) (f : CameraFields) (r : CameraPort) (x :
    CamFrame) (b : Nat) (a : Nanos) {d : Dev} (h : Kept q d) :
    Kept q (takeBand c n e f r x b a d) := by
  unfold takeBand
  repeat' (first
    | with_reducible assumption | intro _
    | (extract_lets +onlyGivenNames -underBinder dd; first
        | ((have hh : Kept q dd := ?_); on_goal 2 => clear_value dd; on_goal 1 => subst dd)
        | (subst dd))
    | with_reducible apply countImplausible_kept | with_reducible apply usable_kept
    | with_reducible apply countOutOfWindow_kept | with_reducible apply countLateSamples_kept
    | with_reducible apply noteAssigned_kept | with_reducible apply modContrib_kept
    | with_reducible apply keepBand_kept | with_reducible apply modCamera_kept | split)

theorem imageRow_kept {q : Keep} (c : Nat) (n : Nat) (i : Nat) (e : StreamEntry) (f : CameraFields) (r : CameraPort)
    (p : CsiPacket) {d : Dev} (h : Kept q d) :
    Kept q (imageRow c n i e f r p d) := by
  unfold imageRow
  repeat' (first
    | with_reducible assumption | intro _
    | (extract_lets +onlyGivenNames -underBinder dd; first
        | ((have hh : Kept q dd := ?_); on_goal 2 => clear_value dd; on_goal 1 => subst dd)
        | (subst dd))
    | with_reducible apply dropPacket_kept | with_reducible apply modCamera_kept
    | with_reducible apply dropBands_kept | with_reducible apply takeBand_kept | split)

theorem frameEnd_kept {q : Keep} (c : Nat) (f : CameraFields) {d : Dev} (h : Kept q d) :
    Kept q (frameEnd c f d) := by
  unfold frameEnd
  repeat' (first
    | with_reducible assumption | intro _
    | (extract_lets +onlyGivenNames -underBinder dd; (subst dd))
    | with_reducible apply dropBands_kept | with_reducible apply modCamera_kept | split)

theorem csi2PacketReceived_kept {q : Keep} (port : Fin 16) (pkt : CsiPacket) {d : Dev} (h : Kept q d) :
    Kept q (csi2PacketReceived port pkt d) := by
  unfold csi2PacketReceived
  repeat' (first
    | with_reducible assumption | intro _
    | (extract_lets +onlyGivenNames -underBinder dd; first
        | ((have hh : Kept q dd := ?_); on_goal 2 => clear_value dd; on_goal 1 => subst dd)
        | (subst dd))
    | with_reducible apply dropPacket_kept | with_reducible apply bump_kept | with_reducible apply modCamera_kept
    | with_reducible apply frameStart_kept | with_reducible apply frameEnd_kept | with_reducible apply imageRow_kept
    | split)

theorem writeBand_kept {q : Keep} (r : RawFrame) (rows : List Nat) (band : Nat × Nat) (ts : List Tensor) (dst : Nat ×
    Nat) {d : Dev} (h : Kept q d) :
    Kept q (writeBand r rows band ts d dst) := by
  unfold writeBand
  repeat' (first
    | with_reducible assumption | intro _
    | (extract_lets +onlyGivenNames -underBinder dd; (subst dd))
    | with_reducible apply writeLevel_kept | split)

theorem writeFrameBand_kept {q : Keep} (c : Nat) (r : CameraPort) (f : CameraFields) (x : CamFrame) (b : Nat) (tick :
    Nat) (dests : List (Nat × Nat)) {d : Dev} (h : Kept q d) :
    Kept q (writeFrameBand c r f x b tick dests d) := by
  unfold writeFrameBand
  repeat' (first
    | with_reducible assumption | intro _
    | (extract_lets +onlyGivenNames -underBinder dd; (subst dd))
    | with_reducible apply writeBand_kept | with_reducible apply Kept.foldl)

theorem percaleBandDone_kept {q : Keep} (port : Fin 16) (band : Nat) (dests : List (Nat × Nat)) {d : Dev} (h : Kept q
    d) :
    Kept q (percaleBandDone port band dests d) := by
  unfold percaleBandDone
  repeat' (first
    | with_reducible assumption | intro _
    | (extract_lets +onlyGivenNames -underBinder dd; (subst dd))
    | with_reducible apply modCamera_kept | with_reducible apply writeFrameBand_kept | split)

theorem loopDecision_kept {q : Keep} (c : Nat) (r : CameraPort) (n : Nat) (e : StreamEntry) (f : CameraFields) (stats
    : FrameStats) {d : Dev} (h : Kept q d) :
    Kept q (loopDecision c r n e f stats d) := by
  unfold loopDecision
  repeat' (first
    | with_reducible assumption | intro _
    | (extract_lets +onlyGivenNames -underBinder dd; (subst dd))
    | with_reducible apply startExposure_kept | with_reducible apply Dev_setCamera_kept | split)

theorem statisticsComplete_kept {q : Keep} (port : Fin 16) {d : Dev} (h : Kept q d) :
    Kept q (statisticsComplete port d) := by
  unfold statisticsComplete
  repeat' (first
    | with_reducible assumption | intro _
    | (extract_lets +onlyGivenNames -underBinder dd; first
        | ((have hh : Kept q dd := ?_); on_goal 2 => clear_value dd; on_goal 1 => subst dd)
        | (subst dd))
    | with_reducible apply modCamera_kept | with_reducible apply loopDecision_kept | split)

theorem exposureUsRead_kept {q : Keep} (cam : Fin 16) {d : Dev} (h : Kept q d) :
    Kept q (exposureUsRead cam d) := by
  unfold exposureUsRead
  repeat' (first
    | with_reducible assumption | intro _ | with_reducible apply modCamera_kept)

theorem changeCamera_kept {q : Keep} (old : Image) (c : Nat) {d : Dev} (h : Kept q d) :
    Kept q (changeCamera old d c) := by
  unfold changeCamera
  repeat' (first
    | with_reducible assumption | intro _ | with_reducible apply enableCamera_kept
    | with_reducible apply modCamera_kept | split)

/-! ### Range -/

theorem modLidar_kept {q : Keep} (n : Nat) (f : LidarState → LidarState) {d : Dev} (h : Kept q d) :
    Kept q (modLidar n f d) := by
  unfold modLidar
  repeat' (first
    | with_reducible assumption | intro _ | with_reducible apply Dev_setLidar_kept)

theorem lidarLinkDown_kept {q : Keep} (n : Fin 8) {d : Dev} (h : Kept q d) :
    Kept q (lidarLinkDown n d) := by
  unfold lidarLinkDown
  repeat' (first
    | with_reducible assumption | intro _
    | (extract_lets +onlyGivenNames -underBinder dd; first
        | ((have hh : Kept q dd := ?_); on_goal 2 => clear_value dd; on_goal 1 => subst dd)
        | (subst dd))
    | with_reducible apply modLidar_kept | with_reducible apply bump_kept | with_reducible apply conditionEvent_kept
    | split)

theorem lidarLinkUp_kept {q : Keep} (n : Fin 8) {d : Dev} (h : Kept q d) :
    Kept q (lidarLinkUp n d) := by
  unfold lidarLinkUp
  repeat' (first
    | with_reducible assumption | intro _ | with_reducible apply modLidar_kept | split)

theorem enableLidar_kept {q : Keep} (e : Nat × StreamEntry) {d : Dev} (h : Kept q d) :
    Kept q (enableLidar d e) := by
  unfold enableLidar
  repeat' (first
    | with_reducible assumption | intro _
    | (extract_lets +onlyGivenNames -underBinder dd; (subst dd))
    | with_reducible apply modLidar_kept | with_reducible apply Dev_setImu_kept | split)

theorem valueSample_kept {q : Keep} (n : Nat) (t : Int) (a : Nanos) (values : List (Nat × F32)) {d : Dev} (h : Kept q
    d) :
    Kept q (valueSample n t a values d) := by
  unfold valueSample
  repeat' (first
    | with_reducible assumption | intro _ | with_reducible apply egoSample_kept)

theorem modImu_kept {q : Keep} (n : Nat) (f : ImuState → ImuState) {d : Dev} (h : Kept q d) :
    Kept q (modImu n f d) := by
  unfold modImu
  repeat' (first
    | with_reducible assumption | intro _ | with_reducible apply Dev_setImu_kept)

theorem imuSyncPulse_kept {q : Keep} (n : Fin 4) {d : Dev} (h : Kept q d) :
    Kept q (imuSyncPulse n d) := by
  unfold imuSyncPulse
  repeat' (first
    | with_reducible assumption | intro _
    | (extract_lets +onlyGivenNames -underBinder dd; (subst dd))
    | with_reducible apply emit_kept | with_reducible apply modImu_kept | split)

theorem imuDrdyEdge_kept {q : Keep} (n : Fin 4) {d : Dev} (h : Kept q d) :
    Kept q (imuDrdyEdge n d) := by
  unfold imuDrdyEdge
  repeat' (first
    | with_reducible assumption | intro _
    | (extract_lets +onlyGivenNames -underBinder dd; first
        | ((have hh : Kept q dd := ?_); on_goal 2 => clear_value dd; on_goal 1 => subst dd)
        | (subst dd))
    | with_reducible apply modImu_kept | with_reducible apply bump_kept | with_reducible apply emit_kept | split)

theorem imuSample_kept {q : Keep} (n : Nat) (stream : Nat) (f : ImuFields) (t : Nanos) (a : Nanos) (p : List Byte) {d
    : Dev} (h : Kept q d) :
    Kept q (imuSample n stream f t a p d) := by
  unfold imuSample
  repeat' (first
    | with_reducible assumption | intro _
    | (extract_lets +onlyGivenNames -underBinder dd; first
        | ((have hh : Kept q dd := ?_); on_goal 2 => clear_value dd; on_goal 1 => subst dd)
        | (subst dd))
    | with_reducible apply bump_kept | with_reducible apply modImu_kept | with_reducible apply Dev_setStream_kept
    | with_reducible apply valueSample_kept | split)

theorem imuTransactionDone_kept {q : Keep} (n : Fin 4) (payload : List Byte) {d : Dev} (h : Kept q d) :
    Kept q (imuTransactionDone n payload d) := by
  unfold imuTransactionDone
  repeat' (first
    | with_reducible assumption | intro _
    | (extract_lets +onlyGivenNames -underBinder dd; first
        | ((have hh : Kept q dd := ?_); on_goal 2 => clear_value dd; on_goal 1 => subst dd)
        | (subst dd))
    | with_reducible apply modImu_kept | with_reducible apply imuSample_kept | split)

theorem imuMissedSample_kept {q : Keep} (n : Fin 4) {d : Dev} (h : Kept q d) :
    Kept q (imuMissedSample n d) := by
  unfold imuMissedSample
  repeat' (first
    | with_reducible assumption | intro _
    | (extract_lets +onlyGivenNames -underBinder dd; (subst dd))
    | with_reducible apply bump_kept | with_reducible apply modImu_kept | split)

theorem modCan_kept {q : Keep} (n : Nat) (f : CanState → CanState) {d : Dev} (h : Kept q d) :
    Kept q (modCan n f d) := by
  unfold modCan
  repeat' (first
    | with_reducible assumption | intro _ | with_reducible apply Dev_setCan_kept)

theorem canReject_kept {q : Keep} (n : Nat) {d : Dev} (h : Kept q d) :
    Kept q (canReject n d) := by
  unfold canReject
  repeat' (first
    | with_reducible assumption | intro _ | with_reducible apply bump_kept | with_reducible apply modCan_kept)

theorem canDeliver_kept {q : Keep} (n : Nat) (x : CanFrame) (e : Nat × StreamEntry) {d : Dev} (h : Kept q d) :
    Kept q (canDeliver n x d e) := by
  unfold canDeliver
  repeat' (first
    | with_reducible assumption | intro _
    | (extract_lets +onlyGivenNames -underBinder dd; first
        | ((have hh : Kept q dd := ?_); on_goal 2 => clear_value dd; on_goal 1 => subst dd)
        | (subst dd))
    | with_reducible apply canReject_kept | with_reducible apply bump_kept | with_reducible apply modCan_kept
    | with_reducible apply Dev_setStream_kept | with_reducible apply valueSample_kept | split)

theorem canFrameReceived_kept {q : Keep} (n : Fin 4) (frame : CanFrame) {d : Dev} (h : Kept q d) :
    Kept q (canFrameReceived n frame d) := by
  unfold canFrameReceived
  repeat' (first
    | with_reducible assumption | intro _
    | (extract_lets +onlyGivenNames -underBinder dd; first
        | ((have hh : Kept q dd := ?_); on_goal 2 => clear_value dd; on_goal 1 => subst dd)
        | (subst dd))
    | with_reducible apply modCan_kept | with_reducible apply emit_kept | with_reducible apply canDeliver_kept
    | with_reducible apply Kept.foldl | with_reducible apply Kept.foldlSnd | split)

theorem canProtocolError_kept {q : Keep} (n : Fin 4) (rec_ : BitVec 8) (errPassive : Bool) {d : Dev} (h : Kept q d) :
    Kept q (canProtocolError n rec_ errPassive d) := by
  unfold canProtocolError
  repeat' (first
    | with_reducible assumption | intro _ | with_reducible apply bump_kept | with_reducible apply modCan_kept | split)

theorem modGnss_kept {q : Keep} (f : GnssState → GnssState) {d : Dev} (h : Kept q d) :
    Kept q (modGnss f d) := by
  unfold modGnss
  repeat' (first
    | with_reducible assumption | intro _
    | (extract_lets +onlyGivenNames -underBinder dd; (subst dd))
    | ((conv => (arg 2; arg 23; skip)); with_reducible refine Kept.mk' ?_ rfl rfl rfl rfl rfl rfl rfl rfl rfl))

theorem gnssUnpaired_kept {q : Keep} {d : Dev} (h : Kept q d) :
    Kept q (gnssUnpaired d) := by
  unfold gnssUnpaired
  repeat' (first
    | with_reducible assumption | intro _ | with_reducible apply bump_kept | with_reducible apply modGnss_kept)

theorem gnssPair_kept {q : Keep} (n : Nat) (f : GnssFields) (x : Sentence) {d : Dev} (h : Kept q d) :
    Kept q (gnssPair n f x d) := by
  unfold gnssPair
  repeat' (first
    | with_reducible assumption | intro _
    | (extract_lets +onlyGivenNames -underBinder dd; first
        | ((have hh : Kept q dd := ?_); on_goal 2 => clear_value dd; on_goal 1 => subst dd)
        | (subst dd))
    | with_reducible apply gnssUnpaired_kept | with_reducible apply modGnss_kept
    | with_reducible apply egoSample_kept | split)

theorem gnssSentenceReceived_kept {q : Keep} (sentence : Sentence) {d : Dev} (h : Kept q d) :
    Kept q (gnssSentenceReceived sentence d) := by
  unfold gnssSentenceReceived
  repeat' (first
    | with_reducible assumption | intro _
    | (extract_lets +onlyGivenNames -underBinder dd; first
        | ((have hh : Kept q dd := ?_); on_goal 2 => clear_value dd; on_goal 1 => subst dd)
        | (subst dd))
    | with_reducible apply bump_kept | with_reducible apply modGnss_kept | with_reducible apply egoSample_kept
    | with_reducible apply gnssPair_kept | split)

theorem gnssPpsEdge_kept {q : Keep} {d : Dev} (h : Kept q d) :
    Kept q (gnssPpsEdge d) := by
  unfold gnssPpsEdge
  repeat' (first
    | with_reducible assumption | intro _
    | (extract_lets +onlyGivenNames -underBinder dd; first
        | ((have hh : Kept q dd := ?_); on_goal 2 => clear_value dd; on_goal 1 => subst dd)
        | (subst dd))
    | ((conv => (arg 2; arg 23; skip)); with_reducible refine Kept.mk' ?_ rfl rfl rfl rfl rfl rfl rfl rfl rfl)
    | with_reducible apply gnssUnpaired_kept | with_reducible apply modGnss_kept | split)

theorem gnssPairTimeout_kept {q : Keep} {d : Dev} (h : Kept q d) :
    Kept q (gnssPairTimeout d) := by
  unfold gnssPairTimeout
  repeat' (first
    | with_reducible assumption | intro _ | with_reducible apply gnssUnpaired_kept | split)

/-! ### Lidar -/

theorem quotaDrop_kept {q : Keep} (port : Nat) (src : Source) {d : Dev} (h : Kept q d) :
    Kept q (quotaDrop port src d) := by
  unfold quotaDrop
  repeat' (first
    | with_reducible assumption | intro _ | with_reducible apply bump_kept | with_reducible apply modLidar_kept
    | split)

theorem chargePoint_kept {q : Keep} (src : Source) (quota : Nat) (tick : Nat) (n : Nat) (port : Nat) (p : Point) {d :
    Dev} (h : Kept q d) :
    Kept q (chargePoint src quota tick n port p d) := by
  unfold chargePoint
  repeat' (first
    | with_reducible assumption | intro _
    | (extract_lets +onlyGivenNames -underBinder dd; (subst dd))
    | with_reducible apply offerPoint_kept | with_reducible apply modContrib_kept
    | with_reducible apply quotaDrop_kept | split)

theorem admitPoint_kept {q : Keep} (n : Nat) (tick : Nat) (e : StreamEntry) (f : LidarFields) (valid : Nanos) (p :
    Point) {d : Dev} (h : Kept q d) :
    Kept q (admitPoint n tick e f valid p d) := by
  unfold admitPoint
  repeat' (first
    | with_reducible assumption | intro _
    | (extract_lets +onlyGivenNames -underBinder dd; first
        | ((have hh : Kept q dd := ?_); on_goal 2 => clear_value dd; on_goal 1 => subst dd)
        | (subst dd))
    | with_reducible apply takeProvisional_kept | with_reducible apply noteAssigned_kept
    | with_reducible apply chargePoint_kept | with_reducible apply Dev_setStream_kept
    | with_reducible apply Kept.foldl | with_reducible apply Kept.foldlSnd | split)

theorem takePoint_kept {q : Keep} (n : Nat) (e : StreamEntry) (f : LidarFields) (a : Nanos) (x : Decoded) {d : Dev}
    (h : Kept q d) :
    Kept q (takePoint n e f a d x) := by
  unfold takePoint
  repeat' (first
    | with_reducible assumption | intro _
    | (extract_lets +onlyGivenNames -underBinder dd; first
        | ((have hh : Kept q dd := ?_); on_goal 2 => clear_value dd; on_goal 1 => subst dd)
        | (subst dd))
    | with_reducible apply countImplausible_kept | with_reducible apply usable_kept
    | with_reducible apply countOutOfWindow_kept | with_reducible apply countLateSamples_kept
    | with_reducible apply admitPoint_kept | split)

theorem dropFrame_kept {q : Keep} (n : Nat) {d : Dev} (h : Kept q d) :
    Kept q (dropFrame n d) := by
  unfold dropFrame
  repeat' (first
    | with_reducible assumption | intro _ | with_reducible apply bump_kept | with_reducible apply modLidar_kept)

theorem dropParse_kept {q : Keep} (n : Nat) {d : Dev} (h : Kept q d) :
    Kept q (dropParse n d) := by
  unfold dropParse
  repeat' (first
    | with_reducible assumption | intro _ | with_reducible apply bump_kept | with_reducible apply modLidar_kept)

theorem takePacket_kept {q : Keep} (n : Nat) (e : StreamEntry) (f : LidarFields) (a : Nanos) (ps : List Decoded) {d :
    Dev} (h : Kept q d) :
    Kept q (takePacket n e f a ps d) := by
  unfold takePacket
  repeat' (first
    | with_reducible assumption | intro _ | with_reducible apply countImplausible_kept
    | with_reducible apply takePoint_kept | with_reducible apply Kept.foldl | with_reducible apply Kept.foldlSnd
    | split)

theorem lidarFrameReceived_kept {q : Keep} (n : Fin 8) (frame : LidarFrame) {d : Dev} (h : Kept q d) :
    Kept q (lidarFrameReceived n frame d) := by
  unfold lidarFrameReceived
  repeat' (first
    | with_reducible assumption | intro _ | with_reducible apply dropFrame_kept | with_reducible apply dropParse_kept
    | with_reducible apply takePacket_kept | split)

end Sys2Proof.Machine
end

