-- ==== Sys2Proof/Laws/KeptEngines.lean ====
section
/-!
SUPPORT. What the operations of the engines and the transfers keep (Sys2Proof/Laws/Kept.lean): one lemma for each.
-/

set_option linter.unusedVariables false

namespace Sys2Proof.Machine

open Sys2Proof

/-! ### Serge -/

theorem modSlot_kept {q : Keep} (g : Nat) (f : SrgSlot → SrgSlot) {d : Dev} (h : Kept q d) :
    Kept q (modSlot g f d) := by
  unfold modSlot
  repeat' (first
    | with_reducible assumption | intro _ | with_reducible apply Dev_setSrgSlot_kept)

theorem modUnit_kept {q : Keep} (u : Nat) (f : SrgUnit → SrgUnit) {d : Dev} (h : Kept q d) :
    Kept q (modUnit u f d) := by
  unfold modUnit
  repeat' (first
    | with_reducible assumption | intro _ | with_reducible apply Dev_setSrgUnit_kept)

theorem bumpSlot_kept {q : Keep} (g : Nat) (off : Nat) (get : SrgSlot → Counter) (put : Counter → SrgSlot → SrgSlot)
    (n : Nat) {d : Dev} (h : Kept q d) :
    Kept q (bumpSlot g off get put n d) := by
  unfold bumpSlot
  repeat' (first
    | with_reducible assumption | intro _ | with_reducible apply bump_kept | with_reducible apply modSlot_kept)

theorem bumpUnit_kept {q : Keep} (u : Nat) (off : Nat) (get : SrgUnit → Counter) (put : Counter → SrgUnit → SrgUnit)
    (n : Nat) {d : Dev} (h : Kept q d) :
    Kept q (bumpUnit u off get put n d) := by
  unfold bumpUnit
  repeat' (first
    | with_reducible assumption | intro _ | with_reducible apply bump_kept | with_reducible apply modUnit_kept)

theorem loadSlots_kept {q : Keep} (u : Nat) {d : Dev} (h : Kept q d) :
    Kept q (loadSlots u d) := by
  unfold loadSlots
  repeat' (first
    | with_reducible assumption | intro _ | with_reducible apply modSlot_kept | with_reducible apply Kept.foldl)

theorem faultUnit_kept {q : Keep} (u : Nat) (cause : Nat) (latched : Bool) {d : Dev} (h : Kept q d) :
    Kept q (faultUnit u cause latched d) := by
  unfold faultUnit
  repeat' (first
    | with_reducible assumption | intro _
    | (extract_lets +onlyGivenNames -underBinder dd; first
        | ((have hh : Kept q dd := ?_); on_goal 2 => clear_value dd; on_goal 1 => subst dd)
        | (subst dd))
    | with_reducible apply Dev_setWin_kept | with_reducible apply modSlot_kept | with_reducible apply modUnit_kept
    | with_reducible apply bumpUnit_kept | with_reducible apply raiseV_kept | with_reducible apply raiseH_kept
    | split)

theorem checkStructure_kept {q : Keep} (u : Nat) {d : Dev} (h : Kept q d) :
    Kept q (checkStructure u d) := by
  unfold checkStructure
  repeat' (first
    | with_reducible assumption | intro _
    | (extract_lets +onlyGivenNames -underBinder dd; first
        | ((have hh : Kept q dd := ?_); on_goal 2 => clear_value dd; on_goal 1 => subst dd)
        | (subst dd))
    | with_reducible apply modUnit_kept | with_reducible apply modSlot_kept | with_reducible apply raiseV_kept
    | with_reducible apply raiseH_kept | with_reducible apply refreshModes_kept | with_reducible apply faultUnit_kept
    | with_reducible apply Kept.foldl | with_reducible apply Kept.foldlSnd | split)

theorem loadUnit_kept {q : Keep} (u : Nat) {d : Dev} (h : Kept q d) :
    Kept q (loadUnit d u) := by
  unfold loadUnit
  repeat' (first
    | with_reducible assumption | intro _
    | (extract_lets +onlyGivenNames -underBinder dd; (subst dd))
    | with_reducible apply checkStructure_kept | with_reducible apply modUnit_kept
    | with_reducible apply loadSlots_kept)

theorem sergeUnitResetDone_kept {q : Keep} (unit : Fin 4) {d : Dev} (h : Kept q d) :
    Kept q (sergeUnitResetDone unit d) := by
  unfold sergeUnitResetDone
  repeat' (first
    | with_reducible assumption | intro _
    | (extract_lets +onlyGivenNames -underBinder dd; first
        | ((have hh : Kept q dd := ?_); on_goal 2 => clear_value dd; on_goal 1 => subst dd)
        | (subst dd))
    | ((conv => (arg 2; arg 23; skip)); with_reducible refine Kept.mk' ?_ rfl rfl rfl rfl rfl rfl rfl rfl rfl)
    | with_reducible apply checkStructure_kept | with_reducible apply loadSlots_kept
    | with_reducible apply modUnit_kept | split)

theorem sergeUncorrectableSramError_kept {q : Keep} (unit : Fin 4) {d : Dev} (h : Kept q d) :
    Kept q (sergeUncorrectableSramError unit d) := by
  unfold sergeUncorrectableSramError
  repeat' (first
    | with_reducible assumption | intro _
    | (extract_lets +onlyGivenNames -underBinder dd; (subst dd))
    | with_reducible apply faultUnit_kept | with_reducible apply bumpUnit_kept | split)

theorem sergeStopTimeout_kept {q : Keep} (unit : Fin 4) {d : Dev} (h : Kept q d) :
    Kept q (sergeStopTimeout unit d) := by
  unfold sergeStopTimeout
  repeat' (first
    | with_reducible assumption | intro _
    | (extract_lets +onlyGivenNames -underBinder dd; (subst dd))
    | with_reducible apply faultUnit_kept | split)

theorem packetComplete_kept {q : Keep} (ts : List Tensor) (dst : Nat) {d : Dev} (h : Kept q d) :
    Kept q (packetComplete ts dst d) := by
  unfold packetComplete
  repeat' (first
    | with_reducible assumption | intro _
    | (extract_lets +onlyGivenNames -underBinder dd; (subst dd))
    | with_reducible apply modSlot_kept | split)

theorem applyPacket_kept {q : Keep} (g : Nat) (s : SlotRec) (p : Packet) {d : Dev} (h : Kept q d) :
    Kept q (applyPacket g s d p) := by
  unfold applyPacket
  repeat' (first
    | with_reducible assumption | intro _
    | (extract_lets +onlyGivenNames -underBinder dd; first
        | ((have hh : Kept q dd := ?_); on_goal 2 => clear_value dd; on_goal 1 => subst dd)
        | (subst dd))
    | with_reducible apply bumpSlot_kept | with_reducible apply modSlot_kept | with_reducible apply Kept.foldl
    | with_reducible apply Kept.foldlSnd | split)

theorem applyPackets_kept {q : Keep} (g : Nat) (s : SlotRec) {d : Dev} (h : Kept q d) :
    Kept q (applyPackets g s d) := by
  unfold applyPackets
  repeat' (first
    | with_reducible assumption | intro _
    | (extract_lets +onlyGivenNames -underBinder dd; (subst dd))
    | with_reducible apply applyPacket_kept | with_reducible apply modSlot_kept | with_reducible apply Kept.foldl)

theorem reinitEgo_kept {q : Keep} (s : SlotRec) (src : Source) (g : Nat) (b : Nanos) {d : Dev} (h : Kept q d) :
    Kept q (reinitEgo s src g b d) := by
  unfold reinitEgo
  repeat' (first
    | with_reducible assumption | intro _
    | (extract_lets +onlyGivenNames -underBinder dd; first
        | ((have hh : Kept q dd := ?_); on_goal 2 => clear_value dd; on_goal 1 => subst dd)
        | (subst dd))
    | ((conv => (arg 2; arg 23; skip)); with_reducible refine Kept.mk' ?_ rfl rfl rfl rfl rfl rfl rfl rfl rfl)
    | with_reducible apply modSlot_kept | with_reducible apply bumpSlot_kept | with_reducible apply Kept.foldl
    | with_reducible apply Kept.foldlSnd | split)

theorem advanceRing_kept {q : Keep} (g : Nat) (s : SlotRec) (src : Source) (b : Nanos) (fresh : Bool) {d : Dev} (h :
    Kept q d) :
    Kept q (advanceRing g s src b fresh d) := by
  unfold advanceRing
  repeat' (first
    | with_reducible assumption | intro _
    | (extract_lets +onlyGivenNames -underBinder dd; first
        | ((have hh : Kept q dd := ?_); on_goal 2 => clear_value dd; on_goal 1 => subst dd)
        | (subst dd))
    | with_reducible apply modSlot_kept)

theorem startEgo_kept {q : Keep} (g : Nat) (s : SlotRec) (b : Nanos) {d : Dev} (h : Kept q d) :
    Kept q (startEgo g s b d) := by
  unfold startEgo
  repeat' (first
    | with_reducible assumption | intro _
    | (extract_lets +onlyGivenNames -underBinder dd; first
        | ((have hh : Kept q dd := ?_); on_goal 2 => clear_value dd; on_goal 1 => subst dd)
        | (subst dd))
    | ((conv => (arg 2; arg 23; skip)); with_reducible refine Kept.mk' ?_ rfl rfl rfl rfl rfl rfl rfl rfl rfl)
    | with_reducible apply reinitEgo_kept | with_reducible apply advanceRing_kept | split)

theorem startSolve_kept {q : Keep} (src : Source) (tick : Nat) (w : Nat) (g : Nat) (s : SlotRec) (opening : Int)
    (planned : Nanos) {d : Dev} (h : Kept q d) :
    Kept q (startSolve src tick w g s opening planned d) := by
  unfold startSolve
  repeat' (first
    | with_reducible assumption | intro _
    | (extract_lets +onlyGivenNames -underBinder dd; first
        | ((have hh : Kept q dd := ?_); on_goal 2 => clear_value dd; on_goal 1 => subst dd)
        | (subst dd))
    | with_reducible apply applyPackets_kept | with_reducible apply startEgo_kept | with_reducible apply modSlot_kept
    | with_reducible apply modUnit_kept | with_reducible apply Dev_setWin_kept | split)

theorem releaseSerge_kept {q : Keep} (src : Source) (tick : Nat) (w : Nat) (r : WindowRec) {d : Dev} (h : Kept q d) :
    Kept q (releaseSerge src tick w r d) := by
  unfold releaseSerge
  repeat' (first
    | with_reducible assumption | intro _
    | (extract_lets +onlyGivenNames -underBinder dd; first
        | ((have hh : Kept q dd := ?_); on_goal 2 => clear_value dd; on_goal 1 => subst dd)
        | (subst dd))
    | with_reducible apply Dev_setWin_kept | with_reducible apply startSolve_kept | split)

theorem writeEgo_kept {q : Keep} (g : Nat) (s : SlotRec) (r : SolveResult) (status : SolveStatus) (reg : Bool) {d :
    Dev} (h : Kept q d) :
    Kept q (writeEgo g s r status reg d) := by
  unfold writeEgo
  repeat' (first
    | with_reducible assumption | intro _
    | (extract_lets +onlyGivenNames -underBinder dd; first
        | ((have hh : Kept q dd := ?_); on_goal 2 => clear_value dd; on_goal 1 => subst dd)
        | (subst dd))
    | ((conv => (arg 2; arg 23; skip)); with_reducible refine Kept.mk' ?_ rfl rfl rfl rfl rfl rfl rfl rfl rfl)
    | with_reducible apply modSlot_kept | split)

theorem writeConsist_kept {q : Keep} (tick : Nat) (r : SolveResult) {d : Dev} (h : Kept q d) :
    Kept q (writeConsist tick r d) := by
  unfold writeConsist
  repeat' (first
    | with_reducible assumption | intro _
    | (extract_lets +onlyGivenNames -underBinder dd; (subst dd))
    | ((conv => (arg 2; arg 23; skip)); with_reducible refine Kept.mk' ?_ rfl rfl rfl rfl rfl rfl rfl rfl rfl))

theorem noteScan_kept {q : Keep} (status : SolveStatus) (reg : Bool) {d : Dev} (h : Kept q d) :
    Kept q (noteScan status reg d) := by
  unfold noteScan
  repeat' (first
    | with_reducible assumption | intro _
    | (extract_lets +onlyGivenNames -underBinder dd; (subst dd))
    | ((conv => (arg 2; arg 23; skip)); with_reducible refine Kept.mk' ?_ rfl rfl rfl rfl rfl rfl rfl rfl rfl))

theorem endScan_kept {q : Keep} (g : Nat) (r : SolveResult) (status : SolveStatus) (reg : Bool) {d : Dev} (h : Kept q
    d) :
    Kept q (endScan g r status reg d) := by
  unfold endScan
  repeat' (first
    | with_reducible assumption | intro _
    | (extract_lets +onlyGivenNames -underBinder dd; first
        | ((have hh : Kept q dd := ?_); on_goal 2 => clear_value dd; on_goal 1 => subst dd)
        | (subst dd))
    | ((conv => (arg 2; arg 23; skip)); with_reducible refine Kept.mk' ?_ rfl rfl rfl rfl rfl rfl rfl rfl rfl)
    | with_reducible apply noteScan_kept | with_reducible apply writeConsist_kept
    | with_reducible apply bumpSlot_kept | split)

theorem endCalib_kept {q : Keep} (g : Nat) (r : SolveResult) (status : SolveStatus) (reg : Bool) {d : Dev} (h : Kept
    q d) :
    Kept q (endCalib g r status reg d) := by
  unfold endCalib
  repeat' (first
    | with_reducible assumption | intro _
    | (extract_lets +onlyGivenNames -underBinder dd; first
        | ((have hh : Kept q dd := ?_); on_goal 2 => clear_value dd; on_goal 1 => subst dd)
        | (subst dd))
    | ((conv => (arg 2; arg 23; skip)); with_reducible refine Kept.mk' ?_ rfl rfl rfl rfl rfl rfl rfl rfl rfl)
    | with_reducible apply writeConsist_kept | with_reducible apply bumpSlot_kept | with_reducible apply calGate_kept
    | split)

theorem stopUnit_kept {q : Keep} (g : Nat) (s : SlotRec) {d : Dev} (h : Kept q d) :
    Kept q (stopUnit g s d) := by
  unfold stopUnit
  repeat' (first
    | with_reducible assumption | intro _
    | (extract_lets +onlyGivenNames -underBinder dd; first
        | ((have hh : Kept q dd := ?_); on_goal 2 => clear_value dd; on_goal 1 => subst dd)
        | (subst dd))
    | with_reducible apply modUnit_kept | with_reducible apply Dev_setWin_kept)

theorem endSolve_kept {q : Keep} (g : Nat) (s : SlotRec) (r : SolveResult) {d : Dev} (h : Kept q d) :
    Kept q (endSolve g s r d) := by
  unfold endSolve
  repeat' (first
    | with_reducible assumption | intro _
    | (extract_lets +onlyGivenNames -underBinder dd; first
        | ((have hh : Kept q dd := ?_); on_goal 2 => clear_value dd; on_goal 1 => subst dd)
        | (subst dd))
    | with_reducible apply stopUnit_kept | with_reducible apply bumpUnit_kept | with_reducible apply bumpSlot_kept
    | with_reducible apply modSlot_kept | with_reducible apply writeEgo_kept | with_reducible apply endScan_kept
    | with_reducible apply endCalib_kept | split)

theorem solveEnd_kept {q : Keep} (unit : Fin 4) (run : SolveRun) {d : Dev} (h : Kept q d) :
    Kept q (solveEnd unit run d) := by
  unfold solveEnd
  repeat' (first
    | with_reducible assumption | intro _
    | (extract_lets +onlyGivenNames -underBinder dd; (subst dd))
    | with_reducible apply endSolve_kept | split)

theorem pauseSolve_kept {q : Keep} (g : Nat) (s : SlotRec) (r : SolveResult) {d : Dev} (h : Kept q d) :
    Kept q (pauseSolve g s r d) := by
  unfold pauseSolve
  repeat' (first
    | with_reducible assumption | intro _
    | (extract_lets +onlyGivenNames -underBinder dd; first
        | ((have hh : Kept q dd := ?_); on_goal 2 => clear_value dd; on_goal 1 => subst dd)
        | (subst dd))
    | with_reducible apply stopUnit_kept | with_reducible apply bumpUnit_kept | with_reducible apply modSlot_kept)

theorem sergeDeadline_kept {q : Keep} (unit : Fin 4) (run : Option SolveRun) {d : Dev} (h : Kept q d) :
    Kept q (sergeDeadline unit run d) := by
  unfold sergeDeadline
  repeat' (first
    | with_reducible assumption | intro _
    | (extract_lets +onlyGivenNames -underBinder dd; (subst dd))
    | with_reducible apply modUnit_kept | with_reducible apply pauseSolve_kept | with_reducible apply endSolve_kept
    | split)

theorem lastEndLoRead_kept {q : Keep} (slot : Fin 16) {d : Dev} (h : Kept q d) :
    Kept q (lastEndLoRead slot d) := by
  unfold lastEndLoRead
  repeat' (first
    | with_reducible assumption | intro _ | with_reducible apply modSlot_kept)

theorem suspendSlots_kept {q : Keep} (mode : Nat) {d : Dev} (h : Kept q d) :
    Kept q (suspendSlots mode d) := by
  unfold suspendSlots
  repeat' (first
    | with_reducible assumption | intro _ | with_reducible apply modSlot_kept | with_reducible apply Kept.foldl)

theorem enterHistory_kept {q : Keep} (b : Nanos) (src : Source) {d : Dev} (h : Kept q d) :
    Kept q (enterHistory b d src) := by
  unfold enterHistory
  repeat' (first
    | with_reducible assumption | intro _
    | (extract_lets +onlyGivenNames -underBinder dd; first
        | ((have hh : Kept q dd := ?_); on_goal 2 => clear_value dd; on_goal 1 => subst dd)
        | (subst dd))
    | ((conv => (arg 2; arg 23; skip)); with_reducible refine Kept.mk' ?_ rfl rfl rfl rfl rfl rfl rfl rfl rfl)
    | with_reducible apply modSlot_kept | with_reducible apply endCondition_kept | split)

/-! ### Transfers -/

theorem tensorEcc_kept {q : Keep} (ts : List Tensor) (t : TransferDesc) (window : Option Nat) (e : Nat × Ecc) {d :
    Dev} (h : Kept q d) :
    Kept q (tensorEcc ts t window d e) := by
  unfold tensorEcc
  repeat' (first
    | with_reducible assumption | intro _ | with_reducible apply eccRead_kept | with_reducible apply losePageOf_kept
    | with_reducible apply pageFault_kept | split)

theorem transferComplete_kept {q : Keep} (cl : Fin 132) (n : Nat) (ecc : List Ecc) {d : Dev} (h : Kept q d) :
    Kept q (transferComplete cl n ecc d) := by
  unfold transferComplete
  repeat' (first
    | with_reducible assumption | intro _
    | (extract_lets +onlyGivenNames -underBinder dd; first
        | ((have hh : Kept q dd := ?_); on_goal 2 => clear_value dd; on_goal 1 => subst dd)
        | (subst dd))
    | with_reducible apply moveData_kept | with_reducible apply releaseTransfer_kept
    | with_reducible apply incTally_kept | with_reducible apply tensorEcc_kept
    | with_reducible apply packetComplete_kept | with_reducible apply Kept.foldl | with_reducible apply Kept.foldlSnd
    | split)

theorem transferTimeout_kept {q : Keep} (cl : Fin 132) (n : Nat) {d : Dev} (h : Kept q d) :
    Kept q (transferTimeout cl n d) := by
  unfold transferTimeout
  repeat' (first
    | with_reducible assumption | intro _
    | (extract_lets +onlyGivenNames -underBinder dd; first
        | ((have hh : Kept q dd := ?_); on_goal 2 => clear_value dd; on_goal 1 => subst dd)
        | (subst dd))
    | ((conv => (arg 2; arg 23; skip)); with_reducible refine Kept.mk' ?_ rfl rfl rfl rfl rfl rfl rfl rfl rfl)
    | with_reducible apply moveData_kept | with_reducible apply satEvent_kept
    | with_reducible apply Dev_modCluster_kept | with_reducible apply faultKey_kept
    | with_reducible apply releaseTransfer_kept | with_reducible apply faultUnit_kept | split)

/-! ### Chambray -/

theorem countChb_kept {q : Keep} (x : Nat) (tick : Nat) (i : Nat) (n : Nat) {d : Dev} (h : Kept q d) :
    Kept q (countChb x tick i n d) := by
  unfold countChb
  repeat' (first
    | with_reducible assumption | intro _ | with_reducible apply modChb_kept)

theorem buildBands_kept {q : Keep} (tick : Nat) (v : Nanos) (cam : Nat) (f : CameraFields) {d : Dev} (h : Kept q d) :
    Kept q (buildBands tick v cam f d) := by
  unfold buildBands
  repeat' (first
    | with_reducible assumption | intro _
    | (extract_lets +onlyGivenNames -underBinder dd; first
        | ((have hh : Kept q dd := ?_); on_goal 2 => clear_value dd; on_goal 1 => subst dd)
        | (subst dd))
    | ((conv => (arg 2; arg 23; skip)); with_reducible refine Kept.mk' ?_ rfl rfl rfl rfl rfl rfl rfl rfl rfl)
    | with_reducible apply noteFar_kept | with_reducible apply bump_kept | with_reducible apply modChb_kept
    | with_reducible apply Kept.foldl | with_reducible apply Kept.foldlSnd | split)

theorem composeCamera_kept {q : Keep} (tick : Nat) (o : ChbRec) (cam : Nat) {d : Dev} (h : Kept q d) :
    Kept q (composeCamera tick o d cam) := by
  unfold composeCamera
  repeat' (first
    | with_reducible assumption | intro _
    | (extract_lets +onlyGivenNames -underBinder dd; first
        | ((have hh : Kept q dd := ?_); on_goal 2 => clear_value dd; on_goal 1 => subst dd)
        | (subst dd))
    | ((conv => (arg 2; arg 23; skip)); with_reducible refine Kept.mk' ?_ rfl rfl rfl rfl rfl rfl rfl rfl rfl)
    | with_reducible apply bump_kept | with_reducible apply modChb_kept | with_reducible apply noteFar_kept
    | with_reducible apply Kept.foldl | with_reducible apply Kept.foldlSnd | split)

theorem writeBandTables_kept {q : Keep} (tick : Nat) (v : Nanos) (o : ChbRec) (t : Option Tensor) {d : Dev} (h : Kept
    q d) :
    Kept q (writeBandTables tick v o t d) := by
  unfold writeBandTables
  repeat' (first
    | with_reducible assumption | intro _ | with_reducible apply setBytes_kept | with_reducible apply Kept.foldl
    | with_reducible apply Kept.foldlSnd | split)

theorem countShots_kept {q : Keep} (x : Nat) (tick : Nat) (l : List Shot) {d : Dev} (h : Kept q d) :
    Kept q (countShots x tick l d) := by
  unfold countShots
  repeat' (first
    | with_reducible assumption | intro _ | with_reducible apply countChb_kept)

theorem writeFeatures_kept {q : Keep} (o : ChbRec) (row : Nat) (fs : List F32) (word : Nat) {d : Dev} (h : Kept q d) :
    Kept q (writeFeatures o row fs word d) := by
  unfold writeFeatures
  repeat' (first
    | with_reducible assumption | intro _
    | (extract_lets +onlyGivenNames -underBinder dd; first
        | ((have hh : Kept q dd := ?_); on_goal 2 => clear_value dd; on_goal 1 => subst dd)
        | (subst dd))
    | with_reducible apply setElem_kept | with_reducible apply setBytes_kept | with_reducible apply Kept.foldl)

theorem sampleCell_kept {q : Keep} (c : ChbCtx) (t : Tensor) (p : Nat × Nat) {d : Dev} (h : Kept q d) :
    Kept q (sampleCell c t d p) := by
  unfold sampleCell
  repeat' (first
    | with_reducible assumption | intro _
    | (extract_lets +onlyGivenNames -underBinder dd; (subst dd))
    | with_reducible apply writeFeatures_kept | with_reducible apply countShots_kept)

theorem runSample_kept {q : Keep} (c : ChbCtx) {d : Dev} (h : Kept q d) :
    Kept q (runSample c d) := by
  unfold runSample
  repeat' (first
    | with_reducible assumption | intro _
    | (extract_lets +onlyGivenNames -underBinder dd; (subst dd))
    | with_reducible apply sampleCell_kept | with_reducible apply Kept.foldl | with_reducible apply Kept.foldlSnd
    | split)

theorem paintPoint_kept {q : Keep} (c : ChbCtx) (list : Tensor) (t : Tensor) (n : Nat) {d : Dev} (h : Kept q d) :
    Kept q (paintPoint c list t d n) := by
  unfold paintPoint
  repeat' (first
    | with_reducible assumption | intro _
    | (extract_lets +onlyGivenNames -underBinder dd; first
        | ((have hh : Kept q dd := ?_); on_goal 2 => clear_value dd; on_goal 1 => subst dd)
        | (subst dd))
    | with_reducible apply countChb_kept | with_reducible apply writeFeatures_kept
    | with_reducible apply countShots_kept | split)

theorem runPaint_kept {q : Keep} (c : ChbCtx) {d : Dev} (h : Kept q d) :
    Kept q (runPaint c d) := by
  unfold runPaint
  repeat' (first
    | with_reducible assumption | intro _ | with_reducible apply paintPoint_kept | with_reducible apply Kept.foldl
    | with_reducible apply Kept.foldlSnd | split)

theorem sumCell_kept {q : Keep} (c : ChbCtx) (t : Tensor) (p : Nat × Nat) {d : Dev} (h : Kept q d) :
    Kept q (sumCell c t d p) := by
  unfold sumCell
  repeat' (first
    | with_reducible assumption | intro _
    | (extract_lets +onlyGivenNames -underBinder dd; first
        | ((have hh : Kept q dd := ?_); on_goal 2 => clear_value dd; on_goal 1 => subst dd)
        | (subst dd))
    | ((conv => (arg 2; arg 23; skip)); with_reducible refine Kept.mk' ?_ rfl rfl rfl rfl rfl rfl rfl rfl rfl)
    | with_reducible apply setBytes_kept | with_reducible apply Kept.foldl)

theorem clearAcc_kept {q : Keep} (c : ChbCtx) (t : Tensor) {d : Dev} (h : Kept q d) :
    Kept q (clearAcc c t d) := by
  unfold clearAcc
  repeat' (first
    | with_reducible assumption | intro _
    | (extract_lets +onlyGivenNames -underBinder dd; (subst dd))
    | ((conv => (arg 2; arg 23; skip)); with_reducible refine Kept.mk' ?_ rfl rfl rfl rfl rfl rfl rfl rfl rfl)
    | with_reducible apply setBytes_kept | with_reducible apply Kept.foldl)

theorem convertCell_kept {q : Keep} (c : ChbCtx) (acc : Tensor) (t : Tensor) (p : Nat × Nat) {d : Dev} (h : Kept q d)
    :
    Kept q (convertCell c acc t d p) := by
  unfold convertCell
  repeat' (first
    | with_reducible assumption | intro _
    | (extract_lets +onlyGivenNames -underBinder dd; (subst dd))
    | with_reducible apply writeFeatures_kept)

theorem convertStripes_kept {q : Keep} (c : ChbCtx) (acc : Tensor) (t : Tensor) (units : List Nat) {d : Dev} (h :
    Kept q d) :
    Kept q (convertStripes c acc t units d) := by
  unfold convertStripes
  repeat' (first
    | with_reducible assumption | intro _ | with_reducible apply convertCell_kept | with_reducible apply Kept.foldl)

theorem runLift_kept {q : Keep} (c : ChbCtx) {d : Dev} (h : Kept q d) :
    Kept q (runLift c d) := by
  unfold runLift
  repeat' (first
    | with_reducible assumption | intro _
    | (extract_lets +onlyGivenNames -underBinder dd; first
        | ((have hh : Kept q dd := ?_); on_goal 2 => clear_value dd; on_goal 1 => subst dd)
        | (subst dd))
    | ((conv => (arg 2; arg 23; skip)); with_reducible refine Kept.mk' ?_ rfl rfl rfl rfl rfl rfl rfl rfl rfl)
    | with_reducible apply clearAcc_kept | with_reducible apply countChb_kept | with_reducible apply sumCell_kept
    | with_reducible apply convertStripes_kept | with_reducible apply Kept.foldl | with_reducible apply Kept.foldlSnd
    | split)

theorem stopLift_kept {q : Keep} (c : ChbCtx) {d : Dev} (h : Kept q d) :
    Kept q (stopLift c d) := by
  unfold stopLift
  repeat' (first
    | with_reducible assumption | intro _
    | (extract_lets +onlyGivenNames -underBinder dd; first
        | ((have hh : Kept q dd := ?_); on_goal 2 => clear_value dd; on_goal 1 => subst dd)
        | (subst dd))
    | ((conv => (arg 2; arg 23; skip)); with_reducible refine Kept.mk' ?_ rfl rfl rfl rfl rfl rfl rfl rfl rfl)
    | with_reducible apply sumCell_kept | with_reducible apply convertStripes_kept | with_reducible apply Kept.foldl
    | with_reducible apply Kept.foldlSnd | split)

theorem boxIn_kept {q : Keep} (c : ChbCtx) (t : Tensor) (n : Nat) (box : List F32) (s : View) {d : Dev} (h : Kept q
    d) :
    Kept q (boxIn c t n box d s) := by
  unfold boxIn
  repeat' (first
    | with_reducible assumption | intro _
    | (extract_lets +onlyGivenNames -underBinder dd; first
        | ((have hh : Kept q dd := ?_); on_goal 2 => clear_value dd; on_goal 1 => subst dd)
        | (subst dd))
    | with_reducible apply countChb_kept | with_reducible apply setBytes_kept)

theorem runBox_kept {q : Keep} (c : ChbCtx) {d : Dev} (h : Kept q d) :
    Kept q (runBox c d) := by
  unfold runBox
  repeat' (first
    | with_reducible assumption | intro _
    | (extract_lets +onlyGivenNames -underBinder dd; (subst dd))
    | with_reducible apply boxIn_kept | with_reducible apply Kept.foldl | with_reducible apply Kept.foldlSnd | split)

theorem beginUnit_kept {q : Keep} (x : Nat) (tick : Nat) (gen : BitVec 32) {d : Dev} (h : Kept q d) :
    Kept q (beginUnit x tick gen d) := by
  unfold beginUnit
  repeat' (first
    | with_reducible assumption | intro _ | with_reducible apply modChb_kept)

theorem runChambray_kept {q : Keep} (tick : Nat) (w : Nat) {d : Dev} (h : Kept q d) :
    Kept q (runChambray tick w d) := by
  unfold runChambray
  repeat' (first
    | with_reducible assumption | intro _
    | (extract_lets +onlyGivenNames -underBinder dd; first
        | ((have hh : Kept q dd := ?_); on_goal 2 => clear_value dd; on_goal 1 => subst dd)
        | (subst dd))
    | with_reducible apply composeCamera_kept | with_reducible apply beginUnit_kept
    | with_reducible apply runSample_kept | with_reducible apply runLift_kept | with_reducible apply runPaint_kept
    | with_reducible apply runBox_kept | with_reducible apply writeBandTables_kept | with_reducible apply Kept.foldl
    | with_reducible apply Kept.foldlSnd | split)

theorem chambrayTimerExpiry_kept {q : Keep} (tick : Nat) (w : Nat) {d : Dev} (h : Kept q d) :
    Kept q (chambrayTimerExpiry tick w d) := by
  unfold chambrayTimerExpiry
  repeat' (first
    | with_reducible assumption | intro _
    | (extract_lets +onlyGivenNames -underBinder dd; first
        | ((have hh : Kept q dd := ?_); on_goal 2 => clear_value dd; on_goal 1 => subst dd)
        | (subst dd))
    | with_reducible apply stopLift_kept | with_reducible apply bump_kept | with_reducible apply overrun_kept
    | with_reducible apply modChb_kept | with_reducible apply faultMiss_kept
    | with_reducible apply restartPartition_kept | split)

theorem chambrayEnded_kept {q : Keep} (x : Nat) {d : Dev} (h : Kept q d) :
    Kept q (chambrayEnded x d) := by
  unfold chambrayEnded
  repeat' (first
    | with_reducible assumption | intro _ | with_reducible apply modChb_kept)

theorem linkTransactionTimeout_kept {q : Keep} (die : Fin 6) (part : Nat) (ofRetry : Bool) (tick : Nat) (w : Nat) {d
    : Dev} (h : Kept q d) :
    Kept q (linkTransactionTimeout die part ofRetry tick w d) := by
  unfold linkTransactionTimeout
  repeat' (first
    | with_reducible assumption | intro _
    | (extract_lets +onlyGivenNames -underBinder dd; first
        | ((have hh : Kept q dd := ?_); on_goal 2 => clear_value dd; on_goal 1 => subst dd)
        | (subst dd))
    | with_reducible apply satEvent_kept | with_reducible apply Dev_setDie_kept
    | with_reducible apply restartPartition_kept | with_reducible apply miss_kept | with_reducible apply bump_kept
    | with_reducible apply modChb_kept | split)

/-! ### Gates -/

theorem closeTickSlice_kept {q : Keep} (n : Nat) (j : Nat) (src : Source) {d : Dev} (h : Kept q d) :
    Kept q (closeTickSlice n j d src) := by
  unfold closeTickSlice
  repeat' (first
    | with_reducible assumption | intro _ | with_reducible apply closeSlice_kept | split)

theorem closePointGate_kept {q : Keep} (n : Nat) (j : Nat) (v : Nanos) (e : StreamEntry) {d : Dev} (h : Kept q d) :
    Kept q (closePointGate n j v e d) := by
  unfold closePointGate
  repeat' (first
    | with_reducible assumption | intro _
    | (extract_lets +onlyGivenNames -underBinder dd; first
        | ((have hh : Kept q dd := ?_); on_goal 2 => clear_value dd; on_goal 1 => subst dd)
        | (subst dd))
    | with_reducible apply closeTickSlice_kept | with_reducible apply modLidar_kept
    | with_reducible apply takeFinal_kept | with_reducible apply Kept.foldl | with_reducible apply Kept.foldlSnd
    | split)

theorem gateClose_kept {q : Keep} (stream : Fin 48) {d : Dev} (h : Kept q d) :
    Kept q (gateClose stream d) := by
  unfold gateClose
  repeat' (first
    | with_reducible assumption | intro _
    | (extract_lets +onlyGivenNames -underBinder dd; first
        | ((have hh : Kept q dd := ?_); on_goal 2 => clear_value dd; on_goal 1 => subst dd)
        | (subst dd))
    | with_reducible apply closeGate_kept | with_reducible apply closePointGate_kept
    | with_reducible apply buildBands_kept | split)

end Sys2Proof.Machine
end

