-- ==== Sys2Proof/Laws/KeptHost.lean ====
section
/-!
SUPPORT. What the operations of the outputs and the host interface keep (Sys2Proof/Laws/Kept.lean): one lemma for each.
-/

set_option linter.unusedVariables false

namespace Sys2Proof.Machine

open Sys2Proof

/-! ### Outputs -/

theorem takeCarried_kept {q : Keep} (src : Source) (kind : OutKind) (ss : List Nat) {d : Dev} (h : Kept q d) :
    Kept q (takeCarried src kind ss d) := by
  unfold takeCarried
  repeat' (first
    | with_reducible assumption | intro _
    | (extract_lets +onlyGivenNames -underBinder dd; (subst dd))
    | ((conv => (arg 2; arg 23; skip)); with_reducible refine Kept.mk' ?_ rfl rfl rfl rfl rfl rfl rfl rfl rfl))

theorem putAssembling_kept {q : Keep} (a : Assembling) {d : Dev} (h : Kept q d) :
    Kept q (putAssembling a d) := by
  unfold putAssembling
  repeat' (first
    | with_reducible assumption | intro _
    | (extract_lets +onlyGivenNames -underBinder dd; (subst dd))
    | ((conv => (arg 2; arg 23; skip)); with_reducible refine Kept.mk' ?_ rfl rfl rfl rfl rfl rfl rfl rfl rfl))

theorem beginOutput_kept {q : Keep} (src : Source) (tick : Nat) (kind : OutKind) {d : Dev} (h : Kept q d) :
    Kept q (beginOutput src tick d kind) := by
  unfold beginOutput
  repeat' (first
    | with_reducible assumption | intro _ | with_reducible apply putAssembling_kept)

theorem takeSeq_kept {q : Keep} (src : Source) (kind : OutKind) {d : Dev} (h : Kept q d) :
    Kept q (takeSeq src kind d).2 := by
  unfold takeSeq
  repeat' (first
    | with_reducible assumption | intro _
    | (extract_lets +onlyGivenNames -underBinder dd; (subst dd))
    | ((conv => (arg 2; arg 23; skip)); with_reducible refine Kept.mk' ?_ rfl rfl rfl rfl rfl rfl rfl rfl rfl)
    | split | dsimp -zeta only)

theorem keepGrid_kept {q : Keep} (p : Nat) (a : Assembling) {d : Dev} (h : Kept q d) :
    Kept q (keepGrid p a d) := by
  unfold keepGrid
  repeat' (first
    | with_reducible assumption | intro _
    | (extract_lets +onlyGivenNames -underBinder dd; (subst dd))
    | ((conv => (arg 2; arg 23; skip)); with_reducible refine Kept.mk' ?_ rfl rfl rfl rfl rfl rfl rfl rfl rfl))

theorem keepTracks_kept {q : Keep} (a : Assembling) {d : Dev} (h : Kept q d) :
    Kept q (keepTracks a d) := by
  unfold keepTracks
  repeat' (first
    | with_reducible assumption | intro _
    | (extract_lets +onlyGivenNames -underBinder dd; (subst dd))
    | ((conv => (arg 2; arg 23; skip)); with_reducible refine Kept.mk' ?_ rfl rfl rfl rfl rfl rfl rfl rfl rfl)
    | split)

theorem keepOutput_kept {q : Keep} (a : Assembling) {d : Dev} (h : Kept q d) :
    Kept q (keepOutput a d) := by
  unfold keepOutput
  repeat' (first
    | with_reducible assumption | intro _ | with_reducible apply keepGrid_kept | with_reducible apply keepTracks_kept
    | split)

theorem noteSealed_kept {q : Keep} (key : Nat) (tick : Nat) (qq : BitVec 32) {d : Dev} (h : Kept q d) :
    Kept q (noteSealed key tick qq d) := by
  unfold noteSealed
  repeat' (first
    | with_reducible assumption | intro _
    | (extract_lets +onlyGivenNames -underBinder dd; (subst dd))
    | ((conv => (arg 2; arg 23; skip)); with_reducible refine Kept.mk' ?_ rfl rfl rfl rfl rfl rfl rfl rfl rfl))

theorem sealOutput_kept {q : Keep} (src : Source) (tick : Nat) (kind : OutKind) {d : Dev} (h : Kept q d) :
    Kept q (sealOutput src tick d kind) := by
  unfold sealOutput
  repeat' (first
    | with_reducible assumption | intro _
    | (extract_lets +onlyGivenNames -underBinder dd; first
        | ((have hh : Kept q dd.2 := ?_); on_goal 2 => clear_value dd; on_goal 1 => subst dd)
        | (subst dd))
    | with_reducible apply takeSeq_kept | with_reducible apply noteSealed_kept | with_reducible apply keepOutput_kept
    | with_reducible apply takeCarried_kept | with_reducible apply putAssembling_kept | split)

theorem sealWindow_kept {q : Keep} (src : Source) (tick : Nat) (x : Nat × WindowRec) {d : Dev} (h : Kept q d) :
    Kept q (sealWindow src tick d x) := by
  unfold sealWindow
  repeat' (first
    | with_reducible assumption | intro _ | with_reducible apply sealOutput_kept | with_reducible apply Kept.foldl
    | with_reducible apply Kept.foldlSnd | split)

theorem sealDue_kept {q : Keep} {d : Dev} (h : Kept q d) :
    Kept q (sealDue d) := by
  unfold sealDue
  repeat' (first
    | with_reducible assumption | intro _ | with_reducible apply sealWindow_kept | with_reducible apply Kept.foldl)

theorem putCompleted_kept {q : Keep} (a : Assembling) {d : Dev} (h : Kept q d) :
    Kept q (putCompleted a d) := by
  unfold putCompleted
  repeat' (first
    | with_reducible assumption | intro _
    | (extract_lets +onlyGivenNames -underBinder dd; first
        | ((have hh : Kept q dd := ?_); on_goal 2 => clear_value dd; on_goal 1 => subst dd)
        | (subst dd))
    | with_reducible apply putAssembling_kept | with_reducible apply keepOutput_kept | split)

theorem completeOutput_kept {q : Keep} (src : Source) (tick : Nat) (cs : List Delivered) (kind : OutKind) {d : Dev}
    (h : Kept q d) :
    Kept q (completeOutput src tick cs d kind) := by
  unfold completeOutput
  repeat' (first
    | with_reducible assumption | intro _
    | (extract_lets +onlyGivenNames -underBinder dd; (subst dd))
    | with_reducible apply putCompleted_kept | split)

theorem burlapDelivers_kept {q : Keep} {d : Dev} (h : Kept q d) :
    Kept q (burlapDelivers d) := by
  unfold burlapDelivers
  repeat' (first
    | with_reducible assumption | intro _
    | (extract_lets +onlyGivenNames -underBinder dd; first
        | ((have hh : Kept q dd := ?_); on_goal 2 => clear_value dd; on_goal 1 => subst dd)
        | (subst dd))
    | ((conv => (arg 2; arg 23; skip)); with_reducible refine Kept.mk' ?_ rfl rfl rfl rfl rfl rfl rfl rfl rfl)
    | with_reducible apply endConditions_kept | split)

theorem rejectContent_kept {q : Keep} (src : Source) (kind : OutKind) {d : Dev} (h : Kept q d) :
    Kept q (rejectContent src kind d) := by
  unfold rejectContent
  repeat' (first
    | with_reducible assumption | intro _
    | (extract_lets +onlyGivenNames -underBinder dd; first
        | ((have hh : Kept q dd := ?_); on_goal 2 => clear_value dd; on_goal 1 => subst dd)
        | (subst dd))
    | ((conv => (arg 2; arg 23; skip)); with_reducible refine Kept.mk' ?_ rfl rfl rfl rfl rfl rfl rfl rfl rfl)
    | with_reducible apply satEvent_kept | with_reducible apply raiseH_kept | with_reducible apply raiseV_kept
    | split)

theorem noteSelection_kept {q : Keep} (tick : Nat) (kind : OutKind) (s : Option Source) {d : Dev} (h : Kept q d) :
    Kept q (noteSelection tick kind s d) := by
  unfold noteSelection
  repeat' (first
    | with_reducible assumption | intro _
    | (extract_lets +onlyGivenNames -underBinder dd; first
        | ((have hh : Kept q dd := ?_); on_goal 2 => clear_value dd; on_goal 1 => subst dd)
        | (subst dd))
    | ((conv => (arg 2; arg 23; skip)); with_reducible refine Kept.mk' ?_ rfl rfl rfl rfl rfl rfl rfl rfl rfl)
    | with_reducible apply endCondition_kept | with_reducible apply raiseV_kept | split)

theorem selectOutput_kept {q : Keep} (tick : Nat) (kind : OutKind) {d : Dev} (h : Kept q d) :
    Kept q (selectOutput tick d kind) := by
  unfold selectOutput
  repeat' (first
    | with_reducible assumption | intro _
    | (extract_lets +onlyGivenNames -underBinder dd; first
        | ((have hh : Kept q dd := ?_); on_goal 2 => clear_value dd; on_goal 1 => subst dd)
        | (subst dd))
    | with_reducible apply noteSelection_kept | with_reducible apply rejectContent_kept | split)

theorem assemblyComplete_kept {q : Keep} (src : Source) (tick : Nat) (w : Nat) (contents : List Delivered) {d : Dev}
    (h : Kept q d) :
    Kept q (assemblyComplete src tick w contents d) := by
  unfold assemblyComplete
  repeat' (first
    | with_reducible assumption | intro _
    | (extract_lets +onlyGivenNames -underBinder dd; first
        | ((have hh : Kept q dd := ?_); on_goal 2 => clear_value dd; on_goal 1 => subst dd)
        | (subst dd))
    | with_reducible apply Dev_setWin_kept | with_reducible apply completeOutput_kept
    | with_reducible apply selectOutput_kept | with_reducible apply burlapDelivers_kept
    | with_reducible apply Kept.foldl | with_reducible apply Kept.foldlSnd | split)

theorem countWdg_kept {q : Keep} {d : Dev} (h : Kept q d) :
    Kept q (countWdg d) := by
  unfold countWdg
  repeat' (first
    | with_reducible assumption | intro _
    | (extract_lets +onlyGivenNames -underBinder dd; (subst dd))
    | ((conv => (arg 2; arg 23; skip)); with_reducible refine Kept.mk' ?_ rfl rfl rfl rfl rfl rfl rfl rfl rfl)
    | with_reducible apply bump_kept)

theorem assemblyTimerExpiry_kept {q : Keep} (src : Source) (tick : Nat) (w : Nat) {d : Dev} (h : Kept q d) :
    Kept q (assemblyTimerExpiry src tick w d) := by
  unfold assemblyTimerExpiry
  repeat' (first
    | with_reducible assumption | intro _
    | (extract_lets +onlyGivenNames -underBinder dd; first
        | ((have hh : Kept q dd := ?_); on_goal 2 => clear_value dd; on_goal 1 => subst dd)
        | (subst dd))
    | with_reducible apply miss_kept | with_reducible apply countWdg_kept | with_reducible apply raiseV_kept
    | with_reducible apply selectOutput_kept | with_reducible apply Kept.foldl | with_reducible apply Kept.foldlSnd
    | split)

theorem buildOutput_kept {q : Keep} (tick : Nat) (kind : OutKind) (sel : Option Source) {d : Dev} (h : Kept q d) :
    ∀ e, buildOutput tick kind sel d = some e → Kept q e.2.2 := by
  intro e he
  unfold buildOutput at he
  repeat' (first
    | (extract_lets at he) | (obtain ⟨p, -, rfl⟩ := Option.map_eq_some_iff.mp he)
    | (obtain rfl := Option.some.inj he) | (cases he) | split at he)
  all_goals repeat' (first
    | with_reducible assumption | intro _ | with_reducible apply sealOutput_kept | with_reducible apply takeSeq_kept
    | split | dsimp -zeta only | (dsimp +zetaDelta -zeta only))

theorem crossCheck_kept {q : Keep} (b : Nanos) {d : Dev} (h : Kept q d) :
    Kept q (crossCheck b d) := by
  unfold crossCheck
  repeat' (first
    | with_reducible assumption | intro _
    | (extract_lets +onlyGivenNames -underBinder dd; first
        | ((have hh : Kept q dd := ?_); on_goal 2 => clear_value dd; on_goal 1 => subst dd)
        | (subst dd))
    | ((conv => (arg 2; arg 23; skip)); with_reducible refine Kept.mk' ?_ rfl rfl rfl rfl rfl rfl rfl rfl rfl)
    | with_reducible apply bump_kept | split)

theorem egoOutput_kept {q : Keep} (src : Source) (k : Nat) (m : Nat) (b : Nanos) (out : Nanos) (block : EgoBlock) {d
    : Dev} (h : Kept q d) :
    ∀ e, egoOutput src k m b out block d = some e → Kept q e.2 := by
  intro e he
  unfold egoOutput at he
  repeat' (first
    | (extract_lets at he) | (obtain ⟨p, -, rfl⟩ := Option.map_eq_some_iff.mp he)
    | (obtain rfl := Option.some.inj he) | (cases he) | split at he)
  all_goals repeat' (first
    | with_reducible assumption | intro _
    | ((conv => (arg 2; arg 23; skip)); with_reducible refine Kept.mk' ?_ rfl rfl rfl rfl rfl rfl rfl rfl rfl)
    | with_reducible apply takeCarried_kept | with_reducible apply takeSeq_kept | split | dsimp -zeta only)

theorem rejectEgo_kept {q : Keep} (src : Source) (b : Nanos) {d : Dev} (h : Kept q d) :
    Kept q (rejectEgo src b d) := by
  unfold rejectEgo
  repeat' (first
    | with_reducible assumption | intro _ | with_reducible apply rejectContent_kept | split)

theorem selectEgo_kept {q : Keep} (b : Nanos) {d : Dev} (h : Kept q d) :
    Kept q (selectEgo b d).2 := by
  unfold selectEgo
  repeat' (first
    | with_reducible assumption | intro _
    | (extract_lets +onlyGivenNames -underBinder dd; first
        | ((have hh : Kept q dd := ?_); on_goal 2 => clear_value dd; on_goal 1 => subst dd)
        | (subst dd))
    | with_reducible apply endCondition_kept | with_reducible apply rejectEgo_kept | with_reducible apply raiseV_kept
    | split)

/-! ### Sessions -/

theorem hostWrite_kept {q : Keep} (p : Nat) (addr : Nat) (bytes : List Byte) {d : Dev} (h : Kept q d) :
    Kept q (hostWrite p addr bytes d) := by
  unfold hostWrite
  repeat' (first
    | with_reducible assumption | intro _ | with_reducible apply emit_kept | split)

theorem writeBack_kept {q : Keep} (p : Nat) (off : Nat) (v : BitVec 32) {d : Dev} (h : Kept q d) :
    Kept q (writeBack p off v d) := by
  unfold writeBack
  repeat' (first
    | with_reducible assumption | intro _ | with_reducible apply hostWrite_kept)

theorem countProto_kept {q : Keep} (p : Nat) {d : Dev} (h : Kept q d) :
    Kept q (countProto p d) := by
  unfold countProto
  repeat' (first
    | with_reducible assumption | intro _ | with_reducible apply bump_kept | with_reducible apply Dev_modPort_kept)

theorem setSession_kept {q : Keep} (p : Nat) (s : SessState) {d : Dev} (h : Kept q d) :
    Kept q (setSession p s d) := by
  unfold setSession
  repeat' (first
    | with_reducible assumption | intro _ | with_reducible apply setInt_kept | with_reducible apply Dev_modPort_kept
    | split)

theorem writeCompletion_kept {q : Keep} (p : Nat) (c : Completion) {d : Dev} (h : Kept q d) :
    Kept q (writeCompletion p c d) := by
  unfold writeCompletion
  repeat' (first
    | with_reducible assumption | intro _
    | (extract_lets +onlyGivenNames -underBinder dd; first
        | ((have hh : Kept q dd := ?_); on_goal 2 => clear_value dd; on_goal 1 => subst dd)
        | (subst dd))
    | with_reducible apply hostWrite_kept | with_reducible apply Dev_modPort_kept | with_reducible apply bump_kept
    | with_reducible apply setInt_kept | with_reducible apply writeBack_kept | split)

theorem finishDup_kept {q : Keep} (p : Nat) (c : Completion) (stored : Option (List Byte)) (sub : Submission) {d :
    Dev} (h : Kept q d) :
    Kept q (finishDup p c stored d sub) := by
  unfold finishDup
  repeat' (first
    | with_reducible assumption | intro _
    | (extract_lets +onlyGivenNames -underBinder dd; first
        | ((have hh : Kept q dd.2 := ?_); on_goal 2 => clear_value dd; on_goal 1 => subst dd)
        | (subst dd))
    | with_reducible apply drawFree_kept | with_reducible apply writeCompletion_kept
    | with_reducible apply hostWrite_kept | split)

theorem complete_kept {q : Keep} (p : Nat) (sub : Submission) (status : BitVec 8) (tick : Nat) (result : Option (List
    Byte)) (bytes : Nat) {d : Dev} (h : Kept q d) :
    Kept q (complete p sub status tick result bytes d) := by
  unfold complete
  repeat' (first
    | with_reducible assumption | intro _
    | (extract_lets +onlyGivenNames -underBinder dd; first
        | ((have hh : Kept q dd := ?_); on_goal 2 => clear_value dd; on_goal 1 => subst dd)
        | (subst dd))
    | with_reducible apply hostWrite_kept | with_reducible apply writeCompletion_kept
    | with_reducible apply Dev_modPort_kept | with_reducible apply finishDup_kept | with_reducible apply Kept.foldl
    | with_reducible apply Kept.foldlSnd | split)

theorem completePlain_kept {q : Keep} (p : Nat) (status : BitVec 8) (sub : Submission) {d : Dev} (h : Kept q d) :
    Kept q (completePlain p status d sub) := by
  unfold completePlain
  repeat' (first
    | with_reducible assumption | intro _
    | (extract_lets +onlyGivenNames -underBinder dd; first
        | ((have hh : Kept q dd.2 := ?_); on_goal 2 => clear_value dd; on_goal 1 => subst dd)
        | (subst dd))
    | with_reducible apply drawFree_kept | with_reducible apply complete_kept)

theorem completeWith_kept {q : Keep} (p : Nat) (sub : Submission) (status : BitVec 8) (tick : Nat) (b : List Byte) {d
    : Dev} (h : Kept q d) :
    Kept q (completeWith p sub status tick b d) := by
  unfold completeWith
  repeat' (first
    | with_reducible assumption | intro _ | with_reducible apply complete_kept | split)

theorem freeForks_kept {q : Keep} (p : Nat) {d : Dev} (h : Kept q d) :
    Kept q (freeForks p d) := by
  unfold freeForks
  repeat' (first
    | with_reducible assumption | intro _
    | (extract_lets +onlyGivenNames -underBinder dd; first
        | ((have hh : Kept q dd := ?_); on_goal 2 => clear_value dd; on_goal 1 => subst dd)
        | (subst dd))
    | with_reducible apply setSeq_kept | with_reducible apply Dev_modPort_kept | with_reducible apply Kept.foldl
    | with_reducible apply Kept.foldlSnd | split)

theorem closing_kept {q : Keep} (p : Nat) (reason : CloseReason) {d : Dev} (h : Kept q d) :
    Kept q (closing p reason d) := by
  unfold closing
  repeat' (first
    | with_reducible assumption | intro _
    | (extract_lets +onlyGivenNames -underBinder dd; first
        | ((have hh : Kept q dd := ?_); on_goal 2 => clear_value dd; on_goal 1 => subst dd)
        | (subst dd))
    | with_reducible apply Dev_modPort_kept | with_reducible apply completePlain_kept
    | with_reducible apply setSession_kept | with_reducible apply freeForks_kept | with_reducible apply Kept.foldl)

theorem closeNow_kept {q : Keep} (p : Nat) (reason : Option CloseReason) {d : Dev} (h : Kept q d) :
    Kept q (closeNow p reason d) := by
  unfold closeNow
  repeat' (first
    | with_reducible assumption | intro _
    | (extract_lets +onlyGivenNames -underBinder dd; first
        | ((have hh : Kept q dd := ?_); on_goal 2 => clear_value dd; on_goal 1 => subst dd)
        | (subst dd))
    | with_reducible apply freeForks_kept | with_reducible apply Dev_modPort_kept
    | with_reducible apply setSession_kept | with_reducible apply bump_kept)

theorem closeDue_kept {q : Keep} (p : Nat) {d : Dev} (h : Kept q d) :
    Kept q (closeDue d p) := by
  unfold closeDue
  repeat' (first
    | with_reducible assumption | intro _ | with_reducible apply closeNow_kept | split)

theorem sessionOpen_kept {q : Keep} (port : Fin 4) {d : Dev} (h : Kept q d) :
    Kept q (sessionOpen port d) := by
  unfold sessionOpen
  repeat' (first
    | with_reducible assumption | intro _
    | (extract_lets +onlyGivenNames -underBinder dd; first
        | ((have hh : Kept q dd := ?_); on_goal 2 => clear_value dd; on_goal 1 => subst dd)
        | (subst dd))
    | ((conv => (arg 2; arg 23; skip)); with_reducible refine Kept.mk' ?_ rfl rfl rfl rfl rfl rfl rfl rfl rfl)
    | with_reducible apply Dev_setPort_kept | with_reducible apply countProto_kept
    | with_reducible apply setSession_kept | split)

theorem sessionClose_kept {q : Keep} (port : Fin 4) {d : Dev} (h : Kept q d) :
    Kept q (sessionClose port d) := by
  unfold sessionClose
  repeat' (first
    | with_reducible assumption | intro _
    | (extract_lets +onlyGivenNames -underBinder dd; (subst dd))
    | with_reducible apply closeNow_kept | with_reducible apply closing_kept | with_reducible apply Dev_setPort_kept
    | with_reducible apply countProto_kept | split)

theorem writeReport_kept {q : Keep} (p : Nat) {d : Dev} (h : Kept q d) :
    Kept q (writeReport p d) := by
  unfold writeReport
  repeat' (first
    | with_reducible assumption | intro _
    | (extract_lets +onlyGivenNames -underBinder dd; (subst dd))
    | ((conv => (arg 2; arg 23; skip)); with_reducible refine Kept.mk' ?_ rfl rfl rfl rfl rfl rfl rfl rfl rfl)
    | with_reducible apply setInt_kept | with_reducible apply hostWrite_kept)

theorem dropWork_kept {q : Keep} (p : Nat) (order : Nat) {d : Dev} (h : Kept q d) :
    Kept q (dropWork p order d) := by
  unfold dropWork
  repeat' (first
    | with_reducible assumption | intro _ | with_reducible apply Dev_modPort_kept)

theorem finishCommand_kept {q : Keep} (p : Nat) (w : Work) (status : BitVec 8) (b : List Byte) {d : Dev} (h : Kept q
    d) :
    Kept q (finishCommand p w status b d) := by
  unfold finishCommand
  repeat' (first
    | with_reducible assumption | intro _
    | (extract_lets +onlyGivenNames -underBinder dd; first
        | ((have hh : Kept q dd := ?_); on_goal 2 => clear_value dd; on_goal 1 => subst dd)
        | ((have hh : Kept q dd.2 := ?_); on_goal 2 => clear_value dd; on_goal 1 => subst dd)
        | (subst dd))
    | with_reducible apply dropWork_kept | with_reducible apply drawFree_kept
    | with_reducible apply completeWith_kept)

theorem attestReportDone_kept {q : Keep} (port : Fin 4) {d : Dev} (h : Kept q d) :
    Kept q (attestReportDone port d) := by
  unfold attestReportDone
  repeat' (first
    | with_reducible assumption | intro _
    | (extract_lets +onlyGivenNames -underBinder dd; first
        | ((have hh : Kept q dd := ?_); on_goal 2 => clear_value dd; on_goal 1 => subst dd)
        | (subst dd))
    | with_reducible apply writeReport_kept | with_reducible apply setSession_kept
    | with_reducible apply Dev_modPort_kept | with_reducible apply finishCommand_kept | split)

theorem attestTimeout_kept {q : Keep} (port : Fin 4) {d : Dev} (h : Kept q d) :
    Kept q (attestTimeout port d) := by
  unfold attestTimeout
  repeat' (first
    | with_reducible assumption | intro _
    | (extract_lets +onlyGivenNames -underBinder dd; (subst dd))
    | with_reducible apply closeNow_kept | split)

theorem hstHeartbeat_kept {q : Keep} (port : Fin 4) (value : BitVec 32) {d : Dev} (h : Kept q d) :
    Kept q (hstHeartbeat port value d) := by
  unfold hstHeartbeat
  repeat' (first
    | with_reducible assumption | intro _
    | (extract_lets +onlyGivenNames -underBinder dd; (subst dd))
    | with_reducible apply Dev_setPort_kept | split)

theorem hbWarn_kept {q : Keep} (port : Fin 4) {d : Dev} (h : Kept q d) :
    Kept q (hbWarn port d) := by
  unfold hbWarn
  repeat' (first
    | with_reducible assumption | intro _
    | (extract_lets +onlyGivenNames -underBinder dd; (subst dd))
    | with_reducible apply setInt_kept | split)

theorem heartbeatTimeout_kept {q : Keep} (port : Fin 4) {d : Dev} (h : Kept q d) :
    Kept q (heartbeatTimeout port d) := by
  unfold heartbeatTimeout
  repeat' (first
    | with_reducible assumption | intro _
    | (extract_lets +onlyGivenNames -underBinder dd; (subst dd))
    | with_reducible apply closing_kept | split)

theorem linkClose_kept {q : Keep} (p : Nat) {d : Dev} (h : Kept q d) :
    Kept q (linkClose p d) := by
  unfold linkClose
  repeat' (first
    | with_reducible assumption | intro _ | with_reducible apply closeNow_kept | split)

theorem pcieLinkEvent_kept {q : Keep} (port : Fin 4) (event : PcieEvent) {d : Dev} (h : Kept q d) :
    Kept q (pcieLinkEvent port event d) := by
  unfold pcieLinkEvent
  repeat' (first
    | with_reducible assumption | intro _
    | (extract_lets +onlyGivenNames -underBinder dd; first
        | ((have hh : Kept q dd := ?_); on_goal 2 => clear_value dd; on_goal 1 => subst dd)
        | (subst dd))
    | with_reducible apply linkClose_kept | with_reducible apply Dev_modPort_kept | split)

theorem dmaReadFault_kept {q : Keep} (port : Fin 4) {d : Dev} (h : Kept q d) :
    Kept q (dmaReadFault port d) := by
  unfold dmaReadFault
  repeat' (first
    | with_reducible assumption | intro _
    | (extract_lets +onlyGivenNames -underBinder dd; first
        | ((have hh : Kept q dd := ?_); on_goal 2 => clear_value dd; on_goal 1 => subst dd)
        | (subst dd))
    | with_reducible apply emit_kept | with_reducible apply closing_kept | split)

theorem hstSqTail_kept {q : Keep} (port : Fin 4) (value : BitVec 32) {d : Dev} (h : Kept q d) :
    Kept q (hstSqTail port value d) := by
  unfold hstSqTail
  repeat' (first
    | with_reducible assumption | intro _
    | (extract_lets +onlyGivenNames -underBinder dd; (subst dd))
    | with_reducible apply countProto_kept | with_reducible apply Dev_setPort_kept | split)

theorem hstCqHead_kept {q : Keep} (port : Fin 4) (value : BitVec 32) {d : Dev} (h : Kept q d) :
    Kept q (hstCqHead port value d) := by
  unfold hstCqHead
  repeat' (first
    | with_reducible assumption | intro _
    | (extract_lets +onlyGivenNames -underBinder dd; (subst dd))
    | with_reducible apply countProto_kept | with_reducible apply Dev_setPort_kept | split)

theorem hstSrCons_kept {q : Keep} (port : Fin 4) (ring : Fin 16) (value : BitVec 32) {d : Dev} (h : Kept q d) :
    Kept q (hstSrCons port ring value d) := by
  unfold hstSrCons
  repeat' (first
    | with_reducible assumption | intro _
    | (extract_lets +onlyGivenNames -underBinder dd; (subst dd))
    | with_reducible apply countProto_kept | with_reducible apply Dev_setPort_kept | split)

theorem hstIntStatus_kept {q : Keep} (port : Fin 4) (value : BitVec 32) {d : Dev} (h : Kept q d) :
    Kept q (hstIntStatus port value d) := by
  unfold hstIntStatus
  repeat' (first
    | with_reducible assumption | intro _
    | (extract_lets +onlyGivenNames -underBinder dd; (subst dd))
    | with_reducible apply Dev_setPort_kept | split)

theorem msixWrite_kept {q : Keep} (p : Nat) (i : Nat) (v : BitVec 32) {d : Dev} (h : Kept q d) :
    Kept q (msixWrite p i v d) := by
  unfold msixWrite
  repeat' (first
    | with_reducible assumption | intro _
    | (extract_lets +onlyGivenNames -underBinder dd; first
        | ((have hh : Kept q dd := ?_); on_goal 2 => clear_value dd; on_goal 1 => subst dd)
        | (subst dd))
    | with_reducible apply Dev_modPort_kept | with_reducible apply emit_kept | with_reducible apply Dev_setPort_kept
    | split)

theorem otherWrite_kept {q : Keep} (p : Nat) (off : Nat) (v : BitVec 32) {d : Dev} (h : Kept q d) :
    Kept q (otherWrite p off v d) := by
  unfold otherWrite
  repeat' (first
    | with_reducible assumption | intro _
    | (extract_lets +onlyGivenNames -underBinder dd; (subst dd))
    | with_reducible apply Dev_setPort_kept | with_reducible apply countProto_kept
    | with_reducible apply msixWrite_kept | split)

theorem registerWrite_kept {q : Keep} (port : Fin 4) (offset : BitVec 32) (value : BitVec 32) {d : Dev} (h : Kept q
    d) :
    Kept q (registerWrite port offset value d) := by
  unfold registerWrite
  repeat' (first
    | with_reducible assumption | intro _
    | (extract_lets +onlyGivenNames -underBinder dd; (subst dd))
    | with_reducible apply sessionOpen_kept | with_reducible apply sessionClose_kept
    | with_reducible apply hstHeartbeat_kept | with_reducible apply hstSqTail_kept
    | with_reducible apply hstCqHead_kept | with_reducible apply hstIntStatus_kept
    | with_reducible apply hstSrCons_kept | with_reducible apply otherWrite_kept | split)

theorem writeSlot_kept {q : Keep} (p : Nat) (r : Nat) (parts : List (Nat × List Byte)) {d : Dev} (h : Kept q d) :
    Kept q (writeSlot p r parts d) := by
  unfold writeSlot
  repeat' (first
    | with_reducible assumption | intro _
    | (extract_lets +onlyGivenNames -underBinder dd; first
        | ((have hh : Kept q dd := ?_); on_goal 2 => clear_value dd; on_goal 1 => subst dd)
        | (subst dd))
    | with_reducible apply Dev_modPort_kept | with_reducible apply bump_kept | with_reducible apply writeBack_kept
    | with_reducible apply hostWrite_kept | with_reducible apply setInt_kept | with_reducible apply Kept.foldl
    | with_reducible apply Kept.foldlSnd | split)

/-! ### Queries -/

theorem countHostRefuse_kept {q : Keep} {d : Dev} (h : Kept q d) :
    Kept q (countHostRefuse d) := by
  unfold countHostRefuse
  repeat' (first
    | with_reducible assumption | intro _
    | (extract_lets +onlyGivenNames -underBinder dd; (subst dd))
    | ((conv => (arg 2; arg 23; skip)); with_reducible refine Kept.mk' ?_ rfl rfl rfl rfl rfl rfl rfl rfl rfl)
    | with_reducible apply bump_kept)

theorem admitQuery_kept {q : Keep} (p : Nat) (s : Submission) (us : Nat) (key : Nat) {d : Dev} (h : Kept q d) :
    Kept q (admitQuery p s us key d) := by
  unfold admitQuery
  repeat' (first
    | with_reducible assumption | intro _
    | (extract_lets +onlyGivenNames -underBinder dd; first
        | ((have hh : Kept q dd := ?_); on_goal 2 => clear_value dd; on_goal 1 => subst dd)
        | (subst dd))
    | ((conv => (arg 2; arg 23; skip)); with_reducible refine Kept.mk' ?_ rfl rfl rfl rfl rfl rfl rfl rfl rfl)
    | with_reducible apply Dev_modPort_kept)

theorem takeQuery_kept {q : Keep} (p : Nat) (s : Submission) {d : Dev} (h : Kept q d) :
    Kept q (takeQuery p s d) := by
  unfold takeQuery
  repeat' (first
    | with_reducible assumption | intro _
    | (extract_lets +onlyGivenNames -underBinder dd; (subst dd))
    | with_reducible apply completePlain_kept | with_reducible apply countHostRefuse_kept
    | with_reducible apply admitQuery_kept | split)

theorem takeCommand_kept {q : Keep} (p : Nat) (s : Submission) {d : Dev} (h : Kept q d) :
    Kept q (takeCommand p s d) := by
  unfold takeCommand
  repeat' (first
    | with_reducible assumption | intro _
    | (extract_lets +onlyGivenNames -underBinder dd; (subst dd))
    | ((conv => (arg 2; arg 23; skip)); with_reducible refine Kept.mk' ?_ rfl rfl rfl rfl rfl rfl rfl rfl rfl)
    | with_reducible apply Dev_modPort_kept)

theorem takeSubmission_kept {q : Keep} (p : Nat) (s : Submission) {d : Dev} (h : Kept q d) :
    Kept q (takeSubmission p s d) := by
  unfold takeSubmission
  repeat' (first
    | with_reducible assumption | intro _
    | (extract_lets +onlyGivenNames -underBinder dd; first
        | ((have hh : Kept q dd := ?_); on_goal 2 => clear_value dd; on_goal 1 => subst dd)
        | (subst dd))
    | with_reducible apply completePlain_kept | with_reducible apply finishDup_kept
    | with_reducible apply Dev_setPort_kept | with_reducible apply takeQuery_kept
    | with_reducible apply takeCommand_kept | split)

theorem submissionFetch_kept {q : Keep} (port : Fin 4) (sub : Submission) {d : Dev} (h : Kept q d) :
    Kept q (submissionFetch port sub d) := by
  unfold submissionFetch
  repeat' (first
    | with_reducible assumption | intro _
    | (extract_lets +onlyGivenNames -underBinder dd; first
        | ((have hh : Kept q dd := ?_); on_goal 2 => clear_value dd; on_goal 1 => subst dd)
        | (subst dd))
    | with_reducible apply emit_kept | with_reducible apply Dev_setPort_kept
    | with_reducible apply takeSubmission_kept | with_reducible apply writeBack_kept | split)

theorem flushWindow_kept {q : Keep} (key : Nat) (late : Bool) {d : Dev} (h : Kept q d) :
    Kept q (flushWindow key late d) := by
  unfold flushWindow
  repeat' (first
    | with_reducible assumption | intro _
    | (extract_lets +onlyGivenNames -underBinder dd; first
        | ((have hh : Kept q dd := ?_); on_goal 2 => clear_value dd; on_goal 1 => subst dd)
        | (subst dd))
    | with_reducible apply dropWork_kept | with_reducible apply Dev_modPort_kept
    | with_reducible apply completeWith_kept | with_reducible apply Kept.foldl)

theorem endQuery_kept {q : Keep} (p : Nat) (key : Nat) (w : Work) (st : BitVec 8) (b : List Byte) {d : Dev} (h : Kept
    q d) :
    Kept q (endQuery p key w st b d) := by
  unfold endQuery
  repeat' (first
    | with_reducible assumption | intro _
    | (extract_lets +onlyGivenNames -underBinder dd; first
        | ((have hh : Kept q dd := ?_); on_goal 2 => clear_value dd; on_goal 1 => subst dd)
        | (subst dd))
    | ((conv => (arg 2; arg 23; skip)); with_reducible refine Kept.mk' ?_ rfl rfl rfl rfl rfl rfl rfl rfl rfl)
    | with_reducible apply Dev_modPort_kept | with_reducible apply flushWindow_kept | split)

theorem runModel_kept {q : Keep} (port : Fin 4) (data : List Byte) {d : Dev} (h : Kept q d) :
    Kept q (runModel port data d) := by
  unfold runModel
  repeat' (first
    | with_reducible assumption | intro _
    | (extract_lets +onlyGivenNames -underBinder dd; first
        | ((have hh : Kept q dd.2 := ?_); on_goal 2 => clear_value dd; on_goal 1 => subst dd)
        | (subst dd))
    | with_reducible apply endQuery_kept | with_reducible apply drawFree_kept | split)

theorem readGrid_kept {q : Keep} (port : Fin 4) {d : Dev} (h : Kept q d) :
    Kept q (readGrid port d) := by
  unfold readGrid
  repeat' (first
    | with_reducible assumption | intro _
    | (extract_lets +onlyGivenNames -underBinder dd; (subst dd))
    | with_reducible apply endQuery_kept | split)

theorem readTrack_kept {q : Keep} (port : Fin 4) {d : Dev} (h : Kept q d) :
    Kept q (readTrack port d) := by
  unfold readTrack
  repeat' (first
    | with_reducible assumption | intro _
    | (extract_lets +onlyGivenNames -underBinder dd; (subst dd))
    | with_reducible apply endQuery_kept | split)

theorem hostFork_kept {q : Keep} (port : Fin 4) {d : Dev} (h : Kept q d) :
    Kept q (hostFork port d) := by
  unfold hostFork
  repeat' (first
    | with_reducible assumption | intro _
    | (extract_lets +onlyGivenNames -underBinder dd; first
        | ((have hh : Kept q dd := ?_); on_goal 2 => clear_value dd; on_goal 1 => subst dd)
        | ((have hh : Kept q dd.2 := ?_); on_goal 2 => clear_value dd; on_goal 1 => subst dd)
        | (subst dd))
    | with_reducible apply endQuery_kept | with_reducible apply forkOf_kept | with_reducible apply Dev_modPort_kept
    | split)

theorem freeFork_kept {q : Keep} (port : Fin 4) {d : Dev} (h : Kept q d) :
    Kept q (freeFork port d) := by
  unfold freeFork
  repeat' (first
    | with_reducible assumption | intro _
    | (extract_lets +onlyGivenNames -underBinder dd; first
        | ((have hh : Kept q dd := ?_); on_goal 2 => clear_value dd; on_goal 1 => subst dd)
        | (subst dd))
    | with_reducible apply setSeq_kept | with_reducible apply endQuery_kept | with_reducible apply Dev_modPort_kept
    | split)

theorem abortQueries_kept {q : Keep} (key : Nat) {d : Dev} (h : Kept q d) :
    Kept q (abortQueries key d) := by
  unfold abortQueries
  repeat' (first
    | with_reducible assumption | intro _
    | (extract_lets +onlyGivenNames -underBinder dd; first
        | ((have hh : Kept q dd := ?_); on_goal 2 => clear_value dd; on_goal 1 => subst dd)
        | (subst dd))
    | with_reducible apply Dev_modPort_kept | with_reducible apply flushWindow_kept | with_reducible apply Kept.foldl)

theorem hostWindowEnd_kept {q : Keep} (tick : Nat) (w : Nat) {d : Dev} (h : Kept q d) :
    Kept q (hostWindowEnd tick w d) := by
  unfold hostWindowEnd
  repeat' (first
    | with_reducible assumption | intro _
    | (extract_lets +onlyGivenNames -underBinder dd; first
        | ((have hh : Kept q dd := ?_); on_goal 2 => clear_value dd; on_goal 1 => subst dd)
        | (subst dd))
    | with_reducible apply flushWindow_kept | with_reducible apply stopWindow_kept
    | with_reducible apply closeGroupFlags_kept | with_reducible apply Dev_setWin_kept
    | with_reducible apply abortQueries_kept | split)

theorem dropLostQueries_kept {q : Keep} (tick : Nat) {d : Dev} (h : Kept q d) :
    Kept q (dropLostQueries tick d) := by
  unfold dropLostQueries
  repeat' (first
    | with_reducible assumption | intro _
    | (extract_lets +onlyGivenNames -underBinder dd; (subst dd))
    | with_reducible apply abortQueries_kept | with_reducible apply Kept.foldl | with_reducible apply Kept.foldlSnd
    | split)

theorem restoreBudgets_kept {q : Keep} (p : Nat) {d : Dev} (h : Kept q d) :
    Kept q (restoreBudgets d p) := by
  unfold restoreBudgets
  repeat' (first
    | with_reducible assumption | intro _ | with_reducible apply Dev_modPort_kept)

/-! ### Subscriptions -/

theorem startCommand_kept {q : Keep} (p : Nat) (order : Nat) {d : Dev} (h : Kept q d) :
    Kept q (startCommand p order d) := by
  unfold startCommand
  repeat' (first
    | with_reducible assumption | intro _ | with_reducible apply Dev_modPort_kept)

theorem unlistedOp_kept {q : Keep} (port : Fin 4) {d : Dev} (h : Kept q d) :
    Kept q (unlistedOp port d) := by
  unfold unlistedOp
  repeat' (first
    | with_reducible assumption | intro _ | with_reducible apply finishCommand_kept | split)

theorem attest_kept {q : Keep} (port : Fin 4) {d : Dev} (h : Kept q d) :
    Kept q (attest port d) := by
  unfold attest
  repeat' (first
    | with_reducible assumption | intro _ | with_reducible apply startCommand_kept | split)

theorem failClaim_kept {q : Keep} (p : Nat) (w : Work) {d : Dev} (h : Kept q d) :
    Kept q (failClaim p w d) := by
  unfold failClaim
  repeat' (first
    | with_reducible assumption | intro _ | with_reducible apply conditionEvent_kept
    | with_reducible apply privileged_kept | with_reducible apply finishCommand_kept)

theorem privClaim_kept {q : Keep} (port : Fin 4) {d : Dev} (h : Kept q d) :
    Kept q (privClaim port d) := by
  unfold privClaim
  repeat' (first
    | with_reducible assumption | intro _
    | (extract_lets +onlyGivenNames -underBinder dd; (subst dd))
    | with_reducible apply emit_kept | with_reducible apply startCommand_kept | with_reducible apply failClaim_kept
    | split)

theorem privVerifyDone_kept {q : Keep} (port : Fin 4) (claim : PrivClaim) {d : Dev} (h : Kept q d) :
    Kept q (privVerifyDone port claim d) := by
  unfold privVerifyDone
  repeat' (first
    | with_reducible assumption | intro _
    | (extract_lets +onlyGivenNames -underBinder dd; (subst dd))
    | with_reducible apply finishCommand_kept | with_reducible apply Dev_modPort_kept
    | with_reducible apply failClaim_kept | split)

theorem privileged_kept {q : Keep} (p : Nat) (op : Nat) (f : Work → Dev → Dev) {d : Dev} (hf : ∀ w d, Kept q d → Kept
    q (f w d)) (h : Kept q d) :
    Kept q (privileged p op f d) := by
  unfold privileged
  repeat' (first
    | with_reducible assumption | intro _ | with_reducible apply hf | with_reducible apply finishCommand_kept | split)

theorem setTraceMask_kept {q : Keep} (port : Fin 4) {d : Dev} (h : Kept q d) :
    Kept q (setTraceMask port d) := by
  unfold setTraceMask
  repeat' (first
    | with_reducible assumption | intro _
    | (extract_lets +onlyGivenNames -underBinder dd; (subst dd))
    | ((conv => (arg 2; arg 23; skip)); with_reducible refine Kept.mk' ?_ rfl rfl rfl rfl rfl rfl rfl rfl rfl)
    | with_reducible apply privileged_kept | with_reducible apply finishCommand_kept)

theorem subscribe_kept {q : Keep} (port : Fin 4) {d : Dev} (h : Kept q d) :
    Kept q (subscribe port d) := by
  unfold subscribe
  repeat' (first
    | with_reducible assumption | intro _
    | (extract_lets +onlyGivenNames -underBinder dd; first
        | ((have hh : Kept q dd := ?_); on_goal 2 => clear_value dd; on_goal 1 => subst dd)
        | (subst dd))
    | with_reducible apply Dev_modPort_kept | with_reducible apply finishCommand_kept | split)

theorem unsubscribe_kept {q : Keep} (port : Fin 4) {d : Dev} (h : Kept q d) :
    Kept q (unsubscribe port d) := by
  unfold unsubscribe
  repeat' (first
    | with_reducible assumption | intro _
    | (extract_lets +onlyGivenNames -underBinder dd; (subst dd))
    | with_reducible apply finishCommand_kept | with_reducible apply Dev_modPort_kept | split)

theorem dropSubs_kept {q : Keep} (p : Nat) {d : Dev} (h : Kept q d) :
    Kept q (dropSubs d p) := by
  unfold dropSubs
  repeat' (first
    | with_reducible assumption | intro _
    | (extract_lets +onlyGivenNames -underBinder dd; (subst dd))
    | with_reducible apply Dev_modPort_kept)

theorem deliverTo_kept {q : Keep} (o : Output) (p : Nat) (r : Nat) (s : Subscription) {d : Dev} (h : Kept q d) :
    Kept q (deliverTo o p r d s) := by
  unfold deliverTo
  repeat' (first
    | with_reducible assumption | intro _
    | (extract_lets +onlyGivenNames -underBinder dd; (subst dd))
    | with_reducible apply writeSlot_kept | split)

theorem deliverPort_kept {q : Keep} (o : Output) (p : Nat) {d : Dev} (h : Kept q d) :
    Kept q (deliverPort o d p) := by
  unfold deliverPort
  repeat' (first
    | with_reducible assumption | intro _ | with_reducible apply deliverTo_kept | with_reducible apply Kept.foldl
    | with_reducible apply Kept.foldlSnd | split)

theorem deliver_kept {q : Keep} (o : Output) {d : Dev} (h : Kept q d) :
    Kept q (deliver o d) := by
  unfold deliver
  repeat' (first
    | with_reducible assumption | intro _ | with_reducible apply deliverPort_kept | with_reducible apply Kept.foldl)

theorem putSub_kept {q : Keep} (p : Nat) (r : Nat) (s : Subscription) (x : Subscription) {d : Dev} (h : Kept q d) :
    Kept q (putSub p r s x d) := by
  unfold putSub
  repeat' (first
    | with_reducible assumption | intro _ | with_reducible apply Dev_modPort_kept)

theorem closeBatch_kept {q : Keep} (p : Nat) (r : Nat) (s : Subscription) {d : Dev} (h : Kept q d) :
    Kept q (closeBatch p r d s) := by
  unfold closeBatch
  repeat' (first
    | with_reducible assumption | intro _
    | (extract_lets +onlyGivenNames -underBinder dd; (subst dd))
    | with_reducible apply putSub_kept | with_reducible apply writeSlot_kept | with_reducible apply Kept.foldl
    | with_reducible apply Kept.foldlSnd | split)

theorem closeBatches_kept {q : Keep} {d : Dev} (h : Kept q d) :
    Kept q (closeBatches d) := by
  unfold closeBatches
  repeat' (first
    | with_reducible assumption | intro _
    | (extract_lets +onlyGivenNames -underBinder dd; first
        | ((have hh : Kept q dd := ?_); on_goal 2 => clear_value dd; on_goal 1 => subst dd)
        | (subst dd))
    | ((conv => (arg 2; arg 23; skip)); with_reducible refine Kept.mk' ?_ rfl rfl rfl rfl rfl rfl rfl rfl rfl)
    | with_reducible apply closeBatch_kept | with_reducible apply Kept.foldl | with_reducible apply Kept.foldlSnd
    | split)

/-! ### Transmit -/

theorem sendOutput_kept {q : Keep} (o : Output) (bound : Nat) {d : Dev} (h : Kept q d) :
    Kept q (sendOutput o bound d) := by
  unfold sendOutput
  repeat' (first
    | with_reducible assumption | intro _
    | (extract_lets +onlyGivenNames -underBinder dd; (subst dd))
    | with_reducible apply release_kept | split)

theorem countFallback_kept {q : Keep} (o : Output) {d : Dev} (h : Kept q d) :
    Kept q (countFallback o d) := by
  unfold countFallback
  repeat' (first
    | with_reducible assumption | intro _
    | (extract_lets +onlyGivenNames -underBinder dd; (subst dd))
    | ((conv => (arg 2; arg 23; skip)); with_reducible refine Kept.mk' ?_ rfl rfl rfl rfl rfl rfl rfl rfl rfl)
    | with_reducible apply bump_kept | split)

theorem noteList_kept {q : Keep} (o : Output) {d : Dev} (h : Kept q d) :
    Kept q (noteList o d) := by
  unfold noteList
  repeat' (first
    | with_reducible assumption | intro _
    | (extract_lets +onlyGivenNames -underBinder dd; (subst dd))
    | ((conv => (arg 2; arg 23; skip)); with_reducible refine Kept.mk' ?_ rfl rfl rfl rfl rfl rfl rfl rfl rfl)
    | split)

theorem burnRollback_kept {q : Keep} (o : Output) {d : Dev} (h : Kept q d) : Kept q (burnRollback o d) := by
  unfold burnRollback
  split
  · exact h
  · extract_lets b want d1
    split
    · rename_i hlt
      exact emit_kept _ (Kept.mkBoot h rfl rfl rfl rfl rfl rfl rfl (Nat.le_of_lt hlt) id)
    · exact Kept.mk' h rfl rfl rfl rfl rfl rfl rfl rfl rfl

theorem sendEverywhere_kept {q : Keep} (o : Output) (bound : Nat) {d : Dev} (h : Kept q d) :
    Kept q (sendEverywhere o bound d) := by
  unfold sendEverywhere
  repeat' (first
    | with_reducible assumption | intro _ | with_reducible apply burnRollback_kept
    | with_reducible apply noteList_kept | with_reducible apply countFallback_kept
    | with_reducible apply deliver_kept | with_reducible apply sendOutput_kept)

theorem transmitOutput_kept {q : Keep} (tick : Nat) (bound : Nat) (runs : Bool) (kind : OutKind) {d : Dev} (h : Kept
    q d) :
    Kept q (transmitOutput tick bound runs d kind) := by
  unfold transmitOutput
  repeat' (first
    | with_reducible assumption | intro _
    | (extract_lets +onlyGivenNames -underBinder dd; first
        | ((have hh : Kept q dd := ?_); on_goal 2 => clear_value dd; on_goal 1 => subst dd)
        | (subst dd))
    | with_reducible apply selectOutput_kept | with_reducible apply sendEverywhere_kept
    | with_reducible refine buildOutput_kept _ _ _ ?_ _ (by assumption)
    | with_reducible refine buildOutput_kept _ _ _ ?_ (_, _) (by assumption) | split)

theorem transmitWindow_kept {q : Keep} (tick : Nat) (w : Nat) {d : Dev} (h : Kept q d) :
    Kept q (transmitWindow tick w d) := by
  unfold transmitWindow
  repeat' (first
    | with_reducible assumption | intro _
    | (extract_lets +onlyGivenNames -underBinder dd; first
        | ((have hh : Kept q dd := ?_); on_goal 2 => clear_value dd; on_goal 1 => subst dd)
        | (subst dd))
    | with_reducible apply Dev_setWin_kept | with_reducible apply transmitOutput_kept
    | with_reducible apply Kept.foldl | with_reducible apply Kept.foldlSnd | split)

end Sys2Proof.Machine
end

