-- ==== Sys2Proof/Laws/KeptBoot.lean ====
section
/-!
SUPPORT. What the operations of release, boot, the ladder and the tick boundaries keep (Sys2Proof/Laws/Kept.lean): one lemma for each.
-/

set_option linter.unusedVariables false

namespace Sys2Proof.Machine

open Sys2Proof

/-! ### Release -/

theorem missBlocked_kept {q : Keep} (src : Source) (tick : Nat) {d : Dev} (h : Kept q d) :
    Kept q (missBlocked src tick d) := by
  unfold missBlocked
  repeat' (first
    | with_reducible assumption | intro _ | with_reducible apply miss_kept | with_reducible apply Kept.foldl
    | with_reducible apply Kept.foldlSnd | split)

theorem clearTallies_kept {q : Keep} (r : WindowRec) (cl : Nat) {d : Dev} (h : Kept q d) :
    Kept q (clearTallies r d cl) := by
  unfold clearTallies
  repeat' (first
    | with_reducible assumption | intro _ | with_reducible apply Dev_modCluster_kept)

theorem startCore_kept {q : Keep} (key : Nat) (w : Nat) (start : Nat → Option Nat) (qq : Nat) {d : Dev} (h : Kept q
    d) :
    Kept q (startCore key w start d qq) := by
  unfold startCore
  repeat' (first
    | with_reducible assumption | intro _
    | (extract_lets +onlyGivenNames -underBinder dd; (subst dd))
    | with_reducible apply Dev_setCore_kept | split)

theorem releaseCores_kept {q : Keep} (src : Source) (tick : Nat) (w : Nat) (r : WindowRec) {d : Dev} (h : Kept q d) :
    Kept q (releaseCores src tick w r d) := by
  unfold releaseCores
  repeat' (first
    | with_reducible assumption | intro _
    | (extract_lets +onlyGivenNames -underBinder dd; first
        | ((have hh : Kept q dd := ?_); on_goal 2 => clear_value dd; on_goal 1 => subst dd)
        | (subst dd))
    | with_reducible apply clearTallies_kept | with_reducible apply startCore_kept
    | with_reducible apply Dev_setWin_kept | with_reducible apply Kept.foldl | with_reducible apply Kept.foldlSnd
    | split)

theorem settleWindow_kept {q : Keep} (src : Source) (tick : Nat) (x : Nat × WindowRec) {d : Dev} (h : Kept q d) :
    Kept q (settleWindow src tick d x) := by
  unfold settleWindow
  repeat' (first
    | with_reducible assumption | intro _
    | (extract_lets +onlyGivenNames -underBinder dd; first
        | ((have hh : Kept q dd := ?_); on_goal 2 => clear_value dd; on_goal 1 => subst dd)
        | (subst dd))
    | with_reducible apply Dev_setWin_kept | with_reducible apply closeChambray_kept
    | with_reducible apply chambrayEnded_kept | split)

theorem settleUnit_kept {q : Keep} (src : Source) (tick : Nat) (x : Nat × WindowRec) {d : Dev} (h : Kept q d) :
    Kept q (settleUnit src tick x d) := by
  unfold settleUnit
  repeat' (first
    | with_reducible assumption | intro _ | with_reducible apply settleWindow_kept | with_reducible apply Kept.foldl
    | with_reducible apply Kept.foldlSnd | split)

theorem settlePassed_kept {q : Keep} {d : Dev} (h : Kept q d) :
    Kept q (settlePassed d) := by
  unfold settlePassed
  repeat' (first
    | with_reducible assumption | intro _ | with_reducible apply settleWindow_kept | with_reducible apply Kept.foldl
    | with_reducible apply Kept.foldlSnd | split)

theorem runWindow_kept {q : Keep} (src : Source) (tick : Nat) (w : Nat) {d : Dev} (h : Kept q d) :
    Kept q (runWindow src tick w d) := by
  unfold runWindow
  repeat' (first
    | with_reducible assumption | intro _
    | (extract_lets +onlyGivenNames -underBinder dd; (subst dd))
    | with_reducible apply Dev_setWin_kept)

theorem releaseNow_kept {q : Keep} (src : Source) (tick : Nat) (w : Nat) (r : WindowRec) {d : Dev} (h : Kept q d) :
    Kept q (releaseNow src tick w r d) := by
  unfold releaseNow
  repeat' (first
    | with_reducible assumption | intro _ | with_reducible apply releaseCores_kept
    | with_reducible apply runStep_kept | with_reducible apply runWindow_kept | with_reducible apply settleUnit_kept
    | with_reducible apply runChambray_kept | with_reducible apply releaseSerge_kept
    | with_reducible apply beginOutput_kept | with_reducible apply openGolden_kept | with_reducible apply Kept.foldl
    | with_reducible apply Kept.foldlSnd | split)

theorem releaseTransition_kept {q : Keep} (src : Source) (tick : Nat) (m : Nat) (t : TickRec) {d : Dev} (h : Kept q
    d) :
    Kept q (releaseTransition src tick m t d) := by
  unfold releaseTransition
  repeat' (first
    | with_reducible assumption | intro _
    | (extract_lets +onlyGivenNames -underBinder dd; (subst dd))
    | with_reducible apply startSolve_kept | split)

theorem windowRelease_kept {q : Keep} (src : Source) (tick : Nat) (w : Nat) {d : Dev} (h : Kept q d) :
    Kept q (windowRelease src tick w d) := by
  unfold windowRelease
  repeat' (first
    | with_reducible assumption | intro _
    | (extract_lets +onlyGivenNames -underBinder dd; (subst dd))
    | with_reducible apply releaseTransition_kept | with_reducible apply miss_kept
    | with_reducible apply Dev_setWin_kept | with_reducible apply releaseNow_kept | split)

theorem heldWindowRelease_kept {q : Keep} (src : Source) (tick : Nat) (w : Nat) {d : Dev} (h : Kept q d) :
    Kept q (heldWindowRelease src tick w d) := by
  unfold heldWindowRelease
  repeat' (first
    | with_reducible assumption | intro _
    | (extract_lets +onlyGivenNames -underBinder dd; first
        | ((have hh : Kept q dd := ?_); on_goal 2 => clear_value dd; on_goal 1 => subst dd)
        | (subst dd))
    | ((conv => (arg 2; arg 23; skip)); with_reducible refine Kept.mk' ?_ rfl rfl rfl rfl rfl rfl rfl rfl rfl)
    | with_reducible apply miss_kept | with_reducible apply bump_kept | with_reducible apply releaseNow_kept | split)

theorem layerWatchdogExpiry_kept {q : Keep} (src : Source) (tick : Nat) (w : Nat) {d : Dev} (h : Kept q d) :
    Kept q (layerWatchdogExpiry src tick w d) := by
  unfold layerWatchdogExpiry
  repeat' (first
    | with_reducible assumption | intro _
    | (extract_lets +onlyGivenNames -underBinder dd; first
        | ((have hh : Kept q dd := ?_); on_goal 2 => clear_value dd; on_goal 1 => subst dd)
        | (subst dd))
    | with_reducible apply abortQueries_kept | with_reducible apply overrun_kept | split)

theorem stagingWindowEnd_kept {q : Keep} (tick : Nat) (w : Nat) (bytes : Nat) {d : Dev} (h : Kept q d) :
    Kept q (stagingWindowEnd tick w bytes d) := by
  unfold stagingWindowEnd
  repeat' (first
    | with_reducible assumption | intro _
    | (extract_lets +onlyGivenNames -underBinder dd; first
        | ((have hh : Kept q dd := ?_); on_goal 2 => clear_value dd; on_goal 1 => subst dd)
        | (subst dd))
    | ((conv => (arg 2; arg 23; skip)); with_reducible refine Kept.mk' ?_ rfl rfl rfl rfl rfl rfl rfl rfl rfl)
    | with_reducible apply Dev_setWin_kept | with_reducible apply copyOverlay_kept | split)

/-! ### Boot -/

theorem burnRetired_kept {q : Keep} {d : Dev} (h : Kept q d) : Kept q (burnRetired d) :=
  emit_kept _ (Kept.mkBoot h rfl rfl rfl rfl rfl rfl rfl (Nat.le_refl _) (fun _ => rfl))

theorem noteHeader_kept {q : Keep} (s : Slot) (c : SlotRead) {d : Dev} (h : Kept q d) : Kept q (noteHeader s c d) :=
  Kept.mk' h rfl rfl rfl rfl rfl rfl rfl (NvState.setHeader_rollbackCount _ _ _) (NvState.setHeader_lifecycle _ _ _)

theorem eraseStripe_kept {q : Keep} (s : Slot) (stripe : Nat) {d : Dev} (h : Kept q d) : Kept q (eraseStripe s d
    stripe) := by
  unfold eraseStripe
  extract_lets nv hdr nv'
  refine emit_kept _ (Kept.mk' h rfl rfl rfl rfl rfl rfl rfl ?_ ?_)
  · show nv'.rollbackCount = nv.rollbackCount
    subst nv'; split
    · exact NvState.setHeader_rollbackCount _ _ _
    · rfl
  · show nv'.lifecycle = nv.lifecycle
    subst nv'; split
    · exact NvState.setHeader_lifecycle _ _ _
    · rfl

theorem eraseManifest_kept {q : Keep} (s : Slot) {d : Dev} (h : Kept q d) :
    Kept q (eraseManifest s d) := by
  unfold eraseManifest
  repeat' (first
    | with_reducible assumption | intro _ | with_reducible apply eraseStripe_kept)

theorem noteFail_kept {q : Keep} (s : Slot) (cause : Nat) {d : Dev} (h : Kept q d) :
    Kept q (noteFail s cause d) := by
  unfold noteFail
  repeat' (first
    | with_reducible assumption | intro _
    | (extract_lets +onlyGivenNames -underBinder dd; (subst dd))
    | ((conv => (arg 2; arg 23; skip)); with_reducible refine Kept.mk' ?_ rfl rfl rfl rfl rfl rfl rfl rfl rfl)
    | split)

theorem failSlot_kept {q : Keep} (cause : Nat) {d : Dev} (hq : q.pos = none) (hm : q.plan = none) (h : Kept q d) :
    Kept q (failSlot cause d) := by
  unfold failSlot
  repeat' (first
    | with_reducible assumption | intro _
    | (extract_lets +onlyGivenNames -underBinder dd; first
        | ((have hh : Kept q dd := ?_); on_goal 2 => clear_value dd; on_goal 1 => subst dd)
        | (subst dd))
    | ((conv => (arg 2; arg 23; skip)); with_reducible refine Kept.mk' ?_ rfl rfl rfl rfl rfl rfl rfl rfl rfl)
    | with_reducible apply noteFail_kept | with_reducible apply fullReset_kept | split)

theorem switchOn_kept {q : Keep} {d : Dev} (h : Kept q d) :
    Kept q (switchOn d) := by
  unfold switchOn
  repeat' (first
    | with_reducible assumption | intro _
    | (extract_lets +onlyGivenNames -underBinder dd; first
        | ((have hh : Kept q dd := ?_); on_goal 2 => clear_value dd; on_goal 1 => subst dd)
        | (subst dd))
    | ((conv => (arg 2; arg 23; skip)); with_reducible refine Kept.mk' ?_ rfl rfl rfl rfl rfl rfl rfl rfl rfl)
    | with_reducible apply Dev_modCluster_kept | with_reducible apply Kept.foldl)

theorem loadBurlap_kept {q : Keep} {d : Dev} (h : Kept q d) :
    Kept q (loadBurlap d) := by
  unfold loadBurlap
  repeat' (first
    | with_reducible assumption | intro _ | with_reducible apply loadBurlapCluster_kept
    | with_reducible apply Kept.foldl)

theorem startSequencer_kept {q : Keep} {d : Dev} (hq : q.pos = none) (hm : q.plan = none) (h : Kept q d) :
    Kept q (startSequencer d) := by
  unfold startSequencer
  repeat' (first
    | with_reducible assumption | intro _
    | (extract_lets +onlyGivenNames -underBinder dd; (subst dd))
    | exact rfl | with_reducible refine Dev_setTime_good_tick _ hq rfl ?_
    | with_reducible refine Dev_setTime_good_plan _ hm rfl ?_
    | with_reducible refine Dev_setTime_good_both _ hq hm ?_ | with_reducible apply Dev_setTime_kept | split)

theorem startImage_kept {q : Keep} (img : Image) {d : Dev} (hq : q.pos = none) (hm : q.plan = none) (h : Kept q d) :
    Kept q (startImage img d) := by
  unfold startImage
  repeat' (first
    | with_reducible assumption | intro _
    | (extract_lets +onlyGivenNames -underBinder dd; first
        | ((have hh : Kept q dd := ?_); on_goal 2 => clear_value dd; on_goal 1 => subst dd)
        | (subst dd))
    | ((conv => (arg 2; arg 23; skip)); with_reducible refine Kept.mk' ?_ rfl rfl rfl rfl rfl rfl rfl rfl rfl)
    | with_reducible apply loadBurlap_kept | with_reducible apply switchOn_kept
    | with_reducible apply restoreWear_kept | with_reducible apply startSequencer_kept
    | with_reducible apply loadUnit_kept | with_reducible apply enableLidar_kept | with_reducible apply Kept.foldl)

theorem phase0Loaded_kept {q : Keep} (read : SlotRead) {d : Dev} (hq : q.pos = none) (hm : q.plan = none) (h : Kept q
    d) :
    Kept q (phase0Loaded read d) := by
  unfold phase0Loaded
  repeat' (first
    | with_reducible assumption | intro _
    | (extract_lets +onlyGivenNames -underBinder dd; first
        | ((have hh : Kept q dd := ?_); on_goal 2 => clear_value dd; on_goal 1 => subst dd)
        | (subst dd))
    | ((conv => (arg 2; arg 23; skip)); with_reducible refine Kept.mk' ?_ rfl rfl rfl rfl rfl rfl rfl rfl rfl)
    | with_reducible apply noteHeader_kept | with_reducible apply burnRetired_kept
    | with_reducible apply failSlot_kept | with_reducible apply startImage_kept | split)

theorem sectionVerified_kept {q : Keep} (id : BitVec 8) (bytes : List Byte) (digest : Nat) {d : Dev} (hq : q.pos =
    none) (hm : q.plan = none) (h : Kept q d) :
    Kept q (sectionVerified id bytes digest d) := by
  unfold sectionVerified
  repeat' (first
    | with_reducible assumption | intro _
    | (extract_lets +onlyGivenNames -underBinder dd; first
        | ((have hh : Kept q dd := ?_); on_goal 2 => clear_value dd; on_goal 1 => subst dd)
        | (subst dd))
    | ((conv => (arg 2; arg 23; skip)); with_reducible refine Kept.mk' ?_ rfl rfl rfl rfl rfl rfl rfl rfl rfl)
    | with_reducible apply failSlot_kept | with_reducible apply enableCamera_kept | with_reducible apply Kept.foldl
    | with_reducible apply Kept.foldlSnd | split)

theorem slotVerified_kept {q : Keep} (bad : Option (BitVec 8)) {d : Dev} (hq : q.pos = none) (hm : q.plan = none) (h
    : Kept q d) :
    Kept q (slotVerified bad d) := by
  unfold slotVerified
  repeat' (first
    | with_reducible assumption | intro _
    | (extract_lets +onlyGivenNames -underBinder dd; (subst dd))
    | ((conv => (arg 2; arg 23; skip)); with_reducible refine Kept.mk' ?_ rfl rfl rfl rfl rfl rfl rfl rfl rfl)
    | with_reducible apply failSlot_kept | split)

theorem stageWrite_kept {q : Keep} (port : Fin 4) {d : Dev} (h : Kept q d) :
    Kept q (stageWrite port d) := by
  unfold stageWrite
  repeat' (first
    | with_reducible assumption | intro _
    | (extract_lets +onlyGivenNames -underBinder dd; first
        | ((have hh : Kept q dd := ?_); on_goal 2 => clear_value dd; on_goal 1 => subst dd)
        | (subst dd))
    | ((conv => (arg 2; arg 23; skip)); with_reducible refine Kept.mk' ?_ rfl rfl rfl rfl rfl rfl rfl rfl rfl)
    | with_reducible apply privileged_kept | with_reducible apply finishCommand_kept
    | with_reducible apply eraseManifest_kept | with_reducible apply eraseStripe_kept
    | with_reducible apply emit_kept | with_reducible apply startCommand_kept | with_reducible apply Kept.foldl
    | with_reducible apply Kept.foldlSnd | split)

theorem finishStage_kept {q : Keep} (p : Nat) (op : BitVec 8) (result : List Byte) {d : Dev} (h : Kept q d) :
    Kept q (finishStage p op result d) := by
  unfold finishStage
  repeat' (first
    | with_reducible assumption | intro _ | with_reducible apply finishCommand_kept | split)

theorem stageWriteDone_kept {q : Keep} (head : List Byte) {d : Dev} (h : Kept q d) : Kept q (stageWriteDone head d)
    := by
  unfold stageWriteDone
  split
  · split
    · exact h
    · extract_lets s nv
      refine finishStage_kept _ _ _ (emit_kept _ (Kept.mk' h rfl rfl rfl rfl rfl rfl rfl ?_ ?_))
      · show nv.rollbackCount = d.boot.nv.rollbackCount
        subst nv; split
        · exact NvState.setHeader_rollbackCount _ _ _
        · rfl
      · show nv.lifecycle = d.boot.nv.lifecycle
        subst nv; split
        · exact NvState.setHeader_lifecycle _ _ _
        · rfl
  · exact h

theorem stageCommit_kept {q : Keep} (port : Fin 4) {d : Dev} (h : Kept q d) :
    Kept q (stageCommit port d) := by
  unfold stageCommit
  repeat' (first
    | with_reducible assumption | intro _
    | (extract_lets +onlyGivenNames -underBinder dd; (subst dd))
    | ((conv => (arg 2; arg 23; skip)); with_reducible refine Kept.mk' ?_ rfl rfl rfl rfl rfl rfl rfl rfl rfl)
    | with_reducible apply privileged_kept | with_reducible apply finishCommand_kept
    | with_reducible apply startCommand_kept | split)

theorem endCommit_kept {q : Keep} (p : Nat) (outcome : Nat) (sec : Nat) (hh : SlotHeader) {d : Dev} (h : Kept q d) :
    Kept q (endCommit p outcome sec hh d) := by
  unfold endCommit
  repeat' (first
    | with_reducible assumption | intro _
    | (extract_lets +onlyGivenNames -underBinder dd; first
        | ((have hh : Kept q dd := ?_); on_goal 2 => clear_value dd; on_goal 1 => subst dd)
        | (subst dd))
    | ((conv => (arg 2; arg 23; skip)); with_reducible refine Kept.mk' ?_ rfl rfl rfl rfl rfl rfl rfl rfl rfl)
    | with_reducible apply eraseManifest_kept | with_reducible apply finishStage_kept | split)

theorem stageCommitDone_kept {q : Keep} (read : SlotRead) {d : Dev} (h : Kept q d) :
    Kept q (stageCommitDone read d) := by
  unfold stageCommitDone
  repeat' (first
    | with_reducible assumption | intro _
    | (extract_lets +onlyGivenNames -underBinder dd; first
        | ((have hh : Kept q dd := ?_); on_goal 2 => clear_value dd; on_goal 1 => subst dd)
        | (subst dd))
    | with_reducible apply noteHeader_kept | with_reducible apply burnRetired_kept
    | with_reducible apply endCommit_kept | split)

theorem warmClose_kept {q : Keep} (p : Nat) {d : Dev} (h : Kept q d) :
    Kept q (warmClose d p) := by
  unfold warmClose
  repeat' (first
    | with_reducible assumption | intro _ | with_reducible apply closing_kept | split)

theorem warmStart_kept {q : Keep} (port : Fin 4) {d : Dev} (h : Kept q d) :
    Kept q (warmStart port d) := by
  unfold warmStart
  repeat' (first
    | with_reducible assumption | intro _
    | (extract_lets +onlyGivenNames -underBinder dd; first
        | ((have hh : Kept q dd := ?_); on_goal 2 => clear_value dd; on_goal 1 => subst dd)
        | (subst dd))
    | ((conv => (arg 2; arg 23; skip)); with_reducible refine Kept.mk' ?_ rfl rfl rfl rfl rfl rfl rfl rfl rfl)
    | with_reducible apply privileged_kept | with_reducible apply finishCommand_kept
    | with_reducible apply warmClose_kept | with_reducible apply Kept.foldl | with_reducible apply Kept.foldlSnd
    | split)

theorem failWarm_kept {q : Keep} (s : Slot) (cause : Nat) {d : Dev} (h : Kept q d) :
    Kept q (failWarm s cause d) := by
  unfold failWarm
  repeat' (first
    | with_reducible assumption | intro _
    | (extract_lets +onlyGivenNames -underBinder dd; first
        | ((have hh : Kept q dd := ?_); on_goal 2 => clear_value dd; on_goal 1 => subst dd)
        | (subst dd))
    | ((conv => (arg 2; arg 23; skip)); with_reducible refine Kept.mk' ?_ rfl rfl rfl rfl rfl rfl rfl rfl rfl)
    | with_reducible apply eraseManifest_kept | with_reducible apply conditionEvent_kept | split)

theorem cutSolves_kept {q : Keep} (bc : Nanos) {d : Dev} (h : Kept q d) :
    Kept q (cutSolves bc d) := by
  unfold cutSolves
  repeat' (first
    | with_reducible assumption | intro _ | with_reducible apply modSlot_kept | with_reducible apply Kept.foldl)

theorem warmReadDone_kept {q : Keep} (read : SlotRead) {d : Dev} (h : Kept q d) :
    Kept q (warmReadDone read d) := by
  unfold warmReadDone
  repeat' (first
    | with_reducible assumption | intro _
    | (extract_lets +onlyGivenNames -underBinder dd; first
        | ((have hh : Kept q dd := ?_); on_goal 2 => clear_value dd; on_goal 1 => subst dd)
        | (subst dd))
    | ((conv => (arg 2; arg 23; skip)); with_reducible refine Kept.mk' ?_ rfl rfl rfl rfl rfl rfl rfl rfl rfl)
    | with_reducible apply noteHeader_kept | with_reducible apply burnRetired_kept
    | with_reducible apply failWarm_kept | with_reducible apply cutSolves_kept | split)

theorem imageBlockTimeout_kept {q : Keep} {d : Dev} (hq : q.pos = none) (hm : q.plan = none) (h : Kept q d) :
    Kept q (imageBlockTimeout d) := by
  unfold imageBlockTimeout
  repeat' (first
    | with_reducible assumption | intro _ | with_reducible apply failSlot_kept | with_reducible apply failWarm_kept
    | with_reducible apply endCommit_kept | split)

/-! ### Ladder -/

theorem countAdmitFail_kept {q : Keep} (x : Nat) {d : Dev} (h : Kept q d) :
    Kept q (countAdmitFail x d) := by
  unfold countAdmitFail
  repeat' (first
    | with_reducible assumption | intro _ | with_reducible apply bump_kept | with_reducible apply Dev_modDie_kept)

theorem admitDie_kept {q : Keep} (x : Nat) (latency : Nat) {d : Dev} (h : Kept q d) :
    Kept q (admitDie x latency d) := by
  unfold admitDie
  repeat' (first
    | with_reducible assumption | intro _ | with_reducible apply refreshModes_kept
    | with_reducible apply loadDie_kept | with_reducible apply Dev_modDie_kept)

theorem rejectDie_kept {q : Keep} (x : Nat) {d : Dev} (h : Kept q d) :
    Kept q (rejectDie x d) := by
  unfold rejectDie
  repeat' (first
    | with_reducible assumption | intro _ | with_reducible apply refreshModes_kept
    | with_reducible apply countAdmitFail_kept | with_reducible apply Dev_modDie_kept)

theorem decideReport_kept {q : Keep} (x : Nat) (ok : Bool) (latency : Nat) {d : Dev} (h : Kept q d) :
    Kept q (decideReport x ok latency d) := by
  unfold decideReport
  repeat' (first
    | with_reducible assumption | intro _
    | (extract_lets +onlyGivenNames -underBinder dd; first
        | ((have hh : Kept q dd := ?_); on_goal 2 => clear_value dd; on_goal 1 => subst dd)
        | (subst dd))
    | with_reducible apply admitDie_kept | with_reducible apply rejectDie_kept | with_reducible apply Dev_setDie_kept
    | with_reducible apply countAdmitFail_kept | with_reducible apply declareFailed_kept
    | with_reducible apply restartDie_kept | with_reducible apply Dev_modDie_kept | split)

theorem noteMemory_kept {q : Keep} (x : Nat) (m : MemFit) (start : Bool) {d : Dev} (h : Kept q d) :
    Kept q (noteMemory x m start d) := by
  unfold noteMemory
  repeat' (first
    | with_reducible assumption | intro _
    | (extract_lets +onlyGivenNames -underBinder dd; first
        | ((have hh : Kept q dd := ?_); on_goal 2 => clear_value dd; on_goal 1 => subst dd)
        | (subst dd))
    | with_reducible apply Dev_modDie_kept | with_reducible apply rejectDie_kept
    | with_reducible apply conditionEvent_kept | split)

theorem dieAdmissionReport_kept {q : Keep} (die : Fin 6) (digestsOk : Bool) (versionOk : Bool) (epochOk : Bool)
    (latency : Nat) (memory : MemFit) {d : Dev} (h : Kept q d) :
    Kept q (dieAdmissionReport die digestsOk versionOk epochOk latency memory d) := by
  unfold dieAdmissionReport
  repeat' (first
    | with_reducible assumption | intro _
    | (extract_lets +onlyGivenNames -underBinder dd; first
        | ((have hh : Kept q dd := ?_); on_goal 2 => clear_value dd; on_goal 1 => subst dd)
        | (subst dd))
    | with_reducible apply noteMemory_kept | with_reducible apply decideReport_kept
    | with_reducible apply fwEvent_kept | with_reducible apply Dev_modDie_kept | split)

theorem admissionDeadline_kept {q : Keep} (die : Fin 6) {d : Dev} (h : Kept q d) :
    Kept q (admissionDeadline die d) := by
  unfold admissionDeadline
  repeat' (first
    | with_reducible assumption | intro _
    | (extract_lets +onlyGivenNames -underBinder dd; (subst dd))
    | with_reducible apply rejectDie_kept | with_reducible apply Dev_modDie_kept | split)

theorem dieReload_kept {q : Keep} (die : Fin 6) {d : Dev} (h : Kept q d) :
    Kept q (dieReload die d) := by
  unfold dieReload
  repeat' (first
    | with_reducible assumption | intro _
    | (extract_lets +onlyGivenNames -underBinder dd; first
        | ((have hh : Kept q dd := ?_); on_goal 2 => clear_value dd; on_goal 1 => subst dd)
        | (subst dd))
    | with_reducible apply Dev_setDie_kept | with_reducible apply resetCluster_kept
    | with_reducible apply setUnitState_kept | with_reducible apply loadDie_kept
    | with_reducible apply setClusters_kept | with_reducible apply emptyMemorySide_kept
    | with_reducible apply Kept.foldl | with_reducible apply Kept.foldlSnd | split)

theorem reloadDone_kept {q : Keep} (die : Fin 6) (part : Nat) (ok : Bool) {d : Dev} (h : Kept q d) :
    Kept q (reloadDone die part ok d) := by
  unfold reloadDone
  repeat' (first
    | with_reducible assumption | intro _
    | (extract_lets +onlyGivenNames -underBinder dd; (subst dd))
    | with_reducible apply loadDie_kept | with_reducible apply Dev_setDie_kept
    | with_reducible apply loadPartition_kept | with_reducible apply resetPartition_kept | split)

theorem restartTimeout_kept {q : Keep} (die : Fin 6) (part : Nat) {d : Dev} (h : Kept q d) :
    Kept q (restartTimeout die part d) := by
  unfold restartTimeout
  repeat' (first
    | with_reducible assumption | intro _
    | (extract_lets +onlyGivenNames -underBinder dd; (subst dd))
    | with_reducible apply declareFailed_kept | split)

theorem rejoinPart_kept {q : Keep} (x : Nat) (r : PartRestart) {d : Dev} (h : Kept q d) :
    Kept q (rejoinPart x d r) := by
  unfold rejoinPart
  repeat' (first
    | with_reducible assumption | intro _
    | (extract_lets +onlyGivenNames -underBinder dd; first
        | ((have hh : Kept q dd := ?_); on_goal 2 => clear_value dd; on_goal 1 => subst dd)
        | (subst dd))
    | ((conv => (arg 2; arg 23; skip)); with_reducible refine Kept.mk' ?_ rfl rfl rfl rfl rfl rfl rfl rfl rfl)
    | with_reducible apply Dev_modDie_kept | with_reducible apply setClusters_kept
    | with_reducible apply setUnitState_kept | with_reducible apply Kept.foldl | with_reducible apply Kept.foldlSnd
    | split)

theorem rejoinDie_kept {q : Keep} (x : Nat) (r : DieRestart) {d : Dev} (h : Kept q d) :
    Kept q (rejoinDie x r d) := by
  unfold rejoinDie
  repeat' (first
    | with_reducible assumption | intro _
    | (extract_lets +onlyGivenNames -underBinder dd; first
        | ((have hh : Kept q dd := ?_); on_goal 2 => clear_value dd; on_goal 1 => subst dd)
        | (subst dd))
    | ((conv => (arg 2; arg 23; skip)); with_reducible refine Kept.mk' ?_ rfl rfl rfl rfl rfl rfl rfl rfl rfl)
    | with_reducible apply Dev_modDie_kept | with_reducible apply setUnitState_kept
    | with_reducible apply setClusters_kept | with_reducible apply Kept.foldl | with_reducible apply Kept.foldlSnd
    | split)

theorem rejoin_kept {q : Keep} (x : Nat) {d : Dev} (h : Kept q d) :
    Kept q (rejoin d x) := by
  unfold rejoin
  repeat' (first
    | with_reducible assumption | intro _
    | (extract_lets +onlyGivenNames -underBinder dd; (subst dd))
    | with_reducible apply rejoinDie_kept | with_reducible apply rejoinPart_kept | with_reducible apply Kept.foldl
    | with_reducible apply Kept.foldlSnd | split)

theorem fwWatchdogExpiry_kept {q : Keep} (p : FwProc) {d : Dev} (h : Kept q d) :
    Kept q (fwWatchdogExpiry p d) := by
  unfold fwWatchdogExpiry
  repeat' (first
    | with_reducible assumption | intro _
    | (extract_lets +onlyGivenNames -underBinder dd; first
        | ((have hh : Kept q dd := ?_); on_goal 2 => clear_value dd; on_goal 1 => subst dd)
        | (subst dd))
    | with_reducible apply modProc_kept | with_reducible apply satEvent_kept | with_reducible apply logWrite_kept
    | with_reducible apply raiseV_kept | with_reducible apply healthEvent_kept | with_reducible apply restartDie_kept
    | split)

theorem firmwareRestartComplete_kept {q : Keep} (p : FwProc) {d : Dev} (h : Kept q d) :
    Kept q (firmwareRestartComplete p d) := by
  unfold firmwareRestartComplete
  repeat' (first
    | with_reducible assumption | intro _
    | (extract_lets +onlyGivenNames -underBinder dd; first
        | ((have hh : Kept q dd := ?_); on_goal 2 => clear_value dd; on_goal 1 => subst dd)
        | (subst dd))
    | with_reducible apply modProc_kept | with_reducible apply decideReport_kept
    | with_reducible apply Dev_modDie_kept | with_reducible apply Kept.foldl | with_reducible apply Kept.foldlSnd
    | split)

theorem dropTrace_kept {q : Keep} {d : Dev} (h : Kept q d) :
    Kept q (dropTrace d) := by
  unfold dropTrace
  repeat' (first
    | with_reducible assumption | intro _
    | (extract_lets +onlyGivenNames -underBinder dd; (subst dd))
    | ((conv => (arg 2; arg 23; skip)); with_reducible refine Kept.mk' ?_ rfl rfl rfl rfl rfl rfl rfl rfl rfl)
    | with_reducible apply bump_kept)

theorem putTrace_kept {q : Keep} (r : TraceRecord) {d : Dev} (h : Kept q d) :
    Kept q (putTrace d r) := by
  unfold putTrace
  repeat' (first
    | with_reducible assumption | intro _
    | (extract_lets +onlyGivenNames -underBinder dd; (subst dd))
    | ((conv => (arg 2; arg 23; skip)); with_reducible refine Kept.mk' ?_ rfl rfl rfl rfl rfl rfl rfl rfl rfl)
    | with_reducible apply dropTrace_kept | split)

theorem tracePoint_kept {q : Keep} (die : Die) (id : BitVec 16) (args : List Word) {d : Dev} (h : Kept q d) :
    Kept q (tracePoint die id args d) := by
  unfold tracePoint
  repeat' (first
    | with_reducible assumption | intro _
    | (extract_lets +onlyGivenNames -underBinder dd; first
        | ((have hh : Kept q dd := ?_); on_goal 2 => clear_value dd; on_goal 1 => subst dd)
        | (subst dd))
    | ((conv => (arg 2; arg 23; skip)); with_reducible refine Kept.mk' ?_ rfl rfl rfl rfl rfl rfl rfl rfl rfl)
    | with_reducible apply dropTrace_kept | split)

theorem moveTrace_kept {q : Keep} {d : Dev} (h : Kept q d) :
    Kept q (moveTrace d) := by
  unfold moveTrace
  repeat' (first
    | with_reducible assumption | intro _
    | (extract_lets +onlyGivenNames -underBinder dd; (subst dd))
    | ((conv => (arg 2; arg 23; skip)); with_reducible refine Kept.mk' ?_ rfl rfl rfl rfl rfl rfl rfl rfl rfl)
    | with_reducible apply putTrace_kept | with_reducible apply Kept.foldl)

theorem tapInstruction_kept {q : Keep} (code : TapInstr) {d : Dev} (h : Kept q d) :
    Kept q (tapInstruction code d) := by
  unfold tapInstruction
  repeat' (first
    | with_reducible assumption | intro _
    | (extract_lets +onlyGivenNames -underBinder dd; (subst dd))
    | ((conv => (arg 2; arg 23; skip)); with_reducible refine Kept.mk' ?_ rfl rfl rfl rfl rfl rfl rfl rfl rfl))

/-! ### Boundary -/

theorem prevEdges_kept {q : Keep} (src : Source) (tick : Nat) {d : Dev} (h : Kept q d) :
    Kept q (prevEdges src tick d) := by
  unfold prevEdges
  repeat' (first
    | with_reducible assumption | intro _ | with_reducible apply miss_kept | with_reducible apply zeroEdge_kept
    | with_reducible apply Kept.foldl | with_reducible apply Kept.foldlSnd | split)

theorem dropOldTicks_kept {q : Keep} (k : Nat) {d : Dev} (h : Kept q d) :
    Kept q (dropOldTicks k d) := by
  unfold dropOldTicks
  repeat' (first
    | with_reducible assumption | intro _
    | (extract_lets +onlyGivenNames -underBinder dd; (subst dd))
    | ((conv => (arg 2; arg 23; skip)); with_reducible refine Kept.mk' ?_ rfl rfl rfl rfl rfl rfl rfl rfl rfl))

theorem openTick_kept {q : Keep} (k : Nat) (b : Nanos) (switched : Bool) {d : Dev} (h : Kept q d) :
    Kept q (openTick k b switched d) := by
  unfold openTick
  repeat' (first
    | with_reducible assumption | intro _
    | (extract_lets +onlyGivenNames -underBinder dd; first
        | ((have hh : Kept q dd := ?_); on_goal 2 => clear_value dd; on_goal 1 => subst dd)
        | (subst dd))
    | ((conv => (arg 2; arg 23; skip)); with_reducible refine Kept.mk' ?_ rfl rfl rfl rfl rfl rfl rfl rfl rfl)
    | with_reducible apply dropOldTicks_kept | with_reducible apply missBlocked_kept
    | with_reducible apply prevEdges_kept | with_reducible apply Kept.foldl)

theorem switchMode_kept {q : Keep} (qq : PendingMode) {d : Dev} (hm : q.plan = none) (h : Kept q d) :
    Kept q (switchMode qq d) := by
  unfold switchMode
  repeat' (first
    | with_reducible assumption | intro _
    | (extract_lets +onlyGivenNames -underBinder dd; first
        | ((have hh : Kept q dd := ?_); on_goal 2 => clear_value dd; on_goal 1 => subst dd)
        | (subst dd))
    | ((conv => (arg 2; arg 23; skip)); with_reducible refine Kept.mk' ?_ rfl rfl rfl rfl rfl rfl rfl rfl rfl)
    | ((conv => (arg 2; arg 23; skip)); with_reducible refine Kept.mkPlan hm ?_ rfl rfl rfl rfl rfl rfl rfl rfl)
    | with_reducible apply suspendSlots_kept | with_reducible apply bump_kept)

theorem stopMain_kept {q : Keep} {d : Dev} (hm : q.plan = none) (h : Kept q d) :
    Kept q (stopMain d) := by
  unfold stopMain
  repeat' (first
    | with_reducible assumption | intro _
    | (extract_lets +onlyGivenNames -underBinder dd; (subst dd))
    | ((conv => (arg 2; arg 23; skip)); with_reducible refine Kept.mkPlan hm ?_ rfl rfl rfl rfl rfl rfl rfl rfl))

theorem takeSwitch_kept {q : Keep} (k : Nat) {d : Dev} (hm : q.plan = none) (h : Kept q d) :
    Kept q (takeSwitch k d).2 := by
  unfold takeSwitch
  repeat' (first
    | with_reducible assumption | intro _
    | (extract_lets +onlyGivenNames -underBinder dd; first
        | ((have hh : Kept q dd := ?_); on_goal 2 => clear_value dd; on_goal 1 => subst dd)
        | (subst dd))
    | with_reducible apply stopMain_kept | with_reducible apply cancelSwitch_kept
    | with_reducible apply switchMode_kept | split)

theorem endWarm_kept {q : Keep} {d : Dev} (h : Kept q d) :
    Kept q (endWarm d) := by
  unfold endWarm
  repeat' (first
    | with_reducible assumption | intro _
    | (extract_lets +onlyGivenNames -underBinder dd; (subst dd))
    | ((conv => (arg 2; arg 23; skip)); with_reducible refine Kept.mk' ?_ rfl rfl rfl rfl rfl rfl rfl rfl rfl)
    | with_reducible apply bump_kept | split)

theorem startMain_kept {q : Keep} {d : Dev} (hm : q.plan = none) (h : Kept q d) :
    Kept q (startMain d).2 := by
  unfold startMain
  repeat' (first
    | with_reducible assumption | intro _
    | (extract_lets +onlyGivenNames -underBinder dd; first
        | ((have hh : Kept q dd := ?_); on_goal 2 => clear_value dd; on_goal 1 => subst dd)
        | (subst dd))
    | ((conv => (arg 2; arg 23; skip)); with_reducible refine Kept.mk' ?_ rfl rfl rfl rfl rfl rfl rfl rfl rfl)
    | ((conv => (arg 2; arg 23; skip)); with_reducible refine Kept.mkPlan hm ?_ rfl rfl rfl rfl rfl rfl rfl rfl)
    | with_reducible apply endWarm_kept | with_reducible apply copyOverlay_kept
    | with_reducible apply suspendSlots_kept | split)

theorem beginPlan_kept {q : Keep} {d : Dev} (hm : q.plan = none) (h : Kept q d) :
    Kept q (beginPlan d) := by
  unfold beginPlan
  repeat' (first
    | with_reducible assumption | intro _
    | (extract_lets +onlyGivenNames -underBinder dd; (subst dd))
    | ((conv => (arg 2; arg 23; skip)); with_reducible refine Kept.mkPlan hm ?_ rfl rfl rfl rfl rfl rfl rfl rfl)
    | with_reducible apply suspendSlots_kept)

theorem capRunning_kept {q : Keep} (u : Nat) {d : Dev} (h : Kept q d) :
    Kept q (capRunning d u) := by
  unfold capRunning
  repeat' (first
    | with_reducible assumption | intro _
    | (extract_lets +onlyGivenNames -underBinder dd; first
        | ((have hh : Kept q dd := ?_); on_goal 2 => clear_value dd; on_goal 1 => subst dd)
        | (subst dd))
    | with_reducible apply bumpSlot_kept | with_reducible apply stopUnit_kept | with_reducible apply modSlot_kept
    | split)

theorem reloadUnit_kept {q : Keep} (u : Nat) {d : Dev} (h : Kept q d) :
    Kept q (reloadUnit d u) := by
  unfold reloadUnit
  repeat' (first
    | with_reducible assumption | intro _
    | (extract_lets +onlyGivenNames -underBinder dd; first
        | ((have hh : Kept q dd := ?_); on_goal 2 => clear_value dd; on_goal 1 => subst dd)
        | (subst dd))
    | with_reducible apply capRunning_kept | with_reducible apply modSlot_kept | with_reducible apply loadUnit_kept
    | with_reducible apply Kept.foldl | with_reducible apply Kept.foldlSnd | split)

theorem changeLidar_kept {q : Keep} (old : Image) (e : Nat × StreamEntry) {d : Dev} (h : Kept q d) :
    Kept q (changeLidar old d e) := by
  unfold changeLidar
  repeat' (first
    | with_reducible assumption | intro _ | with_reducible apply enableLidar_kept | split)

theorem changeBoot_kept {q : Keep} (k : Nat) (b : Nanos) (slot : Slot) (img : Image) {d : Dev} (h : Kept q d) :
    Kept q (changeBoot k b slot img d) := by
  unfold changeBoot
  repeat' (first
    | with_reducible assumption | intro _
    | (extract_lets +onlyGivenNames -underBinder dd; first
        | ((have hh : Kept q dd := ?_); on_goal 2 => clear_value dd; on_goal 1 => subst dd)
        | (subst dd))
    | ((conv => (arg 2; arg 23; skip)); with_reducible refine Kept.mk' ?_ rfl rfl rfl rfl rfl rfl rfl rfl rfl)
    | with_reducible apply modProc_kept | with_reducible apply Dev_modDie_kept | with_reducible apply Kept.foldl)

theorem changePlan_kept {q : Keep} (b : Nanos) {d : Dev} (hm : q.plan = none) (h : Kept q d) :
    Kept q (changePlan b d) := by
  unfold changePlan
  repeat' (first
    | with_reducible assumption | intro _
    | (extract_lets +onlyGivenNames -underBinder dd; first
        | ((have hh : Kept q dd := ?_); on_goal 2 => clear_value dd; on_goal 1 => subst dd)
        | (subst dd))
    | ((conv => (arg 2; arg 23; skip)); with_reducible refine Kept.mkPlan hm ?_ rfl rfl rfl rfl rfl rfl rfl rfl)
    | exact rfl | with_reducible refine Dev_setTime_good_plan _ hm rfl ?_ | with_reducible apply Dev_setTime_kept
    | split)

theorem changeSerge_kept {q : Keep} {d : Dev} (h : Kept q d) :
    Kept q (changeSerge d) := by
  unfold changeSerge
  repeat' (first
    | with_reducible assumption | intro _ | with_reducible apply suspendSlots_kept
    | with_reducible apply reloadUnit_kept | with_reducible apply Kept.foldl)

theorem changeover_kept {q : Keep} (k : Nat) (b : Nanos) (slot : Slot) (img : Image) {d : Dev} (hm : q.plan = none)
    (h : Kept q d) :
    Kept q (changeover k b slot img d) := by
  unfold changeover
  repeat' (first
    | with_reducible assumption | intro _
    | (extract_lets +onlyGivenNames -underBinder dd; first
        | ((have hh : Kept q dd := ?_); on_goal 2 => clear_value dd; on_goal 1 => subst dd)
        | (subst dd))
    | ((conv => (arg 2; arg 23; skip)); with_reducible refine Kept.mk' ?_ rfl rfl rfl rfl rfl rfl rfl rfl rfl)
    | with_reducible apply changeBoot_kept | with_reducible apply cancelSwitch_kept
    | with_reducible apply changePlan_kept | with_reducible apply loadBurlap_kept
    | with_reducible apply Dev_setGolden_kept | with_reducible apply changeCamera_kept
    | with_reducible apply changeLidar_kept | with_reducible apply refreshModes_kept
    | with_reducible apply changeSerge_kept | with_reducible apply Kept.foldl | with_reducible apply Kept.foldlSnd
    | split)

theorem hostBoundary_kept {q : Keep} {d : Dev} (h : Kept q d) :
    Kept q (hostBoundary d) := by
  unfold hostBoundary
  repeat' (first
    | with_reducible assumption | intro _
    | (extract_lets +onlyGivenNames -underBinder dd; first
        | ((have hh : Kept q dd := ?_); on_goal 2 => clear_value dd; on_goal 1 => subst dd)
        | (subst dd))
    | ((conv => (arg 2; arg 23; skip)); with_reducible refine Kept.mk' ?_ rfl rfl rfl rfl rfl rfl rfl rfl rfl)
    | with_reducible apply restoreBudgets_kept | with_reducible apply dropSubs_kept
    | with_reducible apply closeDue_kept | with_reducible apply closeBatches_kept | with_reducible apply Kept.foldl)

theorem planBoundary_kept {q : Keep} (k : Nat) (b : Nanos) (first : Bool) {d : Dev} (hm : q.plan = none) (h : Kept q
    d) :
    Kept q (planBoundary k b first d).2 := by
  unfold planBoundary
  repeat' (first
    | with_reducible assumption | intro _
    | (extract_lets +onlyGivenNames -underBinder dd; first
        | ((have hh : Kept q dd := ?_); on_goal 2 => clear_value dd; on_goal 1 => subst dd)
        | (subst dd))
    | exact rfl | with_reducible refine Dev_setTime_good_plan _ hm rfl ?_ | with_reducible apply startMain_kept
    | with_reducible apply beginPlan_kept | with_reducible apply changeSerge_kept
    | with_reducible apply Dev_setTime_kept | with_reducible apply changeover_kept
    | with_reducible apply takeSwitch_kept | split)

theorem dieBoundary_kept {q : Keep} (x : Nat) {d : Dev} (h : Kept q d) :
    Kept q (dieBoundary d x) := by
  unfold dieBoundary
  repeat' (first
    | with_reducible assumption | intro _ | with_reducible apply Dev_modDie_kept)

theorem majorTickBoundary_kept {q : Keep} {d : Dev} (hq : q.pos = none) (hm : q.plan = none) (h : Kept q d) :
    Kept q (majorTickBoundary d) := by
  unfold majorTickBoundary
  repeat' (first
    | with_reducible assumption | intro _
    | (extract_lets +onlyGivenNames -underBinder dd; first
        | ((have hh : Kept q dd := ?_); on_goal 2 => clear_value dd; on_goal 1 => subst dd)
        | ((have hh : Kept q dd.2 := ?_); on_goal 2 => clear_value dd; on_goal 1 => subst dd)
        | (subst dd))
    | exact rfl | with_reducible refine Dev_setTime_good_tick _ hq rfl ?_
    | with_reducible refine Dev_setTime_good_plan _ hm rfl ?_
    | with_reducible refine Dev_setTime_good_both _ hq hm ?_ | with_reducible apply hostBoundary_kept
    | with_reducible apply planBoundary_kept | with_reducible apply Dev_setTime_kept
    | with_reducible apply armAll_kept | with_reducible apply stepStreams_kept
    | with_reducible apply captureOffset_kept | with_reducible apply swapCal_kept
    | with_reducible apply rejoinBurlap_kept | with_reducible apply restoreClocks_kept
    | with_reducible apply rejoin_kept | with_reducible apply stepEngine_kept | with_reducible apply openTick_kept
    | with_reducible apply dieBoundary_kept | with_reducible apply dropLostQueries_kept
    | with_reducible apply countResume_kept | with_reducible apply Kept.foldl | with_reducible apply Kept.foldlSnd
    | split)

theorem startSafeOk_kept {q : Keep} {d : Dev} (h : Kept q d) : Kept q (startSafeOk d) := by
  unfold startSafeOk
  extract_lets f ms bt d1
  split
  · exact h
  · rename_i hc
    have hv : f.classV = false := by simp_all
    have h1 : Kept q d1 := Kept.mkPins h rfl (fun _ => by simp [pinsOk, runSafeOk, runPins, hv]) rfl rfl rfl rfl
    split
    · exact conditionEvent_kept _ _ (Kept.mk' h1 rfl rfl rfl rfl rfl rfl rfl rfl rfl)
    · exact h1

theorem feltBoundary_kept {q : Keep} {d : Dev} (h : Kept q d) : Kept q (feltBoundary d) := by
  unfold feltBoundary
  refine Kept.mkPins h rfl (fun hp => ?_) rfl rfl rfl rfl
  dsimp only
  split
  · rename_i hs
    exact ⟨fun _ => ⟨by simp [runPins], (hp.1 hs).2⟩, fun hn => absurd hs hn⟩
  · exact hp

theorem sendBroadcast_kept {q : Keep} (b : Nanos) {d : Dev} (h : Kept q d) :
    Kept q (sendBroadcast b d) := by
  unfold sendBroadcast
  repeat' (first
    | with_reducible assumption | intro _
    | (extract_lets +onlyGivenNames -underBinder dd; (subst dd))
    | with_reducible apply Dev_modDie_kept | with_reducible apply emit_kept | with_reducible apply Kept.foldl)

theorem announceTo_kept {q : Keep} (target : Nat) (b : Nanos) (tr : Option Nat) {d : Dev} (h : Kept q d) :
    Kept q (announceTo target b tr d) := by
  unfold announceTo
  repeat' (first
    | with_reducible assumption | intro _ | with_reducible apply fwEvent_kept | with_reducible apply emit_kept
    | with_reducible apply Kept.foldl)

theorem announce_kept {q : Keep} (k : Nat) (b : Nanos) {d : Dev} (h : Kept q d) :
    Kept q (announce k b d) := by
  unfold announce
  repeat' (first
    | with_reducible assumption | intro _
    | (extract_lets +onlyGivenNames -underBinder dd; (subst dd))
    | ((conv => (arg 2; arg 23; skip)); with_reducible refine Kept.mk' ?_ rfl rfl rfl rfl rfl rfl rfl rfl rfl)
    | with_reducible apply announceTo_kept | split)

theorem noteEgoEnds_kept {q : Keep} (b : Nanos) {d : Dev} (h : Kept q d) :
    Kept q (noteEgoEnds b d) := by
  unfold noteEgoEnds
  repeat' (first
    | with_reducible assumption | intro _
    | (extract_lets +onlyGivenNames -underBinder dd; (subst dd))
    | ((conv => (arg 2; arg 23; skip)); with_reducible refine Kept.mk' ?_ rfl rfl rfl rfl rfl rfl rfl rfl rfl))

theorem sendEgo_kept {q : Keep} (k : Nat) (m : Nat) (b : Nanos) (out : Nanos) {d : Dev} (h : Kept q d) :
    Kept q (sendEgo k m b out d) := by
  unfold sendEgo
  repeat' (first
    | with_reducible assumption | intro _
    | (extract_lets +onlyGivenNames -underBinder dd; first
        | ((have hh : Kept q dd.2 := ?_); on_goal 2 => clear_value dd; on_goal 1 => subst dd)
        | (subst dd))
    | with_reducible apply selectEgo_kept | with_reducible apply sendEverywhere_kept
    | with_reducible refine egoOutput_kept _ _ _ _ _ _ ?_ _ (by assumption)
    | with_reducible refine egoOutput_kept _ _ _ _ _ _ ?_ (_, _) (by assumption) | split)

theorem egoBoundary_kept {q : Keep} (k : Nat) (m : Nat) (b : Nanos) (out : Nanos) {d : Dev} (h : Kept q d) :
    Kept q (egoBoundary k m b out d) := by
  unfold egoBoundary
  repeat' (first
    | with_reducible assumption | intro _
    | (extract_lets +onlyGivenNames -underBinder dd; first
        | ((have hh : Kept q dd := ?_); on_goal 2 => clear_value dd; on_goal 1 => subst dd)
        | (subst dd))
    | with_reducible apply crossCheck_kept | with_reducible apply noteEgoEnds_kept
    | with_reducible apply enterHistory_kept | with_reducible apply stepEgoInputs_kept
    | with_reducible apply sendEgo_kept | with_reducible apply Kept.foldl)

theorem summaryDue_kept {q : Keep} {d : Dev} (h : Kept q d) :
    Kept q (summaryDue d) := by
  unfold summaryDue
  repeat' (first
    | with_reducible assumption | intro _ | with_reducible apply sendSummary_kept | split)

theorem noteMissingLast_kept {q : Keep} {d : Dev} (h : Kept q d) :
    Kept q (noteMissingLast d) := by
  unfold noteMissingLast
  repeat' (first
    | with_reducible assumption | intro _
    | (extract_lets +onlyGivenNames -underBinder dd; (subst dd))
    | ((conv => (arg 2; arg 23; skip)); with_reducible refine Kept.mk' ?_ rfl rfl rfl rfl rfl rfl rfl rfl rfl)
    | split)

theorem minorService_kept {q : Keep} (prev : Option (Nanos × Nat × Nat)) (b : Nanos) {d : Dev} (h : Kept q d) :
    Kept q (minorService prev b d) := by
  unfold minorService
  repeat' (first
    | with_reducible assumption | intro _
    | (extract_lets +onlyGivenNames -underBinder dd; first
        | ((have hh : Kept q dd := ?_); on_goal 2 => clear_value dd; on_goal 1 => subst dd)
        | (subst dd))
    | with_reducible apply announce_kept | with_reducible apply sendStatus_kept
    | with_reducible apply sendBroadcast_kept | with_reducible apply startSafeOk_kept
    | with_reducible apply feltBoundary_kept | with_reducible apply egoBoundary_kept
    | with_reducible apply noteMissingLast_kept | with_reducible apply settlePassed_kept
    | with_reducible apply closeBatches_kept | with_reducible apply moveTrace_kept
    | with_reducible apply summaryDue_kept | split)

theorem minorTickBoundary_kept {q : Keep} (interval : Nat) {d : Dev} (hq : q.pos = none) (h : Kept q d) :
    Kept q (minorTickBoundary interval d) := by
  unfold minorTickBoundary
  repeat' (first
    | with_reducible assumption | intro _
    | (extract_lets +onlyGivenNames -underBinder dd; first
        | ((have hh : Kept q dd := ?_); on_goal 2 => clear_value dd; on_goal 1 => subst dd)
        | (subst dd))
    | exact rfl | with_reducible refine Dev_setTime_good_tick _ hq rfl ?_ | with_reducible apply stepFrequency_kept
    | with_reducible apply checkInterval_kept | with_reducible apply minorService_kept
    | with_reducible apply Dev_setTime_kept | split)

theorem tsqPendingKLoRead_kept {q : Keep} {d : Dev} (h : Kept q d) :
    Kept q (tsqPendingKLoRead d) := by
  unfold tsqPendingKLoRead
  repeat' (first
    | with_reducible assumption | intro _
    | (extract_lets +onlyGivenNames -underBinder dd; (subst dd))
    | ((conv => (arg 2; arg 23; skip)); with_reducible refine Kept.mk' ?_ rfl rfl rfl rfl rfl rfl rfl rfl rfl)
    | split)

theorem idleCycle_kept {q : Keep} {d : Dev} (hq : q.pos = none) (h : Kept q d) :
    Kept q (idleCycle d) := by
  unfold idleCycle
  repeat' (first
    | with_reducible assumption | intro _ | with_reducible apply sealDue_kept | with_reducible apply clockCycle_kept)

end Sys2Proof.Machine
end

