-- ==== Sys2Proof/Laws/Only.lean ====
section
/-!
SUPPORT. What the operations may change (`OnlyIn` of Sys2Proof/Safety.lean): the rules by which the files Only<Part>.lean
show, one lemma for each operation of the machine, the parts of the device it may change.
-/

namespace Sys2Proof.Machine

open Sys2Proof

/-- Every part of `l` is in `m`. -/
def Part.sub (l m : List Part) : Bool := l.all (fun p => m.contains p)

/-- The goal that one list of parts is in another. -/
theorem Part.subI {l m : List Part} (h : Part.sub l m = true) : Part.sub l m = true := h

/-- A device differs from itself in no part. -/
theorem OnlyIn.refl (L : List Part) (d : Dev) : OnlyIn L d d := ⟨fun p _ => by cases p <;> rfl⟩

/-- A part that is the same in two steps is the same. -/
theorem Dev.same_trans {p : Part} {a b c : Dev} (h : Dev.same p a b) (g : Dev.same p b c) : Dev.same p a c := by
  cases p <;> exact Eq.trans h g

/-- A change in fewer parts, after a change in some. -/
theorem OnlyIn.widen {L M : List Part} {a d e : Dev} (hL : Part.sub M L = true) (h : OnlyIn L a d) (g : OnlyIn M d e)
    : OnlyIn L a e :=
  ⟨fun p hp => Dev.same_trans (h.keep p hp) (g.keep p (fun hm => hp (by
    have := List.all_eq_true.mp hL p hm
    simpa using this)))⟩

/-- A change in any part. -/
theorem OnlyIn.of_all {L : List Part} {a d : Dev} (hL : Part.sub Part.all L = true) : OnlyIn L a d :=
  ⟨fun p hp => absurd (by
    have := List.all_eq_true.mp hL p (by cases p <;> decide)
    simpa using this) hp⟩

/-- The same with the second change part by part. -/
theorem OnlyIn.widen' {L : List Part} {a d e : Dev} (h : OnlyIn L a d) (g : ∀ p, p ∉ L → Dev.same p d e) : OnlyIn L a
    e :=
  ⟨fun p hp => Dev.same_trans (h.keep p hp) (g p hp)⟩

/-- A new record: each part is one of the list, or as it was. -/
theorem OnlyIn.mk' {L : List Part} {a d : Dev} {a1 a2 a3 a4 a5 a6 a7 a8 a9 a10 a11 a12 a13 a14 a15 a16 a17 a18 a19
    a20 a21 a22 a23}
    (e1 : L.contains .time = true ∨ a1 = d.time) (e2 : L.contains .muslin = true ∨ a2 = d.muslin) (e3 : L.contains
        .ports = true ∨ a3 = d.ports) (e4 : L.contains .cal = true ∨ a4 = d.cal) (e5 : L.contains .tweed = true ∨ a5
        = d.tweed) (e6 : L.contains .tweedFb = true ∨ a6 = d.tweedFb) (e7 : L.contains .chambray = true ∨ a7 =
        d.chambray) (e8 : L.contains .fabric = true ∨ a8 = d.fabric) (e9 : L.contains .plan = true ∨ a9 = d.plan)
        (e10 : L.contains .damask = true ∨ a10 = d.damask) (e11 : L.contains .serge = true ∨ a11 = d.serge) (e12 :
        L.contains .output = true ∨ a12 = d.output) (e13 : L.contains .host = true ∨ a13 = d.host) (e14 : L.contains
        .v0 = true ∨ a14 = d.v0) (e15 : L.contains .v1 = true ∨ a15 = d.v1) (e16 : L.contains .felt = true ∨ a16 =
        d.felt) (e17 : L.contains .ctrl = true ∨ a17 = d.ctrl) (e18 : L.contains .boot = true ∨ a18 = d.boot) (e19 :
        L.contains .recovery = true ∨ a19 = d.recovery) (e20 : L.contains .health = true ∨ a20 = d.health) (e21 :
        L.contains .mem = true ∨ a21 = d.mem) (e22 : L.contains .sent = true ∨ a22 = d.sent) (e23 : L.contains
        .freeCtr = true ∨ a23 = d.freeCtr)
    (h : OnlyIn L a d) : OnlyIn L a ⟨a1, a2, a3, a4, a5, a6, a7, a8, a9, a10, a11, a12, a13, a14, a15, a16, a17, a18,
        a19, a20, a21, a22, a23⟩ :=
  h.widen' (fun p hp => by
    have hp : L.contains p = false := by simpa using hp
    cases p
    · exact (e1.resolve_left (by simp_all)).symm
    · exact (e2.resolve_left (by simp_all)).symm
    · exact (e3.resolve_left (by simp_all)).symm
    · exact (e4.resolve_left (by simp_all)).symm
    · exact (e5.resolve_left (by simp_all)).symm
    · exact (e6.resolve_left (by simp_all)).symm
    · exact (e7.resolve_left (by simp_all)).symm
    · exact (e8.resolve_left (by simp_all)).symm
    · exact (e9.resolve_left (by simp_all)).symm
    · exact (e10.resolve_left (by simp_all)).symm
    · exact (e11.resolve_left (by simp_all)).symm
    · exact (e12.resolve_left (by simp_all)).symm
    · exact (e13.resolve_left (by simp_all)).symm
    · exact (e14.resolve_left (by simp_all)).symm
    · exact (e15.resolve_left (by simp_all)).symm
    · exact (e16.resolve_left (by simp_all)).symm
    · exact (e17.resolve_left (by simp_all)).symm
    · exact (e18.resolve_left (by simp_all)).symm
    · exact (e19.resolve_left (by simp_all)).symm
    · exact (e20.resolve_left (by simp_all)).symm
    · exact (e21.resolve_left (by simp_all)).symm
    · exact (e22.resolve_left (by simp_all)).symm
    · exact (e23.resolve_left (by simp_all)).symm)

/-- A repetition changes what its rounds change. -/
theorem OnlyIn.foldl {L : List Part} {a : Dev} {α : Type} {g : Dev → α → Dev} {l : List α} {d : Dev}
    (hg : ∀ d x, OnlyIn L a d → OnlyIn L a (g d x)) (h : OnlyIn L a d) : OnlyIn L a (l.foldl g d) := by
  induction l generalizing d with
  | nil => exact h
  | cons x t ih => exact ih (hg d x h)

/-- A repetition over a pair. -/
theorem OnlyIn.foldlSnd {L : List Part} {a : Dev} {α β : Type} {g : β × Dev → α → β × Dev} {l : List α} {x : β × Dev}
    (hg : ∀ x y, OnlyIn L a x.2 → OnlyIn L a (g x y).2) (h : OnlyIn L a x.2) : OnlyIn L a (l.foldl g x).2 := by
  induction l generalizing x with
  | nil => exact h
  | cons y t ih => exact ih (hg x y h)

end Sys2Proof.Machine
end

