-- ==== Sys2Proof/Laws/OnlyFaults.lean ====
section
/-!
SUPPORT. The parts of the device that the operations of the shared operations, the vehicle links, faults, windows and recovery may change
(Sys2Proof/Laws/Only.lean): one lemma for each.
-/

set_option linter.unusedVariables false

namespace Sys2Proof.Machine

open Sys2Proof

/-! ### Ops -/

theorem emit_only {L : List Part} {a : Dev} (e : Emission) {d : Dev} (hL : Part.sub [.sent] L = true) (h : OnlyIn L a
    d) :
    OnlyIn L a (emit e d) := by
  refine OnlyIn.widen hL h ?_
  have h0 := OnlyIn.refl [.sent] d
  unfold emit
  repeat' (first
    | with_reducible assumption | exact Or.inl rfl | exact Or.inr rfl | intro _
    | ((conv => (arg 3; arg 23; skip)); with_reducible apply OnlyIn.mk'))

theorem emitAll_only {L : List Part} {a : Dev} (es : List Emission) {d : Dev} (hL : Part.sub [.sent] L = true) (h :
    OnlyIn L a d) :
    OnlyIn L a (emitAll es d) := by
  refine OnlyIn.widen hL h ?_
  have h0 := OnlyIn.refl [.sent] d
  unfold emitAll
  repeat' (first
    | with_reducible assumption | exact Or.inl rfl | exact Or.inr rfl | intro _
    | ((conv => (arg 3; arg 23; skip)); with_reducible apply OnlyIn.mk'))

theorem drawFree_only {L : List Part} {a : Dev} {d : Dev} (hL : Part.sub [.freeCtr] L = true) (h : OnlyIn L a d) :
    OnlyIn L a (drawFree d).2 := by
  refine OnlyIn.widen hL h ?_
  have h0 := OnlyIn.refl [.freeCtr] d
  unfold drawFree
  repeat' (first
    | with_reducible assumption | exact Or.inl rfl | exact Or.inr rfl | intro _
    | ((conv => (arg 3; arg 23; skip)); with_reducible apply OnlyIn.mk') | split | dsimp -zeta only)

theorem Dev_setPort_only {L : List Part} {a : Dev} (p : Nat) (hh : HostPort) {d : Dev} (hL : Part.sub [.host] L =
    true) (h : OnlyIn L a d) :
    OnlyIn L a (Dev.setPort d p hh) := by
  refine OnlyIn.widen hL h ?_
  have h0 := OnlyIn.refl [.host] d
  unfold Dev.setPort
  repeat' (first
    | with_reducible assumption | exact Or.inl rfl | exact Or.inr rfl | intro _
    | (extract_lets +onlyGivenNames -underBinder dd; (subst dd))
    | ((conv => (arg 3; arg 23; skip)); with_reducible apply OnlyIn.mk'))

theorem Dev_modPort_only {L : List Part} {a : Dev} (p : Nat) (f : HostPort → HostPort) {d : Dev} (hL : Part.sub
    [.host] L = true) (h : OnlyIn L a d) :
    OnlyIn L a (Dev.modPort d p f) := by
  refine OnlyIn.widen hL h ?_
  have h0 := OnlyIn.refl [.host] d
  unfold Dev.modPort
  repeat' (first
    | with_reducible assumption | ((with_reducible refine Part.subI ?_); exact rfl) | exact Or.inl rfl
    | exact Or.inr rfl | intro _ | with_reducible apply Dev_setPort_only)

theorem setInt_only {L : List Part} {a : Dev} (p : Nat) (n : Nat) {d : Dev} (hL : Part.sub [.host, .sent] L = true)
    (h : OnlyIn L a d) :
    OnlyIn L a (setInt p n d) := by
  refine OnlyIn.widen hL h ?_
  have h0 := OnlyIn.refl [.host, .sent] d
  unfold setInt
  repeat' (first
    | with_reducible assumption | ((with_reducible refine Part.subI ?_); exact rfl) | exact Or.inl rfl
    | exact Or.inr rfl | intro _
    | (extract_lets +onlyGivenNames -underBinder dd; (subst dd))
    | with_reducible apply Dev_setPort_only | with_reducible apply emit_only | split)

theorem setIntAll_only {L : List Part} {a : Dev} (n : Nat) {d : Dev} (hL : Part.sub [.host, .sent] L = true) (h :
    OnlyIn L a d) :
    OnlyIn L a (setIntAll n d) := by
  refine OnlyIn.widen hL h ?_
  have h0 := OnlyIn.refl [.host, .sent] d
  unfold setIntAll
  repeat' (first
    | with_reducible assumption | ((with_reducible refine Part.subI ?_); exact rfl) | exact Or.inl rfl
    | exact Or.inr rfl | intro _ | with_reducible apply setInt_only)

theorem healthRecord_only {L : List Part} {a : Dev} (e : HealthEvent) {d : Dev} (hL : Part.sub [.host, .health,
    .sent] L = true) (h : OnlyIn L a d) :
    OnlyIn L a (healthRecord e d) := by
  refine OnlyIn.widen hL h ?_
  have h0 := OnlyIn.refl [.host, .health, .sent] d
  unfold healthRecord
  repeat' (first
    | with_reducible assumption | ((with_reducible refine Part.subI ?_); exact rfl) | exact Or.inl rfl
    | exact Or.inr rfl | intro _
    | (extract_lets +onlyGivenNames -underBinder dd; (subst dd))
    | ((conv => (arg 3; arg 23; skip)); with_reducible apply OnlyIn.mk') | with_reducible apply setIntAll_only)

theorem healthEvent_only {L : List Part} {a : Dev} (e : HealthEvent) {d : Dev} (hL : Part.sub [.host, .health, .sent]
    L = true) (h : OnlyIn L a d) :
    OnlyIn L a (healthEvent e d) := by
  refine OnlyIn.widen hL h ?_
  have h0 := OnlyIn.refl [.host, .health, .sent] d
  unfold healthEvent
  repeat' (first
    | with_reducible assumption | ((with_reducible refine Part.subI ?_); exact rfl) | exact Or.inl rfl
    | exact Or.inr rfl | intro _
    | (extract_lets +onlyGivenNames -underBinder dd; (subst dd))
    | with_reducible apply healthRecord_only | split)

theorem conditionEvent_only {L : List Part} {a : Dev} (bar : Nat) (value : Nat) {d : Dev} (hL : Part.sub [.host,
    .health, .sent] L = true) (h : OnlyIn L a d) :
    OnlyIn L a (conditionEvent bar value d) := by
  refine OnlyIn.widen hL h ?_
  have h0 := OnlyIn.refl [.host, .health, .sent] d
  unfold conditionEvent
  repeat' (first
    | with_reducible assumption | ((with_reducible refine Part.subI ?_); exact rfl) | exact Or.inl rfl
    | exact Or.inr rfl | intro _ | with_reducible apply healthEvent_only)

theorem satEvent_only {L : List Part} {a : Dev} (bar : Nat) (before : Counter) (after : Counter) {d : Dev} (hL :
    Part.sub [.host, .health, .sent] L = true) (h : OnlyIn L a d) :
    OnlyIn L a (satEvent bar before after d) := by
  refine OnlyIn.widen hL h ?_
  have h0 := OnlyIn.refl [.host, .health, .sent] d
  unfold satEvent
  repeat' (first
    | with_reducible assumption | ((with_reducible refine Part.subI ?_); exact rfl) | exact Or.inl rfl
    | exact Or.inr rfl | intro _ | with_reducible apply conditionEvent_only | split)

theorem logWrite_only {L : List Part} {a : Dev} (source : Nat) (severity : Nat) (what : Nat) (args : List Nat) {d :
    Dev} (hL : Part.sub [.boot] L = true) (h : OnlyIn L a d) :
    OnlyIn L a (logWrite source severity what args d) := by
  refine OnlyIn.widen hL h ?_
  have h0 := OnlyIn.refl [.boot] d
  unfold logWrite
  repeat' (first
    | with_reducible assumption | exact Or.inl rfl | exact Or.inr rfl | intro _
    | (extract_lets +onlyGivenNames -underBinder dd; (subst dd))
    | ((conv => (arg 3; arg 23; skip)); with_reducible apply OnlyIn.mk'))

theorem modProc_only {L : List Part} {a : Dev} (p : Nat) (f : FwState → FwState) {d : Dev} (hL : Part.sub [.boot] L =
    true) (h : OnlyIn L a d) :
    OnlyIn L a (modProc p f d) := by
  refine OnlyIn.widen hL h ?_
  have h0 := OnlyIn.refl [.boot] d
  unfold modProc
  repeat' (first
    | with_reducible assumption | exact Or.inl rfl | exact Or.inr rfl | intro _
    | (extract_lets +onlyGivenNames -underBinder dd; (subst dd))
    | ((conv => (arg 3; arg 23; skip)); with_reducible apply OnlyIn.mk'))

theorem fwEvent_only {L : List Part} {a : Dev} (p : Nat) {d : Dev} (hL : Part.sub [.host, .boot, .health, .sent] L =
    true) (h : OnlyIn L a d) :
    OnlyIn L a (fwEvent p d) := by
  refine OnlyIn.widen hL h ?_
  have h0 := OnlyIn.refl [.host, .boot, .health, .sent] d
  unfold fwEvent
  repeat' (first
    | with_reducible assumption | ((with_reducible refine Part.subI ?_); exact rfl) | exact Or.inl rfl
    | exact Or.inr rfl | intro _
    | (extract_lets +onlyGivenNames -underBinder dd; (subst dd))
    | ((conv => (arg 3; arg 23; skip)); with_reducible apply OnlyIn.mk') | with_reducible apply modProc_only
    | with_reducible apply satEvent_only | split)

theorem Dev_setDie_only {L : List Part} {a : Dev} (x : Nat) (s : DieState) {d : Dev} (hL : Part.sub [.recovery] L =
    true) (h : OnlyIn L a d) :
    OnlyIn L a (Dev.setDie d x s) := by
  refine OnlyIn.widen hL h ?_
  have h0 := OnlyIn.refl [.recovery] d
  unfold Dev.setDie
  repeat' (first
    | with_reducible assumption | exact Or.inl rfl | exact Or.inr rfl | intro _
    | (extract_lets +onlyGivenNames -underBinder dd; (subst dd))
    | ((conv => (arg 3; arg 23; skip)); with_reducible apply OnlyIn.mk'))

theorem Dev_modDie_only {L : List Part} {a : Dev} (x : Nat) (f : DieState → DieState) {d : Dev} (hL : Part.sub
    [.recovery] L = true) (h : OnlyIn L a d) :
    OnlyIn L a (Dev.modDie d x f) := by
  refine OnlyIn.widen hL h ?_
  have h0 := OnlyIn.refl [.recovery] d
  unfold Dev.modDie
  repeat' (first
    | with_reducible assumption | ((with_reducible refine Part.subI ?_); exact rfl) | exact Or.inl rfl
    | exact Or.inr rfl | intro _ | with_reducible apply Dev_setDie_only)

theorem Dev_setCluster_only {L : List Part} {a : Dev} (n : Nat) (c : ClusterState) {d : Dev} (hL : Part.sub [.fabric]
    L = true) (h : OnlyIn L a d) :
    OnlyIn L a (Dev.setCluster d n c) := by
  refine OnlyIn.widen hL h ?_
  have h0 := OnlyIn.refl [.fabric] d
  unfold Dev.setCluster
  repeat' (first
    | with_reducible assumption | exact Or.inl rfl | exact Or.inr rfl | intro _
    | (extract_lets +onlyGivenNames -underBinder dd; (subst dd))
    | ((conv => (arg 3; arg 23; skip)); with_reducible apply OnlyIn.mk'))

theorem Dev_modCluster_only {L : List Part} {a : Dev} (n : Nat) (f : ClusterState → ClusterState) {d : Dev} (hL :
    Part.sub [.fabric] L = true) (h : OnlyIn L a d) :
    OnlyIn L a (Dev.modCluster d n f) := by
  refine OnlyIn.widen hL h ?_
  have h0 := OnlyIn.refl [.fabric] d
  unfold Dev.modCluster
  repeat' (first
    | with_reducible assumption | ((with_reducible refine Part.subI ?_); exact rfl) | exact Or.inl rfl
    | exact Or.inr rfl | intro _ | with_reducible apply Dev_setCluster_only)

theorem Dev_setThermal_only {L : List Part} {a : Dev} (x : Nat) (t : ThermalState) {d : Dev} (hL : Part.sub [.health]
    L = true) (h : OnlyIn L a d) :
    OnlyIn L a (Dev.setThermal d x t) := by
  refine OnlyIn.widen hL h ?_
  have h0 := OnlyIn.refl [.health] d
  unfold Dev.setThermal
  repeat' (first
    | with_reducible assumption | exact Or.inl rfl | exact Or.inr rfl | intro _
    | (extract_lets +onlyGivenNames -underBinder dd; (subst dd))
    | ((conv => (arg 3; arg 23; skip)); with_reducible apply OnlyIn.mk'))

theorem Dev_setSrgUnit_only {L : List Part} {a : Dev} (u : Nat) (x : SrgUnit) {d : Dev} (hL : Part.sub [.serge] L =
    true) (h : OnlyIn L a d) :
    OnlyIn L a (Dev.setSrgUnit d u x) := by
  refine OnlyIn.widen hL h ?_
  have h0 := OnlyIn.refl [.serge] d
  unfold Dev.setSrgUnit
  repeat' (first
    | with_reducible assumption | exact Or.inl rfl | exact Or.inr rfl | intro _
    | (extract_lets +onlyGivenNames -underBinder dd; (subst dd))
    | ((conv => (arg 3; arg 23; skip)); with_reducible apply OnlyIn.mk'))

theorem Dev_setSrgSlot_only {L : List Part} {a : Dev} (g : Nat) (x : SrgSlot) {d : Dev} (hL : Part.sub [.serge] L =
    true) (h : OnlyIn L a d) :
    OnlyIn L a (Dev.setSrgSlot d g x) := by
  refine OnlyIn.widen hL h ?_
  have h0 := OnlyIn.refl [.serge] d
  unfold Dev.setSrgSlot
  repeat' (first
    | with_reducible assumption | exact Or.inl rfl | exact Or.inr rfl | intro _
    | (extract_lets +onlyGivenNames -underBinder dd; (subst dd))
    | ((conv => (arg 3; arg 23; skip)); with_reducible apply OnlyIn.mk'))

theorem Dev_setVport_only {L : List Part} {a : Dev} (p : Nat) (v : VlkPort) {d : Dev} (hL : Part.sub [.v0, .v1] L =
    true) (h : OnlyIn L a d) :
    OnlyIn L a (Dev.setVport d p v) := by
  refine OnlyIn.widen hL h ?_
  have h0 := OnlyIn.refl [.v0, .v1] d
  unfold Dev.setVport
  repeat' (first
    | with_reducible assumption | exact Or.inl rfl | exact Or.inr rfl | intro _
    | ((conv => (arg 3; arg 23; skip)); with_reducible apply OnlyIn.mk') | split)

theorem Dev_setStream_only {L : List Part} {a : Dev} (n : Nat) (s : StreamState) {d : Dev} (hL : Part.sub [.muslin] L
    = true) (h : OnlyIn L a d) :
    OnlyIn L a (Dev.setStream d n s) := by
  refine OnlyIn.widen hL h ?_
  have h0 := OnlyIn.refl [.muslin] d
  unfold Dev.setStream
  repeat' (first
    | with_reducible assumption | exact Or.inl rfl | exact Or.inr rfl | intro _
    | (extract_lets +onlyGivenNames -underBinder dd; (subst dd))
    | ((conv => (arg 3; arg 23; skip)); with_reducible apply OnlyIn.mk'))

theorem Dev_setCamera_only {L : List Part} {a : Dev} (c : Nat) (x : CameraState) {d : Dev} (hL : Part.sub [.ports] L
    = true) (h : OnlyIn L a d) :
    OnlyIn L a (Dev.setCamera d c x) := by
  refine OnlyIn.widen hL h ?_
  have h0 := OnlyIn.refl [.ports] d
  unfold Dev.setCamera
  repeat' (first
    | with_reducible assumption | exact Or.inl rfl | exact Or.inr rfl | intro _
    | (extract_lets +onlyGivenNames -underBinder dd; (subst dd))
    | ((conv => (arg 3; arg 23; skip)); with_reducible apply OnlyIn.mk'))

theorem Dev_setLidar_only {L : List Part} {a : Dev} (n : Nat) (x : LidarState) {d : Dev} (hL : Part.sub [.ports] L =
    true) (h : OnlyIn L a d) :
    OnlyIn L a (Dev.setLidar d n x) := by
  refine OnlyIn.widen hL h ?_
  have h0 := OnlyIn.refl [.ports] d
  unfold Dev.setLidar
  repeat' (first
    | with_reducible assumption | exact Or.inl rfl | exact Or.inr rfl | intro _
    | (extract_lets +onlyGivenNames -underBinder dd; (subst dd))
    | ((conv => (arg 3; arg 23; skip)); with_reducible apply OnlyIn.mk'))

theorem Dev_setImu_only {L : List Part} {a : Dev} (n : Nat) (x : ImuState) {d : Dev} (hL : Part.sub [.ports] L =
    true) (h : OnlyIn L a d) :
    OnlyIn L a (Dev.setImu d n x) := by
  refine OnlyIn.widen hL h ?_
  have h0 := OnlyIn.refl [.ports] d
  unfold Dev.setImu
  repeat' (first
    | with_reducible assumption | exact Or.inl rfl | exact Or.inr rfl | intro _
    | (extract_lets +onlyGivenNames -underBinder dd; (subst dd))
    | ((conv => (arg 3; arg 23; skip)); with_reducible apply OnlyIn.mk'))

theorem Dev_setCan_only {L : List Part} {a : Dev} (n : Nat) (x : CanState) {d : Dev} (hL : Part.sub [.ports] L =
    true) (h : OnlyIn L a d) :
    OnlyIn L a (Dev.setCan d n x) := by
  refine OnlyIn.widen hL h ?_
  have h0 := OnlyIn.refl [.ports] d
  unfold Dev.setCan
  repeat' (first
    | with_reducible assumption | exact Or.inl rfl | exact Or.inr rfl | intro _
    | (extract_lets +onlyGivenNames -underBinder dd; (subst dd))
    | ((conv => (arg 3; arg 23; skip)); with_reducible apply OnlyIn.mk'))

/-! ### Vlink -/

theorem countLate_only {L : List Part} {a : Dev} (p : Nat) (m : Message) {d : Dev} (hL : Part.sub [.host, .v0, .v1,
    .health, .sent] L = true) (h : OnlyIn L a d) :
    OnlyIn L a (countLate p m d) := by
  refine OnlyIn.widen hL h ?_
  have h0 := OnlyIn.refl [.host, .v0, .v1, .health, .sent] d
  unfold countLate
  repeat' (first
    | with_reducible assumption | ((with_reducible refine Part.subI ?_); exact rfl) | exact Or.inl rfl
    | exact Or.inr rfl | intro _
    | (extract_lets +onlyGivenNames -underBinder dd; (subst dd))
    | with_reducible apply conditionEvent_only | with_reducible apply satEvent_only
    | with_reducible apply Dev_setVport_only | split)

theorem startFrame_only {L : List Part} {a : Dev} (p : Nat) {d : Dev} (hL : Part.sub [.host, .v0, .v1, .health,
    .sent] L = true) (h : OnlyIn L a d) :
    OnlyIn L a (startFrame p d) := by
  refine OnlyIn.widen hL h ?_
  have h0 := OnlyIn.refl [.host, .v0, .v1, .health, .sent] d
  unfold startFrame
  repeat' (first
    | with_reducible assumption | ((with_reducible refine Part.subI ?_); exact rfl) | exact Or.inl rfl
    | exact Or.inr rfl | intro _
    | (extract_lets +onlyGivenNames -underBinder dd; (subst dd))
    | with_reducible apply countLate_only | with_reducible apply emit_only | with_reducible apply Dev_setVport_only
    | split)

theorem queueOn_only {L : List Part} {a : Dev} (p : Nat) (m : Message) {d : Dev} (hL : Part.sub [.host, .v0, .v1,
    .health, .sent] L = true) (h : OnlyIn L a d) :
    OnlyIn L a (queueOn p m d) := by
  refine OnlyIn.widen hL h ?_
  have h0 := OnlyIn.refl [.host, .v0, .v1, .health, .sent] d
  unfold queueOn
  repeat' (first
    | with_reducible assumption | ((with_reducible refine Part.subI ?_); exact rfl) | exact Or.inl rfl
    | exact Or.inr rfl | intro _
    | (extract_lets +onlyGivenNames -underBinder dd; (subst dd))
    | with_reducible apply startFrame_only | with_reducible apply Dev_setVport_only | split)

theorem release_only {L : List Part} {a : Dev} (m : Message) {d : Dev} (hL : Part.sub [.host, .v0, .v1, .health,
    .sent] L = true) (h : OnlyIn L a d) :
    OnlyIn L a (release m d) := by
  refine OnlyIn.widen hL h ?_
  have h0 := OnlyIn.refl [.host, .v0, .v1, .health, .sent] d
  unfold release
  repeat' (first
    | with_reducible assumption | ((with_reducible refine Part.subI ?_); exact rfl) | exact Or.inl rfl
    | exact Or.inr rfl | intro _ | with_reducible apply queueOn_only)

theorem sendStatus_only {L : List Part} {a : Dev} {d : Dev} (hL : Part.sub [.host, .v0, .v1, .health, .sent] L =
    true) (h : OnlyIn L a d) :
    OnlyIn L a (sendStatus d) := by
  refine OnlyIn.widen hL h ?_
  have h0 := OnlyIn.refl [.host, .v0, .v1, .health, .sent] d
  unfold sendStatus
  repeat' (first
    | with_reducible assumption | ((with_reducible refine Part.subI ?_); exact rfl) | exact Or.inl rfl
    | exact Or.inr rfl | intro _ | with_reducible apply release_only)

theorem sendNotice_only {L : List Part} {a : Dev} (code : Nat) (cls : FaultClass) (cleared : Bool) (die : Nat) (unit
    : Nat) (arg : Nat) {d : Dev} (hL : Part.sub [.host, .v0, .v1, .felt, .health, .sent] L = true) (h : OnlyIn L a d)
    :
    OnlyIn L a (sendNotice code cls cleared die unit arg d) := by
  refine OnlyIn.widen hL h ?_
  have h0 := OnlyIn.refl [.host, .v0, .v1, .felt, .health, .sent] d
  unfold sendNotice
  repeat' (first
    | with_reducible assumption | ((with_reducible refine Part.subI ?_); exact rfl) | exact Or.inl rfl
    | exact Or.inr rfl | intro _
    | (extract_lets +onlyGivenNames -underBinder dd; (subst dd))
    | ((conv => (arg 3; arg 23; skip)); with_reducible apply OnlyIn.mk') | with_reducible apply release_only)

theorem sendSummary_only {L : List Part} {a : Dev} {d : Dev} (hL : Part.sub [.host, .v0, .v1, .felt, .health, .sent]
    L = true) (h : OnlyIn L a d) :
    OnlyIn L a (sendSummary d) := by
  refine OnlyIn.widen hL h ?_
  have h0 := OnlyIn.refl [.host, .v0, .v1, .felt, .health, .sent] d
  unfold sendSummary
  repeat' (first
    | with_reducible assumption | ((with_reducible refine Part.subI ?_); exact rfl) | exact Or.inl rfl
    | exact Or.inr rfl | intro _
    | (extract_lets +onlyGivenNames -underBinder dd; (subst dd))
    | ((conv => (arg 3; arg 23; skip)); with_reducible apply OnlyIn.mk') | with_reducible apply release_only)

/-! ### Faults -/

theorem abandonWarm_only {L : List Part} {a : Dev} {d : Dev} (hL : Part.sub [.host, .boot, .health, .sent] L = true)
    (h : OnlyIn L a d) :
    OnlyIn L a (abandonWarm d) := by
  refine OnlyIn.widen hL h ?_
  have h0 := OnlyIn.refl [.host, .boot, .health, .sent] d
  unfold abandonWarm
  repeat' (first
    | with_reducible assumption | ((with_reducible refine Part.subI ?_); exact rfl) | exact Or.inl rfl
    | exact Or.inr rfl | intro _
    | (extract_lets +onlyGivenNames -underBinder dd; (subst dd))
    | ((conv => (arg 3; arg 23; skip)); with_reducible apply OnlyIn.mk') | with_reducible apply conditionEvent_only
    | split)

theorem resetPair_only {L : List Part} {a : Dev} (code : Nat) {d : Dev} (hL : Part.sub [.felt, .boot] L = true) (h :
    OnlyIn L a d) :
    OnlyIn L a (resetPair code d) := by
  refine OnlyIn.widen hL h ?_
  have h0 := OnlyIn.refl [.felt, .boot] d
  unfold resetPair
  repeat' (first
    | with_reducible assumption | exact Or.inl rfl | exact Or.inr rfl | intro _
    | (extract_lets +onlyGivenNames -underBinder dd; (subst dd))
    | ((conv => (arg 3; arg 23; skip)); with_reducible apply OnlyIn.mk') | split)

theorem raiseV_only {L : List Part} {a : Dev} (code : Nat) (die : Nat) (unit : Nat) (arg : Nat) (latched : Bool)
    (condUnit : Nat) {d : Dev} (hL : Part.sub [.host, .v0, .v1, .felt, .boot, .health, .sent] L = true) (h : OnlyIn L
    a d) :
    OnlyIn L a (raiseV code die unit arg latched condUnit d) := by
  refine OnlyIn.widen hL h ?_
  have h0 := OnlyIn.refl [.host, .v0, .v1, .felt, .boot, .health, .sent] d
  unfold raiseV
  repeat' (first
    | with_reducible assumption | ((with_reducible refine Part.subI ?_); exact rfl) | exact Or.inl rfl
    | exact Or.inr rfl | intro _
    | (extract_lets +onlyGivenNames -underBinder dd; (subst dd))
    | ((conv => (arg 3; arg 23; skip)); with_reducible apply OnlyIn.mk') | with_reducible apply satEvent_only
    | with_reducible apply sendNotice_only | with_reducible apply resetPair_only
    | with_reducible apply abandonWarm_only | with_reducible apply healthEvent_only
    | with_reducible apply fwEvent_only)

theorem raiseH_only {L : List Part} {a : Dev} (code : Nat) (die : Nat) (unit : Nat) (arg : Nat) {d : Dev} (hL :
    Part.sub [.host, .v0, .v1, .felt, .boot, .health, .sent] L = true) (h : OnlyIn L a d) :
    OnlyIn L a (raiseH code die unit arg d) := by
  refine OnlyIn.widen hL h ?_
  have h0 := OnlyIn.refl [.host, .v0, .v1, .felt, .boot, .health, .sent] d
  unfold raiseH
  repeat' (first
    | with_reducible assumption | ((with_reducible refine Part.subI ?_); exact rfl) | exact Or.inl rfl
    | exact Or.inr rfl | intro _
    | (extract_lets +onlyGivenNames -underBinder dd; (subst dd))
    | ((conv => (arg 3; arg 23; skip)); with_reducible apply OnlyIn.mk') | with_reducible apply satEvent_only
    | with_reducible apply sendNotice_only | with_reducible apply healthEvent_only
    | with_reducible apply fwEvent_only | split)

theorem endCondition_only {L : List Part} {a : Dev} (code : Nat) (unit : Nat) {d : Dev} (hL : Part.sub [.felt] L =
    true) (h : OnlyIn L a d) :
    OnlyIn L a (endCondition code unit d) := by
  refine OnlyIn.widen hL h ?_
  have h0 := OnlyIn.refl [.felt] d
  unfold endCondition
  repeat' (first
    | with_reducible assumption | exact Or.inl rfl | exact Or.inr rfl | intro _
    | ((conv => (arg 3; arg 23; skip)); with_reducible apply OnlyIn.mk'))

theorem endConditions_only {L : List Part} {a : Dev} (code : Nat) {d : Dev} (hL : Part.sub [.felt] L = true) (h :
    OnlyIn L a d) :
    OnlyIn L a (endConditions code d) := by
  refine OnlyIn.widen hL h ?_
  have h0 := OnlyIn.refl [.felt] d
  unfold endConditions
  repeat' (first
    | with_reducible assumption | exact Or.inl rfl | exact Or.inr rfl | intro _
    | ((conv => (arg 3; arg 23; skip)); with_reducible apply OnlyIn.mk'))

/-! ### Windows -/

theorem Dev_setWin_only {L : List Part} {a : Dev} (src : Source) (tick : Nat) (w : Nat) (s : WinState) {d : Dev} (hL
    : Part.sub [.plan] L = true) (h : OnlyIn L a d) :
    OnlyIn L a (Dev.setWin d src tick w s) := by
  refine OnlyIn.widen hL h ?_
  have h0 := OnlyIn.refl [.plan] d
  unfold Dev.setWin
  repeat' (first
    | with_reducible assumption | exact Or.inl rfl | exact Or.inr rfl | intro _
    | (extract_lets +onlyGivenNames -underBinder dd; (subst dd))
    | ((conv => (arg 3; arg 23; skip)); with_reducible apply OnlyIn.mk'))

theorem modChb_only {L : List Part} {a : Dev} (x : Nat) (f : ChbUnit → ChbUnit) {d : Dev} (hL : Part.sub [.chambray]
    L = true) (h : OnlyIn L a d) :
    OnlyIn L a (modChb x f d) := by
  refine OnlyIn.widen hL h ?_
  have h0 := OnlyIn.refl [.chambray] d
  unfold modChb
  repeat' (first
    | with_reducible assumption | exact Or.inl rfl | exact Or.inr rfl | intro _
    | (extract_lets +onlyGivenNames -underBinder dd; (subst dd))
    | ((conv => (arg 3; arg 23; skip)); with_reducible apply OnlyIn.mk'))

theorem closeChambray_only {L : List Part} {a : Dev} (tick : Nat) {d : Dev} (hL : Part.sub [.chambray] L = true) (h :
    OnlyIn L a d) :
    OnlyIn L a (closeChambray tick d) := by
  refine OnlyIn.widen hL h ?_
  have h0 := OnlyIn.refl [.chambray] d
  unfold closeChambray
  repeat' (first
    | with_reducible assumption | ((with_reducible refine Part.subI ?_); exact rfl) | exact Or.inl rfl
    | exact Or.inr rfl | intro _
    | (extract_lets +onlyGivenNames -underBinder dd; (subst dd))
    | with_reducible apply modChb_only | with_reducible apply OnlyIn.foldl | with_reducible apply OnlyIn.foldlSnd
    | split)

theorem Dev_setCore_only {L : List Part} {a : Dev} (qq : Nat) (c : CoreState) {d : Dev} (hL : Part.sub [.fabric] L =
    true) (h : OnlyIn L a d) :
    OnlyIn L a (Dev.setCore d qq c) := by
  refine OnlyIn.widen hL h ?_
  have h0 := OnlyIn.refl [.fabric] d
  unfold Dev.setCore
  repeat' (first
    | with_reducible assumption | exact Or.inl rfl | exact Or.inr rfl | intro _
    | (extract_lets +onlyGivenNames -underBinder dd; (subst dd))
    | ((conv => (arg 3; arg 23; skip)); with_reducible apply OnlyIn.mk'))

theorem stopCore_only {L : List Part} {a : Dev} (qq : Nat) {d : Dev} (hL : Part.sub [.fabric] L = true) (h : OnlyIn L
    a d) :
    OnlyIn L a (stopCore d qq) := by
  refine OnlyIn.widen hL h ?_
  have h0 := OnlyIn.refl [.fabric] d
  unfold stopCore
  repeat' (first
    | with_reducible assumption | ((with_reducible refine Part.subI ?_); exact rfl) | exact Or.inl rfl
    | exact Or.inr rfl | intro _
    | (extract_lets +onlyGivenNames -underBinder dd; (subst dd))
    | with_reducible apply Dev_setCore_only)

theorem dropTransfers_only {L : List Part} {a : Dev} (key : Nat) (cl : Nat) {d : Dev} (hL : Part.sub [.fabric] L =
    true) (h : OnlyIn L a d) :
    OnlyIn L a (dropTransfers key d cl) := by
  refine OnlyIn.widen hL h ?_
  have h0 := OnlyIn.refl [.fabric] d
  unfold dropTransfers
  repeat' (first
    | with_reducible assumption | ((with_reducible refine Part.subI ?_); exact rfl) | exact Or.inl rfl
    | exact Or.inr rfl | intro _ | with_reducible apply Dev_modCluster_only)

theorem noteFlags_only {L : List Part} {a : Dev} (tick : Nat) (qq : Nat) {d : Dev} (hL : Part.sub [.fabric] L = true)
    (h : OnlyIn L a d) :
    OnlyIn L a (noteFlags tick d qq) := by
  refine OnlyIn.widen hL h ?_
  have h0 := OnlyIn.refl [.fabric] d
  unfold noteFlags
  repeat' (first
    | with_reducible assumption | ((with_reducible refine Part.subI ?_); exact rfl) | exact Or.inl rfl
    | exact Or.inr rfl | intro _
    | (extract_lets +onlyGivenNames -underBinder dd; (subst dd))
    | with_reducible apply Dev_modCluster_only)

theorem closeFlags_only {L : List Part} {a : Dev} (src : Source) (tick : Nat) (cl : Nat) {d : Dev} (hL : Part.sub
    [.fabric] L = true) (h : OnlyIn L a d) :
    OnlyIn L a (closeFlags src tick d cl) := by
  refine OnlyIn.widen hL h ?_
  have h0 := OnlyIn.refl [.fabric] d
  unfold closeFlags
  repeat' (first
    | with_reducible assumption | ((with_reducible refine Part.subI ?_); exact rfl) | exact Or.inl rfl
    | exact Or.inr rfl | intro _ | with_reducible apply Dev_modCluster_only | split)

theorem closeGroupFlags_only {L : List Part} {a : Dev} (src : Source) (tick : Nat) (w : Nat) {d : Dev} (hL : Part.sub
    [.fabric] L = true) (h : OnlyIn L a d) :
    OnlyIn L a (closeGroupFlags src tick w d) := by
  refine OnlyIn.widen hL h ?_
  have h0 := OnlyIn.refl [.fabric] d
  unfold closeGroupFlags
  repeat' (first
    | with_reducible assumption | ((with_reducible refine Part.subI ?_); exact rfl) | exact Or.inl rfl
    | exact Or.inr rfl | intro _ | with_reducible apply closeFlags_only | with_reducible apply OnlyIn.foldl
    | with_reducible apply OnlyIn.foldlSnd | split)

theorem stopWindow_only {L : List Part} {a : Dev} (src : Source) (tick : Nat) (w : Nat) {d : Dev} (hL : Part.sub
    [.fabric, .plan] L = true) (h : OnlyIn L a d) :
    OnlyIn L a (stopWindow src tick w d) := by
  refine OnlyIn.widen hL h ?_
  have h0 := OnlyIn.refl [.fabric, .plan] d
  unfold stopWindow
  repeat' (first
    | with_reducible assumption | ((with_reducible refine Part.subI ?_); exact rfl) | exact Or.inl rfl
    | exact Or.inr rfl | intro _
    | (extract_lets +onlyGivenNames -underBinder dd; (subst dd))
    | with_reducible apply stopCore_only | with_reducible apply noteFlags_only
    | with_reducible apply dropTransfers_only | with_reducible apply Dev_setWin_only
    | with_reducible apply OnlyIn.foldl | with_reducible apply OnlyIn.foldlSnd | split)

theorem noteMissing_only {L : List Part} {a : Dev} (src : Source) (tick : Nat) {d : Dev} (hL : Part.sub [.plan] L =
    true) (h : OnlyIn L a d) :
    OnlyIn L a (noteMissing src tick d) := by
  refine OnlyIn.widen hL h ?_
  have h0 := OnlyIn.refl [.plan] d
  unfold noteMissing
  repeat' (first
    | with_reducible assumption | exact Or.inl rfl | exact Or.inr rfl | intro _
    | (extract_lets +onlyGivenNames -underBinder dd; (subst dd))
    | ((conv => (arg 3; arg 23; skip)); with_reducible apply OnlyIn.mk'))

theorem forceTally_only {L : List Part} {a : Dev} (tally : Nat) (cl : Nat) {d : Dev} (hL : Part.sub [.fabric] L =
    true) (h : OnlyIn L a d) :
    OnlyIn L a (forceTally tally d cl) := by
  refine OnlyIn.widen hL h ?_
  have h0 := OnlyIn.refl [.fabric] d
  unfold forceTally
  repeat' (first
    | with_reducible assumption | ((with_reducible refine Part.subI ?_); exact rfl) | exact Or.inl rfl
    | exact Or.inr rfl | intro _ | with_reducible apply Dev_modCluster_only)

theorem zeroEdge_only {L : List Part} {a : Dev} (src : Source) (tick : Nat) (e : EdgeRec) {d : Dev} (hL : Part.sub
    [.fabric, .plan] L = true) (h : OnlyIn L a d) :
    OnlyIn L a (zeroEdge src tick e d) := by
  refine OnlyIn.widen hL h ?_
  have h0 := OnlyIn.refl [.fabric, .plan] d
  unfold zeroEdge
  repeat' (first
    | with_reducible assumption | ((with_reducible refine Part.subI ?_); exact rfl) | exact Or.inl rfl
    | exact Or.inr rfl | intro _
    | (extract_lets +onlyGivenNames -underBinder dd; (subst dd))
    | with_reducible apply Dev_setWin_only | with_reducible apply forceTally_only | with_reducible apply OnlyIn.foldl
    | with_reducible apply OnlyIn.foldlSnd | split)

theorem setMissing_only {L : List Part} {a : Dev} (cause : MissCause) (src : Source) (tick : Nat) (w : Nat) {d : Dev}
    (hL : Part.sub [.chambray, .fabric, .plan, .host, .v0, .v1, .felt, .boot, .health, .sent] L = true) (h : OnlyIn L
    a d) :
    OnlyIn L a (setMissing cause src tick w d) := by
  refine OnlyIn.widen hL h ?_
  have h0 := OnlyIn.refl [.chambray, .fabric, .plan, .host, .v0, .v1, .felt, .boot, .health, .sent] d
  unfold setMissing
  repeat' (first
    | with_reducible assumption | ((with_reducible refine Part.subI ?_); exact rfl) | exact Or.inl rfl
    | exact Or.inr rfl | intro _
    | (extract_lets +onlyGivenNames -underBinder dd; (subst dd))
    | ((conv => (arg 3; arg 23; skip)); with_reducible apply OnlyIn.mk') | with_reducible apply stopWindow_only
    | with_reducible apply Dev_setWin_only | with_reducible apply satEvent_only
    | with_reducible apply closeGroupFlags_only | with_reducible apply closeChambray_only
    | with_reducible apply noteMissing_only | with_reducible apply raiseH_only | split)

theorem markMissing_only {L : List Part} {a : Dev} (fuel : Nat) (cause : MissCause) (src : Source) (tick w : Nat) {d
    : Dev}
    (hL : Part.sub [.chambray, .fabric, .plan, .host, .v0, .v1, .felt, .boot, .health, .sent] L = true) (h : OnlyIn L
        a d) : OnlyIn L a (markMissing fuel cause src tick w d) := by
  induction fuel generalizing cause tick w d a L with
  | zero => exact h
  | succ n ih =>
    refine OnlyIn.widen hL h ?_
    have h0 := OnlyIn.refl [.chambray, .fabric, .plan, .host, .v0, .v1, .felt, .boot, .health, .sent] d
    unfold markMissing
    repeat' (first
      | with_reducible assumption | ((with_reducible refine Part.subI ?_); exact rfl) | intro _
      | with_reducible apply ih | with_reducible apply setMissing_only | with_reducible apply zeroEdge_only
      | with_reducible apply OnlyIn.foldl | split | extract_lets)

theorem miss_only {L : List Part} {a : Dev} (cause : MissCause) (src : Source) (tick : Nat) (w : Nat) {d : Dev} (hL :
    Part.sub [.chambray, .fabric, .plan, .host, .v0, .v1, .felt, .boot, .health, .sent] L = true) (h : OnlyIn L a d) :
    OnlyIn L a (miss cause src tick w d) := by
  refine OnlyIn.widen hL h ?_
  have h0 := OnlyIn.refl [.chambray, .fabric, .plan, .host, .v0, .v1, .felt, .boot, .health, .sent] d
  unfold miss
  repeat' (first
    | with_reducible assumption | ((with_reducible refine Part.subI ?_); exact rfl) | exact Or.inl rfl
    | exact Or.inr rfl | intro _ | with_reducible apply markMissing_only)

theorem faultMiss_only {L : List Part} {a : Dev} (cause : MissCause) (src : Source) (tick : Nat) (w : Nat) {d : Dev}
    (hL : Part.sub [.chambray, .fabric, .plan, .host, .v0, .v1, .felt, .boot, .health, .sent] L = true) (h : OnlyIn L
    a d) :
    OnlyIn L a (faultMiss cause src tick w d) := by
  refine OnlyIn.widen hL h ?_
  have h0 := OnlyIn.refl [.chambray, .fabric, .plan, .host, .v0, .v1, .felt, .boot, .health, .sent] d
  unfold faultMiss
  repeat' (first
    | with_reducible assumption | ((with_reducible refine Part.subI ?_); exact rfl) | exact Or.inl rfl
    | exact Or.inr rfl | intro _
    | (extract_lets +onlyGivenNames -underBinder dd; (subst dd))
    | with_reducible apply miss_only | with_reducible apply raiseH_only | split)

theorem missWhere_only {L : List Part} {a : Dev} (cause : MissCause) (tick : Nat) (p : Nat → WindowRec → Bool) {d :
    Dev} (hL : Part.sub [.chambray, .fabric, .plan, .host, .v0, .v1, .felt, .boot, .health, .sent] L = true) (h :
    OnlyIn L a d) :
    OnlyIn L a (missWhere cause tick p d) := by
  refine OnlyIn.widen hL h ?_
  have h0 := OnlyIn.refl [.chambray, .fabric, .plan, .host, .v0, .v1, .felt, .boot, .health, .sent] d
  unfold missWhere
  repeat' (first
    | with_reducible assumption | ((with_reducible refine Part.subI ?_); exact rfl) | exact Or.inl rfl
    | exact Or.inr rfl | intro _ | with_reducible apply miss_only | with_reducible apply OnlyIn.foldl
    | with_reducible apply OnlyIn.foldlSnd | split)

/-! ### Recovery -/

theorem startSwitch_only {L : List Part} {a : Dev} (target : Nat) (reason : ModeReason) {d : Dev} (hL : Part.sub
    [.plan] L = true) (h : OnlyIn L a d) :
    OnlyIn L a (startSwitch target reason d) := by
  refine OnlyIn.widen hL h ?_
  have h0 := OnlyIn.refl [.plan] d
  unfold startSwitch
  repeat' (first
    | with_reducible assumption | exact Or.inl rfl | exact Or.inr rfl | intro _
    | (extract_lets +onlyGivenNames -underBinder dd; (subst dd))
    | ((conv => (arg 3; arg 23; skip)); with_reducible apply OnlyIn.mk'))

theorem countModeRefuse_only {L : List Part} {a : Dev} {d : Dev} (hL : Part.sub [.plan, .host, .health, .sent] L =
    true) (h : OnlyIn L a d) :
    OnlyIn L a (countModeRefuse d) := by
  refine OnlyIn.widen hL h ?_
  have h0 := OnlyIn.refl [.plan, .host, .health, .sent] d
  unfold countModeRefuse
  repeat' (first
    | with_reducible assumption | ((with_reducible refine Part.subI ?_); exact rfl) | exact Or.inl rfl
    | exact Or.inr rfl | intro _
    | (extract_lets +onlyGivenNames -underBinder dd; (subst dd))
    | ((conv => (arg 3; arg 23; skip)); with_reducible apply OnlyIn.mk') | with_reducible apply satEvent_only)

theorem cancelSwitch_only {L : List Part} {a : Dev} (status : BitVec 8) {d : Dev} (hL : Part.sub [.plan, .host,
    .ctrl, .health, .sent] L = true) (h : OnlyIn L a d) :
    OnlyIn L a (cancelSwitch status d) := by
  refine OnlyIn.widen hL h ?_
  have h0 := OnlyIn.refl [.plan, .host, .ctrl, .health, .sent] d
  unfold cancelSwitch
  repeat' (first
    | with_reducible assumption | ((with_reducible refine Part.subI ?_); exact rfl) | exact Or.inl rfl
    | exact Or.inr rfl | intro _
    | (extract_lets +onlyGivenNames -underBinder dd; (subst dd))
    | ((conv => (arg 3; arg 23; skip)); with_reducible apply OnlyIn.mk') | with_reducible apply countModeRefuse_only
    | split)

theorem searchFrom_only {L : List Part} {a : Dev} (j : Nat) {d : Dev} (hL : Part.sub [.plan] L = true) (h : OnlyIn L
    a d) :
    OnlyIn L a (searchFrom j d) := by
  refine OnlyIn.widen hL h ?_
  have h0 := OnlyIn.refl [.plan] d
  unfold searchFrom
  repeat' (first
    | with_reducible assumption | ((with_reducible refine Part.subI ?_); exact rfl) | exact Or.inl rfl
    | exact Or.inr rfl | intro _
    | (extract_lets +onlyGivenNames -underBinder dd; (subst dd))
    | ((conv => (arg 3; arg 23; skip)); with_reducible apply OnlyIn.mk') | with_reducible apply startSwitch_only
    | split)

theorem refreshModes_only {L : List Part} {a : Dev} {d : Dev} (hL : Part.sub [.plan, .host, .ctrl, .health, .sent] L
    = true) (h : OnlyIn L a d) :
    OnlyIn L a (refreshModes d) := by
  refine OnlyIn.widen hL h ?_
  have h0 := OnlyIn.refl [.plan, .host, .ctrl, .health, .sent] d
  unfold refreshModes
  repeat' (first
    | with_reducible assumption | ((with_reducible refine Part.subI ?_); exact rfl) | exact Or.inl rfl
    | exact Or.inr rfl | intro _
    | (extract_lets +onlyGivenNames -underBinder dd; (subst dd))
    | ((conv => (arg 3; arg 23; skip)); with_reducible apply OnlyIn.mk') | with_reducible apply cancelSwitch_only
    | with_reducible apply searchFrom_only | split)

theorem setClusters_only {L : List Part} {a : Dev} (r : CluRun) (cl : Nat) {d : Dev} (hL : Part.sub [.fabric] L =
    true) (h : OnlyIn L a d) :
    OnlyIn L a (setClusters r d cl) := by
  refine OnlyIn.widen hL h ?_
  have h0 := OnlyIn.refl [.fabric] d
  unfold setClusters
  repeat' (first
    | with_reducible assumption | ((with_reducible refine Part.subI ?_); exact rfl) | exact Or.inl rfl
    | exact Or.inr rfl | intro _ | with_reducible apply Dev_modCluster_only)

theorem setUnitState_only {L : List Part} {a : Dev} (x : Nat) (r : UnitRun) {d : Dev} (hL : Part.sub [.chambray] L =
    true) (h : OnlyIn L a d) :
    OnlyIn L a (setUnitState x r d) := by
  refine OnlyIn.widen hL h ?_
  have h0 := OnlyIn.refl [.chambray] d
  unfold setUnitState
  repeat' (first
    | with_reducible assumption | exact Or.inl rfl | exact Or.inr rfl | intro _
    | (extract_lets +onlyGivenNames -underBinder dd; (subst dd))
    | ((conv => (arg 3; arg 23; skip)); with_reducible apply OnlyIn.mk'))

theorem clearCores_only {L : List Part} {a : Dev} (cl : Nat) {d : Dev} (hL : Part.sub [.fabric] L = true) (h : OnlyIn
    L a d) :
    OnlyIn L a (clearCores d cl) := by
  refine OnlyIn.widen hL h ?_
  have h0 := OnlyIn.refl [.fabric] d
  unfold clearCores
  repeat' (first
    | with_reducible assumption | ((with_reducible refine Part.subI ?_); exact rfl) | exact Or.inl rfl
    | exact Or.inr rfl | intro _ | with_reducible apply Dev_setCore_only | with_reducible apply OnlyIn.foldl)

theorem clearCluster_only {L : List Part} {a : Dev} (cl : Nat) {d : Dev} (hL : Part.sub [.fabric] L = true) (h :
    OnlyIn L a d) :
    OnlyIn L a (clearCluster d cl) := by
  refine OnlyIn.widen hL h ?_
  have h0 := OnlyIn.refl [.fabric] d
  unfold clearCluster
  repeat' (first
    | with_reducible assumption | ((with_reducible refine Part.subI ?_); exact rfl) | exact Or.inl rfl
    | exact Or.inr rfl | intro _ | with_reducible apply Dev_modCluster_only)

theorem zeroRange_only {L : List Part} {a : Dev} (lo : Nat) (hi : Nat) {d : Dev} (hL : Part.sub [.mem] L = true) (h :
    OnlyIn L a d) :
    OnlyIn L a (zeroRange lo hi d) := by
  refine OnlyIn.widen hL h ?_
  have h0 := OnlyIn.refl [.mem] d
  unfold zeroRange
  repeat' (first
    | with_reducible assumption | exact Or.inl rfl | exact Or.inr rfl | intro _
    | ((conv => (arg 3; arg 23; skip)); with_reducible apply OnlyIn.mk'))

theorem resetCluster_only {L : List Part} {a : Dev} (cl : Nat) {d : Dev} (hL : Part.sub [.fabric, .mem] L = true) (h
    : OnlyIn L a d) :
    OnlyIn L a (resetCluster d cl) := by
  refine OnlyIn.widen hL h ?_
  have h0 := OnlyIn.refl [.fabric, .mem] d
  unfold resetCluster
  repeat' (first
    | with_reducible assumption | ((with_reducible refine Part.subI ?_); exact rfl) | exact Or.inl rfl
    | exact Or.inr rfl | intro _ | with_reducible apply setClusters_only | with_reducible apply zeroRange_only
    | with_reducible apply clearCluster_only | with_reducible apply clearCores_only)

theorem clearGroupRuns_only {L : List Part} {a : Dev} (i : Nat) {d : Dev} (hL : Part.sub [.plan] L = true) (h :
    OnlyIn L a d) :
    OnlyIn L a (clearGroupRuns i d) := by
  refine OnlyIn.widen hL h ?_
  have h0 := OnlyIn.refl [.plan] d
  unfold clearGroupRuns
  repeat' (first
    | with_reducible assumption | exact Or.inl rfl | exact Or.inr rfl | intro _
    | (extract_lets +onlyGivenNames -underBinder dd; (subst dd))
    | ((conv => (arg 3; arg 23; skip)); with_reducible apply OnlyIn.mk'))

theorem emptyMemorySide_only {L : List Part} {a : Dev} (x : Nat) {d : Dev} (hL : Part.sub [.tweed, .damask, .mem] L =
    true) (h : OnlyIn L a d) :
    OnlyIn L a (emptyMemorySide x d) := by
  refine OnlyIn.widen hL h ?_
  have h0 := OnlyIn.refl [.tweed, .damask, .mem] d
  unfold emptyMemorySide
  repeat' (first
    | with_reducible assumption | ((with_reducible refine Part.subI ?_); exact rfl) | exact Or.inl rfl
    | exact Or.inr rfl | intro _
    | (extract_lets +onlyGivenNames -underBinder dd; (subst dd))
    | ((conv => (arg 3; arg 23; skip)); with_reducible apply OnlyIn.mk') | with_reducible apply zeroRange_only
    | split)

theorem declareFailed_only {L : List Part} {a : Dev} (x : Nat) (i : Nat) {d : Dev} (hL : Part.sub [.fabric, .plan,
    .host, .v0, .v1, .felt, .ctrl, .boot, .recovery, .health, .sent] L = true) (h : OnlyIn L a d) :
    OnlyIn L a (declareFailed x i d) := by
  refine OnlyIn.widen hL h ?_
  have h0 := OnlyIn.refl [.fabric, .plan, .host, .v0, .v1, .felt, .ctrl, .boot, .recovery, .health, .sent] d
  unfold declareFailed
  repeat' (first
    | with_reducible assumption | ((with_reducible refine Part.subI ?_); exact rfl) | exact Or.inl rfl
    | exact Or.inr rfl | intro _
    | (extract_lets +onlyGivenNames -underBinder dd; (subst dd))
    | ((conv => (arg 3; arg 23; skip)); with_reducible apply OnlyIn.mk') | with_reducible apply Dev_modDie_only
    | with_reducible apply setClusters_only | with_reducible apply refreshModes_only
    | with_reducible apply conditionEvent_only | with_reducible apply raiseH_only | with_reducible apply OnlyIn.foldl
    | with_reducible apply OnlyIn.foldlSnd | split)

theorem resetPartition_only {L : List Part} {a : Dev} (p : PartRec) {d : Dev} (hL : Part.sub [.tweed, .chambray,
    .fabric, .damask, .mem] L = true) (h : OnlyIn L a d) :
    OnlyIn L a (resetPartition p d) := by
  refine OnlyIn.widen hL h ?_
  have h0 := OnlyIn.refl [.tweed, .chambray, .fabric, .damask, .mem] d
  unfold resetPartition
  repeat' (first
    | with_reducible assumption | ((with_reducible refine Part.subI ?_); exact rfl) | exact Or.inl rfl
    | exact Or.inr rfl | intro _
    | (extract_lets +onlyGivenNames -underBinder dd; (subst dd))
    | with_reducible apply resetCluster_only | with_reducible apply setUnitState_only
    | with_reducible apply emptyMemorySide_only | with_reducible apply OnlyIn.foldl
    | with_reducible apply OnlyIn.foldlSnd | split)

theorem missPartition_only {L : List Part} {a : Dev} (p : PartRec) {d : Dev} (hL : Part.sub [.chambray, .fabric,
    .plan, .host, .v0, .v1, .felt, .boot, .health, .sent] L = true) (h : OnlyIn L a d) :
    OnlyIn L a (missPartition p d) := by
  refine OnlyIn.widen hL h ?_
  have h0 := OnlyIn.refl [.chambray, .fabric, .plan, .host, .v0, .v1, .felt, .boot, .health, .sent] d
  unfold missPartition
  repeat' (first
    | with_reducible assumption | ((with_reducible refine Part.subI ?_); exact rfl) | exact Or.inl rfl
    | exact Or.inr rfl | intro _ | with_reducible apply missWhere_only | with_reducible apply OnlyIn.foldl)

theorem beginPartition_only {L : List Part} {a : Dev} (x : Nat) (i : Nat) (cause : Nat) (p : PartRec) (notice : Bool)
    {d : Dev} (hL : Part.sub [.tweed, .chambray, .fabric, .plan, .damask, .host, .v0, .v1, .felt, .ctrl, .boot,
    .recovery, .health, .mem, .sent] L = true) (h : OnlyIn L a d) :
    OnlyIn L a (beginPartition x i cause p notice d) := by
  refine OnlyIn.widen hL h ?_
  have h0 := OnlyIn.refl [.tweed, .chambray, .fabric, .plan, .damask, .host, .v0, .v1, .felt, .ctrl, .boot,
      .recovery, .health, .mem, .sent] d
  unfold beginPartition
  repeat' (first
    | with_reducible assumption | ((with_reducible refine Part.subI ?_); exact rfl) | exact Or.inl rfl
    | exact Or.inr rfl | intro _
    | (extract_lets +onlyGivenNames -underBinder dd; (subst dd))
    | with_reducible apply Dev_setDie_only | with_reducible apply satEvent_only | with_reducible apply raiseH_only
    | with_reducible apply resetPartition_only | with_reducible apply missPartition_only
    | with_reducible apply fwEvent_only | with_reducible apply clearGroupRuns_only
    | with_reducible apply declareFailed_only | split)

theorem restartPartition_only {L : List Part} {a : Dev} (x : Nat) (i : Nat) (cause : Nat) (notice : Bool) {d : Dev}
    (hL : Part.sub [.tweed, .chambray, .fabric, .plan, .damask, .host, .v0, .v1, .felt, .ctrl, .boot, .recovery,
    .health, .mem, .sent] L = true) (h : OnlyIn L a d) :
    OnlyIn L a (restartPartition x i cause notice d) := by
  refine OnlyIn.widen hL h ?_
  have h0 := OnlyIn.refl [.tweed, .chambray, .fabric, .plan, .damask, .host, .v0, .v1, .felt, .ctrl, .boot,
      .recovery, .health, .mem, .sent] d
  unfold restartPartition
  repeat' (first
    | with_reducible assumption | ((with_reducible refine Part.subI ?_); exact rfl) | exact Or.inl rfl
    | exact Or.inr rfl | intro _
    | (extract_lets +onlyGivenNames -underBinder dd; (subst dd))
    | with_reducible apply resetPartition_only | with_reducible apply Dev_setDie_only
    | with_reducible apply beginPartition_only | split)

theorem restartDie_only {L : List Part} {a : Dev} (x : Nat) (cause : Nat) {d : Dev} (hL : Part.sub [.tweed,
    .chambray, .fabric, .plan, .damask, .host, .v0, .v1, .felt, .ctrl, .boot, .recovery, .health, .mem, .sent] L =
    true) (h : OnlyIn L a d) :
    OnlyIn L a (restartDie x cause d) := by
  refine OnlyIn.widen hL h ?_
  have h0 := OnlyIn.refl [.tweed, .chambray, .fabric, .plan, .damask, .host, .v0, .v1, .felt, .ctrl, .boot,
      .recovery, .health, .mem, .sent] d
  unfold restartDie
  repeat' (first
    | with_reducible assumption | ((with_reducible refine Part.subI ?_); exact rfl) | exact Or.inl rfl
    | exact Or.inr rfl | intro _
    | (extract_lets +onlyGivenNames -underBinder dd; (subst dd))
    | with_reducible apply Dev_setDie_only | with_reducible apply satEvent_only | with_reducible apply modProc_only
    | with_reducible apply raiseH_only | with_reducible apply missWhere_only | with_reducible apply resetCluster_only
    | with_reducible apply setUnitState_only | with_reducible apply emptyMemorySide_only
    | with_reducible apply declareFailed_only | with_reducible apply OnlyIn.foldl
    | with_reducible apply OnlyIn.foldlSnd | split)

end Sys2Proof.Machine
end

