-- ==== Sys2Proof/Laws/OnlyTime.lean ====
section
/-!
SUPPORT. The parts of the device that the operations of time, the clock and calibration may change
(Sys2Proof/Laws/Only.lean): one lemma for each.
-/

set_option linter.unusedVariables false

namespace Sys2Proof.Machine

open Sys2Proof

/-! ### Time -/

theorem Dev_setTime_only {L : List Part} {a : Dev} (t : TimeState) {d : Dev} (hL : Part.sub [.time] L = true) (h :
    OnlyIn L a d) :
    OnlyIn L a (Dev.setTime d t) := by
  refine OnlyIn.widen hL h ?_
  have h0 := OnlyIn.refl [.time] d
  unfold Dev.setTime
  repeat' (first
    | with_reducible assumption | exact Or.inl rfl | exact Or.inr rfl | intro _
    | ((conv => (arg 3; arg 23; skip)); with_reducible apply OnlyIn.mk'))

theorem Dev_setServo_only {L : List Part} {a : Dev} (v : ServoState) {d : Dev} (hL : Part.sub [.time] L = true) (h :
    OnlyIn L a d) :
    OnlyIn L a (Dev.setServo d v) := by
  refine OnlyIn.widen hL h ?_
  have h0 := OnlyIn.refl [.time] d
  unfold Dev.setServo
  repeat' (first
    | with_reducible assumption | exact Or.inl rfl | exact Or.inr rfl | intro _
    | (extract_lets +onlyGivenNames -underBinder dd; (subst dd))
    | ((conv => (arg 3; arg 23; skip)); with_reducible apply OnlyIn.mk'))

theorem countSyncLoss_only {L : List Part} {a : Dev} {d : Dev} (hL : Part.sub [.time, .host, .health, .sent] L =
    true) (h : OnlyIn L a d) :
    OnlyIn L a (countSyncLoss d) := by
  refine OnlyIn.widen hL h ?_
  have h0 := OnlyIn.refl [.time, .host, .health, .sent] d
  unfold countSyncLoss
  repeat' (first
    | with_reducible assumption | ((with_reducible refine Part.subI ?_); exact rfl) | exact Or.inl rfl
    | exact Or.inr rfl | intro _
    | (extract_lets +onlyGivenNames -underBinder dd; (subst dd))
    | ((conv => (arg 3; arg 23; skip)); with_reducible apply OnlyIn.mk') | with_reducible apply satEvent_only)

theorem noteHoldover_only {L : List Part} {a : Dev} {d : Dev} (hL : Part.sub [.felt] L = true) (h : OnlyIn L a d) :
    OnlyIn L a (noteHoldover d) := by
  refine OnlyIn.widen hL h ?_
  have h0 := OnlyIn.refl [.felt] d
  unfold noteHoldover
  repeat' (first
    | with_reducible assumption | exact Or.inl rfl | exact Or.inr rfl | intro _
    | (extract_lets +onlyGivenNames -underBinder dd; (subst dd))
    | ((conv => (arg 3; arg 23; skip)); with_reducible apply OnlyIn.mk'))

theorem loseVehicleTime_only {L : List Part} {a : Dev} {d : Dev} (hL : Part.sub [.time, .host, .felt, .health, .sent]
    L = true) (h : OnlyIn L a d) :
    OnlyIn L a (loseVehicleTime d) := by
  refine OnlyIn.widen hL h ?_
  have h0 := OnlyIn.refl [.time, .host, .felt, .health, .sent] d
  unfold loseVehicleTime
  repeat' (first
    | with_reducible assumption | ((with_reducible refine Part.subI ?_); exact rfl) | exact Or.inl rfl
    | exact Or.inr rfl | intro _
    | (extract_lets +onlyGivenNames -underBinder dd; (subst dd))
    | with_reducible apply Dev_setServo_only | with_reducible apply countSyncLoss_only
    | with_reducible apply noteHoldover_only | with_reducible apply conditionEvent_only | split)

theorem vehicleStep_only {L : List Part} {a : Dev} {d : Dev} (hL : Part.sub [.time, .host, .felt, .health, .sent] L =
    true) (h : OnlyIn L a d) :
    OnlyIn L a (vehicleStep d) := by
  refine OnlyIn.widen hL h ?_
  have h0 := OnlyIn.refl [.time, .host, .felt, .health, .sent] d
  unfold vehicleStep
  repeat' (first
    | with_reducible assumption | ((with_reducible refine Part.subI ?_); exact rfl) | exact Or.inl rfl
    | exact Or.inr rfl | intro _
    | (extract_lets +onlyGivenNames -underBinder dd; (subst dd))
    | ((conv => (arg 3; arg 23; skip)); with_reducible apply OnlyIn.mk') | with_reducible apply satEvent_only
    | with_reducible apply noteHoldover_only)

theorem captureOffset_only {L : List Part} {a : Dev} {d : Dev} (hL : Part.sub [.time] L = true) (h : OnlyIn L a d) :
    OnlyIn L a (captureOffset d) := by
  refine OnlyIn.widen hL h ?_
  have h0 := OnlyIn.refl [.time] d
  unfold captureOffset
  repeat' (first
    | with_reducible assumption | ((with_reducible refine Part.subI ?_); exact rfl) | exact Or.inl rfl
    | exact Or.inr rfl | intro _
    | (extract_lets +onlyGivenNames -underBinder dd; (subst dd))
    | with_reducible apply Dev_setServo_only | split)

theorem acceptSample_only {L : List Part} {a : Dev} (stamp : Nanos) (offset : Int) (e : Int) {d : Dev} (hL : Part.sub
    [.time] L = true) (h : OnlyIn L a d) :
    OnlyIn L a (acceptSample stamp offset e d) := by
  refine OnlyIn.widen hL h ?_
  have h0 := OnlyIn.refl [.time] d
  unfold acceptSample
  repeat' (first
    | with_reducible assumption | ((with_reducible refine Part.subI ?_); exact rfl) | exact Or.inl rfl
    | exact Or.inr rfl | intro _
    | (extract_lets +onlyGivenNames -underBinder dd; (subst dd))
    | with_reducible apply Dev_setServo_only)

theorem syncFollowUpReceived_only {L : List Part} {a : Dev} (pair : SyncPair) {d : Dev} (hL : Part.sub [.time, .host,
    .felt, .health, .sent] L = true) (h : OnlyIn L a d) :
    OnlyIn L a (syncFollowUpReceived pair d) := by
  refine OnlyIn.widen hL h ?_
  have h0 := OnlyIn.refl [.time, .host, .felt, .health, .sent] d
  unfold syncFollowUpReceived
  repeat' (first
    | with_reducible assumption | ((with_reducible refine Part.subI ?_); exact rfl) | exact Or.inl rfl
    | exact Or.inr rfl | intro _
    | (extract_lets +onlyGivenNames -underBinder dd; (subst dd))
    | with_reducible apply Dev_setServo_only | with_reducible apply vehicleStep_only
    | with_reducible apply acceptSample_only | split)

theorem announceReceived_only {L : List Part} {a : Dev} (grandmaster : Nat) {d : Dev} (hL : Part.sub [.time, .host,
    .felt, .health, .sent] L = true) (h : OnlyIn L a d) :
    OnlyIn L a (announceReceived grandmaster d) := by
  refine OnlyIn.widen hL h ?_
  have h0 := OnlyIn.refl [.time, .host, .felt, .health, .sent] d
  unfold announceReceived
  repeat' (first
    | with_reducible assumption | ((with_reducible refine Part.subI ?_); exact rfl) | exact Or.inl rfl
    | exact Or.inr rfl | intro _
    | (extract_lets +onlyGivenNames -underBinder dd; (subst dd))
    | with_reducible apply Dev_setServo_only | with_reducible apply vehicleStep_only | split)

theorem vehicleTimeLoss_only {L : List Part} {a : Dev} {d : Dev} (hL : Part.sub [.time, .host, .felt, .health, .sent]
    L = true) (h : OnlyIn L a d) :
    OnlyIn L a (vehicleTimeLoss d) := by
  refine OnlyIn.widen hL h ?_
  have h0 := OnlyIn.refl [.time, .host, .felt, .health, .sent] d
  unfold vehicleTimeLoss
  repeat' (first
    | with_reducible assumption | ((with_reducible refine Part.subI ?_); exact rfl) | exact Or.inl rfl
    | exact Or.inr rfl | intro _
    | (extract_lets +onlyGivenNames -underBinder dd; (subst dd))
    | with_reducible apply loseVehicleTime_only | split)

theorem servoSaturationSecond_only {L : List Part} {a : Dev} {d : Dev} (hL : Part.sub [.time, .host, .health, .sent]
    L = true) (h : OnlyIn L a d) :
    OnlyIn L a (servoSaturationSecond d) := by
  refine OnlyIn.widen hL h ?_
  have h0 := OnlyIn.refl [.time, .host, .health, .sent] d
  unfold servoSaturationSecond
  repeat' (first
    | with_reducible assumption | ((with_reducible refine Part.subI ?_); exact rfl) | exact Or.inl rfl
    | exact Or.inr rfl | intro _
    | (extract_lets +onlyGivenNames -underBinder dd; (subst dd))
    | with_reducible apply countSyncLoss_only | with_reducible apply Dev_setServo_only | split)

theorem stepFrequency_only {L : List Part} {a : Dev} {d : Dev} (hL : Part.sub [.time, .recovery] L = true) (h :
    OnlyIn L a d) :
    OnlyIn L a (stepFrequency d) := by
  refine OnlyIn.widen hL h ?_
  have h0 := OnlyIn.refl [.time, .recovery] d
  unfold stepFrequency
  repeat' (first
    | with_reducible assumption | ((with_reducible refine Part.subI ?_); exact rfl) | exact Or.inl rfl
    | exact Or.inr rfl | intro _
    | (extract_lets +onlyGivenNames -underBinder dd; (subst dd))
    | ((conv => (arg 3; arg 23; skip)); with_reducible apply OnlyIn.mk') | with_reducible apply Dev_modDie_only
    | with_reducible apply OnlyIn.foldl)

theorem Dev_setGptp_only {L : List Part} {a : Dev} (p : GptpPort) (g : GptpState) {d : Dev} (hL : Part.sub [.time,
    .ports] L = true) (h : OnlyIn L a d) :
    OnlyIn L a (Dev.setGptp d p g) := by
  refine OnlyIn.widen hL h ?_
  have h0 := OnlyIn.refl [.time, .ports] d
  unfold Dev.setGptp
  repeat' (first
    | with_reducible assumption | ((with_reducible refine Part.subI ?_); exact rfl) | exact Or.inl rfl
    | exact Or.inr rfl | intro _
    | (extract_lets +onlyGivenNames -underBinder dd; (subst dd))
    | ((conv => (arg 3; arg 23; skip)); with_reducible apply OnlyIn.mk') | with_reducible apply Dev_setLidar_only
    | split)

theorem pdelayReqTimer_only {L : List Part} {a : Dev} (p : GptpPort) {d : Dev} (hL : Part.sub [.time, .ports, .sent]
    L = true) (h : OnlyIn L a d) :
    OnlyIn L a (pdelayReqTimer p d) := by
  refine OnlyIn.widen hL h ?_
  have h0 := OnlyIn.refl [.time, .ports, .sent] d
  unfold pdelayReqTimer
  repeat' (first
    | with_reducible assumption | ((with_reducible refine Part.subI ?_); exact rfl) | exact Or.inl rfl
    | exact Or.inr rfl | intro _
    | (extract_lets +onlyGivenNames -underBinder dd; (subst dd))
    | with_reducible apply emit_only | with_reducible apply Dev_setGptp_only | split)

theorem pdelayReqReceived_only {L : List Part} {a : Dev} (p : GptpPort) {d : Dev} (hL : Part.sub [.sent] L = true) (h
    : OnlyIn L a d) :
    OnlyIn L a (pdelayReqReceived p d) := by
  refine OnlyIn.widen hL h ?_
  have h0 := OnlyIn.refl [.sent] d
  unfold pdelayReqReceived
  repeat' (first
    | with_reducible assumption | ((with_reducible refine Part.subI ?_); exact rfl) | exact Or.inl rfl
    | exact Or.inr rfl | intro _ | with_reducible apply emit_only | split)

theorem pdelayRespReceived_only {L : List Part} {a : Dev} (p : GptpPort) (linkDelay : Nat) (asCapable : Bool) {d :
    Dev} (hL : Part.sub [.time, .ports, .host, .felt, .health, .sent] L = true) (h : OnlyIn L a d) :
    OnlyIn L a (pdelayRespReceived p linkDelay asCapable d) := by
  refine OnlyIn.widen hL h ?_
  have h0 := OnlyIn.refl [.time, .ports, .host, .felt, .health, .sent] d
  unfold pdelayRespReceived
  repeat' (first
    | with_reducible assumption | ((with_reducible refine Part.subI ?_); exact rfl) | exact Or.inl rfl
    | exact Or.inr rfl | intro _
    | (extract_lets +onlyGivenNames -underBinder dd; (subst dd))
    | with_reducible apply Dev_setGptp_only | with_reducible apply loseVehicleTime_only | split)

theorem v1GptpFrame_only {L : List Part} {a : Dev} {d : Dev} (hL : Part.sub [.time, .host, .health, .sent] L = true)
    (h : OnlyIn L a d) :
    OnlyIn L a (v1GptpFrame d) := by
  refine OnlyIn.widen hL h ?_
  have h0 := OnlyIn.refl [.time, .host, .health, .sent] d
  unfold v1GptpFrame
  repeat' (first
    | with_reducible assumption | ((with_reducible refine Part.subI ?_); exact rfl) | exact Or.inl rfl
    | exact Or.inr rfl | intro _
    | (extract_lets +onlyGivenNames -underBinder dd; (subst dd))
    | ((conv => (arg 3; arg 23; skip)); with_reducible apply OnlyIn.mk') | with_reducible apply satEvent_only | split)

theorem lidarSyncSend_only {L : List Part} {a : Dev} (n : Fin 8) {d : Dev} (hL : Part.sub [.time, .ports, .sent] L =
    true) (h : OnlyIn L a d) :
    OnlyIn L a (lidarSyncSend n d) := by
  refine OnlyIn.widen hL h ?_
  have h0 := OnlyIn.refl [.time, .ports, .sent] d
  unfold lidarSyncSend
  repeat' (first
    | with_reducible assumption | ((with_reducible refine Part.subI ?_); exact rfl) | exact Or.inl rfl
    | exact Or.inr rfl | intro _
    | (extract_lets +onlyGivenNames -underBinder dd; (subst dd))
    | with_reducible apply emit_only | with_reducible apply Dev_setGptp_only | split)

theorem lidarAnnounceSend_only {L : List Part} {a : Dev} (n : Fin 8) {d : Dev} (hL : Part.sub [.time, .ports, .sent]
    L = true) (h : OnlyIn L a d) :
    OnlyIn L a (lidarAnnounceSend n d) := by
  refine OnlyIn.widen hL h ?_
  have h0 := OnlyIn.refl [.time, .ports, .sent] d
  unfold lidarAnnounceSend
  repeat' (first
    | with_reducible assumption | ((with_reducible refine Part.subI ?_); exact rfl) | exact Or.inl rfl
    | exact Or.inr rfl | intro _
    | (extract_lets +onlyGivenNames -underBinder dd; (subst dd))
    | with_reducible apply emit_only | with_reducible apply Dev_setGptp_only | split)

theorem lidarGptpReceived_only {L : List Part} {a : Dev} (n : Fin 8) (x0 : GptpKind) {d : Dev} (hL : Part.sub [.time,
    .ports, .host, .health, .sent] L = true) (h : OnlyIn L a d) :
    OnlyIn L a (lidarGptpReceived n x0 d) := by
  refine OnlyIn.widen hL h ?_
  have h0 := OnlyIn.refl [.time, .ports, .host, .health, .sent] d
  unfold lidarGptpReceived
  repeat' (first
    | with_reducible assumption | ((with_reducible refine Part.subI ?_); exact rfl) | exact Or.inl rfl
    | exact Or.inr rfl | intro _
    | (extract_lets +onlyGivenNames -underBinder dd; (subst dd))
    | with_reducible apply satEvent_only | with_reducible apply Dev_setGptp_only | split)

theorem countSkew_only {L : List Part} {a : Dev} {d : Dev} (hL : Part.sub [.time, .host, .health, .sent] L = true) (h
    : OnlyIn L a d) :
    OnlyIn L a (countSkew d) := by
  refine OnlyIn.widen hL h ?_
  have h0 := OnlyIn.refl [.time, .host, .health, .sent] d
  unfold countSkew
  repeat' (first
    | with_reducible assumption | ((with_reducible refine Part.subI ?_); exact rfl) | exact Or.inl rfl
    | exact Or.inr rfl | intro _
    | (extract_lets +onlyGivenNames -underBinder dd; (subst dd))
    | ((conv => (arg 3; arg 23; skip)); with_reducible apply OnlyIn.mk') | with_reducible apply satEvent_only)

theorem discardEnded_only {L : List Part} {a : Dev} (x : Nat) (tick : Nat) {d : Dev} (hL : Part.sub [.plan] L = true)
    (h : OnlyIn L a d) :
    OnlyIn L a (discardEnded x tick d) := by
  refine OnlyIn.widen hL h ?_
  have h0 := OnlyIn.refl [.plan] d
  unfold discardEnded
  repeat' (first
    | with_reducible assumption | ((with_reducible refine Part.subI ?_); exact rfl) | exact Or.inl rfl
    | exact Or.inr rfl | intro _
    | (extract_lets +onlyGivenNames -underBinder dd; (subst dd))
    | with_reducible apply Dev_setWin_only | with_reducible apply OnlyIn.foldl | with_reducible apply OnlyIn.foldlSnd
    | split)

theorem tickBroadcastArrival_only {L : List Part} {a : Dev} (die : Fin 6) {d : Dev} (hL : Part.sub [.time, .tweed,
    .chambray, .fabric, .plan, .damask, .host, .v0, .v1, .felt, .ctrl, .boot, .recovery, .health, .mem, .sent] L =
    true) (h : OnlyIn L a d) :
    OnlyIn L a (tickBroadcastArrival die d) := by
  refine OnlyIn.widen hL h ?_
  have h0 := OnlyIn.refl [.time, .tweed, .chambray, .fabric, .plan, .damask, .host, .v0, .v1, .felt, .ctrl, .boot,
      .recovery, .health, .mem, .sent] d
  unfold tickBroadcastArrival
  repeat' (first
    | with_reducible assumption | ((with_reducible refine Part.subI ?_); exact rfl) | exact Or.inl rfl
    | exact Or.inr rfl | intro _
    | (extract_lets +onlyGivenNames -underBinder dd; (subst dd))
    | with_reducible apply Dev_setDie_only | with_reducible apply discardEnded_only
    | with_reducible apply countSkew_only | with_reducible apply restartDie_only | split)

theorem ppsMissingTimeout_only {L : List Part} {a : Dev} {d : Dev} (hL : Part.sub [.time] L = true) (h : OnlyIn L a
    d) :
    OnlyIn L a (ppsMissingTimeout d) := by
  refine OnlyIn.widen hL h ?_
  have h0 := OnlyIn.refl [.time] d
  unfold ppsMissingTimeout
  repeat' (first
    | with_reducible assumption | exact Or.inl rfl | exact Or.inr rfl | intro _
    | (extract_lets +onlyGivenNames -underBinder dd; (subst dd))
    | ((conv => (arg 3; arg 23; skip)); with_reducible apply OnlyIn.mk') | split)

theorem tsqDevtimeLoRead_only {L : List Part} {a : Dev} {d : Dev} (hL : Part.sub [.time] L = true) (h : OnlyIn L a d)
    :
    OnlyIn L a (tsqDevtimeLoRead d) := by
  refine OnlyIn.widen hL h ?_
  have h0 := OnlyIn.refl [.time] d
  unfold tsqDevtimeLoRead
  repeat' (first
    | with_reducible assumption | exact Or.inl rfl | exact Or.inr rfl | intro _
    | (extract_lets +onlyGivenNames -underBinder dd; (subst dd))
    | ((conv => (arg 3; arg 23; skip)); with_reducible apply OnlyIn.mk') | split)

theorem tsqPpsStampLoRead_only {L : List Part} {a : Dev} {d : Dev} (hL : Part.sub [.time] L = true) (h : OnlyIn L a
    d) :
    OnlyIn L a (tsqPpsStampLoRead d) := by
  refine OnlyIn.widen hL h ?_
  have h0 := OnlyIn.refl [.time] d
  unfold tsqPpsStampLoRead
  repeat' (first
    | with_reducible assumption | exact Or.inl rfl | exact Or.inr rfl | intro _
    | (extract_lets +onlyGivenNames -underBinder dd; (subst dd))
    | ((conv => (arg 3; arg 23; skip)); with_reducible apply OnlyIn.mk') | split)

/-! ### Clock -/

theorem dieCycle_only {L : List Part} {a : Dev} (x : Nat) {d : Dev} (hL : Part.sub [.recovery] L = true) (h : OnlyIn
    L a d) :
    OnlyIn L a (dieCycle d x) := by
  refine OnlyIn.widen hL h ?_
  have h0 := OnlyIn.refl [.recovery] d
  unfold dieCycle
  repeat' (first
    | with_reducible assumption | ((with_reducible refine Part.subI ?_); exact rfl) | exact Or.inl rfl
    | exact Or.inr rfl | intro _
    | (extract_lets +onlyGivenNames -underBinder dd; (subst dd))
    | with_reducible apply Dev_setDie_only | split)

theorem operCycle_only {L : List Part} {a : Dev} {d : Dev} (hL : Part.sub [.health] L = true) (h : OnlyIn L a d) :
    OnlyIn L a (operCycle d) := by
  refine OnlyIn.widen hL h ?_
  have h0 := OnlyIn.refl [.health] d
  unfold operCycle
  repeat' (first
    | with_reducible assumption | exact Or.inl rfl | exact Or.inr rfl | intro _
    | (extract_lets +onlyGivenNames -underBinder dd; (subst dd))
    | ((conv => (arg 3; arg 23; skip)); with_reducible apply OnlyIn.mk') | split)

theorem clockCycle_only {L : List Part} {a : Dev} {d : Dev} (hL : Part.sub [.time, .recovery, .health] L = true) (h :
    OnlyIn L a d) :
    OnlyIn L a (clockCycle d) := by
  refine OnlyIn.widen hL h ?_
  have h0 := OnlyIn.refl [.time, .recovery, .health] d
  unfold clockCycle
  repeat' (first
    | with_reducible assumption | ((with_reducible refine Part.subI ?_); exact rfl) | exact Or.inl rfl
    | exact Or.inr rfl | intro _
    | (extract_lets +onlyGivenNames -underBinder dd; (subst dd))
    | ((conv => (arg 3; arg 23; skip)); with_reducible apply OnlyIn.mk') | with_reducible apply operCycle_only
    | with_reducible apply dieCycle_only | with_reducible apply OnlyIn.foldl | with_reducible apply OnlyIn.foldlSnd
    | split)

/-! ### Calib -/

theorem srgCalGenRead_only {L : List Part} {a : Dev} {d : Dev} (hL : Part.sub [.cal] L = true) (h : OnlyIn L a d) :
    OnlyIn L a (srgCalGenRead d) := by
  refine OnlyIn.widen hL h ?_
  have h0 := OnlyIn.refl [.cal] d
  unfold srgCalGenRead
  repeat' (first
    | with_reducible assumption | exact Or.inl rfl | exact Or.inr rfl | intro _
    | (extract_lets +onlyGivenNames -underBinder dd; (subst dd))
    | ((conv => (arg 3; arg 23; skip)); with_reducible apply OnlyIn.mk'))

theorem holdCalib_only {L : List Part} {a : Dev} {d : Dev} (hL : Part.sub [.cal, .output] L = true) (h : OnlyIn L a
    d) :
    OnlyIn L a (holdCalib d) := by
  refine OnlyIn.widen hL h ?_
  have h0 := OnlyIn.refl [.cal, .output] d
  unfold holdCalib
  repeat' (first
    | with_reducible assumption | exact Or.inl rfl | exact Or.inr rfl | intro _
    | (extract_lets +onlyGivenNames -underBinder dd; (subst dd))
    | ((conv => (arg 3; arg 23; skip)); with_reducible apply OnlyIn.mk'))

theorem rejectCal_only {L : List Part} {a : Dev} (streams : List Nat) (code : Nat) {d : Dev} (hL : Part.sub [.cal,
    .output, .host, .health, .sent] L = true) (h : OnlyIn L a d) :
    OnlyIn L a (rejectCal streams code d) := by
  refine OnlyIn.widen hL h ?_
  have h0 := OnlyIn.refl [.cal, .output, .host, .health, .sent] d
  unfold rejectCal
  repeat' (first
    | with_reducible assumption | ((with_reducible refine Part.subI ?_); exact rfl) | exact Or.inl rfl
    | exact Or.inr rfl | intro _
    | (extract_lets +onlyGivenNames -underBinder dd; (subst dd))
    | ((conv => (arg 3; arg 23; skip)); with_reducible apply OnlyIn.mk') | with_reducible apply satEvent_only
    | with_reducible apply holdCalib_only)

theorem holdDrift_only {L : List Part} {a : Dev} (stream : Nat) {d : Dev} (hL : Part.sub [.cal, .host, .health,
    .sent] L = true) (h : OnlyIn L a d) :
    OnlyIn L a (holdDrift d stream) := by
  refine OnlyIn.widen hL h ?_
  have h0 := OnlyIn.refl [.cal, .host, .health, .sent] d
  unfold holdDrift
  repeat' (first
    | with_reducible assumption | ((with_reducible refine Part.subI ?_); exact rfl) | exact Or.inl rfl
    | exact Or.inr rfl | intro _
    | (extract_lets +onlyGivenNames -underBinder dd; (subst dd))
    | ((conv => (arg 3; arg 23; skip)); with_reducible apply OnlyIn.mk') | with_reducible apply conditionEvent_only)

theorem writeUpdate_only {L : List Part} {a : Dev} (rs : List CandRecord) {d : Dev} (hL : Part.sub [.cal, .freeCtr] L
    = true) (h : OnlyIn L a d) :
    OnlyIn L a (writeUpdate rs d) := by
  refine OnlyIn.widen hL h ?_
  have h0 := OnlyIn.refl [.cal, .freeCtr] d
  unfold writeUpdate
  repeat' (first
    | with_reducible assumption | exact Or.inl rfl | exact Or.inr rfl | intro _
    | (extract_lets +onlyGivenNames -underBinder dd; (subst dd))
    | ((conv => (arg 3; arg 23; skip)); with_reducible apply OnlyIn.mk'))

theorem applyRun_only {L : List Part} {a : Dev} (x : Candidate) {d : Dev} (hL : Part.sub [.cal, .host, .health,
    .sent, .freeCtr] L = true) (h : OnlyIn L a d) :
    OnlyIn L a (applyRun x d) := by
  refine OnlyIn.widen hL h ?_
  have h0 := OnlyIn.refl [.cal, .host, .health, .sent, .freeCtr] d
  unfold applyRun
  repeat' (first
    | with_reducible assumption | ((with_reducible refine Part.subI ?_); exact rfl) | exact Or.inl rfl
    | exact Or.inr rfl | intro _
    | (extract_lets +onlyGivenNames -underBinder dd; (subst dd))
    | ((conv => (arg 3; arg 23; skip)); with_reducible apply OnlyIn.mk') | with_reducible apply holdDrift_only
    | with_reducible apply writeUpdate_only | with_reducible apply OnlyIn.foldl
    | with_reducible apply OnlyIn.foldlSnd | split)

theorem calGate_only {L : List Part} {a : Dev} (slot : Nat) (converged : Bool) (regularised : Bool) (x : Candidate)
    {d : Dev} (hL : Part.sub [.cal, .output, .host, .health, .sent, .freeCtr] L = true) (h : OnlyIn L a d) :
    OnlyIn L a (calGate slot converged regularised x d) := by
  refine OnlyIn.widen hL h ?_
  have h0 := OnlyIn.refl [.cal, .output, .host, .health, .sent, .freeCtr] d
  unfold calGate
  repeat' (first
    | with_reducible assumption | ((with_reducible refine Part.subI ?_); exact rfl) | exact Or.inl rfl
    | exact Or.inr rfl | intro _
    | (extract_lets +onlyGivenNames -underBinder dd; (subst dd))
    | ((conv => (arg 3; arg 23; skip)); with_reducible apply OnlyIn.mk') | with_reducible apply rejectCal_only
    | with_reducible apply applyRun_only | split)

theorem swapCal_only {L : List Part} {a : Dev} (j : Nat) {d : Dev} (hL : Part.sub [.cal, .output, .host, .health,
    .sent] L = true) (h : OnlyIn L a d) :
    OnlyIn L a (swapCal j d) := by
  refine OnlyIn.widen hL h ?_
  have h0 := OnlyIn.refl [.cal, .output, .host, .health, .sent] d
  unfold swapCal
  repeat' (first
    | with_reducible assumption | ((with_reducible refine Part.subI ?_); exact rfl) | exact Or.inl rfl
    | exact Or.inr rfl | intro _
    | (extract_lets +onlyGivenNames -underBinder dd; (subst dd))
    | ((conv => (arg 3; arg 23; skip)); with_reducible apply OnlyIn.mk') | with_reducible apply satEvent_only
    | with_reducible apply rejectCal_only | split)

/-! ### Muslin -/

theorem bump_only {L : List Part} {a : Dev} (bar : Nat) (old : Counter) (n : Nat) (put : Counter → Dev → Dev) {d :
    Dev}
    (hL : Part.sub [.host, .health, .sent] L = true) (hput : ∀ c d, OnlyIn L a d → OnlyIn L a (put c d)) (h : OnlyIn
        L a d) :
    OnlyIn L a (bump bar old n put d) := satEvent_only _ _ _ hL (hput _ _ h)

theorem countImplausible_only {L : List Part} {a : Dev} (n : Nat) (count : Nat) {d : Dev} (hL : Part.sub [.muslin,
    .host, .health, .sent] L = true) (h : OnlyIn L a d) :
    OnlyIn L a (countImplausible n count d) := by
  refine OnlyIn.widen hL h ?_
  have h0 := OnlyIn.refl [.muslin, .host, .health, .sent] d
  unfold countImplausible
  repeat' (first
    | with_reducible assumption | ((with_reducible refine Part.subI ?_); exact rfl) | exact Or.inl rfl
    | exact Or.inr rfl | intro _
    | (extract_lets +onlyGivenNames -underBinder dd; (subst dd))
    | with_reducible apply bump_only | with_reducible apply Dev_setStream_only)

theorem usable_only {L : List Part} {a : Dev} (n : Nat) (t : Int) (aa : Nanos) {d : Dev} (hL : Part.sub [.muslin] L =
    true) (h : OnlyIn L a d) :
    OnlyIn L a (usable n t aa d) := by
  refine OnlyIn.widen hL h ?_
  have h0 := OnlyIn.refl [.muslin] d
  unfold usable
  repeat' (first
    | with_reducible assumption | ((with_reducible refine Part.subI ?_); exact rfl) | exact Or.inl rfl
    | exact Or.inr rfl | intro _
    | (extract_lets +onlyGivenNames -underBinder dd; (subst dd))
    | with_reducible apply Dev_setStream_only)

theorem reacquisitionPeriodEnd_only {L : List Part} {a : Dev} (stream : Fin 48) {d : Dev} (hL : Part.sub [.muslin] L
    = true) (h : OnlyIn L a d) :
    OnlyIn L a (reacquisitionPeriodEnd stream d) := by
  refine OnlyIn.widen hL h ?_
  have h0 := OnlyIn.refl [.muslin] d
  unfold reacquisitionPeriodEnd
  repeat' (first
    | with_reducible assumption | ((with_reducible refine Part.subI ?_); exact rfl) | exact Or.inl rfl
    | exact Or.inr rfl | intro _
    | (extract_lets +onlyGivenNames -underBinder dd; (subst dd))
    | with_reducible apply Dev_setStream_only | split)

theorem modContrib_only {L : List Part} {a : Dev} (tick : Nat) (stream : Nat) (src : Source) (f : Contribution →
    Contribution) {d : Dev} (hL : Part.sub [.muslin] L = true) (h : OnlyIn L a d) :
    OnlyIn L a (modContrib tick stream src f d) := by
  refine OnlyIn.widen hL h ?_
  have h0 := OnlyIn.refl [.muslin] d
  unfold modContrib
  repeat' (first
    | with_reducible assumption | exact Or.inl rfl | exact Or.inr rfl | intro _
    | (extract_lets +onlyGivenNames -underBinder dd; (subst dd))
    | ((conv => (arg 3; arg 23; skip)); with_reducible apply OnlyIn.mk'))

theorem modBoth_only {L : List Part} {a : Dev} (tick : Nat) (stream : Nat) (f : Contribution → Contribution) {d :
    Dev} (hL : Part.sub [.muslin] L = true) (h : OnlyIn L a d) :
    OnlyIn L a (modBoth tick stream f d) := by
  refine OnlyIn.widen hL h ?_
  have h0 := OnlyIn.refl [.muslin] d
  unfold modBoth
  repeat' (first
    | with_reducible assumption | ((with_reducible refine Part.subI ?_); exact rfl) | exact Or.inl rfl
    | exact Or.inr rfl | intro _ | with_reducible apply modContrib_only)

theorem enterReacquiring_only {L : List Part} {a : Dev} (n : Nat) {d : Dev} (hL : Part.sub [.muslin, .host, .health,
    .sent] L = true) (h : OnlyIn L a d) :
    OnlyIn L a (enterReacquiring n d) := by
  refine OnlyIn.widen hL h ?_
  have h0 := OnlyIn.refl [.muslin, .host, .health, .sent] d
  unfold enterReacquiring
  repeat' (first
    | with_reducible assumption | ((with_reducible refine Part.subI ?_); exact rfl) | exact Or.inl rfl
    | exact Or.inr rfl | intro _
    | (extract_lets +onlyGivenNames -underBinder dd; (subst dd))
    | with_reducible apply bump_only | with_reducible apply Dev_setStream_only | with_reducible apply modBoth_only
    | with_reducible apply conditionEvent_only)

theorem stepStream_only {L : List Part} {a : Dev} (k : Nat) (e : Nat × StreamEntry) {d : Dev} (hL : Part.sub
    [.muslin] L = true) (h : OnlyIn L a d) :
    OnlyIn L a (stepStream k d e) := by
  refine OnlyIn.widen hL h ?_
  have h0 := OnlyIn.refl [.muslin] d
  unfold stepStream
  repeat' (first
    | with_reducible assumption | ((with_reducible refine Part.subI ?_); exact rfl) | exact Or.inl rfl
    | exact Or.inr rfl | intro _
    | (extract_lets +onlyGivenNames -underBinder dd; (subst dd))
    | with_reducible apply Dev_setStream_only | with_reducible apply modBoth_only | split)

theorem stepStreams_only {L : List Part} {a : Dev} (k : Nat) {d : Dev} (hL : Part.sub [.muslin] L = true) (h : OnlyIn
    L a d) :
    OnlyIn L a (stepStreams k d) := by
  refine OnlyIn.widen hL h ?_
  have h0 := OnlyIn.refl [.muslin] d
  unfold stepStreams
  repeat' (first
    | with_reducible assumption | ((with_reducible refine Part.subI ?_); exact rfl) | exact Or.inl rfl
    | exact Or.inr rfl | intro _ | with_reducible apply stepStream_only | with_reducible apply OnlyIn.foldl)

theorem lateIn_only {L : List Part} {a : Dev} (stream : Nat) (tick : Nat) (n : Nat) (src : Source) (post : Bool)
    (kind : OutKind) {d : Dev} (hL : Part.sub [.muslin] L = true) (h : OnlyIn L a d) :
    OnlyIn L a (lateIn stream tick n src post d kind) := by
  refine OnlyIn.widen hL h ?_
  have h0 := OnlyIn.refl [.muslin] d
  unfold lateIn
  repeat' (first
    | with_reducible assumption | exact Or.inl rfl | exact Or.inr rfl | intro _
    | (extract_lets +onlyGivenNames -underBinder dd; (subst dd))
    | ((conv => (arg 3; arg 23; skip)); with_reducible apply OnlyIn.mk') | split)

theorem lateFrom_only {L : List Part} {a : Dev} (stream : Nat) (tick : Nat) (n : Nat) (src : Source) {d : Dev} (hL :
    Part.sub [.muslin] L = true) (h : OnlyIn L a d) :
    OnlyIn L a (lateFrom stream tick n d src) := by
  refine OnlyIn.widen hL h ?_
  have h0 := OnlyIn.refl [.muslin] d
  unfold lateFrom
  repeat' (first
    | with_reducible assumption | ((with_reducible refine Part.subI ?_); exact rfl) | exact Or.inl rfl
    | exact Or.inr rfl | intro _ | with_reducible apply lateIn_only | with_reducible apply OnlyIn.foldl)

theorem countLateSamples_only {L : List Part} {a : Dev} (stream : Nat) (tick : Nat) (n : Nat) {d : Dev} (hL :
    Part.sub [.muslin, .host, .health, .sent] L = true) (h : OnlyIn L a d) :
    OnlyIn L a (countLateSamples stream tick n d) := by
  refine OnlyIn.widen hL h ?_
  have h0 := OnlyIn.refl [.muslin, .host, .health, .sent] d
  unfold countLateSamples
  repeat' (first
    | with_reducible assumption | ((with_reducible refine Part.subI ?_); exact rfl) | exact Or.inl rfl
    | exact Or.inr rfl | intro _
    | (extract_lets +onlyGivenNames -underBinder dd; (subst dd))
    | with_reducible apply bump_only | with_reducible apply Dev_setStream_only | with_reducible apply lateFrom_only
    | with_reducible apply OnlyIn.foldl | with_reducible apply OnlyIn.foldlSnd | split)

theorem countOutOfWindow_only {L : List Part} {a : Dev} (stream : Nat) (n : Nat) {d : Dev} (hL : Part.sub [.muslin,
    .host, .health, .sent] L = true) (h : OnlyIn L a d) :
    OnlyIn L a (countOutOfWindow stream n d) := by
  refine OnlyIn.widen hL h ?_
  have h0 := OnlyIn.refl [.muslin, .host, .health, .sent] d
  unfold countOutOfWindow
  repeat' (first
    | with_reducible assumption | ((with_reducible refine Part.subI ?_); exact rfl) | exact Or.inl rfl
    | exact Or.inr rfl | intro _
    | (extract_lets +onlyGivenNames -underBinder dd; (subst dd))
    | with_reducible apply bump_only | with_reducible apply Dev_setStream_only)

theorem noteAssigned_only {L : List Part} {a : Dev} (tick : Nat) {d : Dev} (hL : Part.sub [.muslin] L = true) (h :
    OnlyIn L a d) :
    OnlyIn L a (noteAssigned tick d) := by
  refine OnlyIn.widen hL h ?_
  have h0 := OnlyIn.refl [.muslin] d
  unfold noteAssigned
  repeat' (first
    | with_reducible assumption | exact Or.inl rfl | exact Or.inr rfl | intro _
    | (extract_lets +onlyGivenNames -underBinder dd; (subst dd))
    | ((conv => (arg 3; arg 23; skip)); with_reducible apply OnlyIn.mk'))

theorem stepEgo_only {L : List Part} {a : Dev} (b : Nanos) (tick : Nat) (e : Nat × StreamEntry) {d : Dev} (hL :
    Part.sub [.muslin, .host, .health, .sent] L = true) (h : OnlyIn L a d) :
    OnlyIn L a (stepEgo b tick d e) := by
  refine OnlyIn.widen hL h ?_
  have h0 := OnlyIn.refl [.muslin, .host, .health, .sent] d
  unfold stepEgo
  repeat' (first
    | with_reducible assumption | ((with_reducible refine Part.subI ?_); exact rfl) | exact Or.inl rfl
    | exact Or.inr rfl | intro _
    | (extract_lets +onlyGivenNames -underBinder dd; (subst dd))
    | ((conv => (arg 3; arg 23; skip)); with_reducible apply OnlyIn.mk') | with_reducible apply modBoth_only
    | with_reducible apply bump_only | with_reducible apply Dev_setStream_only | split)

theorem stepEgoInputs_only {L : List Part} {a : Dev} (b : Nanos) (tick : Nat) {d : Dev} (hL : Part.sub [.muslin,
    .host, .health, .sent] L = true) (h : OnlyIn L a d) :
    OnlyIn L a (stepEgoInputs b tick d) := by
  refine OnlyIn.widen hL h ?_
  have h0 := OnlyIn.refl [.muslin, .host, .health, .sent] d
  unfold stepEgoInputs
  repeat' (first
    | with_reducible assumption | ((with_reducible refine Part.subI ?_); exact rfl) | exact Or.inl rfl
    | exact Or.inr rfl | intro _ | with_reducible apply stepEgo_only | with_reducible apply OnlyIn.foldl)

theorem egoSample_only {L : List Part} {a : Dev} (n : Nat) (t : Int) (aa : Nanos) (x : EgoSample) {d : Dev} (hL :
    Part.sub [.muslin, .host, .health, .sent] L = true) (h : OnlyIn L a d) :
    OnlyIn L a (egoSample n t aa x d) := by
  refine OnlyIn.widen hL h ?_
  have h0 := OnlyIn.refl [.muslin, .host, .health, .sent] d
  unfold egoSample
  repeat' (first
    | with_reducible assumption | ((with_reducible refine Part.subI ?_); exact rfl) | exact Or.inl rfl
    | exact Or.inr rfl | intro _
    | (extract_lets +onlyGivenNames -underBinder dd; (subst dd))
    | ((conv => (arg 3; arg 23; skip)); with_reducible apply OnlyIn.mk') | with_reducible apply countImplausible_only
    | with_reducible apply usable_only | split)

theorem takeEgo_only {L : List Part} {a : Dev} (n : Nat) (tick : Nat) (e : StreamEntry) (v : Nanos) (src : Source) {d
    : Dev} (hL : Part.sub [.muslin] L = true) (h : OnlyIn L a d) :
    OnlyIn L a (takeEgo n tick e v d src) := by
  refine OnlyIn.widen hL h ?_
  have h0 := OnlyIn.refl [.muslin] d
  unfold takeEgo
  repeat' (first
    | with_reducible assumption | ((with_reducible refine Part.subI ?_); exact rfl) | exact Or.inl rfl
    | exact Or.inr rfl | intro _
    | (extract_lets +onlyGivenNames -underBinder dd; (subst dd))
    | with_reducible apply modContrib_only | with_reducible apply OnlyIn.foldl)

theorem decidePresence_only {L : List Part} {a : Dev} (n : Nat) (tick : Nat) {d : Dev} (hL : Part.sub [.muslin,
    .host, .felt, .health, .sent] L = true) (h : OnlyIn L a d) :
    OnlyIn L a (decidePresence n tick d) := by
  refine OnlyIn.widen hL h ?_
  have h0 := OnlyIn.refl [.muslin, .host, .felt, .health, .sent] d
  unfold decidePresence
  repeat' (first
    | with_reducible assumption | ((with_reducible refine Part.subI ?_); exact rfl) | exact Or.inl rfl
    | exact Or.inr rfl | intro _
    | (extract_lets +onlyGivenNames -underBinder dd; (subst dd))
    | ((conv => (arg 3; arg 23; skip)); with_reducible apply OnlyIn.mk') | with_reducible apply modContrib_only
    | with_reducible apply bump_only | with_reducible apply Dev_setStream_only | split)

theorem closeGate_only {L : List Part} {a : Dev} (n : Nat) (j : Nat) (e : StreamEntry) (v : Nanos) {d : Dev} (hL :
    Part.sub [.muslin, .host, .felt, .health, .sent] L = true) (h : OnlyIn L a d) :
    OnlyIn L a (closeGate n j e v d) := by
  refine OnlyIn.widen hL h ?_
  have h0 := OnlyIn.refl [.muslin, .host, .felt, .health, .sent] d
  unfold closeGate
  repeat' (first
    | with_reducible assumption | ((with_reducible refine Part.subI ?_); exact rfl) | exact Or.inl rfl
    | exact Or.inr rfl | intro _
    | (extract_lets +onlyGivenNames -underBinder dd; (subst dd))
    | with_reducible apply takeEgo_only | with_reducible apply decidePresence_only
    | with_reducible apply Dev_setStream_only | with_reducible apply OnlyIn.foldl
    | with_reducible apply OnlyIn.foldlSnd | split)

theorem musLastTimeLoRead_only {L : List Part} {a : Dev} (stream : Fin 48) {d : Dev} (hL : Part.sub [.muslin] L =
    true) (h : OnlyIn L a d) :
    OnlyIn L a (musLastTimeLoRead stream d) := by
  refine OnlyIn.widen hL h ?_
  have h0 := OnlyIn.refl [.muslin] d
  unfold musLastTimeLoRead
  repeat' (first
    | with_reducible assumption | ((with_reducible refine Part.subI ?_); exact rfl) | exact Or.inl rfl
    | exact Or.inr rfl | intro _
    | (extract_lets +onlyGivenNames -underBinder dd; (subst dd))
    | with_reducible apply Dev_setStream_only)

end Sys2Proof.Machine
end

