-- ==== Sys2Proof/Laws/OnlyCores.lean ====
section
/-!
SUPPORT. The parts of the device that the operations of memory, the cores, the clusters, Tweed, Damask and loading may change
(Sys2Proof/Laws/Only.lean): one lemma for each.
-/

set_option linter.unusedVariables false

namespace Sys2Proof.Machine

open Sys2Proof

/-! ### Memory -/

theorem setByte_only {L : List Part} {a : Dev} (aa : Nat) (v : Byte) {d : Dev} (hL : Part.sub [.mem] L = true) (h :
    OnlyIn L a d) :
    OnlyIn L a (setByte aa v d) := by
  refine OnlyIn.widen hL h ?_
  have h0 := OnlyIn.refl [.mem] d
  unfold setByte
  repeat' (first
    | with_reducible assumption | exact Or.inl rfl | exact Or.inr rfl | intro _
    | ((conv => (arg 3; arg 23; skip)); with_reducible apply OnlyIn.mk'))

theorem setBytes_only {L : List Part} {a : Dev} (at_ : Nat) (bs : List Byte) {d : Dev} (hL : Part.sub [.mem] L = true)
    (h : OnlyIn L a d) : OnlyIn L a (setBytes at_ bs d) := by
  induction bs generalizing at_ d with
  | nil => exact h
  | cons b t ih => exact ih _ (setByte_only _ _ hL h)

theorem setBits_only {L : List Part} {a : Dev} (aa : Nat) (sh : Nat) (w : Nat) (v : Nat) {d : Dev} (hL : Part.sub
    [.mem] L = true) (h : OnlyIn L a d) :
    OnlyIn L a (setBits aa sh w v d) := by
  refine OnlyIn.widen hL h ?_
  have h0 := OnlyIn.refl [.mem] d
  unfold setBits
  repeat' (first
    | with_reducible assumption | ((with_reducible refine Part.subI ?_); exact rfl) | exact Or.inl rfl
    | exact Or.inr rfl | intro _
    | (extract_lets +onlyGivenNames -underBinder dd; (subst dd))
    | with_reducible apply setByte_only)

theorem setElem_only {L : List Part} {a : Dev} (f : Format) (row : Nat) (i : Nat) (v : Nat) {d : Dev} (hL : Part.sub
    [.mem] L = true) (h : OnlyIn L a d) :
    OnlyIn L a (setElem f row i v d) := by
  refine OnlyIn.widen hL h ?_
  have h0 := OnlyIn.refl [.mem] d
  unfold setElem
  repeat' (first
    | with_reducible assumption | ((with_reducible refine Part.subI ?_); exact rfl) | exact Or.inl rfl
    | exact Or.inr rfl | intro _
    | (extract_lets +onlyGivenNames -underBinder dd; (subst dd))
    | with_reducible apply setBits_only | with_reducible apply setBytes_only | split)

theorem setScale_only {L : List Part} {a : Dev} (f : Format) (row : Nat) (i : Nat) (v : Nat) {d : Dev} (hL : Part.sub
    [.mem] L = true) (h : OnlyIn L a d) :
    OnlyIn L a (setScale f row i v d) := by
  refine OnlyIn.widen hL h ?_
  have h0 := OnlyIn.refl [.mem] d
  unfold setScale
  repeat' (first
    | with_reducible assumption | ((with_reducible refine Part.subI ?_); exact rfl) | exact Or.inl rfl
    | exact Or.inr rfl | intro _ | with_reducible apply setByte_only)

theorem setSpan_only {L : List Part} {a : Dev} (t : Tensor) (bs : List Byte) {d : Dev} (hL : Part.sub [.mem] L =
    true) (h : OnlyIn L a d) :
    OnlyIn L a (setSpan t bs d) := by
  refine OnlyIn.widen hL h ?_
  have h0 := OnlyIn.refl [.mem] d
  unfold setSpan
  repeat' (first
    | with_reducible assumption | ((with_reducible refine Part.subI ?_); exact rfl) | exact Or.inl rfl
    | exact Or.inr rfl | intro _ | with_reducible apply setByte_only | with_reducible apply OnlyIn.foldl
    | with_reducible apply OnlyIn.foldlSnd | split)

theorem setTensor_only {L : List Part} {a : Dev} (t : Option Tensor) (bs : List Byte) {d : Dev} (hL : Part.sub [.mem]
    L = true) (h : OnlyIn L a d) :
    OnlyIn L a (setTensor t bs d) := by
  refine OnlyIn.widen hL h ?_
  have h0 := OnlyIn.refl [.mem] d
  unfold setTensor
  repeat' (first
    | with_reducible assumption | ((with_reducible refine Part.subI ?_); exact rfl) | exact Or.inl rfl
    | exact Or.inr rfl | intro _ | with_reducible apply setBytes_only | split)

/-! ### Cores -/

theorem coreOp_only {L : List Part} {a : Dev} (cl : Fin 132) (co : Fin 64) (f : CoreState → CoreState) {d : Dev} (hL
    : Part.sub [.fabric] L = true) (h : OnlyIn L a d) :
    OnlyIn L a (coreOp cl co f d) := by
  refine OnlyIn.widen hL h ?_
  have h0 := OnlyIn.refl [.fabric] d
  unfold coreOp
  repeat' (first
    | with_reducible assumption | ((with_reducible refine Part.subI ?_); exact rfl) | exact Or.inl rfl
    | exact Or.inr rfl | intro _
    | (extract_lets +onlyGivenNames -underBinder dd; (subst dd))
    | with_reducible apply Dev_setCore_only | split)

theorem movi_only {L : List Part} {a : Dev} (cl : Fin 132) (co : Fin 64) (x : Fin 16) (imm : Word) {d : Dev} (hL :
    Part.sub [.fabric] L = true) (h : OnlyIn L a d) :
    OnlyIn L a (movi cl co x imm d) := by
  refine OnlyIn.widen hL h ?_
  have h0 := OnlyIn.refl [.fabric] d
  unfold movi
  repeat' (first
    | with_reducible assumption | ((with_reducible refine Part.subI ?_); exact rfl) | exact Or.inl rfl
    | exact Or.inr rfl | intro _ | with_reducible apply coreOp_only)

theorem addi_only {L : List Part} {a : Dev} (cl : Fin 132) (co : Fin 64) (x : Fin 16) (aa : Fin 16) (imm : Word) {d :
    Dev} (hL : Part.sub [.fabric] L = true) (h : OnlyIn L a d) :
    OnlyIn L a (addi cl co x aa imm d) := by
  refine OnlyIn.widen hL h ?_
  have h0 := OnlyIn.refl [.fabric] d
  unfold addi
  repeat' (first
    | with_reducible assumption | ((with_reducible refine Part.subI ?_); exact rfl) | exact Or.inl rfl
    | exact Or.inr rfl | intro _ | with_reducible apply coreOp_only)

theorem setc_only {L : List Part} {a : Dev} (cl : Fin 132) (co : Fin 64) (imm : Word) {d : Dev} (hL : Part.sub
    [.fabric] L = true) (h : OnlyIn L a d) :
    OnlyIn L a (setc cl co imm d) := by
  refine OnlyIn.widen hL h ?_
  have h0 := OnlyIn.refl [.fabric] d
  unfold setc
  repeat' (first
    | with_reducible assumption | ((with_reducible refine Part.subI ?_); exact rfl) | exact Or.inl rfl
    | exact Or.inr rfl | intro _ | with_reducible apply coreOp_only)

theorem rdnsw_only {L : List Part} {a : Dev} (cl : Fin 132) (co : Fin 64) (x : Fin 16) {d : Dev} (hL : Part.sub
    [.fabric] L = true) (h : OnlyIn L a d) :
    OnlyIn L a (rdnsw cl co x d) := by
  refine OnlyIn.widen hL h ?_
  have h0 := OnlyIn.refl [.fabric] d
  unfold rdnsw
  repeat' (first
    | with_reducible assumption | ((with_reducible refine Part.subI ?_); exact rfl) | exact Or.inl rfl
    | exact Or.inr rfl | intro _ | with_reducible apply coreOp_only)

theorem loopOp_only {L : List Part} {a : Dev} (cl : Fin 132) (co : Fin 64) (l : Fin 4) (imm : Word) {d : Dev} (hL :
    Part.sub [.fabric] L = true) (h : OnlyIn L a d) :
    OnlyIn L a (loopOp cl co l imm d) := by
  refine OnlyIn.widen hL h ?_
  have h0 := OnlyIn.refl [.fabric] d
  unfold loopOp
  repeat' (first
    | with_reducible assumption | ((with_reducible refine Part.subI ?_); exact rfl) | exact Or.inl rfl
    | exact Or.inr rfl | intro _ | with_reducible apply coreOp_only)

theorem loopx_only {L : List Part} {a : Dev} (cl : Fin 132) (co : Fin 64) (l : Fin 4) (aa : Fin 16) (imm : Word) {d :
    Dev} (hL : Part.sub [.fabric] L = true) (h : OnlyIn L a d) :
    OnlyIn L a (loopx cl co l aa imm d) := by
  refine OnlyIn.widen hL h ?_
  have h0 := OnlyIn.refl [.fabric] d
  unfold loopx
  repeat' (first
    | with_reducible assumption | ((with_reducible refine Part.subI ?_); exact rfl) | exact Or.inl rfl
    | exact Or.inr rfl | intro _ | with_reducible apply coreOp_only)

theorem endl_only {L : List Part} {a : Dev} (cl : Fin 132) (co : Fin 64) (l : Fin 4) {d : Dev} (hL : Part.sub
    [.fabric] L = true) (h : OnlyIn L a d) :
    OnlyIn L a (endl cl co l d) := by
  refine OnlyIn.widen hL h ?_
  have h0 := OnlyIn.refl [.fabric] d
  unfold endl
  repeat' (first
    | with_reducible assumption | ((with_reducible refine Part.subI ?_); exact rfl) | exact Or.inl rfl
    | exact Or.inr rfl | intro _
    | (extract_lets +onlyGivenNames -underBinder dd; (subst dd))
    | with_reducible apply Dev_setCore_only | split)

theorem missBurlapOn_only {L : List Part} {a : Dev} (cl : Nat) {d : Dev} (hL : Part.sub [.chambray, .fabric, .plan,
    .host, .v0, .v1, .felt, .boot, .health, .sent] L = true) (h : OnlyIn L a d) :
    OnlyIn L a (missBurlapOn cl d) := by
  refine OnlyIn.widen hL h ?_
  have h0 := OnlyIn.refl [.chambray, .fabric, .plan, .host, .v0, .v1, .felt, .boot, .health, .sent] d
  unfold missBurlapOn
  repeat' (first
    | with_reducible assumption | ((with_reducible refine Part.subI ?_); exact rfl) | exact Or.inl rfl
    | exact Or.inr rfl | intro _ | with_reducible apply miss_only | with_reducible apply OnlyIn.foldl
    | with_reducible apply OnlyIn.foldlSnd | split)

theorem sramError_only {L : List Part} {a : Dev} (cl : Nat) {d : Dev} (hL : Part.sub [.tweed, .chambray, .fabric,
    .plan, .damask, .host, .v0, .v1, .felt, .ctrl, .boot, .recovery, .health, .mem, .sent] L = true) (h : OnlyIn L a
    d) :
    OnlyIn L a (sramError cl d) := by
  refine OnlyIn.widen hL h ?_
  have h0 := OnlyIn.refl [.tweed, .chambray, .fabric, .plan, .damask, .host, .v0, .v1, .felt, .ctrl, .boot,
      .recovery, .health, .mem, .sent] d
  unfold sramError
  repeat' (first
    | with_reducible assumption | ((with_reducible refine Part.subI ?_); exact rfl) | exact Or.inl rfl
    | exact Or.inr rfl | intro _
    | (extract_lets +onlyGivenNames -underBinder dd; (subst dd))
    | with_reducible apply restartPartition_only | with_reducible apply raiseH_only
    | with_reducible apply missBurlapOn_only | with_reducible apply resetCluster_only
    | with_reducible apply raiseV_only | split)

theorem missKey_only {L : List Part} {a : Dev} (cause : MissCause) (key : Option Nat) {d : Dev} (hL : Part.sub
    [.chambray, .fabric, .plan, .host, .v0, .v1, .felt, .boot, .health, .sent] L = true) (h : OnlyIn L a d) :
    OnlyIn L a (missKey cause key d) := by
  refine OnlyIn.widen hL h ?_
  have h0 := OnlyIn.refl [.chambray, .fabric, .plan, .host, .v0, .v1, .felt, .boot, .health, .sent] d
  unfold missKey
  repeat' (first
    | with_reducible assumption | ((with_reducible refine Part.subI ?_); exact rfl) | exact Or.inl rfl
    | exact Or.inr rfl | intro _ | with_reducible apply miss_only | split)

theorem eccRead_only {L : List Part} {a : Dev} (cl : Nat) (window : Option Nat) (e : Ecc) {d : Dev} (hL : Part.sub
    [.tweed, .chambray, .fabric, .plan, .damask, .host, .v0, .v1, .felt, .ctrl, .boot, .recovery, .health, .mem,
    .sent] L = true) (h : OnlyIn L a d) :
    OnlyIn L a (eccRead cl window e d) := by
  refine OnlyIn.widen hL h ?_
  have h0 := OnlyIn.refl [.tweed, .chambray, .fabric, .plan, .damask, .host, .v0, .v1, .felt, .ctrl, .boot,
      .recovery, .health, .mem, .sent] d
  unfold eccRead
  repeat' (first
    | with_reducible assumption | ((with_reducible refine Part.subI ?_); exact rfl) | exact Or.inl rfl
    | exact Or.inr rfl | intro _
    | (extract_lets +onlyGivenNames -underBinder dd; (subst dd))
    | with_reducible apply satEvent_only | with_reducible apply Dev_setCluster_only
    | with_reducible apply sramError_only | with_reducible apply missKey_only | split)

theorem ldv_only {L : List Part} {a : Dev} (cl : Fin 132) (co : Fin 64) (v : Fin 32) (aa : Fin 16) (imm : Word) (ecc
    : Ecc) {d : Dev} (hL : Part.sub [.tweed, .chambray, .fabric, .plan, .damask, .host, .v0, .v1, .felt, .ctrl,
    .boot, .recovery, .health, .mem, .sent] L = true) (h : OnlyIn L a d) :
    ∀ e, ldv cl co v aa imm ecc d = some e → OnlyIn L a e := by
  intro e he
  unfold ldv at he
  repeat' (first
    | (extract_lets at he) | (obtain ⟨p, -, rfl⟩ := Option.map_eq_some_iff.mp he)
    | (obtain rfl := Option.some.inj he) | (cases he) | split at he)
  all_goals refine OnlyIn.widen hL h ?_
  all_goals have h0 := OnlyIn.refl [.tweed, .chambray, .fabric, .plan, .damask, .host, .v0, .v1, .felt, .ctrl, .boot,
      .recovery, .health, .mem, .sent] d
  all_goals repeat' (first
    | with_reducible assumption | ((with_reducible refine Part.subI ?_); exact rfl) | exact Or.inl rfl
    | exact Or.inr rfl | intro _ | with_reducible apply Dev_setCore_only | with_reducible apply eccRead_only)

theorem stvm_only {L : List Part} {a : Dev} (cl : Fin 132) (co : Fin 64) (v : Fin 32) (aa : Fin 16) (m : Fin 16) {d :
    Dev} (hL : Part.sub [.fabric, .mem] L = true) (h : OnlyIn L a d) :
    ∀ e, stvm cl co v aa m d = some e → OnlyIn L a e := by
  intro e he
  unfold stvm at he
  repeat' (first
    | (extract_lets at he) | (obtain ⟨p, -, rfl⟩ := Option.map_eq_some_iff.mp he)
    | (obtain rfl := Option.some.inj he) | (cases he) | split at he)
  all_goals refine OnlyIn.widen hL h ?_
  all_goals have h0 := OnlyIn.refl [.fabric, .mem] d
  all_goals repeat' (first
    | with_reducible assumption | ((with_reducible refine Part.subI ?_); exact rfl) | exact Or.inl rfl
    | exact Or.inr rfl | intro _ | with_reducible apply setBytes_only | with_reducible apply Dev_setCore_only
    | with_reducible apply OnlyIn.foldl)

theorem vop_only {L : List Part} {a : Dev} (cl : Fin 132) (co : Fin 64) (op : VOp) (int : Bool) (vd : Fin 32) (va :
    Fin 32) (vb : Fin 32) (vc : Fin 32) {d : Dev} (hL : Part.sub [.fabric] L = true) (h : OnlyIn L a d) :
    OnlyIn L a (vop cl co op int vd va vb vc d) := by
  refine OnlyIn.widen hL h ?_
  have h0 := OnlyIn.refl [.fabric] d
  unfold vop
  repeat' (first
    | with_reducible assumption | ((with_reducible refine Part.subI ?_); exact rfl) | exact Or.inl rfl
    | exact Or.inr rfl | intro _ | with_reducible apply coreOp_only)

theorem vcvt_only {L : List Part} {a : Dev} (cl : Fin 132) (co : Fin 64) (vd : Fin 32) (va : Fin 32) (int : Bool) (f
    : Format) (sat : Bool) (shift : BitVec 8) {d : Dev} (hL : Part.sub [.fabric] L = true) (h : OnlyIn L a d) :
    OnlyIn L a (vcvt cl co vd va int f sat shift d) := by
  refine OnlyIn.widen hL h ?_
  have h0 := OnlyIn.refl [.fabric] d
  unfold vcvt
  repeat' (first
    | with_reducible assumption | ((with_reducible refine Part.subI ?_); exact rfl) | exact Or.inl rfl
    | exact Or.inr rfl | intro _ | with_reducible apply coreOp_only)

theorem vred_only {L : List Part} {a : Dev} (cl : Fin 132) (co : Fin 64) (vd : Fin 32) (va : Fin 32) (max : Bool) {d
    : Dev} (hL : Part.sub [.fabric] L = true) (h : OnlyIn L a d) :
    OnlyIn L a (vred cl co vd va max d) := by
  refine OnlyIn.widen hL h ?_
  have h0 := OnlyIn.refl [.fabric] d
  unfold vred
  repeat' (first
    | with_reducible assumption | ((with_reducible refine Part.subI ?_); exact rfl) | exact Or.inl rfl
    | exact Or.inr rfl | intro _ | with_reducible apply coreOp_only)

theorem vfn_only {L : List Part} {a : Dev} (cl : Fin 132) (co : Fin 64) (vd : Fin 32) (va : Fin 32) (f : VFn) {d :
    Dev} (hL : Part.sub [.fabric] L = true) (h : OnlyIn L a d) :
    OnlyIn L a (vfn cl co vd va f d) := by
  refine OnlyIn.widen hL h ?_
  have h0 := OnlyIn.refl [.fabric] d
  unfold vfn
  repeat' (first
    | with_reducible assumption | ((with_reducible refine Part.subI ?_); exact rfl) | exact Or.inl rfl
    | exact Or.inr rfl | intro _ | with_reducible apply coreOp_only)

theorem smax_only {L : List Part} {a : Dev} (cl : Fin 132) (co : Fin 64) (vd : Fin 32) (vs : Fin 32) (n : Nat) {d :
    Dev} (hL : Part.sub [.fabric] L = true) (h : OnlyIn L a d) :
    OnlyIn L a (smax cl co vd vs n d) := by
  refine OnlyIn.widen hL h ?_
  have h0 := OnlyIn.refl [.fabric] d
  unfold smax
  repeat' (first
    | with_reducible assumption | ((with_reducible refine Part.subI ?_); exact rfl) | exact Or.inl rfl
    | exact Or.inr rfl | intro _ | with_reducible apply coreOp_only)

theorem srsc_only {L : List Part} {a : Dev} (cl : Fin 132) (co : Fin 64) (va : Fin 32) (vm : Fin 32) (vd : Fin 32)
    (vl : Fin 32) {d : Dev} (hL : Part.sub [.fabric] L = true) (h : OnlyIn L a d) :
    OnlyIn L a (srsc cl co va vm vd vl d) := by
  refine OnlyIn.widen hL h ?_
  have h0 := OnlyIn.refl [.fabric] d
  unfold srsc
  repeat' (first
    | with_reducible assumption | ((with_reducible refine Part.subI ?_); exact rfl) | exact Or.inl rfl
    | exact Or.inr rfl | intro _ | with_reducible apply coreOp_only)

theorem sexp_only {L : List Part} {a : Dev} (cl : Fin 132) (co : Fin 64) (vs : Fin 32) (vm : Fin 32) (vl : Fin 32) (n
    : Nat) {d : Dev} (hL : Part.sub [.fabric] L = true) (h : OnlyIn L a d) :
    OnlyIn L a (sexp cl co vs vm vl n d) := by
  refine OnlyIn.widen hL h ?_
  have h0 := OnlyIn.refl [.fabric] d
  unfold sexp
  repeat' (first
    | with_reducible assumption | ((with_reducible refine Part.subI ?_); exact rfl) | exact Or.inl rfl
    | exact Or.inr rfl | intro _ | with_reducible apply coreOp_only)

theorem smrg_only {L : List Part} {a : Dev} (cl : Fin 132) (co : Fin 64) (vd : Fin 32) (vs : Fin 32) {d : Dev} (hL :
    Part.sub [.fabric] L = true) (h : OnlyIn L a d) :
    OnlyIn L a (smrg cl co vd vs d) := by
  refine OnlyIn.widen hL h ?_
  have h0 := OnlyIn.refl [.fabric] d
  unfold smrg
  repeat' (first
    | with_reducible assumption | ((with_reducible refine Part.subI ?_); exact rfl) | exact Or.inl rfl
    | exact Or.inr rfl | intro _ | with_reducible apply coreOp_only)

theorem accz_only {L : List Part} {a : Dev} (cl : Fin 132) (co : Fin 64) (aa : Fin 8) (fp : Bool) {d : Dev} (hL :
    Part.sub [.fabric] L = true) (h : OnlyIn L a d) :
    OnlyIn L a (accz cl co aa fp d) := by
  refine OnlyIn.widen hL h ?_
  have h0 := OnlyIn.refl [.fabric] d
  unfold accz
  repeat' (first
    | with_reducible assumption | ((with_reducible refine Part.subI ?_); exact rfl) | exact Or.inl rfl
    | exact Or.inr rfl | intro _ | with_reducible apply coreOp_only)

theorem accrd_only {L : List Part} {a : Dev} (cl : Fin 132) (co : Fin 64) (v : Fin 32) (aa : Fin 8) (col : Fin 8) {d
    : Dev} (hL : Part.sub [.fabric] L = true) (h : OnlyIn L a d) :
    OnlyIn L a (accrd cl co v aa col d) := by
  refine OnlyIn.widen hL h ?_
  have h0 := OnlyIn.refl [.fabric] d
  unfold accrd
  repeat' (first
    | with_reducible assumption | ((with_reducible refine Part.subI ?_); exact rfl) | exact Or.inl rfl
    | exact Or.inr rfl | intro _ | with_reducible apply coreOp_only)

theorem accwr_only {L : List Part} {a : Dev} (cl : Fin 132) (co : Fin 64) (aa : Fin 8) (v : Fin 32) (col : Fin 8) {d
    : Dev} (hL : Part.sub [.fabric] L = true) (h : OnlyIn L a d) :
    OnlyIn L a (accwr cl co aa v col d) := by
  refine OnlyIn.widen hL h ?_
  have h0 := OnlyIn.refl [.fabric] d
  unfold accwr
  repeat' (first
    | with_reducible assumption | ((with_reducible refine Part.subI ?_); exact rfl) | exact Or.inl rfl
    | exact Or.inr rfl | intro _ | with_reducible apply coreOp_only)

theorem accscl_only {L : List Part} {a : Dev} (cl : Fin 132) (co : Fin 64) (aa : Fin 8) (v : Fin 32) {d : Dev} (hL :
    Part.sub [.fabric] L = true) (h : OnlyIn L a d) :
    OnlyIn L a (accscl cl co aa v d) := by
  refine OnlyIn.widen hL h ?_
  have h0 := OnlyIn.refl [.fabric] d
  unfold accscl
  repeat' (first
    | with_reducible assumption | ((with_reducible refine Part.subI ?_); exact rfl) | exact Or.inl rfl
    | exact Or.inr rfl | intro _ | with_reducible apply coreOp_only)

theorem mma_only {L : List Part} {a : Dev} (cl : Fin 132) (co : Fin 64) (acc : Fin 8) (xa : Fin 16) (xb : Fin 16) (xk
    : Fin 16) (fmt : BitVec 6) (subA : Bool) (subB : Bool) (ecc : Ecc) {d : Dev} (hL : Part.sub [.tweed, .chambray,
    .fabric, .plan, .damask, .host, .v0, .v1, .felt, .ctrl, .boot, .recovery, .health, .mem, .sent] L = true) (h :
    OnlyIn L a d) :
    ∀ e, mma cl co acc xa xb xk fmt subA subB ecc d = some e → OnlyIn L a e := by
  intro e he
  unfold mma at he
  repeat' (first
    | (extract_lets at he) | (obtain ⟨p, -, rfl⟩ := Option.map_eq_some_iff.mp he)
    | (obtain rfl := Option.some.inj he) | (cases he) | split at he)
  all_goals refine OnlyIn.widen hL h ?_
  all_goals have h0 := OnlyIn.refl [.tweed, .chambray, .fabric, .plan, .damask, .host, .v0, .v1, .felt, .ctrl, .boot,
      .recovery, .health, .mem, .sent] d
  all_goals repeat' (first
    | with_reducible assumption | ((with_reducible refine Part.subI ?_); exact rfl) | exact Or.inl rfl
    | exact Or.inr rfl | intro _ | with_reducible apply Dev_setCore_only | with_reducible apply eccRead_only)

/-! ### Clusters -/

theorem bankAdd_only {L : List Part} {a : Dev} (aa : Nat) (v : F32) {d : Dev} (hL : Part.sub [.mem] L = true) (h :
    OnlyIn L a d) :
    OnlyIn L a (bankAdd aa v d) := by
  refine OnlyIn.widen hL h ?_
  have h0 := OnlyIn.refl [.mem] d
  unfold bankAdd
  repeat' (first
    | with_reducible assumption | ((with_reducible refine Part.subI ?_); exact rfl) | exact Or.inl rfl
    | exact Or.inr rfl | intro _ | with_reducible apply setBytes_only)

theorem drainCluster_only {L : List Part} {a : Dev} (window : Option Nat) (cl : Nat) {d : Dev} (hL : Part.sub
    [.fabric, .mem] L = true) (h : OnlyIn L a d) :
    OnlyIn L a (drainCluster window d cl) := by
  refine OnlyIn.widen hL h ?_
  have h0 := OnlyIn.refl [.fabric, .mem] d
  unfold drainCluster
  repeat' (first
    | with_reducible assumption | ((with_reducible refine Part.subI ?_); exact rfl) | exact Or.inl rfl
    | exact Or.inr rfl | intro _
    | (extract_lets +onlyGivenNames -underBinder dd; (subst dd))
    | with_reducible apply bankAdd_only | with_reducible apply Dev_modCluster_only
    | with_reducible apply OnlyIn.foldl)

theorem drain_only {L : List Part} {a : Dev} (window : Option Nat) {d : Dev} (hL : Part.sub [.fabric, .mem] L = true)
    (h : OnlyIn L a d) :
    OnlyIn L a (drain window d) := by
  refine OnlyIn.widen hL h ?_
  have h0 := OnlyIn.refl [.fabric, .mem] d
  unfold drain
  repeat' (first
    | with_reducible assumption | ((with_reducible refine Part.subI ?_); exact rfl) | exact Or.inl rfl
    | exact Or.inr rfl | intro _ | with_reducible apply drainCluster_only | with_reducible apply OnlyIn.foldl)

theorem reduceAdd_only {L : List Part} {a : Dev} (fixed : Bool) (window : Option Nat) (cl : Nat) (source : Nat) (aa :
    Nat) (v : F32) {d : Dev} (hL : Part.sub [.fabric, .mem] L = true) (h : OnlyIn L a d) :
    OnlyIn L a (reduceAdd fixed window cl source aa v d) := by
  refine OnlyIn.widen hL h ?_
  have h0 := OnlyIn.refl [.fabric, .mem] d
  unfold reduceAdd
  repeat' (first
    | with_reducible assumption | ((with_reducible refine Part.subI ?_); exact rfl) | exact Or.inl rfl
    | exact Or.inr rfl | intro _ | with_reducible apply Dev_modCluster_only | with_reducible apply bankAdd_only
    | split)

theorem radd_only {L : List Part} {a : Dev} (cl : Fin 132) (co : Fin 64) (x : Fin 16) (v : Fin 32) (m : Fin 16) (ecc
    : Ecc) {d : Dev} (hL : Part.sub [.tweed, .chambray, .fabric, .plan, .damask, .host, .v0, .v1, .felt, .ctrl,
    .boot, .recovery, .health, .mem, .sent] L = true) (h : OnlyIn L a d) :
    ∀ e, radd cl co x v m ecc d = some e → OnlyIn L a e := by
  intro e he
  unfold radd at he
  repeat' (first
    | (extract_lets at he) | (obtain ⟨p, -, rfl⟩ := Option.map_eq_some_iff.mp he)
    | (obtain rfl := Option.some.inj he) | (cases he) | split at he)
  all_goals refine OnlyIn.widen hL h ?_
  all_goals have h0 := OnlyIn.refl [.tweed, .chambray, .fabric, .plan, .damask, .host, .v0, .v1, .felt, .ctrl, .boot,
      .recovery, .health, .mem, .sent] d
  all_goals repeat' (first
    | with_reducible assumption | ((with_reducible refine Part.subI ?_); exact rfl) | exact Or.inl rfl
    | exact Or.inr rfl | intro _ | with_reducible apply eccRead_only | with_reducible apply reduceAdd_only
    | with_reducible apply Dev_setCore_only | with_reducible apply OnlyIn.foldl)

theorem wakeTally_only {L : List Part} {a : Dev} (cl : Nat) (qq : Nat) {d : Dev} (hL : Part.sub [.fabric, .mem] L =
    true) (h : OnlyIn L a d) :
    OnlyIn L a (wakeTally cl d qq) := by
  refine OnlyIn.widen hL h ?_
  have h0 := OnlyIn.refl [.fabric, .mem] d
  unfold wakeTally
  repeat' (first
    | with_reducible assumption | ((with_reducible refine Part.subI ?_); exact rfl) | exact Or.inl rfl
    | exact Or.inr rfl | intro _
    | (extract_lets +onlyGivenNames -underBinder dd; (subst dd))
    | with_reducible apply drain_only | with_reducible apply Dev_setCore_only | split)

theorem incTally_only {L : List Part} {a : Dev} (cl : Nat) (t : Nat) {d : Dev} (hL : Part.sub [.fabric, .mem] L =
    true) (h : OnlyIn L a d) :
    OnlyIn L a (incTally cl t d) := by
  refine OnlyIn.widen hL h ?_
  have h0 := OnlyIn.refl [.fabric, .mem] d
  unfold incTally
  repeat' (first
    | with_reducible assumption | ((with_reducible refine Part.subI ?_); exact rfl) | exact Or.inl rfl
    | exact Or.inr rfl | intro _
    | (extract_lets +onlyGivenNames -underBinder dd; (subst dd))
    | with_reducible apply Dev_setCore_only | with_reducible apply Dev_setCluster_only
    | with_reducible apply wakeTally_only | with_reducible apply OnlyIn.foldl | with_reducible apply OnlyIn.foldlSnd
    | split)

theorem wtally_only {L : List Part} {a : Dev} (cl : Fin 132) (co : Fin 64) (t : Fin 256) (imm : Word) {d : Dev} (hL :
    Part.sub [.fabric, .mem] L = true) (h : OnlyIn L a d) :
    OnlyIn L a (wtally cl co t imm d) := by
  refine OnlyIn.widen hL h ?_
  have h0 := OnlyIn.refl [.fabric, .mem] d
  unfold wtally
  repeat' (first
    | with_reducible assumption | ((with_reducible refine Part.subI ?_); exact rfl) | exact Or.inl rfl
    | exact Or.inr rfl | intro _
    | (extract_lets +onlyGivenNames -underBinder dd; (subst dd))
    | with_reducible apply drain_only | with_reducible apply Dev_setCore_only | split)

theorem signalOp_only {L : List Part} {a : Dev} (cl : Fin 132) (co : Fin 64) (x : Fin 16) {d : Dev} (hL : Part.sub
    [.fabric, .mem] L = true) (h : OnlyIn L a d) :
    OnlyIn L a (signalOp cl co x d) := by
  refine OnlyIn.widen hL h ?_
  have h0 := OnlyIn.refl [.fabric, .mem] d
  unfold signalOp
  repeat' (first
    | with_reducible assumption | ((with_reducible refine Part.subI ?_); exact rfl) | exact Or.inl rfl
    | exact Or.inr rfl | intro _
    | (extract_lets +onlyGivenNames -underBinder dd; (subst dd))
    | with_reducible apply Dev_setCore_only | with_reducible apply incTally_only | split)

theorem wstart_only {L : List Part} {a : Dev} (cl : Fin 132) (co : Fin 64) (imm : Word) {d : Dev} (hL : Part.sub
    [.fabric] L = true) (h : OnlyIn L a d) :
    OnlyIn L a (wstart cl co imm d) := by
  refine OnlyIn.widen hL h ?_
  have h0 := OnlyIn.refl [.fabric] d
  unfold wstart
  repeat' (first
    | with_reducible assumption | ((with_reducible refine Part.subI ?_); exact rfl) | exact Or.inl rfl
    | exact Or.inr rfl | intro _
    | (extract_lets +onlyGivenNames -underBinder dd; (subst dd))
    | with_reducible apply Dev_setCore_only | split)

theorem leaveWindow_only {L : List Part} {a : Dev} (qq : Nat) (key : Nat) (invalid : Bool) {d : Dev} (hL : Part.sub
    [.plan] L = true) (h : OnlyIn L a d) :
    OnlyIn L a (leaveWindow qq key invalid d) := by
  refine OnlyIn.widen hL h ?_
  have h0 := OnlyIn.refl [.plan] d
  unfold leaveWindow
  repeat' (first
    | with_reducible assumption | ((with_reducible refine Part.subI ?_); exact rfl) | exact Or.inl rfl
    | exact Or.inr rfl | intro _
    | (extract_lets +onlyGivenNames -underBinder dd; (subst dd))
    | with_reducible apply Dev_setWin_only)

theorem endOp_only {L : List Part} {a : Dev} (cl : Fin 132) (co : Fin 64) {d : Dev} (hL : Part.sub [.fabric, .plan] L
    = true) (h : OnlyIn L a d) :
    OnlyIn L a (endOp cl co d) := by
  refine OnlyIn.widen hL h ?_
  have h0 := OnlyIn.refl [.fabric, .plan] d
  unfold endOp
  repeat' (first
    | with_reducible assumption | ((with_reducible refine Part.subI ?_); exact rfl) | exact Or.inl rfl
    | exact Or.inr rfl | intro _
    | (extract_lets +onlyGivenNames -underBinder dd; (subst dd))
    | with_reducible apply Dev_setCore_only | with_reducible apply closeFlags_only
    | with_reducible apply leaveWindow_only | with_reducible apply noteFlags_only | split)

theorem countExpiry_only {L : List Part} {a : Dev} (tick : Nat) (g : Nat) (r : GroupRec) {d : Dev} (hL : Part.sub
    [.tweed, .chambray, .fabric, .plan, .damask, .host, .v0, .v1, .felt, .ctrl, .boot, .recovery, .health, .mem,
    .sent] L = true) (h : OnlyIn L a d) :
    OnlyIn L a (countExpiry tick g r d) := by
  refine OnlyIn.widen hL h ?_
  have h0 := OnlyIn.refl [.tweed, .chambray, .fabric, .plan, .damask, .host, .v0, .v1, .felt, .ctrl, .boot,
      .recovery, .health, .mem, .sent] d
  unfold countExpiry
  repeat' (first
    | with_reducible assumption | ((with_reducible refine Part.subI ?_); exact rfl) | exact Or.inl rfl
    | exact Or.inr rfl | intro _
    | (extract_lets +onlyGivenNames -underBinder dd; (subst dd))
    | ((conv => (arg 3; arg 23; skip)); with_reducible apply OnlyIn.mk') | with_reducible apply restartPartition_only
    | split)

theorem overrun_only {L : List Part} {a : Dev} (src : Source) (tick : Nat) (w : Nat) (r : WindowRec) {d : Dev} (hL :
    Part.sub [.tweed, .chambray, .fabric, .plan, .damask, .host, .v0, .v1, .felt, .ctrl, .boot, .recovery, .health,
    .mem, .sent] L = true) (h : OnlyIn L a d) :
    OnlyIn L a (overrun src tick w r d) := by
  refine OnlyIn.widen hL h ?_
  have h0 := OnlyIn.refl [.tweed, .chambray, .fabric, .plan, .damask, .host, .v0, .v1, .felt, .ctrl, .boot,
      .recovery, .health, .mem, .sent] d
  unfold overrun
  repeat' (first
    | with_reducible assumption | ((with_reducible refine Part.subI ?_); exact rfl) | exact Or.inl rfl
    | exact Or.inr rfl | intro _
    | (extract_lets +onlyGivenNames -underBinder dd; (subst dd))
    | ((conv => (arg 3; arg 23; skip)); with_reducible apply OnlyIn.mk') | with_reducible apply satEvent_only
    | with_reducible apply miss_only | with_reducible apply Dev_setWin_only | with_reducible apply raiseV_only
    | with_reducible apply countExpiry_only | split)

theorem undefinedOpcode_only {L : List Part} {a : Dev} (cl : Fin 132) (co : Fin 64) {d : Dev} (hL : Part.sub [.tweed,
    .chambray, .fabric, .plan, .damask, .host, .v0, .v1, .felt, .ctrl, .boot, .recovery, .health, .mem, .sent] L =
    true) (h : OnlyIn L a d) :
    OnlyIn L a (undefinedOpcode cl co d) := by
  refine OnlyIn.widen hL h ?_
  have h0 := OnlyIn.refl [.tweed, .chambray, .fabric, .plan, .damask, .host, .v0, .v1, .felt, .ctrl, .boot,
      .recovery, .health, .mem, .sent] d
  unfold undefinedOpcode
  repeat' (first
    | with_reducible assumption | ((with_reducible refine Part.subI ?_); exact rfl) | exact Or.inl rfl
    | exact Or.inr rfl | intro _
    | (extract_lets +onlyGivenNames -underBinder dd; (subst dd))
    | with_reducible apply Dev_setCore_only | with_reducible apply overrun_only | split)

theorem moveElem_only {L : List Part} {a : Dev} (old : Dev) (zeroed : Bool) (t : TransferDesc) (s : Tensor) (dst :
    Tensor) (p : List Nat) {d : Dev} (hL : Part.sub [.mem] L = true) (h : OnlyIn L a d) :
    OnlyIn L a (moveElem old zeroed t s dst p d) := by
  refine OnlyIn.widen hL h ?_
  have h0 := OnlyIn.refl [.mem] d
  unfold moveElem
  repeat' (first
    | with_reducible assumption | ((with_reducible refine Part.subI ?_); exact rfl) | exact Or.inl rfl
    | exact Or.inr rfl | intro _
    | (extract_lets +onlyGivenNames -underBinder dd; (subst dd))
    | with_reducible apply setElem_only | with_reducible apply setScale_only | split)

theorem addElem_only {L : List Part} {a : Dev} (old : Dev) (zeroed : Bool) (fixed : Bool) (window : Option Nat)
    (source : Nat) (t : TransferDesc) (s : Tensor) (dst : Tensor) (p : List Nat) {d : Dev} (hL : Part.sub [.fabric,
    .mem] L = true) (h : OnlyIn L a d) :
    OnlyIn L a (addElem old zeroed fixed window source t s dst p d) := by
  refine OnlyIn.widen hL h ?_
  have h0 := OnlyIn.refl [.fabric, .mem] d
  unfold addElem
  repeat' (first
    | with_reducible assumption | ((with_reducible refine Part.subI ?_); exact rfl) | exact Or.inl rfl
    | exact Or.inr rfl | intro _
    | (extract_lets +onlyGivenNames -underBinder dd; (subst dd))
    | with_reducible apply reduceAdd_only)

theorem moveData_only {L : List Part} {a : Dev} (m : MoveCtx) (ts : List Tensor) (t : TransferDesc) (keep : Nat →
    Bool) {d : Dev} (hL : Part.sub [.fabric, .mem] L = true) (h : OnlyIn L a d) :
    OnlyIn L a (moveData m ts t keep d) := by
  refine OnlyIn.widen hL h ?_
  have h0 := OnlyIn.refl [.fabric, .mem] d
  unfold moveData
  repeat' (first
    | with_reducible assumption | ((with_reducible refine Part.subI ?_); exact rfl) | exact Or.inl rfl
    | exact Or.inr rfl | intro _
    | (extract_lets +onlyGivenNames -underBinder dd; (subst dd))
    | with_reducible apply addElem_only | with_reducible apply moveElem_only | with_reducible apply OnlyIn.foldl
    | with_reducible apply OnlyIn.foldlSnd | split)

theorem enqueue_only {L : List Part} {a : Dev} (cl : Nat) (co : Nat) (aa : Nat) {d : Dev} (hL : Part.sub [.fabric] L
    = true) (h : OnlyIn L a d) :
    OnlyIn L a (enqueue cl co aa d) := by
  refine OnlyIn.widen hL h ?_
  have h0 := OnlyIn.refl [.fabric] d
  unfold enqueue
  repeat' (first
    | with_reducible assumption | ((with_reducible refine Part.subI ?_); exact rfl) | exact Or.inl rfl
    | exact Or.inr rfl | intro _
    | (extract_lets +onlyGivenNames -underBinder dd; (subst dd))
    | with_reducible apply Dev_modCluster_only)

theorem wakeDma_only {L : List Part} {a : Dev} (cl : Nat) (co : Nat) {d : Dev} (hL : Part.sub [.fabric] L = true) (h
    : OnlyIn L a d) :
    OnlyIn L a (wakeDma cl co d) := by
  refine OnlyIn.widen hL h ?_
  have h0 := OnlyIn.refl [.fabric] d
  unfold wakeDma
  repeat' (first
    | with_reducible assumption | ((with_reducible refine Part.subI ?_); exact rfl) | exact Or.inl rfl
    | exact Or.inr rfl | intro _
    | (extract_lets +onlyGivenNames -underBinder dd; (subst dd))
    | with_reducible apply Dev_setCore_only | with_reducible apply enqueue_only | split)

theorem dmaq_only {L : List Part} {a : Dev} (cl : Fin 132) (co : Fin 64) (x : Fin 16) {d : Dev} (hL : Part.sub
    [.fabric] L = true) (h : OnlyIn L a d) :
    ∀ e, dmaq cl co x d = some e → OnlyIn L a e := by
  intro e he
  unfold dmaq at he
  repeat' (first
    | (extract_lets at he) | (obtain ⟨p, -, rfl⟩ := Option.map_eq_some_iff.mp he)
    | (obtain rfl := Option.some.inj he) | (cases he) | split at he)
  all_goals refine OnlyIn.widen hL h ?_
  all_goals have h0 := OnlyIn.refl [.fabric] d
  all_goals repeat' (first
    | with_reducible assumption | ((with_reducible refine Part.subI ?_); exact rfl) | exact Or.inl rfl
    | exact Or.inr rfl | intro _ | with_reducible apply enqueue_only | with_reducible apply Dev_setCore_only | split)

theorem dmaw_only {L : List Part} {a : Dev} (cl : Fin 132) (co : Fin 64) (imm : Word) {d : Dev} (hL : Part.sub
    [.fabric] L = true) (h : OnlyIn L a d) :
    OnlyIn L a (dmaw cl co imm d) := by
  refine OnlyIn.widen hL h ?_
  have h0 := OnlyIn.refl [.fabric] d
  unfold dmaw
  repeat' (first
    | with_reducible assumption | ((with_reducible refine Part.subI ?_); exact rfl) | exact Or.inl rfl
    | exact Or.inr rfl | intro _
    | (extract_lets +onlyGivenNames -underBinder dd; (subst dd))
    | with_reducible apply Dev_setCore_only | split)

theorem releaseTransfer_only {L : List Part} {a : Dev} (cl : Nat) (n : Nat) (co : Nat) {d : Dev} (hL : Part.sub
    [.fabric] L = true) (h : OnlyIn L a d) :
    OnlyIn L a (releaseTransfer cl n co d) := by
  refine OnlyIn.widen hL h ?_
  have h0 := OnlyIn.refl [.fabric] d
  unfold releaseTransfer
  repeat' (first
    | with_reducible assumption | ((with_reducible refine Part.subI ?_); exact rfl) | exact Or.inl rfl
    | exact Or.inr rfl | intro _ | with_reducible apply wakeDma_only | with_reducible apply Dev_modCluster_only)

theorem faultKey_only {L : List Part} {a : Dev} (key : Option Nat) {d : Dev} (hL : Part.sub [.chambray, .fabric,
    .plan, .host, .v0, .v1, .felt, .boot, .health, .sent] L = true) (h : OnlyIn L a d) :
    OnlyIn L a (faultKey key d) := by
  refine OnlyIn.widen hL h ?_
  have h0 := OnlyIn.refl [.chambray, .fabric, .plan, .host, .v0, .v1, .felt, .boot, .health, .sent] d
  unfold faultKey
  repeat' (first
    | with_reducible assumption | ((with_reducible refine Part.subI ?_); exact rfl) | exact Or.inl rfl
    | exact Or.inr rfl | intro _ | with_reducible apply faultMiss_only | split)

theorem refuseTransfer_only {L : List Part} {a : Dev} (cl : Nat) (n : Nat) (x : Transfer) (code : Nat) {d : Dev} (hL
    : Part.sub [.chambray, .fabric, .plan, .host, .v0, .v1, .felt, .boot, .health, .sent] L = true) (h : OnlyIn L a
    d) :
    OnlyIn L a (refuseTransfer cl n x code d) := by
  refine OnlyIn.widen hL h ?_
  have h0 := OnlyIn.refl [.chambray, .fabric, .plan, .host, .v0, .v1, .felt, .boot, .health, .sent] d
  unfold refuseTransfer
  repeat' (first
    | with_reducible assumption | ((with_reducible refine Part.subI ?_); exact rfl) | exact Or.inl rfl
    | exact Or.inr rfl | intro _
    | (extract_lets +onlyGivenNames -underBinder dd; (subst dd))
    | with_reducible apply Dev_setCore_only | with_reducible apply satEvent_only
    | with_reducible apply Dev_modCluster_only | with_reducible apply faultKey_only
    | with_reducible apply releaseTransfer_only)

theorem transferStart_only {L : List Part} {a : Dev} (cl : Fin 132) (ecc : Ecc) {d : Dev} (hL : Part.sub [.tweed,
    .chambray, .fabric, .plan, .damask, .host, .v0, .v1, .felt, .ctrl, .boot, .recovery, .health, .mem, .sent] L =
    true) (h : OnlyIn L a d) :
    OnlyIn L a (transferStart cl ecc d) := by
  refine OnlyIn.widen hL h ?_
  have h0 := OnlyIn.refl [.tweed, .chambray, .fabric, .plan, .damask, .host, .v0, .v1, .felt, .ctrl, .boot,
      .recovery, .health, .mem, .sent] d
  unfold transferStart
  repeat' (first
    | with_reducible assumption | ((with_reducible refine Part.subI ?_); exact rfl) | exact Or.inl rfl
    | exact Or.inr rfl | intro _
    | (extract_lets +onlyGivenNames -underBinder dd; (subst dd))
    | with_reducible apply eccRead_only | with_reducible apply releaseTransfer_only
    | with_reducible apply refuseTransfer_only | with_reducible apply Dev_modCluster_only | split)

theorem scrubAccess_only {L : List Part} {a : Dev} (cl : Fin 132) (bank : Fin 288) (ecc : Ecc) {d : Dev} (hL :
    Part.sub [.tweed, .chambray, .fabric, .plan, .damask, .host, .v0, .v1, .felt, .ctrl, .boot, .recovery, .health,
    .mem, .sent] L = true) (h : OnlyIn L a d) :
    OnlyIn L a (scrubAccess cl bank ecc d) := by
  refine OnlyIn.widen hL h ?_
  have h0 := OnlyIn.refl [.tweed, .chambray, .fabric, .plan, .damask, .host, .v0, .v1, .felt, .ctrl, .boot,
      .recovery, .health, .mem, .sent] d
  unfold scrubAccess
  repeat' (first
    | with_reducible assumption | ((with_reducible refine Part.subI ?_); exact rfl) | exact Or.inl rfl
    | exact Or.inr rfl | intro _
    | (extract_lets +onlyGivenNames -underBinder dd; (subst dd))
    | with_reducible apply Dev_modCluster_only | with_reducible apply eccRead_only | split)

theorem placeWeights_only {L : List Part} {a : Dev} (img : Image) (ts : List Tensor) (ws : List WeightRec) (p :
    Tensor → Bool) {d : Dev} (hL : Part.sub [.mem] L = true) (h : OnlyIn L a d) :
    OnlyIn L a (placeWeights img ts ws p d) := by
  refine OnlyIn.widen hL h ?_
  have h0 := OnlyIn.refl [.mem] d
  unfold placeWeights
  repeat' (first
    | with_reducible assumption | ((with_reducible refine Part.subI ?_); exact rfl) | exact Or.inl rfl
    | exact Or.inr rfl | intro _ | with_reducible apply setSpan_only | with_reducible apply OnlyIn.foldl
    | with_reducible apply OnlyIn.foldlSnd | split)

theorem flitCrcError_only {L : List Part} {a : Dev} {d : Dev} (hL : Part.sub [.fabric, .host, .health, .sent] L =
    true) (h : OnlyIn L a d) :
    OnlyIn L a (flitCrcError d) := by
  refine OnlyIn.widen hL h ?_
  have h0 := OnlyIn.refl [.fabric, .host, .health, .sent] d
  unfold flitCrcError
  repeat' (first
    | with_reducible assumption | ((with_reducible refine Part.subI ?_); exact rfl) | exact Or.inl rfl
    | exact Or.inr rfl | intro _
    | (extract_lets +onlyGivenNames -underBinder dd; (subst dd))
    | ((conv => (arg 3; arg 23; skip)); with_reducible apply OnlyIn.mk') | with_reducible apply satEvent_only
    | with_reducible apply conditionEvent_only)

/-! ### Poses -/

/-! ### Tweed -/

theorem Dev_setEngine_only {L : List Part} {a : Dev} (src : Source) (e : TweedState) {d : Dev} (hL : Part.sub
    [.tweed, .tweedFb] L = true) (h : OnlyIn L a d) :
    OnlyIn L a (Dev.setEngine d src e) := by
  refine OnlyIn.widen hL h ?_
  have h0 := OnlyIn.refl [.tweed, .tweedFb] d
  unfold Dev.setEngine
  repeat' (first
    | with_reducible assumption | exact Or.inl rfl | exact Or.inr rfl | intro _
    | ((conv => (arg 3; arg 23; skip)); with_reducible apply OnlyIn.mk') | split)

theorem modEngine_only {L : List Part} {a : Dev} (src : Source) (f : TweedState → TweedState) {d : Dev} (hL :
    Part.sub [.tweed, .tweedFb] L = true) (h : OnlyIn L a d) :
    OnlyIn L a (modEngine src f d) := by
  refine OnlyIn.widen hL h ?_
  have h0 := OnlyIn.refl [.tweed, .tweedFb] d
  unfold modEngine
  repeat' (first
    | with_reducible assumption | ((with_reducible refine Part.subI ?_); exact rfl) | exact Or.inl rfl
    | exact Or.inr rfl | intro _ | with_reducible apply Dev_setEngine_only)

theorem bumpTwd_only {L : List Part} {a : Dev} (src : Source) (off : Nat) (get : TweedState → Counter) (put : Counter
    → TweedState → TweedState) (n : Nat) {d : Dev} (hL : Part.sub [.tweed, .tweedFb, .host, .health, .sent] L = true)
    (h : OnlyIn L a d) :
    OnlyIn L a (bumpTwd src off get put n d) := by
  refine OnlyIn.widen hL h ?_
  have h0 := OnlyIn.refl [.tweed, .tweedFb, .host, .health, .sent] d
  unfold bumpTwd
  repeat' (first
    | with_reducible assumption | ((with_reducible refine Part.subI ?_); exact rfl) | exact Or.inl rfl
    | exact Or.inr rfl | intro _ | with_reducible apply bump_only | with_reducible apply modEngine_only)

theorem noteFar_only {L : List Part} {a : Dev} (src : Source) (tick : Nat) {d : Dev} (hL : Part.sub [.tweed,
    .tweedFb] L = true) (h : OnlyIn L a d) :
    OnlyIn L a (noteFar src tick d) := by
  refine OnlyIn.widen hL h ?_
  have h0 := OnlyIn.refl [.tweed, .tweedFb] d
  unfold noteFar
  repeat' (first
    | with_reducible assumption | ((with_reducible refine Part.subI ?_); exact rfl) | exact Or.inl rfl
    | exact Or.inr rfl | intro _ | with_reducible apply modEngine_only)

theorem noteFull_only {L : List Part} {a : Dev} (src : Source) (tick : Nat) {d : Dev} (hL : Part.sub [.tweed,
    .tweedFb] L = true) (h : OnlyIn L a d) :
    OnlyIn L a (noteFull src tick d) := by
  refine OnlyIn.widen hL h ?_
  have h0 := OnlyIn.refl [.tweed, .tweedFb] d
  unfold noteFull
  repeat' (first
    | with_reducible assumption | ((with_reducible refine Part.subI ?_); exact rfl) | exact Or.inl rfl
    | exact Or.inr rfl | intro _ | with_reducible apply modEngine_only)

theorem insertHigher_only {L : List Part} {a : Dev} (src : Source) (tick : Nat) (r : TweedRec) (ix : Nat × Nat × Nat)
    (hit : Nat → Hit) (l : Nat) {d : Dev} (hL : Part.sub [.tweed, .tweedFb, .host, .health, .sent] L = true) (h :
    OnlyIn L a d) :
    OnlyIn L a (insertHigher src tick r ix hit d l) := by
  refine OnlyIn.widen hL h ?_
  have h0 := OnlyIn.refl [.tweed, .tweedFb, .host, .health, .sent] d
  unfold insertHigher
  repeat' (first
    | with_reducible assumption | ((with_reducible refine Part.subI ?_); exact rfl) | exact Or.inl rfl
    | exact Or.inr rfl | intro _
    | (extract_lets +onlyGivenNames -underBinder dd; (subst dd))
    | with_reducible apply Dev_setEngine_only | with_reducible apply noteFull_only
    | with_reducible apply bumpTwd_only | split)

theorem contributePoint_only {L : List Part} {a : Dev} (src : Source) (tick : Nat) (n : Nat) (e : StreamEntry) (valid
    : Nanos) (t : Int) {d : Dev} (hL : Part.sub [.muslin] L = true) (h : OnlyIn L a d) :
    OnlyIn L a (contributePoint src tick n e valid t d) := by
  refine OnlyIn.widen hL h ?_
  have h0 := OnlyIn.refl [.muslin] d
  unfold contributePoint
  repeat' (first
    | with_reducible assumption | ((with_reducible refine Part.subI ?_); exact rfl) | exact Or.inl rfl
    | exact Or.inr rfl | intro _ | with_reducible apply modContrib_only)

theorem insertPoint_only {L : List Part} {a : Dev} (src : Source) (tick : Nat) (i : Nat) {d : Dev} (hL : Part.sub
    [.muslin, .tweed, .tweedFb, .host, .health, .sent] L = true) (h : OnlyIn L a d) :
    OnlyIn L a (insertPoint src tick i d) := by
  refine OnlyIn.widen hL h ?_
  have h0 := OnlyIn.refl [.muslin, .tweed, .tweedFb, .host, .health, .sent] d
  unfold insertPoint
  repeat' (first
    | with_reducible assumption | ((with_reducible refine Part.subI ?_); exact rfl) | exact Or.inl rfl
    | exact Or.inr rfl | intro _
    | (extract_lets +onlyGivenNames -underBinder dd; (subst dd))
    | with_reducible apply modEngine_only | with_reducible apply bumpTwd_only | with_reducible apply noteFull_only
    | with_reducible apply Dev_setEngine_only | with_reducible apply contributePoint_only
    | with_reducible apply insertHigher_only | with_reducible apply OnlyIn.foldl
    | with_reducible apply OnlyIn.foldlSnd | split)

theorem deferredInsertion_only {L : List Part} {a : Dev} (src : Source) {d : Dev} (hL : Part.sub [.muslin, .tweed,
    .tweedFb, .host, .health, .sent] L = true) (h : OnlyIn L a d) :
    OnlyIn L a (deferredInsertion src d) := by
  refine OnlyIn.widen hL h ?_
  have h0 := OnlyIn.refl [.muslin, .tweed, .tweedFb, .host, .health, .sent] d
  unfold deferredInsertion
  repeat' (first
    | with_reducible assumption | ((with_reducible refine Part.subI ?_); exact rfl) | exact Or.inl rfl
    | exact Or.inr rfl | intro _
    | (extract_lets +onlyGivenNames -underBinder dd; (subst dd))
    | with_reducible apply insertPoint_only | with_reducible apply OnlyIn.foldl
    | with_reducible apply OnlyIn.foldlSnd | split)

theorem storePoint_only {L : List Part} {a : Dev} (src : Source) (tick : Nat) (p : PointRec) {d : Dev} (hL : Part.sub
    [.muslin, .tweed, .tweedFb, .host, .health, .sent] L = true) (h : OnlyIn L a d) :
    OnlyIn L a (storePoint src tick d p) := by
  refine OnlyIn.widen hL h ?_
  have h0 := OnlyIn.refl [.muslin, .tweed, .tweedFb, .host, .health, .sent] d
  unfold storePoint
  repeat' (first
    | with_reducible assumption | ((with_reducible refine Part.subI ?_); exact rfl) | exact Or.inl rfl
    | exact Or.inr rfl | intro _
    | (extract_lets +onlyGivenNames -underBinder dd; (subst dd))
    | with_reducible apply Dev_setEngine_only | with_reducible apply insertPoint_only | split)

theorem closeSlice_only {L : List Part} {a : Dev} (src : Source) (n : Nat) {d : Dev} (hL : Part.sub [.muslin, .tweed,
    .tweedFb, .host, .health, .sent] L = true) (h : OnlyIn L a d) :
    OnlyIn L a (closeSlice src n d) := by
  refine OnlyIn.widen hL h ?_
  have h0 := OnlyIn.refl [.muslin, .tweed, .tweedFb, .host, .health, .sent] d
  unfold closeSlice
  repeat' (first
    | with_reducible assumption | ((with_reducible refine Part.subI ?_); exact rfl) | exact Or.inl rfl
    | exact Or.inr rfl | intro _
    | (extract_lets +onlyGivenNames -underBinder dd; (subst dd))
    | with_reducible apply modEngine_only | with_reducible apply bumpTwd_only | with_reducible apply noteFar_only
    | with_reducible apply storePoint_only | with_reducible apply OnlyIn.foldl | with_reducible apply OnlyIn.foldlSnd
    | split)

theorem sliceTimerExpiry_only {L : List Part} {a : Dev} (src : Source) (stream : Fin 48) {d : Dev} (hL : Part.sub
    [.muslin, .tweed, .tweedFb, .host, .health, .sent] L = true) (h : OnlyIn L a d) :
    OnlyIn L a (sliceTimerExpiry src stream d) := by
  refine OnlyIn.widen hL h ?_
  have h0 := OnlyIn.refl [.muslin, .tweed, .tweedFb, .host, .health, .sent] d
  unfold sliceTimerExpiry
  repeat' (first
    | with_reducible assumption | ((with_reducible refine Part.subI ?_); exact rfl) | exact Or.inl rfl
    | exact Or.inr rfl | intro _ | with_reducible apply closeSlice_only | split)

theorem openSlice_only {L : List Part} {a : Dev} (src : Source) (tick : Nat) (n : Nat) (p : Point) {d : Dev} (hL :
    Part.sub [.tweed, .tweedFb] L = true) (h : OnlyIn L a d) :
    OnlyIn L a (openSlice src tick n p d) := by
  refine OnlyIn.widen hL h ?_
  have h0 := OnlyIn.refl [.tweed, .tweedFb] d
  unfold openSlice
  repeat' (first
    | with_reducible assumption | ((with_reducible refine Part.subI ?_); exact rfl) | exact Or.inl rfl
    | exact Or.inr rfl | intro _ | with_reducible apply modEngine_only)

theorem takeProvisional_only {L : List Part} {a : Dev} (src : Source) (tick : Nat) (valid : Nanos) {d : Dev} (hL :
    Part.sub [.tweed, .tweedFb] L = true) (h : OnlyIn L a d) :
    OnlyIn L a (takeProvisional src tick valid d) := by
  refine OnlyIn.widen hL h ?_
  have h0 := OnlyIn.refl [.tweed, .tweedFb] d
  unfold takeProvisional
  repeat' (first
    | with_reducible assumption | ((with_reducible refine Part.subI ?_); exact rfl) | exact Or.inl rfl
    | exact Or.inr rfl | intro _
    | (extract_lets +onlyGivenNames -underBinder dd; (subst dd))
    | with_reducible apply modEngine_only | split)

theorem offerPoint_only {L : List Part} {a : Dev} (src : Source) (tick : Nat) (n : Nat) (p : Point) {d : Dev} (hL :
    Part.sub [.muslin, .tweed, .tweedFb, .host, .health, .sent] L = true) (h : OnlyIn L a d) :
    OnlyIn L a (offerPoint src tick n d p) := by
  refine OnlyIn.widen hL h ?_
  have h0 := OnlyIn.refl [.muslin, .tweed, .tweedFb, .host, .health, .sent] d
  unfold offerPoint
  repeat' (first
    | with_reducible assumption | ((with_reducible refine Part.subI ?_); exact rfl) | exact Or.inl rfl
    | exact Or.inr rfl | intro _
    | (extract_lets +onlyGivenNames -underBinder dd; (subst dd))
    | with_reducible apply openSlice_only | with_reducible apply closeSlice_only
    | with_reducible apply modEngine_only | split)

theorem takeFinal_only {L : List Part} {a : Dev} (src : Source) (tick : Nat) (valid : Nanos) {d : Dev} (hL : Part.sub
    [.tweed, .tweedFb] L = true) (h : OnlyIn L a d) :
    OnlyIn L a (takeFinal src tick valid d) := by
  refine OnlyIn.widen hL h ?_
  have h0 := OnlyIn.refl [.tweed, .tweedFb] d
  unfold takeFinal
  repeat' (first
    | with_reducible assumption | ((with_reducible refine Part.subI ?_); exact rfl) | exact Or.inl rfl
    | exact Or.inr rfl | intro _
    | (extract_lets +onlyGivenNames -underBinder dd; (subst dd))
    | with_reducible apply modEngine_only | with_reducible apply noteFar_only | split)

theorem runQuery_only {L : List Part} {a : Dev} (src : Source) (tick : Nat) (qi : Nat) (qq : QueryRec) {d : Dev} (hL
    : Part.sub [.tweed, .tweedFb, .host, .health, .mem, .sent] L = true) (h : OnlyIn L a d) :
    OnlyIn L a (runQuery src tick qi qq d) := by
  refine OnlyIn.widen hL h ?_
  have h0 := OnlyIn.refl [.tweed, .tweedFb, .host, .health, .mem, .sent] d
  unfold runQuery
  repeat' (first
    | with_reducible assumption | ((with_reducible refine Part.subI ?_); exact rfl) | exact Or.inl rfl
    | exact Or.inr rfl | intro _
    | (extract_lets +onlyGivenNames -underBinder dd; (subst dd))
    | with_reducible apply modEngine_only | with_reducible apply bumpTwd_only | with_reducible apply setTensor_only
    | split)

theorem runFps_only {L : List Part} {a : Dev} (src : Source) (tick : Nat) (r : TweedRec) (f : FpsRec) {d : Dev} (hL :
    Part.sub [.tweed, .tweedFb, .host, .health, .mem, .sent] L = true) (h : OnlyIn L a d) :
    OnlyIn L a (runFps src tick r d f) := by
  refine OnlyIn.widen hL h ?_
  have h0 := OnlyIn.refl [.tweed, .tweedFb, .host, .health, .mem, .sent] d
  unfold runFps
  repeat' (first
    | with_reducible assumption | ((with_reducible refine Part.subI ?_); exact rfl) | exact Or.inl rfl
    | exact Or.inr rfl | intro _
    | (extract_lets +onlyGivenNames -underBinder dd; (subst dd))
    | with_reducible apply bumpTwd_only | with_reducible apply setTensor_only | split)

theorem writeGrid_only {L : List Part} {a : Dev} (r : TweedRec) (g : GridRec) (delta : List F64) (ls : List Landing)
    (t : Option Tensor) {d : Dev} (hL : Part.sub [.mem] L = true) (h : OnlyIn L a d) :
    OnlyIn L a (writeGrid r g delta ls t d) := by
  refine OnlyIn.widen hL h ?_
  have h0 := OnlyIn.refl [.mem] d
  unfold writeGrid
  repeat' (first
    | with_reducible assumption | ((with_reducible refine Part.subI ?_); exact rfl) | exact Or.inl rfl
    | exact Or.inr rfl | intro _
    | (extract_lets +onlyGivenNames -underBinder dd; (subst dd))
    | with_reducible apply setElem_only | with_reducible apply OnlyIn.foldl | with_reducible apply OnlyIn.foldlSnd
    | split)

theorem runScatter_only {L : List Part} {a : Dev} (src : Source) (tick : Nat) (r : TweedRec) {d : Dev} (hL : Part.sub
    [.tweed, .tweedFb, .mem] L = true) (h : OnlyIn L a d) :
    OnlyIn L a (runScatter src tick r d) := by
  refine OnlyIn.widen hL h ?_
  have h0 := OnlyIn.refl [.tweed, .tweedFb, .mem] d
  unfold runScatter
  repeat' (first
    | with_reducible assumption | ((with_reducible refine Part.subI ?_); exact rfl) | exact Or.inl rfl
    | exact Or.inr rfl | intro _
    | (extract_lets +onlyGivenNames -underBinder dd; (subst dd))
    | with_reducible apply modEngine_only | with_reducible apply writeGrid_only | with_reducible apply setTensor_only
    | with_reducible apply OnlyIn.foldl | with_reducible apply OnlyIn.foldlSnd | split)

theorem runStep_only {L : List Part} {a : Dev} (src : Source) (tick : Nat) (s : TweedStep) {d : Dev} (hL : Part.sub
    [.tweed, .tweedFb, .host, .health, .mem, .sent] L = true) (h : OnlyIn L a d) :
    OnlyIn L a (runStep src tick s d) := by
  refine OnlyIn.widen hL h ?_
  have h0 := OnlyIn.refl [.tweed, .tweedFb, .host, .health, .mem, .sent] d
  unfold runStep
  repeat' (first
    | with_reducible assumption | ((with_reducible refine Part.subI ?_); exact rfl) | exact Or.inl rfl
    | exact Or.inr rfl | intro _ | with_reducible apply runQuery_only | with_reducible apply runFps_only
    | with_reducible apply runScatter_only | with_reducible apply OnlyIn.foldl | with_reducible apply OnlyIn.foldlSnd
    | split)

theorem tweedStepTimerExpiry_only {L : List Part} {a : Dev} (src : Source) (tick : Nat) (w : Nat) {d : Dev} (hL :
    Part.sub [.tweed, .tweedFb, .chambray, .fabric, .plan, .damask, .host, .v0, .v1, .felt, .ctrl, .boot, .recovery,
    .health, .mem, .sent] L = true) (h : OnlyIn L a d) :
    OnlyIn L a (tweedStepTimerExpiry src tick w d) := by
  refine OnlyIn.widen hL h ?_
  have h0 := OnlyIn.refl [.tweed, .tweedFb, .chambray, .fabric, .plan, .damask, .host, .v0, .v1, .felt, .ctrl, .boot,
      .recovery, .health, .mem, .sent] d
  unfold tweedStepTimerExpiry
  repeat' (first
    | with_reducible assumption | ((with_reducible refine Part.subI ?_); exact rfl) | exact Or.inl rfl
    | exact Or.inr rfl | intro _
    | (extract_lets +onlyGivenNames -underBinder dd; (subst dd))
    | with_reducible apply modEngine_only | with_reducible apply bumpTwd_only | with_reducible apply overrun_only
    | with_reducible apply faultMiss_only | with_reducible apply raiseV_only
    | with_reducible apply restartPartition_only | split)

theorem tweedTableRelease_only {L : List Part} {a : Dev} (src : Source) {d : Dev} (hL : Part.sub [.tweed, .tweedFb] L
    = true) (h : OnlyIn L a d) :
    OnlyIn L a (tweedTableRelease src d) := by
  refine OnlyIn.widen hL h ?_
  have h0 := OnlyIn.refl [.tweed, .tweedFb] d
  unfold tweedTableRelease
  repeat' (first
    | with_reducible assumption | ((with_reducible refine Part.subI ?_); exact rfl) | exact Or.inl rfl
    | exact Or.inr rfl | intro _ | with_reducible apply modEngine_only | split)

theorem stepEngine_only {L : List Part} {a : Dev} (k : Nat) (src : Source) {d : Dev} (hL : Part.sub [.tweed,
    .tweedFb] L = true) (h : OnlyIn L a d) :
    OnlyIn L a (stepEngine k d src) := by
  refine OnlyIn.widen hL h ?_
  have h0 := OnlyIn.refl [.tweed, .tweedFb] d
  unfold stepEngine
  repeat' (first
    | with_reducible assumption | ((with_reducible refine Part.subI ?_); exact rfl) | exact Or.inl rfl
    | exact Or.inr rfl | intro _
    | (extract_lets +onlyGivenNames -underBinder dd; (subst dd))
    | with_reducible apply modEngine_only | split)

/-! ### Damask -/

theorem modHalf_only {L : List Part} {a : Dev} (hh : Nat) (f : DmkHalf → DmkHalf) {d : Dev} (hL : Part.sub [.damask]
    L = true) (h : OnlyIn L a d) :
    OnlyIn L a (modHalf hh f d) := by
  refine OnlyIn.widen hL h ?_
  have h0 := OnlyIn.refl [.damask] d
  unfold modHalf
  repeat' (first
    | with_reducible assumption | exact Or.inl rfl | exact Or.inr rfl | intro _
    | (extract_lets +onlyGivenNames -underBinder dd; (subst dd))
    | ((conv => (arg 3; arg 23; skip)); with_reducible apply OnlyIn.mk'))

theorem bumpDmk_only {L : List Part} {a : Dev} (hh : Nat) (off : Nat) (get : DmkHalf → Counter) (put : Counter →
    DmkHalf → DmkHalf) (n : Nat) {d : Dev} (hL : Part.sub [.damask, .host, .health, .sent] L = true) (h : OnlyIn L a
    d) :
    OnlyIn L a (bumpDmk hh off get put n d) := by
  refine OnlyIn.widen hL h ?_
  have h0 := OnlyIn.refl [.damask, .host, .health, .sent] d
  unfold bumpDmk
  repeat' (first
    | with_reducible assumption | ((with_reducible refine Part.subI ?_); exact rfl) | exact Or.inl rfl
    | exact Or.inr rfl | intro _ | with_reducible apply bump_only | with_reducible apply modHalf_only | split)

theorem setSeq_only {L : List Part} {a : Dev} (i : Nat) (qq : Option Sequence) {d : Dev} (hL : Part.sub [.damask] L =
    true) (h : OnlyIn L a d) :
    OnlyIn L a (setSeq i qq d) := by
  refine OnlyIn.widen hL h ?_
  have h0 := OnlyIn.refl [.damask] d
  unfold setSeq
  repeat' (first
    | with_reducible assumption | exact Or.inl rfl | exact Or.inr rfl | intro _
    | (extract_lets +onlyGivenNames -underBinder dd; (subst dd))
    | ((conv => (arg 3; arg 23; skip)); with_reducible apply OnlyIn.mk'))

theorem setRef_only {L : List Part} {a : Dev} (hh : Nat) (p : Nat) (n : Nat) {d : Dev} (hL : Part.sub [.damask] L =
    true) (h : OnlyIn L a d) :
    OnlyIn L a (setRef hh p n d) := by
  refine OnlyIn.widen hL h ?_
  have h0 := OnlyIn.refl [.damask] d
  unfold setRef
  repeat' (first
    | with_reducible assumption | ((with_reducible refine Part.subI ?_); exact rfl) | exact Or.inl rfl
    | exact Or.inr rfl | intro _ | with_reducible apply modHalf_only)

theorem pick_only {L : List Part} {a : Dev} (l : List Nat) {d : Dev} (hL : Part.sub [.freeCtr] L = true) (h : OnlyIn
    L a d) :
    ∀ e, pick l d = some e → OnlyIn L a e.2 := by
  intro e he
  unfold pick at he
  extract_lets f at he
  split at he
  · cases he
  · obtain ⟨x, -, rfl⟩ := Option.map_eq_some_iff.mp he
    exact drawFree_only hL h

theorem takeSlot_only {L : List Part} {a : Dev} (hh : Nat) {d : Dev} (hL : Part.sub [.damask, .freeCtr] L = true) (h
    : OnlyIn L a d) :
    ∀ e, takeSlot hh d = some e → OnlyIn L a e.2 := by
  intro e he
  obtain ⟨x, hx, rfl⟩ := Option.map_eq_some_iff.mp he
  exact OnlyIn.widen hL h (setRef_only _ _ _ rfl (pick_only _ rfl (OnlyIn.refl _ _) _ hx))

theorem takeSnap_only {L : List Part} {a : Dev} (hh : Nat) {d : Dev} (hL : Part.sub [.damask, .freeCtr] L = true) (h
    : OnlyIn L a d) :
    OnlyIn L a (takeSnap hh d).2 := by
  unfold takeSnap
  extract_lets used
  split
  · rename_i x hx
    exact OnlyIn.widen hL h (modHalf_only _ _ rfl (pick_only _ rfl (OnlyIn.refl _ _) _ hx))
  · exact h

theorem releaseSnap_only {L : List Part} {a : Dev} (hh : Nat) (snap : Option Nat) {d : Dev} (hL : Part.sub [.damask]
    L = true) (h : OnlyIn L a d) :
    OnlyIn L a (releaseSnap hh snap d) := by
  refine OnlyIn.widen hL h ?_
  have h0 := OnlyIn.refl [.damask] d
  unfold releaseSnap
  repeat' (first
    | with_reducible assumption | ((with_reducible refine Part.subI ?_); exact rfl) | exact Or.inl rfl
    | exact Or.inr rfl | intro _ | with_reducible apply modHalf_only | split)

theorem removeEntry_only {L : List Part} {a : Dev} (hh : Nat) (i : Nat) (p : PageEntry) {d : Dev} (hL : Part.sub
    [.damask] L = true) (h : OnlyIn L a d) :
    OnlyIn L a (removeEntry hh i p d) := by
  refine OnlyIn.widen hL h ?_
  have h0 := OnlyIn.refl [.damask] d
  unfold removeEntry
  repeat' (first
    | with_reducible assumption | ((with_reducible refine Part.subI ?_); exact rfl) | exact Or.inl rfl
    | exact Or.inr rfl | intro _
    | (extract_lets +onlyGivenNames -underBinder dd; (subst dd))
    | with_reducible apply setSeq_only | with_reducible apply setRef_only | with_reducible apply releaseSnap_only
    | split)

theorem dropPage_only {L : List Part} {a : Dev} (hh : Nat) (v : Victim) {d : Dev} (hL : Part.sub [.damask, .host,
    .health, .sent] L = true) (h : OnlyIn L a d) :
    OnlyIn L a (dropPage hh d v) := by
  refine OnlyIn.widen hL h ?_
  have h0 := OnlyIn.refl [.damask, .host, .health, .sent] d
  unfold dropPage
  repeat' (first
    | with_reducible assumption | ((with_reducible refine Part.subI ?_); exact rfl) | exact Or.inl rfl
    | exact Or.inr rfl | intro _
    | (extract_lets +onlyGivenNames -underBinder dd; (subst dd))
    | with_reducible apply setSeq_only | with_reducible apply bumpDmk_only | with_reducible apply setRef_only | split)

theorem reclaim_only {L : List Part} {a : Dev} (hh : Nat) (k : Nat) (need : Nat) (keep : Option Nat) {d : Dev} (hL :
    Part.sub [.damask, .host, .health, .sent] L = true) (h : OnlyIn L a d) :
    OnlyIn L a (reclaim hh k need keep d) := by
  refine OnlyIn.widen hL h ?_
  have h0 := OnlyIn.refl [.damask, .host, .health, .sent] d
  unfold reclaim
  repeat' (first
    | with_reducible assumption | ((with_reducible refine Part.subI ?_); exact rfl) | exact Or.inl rfl
    | exact Or.inr rfl | intro _
    | (extract_lets +onlyGivenNames -underBinder dd; (subst dd))
    | with_reducible apply removeEntry_only | with_reducible apply dropPage_only | with_reducible apply OnlyIn.foldl
    | with_reducible apply OnlyIn.foldlSnd | split)

theorem obtain_only {L : List Part} {a : Dev} (hh : Nat) (k : Nat) (need : Nat) (keep : Option Nat) {d : Dev} (hL :
    Part.sub [.damask, .host, .health, .sent] L = true) (h : OnlyIn L a d) :
    ∀ e, obtain_ hh k need keep d = some e → OnlyIn L a e := by
  intro e he
  unfold obtain_ at he
  repeat' (first
    | (extract_lets at he) | (obtain ⟨p, -, rfl⟩ := Option.map_eq_some_iff.mp he)
    | (obtain rfl := Option.some.inj he) | (cases he) | split at he)
  all_goals refine OnlyIn.widen hL h ?_
  all_goals have h0 := OnlyIn.refl [.damask, .host, .health, .sent] d
  all_goals repeat' (first
    | with_reducible assumption | ((with_reducible refine Part.subI ?_); exact rfl) | exact Or.inl rfl
    | exact Or.inr rfl | intro _ | with_reducible apply reclaim_only)

theorem copyRange_only {L : List Part} {a : Dev} (src : Nat) (dst : Nat) (n : Nat) {d : Dev} (hL : Part.sub [.mem] L
    = true) (h : OnlyIn L a d) :
    OnlyIn L a (copyRange src dst n d) := by
  refine OnlyIn.widen hL h ?_
  have h0 := OnlyIn.refl [.mem] d
  unfold copyRange
  repeat' (first
    | with_reducible assumption | ((with_reducible refine Part.subI ?_); exact rfl) | exact Or.inl rfl
    | exact Or.inr rfl | intro _
    | (extract_lets +onlyGivenNames -underBinder dd; (subst dd))
    | with_reducible apply setByte_only | with_reducible apply zeroRange_only | with_reducible apply OnlyIn.foldl)

theorem copyPage_only {L : List Part} {a : Dev} (hh : Nat) (snapshot : Bool) (p : PageEntry) {d : Dev}
    (hL : Part.sub [.damask, .mem, .freeCtr] L = true) (h : OnlyIn L a d) : ∀ e, copyPage hh snapshot p d = some e →
        OnlyIn L a e.2.2 := by
  intro e he
  obtain ⟨x, hx, rfl⟩ := Option.map_eq_some_iff.mp he
  refine OnlyIn.widen hL h ?_
  have h1 : OnlyIn [.damask, .mem, .freeCtr] d _ := copyRange_only (x.2.pageAddr hh p.slot) (x.2.pageAddr hh x.1)
      0x1_0000 rfl
    (takeSlot_only _ rfl (OnlyIn.refl _ d) _ hx)
  dsimp only
  split
  · split
    · exact copyRange_only _ _ _ rfl (takeSnap_only _ rfl h1)
    · exact takeSnap_only _ rfl h1
  · exact h1

theorem reply_only {L : List Part} {a : Dev} (c : DmkCmd) (r : DmkReply) {d : Dev} (hL : Part.sub [.fabric, .mem] L =
    true) (h : OnlyIn L a d) :
    OnlyIn L a (reply c r d) := by
  refine OnlyIn.widen hL h ?_
  have h0 := OnlyIn.refl [.fabric, .mem] d
  unfold reply
  repeat' (first
    | with_reducible assumption | ((with_reducible refine Part.subI ?_); exact rfl) | exact Or.inl rfl
    | exact Or.inr rfl | intro _
    | (extract_lets +onlyGivenNames -underBinder dd; (subst dd))
    | with_reducible apply setBytes_only | with_reducible apply incTally_only | split)

theorem noteIssuer_only {L : List Part} {a : Dev} (c : DmkCmd) {d : Dev} (hL : Part.sub [.damask] L = true) (h :
    OnlyIn L a d) :
    OnlyIn L a (noteIssuer c d) := by
  refine OnlyIn.widen hL h ?_
  have h0 := OnlyIn.refl [.damask] d
  unfold noteIssuer
  repeat' (first
    | with_reducible assumption | exact Or.inl rfl | exact Or.inr rfl | intro _
    | (extract_lets +onlyGivenNames -underBinder dd; (subst dd))
    | ((conv => (arg 3; arg 23; skip)); with_reducible apply OnlyIn.mk') | split)

theorem losePage_only {L : List Part} {a : Dev} (hh : Nat) (slot : Nat) {d : Dev} (hL : Part.sub [.damask, .host,
    .health, .sent] L = true) (h : OnlyIn L a d) :
    OnlyIn L a (losePage hh slot d) := by
  refine OnlyIn.widen hL h ?_
  have h0 := OnlyIn.refl [.damask, .host, .health, .sent] d
  unfold losePage
  repeat' (first
    | with_reducible assumption | ((with_reducible refine Part.subI ?_); exact rfl) | exact Or.inl rfl
    | exact Or.inr rfl | intro _
    | (extract_lets +onlyGivenNames -underBinder dd; (subst dd))
    | with_reducible apply setSeq_only | with_reducible apply setRef_only | with_reducible apply removeEntry_only
    | with_reducible apply bumpDmk_only | with_reducible apply conditionEvent_only
    | with_reducible apply OnlyIn.foldl | with_reducible apply OnlyIn.foldlSnd | split)

theorem pageFault_only {L : List Part} {a : Dev} (hh : Nat) (window : Option Nat) {d : Dev} (hL : Part.sub
    [.chambray, .fabric, .plan, .host, .v0, .v1, .felt, .boot, .health, .sent] L = true) (h : OnlyIn L a d) :
    OnlyIn L a (pageFault hh window d) := by
  refine OnlyIn.widen hL h ?_
  have h0 := OnlyIn.refl [.chambray, .fabric, .plan, .host, .v0, .v1, .felt, .boot, .health, .sent] d
  unfold pageFault
  repeat' (first
    | with_reducible assumption | ((with_reducible refine Part.subI ?_); exact rfl) | exact Or.inl rfl
    | exact Or.inr rfl | intro _ | with_reducible apply faultKey_only | with_reducible apply raiseH_only | split)

theorem copyErrors_only {L : List Part} {a : Dev} (hh : Nat) (c : DmkCmd) (r : DmkReply) {d : Dev} (hL : Part.sub
    [.chambray, .fabric, .plan, .damask, .host, .v0, .v1, .felt, .boot, .health, .sent] L = true) (h : OnlyIn L a d) :
    OnlyIn L a (copyErrors hh c r d) := by
  refine OnlyIn.widen hL h ?_
  have h0 := OnlyIn.refl [.chambray, .fabric, .plan, .damask, .host, .v0, .v1, .felt, .boot, .health, .sent] d
  unfold copyErrors
  repeat' (first
    | with_reducible assumption | ((with_reducible refine Part.subI ?_); exact rfl) | exact Or.inl rfl
    | exact Or.inr rfl | intro _ | with_reducible apply losePage_only | with_reducible apply pageFault_only | split)

theorem serveDmk_only {L : List Part} {a : Dev} (hh : Fin 2) (c : DmkCmd) (f : Dev → DmkReply × Dev) {d : Dev}
    (hL : Part.sub [.chambray, .fabric, .plan, .damask, .host, .v0, .v1, .felt, .boot, .health, .mem, .sent] L =
        true) (hf : ∀ d, OnlyIn L a d → OnlyIn L a (f d).2) (h : OnlyIn L a d) :
    OnlyIn L a (serveDmk hh c f d) := by
  unfold serveDmk
  split
  · extract_lets x
    have h1 : OnlyIn L a x.2 := hf _ (OnlyIn.widen hL h (noteIssuer_only _ rfl (OnlyIn.refl _ _)))
    refine OnlyIn.widen hL h1 ?_
    have h0 := OnlyIn.refl [.chambray, .fabric, .plan, .damask, .host, .v0, .v1, .felt, .boot, .health, .mem, .sent]
        x.2
    refine copyErrors_only _ _ _ rfl (reply_only _ _ rfl h0)
  · exact h

theorem refuseCreate_only {L : List Part} {a : Dev} (hh : Nat) (st : DmkStatus) {d : Dev} (hL : Part.sub [.damask,
    .host, .health, .sent] L = true) (h : OnlyIn L a d) :
    OnlyIn L a (refuseCreate hh st d).2 := by
  refine OnlyIn.widen hL h ?_
  have h0 := OnlyIn.refl [.damask, .host, .health, .sent] d
  unfold refuseCreate
  repeat' (first
    | with_reducible assumption | ((with_reducible refine Part.subI ?_); exact rfl) | exact Or.inl rfl
    | exact Or.inr rfl | intro _ | with_reducible apply bumpDmk_only)

theorem create_only {L : List Part} {a : Dev} (half : Fin 2) (cmd : DmkCmd) {d : Dev} (hL : Part.sub [.chambray,
    .fabric, .plan, .damask, .host, .v0, .v1, .felt, .boot, .health, .mem, .sent] L = true) (h : OnlyIn L a d) :
    OnlyIn L a (create half cmd d) := by
  refine OnlyIn.widen hL h ?_
  have h0 := OnlyIn.refl [.chambray, .fabric, .plan, .damask, .host, .v0, .v1, .felt, .boot, .health, .mem, .sent] d
  unfold create
  repeat' (first
    | with_reducible assumption | ((with_reducible refine Part.subI ?_); exact rfl) | exact Or.inl rfl
    | exact Or.inr rfl | intro _ | with_reducible apply serveDmk_only | with_reducible apply refuseCreate_only
    | with_reducible apply setSeq_only | split)

theorem noteMissingView_only {L : List Part} {a : Dev} (c : DmkCmd) (missing : Nat) {d : Dev} (hL : Part.sub [.plan]
    L = true) (h : OnlyIn L a d) :
    OnlyIn L a (noteMissingView c missing d) := by
  refine OnlyIn.widen hL h ?_
  have h0 := OnlyIn.refl [.plan] d
  unfold noteMissingView
  repeat' (first
    | with_reducible assumption | ((with_reducible refine Part.subI ?_); exact rfl) | exact Or.inl rfl
    | exact Or.inr rfl | intro _
    | (extract_lets +onlyGivenNames -underBinder dd; (subst dd))
    | with_reducible apply Dev_setWin_only | split)

theorem openView_only {L : List Part} {a : Dev} (half : Fin 2) (cmd : DmkCmd) {d : Dev} (hL : Part.sub [.chambray,
    .fabric, .plan, .damask, .host, .v0, .v1, .felt, .boot, .health, .mem, .sent] L = true) (h : OnlyIn L a d) :
    OnlyIn L a (openView half cmd d) := by
  refine OnlyIn.widen hL h ?_
  have h0 := OnlyIn.refl [.chambray, .fabric, .plan, .damask, .host, .v0, .v1, .felt, .boot, .health, .mem, .sent] d
  unfold openView
  repeat' (first
    | with_reducible assumption | ((with_reducible refine Part.subI ?_); exact rfl) | exact Or.inl rfl
    | exact Or.inr rfl | intro _
    | (extract_lets +onlyGivenNames -underBinder dd; (subst dd))
    | with_reducible apply serveDmk_only | with_reducible apply noteMissingView_only
    | with_reducible apply modHalf_only | with_reducible apply OnlyIn.foldl | with_reducible apply OnlyIn.foldlSnd
    | split)

theorem reserve_only {L : List Part} {a : Dev} (hh : Nat) (aa : PendingAppend) {d : Dev} (hL : Part.sub [.damask] L =
    true) (h : OnlyIn L a d) :
    OnlyIn L a (reserve hh aa d) := by
  refine OnlyIn.widen hL h ?_
  have h0 := OnlyIn.refl [.damask] d
  unfold reserve
  repeat' (first
    | with_reducible assumption | ((with_reducible refine Part.subI ?_); exact rfl) | exact Or.inl rfl
    | exact Or.inr rfl | intro _ | with_reducible apply modHalf_only)

theorem freshPages_only {L : List Part} {b : Dev} (hh : Nat) (snapshot : Bool) (a : PendingAppend) (fuel rest : Nat)
    {d : Dev}
    (hL : Part.sub [.damask, .freeCtr] L = true) (h : OnlyIn L b d) : OnlyIn L b (freshPages hh snapshot a fuel rest
        d).2 := by
  induction fuel generalizing rest d b L with
  | zero => exact h
  | succ n ih =>
    unfold freshPages
    split
    · exact h
    · split
      · exact h
      · rename_i x hx
        have hx := takeSlot_only _ rfl (OnlyIn.refl [.damask, .freeCtr] d) _ hx
        extract_lets y m d1 more
        refine OnlyIn.widen hL h (ih _ rfl (reserve_only _ _ rfl ?_))
        by_cases hs : snapshot = true
        · simpa [y, hs] using takeSnap_only hh rfl hx
        · simpa [y, hs] using hx

theorem countRefused_only {L : List Part} {a : Dev} (hh : Nat) {d : Dev} (hL : Part.sub [.damask, .host, .health,
    .sent] L = true) (h : OnlyIn L a d) :
    OnlyIn L a (countRefused hh d) := by
  refine OnlyIn.widen hL h ?_
  have h0 := OnlyIn.refl [.damask, .host, .health, .sent] d
  unfold countRefused
  repeat' (first
    | with_reducible assumption | ((with_reducible refine Part.subI ?_); exact rfl) | exact Or.inl rfl
    | exact Or.inr rfl | intro _ | with_reducible apply bumpDmk_only)

theorem refuseAppend_only {L : List Part} {a : Dev} (hh : Nat) (cmd : DmkCmd) (st : DmkStatus) {d : Dev} (hL :
    Part.sub [.damask, .host, .health, .sent] L = true) (h : OnlyIn L a d) :
    OnlyIn L a (refuseAppend hh cmd st d).2 := by
  refine OnlyIn.widen hL h ?_
  have h0 := OnlyIn.refl [.damask, .host, .health, .sent] d
  unfold refuseAppend
  repeat' (first
    | with_reducible assumption | ((with_reducible refine Part.subI ?_); exact rfl) | exact Or.inl rfl
    | exact Or.inr rfl | intro _
    | (extract_lets +onlyGivenNames -underBinder dd; (subst dd))
    | with_reducible apply modHalf_only | with_reducible apply countRefused_only)

theorem ownTail_only {L : List Part} {a : Dev} (hh : Nat) (i : Nat) (snapshot : Bool) (t : Tail) {d : Dev} (hL :
    Part.sub [.damask, .host, .health, .mem, .sent, .freeCtr] L = true) (h : OnlyIn L a d) :
    OnlyIn L a (ownTail hh i snapshot t d).2.2 := by
  refine OnlyIn.widen hL h ?_
  have h0 := OnlyIn.refl [.damask, .host, .health, .mem, .sent, .freeCtr] d
  unfold ownTail
  repeat' (first
    | with_reducible assumption | ((with_reducible refine Part.subI ?_); exact rfl) | exact Or.inl rfl
    | exact Or.inr rfl | intro _
    | (extract_lets +onlyGivenNames -underBinder dd; (subst dd))
    | with_reducible apply setSeq_only | with_reducible apply setRef_only | with_reducible apply bumpDmk_only
    | with_reducible refine copyPage_only _ _ _ ?_ ?_ _ (by assumption)
    | with_reducible refine copyPage_only _ _ _ ?_ ?_ (_, _) (by assumption) | split)

theorem appendTo_only {L : List Part} {a : Dev} (hh : Nat) (cmd : DmkCmd) (qq : Sequence) (c : DmkClass) {d : Dev}
    (hL : Part.sub [.damask, .host, .health, .mem, .sent, .freeCtr] L = true) (h : OnlyIn L a d) :
    OnlyIn L a (appendTo hh cmd qq c d).2 := by
  refine OnlyIn.widen hL h ?_
  have h0 := OnlyIn.refl [.damask, .host, .health, .mem, .sent, .freeCtr] d
  unfold appendTo
  repeat' (first
    | with_reducible assumption | ((with_reducible refine Part.subI ?_); exact rfl) | exact Or.inl rfl
    | exact Or.inr rfl | intro _
    | (extract_lets +onlyGivenNames -underBinder dd; (subst dd))
    | with_reducible apply refuseAppend_only | with_reducible apply modHalf_only | with_reducible apply ownTail_only
    | with_reducible apply reserve_only | with_reducible apply freshPages_only
    | with_reducible refine obtain_only _ _ _ _ ?_ ?_ _ (by assumption)
    | with_reducible refine obtain_only _ _ _ _ ?_ ?_ (_, _) (by assumption) | split)

theorem appendTok_only {L : List Part} {a : Dev} (half : Fin 2) (cmd : DmkCmd) {d : Dev} (hL : Part.sub [.chambray,
    .fabric, .plan, .damask, .host, .v0, .v1, .felt, .boot, .health, .mem, .sent, .freeCtr] L = true) (h : OnlyIn L a
    d) :
    OnlyIn L a (appendTok half cmd d) := by
  refine OnlyIn.widen hL h ?_
  have h0 := OnlyIn.refl [.chambray, .fabric, .plan, .damask, .host, .v0, .v1, .felt, .boot, .health, .mem, .sent,
      .freeCtr] d
  unfold appendTok
  repeat' (first
    | with_reducible assumption | ((with_reducible refine Part.subI ?_); exact rfl) | exact Or.inl rfl
    | exact Or.inr rfl | intro _ | with_reducible apply serveDmk_only | with_reducible apply appendTo_only | split)

theorem sharePages_only {L : List Part} {a : Dev} (hh : Nat) (snapshot : Bool) (l : List PageEntry) {d : Dev}
    (hL : Part.sub [.damask, .host, .health, .mem, .sent, .freeCtr] L = true) (h : OnlyIn L a d) : OnlyIn L a
        (sharePages hh snapshot l d).2.2 := by
  suffices hs : ∀ d0 : Dev, OnlyIn [.damask, .host, .health, .mem, .sent, .freeCtr] d0 d → OnlyIn [.damask, .host,
      .health, .mem, .sent, .freeCtr] d0 (sharePages hh snapshot l d).2.2 from
    OnlyIn.widen hL h (hs _ (OnlyIn.refl _ _))
  clear h hL
  intro d0 h
  induction l generalizing d with
  | nil => exact h
  | cons p t ih =>
    unfold sharePages
    split
    · exact ih h
    · split
      · exact ih (setRef_only _ _ _ rfl h)
      · split
        · exact h
        · rename_i y hy
          exact ih (bumpDmk_only _ _ _ _ _ rfl (copyPage_only _ _ _ rfl h _ hy))

theorem forkOf_only {L : List Part} {a : Dev} (hh : Nat) (cmd : DmkCmd) (owner : SeqOwner) {d : Dev} (hL : Part.sub
    [.damask, .host, .health, .mem, .sent, .freeCtr] L = true) (h : OnlyIn L a d) :
    OnlyIn L a (forkOf hh cmd owner d).2 := by
  refine OnlyIn.widen hL h ?_
  have h0 := OnlyIn.refl [.damask, .host, .health, .mem, .sent, .freeCtr] d
  unfold forkOf
  repeat' (first
    | with_reducible assumption | ((with_reducible refine Part.subI ?_); exact rfl) | exact Or.inl rfl
    | exact Or.inr rfl | intro _
    | (extract_lets +onlyGivenNames -underBinder dd; (subst dd))
    | with_reducible apply refuseCreate_only | with_reducible apply countRefused_only
    | with_reducible apply sharePages_only | with_reducible apply setSeq_only
    | with_reducible refine obtain_only _ _ _ _ ?_ ?_ _ (by assumption)
    | with_reducible refine obtain_only _ _ _ _ ?_ ?_ (_, _) (by assumption) | split)

theorem forkSeq_only {L : List Part} {a : Dev} (half : Fin 2) (cmd : DmkCmd) {d : Dev} (hL : Part.sub [.chambray,
    .fabric, .plan, .damask, .host, .v0, .v1, .felt, .boot, .health, .mem, .sent, .freeCtr] L = true) (h : OnlyIn L a
    d) :
    OnlyIn L a (forkSeq half cmd d) := by
  refine OnlyIn.widen hL h ?_
  have h0 := OnlyIn.refl [.chambray, .fabric, .plan, .damask, .host, .v0, .v1, .felt, .boot, .health, .mem, .sent,
      .freeCtr] d
  unfold forkSeq
  repeat' (first
    | with_reducible assumption | ((with_reducible refine Part.subI ?_); exact rfl) | exact Or.inl rfl
    | exact Or.inr rfl | intro _ | with_reducible apply serveDmk_only | with_reducible apply forkOf_only)

theorem freeSeq_only {L : List Part} {a : Dev} (half : Fin 2) (cmd : DmkCmd) {d : Dev} (hL : Part.sub [.chambray,
    .fabric, .plan, .damask, .host, .v0, .v1, .felt, .boot, .health, .mem, .sent] L = true) (h : OnlyIn L a d) :
    OnlyIn L a (freeSeq half cmd d) := by
  refine OnlyIn.widen hL h ?_
  have h0 := OnlyIn.refl [.chambray, .fabric, .plan, .damask, .host, .v0, .v1, .felt, .boot, .health, .mem, .sent] d
  unfold freeSeq
  repeat' (first
    | with_reducible assumption | ((with_reducible refine Part.subI ?_); exact rfl) | exact Or.inl rfl
    | exact Or.inr rfl | intro _ | with_reducible apply serveDmk_only | with_reducible apply setSeq_only | split)

theorem restore_only {L : List Part} {a : Dev} (half : Fin 2) (cmd : DmkCmd) {d : Dev} (hL : Part.sub [.chambray,
    .fabric, .plan, .damask, .host, .v0, .v1, .felt, .boot, .health, .mem, .sent] L = true) (h : OnlyIn L a d) :
    OnlyIn L a (restore half cmd d) := by
  refine OnlyIn.widen hL h ?_
  have h0 := OnlyIn.refl [.chambray, .fabric, .plan, .damask, .host, .v0, .v1, .felt, .boot, .health, .mem, .sent] d
  unfold restore
  repeat' (first
    | with_reducible assumption | ((with_reducible refine Part.subI ?_); exact rfl) | exact Or.inl rfl
    | exact Or.inr rfl | intro _
    | (extract_lets +onlyGivenNames -underBinder dd; (subst dd))
    | with_reducible apply serveDmk_only | with_reducible apply modHalf_only | split)

theorem listQueue_only {L : List Part} {a : Dev} (hh e : Nat) (l : List Victim) {d : Dev} (hL : Part.sub [.damask,
    .host, .health, .sent, .freeCtr] L = true)
    (h : OnlyIn L a d) : OnlyIn L a (listQueue hh e l d).2 := by
  suffices hs : ∀ d0 : Dev, OnlyIn [.damask, .host, .health, .sent, .freeCtr] d0 d → OnlyIn [.damask, .host, .health,
      .sent, .freeCtr] d0 (listQueue hh e l d).2 from OnlyIn.widen hL h (hs _ (OnlyIn.refl _ _))
  clear h hL
  intro d0 h
  induction l generalizing d with
  | nil => exact h
  | cons v t ih =>
    unfold listQueue
    split
    · rename_i x snap hx hs
      obtain ⟨d1, h1, h2⟩ := Option.bind_eq_some_iff.mp hx
      exact ih (modHalf_only _ _ rfl (pick_only _ rfl (obtain_only _ _ _ _ rfl h _ h1) _ h2))
    · exact ih (bumpDmk_only _ _ _ _ _ rfl h)

theorem openQueue_only {L : List Part} {a : Dev} (half : Fin 2) (cmd : DmkCmd) {d : Dev} (hL : Part.sub [.chambray,
    .fabric, .plan, .damask, .host, .v0, .v1, .felt, .boot, .health, .mem, .sent, .freeCtr] L = true) (h : OnlyIn L a
    d) :
    OnlyIn L a (openQueue half cmd d) := by
  refine OnlyIn.widen hL h ?_
  have h0 := OnlyIn.refl [.chambray, .fabric, .plan, .damask, .host, .v0, .v1, .felt, .boot, .health, .mem, .sent,
      .freeCtr] d
  unfold openQueue
  repeat' (first
    | with_reducible assumption | ((with_reducible refine Part.subI ?_); exact rfl) | exact Or.inl rfl
    | exact Or.inr rfl | intro _
    | (extract_lets +onlyGivenNames -underBinder dd; (subst dd))
    | with_reducible apply serveDmk_only | with_reducible apply modHalf_only | with_reducible apply listQueue_only)

theorem damaskReservedOp_only {L : List Part} {a : Dev} (half : Fin 2) (cmd : DmkCmd) {d : Dev} (hL : Part.sub
    [.chambray, .fabric, .plan, .damask, .host, .v0, .v1, .felt, .boot, .health, .mem, .sent] L = true) (h : OnlyIn L
    a d) :
    OnlyIn L a (damaskReservedOp half cmd d) := by
  refine OnlyIn.widen hL h ?_
  have h0 := OnlyIn.refl [.chambray, .fabric, .plan, .damask, .host, .v0, .v1, .felt, .boot, .health, .mem, .sent] d
  unfold damaskReservedOp
  repeat' (first
    | with_reducible assumption | ((with_reducible refine Part.subI ?_); exact rfl) | exact Or.inl rfl
    | exact Or.inr rfl | intro _ | with_reducible apply serveDmk_only)

theorem commitAppend_only {L : List Part} {a : Dev} (hh : Nat) (aa : PendingAppend) {d : Dev} (hL : Part.sub
    [.damask] L = true) (h : OnlyIn L a d) :
    OnlyIn L a (commitAppend hh d aa) := by
  refine OnlyIn.widen hL h ?_
  have h0 := OnlyIn.refl [.damask] d
  unfold commitAppend
  repeat' (first
    | with_reducible assumption | ((with_reducible refine Part.subI ?_); exact rfl) | exact Or.inl rfl
    | exact Or.inr rfl | intro _
    | (extract_lets +onlyGivenNames -underBinder dd; (subst dd))
    | with_reducible apply setRef_only | with_reducible apply setSeq_only | split)

theorem discardAppend_only {L : List Part} {a : Dev} (hh : Nat) (aa : PendingAppend) {d : Dev} (hL : Part.sub
    [.damask] L = true) (h : OnlyIn L a d) :
    OnlyIn L a (discardAppend hh d aa) := by
  refine OnlyIn.widen hL h ?_
  have h0 := OnlyIn.refl [.damask] d
  unfold discardAppend
  repeat' (first
    | with_reducible assumption | ((with_reducible refine Part.subI ?_); exact rfl) | exact Or.inl rfl
    | exact Or.inr rfl | intro _
    | (extract_lets +onlyGivenNames -underBinder dd; (subst dd))
    | with_reducible apply releaseSnap_only | with_reducible apply setRef_only | split)

theorem closeAppends_only {L : List Part} {a : Dev} (hh : Nat) (e : Nat) {d : Dev} (hL : Part.sub [.damask, .host,
    .health, .sent] L = true) (h : OnlyIn L a d) :
    OnlyIn L a (closeAppends hh e d) := by
  refine OnlyIn.widen hL h ?_
  have h0 := OnlyIn.refl [.damask, .host, .health, .sent] d
  unfold closeAppends
  repeat' (first
    | with_reducible assumption | ((with_reducible refine Part.subI ?_); exact rfl) | exact Or.inl rfl
    | exact Or.inr rfl | intro _
    | (extract_lets +onlyGivenNames -underBinder dd; (subst dd))
    | with_reducible apply modHalf_only | with_reducible apply commitAppend_only
    | with_reducible apply discardAppend_only | with_reducible apply bumpDmk_only | with_reducible apply OnlyIn.foldl)

theorem closeRebuild_only {L : List Part} {a : Dev} (hh : Nat) (e : Nat) (r : Rebuild) {d : Dev} (hL : Part.sub
    [.damask, .host, .health, .sent] L = true) (h : OnlyIn L a d) :
    OnlyIn L a (closeRebuild hh e d r) := by
  refine OnlyIn.widen hL h ?_
  have h0 := OnlyIn.refl [.damask, .host, .health, .sent] d
  unfold closeRebuild
  repeat' (first
    | with_reducible assumption | ((with_reducible refine Part.subI ?_); exact rfl) | exact Or.inl rfl
    | exact Or.inr rfl | intro _
    | (extract_lets +onlyGivenNames -underBinder dd; (subst dd))
    | with_reducible apply setSeq_only | with_reducible apply setRef_only | with_reducible apply bumpDmk_only | split)

theorem closeRebuilds_only {L : List Part} {a : Dev} (hh : Nat) (e : Nat) {d : Dev} (hL : Part.sub [.damask, .host,
    .health, .sent] L = true) (h : OnlyIn L a d) :
    OnlyIn L a (closeRebuilds hh e d) := by
  refine OnlyIn.widen hL h ?_
  have h0 := OnlyIn.refl [.damask, .host, .health, .sent] d
  unfold closeRebuilds
  repeat' (first
    | with_reducible assumption | ((with_reducible refine Part.subI ?_); exact rfl) | exact Or.inl rfl
    | exact Or.inr rfl | intro _
    | (extract_lets +onlyGivenNames -underBinder dd; (subst dd))
    | with_reducible apply modHalf_only | with_reducible apply closeRebuild_only | with_reducible apply OnlyIn.foldl)

theorem removeSeq_only {L : List Part} {a : Dev} (hh : Nat) (e : Nat × Sequence) {d : Dev} (hL : Part.sub [.damask] L
    = true) (h : OnlyIn L a d) :
    OnlyIn L a (removeSeq hh d e) := by
  refine OnlyIn.widen hL h ?_
  have h0 := OnlyIn.refl [.damask] d
  unfold removeSeq
  repeat' (first
    | with_reducible assumption | ((with_reducible refine Part.subI ?_); exact rfl) | exact Or.inl rfl
    | exact Or.inr rfl | intro _ | with_reducible apply setSeq_only | with_reducible apply removeEntry_only
    | with_reducible apply OnlyIn.foldl)

theorem closeHalf_only {L : List Part} {a : Dev} (hh : Nat) (e : Nat) {d : Dev} (hL : Part.sub [.damask, .host,
    .health, .sent] L = true) (h : OnlyIn L a d) :
    OnlyIn L a (closeHalf hh e d) := by
  refine OnlyIn.widen hL h ?_
  have h0 := OnlyIn.refl [.damask, .host, .health, .sent] d
  unfold closeHalf
  repeat' (first
    | with_reducible assumption | ((with_reducible refine Part.subI ?_); exact rfl) | exact Or.inl rfl
    | exact Or.inr rfl | intro _
    | (extract_lets +onlyGivenNames -underBinder dd; (subst dd))
    | with_reducible apply closeAppends_only | with_reducible apply closeRebuilds_only
    | with_reducible apply removeSeq_only | with_reducible apply modHalf_only | with_reducible apply reclaim_only
    | with_reducible apply OnlyIn.foldl)

theorem epochClose_only {L : List Part} {a : Dev} {d : Dev} (hL : Part.sub [.damask, .host, .health, .sent] L = true)
    (h : OnlyIn L a d) :
    OnlyIn L a (epochClose d) := by
  refine OnlyIn.widen hL h ?_
  have h0 := OnlyIn.refl [.damask, .host, .health, .sent] d
  unfold epochClose
  repeat' (first
    | with_reducible assumption | ((with_reducible refine Part.subI ?_); exact rfl) | exact Or.inl rfl
    | exact Or.inr rfl | intro _
    | (extract_lets +onlyGivenNames -underBinder dd; (subst dd))
    | ((conv => (arg 3; arg 23; skip)); with_reducible apply OnlyIn.mk') | with_reducible apply closeHalf_only
    | split)

theorem losePageOf_only {L : List Part} {a : Dev} (hh : Nat) (slots : List Nat) {d : Dev} (hL : Part.sub [.damask,
    .host, .health, .sent, .freeCtr] L = true) (h : OnlyIn L a d) :
    OnlyIn L a (losePageOf hh slots d) := by
  refine OnlyIn.widen hL h ?_
  have h0 := OnlyIn.refl [.damask, .host, .health, .sent, .freeCtr] d
  unfold losePageOf
  repeat' (first
    | with_reducible assumption | ((with_reducible refine Part.subI ?_); exact rfl) | exact Or.inl rfl
    | exact Or.inr rfl | intro _ | with_reducible apply losePage_only
    | with_reducible refine pick_only _ ?_ ?_ _ (by assumption)
    | with_reducible refine pick_only _ ?_ ?_ (_, _) (by assumption) | split)

/-! ### Loading -/

theorem loadPrograms_only {L : List Part} {a : Dev} (ps : Nat → List (Nat × Nat × Program)) (cl : Nat) {d : Dev} (hL
    : Part.sub [.fabric] L = true) (h : OnlyIn L a d) :
    OnlyIn L a (loadPrograms ps cl d) := by
  refine OnlyIn.widen hL h ?_
  have h0 := OnlyIn.refl [.fabric] d
  unfold loadPrograms
  repeat' (first
    | with_reducible assumption | ((with_reducible refine Part.subI ?_); exact rfl) | exact Or.inl rfl
    | exact Or.inr rfl | intro _ | with_reducible apply Dev_setCore_only | with_reducible apply OnlyIn.foldl)

theorem loadWeights_only {L : List Part} {a : Dev} (img : Image) (p : Tensor → Bool) {d : Dev} (hL : Part.sub [.mem]
    L = true) (h : OnlyIn L a d) :
    OnlyIn L a (loadWeights img p d) := by
  refine OnlyIn.widen hL h ?_
  have h0 := OnlyIn.refl [.mem] d
  unfold loadWeights
  repeat' (first
    | with_reducible assumption | ((with_reducible refine Part.subI ?_); exact rfl) | exact Or.inl rfl
    | exact Or.inr rfl | intro _ | with_reducible apply placeWeights_only | with_reducible apply OnlyIn.foldl
    | with_reducible apply OnlyIn.foldlSnd | split)

theorem loadCluster_only {L : List Part} {a : Dev} (img : Image) (cl : Nat) {d : Dev} (hL : Part.sub [.fabric, .mem]
    L = true) (h : OnlyIn L a d) :
    OnlyIn L a (loadCluster img d cl) := by
  refine OnlyIn.widen hL h ?_
  have h0 := OnlyIn.refl [.fabric, .mem] d
  unfold loadCluster
  repeat' (first
    | with_reducible assumption | ((with_reducible refine Part.subI ?_); exact rfl) | exact Or.inl rfl
    | exact Or.inr rfl | intro _ | with_reducible apply loadWeights_only | with_reducible apply loadPrograms_only)

theorem loadBurlapCluster_only {L : List Part} {a : Dev} (img : Image) (cl : Nat) {d : Dev} (hL : Part.sub [.fabric,
    .mem] L = true) (h : OnlyIn L a d) :
    OnlyIn L a (loadBurlapCluster img d cl) := by
  refine OnlyIn.widen hL h ?_
  have h0 := OnlyIn.refl [.fabric, .mem] d
  unfold loadBurlapCluster
  repeat' (first
    | with_reducible assumption | ((with_reducible refine Part.subI ?_); exact rfl) | exact Or.inl rfl
    | exact Or.inr rfl | intro _ | with_reducible apply placeWeights_only | with_reducible apply loadPrograms_only)

theorem storeStaged_only {L : List Part} {a : Dev} (img : Image) (x : Nat) (ts : List Tensor) (w : WeightRec) {d :
    Dev} (hL : Part.sub [.mem] L = true) (h : OnlyIn L a d) :
    OnlyIn L a (storeStaged img x ts d w) := by
  refine OnlyIn.widen hL h ?_
  have h0 := OnlyIn.refl [.mem] d
  unfold storeStaged
  repeat' (first
    | with_reducible assumption | ((with_reducible refine Part.subI ?_); exact rfl) | exact Or.inl rfl
    | exact Or.inr rfl | intro _ | with_reducible apply setBytes_only | split)

theorem loadMemorySide_only {L : List Part} {a : Dev} (img : Image) (x : Nat) {d : Dev} (hL : Part.sub [.mem] L =
    true) (h : OnlyIn L a d) :
    OnlyIn L a (loadMemorySide img x d) := by
  refine OnlyIn.widen hL h ?_
  have h0 := OnlyIn.refl [.mem] d
  unfold loadMemorySide
  repeat' (first
    | with_reducible assumption | ((with_reducible refine Part.subI ?_); exact rfl) | exact Or.inl rfl
    | exact Or.inr rfl | intro _ | with_reducible apply storeStaged_only | with_reducible apply OnlyIn.foldl
    | with_reducible apply OnlyIn.foldlSnd | split)

theorem loadDie_only {L : List Part} {a : Dev} (img : Image) (x : Nat) {d : Dev} (hL : Part.sub [.fabric, .mem] L =
    true) (h : OnlyIn L a d) :
    OnlyIn L a (loadDie img x d) := by
  refine OnlyIn.widen hL h ?_
  have h0 := OnlyIn.refl [.fabric, .mem] d
  unfold loadDie
  repeat' (first
    | with_reducible assumption | ((with_reducible refine Part.subI ?_); exact rfl) | exact Or.inl rfl
    | exact Or.inr rfl | intro _ | with_reducible apply loadCluster_only | with_reducible apply loadMemorySide_only
    | with_reducible apply OnlyIn.foldl | with_reducible apply OnlyIn.foldlSnd | split)

theorem copyOverlay_only {L : List Part} {a : Dev} (img : Image) (m : ModeRec) (p : Nat → Bool) {d : Dev} (hL :
    Part.sub [.fabric, .mem] L = true) (h : OnlyIn L a d) :
    OnlyIn L a (copyOverlay img m p d) := by
  refine OnlyIn.widen hL h ?_
  have h0 := OnlyIn.refl [.fabric, .mem] d
  unfold copyOverlay
  repeat' (first
    | with_reducible assumption | ((with_reducible refine Part.subI ?_); exact rfl) | exact Or.inl rfl
    | exact Or.inr rfl | intro _
    | (extract_lets +onlyGivenNames -underBinder dd; (subst dd))
    | with_reducible apply loadPrograms_only | with_reducible apply setSpan_only | with_reducible apply OnlyIn.foldl
    | with_reducible apply OnlyIn.foldlSnd | split)

theorem loadPartition_only {L : List Part} {a : Dev} (p : PartRec) {d : Dev} (hL : Part.sub [.fabric, .mem] L = true)
    (h : OnlyIn L a d) :
    OnlyIn L a (loadPartition p d) := by
  refine OnlyIn.widen hL h ?_
  have h0 := OnlyIn.refl [.fabric, .mem] d
  unfold loadPartition
  repeat' (first
    | with_reducible assumption | ((with_reducible refine Part.subI ?_); exact rfl) | exact Or.inl rfl
    | exact Or.inr rfl | intro _
    | (extract_lets +onlyGivenNames -underBinder dd; (subst dd))
    | with_reducible apply loadMemorySide_only | with_reducible apply loadCluster_only
    | with_reducible apply copyOverlay_only | with_reducible apply OnlyIn.foldl
    | with_reducible apply OnlyIn.foldlSnd | split)

theorem burlapClusterReloadDone_only {L : List Part} {a : Dev} (cl : Fin 4) {d : Dev} (hL : Part.sub [.fabric, .mem]
    L = true) (h : OnlyIn L a d) :
    OnlyIn L a (burlapClusterReloadDone cl d) := by
  refine OnlyIn.widen hL h ?_
  have h0 := OnlyIn.refl [.fabric, .mem] d
  unfold burlapClusterReloadDone
  repeat' (first
    | with_reducible assumption | ((with_reducible refine Part.subI ?_); exact rfl) | exact Or.inl rfl
    | exact Or.inr rfl | intro _
    | (extract_lets +onlyGivenNames -underBinder dd; (subst dd))
    | with_reducible apply loadBurlapCluster_only | with_reducible apply Dev_modCluster_only | split)

theorem rejoinBurlap_only {L : List Part} {a : Dev} {d : Dev} (hL : Part.sub [.fabric] L = true) (h : OnlyIn L a d) :
    OnlyIn L a (rejoinBurlap d) := by
  refine OnlyIn.widen hL h ?_
  have h0 := OnlyIn.refl [.fabric] d
  unfold rejoinBurlap
  repeat' (first
    | with_reducible assumption | ((with_reducible refine Part.subI ?_); exact rfl) | exact Or.inl rfl
    | exact Or.inr rfl | intro _ | with_reducible apply Dev_modCluster_only | with_reducible apply OnlyIn.foldl)

end Sys2Proof.Machine
end

