-- ==== Sys2Proof/Laws/OnlyLimits.lean ====
section
/-!
SUPPORT. The parts of the device that the operations of Felt, the resets and health may change
(Sys2Proof/Laws/Only.lean): one lemma for each.
-/

set_option linter.unusedVariables false

namespace Sys2Proof.Machine

open Sys2Proof

/-! ### Felt -/

theorem raiseIod_only {L : List Part} {a : Dev} (code : Nat) {d : Dev} (hL : Part.sub [.host, .v0, .v1, .felt, .boot,
    .health, .sent] L = true) (h : OnlyIn L a d) :
    OnlyIn L a (raiseIod code d) := by
  refine OnlyIn.widen hL h ?_
  have h0 := OnlyIn.refl [.host, .v0, .v1, .felt, .boot, .health, .sent] d
  unfold raiseIod
  repeat' (first
    | with_reducible assumption | ((with_reducible refine Part.subI ?_); exact rfl) | exact Or.inl rfl
    | exact Or.inr rfl | intro _ | with_reducible apply raiseV_only)

theorem lockstepMismatch_only {L : List Part} {a : Dev} {d : Dev} (hL : Part.sub [.host, .v0, .v1, .felt, .boot,
    .health, .sent] L = true) (h : OnlyIn L a d) :
    OnlyIn L a (lockstepMismatch d) := by
  refine OnlyIn.widen hL h ?_
  have h0 := OnlyIn.refl [.host, .v0, .v1, .felt, .boot, .health, .sent] d
  unfold lockstepMismatch
  repeat' (first
    | with_reducible assumption | ((with_reducible refine Part.subI ?_); exact rfl) | exact Or.inl rfl
    | exact Or.inr rfl | intro _ | with_reducible apply raiseIod_only)

theorem refclkLoss_only {L : List Part} {a : Dev} {d : Dev} (hL : Part.sub [.host, .v0, .v1, .felt, .boot, .health,
    .sent] L = true) (h : OnlyIn L a d) :
    OnlyIn L a (refclkLoss d) := by
  refine OnlyIn.widen hL h ?_
  have h0 := OnlyIn.refl [.host, .v0, .v1, .felt, .boot, .health, .sent] d
  unfold refclkLoss
  repeat' (first
    | with_reducible assumption | ((with_reducible refine Part.subI ?_); exact rfl) | exact Or.inl rfl
    | exact Or.inr rfl | intro _
    | (extract_lets +onlyGivenNames -underBinder dd; (subst dd))
    | ((conv => (arg 3; arg 23; skip)); with_reducible apply OnlyIn.mk') | with_reducible apply raiseIod_only | split)

theorem refclkReturn_only {L : List Part} {a : Dev} {d : Dev} (hL : Part.sub [.felt, .boot] L = true) (h : OnlyIn L a
    d) :
    OnlyIn L a (refclkReturn d) := by
  refine OnlyIn.widen hL h ?_
  have h0 := OnlyIn.refl [.felt, .boot] d
  unfold refclkReturn
  repeat' (first
    | with_reducible assumption | exact Or.inl rfl | exact Or.inr rfl | intro _
    | (extract_lets +onlyGivenNames -underBinder dd; (subst dd))
    | ((conv => (arg 3; arg 23; skip)); with_reducible apply OnlyIn.mk') | split)

theorem checkInterval_only {L : List Part} {a : Dev} (interval : Nat) (minor : Nat) {d : Dev} (hL : Part.sub [.host,
    .v0, .v1, .felt, .boot, .health, .sent] L = true) (h : OnlyIn L a d) :
    OnlyIn L a (checkInterval interval minor d) := by
  refine OnlyIn.widen hL h ?_
  have h0 := OnlyIn.refl [.host, .v0, .v1, .felt, .boot, .health, .sent] d
  unfold checkInterval
  repeat' (first
    | with_reducible assumption | ((with_reducible refine Part.subI ?_); exact rfl) | exact Or.inl rfl
    | exact Or.inr rfl | intro _
    | (extract_lets +onlyGivenNames -underBinder dd; (subst dd))
    | ((conv => (arg 3; arg 23; skip)); with_reducible apply OnlyIn.mk') | with_reducible apply raiseIod_only | split)

theorem tickIntervalTimeout_only {L : List Part} {a : Dev} (elapsed : Nat) {d : Dev} (hL : Part.sub [.host, .v0, .v1,
    .felt, .boot, .health, .sent] L = true) (h : OnlyIn L a d) :
    OnlyIn L a (tickIntervalTimeout elapsed d) := by
  refine OnlyIn.widen hL h ?_
  have h0 := OnlyIn.refl [.host, .v0, .v1, .felt, .boot, .health, .sent] d
  unfold tickIntervalTimeout
  repeat' (first
    | with_reducible assumption | ((with_reducible refine Part.subI ?_); exact rfl) | exact Or.inl rfl
    | exact Or.inr rfl | intro _
    | (extract_lets +onlyGivenNames -underBinder dd; (subst dd))
    | ((conv => (arg 3; arg 23; skip)); with_reducible apply OnlyIn.mk') | with_reducible apply raiseIod_only | split)

theorem fabricError_only {L : List Part} {a : Dev} {d : Dev} (hL : Part.sub [.host, .v0, .v1, .felt, .boot, .health,
    .sent] L = true) (h : OnlyIn L a d) :
    OnlyIn L a (fabricError d) := by
  refine OnlyIn.widen hL h ?_
  have h0 := OnlyIn.refl [.host, .v0, .v1, .felt, .boot, .health, .sent] d
  unfold fabricError
  repeat' (first
    | with_reducible assumption | ((with_reducible refine Part.subI ?_); exact rfl) | exact Or.inl rfl
    | exact Or.inr rfl | intro _ | with_reducible apply raiseIod_only)

theorem selfCheckPass_only {L : List Part} {a : Dev} {d : Dev} (hL : Part.sub [.felt] L = true) (h : OnlyIn L a d) :
    OnlyIn L a (selfCheckPass d) := by
  refine OnlyIn.widen hL h ?_
  have h0 := OnlyIn.refl [.felt] d
  unfold selfCheckPass
  repeat' (first
    | with_reducible assumption | ((with_reducible refine Part.subI ?_); exact rfl) | exact Or.inl rfl
    | exact Or.inr rfl | intro _
    | (extract_lets +onlyGivenNames -underBinder dd; (subst dd))
    | ((conv => (arg 3; arg 23; skip)); with_reducible apply OnlyIn.mk') | with_reducible apply endConditions_only
    | split)

theorem clearNotices_only {L : List Part} {a : Dev} (cs : List Condition) {d : Dev} (hL : Part.sub [.host, .v0, .v1,
    .felt, .health, .sent] L = true)
    (h : OnlyIn L a d) : OnlyIn L a (clearNotices cs d) := by
  induction cs generalizing d with
  | nil => exact h
  | cons c t ih => exact ih (sendNotice_only _ _ _ _ _ _ hL h)

theorem resumeCountExpiry_only {L : List Part} {a : Dev} {d : Dev} (hL : Part.sub [.host, .v0, .v1, .felt, .health,
    .sent] L = true) (h : OnlyIn L a d) :
    OnlyIn L a (resumeCountExpiry d) := by
  refine OnlyIn.widen hL h ?_
  have h0 := OnlyIn.refl [.host, .v0, .v1, .felt, .health, .sent] d
  unfold resumeCountExpiry
  repeat' (first
    | with_reducible assumption | ((with_reducible refine Part.subI ?_); exact rfl) | exact Or.inl rfl
    | exact Or.inr rfl | intro _
    | (extract_lets +onlyGivenNames -underBinder dd; (subst dd))
    | ((conv => (arg 3; arg 23; skip)); with_reducible apply OnlyIn.mk') | with_reducible apply clearNotices_only
    | split)

theorem countResume_only {L : List Part} {a : Dev} {d : Dev} (hL : Part.sub [.felt] L = true) (h : OnlyIn L a d) :
    OnlyIn L a (countResume d) := by
  refine OnlyIn.widen hL h ?_
  have h0 := OnlyIn.refl [.felt] d
  unfold countResume
  repeat' (first
    | with_reducible assumption | exact Or.inl rfl | exact Or.inr rfl | intro _
    | (extract_lets +onlyGivenNames -underBinder dd; (subst dd))
    | ((conv => (arg 3; arg 23; skip)); with_reducible apply OnlyIn.mk') | split)

theorem Dev_setGolden_only {L : List Part} {a : Dev} (cl : Nat) (g : GoldenVisit) {d : Dev} (hL : Part.sub [.felt] L
    = true) (h : OnlyIn L a d) :
    OnlyIn L a (Dev.setGolden d cl g) := by
  refine OnlyIn.widen hL h ?_
  have h0 := OnlyIn.refl [.felt] d
  unfold Dev.setGolden
  repeat' (first
    | with_reducible assumption | exact Or.inl rfl | exact Or.inr rfl | intro _
    | (extract_lets +onlyGivenNames -underBinder dd; (subst dd))
    | ((conv => (arg 3; arg 23; skip)); with_reducible apply OnlyIn.mk'))

theorem startGolden_only {L : List Part} {a : Dev} (cl : Nat) (seg : Nat) (co : Nat) {d : Dev} (hL : Part.sub
    [.fabric] L = true) (h : OnlyIn L a d) :
    OnlyIn L a (startGolden cl seg d co) := by
  refine OnlyIn.widen hL h ?_
  have h0 := OnlyIn.refl [.fabric] d
  unfold startGolden
  repeat' (first
    | with_reducible assumption | ((with_reducible refine Part.subI ?_); exact rfl) | exact Or.inl rfl
    | exact Or.inr rfl | intro _
    | (extract_lets +onlyGivenNames -underBinder dd; (subst dd))
    | with_reducible apply Dev_setCore_only | with_reducible apply stopCore_only | split)

theorem startSegment_only {L : List Part} {a : Dev} (cl : Nat) (seg : Nat) {d : Dev} (hL : Part.sub [.fabric] L =
    true) (h : OnlyIn L a d) :
    OnlyIn L a (startSegment cl seg d) := by
  refine OnlyIn.widen hL h ?_
  have h0 := OnlyIn.refl [.fabric] d
  unfold startSegment
  repeat' (first
    | with_reducible assumption | ((with_reducible refine Part.subI ?_); exact rfl) | exact Or.inl rfl
    | exact Or.inr rfl | intro _ | with_reducible apply startGolden_only | with_reducible apply OnlyIn.foldl)

theorem beginVisit_only {L : List Part} {a : Dev} (cl : Nat) {d : Dev} (hL : Part.sub [.fabric, .felt, .mem] L =
    true) (h : OnlyIn L a d) :
    OnlyIn L a (beginVisit d cl) := by
  refine OnlyIn.widen hL h ?_
  have h0 := OnlyIn.refl [.fabric, .felt, .mem] d
  unfold beginVisit
  repeat' (first
    | with_reducible assumption | ((with_reducible refine Part.subI ?_); exact rfl) | exact Or.inl rfl
    | exact Or.inr rfl | intro _
    | (extract_lets +onlyGivenNames -underBinder dd; (subst dd))
    | with_reducible apply Dev_modCluster_only | with_reducible apply Dev_setGolden_only
    | with_reducible apply startSegment_only | with_reducible apply setBytes_only | split)

theorem openGolden_only {L : List Part} {a : Dev} (k : Nat) {d : Dev} (hL : Part.sub [.fabric, .felt, .mem] L = true)
    (h : OnlyIn L a d) :
    OnlyIn L a (openGolden k d) := by
  refine OnlyIn.widen hL h ?_
  have h0 := OnlyIn.refl [.fabric, .felt, .mem] d
  unfold openGolden
  repeat' (first
    | with_reducible assumption | ((with_reducible refine Part.subI ?_); exact rfl) | exact Or.inl rfl
    | exact Or.inr rfl | intro _
    | (extract_lets +onlyGivenNames -underBinder dd; (subst dd))
    | ((conv => (arg 3; arg 23; skip)); with_reducible apply OnlyIn.mk') | with_reducible apply beginVisit_only
    | with_reducible apply OnlyIn.foldl)

theorem endVisit_only {L : List Part} {a : Dev} (cl : Nat) (g : GoldenVisit) {d : Dev} (hL : Part.sub [.fabric,
    .felt] L = true) (h : OnlyIn L a d) :
    OnlyIn L a (endVisit cl g d) := by
  refine OnlyIn.widen hL h ?_
  have h0 := OnlyIn.refl [.fabric, .felt] d
  unfold endVisit
  repeat' (first
    | with_reducible assumption | ((with_reducible refine Part.subI ?_); exact rfl) | exact Or.inl rfl
    | exact Or.inr rfl | intro _ | with_reducible apply stopCore_only | with_reducible apply Dev_modCluster_only
    | with_reducible apply Dev_setGolden_only | with_reducible apply OnlyIn.foldl
    | with_reducible apply OnlyIn.foldlSnd | split)

theorem failCluster_only {L : List Part} {a : Dev} (cl : Nat) {d : Dev} (hL : Part.sub [.fabric, .plan, .host, .felt,
    .ctrl, .health, .sent] L = true) (h : OnlyIn L a d) :
    OnlyIn L a (failCluster cl d) := by
  refine OnlyIn.widen hL h ?_
  have h0 := OnlyIn.refl [.fabric, .plan, .host, .felt, .ctrl, .health, .sent] d
  unfold failCluster
  repeat' (first
    | with_reducible assumption | ((with_reducible refine Part.subI ?_); exact rfl) | exact Or.inl rfl
    | exact Or.inr rfl | intro _
    | (extract_lets +onlyGivenNames -underBinder dd; (subst dd))
    | ((conv => (arg 3; arg 23; skip)); with_reducible apply OnlyIn.mk') | with_reducible apply refreshModes_only
    | with_reducible apply Dev_modCluster_only)

theorem failVisit_only {L : List Part} {a : Dev} (cl : Nat) {d : Dev} (hL : Part.sub [.tweed, .chambray, .fabric,
    .plan, .damask, .host, .v0, .v1, .felt, .ctrl, .boot, .recovery, .health, .mem, .sent] L = true) (h : OnlyIn L a
    d) :
    OnlyIn L a (failVisit cl d) := by
  refine OnlyIn.widen hL h ?_
  have h0 := OnlyIn.refl [.tweed, .chambray, .fabric, .plan, .damask, .host, .v0, .v1, .felt, .ctrl, .boot,
      .recovery, .health, .mem, .sent] d
  unfold failVisit
  repeat' (first
    | with_reducible assumption | ((with_reducible refine Part.subI ?_); exact rfl) | exact Or.inl rfl
    | exact Or.inr rfl | intro _
    | (extract_lets +onlyGivenNames -underBinder dd; (subst dd))
    | ((conv => (arg 3; arg 23; skip)); with_reducible apply OnlyIn.mk') | with_reducible apply satEvent_only
    | with_reducible apply endVisit_only | with_reducible apply raiseH_only
    | with_reducible apply restartPartition_only | with_reducible apply failCluster_only
    | with_reducible apply raiseV_only | split)

theorem goldenSegmentEnd_only {L : List Part} {a : Dev} (cl : Fin 132) (sigs : List (BitVec 64)) (roShift : BitVec
    16) {d : Dev} (hL : Part.sub [.tweed, .chambray, .fabric, .plan, .damask, .host, .v0, .v1, .felt, .ctrl, .boot,
    .recovery, .health, .mem, .sent] L = true) (h : OnlyIn L a d) :
    OnlyIn L a (goldenSegmentEnd cl sigs roShift d) := by
  refine OnlyIn.widen hL h ?_
  have h0 := OnlyIn.refl [.tweed, .chambray, .fabric, .plan, .damask, .host, .v0, .v1, .felt, .ctrl, .boot,
      .recovery, .health, .mem, .sent] d
  unfold goldenSegmentEnd
  repeat' (first
    | with_reducible assumption | ((with_reducible refine Part.subI ?_); exact rfl) | exact Or.inl rfl
    | exact Or.inr rfl | intro _
    | (extract_lets +onlyGivenNames -underBinder dd; (subst dd))
    | ((conv => (arg 3; arg 23; skip)); with_reducible apply OnlyIn.mk') | with_reducible apply endVisit_only
    | with_reducible apply startSegment_only | with_reducible apply Dev_setGolden_only
    | with_reducible apply endCondition_only | with_reducible apply failVisit_only | split)

theorem stopVisit_only {L : List Part} {a : Dev} (tick : Nat) (cl : Nat) {d : Dev} (hL : Part.sub [.fabric, .host,
    .felt, .health, .sent] L = true) (h : OnlyIn L a d) :
    OnlyIn L a (stopVisit tick d cl) := by
  refine OnlyIn.widen hL h ?_
  have h0 := OnlyIn.refl [.fabric, .host, .felt, .health, .sent] d
  unfold stopVisit
  repeat' (first
    | with_reducible assumption | ((with_reducible refine Part.subI ?_); exact rfl) | exact Or.inl rfl
    | exact Or.inr rfl | intro _
    | (extract_lets +onlyGivenNames -underBinder dd; (subst dd))
    | ((conv => (arg 3; arg 23; skip)); with_reducible apply OnlyIn.mk') | with_reducible apply endVisit_only
    | with_reducible apply satEvent_only | split)

theorem goldenBudgetTimer_only {L : List Part} {a : Dev} (tick : Nat) (w : Nat) {d : Dev} (hL : Part.sub [.fabric,
    .plan, .host, .felt, .health, .sent] L = true) (h : OnlyIn L a d) :
    OnlyIn L a (goldenBudgetTimer tick w d) := by
  refine OnlyIn.widen hL h ?_
  have h0 := OnlyIn.refl [.fabric, .plan, .host, .felt, .health, .sent] d
  unfold goldenBudgetTimer
  repeat' (first
    | with_reducible assumption | ((with_reducible refine Part.subI ?_); exact rfl) | exact Or.inl rfl
    | exact Or.inr rfl | intro _
    | (extract_lets +onlyGivenNames -underBinder dd; (subst dd))
    | with_reducible apply stopVisit_only | with_reducible apply Dev_setWin_only | with_reducible apply OnlyIn.foldl
    | with_reducible apply OnlyIn.foldlSnd | split)

theorem rejectFrame_only {L : List Part} {a : Dev} (p : Nat) (cause : Nat) {d : Dev} (hL : Part.sub [.host, .v0, .v1,
    .health, .sent] L = true) (h : OnlyIn L a d) :
    OnlyIn L a (rejectFrame p cause d) := by
  refine OnlyIn.widen hL h ?_
  have h0 := OnlyIn.refl [.host, .v0, .v1, .health, .sent] d
  unfold rejectFrame
  repeat' (first
    | with_reducible assumption | ((with_reducible refine Part.subI ?_); exact rfl) | exact Or.inl rfl
    | exact Or.inr rfl | intro _
    | (extract_lets +onlyGivenNames -underBinder dd; (subst dd))
    | with_reducible apply satEvent_only | with_reducible apply Dev_setVport_only)

theorem acceptFrame_only {L : List Part} {a : Dev} (p : Nat) (f : CtrlFrame) {d : Dev} (hL : Part.sub [.v0, .v1,
    .ctrl] L = true) (h : OnlyIn L a d) :
    OnlyIn L a (acceptFrame p f d) := by
  refine OnlyIn.widen hL h ?_
  have h0 := OnlyIn.refl [.v0, .v1, .ctrl] d
  unfold acceptFrame
  repeat' (first
    | with_reducible assumption | ((with_reducible refine Part.subI ?_); exact rfl) | exact Or.inl rfl
    | exact Or.inr rfl | intro _
    | (extract_lets +onlyGivenNames -underBinder dd; (subst dd))
    | ((conv => (arg 3; arg 23; skip)); with_reducible apply OnlyIn.mk') | with_reducible apply Dev_setVport_only)

theorem reqStatus_only {L : List Part} {a : Dev} (st : BitVec 8) {d : Dev} (hL : Part.sub [.plan, .host, .ctrl,
    .health, .sent] L = true) (h : OnlyIn L a d) :
    OnlyIn L a (reqStatus st d) := by
  refine OnlyIn.widen hL h ?_
  have h0 := OnlyIn.refl [.plan, .host, .ctrl, .health, .sent] d
  unfold reqStatus
  repeat' (first
    | with_reducible assumption | ((with_reducible refine Part.subI ?_); exact rfl) | exact Or.inl rfl
    | exact Or.inr rfl | intro _
    | (extract_lets +onlyGivenNames -underBinder dd; (subst dd))
    | ((conv => (arg 3; arg 23; skip)); with_reducible apply OnlyIn.mk') | with_reducible apply countModeRefuse_only
    | split)

theorem decideMode_only {L : List Part} {a : Dev} (target : Nat) {d : Dev} (hL : Part.sub [.plan, .host, .ctrl,
    .health, .sent] L = true) (h : OnlyIn L a d) :
    OnlyIn L a (decideMode target d) := by
  refine OnlyIn.widen hL h ?_
  have h0 := OnlyIn.refl [.plan, .host, .ctrl, .health, .sent] d
  unfold decideMode
  repeat' (first
    | with_reducible assumption | ((with_reducible refine Part.subI ?_); exact rfl) | exact Or.inl rfl
    | exact Or.inr rfl | intro _
    | (extract_lets +onlyGivenNames -underBinder dd; (subst dd))
    | with_reducible apply reqStatus_only | with_reducible apply cancelSwitch_only
    | with_reducible apply startSwitch_only | split)

theorem takeModeRequest_only {L : List Part} {a : Dev} (p : Nat) (f : CtrlFrame) {d : Dev} (hL : Part.sub [.plan,
    .host, .v0, .v1, .ctrl, .health, .sent] L = true) (h : OnlyIn L a d) :
    OnlyIn L a (takeModeRequest p f d) := by
  refine OnlyIn.widen hL h ?_
  have h0 := OnlyIn.refl [.plan, .host, .v0, .v1, .ctrl, .health, .sent] d
  unfold takeModeRequest
  repeat' (first
    | with_reducible assumption | ((with_reducible refine Part.subI ?_); exact rfl) | exact Or.inl rfl
    | exact Or.inr rfl | intro _
    | (extract_lets +onlyGivenNames -underBinder dd; (subst dd))
    | ((conv => (arg 3; arg 23; skip)); with_reducible apply OnlyIn.mk') | with_reducible apply rejectFrame_only
    | with_reducible apply decideMode_only | split)

theorem takeConsent_only {L : List Part} {a : Dev} (p : Nat) (f : CtrlFrame) {d : Dev} (hL : Part.sub [.host, .v0,
    .v1, .ctrl, .health, .sent] L = true) (h : OnlyIn L a d) :
    OnlyIn L a (takeConsent p f d) := by
  refine OnlyIn.widen hL h ?_
  have h0 := OnlyIn.refl [.host, .v0, .v1, .ctrl, .health, .sent] d
  unfold takeConsent
  repeat' (first
    | with_reducible assumption | ((with_reducible refine Part.subI ?_); exact rfl) | exact Or.inl rfl
    | exact Or.inr rfl | intro _
    | (extract_lets +onlyGivenNames -underBinder dd; (subst dd))
    | ((conv => (arg 3; arg 23; skip)); with_reducible apply OnlyIn.mk') | with_reducible apply rejectFrame_only
    | split)

theorem takeHeartbeat_only {L : List Part} {a : Dev} (p : Nat) (f : CtrlFrame) {d : Dev} (hL : Part.sub [.v0, .v1] L
    = true) (h : OnlyIn L a d) :
    OnlyIn L a (takeHeartbeat p f d) := by
  refine OnlyIn.widen hL h ?_
  have h0 := OnlyIn.refl [.v0, .v1] d
  unfold takeHeartbeat
  repeat' (first
    | with_reducible assumption | ((with_reducible refine Part.subI ?_); exact rfl) | exact Or.inl rfl
    | exact Or.inr rfl | intro _
    | (extract_lets +onlyGivenNames -underBinder dd; (subst dd))
    | with_reducible apply Dev_setVport_only)

theorem controllerFrame_only {L : List Part} {a : Dev} (port : Fin 2) (f : CtrlFrame) (take : Nat → CtrlFrame → Dev →
    Dev) {d : Dev}
    (hL : Part.sub [.host, .v0, .v1, .ctrl, .health, .sent] L = true) (htake : ∀ n f d, OnlyIn L a d → OnlyIn L a
        (take n f d)) (h : OnlyIn L a d) :
    OnlyIn L a (controllerFrame port f take d) := by
  unfold controllerFrame
  split
  · exact h
  · split
    · exact (OnlyIn.widen hL h (rejectFrame_only _ _ rfl (OnlyIn.refl _ _)))
    · exact htake _ _ _ (OnlyIn.widen hL h (acceptFrame_only _ _ rfl (OnlyIn.refl _ _)))

theorem modeRequest_only {L : List Part} {a : Dev} (port : Fin 2) (f : CtrlFrame) {d : Dev} (hL : Part.sub [.plan,
    .host, .v0, .v1, .ctrl, .health, .sent] L = true) (h : OnlyIn L a d) :
    OnlyIn L a (modeRequest port f d) := by
  refine OnlyIn.widen hL h ?_
  have h0 := OnlyIn.refl [.plan, .host, .v0, .v1, .ctrl, .health, .sent] d
  unfold modeRequest
  repeat' (first
    | with_reducible assumption | ((with_reducible refine Part.subI ?_); exact rfl) | exact Or.inl rfl
    | exact Or.inr rfl | intro _ | with_reducible apply controllerFrame_only
    | with_reducible apply takeModeRequest_only | split)

theorem warmStartConsent_only {L : List Part} {a : Dev} (port : Fin 2) (f : CtrlFrame) {d : Dev} (hL : Part.sub
    [.host, .v0, .v1, .ctrl, .health, .sent] L = true) (h : OnlyIn L a d) :
    OnlyIn L a (warmStartConsent port f d) := by
  refine OnlyIn.widen hL h ?_
  have h0 := OnlyIn.refl [.host, .v0, .v1, .ctrl, .health, .sent] d
  unfold warmStartConsent
  repeat' (first
    | with_reducible assumption | ((with_reducible refine Part.subI ?_); exact rfl) | exact Or.inl rfl
    | exact Or.inr rfl | intro _ | with_reducible apply controllerFrame_only | with_reducible apply takeConsent_only
    | split)

theorem controllerHeartbeat_only {L : List Part} {a : Dev} (port : Fin 2) (f : CtrlFrame) {d : Dev} (hL : Part.sub
    [.host, .v0, .v1, .ctrl, .health, .sent] L = true) (h : OnlyIn L a d) :
    OnlyIn L a (controllerHeartbeat port f d) := by
  refine OnlyIn.widen hL h ?_
  have h0 := OnlyIn.refl [.host, .v0, .v1, .ctrl, .health, .sent] d
  unfold controllerHeartbeat
  repeat' (first
    | with_reducible assumption | ((with_reducible refine Part.subI ?_); exact rfl) | exact Or.inl rfl
    | exact Or.inr rfl | intro _ | with_reducible apply controllerFrame_only
    | with_reducible apply takeHeartbeat_only | split)

theorem unacceptedControllerFrame_only {L : List Part} {a : Dev} (port : Fin 2) (f : CtrlFrame) {d : Dev} (hL :
    Part.sub [.host, .v0, .v1, .health, .sent] L = true) (h : OnlyIn L a d) :
    OnlyIn L a (unacceptedControllerFrame port f d) := by
  refine OnlyIn.widen hL h ?_
  have h0 := OnlyIn.refl [.host, .v0, .v1, .health, .sent] d
  unfold unacceptedControllerFrame
  repeat' (first
    | with_reducible assumption | ((with_reducible refine Part.subI ?_); exact rfl) | exact Or.inl rfl
    | exact Or.inr rfl | intro _ | with_reducible apply rejectFrame_only | split)

theorem ctrlSilenceTimeout_only {L : List Part} {a : Dev} {d : Dev} (hL : Part.sub [.plan, .host, .felt, .ctrl,
    .health, .sent] L = true) (h : OnlyIn L a d) :
    OnlyIn L a (ctrlSilenceTimeout d) := by
  refine OnlyIn.widen hL h ?_
  have h0 := OnlyIn.refl [.plan, .host, .felt, .ctrl, .health, .sent] d
  unfold ctrlSilenceTimeout
  repeat' (first
    | with_reducible assumption | ((with_reducible refine Part.subI ?_); exact rfl) | exact Or.inl rfl
    | exact Or.inr rfl | intro _
    | (extract_lets +onlyGivenNames -underBinder dd; (subst dd))
    | ((conv => (arg 3; arg 23; skip)); with_reducible apply OnlyIn.mk') | with_reducible apply cancelSwitch_only
    | split)

theorem consentExpiry_only {L : List Part} {a : Dev} {d : Dev} (hL : Part.sub [.ctrl] L = true) (h : OnlyIn L a d) :
    OnlyIn L a (consentExpiry d) := by
  refine OnlyIn.widen hL h ?_
  have h0 := OnlyIn.refl [.ctrl] d
  unfold consentExpiry
  repeat' (first
    | with_reducible assumption | exact Or.inl rfl | exact Or.inr rfl | intro _
    | (extract_lets +onlyGivenNames -underBinder dd; (subst dd))
    | ((conv => (arg 3; arg 23; skip)); with_reducible apply OnlyIn.mk') | split)

theorem vlinkFrameDone_only {L : List Part} {a : Dev} (port : Fin 2) {d : Dev} (hL : Part.sub [.host, .v0, .v1,
    .health, .sent] L = true) (h : OnlyIn L a d) :
    OnlyIn L a (vlinkFrameDone port d) := by
  refine OnlyIn.widen hL h ?_
  have h0 := OnlyIn.refl [.host, .v0, .v1, .health, .sent] d
  unfold vlinkFrameDone
  repeat' (first
    | with_reducible assumption | ((with_reducible refine Part.subI ?_); exact rfl) | exact Or.inl rfl
    | exact Or.inr rfl | intro _
    | (extract_lets +onlyGivenNames -underBinder dd; (subst dd))
    | with_reducible apply startFrame_only | with_reducible apply Dev_setVport_only | split)

theorem vlinkLinkDown_only {L : List Part} {a : Dev} (port : Fin 2) {d : Dev} (hL : Part.sub [.time, .host, .v0, .v1,
    .felt, .boot, .health, .sent] L = true) (h : OnlyIn L a d) :
    OnlyIn L a (vlinkLinkDown port d) := by
  refine OnlyIn.widen hL h ?_
  have h0 := OnlyIn.refl [.time, .host, .v0, .v1, .felt, .boot, .health, .sent] d
  unfold vlinkLinkDown
  repeat' (first
    | with_reducible assumption | ((with_reducible refine Part.subI ?_); exact rfl) | exact Or.inl rfl
    | exact Or.inr rfl | intro _
    | (extract_lets +onlyGivenNames -underBinder dd; (subst dd))
    | ((conv => (arg 3; arg 23; skip)); with_reducible apply OnlyIn.mk') | with_reducible apply Dev_setVport_only
    | with_reducible apply satEvent_only | with_reducible apply conditionEvent_only
    | with_reducible apply loseVehicleTime_only | with_reducible apply raiseIod_only | split)

theorem vlinkLinkUp_only {L : List Part} {a : Dev} (port : Fin 2) {d : Dev} (hL : Part.sub [.v0, .v1, .felt] L =
    true) (h : OnlyIn L a d) :
    OnlyIn L a (vlinkLinkUp port d) := by
  refine OnlyIn.widen hL h ?_
  have h0 := OnlyIn.refl [.v0, .v1, .felt] d
  unfold vlinkLinkUp
  repeat' (first
    | with_reducible assumption | ((with_reducible refine Part.subI ?_); exact rfl) | exact Or.inl rfl
    | exact Or.inr rfl | intro _
    | (extract_lets +onlyGivenNames -underBinder dd; (subst dd))
    | with_reducible apply endConditions_only | with_reducible apply Dev_setVport_only | split)

/-! ### Reset -/

theorem pulseNvReset_only {L : List Part} {a : Dev} {d : Dev} (hL : Part.sub [.sent] L = true) (h : OnlyIn L a d) :
    OnlyIn L a (pulseNvReset d) := by
  refine OnlyIn.widen hL h ?_
  have h0 := OnlyIn.refl [.sent] d
  unfold pulseNvReset
  repeat' (first
    | with_reducible assumption | ((with_reducible refine Part.subI ?_); exact rfl) | exact Or.inl rfl
    | exact Or.inr rfl | intro _ | with_reducible apply emit_only)

theorem fullReset_only {L : List Part} {a : Dev} (hint : Option Slot) {d : Dev} (hL : Part.sub Part.all L = true) (h
    : OnlyIn L a d) :
    OnlyIn L a (fullReset hint d) := by
  exact OnlyIn.of_all hL

theorem railOutAtRelease_only {L : List Part} {a : Dev} (x : Nat) {d : Dev} (hL : Part.sub [.health] L = true) (h :
    OnlyIn L a d) :
    OnlyIn L a (railOutAtRelease d x) := by
  refine OnlyIn.widen hL h ?_
  have h0 := OnlyIn.refl [.health] d
  unfold railOutAtRelease
  repeat' (first
    | with_reducible assumption | ((with_reducible refine Part.subI ?_); exact rfl) | exact Or.inl rfl
    | exact Or.inr rfl | intro _
    | (extract_lets +onlyGivenNames -underBinder dd; (subst dd))
    | ((conv => (arg 3; arg 23; skip)); with_reducible apply OnlyIn.mk') | with_reducible apply Dev_setThermal_only)

theorem powerOnReset_only {L : List Part} {a : Dev} (strapNvProfile : Bool) (strapTest0 : Bool) (strapTest1 : Bool)
    (vddOut : List (Fin 4)) {d : Dev} (hL : Part.sub Part.all L = true) (h : OnlyIn L a d) :
    OnlyIn L a (powerOnReset strapNvProfile strapTest0 strapTest1 vddOut d) := by
  exact OnlyIn.of_all hL

theorem deviceReset_only {L : List Part} {a : Dev} {d : Dev} (hL : Part.sub Part.all L = true) (h : OnlyIn L a d) :
    OnlyIn L a (deviceReset d) := by
  exact OnlyIn.of_all hL

theorem porstNAsserted_only {L : List Part} {a : Dev} {d : Dev} (hL : Part.sub [.felt, .boot, .sent] L = true) (h :
    OnlyIn L a d) :
    OnlyIn L a (porstNAsserted d) := by
  refine OnlyIn.widen hL h ?_
  have h0 := OnlyIn.refl [.felt, .boot, .sent] d
  unfold porstNAsserted
  repeat' (first
    | with_reducible assumption | ((with_reducible refine Part.subI ?_); exact rfl) | exact Or.inl rfl
    | exact Or.inr rfl | intro _
    | (extract_lets +onlyGivenNames -underBinder dd; (subst dd))
    | ((conv => (arg 3; arg 23; skip)); with_reducible apply OnlyIn.mk') | with_reducible apply pulseNvReset_only
    | split)

theorem healthDeadline_only {L : List Part} {a : Dev} {d : Dev} (hL : Part.sub Part.all L = true) (h : OnlyIn L a d) :
    OnlyIn L a (healthDeadline d) := by
  exact OnlyIn.of_all hL

/-! ### Health -/

theorem excludeSensor_only {L : List Part} {a : Dev} (x : Nat) (n : Nat) {d : Dev} (hL : Part.sub [.host, .health,
    .sent] L = true) (h : OnlyIn L a d) :
    OnlyIn L a (excludeSensor x n d) := by
  refine OnlyIn.widen hL h ?_
  have h0 := OnlyIn.refl [.host, .health, .sent] d
  unfold excludeSensor
  repeat' (first
    | with_reducible assumption | ((with_reducible refine Part.subI ?_); exact rfl) | exact Or.inl rfl
    | exact Or.inr rfl | intro _
    | (extract_lets +onlyGivenNames -underBinder dd; (subst dd))
    | with_reducible apply healthEvent_only | with_reducible apply Dev_setThermal_only)

theorem thermalEvent_only {L : List Part} {a : Dev} (x : Nat) (th : Nat) (tj : Int) (crossed : Bool) {d : Dev} (hL :
    Part.sub [.host, .health, .sent] L = true) (h : OnlyIn L a d) :
    OnlyIn L a (thermalEvent x th tj crossed d) := by
  refine OnlyIn.widen hL h ?_
  have h0 := OnlyIn.refl [.host, .health, .sent] d
  unfold thermalEvent
  repeat' (first
    | with_reducible assumption | ((with_reducible refine Part.subI ?_); exact rfl) | exact Or.inl rfl
    | exact Or.inr rfl | intro _ | with_reducible apply healthEvent_only)

theorem missOnDie_only {L : List Part} {a : Dev} (x : Nat) {d : Dev} (hL : Part.sub [.chambray, .fabric, .plan,
    .host, .v0, .v1, .felt, .boot, .health, .sent] L = true) (h : OnlyIn L a d) :
    OnlyIn L a (missOnDie x d) := by
  refine OnlyIn.widen hL h ?_
  have h0 := OnlyIn.refl [.chambray, .fabric, .plan, .host, .v0, .v1, .felt, .boot, .health, .sent] d
  unfold missOnDie
  repeat' (first
    | with_reducible assumption | ((with_reducible refine Part.subI ?_); exact rfl) | exact Or.inl rfl
    | exact Or.inr rfl | intro _
    | (extract_lets +onlyGivenNames -underBinder dd; (subst dd))
    | with_reducible apply miss_only | with_reducible apply OnlyIn.foldl | with_reducible apply OnlyIn.foldlSnd
    | split)

theorem halveClock_only {L : List Part} {a : Dev} (x : Nat) (temp : Bool) {d : Dev} (hL : Part.sub [.chambray,
    .fabric, .plan, .host, .v0, .v1, .felt, .boot, .health, .sent] L = true) (h : OnlyIn L a d) :
    OnlyIn L a (halveClock x temp d) := by
  refine OnlyIn.widen hL h ?_
  have h0 := OnlyIn.refl [.chambray, .fabric, .plan, .host, .v0, .v1, .felt, .boot, .health, .sent] d
  unfold halveClock
  repeat' (first
    | with_reducible assumption | ((with_reducible refine Part.subI ?_); exact rfl) | exact Or.inl rfl
    | exact Or.inr rfl | intro _
    | (extract_lets +onlyGivenNames -underBinder dd; (subst dd))
    | ((conv => (arg 3; arg 23; skip)); with_reducible apply OnlyIn.mk') | with_reducible apply Dev_setThermal_only
    | with_reducible apply missOnDie_only | with_reducible apply satEvent_only | split)

theorem removePower_only {L : List Part} {a : Dev} (x : Nat) (temp : Bool) {d : Dev} (hL : Part.sub [.tweed,
    .chambray, .fabric, .plan, .damask, .host, .v0, .v1, .felt, .boot, .recovery, .health, .mem, .sent] L = true) (h
    : OnlyIn L a d) :
    OnlyIn L a (removePower x temp d) := by
  refine OnlyIn.widen hL h ?_
  have h0 := OnlyIn.refl [.tweed, .chambray, .fabric, .plan, .damask, .host, .v0, .v1, .felt, .boot, .recovery,
      .health, .mem, .sent] d
  unfold removePower
  repeat' (first
    | with_reducible assumption | ((with_reducible refine Part.subI ?_); exact rfl) | exact Or.inl rfl
    | exact Or.inr rfl | intro _
    | (extract_lets +onlyGivenNames -underBinder dd; (subst dd))
    | ((conv => (arg 3; arg 23; skip)); with_reducible apply OnlyIn.mk') | with_reducible apply Dev_setThermal_only
    | with_reducible apply satEvent_only | with_reducible apply missOnDie_only | with_reducible apply Dev_setDie_only
    | with_reducible apply setUnitState_only | with_reducible apply resetCluster_only
    | with_reducible apply emptyMemorySide_only | with_reducible apply OnlyIn.foldl
    | with_reducible apply OnlyIn.foldlSnd | split)

theorem restoreDie_only {L : List Part} {a : Dev} (x : Nat) {d : Dev} (hL : Part.sub [.host, .recovery, .health,
    .sent] L = true) (h : OnlyIn L a d) :
    OnlyIn L a (restoreDie x d) := by
  refine OnlyIn.widen hL h ?_
  have h0 := OnlyIn.refl [.host, .recovery, .health, .sent] d
  unfold restoreDie
  repeat' (first
    | with_reducible assumption | ((with_reducible refine Part.subI ?_); exact rfl) | exact Or.inl rfl
    | exact Or.inr rfl | intro _
    | (extract_lets +onlyGivenNames -underBinder dd; (subst dd))
    | with_reducible apply Dev_setDie_only | with_reducible apply satEvent_only | split)

theorem actOnDie_only {L : List Part} {a : Dev} (x : Nat) (tj : Int) {d : Dev} (hL : Part.sub [.tweed, .chambray,
    .fabric, .plan, .damask, .host, .v0, .v1, .felt, .boot, .recovery, .health, .mem, .sent] L = true) (h : OnlyIn L
    a d) :
    OnlyIn L a (actOnDie x tj d) := by
  refine OnlyIn.widen hL h ?_
  have h0 := OnlyIn.refl [.tweed, .chambray, .fabric, .plan, .damask, .host, .v0, .v1, .felt, .boot, .recovery,
      .health, .mem, .sent] d
  unfold actOnDie
  repeat' (first
    | with_reducible assumption | ((with_reducible refine Part.subI ?_); exact rfl) | exact Or.inl rfl
    | exact Or.inr rfl | intro _
    | (extract_lets +onlyGivenNames -underBinder dd; (subst dd))
    | with_reducible apply Dev_setThermal_only | with_reducible apply removePower_only
    | with_reducible apply raiseH_only | with_reducible apply thermalEvent_only
    | with_reducible apply halveClock_only | split)

theorem thermTrip_only {L : List Part} {a : Dev} {d : Dev} (hL : Part.sub Part.all L = true) (h : OnlyIn L a d) :
    OnlyIn L a (thermTrip d) := by
  exact OnlyIn.of_all hL

theorem actOnIod_only {L : List Part} {a : Dev} (tj : Int) {d : Dev} (hL : Part.sub Part.all L = true) (h : OnlyIn L
    a d) :
    OnlyIn L a (actOnIod tj d) := by
  exact OnlyIn.of_all hL

theorem noteTj_only {L : List Part} {a : Dev} (x : Nat) (tj : Int) {d : Dev} (hL : Part.sub [.felt, .health] L =
    true) (h : OnlyIn L a d) :
    OnlyIn L a (noteTj x tj d) := by
  refine OnlyIn.widen hL h ?_
  have h0 := OnlyIn.refl [.felt, .health] d
  unfold noteTj
  repeat' (first
    | with_reducible assumption | ((with_reducible refine Part.subI ?_); exact rfl) | exact Or.inl rfl
    | exact Or.inr rfl | intro _
    | (extract_lets +onlyGivenNames -underBinder dd; (subst dd))
    | ((conv => (arg 3; arg 23; skip)); with_reducible apply OnlyIn.mk') | with_reducible apply Dev_setThermal_only)

theorem noSensors_only {L : List Part} {a : Dev} (x : Nat) {d : Dev} (hL : Part.sub [.tweed, .chambray, .fabric,
    .plan, .damask, .host, .v0, .v1, .felt, .boot, .recovery, .health, .mem, .sent] L = true) (h : OnlyIn L a d) :
    OnlyIn L a (noSensors x d) := by
  refine OnlyIn.widen hL h ?_
  have h0 := OnlyIn.refl [.tweed, .chambray, .fabric, .plan, .damask, .host, .v0, .v1, .felt, .boot, .recovery,
      .health, .mem, .sent] d
  unfold noSensors
  repeat' (first
    | with_reducible assumption | ((with_reducible refine Part.subI ?_); exact rfl) | exact Or.inl rfl
    | exact Or.inr rfl | intro _
    | (extract_lets +onlyGivenNames -underBinder dd; (subst dd))
    | with_reducible apply Dev_setThermal_only | with_reducible apply actOnDie_only
    | with_reducible apply raiseV_only | split)

theorem tempSample_only {L : List Part} {a : Dev} (die : Die) (sensors : List Int) {d : Dev} (hL : Part.sub Part.all
    L = true) (h : OnlyIn L a d) :
    OnlyIn L a (tempSample die sensors d) := by
  exact OnlyIn.of_all hL

theorem thermalRestoreTimer_only {L : List Part} {a : Dev} (die : Die) {d : Dev} (hL : Part.sub [.host, .recovery,
    .health, .sent] L = true) (h : OnlyIn L a d) :
    OnlyIn L a (thermalRestoreTimer die d) := by
  refine OnlyIn.widen hL h ?_
  have h0 := OnlyIn.refl [.host, .recovery, .health, .sent] d
  unfold thermalRestoreTimer
  repeat' (first
    | with_reducible assumption | ((with_reducible refine Part.subI ?_); exact rfl) | exact Or.inl rfl
    | exact Or.inr rfl | intro _
    | (extract_lets +onlyGivenNames -underBinder dd; (subst dd))
    | with_reducible apply thermalEvent_only | with_reducible apply Dev_setThermal_only
    | with_reducible apply restoreDie_only | split)

theorem restoreClock_only {L : List Part} {a : Dev} (x : Nat) {d : Dev} (hL : Part.sub [.health] L = true) (h :
    OnlyIn L a d) :
    OnlyIn L a (restoreClock d x) := by
  refine OnlyIn.widen hL h ?_
  have h0 := OnlyIn.refl [.health] d
  unfold restoreClock
  repeat' (first
    | with_reducible assumption | ((with_reducible refine Part.subI ?_); exact rfl) | exact Or.inl rfl
    | exact Or.inr rfl | intro _
    | (extract_lets +onlyGivenNames -underBinder dd; (subst dd))
    | with_reducible apply Dev_setThermal_only | split)

theorem restoreClocks_only {L : List Part} {a : Dev} {d : Dev} (hL : Part.sub [.health] L = true) (h : OnlyIn L a d) :
    OnlyIn L a (restoreClocks d) := by
  refine OnlyIn.widen hL h ?_
  have h0 := OnlyIn.refl [.health] d
  unfold restoreClocks
  repeat' (first
    | with_reducible assumption | ((with_reducible refine Part.subI ?_); exact rfl) | exact Or.inl rfl
    | exact Or.inr rfl | intro _ | with_reducible apply restoreClock_only | with_reducible apply OnlyIn.foldl)

theorem Dev_setRail_only {L : List Part} {a : Dev} (r : Nat) (x : RailState) {d : Dev} (hL : Part.sub [.health] L =
    true) (h : OnlyIn L a d) :
    OnlyIn L a (Dev.setRail d r x) := by
  refine OnlyIn.widen hL h ?_
  have h0 := OnlyIn.refl [.health] d
  unfold Dev.setRail
  repeat' (first
    | with_reducible assumption | exact Or.inl rfl | exact Or.inr rfl | intro _
    | (extract_lets +onlyGivenNames -underBinder dd; (subst dd))
    | ((conv => (arg 3; arg 23; skip)); with_reducible apply OnlyIn.mk'))

theorem railEvent_only {L : List Part} {a : Dev} (r : Nat) (mv : Nat) (current : Nat) {d : Dev} (hL : Part.sub
    [.host, .health, .sent] L = true) (h : OnlyIn L a d) :
    OnlyIn L a (railEvent r mv current d) := by
  refine OnlyIn.widen hL h ?_
  have h0 := OnlyIn.refl [.host, .health, .sent] d
  unfold railEvent
  repeat' (first
    | with_reducible assumption | ((with_reducible refine Part.subI ?_); exact rfl) | exact Or.inl rfl
    | exact Or.inr rfl | intro _ | with_reducible apply healthEvent_only)

theorem railExcursion_only {L : List Part} {a : Dev} (rail : Fin 14) (mv : Nat) (current : Nat) {d : Dev} (hL :
    Part.sub [.tweed, .chambray, .fabric, .plan, .damask, .host, .v0, .v1, .felt, .boot, .recovery, .health, .mem,
    .sent] L = true) (h : OnlyIn L a d) :
    OnlyIn L a (railExcursion rail mv current d) := by
  refine OnlyIn.widen hL h ?_
  have h0 := OnlyIn.refl [.tweed, .chambray, .fabric, .plan, .damask, .host, .v0, .v1, .felt, .boot, .recovery,
      .health, .mem, .sent] d
  unfold railExcursion
  repeat' (first
    | with_reducible assumption | ((with_reducible refine Part.subI ?_); exact rfl) | exact Or.inl rfl
    | exact Or.inr rfl | intro _
    | (extract_lets +onlyGivenNames -underBinder dd; (subst dd))
    | ((conv => (arg 3; arg 23; skip)); with_reducible apply OnlyIn.mk') | with_reducible apply satEvent_only
    | with_reducible apply railEvent_only | with_reducible apply Dev_setRail_only
    | with_reducible apply removePower_only | with_reducible apply raiseH_only | with_reducible apply raiseV_only
    | split)

theorem railOvercurrent_only {L : List Part} {a : Dev} (rail : Fin 4) (current : Nat) {d : Dev} (hL : Part.sub
    [.chambray, .fabric, .plan, .host, .v0, .v1, .felt, .boot, .health, .sent] L = true) (h : OnlyIn L a d) :
    OnlyIn L a (railOvercurrent rail current d) := by
  refine OnlyIn.widen hL h ?_
  have h0 := OnlyIn.refl [.chambray, .fabric, .plan, .host, .v0, .v1, .felt, .boot, .health, .sent] d
  unfold railOvercurrent
  repeat' (first
    | with_reducible assumption | ((with_reducible refine Part.subI ?_); exact rfl) | exact Or.inl rfl
    | exact Or.inr rfl | intro _
    | (extract_lets +onlyGivenNames -underBinder dd; (subst dd))
    | with_reducible apply Dev_setThermal_only | with_reducible apply halveClock_only
    | with_reducible apply raiseH_only | with_reducible apply Dev_setRail_only | split)

theorem restoreRail_only {L : List Part} {a : Dev} (r : Nat) (mv : Nat) (current : Nat) {d : Dev} (hL : Part.sub
    [.host, .felt, .recovery, .health, .sent] L = true) (h : OnlyIn L a d) :
    OnlyIn L a (restoreRail r mv current d) := by
  refine OnlyIn.widen hL h ?_
  have h0 := OnlyIn.refl [.host, .felt, .recovery, .health, .sent] d
  unfold restoreRail
  repeat' (first
    | with_reducible assumption | ((with_reducible refine Part.subI ?_); exact rfl) | exact Or.inl rfl
    | exact Or.inr rfl | intro _
    | (extract_lets +onlyGivenNames -underBinder dd; (subst dd))
    | with_reducible apply railEvent_only | with_reducible apply Dev_setRail_only
    | with_reducible apply Dev_setThermal_only | with_reducible apply restoreDie_only
    | with_reducible apply endCondition_only | split)

theorem railRestoreTimer_only {L : List Part} {a : Dev} (rail : Fin 14) (ofCurrent : Bool) (mv : Nat) (current : Nat)
    {d : Dev} (hL : Part.sub [.host, .felt, .recovery, .health, .sent] L = true) (h : OnlyIn L a d) :
    OnlyIn L a (railRestoreTimer rail ofCurrent mv current d) := by
  refine OnlyIn.widen hL h ?_
  have h0 := OnlyIn.refl [.host, .felt, .recovery, .health, .sent] d
  unfold railRestoreTimer
  repeat' (first
    | with_reducible assumption | ((with_reducible refine Part.subI ?_); exact rfl) | exact Or.inl rfl
    | exact Or.inr rfl | intro _
    | (extract_lets +onlyGivenNames -underBinder dd; (subst dd))
    | with_reducible apply Dev_setRail_only | with_reducible apply Dev_setThermal_only
    | with_reducible apply restoreRail_only | split)

theorem vddXUndervoltageTimer_only {L : List Part} {a : Dev} {d : Dev} (hL : Part.sub Part.all L = true) (h : OnlyIn
    L a d) :
    OnlyIn L a (vddXUndervoltageTimer d) := by
  exact OnlyIn.of_all hL

theorem memoryRailResetTimer_only {L : List Part} {a : Dev} {d : Dev} (hL : Part.sub Part.all L = true) (h : OnlyIn L
    a d) :
    OnlyIn L a (memoryRailResetTimer d) := by
  exact OnlyIn.of_all hL

theorem limitWrite_only {L : List Part} {a : Dev} (limit : Limit) (value : Nat) {d : Dev} (hL : Part.sub [.host,
    .boot, .health, .sent] L = true) (h : OnlyIn L a d) :
    OnlyIn L a (limitWrite limit value d) := by
  refine OnlyIn.widen hL h ?_
  have h0 := OnlyIn.refl [.host, .boot, .health, .sent] d
  unfold limitWrite
  repeat' (first
    | with_reducible assumption | ((with_reducible refine Part.subI ?_); exact rfl) | exact Or.inl rfl
    | exact Or.inr rfl | intro _
    | (extract_lets +onlyGivenNames -underBinder dd; (subst dd))
    | with_reducible apply Dev_setThermal_only | with_reducible apply Dev_setRail_only
    | with_reducible apply healthEvent_only | with_reducible apply logWrite_only | split)

theorem emEstimatorSample_only {L : List Part} {a : Dev} (rail : Fin 14) (current : Nat) (temp : Int) {d : Dev} (hL :
    Part.sub [.health] L = true) (h : OnlyIn L a d) :
    OnlyIn L a (emEstimatorSample rail current temp d) := by
  refine OnlyIn.widen hL h ?_
  have h0 := OnlyIn.refl [.health] d
  unfold emEstimatorSample
  repeat' (first
    | with_reducible assumption | ((with_reducible refine Part.subI ?_); exact rfl) | exact Or.inl rfl
    | exact Or.inr rfl | intro _
    | (extract_lets +onlyGivenNames -underBinder dd; (subst dd))
    | with_reducible apply Dev_setRail_only)

theorem eyeMarginSample_only {L : List Part} {a : Dev} (link : EyeLink) (margin : Nat) {d : Dev} (hL : Part.sub
    [.ports, .v0, .v1, .health] L = true) (h : OnlyIn L a d) :
    OnlyIn L a (eyeMarginSample link margin d) := by
  refine OnlyIn.widen hL h ?_
  have h0 := OnlyIn.refl [.ports, .v0, .v1, .health] d
  unfold eyeMarginSample
  repeat' (first
    | with_reducible assumption | ((with_reducible refine Part.subI ?_); exact rfl) | exact Or.inl rfl
    | exact Or.inr rfl | intro _
    | (extract_lets +onlyGivenNames -underBinder dd; (subst dd))
    | ((conv => (arg 3; arg 23; skip)); with_reducible apply OnlyIn.mk') | with_reducible apply Dev_setCamera_only
    | with_reducible apply Dev_setLidar_only | with_reducible apply Dev_setVport_only | split)

theorem canaryFailure_only {L : List Part} {a : Dev} (cl : Fin 132) {d : Dev} (hL : Part.sub [.health] L = true) (h :
    OnlyIn L a d) :
    OnlyIn L a (canaryFailure cl d) := by
  refine OnlyIn.widen hL h ?_
  have h0 := OnlyIn.refl [.health] d
  unfold canaryFailure
  repeat' (first
    | with_reducible assumption | exact Or.inl rfl | exact Or.inr rfl | intro _
    | (extract_lets +onlyGivenNames -underBinder dd; (subst dd))
    | ((conv => (arg 3; arg 23; skip)); with_reducible apply OnlyIn.mk'))

theorem writeWear_only {L : List Part} {a : Dev} {d : Dev} (hL : Part.sub [.boot, .health, .sent] L = true) (h :
    OnlyIn L a d) :
    OnlyIn L a (writeWear d) := by
  refine OnlyIn.widen hL h ?_
  have h0 := OnlyIn.refl [.boot, .health, .sent] d
  unfold writeWear
  repeat' (first
    | with_reducible assumption | ((with_reducible refine Part.subI ?_); exact rfl) | exact Or.inl rfl
    | exact Or.inr rfl | intro _
    | (extract_lets +onlyGivenNames -underBinder dd; (subst dd))
    | ((conv => (arg 3; arg 23; skip)); with_reducible apply OnlyIn.mk') | with_reducible apply emit_only)

theorem wearRecordWrite_only {L : List Part} {a : Dev} {d : Dev} (hL : Part.sub [.boot, .health, .sent] L = true) (h
    : OnlyIn L a d) :
    OnlyIn L a (wearRecordWrite d) := by
  refine OnlyIn.widen hL h ?_
  have h0 := OnlyIn.refl [.boot, .health, .sent] d
  unfold wearRecordWrite
  repeat' (first
    | with_reducible assumption | ((with_reducible refine Part.subI ?_); exact rfl) | exact Or.inl rfl
    | exact Or.inr rfl | intro _ | with_reducible apply writeWear_only | split)

theorem restoreWear_only {L : List Part} {a : Dev} {d : Dev} (hL : Part.sub [.host, .health, .sent] L = true) (h :
    OnlyIn L a d) :
    OnlyIn L a (restoreWear d) := by
  refine OnlyIn.widen hL h ?_
  have h0 := OnlyIn.refl [.host, .health, .sent] d
  unfold restoreWear
  repeat' (first
    | with_reducible assumption | ((with_reducible refine Part.subI ?_); exact rfl) | exact Or.inl rfl
    | exact Or.inr rfl | intro _
    | (extract_lets +onlyGivenNames -underBinder dd; (subst dd))
    | ((conv => (arg 3; arg 23; skip)); with_reducible apply OnlyIn.mk') | with_reducible apply healthEvent_only
    | with_reducible apply OnlyIn.foldl | with_reducible apply OnlyIn.foldlSnd | split)

theorem trend_only {L : List Part} {a : Dev} (die : Nat) (unit : Nat) (what : Nat) (value : Nat) {d : Dev} (hL :
    Part.sub [.host, .health, .sent] L = true) (h : OnlyIn L a d) :
    OnlyIn L a (trend die unit what value d) := by
  refine OnlyIn.widen hL h ?_
  have h0 := OnlyIn.refl [.host, .health, .sent] d
  unfold trend
  repeat' (first
    | with_reducible assumption | ((with_reducible refine Part.subI ?_); exact rfl) | exact Or.inl rfl
    | exact Or.inr rfl | intro _ | with_reducible apply healthEvent_only)

theorem trends_only {L : List Part} {a : Dev} (ddrM0 : Nat) (ddrM1 : Nat) {d : Dev} (hL : Part.sub [.host, .health,
    .sent] L = true) (h : OnlyIn L a d) :
    OnlyIn L a (trends ddrM0 ddrM1 d) := by
  refine OnlyIn.widen hL h ?_
  have h0 := OnlyIn.refl [.host, .health, .sent] d
  unfold trends
  repeat' (first
    | with_reducible assumption | ((with_reducible refine Part.subI ?_); exact rfl) | exact Or.inl rfl
    | exact Or.inr rfl | intro _
    | (extract_lets +onlyGivenNames -underBinder dd; (subst dd))
    | ((conv => (arg 3; arg 23; skip)); with_reducible apply OnlyIn.mk') | with_reducible apply trend_only
    | with_reducible apply OnlyIn.foldl | with_reducible apply OnlyIn.foldlSnd | split)

theorem lifePrediction_only {L : List Part} {a : Dev} (ddrM0 : Nat) (ddrM1 : Nat) {d : Dev} (hL : Part.sub [.host,
    .boot, .health, .sent] L = true) (h : OnlyIn L a d) :
    OnlyIn L a (lifePrediction ddrM0 ddrM1 d) := by
  refine OnlyIn.widen hL h ?_
  have h0 := OnlyIn.refl [.host, .boot, .health, .sent] d
  unfold lifePrediction
  repeat' (first
    | with_reducible assumption | ((with_reducible refine Part.subI ?_); exact rfl) | exact Or.inl rfl
    | exact Or.inr rfl | intro _
    | (extract_lets +onlyGivenNames -underBinder dd; (subst dd))
    | ((conv => (arg 3; arg 23; skip)); with_reducible apply OnlyIn.mk') | with_reducible apply satEvent_only
    | with_reducible apply healthEvent_only | with_reducible apply trends_only | with_reducible apply writeWear_only
    | split)

end Sys2Proof.Machine
end

