-- ==== Sys2Proof/Laws/OnlySensors.lean ====
section
/-!
SUPPORT. The parts of the device that the operations of the sensor ports may change
(Sys2Proof/Laws/Only.lean): one lemma for each.
-/

set_option linter.unusedVariables false

namespace Sys2Proof.Machine

open Sys2Proof

/-! ### Percale -/

theorem writeLevel_only {L : List Part} {a : Dev} (r : RawFrame) (rows : List Nat) (t : Tensor) (level : Nat) (first
    : Nat) (count : Nat) {d : Dev} (hL : Part.sub [.mem] L = true) (h : OnlyIn L a d) :
    OnlyIn L a (writeLevel r rows t level first count d) := by
  refine OnlyIn.widen hL h ?_
  have h0 := OnlyIn.refl [.mem] d
  unfold writeLevel
  repeat' (first
    | with_reducible assumption | ((with_reducible refine Part.subI ?_); exact rfl) | exact Or.inl rfl
    | exact Or.inr rfl | intro _ | with_reducible apply setElem_only | with_reducible apply OnlyIn.foldl)

/-! ### Camera -/

theorem modCamera_only {L : List Part} {a : Dev} (c : Nat) (f : CameraState → CameraState) {d : Dev} (hL : Part.sub
    [.ports] L = true) (h : OnlyIn L a d) :
    OnlyIn L a (modCamera c f d) := by
  refine OnlyIn.widen hL h ?_
  have h0 := OnlyIn.refl [.ports] d
  unfold modCamera
  repeat' (first
    | with_reducible assumption | ((with_reducible refine Part.subI ?_); exact rfl) | exact Or.inl rfl
    | exact Or.inr rfl | intro _ | with_reducible apply Dev_setCamera_only)

theorem armTriggers_only {L : List Part} {a : Dev} (k : Nat) (e : Nat × StreamEntry) {d : Dev} (hL : Part.sub
    [.ports] L = true) (h : OnlyIn L a d) :
    OnlyIn L a (armTriggers k d e) := by
  refine OnlyIn.widen hL h ?_
  have h0 := OnlyIn.refl [.ports] d
  unfold armTriggers
  repeat' (first
    | with_reducible assumption | ((with_reducible refine Part.subI ?_); exact rfl) | exact Or.inl rfl
    | exact Or.inr rfl | intro _
    | (extract_lets +onlyGivenNames -underBinder dd; (subst dd))
    | with_reducible apply modCamera_only | split)

theorem armAll_only {L : List Part} {a : Dev} (k : Nat) {d : Dev} (hL : Part.sub [.ports] L = true) (h : OnlyIn L a
    d) :
    OnlyIn L a (armAll k d) := by
  refine OnlyIn.widen hL h ?_
  have h0 := OnlyIn.refl [.ports] d
  unfold armAll
  repeat' (first
    | with_reducible assumption | ((with_reducible refine Part.subI ?_); exact rfl) | exact Or.inl rfl
    | exact Or.inr rfl | intro _ | with_reducible apply armTriggers_only | with_reducible apply OnlyIn.foldl)

theorem triggerSend_only {L : List Part} {a : Dev} (port : Fin 16) {d : Dev} (hL : Part.sub [.ports, .host, .health,
    .sent] L = true) (h : OnlyIn L a d) :
    OnlyIn L a (triggerSend port d) := by
  refine OnlyIn.widen hL h ?_
  have h0 := OnlyIn.refl [.ports, .host, .health, .sent] d
  unfold triggerSend
  repeat' (first
    | with_reducible assumption | ((with_reducible refine Part.subI ?_); exact rfl) | exact Or.inl rfl
    | exact Or.inr rfl | intro _
    | (extract_lets +onlyGivenNames -underBinder dd; (subst dd))
    | with_reducible apply modCamera_only | with_reducible apply bump_only | with_reducible apply emit_only | split)

theorem beginInit_only {L : List Part} {a : Dev} (c : Nat) (r : CameraPort) {d : Dev} (hL : Part.sub [.ports, .sent]
    L = true) (h : OnlyIn L a d) :
    OnlyIn L a (beginInit c r d) := by
  refine OnlyIn.widen hL h ?_
  have h0 := OnlyIn.refl [.ports, .sent] d
  unfold beginInit
  repeat' (first
    | with_reducible assumption | ((with_reducible refine Part.subI ?_); exact rfl) | exact Or.inl rfl
    | exact Or.inr rfl | intro _ | with_reducible apply emit_only | with_reducible apply modCamera_only)

theorem beginTraining_only {L : List Part} {a : Dev} (c : Nat) {d : Dev} (hL : Part.sub [.ports] L = true) (h :
    OnlyIn L a d) :
    OnlyIn L a (beginTraining c d) := by
  refine OnlyIn.widen hL h ?_
  have h0 := OnlyIn.refl [.ports] d
  unfold beginTraining
  repeat' (first
    | with_reducible assumption | ((with_reducible refine Part.subI ?_); exact rfl) | exact Or.inl rfl
    | exact Or.inr rfl | intro _ | with_reducible apply modCamera_only)

theorem enableCamera_only {L : List Part} {a : Dev} (e : Nat × CameraPort) {d : Dev} (hL : Part.sub [.ports] L =
    true) (h : OnlyIn L a d) :
    OnlyIn L a (enableCamera d e) := by
  refine OnlyIn.widen hL h ?_
  have h0 := OnlyIn.refl [.ports] d
  unfold enableCamera
  repeat' (first
    | with_reducible assumption | ((with_reducible refine Part.subI ?_); exact rfl) | exact Or.inl rfl
    | exact Or.inr rfl | intro _ | with_reducible apply beginTraining_only | with_reducible apply modCamera_only)

theorem trainingSuccess_only {L : List Part} {a : Dev} (port : Fin 16) {d : Dev} (hL : Part.sub [.ports, .sent] L =
    true) (h : OnlyIn L a d) :
    OnlyIn L a (trainingSuccess port d) := by
  refine OnlyIn.widen hL h ?_
  have h0 := OnlyIn.refl [.ports, .sent] d
  unfold trainingSuccess
  repeat' (first
    | with_reducible assumption | ((with_reducible refine Part.subI ?_); exact rfl) | exact Or.inl rfl
    | exact Or.inr rfl | intro _ | with_reducible apply beginInit_only | split)

theorem goDown_only {L : List Part} {a : Dev} (c : Nat) {d : Dev} (hL : Part.sub [.ports] L = true) (h : OnlyIn L a
    d) :
    OnlyIn L a (goDown c d) := by
  refine OnlyIn.widen hL h ?_
  have h0 := OnlyIn.refl [.ports] d
  unfold goDown
  repeat' (first
    | with_reducible assumption | ((with_reducible refine Part.subI ?_); exact rfl) | exact Or.inl rfl
    | exact Or.inr rfl | intro _ | with_reducible apply modCamera_only)

theorem trainingTimeout_only {L : List Part} {a : Dev} (port : Fin 16) {d : Dev} (hL : Part.sub [.ports, .host,
    .health, .sent] L = true) (h : OnlyIn L a d) :
    OnlyIn L a (trainingTimeout port d) := by
  refine OnlyIn.widen hL h ?_
  have h0 := OnlyIn.refl [.ports, .host, .health, .sent] d
  unfold trainingTimeout
  repeat' (first
    | with_reducible assumption | ((with_reducible refine Part.subI ?_); exact rfl) | exact Or.inl rfl
    | exact Or.inr rfl | intro _
    | (extract_lets +onlyGivenNames -underBinder dd; (subst dd))
    | with_reducible apply bump_only | with_reducible apply modCamera_only | with_reducible apply goDown_only
    | with_reducible apply conditionEvent_only | split)

theorem retrainIntervalExpiry_only {L : List Part} {a : Dev} (port : Fin 16) {d : Dev} (hL : Part.sub [.ports] L =
    true) (h : OnlyIn L a d) :
    OnlyIn L a (retrainIntervalExpiry port d) := by
  refine OnlyIn.widen hL h ?_
  have h0 := OnlyIn.refl [.ports] d
  unfold retrainIntervalExpiry
  repeat' (first
    | with_reducible assumption | ((with_reducible refine Part.subI ?_); exact rfl) | exact Or.inl rfl
    | exact Or.inr rfl | intro _
    | (extract_lets +onlyGivenNames -underBinder dd; (subst dd))
    | with_reducible apply beginTraining_only | split)

theorem dropBands_only {L : List Part} {a : Dev} (c : Nat) (n : Nat) {d : Dev} (hL : Part.sub [.ports, .host,
    .health, .sent] L = true) (h : OnlyIn L a d) :
    OnlyIn L a (dropBands c n d) := by
  refine OnlyIn.widen hL h ?_
  have h0 := OnlyIn.refl [.ports, .host, .health, .sent] d
  unfold dropBands
  repeat' (first
    | with_reducible assumption | ((with_reducible refine Part.subI ?_); exact rfl) | exact Or.inl rfl
    | exact Or.inr rfl | intro _ | with_reducible apply bump_only | with_reducible apply modCamera_only | split)

theorem linkLockLoss_only {L : List Part} {a : Dev} (port : Fin 16) {d : Dev} (hL : Part.sub [.ports, .host, .health,
    .sent] L = true) (h : OnlyIn L a d) :
    OnlyIn L a (linkLockLoss port d) := by
  refine OnlyIn.widen hL h ?_
  have h0 := OnlyIn.refl [.ports, .host, .health, .sent] d
  unfold linkLockLoss
  repeat' (first
    | with_reducible assumption | ((with_reducible refine Part.subI ?_); exact rfl) | exact Or.inl rfl
    | exact Or.inr rfl | intro _
    | (extract_lets +onlyGivenNames -underBinder dd; (subst dd))
    | with_reducible apply beginTraining_only | with_reducible apply dropBands_only | with_reducible apply bump_only
    | with_reducible apply modCamera_only | with_reducible apply conditionEvent_only | split)

theorem absenceTimeout_only {L : List Part} {a : Dev} (stream : Fin 48) {d : Dev} (hL : Part.sub [.muslin, .ports,
    .host, .health, .sent] L = true) (h : OnlyIn L a d) :
    OnlyIn L a (absenceTimeout stream d) := by
  refine OnlyIn.widen hL h ?_
  have h0 := OnlyIn.refl [.muslin, .ports, .host, .health, .sent] d
  unfold absenceTimeout
  repeat' (first
    | with_reducible assumption | ((with_reducible refine Part.subI ?_); exact rfl) | exact Or.inl rfl
    | exact Or.inr rfl | intro _
    | (extract_lets +onlyGivenNames -underBinder dd; (subst dd))
    | with_reducible apply enterReacquiring_only | with_reducible apply beginInit_only | split)

theorem startExposure_only {L : List Part} {a : Dev} (c : Nat) (r : CameraPort) (j : Nat) {d : Dev} (hL : Part.sub
    [.ports, .sent] L = true) (h : OnlyIn L a d) :
    OnlyIn L a (startExposure c r j d) := by
  refine OnlyIn.widen hL h ?_
  have h0 := OnlyIn.refl [.ports, .sent] d
  unfold startExposure
  repeat' (first
    | with_reducible assumption | ((with_reducible refine Part.subI ?_); exact rfl) | exact Or.inl rfl
    | exact Or.inr rfl | intro _
    | (extract_lets +onlyGivenNames -underBinder dd; (subst dd))
    | with_reducible apply emit_only | with_reducible apply modCamera_only)

theorem goUp_only {L : List Part} {a : Dev} (c : Nat) {d : Dev} (hL : Part.sub [.ports] L = true) (h : OnlyIn L a d) :
    OnlyIn L a (goUp c d) := by
  refine OnlyIn.widen hL h ?_
  have h0 := OnlyIn.refl [.ports] d
  unfold goUp
  repeat' (first
    | with_reducible assumption | ((with_reducible refine Part.subI ?_); exact rfl) | exact Or.inl rfl
    | exact Or.inr rfl | intro _ | with_reducible apply modCamera_only)

theorem startEntry_only {L : List Part} {a : Dev} (c : Nat) (r : CameraPort) (i : Nat) {d : Dev} (hL : Part.sub
    [.ports, .sent] L = true) (h : OnlyIn L a d) :
    OnlyIn L a (startEntry c r i d) := by
  refine OnlyIn.widen hL h ?_
  have h0 := OnlyIn.refl [.ports, .sent] d
  unfold startEntry
  repeat' (first
    | with_reducible assumption | ((with_reducible refine Part.subI ?_); exact rfl) | exact Or.inl rfl
    | exact Or.inr rfl | intro _
    | (extract_lets +onlyGivenNames -underBinder dd; (subst dd))
    | with_reducible apply goUp_only | with_reducible apply modCamera_only | with_reducible apply emit_only | split)

theorem failInit_only {L : List Part} {a : Dev} (c : Nat) {d : Dev} (hL : Part.sub [.ports, .host, .health, .sent] L
    = true) (h : OnlyIn L a d) :
    OnlyIn L a (failInit c d) := by
  refine OnlyIn.widen hL h ?_
  have h0 := OnlyIn.refl [.ports, .host, .health, .sent] d
  unfold failInit
  repeat' (first
    | with_reducible assumption | ((with_reducible refine Part.subI ?_); exact rfl) | exact Or.inl rfl
    | exact Or.inr rfl | intro _
    | (extract_lets +onlyGivenNames -underBinder dd; (subst dd))
    | with_reducible apply bump_only | with_reducible apply modCamera_only | with_reducible apply goDown_only
    | with_reducible apply conditionEvent_only | split)

theorem cciError_only {L : List Part} {a : Dev} (c : Nat) (r : CameraPort) {d : Dev} (hL : Part.sub [.ports, .host,
    .health, .sent] L = true) (h : OnlyIn L a d) :
    OnlyIn L a (cciError c r d) := by
  refine OnlyIn.widen hL h ?_
  have h0 := OnlyIn.refl [.ports, .host, .health, .sent] d
  unfold cciError
  repeat' (first
    | with_reducible assumption | ((with_reducible refine Part.subI ?_); exact rfl) | exact Or.inl rfl
    | exact Or.inr rfl | intro _
    | (extract_lets +onlyGivenNames -underBinder dd; (subst dd))
    | with_reducible apply bump_only | with_reducible apply modCamera_only | with_reducible apply conditionEvent_only
    | with_reducible apply startEntry_only | with_reducible apply failInit_only
    | with_reducible apply startExposure_only | split)

theorem endExposure_only {L : List Part} {a : Dev} (c : Nat) (r : CameraPort) {d : Dev} (hL : Part.sub [.ports,
    .sent] L = true) (h : OnlyIn L a d) :
    OnlyIn L a (endExposure c r d) := by
  refine OnlyIn.widen hL h ?_
  have h0 := OnlyIn.refl [.ports, .sent] d
  unfold endExposure
  repeat' (first
    | with_reducible assumption | ((with_reducible refine Part.subI ?_); exact rfl) | exact Or.inl rfl
    | exact Or.inr rfl | intro _
    | (extract_lets +onlyGivenNames -underBinder dd; (subst dd))
    | with_reducible apply goUp_only | with_reducible apply modCamera_only | with_reducible apply startExposure_only
    | split)

theorem cciAck_only {L : List Part} {a : Dev} (port : Fin 16) (data : Nat) {d : Dev} (hL : Part.sub [.ports, .host,
    .health, .sent] L = true) (h : OnlyIn L a d) :
    OnlyIn L a (cciAck port data d) := by
  refine OnlyIn.widen hL h ?_
  have h0 := OnlyIn.refl [.ports, .host, .health, .sent] d
  unfold cciAck
  repeat' (first
    | with_reducible assumption | ((with_reducible refine Part.subI ?_); exact rfl) | exact Or.inl rfl
    | exact Or.inr rfl | intro _
    | (extract_lets +onlyGivenNames -underBinder dd; (subst dd))
    | with_reducible apply modCamera_only | with_reducible apply startExposure_only
    | with_reducible apply startEntry_only | with_reducible apply cciError_only
    | with_reducible apply endExposure_only | split)

theorem cciTimeout_only {L : List Part} {a : Dev} (port : Fin 16) {d : Dev} (hL : Part.sub [.ports, .host, .health,
    .sent] L = true) (h : OnlyIn L a d) :
    OnlyIn L a (cciTimeout port d) := by
  refine OnlyIn.widen hL h ?_
  have h0 := OnlyIn.refl [.ports, .host, .health, .sent] d
  unfold cciTimeout
  repeat' (first
    | with_reducible assumption | ((with_reducible refine Part.subI ?_); exact rfl) | exact Or.inl rfl
    | exact Or.inr rfl | intro _
    | (extract_lets +onlyGivenNames -underBinder dd; (subst dd))
    | with_reducible apply cciError_only | split)

theorem initWaitExpiry_only {L : List Part} {a : Dev} (port : Fin 16) {d : Dev} (hL : Part.sub [.ports, .sent] L =
    true) (h : OnlyIn L a d) :
    OnlyIn L a (initWaitExpiry port d) := by
  refine OnlyIn.widen hL h ?_
  have h0 := OnlyIn.refl [.ports, .sent] d
  unfold initWaitExpiry
  repeat' (first
    | with_reducible assumption | ((with_reducible refine Part.subI ?_); exact rfl) | exact Or.inl rfl
    | exact Or.inr rfl | intro _
    | (extract_lets +onlyGivenNames -underBinder dd; (subst dd))
    | with_reducible apply startEntry_only | split)

theorem dropPacket_only {L : List Part} {a : Dev} (c : Nat) {d : Dev} (hL : Part.sub [.ports, .host, .health, .sent]
    L = true) (h : OnlyIn L a d) :
    OnlyIn L a (dropPacket c d) := by
  refine OnlyIn.widen hL h ?_
  have h0 := OnlyIn.refl [.ports, .host, .health, .sent] d
  unfold dropPacket
  repeat' (first
    | with_reducible assumption | ((with_reducible refine Part.subI ?_); exact rfl) | exact Or.inl rfl
    | exact Or.inr rfl | intro _ | with_reducible apply bump_only | with_reducible apply modCamera_only)

theorem frameStart_only {L : List Part} {a : Dev} (c : Nat) (n : Nat) (f : CameraFields) (r : CameraPort) (aa :
    Nanos) {d : Dev} (hL : Part.sub [.muslin, .ports, .host, .health, .sent] L = true) (h : OnlyIn L a d) :
    OnlyIn L a (frameStart c n f r aa d) := by
  refine OnlyIn.widen hL h ?_
  have h0 := OnlyIn.refl [.muslin, .ports, .host, .health, .sent] d
  unfold frameStart
  repeat' (first
    | with_reducible assumption | ((with_reducible refine Part.subI ?_); exact rfl) | exact Or.inl rfl
    | exact Or.inr rfl | intro _
    | (extract_lets +onlyGivenNames -underBinder dd; (subst dd))
    | with_reducible apply dropBands_only | with_reducible apply bump_only | with_reducible apply Dev_setStream_only
    | with_reducible apply Dev_setCamera_only | split)

theorem keepBand_only {L : List Part} {a : Dev} (c : Nat) (x : CamFrame) (b : Nat) (j : Nat) {d : Dev} (hL : Part.sub
    [.muslin] L = true) (h : OnlyIn L a d) :
    OnlyIn L a (keepBand c x b j d) := by
  refine OnlyIn.widen hL h ?_
  have h0 := OnlyIn.refl [.muslin] d
  unfold keepBand
  repeat' (first
    | with_reducible assumption | exact Or.inl rfl | exact Or.inr rfl | intro _
    | (extract_lets +onlyGivenNames -underBinder dd; (subst dd))
    | ((conv => (arg 3; arg 23; skip)); with_reducible apply OnlyIn.mk'))

theorem takeBand_only {L : List Part} {a : Dev} (c : Nat) (n : Nat) (e : StreamEntry) (f : CameraFields) (r :
    CameraPort) (x : CamFrame) (b : Nat) (aa : Nanos) {d : Dev} (hL : Part.sub [.muslin, .ports, .host, .health,
    .sent] L = true) (h : OnlyIn L a d) :
    OnlyIn L a (takeBand c n e f r x b aa d) := by
  refine OnlyIn.widen hL h ?_
  have h0 := OnlyIn.refl [.muslin, .ports, .host, .health, .sent] d
  unfold takeBand
  repeat' (first
    | with_reducible assumption | ((with_reducible refine Part.subI ?_); exact rfl) | exact Or.inl rfl
    | exact Or.inr rfl | intro _
    | (extract_lets +onlyGivenNames -underBinder dd; (subst dd))
    | with_reducible apply countImplausible_only | with_reducible apply usable_only
    | with_reducible apply countOutOfWindow_only | with_reducible apply countLateSamples_only
    | with_reducible apply noteAssigned_only | with_reducible apply modContrib_only
    | with_reducible apply keepBand_only | with_reducible apply modCamera_only | split)

theorem imageRow_only {L : List Part} {a : Dev} (c : Nat) (n : Nat) (i : Nat) (e : StreamEntry) (f : CameraFields) (r
    : CameraPort) (p : CsiPacket) {d : Dev} (hL : Part.sub [.muslin, .ports, .host, .health, .sent] L = true) (h :
    OnlyIn L a d) :
    OnlyIn L a (imageRow c n i e f r p d) := by
  refine OnlyIn.widen hL h ?_
  have h0 := OnlyIn.refl [.muslin, .ports, .host, .health, .sent] d
  unfold imageRow
  repeat' (first
    | with_reducible assumption | ((with_reducible refine Part.subI ?_); exact rfl) | exact Or.inl rfl
    | exact Or.inr rfl | intro _
    | (extract_lets +onlyGivenNames -underBinder dd; (subst dd))
    | with_reducible apply dropPacket_only | with_reducible apply modCamera_only
    | with_reducible apply dropBands_only | with_reducible apply takeBand_only | split)

theorem frameEnd_only {L : List Part} {a : Dev} (c : Nat) (f : CameraFields) {d : Dev} (hL : Part.sub [.ports, .host,
    .health, .sent] L = true) (h : OnlyIn L a d) :
    OnlyIn L a (frameEnd c f d) := by
  refine OnlyIn.widen hL h ?_
  have h0 := OnlyIn.refl [.ports, .host, .health, .sent] d
  unfold frameEnd
  repeat' (first
    | with_reducible assumption | ((with_reducible refine Part.subI ?_); exact rfl) | exact Or.inl rfl
    | exact Or.inr rfl | intro _
    | (extract_lets +onlyGivenNames -underBinder dd; (subst dd))
    | with_reducible apply dropBands_only | with_reducible apply modCamera_only | split)

theorem csi2PacketReceived_only {L : List Part} {a : Dev} (port : Fin 16) (pkt : CsiPacket) {d : Dev} (hL : Part.sub
    [.muslin, .ports, .host, .health, .sent] L = true) (h : OnlyIn L a d) :
    OnlyIn L a (csi2PacketReceived port pkt d) := by
  refine OnlyIn.widen hL h ?_
  have h0 := OnlyIn.refl [.muslin, .ports, .host, .health, .sent] d
  unfold csi2PacketReceived
  repeat' (first
    | with_reducible assumption | ((with_reducible refine Part.subI ?_); exact rfl) | exact Or.inl rfl
    | exact Or.inr rfl | intro _
    | (extract_lets +onlyGivenNames -underBinder dd; (subst dd))
    | with_reducible apply dropPacket_only | with_reducible apply bump_only | with_reducible apply modCamera_only
    | with_reducible apply frameStart_only | with_reducible apply frameEnd_only | with_reducible apply imageRow_only
    | split)

theorem writeBand_only {L : List Part} {a : Dev} (r : RawFrame) (rows : List Nat) (band : Nat × Nat) (ts : List
    Tensor) (dst : Nat × Nat) {d : Dev} (hL : Part.sub [.mem] L = true) (h : OnlyIn L a d) :
    OnlyIn L a (writeBand r rows band ts d dst) := by
  refine OnlyIn.widen hL h ?_
  have h0 := OnlyIn.refl [.mem] d
  unfold writeBand
  repeat' (first
    | with_reducible assumption | ((with_reducible refine Part.subI ?_); exact rfl) | exact Or.inl rfl
    | exact Or.inr rfl | intro _
    | (extract_lets +onlyGivenNames -underBinder dd; (subst dd))
    | with_reducible apply writeLevel_only | split)

theorem writeFrameBand_only {L : List Part} {a : Dev} (c : Nat) (r : CameraPort) (f : CameraFields) (x : CamFrame) (b
    : Nat) (tick : Nat) (dests : List (Nat × Nat)) {d : Dev} (hL : Part.sub [.mem] L = true) (h : OnlyIn L a d) :
    OnlyIn L a (writeFrameBand c r f x b tick dests d) := by
  refine OnlyIn.widen hL h ?_
  have h0 := OnlyIn.refl [.mem] d
  unfold writeFrameBand
  repeat' (first
    | with_reducible assumption | ((with_reducible refine Part.subI ?_); exact rfl) | exact Or.inl rfl
    | exact Or.inr rfl | intro _
    | (extract_lets +onlyGivenNames -underBinder dd; (subst dd))
    | with_reducible apply writeBand_only | with_reducible apply OnlyIn.foldl)

theorem percaleBandDone_only {L : List Part} {a : Dev} (port : Fin 16) (band : Nat) (dests : List (Nat × Nat)) {d :
    Dev} (hL : Part.sub [.ports, .mem] L = true) (h : OnlyIn L a d) :
    OnlyIn L a (percaleBandDone port band dests d) := by
  refine OnlyIn.widen hL h ?_
  have h0 := OnlyIn.refl [.ports, .mem] d
  unfold percaleBandDone
  repeat' (first
    | with_reducible assumption | ((with_reducible refine Part.subI ?_); exact rfl) | exact Or.inl rfl
    | exact Or.inr rfl | intro _
    | (extract_lets +onlyGivenNames -underBinder dd; (subst dd))
    | with_reducible apply modCamera_only | with_reducible apply writeFrameBand_only | split)

theorem loopDecision_only {L : List Part} {a : Dev} (c : Nat) (r : CameraPort) (n : Nat) (e : StreamEntry) (f :
    CameraFields) (stats : FrameStats) {d : Dev} (hL : Part.sub [.ports, .sent] L = true) (h : OnlyIn L a d) :
    OnlyIn L a (loopDecision c r n e f stats d) := by
  refine OnlyIn.widen hL h ?_
  have h0 := OnlyIn.refl [.ports, .sent] d
  unfold loopDecision
  repeat' (first
    | with_reducible assumption | ((with_reducible refine Part.subI ?_); exact rfl) | exact Or.inl rfl
    | exact Or.inr rfl | intro _
    | (extract_lets +onlyGivenNames -underBinder dd; (subst dd))
    | with_reducible apply startExposure_only | with_reducible apply Dev_setCamera_only | split)

theorem statisticsComplete_only {L : List Part} {a : Dev} (port : Fin 16) {d : Dev} (hL : Part.sub [.ports, .sent] L
    = true) (h : OnlyIn L a d) :
    OnlyIn L a (statisticsComplete port d) := by
  refine OnlyIn.widen hL h ?_
  have h0 := OnlyIn.refl [.ports, .sent] d
  unfold statisticsComplete
  repeat' (first
    | with_reducible assumption | ((with_reducible refine Part.subI ?_); exact rfl) | exact Or.inl rfl
    | exact Or.inr rfl | intro _
    | (extract_lets +onlyGivenNames -underBinder dd; (subst dd))
    | with_reducible apply modCamera_only | with_reducible apply loopDecision_only | split)

theorem exposureUsRead_only {L : List Part} {a : Dev} (cam : Fin 16) {d : Dev} (hL : Part.sub [.ports] L = true) (h :
    OnlyIn L a d) :
    OnlyIn L a (exposureUsRead cam d) := by
  refine OnlyIn.widen hL h ?_
  have h0 := OnlyIn.refl [.ports] d
  unfold exposureUsRead
  repeat' (first
    | with_reducible assumption | ((with_reducible refine Part.subI ?_); exact rfl) | exact Or.inl rfl
    | exact Or.inr rfl | intro _ | with_reducible apply modCamera_only)

theorem changeCamera_only {L : List Part} {a : Dev} (old : Image) (c : Nat) {d : Dev} (hL : Part.sub [.ports] L =
    true) (h : OnlyIn L a d) :
    OnlyIn L a (changeCamera old d c) := by
  refine OnlyIn.widen hL h ?_
  have h0 := OnlyIn.refl [.ports] d
  unfold changeCamera
  repeat' (first
    | with_reducible assumption | ((with_reducible refine Part.subI ?_); exact rfl) | exact Or.inl rfl
    | exact Or.inr rfl | intro _ | with_reducible apply enableCamera_only | with_reducible apply modCamera_only
    | split)

/-! ### Range -/

theorem modLidar_only {L : List Part} {a : Dev} (n : Nat) (f : LidarState → LidarState) {d : Dev} (hL : Part.sub
    [.ports] L = true) (h : OnlyIn L a d) :
    OnlyIn L a (modLidar n f d) := by
  refine OnlyIn.widen hL h ?_
  have h0 := OnlyIn.refl [.ports] d
  unfold modLidar
  repeat' (first
    | with_reducible assumption | ((with_reducible refine Part.subI ?_); exact rfl) | exact Or.inl rfl
    | exact Or.inr rfl | intro _ | with_reducible apply Dev_setLidar_only)

theorem lidarLinkDown_only {L : List Part} {a : Dev} (n : Fin 8) {d : Dev} (hL : Part.sub [.ports, .host, .health,
    .sent] L = true) (h : OnlyIn L a d) :
    OnlyIn L a (lidarLinkDown n d) := by
  refine OnlyIn.widen hL h ?_
  have h0 := OnlyIn.refl [.ports, .host, .health, .sent] d
  unfold lidarLinkDown
  repeat' (first
    | with_reducible assumption | ((with_reducible refine Part.subI ?_); exact rfl) | exact Or.inl rfl
    | exact Or.inr rfl | intro _
    | (extract_lets +onlyGivenNames -underBinder dd; (subst dd))
    | with_reducible apply modLidar_only | with_reducible apply bump_only | with_reducible apply conditionEvent_only
    | split)

theorem lidarLinkUp_only {L : List Part} {a : Dev} (n : Fin 8) {d : Dev} (hL : Part.sub [.ports] L = true) (h :
    OnlyIn L a d) :
    OnlyIn L a (lidarLinkUp n d) := by
  refine OnlyIn.widen hL h ?_
  have h0 := OnlyIn.refl [.ports] d
  unfold lidarLinkUp
  repeat' (first
    | with_reducible assumption | ((with_reducible refine Part.subI ?_); exact rfl) | exact Or.inl rfl
    | exact Or.inr rfl | intro _ | with_reducible apply modLidar_only | split)

theorem enableLidar_only {L : List Part} {a : Dev} (e : Nat × StreamEntry) {d : Dev} (hL : Part.sub [.ports] L =
    true) (h : OnlyIn L a d) :
    OnlyIn L a (enableLidar d e) := by
  refine OnlyIn.widen hL h ?_
  have h0 := OnlyIn.refl [.ports] d
  unfold enableLidar
  repeat' (first
    | with_reducible assumption | ((with_reducible refine Part.subI ?_); exact rfl) | exact Or.inl rfl
    | exact Or.inr rfl | intro _
    | (extract_lets +onlyGivenNames -underBinder dd; (subst dd))
    | with_reducible apply modLidar_only | with_reducible apply Dev_setImu_only | split)

theorem valueSample_only {L : List Part} {a : Dev} (n : Nat) (t : Int) (aa : Nanos) (values : List (Nat × F32)) {d :
    Dev} (hL : Part.sub [.muslin, .host, .health, .sent] L = true) (h : OnlyIn L a d) :
    OnlyIn L a (valueSample n t aa values d) := by
  refine OnlyIn.widen hL h ?_
  have h0 := OnlyIn.refl [.muslin, .host, .health, .sent] d
  unfold valueSample
  repeat' (first
    | with_reducible assumption | ((with_reducible refine Part.subI ?_); exact rfl) | exact Or.inl rfl
    | exact Or.inr rfl | intro _ | with_reducible apply egoSample_only)

theorem modImu_only {L : List Part} {a : Dev} (n : Nat) (f : ImuState → ImuState) {d : Dev} (hL : Part.sub [.ports] L
    = true) (h : OnlyIn L a d) :
    OnlyIn L a (modImu n f d) := by
  refine OnlyIn.widen hL h ?_
  have h0 := OnlyIn.refl [.ports] d
  unfold modImu
  repeat' (first
    | with_reducible assumption | ((with_reducible refine Part.subI ?_); exact rfl) | exact Or.inl rfl
    | exact Or.inr rfl | intro _ | with_reducible apply Dev_setImu_only)

theorem imuSyncPulse_only {L : List Part} {a : Dev} (n : Fin 4) {d : Dev} (hL : Part.sub [.ports, .sent] L = true) (h
    : OnlyIn L a d) :
    OnlyIn L a (imuSyncPulse n d) := by
  refine OnlyIn.widen hL h ?_
  have h0 := OnlyIn.refl [.ports, .sent] d
  unfold imuSyncPulse
  repeat' (first
    | with_reducible assumption | ((with_reducible refine Part.subI ?_); exact rfl) | exact Or.inl rfl
    | exact Or.inr rfl | intro _
    | (extract_lets +onlyGivenNames -underBinder dd; (subst dd))
    | with_reducible apply emit_only | with_reducible apply modImu_only | split)

theorem imuDrdyEdge_only {L : List Part} {a : Dev} (n : Fin 4) {d : Dev} (hL : Part.sub [.ports, .host, .health,
    .sent] L = true) (h : OnlyIn L a d) :
    OnlyIn L a (imuDrdyEdge n d) := by
  refine OnlyIn.widen hL h ?_
  have h0 := OnlyIn.refl [.ports, .host, .health, .sent] d
  unfold imuDrdyEdge
  repeat' (first
    | with_reducible assumption | ((with_reducible refine Part.subI ?_); exact rfl) | exact Or.inl rfl
    | exact Or.inr rfl | intro _
    | (extract_lets +onlyGivenNames -underBinder dd; (subst dd))
    | with_reducible apply modImu_only | with_reducible apply bump_only | with_reducible apply emit_only | split)

theorem imuSample_only {L : List Part} {a : Dev} (n : Nat) (stream : Nat) (f : ImuFields) (t : Nanos) (aa : Nanos) (p
    : List Byte) {d : Dev} (hL : Part.sub [.muslin, .ports, .host, .health, .sent] L = true) (h : OnlyIn L a d) :
    OnlyIn L a (imuSample n stream f t aa p d) := by
  refine OnlyIn.widen hL h ?_
  have h0 := OnlyIn.refl [.muslin, .ports, .host, .health, .sent] d
  unfold imuSample
  repeat' (first
    | with_reducible assumption | ((with_reducible refine Part.subI ?_); exact rfl) | exact Or.inl rfl
    | exact Or.inr rfl | intro _
    | (extract_lets +onlyGivenNames -underBinder dd; (subst dd))
    | with_reducible apply bump_only | with_reducible apply modImu_only | with_reducible apply Dev_setStream_only
    | with_reducible apply valueSample_only | split)

theorem imuTransactionDone_only {L : List Part} {a : Dev} (n : Fin 4) (payload : List Byte) {d : Dev} (hL : Part.sub
    [.muslin, .ports, .host, .health, .sent] L = true) (h : OnlyIn L a d) :
    OnlyIn L a (imuTransactionDone n payload d) := by
  refine OnlyIn.widen hL h ?_
  have h0 := OnlyIn.refl [.muslin, .ports, .host, .health, .sent] d
  unfold imuTransactionDone
  repeat' (first
    | with_reducible assumption | ((with_reducible refine Part.subI ?_); exact rfl) | exact Or.inl rfl
    | exact Or.inr rfl | intro _
    | (extract_lets +onlyGivenNames -underBinder dd; (subst dd))
    | with_reducible apply modImu_only | with_reducible apply imuSample_only | split)

theorem imuMissedSample_only {L : List Part} {a : Dev} (n : Fin 4) {d : Dev} (hL : Part.sub [.ports, .host, .health,
    .sent] L = true) (h : OnlyIn L a d) :
    OnlyIn L a (imuMissedSample n d) := by
  refine OnlyIn.widen hL h ?_
  have h0 := OnlyIn.refl [.ports, .host, .health, .sent] d
  unfold imuMissedSample
  repeat' (first
    | with_reducible assumption | ((with_reducible refine Part.subI ?_); exact rfl) | exact Or.inl rfl
    | exact Or.inr rfl | intro _
    | (extract_lets +onlyGivenNames -underBinder dd; (subst dd))
    | with_reducible apply bump_only | with_reducible apply modImu_only | split)

theorem modCan_only {L : List Part} {a : Dev} (n : Nat) (f : CanState → CanState) {d : Dev} (hL : Part.sub [.ports] L
    = true) (h : OnlyIn L a d) :
    OnlyIn L a (modCan n f d) := by
  refine OnlyIn.widen hL h ?_
  have h0 := OnlyIn.refl [.ports] d
  unfold modCan
  repeat' (first
    | with_reducible assumption | ((with_reducible refine Part.subI ?_); exact rfl) | exact Or.inl rfl
    | exact Or.inr rfl | intro _ | with_reducible apply Dev_setCan_only)

theorem canReject_only {L : List Part} {a : Dev} (n : Nat) {d : Dev} (hL : Part.sub [.ports, .host, .health, .sent] L
    = true) (h : OnlyIn L a d) :
    OnlyIn L a (canReject n d) := by
  refine OnlyIn.widen hL h ?_
  have h0 := OnlyIn.refl [.ports, .host, .health, .sent] d
  unfold canReject
  repeat' (first
    | with_reducible assumption | ((with_reducible refine Part.subI ?_); exact rfl) | exact Or.inl rfl
    | exact Or.inr rfl | intro _ | with_reducible apply bump_only | with_reducible apply modCan_only)

theorem canDeliver_only {L : List Part} {a : Dev} (n : Nat) (x : CanFrame) (e : Nat × StreamEntry) {d : Dev} (hL :
    Part.sub [.muslin, .ports, .host, .health, .sent] L = true) (h : OnlyIn L a d) :
    OnlyIn L a (canDeliver n x d e) := by
  refine OnlyIn.widen hL h ?_
  have h0 := OnlyIn.refl [.muslin, .ports, .host, .health, .sent] d
  unfold canDeliver
  repeat' (first
    | with_reducible assumption | ((with_reducible refine Part.subI ?_); exact rfl) | exact Or.inl rfl
    | exact Or.inr rfl | intro _
    | (extract_lets +onlyGivenNames -underBinder dd; (subst dd))
    | with_reducible apply canReject_only | with_reducible apply bump_only | with_reducible apply modCan_only
    | with_reducible apply Dev_setStream_only | with_reducible apply valueSample_only | split)

theorem canFrameReceived_only {L : List Part} {a : Dev} (n : Fin 4) (frame : CanFrame) {d : Dev} (hL : Part.sub
    [.muslin, .ports, .host, .health, .sent] L = true) (h : OnlyIn L a d) :
    OnlyIn L a (canFrameReceived n frame d) := by
  refine OnlyIn.widen hL h ?_
  have h0 := OnlyIn.refl [.muslin, .ports, .host, .health, .sent] d
  unfold canFrameReceived
  repeat' (first
    | with_reducible assumption | ((with_reducible refine Part.subI ?_); exact rfl) | exact Or.inl rfl
    | exact Or.inr rfl | intro _
    | (extract_lets +onlyGivenNames -underBinder dd; (subst dd))
    | with_reducible apply modCan_only | with_reducible apply emit_only | with_reducible apply canDeliver_only
    | with_reducible apply OnlyIn.foldl | with_reducible apply OnlyIn.foldlSnd | split)

theorem canProtocolError_only {L : List Part} {a : Dev} (n : Fin 4) (rec_ : BitVec 8) (errPassive : Bool) {d : Dev}
    (hL : Part.sub [.ports, .host, .health, .sent] L = true) (h : OnlyIn L a d) :
    OnlyIn L a (canProtocolError n rec_ errPassive d) := by
  refine OnlyIn.widen hL h ?_
  have h0 := OnlyIn.refl [.ports, .host, .health, .sent] d
  unfold canProtocolError
  repeat' (first
    | with_reducible assumption | ((with_reducible refine Part.subI ?_); exact rfl) | exact Or.inl rfl
    | exact Or.inr rfl | intro _ | with_reducible apply bump_only | with_reducible apply modCan_only | split)

theorem modGnss_only {L : List Part} {a : Dev} (f : GnssState → GnssState) {d : Dev} (hL : Part.sub [.ports] L =
    true) (h : OnlyIn L a d) :
    OnlyIn L a (modGnss f d) := by
  refine OnlyIn.widen hL h ?_
  have h0 := OnlyIn.refl [.ports] d
  unfold modGnss
  repeat' (first
    | with_reducible assumption | exact Or.inl rfl | exact Or.inr rfl | intro _
    | (extract_lets +onlyGivenNames -underBinder dd; (subst dd))
    | ((conv => (arg 3; arg 23; skip)); with_reducible apply OnlyIn.mk'))

theorem gnssUnpaired_only {L : List Part} {a : Dev} {d : Dev} (hL : Part.sub [.ports, .host, .health, .sent] L =
    true) (h : OnlyIn L a d) :
    OnlyIn L a (gnssUnpaired d) := by
  refine OnlyIn.widen hL h ?_
  have h0 := OnlyIn.refl [.ports, .host, .health, .sent] d
  unfold gnssUnpaired
  repeat' (first
    | with_reducible assumption | ((with_reducible refine Part.subI ?_); exact rfl) | exact Or.inl rfl
    | exact Or.inr rfl | intro _ | with_reducible apply bump_only | with_reducible apply modGnss_only)

theorem gnssPair_only {L : List Part} {a : Dev} (n : Nat) (f : GnssFields) (x : Sentence) {d : Dev} (hL : Part.sub
    [.muslin, .ports, .host, .health, .sent] L = true) (h : OnlyIn L a d) :
    OnlyIn L a (gnssPair n f x d) := by
  refine OnlyIn.widen hL h ?_
  have h0 := OnlyIn.refl [.muslin, .ports, .host, .health, .sent] d
  unfold gnssPair
  repeat' (first
    | with_reducible assumption | ((with_reducible refine Part.subI ?_); exact rfl) | exact Or.inl rfl
    | exact Or.inr rfl | intro _
    | (extract_lets +onlyGivenNames -underBinder dd; (subst dd))
    | with_reducible apply gnssUnpaired_only | with_reducible apply modGnss_only
    | with_reducible apply egoSample_only | split)

theorem gnssSentenceReceived_only {L : List Part} {a : Dev} (sentence : Sentence) {d : Dev} (hL : Part.sub [.muslin,
    .ports, .host, .health, .sent] L = true) (h : OnlyIn L a d) :
    OnlyIn L a (gnssSentenceReceived sentence d) := by
  refine OnlyIn.widen hL h ?_
  have h0 := OnlyIn.refl [.muslin, .ports, .host, .health, .sent] d
  unfold gnssSentenceReceived
  repeat' (first
    | with_reducible assumption | ((with_reducible refine Part.subI ?_); exact rfl) | exact Or.inl rfl
    | exact Or.inr rfl | intro _
    | (extract_lets +onlyGivenNames -underBinder dd; (subst dd))
    | with_reducible apply bump_only | with_reducible apply modGnss_only | with_reducible apply egoSample_only
    | with_reducible apply gnssPair_only | split)

theorem gnssPpsEdge_only {L : List Part} {a : Dev} {d : Dev} (hL : Part.sub [.time, .ports, .host, .health, .sent] L
    = true) (h : OnlyIn L a d) :
    OnlyIn L a (gnssPpsEdge d) := by
  refine OnlyIn.widen hL h ?_
  have h0 := OnlyIn.refl [.time, .ports, .host, .health, .sent] d
  unfold gnssPpsEdge
  repeat' (first
    | with_reducible assumption | ((with_reducible refine Part.subI ?_); exact rfl) | exact Or.inl rfl
    | exact Or.inr rfl | intro _
    | (extract_lets +onlyGivenNames -underBinder dd; (subst dd))
    | ((conv => (arg 3; arg 23; skip)); with_reducible apply OnlyIn.mk') | with_reducible apply gnssUnpaired_only
    | with_reducible apply modGnss_only | split)

theorem gnssPairTimeout_only {L : List Part} {a : Dev} {d : Dev} (hL : Part.sub [.ports, .host, .health, .sent] L =
    true) (h : OnlyIn L a d) :
    OnlyIn L a (gnssPairTimeout d) := by
  refine OnlyIn.widen hL h ?_
  have h0 := OnlyIn.refl [.ports, .host, .health, .sent] d
  unfold gnssPairTimeout
  repeat' (first
    | with_reducible assumption | ((with_reducible refine Part.subI ?_); exact rfl) | exact Or.inl rfl
    | exact Or.inr rfl | intro _ | with_reducible apply gnssUnpaired_only | split)

/-! ### Lidar -/

theorem quotaDrop_only {L : List Part} {a : Dev} (port : Nat) (src : Source) {d : Dev} (hL : Part.sub [.ports, .host,
    .health, .sent] L = true) (h : OnlyIn L a d) :
    OnlyIn L a (quotaDrop port src d) := by
  refine OnlyIn.widen hL h ?_
  have h0 := OnlyIn.refl [.ports, .host, .health, .sent] d
  unfold quotaDrop
  repeat' (first
    | with_reducible assumption | ((with_reducible refine Part.subI ?_); exact rfl) | exact Or.inl rfl
    | exact Or.inr rfl | intro _ | with_reducible apply bump_only | with_reducible apply modLidar_only | split)

theorem chargePoint_only {L : List Part} {a : Dev} (src : Source) (quota : Nat) (tick : Nat) (n : Nat) (port : Nat)
    (p : Point) {d : Dev} (hL : Part.sub [.muslin, .ports, .tweed, .tweedFb, .host, .health, .sent] L = true) (h :
    OnlyIn L a d) :
    OnlyIn L a (chargePoint src quota tick n port p d) := by
  refine OnlyIn.widen hL h ?_
  have h0 := OnlyIn.refl [.muslin, .ports, .tweed, .tweedFb, .host, .health, .sent] d
  unfold chargePoint
  repeat' (first
    | with_reducible assumption | ((with_reducible refine Part.subI ?_); exact rfl) | exact Or.inl rfl
    | exact Or.inr rfl | intro _
    | (extract_lets +onlyGivenNames -underBinder dd; (subst dd))
    | with_reducible apply offerPoint_only | with_reducible apply modContrib_only
    | with_reducible apply quotaDrop_only | split)

theorem admitPoint_only {L : List Part} {a : Dev} (n : Nat) (tick : Nat) (e : StreamEntry) (f : LidarFields) (valid :
    Nanos) (p : Point) {d : Dev} (hL : Part.sub [.muslin, .ports, .tweed, .tweedFb, .host, .health, .sent] L = true)
    (h : OnlyIn L a d) :
    OnlyIn L a (admitPoint n tick e f valid p d) := by
  refine OnlyIn.widen hL h ?_
  have h0 := OnlyIn.refl [.muslin, .ports, .tweed, .tweedFb, .host, .health, .sent] d
  unfold admitPoint
  repeat' (first
    | with_reducible assumption | ((with_reducible refine Part.subI ?_); exact rfl) | exact Or.inl rfl
    | exact Or.inr rfl | intro _
    | (extract_lets +onlyGivenNames -underBinder dd; (subst dd))
    | with_reducible apply takeProvisional_only | with_reducible apply noteAssigned_only
    | with_reducible apply chargePoint_only | with_reducible apply Dev_setStream_only
    | with_reducible apply OnlyIn.foldl | with_reducible apply OnlyIn.foldlSnd | split)

theorem takePoint_only {L : List Part} {a : Dev} (n : Nat) (e : StreamEntry) (f : LidarFields) (aa : Nanos) (x :
    Decoded) {d : Dev} (hL : Part.sub [.muslin, .ports, .tweed, .tweedFb, .host, .health, .sent] L = true) (h :
    OnlyIn L a d) :
    OnlyIn L a (takePoint n e f aa d x) := by
  refine OnlyIn.widen hL h ?_
  have h0 := OnlyIn.refl [.muslin, .ports, .tweed, .tweedFb, .host, .health, .sent] d
  unfold takePoint
  repeat' (first
    | with_reducible assumption | ((with_reducible refine Part.subI ?_); exact rfl) | exact Or.inl rfl
    | exact Or.inr rfl | intro _
    | (extract_lets +onlyGivenNames -underBinder dd; (subst dd))
    | with_reducible apply countImplausible_only | with_reducible apply usable_only
    | with_reducible apply countOutOfWindow_only | with_reducible apply countLateSamples_only
    | with_reducible apply admitPoint_only | split)

theorem dropFrame_only {L : List Part} {a : Dev} (n : Nat) {d : Dev} (hL : Part.sub [.ports, .host, .health, .sent] L
    = true) (h : OnlyIn L a d) :
    OnlyIn L a (dropFrame n d) := by
  refine OnlyIn.widen hL h ?_
  have h0 := OnlyIn.refl [.ports, .host, .health, .sent] d
  unfold dropFrame
  repeat' (first
    | with_reducible assumption | ((with_reducible refine Part.subI ?_); exact rfl) | exact Or.inl rfl
    | exact Or.inr rfl | intro _ | with_reducible apply bump_only | with_reducible apply modLidar_only)

theorem dropParse_only {L : List Part} {a : Dev} (n : Nat) {d : Dev} (hL : Part.sub [.ports, .host, .health, .sent] L
    = true) (h : OnlyIn L a d) :
    OnlyIn L a (dropParse n d) := by
  refine OnlyIn.widen hL h ?_
  have h0 := OnlyIn.refl [.ports, .host, .health, .sent] d
  unfold dropParse
  repeat' (first
    | with_reducible assumption | ((with_reducible refine Part.subI ?_); exact rfl) | exact Or.inl rfl
    | exact Or.inr rfl | intro _ | with_reducible apply bump_only | with_reducible apply modLidar_only)

theorem takePacket_only {L : List Part} {a : Dev} (n : Nat) (e : StreamEntry) (f : LidarFields) (aa : Nanos) (ps :
    List Decoded) {d : Dev} (hL : Part.sub [.muslin, .ports, .tweed, .tweedFb, .host, .health, .sent] L = true) (h :
    OnlyIn L a d) :
    OnlyIn L a (takePacket n e f aa ps d) := by
  refine OnlyIn.widen hL h ?_
  have h0 := OnlyIn.refl [.muslin, .ports, .tweed, .tweedFb, .host, .health, .sent] d
  unfold takePacket
  repeat' (first
    | with_reducible assumption | ((with_reducible refine Part.subI ?_); exact rfl) | exact Or.inl rfl
    | exact Or.inr rfl | intro _ | with_reducible apply countImplausible_only | with_reducible apply takePoint_only
    | with_reducible apply OnlyIn.foldl | with_reducible apply OnlyIn.foldlSnd | split)

theorem lidarFrameReceived_only {L : List Part} {a : Dev} (n : Fin 8) (frame : LidarFrame) {d : Dev} (hL : Part.sub
    [.muslin, .ports, .tweed, .tweedFb, .host, .health, .sent] L = true) (h : OnlyIn L a d) :
    OnlyIn L a (lidarFrameReceived n frame d) := by
  refine OnlyIn.widen hL h ?_
  have h0 := OnlyIn.refl [.muslin, .ports, .tweed, .tweedFb, .host, .health, .sent] d
  unfold lidarFrameReceived
  repeat' (first
    | with_reducible assumption | ((with_reducible refine Part.subI ?_); exact rfl) | exact Or.inl rfl
    | exact Or.inr rfl | intro _ | with_reducible apply dropFrame_only | with_reducible apply dropParse_only
    | with_reducible apply takePacket_only | split)

end Sys2Proof.Machine
end

