-- ==== Sys2Proof/Laws/OnlyEngines.lean ====
section
/-!
SUPPORT. The parts of the device that the operations of the engines and the transfers may change
(Sys2Proof/Laws/Only.lean): one lemma for each.
-/

set_option linter.unusedVariables false

namespace Sys2Proof.Machine

open Sys2Proof

/-! ### Serge -/

theorem modSlot_only {L : List Part} {a : Dev} (g : Nat) (f : SrgSlot → SrgSlot) {d : Dev} (hL : Part.sub [.serge] L
    = true) (h : OnlyIn L a d) :
    OnlyIn L a (modSlot g f d) := by
  refine OnlyIn.widen hL h ?_
  have h0 := OnlyIn.refl [.serge] d
  unfold modSlot
  repeat' (first
    | with_reducible assumption | ((with_reducible refine Part.subI ?_); exact rfl) | exact Or.inl rfl
    | exact Or.inr rfl | intro _ | with_reducible apply Dev_setSrgSlot_only)

theorem modUnit_only {L : List Part} {a : Dev} (u : Nat) (f : SrgUnit → SrgUnit) {d : Dev} (hL : Part.sub [.serge] L
    = true) (h : OnlyIn L a d) :
    OnlyIn L a (modUnit u f d) := by
  refine OnlyIn.widen hL h ?_
  have h0 := OnlyIn.refl [.serge] d
  unfold modUnit
  repeat' (first
    | with_reducible assumption | ((with_reducible refine Part.subI ?_); exact rfl) | exact Or.inl rfl
    | exact Or.inr rfl | intro _ | with_reducible apply Dev_setSrgUnit_only)

theorem bumpSlot_only {L : List Part} {a : Dev} (g : Nat) (off : Nat) (get : SrgSlot → Counter) (put : Counter →
    SrgSlot → SrgSlot) (n : Nat) {d : Dev} (hL : Part.sub [.serge, .host, .health, .sent] L = true) (h : OnlyIn L a
    d) :
    OnlyIn L a (bumpSlot g off get put n d) := by
  refine OnlyIn.widen hL h ?_
  have h0 := OnlyIn.refl [.serge, .host, .health, .sent] d
  unfold bumpSlot
  repeat' (first
    | with_reducible assumption | ((with_reducible refine Part.subI ?_); exact rfl) | exact Or.inl rfl
    | exact Or.inr rfl | intro _ | with_reducible apply bump_only | with_reducible apply modSlot_only)

theorem bumpUnit_only {L : List Part} {a : Dev} (u : Nat) (off : Nat) (get : SrgUnit → Counter) (put : Counter →
    SrgUnit → SrgUnit) (n : Nat) {d : Dev} (hL : Part.sub [.serge, .host, .health, .sent] L = true) (h : OnlyIn L a
    d) :
    OnlyIn L a (bumpUnit u off get put n d) := by
  refine OnlyIn.widen hL h ?_
  have h0 := OnlyIn.refl [.serge, .host, .health, .sent] d
  unfold bumpUnit
  repeat' (first
    | with_reducible assumption | ((with_reducible refine Part.subI ?_); exact rfl) | exact Or.inl rfl
    | exact Or.inr rfl | intro _ | with_reducible apply bump_only | with_reducible apply modUnit_only)

theorem loadSlots_only {L : List Part} {a : Dev} (u : Nat) {d : Dev} (hL : Part.sub [.serge] L = true) (h : OnlyIn L
    a d) :
    OnlyIn L a (loadSlots u d) := by
  refine OnlyIn.widen hL h ?_
  have h0 := OnlyIn.refl [.serge] d
  unfold loadSlots
  repeat' (first
    | with_reducible assumption | ((with_reducible refine Part.subI ?_); exact rfl) | exact Or.inl rfl
    | exact Or.inr rfl | intro _ | with_reducible apply modSlot_only | with_reducible apply OnlyIn.foldl)

theorem faultUnit_only {L : List Part} {a : Dev} (u : Nat) (cause : Nat) (latched : Bool) {d : Dev} (hL : Part.sub
    [.plan, .serge, .host, .v0, .v1, .felt, .boot, .health, .sent] L = true) (h : OnlyIn L a d) :
    OnlyIn L a (faultUnit u cause latched d) := by
  refine OnlyIn.widen hL h ?_
  have h0 := OnlyIn.refl [.plan, .serge, .host, .v0, .v1, .felt, .boot, .health, .sent] d
  unfold faultUnit
  repeat' (first
    | with_reducible assumption | ((with_reducible refine Part.subI ?_); exact rfl) | exact Or.inl rfl
    | exact Or.inr rfl | intro _
    | (extract_lets +onlyGivenNames -underBinder dd; (subst dd))
    | with_reducible apply Dev_setWin_only | with_reducible apply modSlot_only | with_reducible apply modUnit_only
    | with_reducible apply bumpUnit_only | with_reducible apply raiseV_only | with_reducible apply raiseH_only
    | split)

theorem checkStructure_only {L : List Part} {a : Dev} (u : Nat) {d : Dev} (hL : Part.sub [.plan, .serge, .host, .v0,
    .v1, .felt, .ctrl, .boot, .health, .sent] L = true) (h : OnlyIn L a d) :
    OnlyIn L a (checkStructure u d) := by
  refine OnlyIn.widen hL h ?_
  have h0 := OnlyIn.refl [.plan, .serge, .host, .v0, .v1, .felt, .ctrl, .boot, .health, .sent] d
  unfold checkStructure
  repeat' (first
    | with_reducible assumption | ((with_reducible refine Part.subI ?_); exact rfl) | exact Or.inl rfl
    | exact Or.inr rfl | intro _
    | (extract_lets +onlyGivenNames -underBinder dd; (subst dd))
    | with_reducible apply modUnit_only | with_reducible apply modSlot_only | with_reducible apply raiseV_only
    | with_reducible apply raiseH_only | with_reducible apply refreshModes_only | with_reducible apply faultUnit_only
    | with_reducible apply OnlyIn.foldl | with_reducible apply OnlyIn.foldlSnd | split)

theorem loadUnit_only {L : List Part} {a : Dev} (u : Nat) {d : Dev} (hL : Part.sub [.plan, .serge, .host, .v0, .v1,
    .felt, .ctrl, .boot, .health, .sent] L = true) (h : OnlyIn L a d) :
    OnlyIn L a (loadUnit d u) := by
  refine OnlyIn.widen hL h ?_
  have h0 := OnlyIn.refl [.plan, .serge, .host, .v0, .v1, .felt, .ctrl, .boot, .health, .sent] d
  unfold loadUnit
  repeat' (first
    | with_reducible assumption | ((with_reducible refine Part.subI ?_); exact rfl) | exact Or.inl rfl
    | exact Or.inr rfl | intro _
    | (extract_lets +onlyGivenNames -underBinder dd; (subst dd))
    | with_reducible apply checkStructure_only | with_reducible apply modUnit_only
    | with_reducible apply loadSlots_only)

theorem sergeUnitResetDone_only {L : List Part} {a : Dev} (unit : Fin 4) {d : Dev} (hL : Part.sub [.plan, .serge,
    .host, .v0, .v1, .felt, .ctrl, .boot, .recovery, .health, .sent] L = true) (h : OnlyIn L a d) :
    OnlyIn L a (sergeUnitResetDone unit d) := by
  refine OnlyIn.widen hL h ?_
  have h0 := OnlyIn.refl [.plan, .serge, .host, .v0, .v1, .felt, .ctrl, .boot, .recovery, .health, .sent] d
  unfold sergeUnitResetDone
  repeat' (first
    | with_reducible assumption | ((with_reducible refine Part.subI ?_); exact rfl) | exact Or.inl rfl
    | exact Or.inr rfl | intro _
    | (extract_lets +onlyGivenNames -underBinder dd; (subst dd))
    | ((conv => (arg 3; arg 23; skip)); with_reducible apply OnlyIn.mk') | with_reducible apply checkStructure_only
    | with_reducible apply loadSlots_only | with_reducible apply modUnit_only | split)

theorem sergeUncorrectableSramError_only {L : List Part} {a : Dev} (unit : Fin 4) {d : Dev} (hL : Part.sub [.plan,
    .serge, .host, .v0, .v1, .felt, .boot, .health, .sent] L = true) (h : OnlyIn L a d) :
    OnlyIn L a (sergeUncorrectableSramError unit d) := by
  refine OnlyIn.widen hL h ?_
  have h0 := OnlyIn.refl [.plan, .serge, .host, .v0, .v1, .felt, .boot, .health, .sent] d
  unfold sergeUncorrectableSramError
  repeat' (first
    | with_reducible assumption | ((with_reducible refine Part.subI ?_); exact rfl) | exact Or.inl rfl
    | exact Or.inr rfl | intro _
    | (extract_lets +onlyGivenNames -underBinder dd; (subst dd))
    | with_reducible apply faultUnit_only | with_reducible apply bumpUnit_only | split)

theorem sergeStopTimeout_only {L : List Part} {a : Dev} (unit : Fin 4) {d : Dev} (hL : Part.sub [.plan, .serge,
    .host, .v0, .v1, .felt, .boot, .health, .sent] L = true) (h : OnlyIn L a d) :
    OnlyIn L a (sergeStopTimeout unit d) := by
  refine OnlyIn.widen hL h ?_
  have h0 := OnlyIn.refl [.plan, .serge, .host, .v0, .v1, .felt, .boot, .health, .sent] d
  unfold sergeStopTimeout
  repeat' (first
    | with_reducible assumption | ((with_reducible refine Part.subI ?_); exact rfl) | exact Or.inl rfl
    | exact Or.inr rfl | intro _
    | (extract_lets +onlyGivenNames -underBinder dd; (subst dd))
    | with_reducible apply faultUnit_only | split)

theorem packetComplete_only {L : List Part} {a : Dev} (ts : List Tensor) (dst : Nat) {d : Dev} (hL : Part.sub
    [.serge] L = true) (h : OnlyIn L a d) :
    OnlyIn L a (packetComplete ts dst d) := by
  refine OnlyIn.widen hL h ?_
  have h0 := OnlyIn.refl [.serge] d
  unfold packetComplete
  repeat' (first
    | with_reducible assumption | ((with_reducible refine Part.subI ?_); exact rfl) | exact Or.inl rfl
    | exact Or.inr rfl | intro _
    | (extract_lets +onlyGivenNames -underBinder dd; (subst dd))
    | with_reducible apply modSlot_only | split)

theorem applyPacket_only {L : List Part} {a : Dev} (g : Nat) (s : SlotRec) (p : Packet) {d : Dev} (hL : Part.sub
    [.serge, .host, .health, .sent] L = true) (h : OnlyIn L a d) :
    OnlyIn L a (applyPacket g s d p) := by
  refine OnlyIn.widen hL h ?_
  have h0 := OnlyIn.refl [.serge, .host, .health, .sent] d
  unfold applyPacket
  repeat' (first
    | with_reducible assumption | ((with_reducible refine Part.subI ?_); exact rfl) | exact Or.inl rfl
    | exact Or.inr rfl | intro _
    | (extract_lets +onlyGivenNames -underBinder dd; (subst dd))
    | with_reducible apply bumpSlot_only | with_reducible apply modSlot_only | with_reducible apply OnlyIn.foldl
    | with_reducible apply OnlyIn.foldlSnd | split)

theorem applyPackets_only {L : List Part} {a : Dev} (g : Nat) (s : SlotRec) {d : Dev} (hL : Part.sub [.serge, .host,
    .health, .sent] L = true) (h : OnlyIn L a d) :
    OnlyIn L a (applyPackets g s d) := by
  refine OnlyIn.widen hL h ?_
  have h0 := OnlyIn.refl [.serge, .host, .health, .sent] d
  unfold applyPackets
  repeat' (first
    | with_reducible assumption | ((with_reducible refine Part.subI ?_); exact rfl) | exact Or.inl rfl
    | exact Or.inr rfl | intro _
    | (extract_lets +onlyGivenNames -underBinder dd; (subst dd))
    | with_reducible apply applyPacket_only | with_reducible apply modSlot_only | with_reducible apply OnlyIn.foldl)

theorem reinitEgo_only {L : List Part} {a : Dev} (s : SlotRec) (src : Source) (g : Nat) (b : Nanos) {d : Dev} (hL :
    Part.sub [.serge, .host, .felt, .health, .sent] L = true) (h : OnlyIn L a d) :
    OnlyIn L a (reinitEgo s src g b d) := by
  refine OnlyIn.widen hL h ?_
  have h0 := OnlyIn.refl [.serge, .host, .felt, .health, .sent] d
  unfold reinitEgo
  repeat' (first
    | with_reducible assumption | ((with_reducible refine Part.subI ?_); exact rfl) | exact Or.inl rfl
    | exact Or.inr rfl | intro _
    | (extract_lets +onlyGivenNames -underBinder dd; (subst dd))
    | ((conv => (arg 3; arg 23; skip)); with_reducible apply OnlyIn.mk') | with_reducible apply modSlot_only
    | with_reducible apply bumpSlot_only | with_reducible apply OnlyIn.foldl | with_reducible apply OnlyIn.foldlSnd
    | split)

theorem advanceRing_only {L : List Part} {a : Dev} (g : Nat) (s : SlotRec) (src : Source) (b : Nanos) (fresh : Bool)
    {d : Dev} (hL : Part.sub [.serge] L = true) (h : OnlyIn L a d) :
    OnlyIn L a (advanceRing g s src b fresh d) := by
  refine OnlyIn.widen hL h ?_
  have h0 := OnlyIn.refl [.serge] d
  unfold advanceRing
  repeat' (first
    | with_reducible assumption | ((with_reducible refine Part.subI ?_); exact rfl) | exact Or.inl rfl
    | exact Or.inr rfl | intro _
    | (extract_lets +onlyGivenNames -underBinder dd; (subst dd))
    | with_reducible apply modSlot_only)

theorem startEgo_only {L : List Part} {a : Dev} (g : Nat) (s : SlotRec) (b : Nanos) {d : Dev} (hL : Part.sub [.serge,
    .host, .felt, .health, .sent] L = true) (h : OnlyIn L a d) :
    OnlyIn L a (startEgo g s b d) := by
  refine OnlyIn.widen hL h ?_
  have h0 := OnlyIn.refl [.serge, .host, .felt, .health, .sent] d
  unfold startEgo
  repeat' (first
    | with_reducible assumption | ((with_reducible refine Part.subI ?_); exact rfl) | exact Or.inl rfl
    | exact Or.inr rfl | intro _
    | (extract_lets +onlyGivenNames -underBinder dd; (subst dd))
    | ((conv => (arg 3; arg 23; skip)); with_reducible apply OnlyIn.mk') | with_reducible apply reinitEgo_only
    | with_reducible apply advanceRing_only | split)

theorem startSolve_only {L : List Part} {a : Dev} (src : Source) (tick : Nat) (w : Nat) (g : Nat) (s : SlotRec)
    (opening : Int) (planned : Nanos) {d : Dev} (hL : Part.sub [.plan, .serge, .host, .felt, .health, .sent] L =
    true) (h : OnlyIn L a d) :
    OnlyIn L a (startSolve src tick w g s opening planned d) := by
  refine OnlyIn.widen hL h ?_
  have h0 := OnlyIn.refl [.plan, .serge, .host, .felt, .health, .sent] d
  unfold startSolve
  repeat' (first
    | with_reducible assumption | ((with_reducible refine Part.subI ?_); exact rfl) | exact Or.inl rfl
    | exact Or.inr rfl | intro _
    | (extract_lets +onlyGivenNames -underBinder dd; (subst dd))
    | with_reducible apply applyPackets_only | with_reducible apply startEgo_only | with_reducible apply modSlot_only
    | with_reducible apply modUnit_only | with_reducible apply Dev_setWin_only | split)

theorem releaseSerge_only {L : List Part} {a : Dev} (src : Source) (tick : Nat) (w : Nat) (r : WindowRec) {d : Dev}
    (hL : Part.sub [.plan, .serge, .host, .felt, .health, .sent] L = true) (h : OnlyIn L a d) :
    OnlyIn L a (releaseSerge src tick w r d) := by
  refine OnlyIn.widen hL h ?_
  have h0 := OnlyIn.refl [.plan, .serge, .host, .felt, .health, .sent] d
  unfold releaseSerge
  repeat' (first
    | with_reducible assumption | ((with_reducible refine Part.subI ?_); exact rfl) | exact Or.inl rfl
    | exact Or.inr rfl | intro _
    | (extract_lets +onlyGivenNames -underBinder dd; (subst dd))
    | with_reducible apply Dev_setWin_only | with_reducible apply startSolve_only | split)

theorem writeEgo_only {L : List Part} {a : Dev} (g : Nat) (s : SlotRec) (r : SolveResult) (status : SolveStatus) (reg
    : Bool) {d : Dev} (hL : Part.sub [.serge, .felt] L = true) (h : OnlyIn L a d) :
    OnlyIn L a (writeEgo g s r status reg d) := by
  refine OnlyIn.widen hL h ?_
  have h0 := OnlyIn.refl [.serge, .felt] d
  unfold writeEgo
  repeat' (first
    | with_reducible assumption | ((with_reducible refine Part.subI ?_); exact rfl) | exact Or.inl rfl
    | exact Or.inr rfl | intro _
    | (extract_lets +onlyGivenNames -underBinder dd; (subst dd))
    | ((conv => (arg 3; arg 23; skip)); with_reducible apply OnlyIn.mk') | with_reducible apply modSlot_only | split)

theorem writeConsist_only {L : List Part} {a : Dev} (tick : Nat) (r : SolveResult) {d : Dev} (hL : Part.sub [.serge]
    L = true) (h : OnlyIn L a d) :
    OnlyIn L a (writeConsist tick r d) := by
  refine OnlyIn.widen hL h ?_
  have h0 := OnlyIn.refl [.serge] d
  unfold writeConsist
  repeat' (first
    | with_reducible assumption | exact Or.inl rfl | exact Or.inr rfl | intro _
    | (extract_lets +onlyGivenNames -underBinder dd; (subst dd))
    | ((conv => (arg 3; arg 23; skip)); with_reducible apply OnlyIn.mk'))

theorem noteScan_only {L : List Part} {a : Dev} (status : SolveStatus) (reg : Bool) {d : Dev} (hL : Part.sub [.serge]
    L = true) (h : OnlyIn L a d) :
    OnlyIn L a (noteScan status reg d) := by
  refine OnlyIn.widen hL h ?_
  have h0 := OnlyIn.refl [.serge] d
  unfold noteScan
  repeat' (first
    | with_reducible assumption | exact Or.inl rfl | exact Or.inr rfl | intro _
    | (extract_lets +onlyGivenNames -underBinder dd; (subst dd))
    | ((conv => (arg 3; arg 23; skip)); with_reducible apply OnlyIn.mk'))

theorem endScan_only {L : List Part} {a : Dev} (g : Nat) (r : SolveResult) (status : SolveStatus) (reg : Bool) {d :
    Dev} (hL : Part.sub [.serge, .host, .health, .sent] L = true) (h : OnlyIn L a d) :
    OnlyIn L a (endScan g r status reg d) := by
  refine OnlyIn.widen hL h ?_
  have h0 := OnlyIn.refl [.serge, .host, .health, .sent] d
  unfold endScan
  repeat' (first
    | with_reducible assumption | ((with_reducible refine Part.subI ?_); exact rfl) | exact Or.inl rfl
    | exact Or.inr rfl | intro _
    | (extract_lets +onlyGivenNames -underBinder dd; (subst dd))
    | ((conv => (arg 3; arg 23; skip)); with_reducible apply OnlyIn.mk') | with_reducible apply noteScan_only
    | with_reducible apply writeConsist_only | with_reducible apply bumpSlot_only | split)

theorem endCalib_only {L : List Part} {a : Dev} (g : Nat) (r : SolveResult) (status : SolveStatus) (reg : Bool) {d :
    Dev} (hL : Part.sub [.cal, .serge, .output, .host, .health, .sent, .freeCtr] L = true) (h : OnlyIn L a d) :
    OnlyIn L a (endCalib g r status reg d) := by
  refine OnlyIn.widen hL h ?_
  have h0 := OnlyIn.refl [.cal, .serge, .output, .host, .health, .sent, .freeCtr] d
  unfold endCalib
  repeat' (first
    | with_reducible assumption | ((with_reducible refine Part.subI ?_); exact rfl) | exact Or.inl rfl
    | exact Or.inr rfl | intro _
    | (extract_lets +onlyGivenNames -underBinder dd; (subst dd))
    | ((conv => (arg 3; arg 23; skip)); with_reducible apply OnlyIn.mk') | with_reducible apply writeConsist_only
    | with_reducible apply bumpSlot_only | with_reducible apply calGate_only | split)

theorem stopUnit_only {L : List Part} {a : Dev} (g : Nat) (s : SlotRec) {d : Dev} (hL : Part.sub [.plan, .serge] L =
    true) (h : OnlyIn L a d) :
    OnlyIn L a (stopUnit g s d) := by
  refine OnlyIn.widen hL h ?_
  have h0 := OnlyIn.refl [.plan, .serge] d
  unfold stopUnit
  repeat' (first
    | with_reducible assumption | ((with_reducible refine Part.subI ?_); exact rfl) | exact Or.inl rfl
    | exact Or.inr rfl | intro _
    | (extract_lets +onlyGivenNames -underBinder dd; (subst dd))
    | with_reducible apply modUnit_only | with_reducible apply Dev_setWin_only)

theorem endSolve_only {L : List Part} {a : Dev} (g : Nat) (s : SlotRec) (r : SolveResult) {d : Dev} (hL : Part.sub
    [.cal, .plan, .serge, .output, .host, .felt, .health, .sent, .freeCtr] L = true) (h : OnlyIn L a d) :
    OnlyIn L a (endSolve g s r d) := by
  refine OnlyIn.widen hL h ?_
  have h0 := OnlyIn.refl [.cal, .plan, .serge, .output, .host, .felt, .health, .sent, .freeCtr] d
  unfold endSolve
  repeat' (first
    | with_reducible assumption | ((with_reducible refine Part.subI ?_); exact rfl) | exact Or.inl rfl
    | exact Or.inr rfl | intro _
    | (extract_lets +onlyGivenNames -underBinder dd; (subst dd))
    | with_reducible apply stopUnit_only | with_reducible apply bumpUnit_only | with_reducible apply bumpSlot_only
    | with_reducible apply modSlot_only | with_reducible apply writeEgo_only | with_reducible apply endScan_only
    | with_reducible apply endCalib_only | split)

theorem solveEnd_only {L : List Part} {a : Dev} (unit : Fin 4) (run : SolveRun) {d : Dev} (hL : Part.sub [.cal,
    .plan, .serge, .output, .host, .felt, .health, .sent, .freeCtr] L = true) (h : OnlyIn L a d) :
    OnlyIn L a (solveEnd unit run d) := by
  refine OnlyIn.widen hL h ?_
  have h0 := OnlyIn.refl [.cal, .plan, .serge, .output, .host, .felt, .health, .sent, .freeCtr] d
  unfold solveEnd
  repeat' (first
    | with_reducible assumption | ((with_reducible refine Part.subI ?_); exact rfl) | exact Or.inl rfl
    | exact Or.inr rfl | intro _
    | (extract_lets +onlyGivenNames -underBinder dd; (subst dd))
    | with_reducible apply endSolve_only | split)

theorem pauseSolve_only {L : List Part} {a : Dev} (g : Nat) (s : SlotRec) (r : SolveResult) {d : Dev} (hL : Part.sub
    [.plan, .serge, .host, .health, .sent] L = true) (h : OnlyIn L a d) :
    OnlyIn L a (pauseSolve g s r d) := by
  refine OnlyIn.widen hL h ?_
  have h0 := OnlyIn.refl [.plan, .serge, .host, .health, .sent] d
  unfold pauseSolve
  repeat' (first
    | with_reducible assumption | ((with_reducible refine Part.subI ?_); exact rfl) | exact Or.inl rfl
    | exact Or.inr rfl | intro _
    | (extract_lets +onlyGivenNames -underBinder dd; (subst dd))
    | with_reducible apply stopUnit_only | with_reducible apply bumpUnit_only | with_reducible apply modSlot_only)

theorem sergeDeadline_only {L : List Part} {a : Dev} (unit : Fin 4) (run : Option SolveRun) {d : Dev} (hL : Part.sub
    [.cal, .plan, .serge, .output, .host, .felt, .health, .sent, .freeCtr] L = true) (h : OnlyIn L a d) :
    OnlyIn L a (sergeDeadline unit run d) := by
  refine OnlyIn.widen hL h ?_
  have h0 := OnlyIn.refl [.cal, .plan, .serge, .output, .host, .felt, .health, .sent, .freeCtr] d
  unfold sergeDeadline
  repeat' (first
    | with_reducible assumption | ((with_reducible refine Part.subI ?_); exact rfl) | exact Or.inl rfl
    | exact Or.inr rfl | intro _
    | (extract_lets +onlyGivenNames -underBinder dd; (subst dd))
    | with_reducible apply modUnit_only | with_reducible apply pauseSolve_only | with_reducible apply endSolve_only
    | split)

theorem lastEndLoRead_only {L : List Part} {a : Dev} (slot : Fin 16) {d : Dev} (hL : Part.sub [.serge] L = true) (h :
    OnlyIn L a d) :
    OnlyIn L a (lastEndLoRead slot d) := by
  refine OnlyIn.widen hL h ?_
  have h0 := OnlyIn.refl [.serge] d
  unfold lastEndLoRead
  repeat' (first
    | with_reducible assumption | ((with_reducible refine Part.subI ?_); exact rfl) | exact Or.inl rfl
    | exact Or.inr rfl | intro _ | with_reducible apply modSlot_only)

theorem suspendSlots_only {L : List Part} {a : Dev} (mode : Nat) {d : Dev} (hL : Part.sub [.serge] L = true) (h :
    OnlyIn L a d) :
    OnlyIn L a (suspendSlots mode d) := by
  refine OnlyIn.widen hL h ?_
  have h0 := OnlyIn.refl [.serge] d
  unfold suspendSlots
  repeat' (first
    | with_reducible assumption | ((with_reducible refine Part.subI ?_); exact rfl) | exact Or.inl rfl
    | exact Or.inr rfl | intro _ | with_reducible apply modSlot_only | with_reducible apply OnlyIn.foldl)

theorem enterHistory_only {L : List Part} {a : Dev} (b : Nanos) (src : Source) {d : Dev} (hL : Part.sub [.muslin,
    .serge, .felt] L = true) (h : OnlyIn L a d) :
    OnlyIn L a (enterHistory b d src) := by
  refine OnlyIn.widen hL h ?_
  have h0 := OnlyIn.refl [.muslin, .serge, .felt] d
  unfold enterHistory
  repeat' (first
    | with_reducible assumption | ((with_reducible refine Part.subI ?_); exact rfl) | exact Or.inl rfl
    | exact Or.inr rfl | intro _
    | (extract_lets +onlyGivenNames -underBinder dd; (subst dd))
    | ((conv => (arg 3; arg 23; skip)); with_reducible apply OnlyIn.mk') | with_reducible apply modSlot_only
    | with_reducible apply endCondition_only | split)

/-! ### Transfers -/

theorem tensorEcc_only {L : List Part} {a : Dev} (ts : List Tensor) (t : TransferDesc) (window : Option Nat) (e : Nat
    × Ecc) {d : Dev} (hL : Part.sub [.tweed, .chambray, .fabric, .plan, .damask, .host, .v0, .v1, .felt, .ctrl,
    .boot, .recovery, .health, .mem, .sent, .freeCtr] L = true) (h : OnlyIn L a d) :
    OnlyIn L a (tensorEcc ts t window d e) := by
  refine OnlyIn.widen hL h ?_
  have h0 := OnlyIn.refl [.tweed, .chambray, .fabric, .plan, .damask, .host, .v0, .v1, .felt, .ctrl, .boot,
      .recovery, .health, .mem, .sent, .freeCtr] d
  unfold tensorEcc
  repeat' (first
    | with_reducible assumption | ((with_reducible refine Part.subI ?_); exact rfl) | exact Or.inl rfl
    | exact Or.inr rfl | intro _ | with_reducible apply eccRead_only | with_reducible apply losePageOf_only
    | with_reducible apply pageFault_only | split)

theorem transferComplete_only {L : List Part} {a : Dev} (cl : Fin 132) (n : Nat) (ecc : List Ecc) {d : Dev} (hL :
    Part.sub [.tweed, .chambray, .fabric, .plan, .damask, .serge, .host, .v0, .v1, .felt, .ctrl, .boot, .recovery,
    .health, .mem, .sent, .freeCtr] L = true) (h : OnlyIn L a d) :
    OnlyIn L a (transferComplete cl n ecc d) := by
  refine OnlyIn.widen hL h ?_
  have h0 := OnlyIn.refl [.tweed, .chambray, .fabric, .plan, .damask, .serge, .host, .v0, .v1, .felt, .ctrl, .boot,
      .recovery, .health, .mem, .sent, .freeCtr] d
  unfold transferComplete
  repeat' (first
    | with_reducible assumption | ((with_reducible refine Part.subI ?_); exact rfl) | exact Or.inl rfl
    | exact Or.inr rfl | intro _
    | (extract_lets +onlyGivenNames -underBinder dd; (subst dd))
    | with_reducible apply moveData_only | with_reducible apply releaseTransfer_only
    | with_reducible apply incTally_only | with_reducible apply tensorEcc_only
    | with_reducible apply packetComplete_only | with_reducible apply OnlyIn.foldl
    | with_reducible apply OnlyIn.foldlSnd | split)

theorem transferTimeout_only {L : List Part} {a : Dev} (cl : Fin 132) (n : Nat) {d : Dev} (hL : Part.sub [.chambray,
    .fabric, .plan, .serge, .host, .v0, .v1, .felt, .boot, .health, .mem, .sent, .freeCtr] L = true) (h : OnlyIn L a
    d) :
    OnlyIn L a (transferTimeout cl n d) := by
  refine OnlyIn.widen hL h ?_
  have h0 := OnlyIn.refl [.chambray, .fabric, .plan, .serge, .host, .v0, .v1, .felt, .boot, .health, .mem, .sent,
      .freeCtr] d
  unfold transferTimeout
  repeat' (first
    | with_reducible assumption | ((with_reducible refine Part.subI ?_); exact rfl) | exact Or.inl rfl
    | exact Or.inr rfl | intro _
    | (extract_lets +onlyGivenNames -underBinder dd; (subst dd))
    | ((conv => (arg 3; arg 23; skip)); with_reducible apply OnlyIn.mk') | with_reducible apply moveData_only
    | with_reducible apply satEvent_only | with_reducible apply Dev_modCluster_only
    | with_reducible apply faultKey_only | with_reducible apply releaseTransfer_only
    | with_reducible apply faultUnit_only | split)

/-! ### Chambray -/

theorem countChb_only {L : List Part} {a : Dev} (x : Nat) (tick : Nat) (i : Nat) (n : Nat) {d : Dev} (hL : Part.sub
    [.chambray] L = true) (h : OnlyIn L a d) :
    OnlyIn L a (countChb x tick i n d) := by
  refine OnlyIn.widen hL h ?_
  have h0 := OnlyIn.refl [.chambray] d
  unfold countChb
  repeat' (first
    | with_reducible assumption | ((with_reducible refine Part.subI ?_); exact rfl) | exact Or.inl rfl
    | exact Or.inr rfl | intro _ | with_reducible apply modChb_only)

theorem buildBands_only {L : List Part} {a : Dev} (tick : Nat) (v : Nanos) (cam : Nat) (f : CameraFields) {d : Dev}
    (hL : Part.sub [.tweed, .tweedFb, .chambray, .host, .health, .sent] L = true) (h : OnlyIn L a d) :
    OnlyIn L a (buildBands tick v cam f d) := by
  refine OnlyIn.widen hL h ?_
  have h0 := OnlyIn.refl [.tweed, .tweedFb, .chambray, .host, .health, .sent] d
  unfold buildBands
  repeat' (first
    | with_reducible assumption | ((with_reducible refine Part.subI ?_); exact rfl) | exact Or.inl rfl
    | exact Or.inr rfl | intro _
    | (extract_lets +onlyGivenNames -underBinder dd; (subst dd))
    | ((conv => (arg 3; arg 23; skip)); with_reducible apply OnlyIn.mk') | with_reducible apply noteFar_only
    | with_reducible apply bump_only | with_reducible apply modChb_only | with_reducible apply OnlyIn.foldl
    | with_reducible apply OnlyIn.foldlSnd | split)

theorem composeCamera_only {L : List Part} {a : Dev} (tick : Nat) (o : ChbRec) (cam : Nat) {d : Dev} (hL : Part.sub
    [.tweed, .tweedFb, .chambray, .host, .health, .sent] L = true) (h : OnlyIn L a d) :
    OnlyIn L a (composeCamera tick o d cam) := by
  refine OnlyIn.widen hL h ?_
  have h0 := OnlyIn.refl [.tweed, .tweedFb, .chambray, .host, .health, .sent] d
  unfold composeCamera
  repeat' (first
    | with_reducible assumption | ((with_reducible refine Part.subI ?_); exact rfl) | exact Or.inl rfl
    | exact Or.inr rfl | intro _
    | (extract_lets +onlyGivenNames -underBinder dd; (subst dd))
    | ((conv => (arg 3; arg 23; skip)); with_reducible apply OnlyIn.mk') | with_reducible apply bump_only
    | with_reducible apply modChb_only | with_reducible apply noteFar_only | with_reducible apply OnlyIn.foldl
    | with_reducible apply OnlyIn.foldlSnd | split)

theorem writeBandTables_only {L : List Part} {a : Dev} (tick : Nat) (v : Nanos) (o : ChbRec) (t : Option Tensor) {d :
    Dev} (hL : Part.sub [.mem] L = true) (h : OnlyIn L a d) :
    OnlyIn L a (writeBandTables tick v o t d) := by
  refine OnlyIn.widen hL h ?_
  have h0 := OnlyIn.refl [.mem] d
  unfold writeBandTables
  repeat' (first
    | with_reducible assumption | ((with_reducible refine Part.subI ?_); exact rfl) | exact Or.inl rfl
    | exact Or.inr rfl | intro _ | with_reducible apply setBytes_only | with_reducible apply OnlyIn.foldl
    | with_reducible apply OnlyIn.foldlSnd | split)

theorem countShots_only {L : List Part} {a : Dev} (x : Nat) (tick : Nat) (l : List Shot) {d : Dev} (hL : Part.sub
    [.chambray] L = true) (h : OnlyIn L a d) :
    OnlyIn L a (countShots x tick l d) := by
  refine OnlyIn.widen hL h ?_
  have h0 := OnlyIn.refl [.chambray] d
  unfold countShots
  repeat' (first
    | with_reducible assumption | ((with_reducible refine Part.subI ?_); exact rfl) | exact Or.inl rfl
    | exact Or.inr rfl | intro _ | with_reducible apply countChb_only)

theorem writeFeatures_only {L : List Part} {a : Dev} (o : ChbRec) (row : Nat) (fs : List F32) (word : Nat) {d : Dev}
    (hL : Part.sub [.mem] L = true) (h : OnlyIn L a d) :
    OnlyIn L a (writeFeatures o row fs word d) := by
  refine OnlyIn.widen hL h ?_
  have h0 := OnlyIn.refl [.mem] d
  unfold writeFeatures
  repeat' (first
    | with_reducible assumption | ((with_reducible refine Part.subI ?_); exact rfl) | exact Or.inl rfl
    | exact Or.inr rfl | intro _
    | (extract_lets +onlyGivenNames -underBinder dd; (subst dd))
    | with_reducible apply setElem_only | with_reducible apply setBytes_only | with_reducible apply OnlyIn.foldl)

theorem sampleCell_only {L : List Part} {a : Dev} (c : ChbCtx) (t : Tensor) (p : Nat × Nat) {d : Dev} (hL : Part.sub
    [.chambray, .mem] L = true) (h : OnlyIn L a d) :
    OnlyIn L a (sampleCell c t d p) := by
  refine OnlyIn.widen hL h ?_
  have h0 := OnlyIn.refl [.chambray, .mem] d
  unfold sampleCell
  repeat' (first
    | with_reducible assumption | ((with_reducible refine Part.subI ?_); exact rfl) | exact Or.inl rfl
    | exact Or.inr rfl | intro _
    | (extract_lets +onlyGivenNames -underBinder dd; (subst dd))
    | with_reducible apply writeFeatures_only | with_reducible apply countShots_only)

theorem runSample_only {L : List Part} {a : Dev} (c : ChbCtx) {d : Dev} (hL : Part.sub [.chambray, .mem] L = true) (h
    : OnlyIn L a d) :
    OnlyIn L a (runSample c d) := by
  refine OnlyIn.widen hL h ?_
  have h0 := OnlyIn.refl [.chambray, .mem] d
  unfold runSample
  repeat' (first
    | with_reducible assumption | ((with_reducible refine Part.subI ?_); exact rfl) | exact Or.inl rfl
    | exact Or.inr rfl | intro _
    | (extract_lets +onlyGivenNames -underBinder dd; (subst dd))
    | with_reducible apply sampleCell_only | with_reducible apply OnlyIn.foldl | with_reducible apply OnlyIn.foldlSnd
    | split)

theorem paintPoint_only {L : List Part} {a : Dev} (c : ChbCtx) (list : Tensor) (t : Tensor) (n : Nat) {d : Dev} (hL :
    Part.sub [.chambray, .mem] L = true) (h : OnlyIn L a d) :
    OnlyIn L a (paintPoint c list t d n) := by
  refine OnlyIn.widen hL h ?_
  have h0 := OnlyIn.refl [.chambray, .mem] d
  unfold paintPoint
  repeat' (first
    | with_reducible assumption | ((with_reducible refine Part.subI ?_); exact rfl) | exact Or.inl rfl
    | exact Or.inr rfl | intro _
    | (extract_lets +onlyGivenNames -underBinder dd; (subst dd))
    | with_reducible apply countChb_only | with_reducible apply writeFeatures_only
    | with_reducible apply countShots_only | split)

theorem runPaint_only {L : List Part} {a : Dev} (c : ChbCtx) {d : Dev} (hL : Part.sub [.chambray, .mem] L = true) (h
    : OnlyIn L a d) :
    OnlyIn L a (runPaint c d) := by
  refine OnlyIn.widen hL h ?_
  have h0 := OnlyIn.refl [.chambray, .mem] d
  unfold runPaint
  repeat' (first
    | with_reducible assumption | ((with_reducible refine Part.subI ?_); exact rfl) | exact Or.inl rfl
    | exact Or.inr rfl | intro _ | with_reducible apply paintPoint_only | with_reducible apply OnlyIn.foldl
    | with_reducible apply OnlyIn.foldlSnd | split)

theorem sumCell_only {L : List Part} {a : Dev} (c : ChbCtx) (t : Tensor) (p : Nat × Nat) {d : Dev} (hL : Part.sub
    [.mem, .freeCtr] L = true) (h : OnlyIn L a d) :
    OnlyIn L a (sumCell c t d p) := by
  refine OnlyIn.widen hL h ?_
  have h0 := OnlyIn.refl [.mem, .freeCtr] d
  unfold sumCell
  repeat' (first
    | with_reducible assumption | ((with_reducible refine Part.subI ?_); exact rfl) | exact Or.inl rfl
    | exact Or.inr rfl | intro _
    | (extract_lets +onlyGivenNames -underBinder dd; (subst dd))
    | ((conv => (arg 3; arg 23; skip)); with_reducible apply OnlyIn.mk') | with_reducible apply setBytes_only
    | with_reducible apply OnlyIn.foldl)

theorem clearAcc_only {L : List Part} {a : Dev} (c : ChbCtx) (t : Tensor) {d : Dev} (hL : Part.sub [.chambray, .mem]
    L = true) (h : OnlyIn L a d) :
    OnlyIn L a (clearAcc c t d) := by
  refine OnlyIn.widen hL h ?_
  have h0 := OnlyIn.refl [.chambray, .mem] d
  unfold clearAcc
  repeat' (first
    | with_reducible assumption | ((with_reducible refine Part.subI ?_); exact rfl) | exact Or.inl rfl
    | exact Or.inr rfl | intro _
    | (extract_lets +onlyGivenNames -underBinder dd; (subst dd))
    | ((conv => (arg 3; arg 23; skip)); with_reducible apply OnlyIn.mk') | with_reducible apply setBytes_only
    | with_reducible apply OnlyIn.foldl)

theorem convertCell_only {L : List Part} {a : Dev} (c : ChbCtx) (acc : Tensor) (t : Tensor) (p : Nat × Nat) {d : Dev}
    (hL : Part.sub [.mem] L = true) (h : OnlyIn L a d) :
    OnlyIn L a (convertCell c acc t d p) := by
  refine OnlyIn.widen hL h ?_
  have h0 := OnlyIn.refl [.mem] d
  unfold convertCell
  repeat' (first
    | with_reducible assumption | ((with_reducible refine Part.subI ?_); exact rfl) | exact Or.inl rfl
    | exact Or.inr rfl | intro _
    | (extract_lets +onlyGivenNames -underBinder dd; (subst dd))
    | with_reducible apply writeFeatures_only)

theorem convertStripes_only {L : List Part} {a : Dev} (c : ChbCtx) (acc : Tensor) (t : Tensor) (units : List Nat) {d
    : Dev} (hL : Part.sub [.mem] L = true) (h : OnlyIn L a d) :
    OnlyIn L a (convertStripes c acc t units d) := by
  refine OnlyIn.widen hL h ?_
  have h0 := OnlyIn.refl [.mem] d
  unfold convertStripes
  repeat' (first
    | with_reducible assumption | ((with_reducible refine Part.subI ?_); exact rfl) | exact Or.inl rfl
    | exact Or.inr rfl | intro _ | with_reducible apply convertCell_only | with_reducible apply OnlyIn.foldl)

theorem runLift_only {L : List Part} {a : Dev} (c : ChbCtx) {d : Dev} (hL : Part.sub [.chambray, .mem, .freeCtr] L =
    true) (h : OnlyIn L a d) :
    OnlyIn L a (runLift c d) := by
  refine OnlyIn.widen hL h ?_
  have h0 := OnlyIn.refl [.chambray, .mem, .freeCtr] d
  unfold runLift
  repeat' (first
    | with_reducible assumption | ((with_reducible refine Part.subI ?_); exact rfl) | exact Or.inl rfl
    | exact Or.inr rfl | intro _
    | (extract_lets +onlyGivenNames -underBinder dd; (subst dd))
    | ((conv => (arg 3; arg 23; skip)); with_reducible apply OnlyIn.mk') | with_reducible apply clearAcc_only
    | with_reducible apply countChb_only | with_reducible apply sumCell_only
    | with_reducible apply convertStripes_only | with_reducible apply OnlyIn.foldl
    | with_reducible apply OnlyIn.foldlSnd | split)

theorem stopLift_only {L : List Part} {a : Dev} (c : ChbCtx) {d : Dev} (hL : Part.sub [.chambray, .mem, .freeCtr] L =
    true) (h : OnlyIn L a d) :
    OnlyIn L a (stopLift c d) := by
  refine OnlyIn.widen hL h ?_
  have h0 := OnlyIn.refl [.chambray, .mem, .freeCtr] d
  unfold stopLift
  repeat' (first
    | with_reducible assumption | ((with_reducible refine Part.subI ?_); exact rfl) | exact Or.inl rfl
    | exact Or.inr rfl | intro _
    | (extract_lets +onlyGivenNames -underBinder dd; (subst dd))
    | ((conv => (arg 3; arg 23; skip)); with_reducible apply OnlyIn.mk') | with_reducible apply sumCell_only
    | with_reducible apply convertStripes_only | with_reducible apply OnlyIn.foldl
    | with_reducible apply OnlyIn.foldlSnd | split)

theorem boxIn_only {L : List Part} {a : Dev} (c : ChbCtx) (t : Tensor) (n : Nat) (box : List F32) (s : View) {d :
    Dev} (hL : Part.sub [.chambray, .mem] L = true) (h : OnlyIn L a d) :
    OnlyIn L a (boxIn c t n box d s) := by
  refine OnlyIn.widen hL h ?_
  have h0 := OnlyIn.refl [.chambray, .mem] d
  unfold boxIn
  repeat' (first
    | with_reducible assumption | ((with_reducible refine Part.subI ?_); exact rfl) | exact Or.inl rfl
    | exact Or.inr rfl | intro _
    | (extract_lets +onlyGivenNames -underBinder dd; (subst dd))
    | with_reducible apply countChb_only | with_reducible apply setBytes_only)

theorem runBox_only {L : List Part} {a : Dev} (c : ChbCtx) {d : Dev} (hL : Part.sub [.chambray, .mem] L = true) (h :
    OnlyIn L a d) :
    OnlyIn L a (runBox c d) := by
  refine OnlyIn.widen hL h ?_
  have h0 := OnlyIn.refl [.chambray, .mem] d
  unfold runBox
  repeat' (first
    | with_reducible assumption | ((with_reducible refine Part.subI ?_); exact rfl) | exact Or.inl rfl
    | exact Or.inr rfl | intro _
    | (extract_lets +onlyGivenNames -underBinder dd; (subst dd))
    | with_reducible apply boxIn_only | with_reducible apply OnlyIn.foldl | with_reducible apply OnlyIn.foldlSnd
    | split)

theorem beginUnit_only {L : List Part} {a : Dev} (x : Nat) (tick : Nat) (gen : BitVec 32) {d : Dev} (hL : Part.sub
    [.chambray] L = true) (h : OnlyIn L a d) :
    OnlyIn L a (beginUnit x tick gen d) := by
  refine OnlyIn.widen hL h ?_
  have h0 := OnlyIn.refl [.chambray] d
  unfold beginUnit
  repeat' (first
    | with_reducible assumption | ((with_reducible refine Part.subI ?_); exact rfl) | exact Or.inl rfl
    | exact Or.inr rfl | intro _ | with_reducible apply modChb_only)

theorem runChambray_only {L : List Part} {a : Dev} (tick : Nat) (w : Nat) {d : Dev} (hL : Part.sub [.tweed, .tweedFb,
    .chambray, .host, .health, .mem, .sent, .freeCtr] L = true) (h : OnlyIn L a d) :
    OnlyIn L a (runChambray tick w d) := by
  refine OnlyIn.widen hL h ?_
  have h0 := OnlyIn.refl [.tweed, .tweedFb, .chambray, .host, .health, .mem, .sent, .freeCtr] d
  unfold runChambray
  repeat' (first
    | with_reducible assumption | ((with_reducible refine Part.subI ?_); exact rfl) | exact Or.inl rfl
    | exact Or.inr rfl | intro _
    | (extract_lets +onlyGivenNames -underBinder dd; (subst dd))
    | with_reducible apply composeCamera_only | with_reducible apply beginUnit_only
    | with_reducible apply runSample_only | with_reducible apply runLift_only | with_reducible apply runPaint_only
    | with_reducible apply runBox_only | with_reducible apply writeBandTables_only
    | with_reducible apply OnlyIn.foldl | with_reducible apply OnlyIn.foldlSnd | split)

theorem chambrayTimerExpiry_only {L : List Part} {a : Dev} (tick : Nat) (w : Nat) {d : Dev} (hL : Part.sub [.tweed,
    .chambray, .fabric, .plan, .damask, .host, .v0, .v1, .felt, .ctrl, .boot, .recovery, .health, .mem, .sent,
    .freeCtr] L = true) (h : OnlyIn L a d) :
    OnlyIn L a (chambrayTimerExpiry tick w d) := by
  refine OnlyIn.widen hL h ?_
  have h0 := OnlyIn.refl [.tweed, .chambray, .fabric, .plan, .damask, .host, .v0, .v1, .felt, .ctrl, .boot,
      .recovery, .health, .mem, .sent, .freeCtr] d
  unfold chambrayTimerExpiry
  repeat' (first
    | with_reducible assumption | ((with_reducible refine Part.subI ?_); exact rfl) | exact Or.inl rfl
    | exact Or.inr rfl | intro _
    | (extract_lets +onlyGivenNames -underBinder dd; (subst dd))
    | with_reducible apply stopLift_only | with_reducible apply bump_only | with_reducible apply overrun_only
    | with_reducible apply modChb_only | with_reducible apply faultMiss_only
    | with_reducible apply restartPartition_only | split)

theorem chambrayEnded_only {L : List Part} {a : Dev} (x : Nat) {d : Dev} (hL : Part.sub [.chambray] L = true) (h :
    OnlyIn L a d) :
    OnlyIn L a (chambrayEnded x d) := by
  refine OnlyIn.widen hL h ?_
  have h0 := OnlyIn.refl [.chambray] d
  unfold chambrayEnded
  repeat' (first
    | with_reducible assumption | ((with_reducible refine Part.subI ?_); exact rfl) | exact Or.inl rfl
    | exact Or.inr rfl | intro _ | with_reducible apply modChb_only)

theorem linkTransactionTimeout_only {L : List Part} {a : Dev} (die : Fin 6) (part : Nat) (ofRetry : Bool) (tick :
    Nat) (w : Nat) {d : Dev} (hL : Part.sub [.tweed, .chambray, .fabric, .plan, .damask, .host, .v0, .v1, .felt,
    .ctrl, .boot, .recovery, .health, .mem, .sent] L = true) (h : OnlyIn L a d) :
    OnlyIn L a (linkTransactionTimeout die part ofRetry tick w d) := by
  refine OnlyIn.widen hL h ?_
  have h0 := OnlyIn.refl [.tweed, .chambray, .fabric, .plan, .damask, .host, .v0, .v1, .felt, .ctrl, .boot,
      .recovery, .health, .mem, .sent] d
  unfold linkTransactionTimeout
  repeat' (first
    | with_reducible assumption | ((with_reducible refine Part.subI ?_); exact rfl) | exact Or.inl rfl
    | exact Or.inr rfl | intro _
    | (extract_lets +onlyGivenNames -underBinder dd; (subst dd))
    | with_reducible apply satEvent_only | with_reducible apply Dev_setDie_only
    | with_reducible apply restartPartition_only | with_reducible apply miss_only | with_reducible apply bump_only
    | with_reducible apply modChb_only | split)

/-! ### Gates -/

theorem closeTickSlice_only {L : List Part} {a : Dev} (n : Nat) (j : Nat) (src : Source) {d : Dev} (hL : Part.sub
    [.muslin, .tweed, .tweedFb, .host, .health, .sent] L = true) (h : OnlyIn L a d) :
    OnlyIn L a (closeTickSlice n j d src) := by
  refine OnlyIn.widen hL h ?_
  have h0 := OnlyIn.refl [.muslin, .tweed, .tweedFb, .host, .health, .sent] d
  unfold closeTickSlice
  repeat' (first
    | with_reducible assumption | ((with_reducible refine Part.subI ?_); exact rfl) | exact Or.inl rfl
    | exact Or.inr rfl | intro _ | with_reducible apply closeSlice_only | split)

theorem closePointGate_only {L : List Part} {a : Dev} (n : Nat) (j : Nat) (v : Nanos) (e : StreamEntry) {d : Dev} (hL
    : Part.sub [.muslin, .ports, .tweed, .tweedFb, .host, .health, .sent] L = true) (h : OnlyIn L a d) :
    OnlyIn L a (closePointGate n j v e d) := by
  refine OnlyIn.widen hL h ?_
  have h0 := OnlyIn.refl [.muslin, .ports, .tweed, .tweedFb, .host, .health, .sent] d
  unfold closePointGate
  repeat' (first
    | with_reducible assumption | ((with_reducible refine Part.subI ?_); exact rfl) | exact Or.inl rfl
    | exact Or.inr rfl | intro _
    | (extract_lets +onlyGivenNames -underBinder dd; (subst dd))
    | with_reducible apply closeTickSlice_only | with_reducible apply modLidar_only
    | with_reducible apply takeFinal_only | with_reducible apply OnlyIn.foldl | with_reducible apply OnlyIn.foldlSnd
    | split)

theorem gateClose_only {L : List Part} {a : Dev} (stream : Fin 48) {d : Dev} (hL : Part.sub [.muslin, .ports, .tweed,
    .tweedFb, .chambray, .host, .felt, .health, .sent] L = true) (h : OnlyIn L a d) :
    OnlyIn L a (gateClose stream d) := by
  refine OnlyIn.widen hL h ?_
  have h0 := OnlyIn.refl [.muslin, .ports, .tweed, .tweedFb, .chambray, .host, .felt, .health, .sent] d
  unfold gateClose
  repeat' (first
    | with_reducible assumption | ((with_reducible refine Part.subI ?_); exact rfl) | exact Or.inl rfl
    | exact Or.inr rfl | intro _
    | (extract_lets +onlyGivenNames -underBinder dd; (subst dd))
    | with_reducible apply closeGate_only | with_reducible apply closePointGate_only
    | with_reducible apply buildBands_only | split)

end Sys2Proof.Machine
end

