-- ==== Sys2Proof/Laws/OnlyHost.lean ====
section
/-!
SUPPORT. The parts of the device that the operations of the outputs and the host interface may change
(Sys2Proof/Laws/Only.lean): one lemma for each.
-/

set_option linter.unusedVariables false

namespace Sys2Proof.Machine

open Sys2Proof

/-! ### Outputs -/

theorem takeCarried_only {L : List Part} {a : Dev} (src : Source) (kind : OutKind) (ss : List Nat) {d : Dev} (hL :
    Part.sub [.muslin, .serge, .output] L = true) (h : OnlyIn L a d) :
    OnlyIn L a (takeCarried src kind ss d) := by
  refine OnlyIn.widen hL h ?_
  have h0 := OnlyIn.refl [.muslin, .serge, .output] d
  unfold takeCarried
  repeat' (first
    | with_reducible assumption | exact Or.inl rfl | exact Or.inr rfl | intro _
    | (extract_lets +onlyGivenNames -underBinder dd; (subst dd))
    | ((conv => (arg 3; arg 23; skip)); with_reducible apply OnlyIn.mk'))

theorem putAssembling_only {L : List Part} {a : Dev} (aa : Assembling) {d : Dev} (hL : Part.sub [.output] L = true)
    (h : OnlyIn L a d) :
    OnlyIn L a (putAssembling aa d) := by
  refine OnlyIn.widen hL h ?_
  have h0 := OnlyIn.refl [.output] d
  unfold putAssembling
  repeat' (first
    | with_reducible assumption | exact Or.inl rfl | exact Or.inr rfl | intro _
    | (extract_lets +onlyGivenNames -underBinder dd; (subst dd))
    | ((conv => (arg 3; arg 23; skip)); with_reducible apply OnlyIn.mk'))

theorem beginOutput_only {L : List Part} {a : Dev} (src : Source) (tick : Nat) (kind : OutKind) {d : Dev} (hL :
    Part.sub [.output] L = true) (h : OnlyIn L a d) :
    OnlyIn L a (beginOutput src tick d kind) := by
  refine OnlyIn.widen hL h ?_
  have h0 := OnlyIn.refl [.output] d
  unfold beginOutput
  repeat' (first
    | with_reducible assumption | ((with_reducible refine Part.subI ?_); exact rfl) | exact Or.inl rfl
    | exact Or.inr rfl | intro _ | with_reducible apply putAssembling_only)

theorem takeSeq_only {L : List Part} {a : Dev} (src : Source) (kind : OutKind) {d : Dev} (hL : Part.sub [.output] L =
    true) (h : OnlyIn L a d) :
    OnlyIn L a (takeSeq src kind d).2 := by
  refine OnlyIn.widen hL h ?_
  have h0 := OnlyIn.refl [.output] d
  unfold takeSeq
  repeat' (first
    | with_reducible assumption | exact Or.inl rfl | exact Or.inr rfl | intro _
    | (extract_lets +onlyGivenNames -underBinder dd; (subst dd))
    | ((conv => (arg 3; arg 23; skip)); with_reducible apply OnlyIn.mk') | split | dsimp -zeta only)

theorem keepGrid_only {L : List Part} {a : Dev} (p : Nat) (aa : Assembling) {d : Dev} (hL : Part.sub [.output] L =
    true) (h : OnlyIn L a d) :
    OnlyIn L a (keepGrid p aa d) := by
  refine OnlyIn.widen hL h ?_
  have h0 := OnlyIn.refl [.output] d
  unfold keepGrid
  repeat' (first
    | with_reducible assumption | exact Or.inl rfl | exact Or.inr rfl | intro _
    | (extract_lets +onlyGivenNames -underBinder dd; (subst dd))
    | ((conv => (arg 3; arg 23; skip)); with_reducible apply OnlyIn.mk'))

theorem keepTracks_only {L : List Part} {a : Dev} (aa : Assembling) {d : Dev} (hL : Part.sub [.host] L = true) (h :
    OnlyIn L a d) :
    OnlyIn L a (keepTracks aa d) := by
  refine OnlyIn.widen hL h ?_
  have h0 := OnlyIn.refl [.host] d
  unfold keepTracks
  repeat' (first
    | with_reducible assumption | exact Or.inl rfl | exact Or.inr rfl | intro _
    | (extract_lets +onlyGivenNames -underBinder dd; (subst dd))
    | ((conv => (arg 3; arg 23; skip)); with_reducible apply OnlyIn.mk') | split)

theorem keepOutput_only {L : List Part} {a : Dev} (aa : Assembling) {d : Dev} (hL : Part.sub [.output, .host] L =
    true) (h : OnlyIn L a d) :
    OnlyIn L a (keepOutput aa d) := by
  refine OnlyIn.widen hL h ?_
  have h0 := OnlyIn.refl [.output, .host] d
  unfold keepOutput
  repeat' (first
    | with_reducible assumption | ((with_reducible refine Part.subI ?_); exact rfl) | exact Or.inl rfl
    | exact Or.inr rfl | intro _ | with_reducible apply keepGrid_only | with_reducible apply keepTracks_only | split)

theorem noteSealed_only {L : List Part} {a : Dev} (key : Nat) (tick : Nat) (qq : BitVec 32) {d : Dev} (hL : Part.sub
    [.output] L = true) (h : OnlyIn L a d) :
    OnlyIn L a (noteSealed key tick qq d) := by
  refine OnlyIn.widen hL h ?_
  have h0 := OnlyIn.refl [.output] d
  unfold noteSealed
  repeat' (first
    | with_reducible assumption | exact Or.inl rfl | exact Or.inr rfl | intro _
    | (extract_lets +onlyGivenNames -underBinder dd; (subst dd))
    | ((conv => (arg 3; arg 23; skip)); with_reducible apply OnlyIn.mk'))

theorem sealOutput_only {L : List Part} {a : Dev} (src : Source) (tick : Nat) (kind : OutKind) {d : Dev} (hL :
    Part.sub [.muslin, .serge, .output, .host] L = true) (h : OnlyIn L a d) :
    OnlyIn L a (sealOutput src tick d kind) := by
  refine OnlyIn.widen hL h ?_
  have h0 := OnlyIn.refl [.muslin, .serge, .output, .host] d
  unfold sealOutput
  repeat' (first
    | with_reducible assumption | ((with_reducible refine Part.subI ?_); exact rfl) | exact Or.inl rfl
    | exact Or.inr rfl | intro _
    | (extract_lets +onlyGivenNames -underBinder dd; (subst dd))
    | with_reducible apply takeSeq_only | with_reducible apply noteSealed_only | with_reducible apply keepOutput_only
    | with_reducible apply takeCarried_only | with_reducible apply putAssembling_only | split)

theorem sealWindow_only {L : List Part} {a : Dev} (src : Source) (tick : Nat) (x : Nat × WindowRec) {d : Dev} (hL :
    Part.sub [.muslin, .serge, .output, .host] L = true) (h : OnlyIn L a d) :
    OnlyIn L a (sealWindow src tick d x) := by
  refine OnlyIn.widen hL h ?_
  have h0 := OnlyIn.refl [.muslin, .serge, .output, .host] d
  unfold sealWindow
  repeat' (first
    | with_reducible assumption | ((with_reducible refine Part.subI ?_); exact rfl) | exact Or.inl rfl
    | exact Or.inr rfl | intro _ | with_reducible apply sealOutput_only | with_reducible apply OnlyIn.foldl
    | with_reducible apply OnlyIn.foldlSnd | split)

theorem sealDue_only {L : List Part} {a : Dev} {d : Dev} (hL : Part.sub [.muslin, .serge, .output, .host] L = true)
    (h : OnlyIn L a d) :
    OnlyIn L a (sealDue d) := by
  refine OnlyIn.widen hL h ?_
  have h0 := OnlyIn.refl [.muslin, .serge, .output, .host] d
  unfold sealDue
  repeat' (first
    | with_reducible assumption | ((with_reducible refine Part.subI ?_); exact rfl) | exact Or.inl rfl
    | exact Or.inr rfl | intro _ | with_reducible apply sealWindow_only | with_reducible apply OnlyIn.foldl)

theorem putCompleted_only {L : List Part} {a : Dev} (aa : Assembling) {d : Dev} (hL : Part.sub [.output, .host] L =
    true) (h : OnlyIn L a d) :
    OnlyIn L a (putCompleted aa d) := by
  refine OnlyIn.widen hL h ?_
  have h0 := OnlyIn.refl [.output, .host] d
  unfold putCompleted
  repeat' (first
    | with_reducible assumption | ((with_reducible refine Part.subI ?_); exact rfl) | exact Or.inl rfl
    | exact Or.inr rfl | intro _
    | (extract_lets +onlyGivenNames -underBinder dd; (subst dd))
    | with_reducible apply putAssembling_only | with_reducible apply keepOutput_only | split)

theorem completeOutput_only {L : List Part} {a : Dev} (src : Source) (tick : Nat) (cs : List Delivered) (kind :
    OutKind) {d : Dev} (hL : Part.sub [.output, .host] L = true) (h : OnlyIn L a d) :
    OnlyIn L a (completeOutput src tick cs d kind) := by
  refine OnlyIn.widen hL h ?_
  have h0 := OnlyIn.refl [.output, .host] d
  unfold completeOutput
  repeat' (first
    | with_reducible assumption | ((with_reducible refine Part.subI ?_); exact rfl) | exact Or.inl rfl
    | exact Or.inr rfl | intro _
    | (extract_lets +onlyGivenNames -underBinder dd; (subst dd))
    | with_reducible apply putCompleted_only | split)

theorem burlapDelivers_only {L : List Part} {a : Dev} {d : Dev} (hL : Part.sub [.felt] L = true) (h : OnlyIn L a d) :
    OnlyIn L a (burlapDelivers d) := by
  refine OnlyIn.widen hL h ?_
  have h0 := OnlyIn.refl [.felt] d
  unfold burlapDelivers
  repeat' (first
    | with_reducible assumption | ((with_reducible refine Part.subI ?_); exact rfl) | exact Or.inl rfl
    | exact Or.inr rfl | intro _
    | (extract_lets +onlyGivenNames -underBinder dd; (subst dd))
    | ((conv => (arg 3; arg 23; skip)); with_reducible apply OnlyIn.mk') | with_reducible apply endConditions_only
    | split)

theorem rejectContent_only {L : List Part} {a : Dev} (src : Source) (kind : OutKind) {d : Dev} (hL : Part.sub [.host,
    .v0, .v1, .felt, .boot, .health, .sent] L = true) (h : OnlyIn L a d) :
    OnlyIn L a (rejectContent src kind d) := by
  refine OnlyIn.widen hL h ?_
  have h0 := OnlyIn.refl [.host, .v0, .v1, .felt, .boot, .health, .sent] d
  unfold rejectContent
  repeat' (first
    | with_reducible assumption | ((with_reducible refine Part.subI ?_); exact rfl) | exact Or.inl rfl
    | exact Or.inr rfl | intro _
    | (extract_lets +onlyGivenNames -underBinder dd; (subst dd))
    | ((conv => (arg 3; arg 23; skip)); with_reducible apply OnlyIn.mk') | with_reducible apply satEvent_only
    | with_reducible apply raiseH_only | with_reducible apply raiseV_only | split)

theorem noteSelection_only {L : List Part} {a : Dev} (tick : Nat) (kind : OutKind) (s : Option Source) {d : Dev} (hL
    : Part.sub [.output, .host, .v0, .v1, .felt, .boot, .health, .sent] L = true) (h : OnlyIn L a d) :
    OnlyIn L a (noteSelection tick kind s d) := by
  refine OnlyIn.widen hL h ?_
  have h0 := OnlyIn.refl [.output, .host, .v0, .v1, .felt, .boot, .health, .sent] d
  unfold noteSelection
  repeat' (first
    | with_reducible assumption | ((with_reducible refine Part.subI ?_); exact rfl) | exact Or.inl rfl
    | exact Or.inr rfl | intro _
    | (extract_lets +onlyGivenNames -underBinder dd; (subst dd))
    | ((conv => (arg 3; arg 23; skip)); with_reducible apply OnlyIn.mk') | with_reducible apply endCondition_only
    | with_reducible apply raiseV_only | split)

theorem selectOutput_only {L : List Part} {a : Dev} (tick : Nat) (kind : OutKind) {d : Dev} (hL : Part.sub [.output,
    .host, .v0, .v1, .felt, .boot, .health, .sent] L = true) (h : OnlyIn L a d) :
    OnlyIn L a (selectOutput tick d kind) := by
  refine OnlyIn.widen hL h ?_
  have h0 := OnlyIn.refl [.output, .host, .v0, .v1, .felt, .boot, .health, .sent] d
  unfold selectOutput
  repeat' (first
    | with_reducible assumption | ((with_reducible refine Part.subI ?_); exact rfl) | exact Or.inl rfl
    | exact Or.inr rfl | intro _
    | (extract_lets +onlyGivenNames -underBinder dd; (subst dd))
    | with_reducible apply noteSelection_only | with_reducible apply rejectContent_only | split)

theorem assemblyComplete_only {L : List Part} {a : Dev} (src : Source) (tick : Nat) (w : Nat) (contents : List
    Delivered) {d : Dev} (hL : Part.sub [.plan, .output, .host, .v0, .v1, .felt, .boot, .health, .sent] L = true) (h
    : OnlyIn L a d) :
    OnlyIn L a (assemblyComplete src tick w contents d) := by
  refine OnlyIn.widen hL h ?_
  have h0 := OnlyIn.refl [.plan, .output, .host, .v0, .v1, .felt, .boot, .health, .sent] d
  unfold assemblyComplete
  repeat' (first
    | with_reducible assumption | ((with_reducible refine Part.subI ?_); exact rfl) | exact Or.inl rfl
    | exact Or.inr rfl | intro _
    | (extract_lets +onlyGivenNames -underBinder dd; (subst dd))
    | with_reducible apply Dev_setWin_only | with_reducible apply completeOutput_only
    | with_reducible apply selectOutput_only | with_reducible apply burlapDelivers_only
    | with_reducible apply OnlyIn.foldl | with_reducible apply OnlyIn.foldlSnd | split)

theorem countWdg_only {L : List Part} {a : Dev} {d : Dev} (hL : Part.sub [.plan, .host, .health, .sent] L = true) (h
    : OnlyIn L a d) :
    OnlyIn L a (countWdg d) := by
  refine OnlyIn.widen hL h ?_
  have h0 := OnlyIn.refl [.plan, .host, .health, .sent] d
  unfold countWdg
  repeat' (first
    | with_reducible assumption | ((with_reducible refine Part.subI ?_); exact rfl) | exact Or.inl rfl
    | exact Or.inr rfl | intro _
    | (extract_lets +onlyGivenNames -underBinder dd; (subst dd))
    | ((conv => (arg 3; arg 23; skip)); with_reducible apply OnlyIn.mk') | with_reducible apply bump_only)

theorem assemblyTimerExpiry_only {L : List Part} {a : Dev} (src : Source) (tick : Nat) (w : Nat) {d : Dev} (hL :
    Part.sub [.chambray, .fabric, .plan, .output, .host, .v0, .v1, .felt, .boot, .health, .sent] L = true) (h :
    OnlyIn L a d) :
    OnlyIn L a (assemblyTimerExpiry src tick w d) := by
  refine OnlyIn.widen hL h ?_
  have h0 := OnlyIn.refl [.chambray, .fabric, .plan, .output, .host, .v0, .v1, .felt, .boot, .health, .sent] d
  unfold assemblyTimerExpiry
  repeat' (first
    | with_reducible assumption | ((with_reducible refine Part.subI ?_); exact rfl) | exact Or.inl rfl
    | exact Or.inr rfl | intro _
    | (extract_lets +onlyGivenNames -underBinder dd; (subst dd))
    | with_reducible apply miss_only | with_reducible apply countWdg_only | with_reducible apply raiseV_only
    | with_reducible apply selectOutput_only | with_reducible apply OnlyIn.foldl
    | with_reducible apply OnlyIn.foldlSnd | split)

theorem buildOutput_only {L : List Part} {a : Dev} (tick : Nat) (kind : OutKind) (sel : Option Source) {d : Dev} (hL
    : Part.sub [.muslin, .serge, .output, .host] L = true) (h : OnlyIn L a d) :
    ∀ e, buildOutput tick kind sel d = some e → OnlyIn L a e.2.2 := by
  intro e he
  unfold buildOutput at he
  repeat' (first
    | (extract_lets at he) | (obtain ⟨p, -, rfl⟩ := Option.map_eq_some_iff.mp he)
    | (obtain rfl := Option.some.inj he) | (cases he) | split at he)
  all_goals refine OnlyIn.widen hL h ?_
  all_goals have h0 := OnlyIn.refl [.muslin, .serge, .output, .host] d
  all_goals repeat' (first
    | with_reducible assumption | ((with_reducible refine Part.subI ?_); exact rfl) | exact Or.inl rfl
    | exact Or.inr rfl | intro _ | with_reducible apply sealOutput_only | with_reducible apply takeSeq_only | split
    | dsimp -zeta only | (dsimp +zetaDelta -zeta only))

theorem crossCheck_only {L : List Part} {a : Dev} (b : Nanos) {d : Dev} (hL : Part.sub [.host, .felt, .health, .sent]
    L = true) (h : OnlyIn L a d) :
    OnlyIn L a (crossCheck b d) := by
  refine OnlyIn.widen hL h ?_
  have h0 := OnlyIn.refl [.host, .felt, .health, .sent] d
  unfold crossCheck
  repeat' (first
    | with_reducible assumption | ((with_reducible refine Part.subI ?_); exact rfl) | exact Or.inl rfl
    | exact Or.inr rfl | intro _
    | (extract_lets +onlyGivenNames -underBinder dd; (subst dd))
    | ((conv => (arg 3; arg 23; skip)); with_reducible apply OnlyIn.mk') | with_reducible apply bump_only | split)

theorem egoOutput_only {L : List Part} {a : Dev} (src : Source) (k : Nat) (m : Nat) (b : Nanos) (out : Nanos) (block
    : EgoBlock) {d : Dev} (hL : Part.sub [.muslin, .serge, .output] L = true) (h : OnlyIn L a d) :
    ∀ e, egoOutput src k m b out block d = some e → OnlyIn L a e.2 := by
  intro e he
  unfold egoOutput at he
  repeat' (first
    | (extract_lets at he) | (obtain ⟨p, -, rfl⟩ := Option.map_eq_some_iff.mp he)
    | (obtain rfl := Option.some.inj he) | (cases he) | split at he)
  all_goals refine OnlyIn.widen hL h ?_
  all_goals have h0 := OnlyIn.refl [.muslin, .serge, .output] d
  all_goals repeat' (first
    | with_reducible assumption | ((with_reducible refine Part.subI ?_); exact rfl) | exact Or.inl rfl
    | exact Or.inr rfl | intro _ | ((conv => (arg 3; arg 23; skip)); with_reducible apply OnlyIn.mk')
    | with_reducible apply takeCarried_only | with_reducible apply takeSeq_only | split | dsimp -zeta only)

theorem rejectEgo_only {L : List Part} {a : Dev} (src : Source) (b : Nanos) {d : Dev} (hL : Part.sub [.host, .v0,
    .v1, .felt, .boot, .health, .sent] L = true) (h : OnlyIn L a d) :
    OnlyIn L a (rejectEgo src b d) := by
  refine OnlyIn.widen hL h ?_
  have h0 := OnlyIn.refl [.host, .v0, .v1, .felt, .boot, .health, .sent] d
  unfold rejectEgo
  repeat' (first
    | with_reducible assumption | ((with_reducible refine Part.subI ?_); exact rfl) | exact Or.inl rfl
    | exact Or.inr rfl | intro _ | with_reducible apply rejectContent_only | split)

theorem selectEgo_only {L : List Part} {a : Dev} (b : Nanos) {d : Dev} (hL : Part.sub [.host, .v0, .v1, .felt, .boot,
    .health, .sent] L = true) (h : OnlyIn L a d) :
    OnlyIn L a (selectEgo b d).2 := by
  refine OnlyIn.widen hL h ?_
  have h0 := OnlyIn.refl [.host, .v0, .v1, .felt, .boot, .health, .sent] d
  unfold selectEgo
  repeat' (first
    | with_reducible assumption | ((with_reducible refine Part.subI ?_); exact rfl) | exact Or.inl rfl
    | exact Or.inr rfl | intro _
    | (extract_lets +onlyGivenNames -underBinder dd; (subst dd))
    | with_reducible apply endCondition_only | with_reducible apply rejectEgo_only | with_reducible apply raiseV_only
    | split)

/-! ### Sessions -/

theorem hostWrite_only {L : List Part} {a : Dev} (p : Nat) (addr : Nat) (bytes : List Byte) {d : Dev} (hL : Part.sub
    [.sent] L = true) (h : OnlyIn L a d) :
    OnlyIn L a (hostWrite p addr bytes d) := by
  refine OnlyIn.widen hL h ?_
  have h0 := OnlyIn.refl [.sent] d
  unfold hostWrite
  repeat' (first
    | with_reducible assumption | ((with_reducible refine Part.subI ?_); exact rfl) | exact Or.inl rfl
    | exact Or.inr rfl | intro _ | with_reducible apply emit_only | split)

theorem writeBack_only {L : List Part} {a : Dev} (p : Nat) (off : Nat) (v : BitVec 32) {d : Dev} (hL : Part.sub
    [.sent] L = true) (h : OnlyIn L a d) :
    OnlyIn L a (writeBack p off v d) := by
  refine OnlyIn.widen hL h ?_
  have h0 := OnlyIn.refl [.sent] d
  unfold writeBack
  repeat' (first
    | with_reducible assumption | ((with_reducible refine Part.subI ?_); exact rfl) | exact Or.inl rfl
    | exact Or.inr rfl | intro _ | with_reducible apply hostWrite_only)

theorem countProto_only {L : List Part} {a : Dev} (p : Nat) {d : Dev} (hL : Part.sub [.host, .health, .sent] L =
    true) (h : OnlyIn L a d) :
    OnlyIn L a (countProto p d) := by
  refine OnlyIn.widen hL h ?_
  have h0 := OnlyIn.refl [.host, .health, .sent] d
  unfold countProto
  repeat' (first
    | with_reducible assumption | ((with_reducible refine Part.subI ?_); exact rfl) | exact Or.inl rfl
    | exact Or.inr rfl | intro _ | with_reducible apply bump_only | with_reducible apply Dev_modPort_only)

theorem setSession_only {L : List Part} {a : Dev} (p : Nat) (s : SessState) {d : Dev} (hL : Part.sub [.host, .sent] L
    = true) (h : OnlyIn L a d) :
    OnlyIn L a (setSession p s d) := by
  refine OnlyIn.widen hL h ?_
  have h0 := OnlyIn.refl [.host, .sent] d
  unfold setSession
  repeat' (first
    | with_reducible assumption | ((with_reducible refine Part.subI ?_); exact rfl) | exact Or.inl rfl
    | exact Or.inr rfl | intro _ | with_reducible apply setInt_only | with_reducible apply Dev_modPort_only | split)

theorem writeCompletion_only {L : List Part} {a : Dev} (p : Nat) (c : Completion) {d : Dev} (hL : Part.sub [.host,
    .health, .sent] L = true) (h : OnlyIn L a d) :
    OnlyIn L a (writeCompletion p c d) := by
  refine OnlyIn.widen hL h ?_
  have h0 := OnlyIn.refl [.host, .health, .sent] d
  unfold writeCompletion
  repeat' (first
    | with_reducible assumption | ((with_reducible refine Part.subI ?_); exact rfl) | exact Or.inl rfl
    | exact Or.inr rfl | intro _
    | (extract_lets +onlyGivenNames -underBinder dd; (subst dd))
    | with_reducible apply hostWrite_only | with_reducible apply Dev_modPort_only | with_reducible apply bump_only
    | with_reducible apply setInt_only | with_reducible apply writeBack_only | split)

theorem finishDup_only {L : List Part} {a : Dev} (p : Nat) (c : Completion) (stored : Option (List Byte)) (sub :
    Submission) {d : Dev} (hL : Part.sub [.host, .health, .sent, .freeCtr] L = true) (h : OnlyIn L a d) :
    OnlyIn L a (finishDup p c stored d sub) := by
  refine OnlyIn.widen hL h ?_
  have h0 := OnlyIn.refl [.host, .health, .sent, .freeCtr] d
  unfold finishDup
  repeat' (first
    | with_reducible assumption | ((with_reducible refine Part.subI ?_); exact rfl) | exact Or.inl rfl
    | exact Or.inr rfl | intro _
    | (extract_lets +onlyGivenNames -underBinder dd; (subst dd))
    | with_reducible apply drawFree_only | with_reducible apply writeCompletion_only
    | with_reducible apply hostWrite_only | split)

theorem complete_only {L : List Part} {a : Dev} (p : Nat) (sub : Submission) (status : BitVec 8) (tick : Nat) (result
    : Option (List Byte)) (bytes : Nat) {d : Dev} (hL : Part.sub [.host, .health, .sent, .freeCtr] L = true) (h :
    OnlyIn L a d) :
    OnlyIn L a (complete p sub status tick result bytes d) := by
  refine OnlyIn.widen hL h ?_
  have h0 := OnlyIn.refl [.host, .health, .sent, .freeCtr] d
  unfold complete
  repeat' (first
    | with_reducible assumption | ((with_reducible refine Part.subI ?_); exact rfl) | exact Or.inl rfl
    | exact Or.inr rfl | intro _
    | (extract_lets +onlyGivenNames -underBinder dd; (subst dd))
    | with_reducible apply hostWrite_only | with_reducible apply writeCompletion_only
    | with_reducible apply Dev_modPort_only | with_reducible apply finishDup_only | with_reducible apply OnlyIn.foldl
    | with_reducible apply OnlyIn.foldlSnd | split)

theorem completePlain_only {L : List Part} {a : Dev} (p : Nat) (status : BitVec 8) (sub : Submission) {d : Dev} (hL :
    Part.sub [.host, .health, .sent, .freeCtr] L = true) (h : OnlyIn L a d) :
    OnlyIn L a (completePlain p status d sub) := by
  refine OnlyIn.widen hL h ?_
  have h0 := OnlyIn.refl [.host, .health, .sent, .freeCtr] d
  unfold completePlain
  repeat' (first
    | with_reducible assumption | ((with_reducible refine Part.subI ?_); exact rfl) | exact Or.inl rfl
    | exact Or.inr rfl | intro _
    | (extract_lets +onlyGivenNames -underBinder dd; (subst dd))
    | with_reducible apply drawFree_only | with_reducible apply complete_only)

theorem completeWith_only {L : List Part} {a : Dev} (p : Nat) (sub : Submission) (status : BitVec 8) (tick : Nat) (b
    : List Byte) {d : Dev} (hL : Part.sub [.host, .health, .sent, .freeCtr] L = true) (h : OnlyIn L a d) :
    OnlyIn L a (completeWith p sub status tick b d) := by
  refine OnlyIn.widen hL h ?_
  have h0 := OnlyIn.refl [.host, .health, .sent, .freeCtr] d
  unfold completeWith
  repeat' (first
    | with_reducible assumption | ((with_reducible refine Part.subI ?_); exact rfl) | exact Or.inl rfl
    | exact Or.inr rfl | intro _ | with_reducible apply complete_only | split)

theorem freeForks_only {L : List Part} {a : Dev} (p : Nat) {d : Dev} (hL : Part.sub [.damask, .host] L = true) (h :
    OnlyIn L a d) :
    OnlyIn L a (freeForks p d) := by
  refine OnlyIn.widen hL h ?_
  have h0 := OnlyIn.refl [.damask, .host] d
  unfold freeForks
  repeat' (first
    | with_reducible assumption | ((with_reducible refine Part.subI ?_); exact rfl) | exact Or.inl rfl
    | exact Or.inr rfl | intro _
    | (extract_lets +onlyGivenNames -underBinder dd; (subst dd))
    | with_reducible apply setSeq_only | with_reducible apply Dev_modPort_only | with_reducible apply OnlyIn.foldl
    | with_reducible apply OnlyIn.foldlSnd | split)

theorem closing_only {L : List Part} {a : Dev} (p : Nat) (reason : CloseReason) {d : Dev} (hL : Part.sub [.damask,
    .host, .health, .sent, .freeCtr] L = true) (h : OnlyIn L a d) :
    OnlyIn L a (closing p reason d) := by
  refine OnlyIn.widen hL h ?_
  have h0 := OnlyIn.refl [.damask, .host, .health, .sent, .freeCtr] d
  unfold closing
  repeat' (first
    | with_reducible assumption | ((with_reducible refine Part.subI ?_); exact rfl) | exact Or.inl rfl
    | exact Or.inr rfl | intro _
    | (extract_lets +onlyGivenNames -underBinder dd; (subst dd))
    | with_reducible apply Dev_modPort_only | with_reducible apply completePlain_only
    | with_reducible apply setSession_only | with_reducible apply freeForks_only | with_reducible apply OnlyIn.foldl)

theorem closeNow_only {L : List Part} {a : Dev} (p : Nat) (reason : Option CloseReason) {d : Dev} (hL : Part.sub
    [.damask, .host, .health, .sent] L = true) (h : OnlyIn L a d) :
    OnlyIn L a (closeNow p reason d) := by
  refine OnlyIn.widen hL h ?_
  have h0 := OnlyIn.refl [.damask, .host, .health, .sent] d
  unfold closeNow
  repeat' (first
    | with_reducible assumption | ((with_reducible refine Part.subI ?_); exact rfl) | exact Or.inl rfl
    | exact Or.inr rfl | intro _
    | (extract_lets +onlyGivenNames -underBinder dd; (subst dd))
    | with_reducible apply freeForks_only | with_reducible apply Dev_modPort_only
    | with_reducible apply setSession_only | with_reducible apply bump_only)

theorem closeDue_only {L : List Part} {a : Dev} (p : Nat) {d : Dev} (hL : Part.sub [.damask, .host, .health, .sent] L
    = true) (h : OnlyIn L a d) :
    OnlyIn L a (closeDue d p) := by
  refine OnlyIn.widen hL h ?_
  have h0 := OnlyIn.refl [.damask, .host, .health, .sent] d
  unfold closeDue
  repeat' (first
    | with_reducible assumption | ((with_reducible refine Part.subI ?_); exact rfl) | exact Or.inl rfl
    | exact Or.inr rfl | intro _ | with_reducible apply closeNow_only | split)

theorem sessionOpen_only {L : List Part} {a : Dev} (port : Fin 4) {d : Dev} (hL : Part.sub [.host, .health, .sent,
    .freeCtr] L = true) (h : OnlyIn L a d) :
    OnlyIn L a (sessionOpen port d) := by
  refine OnlyIn.widen hL h ?_
  have h0 := OnlyIn.refl [.host, .health, .sent, .freeCtr] d
  unfold sessionOpen
  repeat' (first
    | with_reducible assumption | ((with_reducible refine Part.subI ?_); exact rfl) | exact Or.inl rfl
    | exact Or.inr rfl | intro _
    | (extract_lets +onlyGivenNames -underBinder dd; (subst dd))
    | ((conv => (arg 3; arg 23; skip)); with_reducible apply OnlyIn.mk') | with_reducible apply Dev_setPort_only
    | with_reducible apply countProto_only | with_reducible apply setSession_only | split)

theorem sessionClose_only {L : List Part} {a : Dev} (port : Fin 4) {d : Dev} (hL : Part.sub [.damask, .host, .health,
    .sent, .freeCtr] L = true) (h : OnlyIn L a d) :
    OnlyIn L a (sessionClose port d) := by
  refine OnlyIn.widen hL h ?_
  have h0 := OnlyIn.refl [.damask, .host, .health, .sent, .freeCtr] d
  unfold sessionClose
  repeat' (first
    | with_reducible assumption | ((with_reducible refine Part.subI ?_); exact rfl) | exact Or.inl rfl
    | exact Or.inr rfl | intro _
    | (extract_lets +onlyGivenNames -underBinder dd; (subst dd))
    | with_reducible apply closeNow_only | with_reducible apply closing_only | with_reducible apply Dev_setPort_only
    | with_reducible apply countProto_only | split)

theorem writeReport_only {L : List Part} {a : Dev} (p : Nat) {d : Dev} (hL : Part.sub [.host, .sent, .freeCtr] L =
    true) (h : OnlyIn L a d) :
    OnlyIn L a (writeReport p d) := by
  refine OnlyIn.widen hL h ?_
  have h0 := OnlyIn.refl [.host, .sent, .freeCtr] d
  unfold writeReport
  repeat' (first
    | with_reducible assumption | ((with_reducible refine Part.subI ?_); exact rfl) | exact Or.inl rfl
    | exact Or.inr rfl | intro _
    | (extract_lets +onlyGivenNames -underBinder dd; (subst dd))
    | ((conv => (arg 3; arg 23; skip)); with_reducible apply OnlyIn.mk') | with_reducible apply setInt_only
    | with_reducible apply hostWrite_only)

theorem dropWork_only {L : List Part} {a : Dev} (p : Nat) (order : Nat) {d : Dev} (hL : Part.sub [.host] L = true) (h
    : OnlyIn L a d) :
    OnlyIn L a (dropWork p order d) := by
  refine OnlyIn.widen hL h ?_
  have h0 := OnlyIn.refl [.host] d
  unfold dropWork
  repeat' (first
    | with_reducible assumption | ((with_reducible refine Part.subI ?_); exact rfl) | exact Or.inl rfl
    | exact Or.inr rfl | intro _ | with_reducible apply Dev_modPort_only)

theorem finishCommand_only {L : List Part} {a : Dev} (p : Nat) (w : Work) (status : BitVec 8) (b : List Byte) {d :
    Dev} (hL : Part.sub [.host, .health, .sent, .freeCtr] L = true) (h : OnlyIn L a d) :
    OnlyIn L a (finishCommand p w status b d) := by
  refine OnlyIn.widen hL h ?_
  have h0 := OnlyIn.refl [.host, .health, .sent, .freeCtr] d
  unfold finishCommand
  repeat' (first
    | with_reducible assumption | ((with_reducible refine Part.subI ?_); exact rfl) | exact Or.inl rfl
    | exact Or.inr rfl | intro _
    | (extract_lets +onlyGivenNames -underBinder dd; (subst dd))
    | with_reducible apply dropWork_only | with_reducible apply drawFree_only
    | with_reducible apply completeWith_only)

theorem attestReportDone_only {L : List Part} {a : Dev} (port : Fin 4) {d : Dev} (hL : Part.sub [.host, .health,
    .sent, .freeCtr] L = true) (h : OnlyIn L a d) :
    OnlyIn L a (attestReportDone port d) := by
  refine OnlyIn.widen hL h ?_
  have h0 := OnlyIn.refl [.host, .health, .sent, .freeCtr] d
  unfold attestReportDone
  repeat' (first
    | with_reducible assumption | ((with_reducible refine Part.subI ?_); exact rfl) | exact Or.inl rfl
    | exact Or.inr rfl | intro _
    | (extract_lets +onlyGivenNames -underBinder dd; (subst dd))
    | with_reducible apply writeReport_only | with_reducible apply setSession_only
    | with_reducible apply Dev_modPort_only | with_reducible apply finishCommand_only | split)

theorem attestTimeout_only {L : List Part} {a : Dev} (port : Fin 4) {d : Dev} (hL : Part.sub [.damask, .host,
    .health, .sent] L = true) (h : OnlyIn L a d) :
    OnlyIn L a (attestTimeout port d) := by
  refine OnlyIn.widen hL h ?_
  have h0 := OnlyIn.refl [.damask, .host, .health, .sent] d
  unfold attestTimeout
  repeat' (first
    | with_reducible assumption | ((with_reducible refine Part.subI ?_); exact rfl) | exact Or.inl rfl
    | exact Or.inr rfl | intro _
    | (extract_lets +onlyGivenNames -underBinder dd; (subst dd))
    | with_reducible apply closeNow_only | split)

theorem hstHeartbeat_only {L : List Part} {a : Dev} (port : Fin 4) (value : BitVec 32) {d : Dev} (hL : Part.sub
    [.host] L = true) (h : OnlyIn L a d) :
    OnlyIn L a (hstHeartbeat port value d) := by
  refine OnlyIn.widen hL h ?_
  have h0 := OnlyIn.refl [.host] d
  unfold hstHeartbeat
  repeat' (first
    | with_reducible assumption | ((with_reducible refine Part.subI ?_); exact rfl) | exact Or.inl rfl
    | exact Or.inr rfl | intro _
    | (extract_lets +onlyGivenNames -underBinder dd; (subst dd))
    | with_reducible apply Dev_setPort_only | split)

theorem hbWarn_only {L : List Part} {a : Dev} (port : Fin 4) {d : Dev} (hL : Part.sub [.host, .sent] L = true) (h :
    OnlyIn L a d) :
    OnlyIn L a (hbWarn port d) := by
  refine OnlyIn.widen hL h ?_
  have h0 := OnlyIn.refl [.host, .sent] d
  unfold hbWarn
  repeat' (first
    | with_reducible assumption | ((with_reducible refine Part.subI ?_); exact rfl) | exact Or.inl rfl
    | exact Or.inr rfl | intro _
    | (extract_lets +onlyGivenNames -underBinder dd; (subst dd))
    | with_reducible apply setInt_only | split)

theorem heartbeatTimeout_only {L : List Part} {a : Dev} (port : Fin 4) {d : Dev} (hL : Part.sub [.damask, .host,
    .health, .sent, .freeCtr] L = true) (h : OnlyIn L a d) :
    OnlyIn L a (heartbeatTimeout port d) := by
  refine OnlyIn.widen hL h ?_
  have h0 := OnlyIn.refl [.damask, .host, .health, .sent, .freeCtr] d
  unfold heartbeatTimeout
  repeat' (first
    | with_reducible assumption | ((with_reducible refine Part.subI ?_); exact rfl) | exact Or.inl rfl
    | exact Or.inr rfl | intro _
    | (extract_lets +onlyGivenNames -underBinder dd; (subst dd))
    | with_reducible apply closing_only | split)

theorem linkClose_only {L : List Part} {a : Dev} (p : Nat) {d : Dev} (hL : Part.sub [.damask, .host, .health, .sent]
    L = true) (h : OnlyIn L a d) :
    OnlyIn L a (linkClose p d) := by
  refine OnlyIn.widen hL h ?_
  have h0 := OnlyIn.refl [.damask, .host, .health, .sent] d
  unfold linkClose
  repeat' (first
    | with_reducible assumption | ((with_reducible refine Part.subI ?_); exact rfl) | exact Or.inl rfl
    | exact Or.inr rfl | intro _ | with_reducible apply closeNow_only | split)

theorem pcieLinkEvent_only {L : List Part} {a : Dev} (port : Fin 4) (event : PcieEvent) {d : Dev} (hL : Part.sub
    [.damask, .host, .health, .sent] L = true) (h : OnlyIn L a d) :
    OnlyIn L a (pcieLinkEvent port event d) := by
  refine OnlyIn.widen hL h ?_
  have h0 := OnlyIn.refl [.damask, .host, .health, .sent] d
  unfold pcieLinkEvent
  repeat' (first
    | with_reducible assumption | ((with_reducible refine Part.subI ?_); exact rfl) | exact Or.inl rfl
    | exact Or.inr rfl | intro _
    | (extract_lets +onlyGivenNames -underBinder dd; (subst dd))
    | with_reducible apply linkClose_only | with_reducible apply Dev_modPort_only | split)

theorem dmaReadFault_only {L : List Part} {a : Dev} (port : Fin 4) {d : Dev} (hL : Part.sub [.damask, .host, .health,
    .sent, .freeCtr] L = true) (h : OnlyIn L a d) :
    OnlyIn L a (dmaReadFault port d) := by
  refine OnlyIn.widen hL h ?_
  have h0 := OnlyIn.refl [.damask, .host, .health, .sent, .freeCtr] d
  unfold dmaReadFault
  repeat' (first
    | with_reducible assumption | ((with_reducible refine Part.subI ?_); exact rfl) | exact Or.inl rfl
    | exact Or.inr rfl | intro _
    | (extract_lets +onlyGivenNames -underBinder dd; (subst dd))
    | with_reducible apply emit_only | with_reducible apply closing_only | split)

theorem hstSqTail_only {L : List Part} {a : Dev} (port : Fin 4) (value : BitVec 32) {d : Dev} (hL : Part.sub [.host,
    .health, .sent] L = true) (h : OnlyIn L a d) :
    OnlyIn L a (hstSqTail port value d) := by
  refine OnlyIn.widen hL h ?_
  have h0 := OnlyIn.refl [.host, .health, .sent] d
  unfold hstSqTail
  repeat' (first
    | with_reducible assumption | ((with_reducible refine Part.subI ?_); exact rfl) | exact Or.inl rfl
    | exact Or.inr rfl | intro _
    | (extract_lets +onlyGivenNames -underBinder dd; (subst dd))
    | with_reducible apply countProto_only | with_reducible apply Dev_setPort_only | split)

theorem hstCqHead_only {L : List Part} {a : Dev} (port : Fin 4) (value : BitVec 32) {d : Dev} (hL : Part.sub [.host,
    .health, .sent] L = true) (h : OnlyIn L a d) :
    OnlyIn L a (hstCqHead port value d) := by
  refine OnlyIn.widen hL h ?_
  have h0 := OnlyIn.refl [.host, .health, .sent] d
  unfold hstCqHead
  repeat' (first
    | with_reducible assumption | ((with_reducible refine Part.subI ?_); exact rfl) | exact Or.inl rfl
    | exact Or.inr rfl | intro _
    | (extract_lets +onlyGivenNames -underBinder dd; (subst dd))
    | with_reducible apply countProto_only | with_reducible apply Dev_setPort_only | split)

theorem hstSrCons_only {L : List Part} {a : Dev} (port : Fin 4) (ring : Fin 16) (value : BitVec 32) {d : Dev} (hL :
    Part.sub [.host, .health, .sent] L = true) (h : OnlyIn L a d) :
    OnlyIn L a (hstSrCons port ring value d) := by
  refine OnlyIn.widen hL h ?_
  have h0 := OnlyIn.refl [.host, .health, .sent] d
  unfold hstSrCons
  repeat' (first
    | with_reducible assumption | ((with_reducible refine Part.subI ?_); exact rfl) | exact Or.inl rfl
    | exact Or.inr rfl | intro _
    | (extract_lets +onlyGivenNames -underBinder dd; (subst dd))
    | with_reducible apply countProto_only | with_reducible apply Dev_setPort_only | split)

theorem hstIntStatus_only {L : List Part} {a : Dev} (port : Fin 4) (value : BitVec 32) {d : Dev} (hL : Part.sub
    [.host] L = true) (h : OnlyIn L a d) :
    OnlyIn L a (hstIntStatus port value d) := by
  refine OnlyIn.widen hL h ?_
  have h0 := OnlyIn.refl [.host] d
  unfold hstIntStatus
  repeat' (first
    | with_reducible assumption | ((with_reducible refine Part.subI ?_); exact rfl) | exact Or.inl rfl
    | exact Or.inr rfl | intro _
    | (extract_lets +onlyGivenNames -underBinder dd; (subst dd))
    | with_reducible apply Dev_setPort_only | split)

theorem msixWrite_only {L : List Part} {a : Dev} (p : Nat) (i : Nat) (v : BitVec 32) {d : Dev} (hL : Part.sub [.host,
    .sent] L = true) (h : OnlyIn L a d) :
    OnlyIn L a (msixWrite p i v d) := by
  refine OnlyIn.widen hL h ?_
  have h0 := OnlyIn.refl [.host, .sent] d
  unfold msixWrite
  repeat' (first
    | with_reducible assumption | ((with_reducible refine Part.subI ?_); exact rfl) | exact Or.inl rfl
    | exact Or.inr rfl | intro _
    | (extract_lets +onlyGivenNames -underBinder dd; (subst dd))
    | with_reducible apply Dev_modPort_only | with_reducible apply emit_only | with_reducible apply Dev_setPort_only
    | split)

theorem otherWrite_only {L : List Part} {a : Dev} (p : Nat) (off : Nat) (v : BitVec 32) {d : Dev} (hL : Part.sub
    [.host, .health, .sent] L = true) (h : OnlyIn L a d) :
    OnlyIn L a (otherWrite p off v d) := by
  refine OnlyIn.widen hL h ?_
  have h0 := OnlyIn.refl [.host, .health, .sent] d
  unfold otherWrite
  repeat' (first
    | with_reducible assumption | ((with_reducible refine Part.subI ?_); exact rfl) | exact Or.inl rfl
    | exact Or.inr rfl | intro _
    | (extract_lets +onlyGivenNames -underBinder dd; (subst dd))
    | with_reducible apply Dev_setPort_only | with_reducible apply countProto_only
    | with_reducible apply msixWrite_only | split)

theorem registerWrite_only {L : List Part} {a : Dev} (port : Fin 4) (offset : BitVec 32) (value : BitVec 32) {d :
    Dev} (hL : Part.sub [.damask, .host, .health, .sent, .freeCtr] L = true) (h : OnlyIn L a d) :
    OnlyIn L a (registerWrite port offset value d) := by
  refine OnlyIn.widen hL h ?_
  have h0 := OnlyIn.refl [.damask, .host, .health, .sent, .freeCtr] d
  unfold registerWrite
  repeat' (first
    | with_reducible assumption | ((with_reducible refine Part.subI ?_); exact rfl) | exact Or.inl rfl
    | exact Or.inr rfl | intro _
    | (extract_lets +onlyGivenNames -underBinder dd; (subst dd))
    | with_reducible apply sessionOpen_only | with_reducible apply sessionClose_only
    | with_reducible apply hstHeartbeat_only | with_reducible apply hstSqTail_only
    | with_reducible apply hstCqHead_only | with_reducible apply hstIntStatus_only
    | with_reducible apply hstSrCons_only | with_reducible apply otherWrite_only | split)

theorem writeSlot_only {L : List Part} {a : Dev} (p : Nat) (r : Nat) (parts : List (Nat × List Byte)) {d : Dev} (hL :
    Part.sub [.host, .health, .sent] L = true) (h : OnlyIn L a d) :
    OnlyIn L a (writeSlot p r parts d) := by
  refine OnlyIn.widen hL h ?_
  have h0 := OnlyIn.refl [.host, .health, .sent] d
  unfold writeSlot
  repeat' (first
    | with_reducible assumption | ((with_reducible refine Part.subI ?_); exact rfl) | exact Or.inl rfl
    | exact Or.inr rfl | intro _
    | (extract_lets +onlyGivenNames -underBinder dd; (subst dd))
    | with_reducible apply Dev_modPort_only | with_reducible apply bump_only | with_reducible apply writeBack_only
    | with_reducible apply hostWrite_only | with_reducible apply setInt_only | with_reducible apply OnlyIn.foldl
    | with_reducible apply OnlyIn.foldlSnd | split)

/-! ### Queries -/

theorem countHostRefuse_only {L : List Part} {a : Dev} {d : Dev} (hL : Part.sub [.plan, .host, .health, .sent] L =
    true) (h : OnlyIn L a d) :
    OnlyIn L a (countHostRefuse d) := by
  refine OnlyIn.widen hL h ?_
  have h0 := OnlyIn.refl [.plan, .host, .health, .sent] d
  unfold countHostRefuse
  repeat' (first
    | with_reducible assumption | ((with_reducible refine Part.subI ?_); exact rfl) | exact Or.inl rfl
    | exact Or.inr rfl | intro _
    | (extract_lets +onlyGivenNames -underBinder dd; (subst dd))
    | ((conv => (arg 3; arg 23; skip)); with_reducible apply OnlyIn.mk') | with_reducible apply bump_only)

theorem admitQuery_only {L : List Part} {a : Dev} (p : Nat) (s : Submission) (us : Nat) (key : Nat) {d : Dev} (hL :
    Part.sub [.plan, .host] L = true) (h : OnlyIn L a d) :
    OnlyIn L a (admitQuery p s us key d) := by
  refine OnlyIn.widen hL h ?_
  have h0 := OnlyIn.refl [.plan, .host] d
  unfold admitQuery
  repeat' (first
    | with_reducible assumption | ((with_reducible refine Part.subI ?_); exact rfl) | exact Or.inl rfl
    | exact Or.inr rfl | intro _
    | (extract_lets +onlyGivenNames -underBinder dd; (subst dd))
    | ((conv => (arg 3; arg 23; skip)); with_reducible apply OnlyIn.mk') | with_reducible apply Dev_modPort_only)

theorem takeQuery_only {L : List Part} {a : Dev} (p : Nat) (s : Submission) {d : Dev} (hL : Part.sub [.plan, .host,
    .health, .sent, .freeCtr] L = true) (h : OnlyIn L a d) :
    OnlyIn L a (takeQuery p s d) := by
  refine OnlyIn.widen hL h ?_
  have h0 := OnlyIn.refl [.plan, .host, .health, .sent, .freeCtr] d
  unfold takeQuery
  repeat' (first
    | with_reducible assumption | ((with_reducible refine Part.subI ?_); exact rfl) | exact Or.inl rfl
    | exact Or.inr rfl | intro _
    | (extract_lets +onlyGivenNames -underBinder dd; (subst dd))
    | with_reducible apply completePlain_only | with_reducible apply countHostRefuse_only
    | with_reducible apply admitQuery_only | split)

theorem takeCommand_only {L : List Part} {a : Dev} (p : Nat) (s : Submission) {d : Dev} (hL : Part.sub [.host] L =
    true) (h : OnlyIn L a d) :
    OnlyIn L a (takeCommand p s d) := by
  refine OnlyIn.widen hL h ?_
  have h0 := OnlyIn.refl [.host] d
  unfold takeCommand
  repeat' (first
    | with_reducible assumption | ((with_reducible refine Part.subI ?_); exact rfl) | exact Or.inl rfl
    | exact Or.inr rfl | intro _
    | (extract_lets +onlyGivenNames -underBinder dd; (subst dd))
    | ((conv => (arg 3; arg 23; skip)); with_reducible apply OnlyIn.mk') | with_reducible apply Dev_modPort_only)

theorem takeSubmission_only {L : List Part} {a : Dev} (p : Nat) (s : Submission) {d : Dev} (hL : Part.sub [.plan,
    .host, .health, .sent, .freeCtr] L = true) (h : OnlyIn L a d) :
    OnlyIn L a (takeSubmission p s d) := by
  refine OnlyIn.widen hL h ?_
  have h0 := OnlyIn.refl [.plan, .host, .health, .sent, .freeCtr] d
  unfold takeSubmission
  repeat' (first
    | with_reducible assumption | ((with_reducible refine Part.subI ?_); exact rfl) | exact Or.inl rfl
    | exact Or.inr rfl | intro _
    | (extract_lets +onlyGivenNames -underBinder dd; (subst dd))
    | with_reducible apply completePlain_only | with_reducible apply finishDup_only
    | with_reducible apply Dev_setPort_only | with_reducible apply takeQuery_only
    | with_reducible apply takeCommand_only | split)

theorem submissionFetch_only {L : List Part} {a : Dev} (port : Fin 4) (sub : Submission) {d : Dev} (hL : Part.sub
    [.plan, .host, .health, .sent, .freeCtr] L = true) (h : OnlyIn L a d) :
    OnlyIn L a (submissionFetch port sub d) := by
  refine OnlyIn.widen hL h ?_
  have h0 := OnlyIn.refl [.plan, .host, .health, .sent, .freeCtr] d
  unfold submissionFetch
  repeat' (first
    | with_reducible assumption | ((with_reducible refine Part.subI ?_); exact rfl) | exact Or.inl rfl
    | exact Or.inr rfl | intro _
    | (extract_lets +onlyGivenNames -underBinder dd; (subst dd))
    | with_reducible apply emit_only | with_reducible apply Dev_setPort_only
    | with_reducible apply takeSubmission_only | with_reducible apply writeBack_only | split)

theorem flushWindow_only {L : List Part} {a : Dev} (key : Nat) (late : Bool) {d : Dev} (hL : Part.sub [.host,
    .health, .sent, .freeCtr] L = true) (h : OnlyIn L a d) :
    OnlyIn L a (flushWindow key late d) := by
  refine OnlyIn.widen hL h ?_
  have h0 := OnlyIn.refl [.host, .health, .sent, .freeCtr] d
  unfold flushWindow
  repeat' (first
    | with_reducible assumption | ((with_reducible refine Part.subI ?_); exact rfl) | exact Or.inl rfl
    | exact Or.inr rfl | intro _
    | (extract_lets +onlyGivenNames -underBinder dd; (subst dd))
    | with_reducible apply dropWork_only | with_reducible apply Dev_modPort_only
    | with_reducible apply completeWith_only | with_reducible apply OnlyIn.foldl)

theorem endQuery_only {L : List Part} {a : Dev} (p : Nat) (key : Nat) (w : Work) (st : BitVec 8) (b : List Byte) {d :
    Dev} (hL : Part.sub [.plan, .host, .health, .sent, .freeCtr] L = true) (h : OnlyIn L a d) :
    OnlyIn L a (endQuery p key w st b d) := by
  refine OnlyIn.widen hL h ?_
  have h0 := OnlyIn.refl [.plan, .host, .health, .sent, .freeCtr] d
  unfold endQuery
  repeat' (first
    | with_reducible assumption | ((with_reducible refine Part.subI ?_); exact rfl) | exact Or.inl rfl
    | exact Or.inr rfl | intro _
    | (extract_lets +onlyGivenNames -underBinder dd; (subst dd))
    | ((conv => (arg 3; arg 23; skip)); with_reducible apply OnlyIn.mk') | with_reducible apply Dev_modPort_only
    | with_reducible apply flushWindow_only | split)

theorem runModel_only {L : List Part} {a : Dev} (port : Fin 4) (data : List Byte) {d : Dev} (hL : Part.sub [.plan,
    .host, .health, .sent, .freeCtr] L = true) (h : OnlyIn L a d) :
    OnlyIn L a (runModel port data d) := by
  refine OnlyIn.widen hL h ?_
  have h0 := OnlyIn.refl [.plan, .host, .health, .sent, .freeCtr] d
  unfold runModel
  repeat' (first
    | with_reducible assumption | ((with_reducible refine Part.subI ?_); exact rfl) | exact Or.inl rfl
    | exact Or.inr rfl | intro _
    | (extract_lets +onlyGivenNames -underBinder dd; (subst dd))
    | with_reducible apply endQuery_only | with_reducible apply drawFree_only | split)

theorem readGrid_only {L : List Part} {a : Dev} (port : Fin 4) {d : Dev} (hL : Part.sub [.plan, .host, .health,
    .sent, .freeCtr] L = true) (h : OnlyIn L a d) :
    OnlyIn L a (readGrid port d) := by
  refine OnlyIn.widen hL h ?_
  have h0 := OnlyIn.refl [.plan, .host, .health, .sent, .freeCtr] d
  unfold readGrid
  repeat' (first
    | with_reducible assumption | ((with_reducible refine Part.subI ?_); exact rfl) | exact Or.inl rfl
    | exact Or.inr rfl | intro _
    | (extract_lets +onlyGivenNames -underBinder dd; (subst dd))
    | with_reducible apply endQuery_only | split)

theorem readTrack_only {L : List Part} {a : Dev} (port : Fin 4) {d : Dev} (hL : Part.sub [.plan, .host, .health,
    .sent, .freeCtr] L = true) (h : OnlyIn L a d) :
    OnlyIn L a (readTrack port d) := by
  refine OnlyIn.widen hL h ?_
  have h0 := OnlyIn.refl [.plan, .host, .health, .sent, .freeCtr] d
  unfold readTrack
  repeat' (first
    | with_reducible assumption | ((with_reducible refine Part.subI ?_); exact rfl) | exact Or.inl rfl
    | exact Or.inr rfl | intro _
    | (extract_lets +onlyGivenNames -underBinder dd; (subst dd))
    | with_reducible apply endQuery_only | split)

theorem hostFork_only {L : List Part} {a : Dev} (port : Fin 4) {d : Dev} (hL : Part.sub [.plan, .damask, .host,
    .health, .mem, .sent, .freeCtr] L = true) (h : OnlyIn L a d) :
    OnlyIn L a (hostFork port d) := by
  refine OnlyIn.widen hL h ?_
  have h0 := OnlyIn.refl [.plan, .damask, .host, .health, .mem, .sent, .freeCtr] d
  unfold hostFork
  repeat' (first
    | with_reducible assumption | ((with_reducible refine Part.subI ?_); exact rfl) | exact Or.inl rfl
    | exact Or.inr rfl | intro _
    | (extract_lets +onlyGivenNames -underBinder dd; (subst dd))
    | with_reducible apply endQuery_only | with_reducible apply forkOf_only | with_reducible apply Dev_modPort_only
    | split)

theorem freeFork_only {L : List Part} {a : Dev} (port : Fin 4) {d : Dev} (hL : Part.sub [.plan, .damask, .host,
    .health, .sent, .freeCtr] L = true) (h : OnlyIn L a d) :
    OnlyIn L a (freeFork port d) := by
  refine OnlyIn.widen hL h ?_
  have h0 := OnlyIn.refl [.plan, .damask, .host, .health, .sent, .freeCtr] d
  unfold freeFork
  repeat' (first
    | with_reducible assumption | ((with_reducible refine Part.subI ?_); exact rfl) | exact Or.inl rfl
    | exact Or.inr rfl | intro _
    | (extract_lets +onlyGivenNames -underBinder dd; (subst dd))
    | with_reducible apply setSeq_only | with_reducible apply endQuery_only | with_reducible apply Dev_modPort_only
    | split)

theorem abortQueries_only {L : List Part} {a : Dev} (key : Nat) {d : Dev} (hL : Part.sub [.host, .health, .sent,
    .freeCtr] L = true) (h : OnlyIn L a d) :
    OnlyIn L a (abortQueries key d) := by
  refine OnlyIn.widen hL h ?_
  have h0 := OnlyIn.refl [.host, .health, .sent, .freeCtr] d
  unfold abortQueries
  repeat' (first
    | with_reducible assumption | ((with_reducible refine Part.subI ?_); exact rfl) | exact Or.inl rfl
    | exact Or.inr rfl | intro _
    | (extract_lets +onlyGivenNames -underBinder dd; (subst dd))
    | with_reducible apply Dev_modPort_only | with_reducible apply flushWindow_only
    | with_reducible apply OnlyIn.foldl)

theorem hostWindowEnd_only {L : List Part} {a : Dev} (tick : Nat) (w : Nat) {d : Dev} (hL : Part.sub [.fabric, .plan,
    .host, .health, .sent, .freeCtr] L = true) (h : OnlyIn L a d) :
    OnlyIn L a (hostWindowEnd tick w d) := by
  refine OnlyIn.widen hL h ?_
  have h0 := OnlyIn.refl [.fabric, .plan, .host, .health, .sent, .freeCtr] d
  unfold hostWindowEnd
  repeat' (first
    | with_reducible assumption | ((with_reducible refine Part.subI ?_); exact rfl) | exact Or.inl rfl
    | exact Or.inr rfl | intro _
    | (extract_lets +onlyGivenNames -underBinder dd; (subst dd))
    | with_reducible apply flushWindow_only | with_reducible apply stopWindow_only
    | with_reducible apply closeGroupFlags_only | with_reducible apply Dev_setWin_only
    | with_reducible apply abortQueries_only | split)

theorem dropLostQueries_only {L : List Part} {a : Dev} (tick : Nat) {d : Dev} (hL : Part.sub [.host, .health, .sent,
    .freeCtr] L = true) (h : OnlyIn L a d) :
    OnlyIn L a (dropLostQueries tick d) := by
  refine OnlyIn.widen hL h ?_
  have h0 := OnlyIn.refl [.host, .health, .sent, .freeCtr] d
  unfold dropLostQueries
  repeat' (first
    | with_reducible assumption | ((with_reducible refine Part.subI ?_); exact rfl) | exact Or.inl rfl
    | exact Or.inr rfl | intro _
    | (extract_lets +onlyGivenNames -underBinder dd; (subst dd))
    | with_reducible apply abortQueries_only | with_reducible apply OnlyIn.foldl
    | with_reducible apply OnlyIn.foldlSnd | split)

theorem restoreBudgets_only {L : List Part} {a : Dev} (p : Nat) {d : Dev} (hL : Part.sub [.host] L = true) (h :
    OnlyIn L a d) :
    OnlyIn L a (restoreBudgets d p) := by
  refine OnlyIn.widen hL h ?_
  have h0 := OnlyIn.refl [.host] d
  unfold restoreBudgets
  repeat' (first
    | with_reducible assumption | ((with_reducible refine Part.subI ?_); exact rfl) | exact Or.inl rfl
    | exact Or.inr rfl | intro _ | with_reducible apply Dev_modPort_only)

/-! ### Subscriptions -/

theorem startCommand_only {L : List Part} {a : Dev} (p : Nat) (order : Nat) {d : Dev} (hL : Part.sub [.host] L =
    true) (h : OnlyIn L a d) :
    OnlyIn L a (startCommand p order d) := by
  refine OnlyIn.widen hL h ?_
  have h0 := OnlyIn.refl [.host] d
  unfold startCommand
  repeat' (first
    | with_reducible assumption | ((with_reducible refine Part.subI ?_); exact rfl) | exact Or.inl rfl
    | exact Or.inr rfl | intro _ | with_reducible apply Dev_modPort_only)

theorem unlistedOp_only {L : List Part} {a : Dev} (port : Fin 4) {d : Dev} (hL : Part.sub [.host, .health, .sent,
    .freeCtr] L = true) (h : OnlyIn L a d) :
    OnlyIn L a (unlistedOp port d) := by
  refine OnlyIn.widen hL h ?_
  have h0 := OnlyIn.refl [.host, .health, .sent, .freeCtr] d
  unfold unlistedOp
  repeat' (first
    | with_reducible assumption | ((with_reducible refine Part.subI ?_); exact rfl) | exact Or.inl rfl
    | exact Or.inr rfl | intro _ | with_reducible apply finishCommand_only | split)

theorem attest_only {L : List Part} {a : Dev} (port : Fin 4) {d : Dev} (hL : Part.sub [.host] L = true) (h : OnlyIn L
    a d) :
    OnlyIn L a (attest port d) := by
  refine OnlyIn.widen hL h ?_
  have h0 := OnlyIn.refl [.host] d
  unfold attest
  repeat' (first
    | with_reducible assumption | ((with_reducible refine Part.subI ?_); exact rfl) | exact Or.inl rfl
    | exact Or.inr rfl | intro _ | with_reducible apply startCommand_only | split)

theorem failClaim_only {L : List Part} {a : Dev} (p : Nat) (w : Work) {d : Dev} (hL : Part.sub [.host, .health,
    .sent, .freeCtr] L = true) (h : OnlyIn L a d) :
    OnlyIn L a (failClaim p w d) := by
  refine OnlyIn.widen hL h ?_
  have h0 := OnlyIn.refl [.host, .health, .sent, .freeCtr] d
  unfold failClaim
  repeat' (first
    | with_reducible assumption | ((with_reducible refine Part.subI ?_); exact rfl) | exact Or.inl rfl
    | exact Or.inr rfl | intro _ | with_reducible apply conditionEvent_only | with_reducible apply privileged_only
    | with_reducible apply finishCommand_only)

theorem privClaim_only {L : List Part} {a : Dev} (port : Fin 4) {d : Dev} (hL : Part.sub [.host, .health, .sent,
    .freeCtr] L = true) (h : OnlyIn L a d) :
    OnlyIn L a (privClaim port d) := by
  refine OnlyIn.widen hL h ?_
  have h0 := OnlyIn.refl [.host, .health, .sent, .freeCtr] d
  unfold privClaim
  repeat' (first
    | with_reducible assumption | ((with_reducible refine Part.subI ?_); exact rfl) | exact Or.inl rfl
    | exact Or.inr rfl | intro _
    | (extract_lets +onlyGivenNames -underBinder dd; (subst dd))
    | with_reducible apply emit_only | with_reducible apply startCommand_only | with_reducible apply failClaim_only
    | split)

theorem privVerifyDone_only {L : List Part} {a : Dev} (port : Fin 4) (claim : PrivClaim) {d : Dev} (hL : Part.sub
    [.host, .health, .sent, .freeCtr] L = true) (h : OnlyIn L a d) :
    OnlyIn L a (privVerifyDone port claim d) := by
  refine OnlyIn.widen hL h ?_
  have h0 := OnlyIn.refl [.host, .health, .sent, .freeCtr] d
  unfold privVerifyDone
  repeat' (first
    | with_reducible assumption | ((with_reducible refine Part.subI ?_); exact rfl) | exact Or.inl rfl
    | exact Or.inr rfl | intro _
    | (extract_lets +onlyGivenNames -underBinder dd; (subst dd))
    | with_reducible apply finishCommand_only | with_reducible apply Dev_modPort_only
    | with_reducible apply failClaim_only | split)

theorem privileged_only {L : List Part} {a : Dev} (p op : Nat) (f : Work → Dev → Dev) {d : Dev}
    (hL : Part.sub [.host, .health, .sent, .freeCtr] L = true) (hf : ∀ w d, OnlyIn L a d → OnlyIn L a (f w d)) (h :
        OnlyIn L a d) :
    OnlyIn L a (privileged p op f d) := by
  unfold privileged
  repeat' (first
    | with_reducible assumption | split | with_reducible apply hf
    | (refine OnlyIn.widen hL ‹_› ?_; have h0 := OnlyIn.refl [.host, .health, .sent, .freeCtr] d; first | (with_reducible apply beginCommand_only) | (with_reducible apply finishCommand_only))
    | ((with_reducible refine Part.subI ?_); exact rfl))

theorem setTraceMask_only {L : List Part} {a : Dev} (port : Fin 4) {d : Dev} (hL : Part.sub [.host, .boot, .health,
    .sent, .freeCtr] L = true) (h : OnlyIn L a d) :
    OnlyIn L a (setTraceMask port d) := by
  refine OnlyIn.widen hL h ?_
  have h0 := OnlyIn.refl [.host, .boot, .health, .sent, .freeCtr] d
  unfold setTraceMask
  repeat' (first
    | with_reducible assumption | ((with_reducible refine Part.subI ?_); exact rfl) | exact Or.inl rfl
    | exact Or.inr rfl | intro _
    | (extract_lets +onlyGivenNames -underBinder dd; (subst dd))
    | ((conv => (arg 3; arg 23; skip)); with_reducible apply OnlyIn.mk') | with_reducible apply privileged_only
    | with_reducible apply finishCommand_only)

theorem subscribe_only {L : List Part} {a : Dev} (port : Fin 4) {d : Dev} (hL : Part.sub [.host, .health, .sent,
    .freeCtr] L = true) (h : OnlyIn L a d) :
    OnlyIn L a (subscribe port d) := by
  refine OnlyIn.widen hL h ?_
  have h0 := OnlyIn.refl [.host, .health, .sent, .freeCtr] d
  unfold subscribe
  repeat' (first
    | with_reducible assumption | ((with_reducible refine Part.subI ?_); exact rfl) | exact Or.inl rfl
    | exact Or.inr rfl | intro _
    | (extract_lets +onlyGivenNames -underBinder dd; (subst dd))
    | with_reducible apply Dev_modPort_only | with_reducible apply finishCommand_only | split)

theorem unsubscribe_only {L : List Part} {a : Dev} (port : Fin 4) {d : Dev} (hL : Part.sub [.host, .health, .sent,
    .freeCtr] L = true) (h : OnlyIn L a d) :
    OnlyIn L a (unsubscribe port d) := by
  refine OnlyIn.widen hL h ?_
  have h0 := OnlyIn.refl [.host, .health, .sent, .freeCtr] d
  unfold unsubscribe
  repeat' (first
    | with_reducible assumption | ((with_reducible refine Part.subI ?_); exact rfl) | exact Or.inl rfl
    | exact Or.inr rfl | intro _
    | (extract_lets +onlyGivenNames -underBinder dd; (subst dd))
    | with_reducible apply finishCommand_only | with_reducible apply Dev_modPort_only | split)

theorem dropSubs_only {L : List Part} {a : Dev} (p : Nat) {d : Dev} (hL : Part.sub [.host] L = true) (h : OnlyIn L a
    d) :
    OnlyIn L a (dropSubs d p) := by
  refine OnlyIn.widen hL h ?_
  have h0 := OnlyIn.refl [.host] d
  unfold dropSubs
  repeat' (first
    | with_reducible assumption | ((with_reducible refine Part.subI ?_); exact rfl) | exact Or.inl rfl
    | exact Or.inr rfl | intro _
    | (extract_lets +onlyGivenNames -underBinder dd; (subst dd))
    | with_reducible apply Dev_modPort_only)

theorem deliverTo_only {L : List Part} {a : Dev} (o : Output) (p : Nat) (r : Nat) (s : Subscription) {d : Dev} (hL :
    Part.sub [.host, .health, .sent] L = true) (h : OnlyIn L a d) :
    OnlyIn L a (deliverTo o p r d s) := by
  refine OnlyIn.widen hL h ?_
  have h0 := OnlyIn.refl [.host, .health, .sent] d
  unfold deliverTo
  repeat' (first
    | with_reducible assumption | ((with_reducible refine Part.subI ?_); exact rfl) | exact Or.inl rfl
    | exact Or.inr rfl | intro _
    | (extract_lets +onlyGivenNames -underBinder dd; (subst dd))
    | with_reducible apply writeSlot_only | split)

theorem deliverPort_only {L : List Part} {a : Dev} (o : Output) (p : Nat) {d : Dev} (hL : Part.sub [.host, .health,
    .sent] L = true) (h : OnlyIn L a d) :
    OnlyIn L a (deliverPort o d p) := by
  refine OnlyIn.widen hL h ?_
  have h0 := OnlyIn.refl [.host, .health, .sent] d
  unfold deliverPort
  repeat' (first
    | with_reducible assumption | ((with_reducible refine Part.subI ?_); exact rfl) | exact Or.inl rfl
    | exact Or.inr rfl | intro _ | with_reducible apply deliverTo_only | with_reducible apply OnlyIn.foldl
    | with_reducible apply OnlyIn.foldlSnd | split)

theorem deliver_only {L : List Part} {a : Dev} (o : Output) {d : Dev} (hL : Part.sub [.host, .health, .sent] L =
    true) (h : OnlyIn L a d) :
    OnlyIn L a (deliver o d) := by
  refine OnlyIn.widen hL h ?_
  have h0 := OnlyIn.refl [.host, .health, .sent] d
  unfold deliver
  repeat' (first
    | with_reducible assumption | ((with_reducible refine Part.subI ?_); exact rfl) | exact Or.inl rfl
    | exact Or.inr rfl | intro _ | with_reducible apply deliverPort_only | with_reducible apply OnlyIn.foldl)

theorem putSub_only {L : List Part} {a : Dev} (p : Nat) (r : Nat) (s : Subscription) (x : Subscription) {d : Dev} (hL
    : Part.sub [.host] L = true) (h : OnlyIn L a d) :
    OnlyIn L a (putSub p r s x d) := by
  refine OnlyIn.widen hL h ?_
  have h0 := OnlyIn.refl [.host] d
  unfold putSub
  repeat' (first
    | with_reducible assumption | ((with_reducible refine Part.subI ?_); exact rfl) | exact Or.inl rfl
    | exact Or.inr rfl | intro _ | with_reducible apply Dev_modPort_only)

theorem closeBatch_only {L : List Part} {a : Dev} (p : Nat) (r : Nat) (s : Subscription) {d : Dev} (hL : Part.sub
    [.host, .health, .sent] L = true) (h : OnlyIn L a d) :
    OnlyIn L a (closeBatch p r d s) := by
  refine OnlyIn.widen hL h ?_
  have h0 := OnlyIn.refl [.host, .health, .sent] d
  unfold closeBatch
  repeat' (first
    | with_reducible assumption | ((with_reducible refine Part.subI ?_); exact rfl) | exact Or.inl rfl
    | exact Or.inr rfl | intro _
    | (extract_lets +onlyGivenNames -underBinder dd; (subst dd))
    | with_reducible apply putSub_only | with_reducible apply writeSlot_only | with_reducible apply OnlyIn.foldl
    | with_reducible apply OnlyIn.foldlSnd | split)

theorem closeBatches_only {L : List Part} {a : Dev} {d : Dev} (hL : Part.sub [.host, .boot, .health, .sent] L = true)
    (h : OnlyIn L a d) :
    OnlyIn L a (closeBatches d) := by
  refine OnlyIn.widen hL h ?_
  have h0 := OnlyIn.refl [.host, .boot, .health, .sent] d
  unfold closeBatches
  repeat' (first
    | with_reducible assumption | ((with_reducible refine Part.subI ?_); exact rfl) | exact Or.inl rfl
    | exact Or.inr rfl | intro _
    | (extract_lets +onlyGivenNames -underBinder dd; (subst dd))
    | ((conv => (arg 3; arg 23; skip)); with_reducible apply OnlyIn.mk') | with_reducible apply closeBatch_only
    | with_reducible apply OnlyIn.foldl | with_reducible apply OnlyIn.foldlSnd | split)

/-! ### Transmit -/

theorem sendOutput_only {L : List Part} {a : Dev} (o : Output) (bound : Nat) {d : Dev} (hL : Part.sub [.host, .v0,
    .v1, .health, .sent] L = true) (h : OnlyIn L a d) :
    OnlyIn L a (sendOutput o bound d) := by
  refine OnlyIn.widen hL h ?_
  have h0 := OnlyIn.refl [.host, .v0, .v1, .health, .sent] d
  unfold sendOutput
  repeat' (first
    | with_reducible assumption | ((with_reducible refine Part.subI ?_); exact rfl) | exact Or.inl rfl
    | exact Or.inr rfl | intro _
    | (extract_lets +onlyGivenNames -underBinder dd; (subst dd))
    | with_reducible apply release_only | split)

theorem countFallback_only {L : List Part} {a : Dev} (o : Output) {d : Dev} (hL : Part.sub [.host, .felt, .health,
    .sent] L = true) (h : OnlyIn L a d) :
    OnlyIn L a (countFallback o d) := by
  refine OnlyIn.widen hL h ?_
  have h0 := OnlyIn.refl [.host, .felt, .health, .sent] d
  unfold countFallback
  repeat' (first
    | with_reducible assumption | ((with_reducible refine Part.subI ?_); exact rfl) | exact Or.inl rfl
    | exact Or.inr rfl | intro _
    | (extract_lets +onlyGivenNames -underBinder dd; (subst dd))
    | ((conv => (arg 3; arg 23; skip)); with_reducible apply OnlyIn.mk') | with_reducible apply bump_only | split)

theorem noteList_only {L : List Part} {a : Dev} (o : Output) {d : Dev} (hL : Part.sub [.felt, .boot] L = true) (h :
    OnlyIn L a d) :
    OnlyIn L a (noteList o d) := by
  refine OnlyIn.widen hL h ?_
  have h0 := OnlyIn.refl [.felt, .boot] d
  unfold noteList
  repeat' (first
    | with_reducible assumption | exact Or.inl rfl | exact Or.inr rfl | intro _
    | (extract_lets +onlyGivenNames -underBinder dd; (subst dd))
    | ((conv => (arg 3; arg 23; skip)); with_reducible apply OnlyIn.mk') | split)

theorem burnRollback_only {L : List Part} {a : Dev} (o : Output) {d : Dev} (hL : Part.sub [.boot, .sent] L = true) (h
    : OnlyIn L a d) :
    OnlyIn L a (burnRollback o d) := by
  refine OnlyIn.widen hL h ?_
  have h0 := OnlyIn.refl [.boot, .sent] d
  unfold burnRollback
  repeat' (first
    | with_reducible assumption | ((with_reducible refine Part.subI ?_); exact rfl) | exact Or.inl rfl
    | exact Or.inr rfl | intro _
    | (extract_lets +onlyGivenNames -underBinder dd; (subst dd))
    | ((conv => (arg 3; arg 23; skip)); with_reducible apply OnlyIn.mk') | with_reducible apply emit_only | split)

theorem sendEverywhere_only {L : List Part} {a : Dev} (o : Output) (bound : Nat) {d : Dev} (hL : Part.sub [.host,
    .v0, .v1, .felt, .boot, .health, .sent] L = true) (h : OnlyIn L a d) :
    OnlyIn L a (sendEverywhere o bound d) := by
  refine OnlyIn.widen hL h ?_
  have h0 := OnlyIn.refl [.host, .v0, .v1, .felt, .boot, .health, .sent] d
  unfold sendEverywhere
  repeat' (first
    | with_reducible assumption | ((with_reducible refine Part.subI ?_); exact rfl) | exact Or.inl rfl
    | exact Or.inr rfl | intro _ | with_reducible apply burnRollback_only | with_reducible apply noteList_only
    | with_reducible apply countFallback_only | with_reducible apply deliver_only
    | with_reducible apply sendOutput_only)

theorem transmitOutput_only {L : List Part} {a : Dev} (tick : Nat) (bound : Nat) (runs : Bool) (kind : OutKind) {d :
    Dev} (hL : Part.sub [.muslin, .serge, .output, .host, .v0, .v1, .felt, .boot, .health, .sent] L = true) (h :
    OnlyIn L a d) :
    OnlyIn L a (transmitOutput tick bound runs d kind) := by
  refine OnlyIn.widen hL h ?_
  have h0 := OnlyIn.refl [.muslin, .serge, .output, .host, .v0, .v1, .felt, .boot, .health, .sent] d
  unfold transmitOutput
  repeat' (first
    | with_reducible assumption | ((with_reducible refine Part.subI ?_); exact rfl) | exact Or.inl rfl
    | exact Or.inr rfl | intro _
    | (extract_lets +onlyGivenNames -underBinder dd; (subst dd))
    | with_reducible apply selectOutput_only | with_reducible apply sendEverywhere_only
    | with_reducible refine buildOutput_only _ _ _ ?_ ?_ _ (by assumption)
    | with_reducible refine buildOutput_only _ _ _ ?_ ?_ (_, _) (by assumption) | split)

theorem transmitWindow_only {L : List Part} {a : Dev} (tick : Nat) (w : Nat) {d : Dev} (hL : Part.sub [.muslin,
    .plan, .serge, .output, .host, .v0, .v1, .felt, .boot, .health, .sent] L = true) (h : OnlyIn L a d) :
    OnlyIn L a (transmitWindow tick w d) := by
  refine OnlyIn.widen hL h ?_
  have h0 := OnlyIn.refl [.muslin, .plan, .serge, .output, .host, .v0, .v1, .felt, .boot, .health, .sent] d
  unfold transmitWindow
  repeat' (first
    | with_reducible assumption | ((with_reducible refine Part.subI ?_); exact rfl) | exact Or.inl rfl
    | exact Or.inr rfl | intro _
    | (extract_lets +onlyGivenNames -underBinder dd; (subst dd))
    | with_reducible apply Dev_setWin_only | with_reducible apply transmitOutput_only
    | with_reducible apply OnlyIn.foldl | with_reducible apply OnlyIn.foldlSnd | split)

end Sys2Proof.Machine
end

