-- ==== Sys2Proof/Laws/OnlyBoot.lean ====
section
/-!
SUPPORT. The parts of the device that the operations of release, boot, the ladder and the tick boundaries may change
(Sys2Proof/Laws/Only.lean): one lemma for each.
-/

set_option linter.unusedVariables false

namespace Sys2Proof.Machine

open Sys2Proof

/-! ### Release -/

theorem missBlocked_only {L : List Part} {a : Dev} (src : Source) (tick : Nat) {d : Dev} (hL : Part.sub [.chambray,
    .fabric, .plan, .host, .v0, .v1, .felt, .boot, .health, .sent] L = true) (h : OnlyIn L a d) :
    OnlyIn L a (missBlocked src tick d) := by
  refine OnlyIn.widen hL h ?_
  have h0 := OnlyIn.refl [.chambray, .fabric, .plan, .host, .v0, .v1, .felt, .boot, .health, .sent] d
  unfold missBlocked
  repeat' (first
    | with_reducible assumption | ((with_reducible refine Part.subI ?_); exact rfl) | exact Or.inl rfl
    | exact Or.inr rfl | intro _ | with_reducible apply miss_only | with_reducible apply OnlyIn.foldl
    | with_reducible apply OnlyIn.foldlSnd | split)

theorem clearTallies_only {L : List Part} {a : Dev} (r : WindowRec) (cl : Nat) {d : Dev} (hL : Part.sub [.fabric] L =
    true) (h : OnlyIn L a d) :
    OnlyIn L a (clearTallies r d cl) := by
  refine OnlyIn.widen hL h ?_
  have h0 := OnlyIn.refl [.fabric] d
  unfold clearTallies
  repeat' (first
    | with_reducible assumption | ((with_reducible refine Part.subI ?_); exact rfl) | exact Or.inl rfl
    | exact Or.inr rfl | intro _ | with_reducible apply Dev_modCluster_only)

theorem startCore_only {L : List Part} {a : Dev} (key : Nat) (w : Nat) (start : Nat → Option Nat) (qq : Nat) {d :
    Dev} (hL : Part.sub [.fabric] L = true) (h : OnlyIn L a d) :
    OnlyIn L a (startCore key w start d qq) := by
  refine OnlyIn.widen hL h ?_
  have h0 := OnlyIn.refl [.fabric] d
  unfold startCore
  repeat' (first
    | with_reducible assumption | ((with_reducible refine Part.subI ?_); exact rfl) | exact Or.inl rfl
    | exact Or.inr rfl | intro _
    | (extract_lets +onlyGivenNames -underBinder dd; (subst dd))
    | with_reducible apply Dev_setCore_only | split)

theorem releaseCores_only {L : List Part} {a : Dev} (src : Source) (tick : Nat) (w : Nat) (r : WindowRec) {d : Dev}
    (hL : Part.sub [.fabric, .plan] L = true) (h : OnlyIn L a d) :
    OnlyIn L a (releaseCores src tick w r d) := by
  refine OnlyIn.widen hL h ?_
  have h0 := OnlyIn.refl [.fabric, .plan] d
  unfold releaseCores
  repeat' (first
    | with_reducible assumption | ((with_reducible refine Part.subI ?_); exact rfl) | exact Or.inl rfl
    | exact Or.inr rfl | intro _
    | (extract_lets +onlyGivenNames -underBinder dd; (subst dd))
    | with_reducible apply clearTallies_only | with_reducible apply startCore_only
    | with_reducible apply Dev_setWin_only | with_reducible apply OnlyIn.foldl | with_reducible apply OnlyIn.foldlSnd
    | split)

theorem settleWindow_only {L : List Part} {a : Dev} (src : Source) (tick : Nat) (x : Nat × WindowRec) {d : Dev} (hL :
    Part.sub [.chambray, .plan] L = true) (h : OnlyIn L a d) :
    OnlyIn L a (settleWindow src tick d x) := by
  refine OnlyIn.widen hL h ?_
  have h0 := OnlyIn.refl [.chambray, .plan] d
  unfold settleWindow
  repeat' (first
    | with_reducible assumption | ((with_reducible refine Part.subI ?_); exact rfl) | exact Or.inl rfl
    | exact Or.inr rfl | intro _
    | (extract_lets +onlyGivenNames -underBinder dd; (subst dd))
    | with_reducible apply Dev_setWin_only | with_reducible apply closeChambray_only
    | with_reducible apply chambrayEnded_only | split)

theorem settleUnit_only {L : List Part} {a : Dev} (src : Source) (tick : Nat) (x : Nat × WindowRec) {d : Dev} (hL :
    Part.sub [.chambray, .plan] L = true) (h : OnlyIn L a d) :
    OnlyIn L a (settleUnit src tick x d) := by
  refine OnlyIn.widen hL h ?_
  have h0 := OnlyIn.refl [.chambray, .plan] d
  unfold settleUnit
  repeat' (first
    | with_reducible assumption | ((with_reducible refine Part.subI ?_); exact rfl) | exact Or.inl rfl
    | exact Or.inr rfl | intro _ | with_reducible apply settleWindow_only | with_reducible apply OnlyIn.foldl
    | with_reducible apply OnlyIn.foldlSnd | split)

theorem settlePassed_only {L : List Part} {a : Dev} {d : Dev} (hL : Part.sub [.chambray, .plan] L = true) (h : OnlyIn
    L a d) :
    OnlyIn L a (settlePassed d) := by
  refine OnlyIn.widen hL h ?_
  have h0 := OnlyIn.refl [.chambray, .plan] d
  unfold settlePassed
  repeat' (first
    | with_reducible assumption | ((with_reducible refine Part.subI ?_); exact rfl) | exact Or.inl rfl
    | exact Or.inr rfl | intro _ | with_reducible apply settleWindow_only | with_reducible apply OnlyIn.foldl
    | with_reducible apply OnlyIn.foldlSnd | split)

theorem runWindow_only {L : List Part} {a : Dev} (src : Source) (tick : Nat) (w : Nat) {d : Dev} (hL : Part.sub
    [.plan] L = true) (h : OnlyIn L a d) :
    OnlyIn L a (runWindow src tick w d) := by
  refine OnlyIn.widen hL h ?_
  have h0 := OnlyIn.refl [.plan] d
  unfold runWindow
  repeat' (first
    | with_reducible assumption | ((with_reducible refine Part.subI ?_); exact rfl) | exact Or.inl rfl
    | exact Or.inr rfl | intro _
    | (extract_lets +onlyGivenNames -underBinder dd; (subst dd))
    | with_reducible apply Dev_setWin_only)

theorem releaseNow_only {L : List Part} {a : Dev} (src : Source) (tick : Nat) (w : Nat) (r : WindowRec) {d : Dev} (hL
    : Part.sub [.tweed, .tweedFb, .chambray, .fabric, .plan, .serge, .output, .host, .felt, .health, .mem, .sent,
    .freeCtr] L = true) (h : OnlyIn L a d) :
    OnlyIn L a (releaseNow src tick w r d) := by
  refine OnlyIn.widen hL h ?_
  have h0 := OnlyIn.refl [.tweed, .tweedFb, .chambray, .fabric, .plan, .serge, .output, .host, .felt, .health, .mem,
      .sent, .freeCtr] d
  unfold releaseNow
  repeat' (first
    | with_reducible assumption | ((with_reducible refine Part.subI ?_); exact rfl) | exact Or.inl rfl
    | exact Or.inr rfl | intro _ | with_reducible apply releaseCores_only | with_reducible apply runStep_only
    | with_reducible apply runWindow_only | with_reducible apply settleUnit_only
    | with_reducible apply runChambray_only | with_reducible apply releaseSerge_only
    | with_reducible apply beginOutput_only | with_reducible apply openGolden_only
    | with_reducible apply OnlyIn.foldl | with_reducible apply OnlyIn.foldlSnd | split)

theorem releaseTransition_only {L : List Part} {a : Dev} (src : Source) (tick : Nat) (m : Nat) (t : TickRec) {d :
    Dev} (hL : Part.sub [.plan, .serge, .host, .felt, .health, .sent] L = true) (h : OnlyIn L a d) :
    OnlyIn L a (releaseTransition src tick m t d) := by
  refine OnlyIn.widen hL h ?_
  have h0 := OnlyIn.refl [.plan, .serge, .host, .felt, .health, .sent] d
  unfold releaseTransition
  repeat' (first
    | with_reducible assumption | ((with_reducible refine Part.subI ?_); exact rfl) | exact Or.inl rfl
    | exact Or.inr rfl | intro _
    | (extract_lets +onlyGivenNames -underBinder dd; (subst dd))
    | with_reducible apply startSolve_only | split)

theorem windowRelease_only {L : List Part} {a : Dev} (src : Source) (tick : Nat) (w : Nat) {d : Dev} (hL : Part.sub
    [.tweed, .tweedFb, .chambray, .fabric, .plan, .serge, .output, .host, .v0, .v1, .felt, .boot, .health, .mem,
    .sent, .freeCtr] L = true) (h : OnlyIn L a d) :
    OnlyIn L a (windowRelease src tick w d) := by
  refine OnlyIn.widen hL h ?_
  have h0 := OnlyIn.refl [.tweed, .tweedFb, .chambray, .fabric, .plan, .serge, .output, .host, .v0, .v1, .felt,
      .boot, .health, .mem, .sent, .freeCtr] d
  unfold windowRelease
  repeat' (first
    | with_reducible assumption | ((with_reducible refine Part.subI ?_); exact rfl) | exact Or.inl rfl
    | exact Or.inr rfl | intro _
    | (extract_lets +onlyGivenNames -underBinder dd; (subst dd))
    | with_reducible apply releaseTransition_only | with_reducible apply miss_only
    | with_reducible apply Dev_setWin_only | with_reducible apply releaseNow_only | split)

theorem heldWindowRelease_only {L : List Part} {a : Dev} (src : Source) (tick : Nat) (w : Nat) {d : Dev} (hL :
    Part.sub [.tweed, .tweedFb, .chambray, .fabric, .plan, .serge, .output, .host, .v0, .v1, .felt, .boot, .health,
    .mem, .sent, .freeCtr] L = true) (h : OnlyIn L a d) :
    OnlyIn L a (heldWindowRelease src tick w d) := by
  refine OnlyIn.widen hL h ?_
  have h0 := OnlyIn.refl [.tweed, .tweedFb, .chambray, .fabric, .plan, .serge, .output, .host, .v0, .v1, .felt,
      .boot, .health, .mem, .sent, .freeCtr] d
  unfold heldWindowRelease
  repeat' (first
    | with_reducible assumption | ((with_reducible refine Part.subI ?_); exact rfl) | exact Or.inl rfl
    | exact Or.inr rfl | intro _
    | (extract_lets +onlyGivenNames -underBinder dd; (subst dd))
    | ((conv => (arg 3; arg 23; skip)); with_reducible apply OnlyIn.mk') | with_reducible apply miss_only
    | with_reducible apply bump_only | with_reducible apply releaseNow_only | split)

theorem layerWatchdogExpiry_only {L : List Part} {a : Dev} (src : Source) (tick : Nat) (w : Nat) {d : Dev} (hL :
    Part.sub [.tweed, .chambray, .fabric, .plan, .damask, .host, .v0, .v1, .felt, .ctrl, .boot, .recovery, .health,
    .mem, .sent, .freeCtr] L = true) (h : OnlyIn L a d) :
    OnlyIn L a (layerWatchdogExpiry src tick w d) := by
  refine OnlyIn.widen hL h ?_
  have h0 := OnlyIn.refl [.tweed, .chambray, .fabric, .plan, .damask, .host, .v0, .v1, .felt, .ctrl, .boot,
      .recovery, .health, .mem, .sent, .freeCtr] d
  unfold layerWatchdogExpiry
  repeat' (first
    | with_reducible assumption | ((with_reducible refine Part.subI ?_); exact rfl) | exact Or.inl rfl
    | exact Or.inr rfl | intro _
    | (extract_lets +onlyGivenNames -underBinder dd; (subst dd))
    | with_reducible apply abortQueries_only | with_reducible apply overrun_only | split)

theorem stagingWindowEnd_only {L : List Part} {a : Dev} (tick : Nat) (w : Nat) (bytes : Nat) {d : Dev} (hL : Part.sub
    [.fabric, .plan, .mem] L = true) (h : OnlyIn L a d) :
    OnlyIn L a (stagingWindowEnd tick w bytes d) := by
  refine OnlyIn.widen hL h ?_
  have h0 := OnlyIn.refl [.fabric, .plan, .mem] d
  unfold stagingWindowEnd
  repeat' (first
    | with_reducible assumption | ((with_reducible refine Part.subI ?_); exact rfl) | exact Or.inl rfl
    | exact Or.inr rfl | intro _
    | (extract_lets +onlyGivenNames -underBinder dd; (subst dd))
    | ((conv => (arg 3; arg 23; skip)); with_reducible apply OnlyIn.mk') | with_reducible apply Dev_setWin_only
    | with_reducible apply copyOverlay_only | split)

/-! ### Boot -/

theorem burnRetired_only {L : List Part} {a : Dev} {d : Dev} (hL : Part.sub [.boot, .sent] L = true) (h : OnlyIn L a
    d) :
    OnlyIn L a (burnRetired d) := by
  refine OnlyIn.widen hL h ?_
  have h0 := OnlyIn.refl [.boot, .sent] d
  unfold burnRetired
  repeat' (first
    | with_reducible assumption | ((with_reducible refine Part.subI ?_); exact rfl) | exact Or.inl rfl
    | exact Or.inr rfl | intro _
    | (extract_lets +onlyGivenNames -underBinder dd; (subst dd))
    | ((conv => (arg 3; arg 23; skip)); with_reducible apply OnlyIn.mk') | with_reducible apply emit_only)

theorem noteHeader_only {L : List Part} {a : Dev} (s : Slot) (r : SlotRead) {d : Dev} (hL : Part.sub [.boot] L =
    true) (h : OnlyIn L a d) :
    OnlyIn L a (noteHeader s r d) := by
  refine OnlyIn.widen hL h ?_
  have h0 := OnlyIn.refl [.boot] d
  unfold noteHeader
  repeat' (first
    | with_reducible assumption | exact Or.inl rfl | exact Or.inr rfl | intro _
    | (extract_lets +onlyGivenNames -underBinder dd; (subst dd))
    | ((conv => (arg 3; arg 23; skip)); with_reducible apply OnlyIn.mk'))

theorem eraseStripe_only {L : List Part} {a : Dev} (s : Slot) (stripe : Nat) {d : Dev} (hL : Part.sub [.boot, .sent]
    L = true) (h : OnlyIn L a d) :
    OnlyIn L a (eraseStripe s d stripe) := by
  refine OnlyIn.widen hL h ?_
  have h0 := OnlyIn.refl [.boot, .sent] d
  unfold eraseStripe
  repeat' (first
    | with_reducible assumption | ((with_reducible refine Part.subI ?_); exact rfl) | exact Or.inl rfl
    | exact Or.inr rfl | intro _
    | (extract_lets +onlyGivenNames -underBinder dd; (subst dd))
    | ((conv => (arg 3; arg 23; skip)); with_reducible apply OnlyIn.mk') | with_reducible apply emit_only)

theorem eraseManifest_only {L : List Part} {a : Dev} (s : Slot) {d : Dev} (hL : Part.sub [.boot, .sent] L = true) (h
    : OnlyIn L a d) :
    OnlyIn L a (eraseManifest s d) := by
  refine OnlyIn.widen hL h ?_
  have h0 := OnlyIn.refl [.boot, .sent] d
  unfold eraseManifest
  repeat' (first
    | with_reducible assumption | ((with_reducible refine Part.subI ?_); exact rfl) | exact Or.inl rfl
    | exact Or.inr rfl | intro _ | with_reducible apply eraseStripe_only)

theorem noteFail_only {L : List Part} {a : Dev} (s : Slot) (cause : Nat) {d : Dev} (hL : Part.sub [.boot] L = true)
    (h : OnlyIn L a d) :
    OnlyIn L a (noteFail s cause d) := by
  refine OnlyIn.widen hL h ?_
  have h0 := OnlyIn.refl [.boot] d
  unfold noteFail
  repeat' (first
    | with_reducible assumption | exact Or.inl rfl | exact Or.inr rfl | intro _
    | (extract_lets +onlyGivenNames -underBinder dd; (subst dd))
    | ((conv => (arg 3; arg 23; skip)); with_reducible apply OnlyIn.mk'))

theorem failSlot_only {L : List Part} {a : Dev} (cause : Nat) {d : Dev} (hL : Part.sub Part.all L = true) (h : OnlyIn
    L a d) :
    OnlyIn L a (failSlot cause d) := by
  exact OnlyIn.of_all hL

theorem switchOn_only {L : List Part} {a : Dev} {d : Dev} (hL : Part.sub [.fabric, .boot] L = true) (h : OnlyIn L a
    d) :
    OnlyIn L a (switchOn d) := by
  refine OnlyIn.widen hL h ?_
  have h0 := OnlyIn.refl [.fabric, .boot] d
  unfold switchOn
  repeat' (first
    | with_reducible assumption | ((with_reducible refine Part.subI ?_); exact rfl) | exact Or.inl rfl
    | exact Or.inr rfl | intro _
    | (extract_lets +onlyGivenNames -underBinder dd; (subst dd))
    | ((conv => (arg 3; arg 23; skip)); with_reducible apply OnlyIn.mk') | with_reducible apply Dev_modCluster_only
    | with_reducible apply OnlyIn.foldl)

theorem loadBurlap_only {L : List Part} {a : Dev} {d : Dev} (hL : Part.sub [.fabric, .mem] L = true) (h : OnlyIn L a
    d) :
    OnlyIn L a (loadBurlap d) := by
  refine OnlyIn.widen hL h ?_
  have h0 := OnlyIn.refl [.fabric, .mem] d
  unfold loadBurlap
  repeat' (first
    | with_reducible assumption | ((with_reducible refine Part.subI ?_); exact rfl) | exact Or.inl rfl
    | exact Or.inr rfl | intro _ | with_reducible apply loadBurlapCluster_only | with_reducible apply OnlyIn.foldl)

theorem startSequencer_only {L : List Part} {a : Dev} {d : Dev} (hL : Part.sub [.time] L = true) (h : OnlyIn L a d) :
    OnlyIn L a (startSequencer d) := by
  refine OnlyIn.widen hL h ?_
  have h0 := OnlyIn.refl [.time] d
  unfold startSequencer
  repeat' (first
    | with_reducible assumption | ((with_reducible refine Part.subI ?_); exact rfl) | exact Or.inl rfl
    | exact Or.inr rfl | intro _
    | (extract_lets +onlyGivenNames -underBinder dd; (subst dd))
    | with_reducible apply Dev_setTime_only | split)

theorem startImage_only {L : List Part} {a : Dev} (img : Image) {d : Dev} (hL : Part.sub [.time, .ports, .cal,
    .fabric, .plan, .serge, .host, .v0, .v1, .felt, .ctrl, .boot, .health, .mem, .sent] L = true) (h : OnlyIn L a d) :
    OnlyIn L a (startImage img d) := by
  refine OnlyIn.widen hL h ?_
  have h0 := OnlyIn.refl [.time, .ports, .cal, .fabric, .plan, .serge, .host, .v0, .v1, .felt, .ctrl, .boot, .health,
      .mem, .sent] d
  unfold startImage
  repeat' (first
    | with_reducible assumption | ((with_reducible refine Part.subI ?_); exact rfl) | exact Or.inl rfl
    | exact Or.inr rfl | intro _
    | (extract_lets +onlyGivenNames -underBinder dd; (subst dd))
    | ((conv => (arg 3; arg 23; skip)); with_reducible apply OnlyIn.mk') | with_reducible apply loadBurlap_only
    | with_reducible apply switchOn_only | with_reducible apply restoreWear_only
    | with_reducible apply startSequencer_only | with_reducible apply loadUnit_only
    | with_reducible apply enableLidar_only | with_reducible apply OnlyIn.foldl)

theorem phase0Loaded_only {L : List Part} {a : Dev} (read : SlotRead) {d : Dev} (hL : Part.sub Part.all L = true) (h
    : OnlyIn L a d) :
    OnlyIn L a (phase0Loaded read d) := by
  exact OnlyIn.of_all hL

theorem sectionVerified_only {L : List Part} {a : Dev} (id : BitVec 8) (bytes : List Byte) (digest : Nat) {d : Dev}
    (hL : Part.sub Part.all L = true) (h : OnlyIn L a d) :
    OnlyIn L a (sectionVerified id bytes digest d) := by
  exact OnlyIn.of_all hL

theorem slotVerified_only {L : List Part} {a : Dev} (bad : Option (BitVec 8)) {d : Dev} (hL : Part.sub Part.all L =
    true) (h : OnlyIn L a d) :
    OnlyIn L a (slotVerified bad d) := by
  exact OnlyIn.of_all hL

theorem stageWrite_only {L : List Part} {a : Dev} (port : Fin 4) {d : Dev} (hL : Part.sub [.host, .boot, .health,
    .sent, .freeCtr] L = true) (h : OnlyIn L a d) :
    OnlyIn L a (stageWrite port d) := by
  refine OnlyIn.widen hL h ?_
  have h0 := OnlyIn.refl [.host, .boot, .health, .sent, .freeCtr] d
  unfold stageWrite
  repeat' (first
    | with_reducible assumption | ((with_reducible refine Part.subI ?_); exact rfl) | exact Or.inl rfl
    | exact Or.inr rfl | intro _
    | (extract_lets +onlyGivenNames -underBinder dd; (subst dd))
    | ((conv => (arg 3; arg 23; skip)); with_reducible apply OnlyIn.mk') | with_reducible apply privileged_only
    | with_reducible apply finishCommand_only | with_reducible apply eraseManifest_only
    | with_reducible apply eraseStripe_only | with_reducible apply emit_only | with_reducible apply startCommand_only
    | with_reducible apply OnlyIn.foldl | with_reducible apply OnlyIn.foldlSnd | split)

theorem finishStage_only {L : List Part} {a : Dev} (p : Nat) (op : BitVec 8) (result : List Byte) {d : Dev} (hL :
    Part.sub [.host, .health, .sent, .freeCtr] L = true) (h : OnlyIn L a d) :
    OnlyIn L a (finishStage p op result d) := by
  refine OnlyIn.widen hL h ?_
  have h0 := OnlyIn.refl [.host, .health, .sent, .freeCtr] d
  unfold finishStage
  repeat' (first
    | with_reducible assumption | ((with_reducible refine Part.subI ?_); exact rfl) | exact Or.inl rfl
    | exact Or.inr rfl | intro _ | with_reducible apply finishCommand_only | split)

theorem stageWriteDone_only {L : List Part} {a : Dev} (head : List Byte) {d : Dev} (hL : Part.sub [.host, .boot,
    .health, .sent, .freeCtr] L = true) (h : OnlyIn L a d) :
    OnlyIn L a (stageWriteDone head d) := by
  refine OnlyIn.widen hL h ?_
  have h0 := OnlyIn.refl [.host, .boot, .health, .sent, .freeCtr] d
  unfold stageWriteDone
  repeat' (first
    | with_reducible assumption | ((with_reducible refine Part.subI ?_); exact rfl) | exact Or.inl rfl
    | exact Or.inr rfl | intro _
    | (extract_lets +onlyGivenNames -underBinder dd; (subst dd))
    | ((conv => (arg 3; arg 23; skip)); with_reducible apply OnlyIn.mk') | with_reducible apply finishStage_only
    | with_reducible apply emit_only | split)

theorem stageCommit_only {L : List Part} {a : Dev} (port : Fin 4) {d : Dev} (hL : Part.sub [.host, .boot, .health,
    .sent, .freeCtr] L = true) (h : OnlyIn L a d) :
    OnlyIn L a (stageCommit port d) := by
  refine OnlyIn.widen hL h ?_
  have h0 := OnlyIn.refl [.host, .boot, .health, .sent, .freeCtr] d
  unfold stageCommit
  repeat' (first
    | with_reducible assumption | ((with_reducible refine Part.subI ?_); exact rfl) | exact Or.inl rfl
    | exact Or.inr rfl | intro _
    | (extract_lets +onlyGivenNames -underBinder dd; (subst dd))
    | ((conv => (arg 3; arg 23; skip)); with_reducible apply OnlyIn.mk') | with_reducible apply privileged_only
    | with_reducible apply finishCommand_only | with_reducible apply startCommand_only | split)

theorem endCommit_only {L : List Part} {a : Dev} (p : Nat) (outcome : Nat) (sec : Nat) (hh : SlotHeader) {d : Dev}
    (hL : Part.sub [.host, .boot, .health, .sent, .freeCtr] L = true) (h : OnlyIn L a d) :
    OnlyIn L a (endCommit p outcome sec hh d) := by
  refine OnlyIn.widen hL h ?_
  have h0 := OnlyIn.refl [.host, .boot, .health, .sent, .freeCtr] d
  unfold endCommit
  repeat' (first
    | with_reducible assumption | ((with_reducible refine Part.subI ?_); exact rfl) | exact Or.inl rfl
    | exact Or.inr rfl | intro _
    | (extract_lets +onlyGivenNames -underBinder dd; (subst dd))
    | ((conv => (arg 3; arg 23; skip)); with_reducible apply OnlyIn.mk') | with_reducible apply eraseManifest_only
    | with_reducible apply finishStage_only | split)

theorem stageCommitDone_only {L : List Part} {a : Dev} (read : SlotRead) {d : Dev} (hL : Part.sub [.host, .boot,
    .health, .sent, .freeCtr] L = true) (h : OnlyIn L a d) :
    OnlyIn L a (stageCommitDone read d) := by
  refine OnlyIn.widen hL h ?_
  have h0 := OnlyIn.refl [.host, .boot, .health, .sent, .freeCtr] d
  unfold stageCommitDone
  repeat' (first
    | with_reducible assumption | ((with_reducible refine Part.subI ?_); exact rfl) | exact Or.inl rfl
    | exact Or.inr rfl | intro _
    | (extract_lets +onlyGivenNames -underBinder dd; (subst dd))
    | with_reducible apply noteHeader_only | with_reducible apply burnRetired_only
    | with_reducible apply endCommit_only | split)

theorem warmClose_only {L : List Part} {a : Dev} (p : Nat) {d : Dev} (hL : Part.sub [.damask, .host, .health, .sent,
    .freeCtr] L = true) (h : OnlyIn L a d) :
    OnlyIn L a (warmClose d p) := by
  refine OnlyIn.widen hL h ?_
  have h0 := OnlyIn.refl [.damask, .host, .health, .sent, .freeCtr] d
  unfold warmClose
  repeat' (first
    | with_reducible assumption | ((with_reducible refine Part.subI ?_); exact rfl) | exact Or.inl rfl
    | exact Or.inr rfl | intro _ | with_reducible apply closing_only | split)

theorem warmStart_only {L : List Part} {a : Dev} (port : Fin 4) {d : Dev} (hL : Part.sub [.damask, .host, .ctrl,
    .boot, .health, .sent, .freeCtr] L = true) (h : OnlyIn L a d) :
    OnlyIn L a (warmStart port d) := by
  refine OnlyIn.widen hL h ?_
  have h0 := OnlyIn.refl [.damask, .host, .ctrl, .boot, .health, .sent, .freeCtr] d
  unfold warmStart
  repeat' (first
    | with_reducible assumption | ((with_reducible refine Part.subI ?_); exact rfl) | exact Or.inl rfl
    | exact Or.inr rfl | intro _
    | (extract_lets +onlyGivenNames -underBinder dd; (subst dd))
    | ((conv => (arg 3; arg 23; skip)); with_reducible apply OnlyIn.mk') | with_reducible apply privileged_only
    | with_reducible apply finishCommand_only | with_reducible apply warmClose_only
    | with_reducible apply OnlyIn.foldl | with_reducible apply OnlyIn.foldlSnd | split)

theorem failWarm_only {L : List Part} {a : Dev} (s : Slot) (cause : Nat) {d : Dev} (hL : Part.sub [.host, .boot,
    .health, .sent] L = true) (h : OnlyIn L a d) :
    OnlyIn L a (failWarm s cause d) := by
  refine OnlyIn.widen hL h ?_
  have h0 := OnlyIn.refl [.host, .boot, .health, .sent] d
  unfold failWarm
  repeat' (first
    | with_reducible assumption | ((with_reducible refine Part.subI ?_); exact rfl) | exact Or.inl rfl
    | exact Or.inr rfl | intro _
    | (extract_lets +onlyGivenNames -underBinder dd; (subst dd))
    | ((conv => (arg 3; arg 23; skip)); with_reducible apply OnlyIn.mk') | with_reducible apply eraseManifest_only
    | with_reducible apply conditionEvent_only | split)

theorem cutSolves_only {L : List Part} {a : Dev} (bc : Nanos) {d : Dev} (hL : Part.sub [.serge] L = true) (h : OnlyIn
    L a d) :
    OnlyIn L a (cutSolves bc d) := by
  refine OnlyIn.widen hL h ?_
  have h0 := OnlyIn.refl [.serge] d
  unfold cutSolves
  repeat' (first
    | with_reducible assumption | ((with_reducible refine Part.subI ?_); exact rfl) | exact Or.inl rfl
    | exact Or.inr rfl | intro _ | with_reducible apply modSlot_only | with_reducible apply OnlyIn.foldl)

theorem warmReadDone_only {L : List Part} {a : Dev} (read : SlotRead) {d : Dev} (hL : Part.sub [.serge, .host, .boot,
    .health, .sent] L = true) (h : OnlyIn L a d) :
    OnlyIn L a (warmReadDone read d) := by
  refine OnlyIn.widen hL h ?_
  have h0 := OnlyIn.refl [.serge, .host, .boot, .health, .sent] d
  unfold warmReadDone
  repeat' (first
    | with_reducible assumption | ((with_reducible refine Part.subI ?_); exact rfl) | exact Or.inl rfl
    | exact Or.inr rfl | intro _
    | (extract_lets +onlyGivenNames -underBinder dd; (subst dd))
    | ((conv => (arg 3; arg 23; skip)); with_reducible apply OnlyIn.mk') | with_reducible apply noteHeader_only
    | with_reducible apply burnRetired_only | with_reducible apply failWarm_only
    | with_reducible apply cutSolves_only | split)

theorem imageBlockTimeout_only {L : List Part} {a : Dev} {d : Dev} (hL : Part.sub Part.all L = true) (h : OnlyIn L a
    d) :
    OnlyIn L a (imageBlockTimeout d) := by
  exact OnlyIn.of_all hL

/-! ### Ladder -/

theorem countAdmitFail_only {L : List Part} {a : Dev} (x : Nat) {d : Dev} (hL : Part.sub [.host, .recovery, .health,
    .sent] L = true) (h : OnlyIn L a d) :
    OnlyIn L a (countAdmitFail x d) := by
  refine OnlyIn.widen hL h ?_
  have h0 := OnlyIn.refl [.host, .recovery, .health, .sent] d
  unfold countAdmitFail
  repeat' (first
    | with_reducible assumption | ((with_reducible refine Part.subI ?_); exact rfl) | exact Or.inl rfl
    | exact Or.inr rfl | intro _ | with_reducible apply bump_only | with_reducible apply Dev_modDie_only)

theorem admitDie_only {L : List Part} {a : Dev} (x : Nat) (latency : Nat) {d : Dev} (hL : Part.sub [.fabric, .plan,
    .host, .ctrl, .recovery, .health, .mem, .sent] L = true) (h : OnlyIn L a d) :
    OnlyIn L a (admitDie x latency d) := by
  refine OnlyIn.widen hL h ?_
  have h0 := OnlyIn.refl [.fabric, .plan, .host, .ctrl, .recovery, .health, .mem, .sent] d
  unfold admitDie
  repeat' (first
    | with_reducible assumption | ((with_reducible refine Part.subI ?_); exact rfl) | exact Or.inl rfl
    | exact Or.inr rfl | intro _ | with_reducible apply refreshModes_only | with_reducible apply loadDie_only
    | with_reducible apply Dev_modDie_only)

theorem rejectDie_only {L : List Part} {a : Dev} (x : Nat) {d : Dev} (hL : Part.sub [.plan, .host, .ctrl, .recovery,
    .health, .sent] L = true) (h : OnlyIn L a d) :
    OnlyIn L a (rejectDie x d) := by
  refine OnlyIn.widen hL h ?_
  have h0 := OnlyIn.refl [.plan, .host, .ctrl, .recovery, .health, .sent] d
  unfold rejectDie
  repeat' (first
    | with_reducible assumption | ((with_reducible refine Part.subI ?_); exact rfl) | exact Or.inl rfl
    | exact Or.inr rfl | intro _ | with_reducible apply refreshModes_only | with_reducible apply countAdmitFail_only
    | with_reducible apply Dev_modDie_only)

theorem decideReport_only {L : List Part} {a : Dev} (x : Nat) (ok : Bool) (latency : Nat) {d : Dev} (hL : Part.sub
    [.tweed, .chambray, .fabric, .plan, .damask, .host, .v0, .v1, .felt, .ctrl, .boot, .recovery, .health, .mem,
    .sent] L = true) (h : OnlyIn L a d) :
    OnlyIn L a (decideReport x ok latency d) := by
  refine OnlyIn.widen hL h ?_
  have h0 := OnlyIn.refl [.tweed, .chambray, .fabric, .plan, .damask, .host, .v0, .v1, .felt, .ctrl, .boot,
      .recovery, .health, .mem, .sent] d
  unfold decideReport
  repeat' (first
    | with_reducible assumption | ((with_reducible refine Part.subI ?_); exact rfl) | exact Or.inl rfl
    | exact Or.inr rfl | intro _
    | (extract_lets +onlyGivenNames -underBinder dd; (subst dd))
    | with_reducible apply admitDie_only | with_reducible apply rejectDie_only | with_reducible apply Dev_setDie_only
    | with_reducible apply countAdmitFail_only | with_reducible apply declareFailed_only
    | with_reducible apply restartDie_only | with_reducible apply Dev_modDie_only | split)

theorem noteMemory_only {L : List Part} {a : Dev} (x : Nat) (m : MemFit) (start : Bool) {d : Dev} (hL : Part.sub
    [.plan, .host, .ctrl, .recovery, .health, .sent] L = true) (h : OnlyIn L a d) :
    OnlyIn L a (noteMemory x m start d) := by
  refine OnlyIn.widen hL h ?_
  have h0 := OnlyIn.refl [.plan, .host, .ctrl, .recovery, .health, .sent] d
  unfold noteMemory
  repeat' (first
    | with_reducible assumption | ((with_reducible refine Part.subI ?_); exact rfl) | exact Or.inl rfl
    | exact Or.inr rfl | intro _
    | (extract_lets +onlyGivenNames -underBinder dd; (subst dd))
    | with_reducible apply Dev_modDie_only | with_reducible apply rejectDie_only
    | with_reducible apply conditionEvent_only | split)

theorem dieAdmissionReport_only {L : List Part} {a : Dev} (die : Fin 6) (digestsOk : Bool) (versionOk : Bool)
    (epochOk : Bool) (latency : Nat) (memory : MemFit) {d : Dev} (hL : Part.sub [.tweed, .chambray, .fabric, .plan,
    .damask, .host, .v0, .v1, .felt, .ctrl, .boot, .recovery, .health, .mem, .sent] L = true) (h : OnlyIn L a d) :
    OnlyIn L a (dieAdmissionReport die digestsOk versionOk epochOk latency memory d) := by
  refine OnlyIn.widen hL h ?_
  have h0 := OnlyIn.refl [.tweed, .chambray, .fabric, .plan, .damask, .host, .v0, .v1, .felt, .ctrl, .boot,
      .recovery, .health, .mem, .sent] d
  unfold dieAdmissionReport
  repeat' (first
    | with_reducible assumption | ((with_reducible refine Part.subI ?_); exact rfl) | exact Or.inl rfl
    | exact Or.inr rfl | intro _
    | (extract_lets +onlyGivenNames -underBinder dd; (subst dd))
    | with_reducible apply noteMemory_only | with_reducible apply decideReport_only
    | with_reducible apply fwEvent_only | with_reducible apply Dev_modDie_only | split)

theorem admissionDeadline_only {L : List Part} {a : Dev} (die : Fin 6) {d : Dev} (hL : Part.sub [.plan, .host, .ctrl,
    .recovery, .health, .sent] L = true) (h : OnlyIn L a d) :
    OnlyIn L a (admissionDeadline die d) := by
  refine OnlyIn.widen hL h ?_
  have h0 := OnlyIn.refl [.plan, .host, .ctrl, .recovery, .health, .sent] d
  unfold admissionDeadline
  repeat' (first
    | with_reducible assumption | ((with_reducible refine Part.subI ?_); exact rfl) | exact Or.inl rfl
    | exact Or.inr rfl | intro _
    | (extract_lets +onlyGivenNames -underBinder dd; (subst dd))
    | with_reducible apply rejectDie_only | with_reducible apply Dev_modDie_only | split)

theorem dieReload_only {L : List Part} {a : Dev} (die : Fin 6) {d : Dev} (hL : Part.sub [.tweed, .chambray, .fabric,
    .damask, .recovery, .mem] L = true) (h : OnlyIn L a d) :
    OnlyIn L a (dieReload die d) := by
  refine OnlyIn.widen hL h ?_
  have h0 := OnlyIn.refl [.tweed, .chambray, .fabric, .damask, .recovery, .mem] d
  unfold dieReload
  repeat' (first
    | with_reducible assumption | ((with_reducible refine Part.subI ?_); exact rfl) | exact Or.inl rfl
    | exact Or.inr rfl | intro _
    | (extract_lets +onlyGivenNames -underBinder dd; (subst dd))
    | with_reducible apply Dev_setDie_only | with_reducible apply resetCluster_only
    | with_reducible apply setUnitState_only | with_reducible apply loadDie_only
    | with_reducible apply setClusters_only | with_reducible apply emptyMemorySide_only
    | with_reducible apply OnlyIn.foldl | with_reducible apply OnlyIn.foldlSnd | split)

theorem reloadDone_only {L : List Part} {a : Dev} (die : Fin 6) (part : Nat) (ok : Bool) {d : Dev} (hL : Part.sub
    [.tweed, .chambray, .fabric, .damask, .recovery, .mem] L = true) (h : OnlyIn L a d) :
    OnlyIn L a (reloadDone die part ok d) := by
  refine OnlyIn.widen hL h ?_
  have h0 := OnlyIn.refl [.tweed, .chambray, .fabric, .damask, .recovery, .mem] d
  unfold reloadDone
  repeat' (first
    | with_reducible assumption | ((with_reducible refine Part.subI ?_); exact rfl) | exact Or.inl rfl
    | exact Or.inr rfl | intro _
    | (extract_lets +onlyGivenNames -underBinder dd; (subst dd))
    | with_reducible apply loadDie_only | with_reducible apply Dev_setDie_only
    | with_reducible apply loadPartition_only | with_reducible apply resetPartition_only | split)

theorem restartTimeout_only {L : List Part} {a : Dev} (die : Fin 6) (part : Nat) {d : Dev} (hL : Part.sub [.fabric,
    .plan, .host, .v0, .v1, .felt, .ctrl, .boot, .recovery, .health, .sent] L = true) (h : OnlyIn L a d) :
    OnlyIn L a (restartTimeout die part d) := by
  refine OnlyIn.widen hL h ?_
  have h0 := OnlyIn.refl [.fabric, .plan, .host, .v0, .v1, .felt, .ctrl, .boot, .recovery, .health, .sent] d
  unfold restartTimeout
  repeat' (first
    | with_reducible assumption | ((with_reducible refine Part.subI ?_); exact rfl) | exact Or.inl rfl
    | exact Or.inr rfl | intro _
    | (extract_lets +onlyGivenNames -underBinder dd; (subst dd))
    | with_reducible apply declareFailed_only | split)

theorem rejoinPart_only {L : List Part} {a : Dev} (x : Nat) (r : PartRestart) {d : Dev} (hL : Part.sub [.chambray,
    .fabric, .recovery] L = true) (h : OnlyIn L a d) :
    OnlyIn L a (rejoinPart x d r) := by
  refine OnlyIn.widen hL h ?_
  have h0 := OnlyIn.refl [.chambray, .fabric, .recovery] d
  unfold rejoinPart
  repeat' (first
    | with_reducible assumption | ((with_reducible refine Part.subI ?_); exact rfl) | exact Or.inl rfl
    | exact Or.inr rfl | intro _
    | (extract_lets +onlyGivenNames -underBinder dd; (subst dd))
    | ((conv => (arg 3; arg 23; skip)); with_reducible apply OnlyIn.mk') | with_reducible apply Dev_modDie_only
    | with_reducible apply setClusters_only | with_reducible apply setUnitState_only
    | with_reducible apply OnlyIn.foldl | with_reducible apply OnlyIn.foldlSnd | split)

theorem rejoinDie_only {L : List Part} {a : Dev} (x : Nat) (r : DieRestart) {d : Dev} (hL : Part.sub [.chambray,
    .fabric, .recovery] L = true) (h : OnlyIn L a d) :
    OnlyIn L a (rejoinDie x r d) := by
  refine OnlyIn.widen hL h ?_
  have h0 := OnlyIn.refl [.chambray, .fabric, .recovery] d
  unfold rejoinDie
  repeat' (first
    | with_reducible assumption | ((with_reducible refine Part.subI ?_); exact rfl) | exact Or.inl rfl
    | exact Or.inr rfl | intro _
    | (extract_lets +onlyGivenNames -underBinder dd; (subst dd))
    | ((conv => (arg 3; arg 23; skip)); with_reducible apply OnlyIn.mk') | with_reducible apply Dev_modDie_only
    | with_reducible apply setUnitState_only | with_reducible apply setClusters_only
    | with_reducible apply OnlyIn.foldl | with_reducible apply OnlyIn.foldlSnd | split)

theorem rejoin_only {L : List Part} {a : Dev} (x : Nat) {d : Dev} (hL : Part.sub [.chambray, .fabric, .recovery] L =
    true) (h : OnlyIn L a d) :
    OnlyIn L a (rejoin d x) := by
  refine OnlyIn.widen hL h ?_
  have h0 := OnlyIn.refl [.chambray, .fabric, .recovery] d
  unfold rejoin
  repeat' (first
    | with_reducible assumption | ((with_reducible refine Part.subI ?_); exact rfl) | exact Or.inl rfl
    | exact Or.inr rfl | intro _
    | (extract_lets +onlyGivenNames -underBinder dd; (subst dd))
    | with_reducible apply rejoinDie_only | with_reducible apply rejoinPart_only | with_reducible apply OnlyIn.foldl
    | with_reducible apply OnlyIn.foldlSnd | split)

theorem fwWatchdogExpiry_only {L : List Part} {a : Dev} (p : FwProc) {d : Dev} (hL : Part.sub [.tweed, .chambray,
    .fabric, .plan, .damask, .host, .v0, .v1, .felt, .ctrl, .boot, .recovery, .health, .mem, .sent] L = true) (h :
    OnlyIn L a d) :
    OnlyIn L a (fwWatchdogExpiry p d) := by
  refine OnlyIn.widen hL h ?_
  have h0 := OnlyIn.refl [.tweed, .chambray, .fabric, .plan, .damask, .host, .v0, .v1, .felt, .ctrl, .boot,
      .recovery, .health, .mem, .sent] d
  unfold fwWatchdogExpiry
  repeat' (first
    | with_reducible assumption | ((with_reducible refine Part.subI ?_); exact rfl) | exact Or.inl rfl
    | exact Or.inr rfl | intro _
    | (extract_lets +onlyGivenNames -underBinder dd; (subst dd))
    | with_reducible apply modProc_only | with_reducible apply satEvent_only | with_reducible apply logWrite_only
    | with_reducible apply raiseV_only | with_reducible apply healthEvent_only | with_reducible apply restartDie_only
    | split)

theorem firmwareRestartComplete_only {L : List Part} {a : Dev} (p : FwProc) {d : Dev} (hL : Part.sub [.tweed,
    .chambray, .fabric, .plan, .damask, .host, .v0, .v1, .felt, .ctrl, .boot, .recovery, .health, .mem, .sent] L =
    true) (h : OnlyIn L a d) :
    OnlyIn L a (firmwareRestartComplete p d) := by
  refine OnlyIn.widen hL h ?_
  have h0 := OnlyIn.refl [.tweed, .chambray, .fabric, .plan, .damask, .host, .v0, .v1, .felt, .ctrl, .boot,
      .recovery, .health, .mem, .sent] d
  unfold firmwareRestartComplete
  repeat' (first
    | with_reducible assumption | ((with_reducible refine Part.subI ?_); exact rfl) | exact Or.inl rfl
    | exact Or.inr rfl | intro _
    | (extract_lets +onlyGivenNames -underBinder dd; (subst dd))
    | with_reducible apply modProc_only | with_reducible apply decideReport_only
    | with_reducible apply Dev_modDie_only | with_reducible apply OnlyIn.foldl | with_reducible apply OnlyIn.foldlSnd
    | split)

theorem dropTrace_only {L : List Part} {a : Dev} {d : Dev} (hL : Part.sub [.host, .boot, .health, .sent] L = true) (h
    : OnlyIn L a d) :
    OnlyIn L a (dropTrace d) := by
  refine OnlyIn.widen hL h ?_
  have h0 := OnlyIn.refl [.host, .boot, .health, .sent] d
  unfold dropTrace
  repeat' (first
    | with_reducible assumption | ((with_reducible refine Part.subI ?_); exact rfl) | exact Or.inl rfl
    | exact Or.inr rfl | intro _
    | (extract_lets +onlyGivenNames -underBinder dd; (subst dd))
    | ((conv => (arg 3; arg 23; skip)); with_reducible apply OnlyIn.mk') | with_reducible apply bump_only)

theorem putTrace_only {L : List Part} {a : Dev} (r : TraceRecord) {d : Dev} (hL : Part.sub [.host, .boot, .health,
    .sent] L = true) (h : OnlyIn L a d) :
    OnlyIn L a (putTrace d r) := by
  refine OnlyIn.widen hL h ?_
  have h0 := OnlyIn.refl [.host, .boot, .health, .sent] d
  unfold putTrace
  repeat' (first
    | with_reducible assumption | ((with_reducible refine Part.subI ?_); exact rfl) | exact Or.inl rfl
    | exact Or.inr rfl | intro _
    | (extract_lets +onlyGivenNames -underBinder dd; (subst dd))
    | ((conv => (arg 3; arg 23; skip)); with_reducible apply OnlyIn.mk') | with_reducible apply dropTrace_only
    | split)

theorem tracePoint_only {L : List Part} {a : Dev} (die : Die) (id : BitVec 16) (args : List Word) {d : Dev} (hL :
    Part.sub [.host, .boot, .health, .sent] L = true) (h : OnlyIn L a d) :
    OnlyIn L a (tracePoint die id args d) := by
  refine OnlyIn.widen hL h ?_
  have h0 := OnlyIn.refl [.host, .boot, .health, .sent] d
  unfold tracePoint
  repeat' (first
    | with_reducible assumption | ((with_reducible refine Part.subI ?_); exact rfl) | exact Or.inl rfl
    | exact Or.inr rfl | intro _
    | (extract_lets +onlyGivenNames -underBinder dd; (subst dd))
    | ((conv => (arg 3; arg 23; skip)); with_reducible apply OnlyIn.mk') | with_reducible apply dropTrace_only
    | split)

theorem moveTrace_only {L : List Part} {a : Dev} {d : Dev} (hL : Part.sub [.host, .boot, .health, .sent] L = true) (h
    : OnlyIn L a d) :
    OnlyIn L a (moveTrace d) := by
  refine OnlyIn.widen hL h ?_
  have h0 := OnlyIn.refl [.host, .boot, .health, .sent] d
  unfold moveTrace
  repeat' (first
    | with_reducible assumption | ((with_reducible refine Part.subI ?_); exact rfl) | exact Or.inl rfl
    | exact Or.inr rfl | intro _
    | (extract_lets +onlyGivenNames -underBinder dd; (subst dd))
    | ((conv => (arg 3; arg 23; skip)); with_reducible apply OnlyIn.mk') | with_reducible apply putTrace_only
    | with_reducible apply OnlyIn.foldl)

theorem tapInstruction_only {L : List Part} {a : Dev} (code : TapInstr) {d : Dev} (hL : Part.sub [.boot] L = true) (h
    : OnlyIn L a d) :
    OnlyIn L a (tapInstruction code d) := by
  refine OnlyIn.widen hL h ?_
  have h0 := OnlyIn.refl [.boot] d
  unfold tapInstruction
  repeat' (first
    | with_reducible assumption | exact Or.inl rfl | exact Or.inr rfl | intro _
    | (extract_lets +onlyGivenNames -underBinder dd; (subst dd))
    | ((conv => (arg 3; arg 23; skip)); with_reducible apply OnlyIn.mk'))

/-! ### Boundary -/

theorem prevEdges_only {L : List Part} {a : Dev} (src : Source) (tick : Nat) {d : Dev} (hL : Part.sub [.chambray,
    .fabric, .plan, .host, .v0, .v1, .felt, .boot, .health, .sent] L = true) (h : OnlyIn L a d) :
    OnlyIn L a (prevEdges src tick d) := by
  refine OnlyIn.widen hL h ?_
  have h0 := OnlyIn.refl [.chambray, .fabric, .plan, .host, .v0, .v1, .felt, .boot, .health, .sent] d
  unfold prevEdges
  repeat' (first
    | with_reducible assumption | ((with_reducible refine Part.subI ?_); exact rfl) | exact Or.inl rfl
    | exact Or.inr rfl | intro _ | with_reducible apply miss_only | with_reducible apply zeroEdge_only
    | with_reducible apply OnlyIn.foldl | with_reducible apply OnlyIn.foldlSnd | split)

theorem dropOldTicks_only {L : List Part} {a : Dev} (k : Nat) {d : Dev} (hL : Part.sub [.muslin, .plan, .output] L =
    true) (h : OnlyIn L a d) :
    OnlyIn L a (dropOldTicks k d) := by
  refine OnlyIn.widen hL h ?_
  have h0 := OnlyIn.refl [.muslin, .plan, .output] d
  unfold dropOldTicks
  repeat' (first
    | with_reducible assumption | exact Or.inl rfl | exact Or.inr rfl | intro _
    | (extract_lets +onlyGivenNames -underBinder dd; (subst dd))
    | ((conv => (arg 3; arg 23; skip)); with_reducible apply OnlyIn.mk'))

theorem openTick_only {L : List Part} {a : Dev} (k : Nat) (b : Nanos) (switched : Bool) {d : Dev} (hL : Part.sub
    [.muslin, .chambray, .fabric, .plan, .output, .host, .v0, .v1, .felt, .boot, .health, .sent] L = true) (h :
    OnlyIn L a d) :
    OnlyIn L a (openTick k b switched d) := by
  refine OnlyIn.widen hL h ?_
  have h0 := OnlyIn.refl [.muslin, .chambray, .fabric, .plan, .output, .host, .v0, .v1, .felt, .boot, .health, .sent]
      d
  unfold openTick
  repeat' (first
    | with_reducible assumption | ((with_reducible refine Part.subI ?_); exact rfl) | exact Or.inl rfl
    | exact Or.inr rfl | intro _
    | (extract_lets +onlyGivenNames -underBinder dd; (subst dd))
    | ((conv => (arg 3; arg 23; skip)); with_reducible apply OnlyIn.mk') | with_reducible apply dropOldTicks_only
    | with_reducible apply missBlocked_only | with_reducible apply prevEdges_only | with_reducible apply OnlyIn.foldl)

theorem switchMode_only {L : List Part} {a : Dev} (qq : PendingMode) {d : Dev} (hL : Part.sub [.plan, .serge, .host,
    .health, .sent] L = true) (h : OnlyIn L a d) :
    OnlyIn L a (switchMode qq d) := by
  refine OnlyIn.widen hL h ?_
  have h0 := OnlyIn.refl [.plan, .serge, .host, .health, .sent] d
  unfold switchMode
  repeat' (first
    | with_reducible assumption | ((with_reducible refine Part.subI ?_); exact rfl) | exact Or.inl rfl
    | exact Or.inr rfl | intro _
    | (extract_lets +onlyGivenNames -underBinder dd; (subst dd))
    | ((conv => (arg 3; arg 23; skip)); with_reducible apply OnlyIn.mk') | with_reducible apply suspendSlots_only
    | with_reducible apply bump_only)

theorem stopMain_only {L : List Part} {a : Dev} {d : Dev} (hL : Part.sub [.plan] L = true) (h : OnlyIn L a d) :
    OnlyIn L a (stopMain d) := by
  refine OnlyIn.widen hL h ?_
  have h0 := OnlyIn.refl [.plan] d
  unfold stopMain
  repeat' (first
    | with_reducible assumption | exact Or.inl rfl | exact Or.inr rfl | intro _
    | (extract_lets +onlyGivenNames -underBinder dd; (subst dd))
    | ((conv => (arg 3; arg 23; skip)); with_reducible apply OnlyIn.mk'))

theorem takeSwitch_only {L : List Part} {a : Dev} (k : Nat) {d : Dev} (hL : Part.sub [.plan, .serge, .host, .ctrl,
    .health, .sent] L = true) (h : OnlyIn L a d) :
    OnlyIn L a (takeSwitch k d).2 := by
  refine OnlyIn.widen hL h ?_
  have h0 := OnlyIn.refl [.plan, .serge, .host, .ctrl, .health, .sent] d
  unfold takeSwitch
  repeat' (first
    | with_reducible assumption | ((with_reducible refine Part.subI ?_); exact rfl) | exact Or.inl rfl
    | exact Or.inr rfl | intro _
    | (extract_lets +onlyGivenNames -underBinder dd; (subst dd))
    | with_reducible apply stopMain_only | with_reducible apply cancelSwitch_only
    | with_reducible apply switchMode_only | split)

theorem endWarm_only {L : List Part} {a : Dev} {d : Dev} (hL : Part.sub [.host, .boot, .health, .sent] L = true) (h :
    OnlyIn L a d) :
    OnlyIn L a (endWarm d) := by
  refine OnlyIn.widen hL h ?_
  have h0 := OnlyIn.refl [.host, .boot, .health, .sent] d
  unfold endWarm
  repeat' (first
    | with_reducible assumption | ((with_reducible refine Part.subI ?_); exact rfl) | exact Or.inl rfl
    | exact Or.inr rfl | intro _
    | (extract_lets +onlyGivenNames -underBinder dd; (subst dd))
    | ((conv => (arg 3; arg 23; skip)); with_reducible apply OnlyIn.mk') | with_reducible apply bump_only | split)

theorem startMain_only {L : List Part} {a : Dev} {d : Dev} (hL : Part.sub [.fabric, .plan, .serge, .host, .boot,
    .health, .mem, .sent] L = true) (h : OnlyIn L a d) :
    OnlyIn L a (startMain d).2 := by
  refine OnlyIn.widen hL h ?_
  have h0 := OnlyIn.refl [.fabric, .plan, .serge, .host, .boot, .health, .mem, .sent] d
  unfold startMain
  repeat' (first
    | with_reducible assumption | ((with_reducible refine Part.subI ?_); exact rfl) | exact Or.inl rfl
    | exact Or.inr rfl | intro _
    | (extract_lets +onlyGivenNames -underBinder dd; (subst dd))
    | ((conv => (arg 3; arg 23; skip)); with_reducible apply OnlyIn.mk') | with_reducible apply endWarm_only
    | with_reducible apply copyOverlay_only | with_reducible apply suspendSlots_only | split)

theorem beginPlan_only {L : List Part} {a : Dev} {d : Dev} (hL : Part.sub [.plan, .serge] L = true) (h : OnlyIn L a
    d) :
    OnlyIn L a (beginPlan d) := by
  refine OnlyIn.widen hL h ?_
  have h0 := OnlyIn.refl [.plan, .serge] d
  unfold beginPlan
  repeat' (first
    | with_reducible assumption | ((with_reducible refine Part.subI ?_); exact rfl) | exact Or.inl rfl
    | exact Or.inr rfl | intro _
    | (extract_lets +onlyGivenNames -underBinder dd; (subst dd))
    | ((conv => (arg 3; arg 23; skip)); with_reducible apply OnlyIn.mk') | with_reducible apply suspendSlots_only)

theorem capRunning_only {L : List Part} {a : Dev} (u : Nat) {d : Dev} (hL : Part.sub [.plan, .serge, .host, .health,
    .sent] L = true) (h : OnlyIn L a d) :
    OnlyIn L a (capRunning d u) := by
  refine OnlyIn.widen hL h ?_
  have h0 := OnlyIn.refl [.plan, .serge, .host, .health, .sent] d
  unfold capRunning
  repeat' (first
    | with_reducible assumption | ((with_reducible refine Part.subI ?_); exact rfl) | exact Or.inl rfl
    | exact Or.inr rfl | intro _
    | (extract_lets +onlyGivenNames -underBinder dd; (subst dd))
    | with_reducible apply bumpSlot_only | with_reducible apply stopUnit_only | with_reducible apply modSlot_only
    | split)

theorem reloadUnit_only {L : List Part} {a : Dev} (u : Nat) {d : Dev} (hL : Part.sub [.plan, .serge, .host, .v0, .v1,
    .felt, .ctrl, .boot, .health, .sent] L = true) (h : OnlyIn L a d) :
    OnlyIn L a (reloadUnit d u) := by
  refine OnlyIn.widen hL h ?_
  have h0 := OnlyIn.refl [.plan, .serge, .host, .v0, .v1, .felt, .ctrl, .boot, .health, .sent] d
  unfold reloadUnit
  repeat' (first
    | with_reducible assumption | ((with_reducible refine Part.subI ?_); exact rfl) | exact Or.inl rfl
    | exact Or.inr rfl | intro _
    | (extract_lets +onlyGivenNames -underBinder dd; (subst dd))
    | with_reducible apply capRunning_only | with_reducible apply modSlot_only | with_reducible apply loadUnit_only
    | with_reducible apply OnlyIn.foldl | with_reducible apply OnlyIn.foldlSnd | split)

theorem changeLidar_only {L : List Part} {a : Dev} (old : Image) (e : Nat × StreamEntry) {d : Dev} (hL : Part.sub
    [.ports] L = true) (h : OnlyIn L a d) :
    OnlyIn L a (changeLidar old d e) := by
  refine OnlyIn.widen hL h ?_
  have h0 := OnlyIn.refl [.ports] d
  unfold changeLidar
  repeat' (first
    | with_reducible assumption | ((with_reducible refine Part.subI ?_); exact rfl) | exact Or.inl rfl
    | exact Or.inr rfl | intro _ | with_reducible apply enableLidar_only | split)

theorem changeBoot_only {L : List Part} {a : Dev} (k : Nat) (b : Nanos) (slot : Slot) (img : Image) {d : Dev} (hL :
    Part.sub [.boot, .recovery] L = true) (h : OnlyIn L a d) :
    OnlyIn L a (changeBoot k b slot img d) := by
  refine OnlyIn.widen hL h ?_
  have h0 := OnlyIn.refl [.boot, .recovery] d
  unfold changeBoot
  repeat' (first
    | with_reducible assumption | ((with_reducible refine Part.subI ?_); exact rfl) | exact Or.inl rfl
    | exact Or.inr rfl | intro _
    | (extract_lets +onlyGivenNames -underBinder dd; (subst dd))
    | ((conv => (arg 3; arg 23; skip)); with_reducible apply OnlyIn.mk') | with_reducible apply modProc_only
    | with_reducible apply Dev_modDie_only | with_reducible apply OnlyIn.foldl)

theorem changePlan_only {L : List Part} {a : Dev} (b : Nanos) {d : Dev} (hL : Part.sub [.time, .plan] L = true) (h :
    OnlyIn L a d) :
    OnlyIn L a (changePlan b d) := by
  refine OnlyIn.widen hL h ?_
  have h0 := OnlyIn.refl [.time, .plan] d
  unfold changePlan
  repeat' (first
    | with_reducible assumption | ((with_reducible refine Part.subI ?_); exact rfl) | exact Or.inl rfl
    | exact Or.inr rfl | intro _
    | (extract_lets +onlyGivenNames -underBinder dd; (subst dd))
    | ((conv => (arg 3; arg 23; skip)); with_reducible apply OnlyIn.mk') | with_reducible apply Dev_setTime_only
    | split)

theorem changeSerge_only {L : List Part} {a : Dev} {d : Dev} (hL : Part.sub [.plan, .serge, .host, .v0, .v1, .felt,
    .ctrl, .boot, .health, .sent] L = true) (h : OnlyIn L a d) :
    OnlyIn L a (changeSerge d) := by
  refine OnlyIn.widen hL h ?_
  have h0 := OnlyIn.refl [.plan, .serge, .host, .v0, .v1, .felt, .ctrl, .boot, .health, .sent] d
  unfold changeSerge
  repeat' (first
    | with_reducible assumption | ((with_reducible refine Part.subI ?_); exact rfl) | exact Or.inl rfl
    | exact Or.inr rfl | intro _ | with_reducible apply suspendSlots_only | with_reducible apply reloadUnit_only
    | with_reducible apply OnlyIn.foldl)

theorem changeover_only {L : List Part} {a : Dev} (k : Nat) (b : Nanos) (slot : Slot) (img : Image) {d : Dev} (hL :
    Part.sub [.time, .ports, .cal, .fabric, .plan, .serge, .output, .host, .v0, .v1, .felt, .ctrl, .boot, .recovery,
    .health, .mem, .sent] L = true) (h : OnlyIn L a d) :
    OnlyIn L a (changeover k b slot img d) := by
  refine OnlyIn.widen hL h ?_
  have h0 := OnlyIn.refl [.time, .ports, .cal, .fabric, .plan, .serge, .output, .host, .v0, .v1, .felt, .ctrl, .boot,
      .recovery, .health, .mem, .sent] d
  unfold changeover
  repeat' (first
    | with_reducible assumption | ((with_reducible refine Part.subI ?_); exact rfl) | exact Or.inl rfl
    | exact Or.inr rfl | intro _
    | (extract_lets +onlyGivenNames -underBinder dd; (subst dd))
    | ((conv => (arg 3; arg 23; skip)); with_reducible apply OnlyIn.mk') | with_reducible apply changeBoot_only
    | with_reducible apply cancelSwitch_only | with_reducible apply changePlan_only
    | with_reducible apply loadBurlap_only | with_reducible apply Dev_setGolden_only
    | with_reducible apply changeCamera_only | with_reducible apply changeLidar_only
    | with_reducible apply refreshModes_only | with_reducible apply changeSerge_only
    | with_reducible apply OnlyIn.foldl | with_reducible apply OnlyIn.foldlSnd | split)

theorem hostBoundary_only {L : List Part} {a : Dev} {d : Dev} (hL : Part.sub [.plan, .damask, .host, .boot, .health,
    .sent] L = true) (h : OnlyIn L a d) :
    OnlyIn L a (hostBoundary d) := by
  refine OnlyIn.widen hL h ?_
  have h0 := OnlyIn.refl [.plan, .damask, .host, .boot, .health, .sent] d
  unfold hostBoundary
  repeat' (first
    | with_reducible assumption | ((with_reducible refine Part.subI ?_); exact rfl) | exact Or.inl rfl
    | exact Or.inr rfl | intro _
    | (extract_lets +onlyGivenNames -underBinder dd; (subst dd))
    | ((conv => (arg 3; arg 23; skip)); with_reducible apply OnlyIn.mk') | with_reducible apply restoreBudgets_only
    | with_reducible apply dropSubs_only | with_reducible apply closeDue_only
    | with_reducible apply closeBatches_only | with_reducible apply OnlyIn.foldl)

theorem planBoundary_only {L : List Part} {a : Dev} (k : Nat) (b : Nanos) (first : Bool) {d : Dev} (hL : Part.sub
    [.time, .ports, .cal, .fabric, .plan, .serge, .output, .host, .v0, .v1, .felt, .ctrl, .boot, .recovery, .health,
    .mem, .sent] L = true) (h : OnlyIn L a d) :
    OnlyIn L a (planBoundary k b first d).2 := by
  refine OnlyIn.widen hL h ?_
  have h0 := OnlyIn.refl [.time, .ports, .cal, .fabric, .plan, .serge, .output, .host, .v0, .v1, .felt, .ctrl, .boot,
      .recovery, .health, .mem, .sent] d
  unfold planBoundary
  repeat' (first
    | with_reducible assumption | ((with_reducible refine Part.subI ?_); exact rfl) | exact Or.inl rfl
    | exact Or.inr rfl | intro _
    | (extract_lets +onlyGivenNames -underBinder dd; (subst dd))
    | with_reducible apply startMain_only | with_reducible apply beginPlan_only
    | with_reducible apply changeSerge_only | with_reducible apply Dev_setTime_only
    | with_reducible apply changeover_only | with_reducible apply takeSwitch_only | split)

theorem dieBoundary_only {L : List Part} {a : Dev} (x : Nat) {d : Dev} (hL : Part.sub [.recovery] L = true) (h :
    OnlyIn L a d) :
    OnlyIn L a (dieBoundary d x) := by
  refine OnlyIn.widen hL h ?_
  have h0 := OnlyIn.refl [.recovery] d
  unfold dieBoundary
  repeat' (first
    | with_reducible assumption | ((with_reducible refine Part.subI ?_); exact rfl) | exact Or.inl rfl
    | exact Or.inr rfl | intro _ | with_reducible apply Dev_modDie_only)

theorem majorTickBoundary_only {L : List Part} {a : Dev} {d : Dev} (hL : Part.sub Part.all L = true) (h : OnlyIn L a
    d) :
    OnlyIn L a (majorTickBoundary d) := by
  exact OnlyIn.of_all hL

theorem startSafeOk_only {L : List Part} {a : Dev} {d : Dev} (hL : Part.sub [.host, .felt, .boot, .health, .sent] L =
    true) (h : OnlyIn L a d) :
    OnlyIn L a (startSafeOk d) := by
  refine OnlyIn.widen hL h ?_
  have h0 := OnlyIn.refl [.host, .felt, .boot, .health, .sent] d
  unfold startSafeOk
  repeat' (first
    | with_reducible assumption | ((with_reducible refine Part.subI ?_); exact rfl) | exact Or.inl rfl
    | exact Or.inr rfl | intro _
    | (extract_lets +onlyGivenNames -underBinder dd; (subst dd))
    | ((conv => (arg 3; arg 23; skip)); with_reducible apply OnlyIn.mk') | with_reducible apply conditionEvent_only
    | split)

theorem feltBoundary_only {L : List Part} {a : Dev} {d : Dev} (hL : Part.sub [.felt] L = true) (h : OnlyIn L a d) :
    OnlyIn L a (feltBoundary d) := by
  refine OnlyIn.widen hL h ?_
  have h0 := OnlyIn.refl [.felt] d
  unfold feltBoundary
  repeat' (first
    | with_reducible assumption | exact Or.inl rfl | exact Or.inr rfl | intro _
    | (extract_lets +onlyGivenNames -underBinder dd; (subst dd))
    | ((conv => (arg 3; arg 23; skip)); with_reducible apply OnlyIn.mk'))

theorem sendBroadcast_only {L : List Part} {a : Dev} (b : Nanos) {d : Dev} (hL : Part.sub [.recovery, .sent] L =
    true) (h : OnlyIn L a d) :
    OnlyIn L a (sendBroadcast b d) := by
  refine OnlyIn.widen hL h ?_
  have h0 := OnlyIn.refl [.recovery, .sent] d
  unfold sendBroadcast
  repeat' (first
    | with_reducible assumption | ((with_reducible refine Part.subI ?_); exact rfl) | exact Or.inl rfl
    | exact Or.inr rfl | intro _
    | (extract_lets +onlyGivenNames -underBinder dd; (subst dd))
    | with_reducible apply Dev_modDie_only | with_reducible apply emit_only | with_reducible apply OnlyIn.foldl)

theorem announceTo_only {L : List Part} {a : Dev} (target : Nat) (b : Nanos) (tr : Option Nat) {d : Dev} (hL :
    Part.sub [.host, .boot, .health, .sent] L = true) (h : OnlyIn L a d) :
    OnlyIn L a (announceTo target b tr d) := by
  refine OnlyIn.widen hL h ?_
  have h0 := OnlyIn.refl [.host, .boot, .health, .sent] d
  unfold announceTo
  repeat' (first
    | with_reducible assumption | ((with_reducible refine Part.subI ?_); exact rfl) | exact Or.inl rfl
    | exact Or.inr rfl | intro _ | with_reducible apply fwEvent_only | with_reducible apply emit_only
    | with_reducible apply OnlyIn.foldl)

theorem announce_only {L : List Part} {a : Dev} (k : Nat) (b : Nanos) {d : Dev} (hL : Part.sub [.plan, .host, .boot,
    .health, .sent] L = true) (h : OnlyIn L a d) :
    OnlyIn L a (announce k b d) := by
  refine OnlyIn.widen hL h ?_
  have h0 := OnlyIn.refl [.plan, .host, .boot, .health, .sent] d
  unfold announce
  repeat' (first
    | with_reducible assumption | ((with_reducible refine Part.subI ?_); exact rfl) | exact Or.inl rfl
    | exact Or.inr rfl | intro _
    | (extract_lets +onlyGivenNames -underBinder dd; (subst dd))
    | ((conv => (arg 3; arg 23; skip)); with_reducible apply OnlyIn.mk') | with_reducible apply announceTo_only
    | split)

theorem noteEgoEnds_only {L : List Part} {a : Dev} (b : Nanos) {d : Dev} (hL : Part.sub [.plan] L = true) (h : OnlyIn
    L a d) :
    OnlyIn L a (noteEgoEnds b d) := by
  refine OnlyIn.widen hL h ?_
  have h0 := OnlyIn.refl [.plan] d
  unfold noteEgoEnds
  repeat' (first
    | with_reducible assumption | exact Or.inl rfl | exact Or.inr rfl | intro _
    | (extract_lets +onlyGivenNames -underBinder dd; (subst dd))
    | ((conv => (arg 3; arg 23; skip)); with_reducible apply OnlyIn.mk'))

theorem sendEgo_only {L : List Part} {a : Dev} (k : Nat) (m : Nat) (b : Nanos) (out : Nanos) {d : Dev} (hL : Part.sub
    [.muslin, .serge, .output, .host, .v0, .v1, .felt, .boot, .health, .sent] L = true) (h : OnlyIn L a d) :
    OnlyIn L a (sendEgo k m b out d) := by
  refine OnlyIn.widen hL h ?_
  have h0 := OnlyIn.refl [.muslin, .serge, .output, .host, .v0, .v1, .felt, .boot, .health, .sent] d
  unfold sendEgo
  repeat' (first
    | with_reducible assumption | ((with_reducible refine Part.subI ?_); exact rfl) | exact Or.inl rfl
    | exact Or.inr rfl | intro _
    | (extract_lets +onlyGivenNames -underBinder dd; (subst dd))
    | with_reducible apply selectEgo_only | with_reducible apply sendEverywhere_only
    | with_reducible refine egoOutput_only _ _ _ _ _ _ ?_ ?_ _ (by assumption)
    | with_reducible refine egoOutput_only _ _ _ _ _ _ ?_ ?_ (_, _) (by assumption) | split)

theorem egoBoundary_only {L : List Part} {a : Dev} (k : Nat) (m : Nat) (b : Nanos) (out : Nanos) {d : Dev} (hL :
    Part.sub [.muslin, .plan, .serge, .output, .host, .v0, .v1, .felt, .boot, .health, .sent] L = true) (h : OnlyIn L
    a d) :
    OnlyIn L a (egoBoundary k m b out d) := by
  refine OnlyIn.widen hL h ?_
  have h0 := OnlyIn.refl [.muslin, .plan, .serge, .output, .host, .v0, .v1, .felt, .boot, .health, .sent] d
  unfold egoBoundary
  repeat' (first
    | with_reducible assumption | ((with_reducible refine Part.subI ?_); exact rfl) | exact Or.inl rfl
    | exact Or.inr rfl | intro _
    | (extract_lets +onlyGivenNames -underBinder dd; (subst dd))
    | with_reducible apply crossCheck_only | with_reducible apply noteEgoEnds_only
    | with_reducible apply enterHistory_only | with_reducible apply stepEgoInputs_only
    | with_reducible apply sendEgo_only | with_reducible apply OnlyIn.foldl)

theorem summaryDue_only {L : List Part} {a : Dev} {d : Dev} (hL : Part.sub [.host, .v0, .v1, .felt, .health, .sent] L
    = true) (h : OnlyIn L a d) :
    OnlyIn L a (summaryDue d) := by
  refine OnlyIn.widen hL h ?_
  have h0 := OnlyIn.refl [.host, .v0, .v1, .felt, .health, .sent] d
  unfold summaryDue
  repeat' (first
    | with_reducible assumption | ((with_reducible refine Part.subI ?_); exact rfl) | exact Or.inl rfl
    | exact Or.inr rfl | intro _ | with_reducible apply sendSummary_only | split)

theorem noteMissingLast_only {L : List Part} {a : Dev} {d : Dev} (hL : Part.sub [.plan] L = true) (h : OnlyIn L a d) :
    OnlyIn L a (noteMissingLast d) := by
  refine OnlyIn.widen hL h ?_
  have h0 := OnlyIn.refl [.plan] d
  unfold noteMissingLast
  repeat' (first
    | with_reducible assumption | exact Or.inl rfl | exact Or.inr rfl | intro _
    | (extract_lets +onlyGivenNames -underBinder dd; (subst dd))
    | ((conv => (arg 3; arg 23; skip)); with_reducible apply OnlyIn.mk') | split)

theorem minorService_only {L : List Part} {a : Dev} (prev : Option (Nanos × Nat × Nat)) (b : Nanos) {d : Dev} (hL :
    Part.sub [.muslin, .chambray, .plan, .serge, .output, .host, .v0, .v1, .felt, .boot, .recovery, .health, .sent] L
    = true) (h : OnlyIn L a d) :
    OnlyIn L a (minorService prev b d) := by
  refine OnlyIn.widen hL h ?_
  have h0 := OnlyIn.refl [.muslin, .chambray, .plan, .serge, .output, .host, .v0, .v1, .felt, .boot, .recovery,
      .health, .sent] d
  unfold minorService
  repeat' (first
    | with_reducible assumption | ((with_reducible refine Part.subI ?_); exact rfl) | exact Or.inl rfl
    | exact Or.inr rfl | intro _
    | (extract_lets +onlyGivenNames -underBinder dd; (subst dd))
    | with_reducible apply announce_only | with_reducible apply sendStatus_only
    | with_reducible apply sendBroadcast_only | with_reducible apply startSafeOk_only
    | with_reducible apply feltBoundary_only | with_reducible apply egoBoundary_only
    | with_reducible apply noteMissingLast_only | with_reducible apply settlePassed_only
    | with_reducible apply closeBatches_only | with_reducible apply moveTrace_only
    | with_reducible apply summaryDue_only | split)

theorem minorTickBoundary_only {L : List Part} {a : Dev} (interval : Nat) {d : Dev} (hL : Part.sub [.time, .muslin,
    .chambray, .plan, .serge, .output, .host, .v0, .v1, .felt, .boot, .recovery, .health, .sent] L = true) (h :
    OnlyIn L a d) :
    OnlyIn L a (minorTickBoundary interval d) := by
  refine OnlyIn.widen hL h ?_
  have h0 := OnlyIn.refl [.time, .muslin, .chambray, .plan, .serge, .output, .host, .v0, .v1, .felt, .boot,
      .recovery, .health, .sent] d
  unfold minorTickBoundary
  repeat' (first
    | with_reducible assumption | ((with_reducible refine Part.subI ?_); exact rfl) | exact Or.inl rfl
    | exact Or.inr rfl | intro _
    | (extract_lets +onlyGivenNames -underBinder dd; (subst dd))
    | with_reducible apply stepFrequency_only | with_reducible apply checkInterval_only
    | with_reducible apply minorService_only | with_reducible apply Dev_setTime_only | split)

theorem tsqPendingKLoRead_only {L : List Part} {a : Dev} {d : Dev} (hL : Part.sub [.plan] L = true) (h : OnlyIn L a
    d) :
    OnlyIn L a (tsqPendingKLoRead d) := by
  refine OnlyIn.widen hL h ?_
  have h0 := OnlyIn.refl [.plan] d
  unfold tsqPendingKLoRead
  repeat' (first
    | with_reducible assumption | exact Or.inl rfl | exact Or.inr rfl | intro _
    | (extract_lets +onlyGivenNames -underBinder dd; (subst dd))
    | ((conv => (arg 3; arg 23; skip)); with_reducible apply OnlyIn.mk') | split)

theorem idleCycle_only {L : List Part} {a : Dev} {d : Dev} (hL : Part.sub [.time, .muslin, .serge, .output, .host,
    .recovery, .health] L = true) (h : OnlyIn L a d) :
    OnlyIn L a (idleCycle d) := by
  refine OnlyIn.widen hL h ?_
  have h0 := OnlyIn.refl [.time, .muslin, .serge, .output, .host, .recovery, .health] d
  unfold idleCycle
  repeat' (first
    | with_reducible assumption | ((with_reducible refine Part.subI ?_); exact rfl) | exact Or.inl rfl
    | exact Or.inr rfl | intro _ | with_reducible apply sealDue_only | with_reducible apply clockCycle_only)

end Sys2Proof.Machine
end

