-- ==== Sys2Proof/Laws/State.lean ====
section
/-!
SUPPORT. The laws of State: for each update of the device one lemma that says what each part reads as after it, true by
rfl, so that no proof unfolds a record update; and what the two shapes of a meaning answer.
-/

namespace Sys2Proof.Machine

open Sys2Proof

/-- What the device holds after `emit`. -/
@[simp] theorem emit_fields (e : Emission) (d : Dev) :
    (emit e d).sent = e :: d.sent ∧ (emit e d).time = d.time ∧ (emit e d).muslin = d.muslin ∧
    (emit e d).ports = d.ports ∧ (emit e d).cal = d.cal ∧ (emit e d).tweed = d.tweed ∧
    (emit e d).tweedFb = d.tweedFb ∧ (emit e d).chambray = d.chambray ∧ (emit e d).fabric = d.fabric ∧
    (emit e d).plan = d.plan ∧ (emit e d).damask = d.damask ∧ (emit e d).serge = d.serge ∧
    (emit e d).output = d.output ∧ (emit e d).host = d.host ∧ (emit e d).v0 = d.v0 ∧ (emit e d).v1 = d.v1 ∧
    (emit e d).felt = d.felt ∧ (emit e d).ctrl = d.ctrl ∧ (emit e d).boot = d.boot ∧
    (emit e d).recovery = d.recovery ∧ (emit e d).health = d.health ∧ (emit e d).mem = d.mem ∧
    (emit e d).freeCtr = d.freeCtr :=
  ⟨rfl, rfl, rfl, rfl, rfl, rfl, rfl, rfl, rfl, rfl, rfl, rfl, rfl, rfl, rfl, rfl, rfl, rfl, rfl, rfl, rfl, rfl, rfl⟩

/-- What the device holds after `emitAll`. -/
@[simp] theorem emitAll_fields (es : List Emission) (d : Dev) :
    (emitAll es d).sent = es.reverse ++ d.sent ∧ (emitAll es d).time = d.time ∧
    (emitAll es d).muslin = d.muslin ∧ (emitAll es d).ports = d.ports ∧ (emitAll es d).cal = d.cal ∧
    (emitAll es d).tweed = d.tweed ∧ (emitAll es d).tweedFb = d.tweedFb ∧ (emitAll es d).chambray = d.chambray ∧
    (emitAll es d).fabric = d.fabric ∧ (emitAll es d).plan = d.plan ∧ (emitAll es d).damask = d.damask ∧
    (emitAll es d).serge = d.serge ∧ (emitAll es d).output = d.output ∧ (emitAll es d).host = d.host ∧
    (emitAll es d).v0 = d.v0 ∧ (emitAll es d).v1 = d.v1 ∧ (emitAll es d).felt = d.felt ∧
    (emitAll es d).ctrl = d.ctrl ∧ (emitAll es d).boot = d.boot ∧ (emitAll es d).recovery = d.recovery ∧
    (emitAll es d).health = d.health ∧ (emitAll es d).mem = d.mem ∧ (emitAll es d).freeCtr = d.freeCtr :=
  ⟨rfl, rfl, rfl, rfl, rfl, rfl, rfl, rfl, rfl, rfl, rfl, rfl, rfl, rfl, rfl, rfl, rfl, rfl, rfl, rfl, rfl, rfl, rfl⟩

/-- What the device holds after `Dev.setPort`. -/
@[simp] theorem Dev_setPort_fields (d : Dev) (p : Nat) (h : HostPort) :
    (Dev.setPort d p h).host = { d.host with ports := bput {} p h d.host.ports } ∧
    (Dev.setPort d p h).time = d.time ∧ (Dev.setPort d p h).muslin = d.muslin ∧
    (Dev.setPort d p h).ports = d.ports ∧ (Dev.setPort d p h).cal = d.cal ∧ (Dev.setPort d p h).tweed = d.tweed ∧
    (Dev.setPort d p h).tweedFb = d.tweedFb ∧ (Dev.setPort d p h).chambray = d.chambray ∧
    (Dev.setPort d p h).fabric = d.fabric ∧ (Dev.setPort d p h).plan = d.plan ∧
    (Dev.setPort d p h).damask = d.damask ∧ (Dev.setPort d p h).serge = d.serge ∧
    (Dev.setPort d p h).output = d.output ∧ (Dev.setPort d p h).v0 = d.v0 ∧ (Dev.setPort d p h).v1 = d.v1 ∧
    (Dev.setPort d p h).felt = d.felt ∧ (Dev.setPort d p h).ctrl = d.ctrl ∧ (Dev.setPort d p h).boot = d.boot ∧
    (Dev.setPort d p h).recovery = d.recovery ∧ (Dev.setPort d p h).health = d.health ∧
    (Dev.setPort d p h).mem = d.mem ∧ (Dev.setPort d p h).sent = d.sent ∧
    (Dev.setPort d p h).freeCtr = d.freeCtr :=
  ⟨rfl, rfl, rfl, rfl, rfl, rfl, rfl, rfl, rfl, rfl, rfl, rfl, rfl, rfl, rfl, rfl, rfl, rfl, rfl, rfl, rfl, rfl, rfl⟩

/-- What the device holds after `modProc`. -/
@[simp] theorem modProc_fields (p : Nat) (f : FwState → FwState) (d : Dev) :
    (modProc p f d).boot = { d.boot with procs := bmod {} p f d.boot.procs } ∧ (modProc p f d).time = d.time ∧
    (modProc p f d).muslin = d.muslin ∧ (modProc p f d).ports = d.ports ∧ (modProc p f d).cal = d.cal ∧
    (modProc p f d).tweed = d.tweed ∧ (modProc p f d).tweedFb = d.tweedFb ∧
    (modProc p f d).chambray = d.chambray ∧ (modProc p f d).fabric = d.fabric ∧ (modProc p f d).plan = d.plan ∧
    (modProc p f d).damask = d.damask ∧ (modProc p f d).serge = d.serge ∧ (modProc p f d).output = d.output ∧
    (modProc p f d).host = d.host ∧ (modProc p f d).v0 = d.v0 ∧ (modProc p f d).v1 = d.v1 ∧
    (modProc p f d).felt = d.felt ∧ (modProc p f d).ctrl = d.ctrl ∧ (modProc p f d).recovery = d.recovery ∧
    (modProc p f d).health = d.health ∧ (modProc p f d).mem = d.mem ∧ (modProc p f d).sent = d.sent ∧
    (modProc p f d).freeCtr = d.freeCtr :=
  ⟨rfl, rfl, rfl, rfl, rfl, rfl, rfl, rfl, rfl, rfl, rfl, rfl, rfl, rfl, rfl, rfl, rfl, rfl, rfl, rfl, rfl, rfl, rfl⟩

/-- What the device holds after `Dev.setDie`. -/
@[simp] theorem Dev_setDie_fields (d : Dev) (x : Nat) (s : DieState) :
    (Dev.setDie d x s).recovery = { d.recovery with dies := bput {} x s d.recovery.dies } ∧
    (Dev.setDie d x s).time = d.time ∧ (Dev.setDie d x s).muslin = d.muslin ∧
    (Dev.setDie d x s).ports = d.ports ∧ (Dev.setDie d x s).cal = d.cal ∧ (Dev.setDie d x s).tweed = d.tweed ∧
    (Dev.setDie d x s).tweedFb = d.tweedFb ∧ (Dev.setDie d x s).chambray = d.chambray ∧
    (Dev.setDie d x s).fabric = d.fabric ∧ (Dev.setDie d x s).plan = d.plan ∧
    (Dev.setDie d x s).damask = d.damask ∧ (Dev.setDie d x s).serge = d.serge ∧
    (Dev.setDie d x s).output = d.output ∧ (Dev.setDie d x s).host = d.host ∧ (Dev.setDie d x s).v0 = d.v0 ∧
    (Dev.setDie d x s).v1 = d.v1 ∧ (Dev.setDie d x s).felt = d.felt ∧ (Dev.setDie d x s).ctrl = d.ctrl ∧
    (Dev.setDie d x s).boot = d.boot ∧ (Dev.setDie d x s).health = d.health ∧ (Dev.setDie d x s).mem = d.mem ∧
    (Dev.setDie d x s).sent = d.sent ∧ (Dev.setDie d x s).freeCtr = d.freeCtr :=
  ⟨rfl, rfl, rfl, rfl, rfl, rfl, rfl, rfl, rfl, rfl, rfl, rfl, rfl, rfl, rfl, rfl, rfl, rfl, rfl, rfl, rfl, rfl, rfl⟩

/-- What the device holds after `Dev.setCluster`. -/
@[simp] theorem Dev_setCluster_fields (d : Dev) (n : Nat) (c : ClusterState) :
    (Dev.setCluster d n c).fabric = { d.fabric with clusters := bput {} n c d.fabric.clusters } ∧
    (Dev.setCluster d n c).time = d.time ∧ (Dev.setCluster d n c).muslin = d.muslin ∧
    (Dev.setCluster d n c).ports = d.ports ∧ (Dev.setCluster d n c).cal = d.cal ∧
    (Dev.setCluster d n c).tweed = d.tweed ∧ (Dev.setCluster d n c).tweedFb = d.tweedFb ∧
    (Dev.setCluster d n c).chambray = d.chambray ∧ (Dev.setCluster d n c).plan = d.plan ∧
    (Dev.setCluster d n c).damask = d.damask ∧ (Dev.setCluster d n c).serge = d.serge ∧
    (Dev.setCluster d n c).output = d.output ∧ (Dev.setCluster d n c).host = d.host ∧
    (Dev.setCluster d n c).v0 = d.v0 ∧ (Dev.setCluster d n c).v1 = d.v1 ∧ (Dev.setCluster d n c).felt = d.felt ∧
    (Dev.setCluster d n c).ctrl = d.ctrl ∧ (Dev.setCluster d n c).boot = d.boot ∧
    (Dev.setCluster d n c).recovery = d.recovery ∧ (Dev.setCluster d n c).health = d.health ∧
    (Dev.setCluster d n c).mem = d.mem ∧ (Dev.setCluster d n c).sent = d.sent ∧
    (Dev.setCluster d n c).freeCtr = d.freeCtr :=
  ⟨rfl, rfl, rfl, rfl, rfl, rfl, rfl, rfl, rfl, rfl, rfl, rfl, rfl, rfl, rfl, rfl, rfl, rfl, rfl, rfl, rfl, rfl, rfl⟩

/-- What the device holds after `Dev.setThermal`. -/
@[simp] theorem Dev_setThermal_fields (d : Dev) (x : Nat) (t : ThermalState) :
    (Dev.setThermal d x t).health = { d.health with thermal := bput {} x t d.health.thermal } ∧
    (Dev.setThermal d x t).time = d.time ∧ (Dev.setThermal d x t).muslin = d.muslin ∧
    (Dev.setThermal d x t).ports = d.ports ∧ (Dev.setThermal d x t).cal = d.cal ∧
    (Dev.setThermal d x t).tweed = d.tweed ∧ (Dev.setThermal d x t).tweedFb = d.tweedFb ∧
    (Dev.setThermal d x t).chambray = d.chambray ∧ (Dev.setThermal d x t).fabric = d.fabric ∧
    (Dev.setThermal d x t).plan = d.plan ∧ (Dev.setThermal d x t).damask = d.damask ∧
    (Dev.setThermal d x t).serge = d.serge ∧ (Dev.setThermal d x t).output = d.output ∧
    (Dev.setThermal d x t).host = d.host ∧ (Dev.setThermal d x t).v0 = d.v0 ∧ (Dev.setThermal d x t).v1 = d.v1 ∧
    (Dev.setThermal d x t).felt = d.felt ∧ (Dev.setThermal d x t).ctrl = d.ctrl ∧
    (Dev.setThermal d x t).boot = d.boot ∧ (Dev.setThermal d x t).recovery = d.recovery ∧
    (Dev.setThermal d x t).mem = d.mem ∧ (Dev.setThermal d x t).sent = d.sent ∧
    (Dev.setThermal d x t).freeCtr = d.freeCtr :=
  ⟨rfl, rfl, rfl, rfl, rfl, rfl, rfl, rfl, rfl, rfl, rfl, rfl, rfl, rfl, rfl, rfl, rfl, rfl, rfl, rfl, rfl, rfl, rfl⟩

/-- What the device holds after `Dev.setSrgUnit`. -/
@[simp] theorem Dev_setSrgUnit_fields (d : Dev) (u : Nat) (x : SrgUnit) :
    (Dev.setSrgUnit d u x).serge = { d.serge with units := bput {} u x d.serge.units } ∧
    (Dev.setSrgUnit d u x).time = d.time ∧ (Dev.setSrgUnit d u x).muslin = d.muslin ∧
    (Dev.setSrgUnit d u x).ports = d.ports ∧ (Dev.setSrgUnit d u x).cal = d.cal ∧
    (Dev.setSrgUnit d u x).tweed = d.tweed ∧ (Dev.setSrgUnit d u x).tweedFb = d.tweedFb ∧
    (Dev.setSrgUnit d u x).chambray = d.chambray ∧ (Dev.setSrgUnit d u x).fabric = d.fabric ∧
    (Dev.setSrgUnit d u x).plan = d.plan ∧ (Dev.setSrgUnit d u x).damask = d.damask ∧
    (Dev.setSrgUnit d u x).output = d.output ∧ (Dev.setSrgUnit d u x).host = d.host ∧
    (Dev.setSrgUnit d u x).v0 = d.v0 ∧ (Dev.setSrgUnit d u x).v1 = d.v1 ∧ (Dev.setSrgUnit d u x).felt = d.felt ∧
    (Dev.setSrgUnit d u x).ctrl = d.ctrl ∧ (Dev.setSrgUnit d u x).boot = d.boot ∧
    (Dev.setSrgUnit d u x).recovery = d.recovery ∧ (Dev.setSrgUnit d u x).health = d.health ∧
    (Dev.setSrgUnit d u x).mem = d.mem ∧ (Dev.setSrgUnit d u x).sent = d.sent ∧
    (Dev.setSrgUnit d u x).freeCtr = d.freeCtr :=
  ⟨rfl, rfl, rfl, rfl, rfl, rfl, rfl, rfl, rfl, rfl, rfl, rfl, rfl, rfl, rfl, rfl, rfl, rfl, rfl, rfl, rfl, rfl, rfl⟩

/-- What the device holds after `Dev.setSrgSlot`. -/
@[simp] theorem Dev_setSrgSlot_fields (d : Dev) (g : Nat) (x : SrgSlot) :
    (Dev.setSrgSlot d g x).serge = { d.serge with slots := bput {} g x d.serge.slots } ∧
    (Dev.setSrgSlot d g x).time = d.time ∧ (Dev.setSrgSlot d g x).muslin = d.muslin ∧
    (Dev.setSrgSlot d g x).ports = d.ports ∧ (Dev.setSrgSlot d g x).cal = d.cal ∧
    (Dev.setSrgSlot d g x).tweed = d.tweed ∧ (Dev.setSrgSlot d g x).tweedFb = d.tweedFb ∧
    (Dev.setSrgSlot d g x).chambray = d.chambray ∧ (Dev.setSrgSlot d g x).fabric = d.fabric ∧
    (Dev.setSrgSlot d g x).plan = d.plan ∧ (Dev.setSrgSlot d g x).damask = d.damask ∧
    (Dev.setSrgSlot d g x).output = d.output ∧ (Dev.setSrgSlot d g x).host = d.host ∧
    (Dev.setSrgSlot d g x).v0 = d.v0 ∧ (Dev.setSrgSlot d g x).v1 = d.v1 ∧ (Dev.setSrgSlot d g x).felt = d.felt ∧
    (Dev.setSrgSlot d g x).ctrl = d.ctrl ∧ (Dev.setSrgSlot d g x).boot = d.boot ∧
    (Dev.setSrgSlot d g x).recovery = d.recovery ∧ (Dev.setSrgSlot d g x).health = d.health ∧
    (Dev.setSrgSlot d g x).mem = d.mem ∧ (Dev.setSrgSlot d g x).sent = d.sent ∧
    (Dev.setSrgSlot d g x).freeCtr = d.freeCtr :=
  ⟨rfl, rfl, rfl, rfl, rfl, rfl, rfl, rfl, rfl, rfl, rfl, rfl, rfl, rfl, rfl, rfl, rfl, rfl, rfl, rfl, rfl, rfl, rfl⟩

/-- What the device holds after `Dev.setStream`. -/
@[simp] theorem Dev_setStream_fields (d : Dev) (n : Nat) (s : StreamState) :
    (Dev.setStream d n s).muslin = { d.muslin with streams := bput {} n s d.muslin.streams } ∧
    (Dev.setStream d n s).time = d.time ∧ (Dev.setStream d n s).ports = d.ports ∧
    (Dev.setStream d n s).cal = d.cal ∧ (Dev.setStream d n s).tweed = d.tweed ∧
    (Dev.setStream d n s).tweedFb = d.tweedFb ∧ (Dev.setStream d n s).chambray = d.chambray ∧
    (Dev.setStream d n s).fabric = d.fabric ∧ (Dev.setStream d n s).plan = d.plan ∧
    (Dev.setStream d n s).damask = d.damask ∧ (Dev.setStream d n s).serge = d.serge ∧
    (Dev.setStream d n s).output = d.output ∧ (Dev.setStream d n s).host = d.host ∧
    (Dev.setStream d n s).v0 = d.v0 ∧ (Dev.setStream d n s).v1 = d.v1 ∧ (Dev.setStream d n s).felt = d.felt ∧
    (Dev.setStream d n s).ctrl = d.ctrl ∧ (Dev.setStream d n s).boot = d.boot ∧
    (Dev.setStream d n s).recovery = d.recovery ∧ (Dev.setStream d n s).health = d.health ∧
    (Dev.setStream d n s).mem = d.mem ∧ (Dev.setStream d n s).sent = d.sent ∧
    (Dev.setStream d n s).freeCtr = d.freeCtr :=
  ⟨rfl, rfl, rfl, rfl, rfl, rfl, rfl, rfl, rfl, rfl, rfl, rfl, rfl, rfl, rfl, rfl, rfl, rfl, rfl, rfl, rfl, rfl, rfl⟩

/-- What the device holds after `Dev.setCamera`. -/
@[simp] theorem Dev_setCamera_fields (d : Dev) (c : Nat) (x : CameraState) :
    (Dev.setCamera d c x).ports = { d.ports with cameras := bput {} c x d.ports.cameras } ∧
    (Dev.setCamera d c x).time = d.time ∧ (Dev.setCamera d c x).muslin = d.muslin ∧
    (Dev.setCamera d c x).cal = d.cal ∧ (Dev.setCamera d c x).tweed = d.tweed ∧
    (Dev.setCamera d c x).tweedFb = d.tweedFb ∧ (Dev.setCamera d c x).chambray = d.chambray ∧
    (Dev.setCamera d c x).fabric = d.fabric ∧ (Dev.setCamera d c x).plan = d.plan ∧
    (Dev.setCamera d c x).damask = d.damask ∧ (Dev.setCamera d c x).serge = d.serge ∧
    (Dev.setCamera d c x).output = d.output ∧ (Dev.setCamera d c x).host = d.host ∧
    (Dev.setCamera d c x).v0 = d.v0 ∧ (Dev.setCamera d c x).v1 = d.v1 ∧ (Dev.setCamera d c x).felt = d.felt ∧
    (Dev.setCamera d c x).ctrl = d.ctrl ∧ (Dev.setCamera d c x).boot = d.boot ∧
    (Dev.setCamera d c x).recovery = d.recovery ∧ (Dev.setCamera d c x).health = d.health ∧
    (Dev.setCamera d c x).mem = d.mem ∧ (Dev.setCamera d c x).sent = d.sent ∧
    (Dev.setCamera d c x).freeCtr = d.freeCtr :=
  ⟨rfl, rfl, rfl, rfl, rfl, rfl, rfl, rfl, rfl, rfl, rfl, rfl, rfl, rfl, rfl, rfl, rfl, rfl, rfl, rfl, rfl, rfl, rfl⟩

/-- What the device holds after `Dev.setLidar`. -/
@[simp] theorem Dev_setLidar_fields (d : Dev) (n : Nat) (x : LidarState) :
    (Dev.setLidar d n x).ports = { d.ports with lidars := bput {} n x d.ports.lidars } ∧
    (Dev.setLidar d n x).time = d.time ∧ (Dev.setLidar d n x).muslin = d.muslin ∧
    (Dev.setLidar d n x).cal = d.cal ∧ (Dev.setLidar d n x).tweed = d.tweed ∧
    (Dev.setLidar d n x).tweedFb = d.tweedFb ∧ (Dev.setLidar d n x).chambray = d.chambray ∧
    (Dev.setLidar d n x).fabric = d.fabric ∧ (Dev.setLidar d n x).plan = d.plan ∧
    (Dev.setLidar d n x).damask = d.damask ∧ (Dev.setLidar d n x).serge = d.serge ∧
    (Dev.setLidar d n x).output = d.output ∧ (Dev.setLidar d n x).host = d.host ∧
    (Dev.setLidar d n x).v0 = d.v0 ∧ (Dev.setLidar d n x).v1 = d.v1 ∧ (Dev.setLidar d n x).felt = d.felt ∧
    (Dev.setLidar d n x).ctrl = d.ctrl ∧ (Dev.setLidar d n x).boot = d.boot ∧
    (Dev.setLidar d n x).recovery = d.recovery ∧ (Dev.setLidar d n x).health = d.health ∧
    (Dev.setLidar d n x).mem = d.mem ∧ (Dev.setLidar d n x).sent = d.sent ∧
    (Dev.setLidar d n x).freeCtr = d.freeCtr :=
  ⟨rfl, rfl, rfl, rfl, rfl, rfl, rfl, rfl, rfl, rfl, rfl, rfl, rfl, rfl, rfl, rfl, rfl, rfl, rfl, rfl, rfl, rfl, rfl⟩

/-- What the device holds after `Dev.setImu`. -/
@[simp] theorem Dev_setImu_fields (d : Dev) (n : Nat) (x : ImuState) :
    (Dev.setImu d n x).ports = { d.ports with imus := bput {} n x d.ports.imus } ∧
    (Dev.setImu d n x).time = d.time ∧ (Dev.setImu d n x).muslin = d.muslin ∧ (Dev.setImu d n x).cal = d.cal ∧
    (Dev.setImu d n x).tweed = d.tweed ∧ (Dev.setImu d n x).tweedFb = d.tweedFb ∧
    (Dev.setImu d n x).chambray = d.chambray ∧ (Dev.setImu d n x).fabric = d.fabric ∧
    (Dev.setImu d n x).plan = d.plan ∧ (Dev.setImu d n x).damask = d.damask ∧
    (Dev.setImu d n x).serge = d.serge ∧ (Dev.setImu d n x).output = d.output ∧
    (Dev.setImu d n x).host = d.host ∧ (Dev.setImu d n x).v0 = d.v0 ∧ (Dev.setImu d n x).v1 = d.v1 ∧
    (Dev.setImu d n x).felt = d.felt ∧ (Dev.setImu d n x).ctrl = d.ctrl ∧ (Dev.setImu d n x).boot = d.boot ∧
    (Dev.setImu d n x).recovery = d.recovery ∧ (Dev.setImu d n x).health = d.health ∧
    (Dev.setImu d n x).mem = d.mem ∧ (Dev.setImu d n x).sent = d.sent ∧ (Dev.setImu d n x).freeCtr = d.freeCtr :=
  ⟨rfl, rfl, rfl, rfl, rfl, rfl, rfl, rfl, rfl, rfl, rfl, rfl, rfl, rfl, rfl, rfl, rfl, rfl, rfl, rfl, rfl, rfl, rfl⟩

/-- What the device holds after `Dev.setCan`. -/
@[simp] theorem Dev_setCan_fields (d : Dev) (n : Nat) (x : CanState) :
    (Dev.setCan d n x).ports = { d.ports with cans := bput {} n x d.ports.cans } ∧
    (Dev.setCan d n x).time = d.time ∧ (Dev.setCan d n x).muslin = d.muslin ∧ (Dev.setCan d n x).cal = d.cal ∧
    (Dev.setCan d n x).tweed = d.tweed ∧ (Dev.setCan d n x).tweedFb = d.tweedFb ∧
    (Dev.setCan d n x).chambray = d.chambray ∧ (Dev.setCan d n x).fabric = d.fabric ∧
    (Dev.setCan d n x).plan = d.plan ∧ (Dev.setCan d n x).damask = d.damask ∧
    (Dev.setCan d n x).serge = d.serge ∧ (Dev.setCan d n x).output = d.output ∧
    (Dev.setCan d n x).host = d.host ∧ (Dev.setCan d n x).v0 = d.v0 ∧ (Dev.setCan d n x).v1 = d.v1 ∧
    (Dev.setCan d n x).felt = d.felt ∧ (Dev.setCan d n x).ctrl = d.ctrl ∧ (Dev.setCan d n x).boot = d.boot ∧
    (Dev.setCan d n x).recovery = d.recovery ∧ (Dev.setCan d n x).health = d.health ∧
    (Dev.setCan d n x).mem = d.mem ∧ (Dev.setCan d n x).sent = d.sent ∧ (Dev.setCan d n x).freeCtr = d.freeCtr :=
  ⟨rfl, rfl, rfl, rfl, rfl, rfl, rfl, rfl, rfl, rfl, rfl, rfl, rfl, rfl, rfl, rfl, rfl, rfl, rfl, rfl, rfl, rfl, rfl⟩

/-- What the device holds after `endCondition`. -/
@[simp] theorem endCondition_fields (code : Nat) (unit : Nat) (d : Dev) :
    (endCondition code unit d).felt = d.felt.endCond code unit ∧ (endCondition code unit d).time = d.time ∧
    (endCondition code unit d).muslin = d.muslin ∧ (endCondition code unit d).ports = d.ports ∧
    (endCondition code unit d).cal = d.cal ∧ (endCondition code unit d).tweed = d.tweed ∧
    (endCondition code unit d).tweedFb = d.tweedFb ∧ (endCondition code unit d).chambray = d.chambray ∧
    (endCondition code unit d).fabric = d.fabric ∧ (endCondition code unit d).plan = d.plan ∧
    (endCondition code unit d).damask = d.damask ∧ (endCondition code unit d).serge = d.serge ∧
    (endCondition code unit d).output = d.output ∧ (endCondition code unit d).host = d.host ∧
    (endCondition code unit d).v0 = d.v0 ∧ (endCondition code unit d).v1 = d.v1 ∧
    (endCondition code unit d).ctrl = d.ctrl ∧ (endCondition code unit d).boot = d.boot ∧
    (endCondition code unit d).recovery = d.recovery ∧ (endCondition code unit d).health = d.health ∧
    (endCondition code unit d).mem = d.mem ∧ (endCondition code unit d).sent = d.sent ∧
    (endCondition code unit d).freeCtr = d.freeCtr :=
  ⟨rfl, rfl, rfl, rfl, rfl, rfl, rfl, rfl, rfl, rfl, rfl, rfl, rfl, rfl, rfl, rfl, rfl, rfl, rfl, rfl, rfl, rfl, rfl⟩

/-- What the device holds after `endConditions`. -/
@[simp] theorem endConditions_fields (code : Nat) (d : Dev) :
    (endConditions code d).felt = d.felt.endAll code ∧ (endConditions code d).time = d.time ∧
    (endConditions code d).muslin = d.muslin ∧ (endConditions code d).ports = d.ports ∧
    (endConditions code d).cal = d.cal ∧ (endConditions code d).tweed = d.tweed ∧
    (endConditions code d).tweedFb = d.tweedFb ∧ (endConditions code d).chambray = d.chambray ∧
    (endConditions code d).fabric = d.fabric ∧ (endConditions code d).plan = d.plan ∧
    (endConditions code d).damask = d.damask ∧ (endConditions code d).serge = d.serge ∧
    (endConditions code d).output = d.output ∧ (endConditions code d).host = d.host ∧
    (endConditions code d).v0 = d.v0 ∧ (endConditions code d).v1 = d.v1 ∧ (endConditions code d).ctrl = d.ctrl ∧
    (endConditions code d).boot = d.boot ∧ (endConditions code d).recovery = d.recovery ∧
    (endConditions code d).health = d.health ∧ (endConditions code d).mem = d.mem ∧
    (endConditions code d).sent = d.sent ∧ (endConditions code d).freeCtr = d.freeCtr :=
  ⟨rfl, rfl, rfl, rfl, rfl, rfl, rfl, rfl, rfl, rfl, rfl, rfl, rfl, rfl, rfl, rfl, rfl, rfl, rfl, rfl, rfl, rfl, rfl⟩

/-- What the device holds after `Dev.setWin`. -/
@[simp] theorem Dev_setWin_fields (d : Dev) (src : Source) (tick : Nat) (w : Nat) (s : WinState) :
    (Dev.setWin d src tick w s).plan = { d.plan with windows := bput {} (winKey src tick w) s d.plan.windows } ∧
    (Dev.setWin d src tick w s).time = d.time ∧ (Dev.setWin d src tick w s).muslin = d.muslin ∧
    (Dev.setWin d src tick w s).ports = d.ports ∧ (Dev.setWin d src tick w s).cal = d.cal ∧
    (Dev.setWin d src tick w s).tweed = d.tweed ∧ (Dev.setWin d src tick w s).tweedFb = d.tweedFb ∧
    (Dev.setWin d src tick w s).chambray = d.chambray ∧ (Dev.setWin d src tick w s).fabric = d.fabric ∧
    (Dev.setWin d src tick w s).damask = d.damask ∧ (Dev.setWin d src tick w s).serge = d.serge ∧
    (Dev.setWin d src tick w s).output = d.output ∧ (Dev.setWin d src tick w s).host = d.host ∧
    (Dev.setWin d src tick w s).v0 = d.v0 ∧ (Dev.setWin d src tick w s).v1 = d.v1 ∧
    (Dev.setWin d src tick w s).felt = d.felt ∧ (Dev.setWin d src tick w s).ctrl = d.ctrl ∧
    (Dev.setWin d src tick w s).boot = d.boot ∧ (Dev.setWin d src tick w s).recovery = d.recovery ∧
    (Dev.setWin d src tick w s).health = d.health ∧ (Dev.setWin d src tick w s).mem = d.mem ∧
    (Dev.setWin d src tick w s).sent = d.sent ∧ (Dev.setWin d src tick w s).freeCtr = d.freeCtr :=
  ⟨rfl, rfl, rfl, rfl, rfl, rfl, rfl, rfl, rfl, rfl, rfl, rfl, rfl, rfl, rfl, rfl, rfl, rfl, rfl, rfl, rfl, rfl, rfl⟩

/-- What the device holds after `modChb`. -/
@[simp] theorem modChb_fields (x : Nat) (f : ChbUnit → ChbUnit) (d : Dev) :
    (modChb x f d).chambray = { d.chambray with units := bmod {} x f d.chambray.units } ∧
    (modChb x f d).time = d.time ∧ (modChb x f d).muslin = d.muslin ∧ (modChb x f d).ports = d.ports ∧
    (modChb x f d).cal = d.cal ∧ (modChb x f d).tweed = d.tweed ∧ (modChb x f d).tweedFb = d.tweedFb ∧
    (modChb x f d).fabric = d.fabric ∧ (modChb x f d).plan = d.plan ∧ (modChb x f d).damask = d.damask ∧
    (modChb x f d).serge = d.serge ∧ (modChb x f d).output = d.output ∧ (modChb x f d).host = d.host ∧
    (modChb x f d).v0 = d.v0 ∧ (modChb x f d).v1 = d.v1 ∧ (modChb x f d).felt = d.felt ∧
    (modChb x f d).ctrl = d.ctrl ∧ (modChb x f d).boot = d.boot ∧ (modChb x f d).recovery = d.recovery ∧
    (modChb x f d).health = d.health ∧ (modChb x f d).mem = d.mem ∧ (modChb x f d).sent = d.sent ∧
    (modChb x f d).freeCtr = d.freeCtr :=
  ⟨rfl, rfl, rfl, rfl, rfl, rfl, rfl, rfl, rfl, rfl, rfl, rfl, rfl, rfl, rfl, rfl, rfl, rfl, rfl, rfl, rfl, rfl, rfl⟩

/-- What the device holds after `Dev.setCore`. -/
@[simp] theorem Dev_setCore_fields (d : Dev) (q : Nat) (c : CoreState) :
    (Dev.setCore d q c).fabric = { d.fabric with cores := bput {} q c d.fabric.cores } ∧
    (Dev.setCore d q c).time = d.time ∧ (Dev.setCore d q c).muslin = d.muslin ∧
    (Dev.setCore d q c).ports = d.ports ∧ (Dev.setCore d q c).cal = d.cal ∧ (Dev.setCore d q c).tweed = d.tweed ∧
    (Dev.setCore d q c).tweedFb = d.tweedFb ∧ (Dev.setCore d q c).chambray = d.chambray ∧
    (Dev.setCore d q c).plan = d.plan ∧ (Dev.setCore d q c).damask = d.damask ∧
    (Dev.setCore d q c).serge = d.serge ∧ (Dev.setCore d q c).output = d.output ∧
    (Dev.setCore d q c).host = d.host ∧ (Dev.setCore d q c).v0 = d.v0 ∧ (Dev.setCore d q c).v1 = d.v1 ∧
    (Dev.setCore d q c).felt = d.felt ∧ (Dev.setCore d q c).ctrl = d.ctrl ∧ (Dev.setCore d q c).boot = d.boot ∧
    (Dev.setCore d q c).recovery = d.recovery ∧ (Dev.setCore d q c).health = d.health ∧
    (Dev.setCore d q c).mem = d.mem ∧ (Dev.setCore d q c).sent = d.sent ∧
    (Dev.setCore d q c).freeCtr = d.freeCtr :=
  ⟨rfl, rfl, rfl, rfl, rfl, rfl, rfl, rfl, rfl, rfl, rfl, rfl, rfl, rfl, rfl, rfl, rfl, rfl, rfl, rfl, rfl, rfl, rfl⟩

/-- What the device holds after `zeroRange`. -/
@[simp] theorem zeroRange_fields (lo : Nat) (hi : Nat) (d : Dev) :
    (zeroRange lo hi d).mem = d.mem.filter (fun c => c.1 < lo || hi ≤ c.1) ∧ (zeroRange lo hi d).time = d.time ∧
    (zeroRange lo hi d).muslin = d.muslin ∧ (zeroRange lo hi d).ports = d.ports ∧
    (zeroRange lo hi d).cal = d.cal ∧ (zeroRange lo hi d).tweed = d.tweed ∧
    (zeroRange lo hi d).tweedFb = d.tweedFb ∧ (zeroRange lo hi d).chambray = d.chambray ∧
    (zeroRange lo hi d).fabric = d.fabric ∧ (zeroRange lo hi d).plan = d.plan ∧
    (zeroRange lo hi d).damask = d.damask ∧ (zeroRange lo hi d).serge = d.serge ∧
    (zeroRange lo hi d).output = d.output ∧ (zeroRange lo hi d).host = d.host ∧ (zeroRange lo hi d).v0 = d.v0 ∧
    (zeroRange lo hi d).v1 = d.v1 ∧ (zeroRange lo hi d).felt = d.felt ∧ (zeroRange lo hi d).ctrl = d.ctrl ∧
    (zeroRange lo hi d).boot = d.boot ∧ (zeroRange lo hi d).recovery = d.recovery ∧
    (zeroRange lo hi d).health = d.health ∧ (zeroRange lo hi d).sent = d.sent ∧
    (zeroRange lo hi d).freeCtr = d.freeCtr :=
  ⟨rfl, rfl, rfl, rfl, rfl, rfl, rfl, rfl, rfl, rfl, rfl, rfl, rfl, rfl, rfl, rfl, rfl, rfl, rfl, rfl, rfl, rfl, rfl⟩

/-- What the device holds after `Dev.setTime`. -/
@[simp] theorem Dev_setTime_fields (d : Dev) (t : TimeState) :
    (Dev.setTime d t).time = t ∧ (Dev.setTime d t).muslin = d.muslin ∧ (Dev.setTime d t).ports = d.ports ∧
    (Dev.setTime d t).cal = d.cal ∧ (Dev.setTime d t).tweed = d.tweed ∧ (Dev.setTime d t).tweedFb = d.tweedFb ∧
    (Dev.setTime d t).chambray = d.chambray ∧ (Dev.setTime d t).fabric = d.fabric ∧
    (Dev.setTime d t).plan = d.plan ∧ (Dev.setTime d t).damask = d.damask ∧ (Dev.setTime d t).serge = d.serge ∧
    (Dev.setTime d t).output = d.output ∧ (Dev.setTime d t).host = d.host ∧ (Dev.setTime d t).v0 = d.v0 ∧
    (Dev.setTime d t).v1 = d.v1 ∧ (Dev.setTime d t).felt = d.felt ∧ (Dev.setTime d t).ctrl = d.ctrl ∧
    (Dev.setTime d t).boot = d.boot ∧ (Dev.setTime d t).recovery = d.recovery ∧
    (Dev.setTime d t).health = d.health ∧ (Dev.setTime d t).mem = d.mem ∧ (Dev.setTime d t).sent = d.sent ∧
    (Dev.setTime d t).freeCtr = d.freeCtr :=
  ⟨rfl, rfl, rfl, rfl, rfl, rfl, rfl, rfl, rfl, rfl, rfl, rfl, rfl, rfl, rfl, rfl, rfl, rfl, rfl, rfl, rfl, rfl, rfl⟩

/-- What the device holds after `Dev.setServo`. -/
@[simp] theorem Dev_setServo_fields (d : Dev) (v : ServoState) :
    (Dev.setServo d v).time = { d.time with servo := v } ∧ (Dev.setServo d v).muslin = d.muslin ∧
    (Dev.setServo d v).ports = d.ports ∧ (Dev.setServo d v).cal = d.cal ∧ (Dev.setServo d v).tweed = d.tweed ∧
    (Dev.setServo d v).tweedFb = d.tweedFb ∧ (Dev.setServo d v).chambray = d.chambray ∧
    (Dev.setServo d v).fabric = d.fabric ∧ (Dev.setServo d v).plan = d.plan ∧
    (Dev.setServo d v).damask = d.damask ∧ (Dev.setServo d v).serge = d.serge ∧
    (Dev.setServo d v).output = d.output ∧ (Dev.setServo d v).host = d.host ∧ (Dev.setServo d v).v0 = d.v0 ∧
    (Dev.setServo d v).v1 = d.v1 ∧ (Dev.setServo d v).felt = d.felt ∧ (Dev.setServo d v).ctrl = d.ctrl ∧
    (Dev.setServo d v).boot = d.boot ∧ (Dev.setServo d v).recovery = d.recovery ∧
    (Dev.setServo d v).health = d.health ∧ (Dev.setServo d v).mem = d.mem ∧ (Dev.setServo d v).sent = d.sent ∧
    (Dev.setServo d v).freeCtr = d.freeCtr :=
  ⟨rfl, rfl, rfl, rfl, rfl, rfl, rfl, rfl, rfl, rfl, rfl, rfl, rfl, rfl, rfl, rfl, rfl, rfl, rfl, rfl, rfl, rfl, rfl⟩

/-- What the device holds after `modContrib`. -/
@[simp] theorem modContrib_fields (tick : Nat) (stream : Nat) (src : Source) (f : Contribution → Contribution) (d : Dev) :
    
    (modContrib tick stream src f d).muslin = { d.muslin with contrib := bmod {} (contribKey tick stream src) f d.muslin.contrib } ∧
    (modContrib tick stream src f d).time = d.time ∧ (modContrib tick stream src f d).ports = d.ports ∧
    (modContrib tick stream src f d).cal = d.cal ∧ (modContrib tick stream src f d).tweed = d.tweed ∧
    (modContrib tick stream src f d).tweedFb = d.tweedFb ∧
    (modContrib tick stream src f d).chambray = d.chambray ∧ (modContrib tick stream src f d).fabric = d.fabric ∧
    (modContrib tick stream src f d).plan = d.plan ∧ (modContrib tick stream src f d).damask = d.damask ∧
    (modContrib tick stream src f d).serge = d.serge ∧ (modContrib tick stream src f d).output = d.output ∧
    (modContrib tick stream src f d).host = d.host ∧ (modContrib tick stream src f d).v0 = d.v0 ∧
    (modContrib tick stream src f d).v1 = d.v1 ∧ (modContrib tick stream src f d).felt = d.felt ∧
    (modContrib tick stream src f d).ctrl = d.ctrl ∧ (modContrib tick stream src f d).boot = d.boot ∧
    (modContrib tick stream src f d).recovery = d.recovery ∧ (modContrib tick stream src f d).health = d.health ∧
    (modContrib tick stream src f d).mem = d.mem ∧ (modContrib tick stream src f d).sent = d.sent ∧
    (modContrib tick stream src f d).freeCtr = d.freeCtr :=
  ⟨rfl, rfl, rfl, rfl, rfl, rfl, rfl, rfl, rfl, rfl, rfl, rfl, rfl, rfl, rfl, rfl, rfl, rfl, rfl, rfl, rfl, rfl, rfl⟩

/-- What the device holds after `noteAssigned`. -/
@[simp] theorem noteAssigned_fields (tick : Nat) (d : Dev) :
    (noteAssigned tick d).muslin = { d.muslin with assigned := bput false tick true d.muslin.assigned } ∧
    (noteAssigned tick d).time = d.time ∧ (noteAssigned tick d).ports = d.ports ∧
    (noteAssigned tick d).cal = d.cal ∧ (noteAssigned tick d).tweed = d.tweed ∧
    (noteAssigned tick d).tweedFb = d.tweedFb ∧ (noteAssigned tick d).chambray = d.chambray ∧
    (noteAssigned tick d).fabric = d.fabric ∧ (noteAssigned tick d).plan = d.plan ∧
    (noteAssigned tick d).damask = d.damask ∧ (noteAssigned tick d).serge = d.serge ∧
    (noteAssigned tick d).output = d.output ∧ (noteAssigned tick d).host = d.host ∧
    (noteAssigned tick d).v0 = d.v0 ∧ (noteAssigned tick d).v1 = d.v1 ∧ (noteAssigned tick d).felt = d.felt ∧
    (noteAssigned tick d).ctrl = d.ctrl ∧ (noteAssigned tick d).boot = d.boot ∧
    (noteAssigned tick d).recovery = d.recovery ∧ (noteAssigned tick d).health = d.health ∧
    (noteAssigned tick d).mem = d.mem ∧ (noteAssigned tick d).sent = d.sent ∧
    (noteAssigned tick d).freeCtr = d.freeCtr :=
  ⟨rfl, rfl, rfl, rfl, rfl, rfl, rfl, rfl, rfl, rfl, rfl, rfl, rfl, rfl, rfl, rfl, rfl, rfl, rfl, rfl, rfl, rfl, rfl⟩

/-- What the device holds after `setByte`. -/
@[simp] theorem setByte_fields (a : Nat) (v : Byte) (d : Dev) :
    (setByte a v d).mem = bput memDefault a v d.mem ∧ (setByte a v d).time = d.time ∧
    (setByte a v d).muslin = d.muslin ∧ (setByte a v d).ports = d.ports ∧ (setByte a v d).cal = d.cal ∧
    (setByte a v d).tweed = d.tweed ∧ (setByte a v d).tweedFb = d.tweedFb ∧
    (setByte a v d).chambray = d.chambray ∧ (setByte a v d).fabric = d.fabric ∧ (setByte a v d).plan = d.plan ∧
    (setByte a v d).damask = d.damask ∧ (setByte a v d).serge = d.serge ∧ (setByte a v d).output = d.output ∧
    (setByte a v d).host = d.host ∧ (setByte a v d).v0 = d.v0 ∧ (setByte a v d).v1 = d.v1 ∧
    (setByte a v d).felt = d.felt ∧ (setByte a v d).ctrl = d.ctrl ∧ (setByte a v d).boot = d.boot ∧
    (setByte a v d).recovery = d.recovery ∧ (setByte a v d).health = d.health ∧ (setByte a v d).sent = d.sent ∧
    (setByte a v d).freeCtr = d.freeCtr :=
  ⟨rfl, rfl, rfl, rfl, rfl, rfl, rfl, rfl, rfl, rfl, rfl, rfl, rfl, rfl, rfl, rfl, rfl, rfl, rfl, rfl, rfl, rfl, rfl⟩

/-- What the device holds after `modHalf`. -/
@[simp] theorem modHalf_fields (h : Nat) (f : DmkHalf → DmkHalf) (d : Dev) :
    (modHalf h f d).damask = { d.damask with halves := bmod {} h f d.damask.halves } ∧
    (modHalf h f d).time = d.time ∧ (modHalf h f d).muslin = d.muslin ∧ (modHalf h f d).ports = d.ports ∧
    (modHalf h f d).cal = d.cal ∧ (modHalf h f d).tweed = d.tweed ∧ (modHalf h f d).tweedFb = d.tweedFb ∧
    (modHalf h f d).chambray = d.chambray ∧ (modHalf h f d).fabric = d.fabric ∧ (modHalf h f d).plan = d.plan ∧
    (modHalf h f d).serge = d.serge ∧ (modHalf h f d).output = d.output ∧ (modHalf h f d).host = d.host ∧
    (modHalf h f d).v0 = d.v0 ∧ (modHalf h f d).v1 = d.v1 ∧ (modHalf h f d).felt = d.felt ∧
    (modHalf h f d).ctrl = d.ctrl ∧ (modHalf h f d).boot = d.boot ∧ (modHalf h f d).recovery = d.recovery ∧
    (modHalf h f d).health = d.health ∧ (modHalf h f d).mem = d.mem ∧ (modHalf h f d).sent = d.sent ∧
    (modHalf h f d).freeCtr = d.freeCtr :=
  ⟨rfl, rfl, rfl, rfl, rfl, rfl, rfl, rfl, rfl, rfl, rfl, rfl, rfl, rfl, rfl, rfl, rfl, rfl, rfl, rfl, rfl, rfl, rfl⟩

/-- What the device holds after `setSeq`. -/
@[simp] theorem setSeq_fields (i : Nat) (q : Option Sequence) (d : Dev) :
    (setSeq i q d).damask = { d.damask with seqs := bput none i q d.damask.seqs } ∧
    (setSeq i q d).time = d.time ∧ (setSeq i q d).muslin = d.muslin ∧ (setSeq i q d).ports = d.ports ∧
    (setSeq i q d).cal = d.cal ∧ (setSeq i q d).tweed = d.tweed ∧ (setSeq i q d).tweedFb = d.tweedFb ∧
    (setSeq i q d).chambray = d.chambray ∧ (setSeq i q d).fabric = d.fabric ∧ (setSeq i q d).plan = d.plan ∧
    (setSeq i q d).serge = d.serge ∧ (setSeq i q d).output = d.output ∧ (setSeq i q d).host = d.host ∧
    (setSeq i q d).v0 = d.v0 ∧ (setSeq i q d).v1 = d.v1 ∧ (setSeq i q d).felt = d.felt ∧
    (setSeq i q d).ctrl = d.ctrl ∧ (setSeq i q d).boot = d.boot ∧ (setSeq i q d).recovery = d.recovery ∧
    (setSeq i q d).health = d.health ∧ (setSeq i q d).mem = d.mem ∧ (setSeq i q d).sent = d.sent ∧
    (setSeq i q d).freeCtr = d.freeCtr :=
  ⟨rfl, rfl, rfl, rfl, rfl, rfl, rfl, rfl, rfl, rfl, rfl, rfl, rfl, rfl, rfl, rfl, rfl, rfl, rfl, rfl, rfl, rfl, rfl⟩

/-- What the device holds after `Dev.setGolden`. -/
@[simp] theorem Dev_setGolden_fields (d : Dev) (cl : Nat) (g : GoldenVisit) :
    (Dev.setGolden d cl g).felt = { d.felt with golden := bput {} cl g d.felt.golden } ∧
    (Dev.setGolden d cl g).time = d.time ∧ (Dev.setGolden d cl g).muslin = d.muslin ∧
    (Dev.setGolden d cl g).ports = d.ports ∧ (Dev.setGolden d cl g).cal = d.cal ∧
    (Dev.setGolden d cl g).tweed = d.tweed ∧ (Dev.setGolden d cl g).tweedFb = d.tweedFb ∧
    (Dev.setGolden d cl g).chambray = d.chambray ∧ (Dev.setGolden d cl g).fabric = d.fabric ∧
    (Dev.setGolden d cl g).plan = d.plan ∧ (Dev.setGolden d cl g).damask = d.damask ∧
    (Dev.setGolden d cl g).serge = d.serge ∧ (Dev.setGolden d cl g).output = d.output ∧
    (Dev.setGolden d cl g).host = d.host ∧ (Dev.setGolden d cl g).v0 = d.v0 ∧ (Dev.setGolden d cl g).v1 = d.v1 ∧
    (Dev.setGolden d cl g).ctrl = d.ctrl ∧ (Dev.setGolden d cl g).boot = d.boot ∧
    (Dev.setGolden d cl g).recovery = d.recovery ∧ (Dev.setGolden d cl g).health = d.health ∧
    (Dev.setGolden d cl g).mem = d.mem ∧ (Dev.setGolden d cl g).sent = d.sent ∧
    (Dev.setGolden d cl g).freeCtr = d.freeCtr :=
  ⟨rfl, rfl, rfl, rfl, rfl, rfl, rfl, rfl, rfl, rfl, rfl, rfl, rfl, rfl, rfl, rfl, rfl, rfl, rfl, rfl, rfl, rfl, rfl⟩

/-- What the device holds after `Dev.setRail`. -/
@[simp] theorem Dev_setRail_fields (d : Dev) (r : Nat) (x : RailState) :
    (Dev.setRail d r x).health = { d.health with rails := bput {} r x d.health.rails } ∧
    (Dev.setRail d r x).time = d.time ∧ (Dev.setRail d r x).muslin = d.muslin ∧
    (Dev.setRail d r x).ports = d.ports ∧ (Dev.setRail d r x).cal = d.cal ∧ (Dev.setRail d r x).tweed = d.tweed ∧
    (Dev.setRail d r x).tweedFb = d.tweedFb ∧ (Dev.setRail d r x).chambray = d.chambray ∧
    (Dev.setRail d r x).fabric = d.fabric ∧ (Dev.setRail d r x).plan = d.plan ∧
    (Dev.setRail d r x).damask = d.damask ∧ (Dev.setRail d r x).serge = d.serge ∧
    (Dev.setRail d r x).output = d.output ∧ (Dev.setRail d r x).host = d.host ∧ (Dev.setRail d r x).v0 = d.v0 ∧
    (Dev.setRail d r x).v1 = d.v1 ∧ (Dev.setRail d r x).felt = d.felt ∧ (Dev.setRail d r x).ctrl = d.ctrl ∧
    (Dev.setRail d r x).boot = d.boot ∧ (Dev.setRail d r x).recovery = d.recovery ∧
    (Dev.setRail d r x).mem = d.mem ∧ (Dev.setRail d r x).sent = d.sent ∧
    (Dev.setRail d r x).freeCtr = d.freeCtr :=
  ⟨rfl, rfl, rfl, rfl, rfl, rfl, rfl, rfl, rfl, rfl, rfl, rfl, rfl, rfl, rfl, rfl, rfl, rfl, rfl, rfl, rfl, rfl, rfl⟩

/-- What the device holds after `modGnss`. -/
@[simp] theorem modGnss_fields (f : GnssState → GnssState) (d : Dev) :
    (modGnss f d).ports = { d.ports with gnss := f d.ports.gnss } ∧ (modGnss f d).time = d.time ∧
    (modGnss f d).muslin = d.muslin ∧ (modGnss f d).cal = d.cal ∧ (modGnss f d).tweed = d.tweed ∧
    (modGnss f d).tweedFb = d.tweedFb ∧ (modGnss f d).chambray = d.chambray ∧ (modGnss f d).fabric = d.fabric ∧
    (modGnss f d).plan = d.plan ∧ (modGnss f d).damask = d.damask ∧ (modGnss f d).serge = d.serge ∧
    (modGnss f d).output = d.output ∧ (modGnss f d).host = d.host ∧ (modGnss f d).v0 = d.v0 ∧
    (modGnss f d).v1 = d.v1 ∧ (modGnss f d).felt = d.felt ∧ (modGnss f d).ctrl = d.ctrl ∧
    (modGnss f d).boot = d.boot ∧ (modGnss f d).recovery = d.recovery ∧ (modGnss f d).health = d.health ∧
    (modGnss f d).mem = d.mem ∧ (modGnss f d).sent = d.sent ∧ (modGnss f d).freeCtr = d.freeCtr :=
  ⟨rfl, rfl, rfl, rfl, rfl, rfl, rfl, rfl, rfl, rfl, rfl, rfl, rfl, rfl, rfl, rfl, rfl, rfl, rfl, rfl, rfl, rfl, rfl⟩

/-- A meaning that is an effect always answers the next state. -/
@[simp] theorem act_eq (f : Dev → Dev) (s : State) : act f s = .next { s with dev := f s.dev } := rfl

/-- A meaning whose access may lie outside a core's addresses answers the next state where the access has its effect. -/
theorem attempt_some {f : Dev → Option Dev} {s : State} {d : Dev} (h : f s.dev = some d) :
    attempt f s = .next { s with dev := d } := by simp [attempt, h]

/-- Such a meaning stops where the access has none. -/
theorem attempt_none {f : Dev → Option Dev} {s : State} (h : f s.dev = none) : attempt f s = .fault .coreAddress := by
  simp [attempt, h]

/-- What such a meaning answers as a next state. -/
theorem attempt_next {f : Dev → Option Dev} {s t : State} (h : attempt f s = .next t) :
    ∃ d, f s.dev = some d ∧ t = { s with dev := d } := by
  unfold attempt at h
  split at h
  · cases h; exact ⟨_, by assumption, rfl⟩
  · cases h

/-- The byte just stored reads as stored. -/
theorem byte_setByte_same (a : Nat) (v : Byte) (d : Dev) (h : memWf d.mem = true) : (setByte a v d).byte a = v :=
  bget_bput_same h

/-- Every other byte reads as before. -/
theorem byte_setByte_ne {a b : Nat} (v : Byte) (d : Dev) (h : b ≠ a) : (setByte a v d).byte b = d.byte b :=
  bget_bput_ne h

/-- Bytes outside a stored range read as before. -/
theorem byte_setBytes_outside {a b : Nat} (bs : List Byte) (d : Dev) (h : b < a ∨ a + bs.length ≤ b) :
    (setBytes a bs d).byte b = d.byte b := by
  induction bs generalizing a d with
  | nil => rfl
  | cons v t ih =>
    simp only [setBytes, List.length_cons] at h ⊢
    rw [ih _ (by omega), byte_setByte_ne _ _ (by omega)]

/-- A store keeps memory in its form. -/
theorem memWf_setBytes (a : Nat) (bs : List Byte) (d : Dev) (h : memWf d.mem = true) : memWf (setBytes a bs d).mem = true := by
  induction bs generalizing a d with
  | nil => exact h
  | cons v t ih => exact ih _ _ (bwf_bput h)

end Sys2Proof.Machine
end

