-- ==== Sys2Proof/Machine/CaquecoBase.lean ====
section
/-!
DEFINITION. The findings of Caqueco, the image compiler, on an image (the rules of spec/03 to spec/18 and spec/21 that say what it
rejects, warns of or reports). The device itself does not check these; an image that the compiler rejects is never built.
-/

namespace Sys2Proof.Machine

open Sys2Proof

/-- What a finding does: it rejects the image, warns, or reports a number as a diagnostic (R103, R263, R470). -/
inductive CaqLevel where
  | reject | warn | report
  deriving DecidableEq, Repr

/-- Where a finding applies: the image as a whole, one mode, or Burlap's plan. -/
inductive CaqPlace where
  | image
  | mode (j : Nat)
  | burlap
  deriving DecidableEq, Repr

/-- The regions whose size a finding gives (R173, R403). -/
inductive CaqRegion where
  | iodClusters | burlapBanks | fallbackTable | fallbackCells | fallbackStores | trackHistories | logAndTrace | packetBuffers
  | configuration | bootBuffer | m0Sram | m1Sram | coreMemory | snapshots | resultStores
  deriving DecidableEq, Repr

/-- What a finding concerns. -/
inductive CaqItem where
  | all
  | region (r : CaqRegion)
  | section_ (id : Nat)
  | stream (n : Nat)
  | signal (n i : Nat)
  | bus (n : Nat)
  | gnss
  | port (n : Nat)
  | pipe (n : Nat)
  | parser (n : Nat)
  | record (n : Nat)
  | model (port : Nat)
  | window (i : Nat)
  | edge (i : Nat)
  | group (i : Nat)
  | partition (i : Nat)
  | descriptor (i : Nat)
  | placement (i : Nat)
  | transition (j : Nat)
  | output (o : OutKind)
  | program (n : Nat)
  | blob (n : Nat)
  | core (cluster core : Nat)
  | tally (cluster n : Nat)
  | half (h : Nat)
  | dmkClass (n : Nat)
  | engine (fb : Bool)
  | query (fb : Bool) (i : Nat)
  | fps (fb : Bool) (i : Nat)
  | grid
  | operation (i : Nat)
  | slot (n : Nat)
  | block (n i : Nat)
  | factor (n i : Nat)
  | noise (i : Nat)
  | hostPort (p : Nat)
  | lane (p l : Nat)
  | hostModel (m : Nat)
  | product (p : Nat)
  | segment (i : Nat)
  | threshold (i : Nat)
  deriving DecidableEq, Repr

/-- A finding: the rule it comes from, where and on what, and, where the check compares numbers, the required value beside the
value found (R263). -/
structure CaqFinding where
  level : CaqLevel
  rule : Nat
  place : CaqPlace
  item : CaqItem
  need : Option Int := none
  found : Option Int := none
  deriving DecidableEq, Repr

/-- A rejection unless a check holds. -/
def caqNeed (rule : Nat) (p : CaqPlace) (i : CaqItem) (ok : Bool) : List CaqFinding := if ok then [] else [⟨.reject, rule, p, i, none, none⟩]

/-- A rejection of a number above a bound. -/
def caqMost (rule : Nat) (p : CaqPlace) (i : CaqItem) (found bound : Int) : List CaqFinding :=
  if found ≤ bound then [] else [⟨.reject, rule, p, i, some bound, some found⟩]

/-- A rejection of a number below a bound. -/
def caqLeast (rule : Nat) (p : CaqPlace) (i : CaqItem) (found bound : Int) : List CaqFinding :=
  if bound ≤ found then [] else [⟨.reject, rule, p, i, some bound, some found⟩]

/-- A rejection of a number outside a range. -/
def caqRange (rule : Nat) (p : CaqPlace) (i : CaqItem) (lo found hi : Int) : List CaqFinding :=
  caqLeast rule p i found lo ++ caqMost rule p i found hi

/-- A rejection of a number other than one. -/
def caqEqual (rule : Nat) (p : CaqPlace) (i : CaqItem) (found need : Int) : List CaqFinding :=
  if found = need then [] else [⟨.reject, rule, p, i, some need, some found⟩]

/-- A warning of a number above a bound. -/
def caqWarn (rule : Nat) (p : CaqPlace) (i : CaqItem) (found bound : Int) : List CaqFinding :=
  if found ≤ bound then [] else [⟨.warn, rule, p, i, some bound, some found⟩]

/-- A diagnostic. -/
def caqReport (rule : Nat) (p : CaqPlace) (i : CaqItem) (value : Int) : List CaqFinding := [⟨.report, rule, p, i, none, some value⟩]

/-- A number from `lo` to `hi`. -/
def caqIn (lo x hi : Nat) : Bool := decide (lo ≤ x) && decide (x ≤ hi)

/-- The sum of a quantity over a list. -/
def caqSum {α : Type} (f : α → Nat) (l : List α) : Nat := l.foldl (fun n x => n + f x) 0

/-- The largest of a quantity over a list, 0 of an empty one. -/
def caqMax {α : Type} (f : α → Nat) (l : List α) : Nat := l.foldl (fun n x => max n (f x)) 0

/-- A quotient rounded up. -/
def caqCeil (a b : Nat) : Nat := (a + b - 1) / b

/-- The entry of a number in a numbered list. -/
def caqFind {α : Type} (n : Nat) (l : List (Nat × α)) : Option α := (l.find? (fun x => x.1 = n)).map (·.2)

/-- The items of a list with their places. -/
def caqEach {α : Type} (l : List α) (f : Nat → α → List CaqFinding) : List CaqFinding := l.zipIdx.flatMap (fun x => f x.2 x.1)

/-- Each mode of an image. -/
def caqModesEach (im : Image) (f : Nat → ModeRec → List CaqFinding) : List CaqFinding := im.plan.modes.flatMap (fun x => f x.1 x.2)

/-- P of a mode in µs (R242). -/
def caqP (m : ModeRec) : Nat := m.pMs * 1000

/-- P/N of a mode in µs (R24). -/
def caqMinor (m : ModeRec) : Nat := caqP m / m.n

/-- P and D of a mode in ns. -/
def caqPNs (m : ModeRec) : Int := m.pMs * 1000000
def caqDNs (m : ModeRec) : Int := m.dMinor * caqMinor m * 1000

/-- The valid entries that a mode uses (R126), by stream number. -/
def caqUses (im : Image) (mode : Nat) : List (Nat × StreamEntry) := im.streams.entries.filter (fun e => e.2.modeMask.contains mode)

/-- Places that repeat an earlier one. -/
def caqRepeats (rule : Nat) (p : CaqPlace) (item : Nat → CaqItem) (keys : List Nat) : List CaqFinding :=
  keys.zipIdx.flatMap (fun x => caqNeed rule p (item x.1) (!(keys.take x.2).contains x.1))

/-- A range in its place among ranges that rise by their starts. -/
def caqInsert (r : Nat × Nat) : List (Nat × Nat) → List (Nat × Nat)
  | [] => [r]
  | x :: rest => if r.1 ≤ x.1 then r :: x :: rest else x :: caqInsert r rest

/-- The bytes that a list of ranges (start, length) covers, counted once. -/
def caqCovered (l : List (Nat × Nat)) : Nat :=
  ((l.foldl (fun s r => caqInsert r s) []).foldl (fun (s : Nat × Nat) r =>
    let from_ := max s.1 r.1
    let until_ := r.1 + r.2
    (max s.1 until_, s.2 + (until_ - from_))) (0, 0)).2

/-- The first 16 bits of each section are its FORMAT_VERSION, 0x0001; of sections 0x22 each part has its own header (R245). -/
def caqFormats (im : Image) : List CaqFinding :=
  [(0x10, 0), (0x11, 0), (0x12, 0), (0x13, 0), (0x14, 0), (0x20, 0), (0x21, 0), (0x22, 0), (0x22, 1), (0x23, 0), (0x24, 0), (0x25, 0),
   (0x26, 0), (0x27, 0), (0x30, 0), (0x31, 0), (0x32, 0), (0x33, 0)].flatMap (fun s =>
    match partBytes im s.1 s.2 with
    | some b => caqEqual 424 .image (.section_ s.1) (fieldAt b 0 0 16) 1
    | none => [])

end Sys2Proof.Machine
end

