-- ==== Sys2Proof/Machine/CaquecoSensors.lean ====
section
/-!
DEFINITION. What Caqueco checks in the sections of an image that describe the sensors (spec/03 to spec/06): the stream
table 0x10, the camera ports 0x11, the parsers 0x12, the calibration 0x13 and the warp tables 0x14.
-/

namespace Sys2Proof.Machine

open Sys2Proof

/-! ### Tick parameters and alignment (R24, R57 to R59) -/

/-- The tick parameters of a mode (R24): D is a whole number of minor ticks, at most P − P/N. -/
def caqTick (p : CaqPlace) (m : ModeRec) : List CaqFinding :=
  caqRange 24 p .all 20 m.pMs 100 ++ caqRange 24 p .all 10 m.n 100 ++ caqEqual 24 p .all (caqP m % m.n : Nat) 0 ++
  caqLeast 24 p .all (caqMinor m) 200 ++ caqMost 24 p .all m.dMinor (m.n - 1)

/-- W_s in µs in a mode (R57). -/
def caqWindow (m : ModeRec) (e : StreamEntry) : Nat := if e.windowUs = 0 then caqP m else e.windowUs

/-- H_s in µs (R57). -/
def caqHorizon (e : StreamEntry) : Nat := if e.horizonUs = 0 then 100000 else e.horizonUs

/-- The alignment fields of a stream in a mode that uses it (R57, R59). -/
def caqAlign (p : CaqPlace) (m : ModeRec) (n : Nat) (e : StreamEntry) : List CaqFinding :=
  let w := caqWindow m e
  let h := caqHorizon e
  let x := if e.spanUs = 0 then w else e.spanUs
  let i := CaqItem.stream n
  caqLeast 57 p i w (caqMinor m) ++ caqMost 59 p i w h ++ caqMost 59 p i (2 * e.gateUs) (caqP m) ++ caqRange 59 p i (caqMinor m) x h ++
  caqMost 59 p i h (min 2000000 (8000 * caqMinor m)) ++ caqRange 57 p i 250 e.periodUs 2000000 ++
  (match e.src with
   | .camera f => caqNeed 59 p i (decide (e.periodUs = caqP m) || decide (2 * e.periodUs = caqP m)) ++
       caqEqual 101 p i (e.periodUs * f.framesPerTick) (caqP m)
   | _ => [])

/-- POSE_EXTRAP_LIMIT (R58). -/
def caqPoseLimit (im : Image) : List CaqFinding :=
  let l := im.streams.poseExtrapLimitUs
  if l = 0 then [] else caqModesEach im (fun j m => caqRange 58 (.mode j) .all (caqMinor m) l (10 * caqMinor m))

/-! ### Stream entries (R44, R101, R127, R128) -/

/-- The bits of a pixel of a CSI-2 data type (R81). -/
def caqPixelBits : Nat → Nat
  | 0x2B => 10 | 0x2C => 12 | 0x2D => 14 | 0x2E => 16 | 0x2F => 20 | _ => 0

/-- The ranges of the camera fields (R101). -/
def caqCamera (i : CaqItem) (f : CameraFields) : List CaqFinding :=
  caqRange 101 .image i 1 f.vcMap.length 3 ++ caqNeed 101 .image i (f.vcMap.all (fun v => decide (v < 4))) ++
  caqRange 101 .image i 0x2B f.dataType 0x2F ++ caqRange 101 .image i 16 f.width 3840 ++ caqRange 101 .image i 16 f.height 2160 ++
  caqRange 101 .image i 1 f.framesPerTick 2 ++ caqMost 101 .image i f.pyrLevels 3 ++ caqMost 101 .image i f.outFormat 2 ++
  caqMost 101 .image i f.cfa 8 ++ caqLeast 101 .image i f.bandRows 1 ++ caqEqual 101 .image i (f.bandRows % 2 ^ f.pyrLevels : Nat) 0 ++
  caqMost 101 .image i (caqCeil f.height f.bandRows) 64

/-- The roles that R115 permits an IMU (true) or a CAN stream. -/
def caqRole (imu : Bool) (r : Nat) : Bool :=
  decide (r = 0) || decide (r = 30) || decide (r = 31) || (if imu then caqIn 16 r 22 else caqIn 1 r 9)

/-- The signals of a stream lie in its payload, have permitted roles, and role 31 stands exactly where CHECK_KIND asks for
it (R114, R115, R128). -/
def caqSignals (im : Image) (n : Nat) (imu : Bool) (first count len check : Nat) : List CaqFinding :=
  let sigs := (im.streams.sigs.drop first).take count
  let roles (r : Nat) : Nat := (sigs.filter (fun s => decide (s.role = r))).length
  caqRange 114 .image (.stream n) 1 count 16 ++ caqEqual 114 .image (.stream n) sigs.length count ++
  caqEach sigs (fun i s => caqRange 114 .image (.signal n i) 1 s.length 32 ++ caqNeed 128 .image (.signal n i) (caqRole imu s.role) ++
    (signalBits s).flatMap (fun b => caqMost 128 .image (.signal n i) b (8 * len - 1))) ++
  caqMost 128 .image (.stream n) (roles 30) 1 ++ caqEqual 128 .image (.stream n) (roles 31) (if check = 0 then 0 else 1)

/-- The line rate of a lidar port in Mb/s (R105, R127). -/
def caqLidarRate : Nat → Nat
  | 0 => 2500 | 1 => 5000 | 2 => 10000 | _ => 0

/-- A sync pulse's period divides P/N or is a whole multiple of it (R44). -/
def caqSyncRate (p : CaqPlace) (m : ModeRec) (i : CaqItem) (f : ImuFields) : List CaqFinding :=
  if !f.syncMode then [] else
  -- the period is 10^6 / rate µs: rate × P/N is the number of pulses in P/N, times 10^6
  caqLeast 44 p i f.syncRateHz 1 ++
  caqNeed 44 p i (decide (f.syncRateHz * caqMinor m % 1000000 = 0) || decide (1000000 % (f.syncRateHz * caqMinor m) = 0))

/-- The fields of an entry's SOURCE (R127, R128). -/
def caqSource (im : Image) (n : Nat) (e : StreamEntry) : List CaqFinding :=
  let i := CaqItem.stream n
  match e.src with
  | .lidar f =>
    caqNeed 128 .image i (decide (e.kind = .point)) ++ caqMost 126 .image i e.port 7 ++ caqEqual 126 .image i e.declLatNs 0 ++
    caqMost 127 .image i f.speed 2 ++ caqRange 127 .image i (-5) f.logSync 0 ++ caqMost 127 .image i f.fbDecim 15 ++
    (match caqFind f.parser im.parsers with
     | some p => caqMost 128 .image i (f.pointRate * (p.pktLen + 66) * 8 * 10)
         (9 * caqLidarRate f.speed * 1000000 * (p.blockCount * p.pointsPerBlock))
     | none => caqNeed 127 .image i false)
  | .camera f => caqNeed 128 .image i (decide (e.kind = .rowBand)) ++ caqMost 126 .image i e.port 15 ++
      caqEqual 126 .image i e.declLatNs 0 ++ caqCamera i f
  | .imu f =>
    caqNeed 128 .image i (decide (e.kind = .egoInput)) ++ caqMost 126 .image i e.port 3 ++ caqMost 127 .image i f.spiMode 3 ++
    caqRange 127 .image i 1 f.spiDiv 255 ++ caqMost 127 .image i f.syncWidthUs 50 ++ caqMost 127 .image i f.syncRateHz 4000 ++
    caqMost 127 .image i f.cmd.length 4 ++ caqRange 127 .image i 1 f.rxLen 32 ++ caqMost 127 .image i f.checkKind 2 ++
    caqSignals im n true f.sigFirst f.sigCount f.rxLen f.checkKind ++
    -- the bits of a transaction at 48 MHz / (SPI_DIV + 1) take at most half the period (R117)
    caqMost 128 .image i ((f.cmd.length + f.rxLen) * 8 * (f.spiDiv + 1) * 2) (48 * e.periodUs)
  | .can f =>
    caqNeed 128 .image i (decide (e.kind = .egoInput)) ++ caqNeed 128 .image i (im.streams.buses.any (fun b => decide (b.1 = e.port))) ++
    caqMost 126 .image i e.port 3 ++ caqMost 127 .image i f.canId (if f.ide then 2 ^ 29 - 1 else 2 ^ 11 - 1) ++
    caqMost 127 .image i f.idMask (2 ^ 29 - 1) ++ caqRange 127 .image i 1 f.minLen 64 ++ caqMost 127 .image i f.checkKind 1 ++
    caqSignals im n false f.sigFirst f.sigCount f.minLen f.checkKind
  | .gnss _ => caqNeed 128 .image i (decide (e.kind = .egoInput)) ++ caqEqual 126 .image i e.port 0 ++ caqNeed 128 .image i im.streams.gnssEn

/-- The number of the source port of an entry, for the ports that take one entry (R128). -/
def caqPortKey (e : StreamEntry) : Option Nat :=
  match e.src with
  | .lidar _ => some e.port | .camera _ => some (16 + e.port) | .imu _ => some (32 + e.port) | .gnss _ => some 48 | .can _ => none

/-- An earlier entry with the same source port (R128). -/
def caqPortTwice (im : Image) : List CaqFinding :=
  let es := im.streams.entries
  es.zipIdx.flatMap (fun x => match caqPortKey x.1.2 with
    | some k => caqNeed 128 .image (.stream x.1.1) (!(es.take x.2).any (fun y => decide (caqPortKey y.2 = some k)))
    | none => [])

/-- The lidar fields of an entry, none of another source. -/
def lidarOf (e : StreamEntry) : Option LidarFields := match e.src with | .lidar f => some f | _ => none

/-- POINT_RATE, QUOTA_MAIN and QUOTA_FB of an entry. -/
def caqPoints (e : StreamEntry) : Nat × Nat × Nat := match lidarOf e with | some f => (f.pointRate, f.quotaMain, f.quotaFb) | none => (0, 0, 0)

/-- The windows of a plan name only streams that their mode uses (R128). -/
def caqStreamUse (im : Image) : List CaqFinding :=
  caqModesEach im (fun j m => caqEach m.windows (fun i w => w.streams.flatMap (fun n =>
    caqNeed 128 (.mode j) (.window i) ((caqUses im j).any (fun e => decide (e.1 = n))))))

/-- A bit timing of a CAN bus (R125). -/
def caqBus (n : Nat) (b : CanBus) : List CaqFinding :=
  let r (lo x hi : Int) := caqRange 125 .image (.bus n) lo x hi
  caqMost 125 .image (.bus n) n 3 ++ r 1 b.nbrp 255 ++ r 2 b.ntseg1 255 ++ r 1 b.ntseg2 128 ++ r 1 b.nsjw (min 128 b.ntseg2) ++
  (if b.fdEn then r 1 b.dbrp 32 ++ r 1 b.dtseg1 32 ++ r 1 b.dtseg2 16 ++ r 1 b.dsjw (min 16 b.dtseg2) else [])

/-- The points a mode's POINT streams may bring, and what each stream is expected to (R128). -/
def caqPointSums (im : Image) : List CaqFinding :=
  caqModesEach im (fun j m =>
    let us := (caqUses im j).map (fun e => caqPoints e.2)
    caqMost 128 (.mode j) .all (caqSum (·.1) us) 16000000 ++ caqMost 128 (.mode j) .all (caqSum (·.2.1) us) 2097152 ++
    caqMost 128 (.mode j) .all (caqSum (·.2.2) us) 524288 ++
    (caqUses im j).flatMap (fun e => match lidarOf e.2 with
      | some f =>
        let expected := f.pointRate * caqWindow m e.2 / 1000000
        caqReport 128 (.mode j) (.stream e.1) expected ++ caqWarn 128 (.mode j) (.stream e.1) expected f.quotaMain ++
        caqWarn 128 (.mode j) (.stream e.1) expected (f.quotaFb * f.fbDecim)
      | none => []))

/-- Section 0x10 (R57 to R59, R101, R125 to R128). -/
def caqStreams (im : Image) : List CaqFinding :=
  let es := im.streams.entries
  caqRange 125 .image (.section_ 0x10) 1 im.streams.entryCount 48 ++ es.flatMap (fun e => caqMost 125 .image (.stream e.1) e.1 (im.streams.entryCount - 1)) ++
  caqPortTwice im ++ caqMost 125 .image (.section_ 0x10) im.streams.sigs.length 256 ++ im.streams.buses.flatMap (fun b => caqBus b.1 b.2) ++
  (if im.streams.gnssEn then caqRange 125 .image .gnss 9600 im.streams.baud 921600 else []) ++ caqPoseLimit im ++
  es.flatMap (fun e => caqSource im e.1 e.2 ++ caqMost 128 .image (.stream e.1) e.2.declLatNs (1000 * caqHorizon e.2)) ++
  caqModesEach im (fun j m => caqTick (.mode j) m ++ (caqUses im j).flatMap (fun e => caqAlign (.mode j) m e.1 e.2 ++
    (match e.2.src with | .imu f => caqSyncRate (.mode j) m (.stream e.1) f | _ => []))) ++
  caqPointSums im ++ caqStreamUse im

/-! ### Camera ports (R78, R102, R103) -/

/-- The downlink rate of a gear in Gb/s (R78). -/
def caqGear : Nat → Nat
  | 1 => 2 | 2 => 4 | 3 => 8 | 4 => 12 | 5 => 16 | _ => 0

/-- The ranges of a port record (R102). -/
def caqPort (n : Nat) (p : CameraPort) : List CaqFinding :=
  let r (lo x hi : Int) := caqRange 103 .image (.port n) lo x hi
  r 1 p.gear 5 ++ r 0 p.cciAddr 127 ++ r 0 p.cciRate 2 ++ r 1 p.lineTimePs (2 ^ 32 - 1) ++ r 0 p.trigWidthUs 50 ++
  r 0 p.expMinUs p.expMaxUs ++ r 1 p.stepEv16 32 ++ r 1 p.wbStep 255 ++ r 1 p.init.length 4096 ++ r 0x100 p.ratio1 0x1000 ++
  r 0x100 p.ratio2 0x1000 ++ r 0 p.satTh (2 ^ 20 - 1) ++ caqMost 103 .image (.port n) p.blend (p.satTh - 1 : Int) ++
  p.black.flatMap (fun b => r 0 b 65535) ++ (if p.knots.length = 0 then [] else r 2 p.knots.length 33) ++
  caqEqual 103 .image (.port n) p.weights.length 128 ++ caqEqual 103 .image (.port n) p.tone.length 1024 ++
  p.init.flatMap (fun e => r 0 e.op 3)

/-- The peak payload of a stream at its port: at most 80 % of the gear rate, with CENTRE_ROW in the frame (R102, R103). -/
def caqPayload (n : Nat) (p : CameraPort) (f : CameraFields) : List CaqFinding :=
  caqMost 103 .image (.port n) (5 * (f.width * caqPixelBits f.dataType * f.vcMap.length) * 1000) (4 * caqGear p.gear * p.lineTimePs) ++
  caqMost 103 .image (.port n) p.centreRow (f.height - 1)

/-- A port with its stream in a mode (R102, R103): EXP_MAX is at most P/2, with two frames in a tick the second trigger does not
precede the first frame's last row; E_gate, and EXP_MAX beyond it. -/
def caqPortMode (j : Nat) (m : ModeRec) (n : Nat) (p : CameraPort) (e : StreamEntry) (f : CameraFields) : List CaqFinding :=
  caqMost 103 (.mode j) (.port n) (2 * p.expMaxUs) (caqP m) ++
  (if f.framesPerTick ≤ 1 then [] else
    caqMost 103 (.mode j) (.port n) ((p.trigLatNs + 1000 * p.expMaxUs) * 1000 + f.height * p.lineTimePs) (500000 * caqP m)) ++
  caqReport 103 (.mode j) (.port n) (expGate e f p) ++ caqWarn 103 (.mode j) (.port n) (1000 * p.expMaxUs) (expGate e f p)

/-- The camera streams of an image with their ports. -/
def caqCams (im : Image) : List (StreamEntry × CameraFields × CameraPort) :=
  im.streams.entries.filterMap (fun e => match e.2.src with
    | .camera f => (caqFind e.2.port im.cameras).map (fun p => (e.2, f, p))
    | _ => none)

/-- A sum of fractions num / den, as one fraction; every den is past 0. -/
def caqFracSum (l : List (Nat × Nat)) : Nat × Nat := l.foldl (fun s x => (s.1 * x.2 + x.1 * s.2, s.2 * x.2)) (0, 1)

/-- Section 0x11 (R102, R103): ports, the pipes' input rates in pixels per ns, and each mode's pixel rate. -/
def caqCameras (im : Image) : List CaqFinding :=
  let cs := caqCams im
  im.cameras.flatMap (fun c => caqPort c.1 c.2) ++
  -- PORT_MASK and each record's ENABLE agree
  (List.range 16).flatMap (fun n => match partBytes im 0x11 0 with
    | some b => caqNeed 103 .image (.port n) (flagAt b 4 n == flagAt b (0x40 + 0x80 * n) 0)
    | none => []) ++
  im.streams.entries.flatMap (fun e => match e.2.src with
    | .camera _ => caqNeed 103 .image (.port e.2.port) (im.cameras.any (fun c => c.1 = e.2.port))
    | _ => []) ++
  cs.flatMap (fun c => caqPayload c.1.port c.2.2 c.2.1) ++
  [0, 1].flatMap (fun b =>
    let s := caqFracSum ((cs.filter (fun c => decide (c.1.port / 8 = b))).map (fun c => (c.2.1.width * c.2.1.vcMap.length * 1000, c.2.2.lineTimePs)))
    caqMost 103 .image (.pipe b) s.1 (6 * s.2)) ++
  caqModesEach im (fun j m =>
    let here := cs.filter (fun c => c.1.modeMask.contains j)
    caqMost 103 (.mode j) .all (caqSum (fun c => c.2.1.width * c.2.1.height * c.2.1.vcMap.length * c.2.1.framesPerTick) here) (4000 * caqP m) ++
    here.flatMap (fun c => caqPortMode j m c.1.port c.2.2 c.1 c.2.1))

/-! ### Parsers, calibration and warp tables (R109, R131, R134 to R136) -/

/-- A parser descriptor's fields lie in their ranges, and its blocks and points in the packet (R109). -/
def caqParser (n : Nat) (p : ParserDesc) : List CaqFinding :=
  let r (lo x hi : Int) := caqRange 109 .image (.parser n) lo x hi
  r 1 p.blockCount 64 ++ r 1 p.pointsPerBlock 255 ++ r 0 p.tsFormat 2 ++ p.fields.flatMap (fun f => r 0 f.bytes 4) ++
  r 0 p.elev.length 255

/-- Section 0x12 (R109). -/
def caqParsers (im : Image) : List CaqFinding :=
  caqRange 109 .image (.section_ 0x12) 1 im.parsers.length 8 ++ im.parsers.flatMap (fun p => caqParser p.1 p.2)

/-- A quaternion's norm differs from 1 by at most 10^-6 (R131), by its exact square. -/
def caqUnit (q : Quat) : Bool :=
  let sq (w : F32) : Dyadic := (f32Value w).mul (f32Value w)
  let s := ((sq q.w).add (sq q.x)).add ((sq q.y).add (sq q.z))
  let scaled : Dyadic := s.mul { m := 1000000000000, e := 0 }
  [q.w, q.x, q.y, q.z].all f32Finite && !scaled.lt { m := 999998000001, e := 0 } && !Dyadic.lt { m := 1000002000001, e := 0 } scaled

/-- A calibration record with its limits (R131, R134, R135), for the valid entry of its stream where there is one. -/
def caqRecord (n : Nat) (e : Option StreamEntry) (r : CalRecord) (l : CalLimits) : List CaqFinding :=
  let i := CaqItem.record n
  caqNeed 131 .image i (caqUnit r.q) ++ caqNeed 134 .image i ([r.t.x, r.t.y, r.t.z].all f32Finite) ++
  (match e with
   | some e => caqMost 135 .image i r.toffNs.natAbs (1000 * caqHorizon e) ++ caqNeed 135 .image i (!l.extrAdapt || decide (e.kind ≠ .egoInput))
   | none => caqNeed 135 .image i (!l.extrAdapt)) ++
  (if l.extrAdapt then caqLeast 135 .image i l.stepTUm 1 ++ caqLeast 135 .image i l.stepRUrad 1 else []) ++
  (if l.toffAdapt then caqLeast 135 .image i l.stepToff 1 else []) ++
  caqMost 135 .image i l.stepTUm (1000 * l.driftTMm) ++ caqMost 135 .image i l.stepRUrad (100 * l.driftR) ++
  caqMost 135 .image i l.stepToff (10 * l.driftToffUs)

/-- Section 0x13 (R134, R135): every valid stream has a record, and one record each anchors space and time. -/
def caqCal (im : Image) : List CaqFinding :=
  let limits (n : Nat) : Option CalLimits := caqFind n im.cal.limits
  caqMost 134 .image (.section_ 0x13) im.cal.confirmCount 8 ++
  (match partBytes im 0x13 0 with
   | some b => caqEqual 134 .image (.section_ 0x13) (fieldAt b 0 16 8) im.streams.entryCount
   | none => []) ++
  im.streams.entries.flatMap (fun e => caqNeed 135 .image (.record e.1) (im.cal.records.any (fun r => r.1 = e.1))) ++
  im.cal.records.flatMap (fun r => match limits r.1 with
    | some l => caqRecord r.1 (caqFind r.1 im.streams.entries) r.2 l
    | none => caqNeed 134 .image (.record r.1) false) ++
  caqNeed 135 .image (.section_ 0x13) (im.streams.entries.any (fun e => decide (e.2.kind = .point) &&
    (match limits e.1 with | some l => !l.extrAdapt | none => false))) ++
  caqNeed 135 .image (.section_ 0x13) (im.cal.limits.any (fun l => !l.2.toffAdapt))

/-- A camera model of section 0x14, for the stream of its port (R136): its grids lie in the section. -/
def caqWarpModel (im : Image) (port : Nat) (w : WarpModel) : List CaqFinding :=
  let inside (a : F32) : Bool := f32Gt a 0xBFC90FDB && f32Gt 0x3FC90FDB a
  let r (lo x hi : Int) := caqRange 136 .image (.model port) lo x hi
  r 2 w.fwdCols 129 ++ r 2 w.fwdRows 129 ++ r 3 w.invStepLog2 6 ++
  caqNeed 136 .image (.model port) ([w.alphaMin, w.alphaMax, w.betaMin, w.betaMax].all inside && f32Gt w.alphaMax w.alphaMin &&
    f32Gt w.betaMax w.betaMin && f32Finite w.zMin) ++
  (match partBytes im 0x14 0 with
   | some b =>
     let rec_ := recordAt b (0x40 + 0x40 * port) 0x40
     caqMost 136 .image (.model port) (wordAt rec_ 0x14 + 8 * w.fwd.length) b.length ++
     caqMost 136 .image (.model port) (wordAt rec_ 0x18 + 8 * w.inv.length) b.length
   | none => []) ++
  im.streams.entries.flatMap (fun e => match e.2.src with
    | .camera f => if e.2.port ≠ port then [] else
        caqEqual 136 .image (.model port) w.width f.width ++ caqEqual 136 .image (.model port) w.height f.height
    | _ => [])

/-- Section 0x14 (R136). -/
def caqWarp (im : Image) : List CaqFinding := im.warp.flatMap (fun x => caqWarpModel im x.1 x.2)

/-- Sections 0x10 to 0x14. -/
def caqSensors (im : Image) : List CaqFinding := caqStreams im ++ caqCameras im ++ caqParsers im ++ caqCal im ++ caqWarp im

end Sys2Proof.Machine
end

