-- ==== Sys2Proof/Machine/CaquecoPlan.lean ====
section
/-!
DEFINITION. What Caqueco checks in the sections of an image that plan the work (spec/09 to spec/11): the Tick Plan 0x20 with
its descriptors, the programs 0x21 and the blobs 0x22. Where a check needs a quantity that the image does not hold (a program's
traffic, a wait, the work of a part), the part that the image's fields decide is here.
-/

namespace Sys2Proof.Machine

open Sys2Proof

/-! ### Tensor descriptors (R224, R229) -/

/-- The bytes from a tensor's base to its last byte. -/
def caqSpan (t : Tensor) : Nat :=
  rowBytes t.format (t.ext 0) + caqSum (fun d => (t.ext (d + 1) - 1) * t.strides.getD d 0) (List.range (t.rank - 1))

/-- The bytes of LPDDR5X on each memory-side die that a plan may use (R20, R400): inline SEC-DED takes one sixteenth. -/
def caqDdrBytes (im : Image) : Nat :=
  let whole := im.manifest.memGib * 2 ^ 30
  if im.manifest.inlineEcc then whole - whole / 16 else whole

/-- The bytes of a tensor's space (R10, R195, R203, R403). -/
def caqSpace (im : Image) : Space → Nat
  | .coreLocal => 65536 | .cluster => 4194304 | .memSide => 768 * 1048576 | .iod => 96 * 1048576 | .lpddr => caqDdrBytes im

/-- The die, cluster and core that a space's address names (R224). -/
def caqAddressOk (t : Tensor) : Bool :=
  decide (t.cluster < 32) && decide (t.core < 64) &&
  (match t.space with
   | .coreLocal => decide (t.die ≤ 3) || decide (t.die = 6)
   | .cluster => decide (t.die ≤ 3) || decide (t.die = 6)
   | .memSide => decide (t.die = 4) || decide (t.die = 5)
   | .iod => decide (t.die = 6)
   | .lpddr => decide (t.die = 4) || decide (t.die = 5))

/-- A tensor descriptor's fields, strides and last byte (R224, R229). -/
def caqTensor (im : Image) (p : CaqPlace) (i : Nat) (t : Tensor) : List CaqFinding :=
  let it := CaqItem.descriptor i
  caqRange 229 p it 1 t.rank 6 ++ caqEqual 229 p it (t.addr % 8 : Nat) 0 ++ caqNeed 229 p it (caqAddressOk t) ++
  (List.range t.rank).flatMap (fun d => caqLeast 229 p it (t.extents.getD d 1) 1) ++
  (List.range (t.rank - 1)).flatMap (fun d =>
    let s := t.strides.getD d 0
    caqEqual 229 p it (s % 8 : Nat) 0 ++
    caqLeast 229 p it s (if d = 0 then rowBytes t.format (t.ext 0) else t.strides.getD (d - 1) 0 * t.ext d)) ++
  caqMost 229 p it (t.addr + caqSpan t) (caqSpace im t.space)

/-! ### Windows in time (R243, R259, R260) -/

/-- The planned end of a window from T_k, in ns. -/
def caqEnd (w : WindowRec) : Int := w.openNs + w.durNs

/-- The watchdog expiry of a window from T_k (R248), in hundredths of a ns. -/
def caqExpiry (w : WindowRec) : Int := 100 * w.openNs + 105 * w.durNs

/-- Two windows overlap in time, the second one moved by `shift` ns. -/
def caqOverlap (shift : Int) (a b : WindowRec) : Bool :=
  decide (a.openNs < caqEnd b + shift) && decide (b.openNs + shift < caqEnd a)

/-- What a plan gives a window to run on: its groups, the Chambray unit of a window, and the Serge unit of a slot. -/
structure CaqPlan where
  windows : List WindowRec
  groups : List GroupRec
  chbUnit : Nat → Option Nat
  srgUnit : Nat → Option Nat

/-- The operation whose windows hold window w, and the unit that runs it (R188, R191). -/
def caqChbUnit (im : Image) (mode w : Nat) : Option Nat :=
  (caqFind mode im.grids).bind (fun g => g.ops.findSome? (fun o =>
    if caqIn o.window w (o.window + o.units.length - 1) && decide (0 < o.units.length) then o.units[w - o.window]? else none))

/-- The unit of a slot. -/
def caqSrgUnit (im : Image) (g : Nat) : Option Nat := (caqFind g im.serge.slots).map (·.unit)

/-- A mode as a plan. -/
def caqPlanOf (im : Image) (j : Nat) (m : ModeRec) : CaqPlan :=
  { windows := m.windows, groups := m.groups, chbUnit := caqChbUnit im j, srgUnit := caqSrgUnit im }

/-- Burlap's plan as a plan: no Chambray window. -/
def caqBurlapPlan (im : Image) : CaqPlan :=
  { windows := im.burlap.windows, groups := im.burlap.groups, chbUnit := fun _ => none, srgUnit := caqSrgUnit im }

/-- Two windows want one core or unit (R237, TP04 of R263). -/
def caqClash (p q : CaqPlan) (a b : WindowRec × Nat) : Bool :=
  if kindOnCores a.1.kind && kindOnCores b.1.kind then
    match p.groups[a.1.target]?, q.groups[b.1.target]? with
    | some g, some h => decide (g.die = h.die) && g.clusters.any (h.clusters.contains ·) && g.cores.any (h.cores.contains ·)
    | _, _ => true
  else match a.1.kind, b.1.kind with
    | .tweed, .tweed => true
    | .chambray, .chambray => decide (p.chbUnit a.2 = q.chbUnit b.2)
    | .serge, .serge => decide (p.srgUnit a.1.target = q.srgUnit b.1.target)
    | _, _ => false

/-- No two windows overlap on one core or unit, within a tick and from a tick to the next (TP04). Steps of one Tweed engine that
sample together share a window, so two of its windows always clash. -/
def caqApart (place : CaqPlace) (pNs : Int) (p : CaqPlan) : List CaqFinding :=
  let ws := p.windows.zipIdx
  ws.flatMap (fun a => caqNeed 263 place (.window a.2) (ws.all (fun b => !caqClash p p a b ||
    ((decide (a.2 = b.2) || !caqOverlap 0 a.1 b.1) && !caqOverlap pNs a.1 b.1))))

/-- The windows of a mode's last tick, extended by their 5 %, do not overlap those of the first tick of a mode that it may switch
to (TP04, R253). -/
def caqApartNext (place : CaqPlace) (pNs : Int) (p q : CaqPlan) : List CaqFinding :=
  p.windows.zipIdx.flatMap (fun a => caqNeed 253 place (.window a.2) (q.windows.zipIdx.all (fun b => !caqClash p q a b ||
    !(decide (100 * a.1.openNs < 100 * (caqEnd b.1 + pNs)) && decide (100 * (b.1.openNs + pNs) < caqExpiry a.1)))))

/-- A window record's own fields (R242, R243), its place in the tick (TP02), its program and target. The program's cycles run at
1.2 GHz, at 1.0 GHz on Burlap (R202): `num` windows ns hold `den` cycles. -/
def caqWindowOk (im : Image) (p : CaqPlace) (m : ModeRec) (edges : List EdgeRec) (groups num den : Nat) (i : Nat) (w : WindowRec) :
    List CaqFinding :=
  let it := CaqItem.window i
  caqLeast 243 p it w.durNs 1000 ++ caqLeast 260 p it w.openNs (-caqDNs m) ++
  caqMost 260 p it (caqExpiry w) (100 * (2 * caqPNs m - caqDNs m) - 1) ++ caqMost 206 p it (w.tallyFirst + w.tallyCount) 256 ++
  caqMost 243 p it (w.edgeFirst + w.edgeCount) edges.length ++
  caqNeed 243 p it (((edges.drop w.edgeFirst).take w.edgeCount).all (fun e => decide (e.consumer = i))) ++
  (match w.kind, w.program with
   | .core, some q => (match caqFind q im.programs with
     | some r => caqMost 259 p it (r.maxCycles * num) (den * w.durNs)
     | none => caqNeed 243 p it false)
   | .core, none => caqNeed 243 p it false
   | _, q => caqNeed 243 p it q.isNone) ++
  (if kindOnCores w.kind || decide (w.kind = .staging) then caqMost 243 p it w.target (groups - 1 : Int) else []) ++
  (if w.kind = .serge then caqNeed 243 p it (im.serge.slots.any (fun s => decide (s.1 = w.target))) else [])

/-- An edge (R240, R260): barriers wait for the planned end; a stream's consumer opens with its producer at the earliest and ends past
the producer's expiry by 1 µs at least; an edge from the tick before has its producer's expiry before the opening. -/
def caqEdge (p : CaqPlace) (pNs : Int) (windows : List WindowRec) (descs : Nat) (i : Nat) (e : EdgeRec) : List CaqFinding :=
  let it := CaqItem.edge i
  caqMost 244 p it e.inputDesc (descs - 1 : Int) ++ caqMost 244 p it e.tally 255 ++
  (match e.viaDie with | some d => caqMost 244 p it d 3 | none => []) ++
  (match windows[e.producer]?, windows[e.consumer]? with
   | some a, some c =>
     if e.prevTick then caqMost 260 p it (caqExpiry a - 100 * pNs) (100 * c.openNs - 1)
     else if e.stream then caqLeast 260 p it c.openNs a.openNs ++ caqLeast 260 p it (100 * caqEnd c) (caqExpiry a + 100000)
     else caqLeast 260 p it c.openNs (caqEnd a)
   | _, _ => caqNeed 244 p it false)

/-- A chain of edges of one tick leads from a window to a TRANSMIT window (R262). -/
def caqReaches (m : ModeRec) : Nat → Nat → Bool
  | 0, _ => false
  | fuel + 1, i => m.edges.any (fun e => decide (e.producer = i) && !e.prevTick &&
      ((match m.windows[e.consumer]? with | some c => decide (c.kind = .transmit) | none => false) || caqReaches m fuel e.consumer))

/-- Windows that lie on no output's path (R16, R262): those of SCAN and CALIB slots, HOST, RECOMPUTE, STAGING and GOLDEN. -/
def caqOffPath (im : Image) (w : WindowRec) : Bool :=
  match w.kind with
  | .serge => (match caqFind w.target im.serge.slots with | some s => decide (s.cls ≠ .ego) | none => false)
  | .host | .recompute | .staging | .golden => true
  | _ => false

/-- A stream's gate and its ingest latency from T_k (R260), in ns. -/
def caqGate (e : StreamEntry) : Int := 1000 * e.gateUs + (if e.kind = .egoInput then 0 else 50000)

/-- The latest of the gates of a mode's streams (R260, R262), none without one. -/
def caqLastGate (im : Image) (mode : Nat) (p : StreamEntry → Bool) : Option Int :=
  ((caqUses im mode).filter (fun e => p e.2)).foldl (fun g e =>
    match g with | none => some (caqGate e.2) | some g => some (max g (caqGate e.2))) none

/-- The output paths of a mode (R16, R262, TP07): no window on one after the last gate is longer than POST_GATE_MAX_NS, and no
window that lies off every path is on one; the longest such window is reported. -/
def caqPostGate (im : Image) (j : Nat) (m : ModeRec) : List CaqFinding :=
  let most := if m.postGateMaxNs = 0 then 6000000 else m.postGateMaxNs
  let on (i : Nat) : Bool := caqReaches m m.windows.length i
  caqEach m.windows (fun i w => caqNeed 262 (.mode j) (.window i) (!(caqOffPath im w && on i))) ++
  (match caqLastGate im j (fun _ => true) with
   | none => []
   | some g =>
     caqEach m.windows (fun i w => if w.openNs < g || !on i then [] else caqMost 262 (.mode j) (.window i) w.durNs most) ++
     caqReport 263 (.mode j) .all (caqMax (fun w => if w.1.openNs < g || !on w.2 then 0 else w.1.durNs) m.windows.zipIdx))

/-- The whole of a stream's contribution is read by the TWEED and CHAMBRAY windows, and of a POINT stream by every window whose
STREAM_MASK names it: they open past its gate (R59, R192, R260, TP06). -/
def caqGates (im : Image) (p : CaqPlace) (j : Nat) (windows : List WindowRec) : List CaqFinding :=
  caqEach windows (fun i w => (caqUses im j).flatMap (fun e =>
    let whole := match w.kind with
      | .tweed => decide (e.2.kind = .point)
      | .chambray => decide (e.2.kind = .point) || (decide (e.2.kind = .rowBand) && w.streams.contains e.1)
      | .core => decide (e.2.kind = .point) && w.streams.contains e.1
      | _ => false
    if !whole then [] else (caqLeast 59 p (.stream e.1) w.openNs (caqGate e.2)).map (fun f => { f with item := .window i }) ++
      caqLeast 59 p (.stream e.1) w.openNs (caqGate e.2)))

/-! ### Groups, partitions and weights (R237, R238, R244, R245, R251) -/

/-- Groups lie within one die and one partition (TP09). -/
def caqGroup (p : CaqPlace) (m : ModeRec) (i : Nat) (g : GroupRec) : List CaqFinding :=
  caqMost 244 p (.group i) g.die 5 ++
  (match m.parts[g.part]? with
   | some q => caqEqual 237 p (.group i) q.die g.die ++ caqNeed 237 p (.group i) (decide (4 ≤ g.die) || g.clusters.all (q.clusters.contains ·))
   | none => caqNeed 244 p (.group i) false)

/-- The partitions of a die do not overlap, and one of a memory-side die holds the whole die (R244). -/
def caqPartition (p : CaqPlace) (m : ModeRec) (i : Nat) (a : PartRec) : List CaqFinding :=
  caqMost 244 p (.partition i) a.die 5 ++ caqNeed 244 p (.partition i) (decide (a.die < 4) || a.clusters.isEmpty) ++
  caqNeed 244 p (.partition i) (m.parts.zipIdx.all (fun b => decide (i = b.2) || decide (a.die ≠ b.1.die) ||
    (!a.clusters.any (b.1.clusters.contains ·) && decide (a.die < 4) && !(a.chambray && b.1.chambray))))

/-- The bytes of a cluster's SRAM below both overlay banks (R241). -/
def caqBelow (im : Image) : Nat := 4194304 - im.plan.ovlBytes0 - im.plan.ovlBytes1

/-- A staged mode's DEST lies in its overlay bank, a resident one's outside both (R251). -/
def caqOverlay (im : Image) (m : ModeRec) (t : Tensor) : Bool :=
  let e := t.addr + caqSpan t
  if !m.staged then decide (t.space ≠ .cluster) || decide (e ≤ caqBelow im)
  else decide (t.space = .cluster) &&
    (if m.ovlBank = 0 then decide (4194304 - im.plan.ovlBytes0 ≤ t.addr) && decide (e ≤ 4194304)
     else decide (caqBelow im ≤ t.addr) && decide (e ≤ 4194304 - im.plan.ovlBytes0))

/-- A weight placement: a blob of the DEST's format and span, in core-local or cluster SRAM of a compute die (R238, R244,
R245, TP08). -/
def caqWeight (im : Image) (j : Nat) (m : ModeRec) (i : Nat) (w : WeightRec) : List CaqFinding :=
  let it := CaqItem.placement i
  match caqFind w.blob im.blobs, m.descs[w.dest]? with
  | some b, some t =>
    (caqEqual 245 (.mode j) (.blob w.blob) b.bytes.length (caqSpan t)) ++ caqNeed 245 (.mode j) (.blob w.blob) (decide (b.format = t.format)) ++
    caqMost 238 (.mode j) it t.die 3 ++ caqNeed 244 (.mode j) it (decide (t.space = .coreLocal) || decide (t.space = .cluster)) ++
    caqNeed 251 (.mode j) it (caqOverlay im m t) ++
    (match w.stageSrc with
     | none => caqNeed 244 (.mode j) it (!m.staged)
     | some s => caqNeed 244 (.mode j) it (m.staged && (match m.descs[s]? with | some t => decide (t.space = .memSide) | none => false)))
  | _, _ => caqNeed 244 (.mode j) it false

/-- Burlap's placements name blobs of part 0 in IOD cluster SRAM or core-local SRAM (R245, R389). -/
def caqBurlapWeight (im : Image) (i : Nat) (w : WeightRec) : List CaqFinding :=
  match caqFind w.blob im.blobs, im.burlap.descs[w.dest]? with
  | some b, some t =>
    caqEqual 245 .burlap (.blob w.blob) b.bytes.length (caqSpan t) ++ caqNeed 245 .burlap (.blob w.blob) (decide (b.format = t.format)) ++
    caqEqual 245 .burlap (.blob w.blob) b.part 0 ++ caqEqual 244 .burlap (.placement i) t.die 6
  | _, _ => caqNeed 244 .burlap (.placement i) false

/-- The blobs of section 0x22 lie within their part and do not overlap (R245). -/
def caqBlobs (im : Image) : List CaqFinding :=
  [0, 1].flatMap (fun part => match partBytes im 0x22 part with
    | none => []
    | some b =>
      let first := if part = 0 then 0 else wordAt ((partBytes im 0x22 0).getD []) 4
      let rs := (tableAt b (wordAt b 8) 0x10 (wordAt b 4)).map (fun e => (first + e.1, wordAt e.2 0, wordAt e.2 4))
      caqEqual 245 .image (.section_ 0x22) (wordAt b 8) 0x40 ++ caqEqual 245 .image (.section_ 0x22) (fieldAt b 0 16 1) part ++
      rs.flatMap (fun x => caqMost 245 .image (.blob x.1) (x.2.1 + x.2.2) b.length ++ caqEqual 245 .image (.blob x.1) (x.2.1 % 64 : Nat) 0 ++
        caqNeed 245 .image (.blob x.1) (rs.all (fun y => decide (x.1 = y.1) || decide (x.2.1 + x.2.2 ≤ y.2.1) || decide (y.2.1 + y.2.2 ≤ x.2.1)))))

/-- The words of programs with their places. -/
def caqWords (l : List (Nat × Nat × Program)) : Nat := caqSum (fun e => e.2.2.code.length) l

/-- What a core's instruction memory holds at any time fits its 2,048 words (R202, R246, TP12). -/
def caqInstr (im : Image) : List CaqFinding :=
  im.programs.flatMap (fun p => caqRange 202 .image (.program p.1) 1 p.2.code.length 2048) ++
  (List.range 132).flatMap (fun cl => (List.range 64).flatMap (fun co =>
    caqMost 246 .image (.core cl co) (caqWords (residents im cl co) + im.plan.ovlWords0 + im.plan.ovlWords1) 2048 ++
    caqModesEach im (fun j m => if !m.staged then [] else
      caqMost 246 (.mode j) (.core cl co) (caqWords (overlays im m cl co)) (if m.ovlBank = 0 then im.plan.ovlWords0 else im.plan.ovlWords1))))

/-- Resident fallbacks, and no switch between two staged modes of one bank; the STAGING windows of two ticks carry what a staged mode
loads at 0.8 of a die link's rate (R211, R251, R255, TP13). -/
def caqModes (im : Image) (j : Nat) (m : ModeRec) : List CaqFinding :=
  (match m.fallback with
   | none => []
   | some i => match caqFind i im.plan.modes with | some x => caqNeed 255 (.mode j) .all (!x.staged) | none => caqNeed 242 (.mode j) .all false) ++
  m.transitions.flatMap (fun i => match caqFind i im.plan.modes with
    | some x => caqNeed 251 (.mode j) (.transition i) (decide (i = j) || !(m.staged && x.staged && decide (m.ovlBank = x.ovlBank)))
    | none => caqNeed 242 (.mode j) (.transition i) false) ++
  caqMost 242 (.mode j) .all m.ovlBank 1 ++ (if m.staged then [] else caqEqual 242 (.mode j) .all m.stageBytes 0)

/-- Exactly one GOLDEN window of at most 400 µs, during which no window uses a compute cluster (R258, TP14). -/
def caqGolden (j : Nat) (m : ModeRec) : List CaqFinding :=
  let gs := m.windows.zipIdx.filter (fun w => decide (w.1.kind = .golden))
  caqEqual 258 (.mode j) .all gs.length 1 ++
  gs.flatMap (fun g => caqMost 258 (.mode j) (.window g.2) g.1.durNs 400000 ++
    caqEach m.windows (fun i w => caqNeed 258 (.mode j) (.window i) (!(kindOnCores w.kind || decide (w.kind = .staging)) || decide (w.kind = .golden) ||
      [0, caqPNs m, -caqPNs m].all (fun s => !caqOverlap s g.1 w))))

/-- The lane budgets of all ports fit a mode's HOST windows, whose capacity is cores × DUR_NS (R257, R242). -/
def caqLanes (im : Image) (j : Nat) (m : ModeRec) : List CaqFinding :=
  caqMost 257 (.mode j) .all (caqSum (fun p => caqSum (·.budgetUs) p.lanes) im.host.ports) m.hostCoreUs ++
  caqMost 257 (.mode j) .all m.hostCoreUs (caqSum (fun w => if w.kind ≠ .host then 0 else
    match m.groups[w.target]? with | some g => g.clusters.length * g.cores.length * w.durNs | none => 0) m.windows / 1000)

/-- A window carries an output of the safety link. -/
def caqLinked (w : WindowRec) : Bool := w.outputs.any (fun o => decide (o = .objectList) || decide (o = .drivable))

/-- The start bound of a safety-link TRANSMIT window in ns (R368): a frame in flight, two Fault Notices, and the Status and the Ego
State of a minor tick, each at its greatest length; for the Drivable Space also the Object List, where it is released at the same
instant or still waiting. -/
def caqStartBound (m : ModeRec) (w : WindowRec) : Nat :=
  let base := 12300 + 2 * 900
  let minors := 1200 + 4700
  -- a minor tick boundary within the wait: at the release, or up to 20 µs before it
  let phase := (w.openNs + caqDNs m) % (1000 * caqMinor m)
  let here := base + (if phase ≤ 20000 then minors else 0)
  if !w.outputs.contains .objectList && m.windows.any (fun o => decide (o.kind = .transmit) && o.outputs.contains .objectList &&
      decide (o.openNs ≤ w.openNs) && decide (w.openNs < o.openNs + 20000 + 295200)) then here + 295200 else here

/-- Each TRANSMIT window follows the ASSEMBLY windows of its outputs, with the time that Felt's checks take after the seal; L_NS is the
largest latency bound of the safety link's outputs; a safety-link window's DUR_NS is its start bound in µs (R261, R368, R383, TP15).
Every output's latency bound is reported. -/
def caqTransmit (j : Nat) (m : ModeRec) : List CaqFinding :=
  let ts := m.windows.zipIdx.filter (fun w => decide (w.1.kind = .transmit))
  ts.flatMap (fun t => t.1.outputs.flatMap (fun o => caqReport 261 (.mode j) (.output o) t.1.openNs ++
    (match m.windows.find? (fun a => decide (a.kind = .assembly) && a.outputs.contains o) with
     | none => caqNeed 263 (.mode j) (.window t.2) false
     | some a => if caqLinked t.1 then caqLeast 383 (.mode j) (.window t.2) (100 * t.1.openNs) (100 * caqEnd a + 5 * a.durNs + 10000000)
       else caqLeast 263 (.mode j) (.window t.2) t.1.openNs (caqEnd a)))) ++
  ts.flatMap (fun t => if !caqLinked t.1 then [] else
    let bound := caqCeil (caqStartBound m t.1) 1000 * 1000
    caqMost 368 (.mode j) (.window t.2) bound 500000 ++ caqEqual 368 (.mode j) (.window t.2) t.1.durNs bound) ++
  caqEqual 261 (.mode j) .all m.lNs ((ts.filter (fun t => caqLinked t.1)).foldl (fun (n : Int) t => max n t.1.openNs) 0)

/-- The restart duration of a partition under R431, in ns: 64 bytes a ns. -/
def caqRestartNs (im : Image) (m : ModeRec) (die : Nat) (clusters : List Nat) : Nat :=
  let bytes := caqSum (fun x => caqSum (fun w =>
    match caqFind w.blob im.blobs, x.2.descs[w.dest]? with
    | some b, some t => if !x.2.staged && decide (t.die = die) && clusters.contains t.cluster then b.bytes.length else 0
    | _, _ => 0) x.2.weights) im.plan.modes
  3000000 + bytes / 64 + caqMinor m * 1000 + m.pMs * 1000000 + (if die < 4 then 0 else 30000000)

/-- The counts of R242 (TP16). -/
def caqCounts (j : Nat) (m : ModeRec) : List CaqFinding :=
  let r (lo x hi : Int) := caqRange 242 (.mode j) .all lo x hi
  r 1 m.windows.length 65535 ++ r 1 m.groups.length 4096 ++ r 1 m.parts.length 64 ++ r 0 m.edges.length 262144 ++
  r 1 m.descs.length 16384 ++ r 0 m.weights.length 65535

/-- The slack of a window to its first consumer of the same tick, reported (R263). -/
def caqSlack (j : Nat) (m : ModeRec) : List CaqFinding :=
  caqEach m.windows (fun i w =>
    match (m.edges.filter (fun e => decide (e.producer = i) && !e.prevTick)).filterMap (fun e => m.windows[e.consumer]?) with
    | [] => []
    | c :: cs => caqReport 263 (.mode j) (.window i) (cs.foldl (fun n x => min n x.openNs) c.openNs - caqEnd w))

/-- One mode of section 0x20. -/
def caqMode (im : Image) (j : Nat) (m : ModeRec) : List CaqFinding :=
  let p := caqPlanOf im j m
  let place := CaqPlace.mode j
  caqMost 241 place .all j 15 ++ caqTick place m ++ caqCounts j m ++ caqModes im j m ++
  caqEach m.windows (caqWindowOk im place m m.edges m.groups.length 5 6) ++ caqApart place (caqPNs m) p ++
  caqEach m.edges (caqEdge place (caqPNs m) m.windows m.descs.length) ++ caqPostGate im j m ++ caqGates im place j m.windows ++
  caqEach m.groups (caqGroup place m) ++ caqEach m.parts (caqPartition place m) ++ caqEach m.descs (caqTensor im place) ++
  caqEach m.weights (caqWeight im j m) ++ caqGolden j m ++ caqLanes im j m ++ caqTransmit j m ++ caqSlack j m ++
  caqEach m.parts (fun i q => caqMost 431 place (.partition i) (caqRestartNs im m q.die q.clusters) 300000000) ++
  m.transitions.flatMap (fun i => match caqFind i im.plan.modes with
    | some x => caqApartNext place (caqPNs m) p (caqPlanOf im i x)
    | none => [])

/-- Section 0x20: INITIAL_MODE is present, every mode has the same P, N and D, and the overlay banks fit (R241, R246, R263). -/
def caqPlanSection (im : Image) : List CaqFinding :=
  let s := im.plan
  caqRange 241 .image (.section_ 0x20) 1 s.modes.length 16 ++ caqNeed 241 .image (.section_ 0x20) (s.modes.any (fun x => decide (x.1 = s.initialMode))) ++
  (match partBytes im 0x20 0 with
   | some b => caqEqual 241 .image (.section_ 0x20) (fieldAt b 0 16 8) s.modes.length
   | none => []) ++
  caqEqual 241 .image (.section_ 0x20) (s.ovlBytes0 % 65536 : Nat) 0 ++ caqEqual 241 .image (.section_ 0x20) (s.ovlBytes1 % 65536 : Nat) 0 ++
  caqMost 241 .image (.section_ 0x20) (s.ovlBytes0 + s.ovlBytes1) 4194304 ++
  caqModesEach im (fun j m => caqMode im j m ++ (match s.modes.head? with
    | some x => caqEqual 246 (.mode j) .all m.pMs x.2.pMs ++ caqEqual 246 (.mode j) .all m.n x.2.n ++ caqEqual 246 (.mode j) .all m.dMinor x.2.dMinor
    | none => [])) ++
  caqMost 263 .image .all (caqMax (fun b => b.2.model + 1) im.blobs) 256 ++ caqInstr im ++ caqBlobs im

end Sys2Proof.Machine
end

