-- ==== Sys2Proof/Machine/CaquecoEngines.lean ====
section
/-!
DEFINITION. What Caqueco checks of the engines (spec/07, spec/08, spec/12, spec/13): Damask's classes 0x23, the Serge definitions 0x24,
Tweed 0x25 and Chambray 0x26.
-/

namespace Sys2Proof.Machine

open Sys2Proof

/-! ### The memory-side SRAM (R20, R173, R290) -/

/-- What the main Tweed engine holds in M0 (R144, R155, R157): the hash table and its bitmap, the cell records of the largest mode,
and two point stores. -/
def caqTweedBytes (im : Image) : Nat :=
  2 ^ 21 * 12 + 2 ^ 21 / 8 + 64 * caqMax (fun x => caqSum id (x.2.levelCellMax.take x.2.levels)) im.tweed.main + 2 * 32 * im.tweed.storePoints

/-- The memory-side buffers of a plan's descriptors on a half, but for what lies in the Damask pool. -/
def caqBuffers (im : Image) (m : ModeRec) (h : Nat) : Nat :=
  let pool := im.damask.poolBase.getD h 0
  let end_ := pool + im.damask.poolPages.getD h 0 * 65536
  caqCovered ((m.descs.filter (fun t => decide (t.space = .memSide) && decide (t.die = 4 + h) && !(decide (pool ≤ t.addr) && decide (t.addr < end_)))).map
    (fun t => (t.addr, caqSpan t)))

/-- The resident set of a half's SRAM in a mode: Tweed on M0, the Damask pool, and the mode's other buffers. -/
def caqResident (im : Image) (m : ModeRec) (h : Nat) : Nat :=
  (if h = 0 then caqTweedBytes im else 0) + im.damask.poolPages.getD h 0 * 65536 + caqBuffers im m h

/-- The memory-side SRAM of a mode fits, and its use is reported (R20, R173, R290). -/
def caqMemSide (im : Image) : List CaqFinding :=
  caqModesEach im (fun j m => [(0, CaqRegion.m0Sram), (1, CaqRegion.m1Sram)].flatMap (fun x =>
    caqReport 173 (.mode j) (.region x.2) (caqResident im m x.1) ++ caqMost 173 (.mode j) (.region x.2) (caqResident im m x.1) (768 * 1048576)))

/-! ### Tweed (R150, R156, R160, R162, R166, R170 to R173) -/

/-- The times of a query's two paths at capacity (R160), in ns, for the divisor of the engine. -/
def caqQueryPaths (r : TweedRec) (div : Nat) (q : QueryRec) : Nat × Nat :=
  let k := kernelSize q.kernel
  let a := r.levelCellMax.getD q.inLevel 0
  let b := r.levelCellMax.getD q.outLevel 0
  (caqCeil (b * k * q.probeBound) div, caqCeil ((4 + k) * (a + b) + k * b) div)

/-- The planned work of a query at capacity (R160). -/
def caqQueryNs (r : TweedRec) (div : Nat) (q : QueryRec) : Nat := max (caqQueryPaths r div q).1 (caqQueryPaths r div q).2 + 2000

/-- The bytes of a query's rule book at capacity (R159). -/
def caqRuleBook (r : TweedRec) (q : QueryRec) : Nat := 0x100 + 8 * kernelSize q.kernel * r.levelCellMax.getD q.outLevel 0

/-- The planned work of a sampling instance at capacity (R162), in ns. -/
def caqFpsNs (f : FpsRec) : Nat := caqCeil f.candMax 16 + f.samples * (caqCeil f.candMax f.lanes + 12)

/-- The work of scatter at the rates of R144, in ns: source cells, and bytes of the grid. -/
def caqScatterNs (r : TweedRec) (g : GridRec) (cells bytes : Nat) : Nat :=
  let size := g.w * g.h * r.scatter.length * (if r.scatterBf16 then 2 else 1)
  max (caqCeil (r.levelCellMax.getD r.scatterLevel 0) cells) (caqCeil size bytes)

/-- A query's levels agree with its kernel (R156). -/
def caqQuery (p : CaqPlace) (fb : Bool) (r : TweedRec) (div i : Nat) (q : QueryRec) : List CaqFinding :=
  let it := CaqItem.query fb i
  caqMost 172 p it q.kernel 3 ++ caqRange 172 p it 1 q.probeBound 8 ++ caqMost 173 p it q.inLevel (r.levels - 1 : Int) ++
  caqMost 173 p it q.outLevel (r.levels - 1 : Int) ++
  (match q.kernel with
   | 0 | 1 => caqEqual 156 p it q.outLevel q.inLevel
   | 2 => caqEqual 156 p it q.outLevel (q.inLevel + 1)
   | _ => caqEqual 156 p it (q.outLevel + 1) q.inLevel) ++
  caqReport 173 p it (caqQueryPaths r div q).1 ++ caqReport 173 p it (caqQueryPaths r div q).2 ++ caqReport 173 p it (caqRuleBook r q)

/-- A bound of the ROI lies in the key range of an axis (R150): its index with the bias lies in the field. -/
def caqKey (voxel bound : F32) (bias : Nat) : Bool :=
  let i := (f32Value bound).floorDiv (f32Value voxel) + bias
  decide (0 ≤ i) && decide (i < 2 * bias)

/-- The limits of an engine (R144, R160): cells, sampling instances, candidates, samples, distance lanes, the divisor of a query, and the
cells and bytes of scatter in a cycle. -/
structure CaqEngine where
  fb : Bool
  cells : Nat
  insts : Nat
  cands : Nat
  samples : Nat
  lanes : Nat
  div : Nat
  scatterCells : Nat
  scatterBytes : Nat

/-- The main engine and the fallback engine. -/
def caqMainEngine : CaqEngine := ⟨false, 1048576, 8, 65536, 8192, 1024, 16, 4, 512⟩
def caqFbEngine : CaqEngine := ⟨true, 262144, 2, 16384, 2048, 256, 4, 1, 128⟩

/-- An engine record (R171 to R173). -/
def caqTweedRec (p : CaqPlace) (g : CaqEngine) (r : TweedRec) : List CaqFinding :=
  let it := CaqItem.engine g.fb
  if !r.enable then [] else
  caqRange 171 p it 1 r.levels 4 ++
  caqNeed 171 p it ([r.voxel.x, r.voxel.y, r.voxel.z].all (fun v => f32Le 0x3D4CCCCD v && f32Le v 0x3FCCCCCD)) ++
  caqNeed 149 p it (f32Gt r.roiMax.x r.roiMin.x && f32Gt r.roiMax.y r.roiMin.y && f32Gt r.roiMax.z r.roiMin.z) ++
  caqNeed 173 p it ([r.roiMin.x, r.roiMax.x].all (fun b => caqKey r.voxel.x b 524288) &&
    [r.roiMin.y, r.roiMax.y].all (fun b => caqKey r.voxel.y b 524288) && [r.roiMin.z, r.roiMax.z].all (fun b => caqKey r.voxel.z b 32768)) ++
  caqMost 173 p it (caqSum id (r.levelCellMax.take r.levels)) g.cells ++ caqMost 171 p it r.queries.length 32 ++
  caqEach r.queries (caqQuery p g.fb r g.div) ++ caqMost 171 p it r.fps.length g.insts ++ caqMost 171 p it r.scatter.length 48 ++
  caqMost 171 p it r.scatterLevel (r.levels - 1 : Int) ++ r.scatter.flatMap (fun s => caqMost 172 p it s.source 7) ++
  caqEach r.fps (fun i f =>
    let x := CaqItem.fps g.fb i
    caqRange 172 p x 1 f.candMax g.cands ++ caqRange 172 p x 1 f.samples g.samples ++ caqRange 172 p x 64 f.lanes g.lanes ++
    caqEqual 172 p x (f.lanes % 64 : Nat) 0 ++ (if f.points then [] else caqMost 173 p x f.level (r.levels - 1 : Int)))

/-- A window of a Tweed step covers its work at capacity, and the instances that share it share the lanes (R173, R259). For the insertion
step no rule that R173 names gives a duration. -/
def caqStep (p : CaqPlace) (g : CaqEngine) (r : TweedRec) (grid : Option GridRec) (i : Nat) (w : WindowRec) : List CaqFinding :=
  if w.kind ≠ .tweed then [] else
  let it := CaqItem.window i
  match w.step with
  | .insertion => []
  | .query q => (match r.queries[q]? with | some x => caqLeast 173 p it w.durNs (caqQueryNs r g.div x) | none => caqNeed 173 p it false)
  | .fps is =>
    let fs := is.filterMap (fun i => r.fps[i]?)
    caqEqual 173 p it fs.length is.length ++ caqMost 173 p it (caqSum (·.lanes) fs) g.lanes ++ fs.flatMap (fun f => caqLeast 173 p it w.durNs (caqFpsNs f))
  | .scatter => (match grid with
    | some x => caqLeast 173 p it w.durNs (caqScatterNs r x g.scatterCells g.scatterBytes)
    | none => caqNeed 173 p it false)

/-- A window reads Tweed's outputs in Tweed-side memory: through an input edge whose descriptor is a rule book's, a sampling's or the
point list's and lies on M0, or as the point list of PAINT (R166). -/
def caqReadsTweed (m : ModeRec) (g : Option GridRec) (r : TweedRec) (i : Nat) : Bool :=
  let dests := r.pointsDest :: (r.queries.map (·.dest) ++ r.fps.map (·.dest))
  let there (d : Nat) : Bool := dests.contains d && (match m.descs[d]? with | some t => decide (t.space = .memSide) && decide (t.die = 4) | none => false)
  m.edges.any (fun e => decide (e.consumer = i) && !e.prevTick && there e.inputDesc) ||
  (match g with
   | some g => g.ops.any (fun o => decide (o.op = .paint) && caqIn o.window i (o.window + o.units.length - 1) && there o.aux)
   | none => false)

/-- No window reads the point store, sampling or rule books of tick k past T_(k+2) − W_s of the shortest W_s (R166). -/
def caqHold (im : Image) (j : Nat) (m : ModeRec) (r : TweedRec) : List CaqFinding :=
  match ((caqUses im j).filter (fun e => decide (e.2.kind = .point))).map (fun e => caqWindow m e.2) with
  | [] => []
  | w :: ws =>
    let shortest := ws.foldl min w
    caqEach m.windows (fun i x => if !caqReadsTweed m (caqFind j im.grids) r i then [] else
      caqMost 166 (.mode j) (.window i) (caqEnd x) (2 * caqPNs m - 1000 * shortest))

/-- Section 0x25 (R170 to R173): both engines, in every mode that uses POINT streams. -/
def caqTweed (im : Image) : List CaqFinding :=
  let s := im.tweed
  (if s.sliceUs = 0 then [] else caqRange 170 .image (.section_ 0x25) 250 s.sliceUs 4000) ++
  caqMost 170 .image (.section_ 0x25) s.storePoints 2097152 ++ caqMost 170 .image (.section_ 0x25) s.storePointsFb 524288 ++
  caqModesEach im (fun j m =>
    let es := (caqUses im j).filter (fun e => decide (e.2.kind = .point))
    let us := es.map (fun e => caqPoints e.2)
    let grid := caqFind j im.grids
    if es.isEmpty then [] else
    caqMost 173 (.mode j) (.engine false) (caqSum (·.2.1) us) s.storePoints ++ caqMost 173 (.mode j) (.engine true) (caqSum (·.2.2) us) s.storePointsFb ++
    (match caqFind j s.main with
     | some a => caqTweedRec (.mode j) caqMainEngine a ++ caqEach m.windows (caqStep (.mode j) caqMainEngine a grid) ++ caqHold im j m a
     | none => caqNeed 170 (.mode j) (.engine false) false) ++
    (match caqFind j s.fb with
     | some b => caqTweedRec (.mode j) caqFbEngine b ++ (caqEach im.burlap.windows (caqStep .burlap caqFbEngine b grid))
     | none => caqNeed 170 (.mode j) (.engine true) false))

/-! ### Chambray (R175, R190 to R192) -/

/-- The bytes of an element of IN_FORMAT or OUT_FORMAT (R191). -/
def caqElem (format : Nat) : Nat := if format = 0 then 1 else 2

/-- The pixels of a camera at a pyramid level. -/
def caqPixels (im : Image) (mode c level : Nat) : Nat :=
  match ((caqUses im mode).find? (fun e => match e.2.src with | .camera _ => decide (e.2.port = c) | _ => false)).map (·.2) with
  | some e => (match e.src with | .camera f => (f.width / 2 ^ level) * (f.height / 2 ^ level) | _ => 0)
  | none => 0

/-- What an operation does at capacity (R175, R192): tile tests, projections (each pass counts once), sampled bytes of output features,
channel additions, and box-camera pairs. The tile-camera pairs of SAMPLE are those of every camera of CAM_MASK, which is at least the number
that R192 counts. -/
structure CaqWork where
  tests : Nat
  projections : Nat
  samples : Nat
  additions : Nat
  boxes : Nat

/-- The elements that a descriptor of a mode holds in its first dimensions past 0: boxes of a box list, points of a point list. -/
def caqRows (m : ModeRec) (d : Nat) : Nat :=
  match m.descs[d]? with | some t => (List.range (t.rank - 1)).foldl (fun n i => n * t.ext (i + 1)) 1 | none => 0

/-- An operation's work at capacity. -/
def caqWork (im : Image) (j : Nat) (m : ModeRec) (g : GridRec) (o : ChbRec) : CaqWork :=
  let cams := o.cams.length
  let bytes := o.channels * caqElem o.inFormat
  match o.op with
  | .sample =>
    let tiles := caqCeil g.w 16 * caqCeil o.rowCount 16
    let shots := g.w * o.rowCount * o.heights.length * cams
    ⟨tiles * cams, 2 * shots, shots * bytes, 0, 0⟩
  | .lift =>
    let bins := if o.topk = 0 then o.dBins else min o.topk o.dBins
    let n := caqSum (fun c => caqPixels im j c o.pyrLevel) o.cams * bins
    ⟨0, n, 0, n * o.channels, 0⟩
  | .paint =>
    let n := caqRows m o.aux * cams
    ⟨0, 2 * n, n * bytes, 0, 0⟩
  | .box => ⟨0, 0, 0, 0, caqRows m o.aux * cams⟩

/-- The time of an operation at capacity on each of its units at the rates of R175, in ns: its stages one after the other. -/
def caqWorkNs (w : CaqWork) (units : Nat) : Nat :=
  let share (n : Nat) : Nat := caqCeil n units
  share w.tests + caqCeil (share w.projections) 32 + max (caqCeil (share w.samples) 256) (caqCeil (4 * share w.samples) 1024) +
  caqCeil (share w.additions) 256 + share w.boxes

/-- The bytes of a die's accumulator stripe (R186): H/4 rows of cells, each of its channels and its weight in FP32. -/
def caqStripe (g : GridRec) (o : ChbRec) : Nat := g.h / 4 * g.w * (o.channels + 1) * 4

/-- An operation record (R191, R192). -/
def caqOp (im : Image) (j : Nat) (m : ModeRec) (g : GridRec) (i : Nat) (o : ChbRec) : List CaqFinding :=
  let p := CaqPlace.mode j
  let it := CaqItem.operation i
  let r (lo x hi : Int) := caqRange 191 p it lo x hi
  let work := caqWork im j m g o
  r 1 o.units.length 4 ++ r 1 o.channels 256 ++ r 0 o.inFormat 2 ++ r 0 o.outFormat 2 ++ r 0 o.reduce 2 ++ r 0 o.dest (m.descs.length - 1) ++
  o.cams.flatMap (fun c => caqNeed 192 p it (im.warp.any (fun w => decide (w.1 = c))) ++
    caqNeed 192 p it ((caqUses im j).any (fun e => match e.2.src with
      | .camera f => decide (e.2.port = c) && decide (o.pyrLevel ≤ f.pyrLevels)
      | _ => false))) ++
  (match o.op with
   | .sample => r 1 o.heights.length 8 ++ caqMost 192 p it (o.rowFirst + o.rowCount) g.h ++ caqNeed 192 p it (o.heights.all (fun h =>
       f32Le g.hbinBase h && !((f32Value g.hbinBase).add ((f32Value g.hbinH).mul { m := g.hbinCount, e := 0 })).lt (f32Value h)))
   | .lift => caqNeed 191 p it (f32Gt o.dMax o.dMin) ++ r 1 o.dBins 128 ++ r 0 o.depthKind 2 ++ r 0 o.topk 16 ++
       o.cams.flatMap (fun c => caqNeed 191 p it (match caqFind c im.warp with | some w => f32Le w.zMin o.dMin | none => false)) ++
       (match m.descs[o.acc]? with
        | some t => caqNeed 192 p it (decide (t.space = .cluster)) ++ caqMost 192 p it (t.addr + caqStripe g o) (caqBelow im) ++
            -- the stripe lies beside the other buffers of its cluster
            caqEach m.descs (fun d x => caqNeed 192 p it (decide (d = o.acc) || decide (x.space ≠ .cluster) || decide (x.die ≠ t.die) ||
              decide (x.cluster ≠ t.cluster) || decide (x.addr + caqSpan x ≤ t.addr) || decide (t.addr + caqSpan t ≤ x.addr)))
        | none => caqNeed 191 p it false)
   | _ => []) ++
  (List.range o.units.length).flatMap (fun n => match m.windows[o.window + n]?, m.windows[o.window]? with
    | some w, some v =>
      caqNeed 191 p it (decide (w.kind = .chambray)) ++ caqEqual 191 p it w.openNs v.openNs ++ caqEqual 191 p it w.durNs v.durNs ++
      caqLeast 192 p it w.durNs (caqWorkNs work o.units.length + 2000) ++
      (caqUses im j).flatMap (fun e =>
        let uses : Bool := match e.2.src with
          | .camera _ => decide (e.2.kind = .rowBand) && o.cams.contains e.2.port
          | _ => decide (e.2.kind = .point)
        if uses then caqLeast 192 p it w.openNs (caqGate e.2) else [])
    | _, _ => caqNeed 191 p it false) ++
  caqReport 192 p it work.projections ++ caqReport 192 p it work.tests ++ (if o.op = .lift then caqReport 192 p it (caqStripe g o) else [])

/-- The grid agrees with the destination of Tweed's scatter in the same mode (R165, R192): W by H cells of its channels. -/
def caqScatterDest (m : ModeRec) (g : GridRec) (r : TweedRec) : Bool :=
  !r.enable || r.scatter.isEmpty || (match m.descs[r.gridDest]? with
    | some t => decide (t.ext 0 * t.ext 1 * t.ext 2 = r.scatter.length * g.w * g.h) && decide (t.format = if r.scatterBf16 then .bf16 else .fp8e4m3)
    | none => false)

/-- Section 0x26 (R190 to R192). -/
def caqGrids (im : Image) : List CaqFinding :=
  im.grids.flatMap (fun x =>
    let g := x.2
    let p := CaqPlace.mode x.1
    caqRange 190 p .grid 256 g.w 2048 ++ caqEqual 190 p .grid (g.w % 64 : Nat) 0 ++ caqRange 190 p .grid 256 g.h 2048 ++
    caqEqual 190 p .grid (g.h % 64 : Nat) 0 ++ caqNeed 190 p .grid (f32Le 0x3D4CCCCD g.pitch && f32Le g.pitch 0x3F4CCCCD) ++
    caqRange 190 p .grid 1 g.hbinCount 32 ++ caqMost 190 p .grid g.ops.length 32 ++
    (match caqFind x.1 im.plan.modes with
     | some m => caqEach g.ops (caqOp im x.1 m g) ++
         (match caqFind x.1 im.tweed.main with | some r => caqNeed 192 p .grid (caqScatterDest m g r) | none => [])
     | none => caqNeed 190 p .grid false))

/-! ### Damask (R269, R290) -/

/-- Section 0x23 (R269, R290). -/
def caqDamask (im : Image) : List CaqFinding :=
  let s := im.damask
  let snap (h : Nat) : Nat × Nat := (s.snapBase.getD h 0, s.snapSlots.getD h 0 * s.snapSlotBytes)
  caqRange 269 .image (.section_ 0x23) 1 s.classes.length 16 ++ caqEqual 269 .image (.section_ 0x23) (s.snapSlotBytes % 64 : Nat) 0 ++
  caqMost 290 .image (.section_ 0x23) (caqSum id s.poolPages) 16384 ++
  [0, 1].flatMap (fun h => caqMost 269 .image (.half h) (s.poolPages.getD h 0) 8192 ++ caqMost 269 .image (.half h) (s.snapSlots.getD h 0) 16384 ++
    caqEqual 269 .image (.half h) (s.poolBase.getD h 0 % 65536 : Nat) 0 ++
    caqMost 290 .image (.half h) (s.poolBase.getD h 0 + s.poolPages.getD h 0 * 65536) (768 * 1048576) ++
    caqMost 290 .image (.half h) ((snap h).1 + (snap h).2) (caqDdrBytes im)) ++
  -- both image copies, 1 GiB in all, and the result stores lie beside the snapshot regions (R361, R487)
  caqMost 487 .image (.region .snapshots) ((snap 0).2 + (snap 1).2 + 2 ^ 30 + 1024 * caqSum (·.resultStoreKib) im.host.ports) (2 * caqDdrBytes im) ++
  s.classes.flatMap (fun c =>
    let i := CaqItem.dmkClass c.1
    caqMost 269 .image i c.2.priority 15 ++ caqRange 269 .image i 1 c.2.retainTicks 8000 ++ caqRange 269 .image i 1 c.2.maxSeq 4096 ++
    caqRange 269 .image i 1 c.2.maxPages 2048 ++ caqEqual 269 .image i (c.2.snapBytes % 8 : Nat) 0 ++
    (if c.2.snapshot then [] else caqEqual 269 .image i c.2.snapBytes 0) ++
    caqNeed 290 .image i (match caqFind c.2.forkClass s.classes with | some d => decide (d.half = c.2.half) | none => false)) ++
  caqMost 290 .image (.section_ 0x23) (caqSum (·.2.maxSeq) s.classes) 4096

/-! ### Serge (R293 to R298, R306, R321) -/

/-- The types of the blocks that a factor of a kind uses (R297); none where they are any one to four. -/
def caqBlocks : Nat → Option (List Nat)
  | 1 => some [4, 4, 5] | 2 => some [4, 0] | 3 => some [4] | 4 => some [4] | 5 => some [4, 1, 0] | 6 => some [4] | 7 => some [4]
  | 8 => some [3, 3, 6] | 9 => some [3, 3, 6, 1] | 10 => some [3, 3] | _ => none

/-- A factor's kind and blocks (R297, R321). -/
def caqFactor (g : Nat) (s : SlotRec) (i : Nat) (f : FactorRec) : List CaqFinding :=
  let it := CaqItem.factor g i
  let types := f.blocks.map (fun b => (s.blocks[b]?).map (·.type))
  caqMost 297 .image it f.kind 11 ++ caqNeed 297 .image it (types.all (·.isSome)) ++
  (match caqBlocks f.kind with
   | some ts => caqNeed 321 .image it (decide (types = ts.map some))
   | none => caqRange 297 .image it 1 f.blocks.length 4)

/-- Cycles of a factor's evaluation by kind (R306). -/
def caqKindCycles (s : SlotRec) (f : FactorRec) : Nat :=
  let n := factorCols s f
  match f.kind with
  | 0 => caqCeil (n * n) 64 + 16
  | 1 => 96
  | 2 | 3 | 4 | 6 => 32
  | 5 | 7 | 10 => 48
  | 8 => 4
  | 9 => 12
  | _ => caqCeil (factorRows s f * n) 16

/-- Evaluation and assembly at capacity (R306), in ns at 1.0 GHz. -/
def caqEvalNs (s : SlotRec) : Nat :=
  caqSum (caqKindCycles s) s.factors + caqCeil (2 * caqSum (fun f => factorRows s f * factorCols s f * factorCols s f) s.factors) 128

/-- The time of an iteration at capacity (R306): evaluation and assembly, t_fact and t_solve. -/
def caqIterNs (s : SlotRec) : Nat := caqEvalNs s + factorNs s + solveNs s

/-- A slot record (R293 to R297). -/
def caqSlot (im : Image) (g : Nat) (s : SlotRec) : List CaqFinding :=
  let ego := decide (s.cls = .ego)
  let it := CaqItem.slot g
  let r (lo x hi : Int) := caqRange 295 .image it lo x hi
  caqNeed 294 .image it (ego == (decide (s.unit = 0) || decide (s.unit = 3))) ++ r 1 s.maxIter 64 ++ r 1 s.spanWindows 63 ++
  (if s.cls = .calib then r 1 s.valIters 8 else caqEqual 295 .image it s.spanWindows 1) ++ (if ego then r 4 s.nw 64 else []) ++
  r 1 s.blocks.length 32768 ++ r 1 s.factors.length 1048576 ++ caqMost 293 .image it s.nnzL 4194304 ++
  caqMost 293 .image it (caqSum (fun b => blockDim b.type) s.blocks) 32768 ++
  caqEach s.blocks (fun i b => caqMost 296 .image (.block g i) b.type 6) ++ caqEach s.factors (caqFactor g s) ++
  (if ego then im.plan.modes.flatMap (fun x => caqNeed 294 (.mode x.1) it (s.modeMask.contains x.1)) ++ caqNeed 295 .image it s.packetDesc.isNone else []) ++
  caqReport 306 .image it (caqEvalNs s) ++ caqReport 306 .image it (factorNs s) ++ caqReport 306 .image it (solveNs s)

/-- The roles that an EGO slot's inputs bring (R115, R298): a signal's code, 32 for a GNSS position, 33 for its velocity. -/
def caqRoles (im : Image) (s : SlotRec) : List Nat :=
  s.inputs.flatMap (fun n => match ((caqFind n im.streams.entries).map (·.src) : Option SourceFields) with
    | some (.imu f) => ((im.streams.sigs.drop f.sigFirst).take f.sigCount).map (·.role)
    | some (.can f) => ((im.streams.sigs.drop f.sigFirst).take f.sigCount).map (·.role)
    | some (.gnss f) => (if f.gga then [32] else []) ++ (if f.rmc then [33] else [])
    | _ => [])

/-- An EGO slot has one SERGE window in every minor tick: from b + CUTOFF_US to b + P/N at the latest, with its iterations
(R306, R321). -/
def caqEgoWindows (p : CaqPlace) (m : ModeRec) (ws : List WindowRec) (g : Nat) (s : SlotRec) : List CaqFinding :=
  let mine := ws.filter (fun w => decide (w.kind = .serge) && decide (w.target = g))
  let cut : Int := 1000 * (if s.cutoffUs = 0 then 100 else s.cutoffUs : Nat)
  let minor : Int := 1000 * caqMinor m
  caqEqual 321 p (.slot g) mine.length m.n ++
  (List.range m.n).flatMap (fun (j : Nat) => caqNeed 321 p (.slot g) (mine.any (fun w =>
    decide (w.openNs = j * minor - caqDNs m + cut) && decide (caqEnd w ≤ (j + 1) * minor - caqDNs m)))) ++
  mine.flatMap (fun w => caqLeast 321 p (.slot g) w.durNs (s.maxIter * caqIterNs s))

/-- The windows of a SCAN or CALIB slot hold its iterations, over the windows that a solve may span, and its packet is written by windows
that end before (R306, R321). -/
def caqSlotWindows (p : CaqPlace) (m : ModeRec) (g : Nat) (s : SlotRec) : List CaqFinding :=
  caqEach m.windows (fun i w => if w.kind ≠ .serge || decide (w.target ≠ g) then [] else
    caqLeast 321 p (.window i) (s.spanWindows * w.durNs) (s.maxIter * caqIterNs s) ++
    m.edges.flatMap (fun e => if decide (e.consumer ≠ i) || e.prevTick || decide (some e.inputDesc ≠ s.packetDesc) then [] else
      match m.windows[e.producer]? with
      | some a => caqMost 321 p (.window i) (caqEnd a) w.openNs
      | none => []))

/-- Section 0x24 (R293 to R298, R306, R321). -/
def caqSerge (im : Image) : List CaqFinding :=
  let ss := im.serge.slots
  let on (u : Nat) := ss.filter (fun x => decide (x.2.unit = u))
  ss.flatMap (fun x => caqSlot im x.1 x.2) ++ caqEqual 294 .image (.section_ 0x24) (on 0).length 1 ++ caqEqual 294 .image (.section_ 0x24) (on 3).length 1 ++
  [0, 1, 2, 3].flatMap (fun u => caqMost 293 .image (.section_ 0x24) (caqSum (fun x => footprint x.2) (on u)) (32 * 1048576)) ++
  caqMost 295 .image (.section_ 0x24) im.serge.noise.length 64 ++ caqEach im.serge.noise (fun i n => caqMost 298 .image (.noise i) n.role 33) ++
  ss.flatMap (fun x => if x.2.cls ≠ .ego then [] else
    (caqRoles im x.2).flatMap (fun r => caqNeed 298 .image (.slot x.1) (decide (r = 0) || decide (r = 22) || decide (r = 30) || decide (r = 31) ||
      im.serge.noise.any (fun n => decide (n.role = r))))) ++
  caqModesEach im (fun j m => ss.flatMap (fun x => match x.2.cls with
    | .ego => if x.2.unit = 3 then caqEgoWindows .burlap m im.burlap.windows x.1 x.2 else caqEgoWindows (.mode j) m m.windows x.1 x.2
    | _ => caqSlotWindows (.mode j) m x.1 x.2) ++
    -- S0's ring reaches past the planned end of every SCAN window after T_k
    (on 0).flatMap (fun z => caqEach m.windows (fun i w => if w.kind ≠ .serge then [] else
      match ((caqFind w.target ss).map (·.cls) : Option SlotClass) with
      | some .scan => caqMost 321 (.mode j) (.window i) (caqEnd w) (1000 * (z.2.nw * caqMinor m : Nat) - 1)
      | _ => [])))

end Sys2Proof.Machine
end

