-- ==== Sys2Proof/Machine/Caqueco.lean ====
section
/-!
DEFINITION. What Caqueco checks in the other sections of an image (spec/15 to spec/17): Burlap's plan 0x27, the host section 0x30,
the vehicle link 0x31, the safety section 0x32, the manifest, and the image as a whole; and the images that it accepts.
-/

namespace Sys2Proof.Machine

open Sys2Proof

/-! ### Burlap's plan (R18, R389) -/

/-- A descriptor lies on the IOD. Burlap reads nothing of the main pipeline's memory (R18). -/
def caqOnIod (t : Tensor) : Bool := decide (t.die = 6) && (match t.space with | .memSide => false | .lpddr => false | _ => true)

/-- A main plan's descriptor keeps out of Burlap's clusters (R18). -/
def caqOffBurlap (t : Tensor) : Bool := decide (t.die ≠ 6) || (match t.space with | .coreLocal => false | .cluster => false | _ => true)

/-- Section 0x27 (R389): Burlap's groups lie in its four clusters, its windows do not overlap on one core or unit, an output's
assembly ends 100 µs before the seal instant of the main output it may replace, and no window uses a cluster while the GOLDEN
window is open. Its tensors lie on the IOD, and no main tensor lies in its clusters (R18). -/
def caqBurlap (im : Image) : List CaqFinding :=
  let b := im.burlap
  let p := CaqPlace.burlap
  caqEach b.groups (fun i g => caqNeed 389 p (.group i) (g.clusters.all (fun c => decide (c < 4)))) ++
  caqEach b.descs (caqTensor im p) ++ caqEach b.descs (fun i t => caqNeed 18 p (.descriptor i) (caqOnIod t)) ++
  caqEach b.weights (caqBurlapWeight im) ++
  caqModesEach im (fun j m => caqEach m.descs (fun i t => caqNeed 18 (.mode j) (.descriptor i) (caqOffBurlap t)) ++
    caqEach b.windows (caqWindowOk im p m b.edges b.groups.length 1 1) ++ caqEach b.edges (caqEdge p (caqPNs m) b.windows b.descs.length) ++
    caqApart p (caqPNs m) (caqBurlapPlan im) ++ caqGates im p j b.windows ++
    caqEach b.windows (fun i w =>
      (if w.kind ≠ .assembly then [] else m.windows.flatMap (fun a => if a.kind ≠ .assembly || !a.outputs.any (w.outputs.contains ·) then [] else
        caqMost 389 p (.window i) (caqEnd w + 100000) (caqEnd a))) ++
      (if !kindOnCores w.kind then [] else m.windows.flatMap (fun g => if g.kind ≠ .golden then [] else
        caqNeed 389 p (.window i) ([0, caqPNs m, -caqPNs m].all (fun s => !caqOverlap s g w))))))

/-! ### The safety section (R391, R394) -/

/-- A descriptor keeps out of the golden regions: the top 8 KiB of core-local SRAM and 256 KiB of cluster SRAM (R391). -/
def caqOffGolden (off : Nat) (t : Tensor) : Bool :=
  match t.space with
  | .coreLocal => decide (t.addr + caqSpan t ≤ 0xE000)
  | .cluster => decide (t.addr + caqSpan t ≤ off) || decide (off + 262144 ≤ t.addr)
  | _ => true

/-- Section 0x32 (R391, R394): the thresholds are finite and not negative, each segment at 1.0 GHz fits the GOLDEN window, and no plan
uses the golden regions. -/
def caqSafety (im : Image) : List CaqFinding :=
  let s := im.safety
  let it := CaqItem.section_ 0x32
  caqEach s.disMax (fun i v => caqNeed 394 .image (.threshold i) (f32Finite v && f32Le 0 v)) ++
  caqEqual 394 .image it (s.goldenCluOff % 65536 : Nat) 0 ++ caqMost 394 .image it (s.goldenCluOff + 262144) 4194304 ++
  caqMost 394 .image it s.inputs.length 262144 ++ caqRange 394 .image it 1 s.segs.length 64 ++
  caqEach s.segs (fun i g => match caqFind g.program im.programs with
    | some p => caqModesEach im (fun j m => m.windows.flatMap (fun w => if w.kind ≠ .golden then [] else
        caqMost 394 (.mode j) (.segment i) p.maxCycles w.durNs))
    | none => caqNeed 394 .image (.segment i) false) ++
  caqModesEach im (fun j m => caqEach m.descs (fun i t => caqNeed 391 (.mode j) (.descriptor i) (caqOffGolden s.goldenCluOff t))) ++
  caqEach im.burlap.descs (fun i t => caqNeed 391 .burlap (.descriptor i) (caqOffGolden s.goldenCluOff t))

/-! ### The host section (R257, R360, R361) -/

/-- A model's program is resident on the cores of every HOST window of a mode (R246, R361). -/
def caqHostResident (im : Image) (m : ModeRec) (program : Nat) : Bool :=
  m.windows.all (fun w => decide (w.kind ≠ .host) || (match m.groups[w.target]? with
    | some g => g.clusters.all (fun c => g.cores.all (fun co => (residents im (32 * g.die + c) co).any (fun r => decide (r.1 = program))))
    | none => false))

/-- Section 0x30 (R360, R361). -/
def caqHost (im : Image) : List CaqFinding :=
  let h := im.host
  let it := CaqItem.section_ 0x30
  caqMost 360 .image it h.models.length 64 ++ caqMost 360 .image it h.products.length 32 ++
  (match h.privPort with
   | none => (match partBytes im 0x30 0 with | some b => caqEqual 361 .image it (fieldAt b 4 0 3) 7 | none => [])
   | some p => caqNeed 361 .image (.hostPort p) (match h.ports[p]? with | some r => r.enable | none => false)) ++
  caqEach h.ports (fun i p => caqMost 360 .image (.hostPort i) p.lanes.length 8 ++ caqMost 361 .image (.hostPort i) p.streamBw 12000 ++
    caqEach p.lanes (fun n l => caqRange 360 .image (.lane i n) 1 l.maxOutstanding 63)) ++
  caqEach h.models (fun i x => let m := CaqItem.hostModel i
    caqMost 360 .image m x.outCh 256 ++
    (match caqFind x.program im.programs with
     | some p => caqMost 361 .image m (5 * p.maxCycles) (6 * 1000 * x.costUs)
     | none => caqNeed 361 .image m false) ++
    x.modeMask.flatMap (fun j => match caqFind j im.plan.modes with
      | some r => caqNeed 361 (.mode j) m (caqHostResident im r x.program)
      | none => caqNeed 360 (.mode j) m false)) ++
  caqEach h.products (fun i x => let p := CaqItem.product i
    caqRange 360 .image p 1 x.channels 256 ++ caqNeed 360 .image p ([2, 3, 5].contains x.format) ++
    x.modeMask.flatMap (fun j => caqNeed 361 (.mode j) p (match caqFind j im.plan.modes with
      | some m => (match x.descs[j]? with | some q => decide (q < m.descs.length) | none => false)
      | none => false)))

/-! ### The vehicle link (R378) -/

/-- Section 0x31 (R378). -/
def caqLink (im : Image) : List CaqFinding :=
  let l := im.link
  let r (lo x hi : Int) := caqRange 378 .image (.section_ 0x31) lo x hi
  r 1 l.vid 4094 ++ r (-5) l.logSync 0 ++ r 0 l.stepThUs 1000 ++ r 1 l.consentMaxMs 10000

/-! ### The image as a whole (R399 to R403, R424) -/

/-- The regions of IOD SRAM with their sizes (R403). -/
def caqIodRegions (im : Image) : List (CaqRegion × Nat) :=
  let mib := 1048576
  let bytes (ids : List Nat) : Nat := caqSum (fun id => (contentOf im id).length) ids
  let packets := caqSum (fun s => match s.2.packetDesc with
    | some d => caqMax (fun m => match m.2.descs[d]? with | some t => if t.space = .iod then caqSpan t else 0 | none => 0) im.plan.modes
    | none => 0) im.serge.slots
  let lists := caqSum (fun m => 0x80 + 0x20 * (m.2.windows.filter (fun w => match w.kind with
    | .serge => true | .assembly => true | .transmit => true | _ => false)).length) im.plan.modes
  [(.iodClusters, 16 * mib), (.burlapBanks, 16 * mib), (.fallbackTable, 2 ^ 19 * 12 + 2 ^ 19 / 8),
   (.fallbackCells, 64 * caqMax (fun x => caqSum id (x.2.levelCellMax.take x.2.levels)) im.tweed.fb),
   (.fallbackStores, 2 * 32 * im.tweed.storePointsFb), (.trackHistories, 9 * mib / 4), (.logAndTrace, 5 * mib / 4), (.packetBuffers, packets),
   (.configuration, 2 * bytes [0x13] + bytes [0x10, 0x11, 0x12, 0x31, 0x32, 0x33] + lists), (.bootBuffer, mib)]

/-- Burlap's content: its blobs and its programs (R402, R424). -/
def caqBurlapBytes (im : Image) : Nat :=
  caqSum (fun w => match caqFind w.blob im.blobs with | some b => b.bytes.length | none => 0) im.burlap.weights +
  8 * caqSum (fun p => if im.burlap.windows.any (fun w => decide (w.program = some p.1)) then p.2.code.length else 0) im.programs

/-- The latency bound of Burlap's Object List: its TRANSMIT window is that of the mode (R261, R424). -/
def caqBurlapBound (m : ModeRec) : Int :=
  (m.windows.filter (fun w => decide (w.kind = .transmit) && w.outputs.contains .objectList)).foldl (fun n w => max n w.openNs) 0

/-- The manifest and the sections it names (R399 to R402, R424). -/
def caqManifest (im : Image) : List CaqFinding :=
  let m := im.manifest
  let s (id : Nat) := CaqItem.section_ id
  caqEqual 400 .image .all m.magic 0x4D495A4C ++ caqEqual 400 .image .all m.formatVersion 1 ++ caqRange 400 .image .all 1 m.sectionCount 63 ++
  caqEqual 400 .image .all m.manifestBytes (0x40 + 0x40 * m.sectionCount) ++ caqMost 424 .image .all m.imageBytes (512 * 1048576) ++
  caqMost 424 .image .all m.rollbackIndex 64 ++ caqRange 400 .image .all 1 m.memGroups 4 ++ caqRange 400 .image .all 1 m.memGib 32 ++
  phase0Parts.flatMap (fun p => caqNeed 402 .image (s p.1) (decide (p.1 = 0x33) || m.entries.any (fun e =>
    decide (e.id = p.1) && decide (e.part = p.2) && decide (e.phase = 0)))) ++
  phase1Parts.flatMap (fun p => caqNeed 402 .image (s p.1) (m.entries.any (fun e =>
    decide (e.id = p.1) && decide (e.part = p.2) && decide (e.phase = 1)))) ++
  m.entries.zipIdx.flatMap (fun e => caqEqual 401 .image (s e.1.id) (e.1.offset % 0x10000 : Nat) 0 ++ caqLeast 399 .image (s e.1.id) e.1.offset 0x20000 ++
    caqRange 401 .image (s e.1.id) 1 e.1.bytes (512 * 1048576) ++ caqMost 401 .image (s e.1.id) (e.1.offset + e.1.bytes) m.imageBytes ++
    caqNeed 401 .image (s e.1.id) (m.entries.zipIdx.all (fun f => decide (e.2 = f.2) || decide (e.1.offset + e.1.bytes ≤ f.1.offset) ||
      decide (f.1.offset + f.1.bytes ≤ e.1.offset))) ++
    (if e.1.id ≤ 5 then caqMost 424 .image (s e.1.id) e.1.bytes (192 * 1024) else [])) ++
  caqMost 424 .image .all (caqSum (fun e => if e.phase = 0 then e.bytes else 0) m.entries) (64 * 1048576)

/-- The limits of R403 and R424, and the first Object List of a cold start by 780 ms. -/
def caqWhole (im : Image) : List CaqFinding :=
  let regions := caqIodRegions im
  caqManifest im ++ caqFormats im ++ regions.flatMap (fun r => caqReport 403 .image (.region r.1) r.2) ++
  (if caqSum (·.2) regions ≤ 96 * 1048576 then [] else
    regions.flatMap (fun r => [⟨.reject, 403, .image, .region r.1, some (96 * 1048576), some r.2⟩])) ++
  caqMost 424 .image (.region .burlapBanks) (caqBurlapBytes im) (8 * 1048576) ++ caqMemSide im ++
  caqModesEach im (fun j m => caqMost 424 (.mode j) (.output .objectList) (140000000 + caqPNs m + caqDNs m + caqBurlapBound m) 780000000)

/-- Every finding of Caqueco on an image, but those that rest on what an image's fields do not hold. -/
def caqFindings (im : Image) : List CaqFinding :=
  caqSensors im ++ caqPlanSection im ++ caqTweed im ++ caqGrids im ++ caqDamask im ++ caqSerge im ++ caqBurlap im ++ caqSafety im ++
  caqHost im ++ caqLink im ++ caqWhole im

/-- The images that Caqueco does not reject. -/
def caqAccepts (im : Image) : Bool := (caqFindings im).all (fun f => decide (f.level ≠ .reject))

end Sys2Proof.Machine
end

