-- ==== Sys2Proof/WellFormed.lean ====
section
/-!
DEFINITION. Which commands are well formed: the ranges that the spec gives an operand and that its type does not hold. A
command that is not well formed stands for nothing that can arrive at the device.
-/

namespace Sys2Proof

/-- The tick parameters of a mode lie in the ranges of R24: P in ms, N, and D in minor ticks; P/N is a whole number of
microseconds and at least 200 µs. -/
def ModeRec.tickOk (m : ModeRec) : Bool :=
  decide (20 ≤ m.pMs) && decide (m.pMs ≤ 100) && decide (10 ≤ m.n) && decide (m.n ≤ 100) &&
  decide (m.pMs * 1000 % m.n = 0) && decide (200 ≤ m.pMs * 1000 / m.n) && decide (m.dMinor < m.n)

/-- An image's plan holds its INITIAL_MODE, its modes are numbered 0 to 15, and they share P, N and D (R24, R241, R246). -/
def PlanSection.ok (p : PlanSection) : Bool :=
  p.modes.any (fun e => e.1 = p.initialMode) &&
  p.modes.all (fun e => decide (e.1 < 16) && e.2.tickOk && p.modes.all (fun o =>
    decide (o.2.pMs = e.2.pMs) && decide (o.2.n = e.2.n) && decide (o.2.dMinor = e.2.dMinor)))

/-- What a read of a slot shows fits the slot (R399, R400, R404): the manifest has its MANIFEST_BYTES, at most 0x1000; the
signature block has its 0xEA60 bytes at most; every section read is an entry of the manifest, of its BYTES; and the plan is one that
Caqueco builds (R246). -/
def SlotBytes.ok (r : SlotBytes) : Bool :=
  let m := Machine.manifestRec r.manifest
  decide (r.manifest.length = m.manifestBytes) && decide (r.manifest.length ≤ 0x1000) && decide (r.block.length ≤ 0xEA60) &&
  r.sections.all (fun s => match m.entries[s.entry]? with
    | some e => decide (s.bytes.length = e.bytes) && (decide (e.id ≠ 0x20) || (Machine.planSection s.bytes).ok)
    | none => false)

/-- A Damask command record's fields fit their bits (R271). -/
def DmkCmd.ok (c : DmkCmd) : Bool :=
  decide (c.cls < 16) && decide (c.seq < 4096) && decide (c.count < 8192) && decide (c.result < 65536) &&
  decide (c.tally < 256) && decide (c.entry < 65536)

/-- A CAN frame (R121): an identifier of 11 or 29 bits and at most 64 bytes. -/
def CanFrame.ok (f : CanFrame) : Bool :=
  decide (f.id < if f.ide then 2 ^ 29 else 2 ^ 11) && decide (f.payload.length ≤ 64)

/-- A submission entry (R353): a lane of 0 to 7, ten arguments, a result address that is a multiple of 64. -/
def Submission.ok (s : Submission) : Bool :=
  decide (s.lane < 8) && decide (s.args.length = 10) && decide (s.resultAddr % 64 = 0) && decide (s.resultAddr < 2 ^ 64) &&
  decide (s.resultLen < 2 ^ 32)

/-- A CSI-2 packet (R81, R93): one of four virtual channels, and pixels of at most 20 bits. -/
def CsiPacket.ok (p : CsiPacket) : Bool := decide (p.vc < 4) && p.pixels.all (fun v => decide (v < 2 ^ 20))

/-- The destinations of a band (R93): each of the base and three levels at most once. -/
def destsOk (l : List (Nat × Nat)) : Bool := decide ((l.map (·.1)).Nodup) && l.all (fun e => decide (e.1 ≤ 3))

/-- The pace of a solve (R303): at most three flagged pivots in each of at most 64 iterations. -/
def SolveRun.ok (r : SolveRun) : Bool := decide (r.left.length ≤ 192)

/-- The temperature sensors of a die, C0 to C3, M0, M1, IOD (R441). -/
def sensorsOf (die : Die) : Nat := if die.idx < 4 then 8 else if die.idx < 6 then 4 else 6

/-- A command is well formed. -/
def Instr.ok : Instr → Bool
  | .canFrameReceived _ f => f.ok
  | .csi2PacketReceived _ p => p.ok
  | .percaleBandDone _ _ l => destsOk l
  | .smax _ _ _ _ n => decide (1 ≤ n) && decide (n ≤ 8)
  | .sexp _ _ _ _ _ n => decide (1 ≤ n) && decide (n ≤ 8)
  | .create _ c | .openView _ c | .appendTok _ c | .forkSeq _ c | .freeSeq _ c | .restore _ c | .openQueue _ c
  | .damaskReservedOp _ c => c.ok
  | .solveEnd _ r => r.ok
  | .sergeDeadline _ (some r) => r.ok
  | .goldenSegmentEnd _ sigs _ => decide (sigs.length = 64)
  | .phase0Loaded _ r | .warmReadDone _ r => r.ok
  | .stageCommitDone r => r.toSlotBytes.ok
  | .submissionFetch _ s => s.ok
  | .tempSample d ts => decide (ts.length = sensorsOf d)
  | .tracePoint _ _ args => decide (args.length ≤ 5)
  | _ => true

end Sys2Proof
end

