-- ==== Sys2Proof/Tests/Slice0.lean ====
section
/-!
SUPPORT. The tests of the model: ill-formed commands are refused as such, single steps against values worked out by hand
from the rules of the spec, and for each statement that has hypotheses a state and operands that meet them.
-/

namespace Sys2Proof.Tests

set_option Elab.async false

open Sys2Proof Sys2Proof.Machine

/-! ### A small device, built by hand, for the tests -/

def wLidarFields : LidarFields where
  speed := 1000
  phySlave := false
  domain := 0
  logSync := -3
  parser := 0
  pointRate := 1000
  quotaMain := 100
  quotaFb := 100
  fbDecim := 1
  maxTransitUs := 100
  portMac := 0x42

def wCamFields : CameraFields where
  vcMap := [0, 1]
  dataType := 0x2A
  framesPerTick := 1
  pyrLevels := 1
  outFormat := 0
  cfa := 1
  width := 16
  height := 8
  bandRows := 4

def wImuFields (sync : Bool) : ImuFields where
  syncMode := sync
  syncPolHigh := true
  drdyFalling := false
  spiMode := 0
  spiDiv := 2
  syncWidthUs := 10
  syncRateHz := 1000
  cmd := [0x80]
  rxLen := 2
  checkKind := 0
  sigFirst := 0
  sigCount := 1

def wCanFields : CanFields where
  canId := 0x123
  ide := false
  fdf := false
  fdfChk := false
  idMask := 0x7FF
  minLen := 1
  checkKind := 0
  sigFirst := 0
  sigCount := 1

def wEntry (kind : AlignKind) (port : Nat) (src : SourceFields) : StreamEntry where
  kind := kind
  inAge := true
  port := port
  modeMask := [0, 1]
  windowUs := 20000
  gateUs := 0
  horizonUs := 100
  spanUs := 20000
  periodUs := 20000
  declLatNs := 1000
  src := src

def wSignal : SignalRec where
  startBit := 0
  length := 8
  bigEndian := false
  signed := false
  role := 1
  invalidEn := false
  scale := 0x3F800000
  offset := 0
  invalidVal := 0

def wBus : CanBus where
  restricted := false
  fdEn := false
  nbrp := 1
  ntseg1 := 1
  ntseg2 := 1
  nsjw := 1
  dbrp := 1
  dtseg1 := 1
  dtseg2 := 1
  dsjw := 1

/-- Streams: 0 a lidar, 1 a camera, 2 and 3 inertial units in the two modes, 4 CAN, 5 GNSS, 6 and 7 a lidar and a camera
without a device behind them. -/
def wStreams : StreamTable where
  entryCount := 8
  poseExtrapLimitUs := 1000
  sigs := [wSignal]
  buses := [(0, wBus)]
  gnssEn := true
  ppsFalling := false
  baud := 9600
  entries := [(0, wEntry .point 0 (.lidar wLidarFields)), (1, wEntry .rowBand 0 (.camera wCamFields)),
    (2, wEntry .egoInput 0 (.imu (wImuFields true))), (3, wEntry .egoInput 1 (.imu (wImuFields false))),
    (4, wEntry .egoInput 0 (.can wCanFields)), (5, wEntry .egoInput 0 (.gnss { gga := true, rmc := false, zda := false })),
    (6, wEntry .point 1 (.lidar wLidarFields)), (7, wEntry .rowBand 1 (.camera wCamFields))]

def wCamPort : CameraPort where
  gear := 1
  rtxEn := true
  cciAddr := 0x10
  cciRate := 0
  trigLatNs := 0
  lineTimePs := 1000000
  centreRow := 4
  trigWidthUs := 0
  uplinkLatNs := 0
  readoutLatNs := 0
  fsTolUs := 10
  expMinUs := 10
  expMaxUs := 1000
  gainMin := 256
  gainMax := 512
  targetLuma := 100
  stepEv16 := 4
  wbStep := 16
  regExp := 0x100
  regGain := 0x102
  regHold := 0x104
  regSentinel := 0x106
  sentinelVal := 1
  expInUs := true
  init := [{ addr := 1, value := 2, op := 0 }, { addr := 3, value := 7, op := 3 }, { addr := 5, value := 0, op := 1 }]
  black := [0, 0, 0, 0]
  ratio1 := 1
  ratio2 := 1
  satTh := 100
  blend := 1
  knots := []
  weights := []
  tone := []

/-- A packet of eight bytes that are its time stamp, and no points. -/
def wParser : ParserDesc where
  udpMatch := false
  matchValue := 0x88AA
  pktLen := 8
  hdrLen := 8
  blockStride := 0
  blockCount := 0
  blockHdrLen := 0
  pointStride := 0
  pointsPerBlock := 0
  tsOff := 0
  tsFormat := 0
  tsBe := true
  spherical := false
  minRange := 0
  elev := []
  fields := []

def wWin (kind : WinKind) (target : Nat) (outputs : List OutKind) : WindowRec where
  kind := kind
  fixedOrder := false
  safetyPath := false
  target := target
  openNs := 0
  durNs := 1000000
  program := none
  edgeFirst := 0
  edgeCount := 0
  tallyFirst := 0
  tallyCount := 0
  streams := []
  outputs := outputs
  step := .insertion

/-- The main plan's windows: one of each kind, in the order of the kinds. -/
def wWindows : List WindowRec :=
  [wWin .core 0 [], wWin .tweed 0 [], wWin .chambray 0 [], wWin .serge 0 [], wWin .assembly 0 [.objectList],
   wWin .transmit 0 [.objectList], wWin .host 0 [], wWin .recompute 0 [], wWin .golden 0 [], wWin .staging 0 []]

def wMode (staged : Bool) : ModeRec where
  staged := staged
  ovlBank := 0
  fallback := none
  transitions := []
  pMs := 20
  n := 20
  dMinor := 1
  lNs := 1000000
  postGateMaxNs := 0
  windows := wWindows
  groups := [{ die := 0, part := 0, clusters := [0], cores := [0] }]
  parts := [{ die := 0, chambray := true, clusters := [0] }, { die := 4, chambray := false, clusters := [] }]
  edges := []
  descs := []
  weights := []
  hostCoreUs := 1000
  recomputePages := 4
  stageBytes := 65536

def wChbOp (op : ChbOp) (window : Nat) : ChbRec where
  op := op
  order := false
  norm := false
  frame := 0
  pyrLevel := 0
  units := [0]
  cams := [0]
  src := 0
  dest := 0
  aux := 0
  acc := 0
  channels := 1
  inFormat := 0
  outFormat := 0
  reduce := 0
  heights := []
  bandTable := 0
  dMin := 0
  dMax := 0
  dBins := 0
  depthKind := 0
  topk := 0
  pMin := 0
  wEps := 0
  rowFirst := 0
  rowCount := 0
  window := window

def wGrid : GridRec where
  w := 4
  h := 4
  pitch := 0x3F800000
  hbinBase := 0
  hbinH := 0
  hbinCount := 0
  ops := [wChbOp .lift 2]

def wSlot (unit : Nat) (cls : SlotClass) (span : Nat) : SlotRec where
  unit := unit
  cls := cls
  gnssAlign := false
  modeMask := [0, 1]
  maxIter := 4
  spanWindows := span
  nw := 1
  valIters := 1
  blocks := []
  factors := []
  nnzL := 0
  supernodes := 0
  params := [0, 0, 0, 0, 0, 0, 0, 0]
  cutoffUs := 0
  packetDesc := none
  geometry := [0, 0, 0, 0, 0]
  inputs := []

def wClass (half maxSeq : Nat) : DmkClass where
  half := half
  snapshot := false
  priority := 0
  forkClass := 0
  retainTicks := 10
  maxSeq := maxSeq
  maxPages := 4
  snapBytes := 0

def wHostPort : HostPortRec where
  enable := true
  maxForks := 1
  resultStoreKib := 1
  streamBw := 1000000
  lanes := []

def wModel : HostModel where
  program := 0
  modeMask := [0]
  costUs := 1
  outCh := 1
  outFormat := 0
  usesSeq := false
  inProduct := 0

/-- A verified image with one thing of each kind. -/
def wImage : Image := { Image.empty with
  streams := wStreams
  cameras := [(0, wCamPort)]
  parsers := [(0, wParser)]
  plan := { initialMode := 0, ovlBytes0 := 0, ovlBytes1 := 0, ovlWords0 := 0, ovlWords1 := 0,
            modes := [(0, wMode false), (1, wMode true)] }
  damask := { classes := [(0, wClass 0 4), (1, wClass 1 4), (2, wClass 0 0)], poolPages := [8, 8], freeTarget := [1, 1],
              snapSlots := [0, 0], snapSlotBytes := 0, poolBase := [0, 0], snapBase := [0, 0] }
  serge := { slots := [(0, wSlot 0 .ego 1), (2, wSlot 1 .calib 4)], noise := [] }
  grids := [(0, wGrid)]
  burlap := { windows := [wWin .core 0 [], wWin .tweed 0 [], wWin .assembly 0 [.objectList]],
              groups := [{ die := 0, part := 0, clusters := [0], cores := [0] }], edges := [], descs := [], weights := [] }
  host := { privPort := some 0, privKeyDigest := 0, gridSeq := 5, trackSeqBase := 16,
            ports := [wHostPort, wHostPort, wHostPort, wHostPort], models := [wModel], products := [] }
  link := { roleSlave := [true, true], etherType := 0, pcpFast := 7, pcpBulk := 0, vid := 0, ctrlMac := 1,
            portMac := [0x10, 0x11], deviceId := 1, ctrlId := 2, gptpDomain := 0, logSync := -3, stepThUs := 10,
            freshUs := 0, consentMaxMs := 60000 }
  safety := { disMax := [0, 0, 0, 0, 0], resumeTicks := 2, goldenCluOff := 0, inputs := [],
              segs := [{ program := 0, sig := 7 }, { program := 0, sig := 8 }] } }

def wTick : TickRec where
  mode := 0
  start := 2900000000
  valid := 2901000000
  dMinor := 1
  epoch := 0x00010000
  calGen := 0
  modeSwitched := false
  transition := false
  mainRuns := true
  missing := 0
  missingFb := 0
  egoMain := (.notRun, false)
  egoFb := (.notRun, false)

def wDie : DieState := { state := .admitted, resync := false, localTime := 3000000000 }

/-- Three seconds after reset, in tick 5 of mode 0, whose windows have all come to their ends. -/
def wDev : Dev := {
  time := { dev := 3000000000, running := true, begun := true, k := 5, m := 3, nextM := 4, bk := 2900000000, pMs := 20, n := 20,
            dMinor := 1 }
  muslin := { streams := [(0, { mode := .active }), (1, { mode := .active }), (2, { mode := .active }),
                          (3, { mode := .active }), (5, { mode := .active })] }
  ports := { cameras := [(0, { link := .up, enabled := true })], lidars := [(0, { link := .up, speed := 1000 })] }
  plan := { ticks := [(5, wTick)] }
  fabric := { clusters := [(0, { state := .running }), (128, { state := .running })] }
  recovery := { dies := [(0, wDie), (1, wDie), (2, wDie), (3, wDie), (4, wDie), (5, wDie)] }
  host := { ports := [(0, { linkUp := true, busMaster := true }), (1, { linkUp := true, busMaster := true })] }
  v0 := { link := .up }
  v1 := { link := .up }
  boot := { phase := .verified, image := wImage } }

def wS : State := { dev := wDev }

/-- The device with window w of tick 5 in a phase. -/
def wWinS (src : Source) (w : Nat) (p : WinPhase) : State := { dev := wDev.setWin src 5 w { phase := p } }

/-- The device with core 0 of cluster 0 in a state. -/
def wCoreS (c : CoreState) : State := { dev := wDev.setCore 0 c }

/-- The device with die 0 in a state. -/
def wDieS (s : DieState) : State := { dev := wDev.setDie 0 s }

/-- The device with host port 0 in a state. -/
def wPortS (h : HostPort) : State := { dev := wDev.setPort 0 { h with linkUp := true, busMaster := true } }

/-- A submission of an operation. -/
def wSub (op : BitVec 8) (args : List Word) : Submission where
  op := op
  lane := 0
  thisMajor := false
  queryId := 1
  args := args
  resultAddr := 0
  resultLen := 65536

/-- An accepted query or command. -/
def wWork (op : BitVec 8) (args : List Word) (window : Option Nat) (started : Bool) : Work where
  sub := wSub op args
  order := 0
  tick := 5
  window := window
  cost := 0
  started := started
  status := none
  result := []

/-- A host port in an open session, privileged or not, with one piece of work. -/
def wJobS (privileged : Bool) (w : Work) : State := wPortS { state := .open_, privileged := privileged, work := [w] }

/-- The device with the HOST window 6 of tick 5 running one query of port 0. -/
def wQuery (op : BitVec 8) (args : List Word) : Dev :=
  (wDev.setWin .main 5 6 { phase := .running }).setPort 0
    { linkUp := true, busMaster := true, state := .open_, work := [wWork op args (some (winKey .main 5 6)) true] }

def wTransfer (started : Option (TransferDesc × Nanos × Nat)) : Transfer where
  core := 0
  addr := 0
  window := none
  started := started
  fixed := false

def wTensor : Tensor where
  format := .int8
  rank := 1
  space := .lpddr
  die := 0
  cluster := 0
  core := 0
  addr := 0
  extents := [1, 1, 1, 1, 1, 1]
  strides := [1, 1, 1, 1, 1]

def wDesc : TransferDesc where
  src := 0
  dst := 0
  op := 0
  srcCount := 1
  haloReplicate := false
  tallyEn := false
  tally := 0
  srcOrg := [0, 0, 0, 0]
  dstOrg := [0, 0, 0, 0]
  ext := [1, 1, 1, 1]
  haloLo := [0, 0, 0, 0]
  haloHi := [0, 0, 0, 0]
  src2 := 0
  src3 := 0

/-- The bytes of a controller frame behind its EtherType: protection header with its CRC, and a body of two words. -/
def wFrameBytes (msg bodyLen : Nat) : List Byte :=
  let head := w32 (msg + 2 ^ 8) ++ w32 1 ++ w64 0 ++ w64 0 ++ w32 0 ++ w32 (bodyLen + 2 ^ 24) ++ w32 2
  let body := w32 1 ++ w32 100 ++ w64 0
  head ++ w32 (crc32c (head ++ body.take bodyLen)).toNat ++ body

/-- A controller frame that passes every check on V0. -/
def wFrame (msg : Nat) : CtrlFrame where
  dest := 0x10
  etherType := 0x88B5
  vid := 0
  fcsOk := true
  bytes := wFrameBytes msg 16

/-- The frame with a wrong CRC. -/
def wBadCrc (msg : Nat) : CtrlFrame :=
  { wFrame msg with bytes := (wFrameBytes msg 16).take 0x24 ++ w32 0 ++ (wFrameBytes msg 16).drop 0x28 }

def wCmd (cls seq count : Nat) : DmkCmd where
  cls := cls
  seq := seq
  count := count
  result := 0xFFFF
  tally := 0
  tallyEn := false
  entry := 0
  tick := 5
  issuer := .window 0 0
  ecc := .clean

/-- A sequence of class 0 without pages, at index 5. -/
def wSeq : Sequence where
  cls := 0
  half := 0
  owner := .planned
  pages := []
  freeAt := none

def wSeqD : Dev := setSeq 5 (some wSeq) wDev

/-- A unit that the timer stops before its first operation. -/
def wRun : SolveRun := { ops := 0, left := [], covariance := false, corrected := 0 }

/-- The answers of the Keccak engine about a slot whose every check passes, for a fresh device. -/
def wCheck : SlotCrypto where
  rootKeyDigest := 0
  certSigOk := true
  manifestSigOk := true
  manifestDigest := 0
  certDigest := 0

/-- A manifest with the sections of R402, each of no bytes and of digest 0, in its own 64 KiB. `word` is the word at 0x14. -/
def wManifest (serial word : Nat) : List Byte :=
  let parts := phase0Parts.map (fun p => (p, 0)) ++ phase1Parts.map (fun p => (p, 1))
  w32 0x4D495A4C ++ w32 (1 + 2 ^ 16 * parts.length) ++ w32 (0x40 + 0x40 * parts.length) ++ w32 0x1000000 ++ w32 serial ++ w32 word ++
  w64 0 ++ List.replicate 32 0 ++
  parts.zipIdx.flatMap (fun e => w32 (e.1.1.1 + 2 ^ 8 * e.1.1.2 + 2 ^ 9 * e.1.2) ++ w32 (0x10000 * e.2) ++ w64 0 ++ List.replicate 48 0)

/-- A signature block with a certificate of KIND 1 that the given word at its 0x10 says lifecycle states of. -/
def wBlock (kind mask : Nat) : List Byte :=
  w32 0x47535A4C ++ List.replicate 0x7C 0 ++ w32 0 ++ w32 kind ++ w64 0 ++ w32 mask ++ w64 0

/-- The bytes of a slot whose every check passes, with every section read. -/
def wBytes : SlotBytes where
  manifest := wManifest 1 0x700
  block := wBlock 1 7
  sections := (List.range 24).map (fun i => { entry := i, bytes := [], digest := 0 })
  blockTimeout := false

/-- The read of that slot. -/
def wRead : SlotRead := { toSlotCrypto := wCheck, toSlotBytes := wBytes }

def wLidarFrame : LidarFrame where
  fcsOk := true
  dest := 0x42
  etherType := 0x88AA
  udpPort := none
  fits := true
  payload := [0, 0, 0, 0, 0, 0, 0, 0]
  arrival := 3000000000

def wPacket (dt : Nat) (vc : Nat) : CsiPacket where
  vc := vc
  dataType := dt
  ecc := .clean
  crcOk := true
  row := 0
  pixels := []
  arrival := 3000000000

def wSentence : Sentence where
  kind := .gga
  framingErrors := 0
  checksumOk := true
  length := 60
  parsable := true
  fixQuality := 1
  rmcActive := false
  utcNs := 0
  values := []
  stamp := 2900000000

def wFrameState : CamFrame where
  tick := 5
  second := false
  tTrig := 0
  expNs := 0
  triggered := true
  rows := []
  closed := []
  onTime := [0]
  done := []

def wPartRestart : PartRestart where
  index := 0
  part := { die := 0, chambray := true, clusters := [0] }
  since := 0
  phase := .running

def wSeal : Seal where
  quality := 0
  calGen := 0
  odoEpoch := 0
  gridC := (0, 0)
  gridF := (0, 0)
  anchorYaw := 0
  winMissing := 0
  appendRefused := 0
  missingTokens := 0
  egoEnd := .converged
  egoReg := false
  scan := none
  contrib := []
  ageTimes := []
  ego := {}
  consist := []

def wGridData : GridData where
  product := 0
  format := 0
  w := 1
  h := 1
  channels := 1
  pitch := 0
  hbinBase := 0
  hbinH := 0
  hbinCount := 0
  data := [0]

def wObject : ObjectRec where
  trackId := 7
  cls := 0
  exist_ := 100
  new := false
  coasted := false
  evLidar := true
  evCamera := false
  ageTicks := 1
  geom := [0, 0, 0, 0, 0, 0, 0, 0, 0]
  sigma := [0, 0, 0, 0]
  camMask := 0
  lidarPoints := 1
  sinceDet := 0

/-- Die 0, at three seconds of its own time, receives a broadcast with the master's time. -/
def wSkew (t : Nanos) : State := wDieS { wDie with
  localK := 5
  broadcast := some { k := 5, m := 3, epoch := 0, time := t, freq := 0, minorUs := 1000 } }

/-- What comes to a core from outside its code: no error, unsigned sub-formats. -/
def wSide : CoreSide := { ecc := .clean, int := false, subA := false, subB := false }
/-! ### Ill-formed commands: one for each check of WellFormed -/

def wCan (id : Nat) (ide : Bool) (n : Nat) : CanFrame where
  id := id
  ide := ide
  fdf := false
  payload := List.replicate n 0
  stamp := 0
  rec_ := 0
  errPassive := false

theorem test_ill_can_identifier : (Instr.canFrameReceived 0 (wCan 0x800 false 0)).ok = false ∧
    (Instr.canFrameReceived 0 (wCan 0x800 true 0)).ok = true := by decide

theorem test_ill_can_length : (Instr.canFrameReceived 0 (wCan 0x7FF false 65)).ok = false ∧
    (Instr.canFrameReceived 0 (wCan 0x7FF false 64)).ok = true := by decide

theorem test_ill_packet : (Instr.csi2PacketReceived 0 { wPacket 0x2B 0 with pixels := [2 ^ 20] }).ok = false ∧
    (Instr.csi2PacketReceived 0 (wPacket 0x2B 4)).ok = false := by decide +kernel

theorem test_ill_destinations : (Instr.percaleBandDone 0 0 [(0, 1), (0, 2)]).ok = false ∧
    (Instr.percaleBandDone 0 0 [(4, 1)]).ok = false ∧ (Instr.percaleBandDone 0 0 [(0, 1), (1, 2)]).ok = true := by decide

theorem test_ill_smax : (Instr.smax 0 0 0 8 0).ok = false ∧ (Instr.smax 0 0 0 8 9).ok = false ∧
    (Instr.smax 0 0 0 8 8).ok = true := by decide

theorem test_ill_sexp : (Instr.sexp 0 0 0 8 9 0).ok = false ∧ (Instr.sexp 0 0 0 8 9 9).ok = false := by decide

theorem test_ill_damask_class : (Instr.create 0 (wCmd 16 0 0)).ok = false := by decide

theorem test_ill_damask_sequence : (Instr.openView 0 (wCmd 0 4096 0)).ok = false := by decide

theorem test_ill_damask_count : (Instr.appendTok 0 (wCmd 0 0 8192)).ok = false := by decide

theorem test_ill_solve_end : (Instr.solveEnd 0 { wRun with left := List.replicate 193 0 }).ok = false := by decide +kernel

theorem test_ill_deadline : (Instr.sergeDeadline 0 (some { wRun with left := List.replicate 193 0 })).ok = false := by
  decide +kernel

theorem test_ill_golden : (Instr.goldenSegmentEnd 0 [7] 0).ok = false := by decide

theorem test_ill_manifest : (Instr.phase0Loaded wCheck { wBytes with manifest := wBytes.manifest ++ [0] }).ok = false := by
  decide +kernel

theorem test_ill_section_bytes : (Instr.phase0Loaded wCheck { wBytes with
    sections := [{ entry := 0, bytes := [0], digest := 0 }] }).ok = false := by decide +kernel

theorem test_ill_section_entry : (Instr.warmReadDone wCheck { wBytes with
    sections := [{ entry := 24, bytes := [], digest := 0 }] }).ok = false := by decide +kernel

theorem test_ill_mode_period : ({ wMode false with pMs := 19 }).tickOk = false ∧
    ({ wMode false with n := 9 }).tickOk = false ∧ ({ wMode false with dMinor := 20 }).tickOk = false ∧
    (wMode false).tickOk = true := by decide

/-- A slot of which the sections of firmware are read; an empty plan is no plan that Caqueco builds. -/
theorem test_well_slot : (Instr.stageCommitDone { wRead with sections := wBytes.sections.take 2 }).ok = true ∧
    (Instr.stageCommitDone wRead).ok = false := by decide +kernel

theorem test_ill_submission : (Instr.submissionFetch 0 { wSub 1 (List.replicate 10 0) with resultAddr := 32 }).ok = false ∧
    (Instr.submissionFetch 0 (wSub 1 [0])).ok = false ∧
    (Instr.submissionFetch 0 (wSub 1 (List.replicate 10 0))).ok = true := by decide

theorem test_ill_sensors : (Instr.tempSample .m0 [50]).ok = false := by decide

theorem test_ill_trace : (Instr.tracePoint .c0 7 [0, 0, 0, 0, 0, 0]).ok = false := by decide

/-! ### Number formats (spec/09_compute_fabric.md) -/

/-- The worked example of R8: 3 is newer than 0xFFFFFFFE by five. -/
theorem test_newer : newer 3 0xFFFFFFFE = true ∧ newer 0xFFFFFFFE 3 = false := by decide

/-- An event counter saturates and sets its sticky bit (R8). -/
theorem test_counter_saturates : (Counter.inc { val := 0xFFFFFFFE }) = { val := 0xFFFFFFFF, sat := true } := by decide

/-- The check value of CRC-32C for the bytes of "123456789", of the CRC's own definition (R366). -/
theorem test_crc32c : crc32c [0x31, 0x32, 0x33, 0x34, 0x35, 0x36, 0x37, 0x38, 0x39] = 0xE3069283 := by decide +kernel

/-- The worked example of R221: 1.0 + 2^-24 ties to 1.0, and 2^-23 added to 1.0 is one ulp more. -/
theorem test_add_order : (f32Add 0x3F800000 0x33800000).v = 0x3F800000 ∧ (f32Add 0x33800000 0x33800000).v = 0x34000000 ∧
    (f32Add 0x3F800000 0x34000000).v = 0x3F800001 := by decide +kernel

/-- R217: a NaN operand gives a NaN, and -0 is below +0. -/
theorem test_max_min : f32Max 0x7F800001 0 = 0x7FC00000 ∧ f32Max 0x80000000 0 = 0 ∧ f32Min 0 0x80000000 = 0x80000000 := by
  decide +kernel

/-- The products that overflow give an infinity (IEEE 754, R217). -/
theorem test_mul_overflow : (f32Mul 0x7F7FFFFF 0x40000000).v = 0x7F800000 := by decide +kernel

/-- The worked example of R216: 1.21875 is exact in BF16 and rounds to 1.25 in E4M3. -/
theorem test_convert : (convertNum .bf16 true false (f32Num 0x3F9C0000)).bits = 0x3F9C ∧
    (convertNum .fp8e4m3 true false (f32Num 0x3F9C0000)).bits = 0x3A := by decide +kernel

/-- The overflow columns of R215. -/
theorem test_convert_overflow : (convertNum .fp16 true false (f32Num 0x47800000)).bits = 0x7BFF ∧
    (convertNum .fp16 false false (f32Num 0x47800000)).bits = 0x7C00 ∧
    (convertNum .fp8e4m3 false false (f32Num 0x47800000)).bits = 0x7E := by decide +kernel

/-- The worked example of R213 to R215: one group under FMT 7 adds 0.21875 to an accumulator at 1.0. -/
theorem test_mma_group :
    (mmaCell { wDev with mem := [(0x1000, 0x7C), (0x1008, 0x3C), (0x1009, 0xC0), (0x2000, 0x7E), (0x2008, 0x15)] }
      { fmt := .mxfp8e4m3, at_ := 0x1000 } { fmt := .mxfp4, at_ := 0x2000 } true 2 0x3F800000).v = 0x3F9C0000 := by
  decide +kernel

/-- Two lanes of FMT 0 saturate neither sum: 2 × 3 + 4 × (-1) = 2 (R213). -/
theorem test_mma_int :
    (mmaCell { wDev with mem := [(0x1000, 2), (0x1001, 4), (0x2000, 3), (0x2001, 0xFF)] }
      { fmt := .int8, at_ := 0x1000 } { fmt := .int8, at_ := 0x2000 } false 2 0).v = 2 := by decide +kernel

/-! ### Cores -/

/-- What a command leaves in core 0 of cluster 0. -/
def coreAfter (i : Instr) (s : State) : Option CoreState :=
  match exec i s with | .next t => some (t.dev.core 0) | _ => none

theorem test_movi_x0 : (coreAfter (.movi 0 0 0 5) wS).map (·.xr 0) = some 0 := by decide +kernel

theorem test_addi_wraps : (coreAfter (.addi 0 0 2 1 2) (wCoreS { x := [(1, 0xFFFFFFFF)] })).map (·.xr 2) = some 1 := by
  decide +kernel

theorem test_loopx_clamps : (coreAfter (.loopx 0 0 1 1 2) (wCoreS { x := [(1, 3)] })).map (fun c => (c.lc, c.pc)) =
    some ([(1, 2)], 1) := by decide +kernel

theorem test_endl_closes : (coreAfter (.endl 0 0 1) (wCoreS { pc := 9, lc := [(1, 1)], loops := [(4, 1)] })).map
    (fun c => (c.pc, c.loops)) = some (10, []) := by decide +kernel

theorem test_rdnsw_clears : (coreAfter (.rdnsw 0 0 3) (wCoreS { nsw := 5 })).map (fun c => (c.xr 3, c.nsw)) =
    some (5, 0) := by decide +kernel

theorem test_vop_int_wraps : (coreAfter (.vop 0 0 .mul true 0 1 2 3)
    (wCoreS { v := [(16, 0x10000), (32, 0x10001)] })).map (·.lane 0 0) = some 0x10000 := by decide +kernel

/-- cmpgt marks lane 0 alone: 1.0 > 0, and 0 is not greater than 0 (R200). -/
theorem test_vop_cmpgt : (coreAfter (.vop 0 0 .cmpgt false 0 1 2 3) (wCoreS { v := [(16, 0x3F800000)] })).map
    (·.lane 0 0) = some 1 := by decide +kernel

/-- The maximum of the lanes of V1: 2.0 (R198). -/
theorem test_vred_max : (coreAfter (.vred 0 0 0 1 true) (wCoreS { v := [(16, 0x3F800000), (21, 0x40000000)] })).map
    (·.lane 0 0) = some 0x40000000 := by decide +kernel

/-- SMAX of the worked example of R199: scores 2 and 1 give m = 2. -/
theorem test_smax : (coreAfter (.smax 0 0 0 8 2)
    (wCoreS { v := [(0, 0xFF800000), (128, 0x40000000), (144, 0x3F800000)] })).map (·.lane 0 0) = some 0x40000000 := by
  decide +kernel

theorem test_accz_tags : (coreAfter (.accz 0 0 2 true) (wCoreS { acc := [(256, 7), (383, 9)] })).map
    (fun c => (c.acc, c.accFp)) = some ([], [(2, true)]) := by decide +kernel

/-- STVM stores lanes 0 and 15, least significant byte first, and no byte between. -/
theorem test_stvm : (match exec (.stvm 0 0 1 1 2)
    (wCoreS { x := [(1, 0x1000000), (2, 0x8001)], v := [(16, 0x04030201), (31, 0xAA)] }) with
    | .next t => t.dev.mem | _ => []) =
    [(0x100000000, 1), (0x100000001, 2), (0x100000002, 3), (0x100000003, 4), (0x10000003C, 0xAA)] := by decide +kernel

theorem test_radd_local_faults : (match exec (.radd 0 0 1 1 { mask := 2, ecc := .clean }) wS with | .fault f => some f | _ => none) =
    some .coreAddress := by decide +kernel

/-- X names cluster C0.1 and its tally 7 (R206). -/
theorem test_signal : (match exec (.signalOp 0 0 1) (wCoreS { x := [(1, 0x00010007)] }) with
    | .next t => (t.dev.tally 1 7, t.dev.tally 0 7) | _ => (0, 0)) = (1, 0) := by decide +kernel

theorem test_undefined_opcode : (coreAfter (.undefinedOpcode 0 0) wS).map (·.run) = some .stopped := by decide +kernel

/-! ### Time and the plan -/

/-- The worked example of R25: B_1000 of a 50 ms plan whose tick 0 began at 650,000,000 ns. -/
theorem test_tick_instants :
    ({ bk := 650000000, pMs := 50, n := 50, dMinor := 25 : TimeState }).startOf 1000 = 50650000000 := by decide +kernel

/-- The worked example of R26: from P = 50 ms to P = 40 ms at 10,050 ms the transition tick lasts 70 ms. -/
theorem test_transition_length : transitionMs 50000000 40000000 10050000000 = some 70 := by decide +kernel

/-- The worked example of R40: t_trig = T_k - 9.012 ms, t_send = T_k - 9.047 ms, in units of 0.5 ps. -/
theorem test_trigger : trigAt { wCamPort with trigLatNs := 20000, centreRow := 1080, lineTimePs := 7400000, uplinkLatNs := 35000 }
      50000000 50675000000 false 2000000 = 2000 * (50675000000 - 9012000) ∧
    sendAt { wCamPort with trigLatNs := 20000, centreRow := 1080, lineTimePs := 7400000, uplinkLatNs := 35000 }
      50000000 50675000000 false 2000000 = 2000 * (50675000000 - 9047000) := by decide +kernel

/-- The worked example of R252 and R264: the plan epoch of load 1, mode 3, first switch is 0x0001_3001. -/
theorem test_plan_epoch : ({ epochLoad := 1, epochMode := 3, epochSwitch := 1 : PlanState }).epoch = 0x00013001 := by decide

/-- The worked example of R252: a request at T_k + 3.4 ms, 21.6 ms before B_(k+1), takes tick k + 1 for a resident mode and
k + 3 for a staged one. -/
theorem test_switch_tick :
    let d : Dev := { wDev with time := { wDev.time with dev := 650000000 + 28400000, k := 0, bk := 650000000, pMs := 50, n := 50,
                                                        dMinor := 25 } }
    (d.newSwitch 0 .request).effect = 1 ∧ (d.newSwitch 1 .request).effect = 3 := by decide +kernel

theorem test_minor_boundary_needs_time : (match exec (.minorTickBoundary 0)
    { dev := { wDev with time := { wDev.time with dev := 2903999999 } } } with | .next t => t.dev.time.m | _ => 0) = 3 := by
  decide +kernel

theorem test_minor_boundary : (match exec (.minorTickBoundary 0)
    { dev := { wDev with time := { wDev.time with dev := 2904000000 } } } with | .next t => t.dev.time.m | _ => 0) = 4 := by
  decide +kernel

/-- A core window that has come to 1.05 times its length is marked missing (R248, R249). -/
theorem test_watchdog : (match exec (.layerWatchdogExpiry .main 5 0) (wWinS .main 0 .running) with
    | .next t => (t.dev.win .main 5 0).phase | _ => .planned) = .missing := by decide +kernel

/-! ### Tweed -/

/-- The worked example of R150: the cell keys of (23.47, -4.13, 0.55) m at levels 0 and 1 with 0.2 m voxels. -/
theorem test_cell_keys : cellIndex 0x41BBC28F 0x3E4CCCCD 524288 = 524405 ∧ cellIndex 0xC08428F6 0x3E4CCCCD 524288 = 524267 ∧
    cellIndex 0x3F0CCCCD 0x3E4CCCCD 32768 = 32770 ∧ keyOf 524405 524267 32770 0 = 0x0080027FFEB80075 ∧
    keyOf 524405 524267 32770 1 = 0x0140013FFF54003A := by decide +kernel

/-! ### Damask, Serge, Felt and the dies -/

theorem test_damask_create : (match exec (.create 0 (wCmd 0 0 0)) wS with
    | .next t => (t.dev.seqOf 0).map (·.cls) | _ => none) = some 0 := by decide +kernel

theorem test_serge_error : (match exec (.sergeUncorrectableSramError 1) wS with
    | .next t => (t.dev.srgUnit 1).state | _ => .idle) ≠ .idle := by decide +kernel

theorem test_lockstep_stops_safe_ok :
    (match exec .lockstepMismatch { dev := { wDev with felt := { safeOk := .running, pinA := true } } } with
    | .next t => (t.dev.felt.safeOk, t.dev.felt.pinA, t.dev.felt.pinB, t.dev.felt.lastCode) | _ => (.running, true, true, 0)) =
    (.stopped, false, false, 1) := by decide +kernel

/-- A skew of 2 ns restarts the die; one of 1 ns does not (R53). -/
theorem test_skew : (match exec (.tickBroadcastArrival 0) (wSkew 3000000002) with
      | .next t => (t.dev.die 0).state | _ => .awaiting) = .restarting ∧
    (match exec (.tickBroadcastArrival 0) (wSkew 3000000001) with
      | .next t => (t.dev.die 0).state | _ => .awaiting) = .admitted := by decide +kernel

theorem test_golden_mismatch : (match exec (.goldenSegmentEnd 0 (List.replicate 63 7 ++ [6]) 0)
      { dev := { wDev with felt := { golden := [(0, { seg := 0, running := true })] } } } with
    | .next t => (t.dev.felt.golden.length, t.dev.felt.goldenFail.val) | _ => (0, 0)) = (1, 1) := by decide +kernel

/-! ### Vehicle link -/

/-- The checks of R374 in their order. -/
theorem test_reject_cause : rejectCause wDev 0 (wBadCrc 0x81) = some 4 ∧
    rejectCause wDev 0 (wBadCrc 0x84) = some 2 ∧
    rejectCause wDev 0 { wFrame 0x81 with fcsOk := false } = some 1 ∧
    rejectCause wDev 0 (wFrame 0x81) = none := by decide +kernel

theorem test_heartbeat_accepted : (match exec (.controllerHeartbeat 0 (wFrame 0x83)) wS with
    | .next t => (t.dev.ctrl.silent, t.dev.ctrl.lastAccepted) | _ => (true, 0)) = (false, 3000000000) := by decide +kernel

theorem test_silence : (match exec .ctrlSilenceTimeout
      { dev := { wDev with ctrl := { silent := false, lastAccepted := 2980000000 } } } with
    | .next t => t.dev.ctrl.silent | _ => false) = true := by decide +kernel

theorem test_fragments : fragments 1460 = 1 ∧ fragments 1461 = 2 ∧ fragments 2912 = 2 ∧ fragments 2913 = 3 := by decide

/-! ### Host ports -/

/-- The worked example of R356: O = 0x100 and N = 0x10FF. -/
theorem test_query_ids :
    let held : List HeldId := [{ id := 0x100, done := none, result := none }, { id := 0x800, done := none, result := none },
                               { id := 0x10FF, done := none, result := none }]
    classify 0x1100 held = .new ∧ classify 0x800 held = .duplicate ∧ classify 0xFFFFFFF0 held = .stale := by decide +kernel

theorem test_open_without_rings : (match exec (.sessionOpen 0) wS with
    | .next t => ((t.dev.port 0).state, (t.dev.port 0).closeReason) | _ => (.open_, .none)) = (.closed, .config) := by
  decide +kernel

theorem test_heartbeat_timeout : (match exec (.heartbeatTimeout 0) (wPortS { state := .open_, hbAt := 2500000000 }) with
    | .next t => (t.dev.port 0).closeReason | _ => .none) = .heartbeat := by decide +kernel

theorem test_interrupt_clear : (match exec (.hstIntStatus 0 0x6) (wPortS { intStatus := 0x7 }) with
    | .next t => (t.dev.port 0).intStatus | _ => 0) = 1 := by decide +kernel

theorem test_doorbell_too_far : (match exec (.hstSqTail 0 65) (wPortS { state := .open_, sqSizeLog2 := 6 }) with
    | .next t => ((t.dev.port 0).sqTail, (t.dev.port 0).protoErr.val) | _ => (0, 0)) = (0, 1) := by decide +kernel

/-! ### Start-up, limits and traces -/

/-- The verification steps of R405 in their order. -/
theorem test_slot_cause : slotCause {} (phase0Parts ++ phase1Parts) wRead = none ∧
    slotCause {} phase0Parts { wRead with manifest := 0 :: wBytes.manifest.tail, manifestSigOk := false } = some 1 ∧
    slotCause { rootDigest := 1 } phase0Parts { wRead with certSigOk := false } = some 2 ∧
    slotCause {} phase0Parts { wRead with block := wBlock 2 7, manifestSigOk := false } = some 3 ∧
    slotCause {} phase0Parts { wRead with block := wBlock 1 3, manifestSigOk := false } = some 4 := by decide +kernel

theorem test_slot_cause_sections : slotCause { rollbackCount := 1 } phase0Parts wRead = some 6 ∧
    slotCause {} phase0Parts { wRead with manifest := wManifest 1 0xF00 } = some 4 ∧
    slotCause {} phase0Parts { wRead with sections := wBytes.sections.tail } = some 8 ∧
    slotCause {} phase0Parts { wRead with blockTimeout := true } = some 9 := by decide +kernel

theorem test_limit : (match exec (.limitWrite (.halve 2) 118) wS with
    | .next t => (t.dev.thermal 2).halveTh | _ => 0) = 118 ∧
    (match exec (.limitWrite (.off 2) 126) wS with | .next t => (t.dev.thermal 2).offTh | _ => 0) = 125 := by decide +kernel

theorem test_trace_sequence : (match exec (.tracePoint .m0 7 [1, 2])
      { dev := { wDev with boot := { wDev.boot with traceMask := [7], traceSeq := [(4, 255)] } } } with
    | .next t => (bget [] 4 t.dev.boot.traceLocal : List TraceRecord).map (fun r => (r.dieSeq, r.args)) | _ => []) =
    [(0, [1, 2])] := by decide +kernel

theorem test_devtime_latch : (match exec .tsqDevtimeLoRead wS with
    | .next t => (t.dev.time.latch.dev, t.dev.time.latch.k, t.dev.time.latch.m) | _ => (0, 0, 0)) = (3000000000, 5, 3) := by
  decide +kernel

theorem test_queue_order : (match step { dev := wDev, pending := [.tapInstruction .idcode, .tapInstruction .bypass] } with
    | .next t => (t.dev.boot.tap, t.pending) | _ => (.other, [])) = (.idcode, [.tapInstruction .bypass]) := by decide +kernel

theorem test_idle_cycle : (match step wS with | .next t => t.dev.time.dev | _ => 0) = 3000000001 := by decide +kernel

theorem test_reset_time : State.reset.dev.time.dev = 0 ∧ State.reset.dev.mem = [] ∧ State.reset.pending = [] := by decide

/-! ### What Caqueco checks -/

/-- R24: 20 ms in 20 minor ticks are 1,000 µs each; in 30 they do not divide; D of 20 minor ticks leaves none of the tick. -/
theorem test_caq_tick : caqTick (.mode 0) (wMode false) = [] ∧ caqTick (.mode 0) { wMode false with n := 30 } ≠ [] ∧
    caqTick (.mode 0) { wMode false with dMinor := 20 } ≠ [] := by decide +kernel

/-- R258: a mode has exactly one GOLDEN window, of at most 400 µs. -/
theorem test_caq_golden : caqGolden 0 { wMode false with windows := [{ wWin .golden 0 [] with durNs := 400000 }] } = [] ∧
    caqGolden 0 { wMode false with windows := [{ wWin .golden 0 [] with durNs := 400001 }] } ≠ [] ∧
    caqGolden 0 { wMode false with windows := [] } ≠ [] := by decide +kernel

/-! ### The words of the cores and the reads of the ports -/

/-- R200: the words of MOVI r3, 7 and of LOOP 2 over 5, and opcode 0x0F, which the table does not give. -/
theorem test_core_words : coreCommand 0 0 wSide 0x000000070000030C = some (.movi 0 0 3 7) ∧
    coreCommand 0 0 wSide 0x0000000500000208 = some (.loopOp 0 0 2 5) ∧
    coreCommand 0 0 wSide 0x0F = some (.undefinedOpcode 0 0) := by decide +kernel

/-- R345: an open session on the privileged port reads as state 2 with bit 3 and its generation from bit 16; the command field reads 0, as does an offset that
no block defines. -/
theorem test_register_reads :
    (wPortS { state := .open_, gen := 3 }).dev.readBar 0 0x008 = some 0x0003000A ∧ wDev.readBar 0 0x004 = some 0 ∧
    wDev.readBar 0 0x1000 = some 0 ∧ wDev.readBar 2 0x008 = none := by decide +kernel

/-- R7: a bit that the hardware sets at the device time of the write survives it. -/
theorem test_interrupt_set_wins : (match exec (.hstIntStatus 0 0x6)
      (wPortS { intStatus := 0x7, intSetBits := 0x4, intSetAt := 3000000000 }) with
    | .next t => (t.dev.port 0).intStatus | _ => 0) = 5 := by decide +kernel

/-! ### Percale and Serge's arithmetic -/

def wRaw : RawFrame where
  port := { wCamPort with black := [2, 0, 0, 1], satTh := 1000, blend := 0, ratio1 := 1024 }
  fields := wCamFields
  wbR := 4096
  wbB := 4096
  pix := []

/-- R93, R102: a black level of 2 is 32 on the 20-bit scale, and nothing falls below 0. -/
theorem test_black_level : blackLevel wRaw 0 0 100 = 68 ∧ blackLevel wRaw 1 1 10 = 0 := by decide +kernel

/-- R93: below SAT_TH exposure 0 stands for itself; at SAT_TH the next one does, 4 times as short (1024 is 4.0 in U8.8). -/
theorem test_hdr : combineFrom wRaw.port 0 [999, 300] = some (divRound 16 (999 * 256) 256) ∧
    combineFrom wRaw.port 0 [1000, 300] = some (divRound 16 (300 * 1024) 256) := ⟨rfl, rfl⟩

/-- IEEE 754: 1 / 3, 1 / 0 and 0 / 0 in FP64. -/
theorem test_f64_div : srgR.div64 0x3FF0000000000000 0x4008000000000000 = 0x3FD5555555555555 ∧
    srgR.div64 0x3FF0000000000000 0 = 0x7FF0000000000000 ∧ srgR.div64 0 0 = 0x7FF8000000000000 := by decide +kernel

/-- R304: zero, negative and small pivots are flagged, and a pivot at the bound is not. -/
theorem test_pivot : flaggedPivot 0x3FF0000000000000 0 = true ∧ flaggedPivot 0 0xBFF0000000000000 = true ∧
    flaggedPivot 0x3FF0000000000000 0x3FE0000000000000 = true ∧ flaggedPivot 0x3FF0000000000000 0x3FF0000000000000 = false := by
  decide +kernel

/-! ### For every statement with hypotheses, states and operands that meet them -/

/-- Each clause of StepRunsFrontCommand has a state and operands that meet its hypotheses. -/
theorem wit_StepRunsFrontCommand :
    ∃ s : State,
      s.pending = [] :=
  ⟨wS, by decide +kernel⟩

/-- Each clause of EveryCommandCompletes has a state and operands that meet its hypotheses. -/
theorem wit_EveryCommandCompletes :
    (∃ i : Instr, ∃ s : State,
      i.reaches s.dev = true) ∧
    (∃ i : Instr, ∃ s : State,
      i.idle s.dev = true) ∧
    (∃ i : Instr, ∃ s : State,
      i.reaches s.dev = false ∧
      i.idle s.dev = false) :=
  ⟨⟨.flitCrcError, wS, by decide +kernel⟩,
   ⟨.movi 1 0 1 5, wS, by decide +kernel⟩,
   ⟨.ldv 0 0 0 1 0 .clean, wCoreS { x := [(1, 0xFFFFFFFF)] }, by decide +kernel, by decide +kernel⟩⟩

/-- Each clause of WordsOfTheTableAndTheCores has a state and operands that meet its hypotheses. -/
theorem wit_WordsOfTheTableAndTheCores :
    (∃ x : BitVec 64, ∃ imm : Word, ∃ r : Fin 16,
      imm = BitVec.ofNat 32 (x.toNat / 2 ^ 32) ∧
      x.toNat % 2 ^ 8 = 0x0C ∧
      x.toNat / 2 ^ 8 % 2 ^ 5 = r.val) ∧
    (∃ x : BitVec 64, ∃ imm : Word, ∃ r a : Fin 16,
      imm = BitVec.ofNat 32 (x.toNat / 2 ^ 32) ∧
      x.toNat % 2 ^ 8 = 0x0D ∧
      x.toNat / 2 ^ 8 % 2 ^ 5 = r.val ∧
      x.toNat / 2 ^ 13 % 2 ^ 5 = a.val) ∧
    (∃ x : BitVec 64, ∃ imm : Word, ∃ v : Fin 32, ∃ a : Fin 16,
      imm = BitVec.ofNat 32 (x.toNat / 2 ^ 32) ∧
      x.toNat % 2 ^ 8 = 0x10 ∧
      x.toNat / 2 ^ 8 % 2 ^ 5 = v.val ∧
      x.toNat / 2 ^ 13 % 2 ^ 5 = a.val) ∧
    (∃ x : BitVec 64, ∃ imm : Word,
      imm = BitVec.ofNat 32 (x.toNat / 2 ^ 32) ∧
      x.toNat % 2 ^ 8 = 0x01) ∧
    (∃ x : BitVec 64, ∃ imm : Word,
      imm = BitVec.ofNat 32 (x.toNat / 2 ^ 32) ∧
      x.toNat % 2 ^ 8 = 0x02) ∧
    (∃ x : BitVec 64, ∃ imm : Word, ∃ l : Fin 4,
      imm = BitVec.ofNat 32 (x.toNat / 2 ^ 32) ∧
      x.toNat % 2 ^ 8 = 0x08 ∧
      x.toNat / 2 ^ 8 % 2 ^ 5 = l.val) ∧
    (∃ x : BitVec 64, ∃ imm : Word,
      imm = BitVec.ofNat 32 (x.toNat / 2 ^ 32) ∧
      opcodes.contains (x.toNat % 2 ^ 8) = false) :=
  ⟨⟨0x000000070000030C, _, 3, rfl, by decide +kernel, by decide +kernel⟩,
   ⟨0x000000070000430D, _, 3, 2, rfl, by decide +kernel, by decide +kernel, by decide +kernel⟩,
   ⟨0x0000000000005F10, _, 31, 2, rfl, by decide +kernel, by decide +kernel, by decide +kernel⟩,
   ⟨0x01, _, rfl, by decide +kernel⟩,
   ⟨0x02, _, rfl, by decide +kernel⟩,
   ⟨0x0000000500000308, _, 3, rfl, by decide +kernel, by decide +kernel⟩,
   ⟨0xFF, _, rfl, by decide +kernel⟩⟩

/-- Each clause of EveryStepKeepsMemoryCanonical has a state and operands that meet its hypotheses. -/
theorem wit_EveryStepKeepsMemoryCanonical :
    ∃ s t : State,
      memOk s.dev.mem ∧
      step s = .next t :=
  ⟨{ dev := { wDev with mem := [(16, 1)] }, pending := [.flitCrcError] }, _, by decide +kernel, rfl⟩

/-- Each clause of EveryStepKeepsSafeOkRule has a state and operands that meet its hypotheses. -/
theorem wit_EveryStepKeepsSafeOkRule :
    ∃ s t : State,
      s.safePins ∧
      step s = .next t :=
  ⟨{ dev := wDev, pending := [.tapInstruction .idcode] }, _, (by unfold State.safePins pinsOk; decide +kernel), rfl⟩

/-- Each clause of FusesOnlyBurn has a state and operands that meet its hypotheses. -/
theorem wit_FusesOnlyBurn :
    (∃ s t : State,
      step s = .next t) ∧
    (∃ s t : State,
      step s = .next t ∧
      s.dev.boot.nv.lifecycle = .retired) :=
  ⟨⟨{ dev := wDev, pending := [.tapInstruction .idcode] }, _, rfl⟩,
   ⟨{ dev := { wDev with boot := { wDev.boot with nv := { lifecycle := .retired } } }, pending := [.tapInstruction .idcode] }, _, rfl, by decide +kernel⟩⟩

/-- Each clause of CommandsNeverStepDeviceTime has a state and operands that meet its hypotheses. -/
theorem wit_CommandsNeverStepDeviceTime :
    (∃ i : Instr, ∃ s t : State,
      i.mayReset = false ∧
      exec i s = .next t) ∧
    (∃ i : Instr, ∃ s t : State,
      i.mayReset = false ∧
      exec i s = .next t ∧
      (∀ n, i ≠ .minorTickBoundary n) ∧
      i ≠ .majorTickBoundary) :=
  ⟨⟨.flitCrcError, wS, _, by decide +kernel, rfl⟩,
   ⟨.flitCrcError, wS, _, by decide +kernel, rfl, (by intro n h; cases h), by decide⟩⟩

/-- Each clause of PlanChangesAtMajorBoundariesOnly has a state and operands that meet its hypotheses. -/
theorem wit_PlanChangesAtMajorBoundariesOnly :
    ∃ i : Instr, ∃ s t : State,
      i.mayReset = false ∧
      i ≠ .majorTickBoundary ∧
      exec i s = .next t :=
  ⟨.flitCrcError, wS, _, by decide +kernel, by decide, rfl⟩

/-- Each clause of EveryCommandKeepsItsFrame has a state and operands that meet its hypotheses. -/
theorem wit_EveryCommandKeepsItsFrame :
    ∃ i : Instr, ∃ s t : State,
      exec i s = .next t :=
  ⟨.flitCrcError, wS, _, rfl⟩

/-- Each clause of TickBoundariesAdvance has a state and operands that meet its hypotheses. -/
theorem wit_TickBoundariesAdvance :
    (∃ s : State,
      s.dev.time.running = true ∧
      s.dev.time.begun = true ∧
      s.dev.time.nextM < s.dev.time.minors ∧
      s.dev.time.nextBoundary ≤ s.dev.time.dev) ∧
    (∃ s : State, ∃ k : Nat, ∃ b : Nanos,
      s.dev.majorDue = some (k, b)) ∧
    (∃ s : State, ∃ die : Fin 6, ∃ b : Broadcast,
      (s.dev.die die.val).broadcast = some b ∧
      (s.dev.die die.val).state = .admitted ∧
      (s.dev.die die.val).resync = false ∧
      (s.dev.die die.val).localK = b.k ∧
      (s.dev.die die.val).localEpoch = b.epoch ∧
      (s.dev.die die.val).localTime ≤ b.time + (s.dev.die die.val).latency + 1 ∧
      b.time + (s.dev.die die.val).latency ≤ (s.dev.die die.val).localTime + 1) :=
  ⟨⟨wS, by decide +kernel, by decide +kernel, by decide +kernel, by decide +kernel⟩,
   ⟨{ dev := { wDev with time := { wDev.time with nextM := 20 } } }, _, _, rfl⟩,
   ⟨wDieS { wDie with localK := 5, broadcast := some { k := 5, m := 3, epoch := 0, time := 3000000001, freq := 0, minorUs := 1000 } }, 0, _, rfl, by decide +kernel, by decide +kernel, rfl, rfl, by decide +kernel, by decide +kernel⟩⟩

/-- Each clause of SkewRestartsTheDie has a state and operands that meet its hypotheses. -/
theorem wit_SkewRestartsTheDie :
    (∃ s : State, ∃ die : Fin 6, ∃ b : Broadcast,
      (s.dev.die die.val).broadcast = some b ∧
      (s.dev.die die.val).state = .admitted ∧
      (s.dev.die die.val).resync = false ∧
      (s.dev.die die.val).localK = b.k ∧
      (s.dev.die die.val).localEpoch = b.epoch ∧
      (b.time + (s.dev.die die.val).latency + 1 < (s.dev.die die.val).localTime ∨
    (s.dev.die die.val).localTime + 1 < b.time + (s.dev.die die.val).latency)) ∧
    (∃ s : State, ∃ die : Fin 6, ∃ b : Broadcast,
      (s.dev.die die.val).broadcast = some b ∧
      (s.dev.die die.val).state = .admitted ∧
      (s.dev.die die.val).resync = false ∧
      ((s.dev.die die.val).localK ≠ b.k ∨ (s.dev.die die.val).localEpoch ≠ b.epoch) ∧
      (s.dev.die die.val).localTime ≤ b.time + (s.dev.die die.val).latency + 1 ∧
      b.time + (s.dev.die die.val).latency ≤ (s.dev.die die.val).localTime + 1) :=
  ⟨⟨wDieS { wDie with localK := 5, broadcast := some { k := 5, m := 3, epoch := 0, time := 3000000002, freq := 0, minorUs := 1000 } }, 0, _, rfl, by decide +kernel, by decide +kernel, rfl, rfl, by decide +kernel⟩,
   ⟨wDieS { wDie with localK := 5, broadcast := some { k := 5, m := 3, epoch := 1, time := 2999999999, freq := 0, minorUs := 1000 } }, 0, _, rfl, by decide +kernel, by decide +kernel, by decide +kernel, by decide +kernel, by decide +kernel⟩⟩

/-- Each clause of WindowsAreReleasedOrHeld has a state and operands that meet its hypotheses. -/
theorem wit_WindowsAreReleasedOrHeld :
    (∃ s : State, ∃ src : Source, ∃ tick w : Nat, ∃ tr : TickRec, ∃ r : WindowRec,
      s.dev.tickRec tick = some tr ∧
      tr.transition = false ∧
      s.dev.windowRec src tick w = some r ∧
      (s.dev.win src tick w).phase = .planned ∧
      r.kind ≠ .transmit ∧
      s.dev.opens src tick w r = false) ∧
    (∃ s : State, ∃ src : Source, ∃ tick w : Nat, ∃ tr : TickRec, ∃ r : WindowRec, ∃ c,
      s.dev.tickRec tick = some tr ∧
      tr.transition = false ∧
      s.dev.windowRec src tick w = some r ∧
      (s.dev.win src tick w).phase = .planned ∧
      r.kind ≠ .transmit ∧
      s.dev.opens src tick w r = true ∧
      s.dev.blocked src tick w r = some c) ∧
    (∃ s : State, ∃ src : Source, ∃ tick w : Nat, ∃ tr : TickRec, ∃ r : WindowRec,
      s.dev.tickRec tick = some tr ∧
      tr.transition = false ∧
      s.dev.windowRec src tick w = some r ∧
      (s.dev.win src tick w).phase = .planned ∧
      r.kind ≠ .transmit ∧
      s.dev.opens src tick w r = true ∧
      s.dev.blocked src tick w r = none ∧
      s.dev.coresBusy src tick r = true) ∧
    (∃ s : State, ∃ src : Source, ∃ tick w : Nat, ∃ tr : TickRec, ∃ r : WindowRec,
      s.dev.tickRec tick = some tr ∧
      tr.transition = false ∧
      s.dev.windowRec src tick w = some r ∧
      (s.dev.win src tick w).phase = .planned ∧
      r.kind ≠ .transmit ∧
      s.dev.opens src tick w r = true ∧
      s.dev.blocked src tick w r = none ∧
      s.dev.coresBusy src tick r = false) ∧
    (∃ s : State, ∃ tick : Nat, ∃ tr : TickRec,
      s.dev.tickRec tick = some tr ∧
      tr.transition = true) ∧
    (∃ s : State, ∃ src : Source, ∃ tick w : Nat, ∃ r : WindowRec, ∃ c,
      s.dev.windowRec src tick w = some r ∧
      ((s.dev.win src tick w).phase = .held ∨ ((s.dev.win src tick w).phase = .planned ∧ s.dev.lateUnit tick r = true)) ∧
      s.dev.opens src tick w r = true ∧
      s.dev.freed src tick r = true ∧
      s.dev.blocked src tick w r = some c) ∧
    (∃ s : State, ∃ src : Source, ∃ tick w : Nat, ∃ r : WindowRec,
      s.dev.windowRec src tick w = some r ∧
      ((s.dev.win src tick w).phase = .held ∨ ((s.dev.win src tick w).phase = .planned ∧ s.dev.lateUnit tick r = true)) ∧
      s.dev.opens src tick w r = true ∧
      s.dev.freed src tick r = true ∧
      s.dev.blocked src tick w r = none) :=
  ⟨⟨{ dev := { wDev with plan := { ticks := [(5, { wTick with valid := 3100000000 })] } } }, .main, 5, 0, _, _, rfl, by decide +kernel, rfl, by decide +kernel, by decide +kernel, by decide +kernel⟩,
   ⟨wDieS { wDie with state := .restarting }, .main, 5, 0, _, _, _, rfl, by decide +kernel, rfl, by decide +kernel, by decide +kernel, by decide +kernel, rfl⟩,
   ⟨wCoreS { window := some 0 }, .main, 5, 0, _, _, rfl, by decide +kernel, rfl, by decide +kernel, by decide +kernel, by decide +kernel, by decide +kernel, by decide +kernel⟩,
   ⟨wS, .main, 5, 0, _, _, rfl, by decide +kernel, rfl, by decide +kernel, by decide +kernel, by decide +kernel, by decide +kernel, by decide +kernel⟩,
   ⟨{ dev := { wDev with plan := { ticks := [(5, { wTick with transition := true })] } } }, 5, _, rfl, by decide +kernel⟩,
   ⟨{ dev := (wDev.setWin .main 5 0 { phase := .held }).setDie 0 { wDie with state := .restarting } }, .main, 5, 0, _, _, rfl, Or.inl (by decide +kernel), by decide +kernel, by decide +kernel, rfl⟩,
   ⟨wS, .main, 5, 1, _, rfl, Or.inr (by decide +kernel), by decide +kernel, by decide +kernel, by decide +kernel⟩⟩

/-- Each clause of WatchdogsStopLateWindows has a state and operands that meet its hypotheses. -/
theorem wit_WatchdogsStopLateWindows :
    (∃ s : State, ∃ src : Source, ∃ tick w : Nat, ∃ r : WindowRec,
      s.dev.windowRec src tick w = some r ∧
      s.dev.reached (s.dev.expiry tick r) = false) ∧
    (∃ s : State, ∃ src : Source, ∃ tick w : Nat, ∃ r : WindowRec,
      s.dev.windowRec src tick w = some r ∧
      s.dev.reached (s.dev.expiry tick r) = false ∧
      src = .main) ∧
    (∃ s : State, ∃ src : Source, ∃ tick w : Nat, ∃ r : WindowRec,
      s.dev.windowRec src tick w = some r ∧
      (s.dev.tickRec tick).isSome = true ∧
      s.dev.reached (s.dev.expiry tick r) = true ∧
      ((s.dev.win src tick w).phase = .planned ∨ (s.dev.win src tick w).phase = .held ∨ (s.dev.win src tick w).phase = .running) ∧
      (r.kind = .core ∨ r.kind = .recompute)) ∧
    (∃ s : State, ∃ src : Source, ∃ tick w : Nat, ∃ r : WindowRec,
      s.dev.windowRec src tick w = some r ∧
      (s.dev.tickRec tick).isSome = true ∧
      s.dev.reached (s.dev.expiry tick r) = true ∧
      ((s.dev.win src tick w).phase = .planned ∨ (s.dev.win src tick w).phase = .held ∨ (s.dev.win src tick w).phase = .running) ∧
      r.kind = .host) ∧
    (∃ s : State, ∃ src : Source, ∃ tick w run : Nat, ∃ r : WindowRec, ∃ d1 : Dev,
      s.dev.windowRec src tick w = some r ∧
      r.kind = .tweed ∧
      (s.dev.win src tick w).phase = .running ∧
      s.dev.reached (s.dev.expiry tick r) = true ∧
      run = (match (s.dev.engine src).overrunTick with
    | some t => if t = tick then (s.dev.engine src).overrunRun else if t + 1 = tick then (s.dev.engine src).overrunRun + 1 else 1
    | none => 1) ∧
      d1 = faultMiss .overrun src tick w (bumpTwd src 0x28 (·.overrun) (fun c e => { e with overrun := c }) 1
    (modEngine src (fun e => { e with
      overrunRun := if 3 ≤ run ∧ (s.dev.engine src).overrunTick ≠ some tick then 0 else run, overrunTick := some tick }) s.dev)) ∧
      src = .burlap) ∧
    (∃ s : State, ∃ src : Source, ∃ tick w run : Nat, ∃ r : WindowRec, ∃ d1 : Dev,
      s.dev.windowRec src tick w = some r ∧
      r.kind = .tweed ∧
      (s.dev.win src tick w).phase = .running ∧
      s.dev.reached (s.dev.expiry tick r) = true ∧
      run = (match (s.dev.engine src).overrunTick with
    | some t => if t = tick then (s.dev.engine src).overrunRun else if t + 1 = tick then (s.dev.engine src).overrunRun + 1 else 1
    | none => 1) ∧
      d1 = faultMiss .overrun src tick w (bumpTwd src 0x28 (·.overrun) (fun c e => { e with overrun := c }) 1
    (modEngine src (fun e => { e with
      overrunRun := if 3 ≤ run ∧ (s.dev.engine src).overrunTick ≠ some tick then 0 else run, overrunTick := some tick }) s.dev)) ∧
      src = .main ∧
      (run < 3 ∨ (s.dev.engine src).overrunTick = some tick)) ∧
    (∃ s : State, ∃ src : Source, ∃ tick w run : Nat, ∃ r : WindowRec, ∃ d1 : Dev, ∃ i,
      s.dev.windowRec src tick w = some r ∧
      r.kind = .tweed ∧
      (s.dev.win src tick w).phase = .running ∧
      s.dev.reached (s.dev.expiry tick r) = true ∧
      run = (match (s.dev.engine src).overrunTick with
    | some t => if t = tick then (s.dev.engine src).overrunRun else if t + 1 = tick then (s.dev.engine src).overrunRun + 1 else 1
    | none => 1) ∧
      d1 = faultMiss .overrun src tick w (bumpTwd src 0x28 (·.overrun) (fun c e => { e with overrun := c }) 1
    (modEngine src (fun e => { e with
      overrunRun := if 3 ≤ run ∧ (s.dev.engine src).overrunTick ≠ some tick then 0 else run, overrunTick := some tick }) s.dev)) ∧
      src = .main ∧
      3 ≤ run ∧
      (s.dev.engine src).overrunTick ≠ some tick ∧
      d1.parts.findIdx? (fun p => p.die = 4) = some i) ∧
    (∃ s : State, ∃ tick w x rank run : Nat, ∃ r : WindowRec, ∃ g : GridRec, ∃ o : ChbRec, ∃ d0 d1 d2 : Dev,
      s.dev.windowRec .main tick w = some r ∧
      r.kind = .chambray ∧
      (s.dev.win .main tick w).phase = .running ∧
      s.dev.reached (s.dev.expiry tick r) = true ∧
      s.dev.gridAt tick = some g ∧
      gridOp g w = some (o, rank) ∧
      o.units[rank]? = some x ∧
      d0 = (if o.op = .lift then stopLift (s.dev.chbCtx tick w g o rank x) s.dev else s.dev) ∧
      d1 = bump (barChbOf x + 0x1C) (d0.chb x).overrun 1 (fun c => modChb x (fun u => { u with overrun := c })) d0 ∧
      run = (d1.chb x).overrunRun + 1 ∧
      d2 = faultMiss .overrun .main tick w
    (modChb x (fun u => { u with state := .idle, overrunRun := if 3 ≤ run then 0 else run }) d1) ∧
      run < 3) ∧
    (∃ s : State, ∃ tick w x rank run : Nat, ∃ r : WindowRec, ∃ g : GridRec, ∃ o : ChbRec, ∃ d0 d1 d2 : Dev, ∃ i,
      s.dev.windowRec .main tick w = some r ∧
      r.kind = .chambray ∧
      (s.dev.win .main tick w).phase = .running ∧
      s.dev.reached (s.dev.expiry tick r) = true ∧
      s.dev.gridAt tick = some g ∧
      gridOp g w = some (o, rank) ∧
      o.units[rank]? = some x ∧
      d0 = (if o.op = .lift then stopLift (s.dev.chbCtx tick w g o rank x) s.dev else s.dev) ∧
      d1 = bump (barChbOf x + 0x1C) (d0.chb x).overrun 1 (fun c => modChb x (fun u => { u with overrun := c })) d0 ∧
      run = (d1.chb x).overrunRun + 1 ∧
      d2 = faultMiss .overrun .main tick w
    (modChb x (fun u => { u with state := .idle, overrunRun := if 3 ≤ run then 0 else run }) d1) ∧
      3 ≤ run ∧
      d2.parts.findIdx? (fun p => p.die = x && p.chambray) = some i) ∧
    (∃ s : State, ∃ tick w : Nat, ∃ r : WindowRec,
      s.dev.windowRec .main tick w = some r ∧
      r.kind = .assembly ∧
      s.dev.reached (s.dev.expiry tick r) = true) ∧
    (∃ s : State, ∃ tick w : Nat, ∃ r : WindowRec,
      s.dev.windowRec .burlap tick w = some r ∧
      r.kind = .assembly ∧
      s.dev.reached (s.dev.expiry tick r) = true ∧
      (s.dev.win .burlap tick w).phase = .running) :=
  ⟨⟨{ dev := { wDev with plan := { ticks := [(5, { wTick with valid := 3100000000 })] } } }, .main, 5, 0, _, rfl, by decide +kernel⟩,
   ⟨{ dev := { wDev with plan := { ticks := [(5, { wTick with valid := 3100000000 })] } } }, .main, 5, 2, _, rfl, by decide +kernel, by decide +kernel⟩,
   ⟨wWinS .main 0 .running, .main, 5, 0, _, rfl, by decide +kernel, by decide +kernel, Or.inr (Or.inr (by decide +kernel)), Or.inl (by decide +kernel)⟩,
   ⟨wWinS .main 6 .running, .main, 5, 6, _, rfl, by decide +kernel, by decide +kernel, Or.inr (Or.inr (by decide +kernel)), by decide +kernel⟩,
   ⟨wWinS .burlap 1 .running, .burlap, 5, 1, _, _, _, rfl, by decide +kernel, by decide +kernel, by decide +kernel, rfl, rfl, by decide +kernel⟩,
   ⟨wWinS .main 1 .running, .main, 5, 1, _, _, _, rfl, by decide +kernel, by decide +kernel, by decide +kernel, rfl, rfl, by decide +kernel, Or.inl (by decide +kernel)⟩,
   ⟨{ dev := { wDev.setWin .main 5 1 { phase := .running } with tweed := { overrunTick := some 4, overrunRun := 2 } } }, .main, 5, 1, _, _, _, 1, rfl, by decide +kernel, by decide +kernel, by decide +kernel, rfl, rfl, by decide +kernel, by decide +kernel, by decide +kernel, by decide +kernel⟩,
   ⟨wWinS .main 2 .running, 5, 2, _, _, _, _, _, _, _, _, _, rfl, by decide +kernel, by decide +kernel, by decide +kernel, rfl, rfl, rfl, rfl, rfl, rfl, rfl, by decide +kernel⟩,
   ⟨{ dev := modChb 0 (fun u => { u with overrunRun := 2 }) (wDev.setWin .main 5 2 { phase := .running }) }, 5, 2, _, _, _, _, _, _, _, _, _, _, rfl, by decide +kernel, by decide +kernel, by decide +kernel, rfl, rfl, rfl, rfl, rfl, rfl, rfl, by decide +kernel, rfl⟩,
   ⟨wWinS .main 4 .running, 5, 4, _, rfl, by decide +kernel, by decide +kernel⟩,
   ⟨wWinS .burlap 2 .running, 5, 2, _, rfl, by decide +kernel, by decide +kernel, by decide +kernel⟩⟩

/-- Each clause of WindowsEnd has a state and operands that meet its hypotheses. -/
theorem wit_WindowsEnd :
    (∃ s : State, ∃ tick w : Nat, ∃ r : WindowRec,
      s.dev.windowRec .main tick w = some r ∧
      r.kind = .assembly ∧
      (s.dev.win .main tick w).phase = .running) ∧
    (∃ s : State, ∃ tick w : Nat, ∃ contents : List Delivered, ∃ r : WindowRec, ∃ d1 : Dev,
      s.dev.windowRec .burlap tick w = some r ∧
      r.kind = .assembly ∧
      (s.dev.win .burlap tick w).phase = .running ∧
      d1 = r.outputs.foldl (completeOutput .burlap tick contents)
    (s.dev.setWin .burlap tick w { s.dev.win .burlap tick w with phase := .ended })) ∧
    (∃ s : State, ∃ tick w : Nat, ∃ r : WindowRec, ∃ d1 : Dev,
      s.dev.windowRec .main tick w = some r ∧
      r.kind = .staging ∧
      (s.dev.win .main tick w).phase = .running ∧
      s.dev.reached (s.dev.plannedEnd tick r) = true ∧
      d1 = s.dev.setWin .main tick w { s.dev.win .main tick w with phase := .ended } ∧
      d1.copying tick = none) ∧
    (∃ s : State, ∃ tick w : Nat, ∃ r : WindowRec, ∃ d1 : Dev, ∃ q : PendingMode, ∃ m : ModeRec,
      s.dev.windowRec .main tick w = some r ∧
      r.kind = .staging ∧
      (s.dev.win .main tick w).phase = .running ∧
      s.dev.reached (s.dev.plannedEnd tick r) = true ∧
      d1 = s.dev.setWin .main tick w { s.dev.win .main tick w with phase := .ended } ∧
      d1.copying tick = some (q, m)) ∧
    (∃ s : State, ∃ tick w : Nat, ∃ r : WindowRec, ∃ t : TickRec,
      s.dev.windowRec .main tick w = some r ∧
      s.dev.tickRec tick = some t ∧
      r.kind = .transmit ∧
      (s.dev.win .main tick w).phase = .planned ∧
      t.transition = false ∧
      s.dev.reached (s.dev.opening tick r) = true) ∧
    (∃ s : State, ∃ tick w : Nat, ∃ r : WindowRec, ∃ e : Int, ∃ d1 : Dev,
      s.dev.windowRec .main tick w = some r ∧
      r.kind = .host ∧
      s.dev.plannedEnd tick r = some e ∧
      e ≤ (s.dev.now : Int) ∧
      d1 = flushWindow (winKey .main tick w) (decide (e + 200 * usNs < s.dev.now)) s.dev ∧
      (d1.win .main tick w).phase ≠ .running) ∧
    (∃ s : State, ∃ tick w : Nat, ∃ r : WindowRec, ∃ e : Int, ∃ d1 : Dev,
      s.dev.windowRec .main tick w = some r ∧
      r.kind = .host ∧
      s.dev.plannedEnd tick r = some e ∧
      e ≤ (s.dev.now : Int) ∧
      d1 = flushWindow (winKey .main tick w) (decide (e + 200 * usNs < s.dev.now)) s.dev ∧
      (d1.win .main tick w).phase = .running ∧
      d1.nextIn (winKey .main tick w) = none) ∧
    (∃ s : State, ∃ tick w : Nat, ∃ r : WindowRec, ∃ e : Int, ∃ d1 : Dev,
      s.dev.windowRec .main tick w = some r ∧
      r.kind = .host ∧
      s.dev.plannedEnd tick r = some e ∧
      e ≤ (s.dev.now : Int) ∧
      d1 = flushWindow (winKey .main tick w) (decide (e + 200 * usNs < s.dev.now)) s.dev ∧
      (d1.win .main tick w).phase = .running ∧
      (d1.nextIn (winKey .main tick w)).isSome = true) ∧
    (∃ s : State, ∃ tick w : Nat, ∃ r : WindowRec,
      s.dev.windowRec .main tick w = some r ∧
      r.kind = .golden ∧
      (s.dev.win .main tick w).phase = .running ∧
      s.dev.reached (s.dev.plannedEnd tick r) = true) :=
  ⟨⟨wWinS .main 4 .running, 5, 4, _, rfl, by decide +kernel, by decide +kernel⟩,
   ⟨wWinS .burlap 2 .running, 5, 2, [], _, _, rfl, by decide +kernel, by decide +kernel, rfl⟩,
   ⟨wWinS .main 9 .running, 5, 9, _, _, rfl, by decide +kernel, by decide +kernel, by decide +kernel, rfl, by decide +kernel⟩,
   ⟨{ dev := { wDev.setWin .main 5 9 { phase := .running } with plan := { (wDev.setWin .main 5 9 { phase := .running }).plan with pending := some { target := 1, effect := 6, staged := true, copied := 0, reason := .request, announced := false } } } }, 5, 9, _, _, _, _, rfl, by decide +kernel, by decide +kernel, by decide +kernel, rfl, rfl⟩,
   ⟨wS, 5, 5, _, _, rfl, rfl, by decide +kernel, by decide +kernel, by decide +kernel, by decide +kernel⟩,
   ⟨wS, 5, 6, _, _, _, rfl, by decide +kernel, rfl, by decide +kernel, rfl, by decide +kernel⟩,
   ⟨wWinS .main 6 .running, 5, 6, _, _, _, rfl, by decide +kernel, rfl, by decide +kernel, rfl, by decide +kernel, by decide +kernel⟩,
   ⟨{ dev := wQuery 1 [] }, 5, 6, _, _, _, rfl, by decide +kernel, rfl, by decide +kernel, rfl, by decide +kernel, by decide +kernel⟩,
   ⟨wWinS .main 8 .running, 5, 8, _, rfl, by decide +kernel, by decide +kernel, by decide +kernel⟩⟩

/-- Each clause of VehicleTimeServo has a state and operands that meet its hypotheses. -/
theorem wit_VehicleTimeServo :
    (∃ s : State,
      s.dev.v0.link = .up ∧
      s.dev.time.servo.state = .freeRun) ∧
    (∃ s : State, ∃ pair : SyncPair, ∃ off e : Int, ∃ v1 v : ServoState,
      s.dev.v0.link = .up ∧
      s.dev.time.servo.state ≠ .freeRun ∧
      off = pair.vehicleNs - (pair.stamp : Int) ∧
      e = off - s.dev.time.servo.ov.getD off ∧
      v1 = { s.dev.time.servo with lastSync := s.dev.now, latest := some { at_ := pair.stamp, offset := off, resid := 0 } } ∧
      v = (if s.dev.time.servo.state = .holdover then { v1 with state := .acquiring, lockRun := 0, outliers := 0 } else v1) ∧
      s.dev.time.servo.capturePending = true) ∧
    (∃ s : State, ∃ pair : SyncPair, ∃ off e : Int, ∃ v1 v : ServoState,
      s.dev.v0.link = .up ∧
      s.dev.time.servo.state ≠ .freeRun ∧
      off = pair.vehicleNs - (pair.stamp : Int) ∧
      e = off - s.dev.time.servo.ov.getD off ∧
      v1 = { s.dev.time.servo with lastSync := s.dev.now, latest := some { at_ := pair.stamp, offset := off, resid := 0 } } ∧
      v = (if s.dev.time.servo.state = .holdover then { v1 with state := .acquiring, lockRun := 0, outliers := 0 } else v1) ∧
      s.dev.time.servo.capturePending = false ∧
      (s.dev.setServo v).outlier pair.stamp e = true ∧
      v.outliers < 3) ∧
    (∃ s : State, ∃ pair : SyncPair, ∃ off e : Int, ∃ v1 v : ServoState,
      s.dev.v0.link = .up ∧
      s.dev.time.servo.state ≠ .freeRun ∧
      off = pair.vehicleNs - (pair.stamp : Int) ∧
      e = off - s.dev.time.servo.ov.getD off ∧
      v1 = { s.dev.time.servo with lastSync := s.dev.now, latest := some { at_ := pair.stamp, offset := off, resid := 0 } } ∧
      v = (if s.dev.time.servo.state = .holdover then { v1 with state := .acquiring, lockRun := 0, outliers := 0 } else v1) ∧
      s.dev.time.servo.capturePending = false ∧
      (s.dev.setServo v).outlier pair.stamp e = true ∧
      3 ≤ v.outliers) ∧
    (∃ s : State, ∃ pair : SyncPair, ∃ off e : Int, ∃ v1 v : ServoState,
      s.dev.v0.link = .up ∧
      s.dev.time.servo.state ≠ .freeRun ∧
      off = pair.vehicleNs - (pair.stamp : Int) ∧
      e = off - s.dev.time.servo.ov.getD off ∧
      v1 = { s.dev.time.servo with lastSync := s.dev.now, latest := some { at_ := pair.stamp, offset := off, resid := 0 } } ∧
      v = (if s.dev.time.servo.state = .holdover then { v1 with state := .acquiring, lockRun := 0, outliers := 0 } else v1) ∧
      s.dev.time.servo.capturePending = false ∧
      (s.dev.setServo v).outlier pair.stamp e = false) ∧
    (∃ d : Dev, ∃ r : Int, ∃ p : OffsetSample,
      d.time.servo.prev = some p ∧
      d.time.servo.rho = some r) ∧
    (∃ s : State, ∃ gm : Nat,
      s.dev.v0.link = .up ∧
      s.dev.time.servo.gm = some gm) ∧
    (∃ s : State,
      s.dev.v0.link = .up ∧
      s.dev.time.servo.gm = none) ∧
    (∃ s : State, ∃ gm : Nat, ∃ g,
      s.dev.v0.link = .up ∧
      s.dev.time.servo.gm = some g ∧
      g ≠ gm ∧
      s.dev.time.servo.state = .freeRun) ∧
    (∃ s : State, ∃ gm : Nat, ∃ g,
      s.dev.v0.link = .up ∧
      s.dev.time.servo.gm = some g ∧
      g ≠ gm ∧
      s.dev.time.servo.state ≠ .freeRun) ∧
    (∃ s : State,
      (s.dev.time.servo.lastSync + 3 * syncInterval s.dev.image.link.logSync ≤ s.dev.now ∨ s.dev.v0.link ≠ .up ∨
    s.dev.time.v0.asCapable = false)) ∧
    (∃ s : State,
      s.dev.time.servo.saturated = true ∧
      s.dev.time.servo.state = .acquiring ∧
      s.dev.time.servo.satSince + secNs ≤ s.dev.now) :=
  ⟨⟨wS, by decide +kernel, by decide +kernel⟩,
   ⟨{ dev := { wDev with time := { wDev.time with servo := { state := .acquiring, capturePending := true } } } }, { vehicleNs := 2999000000, stamp := 2999000000 }, _, _, _, _, by decide +kernel, by decide +kernel, rfl, rfl, rfl, rfl, by decide +kernel⟩,
   ⟨{ dev := { wDev with time := { wDev.time with servo := { state := .locked, ov := some 0, rho := some 0, prev := some { at_ := 2900000000, offset := 0, resid := 0 }, gm := some 7, outliers := 2 } } } }, { vehicleNs := 2999020000, stamp := 2999000000 }, _, _, _, _, by decide +kernel, by decide +kernel, rfl, rfl, rfl, rfl, by decide +kernel, by decide +kernel, by decide +kernel⟩,
   ⟨{ dev := { wDev with time := { wDev.time with servo := { state := .locked, ov := some 0, rho := some 0, prev := some { at_ := 2900000000, offset := 0, resid := 0 }, gm := some 7, outliers := 3 } } } }, { vehicleNs := 2999020000, stamp := 2999000000 }, _, _, _, _, by decide +kernel, by decide +kernel, rfl, rfl, rfl, rfl, by decide +kernel, by decide +kernel, by decide +kernel⟩,
   ⟨{ dev := { wDev with time := { wDev.time with servo := { state := .locked, ov := some 0, rho := some 0, prev := some { at_ := 2900000000, offset := 0, resid := 0 }, gm := some 7, outliers := 0 } } } }, { vehicleNs := 2999000100, stamp := 2999000000 }, _, _, _, _, by decide +kernel, by decide +kernel, rfl, rfl, rfl, rfl, by decide +kernel, by decide +kernel⟩,
   ⟨{ wDev with time := { wDev.time with servo := { state := .locked, ov := some 0, rho := some 0, prev := some { at_ := 2900000000, offset := 0, resid := 0 }, gm := some 7, outliers := 0 } } }, _, _, rfl, rfl⟩,
   ⟨{ dev := { wDev with time := { wDev.time with servo := { state := .locked, ov := some 0, rho := some 0, prev := some { at_ := 2900000000, offset := 0, resid := 0 }, gm := some 7, outliers := 0 } } } }, 7, by decide +kernel, by decide +kernel⟩,
   ⟨wS, by decide +kernel, by decide +kernel⟩,
   ⟨{ dev := { wDev with time := { wDev.time with servo := { gm := some 7 } } } }, 8, _, by decide +kernel, rfl, by decide +kernel, by decide +kernel⟩,
   ⟨{ dev := { wDev with time := { wDev.time with servo := { state := .locked, ov := some 0, rho := some 0, prev := some { at_ := 2900000000, offset := 0, resid := 0 }, gm := some 7, outliers := 0 } } } }, 8, _, by decide +kernel, rfl, by decide +kernel, by decide +kernel⟩,
   ⟨wS, by decide +kernel⟩,
   ⟨{ dev := { wDev with time := { wDev.time with servo := { state := .acquiring, saturated := true, satSince := 2000000000 } } } }, by decide +kernel, by decide +kernel, by decide +kernel⟩⟩

/-- Each clause of LidarTimeIsDeviceTime has a state and operands that meet its hypotheses. -/
theorem wit_LidarTimeIsDeviceTime :
    (∃ s : State, ∃ n : Fin 8,
      s.dev.gptpRuns (.lidar n) = true ∧
      (s.dev.gptp (.lidar n)).lastSyncSent + s.dev.lidarSyncNs n.val ≤ s.dev.now) ∧
    (∃ s : State, ∃ n : Fin 8,
      s.dev.gptpRuns (.lidar n) = true ∧
      (s.dev.gptp (.lidar n)).lastAnnounceSent + secNs ≤ s.dev.now) :=
  ⟨⟨wS, 0, by decide +kernel, by decide +kernel⟩,
   ⟨wS, 0, by decide +kernel, by decide +kernel⟩⟩

/-- Each clause of GptpPortsFollowTheirRoles has a state and operands that meet its hypotheses. -/
theorem wit_GptpPortsFollowTheirRoles :
    (∃ s : State, ∃ p : GptpPort,
      s.dev.gptpRuns p = true ∧
      (s.dev.gptp p).lastReq + secNs ≤ s.dev.now) ∧
    (∃ s : State, ∃ p : GptpPort,
      s.dev.gptpRuns p = true) ∧
    (∃ s : State, ∃ p : GptpPort,
      s.dev.gptpRuns p = true) ∧
    (∃ s : State, ∃ n : Fin 8,
      (s.dev.lidar n.val).link = .up) ∧
    (∃ s : State,
      s.dev.v1.link = .up) :=
  ⟨⟨wS, .v0, by decide +kernel, by decide +kernel⟩,
   ⟨wS, .lidar 0, by decide +kernel⟩,
   ⟨wS, .lidar 0, by decide +kernel⟩,
   ⟨wS, 0, by decide +kernel⟩,
   ⟨wS, by decide +kernel⟩⟩

/-- Each clause of GatesCloseAndTweedFollows has a state and operands that meet its hypotheses. -/
theorem wit_GatesCloseAndTweedFollows :
    (∃ s : State, ∃ stream : Fin 48, ∃ e : StreamEntry, ∃ j v : Nat, ∃ d1 : Dev,
      s.dev.entry stream.val = some e ∧
      s.dev.nextValid (s.dev.stream stream.val).nextGate = some (j, v) ∧
      s.dev.noGate stream.val j = false ∧
      d1 = closeGate stream.val j e v s.dev ∧
      s.dev.now < s.dev.gateAt e v) ∧
    (∃ s : State, ∃ stream : Fin 48, ∃ e : StreamEntry, ∃ j v : Nat, ∃ d1 : Dev,
      s.dev.entry stream.val = some e ∧
      s.dev.nextValid (s.dev.stream stream.val).nextGate = some (j, v) ∧
      s.dev.noGate stream.val j = false ∧
      d1 = closeGate stream.val j e v s.dev ∧
      s.dev.gateAt e v ≤ s.dev.now ∧
      e.kind = .point) ∧
    (∃ s : State, ∃ stream : Fin 48, ∃ e : StreamEntry, ∃ j v : Nat, ∃ d1 : Dev, ∃ f,
      s.dev.entry stream.val = some e ∧
      s.dev.nextValid (s.dev.stream stream.val).nextGate = some (j, v) ∧
      s.dev.noGate stream.val j = false ∧
      d1 = closeGate stream.val j e v s.dev ∧
      s.dev.gateAt e v ≤ s.dev.now ∧
      e.kind = .rowBand ∧
      e.src = .camera f) ∧
    (∃ s : State, ∃ stream : Fin 48, ∃ e : StreamEntry, ∃ j v : Nat, ∃ d1 : Dev,
      s.dev.entry stream.val = some e ∧
      s.dev.nextValid (s.dev.stream stream.val).nextGate = some (j, v) ∧
      s.dev.noGate stream.val j = false ∧
      d1 = closeGate stream.val j e v s.dev ∧
      s.dev.gateAt e v ≤ s.dev.now ∧
      e.kind = .egoInput) ∧
    (∃ s : State, ∃ src : Source, ∃ stream : Fin 48, ∃ sl : Slice, ∃ p : Point, ∃ rest : List Point,
      s.dev.slice src stream.val = some sl ∧
      sl.points = p :: rest ∧
      p.arrival + s.dev.sliceNs ≤ s.dev.now) ∧
    (∃ s : State, ∃ src : Source, ∃ stream : Fin 48, ∃ sl : Slice, ∃ p : Point, ∃ rest : List Point,
      s.dev.slice src stream.val = some sl ∧
      sl.points = p :: rest ∧
      s.dev.now < p.arrival + s.dev.sliceNs) ∧
    (∃ s : State, ∃ src : Source, ∃ tick : Nat, ∃ waiting : List (PointRec × Nat),
      tick = (s.dev.engine src).tick ∧
      s.dev.mayInsert src tick = true ∧
      s.dev.engineRuns src = true ∧
      waiting = (((s.dev.engine src).store tick).zipIdx.filter (fun x => x.1.pending && decide (x.1.tick = tick)))) ∧
    (∃ s : State, ∃ src : Source,
      s.dev.tweedDone src (s.dev.engine src).tick = true) :=
  ⟨⟨{ dev := { wDev with muslin := { streams := [(0, { mode := .active, nextGate := 5 })] }, plan := { ticks := [(5, { wTick with valid := 3100000000 })] } } }, 0, _, _, _, _, rfl, rfl, by decide +kernel, rfl, by decide +kernel⟩,
   ⟨{ dev := { wDev with muslin := { streams := [(0, { mode := .active, nextGate := 5 })] } } }, 0, _, _, _, _, rfl, rfl, by decide +kernel, rfl, by decide +kernel, by decide +kernel⟩,
   ⟨{ dev := { wDev with muslin := { streams := [(1, { mode := .active, nextGate := 5 })] } } }, 1, _, _, _, _, _, rfl, rfl, by decide +kernel, rfl, by decide +kernel, by decide +kernel, rfl⟩,
   ⟨{ dev := { wDev with muslin := { streams := [(2, { mode := .active, nextGate := 5 })] } } }, 2, _, _, _, _, rfl, rfl, by decide +kernel, rfl, by decide +kernel, by decide +kernel⟩,
   ⟨{ dev := { wDev with tweed := { slices := [(0, some { tick := 5, number := 0, points := [{ p := { x := 0, y := 0, z := 0 }, intensity := 0, ret := 0, stream := 0, t := 2999000000, arrival := 2999500000 }] })] } } }, .main, 0, _, _, _, rfl, rfl, by decide +kernel⟩,
   ⟨{ dev := { wDev with tweed := { slices := [(0, some { tick := 5, number := 0, points := [{ p := { x := 0, y := 0, z := 0 }, intensity := 0, ret := 0, stream := 0, t := 2999000000, arrival := 3000000000 }] })] } } }, .main, 0, _, _, _, rfl, rfl, by decide +kernel⟩,
   ⟨{ dev := { wDev with tweed := { tick := 5 } } }, .main, _, _, rfl, by decide +kernel, by decide +kernel, rfl⟩,
   ⟨{ dev := { wDev with tweed := { tick := 5 } } }, .main, by decide +kernel⟩⟩

/-- Each clause of LidarPortsTakeFrames has a state and operands that meet its hypotheses. -/
theorem wit_LidarPortsTakeFrames :
    (∃ s : State, ∃ n : Fin 8, ∃ frame : LidarFrame, ∃ st : Nat, ∃ e : StreamEntry, ∃ f : LidarFields,
      s.dev.lidarEntry n.val = some (st, e, f) ∧
      (s.dev.lidar n.val).link = .up ∧
      frame.fcsOk = false) ∧
    (∃ s : State, ∃ n : Fin 8, ∃ frame : LidarFrame, ∃ st : Nat, ∃ e : StreamEntry, ∃ f : LidarFields,
      s.dev.lidarEntry n.val = some (st, e, f) ∧
      (s.dev.lidar n.val).link = .up ∧
      frame.fcsOk = true ∧
      (frame.dest = f.portMac ∨ frame.dest = 0xFFFFFFFFFFFF ∨ frame.dest = gptpMac) ∧
      frame.etherType = 0x88F7) ∧
    (∃ s : State, ∃ n : Fin 8, ∃ frame : LidarFrame, ∃ st : Nat, ∃ e : StreamEntry, ∃ f : LidarFields,
      s.dev.lidarEntry n.val = some (st, e, f) ∧
      (s.dev.lidar n.val).link = .up ∧
      frame.fcsOk = true ∧
      (frame.dest = f.portMac ∨ frame.dest = 0xFFFFFFFFFFFF ∨ frame.dest = gptpMac) ∧
      frame.etherType ≠ 0x88F7 ∧
      frame.fits = false) ∧
    (∃ s : State, ∃ n : Fin 8, ∃ frame : LidarFrame, ∃ st : Nat, ∃ e : StreamEntry, ∃ f : LidarFields, ∃ q ps,
      s.dev.lidarEntry n.val = some (st, e, f) ∧
      (s.dev.lidar n.val).link = .up ∧
      frame.fcsOk = true ∧
      (frame.dest = f.portMac ∨ frame.dest = 0xFFFFFFFFFFFF ∨ frame.dest = gptpMac) ∧
      frame.etherType ≠ 0x88F7 ∧
      frame.fits = true ∧
      assoc f.parser s.dev.image.parsers = some q ∧
      decodePacket q frame = some ps) ∧
    (∃ s : State, ∃ n : Fin 8, ∃ frame : LidarFrame, ∃ st : Nat, ∃ e : StreamEntry, ∃ f : LidarFields, ∃ q,
      s.dev.lidarEntry n.val = some (st, e, f) ∧
      (s.dev.lidar n.val).link = .up ∧
      frame.fcsOk = true ∧
      (frame.dest = f.portMac ∨ frame.dest = 0xFFFFFFFFFFFF ∨ frame.dest = gptpMac) ∧
      frame.etherType ≠ 0x88F7 ∧
      frame.fits = true ∧
      assoc f.parser s.dev.image.parsers = some q ∧
      decodePacket q frame = none) ∧
    (∃ s : State, ∃ n : Fin 8, ∃ frame : LidarFrame, ∃ st : Nat, ∃ e : StreamEntry, ∃ f : LidarFields,
      s.dev.lidarEntry n.val = some (st, e, f) ∧
      (s.dev.lidar n.val).link = .up ∧
      frame.fcsOk = true ∧
      frame.dest ≠ f.portMac ∧
      frame.dest ≠ 0xFFFFFFFFFFFF ∧
      frame.dest ≠ gptpMac) ∧
    (∃ s : State, ∃ n : Fin 8, ∃ d1 : Dev,
      (s.dev.lidar n.val).link = .up ∧
      d1 = bump (barLid n.val + 0x04) (s.dev.lidar n.val).linkLoss 1 (fun c d => modLidar n.val (fun x => { x with linkLoss := c }) d)
    (modLidar n.val (fun x => { x with link := .training, gptp := { x.gptp with asCapable := false } }) s.dev)) ∧
    (∃ s : State, ∃ n : Fin 8,
      (s.dev.lidar n.val).link ≠ .up) ∧
    (∃ s : State, ∃ n : Fin 8,
      (s.dev.lidar n.val).link = .training) :=
  ⟨⟨wS, 0, { wLidarFrame with fcsOk := false }, _, _, _, rfl, by decide +kernel, by decide +kernel⟩,
   ⟨wS, 0, { wLidarFrame with etherType := 0x88F7 }, _, _, _, rfl, by decide +kernel, by decide +kernel, by decide +kernel, by decide +kernel⟩,
   ⟨wS, 0, { wLidarFrame with fits := false }, _, _, _, rfl, by decide +kernel, by decide +kernel, by decide +kernel, by decide +kernel, by decide +kernel⟩,
   ⟨wS, 0, wLidarFrame, _, _, _, _, _, rfl, by decide +kernel, by decide +kernel, by decide +kernel, by decide +kernel, by decide +kernel, rfl, rfl⟩,
   ⟨wS, 0, { wLidarFrame with payload := [0] }, _, _, _, _, rfl, by decide +kernel, by decide +kernel, by decide +kernel, by decide +kernel, by decide +kernel, rfl, by decide +kernel⟩,
   ⟨wS, 0, { wLidarFrame with dest := 0x43 }, _, _, _, rfl, by decide +kernel, by decide +kernel, by decide +kernel, by decide +kernel, by decide +kernel⟩,
   ⟨wS, 0, _, by decide +kernel, rfl⟩,
   ⟨{ dev := wDev.setLidar 0 { link := .down } }, 0, by decide +kernel⟩,
   ⟨{ dev := { wDev with ports := { lidars := [(0, { link := .training })] } } }, 0, by decide +kernel⟩⟩

/-- Each clause of CameraLinksTrainAndRecover has a state and operands that meet its hypotheses. -/
theorem wit_CameraLinksTrainAndRecover :
    (∃ s : State, ∃ port : Fin 16, ∃ n : Nat, ∃ d1 : Dev,
      ((s.dev.camera port.val).link = .up ∨ (s.dev.camera port.val).link = .init) ∧
      n = (match s.dev.camStream port.val, (s.dev.camera port.val).frame with
    | some (_, _, f), some x => if x.triggered && !x.ended then (begunBands f x).length else 0
    | _, _ => 0) ∧
      d1 = bump (barCam port.val + 0x04) (s.dev.camera port.val).linkLoss 1
    (fun k d => modCamera port.val (fun x => { x with linkLoss := k }) d)
    (beginTraining port.val (dropBands port.val n s.dev))) ∧
    (∃ s : State, ∃ port : Fin 16,
      (s.dev.camera port.val).link = .down ∧
      (s.dev.camera port.val).retrain = true ∧
      (s.dev.camera port.val).attemptBegan + 100 * msNs ≤ s.dev.now) ∧
    (∃ s : State, ∃ port : Fin 16, ∃ r : CameraPort,
      s.dev.camRec port.val = some r ∧
      (s.dev.camera port.val).link = .training) ∧
    (∃ s : State, ∃ port : Fin 16, ∃ d1 : Dev,
      (s.dev.camera port.val).link = .training ∧
      (s.dev.camera port.val).attemptBegan + 20 * msNs ≤ s.dev.now ∧
      d1 = bump (barCam port.val + 0x08) (s.dev.camera port.val).trainFail 1
    (fun k d => modCamera port.val (fun x => { x with trainFail := k }) d) (goDown port.val s.dev) ∧
      (s.dev.camera port.val).trainReported = true) ∧
    (∃ s : State, ∃ port : Fin 16, ∃ d1 : Dev,
      (s.dev.camera port.val).link = .training ∧
      (s.dev.camera port.val).attemptBegan + 20 * msNs ≤ s.dev.now ∧
      d1 = bump (barCam port.val + 0x08) (s.dev.camera port.val).trainFail 1
    (fun k d => modCamera port.val (fun x => { x with trainFail := k }) d) (goDown port.val s.dev) ∧
      (s.dev.camera port.val).trainReported = false) ∧
    (∃ s : State, ∃ stream : Fin 48, ∃ e : StreamEntry, ∃ d1 : Dev,
      s.dev.absenceDue stream.val = true ∧
      d1 = enterReacquiring stream.val s.dev ∧
      d1.entry stream.val = some e ∧
      (∀ f, e.src ≠ .camera f)) ∧
    (∃ s : State, ∃ stream : Fin 48, ∃ e : StreamEntry, ∃ d1 : Dev, ∃ f r,
      s.dev.absenceDue stream.val = true ∧
      d1 = enterReacquiring stream.val s.dev ∧
      d1.entry stream.val = some e ∧
      e.src = .camera f ∧
      d1.camRec e.port = some r ∧
      (d1.camera e.port).link = .up) ∧
    (∃ s : State, ∃ stream : Fin 48, ∃ e : StreamEntry, ∃ d1 : Dev, ∃ f r,
      s.dev.absenceDue stream.val = true ∧
      d1 = enterReacquiring stream.val s.dev ∧
      d1.entry stream.val = some e ∧
      e.src = .camera f ∧
      d1.camRec e.port = some r ∧
      (d1.camera e.port).link ≠ .up) ∧
    (∃ s : State, ∃ stream : Fin 48, ∃ e : StreamEntry, ∃ r : ReacqRun,
      s.dev.entry stream.val = some e ∧
      (s.dev.stream stream.val).run = some r ∧
      (s.dev.stream stream.val).mode = .reacquiring ∧
      (s.dev.stream stream.val).runDone = false ∧
      r.periodStart + periodNs e ≤ s.dev.now ∧
      r.seen = false) ∧
    (∃ s : State, ∃ stream : Fin 48, ∃ e : StreamEntry, ∃ r : ReacqRun,
      s.dev.entry stream.val = some e ∧
      (s.dev.stream stream.val).run = some r ∧
      (s.dev.stream stream.val).mode = .reacquiring ∧
      (s.dev.stream stream.val).runDone = false ∧
      r.periodStart + periodNs e ≤ s.dev.now ∧
      r.seen = true) :=
  ⟨⟨{ dev := wDev.setCamera 0 { link := .up, frame := some wFrameState } }, 0, _, _, Or.inl (by decide +kernel), rfl, rfl⟩,
   ⟨{ dev := wDev.setCamera 0 { link := .down, retrain := true } }, 0, by decide +kernel, by decide +kernel, by decide +kernel⟩,
   ⟨{ dev := wDev.setCamera 0 { link := .training } }, 0, _, rfl, by decide +kernel⟩,
   ⟨{ dev := wDev.setCamera 0 { link := .training } }, 0, _, by decide +kernel, by decide +kernel, rfl, by decide +kernel⟩,
   ⟨{ dev := wDev.setCamera 0 { link := .training, trainReported := false } }, 0, _, by decide +kernel, by decide +kernel, rfl, by decide +kernel⟩,
   ⟨wS, 0, _, _, by decide +kernel, rfl, rfl, (by intro f h; cases h)⟩,
   ⟨wS, 1, _, _, _, _, by decide +kernel, rfl, rfl, rfl, rfl, by decide +kernel⟩,
   ⟨{ dev := { wDev with ports := {} } }, 1, _, _, _, _, by decide +kernel, rfl, rfl, rfl, rfl, by decide +kernel⟩,
   ⟨{ dev := wDev.setStream 0 { mode := .reacquiring, run := some { periodStart := 2000000000, seen := false, done := 0 } } }, 0, _, _, rfl, rfl, by decide +kernel, by decide +kernel, by decide +kernel, by decide +kernel⟩,
   ⟨{ dev := wDev.setStream 0 { mode := .reacquiring, run := some { periodStart := 2000000000, seen := true, done := 1 } } }, 0, _, _, rfl, rfl, by decide +kernel, by decide +kernel, by decide +kernel, by decide +kernel⟩⟩

/-- Each clause of CciTransactionsEnd has a state and operands that meet its hypotheses. -/
theorem wit_CciTransactionsEnd :
    (∃ s : State, ∃ port : Fin 16, ∃ data i : Nat, ∃ r : CameraPort, ∃ e : InitEntry,
      s.dev.camRec port.val = some r ∧
      (s.dev.camera port.val).job = .entry i ∧
      r.init[i]? = some e ∧
      e.op ≠ 1 ∧
      (e.op ≠ 3 ∨ data = e.value)) ∧
    (∃ s : State, ∃ port : Fin 16, ∃ data i : Nat, ∃ r : CameraPort, ∃ e : InitEntry,
      s.dev.camRec port.val = some r ∧
      (s.dev.camera port.val).job = .entry i ∧
      r.init[i]? = some e ∧
      e.op ≠ 1 ∧
      e.op = 3 ∧
      data ≠ e.value) ∧
    (∃ s : State, ∃ port : Fin 16, ∃ data : Nat, ∃ r : CameraPort,
      s.dev.camRec port.val = some r ∧
      (s.dev.camera port.val).job = .sentinel ∧
      data % 256 = r.sentinelVal) ∧
    (∃ s : State, ∃ port : Fin 16, ∃ data : Nat, ∃ r : CameraPort,
      s.dev.camRec port.val = some r ∧
      (s.dev.camera port.val).job = .sentinel ∧
      data % 256 ≠ r.sentinelVal) ∧
    (∃ s : State, ∃ port : Fin 16, ∃ j : Nat, ∃ r : CameraPort,
      s.dev.camRec port.val = some r ∧
      (s.dev.camera port.val).job = .exposure j ∧
      j < 3) ∧
    (∃ s : State, ∃ port : Fin 16, ∃ j : Nat, ∃ r : CameraPort,
      s.dev.camRec port.val = some r ∧
      (s.dev.camera port.val).job = .exposure j ∧
      3 ≤ j) ∧
    (∃ s : State, ∃ port : Fin 16, ∃ r : CameraPort,
      s.dev.camRec port.val = some r ∧
      ((∃ j, (s.dev.camera port.val).job = .exposure j) ∨ (s.dev.camera port.val).job = .sentinel) ∧
      (s.dev.camera port.val).jobBegan + msNs ≤ s.dev.now) ∧
    (∃ s : State, ∃ port : Fin 16, ∃ r : CameraPort,
      s.dev.camRec port.val = some r ∧
      ((∃ j, (s.dev.camera port.val).job = .exposure j) ∨ (s.dev.camera port.val).job = .sentinel) ∧
      s.dev.now < (s.dev.camera port.val).jobBegan + msNs) ∧
    (∃ s : State, ∃ port : Fin 16, ∃ i : Nat, ∃ r : CameraPort, ∃ e : InitEntry,
      s.dev.camRec port.val = some r ∧
      (s.dev.camera port.val).job = .entry i ∧
      r.init[i]? = some e ∧
      e.op ≠ 1 ∧
      (s.dev.camera port.val).jobBegan + msNs ≤ s.dev.now) ∧
    (∃ s : State, ∃ port : Fin 16, ∃ i : Nat, ∃ r : CameraPort, ∃ e : InitEntry,
      s.dev.camRec port.val = some r ∧
      (s.dev.camera port.val).job = .entry i ∧
      r.init[i]? = some e ∧
      e.op = 1 ∧
      (s.dev.camera port.val).jobBegan + e.addr * usNs ≤ s.dev.now) :=
  ⟨⟨{ dev := wDev.setCamera 0 { link := .init, job := .entry 1 } }, 0, 7, 1, _, _, rfl, by decide +kernel, rfl, by decide +kernel, by decide +kernel⟩,
   ⟨{ dev := wDev.setCamera 0 { link := .init, job := .entry 1 } }, 0, 8, 1, _, _, rfl, by decide +kernel, rfl, by decide +kernel, by decide +kernel, by decide +kernel⟩,
   ⟨{ dev := wDev.setCamera 0 { link := .init, job := .sentinel } }, 0, 1, _, rfl, by decide +kernel, rfl⟩,
   ⟨{ dev := wDev.setCamera 0 { link := .init, job := .sentinel } }, 0, 2, _, rfl, by decide +kernel, by decide +kernel⟩,
   ⟨{ dev := wDev.setCamera 0 { link := .init, job := .exposure 2 } }, 0, 2, _, rfl, by decide +kernel, by decide +kernel⟩,
   ⟨{ dev := wDev.setCamera 0 { link := .init, job := .exposure 3 } }, 0, 3, _, rfl, by decide +kernel, by decide +kernel⟩,
   ⟨{ dev := wDev.setCamera 0 { link := .init, job := .sentinel } }, 0, _, rfl, Or.inr (by decide +kernel), by decide +kernel⟩,
   ⟨{ dev := wDev.setCamera 0 { link := .init, job := .exposure 0, jobBegan := 2999500000 } }, 0, _, rfl, Or.inl ⟨0, by decide +kernel⟩, by decide +kernel⟩,
   ⟨{ dev := wDev.setCamera 0 { link := .init, job := .entry 0 } }, 0, 0, _, _, rfl, by decide +kernel, rfl, by decide +kernel, by decide +kernel⟩,
   ⟨{ dev := wDev.setCamera 0 { link := .init, job := .entry 2 } }, 0, 2, _, _, rfl, by decide +kernel, rfl, by decide +kernel, by decide +kernel⟩⟩

/-- Each clause of CameraFramesAreTriggeredAndTaken has a state and operands that meet its hypotheses. -/
theorem wit_CameraFramesAreTriggeredAndTaken :
    (∃ s : State, ∃ port : Fin 16, ∃ r : CameraPort, ∃ n : Nat, ∃ e : StreamEntry, ∃ f : CameraFields, ∃ v : Nat, ∃ x : Nat × Nat, ∃ t : Int, ∃ nx : Nat × Bool, ∃ d1 : Dev,
      s.dev.camRec port.val = some r ∧
      s.dev.camStream port.val = some (n, e, f) ∧
      s.dev.validAt (s.dev.camera port.val).trigTick = some v ∧
      s.dev.time.begun = true ∧
      (s.dev.stream n).mode ≠ .disabled ∧
      x = frameExposure s.dev r (s.dev.camera port.val) v (s.dev.camera port.val).trigSecond ∧
      t = trigAt r s.dev.time.pNs v (s.dev.camera port.val).trigSecond x.1 ∧
      t - halfPs r.uplinkLatNs ≤ halfPs s.dev.now ∧
      nx = nextFrame f.framesPerTick (s.dev.camera port.val).trigTick (s.dev.camera port.val).trigSecond ∧
      d1 = modCamera port.val (fun y => { y with trigTick := nx.1, trigSecond := nx.2 }) s.dev ∧
      (s.dev.camera port.val).link = .up) ∧
    (∃ s : State, ∃ port : Fin 16, ∃ r : CameraPort, ∃ n : Nat, ∃ e : StreamEntry, ∃ f : CameraFields, ∃ v : Nat, ∃ x : Nat × Nat, ∃ t : Int, ∃ nx : Nat × Bool, ∃ d1 : Dev,
      s.dev.camRec port.val = some r ∧
      s.dev.camStream port.val = some (n, e, f) ∧
      s.dev.validAt (s.dev.camera port.val).trigTick = some v ∧
      s.dev.time.begun = true ∧
      (s.dev.stream n).mode ≠ .disabled ∧
      x = frameExposure s.dev r (s.dev.camera port.val) v (s.dev.camera port.val).trigSecond ∧
      t = trigAt r s.dev.time.pNs v (s.dev.camera port.val).trigSecond x.1 ∧
      t - halfPs r.uplinkLatNs ≤ halfPs s.dev.now ∧
      nx = nextFrame f.framesPerTick (s.dev.camera port.val).trigTick (s.dev.camera port.val).trigSecond ∧
      d1 = modCamera port.val (fun y => { y with trigTick := nx.1, trigSecond := nx.2 }) s.dev ∧
      (s.dev.camera port.val).link ≠ .up) ∧
    (∃ s : State, ∃ port : Fin 16, ∃ pkt : CsiPacket, ∃ r : CameraPort, ∃ n : Nat, ∃ e : StreamEntry, ∃ f : CameraFields,
      (s.dev.camera port.val).link = .up ∧
      s.dev.camRec port.val = some r ∧
      s.dev.camStream port.val = some (n, e, f) ∧
      pkt.ecc = .uncorrectable) ∧
    (∃ s : State, ∃ port : Fin 16, ∃ pkt : CsiPacket, ∃ r : CameraPort, ∃ n i : Nat, ∃ e : StreamEntry, ∃ f : CameraFields, ∃ d0 : Dev,
      (s.dev.camera port.val).link = .up ∧
      s.dev.camRec port.val = some r ∧
      s.dev.camStream port.val = some (n, e, f) ∧
      pkt.ecc ≠ .uncorrectable ∧
      f.vcMap.findIdx? (· = pkt.vc) = some i ∧
      d0 = (if pkt.ecc = .corrected then bump (barCam port.val + 0x0C) (s.dev.camera port.val).eccCorr 1
      (fun k d => modCamera port.val (fun y => { y with eccCorr := k }) d) s.dev else s.dev) ∧
      pkt.dataType = 0x00 ∧
      i = 0) ∧
    (∃ s : State, ∃ port : Fin 16, ∃ pkt : CsiPacket, ∃ r : CameraPort, ∃ n i : Nat, ∃ e : StreamEntry, ∃ f : CameraFields, ∃ d0 : Dev,
      (s.dev.camera port.val).link = .up ∧
      s.dev.camRec port.val = some r ∧
      s.dev.camStream port.val = some (n, e, f) ∧
      pkt.ecc ≠ .uncorrectable ∧
      f.vcMap.findIdx? (· = pkt.vc) = some i ∧
      d0 = (if pkt.ecc = .corrected then bump (barCam port.val + 0x0C) (s.dev.camera port.val).eccCorr 1
      (fun k d => modCamera port.val (fun y => { y with eccCorr := k }) d) s.dev else s.dev) ∧
      pkt.dataType = 0x00 ∧
      i ≠ 0) ∧
    (∃ s : State, ∃ port : Fin 16, ∃ pkt : CsiPacket, ∃ r : CameraPort, ∃ n i : Nat, ∃ e : StreamEntry, ∃ f : CameraFields, ∃ d0 : Dev,
      (s.dev.camera port.val).link = .up ∧
      s.dev.camRec port.val = some r ∧
      s.dev.camStream port.val = some (n, e, f) ∧
      pkt.ecc ≠ .uncorrectable ∧
      f.vcMap.findIdx? (· = pkt.vc) = some i ∧
      d0 = (if pkt.ecc = .corrected then bump (barCam port.val + 0x0C) (s.dev.camera port.val).eccCorr 1
      (fun k d => modCamera port.val (fun y => { y with eccCorr := k }) d) s.dev else s.dev) ∧
      pkt.dataType = 0x01 ∧
      i + 1 = f.vcMap.length) ∧
    (∃ s : State, ∃ port : Fin 16, ∃ pkt : CsiPacket, ∃ r : CameraPort, ∃ n i : Nat, ∃ e : StreamEntry, ∃ f : CameraFields, ∃ d0 : Dev,
      (s.dev.camera port.val).link = .up ∧
      s.dev.camRec port.val = some r ∧
      s.dev.camStream port.val = some (n, e, f) ∧
      pkt.ecc ≠ .uncorrectable ∧
      f.vcMap.findIdx? (· = pkt.vc) = some i ∧
      d0 = (if pkt.ecc = .corrected then bump (barCam port.val + 0x0C) (s.dev.camera port.val).eccCorr 1
      (fun k d => modCamera port.val (fun y => { y with eccCorr := k }) d) s.dev else s.dev) ∧
      pkt.dataType = 0x01 ∧
      i + 1 ≠ f.vcMap.length) ∧
    (∃ s : State, ∃ port : Fin 16, ∃ pkt : CsiPacket, ∃ r : CameraPort, ∃ n i : Nat, ∃ e : StreamEntry, ∃ f : CameraFields, ∃ d0 : Dev,
      (s.dev.camera port.val).link = .up ∧
      s.dev.camRec port.val = some r ∧
      s.dev.camStream port.val = some (n, e, f) ∧
      pkt.ecc ≠ .uncorrectable ∧
      f.vcMap.findIdx? (· = pkt.vc) = some i ∧
      d0 = (if pkt.ecc = .corrected then bump (barCam port.val + 0x0C) (s.dev.camera port.val).eccCorr 1
      (fun k d => modCamera port.val (fun y => { y with eccCorr := k }) d) s.dev else s.dev) ∧
      (pkt.dataType = 0x02 ∨ pkt.dataType = 0x03)) ∧
    (∃ s : State, ∃ port : Fin 16, ∃ pkt : CsiPacket, ∃ r : CameraPort, ∃ n i : Nat, ∃ e : StreamEntry, ∃ f : CameraFields, ∃ d0 : Dev,
      (s.dev.camera port.val).link = .up ∧
      s.dev.camRec port.val = some r ∧
      s.dev.camStream port.val = some (n, e, f) ∧
      pkt.ecc ≠ .uncorrectable ∧
      f.vcMap.findIdx? (· = pkt.vc) = some i ∧
      d0 = (if pkt.ecc = .corrected then bump (barCam port.val + 0x0C) (s.dev.camera port.val).eccCorr 1
      (fun k d => modCamera port.val (fun y => { y with eccCorr := k }) d) s.dev else s.dev) ∧
      pkt.dataType = f.dataType ∧
      0x10 ≤ pkt.dataType) ∧
    (∃ s : State, ∃ port : Fin 16, ∃ pkt : CsiPacket, ∃ r : CameraPort, ∃ n i : Nat, ∃ e : StreamEntry, ∃ f : CameraFields, ∃ d0 : Dev,
      (s.dev.camera port.val).link = .up ∧
      s.dev.camRec port.val = some r ∧
      s.dev.camStream port.val = some (n, e, f) ∧
      pkt.ecc ≠ .uncorrectable ∧
      f.vcMap.findIdx? (· = pkt.vc) = some i ∧
      d0 = (if pkt.ecc = .corrected then bump (barCam port.val + 0x0C) (s.dev.camera port.val).eccCorr 1
      (fun k d => modCamera port.val (fun y => { y with eccCorr := k }) d) s.dev else s.dev) ∧
      pkt.dataType ≠ f.dataType ∧
      pkt.dataType = 0x12 ∧
      pkt.crcOk = true) ∧
    (∃ s : State, ∃ port : Fin 16, ∃ pkt : CsiPacket, ∃ r : CameraPort, ∃ n i : Nat, ∃ e : StreamEntry, ∃ f : CameraFields, ∃ d0 : Dev,
      (s.dev.camera port.val).link = .up ∧
      s.dev.camRec port.val = some r ∧
      s.dev.camStream port.val = some (n, e, f) ∧
      pkt.ecc ≠ .uncorrectable ∧
      f.vcMap.findIdx? (· = pkt.vc) = some i ∧
      d0 = (if pkt.ecc = .corrected then bump (barCam port.val + 0x0C) (s.dev.camera port.val).eccCorr 1
      (fun k d => modCamera port.val (fun y => { y with eccCorr := k }) d) s.dev else s.dev) ∧
      pkt.dataType ≠ f.dataType ∧
      0x10 ≤ pkt.dataType ∧
      (pkt.dataType ≠ 0x12 ∨ pkt.crcOk = false)) ∧
    (∃ s : State, ∃ port : Fin 16, ∃ band tick : Nat, ∃ x : CamFrame, ∃ r : CameraPort, ∃ n : Nat, ∃ e : StreamEntry, ∃ f : CameraFields, ∃ raw : RawFrame,
      (s.dev.camera port.val).frame = some x ∧
      s.dev.camRec port.val = some r ∧
      s.dev.camStream port.val = some (n, e, f) ∧
      x.done.contains band = false ∧
      x.hasNeeded f band = true ∧
      assoc band x.onTime = some tick ∧
      raw = { port := r, fields := f, wbR := x.wbR, wbB := x.wbB, pix := x.pix }) ∧
    (∃ s : State, ∃ port : Fin 16, ∃ band tick : Nat, ∃ x : CamFrame, ∃ r : CameraPort, ∃ n : Nat, ∃ e : StreamEntry, ∃ f : CameraFields, ∃ raw : RawFrame,
      (∀ y, (s.dev.camera port.val).frame = some y → y.ready f band = none) ∧
      s.dev.camRec port.val = some r ∧
      s.dev.camStream port.val = some (n, e, f) ∧
      (s.dev.camera port.val).lastFrame = some x ∧
      x.done.contains band = false ∧
      assoc band x.onTime = some tick ∧
      raw = { port := r, fields := f, wbR := x.wbR, wbB := x.wbB, pix := x.pix }) ∧
    (∃ s : State, ∃ port : Fin 16, ∃ band : Nat, ∃ r : CameraPort, ∃ n : Nat, ∃ e : StreamEntry, ∃ f : CameraFields,
      (∀ y, (s.dev.camera port.val).frame = some y → y.ready f band = none) ∧
      s.dev.camRec port.val = some r ∧
      s.dev.camStream port.val = some (n, e, f) ∧
      (∀ y, (s.dev.camera port.val).lastFrame = some y → y.done.contains band = true ∨ assoc band y.onTime = none)) ∧
    (∃ s : State, ∃ port : Fin 16,
      (s.dev.camera port.val).link ≠ .up) ∧
    (∃ s : State, ∃ port : Fin 16,
      ((s.dev.camera port.val).frame = none ∨
    ∃ x, (s.dev.camera port.val).frame = some x ∧ (x.triggered = false ∨ x.metered = true))) ∧
    (∃ s : State, ∃ port : Fin 16, ∃ x : CamFrame, ∃ stats : FrameStats, ∃ r : CameraPort, ∃ n : Nat, ∃ e : StreamEntry, ∃ f : CameraFields, ∃ d1 : Dev, ∃ w : Nat × Nat, ∃ wr wb : Nat,
      (s.dev.camera port.val).frame = some x ∧
      s.dev.camRec port.val = some r ∧
      s.dev.camStream port.val = some (n, e, f) ∧
      x.triggered = true ∧
      x.metered = false ∧
      bandCount f ≤ x.closed.length ∧
      stats = (rawFrame r f x).stats ∧
      d1 = modCamera port.val (fun y => { y with stats := stats, frame := some { x with metered := true } }) s.dev ∧
      (d1.camera port.val).link = .up ∧
      (d1.stream n).mode ≠ .disabled ∧
      w = splitProduct r (expGate e f r) (d1.camera port.val).expNs (d1.camera port.val).gain
    (stepProduct ((d1.camera port.val).expNs * (d1.camera port.val).gain) r.targetLuma stats.metered r.stepEv16) ∧
      (wr = (if zonesIn stats.zoneLuma < 16 ∨ f.cfa = 0 then (d1.camera port.val).wbNextR else
    moveGain (d1.camera port.val).wbNextR (grayGain (zoneSum stats.zoneLuma stats.zoneG) (zoneSum stats.zoneLuma stats.zoneR))
      r.wbStep)) ∧
      (wb = (if zonesIn stats.zoneLuma < 16 ∨ f.cfa = 0 then (d1.camera port.val).wbNextB else
    moveGain (d1.camera port.val).wbNextB (grayGain (zoneSum stats.zoneLuma stats.zoneG) (zoneSum stats.zoneLuma stats.zoneB))
      r.wbStep)) ∧
      (d1.camera port.val).job = .idle) ∧
    (∃ s : State, ∃ port : Fin 16, ∃ x : CamFrame, ∃ stats : FrameStats, ∃ r : CameraPort, ∃ n : Nat, ∃ e : StreamEntry, ∃ f : CameraFields, ∃ d1 : Dev, ∃ w : Nat × Nat, ∃ wr wb : Nat,
      (s.dev.camera port.val).frame = some x ∧
      s.dev.camRec port.val = some r ∧
      s.dev.camStream port.val = some (n, e, f) ∧
      x.triggered = true ∧
      x.metered = false ∧
      bandCount f ≤ x.closed.length ∧
      stats = (rawFrame r f x).stats ∧
      d1 = modCamera port.val (fun y => { y with stats := stats, frame := some { x with metered := true } }) s.dev ∧
      (d1.camera port.val).link = .up ∧
      (d1.stream n).mode ≠ .disabled ∧
      w = splitProduct r (expGate e f r) (d1.camera port.val).expNs (d1.camera port.val).gain
    (stepProduct ((d1.camera port.val).expNs * (d1.camera port.val).gain) r.targetLuma stats.metered r.stepEv16) ∧
      (wr = (if zonesIn stats.zoneLuma < 16 ∨ f.cfa = 0 then (d1.camera port.val).wbNextR else
    moveGain (d1.camera port.val).wbNextR (grayGain (zoneSum stats.zoneLuma stats.zoneG) (zoneSum stats.zoneLuma stats.zoneR))
      r.wbStep)) ∧
      (wb = (if zonesIn stats.zoneLuma < 16 ∨ f.cfa = 0 then (d1.camera port.val).wbNextB else
    moveGain (d1.camera port.val).wbNextB (grayGain (zoneSum stats.zoneLuma stats.zoneG) (zoneSum stats.zoneLuma stats.zoneB))
      r.wbStep)) ∧
      (d1.camera port.val).job ≠ .idle) ∧
    (∃ metered : Nat,
      metered = 0) :=
  ⟨⟨{ dev := wDev.setCamera 0 { link := .up, trigTick := 5 } }, 0, _, _, _, _, _, _, _, _, _, rfl, rfl, rfl, by decide +kernel, by decide +kernel, rfl, rfl, by decide +kernel, rfl, rfl, by decide +kernel⟩,
   ⟨{ dev := wDev.setCamera 0 { link := .down, trigTick := 5 } }, 0, _, _, _, _, _, _, _, _, _, rfl, rfl, rfl, by decide +kernel, by decide +kernel, rfl, rfl, by decide +kernel, rfl, rfl, by decide +kernel⟩,
   ⟨wS, 0, { wPacket 0 0 with ecc := .uncorrectable }, _, _, _, _, by decide +kernel, rfl, rfl, by decide +kernel⟩,
   ⟨wS, 0, wPacket 0 0, _, _, 0, _, _, _, by decide +kernel, rfl, rfl, by decide +kernel, by decide +kernel, rfl, by decide +kernel, by decide +kernel⟩,
   ⟨wS, 0, wPacket 0 1, _, _, 1, _, _, _, by decide +kernel, rfl, rfl, by decide +kernel, by decide +kernel, rfl, by decide +kernel, by decide +kernel⟩,
   ⟨wS, 0, wPacket 1 1, _, _, 1, _, _, _, by decide +kernel, rfl, rfl, by decide +kernel, by decide +kernel, rfl, by decide +kernel, rfl⟩,
   ⟨wS, 0, wPacket 1 0, _, _, 0, _, _, _, by decide +kernel, rfl, rfl, by decide +kernel, by decide +kernel, rfl, by decide +kernel, by decide +kernel⟩,
   ⟨wS, 0, wPacket 2 0, _, _, 0, _, _, _, by decide +kernel, rfl, rfl, by decide +kernel, by decide +kernel, rfl, by decide +kernel⟩,
   ⟨wS, 0, wPacket 0x2A 0, _, _, 0, _, _, _, by decide +kernel, rfl, rfl, by decide +kernel, by decide +kernel, rfl, rfl, by decide +kernel⟩,
   ⟨wS, 0, wPacket 0x12 0, _, _, 0, _, _, _, by decide +kernel, rfl, rfl, by decide +kernel, by decide +kernel, rfl, by decide +kernel, by decide +kernel, by decide +kernel⟩,
   ⟨wS, 0, wPacket 0x10 0, _, _, 0, _, _, _, by decide +kernel, rfl, rfl, by decide +kernel, by decide +kernel, rfl, by decide +kernel, by decide +kernel, by decide +kernel⟩,
   ⟨{ dev := wDev.setCamera 0 { link := .up, frame := some { wFrameState with onTime := [(0, 5)], reached := 8 } } }, 0, 0, 5, _, _, _, _, _, _, rfl, rfl, rfl, by decide +kernel, by decide +kernel, by decide +kernel, rfl⟩,
   ⟨{ dev := wDev.setCamera 0 { link := .up, lastFrame := some { wFrameState with onTime := [(0, 5)] } } }, 0, 0, 5, _, _, _, _, _, _, (by intro y h; cases h), rfl, rfl, rfl, by decide +kernel, by decide +kernel, rfl⟩,
   ⟨wS, 0, 0, _, _, _, _, (by intro y h; cases h), rfl, rfl, (by intro y h; cases h)⟩,
   ⟨{ dev := wDev.setCamera 0 { link := .down } }, 0, by decide +kernel⟩,
   ⟨wS, 0, Or.inl (by decide +kernel)⟩,
   ⟨{ dev := wDev.setCamera 0 { link := .up, frame := some { wFrameState with closed := [0, 1] } } }, 0, _, _, _, _, _, _, _, _, _, _, rfl, rfl, rfl, by decide +kernel, by decide +kernel, by decide +kernel, rfl, rfl, by decide +kernel, by decide +kernel, rfl, rfl, rfl, by decide +kernel⟩,
   ⟨{ dev := wDev.setCamera 0 { link := .up, job := .exposure 0, frame := some { wFrameState with closed := [0, 1] } } }, 0, _, _, _, _, _, _, _, _, _, _, rfl, rfl, rfl, by decide +kernel, by decide +kernel, by decide +kernel, rfl, rfl, by decide +kernel, by decide +kernel, rfl, rfl, rfl, by decide +kernel⟩,
   ⟨0, by decide +kernel⟩⟩

/-- Each clause of ImuPortsSampleAndCount has a state and operands that meet its hypotheses. -/
theorem wit_ImuPortsSampleAndCount :
    (∃ s : State, ∃ n : Fin 4, ∃ k t : Nat, ∃ e : StreamEntry, ∃ f : ImuFields,
      s.dev.imuStream n.val = some (k, e, f) ∧
      f.syncMode = true ∧
      s.dev.pulseDue f = some t ∧
      (∀ q, (s.dev.imu n.val).pulse = some q → q < t)) ∧
    (∃ s : State, ∃ n : Fin 4, ∃ k : Nat, ∃ e : StreamEntry, ∃ f : ImuFields,
      s.dev.imuStream n.val = some (k, e, f) ∧
      f.syncMode = false ∧
      (s.dev.imu n.val).trans = none) ∧
    (∃ s : State, ∃ n : Fin 4, ∃ k : Nat, ∃ e : StreamEntry, ∃ f : ImuFields,
      s.dev.imuStream n.val = some (k, e, f) ∧
      f.syncMode = false ∧
      (s.dev.imu n.val).trans.isSome = true) ∧
    (∃ s : State, ∃ n : Fin 4, ∃ k : Nat, ∃ e : StreamEntry, ∃ f : ImuFields, ∃ time : Option Int, ∃ d1 : Dev,
      s.dev.imuStream n.val = some (k, e, f) ∧
      f.syncMode = true ∧
      ((∃ p, drdyPulse f (s.dev.imu n.val) s.dev.now = some p ∧ time = some ((p : Int) + e.declLatNs) ∧
      d1 = modImu n.val (fun x => { x with pulseTaken := true }) s.dev) ∨
    (drdyPulse f (s.dev.imu n.val) s.dev.now = none ∧ time = none ∧
      d1 = bump (barImu n.val + 0x08) (s.dev.imu n.val).orphan 1 (fun c d => modImu n.val (fun x => { x with orphan := c }) d) s.dev)) ∧
      (s.dev.imu n.val).trans = none) ∧
    (∃ s : State, ∃ n : Fin 4, ∃ k : Nat, ∃ e : StreamEntry, ∃ f : ImuFields, ∃ time : Option Int, ∃ d1 : Dev,
      s.dev.imuStream n.val = some (k, e, f) ∧
      f.syncMode = true ∧
      ((∃ p, drdyPulse f (s.dev.imu n.val) s.dev.now = some p ∧ time = some ((p : Int) + e.declLatNs) ∧
      d1 = modImu n.val (fun x => { x with pulseTaken := true }) s.dev) ∨
    (drdyPulse f (s.dev.imu n.val) s.dev.now = none ∧ time = none ∧
      d1 = bump (barImu n.val + 0x08) (s.dev.imu n.val).orphan 1 (fun c d => modImu n.val (fun x => { x with orphan := c }) d) s.dev)) ∧
      (s.dev.imu n.val).trans.isSome = true) ∧
    (∃ s : State, ∃ n : Fin 4, ∃ k t a : Nat, ∃ e : StreamEntry, ∃ f : ImuFields,
      s.dev.imuStream n.val = some (k, e, f) ∧
      (s.dev.imu n.val).trans = some (some t, a)) ∧
    (∃ s : State, ∃ n : Fin 4, ∃ k a : Nat, ∃ e : StreamEntry, ∃ f : ImuFields,
      s.dev.imuStream n.val = some (k, e, f) ∧
      (s.dev.imu n.val).trans = some (none, a)) ∧
    (∃ s : State, ∃ n : Fin 4, ∃ k t : Nat, ∃ e : StreamEntry, ∃ f : ImuFields,
      s.dev.imuStream n.val = some (k, e, f) ∧
      (s.dev.imu n.val).pulse = some t ∧
      f.syncMode = true ∧
      (s.dev.imu n.val).pulseTaken = false ∧
      secNs < 2 * (s.dev.now - t) * f.syncRateHz) ∧
    (∃ s : State, ∃ n : Fin 4,
      s.dev.imuStream n.val = none) ∧
    (∃ s : State, ∃ n : Fin 4, ∃ k : Nat, ∃ e : StreamEntry, ∃ f : ImuFields,
      s.dev.imuStream n.val = some (k, e, f) ∧
      (f.syncMode = false ∨ s.dev.pulseDue f = none ∨
      ∃ t q, s.dev.pulseDue f = some t ∧ (s.dev.imu n.val).pulse = some q ∧ t ≤ q)) ∧
    (∃ s : State, ∃ n : Fin 4, ∃ k : Nat, ∃ e : StreamEntry, ∃ f : ImuFields,
      s.dev.imuStream n.val = some (k, e, f) ∧
      (s.dev.imu n.val).trans = none) ∧
    (∃ s : State, ∃ n : Fin 4, ∃ k : Nat, ∃ e : StreamEntry, ∃ f : ImuFields,
      s.dev.imuStream n.val = some (k, e, f) ∧
      (f.syncMode = false ∨ (s.dev.imu n.val).pulse = none ∨ (s.dev.imu n.val).pulseTaken = true ∨
      ∃ t, (s.dev.imu n.val).pulse = some t ∧ 2 * (s.dev.now - t) * f.syncRateHz ≤ secNs)) :=
  ⟨⟨wS, 0, _, 2903000000, _, _, rfl, by decide +kernel, (by unfold Dev.pulseDue divRound; cases Config.roundsUp 22 <;> decide +kernel), (by intro q h; cases h)⟩,
   ⟨wS, 1, _, _, _, rfl, by decide +kernel, by decide +kernel⟩,
   ⟨{ dev := wDev.setImu 1 { trans := some (none, 0) } }, 1, _, _, _, rfl, by decide +kernel, by decide +kernel⟩,
   ⟨wS, 0, _, _, _, none, _, rfl, by decide +kernel, Or.inr ⟨by decide +kernel, rfl, rfl⟩, by decide +kernel⟩,
   ⟨{ dev := wDev.setImu 0 { trans := some (none, 0), pulse := some 2999900000 } }, 0, _, _, _, some 2999901000, _, rfl, by decide +kernel, Or.inl ⟨2999900000, by decide +kernel, by decide +kernel, rfl⟩, by decide +kernel⟩,
   ⟨{ dev := wDev.setImu 1 { trans := some (some 2999000000, 2999500000) } }, 1, _, _, _, _, _, rfl, rfl⟩,
   ⟨{ dev := wDev.setImu 1 { trans := some (none, 2999500000) } }, 1, _, _, _, _, rfl, rfl⟩,
   ⟨{ dev := wDev.setImu 0 { pulse := some 2999000000 } }, 0, _, _, _, _, rfl, rfl, by decide +kernel, by decide +kernel, by decide +kernel⟩,
   ⟨wS, 2, by decide +kernel⟩,
   ⟨wS, 1, _, _, _, rfl, Or.inl (by decide +kernel)⟩,
   ⟨wS, 1, _, _, _, rfl, by decide +kernel⟩,
   ⟨wS, 1, _, _, _, rfl, Or.inl (by decide +kernel)⟩⟩

/-- Each clause of CanAndGnssInputs has a state and operands that meet its hypotheses. -/
theorem wit_CanAndGnssInputs :
    (∃ s : State, ∃ n : Fin 4, ∃ frame : CanFrame, ∃ b : CanBus, ∃ d1 : Dev,
      assoc n.val s.dev.image.streams.buses = some b ∧
      d1 = modCan n.val (fun x => { x with rec_ := frame.rec_, errPassive := frame.errPassive }) s.dev ∧
      b.restricted = true) ∧
    (∃ s : State, ∃ n : Fin 4, ∃ frame : CanFrame, ∃ b : CanBus, ∃ d1 : Dev,
      assoc n.val s.dev.image.streams.buses = some b ∧
      d1 = modCan n.val (fun x => { x with rec_ := frame.rec_, errPassive := frame.errPassive }) s.dev ∧
      b.restricted = false) ∧
    (∃ s : State, ∃ n : Fin 4,
      (assoc n.val s.dev.image.streams.buses).isSome = true) ∧
    (∃ s : State, ∃ q : Sentence, ∃ n : Nat, ∃ e : StreamEntry, ∃ f : GnssFields, ∃ d0 d1 : Dev, ∃ absent : Bool,
      s.dev.gnssStream = some (n, e, f) ∧
      s.dev.image.streams.gnssEn = true ∧
      d0 = (if q.framingErrors = 0 then s.dev else bump (barGnss + 0x04) s.dev.ports.gnss.framing q.framingErrors
    (fun c d => modGnss (fun x => { x with framing := c }) d) s.dev) ∧
      d1 = (match q.kind with
    | .gga => modGnss (fun x => { x with fixQuality := BitVec.ofNat 4 q.fixQuality }) d0
    | .rmc => modGnss (fun x => { x with rmcValid := q.rmcActive }) d0
    | _ => d0) ∧
      absent = (match q.kind with | .gga => decide (q.fixQuality = 0) | .rmc => !q.rmcActive | _ => false) ∧
      gnssEnabled f q.kind = false) ∧
    (∃ s : State, ∃ q : Sentence, ∃ n : Nat, ∃ e : StreamEntry, ∃ f : GnssFields, ∃ d0 d1 : Dev, ∃ absent : Bool,
      s.dev.gnssStream = some (n, e, f) ∧
      s.dev.image.streams.gnssEn = true ∧
      d0 = (if q.framingErrors = 0 then s.dev else bump (barGnss + 0x04) s.dev.ports.gnss.framing q.framingErrors
    (fun c d => modGnss (fun x => { x with framing := c }) d) s.dev) ∧
      d1 = (match q.kind with
    | .gga => modGnss (fun x => { x with fixQuality := BitVec.ofNat 4 q.fixQuality }) d0
    | .rmc => modGnss (fun x => { x with rmcValid := q.rmcActive }) d0
    | _ => d0) ∧
      absent = (match q.kind with | .gga => decide (q.fixQuality = 0) | .rmc => !q.rmcActive | _ => false) ∧
      gnssEnabled f q.kind = true ∧
      (q.checksumOk = false ∨ 82 < q.length ∨ q.parsable = false)) ∧
    (∃ s : State, ∃ q : Sentence, ∃ n : Nat, ∃ e : StreamEntry, ∃ f : GnssFields, ∃ d0 d1 : Dev, ∃ absent : Bool,
      s.dev.gnssStream = some (n, e, f) ∧
      s.dev.image.streams.gnssEn = true ∧
      d0 = (if q.framingErrors = 0 then s.dev else bump (barGnss + 0x04) s.dev.ports.gnss.framing q.framingErrors
    (fun c d => modGnss (fun x => { x with framing := c }) d) s.dev) ∧
      d1 = (match q.kind with
    | .gga => modGnss (fun x => { x with fixQuality := BitVec.ofNat 4 q.fixQuality }) d0
    | .rmc => modGnss (fun x => { x with rmcValid := q.rmcActive }) d0
    | _ => d0) ∧
      absent = (match q.kind with | .gga => decide (q.fixQuality = 0) | .rmc => !q.rmcActive | _ => false) ∧
      gnssEnabled f q.kind = true ∧
      q.checksumOk = true ∧
      q.length ≤ 82 ∧
      q.parsable = true) ∧
    (∃ s : State,
      s.dev.time.ppsStamp + 1200 * msNs ≤ s.dev.now) ∧
    (∃ s : State,
      s.dev.now < s.dev.time.ppsStamp + 1200 * msNs) ∧
    (∃ s : State, ∃ p : Nat,
      s.dev.ports.gnss.pendingPps = some p ∧
      p + secNs ≤ s.dev.now) ∧
    (∃ s : State, ∃ p : Nat,
      s.dev.ports.gnss.pendingPps = some p ∧
      s.dev.now < p + secNs) ∧
    (∃ s : State,
      s.dev.ports.gnss.pendingPps = none) ∧
    (∃ s : State, ∃ n : Fin 4,
      assoc n.val s.dev.image.streams.buses = none) ∧
    (∃ s : State,
      (s.dev.gnssStream = none ∨ s.dev.image.streams.gnssEn = false)) :=
  ⟨⟨{ dev := { wDev with boot := { wDev.boot with image := { wImage with streams := { wStreams with buses := [(0, { wBus with restricted := true })] } } } } }, 0, { id := 0x123, ide := false, fdf := false, payload := [1], stamp := 0, rec_ := 0, errPassive := false }, _, _, rfl, rfl, by decide +kernel⟩,
   ⟨wS, 0, { id := 0x123, ide := false, fdf := false, payload := [1], stamp := 0, rec_ := 0, errPassive := false }, _, _, rfl, rfl, by decide +kernel⟩,
   ⟨wS, 0, by decide +kernel⟩,
   ⟨wS, { wSentence with kind := .rmc }, _, _, _, _, _, _, rfl, by decide +kernel, rfl, rfl, rfl, by decide +kernel⟩,
   ⟨wS, { wSentence with length := 83 }, _, _, _, _, _, _, rfl, by decide +kernel, rfl, rfl, rfl, by decide +kernel, by decide +kernel⟩,
   ⟨wS, wSentence, _, _, _, _, _, _, rfl, by decide +kernel, rfl, rfl, rfl, by decide +kernel, by decide +kernel, by decide +kernel, by decide +kernel⟩,
   ⟨{ dev := { wDev with time := { wDev.time with ppsStamp := 1800000000 } } }, by decide +kernel⟩,
   ⟨{ dev := { wDev with time := { wDev.time with ppsStamp := 2900000000 } } }, by decide +kernel⟩,
   ⟨{ dev := { wDev with ports := { gnss := { pendingPps := some 2000000000 } } } }, _, rfl, by decide +kernel⟩,
   ⟨{ dev := { wDev with ports := { gnss := { pendingPps := some 2500000000 } } } }, _, rfl, by decide +kernel⟩,
   ⟨wS, by decide +kernel⟩,
   ⟨wS, 1, by decide +kernel⟩,
   ⟨{ dev := {} }, Or.inl (by decide +kernel)⟩⟩

/-- Each clause of CoreScalarInstructions has a state and operands that meet its hypotheses. -/
theorem wit_CoreScalarInstructions :
    (∃ s : State, ∃ cl : Fin 132, ∃ co : Fin 64, ∃ c : CoreState,
      s.dev.coreRuns cl.val co.val = true ∧
      c = s.dev.core (coreKey cl.val co.val)) ∧
    (∃ s : State, ∃ cl : Fin 132, ∃ co : Fin 64, ∃ c : CoreState,
      s.dev.coreRuns cl.val co.val = true ∧
      c = s.dev.core (coreKey cl.val co.val)) ∧
    (∃ s : State, ∃ cl : Fin 132, ∃ co : Fin 64, ∃ c : CoreState,
      s.dev.coreRuns cl.val co.val = true ∧
      c = s.dev.core (coreKey cl.val co.val)) ∧
    (∃ s : State, ∃ cl : Fin 132, ∃ co : Fin 64, ∃ c : CoreState,
      s.dev.coreRuns cl.val co.val = true ∧
      c = s.dev.core (coreKey cl.val co.val)) ∧
    (∃ s : State, ∃ cl : Fin 132, ∃ co : Fin 64, ∃ c : CoreState,
      s.dev.coreRuns cl.val co.val = true ∧
      c = s.dev.core (coreKey cl.val co.val)) ∧
    (∃ imm : Word,
      1 ≤ imm.toNat ∧
      imm.toNat ≤ 65535) ∧
    (∃ s : State, ∃ cl : Fin 132, ∃ co : Fin 64, ∃ c : CoreState, ∃ a : Fin 16, ∃ imm : Word, ∃ c1 : CoreState,
      s.dev.coreRuns cl.val co.val = true ∧
      c = s.dev.core (coreKey cl.val co.val) ∧
      c1 = (if imm.toNat < (c.xr a).toNat then c.flag nswLoopClamp else c) ∧
      min (c.xr a).toNat imm.toNat ≠ 0) ∧
    (∃ s : State, ∃ cl : Fin 132, ∃ co : Fin 64, ∃ c : CoreState, ∃ l : Fin 4, ∃ a : Fin 16, ∃ imm : Word, ∃ c1 : CoreState, ∃ e,
      s.dev.coreRuns cl.val co.val = true ∧
      c = s.dev.core (coreKey cl.val co.val) ∧
      c1 = (if imm.toNat < (c.xr a).toNat then c.flag nswLoopClamp else c) ∧
      min (c.xr a).toNat imm.toNat = 0 ∧
      matchEnd c1 l.val 2048 (c1.pc + 1) 0 = some e) ∧
    (∃ s : State, ∃ cl : Fin 132, ∃ co : Fin 64, ∃ c : CoreState, ∃ l : Fin 4, ∃ a : Fin 16, ∃ imm : Word, ∃ c1 : CoreState,
      s.dev.coreRuns cl.val co.val = true ∧
      c = s.dev.core (coreKey cl.val co.val) ∧
      c1 = (if imm.toNat < (c.xr a).toNat then c.flag nswLoopClamp else c) ∧
      min (c.xr a).toNat imm.toNat = 0 ∧
      matchEnd c1 l.val 2048 (c1.pc + 1) 0 = none) ∧
    (∃ s : State, ∃ cl : Fin 132, ∃ co : Fin 64, ∃ c : CoreState, ∃ l : Fin 4, ∃ n : BitVec 16, ∃ c1 : CoreState, ∃ start rest,
      s.dev.coreRuns cl.val co.val = true ∧
      c = s.dev.core (coreKey cl.val co.val) ∧
      n = bget 0 l.val c.lc - 1 ∧
      c1 = { c with lc := bput 0 l.val n c.lc } ∧
      c.loops = (start, l.val) :: rest ∧
      n ≠ 0) ∧
    (∃ s : State, ∃ cl : Fin 132, ∃ co : Fin 64, ∃ c : CoreState, ∃ l : Fin 4, ∃ n : BitVec 16, ∃ c1 : CoreState, ∃ start rest,
      s.dev.coreRuns cl.val co.val = true ∧
      c = s.dev.core (coreKey cl.val co.val) ∧
      n = bget 0 l.val c.lc - 1 ∧
      c1 = { c with lc := bput 0 l.val n c.lc } ∧
      c.loops = (start, l.val) :: rest ∧
      n = 0) ∧
    (∃ s : State, ∃ cl : Fin 132, ∃ co : Fin 64, ∃ c : CoreState, ∃ l : Fin 4, ∃ n : BitVec 16, ∃ c1 : CoreState,
      s.dev.coreRuns cl.val co.val = true ∧
      c = s.dev.core (coreKey cl.val co.val) ∧
      n = bget 0 l.val c.lc - 1 ∧
      c1 = { c with lc := bput 0 l.val n c.lc } ∧
      (∀ start rest, c.loops ≠ (start, l.val) :: rest)) :=
  ⟨⟨wS, 0, 0, _, by decide +kernel, rfl⟩,
   ⟨wS, 0, 0, _, by decide +kernel, rfl⟩,
   ⟨wS, 0, 0, _, by decide +kernel, rfl⟩,
   ⟨wS, 0, 0, _, by decide +kernel, rfl⟩,
   ⟨wS, 0, 0, _, by decide +kernel, rfl⟩,
   ⟨65535, by decide +kernel, by decide +kernel⟩,
   ⟨wCoreS { x := [(1, 3)] }, 0, 0, _, 1, 2, _, by decide +kernel, rfl, rfl, by decide +kernel⟩,
   ⟨wCoreS { imem := [(1, 0x0A)] }, 0, 0, _, 0, 0, 2, _, _, by decide +kernel, rfl, rfl, by decide +kernel, rfl⟩,
   ⟨wS, 0, 0, _, 0, 0, 2, _, by decide +kernel, rfl, rfl, by decide +kernel, by decide +kernel⟩,
   ⟨wCoreS { loops := [(1, 0)], lc := [(0, 2)] }, 0, 0, _, 0, _, _, _, _, by decide +kernel, rfl, rfl, rfl, rfl, by decide +kernel⟩,
   ⟨wCoreS { loops := [(1, 0)], lc := [(0, 1)] }, 0, 0, _, 0, _, _, _, _, by decide +kernel, rfl, rfl, rfl, rfl, rfl⟩,
   ⟨wS, 0, 0, _, 0, _, _, by decide +kernel, rfl, rfl, rfl, (by intro a b h; cases h)⟩⟩

/-- Each clause of CoreWindowInstructions has a state and operands that meet its hypotheses. -/
theorem wit_CoreWindowInstructions :
    (∃ s : State, ∃ cl : Fin 132, ∃ co : Fin 64, ∃ c : CoreState, ∃ imm : Word, ∃ key : Nat,
      s.dev.coreRuns cl.val co.val = true ∧
      c = s.dev.core (coreKey cl.val co.val) ∧
      c.window = some key ∧
      key % 65536 = imm.toNat) ∧
    (∃ s : State, ∃ cl : Fin 132, ∃ co : Fin 64, ∃ c : CoreState, ∃ imm : Word,
      s.dev.coreRuns cl.val co.val = true ∧
      c = s.dev.core (coreKey cl.val co.val) ∧
      (∀ key, c.window = some key → key % 65536 ≠ imm.toNat)) ∧
    (∃ s : State, ∃ cl : Fin 132, ∃ co : Fin 64, ∃ c : CoreState, ∃ t : Fin 256, ∃ imm : Word,
      s.dev.coreRuns cl.val co.val = true ∧
      c = s.dev.core (coreKey cl.val co.val) ∧
      imm.toNat ≤ s.dev.tally cl.val t.val) ∧
    (∃ s : State, ∃ cl : Fin 132, ∃ co : Fin 64, ∃ c : CoreState, ∃ t : Fin 256, ∃ imm : Word,
      s.dev.coreRuns cl.val co.val = true ∧
      c = s.dev.core (coreKey cl.val co.val) ∧
      s.dev.tally cl.val t.val < imm.toNat) ∧
    (∃ s : State, ∃ cl : Fin 132, ∃ co : Fin 64, ∃ c : CoreState, ∃ imm : Word,
      s.dev.coreRuns cl.val co.val = true ∧
      c = s.dev.core (coreKey cl.val co.val) ∧
      s.dev.outstanding cl.val co.val ≤ imm.toNat) ∧
    (∃ s : State, ∃ cl : Fin 132, ∃ co : Fin 64, ∃ c : CoreState, ∃ imm : Word,
      s.dev.coreRuns cl.val co.val = true ∧
      c = s.dev.core (coreKey cl.val co.val) ∧
      imm.toNat < s.dev.outstanding cl.val co.val) ∧
    (∃ s : State, ∃ cl : Fin 132, ∃ co : Fin 64, ∃ c : CoreState, ∃ x : Fin 16, ∃ target : Nat,
      s.dev.coreRuns cl.val co.val = true ∧
      c = s.dev.core (coreKey cl.val co.val) ∧
      signalTarget (c.xr x) = some target) ∧
    (∃ s : State, ∃ cl : Fin 132, ∃ co : Fin 64, ∃ c : CoreState, ∃ x : Fin 16,
      s.dev.coreRuns cl.val co.val = true ∧
      c = s.dev.core (coreKey cl.val co.val) ∧
      signalTarget (c.xr x) = none) ∧
    (∃ s : State, ∃ cl : Fin 132, ∃ co : Fin 64, ∃ c : CoreState, ∃ d1 : Dev,
      s.dev.coreRuns cl.val co.val = true ∧
      c = s.dev.core (coreKey cl.val co.val) ∧
      d1 = s.dev.setCore (coreKey cl.val co.val) ({ c.next with window := none, run := .stopped }) ∧
      c.window = none) ∧
    (∃ s : State, ∃ cl : Fin 132, ∃ co : Fin 64, ∃ c : CoreState, ∃ d1 : Dev, ∃ key,
      s.dev.coreRuns cl.val co.val = true ∧
      c = s.dev.core (coreKey cl.val co.val) ∧
      d1 = s.dev.setCore (coreKey cl.val co.val) ({ c.next with window := none, run := .stopped }) ∧
      c.window = some key) ∧
    (∃ s : State, ∃ cl : Fin 132, ∃ co : Fin 64, ∃ c : CoreState, ∃ d1 : Dev,
      s.dev.coreRuns cl.val co.val = true ∧
      c = s.dev.core (coreKey cl.val co.val) ∧
      d1 = s.dev.setCore (coreKey cl.val co.val) ({ c.flag nswInvalid with run := .stopped }) ∧
      c.window = none) ∧
    (∃ s : State, ∃ cl : Fin 132, ∃ co : Fin 64, ∃ c : CoreState, ∃ d1 : Dev, ∃ key r,
      s.dev.coreRuns cl.val co.val = true ∧
      c = s.dev.core (coreKey cl.val co.val) ∧
      d1 = s.dev.setCore (coreKey cl.val co.val) ({ c.flag nswInvalid with run := .stopped }) ∧
      c.window = some key ∧
      d1.windowRec (winOfKey key).1 (winOfKey key).2.1 (winOfKey key).2.2 = some r) :=
  ⟨⟨wCoreS { window := some (winKey .main 5 0) }, 0, 0, _, 0, _, by decide +kernel, rfl, rfl, by decide +kernel⟩,
   ⟨wS, 0, 0, _, 1, by decide +kernel, rfl, (by intro k h; cases h)⟩,
   ⟨wS, 0, 0, _, 0, 0, by decide +kernel, rfl, by decide +kernel⟩,
   ⟨wS, 0, 0, _, 255, 1, by decide +kernel, rfl, by decide +kernel⟩,
   ⟨wS, 0, 0, _, 0, by decide +kernel, rfl, by decide +kernel⟩,
   ⟨{ dev := wDev.modCluster 0 (fun c => { c with dma := [wTransfer none] }) }, 0, 0, _, 0, by decide +kernel, rfl, by decide +kernel⟩,
   ⟨wCoreS { x := [(1, 0x00000001)] }, 0, 0, _, 1, _, by decide +kernel, rfl, rfl⟩,
   ⟨wCoreS { x := [(1, 0xFFFFFFFF)] }, 0, 0, _, 1, by decide +kernel, rfl, by decide +kernel⟩,
   ⟨wS, 0, 0, _, _, by decide +kernel, rfl, rfl, by decide +kernel⟩,
   ⟨wCoreS { window := some (winKey .main 5 0) }, 0, 0, _, _, _, by decide +kernel, rfl, rfl, rfl⟩,
   ⟨wS, 0, 0, _, _, by decide +kernel, rfl, rfl, by decide +kernel⟩,
   ⟨wCoreS { window := some (winKey .main 5 0) }, 0, 0, _, _, _, _, by decide +kernel, rfl, rfl, rfl, rfl⟩⟩

/-- Each clause of CoreMemoryInstructions has a state and operands that meet its hypotheses. -/
theorem wit_CoreMemoryInstructions :
    (∃ s : State, ∃ cl : Fin 132, ∃ co : Fin 64, ∃ c : CoreState, ∃ a : Fin 16, ∃ imm : Word, ∃ p,
      s.dev.coreRuns cl.val co.val = true ∧
      c = s.dev.core (coreKey cl.val co.val) ∧
      coreRange cl.val co.val (c.xr a + imm).toNat 64 = some p) ∧
    (∃ s : State, ∃ cl : Fin 132, ∃ co : Fin 64, ∃ c : CoreState, ∃ a : Fin 16, ∃ imm : Word,
      s.dev.coreRuns cl.val co.val = true ∧
      c = s.dev.core (coreKey cl.val co.val) ∧
      coreRange cl.val co.val (c.xr a + imm).toNat 64 = none) ∧
    (∃ s : State, ∃ cl : Fin 132, ∃ co : Fin 64, ∃ c : CoreState, ∃ a m : Fin 16, ∃ ps,
      s.dev.coreRuns cl.val co.val = true ∧
      c = s.dev.core (coreKey cl.val co.val) ∧
      lanePlaces cl.val co.val (c.xr a).toNat (c.xr m) = some ps) ∧
    (∃ s : State, ∃ cl : Fin 132, ∃ co : Fin 64, ∃ c : CoreState, ∃ a m : Fin 16,
      s.dev.coreRuns cl.val co.val = true ∧
      c = s.dev.core (coreKey cl.val co.val) ∧
      lanePlaces cl.val co.val (c.xr a).toNat (c.xr m) = none) ∧
    (∃ s : State, ∃ cl : Fin 132, ∃ co : Fin 64, ∃ c : CoreState, ∃ x : Fin 16, ∃ m : AddLanes, ∃ ps,
      s.dev.coreRuns cl.val co.val = true ∧
      c = s.dev.core (coreKey cl.val co.val) ∧
      0x1000000 ≤ (c.xr x).toNat ∧
      lanePlaces cl.val co.val (c.xr x).toNat (c.xr m.mask) = some ps) ∧
    (∃ s : State, ∃ cl : Fin 132, ∃ co : Fin 64, ∃ c : CoreState, ∃ x : Fin 16,
      s.dev.coreRuns cl.val co.val = true ∧
      c = s.dev.core (coreKey cl.val co.val) ∧
      (c.xr x).toNat < 0x1000000) ∧
    (∃ s : State, ∃ cl : Fin 132, ∃ co : Fin 64, ∃ c : CoreState, ∃ x : Fin 16, ∃ p,
      s.dev.coreRuns cl.val co.val = true ∧
      c = s.dev.core (coreKey cl.val co.val) ∧
      (c.xr x).toNat % 8 = 0 ∧
      0x1000000 ≤ (c.xr x).toNat ∧
      coreRange cl.val co.val (c.xr x).toNat 0x40 = some p ∧
      s.dev.outstanding cl.val co.val < 8) ∧
    (∃ s : State, ∃ cl : Fin 132, ∃ co : Fin 64, ∃ c : CoreState, ∃ x : Fin 16, ∃ p,
      s.dev.coreRuns cl.val co.val = true ∧
      c = s.dev.core (coreKey cl.val co.val) ∧
      (c.xr x).toNat % 8 = 0 ∧
      0x1000000 ≤ (c.xr x).toNat ∧
      coreRange cl.val co.val (c.xr x).toNat 0x40 = some p ∧
      8 ≤ s.dev.outstanding cl.val co.val) ∧
    (∃ s : State, ∃ cl : Fin 132, ∃ co : Fin 64, ∃ c : CoreState, ∃ x : Fin 16,
      s.dev.coreRuns cl.val co.val = true ∧
      c = s.dev.core (coreKey cl.val co.val) ∧
      ((c.xr x).toNat % 8 ≠ 0 ∨ (c.xr x).toNat < 0x1000000)) :=
  ⟨⟨wCoreS { x := [(1, 0x1000000), (2, 0x8001), (3, 0xFFFFFFFF)] }, 0, 0, _, 1, 0, 0x100000000, by decide +kernel, rfl, by decide +kernel⟩,
   ⟨wCoreS { x := [(1, 0x1000000), (2, 0x8001), (3, 0xFFFFFFFF)] }, 0, 0, _, 3, 0, by decide +kernel, rfl, by decide +kernel⟩,
   ⟨wCoreS { x := [(1, 0x1000000), (2, 0x8001), (3, 0xFFFFFFFF)] }, 0, 0, _, 1, 2, [(0, 0x100000000), (15, 0x10000003C)], by decide +kernel, rfl, by decide +kernel⟩,
   ⟨wCoreS { x := [(1, 0x1000000), (2, 0x8001), (3, 0xFFFFFFFF)] }, 0, 0, _, 3, 2, by decide +kernel, rfl, by decide +kernel⟩,
   ⟨wCoreS { x := [(1, 0x1000000), (2, 0x8001)] }, 0, 0, _, 1, { mask := 2, ecc := .clean }, [(0, 0x100000000), (15, 0x10000003C)], by decide +kernel, rfl, by decide +kernel, by decide +kernel⟩,
   ⟨wCoreS { x := [(1, 0x1000000), (2, 0x8001), (3, 0xFFFFFFFF)] }, 0, 0, _, 0, by decide +kernel, rfl, by decide +kernel⟩,
   ⟨wCoreS { x := [(1, 0x1000000), (2, 0x8001), (3, 0xFFFFFFFF)] }, 0, 0, _, 1, 0x100000000, by decide +kernel, rfl, by decide +kernel, by decide +kernel, by decide +kernel, by decide +kernel⟩,
   ⟨{ dev := (wDev.setCore 0 { x := [(1, 0x1000000)] }).modCluster 0 (fun c => { c with dma := List.replicate 8 (wTransfer none) }) }, 0, 0, _, 1, 0x100000000, by decide +kernel, rfl, by decide +kernel, by decide +kernel, by decide +kernel, by decide +kernel⟩,
   ⟨wCoreS { x := [(1, 0x1000000), (2, 0x8001), (3, 0xFFFFFFFF)] }, 0, 0, _, 3, by decide +kernel, rfl, by decide +kernel⟩⟩

/-- Each clause of StoredLanesReadBack has a state and operands that meet its hypotheses. -/
theorem wit_StoredLanesReadBack :
    ∃ s : State, ∃ cl : Fin 132, ∃ co : Fin 64, ∃ c : CoreState, ∃ a m : Fin 16, ∃ ps : List (Nat × Nat),
      s.dev.coreRuns cl.val co.val = true ∧
      c = s.dev.core (coreKey cl.val co.val) ∧
      memOk s.dev.mem ∧
      lanePlaces cl.val co.val (c.xr a).toNat (c.xr m) = some ps :=
  ⟨wCoreS { x := [(1, 0x1000000), (2, 0x8001), (3, 0xFFFFFFFF)] }, 0, 0, _, 1, 2, [(0, 0x100000000), (15, 0x10000003C)], by decide +kernel, rfl, (by unfold memOk; decide +kernel), by decide +kernel⟩

/-- Each clause of MatrixUnitInstructions has a state and operands that meet its hypotheses. -/
theorem wit_MatrixUnitInstructions :
    (∃ s : State, ∃ cl : Fin 132, ∃ co : Fin 64, ∃ c : CoreState,
      s.dev.coreRuns cl.val co.val = true ∧
      c = s.dev.core (coreKey cl.val co.val)) ∧
    (∃ s : State, ∃ cl : Fin 132, ∃ co : Fin 64, ∃ c : CoreState,
      s.dev.coreRuns cl.val co.val = true ∧
      c = s.dev.core (coreKey cl.val co.val)) ∧
    (∃ s : State, ∃ cl : Fin 132, ∃ co : Fin 64, ∃ c : CoreState,
      s.dev.coreRuns cl.val co.val = true ∧
      c = s.dev.core (coreKey cl.val co.val)) ∧
    (∃ s : State, ∃ cl : Fin 132, ∃ co : Fin 64, ∃ c : CoreState, ∃ a : Fin 8, ∃ v : Fin 32, ∃ c1 : CoreState,
      s.dev.coreRuns cl.val co.val = true ∧
      c = s.dev.core (coreKey cl.val co.val) ∧
      c1 = cells.foldl (fun x e => (x.setAcc a.val e.1 e.2 (f32Mul (c.accIn true a.val e.1 e.2) (c.lane v.val e.1)).v).flag
      (f32Mul (c.accIn true a.val e.1 e.2) (c.lane v.val e.1)).flags) c) ∧
    (∃ s : State, ∃ cl : Fin 132, ∃ co : Fin 64, ∃ c : CoreState, ∃ fmt : BitVec 6, ∃ subA subB : Bool,
      s.dev.coreRuns cl.val co.val = true ∧
      c = s.dev.core (coreKey cl.val co.val) ∧
      fmtPair fmt subA subB = none) ∧
    (∃ s : State, ∃ cl : Fin 132, ∃ co : Fin 64, ∃ c : CoreState, ∃ xk : Fin 16, ∃ fmt : BitVec 6, ∃ subA subB : Bool, ∃ fa fb : Format, ∃ fp : Bool,
      s.dev.coreRuns cl.val co.val = true ∧
      c = s.dev.core (coreKey cl.val co.val) ∧
      fmtPair fmt subA subB = some (fa, fb, fp) ∧
      (c.xr xk).toInt ≤ 0) ∧
    (∃ s : State, ∃ cl : Fin 132, ∃ co : Fin 64, ∃ c : CoreState, ∃ xa xb xk : Fin 16, ∃ fmt : BitVec 6, ∃ subA subB : Bool, ∃ fa fb : Format, ∃ fp : Bool, ∃ pa pb : Nat,
      s.dev.coreRuns cl.val co.val = true ∧
      c = s.dev.core (coreKey cl.val co.val) ∧
      fmtPair fmt subA subB = some (fa, fb, fp) ∧
      0 < (c.xr xk).toInt ∧
      coreRange cl.val co.val (c.xr xa).toNat (16 * rowStride fa (c.xr xk).toNat) = some pa ∧
      coreRange cl.val co.val (c.xr xb).toNat (8 * rowStride fb (c.xr xk).toNat) = some pb) ∧
    (∃ s : State, ∃ cl : Fin 132, ∃ co : Fin 64, ∃ c : CoreState, ∃ xa xk : Fin 16, ∃ fmt : BitVec 6, ∃ subA subB : Bool, ∃ fa fb : Format, ∃ fp : Bool,
      s.dev.coreRuns cl.val co.val = true ∧
      c = s.dev.core (coreKey cl.val co.val) ∧
      fmtPair fmt subA subB = some (fa, fb, fp) ∧
      0 < (c.xr xk).toInt ∧
      coreRange cl.val co.val (c.xr xa).toNat (16 * rowStride fa (c.xr xk).toNat) = none) :=
  ⟨⟨wS, 0, 0, _, by decide +kernel, rfl⟩,
   ⟨wS, 0, 0, _, by decide +kernel, rfl⟩,
   ⟨wS, 0, 0, _, by decide +kernel, rfl⟩,
   ⟨wS, 0, 0, _, 0, 0, _, by decide +kernel, rfl, rfl⟩,
   ⟨wS, 0, 0, _, 0x3F, false, false, by decide +kernel, rfl, by decide +kernel⟩,
   ⟨wS, 0, 0, _, 0, 0, false, false, .int8, .int8, false, by decide +kernel, rfl, by decide +kernel, by decide +kernel⟩,
   ⟨wCoreS { x := [(1, 0x1000000), (2, 0x8)] }, 0, 0, _, 1, 1, 2, 0, false, false, .int8, .int8, false, 0x100000000, 0x100000000, by decide +kernel, rfl, by decide +kernel, by decide +kernel, by decide +kernel, by decide +kernel⟩,
   ⟨wCoreS { x := [(1, 0xFFFFFFFF), (2, 0x8)] }, 0, 0, _, 1, 2, 0, false, false, .int8, .int8, false, by decide +kernel, rfl, by decide +kernel, by decide +kernel, by decide +kernel⟩⟩

/-- Each clause of VectorUnitInstructions has a state and operands that meet its hypotheses. -/
theorem wit_VectorUnitInstructions :
    (∃ s : State, ∃ cl : Fin 132, ∃ co : Fin 64, ∃ c : CoreState, ∃ op : VOp,
      s.dev.coreRuns cl.val co.val = true ∧
      c = s.dev.core (coreKey cl.val co.val) ∧
      op ≠ .cmpgt ∧
      op ≠ .select) ∧
    (∃ s : State, ∃ cl : Fin 132, ∃ co : Fin 64, ∃ c : CoreState,
      s.dev.coreRuns cl.val co.val = true ∧
      c = s.dev.core (coreKey cl.val co.val)) ∧
    (∃ s : State, ∃ cl : Fin 132, ∃ co : Fin 64, ∃ c : CoreState, ∃ f : Format,
      s.dev.coreRuns cl.val co.val = true ∧
      c = s.dev.core (coreKey cl.val co.val) ∧
      f.block = true) ∧
    (∃ s : State, ∃ cl : Fin 132, ∃ co : Fin 64, ∃ c : CoreState, ∃ f : Format,
      s.dev.coreRuns cl.val co.val = true ∧
      c = s.dev.core (coreKey cl.val co.val) ∧
      f.block = false) ∧
    (∃ s : State, ∃ cl : Fin 132, ∃ co : Fin 64, ∃ c : CoreState,
      s.dev.coreRuns cl.val co.val = true ∧
      c = s.dev.core (coreKey cl.val co.val)) ∧
    (∃ s : State, ∃ cl : Fin 132, ∃ co : Fin 64, ∃ c : CoreState,
      s.dev.coreRuns cl.val co.val = true ∧
      c = s.dev.core (coreKey cl.val co.val)) :=
  ⟨⟨wS, 0, 0, _, .add, by decide +kernel, rfl, by decide +kernel, by decide +kernel⟩,
   ⟨wS, 0, 0, _, by decide +kernel, rfl⟩,
   ⟨wS, 0, 0, _, .mxfp4, by decide +kernel, rfl, by decide +kernel⟩,
   ⟨wS, 0, 0, _, .fp16, by decide +kernel, rfl, by decide +kernel⟩,
   ⟨wS, 0, 0, _, by decide +kernel, rfl⟩,
   ⟨wS, 0, 0, _, by decide +kernel, rfl⟩⟩

/-- Each clause of SoftmaxInstructions has a state and operands that meet its hypotheses. -/
theorem wit_SoftmaxInstructions :
    (∃ s : State, ∃ cl : Fin 132, ∃ co : Fin 64, ∃ c : CoreState,
      s.dev.coreRuns cl.val co.val = true ∧
      c = s.dev.core (coreKey cl.val co.val)) ∧
    (∃ s : State, ∃ cl : Fin 132, ∃ co : Fin 64, ∃ c : CoreState,
      s.dev.coreRuns cl.val co.val = true ∧
      c = s.dev.core (coreKey cl.val co.val)) ∧
    (∃ s : State, ∃ cl : Fin 132, ∃ co : Fin 64, ∃ c : CoreState, ∃ vm vd : Fin 32, ∃ r : Nat → FRes,
      s.dev.coreRuns cl.val co.val = true ∧
      c = s.dev.core (coreKey cl.val co.val) ∧
      r = (fun i => rescale (c.lane vm.val i) (c.lane vd.val i) c.cscale)) ∧
    (∃ s : State, ∃ cl : Fin 132, ∃ co : Fin 64, ∃ c : CoreState, ∃ vd vs : Fin 32, ∃ m : Nat → F32, ∃ a1 a2 p1 p2 l : Nat → FRes,
      s.dev.coreRuns cl.val co.val = true ∧
      c = s.dev.core (coreKey cl.val co.val) ∧
      m = (fun i => f32Max (c.lane vs.val i) (c.lane vd.val i)) ∧
      a1 = (fun i => rescale (c.lane vs.val i) (m i) c.cscale) ∧
      a2 = (fun i => rescale (c.lane vd.val i) (m i) c.cscale) ∧
      p1 = (fun i => f32Mul (a1 i).v (c.lane (vs.val + 1) i)) ∧
      p2 = (fun i => f32Mul (a2 i).v (c.lane (vd.val + 1) i)) ∧
      l = (fun i => { f32Add (p1 i).v (p2 i).v with
      invalid := (f32Add (p1 i).v (p2 i).v).invalid || (p1 i).invalid || (p2 i).invalid,
      ovf := (f32Add (p1 i).v (p2 i).v).ovf || (p1 i).ovf || (p2 i).ovf })) :=
  ⟨⟨wS, 0, 0, _, by decide +kernel, rfl⟩,
   ⟨wS, 0, 0, _, by decide +kernel, rfl⟩,
   ⟨wS, 0, 0, _, 0, 1, _, by decide +kernel, rfl, rfl⟩,
   ⟨wS, 0, 0, _, 0, 2, _, _, _, _, _, _, by decide +kernel, rfl, rfl, rfl, rfl, rfl, rfl, rfl⟩⟩

/-- Each clause of CoresThatDoNotRunIgnoreInstructions has a state and operands that meet its hypotheses. -/
theorem wit_CoresThatDoNotRunIgnoreInstructions :
    ∃ s : State, ∃ cl : Fin 132, ∃ co : Fin 64, ∃ i : Instr,
      s.dev.coreRuns cl.val co.val = false ∧
      i.onCore = some (cl, co) :=
  ⟨wS, 1, 0, .movi 1 0 1 5, by decide +kernel, by decide +kernel⟩

/-- Each clause of TransfersMoveDataAtCompletion has a state and operands that meet its hypotheses. -/
theorem wit_TransfersMoveDataAtCompletion :
    (∃ s : State, ∃ cl : DescRead, ∃ n : Nat, ∃ x : Transfer,
      (s.dev.cluster cl.cluster.val).dma.findIdx? (fun t => t.started.isNone) = some n ∧
      (s.dev.cluster cl.cluster.val).dma[n]? = some x ∧
      cl.ecc = .uncorrectable) ∧
    (∃ s : State, ∃ cl : DescRead, ∃ n : Nat, ∃ x : Transfer, ∃ d1 : Dev, ∃ code,
      (s.dev.cluster cl.cluster.val).dma.findIdx? (fun t => t.started.isNone) = some n ∧
      (s.dev.cluster cl.cluster.val).dma[n]? = some x ∧
      cl.ecc ≠ .uncorrectable ∧
      d1 = eccRead cl.cluster.val x.window cl.ecc s.dev ∧
      transferError (d1.tableOf cl.cluster.val x.window) (s.dev.readTransfer x.addr) = some code) ∧
    (∃ s : State, ∃ cl : DescRead, ∃ n : Nat, ∃ x : Transfer, ∃ d1 : Dev, ∃ src dst,
      (s.dev.cluster cl.cluster.val).dma.findIdx? (fun t => t.started.isNone) = some n ∧
      (s.dev.cluster cl.cluster.val).dma[n]? = some x ∧
      cl.ecc ≠ .uncorrectable ∧
      d1 = eccRead cl.cluster.val x.window cl.ecc s.dev ∧
      transferError (d1.tableOf cl.cluster.val x.window) (s.dev.readTransfer x.addr) = none ∧
      tensorOf (d1.tableOf cl.cluster.val x.window) (s.dev.readTransfer x.addr).src = some src ∧
      tensorOf (d1.tableOf cl.cluster.val x.window) (s.dev.readTransfer x.addr).dst = some dst) ∧
    (∃ s : State, ∃ cl : Fin 132, ∃ n : Nat, ∃ x : Transfer, ∃ t : TransferDesc, ∃ since : Nanos, ∃ k : Nat, ∃ d1 : Dev,
      (s.dev.cluster cl.val).dma[n]? = some x ∧
      x.started = some (t, since, k) ∧
      s.dev.arrives cl.val n (s.dev.tableOf cl.val x.window) t = true ∧
      d1 = releaseTransfer cl.val n x.core (moveData (s.dev.moveCtx cl.val x) (s.dev.tableOf cl.val x.window) t (fun _ => true) s.dev)) ∧
    (∃ s : State, ∃ cl : Fin 132, ∃ n : Nat, ∃ x : Transfer, ∃ t : TransferDesc, ∃ since : Nanos, ∃ k : Nat,
      (s.dev.cluster cl.val).dma[n]? = some x ∧
      x.started = some (t, since, k) ∧
      s.dev.now < since + 100 * usNs) ∧
    (∃ s : State, ∃ cl : Fin 132, ∃ n : Nat, ∃ x : Transfer, ∃ t : TransferDesc, ∃ since : Nanos, ∃ k : Nat, ∃ d1 d2 : Dev,
      (s.dev.cluster cl.val).dma[n]? = some x ∧
      x.started = some (t, since, k) ∧
      since + 100 * usNs ≤ s.dev.now ∧
      d1 = moveData (s.dev.moveCtx cl.val x) (s.dev.tableOf cl.val x.window) t (Config.landed s.dev.freeCtr)
      { s.dev with freeCtr := s.dev.freeCtr + 1 } ∧
      d2 = faultKey x.window (releaseTransfer cl.val n x.core
      (satEvent (barTwl cl.val + 4) (d1.cluster cl.val).timeout (d1.cluster cl.val).timeout.inc
        (d1.modCluster cl.val (fun c => { c with timeout := (d1.cluster cl.val).timeout.inc })))) ∧
      d2.packetUnit t.dst = none) ∧
    (∃ s : State, ∃ cl : Fin 132, ∃ n : Nat, ∃ x : Transfer, ∃ t : TransferDesc, ∃ since : Nanos, ∃ k : Nat, ∃ d1 d2 : Dev, ∃ u,
      (s.dev.cluster cl.val).dma[n]? = some x ∧
      x.started = some (t, since, k) ∧
      since + 100 * usNs ≤ s.dev.now ∧
      d1 = moveData (s.dev.moveCtx cl.val x) (s.dev.tableOf cl.val x.window) t (Config.landed s.dev.freeCtr)
      { s.dev with freeCtr := s.dev.freeCtr + 1 } ∧
      d2 = faultKey x.window (releaseTransfer cl.val n x.core
      (satEvent (barTwl cl.val + 4) (d1.cluster cl.val).timeout (d1.cluster cl.val).timeout.inc
        (d1.modCluster cl.val (fun c => { c with timeout := (d1.cluster cl.val).timeout.inc })))) ∧
      d2.packetUnit t.dst = some u) :=
  ⟨⟨{ dev := wDev.modCluster 0 (fun c => { c with dma := [wTransfer none] }) }, { cluster := 0, ecc := .uncorrectable }, 0, _, by decide +kernel, rfl, by decide +kernel⟩,
   ⟨{ dev := wDev.modCluster 0 (fun c => { c with dma := [wTransfer none] }) }, { cluster := 0, ecc := .clean }, 0, _, _, _, by decide +kernel, rfl, by decide +kernel, rfl, rfl⟩,
   ⟨{ dev := ({ wDev with boot := { wDev.boot with image := { wImage with burlap := { wImage.burlap with descs := [wTensor] } } } }).modCluster 128 (fun c => { c with dma := [wTransfer none] }) }, { cluster := 128, ecc := .clean }, 0, _, _, _, _, by decide +kernel, rfl, by decide +kernel, rfl, by decide +kernel, rfl, rfl⟩,
   ⟨{ dev := wDev.modCluster 0 (fun c => { c with dma := [wTransfer (some (wDesc, 2000000000, 0))] }) }, 0, 0, _, _, _, _, _, rfl, rfl, by decide +kernel, rfl⟩,
   ⟨{ dev := wDev.modCluster 0 (fun c => { c with dma := [wTransfer (some (wDesc, 2999950000, 0))] }) }, 0, 0, _, _, _, _, rfl, rfl, by decide +kernel⟩,
   ⟨{ dev := wDev.modCluster 0 (fun c => { c with dma := [wTransfer (some (wDesc, 2000000000, 0))] }) }, 0, 0, _, _, _, _, _, _, rfl, rfl, by decide +kernel, rfl, rfl, by decide +kernel⟩,
   ⟨{ dev := ({ wDev with boot := { wDev.boot with image := { wImage with serge := { wImage.serge with slots := [(0, { wSlot 0 .ego 1 with packetDesc := some 0 })] } } } }).modCluster 0 (fun c => { c with dma := [wTransfer (some (wDesc, 2000000000, 0))] }) }, 0, 0, _, _, _, _, _, _, _, rfl, rfl, by decide +kernel, rfl, rfl, rfl⟩⟩

/-- Each clause of ScrubbingLinksAndReloads has a state and operands that meet its hypotheses. -/
theorem wit_ScrubbingLinksAndReloads :
    (∃ s : State, ∃ cl : Fin 132,
      ((s.dev.cluster cl.val).state = .running ∨ (s.dev.cluster cl.val).state = .golden)) ∧
    (∃ s : State, ∃ die : Fin 6, ∃ tick w : Nat, ∃ d1 : Dev,
      d1 = satEvent (barTsq + 0x200 + 0x20 * die.val + 0x0C) (s.dev.die die.val).linkRetry (s.dev.die die.val).linkRetry.inc
    (s.dev.setDie die.val { s.dev.die die.val with linkRetry := (s.dev.die die.val).linkRetry.inc }) ∧
      d1.windowRec .main tick w = none) ∧
    (∃ s : State, ∃ die : Fin 6, ∃ tick w : Nat, ∃ d1 : Dev, ∃ r g o rank,
      d1 = satEvent (barTsq + 0x200 + 0x20 * die.val + 0x0C) (s.dev.die die.val).linkRetry (s.dev.die die.val).linkRetry.inc
    (s.dev.setDie die.val { s.dev.die die.val with linkRetry := (s.dev.die die.val).linkRetry.inc }) ∧
      d1.windowRec .main tick w = some r ∧
      d1.gridAt tick = some g ∧
      gridOp g w = some (o, rank) ∧
      r.kind = .chambray ∧
      o.op = .lift) ∧
    (∃ s : State, ∃ die : Fin 6, ∃ tick w : Nat, ∃ d1 : Dev, ∃ r,
      d1 = satEvent (barTsq + 0x200 + 0x20 * die.val + 0x0C) (s.dev.die die.val).linkRetry (s.dev.die die.val).linkRetry.inc
    (s.dev.setDie die.val { s.dev.die die.val with linkRetry := (s.dev.die die.val).linkRetry.inc }) ∧
      d1.windowRec .main tick w = some r ∧
      r.kind ≠ .chambray) ∧
    (∃ s : State, ∃ cl : Fin 4,
      (s.dev.cluster (128 + cl.val)).state = .restarting) :=
  ⟨⟨wS, 0, by decide +kernel⟩,
   ⟨wS, 0, 5, 20, _, rfl, by decide +kernel⟩,
   ⟨wS, 0, 5, 2, _, _, _, _, _, rfl, rfl, rfl, rfl, by decide +kernel, by decide +kernel⟩,
   ⟨wS, 0, 5, 0, _, _, rfl, rfl, by decide +kernel⟩,
   ⟨{ dev := { wDev with fabric := { clusters := [(128, { state := .restarting })] } } }, 0, by decide +kernel⟩⟩

/-- Each clause of DamaskSequenceCommands has a state and operands that meet its hypotheses. -/
theorem wit_DamaskSequenceCommands :
    (∃ s : State, ∃ half : Fin 2, ∃ cmd : DmkCmd, ∃ d0 : Dev, ∃ c i,
      s.dev.halfRuns half.val = true ∧
      d0 = noteIssuer cmd s.dev ∧
      d0.dmkClass cmd.cls = some c ∧
      c.half = half.val ∧
      d0.newIndex cmd.cls c = some i) ∧
    (∃ s : State, ∃ half : Fin 2, ∃ cmd : DmkCmd, ∃ d0 : Dev, ∃ c,
      s.dev.halfRuns half.val = true ∧
      d0 = noteIssuer cmd s.dev ∧
      d0.dmkClass cmd.cls = some c ∧
      c.half = half.val ∧
      d0.newIndex cmd.cls c = none) ∧
    (∃ s : State, ∃ half : Fin 2, ∃ cmd : DmkCmd, ∃ d0 : Dev, ∃ c,
      s.dev.halfRuns half.val = true ∧
      d0 = noteIssuer cmd s.dev ∧
      d0.dmkClass cmd.cls = some c ∧
      c.half ≠ half.val) ∧
    (∃ s : State, ∃ half : Fin 2, ∃ cmd : DmkCmd, ∃ r : DmkReply, ∃ d1 : Dev,
      s.dev.halfRuns half.val = true ∧
      forkOf half.val cmd (ownerOf cmd.issuer) (noteIssuer cmd s.dev) = (r, d1)) ∧
    (∃ s : State, ∃ half : Fin 2, ∃ cmd : DmkCmd, ∃ d0 : Dev, ∃ q,
      s.dev.halfRuns half.val = true ∧
      d0 = noteIssuer cmd s.dev ∧
      d0.seqIn half.val cmd.seq = some q ∧
      q.freeAt = none) ∧
    (∃ s : State, ∃ half : Fin 2, ∃ cmd : DmkCmd, ∃ d0 : Dev,
      s.dev.halfRuns half.val = true ∧
      d0 = noteIssuer cmd s.dev ∧
      d0.seqIn half.val cmd.seq = none) ∧
    (∃ s : State, ∃ half : Fin 2,
      s.dev.halfRuns half.val = true) ∧
    (∃ s : State, ∃ half : Fin 2, ∃ cmd : DmkCmd, ∃ i : Instr,
      s.dev.halfRuns half.val = false ∧
      i ∈ [.create half cmd, .openView half cmd, .appendTok half cmd, .forkSeq half cmd, .freeSeq half cmd,
    .restore half cmd, .openQueue half cmd, .damaskReservedOp half cmd]) :=
  ⟨⟨wS, 0, wCmd 0 0 0, _, _, 0, by decide +kernel, rfl, rfl, by decide +kernel, by decide +kernel⟩,
   ⟨wS, 0, wCmd 2 0 0, _, _, by decide +kernel, rfl, rfl, by decide +kernel, by decide +kernel⟩,
   ⟨wS, 0, wCmd 1 0 0, _, _, by decide +kernel, rfl, rfl, by decide +kernel⟩,
   ⟨{ dev := wSeqD }, 0, wCmd 0 5 0, _, _, by decide +kernel, (Prod.mk.eta).symm⟩,
   ⟨{ dev := wSeqD }, 0, wCmd 0 5 0, _, _, by decide +kernel, rfl, rfl, by decide +kernel⟩,
   ⟨wS, 0, wCmd 0 5 0, _, by decide +kernel, rfl, by decide +kernel⟩,
   ⟨wS, 0, by decide +kernel⟩,
   ⟨{ dev := { wDev with recovery := {} } }, 0, wCmd 0 0 0, .create 0 (wCmd 0 0 0), by decide +kernel, by decide +kernel⟩⟩

/-- Each clause of DamaskPageCommands has a state and operands that meet its hypotheses. -/
theorem wit_DamaskPageCommands :
    (∃ s : State, ∃ half : Fin 2, ∃ cmd : DmkCmd, ∃ d0 : Dev, ∃ q : Sequence, ∃ c : DmkClass, ∃ near shown : List PageEntry, ∃ missing : Nat, ∃ r : DmkReply, ∃ d1 : Dev,
      s.dev.halfRuns half.val = true ∧
      d0 = noteIssuer cmd s.dev ∧
      d0.seqIn half.val cmd.seq = some q ∧
      d0.dmkClass q.cls = some c ∧
      near = q.pages.filter (fun p => !beyond c (d0.epochOf cmd) p) ∧
      shown = near.filter (fun p => !p.dropped) ∧
      missing = (near.filter (·.dropped)).foldl (fun n p => n + p.tokens) 0 ∧
      r = { status := .ok, seq := cmd.seq, entries := shown.map viewEntry, missing := missing } ∧
      d1 = noteMissingView cmd missing d0) ∧
    (∃ s : State, ∃ half : Fin 2, ∃ cmd : DmkCmd, ∃ d0 : Dev, ∃ q : Sequence, ∃ c : DmkClass, ∃ r : DmkReply, ∃ d1 : Dev,
      s.dev.halfRuns half.val = true ∧
      d0 = noteIssuer cmd s.dev ∧
      d0.seqIn half.val cmd.seq = some q ∧
      d0.dmkClass q.cls = some c ∧
      1 ≤ cmd.count ∧
      cmd.count ≤ 4096 ∧
      appendTo half.val cmd q c d0 = (r, d1)) ∧
    (∃ s : State, ∃ half : Fin 2, ∃ cmd : DmkCmd, ∃ d0 : Dev, ∃ q : Sequence, ∃ c : DmkClass,
      s.dev.halfRuns half.val = true ∧
      d0 = noteIssuer cmd s.dev ∧
      d0.seqIn half.val cmd.seq = some q ∧
      d0.dmkClass q.cls = some c ∧
      (cmd.count = 0 ∨ 4096 < cmd.count)) ∧
    (∃ s : State, ∃ half : Fin 2, ∃ cmd : DmkCmd, ∃ d0 : Dev, ∃ hit : Rebuild → Bool,
      s.dev.halfRuns half.val = true ∧
      d0 = noteIssuer cmd s.dev ∧
      hit = (fun r => decide (r.number = cmd.entry) && decide (r.epoch = d0.epochOf cmd) && decide (r.seq = cmd.seq)) ∧
      (d0.half half.val).rebuilds.any hit = true) ∧
    (∃ s : State, ∃ half : Fin 2, ∃ cmd : DmkCmd, ∃ d0 : Dev, ∃ hit : Rebuild → Bool,
      s.dev.halfRuns half.val = true ∧
      d0 = noteIssuer cmd s.dev ∧
      hit = (fun r => decide (r.number = cmd.entry) && decide (r.epoch = d0.epochOf cmd) && decide (r.seq = cmd.seq)) ∧
      (d0.half half.val).rebuilds.any hit = false) ∧
    (∃ s : State, ∃ half : Fin 2, ∃ cmd : DmkCmd, ∃ m : ModeRec, ∃ d1 : Dev, ∃ x : List (List Byte) × Dev,
      s.dev.halfRuns half.val = true ∧
      d1 = modHalf half.val (fun y => if y.listedTick = (noteIssuer cmd s.dev).epochOf cmd then y
    else { y with listed := 0, listedTick := (noteIssuer cmd s.dev).epochOf cmd }) (noteIssuer cmd s.dev) ∧
      d1.modeAt cmd.tick = some m ∧
      x = listQueue half.val ((noteIssuer cmd s.dev).epochOf cmd)
    ((d1.queue half.val ((noteIssuer cmd s.dev).epochOf cmd)).take (m.recomputePages - (d1.half half.val).listed)) d1) ∧
    (∃ s : State, ∃ d1 : Dev,
      s.dev.epochDue = true ∧
      d1 = closeHalf 1 s.dev.damask.epoch (closeHalf 0 s.dev.damask.epoch s.dev)) :=
  ⟨⟨{ dev := wSeqD }, 0, wCmd 0 5 0, _, _, _, _, _, _, _, _, by decide +kernel, rfl, rfl, rfl, rfl, rfl, rfl, rfl, rfl⟩,
   ⟨{ dev := wSeqD }, 0, wCmd 0 5 4096, _, _, _, _, _, by decide +kernel, rfl, rfl, rfl, by decide +kernel, by decide +kernel, rfl⟩,
   ⟨{ dev := wSeqD }, 0, wCmd 0 5 4097, _, _, _, by decide +kernel, rfl, rfl, rfl, by decide +kernel⟩,
   ⟨{ dev := modHalf 0 (fun h => { h with rebuilds := [{ number := 0, epoch := 5, seq := 5, snap := 0, slot := 0, restored := false }] }) wSeqD }, 0, wCmd 0 5 0, _, _, by decide +kernel, rfl, rfl, by decide +kernel⟩,
   ⟨{ dev := wSeqD }, 0, wCmd 0 5 0, _, _, by decide +kernel, rfl, rfl, by decide +kernel⟩,
   ⟨wS, 0, wCmd 0 0 0, _, _, _, by decide +kernel, rfl, rfl, rfl⟩,
   ⟨wS, _, by decide +kernel, rfl⟩⟩

/-- Each clause of SergeSolvesEndOrFault has a state and operands that meet its hypotheses. -/
theorem wit_SergeSolvesEndOrFault :
    (∃ s : State, ∃ unit : Fin 4, ∃ g : Nat, ∃ r : SlotRec,
      (s.dev.srgUnit unit.val).state = .running ∧
      (s.dev.srgUnit unit.val).slotRunning = some g ∧
      s.dev.slotRec g = some r ∧
      s.dev.now ≤ (s.dev.srgSlot g).deadlineAt) ∧
    (∃ s : State, ∃ unit : Fin 4, ∃ g : Nat, ∃ r : SlotRec,
      (s.dev.srgUnit unit.val).state = .running ∧
      (s.dev.srgUnit unit.val).slotRunning = some g ∧
      s.dev.slotRec g = some r ∧
      (s.dev.srgSlot g).deadlineAt ≤ s.dev.now) ∧
    (∃ s : State, ∃ unit : Fin 4, ∃ g : Nat, ∃ r : SlotRec, ∃ run : SolveRun,
      (s.dev.srgUnit unit.val).state = .running ∧
      (s.dev.srgUnit unit.val).slotRunning = some g ∧
      s.dev.slotRec g = some r ∧
      (s.dev.srgSlot g).deadlineAt ≤ s.dev.now ∧
      r.cls = .calib ∧
      (s.dev.srgSlot g).windowsUsed < r.spanWindows ∧
      (s.dev.cutSolve g r run).ended = .timer ∧
      s.dev.cutAt ≠ some (s.dev.srgSlot g).deadlineAt) ∧
    (∃ s : State, ∃ unit : Fin 4, ∃ g : Nat, ∃ r : SlotRec, ∃ run : SolveRun,
      (s.dev.srgUnit unit.val).state = .running ∧
      (s.dev.srgUnit unit.val).slotRunning = some g ∧
      s.dev.slotRec g = some r ∧
      (s.dev.srgSlot g).deadlineAt ≤ s.dev.now ∧
      (r.cls ≠ .calib ∨ r.spanWindows ≤ (s.dev.srgSlot g).windowsUsed ∨ (s.dev.cutSolve g r run).ended ≠ .timer ∨
        s.dev.cutAt = some (s.dev.srgSlot g).deadlineAt)) ∧
    (∃ s : State, ∃ unit : Fin 4, ∃ t : Nanos,
      (s.dev.srgUnit unit.val).stopDue = some t ∧
      t + 2 * usNs ≤ s.dev.now) ∧
    (∃ s : State, ∃ unit : Fin 4,
      (s.dev.srgUnit unit.val).state ≠ .fault) ∧
    (∃ s : State, ∃ unit : Fin 4,
      (s.dev.srgUnit unit.val).state = .resetting) :=
  ⟨⟨{ dev := { wDev with serge := { units := [(0, { state := .running, slotRunning := some 0 })], slots := [(0, { running := true, deadlineAt := 3000000000, windowsUsed := 1 })] } } }, 0, _, _, by decide +kernel, rfl, rfl, by decide +kernel⟩,
   ⟨{ dev := { wDev with serge := { units := [(0, { state := .running, slotRunning := some 0 })], slots := [(0, { running := true, deadlineAt := 3000000000, windowsUsed := 1 })] } } }, 0, _, _, by decide +kernel, rfl, rfl, by decide +kernel⟩,
   ⟨{ dev := { wDev with serge := { units := [(1, { state := .running, slotRunning := some 2 })], slots := [(2, { running := true, deadlineAt := 3000000000, windowsUsed := 3 })] } } }, 1, _, _, wRun, by decide +kernel, rfl, rfl, by decide +kernel, by decide +kernel, by decide +kernel, by decide +kernel, by decide +kernel⟩,
   ⟨{ dev := { wDev with serge := { units := [(1, { state := .running, slotRunning := some 2 })], slots := [(2, { running := true, deadlineAt := 3000000000, windowsUsed := 4 })] } } }, 1, _, _, wRun, by decide +kernel, rfl, rfl, by decide +kernel, Or.inr (Or.inl (by decide +kernel))⟩,
   ⟨{ dev := { wDev with serge := { units := [(0, { state := .running, slotRunning := some 0, stopDue := some 2999998000 })], slots := [(0, { running := true, deadlineAt := 0, windowsUsed := 0 })] } } }, 0, _, rfl, by decide +kernel⟩,
   ⟨wS, 0, by decide +kernel⟩,
   ⟨{ dev := { wDev with serge := { units := [(0, { state := .resetting })] } } }, 0, by decide +kernel⟩⟩

/-- Each clause of GoldenVisitsPassOrFail has a state and operands that meet its hypotheses. -/
theorem wit_GoldenVisitsPassOrFail :
    (∃ s : State, ∃ cl : Fin 132, ∃ sigs : List (BitVec 64), ∃ roShift : BitVec 16, ∃ seg : GoldenSeg, ∃ d0 : Dev,
      (s.dev.golden cl.val).running = true ∧
      s.dev.image.safety.segs[(s.dev.golden cl.val).seg]? = some seg ∧
      d0 = { s.dev with health := { s.dev.health with roShift := bput 0 cl.val roShift.toNat s.dev.health.roShift } } ∧
      (∀ co, co < 64 → sigs[co]? = some seg.sig) ∧
      (s.dev.golden cl.val).seg + 1 < s.dev.image.safety.segs.length) ∧
    (∃ s : State, ∃ cl : Fin 132, ∃ sigs : List (BitVec 64), ∃ roShift : BitVec 16, ∃ seg : GoldenSeg, ∃ d0 : Dev,
      (s.dev.golden cl.val).running = true ∧
      s.dev.image.safety.segs[(s.dev.golden cl.val).seg]? = some seg ∧
      d0 = { s.dev with health := { s.dev.health with roShift := bput 0 cl.val roShift.toNat s.dev.health.roShift } } ∧
      (∀ co, co < 64 → sigs[co]? = some seg.sig) ∧
      s.dev.image.safety.segs.length ≤ (s.dev.golden cl.val).seg + 1) ∧
    (∃ s : State, ∃ cl : Fin 132, ∃ sigs : List (BitVec 64), ∃ roShift : BitVec 16, ∃ seg : GoldenSeg, ∃ d0 : Dev,
      (s.dev.golden cl.val).running = true ∧
      s.dev.image.safety.segs[(s.dev.golden cl.val).seg]? = some seg ∧
      d0 = { s.dev with health := { s.dev.health with roShift := bput 0 cl.val roShift.toNat s.dev.health.roShift } } ∧
      (∃ co, co < 64 ∧ sigs[co]? ≠ some seg.sig)) ∧
    (∃ s : State, ∃ cl : Fin 132,
      (s.dev.golden cl.val).running = false) :=
  ⟨⟨{ dev := { wDev with felt := { golden := [(0, { seg := 0, running := true })] } } }, 0, List.replicate 64 7, 0, _, _, by decide +kernel, rfl, rfl, (by intro co h; exact List.getElem?_replicate_of_lt h), by decide +kernel⟩,
   ⟨{ dev := { wDev with felt := { golden := [(0, { seg := 1, running := true })] } } }, 0, List.replicate 64 8, 0, _, _, by decide +kernel, rfl, rfl, (by intro co h; exact List.getElem?_replicate_of_lt h), by decide +kernel⟩,
   ⟨{ dev := { wDev with felt := { golden := [(0, { seg := 0, running := true })] } } }, 0, List.replicate 63 7 ++ [6], 0, _, _, by decide +kernel, rfl, rfl, ⟨63, by decide, by decide⟩⟩,
   ⟨wS, 0, by decide +kernel⟩⟩

/-- Each clause of ClassVFaultsStopSafeOk has a state and operands that meet its hypotheses. -/
theorem wit_ClassVFaultsStopSafeOk :
    ∃ s : State, ∃ i : Instr, ∃ code : Nat,
      ((i = .lockstepMismatch ∧ code = 0x0001) ∨ (i = .fabricError ∧ code = 0x0004) ∨
    (i = .refclkLoss ∧ s.dev.felt.refclkLost = false ∧ code = 0x0003) ∨
    (∃ elapsed, i = .tickIntervalTimeout elapsed ∧ s.dev.time.begun = true ∧ s.dev.felt.intervalFault = false ∧
      s.dev.time.minorNs < elapsed ∧ outOfBand elapsed s.dev.time.minorNs = true ∧ code = 0x0003)) :=
  ⟨wS, .tickIntervalTimeout 1000501, 3, Or.inr (Or.inr (Or.inr ⟨1000501, rfl, by decide +kernel, by decide +kernel, by decide +kernel, by decide +kernel, rfl⟩))⟩

/-- Each clause of ClassVEndsAfterCleanTicks has a state and operands that meet its hypotheses. -/
theorem wit_ClassVEndsAfterCleanTicks :
    (∃ s : State, ∃ f,
      s.dev.felt.classV = true ∧
      s.dev.felt.resuming = true ∧
      s.dev.felt.resumeLeft = 0 ∧
      s.dev.felt.allEnded = true ∧
      f = { s.dev.felt with classV := false, conditions := [], resuming := false } ∧
      f.safeOk = .stopped) ∧
    (∃ s : State, ∃ f,
      s.dev.felt.classV = true ∧
      s.dev.felt.resuming = true ∧
      s.dev.felt.resumeLeft = 0 ∧
      s.dev.felt.allEnded = true ∧
      f = { s.dev.felt with classV := false, conditions := [], resuming := false } ∧
      f.safeOk ≠ .stopped) ∧
    (∃ s : State,
      s.dev.felt.selfCheckDue = true ∧
      s.dev.pairRuns = true ∧
      s.dev.felt.goodInterval = true ∧
      s.dev.felt.refclkLost = false) ∧
    (∃ s : State,
      s.dev.felt.refclkLost = true ∧
      s.dev.felt.pairReset = true) ∧
    (∃ s : State,
      s.dev.felt.refclkLost = true ∧
      s.dev.felt.pairReset = false) :=
  ⟨⟨{ dev := { wDev with felt := { classV := true, resuming := true, safeOk := .stopped } } }, _, by decide +kernel, by decide +kernel, by decide +kernel, by decide +kernel, rfl, by decide +kernel⟩,
   ⟨{ dev := { wDev with felt := { classV := true, resuming := true, safeOk := .notStarted } } }, _, by decide +kernel, by decide +kernel, by decide +kernel, by decide +kernel, rfl, by decide +kernel⟩,
   ⟨{ dev := { wDev with felt := { selfCheckDue := true, goodInterval := true } } }, by decide +kernel, by decide +kernel, by decide +kernel, by decide +kernel⟩,
   ⟨{ dev := { wDev with felt := { refclkLost := true, pairReset := true } } }, by decide +kernel, by decide +kernel⟩,
   ⟨{ dev := { wDev with felt := { refclkLost := true } } }, by decide +kernel, by decide +kernel⟩⟩

/-- Each clause of FirmwareProcessorsRestartAlone has a state and operands that meet its hypotheses. -/
theorem wit_FirmwareProcessorsRestartAlone :
    (∃ s : State, ∃ p : FwProc, ∃ recent : List Nanos, ∃ d1 d2 d3 : Dev,
      (s.dev.proc p.val).restarting = false ∧
      s.dev.boot.phase ≠ .held ∧
      recent = (s.dev.now :: (s.dev.proc p.val).recent).filter (fun t => decide (s.dev.now < t + 1000 * msNs)) ∧
      d1 = logWrite p.val (Config.severity 0x1000 (barFw p.val)).toNat (barFw p.val) [(s.dev.proc p.val).restarts.inc.val.toNat]
    (satEvent (barFw p.val) (s.dev.proc p.val).restarts (s.dev.proc p.val).restarts.inc
      (modProc p.val (fun f => { f with
        restarting := true, restartBegan := s.dev.now, recent := recent, restarts := (s.dev.proc p.val).restarts.inc }) s.dev)) ∧
      d2 = (if p.val = 1 then raiseV 0x0002 dieIod (Config.faultUnit 0x0002) (Config.faultArg 0x0002) false 0 d1 else d1) ∧
      d3 = healthEvent { code := 0x1000, severity := BitVec.ofNat 3 sevFault, unit := p.val, arg0 := barFw p.val, arg1 := (s.dev.proc p.val).restarts.inc.val.toNat }
    (logWrite p.val sevFault (barFw p.val) [(s.dev.proc p.val).restarts.inc.val.toNat] d2) ∧
      recent.length < 3) ∧
    (∃ s : State, ∃ p : FwProc, ∃ recent : List Nanos, ∃ d1 d2 d3 : Dev,
      (s.dev.proc p.val).restarting = false ∧
      s.dev.boot.phase ≠ .held ∧
      recent = (s.dev.now :: (s.dev.proc p.val).recent).filter (fun t => decide (s.dev.now < t + 1000 * msNs)) ∧
      d1 = logWrite p.val (Config.severity 0x1000 (barFw p.val)).toNat (barFw p.val) [(s.dev.proc p.val).restarts.inc.val.toNat]
    (satEvent (barFw p.val) (s.dev.proc p.val).restarts (s.dev.proc p.val).restarts.inc
      (modProc p.val (fun f => { f with
        restarting := true, restartBegan := s.dev.now, recent := recent, restarts := (s.dev.proc p.val).restarts.inc }) s.dev)) ∧
      d2 = (if p.val = 1 then raiseV 0x0002 dieIod (Config.faultUnit 0x0002) (Config.faultArg 0x0002) false 0 d1 else d1) ∧
      d3 = healthEvent { code := 0x1000, severity := BitVec.ofNat 3 sevFault, unit := p.val, arg0 := barFw p.val, arg1 := (s.dev.proc p.val).restarts.inc.val.toNat }
    (logWrite p.val sevFault (barFw p.val) [(s.dev.proc p.val).restarts.inc.val.toNat] d2) ∧
      3 ≤ recent.length ∧
      (recent.length < 4 ∨ p.val < 4)) ∧
    (∃ s : State, ∃ p : FwProc, ∃ recent : List Nanos, ∃ d1 d2 d3 : Dev,
      (s.dev.proc p.val).restarting = false ∧
      s.dev.boot.phase ≠ .held ∧
      recent = (s.dev.now :: (s.dev.proc p.val).recent).filter (fun t => decide (s.dev.now < t + 1000 * msNs)) ∧
      d1 = logWrite p.val (Config.severity 0x1000 (barFw p.val)).toNat (barFw p.val) [(s.dev.proc p.val).restarts.inc.val.toNat]
    (satEvent (barFw p.val) (s.dev.proc p.val).restarts (s.dev.proc p.val).restarts.inc
      (modProc p.val (fun f => { f with
        restarting := true, restartBegan := s.dev.now, recent := recent, restarts := (s.dev.proc p.val).restarts.inc }) s.dev)) ∧
      d2 = (if p.val = 1 then raiseV 0x0002 dieIod (Config.faultUnit 0x0002) (Config.faultArg 0x0002) false 0 d1 else d1) ∧
      d3 = healthEvent { code := 0x1000, severity := BitVec.ofNat 3 sevFault, unit := p.val, arg0 := barFw p.val, arg1 := (s.dev.proc p.val).restarts.inc.val.toNat }
    (logWrite p.val sevFault (barFw p.val) [(s.dev.proc p.val).restarts.inc.val.toNat] d2) ∧
      4 ≤ recent.length ∧
      4 ≤ p.val) ∧
    (∃ s : State, ∃ p : FwProc,
      ((s.dev.proc p.val).restarting = true ∨ s.dev.boot.phase = .held)) ∧
    (∃ s : State, ∃ p : FwProc,
      (s.dev.proc p.val).restarting = false) ∧
    (∃ s : State, ∃ p : FwProc,
      (s.dev.proc p.val).restarting = true ∧
      p.val ≠ 0 ∧
      (p.val = 1 → s.dev.felt.pairReset = false)) ∧
    (∃ s : State, ∃ p : FwProc,
      (s.dev.proc p.val).restarting = true ∧
      p.val = 1 ∧
      s.dev.felt.pairReset = true) ∧
    (∃ s : State, ∃ p : FwProc,
      (s.dev.proc p.val).restarting = true ∧
      p.val = 0) :=
  ⟨⟨wS, 0, _, _, _, _, by decide +kernel, by decide +kernel, rfl, rfl, rfl, rfl, by decide +kernel⟩,
   ⟨{ dev := { wDev with boot := { wDev.boot with procs := [(0, { recent := [2999000000, 2998000000] })] } } }, 0, _, _, _, _, by decide +kernel, by decide +kernel, rfl, rfl, rfl, rfl, by decide +kernel, Or.inr (by decide)⟩,
   ⟨{ dev := { wDev with boot := { wDev.boot with procs := [(4, { recent := [2999000000, 2998000000, 2997000000] })] } } }, 4, _, _, _, _, by decide +kernel, by decide +kernel, rfl, rfl, rfl, rfl, by decide +kernel, by decide +kernel⟩,
   ⟨{ dev := { wDev with boot := { wDev.boot with procs := [(1, { restarting := true })] } } }, 1, Or.inl (by decide +kernel)⟩,
   ⟨wS, 1, by decide +kernel⟩,
   ⟨{ dev := { wDev with boot := { wDev.boot with procs := [(1, { restarting := true })] } } }, 1, by decide +kernel, by decide +kernel, by decide +kernel⟩,
   ⟨{ dev := { wDev with boot := { wDev.boot with procs := [(1, { restarting := true })] }, felt := { pairReset := true } } }, 1, by decide +kernel, by decide +kernel, by decide +kernel⟩,
   ⟨{ dev := { wDev with boot := { wDev.boot with procs := [(0, { restarting := true })] } } }, 0, by decide +kernel, by decide +kernel⟩⟩

/-- Each clause of PartitionsAndDiesRecover has a state and operands that meet its hypotheses. -/
theorem wit_PartitionsAndDiesRecover :
    (∃ s : State, ∃ die : Fin 6, ∃ r : DieRestart,
      s.dev.fwRuns (4 + die.val) = true ∧
      s.dev.powerOff die.val = false ∧
      (s.dev.die die.val).restart = some r ∧
      r.phase = .running) ∧
    (∃ s : State, ∃ die : Fin 6, ∃ part : Nat, ∃ q : PartRestart,
      s.dev.fwRuns (4 + die.val) = true ∧
      s.dev.powerOff die.val = false ∧
      part ≠ 0xFF ∧
      (s.dev.die die.val).parts.find? (fun r => decide (r.index = part) && decide (r.phase = .running)) = some q) ∧
    (∃ s : State, ∃ die : Fin 6, ∃ r : DieRestart,
      s.dev.powerOff die.val = false ∧
      (s.dev.die die.val).restart = some r ∧
      r.since + 300 * msNs ≤ s.dev.now) ∧
    (∃ s : State, ∃ die : Fin 6, ∃ r : DieRestart,
      s.dev.powerOff die.val = false ∧
      (s.dev.die die.val).restart = some r ∧
      s.dev.now < r.since + 300 * msNs) ∧
    (∃ s : State, ∃ die : Fin 6, ∃ part : Nat, ∃ q : PartRestart,
      s.dev.powerOff die.val = false ∧
      part ≠ 0xFF ∧
      (s.dev.die die.val).parts.find? (fun r => decide (r.index = part)) = some q ∧
      q.since + 300 * msNs ≤ s.dev.now) ∧
    (∃ s : State, ∃ die : Fin 6, ∃ digestsOk versionOk epochOk : Bool, ∃ fit : DieFit, ∃ start ok : Bool, ∃ d1 : Dev,
      start = (decide ((s.dev.die die.val).state = .awaiting) && (s.dev.die die.val).reloaded && decide (s.dev.boot.phase = .verified)) ∧
      (start = true ∨ (s.dev.die die.val).reportDue = true) ∧
      s.dev.fwRuns (4 + die.val) = true ∧
      s.dev.powerOff die.val = false ∧
      d1 = noteMemory die.val fit.memory start s.dev ∧
      ok = (digestsOk && versionOk && epochOk && (decide (die.val < 4) || !d1.memMismatch)) ∧
      d1.fwRuns 0 = true) ∧
    (∃ s : State, ∃ die : Fin 6, ∃ digestsOk versionOk epochOk : Bool, ∃ fit : DieFit, ∃ start ok : Bool, ∃ d1 : Dev,
      start = (decide ((s.dev.die die.val).state = .awaiting) && (s.dev.die die.val).reloaded && decide (s.dev.boot.phase = .verified)) ∧
      (start = true ∨ (s.dev.die die.val).reportDue = true) ∧
      s.dev.fwRuns (4 + die.val) = true ∧
      s.dev.powerOff die.val = false ∧
      d1 = noteMemory die.val fit.memory start s.dev ∧
      ok = (digestsOk && versionOk && epochOk && (decide (die.val < 4) || !d1.memMismatch)) ∧
      d1.fwRuns 0 = false) ∧
    (∃ s : State, ∃ die : Fin 6,
      s.dev.awaits die.val = true ∧
      s.dev.admissionLimit ≤ s.dev.now ∧
      s.dev.boot.phase ≠ .held) ∧
    (∃ s : State, ∃ die : Fin 6, ∃ since : Nanos, ∃ b : Nat, ∃ d1 : Dev,
      s.dev.boot.warm = .reload since b ∧
      (s.dev.die die.val).reloaded = false ∧
      (s.dev.die die.val).state ≠ .out ∧
      s.dev.oldWork die.val = false ∧
      s.dev.powerOff die.val = false ∧
      d1 = s.dev.setDie die.val { s.dev.die die.val with
    state := .awaiting, restart := none, parts := [], report := none, resync := true, reloaded := true } ∧
      4 ≤ die.val) ∧
    (∃ s : State, ∃ die : Fin 6, ∃ since : Nanos, ∃ b : Nat, ∃ d1 d2 : Dev,
      s.dev.boot.warm = .reload since b ∧
      (s.dev.die die.val).reloaded = false ∧
      (s.dev.die die.val).state ≠ .out ∧
      s.dev.oldWork die.val = false ∧
      s.dev.powerOff die.val = false ∧
      d1 = s.dev.setDie die.val { s.dev.die die.val with
    state := .awaiting, restart := none, parts := [], report := none, resync := true, reloaded := true } ∧
      die.val < 4 ∧
      d2 = ((List.range 32).map (fun c => 32 * die.val + c)).foldl resetCluster d1) :=
  ⟨⟨wDieS { wDie with state := .restarting, restart := some { since := 0, phase := .running, readmitted := false } }, 0, _, by decide +kernel, by decide +kernel, rfl, by decide +kernel⟩,
   ⟨wDieS { wDie with parts := [wPartRestart] }, 0, 0, _, by decide +kernel, by decide +kernel, by decide +kernel, rfl⟩,
   ⟨wDieS { wDie with state := .restarting, restart := some { since := 2700000000, phase := .running, readmitted := false } }, 0, _, by decide +kernel, rfl, by decide +kernel⟩,
   ⟨wDieS { wDie with state := .restarting, restart := some { since := 2700000001, phase := .running, readmitted := false } }, 0, _, by decide +kernel, rfl, by decide +kernel⟩,
   ⟨wDieS { wDie with parts := [wPartRestart] }, 0, 0, _, by decide +kernel, by decide +kernel, rfl, by decide +kernel⟩,
   ⟨wDieS { wDie with state := .awaiting }, 0, true, true, true, { latency := 0, memory := { groups := 0, ranks := false, gib := 0 } }, _, _, _, rfl, Or.inl (by decide +kernel), by decide +kernel, by decide +kernel, rfl, rfl, by decide +kernel⟩,
   ⟨{ dev := { wDev.setDie 0 { wDie with state := .awaiting } with boot := { wDev.boot with procs := [(0, { restarting := true })] } } }, 0, true, true, true, { latency := 0, memory := { groups := 0, ranks := false, gib := 0 } }, _, _, _, rfl, Or.inl (by decide +kernel), by decide +kernel, by decide +kernel, rfl, rfl, by decide +kernel⟩,
   ⟨wDieS { wDie with state := .awaiting }, 0, by decide +kernel, by decide +kernel, by decide +kernel⟩,
   ⟨{ dev := { wDev.setDie 4 { wDie with reloaded := false } with boot := { wDev.boot with warm := .reload 0 0 } } }, 4, _, _, _, rfl, by decide +kernel, by decide +kernel, by decide +kernel, by decide +kernel, rfl, by decide +kernel⟩,
   ⟨{ dev := { wDev.setDie 0 { wDie with reloaded := false } with boot := { wDev.boot with warm := .reload 0 0 } } }, 0, _, _, _, _, rfl, by decide +kernel, by decide +kernel, by decide +kernel, by decide +kernel, rfl, by decide +kernel, rfl⟩⟩

/-- Each clause of ResetsLoseAllButTheNvm has a state and operands that meet its hypotheses. -/
theorem wit_ResetsLoseAllButTheNvm :
    (∃ s : State,
      s.dev.boot.porstHigh = true ∧
      s.dev.boot.thermTrip = false) ∧
    (∃ s : State,
      (s.dev.boot.porstHigh = false ∨ s.dev.boot.thermTrip = true)) ∧
    (∃ s : State,
      2000 * msNs ≤ s.dev.now ∧
      s.dev.felt.safeOk = .notStarted ∧
      s.dev.boot.phase ≠ .held) ∧
    (∃ s : State, ∃ d1 : Dev,
      d1 = (if s.dev.boot.porstHigh = true then emit (.nvReset 100) s.dev else s.dev)) ∧
    (∃ s : State,
      (s.dev.now < 2000 * msNs ∨ s.dev.felt.safeOk ≠ .notStarted ∨ s.dev.boot.phase = .held)) :=
  ⟨⟨wS, by decide +kernel, by decide +kernel⟩,
   ⟨{ dev := { wDev with boot := { wDev.boot with thermTrip := true } } }, by decide +kernel⟩,
   ⟨wS, by decide +kernel, by decide +kernel, by decide +kernel⟩,
   ⟨wS, _, rfl⟩,
   ⟨{ dev := { wDev with boot := { wDev.boot with phase := .held } } }, Or.inr (Or.inr (by decide +kernel))⟩⟩

/-- Each clause of BootReadsVerifyOrFail has a state and operands that meet its hypotheses. -/
theorem wit_BootReadsVerifyOrFail :
    (∃ s : State, ∃ check : SlotCrypto, ∃ img : SlotBytes, ∃ r : SlotRead,
      r = { toSlotCrypto := check, toSlotBytes := img } ∧
      s.dev.boot.phase ≠ .phase0) ∧
    (∃ s : State, ∃ check : SlotCrypto, ∃ img : SlotBytes, ∃ r : SlotRead,
      r = { toSlotCrypto := check, toSlotBytes := img } ∧
      s.dev.boot.phase = .phase0 ∧
      retires s.dev.boot.nv r = true) ∧
    (∃ s : State, ∃ check : SlotCrypto, ∃ img : SlotBytes, ∃ r : SlotRead, ∃ c,
      r = { toSlotCrypto := check, toSlotBytes := img } ∧
      s.dev.boot.phase = .phase0 ∧
      retires s.dev.boot.nv r = false ∧
      slotCause s.dev.boot.nv phase0Parts r = some c) ∧
    (∃ s : State, ∃ check : SlotCrypto, ∃ img : SlotBytes, ∃ r : SlotRead,
      r = { toSlotCrypto := check, toSlotBytes := img } ∧
      s.dev.boot.phase = .phase0 ∧
      retires s.dev.boot.nv r = false ∧
      slotCause s.dev.boot.nv phase0Parts r = none) ∧
    (∃ s : State, ∃ id : BitVec 8, ∃ digest part i : Nat, ∃ e : SectionEntry,
      s.dev.boot.phase = .phase1 ∧
      s.dev.fwRuns procHkp = true ∧
      s.dev.boot.sectionsVerified.contains id.toNat = false ∧
      phase1Parts.find? (fun p => decide (p.1 = id.toNat)) = some (id.toNat, part) ∧
      placeOf s.dev.boot.image.manifest id.toNat part = some i ∧
      s.dev.boot.image.manifest.entries[i]? = some e ∧
      e.digest ≠ digest) ∧
    (∃ s : State, ∃ id : BitVec 8, ∃ bytes : List Byte, ∃ digest part i : Nat, ∃ e : SectionEntry, ∃ d1 : Dev,
      s.dev.boot.phase = .phase1 ∧
      s.dev.fwRuns procHkp = true ∧
      s.dev.boot.sectionsVerified.contains id.toNat = false ∧
      phase1Parts.find? (fun p => decide (p.1 = id.toNat)) = some (id.toNat, part) ∧
      placeOf s.dev.boot.image.manifest id.toNat part = some i ∧
      s.dev.boot.image.manifest.entries[i]? = some e ∧
      e.digest = digest ∧
      d1 = { s.dev with boot := { s.dev.boot with
      sectionsVerified := id.toNat :: s.dev.boot.sectionsVerified
      image := withSections s.dev.boot.image [(i, bytes)] [id.toNat] } } ∧
      id.toNat = 0x11) ∧
    (∃ s : State, ∃ id : BitVec 8, ∃ bytes : List Byte, ∃ digest part i : Nat, ∃ e : SectionEntry, ∃ d1 : Dev,
      s.dev.boot.phase = .phase1 ∧
      s.dev.fwRuns procHkp = true ∧
      s.dev.boot.sectionsVerified.contains id.toNat = false ∧
      phase1Parts.find? (fun p => decide (p.1 = id.toNat)) = some (id.toNat, part) ∧
      placeOf s.dev.boot.image.manifest id.toNat part = some i ∧
      s.dev.boot.image.manifest.entries[i]? = some e ∧
      e.digest = digest ∧
      d1 = { s.dev with boot := { s.dev.boot with
      sectionsVerified := id.toNat :: s.dev.boot.sectionsVerified
      image := withSections s.dev.boot.image [(i, bytes)] [id.toNat] } } ∧
      id.toNat ≠ 0x11) ∧
    (∃ s : State, ∃ id : BitVec 8,
      (s.dev.boot.phase ≠ .phase1 ∨ s.dev.fwRuns procHkp = false ∨ s.dev.boot.sectionsVerified.contains id.toNat = true)) ∧
    (∃ s : State,
      s.dev.boot.phase = .phase1 ∧
      s.dev.fwRuns procHkp = true) ∧
    (∃ s : State,
      s.dev.boot.phase = .phase1 ∧
      s.dev.fwRuns procHkp = true ∧
      phase1Parts.all (fun p => s.dev.boot.sectionsVerified.contains p.1) = false) ∧
    (∃ s : State,
      s.dev.boot.phase = .phase1 ∧
      s.dev.fwRuns procHkp = true ∧
      phase1Parts.all (fun p => s.dev.boot.sectionsVerified.contains p.1) = true) ∧
    (∃ s : State,
      (s.dev.boot.phase = .phase0 ∨ s.dev.boot.phase = .phase1)) ∧
    (∃ s : State, ∃ sl,
      s.dev.boot.phase = .verified ∧
      s.dev.boot.warm = .reading sl) ∧
    (∃ s : State, ∃ p,
      s.dev.boot.phase = .verified ∧
      s.dev.boot.warm = .none ∧
      s.dev.boot.stage = .commit p) ∧
    (∃ s : State, ∃ check : SlotCrypto, ∃ img : SlotBytes, ∃ r : SlotRead, ∃ sl : Slot, ∃ d1 : Dev, ∃ c,
      r = { toSlotCrypto := check, toSlotBytes := img } ∧
      s.dev.boot.warm = .reading sl ∧
      s.dev.fwRuns procHkp = true ∧
      d1 = (if retires s.dev.boot.nv r = true then burnRetired (noteHeader sl r s.dev) else noteHeader sl r s.dev) ∧
      slotCause s.dev.boot.nv (phase0Parts ++ phase1Parts) r = some c) ∧
    (∃ s : State, ∃ check : SlotCrypto, ∃ img : SlotBytes, ∃ r : SlotRead, ∃ sl : Slot, ∃ d1 : Dev, ∃ bc,
      r = { toSlotCrypto := check, toSlotBytes := img } ∧
      s.dev.boot.warm = .reading sl ∧
      s.dev.fwRuns procHkp = true ∧
      d1 = (if retires s.dev.boot.nv r = true then burnRetired (noteHeader sl r s.dev) else noteHeader sl r s.dev) ∧
      slotCause s.dev.boot.nv (phase0Parts ++ phase1Parts) r = none ∧
      bc = d1.majorFrom (d1.now + 2 * d1.time.minorNs)) :=
  ⟨⟨wS, wCheck, wBytes, _, rfl, by decide +kernel⟩,
   ⟨{ dev := { wDev with boot := { wDev.boot with phase := .phase0, nv := { lifecycle := .production } } } }, wCheck, { wBytes with manifest := wManifest 1 0xF00 }, _, rfl, by decide +kernel, by decide +kernel⟩,
   ⟨{ dev := { wDev with boot := { wDev.boot with phase := .phase0 } } }, { wCheck with manifestSigOk := false }, wBytes, _, 5, rfl, by decide +kernel, by decide +kernel, by decide +kernel⟩,
   ⟨{ dev := { wDev with boot := { wDev.boot with phase := .phase0 } } }, wCheck, wBytes, _, rfl, by decide +kernel, by decide +kernel, by decide +kernel⟩,
   ⟨{ dev := { wDev with boot := { wDev.boot with phase := .phase1, image := { wImage with manifest := manifestRec wBytes.manifest } } } }, 0x11, 1, 0, 17, _, by decide +kernel, by decide +kernel, by decide +kernel, by decide +kernel, by decide +kernel, rfl, by decide +kernel⟩,
   ⟨{ dev := { wDev with boot := { wDev.boot with phase := .phase1, image := { wImage with manifest := manifestRec wBytes.manifest } } } }, 0x11, [], 0, 0, 17, _, _, by decide +kernel, by decide +kernel, by decide +kernel, by decide +kernel, by decide +kernel, rfl, by decide +kernel, rfl, by decide +kernel⟩,
   ⟨{ dev := { wDev with boot := { wDev.boot with phase := .phase1, image := { wImage with manifest := manifestRec wBytes.manifest } } } }, 0x03, [], 0, 0, 15, _, _, by decide +kernel, by decide +kernel, by decide +kernel, by decide +kernel, by decide +kernel, rfl, by decide +kernel, rfl, by decide +kernel⟩,
   ⟨wS, 0x11, Or.inl (by decide +kernel)⟩,
   ⟨{ dev := { wDev with boot := { wDev.boot with phase := .phase1 } } }, by decide +kernel, by decide +kernel⟩,
   ⟨{ dev := { wDev with boot := { wDev.boot with phase := .phase1 } } }, by decide +kernel, by decide +kernel, by decide +kernel⟩,
   ⟨{ dev := { wDev with boot := { wDev.boot with phase := .phase1, sectionsVerified := [0x03, 0x05, 0x11, 0x14, 0x21, 0x22, 0x23, 0x26, 0x30] } } }, by decide +kernel, by decide +kernel, by decide +kernel⟩,
   ⟨{ dev := { wDev with boot := { wDev.boot with phase := .phase0 } } }, by decide +kernel⟩,
   ⟨{ dev := { wDev with boot := { wDev.boot with warm := .reading .b } } }, _, by decide +kernel, rfl⟩,
   ⟨{ dev := { wDev with boot := { wDev.boot with stage := .commit 0 } } }, 0, by decide +kernel, by decide +kernel, by decide +kernel⟩,
   ⟨{ dev := { wDev with boot := { wDev.boot with warm := .reading .b } } }, { wCheck with manifestSigOk := false }, wBytes, _, _, _, 5, rfl, rfl, by decide +kernel, rfl, by decide +kernel⟩,
   ⟨{ dev := { wDev with boot := { wDev.boot with warm := .reading .b } } }, wCheck, wBytes, _, _, _, _, rfl, rfl, by decide +kernel, rfl, by decide +kernel, rfl⟩⟩

/-- Each clause of SessionsOpenAndClose has a state and operands that meet its hypotheses. -/
theorem wit_SessionsOpenAndClose :
    (∃ s : State, ∃ port : Fin 4,
      s.dev.barOpen = true ∧
      (s.dev.port port.val).linkUp = true ∧
      (s.dev.port port.val).state ≠ .closed) ∧
    (∃ s : State, ∃ port : Fin 4,
      s.dev.barOpen = true ∧
      (s.dev.port port.val).linkUp = true ∧
      (s.dev.port port.val).state = .closed ∧
      s.dev.warmRunning = true) ∧
    (∃ s : State, ∃ port : Fin 4, ∃ r : HostPortRec,
      s.dev.barOpen = true ∧
      (s.dev.port port.val).linkUp = true ∧
      (s.dev.port port.val).state = .closed ∧
      s.dev.warmRunning = false ∧
      s.dev.portRec port.val = some r ∧
      r.enable = true ∧
      (s.dev.port port.val).busMaster = true ∧
      (s.dev.port port.val).ringsOk = true ∧
      reportLen ≤ (s.dev.port port.val).attestLen) ∧
    (∃ s : State, ∃ port : Fin 4, ∃ r : HostPortRec,
      s.dev.barOpen = true ∧
      (s.dev.port port.val).linkUp = true ∧
      (s.dev.port port.val).state = .closed ∧
      s.dev.warmRunning = false ∧
      s.dev.portRec port.val = some r ∧
      (r.enable = false ∨ (s.dev.port port.val).busMaster = false ∨ (s.dev.port port.val).ringsOk = false ∨
        (s.dev.port port.val).attestLen < reportLen)) ∧
    (∃ s : State, ∃ port : Fin 4,
      s.dev.barOpen = true ∧
      (s.dev.port port.val).linkUp = true ∧
      (s.dev.port port.val).state = .attesting) ∧
    (∃ s : State, ∃ port : Fin 4,
      s.dev.barOpen = true ∧
      (s.dev.port port.val).linkUp = true ∧
      (s.dev.port port.val).state = .open_) ∧
    (∃ s : State, ∃ port : Fin 4,
      s.dev.barOpen = true ∧
      (s.dev.port port.val).linkUp = true ∧
      (s.dev.port port.val).state = .closed) ∧
    (∃ s : State, ∃ port : Fin 4,
      s.dev.barOpen = true ∧
      (s.dev.port port.val).linkUp = true ∧
      (s.dev.port port.val).state = .closing ∧
      ((s.dev.port port.val).closeReason ≠ .heartbeat ∨ s.dev.now ≠ (s.dev.port port.val).hbAt + 500 * msNs)) ∧
    (∃ s : State, ∃ port : Fin 4,
      s.dev.fwRuns procHkp = true ∧
      (s.dev.port port.val).canWrite = true ∧
      (s.dev.port port.val).state = .attesting ∧
      s.dev.now < (s.dev.port port.val).openAt + 400 * msNs) ∧
    (∃ s : State, ∃ port : Fin 4, ∃ w,
      s.dev.fwRuns procHkp = true ∧
      (s.dev.port port.val).canWrite = true ∧
      ((s.dev.port port.val).state = .open_ ∨ (s.dev.port port.val).state = .closing) ∧
      s.dev.begunCommand port.val 0x12 = some w) ∧
    (∃ s : State, ∃ port : Fin 4,
      (s.dev.port port.val).state = .attesting ∧
      (s.dev.port port.val).openAt + 400 * msNs ≤ s.dev.now) ∧
    (∃ s : State, ∃ port : Fin 4,
      ((s.dev.port port.val).state ≠ .attesting ∨ s.dev.now < (s.dev.port port.val).openAt + 400 * msNs)) ∧
    (∃ s : State, ∃ port : Fin 4,
      (s.dev.port port.val).state = .open_ ∧
      (s.dev.port port.val).hbAt + 300 * msNs ≤ s.dev.now) ∧
    (∃ s : State, ∃ port : Fin 4,
      ((s.dev.port port.val).state ≠ .open_ ∨ s.dev.now < (s.dev.port port.val).hbAt + 300 * msNs)) ∧
    (∃ s : State, ∃ port : Fin 4,
      (s.dev.barOpen = false ∨ (s.dev.port port.val).linkUp = false)) :=
  ⟨⟨wPortS { state := .closing }, 0, by decide +kernel, by decide +kernel, by decide +kernel⟩,
   ⟨{ dev := { wDev with boot := { wDev.boot with warm := .reading .b } } }, 0, by decide +kernel, by decide +kernel, by decide +kernel, by decide +kernel⟩,
   ⟨wPortS { sqSizeLog2 := 6, cqSizeLog2 := 6, sqBase := 0x1000, cqBase := 0x4000, wbAddr := 0x10000, attestAddr := 0x20000, attestLen := 80416 }, 0, _, by decide +kernel, by decide +kernel, by decide +kernel, by decide +kernel, rfl, by decide +kernel, by decide +kernel, by decide +kernel, by decide +kernel⟩,
   ⟨wS, 0, _, by decide +kernel, by decide +kernel, by decide +kernel, by decide +kernel, rfl, by decide +kernel⟩,
   ⟨wPortS { state := .attesting }, 0, by decide +kernel, by decide +kernel, by decide +kernel⟩,
   ⟨wPortS { state := .open_ }, 0, by decide +kernel, by decide +kernel, by decide +kernel⟩,
   ⟨wS, 0, by decide +kernel, by decide +kernel, by decide +kernel⟩,
   ⟨wPortS { state := .closing }, 0, by decide +kernel, by decide +kernel, by decide +kernel, Or.inl (by decide +kernel)⟩,
   ⟨wPortS { state := .attesting, openAt := 2600000001 }, 0, by decide +kernel, by decide +kernel, by decide +kernel, by decide +kernel⟩,
   ⟨wJobS false (wWork 0x12 [] none true), 0, _, by decide +kernel, by decide +kernel, by decide +kernel, rfl⟩,
   ⟨wPortS { state := .attesting, openAt := 2600000000 }, 0, by decide +kernel, by decide +kernel⟩,
   ⟨wS, 0, Or.inl (by decide +kernel)⟩,
   ⟨wPortS { state := .open_, hbAt := 2700000000 }, 0, by decide +kernel, by decide +kernel⟩,
   ⟨wS, 0, Or.inl (by decide +kernel)⟩,
   ⟨{ dev := { wDev with boot := { wDev.boot with phase := .held } } }, 0, Or.inl (by decide +kernel)⟩⟩

/-- Each clause of HeartbeatsKeepSessionsOpen has a state and operands that meet its hypotheses. -/
theorem wit_HeartbeatsKeepSessionsOpen :
    (∃ s : State, ∃ port : Fin 4,
      s.dev.barOpen = true ∧
      (s.dev.port port.val).linkUp = true ∧
      (s.dev.port port.val).state = .open_) ∧
    (∃ s : State, ∃ port : Fin 4,
      s.dev.barOpen = true ∧
      (s.dev.port port.val).linkUp = true ∧
      (s.dev.port port.val).state ≠ .open_) ∧
    (∃ s : State, ∃ port : Fin 4,
      (s.dev.port port.val).state = .open_ ∧
      (s.dev.port port.val).hbAt + 500 * msNs ≤ s.dev.now) ∧
    (∃ s : State, ∃ port : Fin 4,
      ((s.dev.port port.val).state ≠ .open_ ∨ s.dev.now < (s.dev.port port.val).hbAt + 500 * msNs)) ∧
    (∃ s : State, ∃ port : Fin 4,
      (s.dev.barOpen = false ∨ (s.dev.port port.val).linkUp = false)) :=
  ⟨⟨wPortS { state := .open_ }, 0, by decide +kernel, by decide +kernel, by decide +kernel⟩,
   ⟨wS, 0, by decide +kernel, by decide +kernel, by decide +kernel⟩,
   ⟨wPortS { state := .open_, hbAt := 2500000000 }, 0, by decide +kernel, by decide +kernel⟩,
   ⟨wPortS { state := .open_, hbAt := 2500000001 }, 0, by decide +kernel⟩,
   ⟨{ dev := { wDev with boot := { wDev.boot with phase := .held } } }, 0, Or.inl (by decide +kernel)⟩⟩

/-- Each clause of DoorbellsAndRegisterWrites has a state and operands that meet its hypotheses. -/
theorem wit_DoorbellsAndRegisterWrites :
    (∃ s : State, ∃ port : Fin 4, ∃ value : BitVec 32,
      s.dev.barOpen = true ∧
      (s.dev.port port.val).linkUp = true ∧
      (s.dev.port port.val).live = true ∧
      (value - (s.dev.port port.val).sqHead).toNat ≤ 2 ^ (s.dev.port port.val).sqSizeLog2) ∧
    (∃ s : State, ∃ port : Fin 4, ∃ value : BitVec 32,
      s.dev.barOpen = true ∧
      (s.dev.port port.val).linkUp = true ∧
      ((s.dev.port port.val).live = false ∨ 2 ^ (s.dev.port port.val).sqSizeLog2 < (value - (s.dev.port port.val).sqHead).toNat)) ∧
    (∃ s : State, ∃ port : Fin 4, ∃ value : BitVec 32,
      s.dev.barOpen = true ∧
      (s.dev.port port.val).linkUp = true ∧
      (s.dev.port port.val).live = true ∧
      newer value (s.dev.port port.val).cqTail = false) ∧
    (∃ s : State, ∃ port : Fin 4, ∃ value : BitVec 32,
      s.dev.barOpen = true ∧
      (s.dev.port port.val).linkUp = true ∧
      ((s.dev.port port.val).live = false ∨ newer value (s.dev.port port.val).cqTail = true)) ∧
    (∃ s : State, ∃ port : Fin 4,
      s.dev.barOpen = true ∧
      (s.dev.port port.val).linkUp = true ∧
      (s.dev.port port.val).intSetAt ≠ s.dev.now) ∧
    (∃ s : State, ∃ port : Fin 4,
      s.dev.barOpen = true ∧
      (s.dev.port port.val).linkUp = true ∧
      (s.dev.port port.val).intSetAt = s.dev.now) ∧
    (∃ s : State, ∃ port : Fin 4, ∃ ring : Fin 16, ∃ value : BitVec 32, ∃ r : StreamRing,
      s.dev.barOpen = true ∧
      (s.dev.port port.val).linkUp = true ∧
      r = bget {} ring.val (s.dev.port port.val).rings ∧
      (s.dev.port port.val).live = true ∧
      newer value r.prod = false) ∧
    (∃ s : State, ∃ port : Fin 4, ∃ ring : Fin 16, ∃ value : BitVec 32, ∃ r : StreamRing,
      s.dev.barOpen = true ∧
      (s.dev.port port.val).linkUp = true ∧
      r = bget {} ring.val (s.dev.port port.val).rings ∧
      ((s.dev.port port.val).live = false ∨ newer value r.prod = true)) ∧
    (∃ s : State, ∃ port : Fin 4, ∃ value : BitVec 32,
      s.dev.barOpen = true ∧
      (s.dev.port port.val).linkUp = true ∧
      value.toNat % 4 = 1) ∧
    (∃ s : State, ∃ port : Fin 4, ∃ value : BitVec 32,
      s.dev.barOpen = true ∧
      (s.dev.port port.val).linkUp = true ∧
      value.toNat % 4 = 2) ∧
    (∃ s : State, ∃ port : Fin 4, ∃ value : BitVec 32,
      s.dev.barOpen = true ∧
      (s.dev.port port.val).linkUp = true ∧
      (value.toNat % 4 = 0 ∨ value.toNat % 4 = 3)) ∧
    (∃ s : State, ∃ port : Fin 4,
      s.dev.barOpen = true ∧
      (s.dev.port port.val).linkUp = true) ∧
    (∃ s : State, ∃ port : Fin 4,
      s.dev.barOpen = true ∧
      (s.dev.port port.val).linkUp = true) ∧
    (∃ s : State, ∃ port : Fin 4, ∃ offset value : BitVec 32, ∃ h : HostPort,
      s.dev.barOpen = true ∧
      (s.dev.port port.val).linkUp = true ∧
      offset.toNat % 4 = 0 ∧
      (s.dev.port port.val).configWrite offset.toNat value = some h ∧
      (s.dev.port port.val).state = .closed) ∧
    (∃ s : State, ∃ port : Fin 4, ∃ offset value : BitVec 32, ∃ h : HostPort,
      s.dev.barOpen = true ∧
      (s.dev.port port.val).linkUp = true ∧
      offset.toNat % 4 = 0 ∧
      (s.dev.port port.val).configWrite offset.toNat value = some h ∧
      (s.dev.port port.val).state ≠ .closed) ∧
    (∃ offset : BitVec 32,
      (offset.toNat % 4 ≠ 0 ∨ 0x2200 ≤ offset.toNat)) ∧
    (∃ s : State, ∃ port : Fin 4,
      (s.dev.barOpen = false ∨ (s.dev.port port.val).linkUp = false)) :=
  ⟨⟨wPortS { state := .open_, sqSizeLog2 := 6, cqSizeLog2 := 6 }, 0, 64, by decide +kernel, by decide +kernel, by decide +kernel, by decide +kernel⟩,
   ⟨wPortS { state := .open_, sqSizeLog2 := 6, cqSizeLog2 := 6 }, 0, 65, by decide +kernel, by decide +kernel, by decide +kernel⟩,
   ⟨wPortS { state := .open_, sqSizeLog2 := 6, cqSizeLog2 := 6 }, 0, 0, by decide +kernel, by decide +kernel, by decide +kernel, by decide +kernel⟩,
   ⟨wPortS { state := .open_, sqSizeLog2 := 6, cqSizeLog2 := 6 }, 0, 1, by decide +kernel, by decide +kernel, by decide +kernel⟩,
   ⟨wS, 0, by decide +kernel, by decide +kernel, by decide +kernel⟩,
   ⟨wPortS { intSetAt := 3000000000 }, 0, by decide +kernel, by decide +kernel, by decide +kernel⟩,
   ⟨wPortS { state := .open_, sqSizeLog2 := 6, cqSizeLog2 := 6 }, 0, 0, 0, _, by decide +kernel, by decide +kernel, rfl, by decide +kernel, by decide +kernel⟩,
   ⟨wPortS { state := .open_, sqSizeLog2 := 6, cqSizeLog2 := 6 }, 0, 15, 1, _, by decide +kernel, by decide +kernel, rfl, by decide +kernel⟩,
   ⟨wS, 0, 1, by decide +kernel, by decide +kernel, by decide +kernel⟩,
   ⟨wS, 0, 2, by decide +kernel, by decide +kernel, by decide +kernel⟩,
   ⟨wS, 0, 3, by decide +kernel, by decide +kernel, Or.inr (by decide)⟩,
   ⟨wS, 0, by decide +kernel, by decide +kernel⟩,
   ⟨wS, 0, by decide +kernel, by decide +kernel⟩,
   ⟨wS, 0, 0x060, 0x1000, _, by decide +kernel, by decide +kernel, by decide +kernel, rfl, by decide +kernel⟩,
   ⟨wPortS { state := .open_, sqSizeLog2 := 6, cqSizeLog2 := 6 }, 0, 0x060, 0x1000, _, by decide +kernel, by decide +kernel, by decide +kernel, rfl, by decide +kernel⟩,
   ⟨0x2201, Or.inl (by decide +kernel)⟩,
   ⟨{ dev := { wDev with boot := { wDev.boot with phase := .held } } }, 0, Or.inl (by decide +kernel)⟩⟩

/-- Each clause of PortEventsAndFetches has a state and operands that meet its hypotheses. -/
theorem wit_PortEventsAndFetches :
    (∃ s : State,
      s.dev.boot.phase ≠ .held) ∧
    (∃ s : State, ∃ port : Fin 4,
      (s.dev.port port.val).linkUp = false) ∧
    (∃ s : State,
      s.dev.boot.phase = .held) ∧
    (∃ s : State, ∃ port : Fin 4,
      (s.dev.port port.val).linkUp = true ∧
      (s.dev.port port.val).state = .open_) ∧
    (∃ s : State, ∃ port : Fin 4,
      (s.dev.port port.val).linkUp = true ∧
      (s.dev.port port.val).state ≠ .open_) ∧
    (∃ s : State, ∃ port : Fin 4, ∃ h : HostPort,
      h = s.dev.port port.val ∧
      h.state = .open_ ∧
      h.canWrite = true ∧
      s.dev.fwRuns procHost = true ∧
      h.sqHead ≠ h.sqTail ∧
      h.roomForOne = true) ∧
    (∃ s : State, ∃ port : Fin 4,
      ((s.dev.port port.val).state ≠ .open_ ∨ (s.dev.port port.val).canWrite = false ∨
    s.dev.fwRuns procHost = false ∨ (s.dev.port port.val).sqHead = (s.dev.port port.val).sqTail ∨ (s.dev.port port.val).roomForOne = false)) :=
  ⟨⟨wS, by decide +kernel⟩,
   ⟨wS, 2, by decide +kernel⟩,
   ⟨{ dev := { wDev with boot := { wDev.boot with phase := .held } } }, by decide +kernel⟩,
   ⟨wPortS { state := .open_ }, 0, by decide +kernel, by decide +kernel⟩,
   ⟨wS, 0, by decide +kernel, by decide +kernel⟩,
   ⟨wPortS { state := .open_, sqSizeLog2 := 6, cqSizeLog2 := 6, sqTail := 1 }, 0, _, rfl, by decide +kernel, by decide +kernel, by decide +kernel, by decide +kernel, by decide +kernel⟩,
   ⟨wS, 0, Or.inl (by decide +kernel)⟩⟩

/-- Each clause of QueriesAreAnswered has a state and operands that meet its hypotheses. -/
theorem wit_QueriesAreAnswered :
    (∃ s : State, ∃ port : Fin 4, ∃ key : Nat, ∃ w : Work, ∃ o : Output,
      s.dev.currentQuery port.val 2 = some (key, w) ∧
      (s.dev.newestFrame ((w.sub.arg 0).toNat % 65536) (s.dev.keyOpening key)).bind s.dev.gridOutput = some o) ∧
    (∃ s : State, ∃ port : Fin 4, ∃ key : Nat, ∃ w : Work,
      s.dev.currentQuery port.val 2 = some (key, w) ∧
      (s.dev.newestFrame ((w.sub.arg 0).toNat % 65536) (s.dev.keyOpening key)).bind s.dev.gridOutput = none) ∧
    (∃ s : State, ∃ port : Fin 4, ∃ key : Nat, ∃ w : Work, ∃ src : Source, ∃ h : TrackHistory, ∃ es : List (Nanos × Nanos × ObjectRec),
      s.dev.currentQuery port.val 3 = some (key, w) ∧
      src = (if (w.sub.arg 0).getLsbD 31 then .burlap else .main) ∧
      s.dev.host.tracks.find? (fun h => decide (h.src = src) && h.alive && h.id = (w.sub.arg 0).toNat % 2 ^ 31) = some h ∧
      es = h.records.filter (fun e => decide ((e.1 : Int) ≤ s.dev.keyOpening key)) ∧
      es ≠ []) ∧
    (∃ s : State, ∃ port : Fin 4, ∃ key : Nat, ∃ w : Work, ∃ src : Source,
      s.dev.currentQuery port.val 3 = some (key, w) ∧
      src = (if (w.sub.arg 0).getLsbD 31 then .burlap else .main) ∧
      s.dev.host.tracks.find? (fun h => decide (h.src = src) && h.alive && h.id = (w.sub.arg 0).toNat % 2 ^ 31) = none) ∧
    (∃ s : State, ∃ port : Fin 4, ∃ key : Nat, ∃ w : Work, ∃ src : Source, ∃ h : TrackHistory,
      s.dev.currentQuery port.val 3 = some (key, w) ∧
      src = (if (w.sub.arg 0).getLsbD 31 then .burlap else .main) ∧
      s.dev.host.tracks.find? (fun h => decide (h.src = src) && h.alive && h.id = (w.sub.arg 0).toNat % 2 ^ 31) = some h ∧
      h.records.filter (fun e => decide ((e.1 : Int) ≤ s.dev.keyOpening key)) = []) ∧
    (∃ s : State, ∃ port : Fin 4, ∃ key : Nat, ∃ w : Work,
      s.dev.currentQuery port.val 1 = some (key, w) ∧
      s.dev.image.host.models[(w.sub.arg 0).toNat % 256]? = none) ∧
    (∃ s : State, ∃ port : Fin 4, ∃ key : Nat, ∃ w : Work, ∃ m : HostModel,
      s.dev.currentQuery port.val 1 = some (key, w) ∧
      s.dev.image.host.models[(w.sub.arg 0).toNat % 256]? = some m ∧
      (s.dev.newestFrame m.inProduct (s.dev.keyOpening key)).bind s.dev.gridOutput = none) ∧
    (∃ s : State, ∃ port : Fin 4, ∃ key : Nat, ∃ w : Work, ∃ m : HostModel, ∃ o : Output, ∃ g g' : GridData, ∃ r : Region,
      s.dev.currentQuery port.val 1 = some (key, w) ∧
      s.dev.image.host.models[(w.sub.arg 0).toNat % 256]? = some m ∧
      (s.dev.newestFrame m.inProduct (s.dev.keyOpening key)).bind s.dev.gridOutput = some o ∧
      o.payload = .grid g ∧
      r = regionOf (w.sub.arg 1) (w.sub.arg 2) 0 ∧
      g' = { g with product := 0x8000 + (w.sub.arg 0).toNat % 256, format := m.outFormat, channels := m.outCh }) ∧
    (∃ s : State, ∃ port : Fin 4, ∃ key : Nat, ∃ w : Work, ∃ m : HostModel, ∃ o : Output,
      s.dev.currentQuery port.val 1 = some (key, w) ∧
      s.dev.image.host.models[(w.sub.arg 0).toNat % 256]? = some m ∧
      (s.dev.newestFrame m.inProduct (s.dev.keyOpening key)).bind s.dev.gridOutput = some o ∧
      (∀ g, o.payload ≠ .grid g)) ∧
    (∃ s : State, ∃ port : Fin 4, ∃ key : Nat, ∃ w : Work, ∃ q : Sequence, ∃ r : HostPortRec,
      s.dev.currentQuery port.val 4 = some (key, w) ∧
      s.dev.fwRuns procHost = true ∧
      s.dev.portRec port.val = some r ∧
      s.dev.seqOf (s.dev.forkSource w.sub) = some q ∧
      r.maxForks ≤ (s.dev.port port.val).forks.length) ∧
    (∃ s : State, ∃ port : Fin 4, ∃ key : Nat, ∃ w : Work, ∃ q : Sequence, ∃ r : HostPortRec, ∃ x : DmkReply × Dev,
      s.dev.currentQuery port.val 4 = some (key, w) ∧
      s.dev.fwRuns procHost = true ∧
      s.dev.portRec port.val = some r ∧
      s.dev.seqOf (s.dev.forkSource w.sub) = some q ∧
      (s.dev.port port.val).forks.length < r.maxForks ∧
      s.dev.halfRuns q.half = true ∧
      x = forkOf q.half (hostForkCmd port.val (s.dev.forkSource w.sub) w.tick) (.session port.val) s.dev ∧
      x.1.status = .ok) ∧
    (∃ s : State, ∃ port : Fin 4, ∃ key : Nat, ∃ w : Work, ∃ q : Sequence, ∃ r : HostPortRec, ∃ x : DmkReply × Dev,
      s.dev.currentQuery port.val 4 = some (key, w) ∧
      s.dev.fwRuns procHost = true ∧
      s.dev.portRec port.val = some r ∧
      s.dev.seqOf (s.dev.forkSource w.sub) = some q ∧
      (s.dev.port port.val).forks.length < r.maxForks ∧
      s.dev.halfRuns q.half = true ∧
      x = forkOf q.half (hostForkCmd port.val (s.dev.forkSource w.sub) w.tick) (.session port.val) s.dev ∧
      x.1.status = .invalid) ∧
    (∃ s : State, ∃ port : Fin 4, ∃ key : Nat, ∃ w : Work, ∃ q : Sequence, ∃ r : HostPortRec, ∃ x : DmkReply × Dev,
      s.dev.currentQuery port.val 4 = some (key, w) ∧
      s.dev.fwRuns procHost = true ∧
      s.dev.portRec port.val = some r ∧
      s.dev.seqOf (s.dev.forkSource w.sub) = some q ∧
      (s.dev.port port.val).forks.length < r.maxForks ∧
      s.dev.halfRuns q.half = true ∧
      x = forkOf q.half (hostForkCmd port.val (s.dev.forkSource w.sub) w.tick) (.session port.val) s.dev ∧
      x.1.status ≠ .ok ∧
      x.1.status ≠ .invalid) ∧
    (∃ s : State, ∃ port : Fin 4, ∃ key : Nat, ∃ w : Work, ∃ i : Nat, ∃ q,
      s.dev.currentQuery port.val 5 = some (key, w) ∧
      s.dev.fwRuns procHost = true ∧
      i = (w.sub.arg 0).toNat % 4096 ∧
      (s.dev.port port.val).forks.contains i = true ∧
      s.dev.seqOf i = some q ∧
      s.dev.halfRuns q.half = true) ∧
    (∃ s : State, ∃ port : Fin 4, ∃ key : Nat, ∃ w : Work, ∃ i : Nat,
      s.dev.currentQuery port.val 5 = some (key, w) ∧
      s.dev.fwRuns procHost = true ∧
      i = (w.sub.arg 0).toNat % 4096 ∧
      (s.dev.port port.val).forks.contains i = false) ∧
    (∃ s : State, ∃ port : Fin 4, ∃ key : Nat, ∃ w : Work,
      s.dev.fwRuns procHost = false ∧
      s.dev.currentQuery port.val 4 = some (key, w)) ∧
    (∃ s : State, ∃ port : Fin 4, ∃ key : Nat, ∃ w : Work,
      s.dev.fwRuns procHost = false ∧
      s.dev.currentQuery port.val 5 = some (key, w)) ∧
    (∃ s : State, ∃ port : Fin 4,
      s.dev.currentQuery port.val 1 = none) ∧
    (∃ s : State, ∃ port : Fin 4,
      s.dev.currentQuery port.val 2 = none) ∧
    (∃ s : State, ∃ port : Fin 4,
      s.dev.currentQuery port.val 3 = none) ∧
    (∃ s : State, ∃ port : Fin 4,
      s.dev.currentQuery port.val 4 = none) ∧
    (∃ s : State, ∃ port : Fin 4,
      s.dev.currentQuery port.val 5 = none) :=
  ⟨⟨{ dev := { wQuery 2 [0] with output := { newestGrid := [(0, [(2900500000, { src := .main, tick := 5, kind := .grid 0, vtOffset := 0, holdover := false, taken := some wSeal, payload := some (.grid wGridData) })])] } } }, 0, _, _, _, rfl, rfl⟩,
   ⟨{ dev := wQuery 2 [0] }, 0, _, _, rfl, by decide +kernel⟩,
   ⟨{ dev := { wQuery 3 [7] with host := { (wQuery 3 [7]).host with tracks := [{ src := .main, id := 7, alive := true, records := [(2900500000, 2900000000, wObject)] }] } } }, 0, _, _, .main, { src := .main, id := 7, alive := true, records := [(2900500000, 2900000000, wObject)] }, [(2900500000, 2900000000, wObject)], rfl, by decide +kernel, by decide +kernel, by decide +kernel, by decide +kernel⟩,
   ⟨{ dev := wQuery 3 [7] }, 0, _, _, .main, rfl, by decide +kernel, by decide +kernel⟩,
   ⟨{ dev := { wQuery 3 [7] with host := { (wQuery 3 [7]).host with tracks := [{ src := .main, id := 7, alive := true, records := [] }] } } }, 0, _, _, .main, { src := .main, id := 7, alive := true, records := [] }, rfl, by decide +kernel, by decide +kernel, by decide +kernel⟩,
   ⟨{ dev := wQuery 1 [1] }, 0, _, _, rfl, by decide +kernel⟩,
   ⟨{ dev := wQuery 1 [0] }, 0, _, _, _, rfl, rfl, by decide +kernel⟩,
   ⟨{ dev := { wQuery 1 [0] with output := { newestGrid := [(0, [(2900500000, { src := .main, tick := 5, kind := .grid 0, vtOffset := 0, holdover := false, taken := some wSeal, payload := some (.grid wGridData) })])] } } }, 0, _, _, _, _, _, _, _, rfl, rfl, rfl, rfl, rfl, rfl⟩,
   ⟨{ dev := { wQuery 1 [0] with output := { newestGrid := [(0, [(2900500000, { src := .main, tick := 5, kind := .grid 0, vtOffset := 0, holdover := false, taken := some wSeal, payload := some .missing })])] } } }, 0, _, _, _, _, rfl, rfl, rfl, (by intro g h; cases h)⟩,
   ⟨{ dev := (setSeq 5 (some wSeq) (wQuery 4 [0])).modPort 0 (fun h => { h with forks := [9] }) }, 0, _, _, _, _, rfl, by decide +kernel, rfl, rfl, by decide +kernel⟩,
   ⟨{ dev := setSeq 5 (some wSeq) (wQuery 4 [0]) }, 0, _, _, _, _, _, rfl, by decide +kernel, rfl, rfl, by decide +kernel, by decide +kernel, rfl, by decide +kernel⟩,
   ⟨{ dev := setSeq 5 (some { wSeq with cls := 9 }) (wQuery 4 [0]) }, 0, _, _, _, _, _, rfl, by decide +kernel, rfl, rfl, by decide +kernel, by decide +kernel, rfl, by decide +kernel⟩,
   ⟨{ dev := setSeq 5 (some wSeq) { wQuery 4 [0] with boot := { wDev.boot with image := { wImage with damask := { wImage.damask with classes := [(0, wClass 0 0)] } } } } }, 0, _, _, _, _, _, rfl, by decide +kernel, rfl, rfl, by decide +kernel, by decide +kernel, rfl, by decide +kernel, by decide +kernel⟩,
   ⟨{ dev := (setSeq 5 (some wSeq) (wQuery 5 [5])).modPort 0 (fun h => { h with forks := [5] }) }, 0, _, _, _, _, rfl, by decide +kernel, rfl, by decide +kernel, rfl, by decide +kernel⟩,
   ⟨{ dev := wQuery 5 [5] }, 0, _, _, _, rfl, by decide +kernel, rfl, by decide +kernel⟩,
   ⟨{ dev := { wQuery 4 [0] with boot := { wDev.boot with procs := [(2, { restarting := true })] } } }, 0, _, _, by decide +kernel, rfl⟩,
   ⟨{ dev := { wQuery 5 [0] with boot := { wDev.boot with procs := [(2, { restarting := true })] } } }, 0, _, _, by decide +kernel, rfl⟩,
   ⟨wS, 0, by decide +kernel⟩,
   ⟨wS, 0, by decide +kernel⟩,
   ⟨wS, 0, by decide +kernel⟩,
   ⟨wS, 0, by decide +kernel⟩,
   ⟨wS, 0, by decide +kernel⟩⟩

/-- Each clause of HostCommandsComplete has a state and operands that meet its hypotheses. -/
theorem wit_HostCommandsComplete :
    (∃ s : State, ∃ port : Fin 4, ∃ w : Work, ∃ st ring sub,
      s.dev.headOp port.val 0x10 = some w ∧
      s.dev.subscription port.val w.sub = (st, some (ring, sub))) ∧
    (∃ s : State, ∃ port : Fin 4, ∃ w : Work, ∃ st,
      s.dev.headOp port.val 0x10 = some w ∧
      s.dev.subscription port.val w.sub = (st, none)) ∧
    (∃ s : State, ∃ port : Fin 4, ∃ w : Work,
      s.dev.headOp port.val 0x11 = some w) ∧
    (∃ s : State, ∃ port : Fin 4, ∃ w : Work,
      s.dev.headOp port.val 0x12 = some w) ∧
    (∃ s : State, ∃ port : Fin 4, ∃ w : Work,
      s.dev.headOp port.val 0x20 = some w ∧
      s.dev.image.host.privPort = some port.val ∧
      privBytes ≤ (w.sub.arg 2).toNat) ∧
    (∃ s : State, ∃ port : Fin 4, ∃ w : Work,
      s.dev.headOp port.val 0x20 = some w ∧
      (s.dev.image.host.privPort ≠ some port.val ∨ (w.sub.arg 2).toNat < privBytes)) ∧
    (∃ s : State, ∃ port : Fin 4, ∃ claim : PrivClaim, ∃ w : Work,
      s.dev.begunCommand port.val 0x20 = some w ∧
      s.dev.fwRuns procHkp = true ∧
      claim.keyDigest = s.dev.image.host.privKeyDigest ∧
      claim.signatureHolds = true) ∧
    (∃ s : State, ∃ port : Fin 4, ∃ claim : PrivClaim, ∃ w : Work,
      s.dev.begunCommand port.val 0x20 = some w ∧
      s.dev.fwRuns procHkp = true ∧
      (claim.keyDigest ≠ s.dev.image.host.privKeyDigest ∨ claim.signatureHolds = false)) ∧
    (∃ s : State, ∃ port : Fin 4, ∃ w : Work,
      s.dev.headOp port.val 0x23 = some w ∧
      (s.dev.port port.val).privileged = false) ∧
    (∃ s : State, ∃ port : Fin 4, ∃ w : Work, ∃ first,
      s.dev.headOp port.val 0x23 = some w ∧
      (s.dev.port port.val).privileged = true ∧
      first = (w.sub.arg 0).toNat % 65536) ∧
    (∃ s : State, ∃ port : Fin 4, ∃ w : Work,
      s.dev.headCommand port.val = some w ∧
      listedOps.contains w.sub.op.toNat = false ∧
      s.dev.fwRuns procHost = true) ∧
    (∃ s : State, ∃ port : Fin 4,
      s.dev.headOp port.val 0x10 = none) ∧
    (∃ s : State, ∃ port : Fin 4,
      s.dev.headOp port.val 0x11 = none) ∧
    (∃ s : State, ∃ port : Fin 4,
      s.dev.headOp port.val 0x12 = none) ∧
    (∃ s : State, ∃ port : Fin 4,
      s.dev.headOp port.val 0x20 = none) ∧
    (∃ s : State, ∃ port : Fin 4,
      s.dev.headOp port.val 0x23 = none) ∧
    (∃ s : State, ∃ port : Fin 4,
      s.dev.begunCommand port.val 0x20 = none) ∧
    (∃ s : State, ∃ port : Fin 4,
      (∀ w, s.dev.headCommand port.val = some w → listedOps.contains w.sub.op.toNat = true)) :=
  ⟨⟨wPortS { state := .open_, work := [wWork 0x10 [0x101, 0, 0, 0, 0] none false], rings := [(1, { slotBytes := 65536 })] }, 0, _, 0, 1, { kind := 1, product := 0, region := [], decim := 1, firstAt := 2920000000, endAt := none, batchSeq := 0, batchMark := 0 }, rfl, by decide +kernel⟩,
   ⟨wJobS false (wWork 0x10 [0, 0, 0, 0, 0] none false), 0, _, stInvalid, rfl, by decide +kernel⟩,
   ⟨wJobS false (wWork 0x11 [] none false), 0, _, rfl⟩,
   ⟨wJobS false (wWork 0x12 [] none false), 0, _, rfl⟩,
   ⟨wJobS false (wWork 0x20 [0, 0, 65536] none false), 0, _, rfl, by decide +kernel, by decide +kernel⟩,
   ⟨wJobS false (wWork 0x20 [0, 0, 0] none false), 0, _, rfl, Or.inr (by decide +kernel)⟩,
   ⟨wJobS false (wWork 0x20 [0, 0, 65536] none true), 0, { keyDigest := 0, signatureHolds := true }, _, rfl, by decide +kernel, by decide +kernel, by decide +kernel⟩,
   ⟨wJobS false (wWork 0x20 [0, 0, 65536] none true), 0, { keyDigest := 0, signatureHolds := false }, _, rfl, by decide +kernel, by decide +kernel⟩,
   ⟨wJobS false (wWork 0x23 [1] none false), 0, _, rfl, by decide +kernel⟩,
   ⟨wJobS true (wWork 0x23 [1] none false), 0, _, _, rfl, by decide +kernel, rfl⟩,
   ⟨wJobS false (wWork 0x06 [] none false), 0, _, rfl, by decide +kernel, by decide +kernel⟩,
   ⟨wS, 0, by decide +kernel⟩,
   ⟨wS, 0, by decide +kernel⟩,
   ⟨wS, 0, by decide +kernel⟩,
   ⟨wS, 0, by decide +kernel⟩,
   ⟨wS, 0, by decide +kernel⟩,
   ⟨wS, 0, by decide +kernel⟩,
   ⟨wS, 0, (by intro w h; cases h)⟩⟩

/-- Each clause of StagingAndWarmStartCommands has a state and operands that meet its hypotheses. -/
theorem wit_StagingAndWarmStartCommands :
    (∃ s : State, ∃ port : Fin 4, ∃ w : Work,
      s.dev.headOp port.val 0x21 = some w ∧
      (s.dev.port port.val).privileged = true ∧
      stageArgsOk (w.sub.arg 0).toNat (w.sub.arg 1).toNat = false) ∧
    (∃ s : State, ∃ port : Fin 4, ∃ w : Work,
      s.dev.headOp port.val 0x21 = some w ∧
      (s.dev.port port.val).privileged = true ∧
      stageArgsOk (w.sub.arg 0).toNat (w.sub.arg 1).toNat = true ∧
      (s.dev.stageBusy = true ∨ s.dev.boot.nvStopped = true)) ∧
    (∃ s : State, ∃ port : Fin 4, ∃ w : Work, ∃ d1 : Dev,
      s.dev.headOp port.val 0x21 = some w ∧
      (s.dev.port port.val).privileged = true ∧
      stageArgsOk (w.sub.arg 0).toNat (w.sub.arg 1).toNat = true ∧
      s.dev.stageBusy = false ∧
      s.dev.boot.nvStopped = false ∧
      d1 = (if s.dev.boot.stageErased = true then s.dev else eraseManifest s.dev.stagedSlot s.dev)) ∧
    (∃ s : State, ∃ p offset len : Nat,
      s.dev.boot.stage = .write p offset len ∧
      s.dev.boot.nvStopped = false ∧
      s.dev.fwRuns procHkp = true) ∧
    (∃ s : State, ∃ port : Fin 4, ∃ w : Work,
      s.dev.headOp port.val 0x22 = some w ∧
      (s.dev.port port.val).privileged = true ∧
      s.dev.stageBusy = true) ∧
    (∃ s : State, ∃ port : Fin 4, ∃ w : Work,
      s.dev.headOp port.val 0x22 = some w ∧
      (s.dev.port port.val).privileged = true ∧
      s.dev.stageBusy = false) ∧
    (∃ s : State, ∃ r : SlotRead, ∃ p outcome sec : Nat,
      s.dev.boot.stage = .commit p ∧
      s.dev.fwRuns procHkp = true ∧
      outcome = (match slotCause s.dev.boot.nv (phase0Parts ++ phase1Parts) r with
    | some c => c
    | none => if s.dev.image.manifest.serial.toNat < (manifestRec r.manifest).serial.toNat then 0 else 10) ∧
      sec = (if outcome = 8 then (badSection (phase0Parts ++ phase1Parts) r).getD 0 else 0)) ∧
    (∃ s : State, ∃ port : Fin 4, ∃ w : Work,
      s.dev.headOp port.val 0x24 = some w ∧
      (s.dev.port port.val).privileged = true ∧
      (s.dev.consentActive = false ∨ s.dev.felt.classV = true)) ∧
    (∃ s : State, ∃ port : Fin 4, ∃ w : Work,
      s.dev.headOp port.val 0x24 = some w ∧
      (s.dev.port port.val).privileged = true ∧
      s.dev.consentActive = true ∧
      s.dev.felt.classV = false ∧
      (s.dev.stageBusy = true ∨ s.dev.boot.warm ≠ .none)) ∧
    (∃ s : State, ∃ port : Fin 4, ∃ w : Work, ∃ d1 : Dev,
      s.dev.headOp port.val 0x24 = some w ∧
      (s.dev.port port.val).privileged = true ∧
      s.dev.consentActive = true ∧
      s.dev.felt.classV = false ∧
      s.dev.stageBusy = false ∧
      s.dev.boot.warm = .none ∧
      d1 = finishCommand port.val w stOk [] s.dev) ∧
    (∃ s : State, ∃ port : Fin 4, ∃ w : Work,
      (s.dev.port port.val).privileged = false ∧
      s.dev.headOp port.val 0x21 = some w) ∧
    (∃ s : State, ∃ port : Fin 4, ∃ w : Work,
      (s.dev.port port.val).privileged = false ∧
      s.dev.headOp port.val 0x22 = some w) ∧
    (∃ s : State, ∃ port : Fin 4, ∃ w : Work,
      (s.dev.port port.val).privileged = false ∧
      s.dev.headOp port.val 0x24 = some w) ∧
    (∃ s : State, ∃ port : Fin 4,
      s.dev.headOp port.val 0x21 = none) ∧
    (∃ s : State, ∃ port : Fin 4,
      s.dev.headOp port.val 0x22 = none) ∧
    (∃ s : State, ∃ port : Fin 4,
      s.dev.headOp port.val 0x24 = none) :=
  ⟨⟨wJobS true (wWork 0x21 [1, 65536] none false), 0, _, rfl, by decide +kernel, by decide +kernel⟩,
   ⟨{ dev := { (wJobS true (wWork 0x21 [0, 0x10000] none false)).dev with boot := { wDev.boot with stage := .commit 0 } } }, 0, _, rfl, by decide +kernel, by decide +kernel, Or.inl (by decide +kernel)⟩,
   ⟨wJobS true (wWork 0x21 [0, 0x10000] none false), 0, _, _, rfl, by decide +kernel, by decide +kernel, by decide +kernel, by decide +kernel, rfl⟩,
   ⟨{ dev := { wDev with boot := { wDev.boot with stage := .write 0 0 65536 } } }, _, _, _, rfl, by decide +kernel, by decide +kernel⟩,
   ⟨{ dev := { (wJobS true (wWork 0x22 [] none false)).dev with boot := { wDev.boot with stage := .commit 0 } } }, 0, _, rfl, by decide +kernel, by decide +kernel⟩,
   ⟨wJobS true (wWork 0x22 [] none false), 0, _, rfl, by decide +kernel, by decide +kernel⟩,
   ⟨{ dev := { wDev with boot := { wDev.boot with stage := .commit 0 } } }, wRead, _, _, _, rfl, by decide +kernel, rfl, rfl⟩,
   ⟨wJobS true (wWork 0x24 [] none false), 0, _, rfl, by decide +kernel, by decide +kernel⟩,
   ⟨{ dev := { (wJobS true (wWork 0x24 [] none false)).dev with boot := { wDev.boot with stage := .commit 0 }, ctrl := { consentUntil := some 3000000001 } } }, 0, _, rfl, by decide +kernel, by decide +kernel, by decide +kernel, Or.inl (by decide +kernel)⟩,
   ⟨{ dev := { (wJobS true (wWork 0x24 [] none false)).dev with ctrl := { consentUntil := some 3000000001 } } }, 0, _, _, rfl, by decide +kernel, by decide +kernel, by decide +kernel, by decide +kernel, by decide +kernel, rfl⟩,
   ⟨wJobS false (wWork 0x21 [] none false), 0, _, by decide +kernel, rfl⟩,
   ⟨wJobS false (wWork 0x22 [] none false), 0, _, by decide +kernel, rfl⟩,
   ⟨wJobS false (wWork 0x24 [] none false), 0, _, by decide +kernel, rfl⟩,
   ⟨wS, 0, by decide +kernel⟩,
   ⟨wS, 0, by decide +kernel⟩,
   ⟨wS, 0, by decide +kernel⟩⟩

/-- Each clause of ControllerFramesAreChecked has a state and operands that meet its hypotheses. -/
theorem wit_ControllerFramesAreChecked :
    (∃ s : State, ∃ port : Fin 2, ∃ f : CtrlFrame,
      (s.dev.vport port.val).link = .up ∧
      s.dev.linkAllowed = true ∧
      rejectCause s.dev port.val f = none ∧
      f.msgId = 0x81) ∧
    (∃ s : State, ∃ port : Fin 2, ∃ f : CtrlFrame,
      (s.dev.vport port.val).link = .up ∧
      s.dev.linkAllowed = true ∧
      rejectCause s.dev port.val f = none ∧
      f.msgId = 0x82 ∧
      (reqOrder s.dev.ctrl.consentReqId f.word0 = .fresh) ∧
      0 < f.word1.toNat % 65536 ∧
      0 < s.dev.image.link.consentMaxMs) ∧
    (∃ s : State, ∃ port : Fin 2, ∃ f : CtrlFrame,
      (s.dev.vport port.val).link = .up ∧
      s.dev.linkAllowed = true ∧
      rejectCause s.dev port.val f = none ∧
      f.msgId = 0x83) ∧
    (∃ s : State, ∃ port : Fin 2, ∃ f : CtrlFrame, ∃ c : Nat,
      (s.dev.vport port.val).link = .up ∧
      s.dev.linkAllowed = true ∧
      rejectCause s.dev port.val f = some c) ∧
    (∃ s : State, ∃ port : Fin 2, ∃ f : CtrlFrame, ∃ c : Nat,
      (s.dev.vport port.val).link = .up ∧
      s.dev.linkAllowed = true ∧
      rejectCause s.dev port.val f = some c ∧
      f.msgId = 0x81) ∧
    (∃ s : State, ∃ t : Nanos,
      s.dev.ctrl.consentUntil = some t ∧
      t ≤ s.dev.now) ∧
    (∃ s : State, ∃ t : Nanos,
      s.dev.ctrl.consentUntil = some t ∧
      s.dev.now < t) :=
  ⟨⟨wS, 0, wFrame 0x81, by decide +kernel, by decide +kernel, by decide +kernel, by decide +kernel⟩,
   ⟨wS, 0, wFrame 0x82, by decide +kernel, by decide +kernel, by decide +kernel, by decide +kernel, by decide +kernel, by decide +kernel, by decide +kernel⟩,
   ⟨wS, 0, wFrame 0x83, by decide +kernel, by decide +kernel, by decide +kernel, by decide +kernel⟩,
   ⟨wS, 0, wBadCrc 0x81, 4, by decide +kernel, by decide +kernel, by decide +kernel⟩,
   ⟨wS, 0, { wFrame 0x81 with bytes := wFrameBytes 0x81 15 }, 2, by decide +kernel, by decide +kernel, by decide +kernel, by decide +kernel⟩,
   ⟨{ dev := { wDev with ctrl := { consentUntil := some 3000000000 } } }, _, rfl, by decide +kernel⟩,
   ⟨{ dev := { wDev with ctrl := { consentUntil := some 3000000001 } } }, _, rfl, by decide +kernel⟩⟩

/-- Each clause of ControllerSilence has a state and operands that meet its hypotheses. -/
theorem wit_ControllerSilence :
    (∃ s : State, ∃ d1 : Dev,
      s.dev.ctrl.silent = false ∧
      s.dev.ctrl.lastAccepted + 20 * msNs ≤ s.dev.now ∧
      d1 = { s.dev with
    ctrl := { s.dev.ctrl with silent := true }
    felt := { s.dev.felt with window := { s.dev.felt.window with silent := true } } } ∧
      (∀ q, s.dev.plan.pending = some q → q.reason ≠ .request)) ∧
    (∃ s : State, ∃ d1 : Dev, ∃ q,
      s.dev.ctrl.silent = false ∧
      s.dev.ctrl.lastAccepted + 20 * msNs ≤ s.dev.now ∧
      d1 = { s.dev with
    ctrl := { s.dev.ctrl with silent := true }
    felt := { s.dev.felt with window := { s.dev.felt.window with silent := true } } } ∧
      s.dev.plan.pending = some q ∧
      q.reason = .request) ∧
    (∃ s : State,
      (s.dev.ctrl.silent = true ∨ s.dev.now < s.dev.ctrl.lastAccepted + 20 * msNs)) ∧
    (∃ s : State, ∃ port : Fin 2, ∃ f : CtrlFrame,
      (s.dev.vport port.val).link = .up ∧
      s.dev.linkAllowed = true ∧
      rejectCause s.dev port.val f = none) ∧
    (∃ s : State, ∃ port : Fin 2, ∃ f : CtrlFrame,
      (s.dev.vport port.val).link = .up ∧
      s.dev.linkAllowed = true ∧
      rejectCause s.dev port.val f = none ∧
      f.msgId = 0x81) ∧
    (∃ s : State, ∃ port : Fin 2, ∃ f : CtrlFrame,
      (s.dev.vport port.val).link = .up ∧
      s.dev.linkAllowed = true ∧
      rejectCause s.dev port.val f = none ∧
      f.msgId = 0x82) ∧
    (∃ s : State, ∃ port : Fin 2, ∃ f : CtrlFrame,
      (s.dev.vport port.val).link = .up ∧
      s.dev.linkAllowed = true ∧
      rejectCause s.dev port.val f = none ∧
      f.msgId = 0x83) :=
  ⟨⟨{ dev := { wDev with ctrl := { silent := false, lastAccepted := 2980000000 } } }, _, by decide +kernel, by decide +kernel, rfl, (by intro q h; cases h)⟩,
   ⟨{ dev := { wDev with ctrl := { silent := false, lastAccepted := 2980000000 }, plan := { wDev.plan with pending := some { target := 1, effect := 9, staged := false, copied := 0, reason := .request, announced := false } } } }, _, _, by decide +kernel, by decide +kernel, rfl, rfl, by decide +kernel⟩,
   ⟨{ dev := { wDev with ctrl := { silent := false, lastAccepted := 2980000001 } } }, by decide +kernel⟩,
   ⟨wS, 0, wFrame 0x81, by decide +kernel, by decide +kernel, by decide +kernel⟩,
   ⟨wS, 0, wFrame 0x81, by decide +kernel, by decide +kernel, by decide +kernel, by decide +kernel⟩,
   ⟨wS, 0, wFrame 0x82, by decide +kernel, by decide +kernel, by decide +kernel, by decide +kernel⟩,
   ⟨wS, 0, wFrame 0x83, by decide +kernel, by decide +kernel, by decide +kernel, by decide +kernel⟩⟩

/-- Each clause of NarrowElementsArePacked has a state and operands that meet its hypotheses. -/
theorem wit_NarrowElementsArePacked :
    (∃ row line block n at_ : Nat,
      block < 8 ∧
      n < 16 ∧
      at_ = row + (line * lineBytes .mxfp4 + 8 + block * blockBytes .mxfp4)) ∧
    (∃ f : Format, ∃ row line block n j at_ : Nat,
      (f = .mxfp6e3m2 ∨ f = .mxfp6e2m3) ∧
      block < 8 ∧
      n < 8 ∧
      j < 4 ∧
      at_ = row + (line * lineBytes f + 8 + block * blockBytes f)) :=
  ⟨⟨0, 1, 7, 15, _, by decide +kernel, by decide +kernel, rfl⟩,
   ⟨.mxfp6e2m3, 0, 1, 7, 7, 3, _, by decide +kernel, by decide +kernel, by decide +kernel, by decide +kernel, rfl⟩⟩

/-- Each clause of VehicleLinksAndFrames has a state and operands that meet its hypotheses. -/
theorem wit_VehicleLinksAndFrames :
    (∃ s : State, ∃ port : Fin 2, ∃ d1 d2 d3 : Dev,
      (s.dev.vport port.val).link = .up ∧
      d1 = satEvent (barVlk + 0x40 * port.val + 0x0C) (s.dev.vport port.val).linkLoss (s.dev.vport port.val).linkLoss.inc
    (s.dev.setVport port.val { s.dev.vport port.val with
      link := .training, linkLoss := (s.dev.vport port.val).linkLoss.inc, sending := none, waiting := [] }) ∧
      d2 = conditionEvent (barVlk + 0x40 * port.val + 0x0C) (s.dev.vport port.val).linkLoss.inc.val.toNat
    { d1 with felt := { d1.felt with window := { d1.felt.window with linkLoss := true } } } ∧
      d3 = (if port.val = 0 then loseVehicleTime d2 else d2) ∧
      (d3.vport (1 - port.val)).link = .up) ∧
    (∃ s : State, ∃ port : Fin 2, ∃ d1 d2 d3 : Dev,
      (s.dev.vport port.val).link = .up ∧
      d1 = satEvent (barVlk + 0x40 * port.val + 0x0C) (s.dev.vport port.val).linkLoss (s.dev.vport port.val).linkLoss.inc
    (s.dev.setVport port.val { s.dev.vport port.val with
      link := .training, linkLoss := (s.dev.vport port.val).linkLoss.inc, sending := none, waiting := [] }) ∧
      d2 = conditionEvent (barVlk + 0x40 * port.val + 0x0C) (s.dev.vport port.val).linkLoss.inc.val.toNat
    { d1 with felt := { d1.felt with window := { d1.felt.window with linkLoss := true } } } ∧
      d3 = (if port.val = 0 then loseVehicleTime d2 else d2) ∧
      (d3.vport (1 - port.val)).link ≠ .up) ∧
    (∃ s : State, ∃ port : Fin 2,
      (s.dev.vport port.val).link ≠ .up ∧
      s.dev.linkAllowed = true) ∧
    (∃ s : State, ∃ port : Fin 2,
      (s.dev.vport port.val).sending.isSome = true) ∧
    (∃ s : State, ∃ port : Fin 2,
      (s.dev.vport port.val).link ≠ .up) ∧
    (∃ s : State, ∃ port : Fin 2,
      ((s.dev.vport port.val).link = .up ∨ s.dev.linkAllowed = false)) ∧
    (∃ s : State, ∃ port : Fin 2,
      (s.dev.vport port.val).sending = none) :=
  ⟨⟨wS, 0, _, _, _, by decide +kernel, rfl, rfl, rfl, by decide +kernel⟩,
   ⟨{ dev := { wDev with v1 := {} } }, 0, _, _, _, by decide +kernel, rfl, rfl, rfl, by decide +kernel⟩,
   ⟨{ dev := { wDev with v0 := {} } }, 0, by decide +kernel, by decide +kernel⟩,
   ⟨{ dev := { wDev with v0 := { link := .up, sending := some { msgId := 5, prec := 0, pcp := 0, released := 0, boundNs := none, msgTime := 0, fragCount := 1, fragNext := 1, quality := 0, vtOffset := 0, body := [] } } } }, 0, by decide +kernel⟩,
   ⟨{ dev := {} }, 0, by decide +kernel⟩,
   ⟨wS, 0, Or.inl (by decide +kernel)⟩,
   ⟨wS, 0, by decide +kernel⟩⟩

/-- Each clause of TemperaturesRailsAndLimits has a state and operands that meet its hypotheses. -/
theorem wit_TemperaturesRailsAndLimits :
    (∃ s : State, ∃ die : Die, ∃ sensors : List Int, ∃ all : List (Nat × Int), ∃ d1 : Dev, ∃ tj,
      s.dev.boot.phase ≠ .held ∧
      all = validSensors (s.dev.thermal die.idx).sensorsOut (sensors.take (sensorCount die.idx)) ∧
      d1 = (all.filter (sensorBad all)).foldl (fun d e => excludeSensor die.idx e.1 d) s.dev ∧
      maxReading ((all.filter (fun e => !sensorBad all e)).map (·.2)) = some tj ∧
      die.idx < 6) ∧
    (∃ s : State, ∃ die : Die, ∃ sensors : List Int, ∃ all : List (Nat × Int), ∃ d1 : Dev, ∃ tj,
      s.dev.boot.phase ≠ .held ∧
      all = validSensors (s.dev.thermal die.idx).sensorsOut (sensors.take (sensorCount die.idx)) ∧
      d1 = (all.filter (sensorBad all)).foldl (fun d e => excludeSensor die.idx e.1 d) s.dev ∧
      maxReading ((all.filter (fun e => !sensorBad all e)).map (·.2)) = some tj ∧
      6 ≤ die.idx) ∧
    (∃ s : State, ∃ die : Die, ∃ sensors : List Int, ∃ all : List (Nat × Int), ∃ d1 : Dev,
      s.dev.boot.phase ≠ .held ∧
      all = validSensors (s.dev.thermal die.idx).sensorsOut (sensors.take (sensorCount die.idx)) ∧
      d1 = (all.filter (sensorBad all)).foldl (fun d e => excludeSensor die.idx e.1 d) s.dev ∧
      maxReading ((all.filter (fun e => !sensorBad all e)).map (·.2)) = none ∧
      (d1.thermal die.idx).sensorsOut.length < sensorCount die.idx) ∧
    (∃ s : State, ∃ die : Die, ∃ sensors : List Int, ∃ all : List (Nat × Int), ∃ d1 : Dev,
      s.dev.boot.phase ≠ .held ∧
      all = validSensors (s.dev.thermal die.idx).sensorsOut (sensors.take (sensorCount die.idx)) ∧
      d1 = (all.filter (sensorBad all)).foldl (fun d e => excludeSensor die.idx e.1 d) s.dev ∧
      maxReading ((all.filter (fun e => !sensorBad all e)).map (·.2)) = none ∧
      sensorCount die.idx ≤ (d1.thermal die.idx).sensorsOut.length) ∧
    (∃ s : State, ∃ die : Die, ∃ d1 d2 : Dev, ∃ halveMet offMet : Bool,
      halveMet = ((s.dev.thermal die.idx).halvedTemp && (s.dev.thermal die.idx).tempMet.isNone &&
    (match (s.dev.thermal die.idx).coolHalve with | some t => decide (t + 100 * msNs ≤ s.dev.now) | none => false)) ∧
      offMet = ((s.dev.thermal die.idx).offTemp &&
    (match (s.dev.thermal die.idx).coolOff with | some t => decide (t + 1000 * msNs ≤ s.dev.now) | none => false)) ∧
      d1 = (if halveMet = true then
      thermalEvent die.idx ((s.dev.thermal die.idx).halveTh - 6) (s.dev.thermal die.idx).tjNow false
        (s.dev.setThermal die.idx { s.dev.thermal die.idx with tempMet := some s.dev.now })
    else s.dev) ∧
      d2 = thermalEvent die.idx ((s.dev.thermal die.idx).offTh - 25) (s.dev.thermal die.idx).tjNow false
    (d1.setThermal die.idx { d1.thermal die.idx with offTemp := false }) ∧
      offMet = false) ∧
    (∃ s : State, ∃ die : Die, ∃ d1 d2 : Dev, ∃ halveMet offMet : Bool,
      halveMet = ((s.dev.thermal die.idx).halvedTemp && (s.dev.thermal die.idx).tempMet.isNone &&
    (match (s.dev.thermal die.idx).coolHalve with | some t => decide (t + 100 * msNs ≤ s.dev.now) | none => false)) ∧
      offMet = ((s.dev.thermal die.idx).offTemp &&
    (match (s.dev.thermal die.idx).coolOff with | some t => decide (t + 1000 * msNs ≤ s.dev.now) | none => false)) ∧
      d1 = (if halveMet = true then
      thermalEvent die.idx ((s.dev.thermal die.idx).halveTh - 6) (s.dev.thermal die.idx).tjNow false
        (s.dev.setThermal die.idx { s.dev.thermal die.idx with tempMet := some s.dev.now })
    else s.dev) ∧
      d2 = thermalEvent die.idx ((s.dev.thermal die.idx).offTh - 25) (s.dev.thermal die.idx).tjNow false
    (d1.setThermal die.idx { d1.thermal die.idx with offTemp := false }) ∧
      offMet = true ∧
      (s.dev.thermal die.idx).offRail = true) ∧
    (∃ s : State, ∃ die : Die, ∃ d1 d2 : Dev, ∃ halveMet offMet : Bool,
      halveMet = ((s.dev.thermal die.idx).halvedTemp && (s.dev.thermal die.idx).tempMet.isNone &&
    (match (s.dev.thermal die.idx).coolHalve with | some t => decide (t + 100 * msNs ≤ s.dev.now) | none => false)) ∧
      offMet = ((s.dev.thermal die.idx).offTemp &&
    (match (s.dev.thermal die.idx).coolOff with | some t => decide (t + 1000 * msNs ≤ s.dev.now) | none => false)) ∧
      d1 = (if halveMet = true then
      thermalEvent die.idx ((s.dev.thermal die.idx).halveTh - 6) (s.dev.thermal die.idx).tjNow false
        (s.dev.setThermal die.idx { s.dev.thermal die.idx with tempMet := some s.dev.now })
    else s.dev) ∧
      d2 = thermalEvent die.idx ((s.dev.thermal die.idx).offTh - 25) (s.dev.thermal die.idx).tjNow false
    (d1.setThermal die.idx { d1.thermal die.idx with offTemp := false }) ∧
      offMet = true ∧
      (s.dev.thermal die.idx).offRail = false) ∧
    (∃ s : State, ∃ rail : Fin 14, ∃ mv current : Nat, ∃ d1 d2 : Dev,
      s.dev.outside rail.val mv = true ∧
      s.dev.boot.phase ≠ .held ∧
      d1 = satEvent (barHkp + 0x168) s.dev.health.railFault s.dev.health.railFault.inc
    { s.dev with health := { s.dev.health with railFault := s.dev.health.railFault.inc } } ∧
      d2 = railEvent rail.val mv current (d1.setRail rail.val { s.dev.rail rail.val with
    out := true
    underSince := if rail.val = 6 ∧ mv < (d1.windowOf rail.val).1 then some (d1.now - 10 * usNs) else none }) ∧
      (s.dev.rail rail.val).out = true) ∧
    (∃ s : State, ∃ rail : Fin 14, ∃ mv current : Nat, ∃ d1 d2 : Dev,
      s.dev.outside rail.val mv = true ∧
      s.dev.boot.phase ≠ .held ∧
      d1 = satEvent (barHkp + 0x168) s.dev.health.railFault s.dev.health.railFault.inc
    { s.dev with health := { s.dev.health with railFault := s.dev.health.railFault.inc } } ∧
      d2 = railEvent rail.val mv current (d1.setRail rail.val { s.dev.rail rail.val with
    out := true
    underSince := if rail.val = 6 ∧ mv < (d1.windowOf rail.val).1 then some (d1.now - 10 * usNs) else none }) ∧
      (s.dev.rail rail.val).out = false ∧
      rail.val < 4) ∧
    (∃ s : State, ∃ rail : Fin 14, ∃ mv current : Nat, ∃ d1 d2 : Dev,
      s.dev.outside rail.val mv = true ∧
      s.dev.boot.phase ≠ .held ∧
      d1 = satEvent (barHkp + 0x168) s.dev.health.railFault s.dev.health.railFault.inc
    { s.dev with health := { s.dev.health with railFault := s.dev.health.railFault.inc } } ∧
      d2 = railEvent rail.val mv current (d1.setRail rail.val { s.dev.rail rail.val with
    out := true
    underSince := if rail.val = 6 ∧ mv < (d1.windowOf rail.val).1 then some (d1.now - 10 * usNs) else none }) ∧
      (s.dev.rail rail.val).out = false ∧
      4 ≤ rail.val) ∧
    (∃ s : State, ∃ rail : Fin 14, ∃ mv : Nat,
      (s.dev.outside rail.val mv = false ∨ s.dev.boot.phase = .held)) ∧
    (∃ s : State, ∃ rail : Fin 4, ∃ current : Nat,
      s.dev.currentLimit rail.val < current ∧
      s.dev.powerOff rail.val = false ∧
      s.dev.boot.phase ≠ .held ∧
      (s.dev.thermal rail.val).halvedCurrent = true) ∧
    (∃ s : State, ∃ rail : Fin 4, ∃ current : Nat,
      s.dev.currentLimit rail.val < current ∧
      s.dev.powerOff rail.val = false ∧
      s.dev.boot.phase ≠ .held ∧
      (s.dev.thermal rail.val).halvedCurrent = false) ∧
    (∃ s : State, ∃ rail : Fin 4, ∃ current : Nat,
      (current ≤ s.dev.currentLimit rail.val ∨ s.dev.powerOff rail.val = true ∨ s.dev.boot.phase = .held)) ∧
    (∃ s : State, ∃ rail : Fin 14, ∃ mv : Nat,
      ((s.dev.rail rail.val).out = false ∨ s.dev.outside rail.val mv = true)) ∧
    (∃ s : State, ∃ rail : Fin 14, ∃ mv current : Nat, ∃ d1 d2 : Dev,
      (s.dev.rail rail.val).out = true ∧
      s.dev.outside rail.val mv = false ∧
      d1 = railEvent rail.val mv current (s.dev.setRail rail.val { s.dev.rail rail.val with out := false, underSince := none }) ∧
      d2 = d1.setThermal rail.val { d1.thermal rail.val with offRail := false } ∧
      rail.val < 4 ∧
      (d1.thermal rail.val).offTemp = true) ∧
    (∃ s : State, ∃ rail : Fin 14, ∃ mv current : Nat, ∃ d1 d2 : Dev,
      (s.dev.rail rail.val).out = true ∧
      s.dev.outside rail.val mv = false ∧
      d1 = railEvent rail.val mv current (s.dev.setRail rail.val { s.dev.rail rail.val with out := false, underSince := none }) ∧
      d2 = d1.setThermal rail.val { d1.thermal rail.val with offRail := false } ∧
      rail.val < 4 ∧
      (d1.thermal rail.val).offTemp = false) ∧
    (∃ s : State, ∃ rail : Fin 14, ∃ mv current : Nat, ∃ d1 d2 : Dev,
      (s.dev.rail rail.val).out = true ∧
      s.dev.outside rail.val mv = false ∧
      d1 = railEvent rail.val mv current (s.dev.setRail rail.val { s.dev.rail rail.val with out := false, underSince := none }) ∧
      d2 = d1.setThermal rail.val { d1.thermal rail.val with offRail := false } ∧
      4 ≤ rail.val ∧
      memoryRail rail.val = true) ∧
    (∃ s : State, ∃ rail : Fin 14, ∃ mv current : Nat, ∃ d1 d2 : Dev,
      (s.dev.rail rail.val).out = true ∧
      s.dev.outside rail.val mv = false ∧
      d1 = railEvent rail.val mv current (s.dev.setRail rail.val { s.dev.rail rail.val with out := false, underSince := none }) ∧
      d2 = d1.setThermal rail.val { d1.thermal rail.val with offRail := false } ∧
      4 ≤ rail.val ∧
      memoryRail rail.val = false) ∧
    (∃ s : State, ∃ rail : Fin 14, ∃ current : Nat, ∃ d1 : Dev,
      d1 = s.dev.setRail rail.val { s.dev.rail rail.val with overcurrent := false } ∧
      rail.val < 4 ∧
      (s.dev.thermal rail.val).halvedCurrent = true ∧
      current + 50 < s.dev.currentLimit rail.val ∧
      (s.dev.thermal rail.val).currentMet = none) ∧
    (∃ s : State, ∃ rail : Fin 14, ∃ current : Nat, ∃ d1 : Dev, ∃ t,
      d1 = s.dev.setRail rail.val { s.dev.rail rail.val with overcurrent := false } ∧
      rail.val < 4 ∧
      (s.dev.thermal rail.val).halvedCurrent = true ∧
      current + 50 < s.dev.currentLimit rail.val ∧
      (s.dev.thermal rail.val).currentMet = some t) ∧
    (∃ s : State, ∃ rail : Fin 14, ∃ current : Nat, ∃ d1 : Dev,
      d1 = s.dev.setRail rail.val { s.dev.rail rail.val with overcurrent := false } ∧
      (4 ≤ rail.val ∨ (s.dev.thermal rail.val).halvedCurrent = false ∨ s.dev.currentLimit rail.val ≤ current + 50)) ∧
    (∃ s : State, ∃ t : Nanos,
      (s.dev.rail 6).underSince = some t ∧
      t + msNs ≤ s.dev.now) ∧
    (∃ s : State, ∃ t : Nanos,
      (s.dev.rail 6).underSince = some t ∧
      s.dev.now < t + msNs) ∧
    (∃ s : State, ∃ r : Nat, ∃ t : Nanos,
      r ∈ [4, 5, 7, 8, 9] ∧
      (s.dev.rail r).resetAt = some t ∧
      t ≤ s.dev.now) ∧
    (∃ s : State,
      (∀ r ∈ [4, 5, 7, 8, 9], ∀ t, (s.dev.rail r).resetAt = some t → s.dev.now < t)) ∧
    (∃ limit : Limit, ∃ value : Nat, ∃ x,
      limit = .halve x ∧
      100 ≤ value ∧
      value ≤ 118) ∧
    (∃ limit : Limit, ∃ value : Nat, ∃ x,
      limit = .off x ∧
      100 ≤ value ∧
      value ≤ 125) ∧
    (∃ limit : Limit, ∃ value : Nat, ∃ r,
      limit = .current r ∧
      value ≤ 950) ∧
    (∃ limit : Limit, ∃ value : Nat, ∃ r,
      limit = .under r ∧
      (railWindow r.val).1 ≤ value) ∧
    (∃ limit : Limit, ∃ value : Nat, ∃ r,
      limit = .above r ∧
      value ≤ (railWindow r.val).2) ∧
    (∃ limit : Limit, ∃ value : Nat,
      limitAllowed limit value = false) :=
  ⟨⟨wS, .c0, [500, 510, 520, 500, 500, 500, 500, 500], _, _, _, by decide +kernel, rfl, rfl, rfl, by decide +kernel⟩,
   ⟨wS, .iod, [500, 510, 520, 500, 500, 500], _, _, _, by decide +kernel, rfl, rfl, rfl, by decide +kernel⟩,
   ⟨wS, .c0, [], _, _, by decide +kernel, rfl, rfl, by decide +kernel, by decide +kernel⟩,
   ⟨wS, .iod, [2000, 2000, 2000, 2000, 2000, 2000], _, _, by decide +kernel, rfl, rfl, by decide +kernel, by decide +kernel⟩,
   ⟨{ dev := wDev.setThermal 0 { halvedTemp := true, coolHalve := some 2900000000 } }, .c0, _, _, _, _, rfl, rfl, rfl, rfl, rfl⟩,
   ⟨{ dev := wDev.setThermal 0 { offTemp := true, offRail := true, coolOff := some 2000000000 } }, .c0, _, _, _, _, rfl, rfl, rfl, rfl, rfl, by decide +kernel⟩,
   ⟨{ dev := wDev.setThermal 0 { offTemp := true, coolOff := some 2000000000 } }, .c0, _, _, _, _, rfl, rfl, rfl, rfl, rfl, by decide +kernel⟩,
   ⟨{ dev := wDev.setRail 0 { out := true } }, 0, 100, 0, _, _, by decide +kernel, by decide +kernel, rfl, rfl, by decide +kernel⟩,
   ⟨wS, 3, 100, 0, _, _, by decide +kernel, by decide +kernel, rfl, rfl, by decide +kernel, by decide +kernel⟩,
   ⟨wS, 4, 100, 0, _, _, by decide +kernel, by decide +kernel, rfl, rfl, by decide +kernel, by decide +kernel⟩,
   ⟨{ dev := { wDev with boot := { wDev.boot with phase := .held } } }, 0, 1000, Or.inr (by decide +kernel)⟩,
   ⟨{ dev := wDev.setThermal 0 { halvedCurrent := true } }, 0, 2000, by decide +kernel, by decide +kernel, by decide +kernel, by decide +kernel⟩,
   ⟨wS, 0, 2000, by decide +kernel, by decide +kernel, by decide +kernel, by decide +kernel⟩,
   ⟨wS, 0, 0, Or.inl (by decide +kernel)⟩,
   ⟨wS, 0, 1000, Or.inl (by decide +kernel)⟩,
   ⟨{ dev := (wDev.setRail 0 { out := true }).setThermal 0 { offTemp := true, offRail := true } }, 0, 700, 0, _, _, by decide +kernel, by decide +kernel, rfl, rfl, by decide +kernel, by decide +kernel⟩,
   ⟨{ dev := wDev.setRail 0 { out := true } }, 0, 700, 0, _, _, by decide +kernel, by decide +kernel, rfl, rfl, by decide +kernel, by decide +kernel⟩,
   ⟨{ dev := wDev.setRail 4 { out := true } }, 4, 750, 0, _, _, by decide +kernel, by decide +kernel, rfl, rfl, by decide +kernel, by decide +kernel⟩,
   ⟨{ dev := wDev.setRail 6 { out := true } }, 6, 800, 0, _, _, by decide +kernel, by decide +kernel, rfl, rfl, by decide +kernel, by decide +kernel⟩,
   ⟨{ dev := wDev.setThermal 0 { halvedCurrent := true } }, 0, 0, _, rfl, by decide +kernel, by decide +kernel, by decide +kernel, by decide +kernel⟩,
   ⟨{ dev := wDev.setThermal 0 { halvedCurrent := true, currentMet := some 2000000000 } }, 0, 0, _, _, rfl, by decide +kernel, by decide +kernel, by decide +kernel, rfl⟩,
   ⟨wS, 0, 0, _, rfl, Or.inr (Or.inl (by decide +kernel))⟩,
   ⟨{ dev := wDev.setRail 6 { underSince := some 2999000000 } }, _, rfl, by decide +kernel⟩,
   ⟨{ dev := wDev.setRail 6 { underSince := some 2999999999 } }, _, rfl, by decide +kernel⟩,
   ⟨{ dev := wDev.setRail 4 { resetAt := some 3000000000 } }, 4, _, by decide +kernel, rfl, by decide +kernel⟩,
   ⟨wS, by decide +kernel⟩,
   ⟨.halve 0, 118, 0, by decide +kernel, by decide +kernel, by decide +kernel⟩,
   ⟨.off 6, 125, 6, by decide +kernel, by decide +kernel, by decide +kernel⟩,
   ⟨.current 3, 950, 3, by decide +kernel, by decide +kernel⟩,
   ⟨.under 0, 5000, 0, by decide +kernel, by decide +kernel⟩,
   ⟨.above 0, 0, 0, by decide +kernel, by decide +kernel⟩,
   ⟨.halve 0, 119, by decide +kernel⟩⟩

/-- Each clause of WearIsRecorded has a state and operands that meet its hypotheses. -/
theorem wit_WearIsRecorded :
    (∃ s : State, ∃ link : EyeLink, ∃ margin : Nat, ∃ d1 : Dev,
      ((∃ n : Fin 16, link = .camera n ∧ d1 = s.dev.setCamera n.val { s.dev.camera n.val with eyeMargin := margin % 256 }) ∨
    (∃ n : Fin 8, link = .lidar n ∧ d1 = s.dev.setLidar n.val { s.dev.lidar n.val with eyeMargin := margin % 256 }) ∨
    (∃ n : Fin 2, link = .vehicle n ∧ d1 = s.dev.setVport n.val { s.dev.vport n.val with eyeMargin := margin % 256 })) ∧
      30 ≤ margin) ∧
    (∃ s : State, ∃ link : EyeLink, ∃ margin : Nat, ∃ d1 : Dev,
      ((∃ n : Fin 16, link = .camera n ∧ d1 = s.dev.setCamera n.val { s.dev.camera n.val with eyeMargin := margin % 256 }) ∨
    (∃ n : Fin 8, link = .lidar n ∧ d1 = s.dev.setLidar n.val { s.dev.lidar n.val with eyeMargin := margin % 256 }) ∨
    (∃ n : Fin 2, link = .vehicle n ∧ d1 = s.dev.setVport n.val { s.dev.vport n.val with eyeMargin := margin % 256 })) ∧
      margin < 30) ∧
    (∃ s : State,
      s.dev.canWriteNv = true ∧
      s.dev.health.lastWear + 600 ≤ s.dev.health.operS) ∧
    (∃ s : State,
      (s.dev.canWriteNv = false ∨ s.dev.health.operS < s.dev.health.lastWear + 600)) ∧
    (∃ s : State,
      (s.dev.health.predDue = false ∨ (bget {} 3 s.dev.boot.procs : FwState).restarting = true)) ∧
    (∃ s : State, ∃ m0 m1 life band : Nat, ∃ w : Nat × Damage, ∃ d1 d2 d3 : Dev,
      s.dev.health.predDue = true ∧
      (bget {} 3 s.dev.boot.procs : FwState).restarting = false ∧
      d1 = satEvent (barHkp + 0x170) s.dev.health.ddrCorr (Counter.add s.dev.health.ddrCorr (m0 + m1))
    { s.dev with health := { s.dev.health with ddrCorr := Counter.add s.dev.health.ddrCorr (m0 + m1) } } ∧
      w = worstDamage d1.damages 0 (0, { num := 0, den := 1 }) ∧
      life = w.2.lifeH ∧
      band = w.2.bandH w.1 ∧
      d2 = healthEvent { code := 0x2000, severity := Config.severity 0x2000 0, arg0 := life, arg1 := band, arg2 := w.1 }
    { d1 with health := { d1.health with
      lifeH := BitVec.ofNat 32 life
      lifeBandH := BitVec.ofNat 32 (satTo 0xFFFFFFFF band)
      lifeMech := BitVec.ofNat 2 w.1
      predTime := d1.now
      predicted := true
      predOper := d1.health.operS } } ∧
      d3 = (if life < 10000 ∧ d2.health.lifeWarn = false then
      healthEvent { code := 0x2001, severity := 2, arg0 := life, arg1 := band, arg2 := w.1 }
        { d2 with health := { d2.health with lifeWarn := true } }
    else d2) ∧
      (trends m0 m1 d3).boot.nvStopped = false) ∧
    (∃ s : State, ∃ m0 m1 life band : Nat, ∃ w : Nat × Damage, ∃ d1 d2 d3 : Dev,
      s.dev.health.predDue = true ∧
      (bget {} 3 s.dev.boot.procs : FwState).restarting = false ∧
      d1 = satEvent (barHkp + 0x170) s.dev.health.ddrCorr (Counter.add s.dev.health.ddrCorr (m0 + m1))
    { s.dev with health := { s.dev.health with ddrCorr := Counter.add s.dev.health.ddrCorr (m0 + m1) } } ∧
      w = worstDamage d1.damages 0 (0, { num := 0, den := 1 }) ∧
      life = w.2.lifeH ∧
      band = w.2.bandH w.1 ∧
      d2 = healthEvent { code := 0x2000, severity := Config.severity 0x2000 0, arg0 := life, arg1 := band, arg2 := w.1 }
    { d1 with health := { d1.health with
      lifeH := BitVec.ofNat 32 life
      lifeBandH := BitVec.ofNat 32 (satTo 0xFFFFFFFF band)
      lifeMech := BitVec.ofNat 2 w.1
      predTime := d1.now
      predicted := true
      predOper := d1.health.operS } } ∧
      d3 = (if life < 10000 ∧ d2.health.lifeWarn = false then
      healthEvent { code := 0x2001, severity := 2, arg0 := life, arg1 := band, arg2 := w.1 }
        { d2 with health := { d2.health with lifeWarn := true } }
    else d2) ∧
      (trends m0 m1 d3).boot.nvStopped = true) :=
  ⟨⟨wS, .camera 0, 30, _, Or.inl ⟨0, rfl, rfl⟩, by decide +kernel⟩,
   ⟨wS, .camera 0, 29, _, Or.inl ⟨0, rfl, rfl⟩, by decide +kernel⟩,
   ⟨{ dev := { wDev with health := { operS := 600 } } }, by decide +kernel, by decide +kernel⟩,
   ⟨wS, Or.inr (by decide +kernel)⟩,
   ⟨wS, Or.inl (by decide +kernel)⟩,
   ⟨{ dev := { wDev with health := { operS := 3600 } } }, 0, 0, _, _, _, _, _, _, by decide +kernel, by decide +kernel, rfl, rfl, rfl, rfl, rfl, rfl, by decide +kernel⟩,
   ⟨{ dev := { wDev with health := { operS := 3600 }, boot := { wDev.boot with nvStopped := true } } }, 0, 0, _, _, _, _, _, _, by decide +kernel, by decide +kernel, rfl, rfl, rfl, rfl, rfl, rfl, by decide +kernel⟩⟩

/-- Each clause of TraceTapAndLatches has a state and operands that meet its hypotheses. -/
theorem wit_TraceTapAndLatches :
    (∃ s : State, ∃ die : Die, ∃ id : BitVec 16, ∃ n : BitVec 8, ∃ d1 : Dev,
      s.dev.boot.traceMask.contains id.toNat = true ∧
      n = bget 0 die.idx s.dev.boot.traceSeq + 1 ∧
      d1 = { s.dev with boot := { s.dev.boot with traceSeq := bput 0 die.idx n s.dev.boot.traceSeq } } ∧
      ((bget [] die.idx s.dev.boot.traceLocal : List TraceRecord)).length < 64) ∧
    (∃ s : State, ∃ die : Die, ∃ id : BitVec 16, ∃ n : BitVec 8, ∃ d1 : Dev,
      s.dev.boot.traceMask.contains id.toNat = true ∧
      n = bget 0 die.idx s.dev.boot.traceSeq + 1 ∧
      d1 = { s.dev with boot := { s.dev.boot with traceSeq := bput 0 die.idx n s.dev.boot.traceSeq } } ∧
      64 ≤ ((bget [] die.idx s.dev.boot.traceLocal : List TraceRecord)).length) ∧
    (∃ s : State, ∃ id : BitVec 16,
      s.dev.boot.traceMask.contains id.toNat = false) ∧
    (∃ s : State,
      s.dev.barOpen = true) ∧
    (∃ s : State,
      s.dev.barOpen = false) ∧
    (∃ d : Dev, ∃ p : Nat,
      ((d.port p).linkUp = false ∨ d.boot.phase = .held)) ∧
    (∃ d : Dev, ∃ off : Nat,
      (d.boot.phase = .noImage ∨ d.boot.phase = .retired) ∧
      (off < barHkp ∨ barHkp + 0x1000 ≤ off)) ∧
    (∃ d : Dev, ∃ p off : Nat,
      (d.port p).linkUp = true ∧
      (d.boot.phase = .noImage ∨ d.boot.phase = .retired) ∧
      barHkp ≤ off ∧
      off < barHkp + 0x1000) ∧
    (∃ d : Dev, ∃ p : Nat,
      (d.port p).linkUp = true ∧
      d.boot.phase ≠ .held ∧
      (d.boot.phase ≠ .noImage ∧ d.boot.phase ≠ .retired)) ∧
    (∃ d : Dev, ∃ p off : Nat,
      (d.port p).linkUp = true ∧
      d.boot.phase ≠ .held ∧
      (d.boot.phase ≠ .noImage ∧ d.boot.phase ≠ .retired) ∧
      ((0x1000 ≤ off ∧ off < 0x2000) ∨ (0x2200 ≤ off ∧ off < 0x3000))) :=
  ⟨⟨{ dev := { wDev with boot := { wDev.boot with traceMask := [7] } } }, .m0, 7, _, _, by decide +kernel, rfl, rfl, by decide +kernel⟩,
   ⟨{ dev := { wDev with boot := { wDev.boot with traceMask := [7], traceLocal := [(4, List.replicate 64 { time := 0, id := 7, die := 4, dieSeq := 0, args := [] })] } } }, .m0, 7, _, _, by decide +kernel, rfl, rfl, by decide +kernel⟩,
   ⟨wS, 7, by decide +kernel⟩,
   ⟨wS, by decide +kernel⟩,
   ⟨{ dev := { wDev with boot := { wDev.boot with phase := .held } } }, by decide +kernel⟩,
   ⟨{ wDev with boot := { wDev.boot with phase := .held } }, 0, Or.inr (by decide +kernel)⟩,
   ⟨{ wDev with boot := { wDev.boot with phase := .noImage } }, 0, Or.inl (by decide +kernel), Or.inl (by decide +kernel)⟩,
   ⟨{ wDev with boot := { wDev.boot with phase := .retired } }, 0, barHkp, by decide +kernel, Or.inr (by decide +kernel), by decide +kernel, by decide +kernel⟩,
   ⟨wDev, 0, by decide +kernel, by decide +kernel, by decide +kernel⟩,
   ⟨wDev, 0, 0x1000, by decide +kernel, by decide +kernel, by decide +kernel, by decide +kernel⟩⟩

/-- Each clause of EverySolveEndsWithinItsBound has a state and operands that meet its hypotheses. -/
theorem wit_EverySolveEndsWithinItsBound :
    (∃ l : SolveLoop,
      l.phase = .evaluate ∧
      l.ended = none) ∧
    (∃ p : SrgProblem, ∃ l : SolveLoop,
      l.it ≤ p.slot.maxIter) ∧
    (∃ p : SrgProblem, ∃ left : Nat → Nat, ∃ n : Nat, ∃ l : SolveLoop,
      f64Num (slotParam p.slot 5) ≠ .nan ∧
      (l.regularised = true → f64Le (slotParam p.slot 5) l.lambda = true) ∧
      (solveOps p left n l).regularised = true) ∧
    (∃ p : SrgProblem, ∃ left : Nat → Nat, ∃ n : Nat, ∃ l : SolveLoop,
      (l.phase ≠ .evaluate → evaluate p l.x = some l.cost) ∧
      (solveOps p left n l).phase ≠ .evaluate) :=
  ⟨⟨{ x := [], lambda := 0, cost := 0, it := 0, regularised := false, tries := 0, flags := 0, factorAt := none, phase := .evaluate, ended := none }, by decide +kernel, by decide +kernel⟩,
   ⟨{ slot := wSlot 0 .ego 1, noise := [], factors := [], extAt := [], fixed := [], cal := [], warp := [], imus := [], wheels := [], minor := 1000000, ego := none }, { x := [], lambda := 0, cost := 0, it := 0, regularised := false, tries := 0, flags := 0, factorAt := none, phase := .evaluate, ended := none }, by decide +kernel⟩,
   ⟨{ slot := wSlot 0 .ego 1, noise := [], factors := [], extAt := [], fixed := [], cal := [], warp := [], imus := [], wheels := [], minor := 1000000, ego := none }, fun _ => 0, 0, { x := [], lambda := 0, cost := 0, it := 0, regularised := true, tries := 0, flags := 0, factorAt := none, phase := .assemble, ended := none }, by decide +kernel, fun _ => by decide +kernel, by decide +kernel⟩,
   ⟨{ slot := wSlot 0 .ego 1, noise := [], factors := [], extAt := [], fixed := [], cal := [], warp := [], imus := [], wheels := [], minor := 1000000, ego := none }, fun _ => 0, 0, { x := [], lambda := 0, cost := 0, it := 0, regularised := false, tries := 0, flags := 0, factorAt := none, phase := .assemble, ended := none }, fun _ => by decide +kernel, by decide +kernel⟩⟩

end Sys2Proof.Tests
end

section
/-!
The lanes that STVM stores (R5, R196, R200): bytes written in order read back as the number they spell, the places of
the selected lanes lie apart, and so each lane reads back whole.
-/

namespace Sys2Proof.Machine

open Sys2Proof

/-! ### Numbers in memory, least significant byte first (R5) -/

/-- As many bytes as asked for. -/
@[simp] theorem length_leBytes (n v : Nat) : (leBytes n v).length = n := by
  induction n generalizing v with
  | zero => rfl
  | succ n ih => simp [leBytes, ih]

/-- The bytes of a number spell it, cut to their count. -/
theorem leNat_leBytes (n v : Nat) : leNat (leBytes n v) = v % 256 ^ n := by
  induction n generalizing v with
  | zero => simp [leBytes, leNat, Nat.mod_one]
  | succ n ih =>
    simp only [leBytes, leNat, ih, BitVec.toNat_ofNat, Nat.reducePow]
    rw [show 256 ^ (n + 1) = 256 * 256 ^ n from Nat.pow_succ', Nat.mod_mul]

/-- A run of bytes is its first byte and the run after it. -/
theorem bytes_succ (d : Dev) (a n : Nat) : d.bytes a (n + 1) = d.byte a :: d.bytes (a + 1) n := by
  simp [Dev.bytes, List.range_succ_eq_map, Nat.add_comm 1, Nat.add_assoc]

/-- The bytes just stored read as stored. -/
theorem bytes_setBytes_same (a : Nat) (bs : List Byte) (d : Dev) (h : memWf d.mem = true) :
    (setBytes a bs d).bytes a bs.length = bs := by
  induction bs generalizing a d with
  | nil => rfl
  | cons v t ih =>
    have hfirst : (setBytes (a + 1) t (setByte a v d)).byte a = v := by
      rw [byte_setBytes_outside t _ (by omega), byte_setByte_same a v d h]
    rw [setBytes, List.length_cons, bytes_succ, hfirst, ih (a + 1) (setByte a v d) (bwf_bput h)]

/-- A number just stored reads back, cut to the bytes it was given. -/
theorem readLe_setBytes_leBytes (a n v : Nat) (d : Dev) (h : memWf d.mem = true) :
    (setBytes a (leBytes n v) d).readLe a n = v % 256 ^ n := by
  have hbytes := bytes_setBytes_same a (leBytes n v) d h
  rw [length_leBytes] at hbytes
  rw [Dev.readLe, hbytes, leNat_leBytes]

/-- A number reads alike in two devices whose bytes there are alike. -/
theorem readLe_congr {d e : Dev} {a n : Nat} (h : ∀ b, a ≤ b → b < a + n → d.byte b = e.byte b) :
    d.readLe a n = e.readLe a n := by
  have hbytes : d.bytes a n = e.bytes a n :=
    List.map_congr_left fun i hi => h (a + i) (by omega) (by have := List.mem_range.mp hi; omega)
  rw [Dev.readLe, Dev.readLe, hbytes]

/-! ### The places of a core's lanes (R196) -/

/-- A range that a core reaches lies whole in one memory: its first and its last byte are where the map puts them. -/
theorem coreAddr_of_coreRange {cl co a n p : Nat} (h : coreRange cl co a n = some p) :
    coreAddr cl co a = some p ∧ coreAddr cl co (a + (n - 1)) = some (p + (n - 1)) := by
  unfold coreRange at h
  split at h
  · split at h <;> simp_all
  · cases h

/-- Two words at distinct lane addresses of a core lie apart: its own SRAM and its cluster's do not overlap. -/
theorem coreRange_disjoint {cl co a i j p q : Nat} (hij : i < j) (hp : coreRange cl co (a + 4 * i) 4 = some p)
    (hq : coreRange cl co (a + 4 * j) 4 = some q) : p + 4 ≤ q ∨ q + 4 ≤ p := by
  obtain ⟨hp0, hp3⟩ := coreAddr_of_coreRange hp
  obtain ⟨hq0, hq3⟩ := coreAddr_of_coreRange hq
  simp only [coreAddr, coreBase, Bool.and_eq_true, decide_eq_true_eq] at hp0 hp3 hq0 hq3
  split_ifs at hp0 hp3 hq0 hq3 <;> simp only [Option.some.injEq] at hp0 hp3 hq0 hq3 <;> omega

/-- The places found for some lanes: the lanes in their order, each at its word. -/
theorem mapM_coreRange {cl co a : Nat} {is : List Nat} {ps : List (Nat × Nat)}
    (h : is.mapM (fun i => (coreRange cl co (a + 4 * i) 4).map (fun p => (i, p))) = some ps) :
    ps.map Prod.fst = is ∧ ∀ e ∈ ps, coreRange cl co (a + 4 * e.1) 4 = some e.2 := by
  induction is generalizing ps with
  | nil => simp_all
  | cons i t ih =>
    simp only [List.mapM_cons, Option.bind_eq_bind, Option.bind_eq_some_iff, Option.map_eq_some_iff, Option.pure_def,
      Option.some.injEq] at h
    obtain ⟨_, ⟨p, hp, rfl⟩, rest, hrest, rfl⟩ := h
    obtain ⟨hfst, hplaces⟩ := ih hrest
    exact ⟨by simp [hfst], by simpa [hp] using hplaces⟩

/-- Two places of selected lanes lie apart. -/
def PlacesApart (e f : Nat × Nat) : Prop := e.2 + 4 ≤ f.2 ∨ f.2 + 4 ≤ e.2

/-- The places of the selected lanes lie apart, whichever lanes are selected. -/
theorem lanePlaces_apart {cl co a : Nat} {m : Word} {ps : List (Nat × Nat)} (h : lanePlaces cl co a m = some ps) :
    ps.Pairwise PlacesApart := by
  obtain ⟨hfst, hplaces⟩ := mapM_coreRange h
  have hrise : (maskLanes m).Pairwise (· < ·) := List.pairwise_lt_range.filter _
  rw [← hfst, List.pairwise_map] at hrise
  exact hrise.imp_of_mem fun he hf hlt => coreRange_disjoint hlt (hplaces _ he) (hplaces _ hf)

/-! ### Storing the lanes (R200) -/

/-- The lanes' words stored at their places, in the order of the places. -/
def storeLanes (w : Nat → Word) (ps : List (Nat × Nat)) (d : Dev) : Dev :=
  ps.foldl (fun d e => setBytes e.2 (leBytes 4 (w e.1).toNat) d) d

@[simp] theorem storeLanes_cons (w : Nat → Word) (e : Nat × Nat) (ps : List (Nat × Nat)) (d : Dev) :
    storeLanes w (e :: ps) d = storeLanes w ps (setBytes e.2 (leBytes 4 (w e.1).toNat) d) := rfl

/-- STVM on a core that runs stores the lanes that its mask selects, where all their places exist. -/
theorem stvm_eq_storeLanes {cl : Fin 132} {co : Fin 64} {d : Dev} {c : CoreState} (v : Fin 32) {a m : Fin 16}
    {ps : List (Nat × Nat)} (hrun : d.coreRuns cl.val co.val = true) (hc : c = d.core (coreKey cl.val co.val))
    (hps : lanePlaces cl.val co.val (c.xr a).toNat (c.xr m) = some ps) :
    stvm cl co v a m d = some (storeLanes (c.lane v.val) ps (d.setCore (coreKey cl.val co.val) c.next)) := by
  subst hc
  simp [stvm, hrun, hps, storeLanes]

/-- Storing lanes keeps memory in its form. -/
theorem memWf_storeLanes (w : Nat → Word) (ps : List (Nat × Nat)) (d : Dev) (h : memWf d.mem = true) :
    memWf (storeLanes w ps d).mem = true := by
  induction ps generalizing d with
  | nil => exact h
  | cons e t ih => exact ih _ (memWf_setBytes _ _ d h)

/-- Bytes outside the lanes' places read as before. -/
theorem byte_storeLanes_outside (w : Nat → Word) {ps : List (Nat × Nat)} (d : Dev) {b : Nat}
    (h : ∀ e ∈ ps, b < e.2 ∨ e.2 + 4 ≤ b) : (storeLanes w ps d).byte b = d.byte b := by
  induction ps generalizing d with
  | nil => rfl
  | cons e t ih =>
    obtain ⟨he, ht⟩ := List.forall_mem_cons.mp h
    rw [storeLanes_cons, ih _ ht, byte_setBytes_outside _ d (by simpa using he)]

/-- Lanes stored at places that lie apart read back: no later store reaches an earlier lane's place. -/
theorem readLe_storeLanes (w : Nat → Word) {ps : List (Nat × Nat)} (d : Dev) (hmem : memWf d.mem = true)
    (happart : ps.Pairwise PlacesApart) : ∀ e ∈ ps, (storeLanes w ps d).readLe e.2 4 = (w e.1).toNat := by
  induction ps generalizing d with
  | nil => simp
  | cons e t ih =>
    obtain ⟨hhead, htail⟩ := List.pairwise_cons.mp happart
    refine List.forall_mem_cons.mpr ⟨?_, ih _ (memWf_setBytes _ _ d hmem) htail⟩
    have hkept : ∀ b, e.2 ≤ b → b < e.2 + 4 → ∀ f ∈ t, b < f.2 ∨ f.2 + 4 ≤ b := by
      intro b hlo hhi f hf
      rcases hhead f hf with hbelow | habove <;> omega
    calc (storeLanes w (e :: t) d).readLe e.2 4
        = (setBytes e.2 (leBytes 4 (w e.1).toNat) d).readLe e.2 4 :=
          readLe_congr fun b hlo hhi => byte_storeLanes_outside w _ (hkept b hlo hhi)
      _ = (w e.1).toNat % 256 ^ 4 := readLe_setBytes_leBytes _ _ _ d hmem
      _ = (w e.1).toNat := Nat.mod_eq_of_lt (w e.1).isLt

/-- Settles O29: the lanes' places lie apart (R196), so each store's bytes outlive the stores after it. -/
theorem storedLanesReadBack : Obligations.StoredLanesReadBack := by
  unfold Obligations.StoredLanesReadBack
  intro s cl co c v a m ps hrun hc hmem hps
  have hmem' : memWf (s.dev.setCore (coreKey cl.val co.val) c.next).mem = true := hmem
  refine ⟨_, attempt_some (stvm_eq_storeLanes v hrun hc hps), memWf_storeLanes _ _ _ hmem', fun e he => ?_,
    fun b hb => byte_storeLanes_outside _ _ hb⟩
  exact (congrArg (BitVec.ofNat 32)
    (readLe_storeLanes (c.lane v.val) _ hmem' (lanePlaces_apart hps) e he)).trans (by simp)

end Sys2Proof.Machine
end

section
/-!
The host ports' doorbells and register writes (R344, R345, R351, R352): what each does where the port answers, and that
it does nothing where it does not.
-/

namespace Sys2Proof.Machine

open Sys2Proof

/-! ### The commands' meanings -/

section Commands

variable (port : Fin 4) (value : BitVec 32) (s : State)

theorem exec_hstSqTail : exec (.hstSqTail port value) s = .next (s.withDev (hstSqTail port value s.dev)) := rfl

theorem exec_hstCqHead : exec (.hstCqHead port value) s = .next (s.withDev (hstCqHead port value s.dev)) := rfl

theorem exec_hstSrCons (ring : Fin 16) :
    exec (.hstSrCons port ring value) s = .next (s.withDev (hstSrCons port ring value s.dev)) := rfl

theorem exec_hstIntStatus : exec (.hstIntStatus port value) s = .next (s.withDev (hstIntStatus port value s.dev)) := rfl

theorem exec_hstHeartbeat : exec (.hstHeartbeat port value) s = .next (s.withDev (hstHeartbeat port value s.dev)) := rfl

theorem exec_sessionOpen : exec (.sessionOpen port) s = .next (s.withDev (sessionOpen port s.dev)) := rfl

theorem exec_sessionClose : exec (.sessionClose port) s = .next (s.withDev (sessionClose port s.dev)) := rfl

theorem exec_registerWrite (offset : BitVec 32) :
    exec (.registerWrite port offset value) s = .next (s.withDev (registerWrite port offset value s.dev)) := rfl

end Commands

/-! ### A port that does not answer -/

section Silent

variable {port : Fin 4} {d : Dev} (hsilent : d.barOpen = false ∨ (d.port port.val).linkUp = false) (value : BitVec 32)

include hsilent

theorem hstSqTail_silent : hstSqTail port value d = d := by rcases hsilent with h | h <;> simp [hstSqTail, h]

theorem hstCqHead_silent : hstCqHead port value d = d := by rcases hsilent with h | h <;> simp [hstCqHead, h]

theorem hstSrCons_silent (ring : Fin 16) : hstSrCons port ring value d = d := by
  rcases hsilent with h | h <;> simp [hstSrCons, h]

theorem hstIntStatus_silent : hstIntStatus port value d = d := by rcases hsilent with h | h <;> simp [hstIntStatus, h]

theorem registerWrite_silent (offset : BitVec 32) : registerWrite port offset value d = d := by
  rcases hsilent with h | h <;> simp [registerWrite, h]

end Silent

/-- A write at an offset that is no word's does nothing, whether the port answers or not (R344). -/
theorem registerWrite_unaligned {offset : BitVec 32} (h : offset.toNat % 4 ≠ 0) (port : Fin 4) (value : BitVec 32)
    (d : Dev) : registerWrite port offset value d = d := by
  simp [registerWrite, h]

/-! ### Which writes are commands of their own (R345) -/

/-- The offsets of BAR0 at which a write is a command of its own: the session word, the heartbeat, HST_INT_STATUS and
the doorbells. -/
def CommandOffset (off : Nat) : Prop :=
  off = 0x004 ∨ off = 0x00C ∨ off = 0x06C ∨ off = 0x08C ∨ off = 0x300 ∨ (0x100 ≤ off ∧ off < 0x300 ∧ off % 0x20 = 0x10)

/-- No configuration register lies at a command's offset. -/
theorem configWrite_commandOffset {off : Nat} (hoff : CommandOffset off) (h : HostPort) (v : BitVec 32) :
    h.configWrite off v = none := by
  rcases hoff with rfl | rfl | rfl | rfl | rfl | ⟨hlo, hhi, hcons⟩
  any_goals rfl
  have : ¬ (0x020 ≤ off ∧ off < 0x040) := by omega
  simp [HostPort.configWrite, this, hlo, hhi, hcons]

/-- No configuration register lies past the HST block (R344). -/
theorem configWrite_past_block {off : Nat} (hoff : 0x300 ≤ off) (h : HostPort) (v : BitVec 32) :
    h.configWrite off v = none := by
  unfold HostPort.configWrite
  split
  · simp_all; omega
  · split
    · simp_all; omega
    · split <;> first | omega | rfl

/-! ### Writes to a port that answers -/

section Answers

variable {port : Fin 4} {d : Dev} {value : BitVec 32}
variable (hopen : d.barOpen = true) (hlink : (d.port port.val).linkUp = true)

include hopen hlink

/-- A port that answers passes the guard of every doorbell. -/
theorem answers_guard : ¬ (!d.barOpen || !(d.port port.val).linkUp) = true := by simp [hopen, hlink]

theorem hstSqTail_taken (hlive : (d.port port.val).live = true)
    (hfits : (value - (d.port port.val).sqHead).toNat ≤ 2 ^ (d.port port.val).sqSizeLog2) :
    hstSqTail port value d = d.setPort port.val { d.port port.val with sqTail := value } := by
  simp only [hstSqTail]
  rw [if_neg (answers_guard hopen hlink), if_neg (by simpa [hlive] using hfits)]

theorem hstSqTail_ignored (h : (d.port port.val).live = false ∨
      2 ^ (d.port port.val).sqSizeLog2 < (value - (d.port port.val).sqHead).toNat) :
    hstSqTail port value d = countProto port.val d := by
  simp only [hstSqTail]
  rw [if_neg (answers_guard hopen hlink), if_pos (by simpa using h)]

theorem hstCqHead_taken (hlive : (d.port port.val).live = true) (hfits : newer value (d.port port.val).cqTail = false) :
    hstCqHead port value d = d.setPort port.val { d.port port.val with cqHead := value } := by
  simp only [hstCqHead]
  rw [if_neg (answers_guard hopen hlink), if_neg (by simp [hlive, hfits])]

theorem hstCqHead_ignored (h : (d.port port.val).live = false ∨ newer value (d.port port.val).cqTail = true) :
    hstCqHead port value d = countProto port.val d := by
  simp only [hstCqHead]
  rw [if_neg (answers_guard hopen hlink), if_pos (by simpa using h)]

theorem hstSrCons_taken {ring : Fin 16} {r : StreamRing} (hr : r = bget {} ring.val (d.port port.val).rings)
    (hlive : (d.port port.val).live = true) (hfits : newer value r.prod = false) :
    hstSrCons port ring value d = d.setPort port.val
      { d.port port.val with rings := bput {} ring.val { r with cons := value } (d.port port.val).rings } := by
  simp only [hstSrCons, ← hr]
  rw [if_neg (answers_guard hopen hlink), if_neg (by simp [hlive, hfits])]

theorem hstSrCons_ignored {ring : Fin 16} {r : StreamRing} (hr : r = bget {} ring.val (d.port port.val).rings)
    (h : (d.port port.val).live = false ∨ newer value r.prod = true) :
    hstSrCons port ring value d = countProto port.val d := by
  simp only [hstSrCons, ← hr]
  rw [if_neg (answers_guard hopen hlink), if_pos (by simpa using h)]

/-- The bits written as 1 clear, but for those set at the same device time. -/
theorem hstIntStatus_clears :
    hstIntStatus port value d = d.setPort port.val { d.port port.val with
      intStatus := (d.port port.val).intStatus &&& ~~~(value &&& ~~~((d.port port.val).setNow d.now)) } := by
  simp only [hstIntStatus]
  rw [if_neg (answers_guard hopen hlink)]

/-- A write of the session word opens, closes or does nothing, by its two low bits. -/
theorem registerWrite_session :
    registerWrite port 0x004 value d =
      if value.toNat % 4 = 1 then sessionOpen port d else if value.toNat % 4 = 2 then sessionClose port d else d := by
  simp only [registerWrite, hopen, hlink]
  have : value.toNat % 4 = 0 ∨ value.toNat % 4 = 1 ∨ value.toNat % 4 = 2 ∨ value.toNat % 4 = 3 := by omega
  rcases this with h | h | h | h <;> simp [h]

theorem registerWrite_heartbeat : registerWrite port 0x00C value d = hstHeartbeat port value d := by
  simp [registerWrite, hopen, hlink]

theorem registerWrite_sqTail : registerWrite port 0x06C value d = hstSqTail port value d := by
  simp [registerWrite, hopen, hlink]

theorem registerWrite_cqHead : registerWrite port 0x08C value d = hstCqHead port value d := by
  simp [registerWrite, hopen, hlink]

theorem registerWrite_intStatus : registerWrite port 0x300 value d = hstIntStatus port value d := by
  simp [registerWrite, hopen, hlink]

/-- The consumer index of each ring lies 0x10 into its set of 0x20 bytes from 0x100. -/
theorem registerWrite_srCons (ring : Fin 16) :
    registerWrite port (BitVec.ofNat 32 (0x110 + 0x20 * ring.val)) value d = hstSrCons port ring value d := by
  have hoff : (BitVec.ofNat 32 (0x110 + 0x20 * ring.val)).toNat = 0x110 + 0x20 * ring.val := by
    rw [BitVec.toNat_ofNat]; omega
  have hring : Fin.ofNat 16 ((0x110 + 0x20 * ring.val - 0x100) / 0x20) = ring := by
    apply Fin.ext
    simp only [Fin.ofNat]
    omega
  simp only [registerWrite, hoff, hring]
  rw [if_neg (by simp [hopen, hlink]; omega), if_neg (by omega), if_neg (by omega), if_neg (by omega),
    if_neg (by omega), if_neg (by omega), if_pos (by simp; omega)]

/-- Every other aligned write is of a configuration register, of a plain word or of nothing. -/
theorem registerWrite_other {offset : BitVec 32} (haligned : offset.toNat % 4 = 0)
    (hoff : ¬ CommandOffset offset.toNat) :
    registerWrite port offset value d = otherWrite port.val offset.toNat value d := by
  simp only [CommandOffset, not_or, not_and] at hoff
  obtain ⟨hsession, hheartbeat, htail, hhead, hstatus, hcons⟩ := hoff
  simp only [registerWrite]
  rw [if_neg (by simp [hopen, hlink, haligned]), if_neg hsession, if_neg hheartbeat, if_neg htail, if_neg hhead,
    if_neg hstatus, if_neg (by simpa [and_assoc] using hcons)]

theorem registerWrite_config {offset : BitVec 32} {h : HostPort} (haligned : offset.toNat % 4 = 0)
    (hconfig : (d.port port.val).configWrite offset.toNat value = some h) :
    registerWrite port offset value d =
      if (d.port port.val).state = .closed then d.setPort port.val h else countProto port.val d := by
  have hoff : ¬ CommandOffset offset.toNat := fun hcmd => by simp [configWrite_commandOffset hcmd] at hconfig
  rw [registerWrite_other hopen hlink haligned hoff, otherWrite, hconfig]

/-- INT_ENABLE keeps the bits that are not reserved (R345). -/
theorem registerWrite_intEnable :
    registerWrite port 0x304 value d =
      d.setPort port.val { d.port port.val with intEnable := value &&& 0xFFFF001F#32 } := by
  rw [registerWrite_other hopen hlink (by simp) (by simp [CommandOffset])]
  simp [otherWrite, HostPort.configWrite, intBits]

theorem registerWrite_holdoff :
    registerWrite port 0x308 value d = d.setPort port.val { d.port port.val with holdoffUs := value.setWidth 16 } := by
  rw [registerWrite_other hopen hlink (by simp) (by simp [CommandOffset])]
  simp [otherWrite, HostPort.configWrite]

end Answers

/-- Past the MSI-X table BAR0 has no word that a write changes (R344). -/
theorem registerWrite_past_msix {offset : BitVec 32} (h : 0x2200 ≤ offset.toNat) (port : Fin 4) (value : BitVec 32)
    (d : Dev) : registerWrite port offset value d = d := by
  by_cases hopen : d.barOpen = true
  case neg => exact registerWrite_silent (.inl (by simpa using hopen)) value offset
  by_cases hlink : (d.port port.val).linkUp = true
  case neg => exact registerWrite_silent (.inr (by simpa using hlink)) value offset
  by_cases haligned : offset.toNat % 4 = 0
  case neg => exact registerWrite_unaligned haligned port value d
  rw [registerWrite_other hopen hlink haligned (by unfold CommandOffset; omega)]
  simp only [otherWrite, configWrite_past_block (show 0x300 ≤ offset.toNat by omega)]
  rw [if_neg (by omega), if_neg (by omega), if_neg (by simp; omega)]

/-- Settles O48: each clause is one command's effect where the port answers, or that it has none. -/
theorem doorbellsAndRegisterWrites : Obligations.DoorbellsAndRegisterWrites := by
  unfold Obligations.DoorbellsAndRegisterWrites
  simp only [exec_hstSqTail, exec_hstCqHead, exec_hstSrCons, exec_hstIntStatus, exec_hstHeartbeat, exec_sessionOpen,
    exec_sessionClose, exec_registerWrite]
  refine ⟨fun s port value hopen hlink => ⟨fun hlive hfits => ?_, fun h => ?_, fun hlive hfits => ?_, fun h => ?_,
      fun h => ?_, fun h => ?_⟩,
    fun s port ring value r hopen hlink hr => ⟨fun hlive hfits => ?_, fun h => ?_⟩,
    fun s port value hopen hlink => ⟨fun h => ?_, fun h => ?_, fun h => ?_, ?_, ?_, ?_, ?_, fun ring => ?_, ?_, ?_⟩,
    fun s port offset value h hopen hlink haligned hconfig => ⟨fun hclosed => ?_, fun hclosed => ?_⟩,
    fun s port offset value hnone => ?_, fun s port offset value ring hsilent => ⟨?_, ?_, ?_, ?_, ?_⟩⟩
  · rw [hstSqTail_taken hopen hlink hlive hfits]
  · rw [hstSqTail_ignored hopen hlink h]
  · rw [hstCqHead_taken hopen hlink hlive hfits]
  · rw [hstCqHead_ignored hopen hlink h]
  · have hall : value &&& ~~~0 = value := BitVec.and_allOnes
    rw [hstIntStatus_clears hopen hlink, HostPort.setNow, if_neg h, hall]
  · rw [hstIntStatus_clears hopen hlink, HostPort.setNow, if_pos h]
  · rw [hstSrCons_taken hopen hlink hr hlive hfits]
  · rw [hstSrCons_ignored hopen hlink hr h]
  · rw [registerWrite_session hopen hlink, if_pos h]
  · rw [registerWrite_session hopen hlink, if_neg (by omega), if_pos h]
  · rw [registerWrite_session hopen hlink, if_neg (by omega), if_neg (by omega)]
  · rw [registerWrite_heartbeat hopen hlink]
  · rw [registerWrite_sqTail hopen hlink]
  · rw [registerWrite_cqHead hopen hlink]
  · rw [registerWrite_intStatus hopen hlink]
  · rw [registerWrite_srCons hopen hlink]
  · rw [registerWrite_intEnable hopen hlink]
  · rw [registerWrite_holdoff hopen hlink]
  · rw [registerWrite_config hopen hlink haligned hconfig, if_pos hclosed]
  · rw [registerWrite_config hopen hlink haligned hconfig, if_neg hclosed]
  · rcases hnone with hunaligned | hpast
    · rw [registerWrite_unaligned hunaligned]
    · rw [registerWrite_past_msix hpast]
  · rw [registerWrite_silent hsilent]
  · rw [hstSqTail_silent hsilent]
  · rw [hstCqHead_silent hsilent]
  · rw [hstSrCons_silent hsilent]
  · rw [hstIntStatus_silent hsilent]

end Sys2Proof.Machine
end

section
/-!
Trace points, the TAP and the reads that latch (R56, R77, R104, R143, R265, R322, R420, R492), and where a read of BAR0
answers and what it returns (R344, R345, R407).
-/

namespace Sys2Proof.Machine

open Sys2Proof

/-! ### The commands' meanings -/

section Commands

variable (s : State)

theorem exec_tracePoint (die : Die) (id : BitVec 16) (args : List Word) :
    exec (.tracePoint die id args) s = .next (s.withDev (tracePoint die id args s.dev)) := rfl

theorem exec_tapInstruction (code : TapInstr) :
    exec (.tapInstruction code) s = .next (s.withDev (tapInstruction code s.dev)) := rfl

theorem exec_tsqDevtimeLoRead : exec .tsqDevtimeLoRead s = .next (s.withDev (tsqDevtimeLoRead s.dev)) := rfl

theorem exec_tsqPpsStampLoRead : exec .tsqPpsStampLoRead s = .next (s.withDev (tsqPpsStampLoRead s.dev)) := rfl

theorem exec_tsqPendingKLoRead : exec .tsqPendingKLoRead s = .next (s.withDev (tsqPendingKLoRead s.dev)) := rfl

theorem exec_musLastTimeLoRead (n : Fin 48) :
    exec (.musLastTimeLoRead n) s = .next (s.withDev (musLastTimeLoRead n s.dev)) := rfl

theorem exec_srgCalGenRead : exec .srgCalGenRead s = .next (s.withDev (srgCalGenRead s.dev)) := rfl

theorem exec_lastEndLoRead (slot : Fin 16) :
    exec (.lastEndLoRead slot) s = .next (s.withDev (lastEndLoRead slot s.dev)) := rfl

theorem exec_exposureUsRead (cam : Fin 16) :
    exec (.exposureUsRead cam) s = .next (s.withDev (exposureUsRead cam s.dev)) := rfl

end Commands

/-! ### Trace points (R420) -/

/-- The record that a trace point of a die emits. -/
def traceRecord (die : Die) (id : BitVec 16) (args : List Word) (d : Dev) : TraceRecord :=
  { time := d.now, id := id, die := die.idx, dieSeq := bget 0 die.idx d.boot.traceSeq + 1, args := args.take 5 }

/-- The device with the record number of a die advanced. -/
def advanceTraceSeq (die : Die) (d : Dev) : Dev :=
  { d with boot := { d.boot with
    traceSeq := bput 0 die.idx (bget 0 die.idx d.boot.traceSeq + 1) d.boot.traceSeq } }

section Trace

variable {die : Die} {id : BitVec 16} {args : List Word} {d : Dev}

theorem tracePoint_disabled (hoff : d.boot.traceMask.contains id.toNat = false) : tracePoint die id args d = d := by
  simp only [tracePoint, hoff, Bool.not_false, if_true]

variable (hon : d.boot.traceMask.contains id.toNat = true)

include hon

theorem tracePoint_kept_record (hroom : (bget [] die.idx d.boot.traceLocal : List TraceRecord).length < 64) :
    tracePoint die id args d = { advanceTraceSeq die d with boot := { (advanceTraceSeq die d).boot with
      traceLocal := bput [] die.idx (traceRecord die id args d :: bget [] die.idx d.boot.traceLocal)
        d.boot.traceLocal } } := by
  simp only [tracePoint, hon, Bool.not_true, Bool.false_eq_true, if_false, if_pos hroom]
  rfl

theorem tracePoint_dropped (hfull : 64 ≤ (bget [] die.idx d.boot.traceLocal : List TraceRecord).length) :
    tracePoint die id args d = dropTrace (advanceTraceSeq die d) := by
  simp only [tracePoint, hon, Bool.not_true, Bool.false_eq_true, if_false, if_neg (Nat.not_lt.mpr hfull)]
  rfl

end Trace

/-! ### The reads that latch where the registers are presented (R56, R265) -/

section Latches

variable {d : Dev}

/-- The device time, k, m and the published offset of one instant. -/
def timeNow (d : Dev) : TimeLatch := { dev := d.time.dev, k := d.time.k, m := d.time.m, vt := d.time.vtOffset }

theorem tsqDevtimeLoRead_open (hopen : d.barOpen = true) :
    tsqDevtimeLoRead d = { d with time := { d.time with latch := timeNow d } } := if_pos hopen

theorem tsqDevtimeLoRead_closed (hclosed : d.barOpen = false) : tsqDevtimeLoRead d = d := by
  simp [tsqDevtimeLoRead, hclosed]

theorem tsqPpsStampLoRead_open (hopen : d.barOpen = true) :
    tsqPpsStampLoRead d =
      { d with time := { d.time with ppsStampHiLatch := BitVec.ofNat 32 (d.time.ppsStamp / 2 ^ 32) } } := if_pos hopen

theorem tsqPpsStampLoRead_closed (hclosed : d.barOpen = false) : tsqPpsStampLoRead d = d := by
  simp [tsqPpsStampLoRead, hclosed]

/-- The first tick of the pending mode, 0 where none is pending (R265). -/
def PlanState.pendingTick (p : PlanState) : Nat := match p.pending with | some q => q.effect | none => 0

theorem tsqPendingKLoRead_open (hopen : d.barOpen = true) :
    tsqPendingKLoRead d =
      { d with plan := { d.plan with pendingKHiLatch := BitVec.ofNat 32 (d.plan.pendingTick / 2 ^ 32) } } :=
  if_pos hopen

theorem tsqPendingKLoRead_closed (hclosed : d.barOpen = false) : tsqPendingKLoRead d = d := by
  simp [tsqPendingKLoRead, hclosed]

end Latches

/-! ### Where a read of BAR0 answers (R344, R407) -/

section Reads

variable {d : Dev} {p off : Nat}

theorem readBar_silent (h : (d.port p).linkUp = false ∨ d.boot.phase = .held) : d.readBar p off = none := by
  rcases h with h | h <;> simp [Dev.readBar, Dev.readable, h]

/-- A device without an image or Retired answers in the housekeeping block alone. -/
theorem readable_hkpOnly (hphase : d.boot.phase = .noImage ∨ d.boot.phase = .retired) :
    d.readable p off = ((d.port p).linkUp && (decide (barHkp ≤ off) && decide (off < barHkp + 0x1000))) := by
  rcases hphase with h | h <;> simp [Dev.readable, h]

theorem readable_presented (hlink : (d.port p).linkUp = true) (hheld : d.boot.phase ≠ .held)
    (himage : d.boot.phase ≠ .noImage) (hretired : d.boot.phase ≠ .retired) : d.readable p off = true := by
  cases hphase : d.boot.phase <;> simp_all [Dev.readable]

theorem readBar_of_readable (h : d.readable p off = true) :
    d.readBar p off = some (BitVec.ofNat 32 (d.barWord p off)) :=
  if_pos h

/-! ### What some words hold (R6, R56, R344, R345) -/

/-- The HST block lies below 0x1000. -/
theorem barWord_hst (h : off < 0x1000) : d.barWord p off = d.hstWord p off := if_pos h

theorem hstWord_sessionCommand : d.hstWord p 0x004 = 0 := rfl

theorem hstWord_intStatus : d.hstWord p 0x300 = (d.port p).intStatus.toNat := rfl

theorem hstWord_intEnable : d.hstWord p 0x304 = (d.port p).intEnable.toNat := rfl

/-- A word takes the low 32 bits of what it is given, so the cut of the high word shows nowhere. -/
theorem ofNat_highWord (v : Nat) : BitVec.ofNat 32 (highWord v) = BitVec.ofNat 32 (v / 2 ^ 32) :=
  BitVec.eq_of_toNat_eq (by simp [highWord])

theorem barWord_devtimeHi : d.barWord p (barTime + 0x004) = highWord d.time.latch.dev := rfl

/-- The offsets that no block defines below the pending bits, on either side of the MSI-X table. -/
theorem barWord_undefined (h : (0x1000 ≤ off ∧ off < 0x2000) ∨ (0x2200 ≤ off ∧ off < 0x3000)) :
    d.barWord p off = 0 := by
  unfold Dev.barWord barTime barTsq barMus barTwd barChb barDmk barSrg barVlk barHkp
  simp only [Bool.and_eq_true, decide_eq_true_eq]
  repeat rw [if_neg (by omega)]

end Reads

/-- Settles O59: each latch is its command's effect, and each word of BAR0 is read off the block its offset lies in. -/
theorem traceTapAndLatches : Obligations.TraceTapAndLatches := by
  unfold Obligations.TraceTapAndLatches
  simp only [exec_tracePoint, exec_tapInstruction, exec_tsqDevtimeLoRead, exec_tsqPpsStampLoRead,
    exec_tsqPendingKLoRead, exec_musLastTimeLoRead, exec_srgCalGenRead, exec_lastEndLoRead, exec_exposureUsRead]
  refine ⟨?_, fun s die id args hoff => ?_, fun s code => rfl, fun s hopen => ?_, fun s hopen => ?_, fun s hopen => ?_,
    fun s n => rfl, fun s => rfl, fun s slot => rfl, fun s cam => rfl, fun s hclosed => ⟨?_, ?_, ?_⟩,
    fun d p off => ⟨readBar_silent, ?_, ?_, ?_⟩⟩
  · rintro s die id args n d1 hon rfl rfl
    refine ⟨fun hroom => ?_, fun hfull => ?_⟩
    · rw [tracePoint_kept_record hon hroom]
      rfl
    · rw [tracePoint_dropped hon hfull]
      rfl
  · rw [tracePoint_disabled hoff]
  · exact ⟨_, rfl, by simp [tsqDevtimeLoRead_open hopen, timeNow]⟩
  · rw [tsqPpsStampLoRead_open hopen]
  · rw [tsqPendingKLoRead_open hopen]
    rfl
  · rw [tsqDevtimeLoRead_closed hclosed]
  · rw [tsqPpsStampLoRead_closed hclosed]
  · rw [tsqPendingKLoRead_closed hclosed]
  · intro hphase houtside
    rw [Dev.readBar, readable_hkpOnly hphase, if_neg (by simp; omega)]
  · intro hlink hphase hlo hhi
    exact readBar_of_readable (by simp [readable_hkpOnly hphase, hlink, hlo, hhi])
  · rintro hlink hheld ⟨himage, hretired⟩
    have hread : ∀ o, d.readBar p o = some (BitVec.ofNat 32 (d.barWord p o)) := fun o =>
      readBar_of_readable (readable_presented hlink hheld himage hretired)
    simp only [hread]
    refine ⟨trivial, ?_, fun hundefined => ?_, ?_, ?_, ?_⟩
    · rw [barWord_hst (by decide), hstWord_sessionCommand]
      rfl
    · rw [barWord_undefined hundefined]
      rfl
    · rw [barWord_devtimeHi, ofNat_highWord]
    · rw [barWord_hst (by decide), hstWord_intStatus]
      simp
    · rw [barWord_hst (by decide), hstWord_intEnable]
      simp

end Sys2Proof.Machine
end

section
/-!
What every command keeps (R22, R24 to R26, R252, R253, R264): where the device stands in time moves only at the tick
boundaries and the resets, where it stands in its plan only at a major tick boundary and the resets.
-/

namespace Sys2Proof.Machine

open Sys2Proof

/-! ### What the shapes of a meaning answer and keep -/

/-- A meaning that is an effect answers the state with the effect's device. -/
theorem act_next {f : Dev → Dev} {s : State} {d : Dev} (h : f s.dev = d) : act f s = .next (s.withDev d) := by
  rw [act_eq, h]

/-- A meaning that is an effect keeps what its effect keeps. -/
theorem act_kept {q : Keep} {f : Dev → Dev} {s t : State} (hf : Kept q (f s.dev)) (hx : act f s = .next t) :
    Kept q t.dev := by
  cases hx
  exact hf

/-- A meaning whose access may fail keeps what its effect keeps where it has one. -/
theorem attempt_kept {q : Keep} {f : Dev → Option Dev} {s t : State} (hf : ∀ e, f s.dev = some e → Kept q e)
    (hx : attempt f s = .next t) : Kept q t.dev := by
  obtain ⟨d, hd, rfl⟩ := attempt_next hx
  exact hf d hd

/-! ### Every command keeps what is followed -/

/-- The commands by which the device may move in time: the tick boundaries and the resets. -/
def movesTime : Instr → Bool
  | .minorTickBoundary _ | .majorTickBoundary => true
  | i => i.mayReset

/-- The commands by which the device may move in its plan: the major tick boundary and the resets. -/
def movesPlan : Instr → Bool
  | .majorTickBoundary => true
  | i => i.mayReset

/-- Every command keeps what is followed of the device: its place in time where the command moves it in none, its place
in the plan likewise. -/
theorem exec_kept {q : Keep} {i : Instr} {s t : State} (hpos : movesTime i = true → q.pos = none)
    (hplan : movesPlan i = true → q.plan = none) (h : Kept q s.dev) (hx : exec i s = .next t) : Kept q t.dev := by
  cases i with
  | minorTickBoundary => exact act_kept (minorTickBoundary_kept (hq := hpos rfl) (h := h) ..) hx
  | majorTickBoundary => exact act_kept (majorTickBoundary_kept (hq := hpos rfl) (hm := hplan rfl) (h := h) ..) hx
  | tickBroadcastArrival => exact act_kept (tickBroadcastArrival_kept (h := h) ..) hx
  | windowRelease => exact act_kept (windowRelease_kept (h := h) ..) hx
  | heldWindowRelease => exact act_kept (heldWindowRelease_kept (h := h) ..) hx
  | layerWatchdogExpiry => exact act_kept (layerWatchdogExpiry_kept (h := h) ..) hx
  | tweedStepTimerExpiry => exact act_kept (tweedStepTimerExpiry_kept (h := h) ..) hx
  | chambrayTimerExpiry => exact act_kept (chambrayTimerExpiry_kept (h := h) ..) hx
  | assemblyTimerExpiry => exact act_kept (assemblyTimerExpiry_kept (h := h) ..) hx
  | assemblyComplete => exact act_kept (assemblyComplete_kept (h := h) ..) hx
  | stagingWindowEnd => exact act_kept (stagingWindowEnd_kept (h := h) ..) hx
  | transmitWindow => exact act_kept (transmitWindow_kept (h := h) ..) hx
  | vlinkFrameDone => exact act_kept (vlinkFrameDone_kept (h := h) ..) hx
  | hostWindowEnd => exact act_kept (hostWindowEnd_kept (h := h) ..) hx
  | gateClose => exact act_kept (gateClose_kept (h := h) ..) hx
  | sliceTimerExpiry => exact act_kept (sliceTimerExpiry_kept (h := h) ..) hx
  | deferredInsertion => exact act_kept (deferredInsertion_kept (h := h) ..) hx
  | tweedTableRelease => exact act_kept (tweedTableRelease_kept (h := h) ..) hx
  | syncFollowUpReceived => exact act_kept (syncFollowUpReceived_kept (h := h) ..) hx
  | announceReceived => exact act_kept (announceReceived_kept (h := h) ..) hx
  | vehicleTimeLoss => exact act_kept (vehicleTimeLoss_kept (h := h) ..) hx
  | pdelayReqTimer => exact act_kept (pdelayReqTimer_kept (h := h) ..) hx
  | pdelayReqReceived => exact act_kept (pdelayReqReceived_kept (h := h) ..) hx
  | pdelayRespReceived => exact act_kept (pdelayRespReceived_kept (h := h) ..) hx
  | v1GptpFrame => exact act_kept (v1GptpFrame_kept (h := h) ..) hx
  | lidarSyncSend => exact act_kept (lidarSyncSend_kept (h := h) ..) hx
  | lidarAnnounceSend => exact act_kept (lidarAnnounceSend_kept (h := h) ..) hx
  | lidarGptpReceived => exact act_kept (lidarGptpReceived_kept (h := h) ..) hx
  | lidarFrameReceived => exact act_kept (lidarFrameReceived_kept (h := h) ..) hx
  | lidarLinkDown => exact act_kept (lidarLinkDown_kept (h := h) ..) hx
  | lidarLinkUp => exact act_kept (lidarLinkUp_kept (h := h) ..) hx
  | triggerSend => exact act_kept (triggerSend_kept (h := h) ..) hx
  | csi2PacketReceived => exact act_kept (csi2PacketReceived_kept (h := h) ..) hx
  | linkLockLoss => exact act_kept (linkLockLoss_kept (h := h) ..) hx
  | retrainIntervalExpiry => exact act_kept (retrainIntervalExpiry_kept (h := h) ..) hx
  | trainingSuccess => exact act_kept (trainingSuccess_kept (h := h) ..) hx
  | trainingTimeout => exact act_kept (trainingTimeout_kept (h := h) ..) hx
  | cciAck => exact act_kept (cciAck_kept (h := h) ..) hx
  | cciTimeout => exact act_kept (cciTimeout_kept (h := h) ..) hx
  | statisticsComplete => exact act_kept (statisticsComplete_kept (h := h) ..) hx
  | percaleBandDone => exact act_kept (percaleBandDone_kept (h := h) ..) hx
  | imuSyncPulse => exact act_kept (imuSyncPulse_kept (h := h) ..) hx
  | imuDrdyEdge => exact act_kept (imuDrdyEdge_kept (h := h) ..) hx
  | imuTransactionDone => exact act_kept (imuTransactionDone_kept (h := h) ..) hx
  | imuMissedSample => exact act_kept (imuMissedSample_kept (h := h) ..) hx
  | canFrameReceived => exact act_kept (canFrameReceived_kept (h := h) ..) hx
  | gnssSentenceReceived => exact act_kept (gnssSentenceReceived_kept (h := h) ..) hx
  | gnssPpsEdge => exact act_kept (gnssPpsEdge_kept (h := h) ..) hx
  | ppsMissingTimeout => exact act_kept (ppsMissingTimeout_kept (h := h) ..) hx
  | gnssPairTimeout => exact act_kept (gnssPairTimeout_kept (h := h) ..) hx
  | absenceTimeout => exact act_kept (absenceTimeout_kept (h := h) ..) hx
  | wstart => exact act_kept (wstart_kept (h := h) ..) hx
  | endOp => exact act_kept (endOp_kept (h := h) ..) hx
  | wtally => exact act_kept (wtally_kept (h := h) ..) hx
  | signalOp => exact act_kept (signalOp_kept (h := h) ..) hx
  | loopOp => exact act_kept (loopOp_kept (h := h) ..) hx
  | loopx => exact act_kept (loopx_kept (h := h) ..) hx
  | endl => exact act_kept (endl_kept (h := h) ..) hx
  | movi => exact act_kept (movi_kept (h := h) ..) hx
  | addi => exact act_kept (addi_kept (h := h) ..) hx
  | ldv => exact attempt_kept (ldv_kept _ _ _ _ _ _ h) hx
  | stvm => exact attempt_kept (stvm_kept _ _ _ _ _ h) hx
  | mma => exact attempt_kept (mma_kept _ _ _ _ _ _ _ _ _ _ h) hx
  | accz => exact act_kept (accz_kept (h := h) ..) hx
  | accrd => exact act_kept (accrd_kept (h := h) ..) hx
  | accwr => exact act_kept (accwr_kept (h := h) ..) hx
  | accscl => exact act_kept (accscl_kept (h := h) ..) hx
  | vop => exact act_kept (vop_kept (h := h) ..) hx
  | vcvt => exact act_kept (vcvt_kept (h := h) ..) hx
  | vred => exact act_kept (vred_kept (h := h) ..) hx
  | vfn => exact act_kept (vfn_kept (h := h) ..) hx
  | smax => exact act_kept (smax_kept (h := h) ..) hx
  | sexp => exact act_kept (sexp_kept (h := h) ..) hx
  | srsc => exact act_kept (srsc_kept (h := h) ..) hx
  | smrg => exact act_kept (smrg_kept (h := h) ..) hx
  | dmaq => exact attempt_kept (dmaq_kept _ _ _ h) hx
  | dmaw => exact act_kept (dmaw_kept (h := h) ..) hx
  | radd => exact attempt_kept (radd_kept _ _ _ _ _ _ h) hx
  | setc => exact act_kept (setc_kept (h := h) ..) hx
  | rdnsw => exact act_kept (rdnsw_kept (h := h) ..) hx
  | undefinedOpcode => exact act_kept (undefinedOpcode_kept (h := h) ..) hx
  | transferStart => exact act_kept (transferStart_kept (h := h) ..) hx
  | transferComplete => exact act_kept (transferComplete_kept (h := h) ..) hx
  | transferTimeout => exact act_kept (transferTimeout_kept (h := h) ..) hx
  | scrubAccess => exact act_kept (scrubAccess_kept (h := h) ..) hx
  | burlapClusterReloadDone => exact act_kept (burlapClusterReloadDone_kept (h := h) ..) hx
  | linkTransactionTimeout => exact act_kept (linkTransactionTimeout_kept (h := h) ..) hx
  | flitCrcError => exact act_kept (flitCrcError_kept (h := h) ..) hx
  | create => exact act_kept (create_kept (h := h) ..) hx
  | openView => exact act_kept (openView_kept (h := h) ..) hx
  | appendTok => exact act_kept (appendTok_kept (h := h) ..) hx
  | forkSeq => exact act_kept (forkSeq_kept (h := h) ..) hx
  | freeSeq => exact act_kept (freeSeq_kept (h := h) ..) hx
  | restore => exact act_kept (restore_kept (h := h) ..) hx
  | openQueue => exact act_kept (openQueue_kept (h := h) ..) hx
  | damaskReservedOp => exact act_kept (damaskReservedOp_kept (h := h) ..) hx
  | epochClose => exact act_kept (epochClose_kept (h := h) ..) hx
  | solveEnd => exact act_kept (solveEnd_kept (h := h) ..) hx
  | sergeDeadline => exact act_kept (sergeDeadline_kept (h := h) ..) hx
  | sergeStopTimeout => exact act_kept (sergeStopTimeout_kept (h := h) ..) hx
  | sergeUnitResetDone => exact act_kept (sergeUnitResetDone_kept (h := h) ..) hx
  | goldenSegmentEnd => exact act_kept (goldenSegmentEnd_kept (h := h) ..) hx
  | goldenBudgetTimer => exact act_kept (goldenBudgetTimer_kept (h := h) ..) hx
  | resumeCountExpiry => exact act_kept (resumeCountExpiry_kept (h := h) ..) hx
  | selfCheckPass => exact act_kept (selfCheckPass_kept (h := h) ..) hx
  | lockstepMismatch => exact act_kept (lockstepMismatch_kept (h := h) ..) hx
  | refclkLoss => exact act_kept (refclkLoss_kept (h := h) ..) hx
  | fabricError => exact act_kept (fabricError_kept (h := h) ..) hx
  | fwWatchdogExpiry => exact act_kept (fwWatchdogExpiry_kept (h := h) ..) hx
  | reloadDone => exact act_kept (reloadDone_kept (h := h) ..) hx
  | restartTimeout => exact act_kept (restartTimeout_kept (h := h) ..) hx
  | dieAdmissionReport => exact act_kept (dieAdmissionReport_kept (h := h) ..) hx
  | admissionDeadline => exact act_kept (admissionDeadline_kept (h := h) ..) hx
  | healthDeadline => exact act_kept (healthDeadline_kept (hq := hpos rfl) (hm := hplan rfl) (h := h) ..) hx
  | powerOnReset => exact act_kept (powerOnReset_kept (hq := hpos rfl) (hm := hplan rfl) (h := h) ..) hx
  | deviceReset => exact act_kept (deviceReset_kept (hq := hpos rfl) (hm := hplan rfl) (h := h) ..) hx
  | sectionVerified => exact act_kept (sectionVerified_kept (hq := hpos rfl) (hm := hplan rfl) (h := h) ..) hx
  | phase0Loaded => exact act_kept (phase0Loaded_kept (hq := hpos rfl) (hm := hplan rfl) (h := h) ..) hx
  | slotVerified => exact act_kept (slotVerified_kept (hq := hpos rfl) (hm := hplan rfl) (h := h) ..) hx
  | imageBlockTimeout => exact act_kept (imageBlockTimeout_kept (hq := hpos rfl) (hm := hplan rfl) (h := h) ..) hx
  | warmReadDone => exact act_kept (warmReadDone_kept (h := h) ..) hx
  | dieReload => exact act_kept (dieReload_kept (h := h) ..) hx
  | sessionOpen => exact act_kept (sessionOpen_kept (h := h) ..) hx
  | sessionClose => exact act_kept (sessionClose_kept (h := h) ..) hx
  | attestReportDone => exact act_kept (attestReportDone_kept (h := h) ..) hx
  | attestTimeout => exact act_kept (attestTimeout_kept (h := h) ..) hx
  | hstHeartbeat => exact act_kept (hstHeartbeat_kept (h := h) ..) hx
  | hbWarn => exact act_kept (hbWarn_kept (h := h) ..) hx
  | heartbeatTimeout => exact act_kept (heartbeatTimeout_kept (h := h) ..) hx
  | hstSqTail => exact act_kept (hstSqTail_kept (h := h) ..) hx
  | hstCqHead => exact act_kept (hstCqHead_kept (h := h) ..) hx
  | hstSrCons => exact act_kept (hstSrCons_kept (h := h) ..) hx
  | hstIntStatus => exact act_kept (hstIntStatus_kept (h := h) ..) hx
  | registerWrite => exact act_kept (registerWrite_kept (h := h) ..) hx
  | pcieLinkEvent => exact act_kept (pcieLinkEvent_kept (h := h) ..) hx
  | dmaReadFault => exact act_kept (dmaReadFault_kept (h := h) ..) hx
  | submissionFetch => exact act_kept (submissionFetch_kept (h := h) ..) hx
  | runModel => exact act_kept (runModel_kept (h := h) ..) hx
  | readGrid => exact act_kept (readGrid_kept (h := h) ..) hx
  | readTrack => exact act_kept (readTrack_kept (h := h) ..) hx
  | hostFork => exact act_kept (hostFork_kept (h := h) ..) hx
  | freeFork => exact act_kept (freeFork_kept (h := h) ..) hx
  | subscribe => exact act_kept (subscribe_kept (h := h) ..) hx
  | unsubscribe => exact act_kept (unsubscribe_kept (h := h) ..) hx
  | attest => exact act_kept (attest_kept (h := h) ..) hx
  | privClaim => exact act_kept (privClaim_kept (h := h) ..) hx
  | privVerifyDone => exact act_kept (privVerifyDone_kept (h := h) ..) hx
  | stageWrite => exact act_kept (stageWrite_kept (h := h) ..) hx
  | stageCommit => exact act_kept (stageCommit_kept (h := h) ..) hx
  | stageCommitDone => exact act_kept (stageCommitDone_kept (h := h) ..) hx
  | setTraceMask => exact act_kept (setTraceMask_kept (h := h) ..) hx
  | warmStart => exact act_kept (warmStart_kept (h := h) ..) hx
  | unlistedOp => exact act_kept (unlistedOp_kept (h := h) ..) hx
  | modeRequest => exact act_kept (modeRequest_kept (h := h) ..) hx
  | warmStartConsent => exact act_kept (warmStartConsent_kept (h := h) ..) hx
  | controllerHeartbeat => exact act_kept (controllerHeartbeat_kept (h := h) ..) hx
  | ctrlSilenceTimeout => exact act_kept (ctrlSilenceTimeout_kept (h := h) ..) hx
  | consentExpiry => exact act_kept (consentExpiry_kept (h := h) ..) hx
  | vlinkLinkDown => exact act_kept (vlinkLinkDown_kept (h := h) ..) hx
  | tempSample => exact act_kept (tempSample_kept (hq := hpos rfl) (hm := hplan rfl) (h := h) ..) hx
  | thermalRestoreTimer => exact act_kept (thermalRestoreTimer_kept (h := h) ..) hx
  | railExcursion => exact act_kept (railExcursion_kept (h := h) ..) hx
  | railOvercurrent => exact act_kept (railOvercurrent_kept (h := h) ..) hx
  | railRestoreTimer => exact act_kept (railRestoreTimer_kept (h := h) ..) hx
  | vddXUndervoltageTimer => exact act_kept (vddXUndervoltageTimer_kept (hq := hpos rfl) (hm := hplan rfl) (h := h) ..) hx
  | memoryRailResetTimer => exact act_kept (memoryRailResetTimer_kept (hq := hpos rfl) (hm := hplan rfl) (h := h) ..) hx
  | limitWrite => exact act_kept (limitWrite_kept (h := h) ..) hx
  | emEstimatorSample => exact act_kept (emEstimatorSample_kept (h := h) ..) hx
  | eyeMarginSample => exact act_kept (eyeMarginSample_kept (h := h) ..) hx
  | canaryFailure => exact act_kept (canaryFailure_kept (h := h) ..) hx
  | wearRecordWrite => exact act_kept (wearRecordWrite_kept (h := h) ..) hx
  | lifePrediction => exact act_kept (lifePrediction_kept (h := h) ..) hx
  | tracePoint => exact act_kept (tracePoint_kept (h := h) ..) hx
  | tapInstruction => exact act_kept (tapInstruction_kept (h := h) ..) hx
  | tsqDevtimeLoRead => exact act_kept (tsqDevtimeLoRead_kept (h := h) ..) hx
  | tsqPpsStampLoRead => exact act_kept (tsqPpsStampLoRead_kept (h := h) ..) hx
  | musLastTimeLoRead => exact act_kept (musLastTimeLoRead_kept (h := h) ..) hx
  | exposureUsRead => exact act_kept (exposureUsRead_kept (h := h) ..) hx
  | tsqPendingKLoRead => exact act_kept (tsqPendingKLoRead_kept (h := h) ..) hx
  | srgCalGenRead => exact act_kept (srgCalGenRead_kept (h := h) ..) hx
  | lastEndLoRead => exact act_kept (lastEndLoRead_kept (h := h) ..) hx
  | vlinkLinkUp => exact act_kept (vlinkLinkUp_kept (h := h) ..) hx
  | refclkReturn => exact act_kept (refclkReturn_kept (h := h) ..) hx
  | tickIntervalTimeout => exact act_kept (tickIntervalTimeout_kept (h := h) ..) hx
  | servoSaturationSecond => exact act_kept (servoSaturationSecond_kept (h := h) ..) hx
  | reacquisitionPeriodEnd => exact act_kept (reacquisitionPeriodEnd_kept (h := h) ..) hx
  | initWaitExpiry => exact act_kept (initWaitExpiry_kept (h := h) ..) hx
  | canProtocolError => exact act_kept (canProtocolError_kept (h := h) ..) hx
  | unacceptedControllerFrame => exact act_kept (unacceptedControllerFrame_kept (h := h) ..) hx
  | sergeUncorrectableSramError => exact act_kept (sergeUncorrectableSramError_kept (h := h) ..) hx
  | stageWriteDone => exact act_kept (stageWriteDone_kept (h := h) ..) hx
  | firmwareRestartComplete => exact act_kept (firmwareRestartComplete_kept (h := h) ..) hx
  | porstNAsserted => exact act_kept (porstNAsserted_kept (h := h) ..) hx

/-! ### Where the device stands -/

/-- Following where the device stands in time, and nothing else. -/
def Keep.atPos (p : Pos) : Keep :=
  { mem := false, pins := false, pos := some p, plan := none, burnt := 0, retired := false }

/-- Following where the device stands in its plan, and nothing else. -/
def Keep.atPlan (p : PlanPos) : Keep :=
  { mem := false, pins := false, pos := none, plan := some p, burnt := 0, retired := false }

theorem kept_atPos {p : Pos} {d : Dev} : Kept (Keep.atPos p) d ↔ d.pos = p :=
  ⟨fun h => h.pos p rfl, fun h => ⟨nofun, nofun, fun _ e => h.trans (Option.some.inj e), nofun, Nat.zero_le _, nofun⟩⟩

theorem kept_atPlan {p : PlanPos} {d : Dev} : Kept (Keep.atPlan p) d ↔ d.planPos = p :=
  ⟨fun h => h.plan p rfl, fun h => ⟨nofun, nofun, nofun, fun _ e => h.trans (Option.some.inj e), Nat.zero_le _, nofun⟩⟩

theorem exec_pos {i : Instr} {s t : State} (hi : movesTime i = false) (hx : exec i s = .next t) :
    t.dev.pos = s.dev.pos :=
  kept_atPos.mp (exec_kept (by simp [hi]) (fun _ => rfl) (kept_atPos.mpr rfl) hx)

theorem exec_planPos {i : Instr} {s t : State} (hi : movesPlan i = false) (hx : exec i s = .next t) :
    t.dev.planPos = s.dev.planPos :=
  kept_atPlan.mp (exec_kept (fun _ => rfl) (by simp [hi]) (kept_atPlan.mpr rfl) hx)

/-- A command that may not reset the device moves it in its plan at a major tick boundary only. -/
theorem movesPlan_eq_false {i : Instr} (hreset : i.mayReset = false) (hmajor : i ≠ .majorTickBoundary) :
    movesPlan i = false := by
  unfold movesPlan
  split
  · exact absurd rfl hmajor
  · exact hreset

/-- A command that may not reset the device and is no tick boundary does not move it in time. -/
theorem movesTime_eq_false {i : Instr} (hreset : i.mayReset = false) (hminor : ∀ n, i ≠ .minorTickBoundary n)
    (hmajor : i ≠ .majorTickBoundary) : movesTime i = false := by
  unfold movesTime
  split
  · exact absurd rfl (hminor _)
  · exact absurd rfl hmajor
  · exact hreset

/-! ### The tick boundaries (R25) -/

/-- The boundary of the next minor tick has come (R25). -/
structure Dev.MinorDue (d : Dev) : Prop where
  running : d.time.running = true
  begun : d.time.begun = true
  left : d.time.nextM < d.time.minors
  come : d.time.nextBoundary ≤ d.time.dev

theorem minorTickBoundary_early {d : Dev} (h : ¬ d.MinorDue) (interval : Nat) : minorTickBoundary interval d = d := by
  refine if_pos ?_
  by_contra hgo
  simp only [Bool.or_eq_true, Bool.not_eq_true', decide_eq_true_eq, not_or, Bool.not_eq_false, Nat.not_le,
    Nat.not_lt] at hgo
  obtain ⟨⟨⟨hrun, hbegun⟩, hleft⟩, hcome⟩ := hgo
  exact h ⟨hrun, hbegun, hleft, hcome⟩

/-- The minor index moves on in a device that stands where it stood before the boundary. -/
theorem setTime_nextMinor_pos {d e : Dev} (h : e.pos = d.pos) (b : Nanos) :
    (e.setTime { e.time with m := d.time.nextM, nextM := d.time.nextM + 1, lastB := some b }).pos =
      { d.pos with m := d.time.nextM, nextM := d.time.nextM + 1 } := by
  obtain ⟨hdev, hrunning, hbegun, hk, -, -, hbk⟩ := Pos.mk.inj h
  simp only [Dev.pos, Dev.setTime, hdev, hrunning, hbegun, hk, hbk]

/-- A minor tick boundary that has come moves the minor index on, and nothing else of where the device stands. -/
theorem minorTickBoundary_pos {d : Dev} (h : d.MinorDue) (interval : Nat) :
    (minorTickBoundary interval d).pos = { d.pos with m := d.time.nextM, nextM := d.time.nextM + 1 } := by
  obtain ⟨hrun, hbegun, hleft, hcome⟩ := h
  have hgo : ¬ (!d.time.running || !d.time.begun || decide (d.time.minors ≤ d.time.nextM) ||
      decide (d.time.dev < d.time.nextBoundary)) = true := by
    simp [hrun, hbegun, hleft, hcome]
  have hfreq : Kept (Keep.atPos d.pos) (stepFrequency d) := stepFrequency_kept (kept_atPos.mpr rfl)
  rw [minorTickBoundary, if_neg hgo]
  refine kept_atPos.mp (minorService_kept _ _ (kept_atPos.mpr ?_))
  cases d.minorBefore with
  | none => exact setTime_nextMinor_pos (kept_atPos.mp hfreq) _
  | some p => exact setTime_nextMinor_pos (kept_atPos.mp (checkInterval_kept _ _ hfreq)) _

/-- Where no tick begins, a major tick boundary does nothing. -/
theorem majorTickBoundary_early {d : Dev} (h : d.majorDue = none) : majorTickBoundary d = d := by
  simp [majorTickBoundary, h]

/-- A major tick boundary that has come sets k, B_k and the minor index, and leaves device time. -/
theorem majorTickBoundary_pos {d : Dev} {k : Nat} {b : Nanos} (h : d.majorDue = some (k, b)) :
    (majorTickBoundary d).pos = { d.pos with begun := true, k := k, m := 0, nextM := 0, bk := b } := by
  have hhost : (hostBoundary d).pos = d.pos := kept_atPos.mp (hostBoundary_kept (kept_atPos.mpr rfl))
  obtain ⟨hdev, hrunning, -⟩ := Pos.mk.inj hhost
  refine kept_atPos.mp ?_
  simp only [majorTickBoundary, h]
  refine dropLostQueries_kept _ (countResume_kept (openTick_kept _ _ _ (Kept.foldl (fun _ _ => dieBoundary_kept _)
    (Kept.foldl (fun _ _ => stepEngine_kept _ _) (rejoinBurlap_kept (restoreClocks_kept (Kept.foldl
      (fun _ _ => rejoin_kept _) (armAll_kept _ (stepStreams_kept _ (captureOffset_kept (swapCal_kept _
        (planBoundary_kept _ _ _ rfl (kept_atPos.mpr ?_)))))))))))))
  simp [Dev.pos, hdev, hrunning]

/-- No command but the resets steps device time or starts or stops the sequencer. -/
theorem exec_dev_running {i : Instr} {s t : State} (hreset : i.mayReset = false) (hx : exec i s = .next t) :
    t.dev.time.dev = s.dev.time.dev ∧ t.dev.time.running = s.dev.time.running := by
  by_cases hminor : ∃ n, i = .minorTickBoundary n
  · obtain ⟨n, rfl⟩ := hminor
    cases hx
    by_cases hdue : s.dev.MinorDue
    · obtain ⟨hdev, hrunning, -⟩ := Pos.mk.inj (minorTickBoundary_pos hdue n)
      exact ⟨hdev, hrunning⟩
    · rw [minorTickBoundary_early hdue]
      exact ⟨rfl, rfl⟩
  by_cases hmajor : i = .majorTickBoundary
  · subst hmajor
    cases hx
    cases hdue : s.dev.majorDue with
    | none =>
      rw [majorTickBoundary_early hdue]
      exact ⟨rfl, rfl⟩
    | some x =>
      obtain ⟨hdev, hrunning, -⟩ := Pos.mk.inj (majorTickBoundary_pos hdue)
      exact ⟨hdev, hrunning⟩
  · obtain ⟨hdev, hrunning, -⟩ := Pos.mk.inj
      (exec_pos (movesTime_eq_false hreset (not_exists.mp hminor) hmajor) hx)
    exact ⟨hdev, hrunning⟩

/-- Settles O8: the two boundaries leave device time where it is, and every other command the device's whole place in
time. -/
theorem commandsNeverStepDeviceTime : Obligations.CommandsNeverStepDeviceTime := by
  unfold Obligations.CommandsNeverStepDeviceTime
  intro i s t hreset hx
  obtain ⟨hdev, hrunning⟩ := exec_dev_running hreset hx
  refine ⟨hdev, hrunning, fun hminor hmajor => ?_⟩
  obtain ⟨-, -, hbegun, hk, hm, hnext, hbk⟩ := Pos.mk.inj (exec_pos (movesTime_eq_false hreset hminor hmajor) hx)
  exact ⟨hk, hm, hnext, hbk, hbegun⟩

/-- Settles O9: only a major tick boundary and the resets move the device in its plan. -/
theorem planChangesAtMajorBoundariesOnly : Obligations.PlanChangesAtMajorBoundariesOnly := by
  unfold Obligations.PlanChangesAtMajorBoundariesOnly
  intro i s t hreset hmajor hx
  obtain ⟨hp, hn, hd, htransition, hmode, hload, hepoch, hswitch⟩ :=
    PlanPos.mk.inj (exec_planPos (movesPlan_eq_false hreset hmajor) hx)
  exact ⟨hmode, hload, hepoch, hswitch, hp, hn, hd, htransition⟩

end Sys2Proof.Machine
end

section
/-!
The tick boundaries, the broadcast at a die and the idle cycle (R22, R24, R25, R51 to R53).
-/

namespace Sys2Proof.Machine

open Sys2Proof

/-! ### The tick broadcast at a die (R52, R53) -/

/-- A broadcast that agrees with an admitted die is taken: its frequency is the die's next one. -/
theorem tickBroadcastArrival_agreeing {d : Dev} {die : Fin 6} {b : Broadcast}
    (hb : (d.die die.val).broadcast = some b) (hadmitted : (d.die die.val).state = .admitted)
    (hresync : (d.die die.val).resync = false) (hk : (d.die die.val).localK = b.k)
    (hepoch : (d.die die.val).localEpoch = b.epoch)
    (hlate : (d.die die.val).localTime ≤ b.time + (d.die die.val).latency + 1)
    (hearly : b.time + (d.die die.val).latency ≤ (d.die die.val).localTime + 1) :
    tickBroadcastArrival die d =
      d.setDie die.val { d.die die.val with broadcast := none, localFreqNext := b.freq } := by
  simp [tickBroadcastArrival, hb, hadmitted, hresync, hk, hepoch, Nat.not_lt.mpr hlate, Nat.not_lt.mpr hearly]

/-- Settles O11: each boundary moves the device to the place in time that its inversion lemma gives, and a broadcast in
agreement is taken. -/
theorem tickBoundariesAdvance : Obligations.TickBoundariesAdvance := by
  unfold Obligations.TickBoundariesAdvance
  refine ⟨fun s interval hrun hbegun hleft hcome => ⟨_, rfl, ?_⟩, fun s k b hdue => ⟨_, rfl, ?_⟩, ?_⟩
  · obtain ⟨hdev, -, -, hk, hm, hnext, hbk⟩ :=
      Pos.mk.inj (minorTickBoundary_pos ⟨hrun, hbegun, hleft, hcome⟩ interval)
    exact ⟨hm, hnext, hk, hbk, hdev⟩
  · obtain ⟨hdev, -, hbegun, hk, -, hnext, hbk⟩ := Pos.mk.inj (majorTickBoundary_pos hdue)
    exact ⟨hk, hbk, hnext, hbegun, hdev⟩
  · intro s die b hb hadmitted hresync hk hepoch hlate hearly
    exact act_next (tickBroadcastArrival_agreeing hb hadmitted hresync hk hepoch hlate hearly)

/-! ### The block without a command (R22) -/

/-- Sealing outputs leaves the time base. -/
theorem sealDue_time (d : Dev) : (sealDue d).time = d.time :=
  ((sealDue_only rfl (OnlyIn.refl [.muslin, .serge, .output, .host] d)).keep .time (by decide)).symm

/-- The dies' copies and operating time leave the device's own time base. -/
theorem operCycle_dieCycles_time (d : Dev) : (operCycle ((List.range 6).foldl dieCycle d)).time = d.time :=
  ((operCycle_only rfl (OnlyIn.foldl (fun _ x => dieCycle_only x rfl)
    (OnlyIn.refl [.recovery, .health] d))).keep .time (by decide)).symm

theorem clockCycle_running {d : Dev} (h : d.boot.phase ≠ .held) :
    clockCycle d = operCycle ((List.range 6).foldl dieCycle { d with time := { d.time with
      dev := (advance d.time.dev d.time.frac d.time.freq).1
      frac := (advance d.time.dev d.time.frac d.time.freq).2 } }) := if_neg h

theorem idleCycle_time_held {d : Dev} (h : d.boot.phase = .held) : (idleCycle d).time = d.time := by
  rw [idleCycle, sealDue_time, clockCycle, if_pos h]

/-- One cycle of the time clock advances device time and its fractional accumulator at the adjustment in force. -/
theorem idleCycle_time {d : Dev} (h : d.boot.phase ≠ .held) :
    (idleCycle d).time = { d.time with
      dev := (advance d.time.dev d.time.frac d.time.freq).1
      frac := (advance d.time.dev d.time.frac d.time.freq).2 } := by
  rw [idleCycle, sealDue_time, clockCycle_running h, operCycle_dieCycles_time]

theorem step_idle {s : State} (h : s.pending = []) : step s = .next (s.withDev (idleCycle s.dev)) := by
  simp [step, h]

/-- Settles O1: the step is the front command's meaning, and on an empty queue one cycle of the time clock (log
entry 1). -/
theorem stepRunsFrontCommand : Obligations.StepRunsFrontCommand := by
  unfold Obligations.StepRunsFrontCommand
  refine ⟨fun c rest s => rfl, fun s hempty => ⟨_, step_idle hempty, hempty, fun hphase => ?_, fun hphase => ?_⟩⟩
  · simp [idleCycle_time hphase]
  · simp [idleCycle_time_held hphase]

end Sys2Proof.Machine
end

section
/-!
The class V faults that the IOD's own monitors raise (R54, R381, R384, R386).
-/

namespace Sys2Proof.Machine

open Sys2Proof

/-! ### What the detection of a class V fault leaves in Felt (R371, R384) -/

/-- Felt after the detection of class V fault `code`: the fault in force and noted, SAFE_OK not running, both pins 0. -/
structure FeltState.StoppedBy (code : Nat) (f : FeltState) : Prop where
  classV : f.classV = true
  lastCode : f.lastCode = code
  safeOk : f.safeOk ≠ .running
  pinA : f.pinA = false
  pinB : f.pinB = false

/-- A Fault Notice takes its number, and leaves the rest of Felt. -/
theorem sendNotice_felt (code : Nat) (cls : FaultClass) (cleared : Bool) (die unit arg : Nat) (d : Dev) :
    (sendNotice code cls cleared die unit arg d).felt = { d.felt with faultSeq := d.felt.faultSeq + 1 } :=
  ((release_only _ rfl (OnlyIn.refl [.host, .v0, .v1, .health, .sent] _)).keep .felt (by decide)).symm

/-- The abandoning of a warm start leaves Felt. -/
theorem abandonWarm_felt (d : Dev) : (abandonWarm d).felt = d.felt :=
  ((abandonWarm_only rfl (OnlyIn.refl [.host, .boot, .health, .sent] d)).keep .felt (by decide)).symm

/-- The event to the safety processor and the health record leave Felt. -/
theorem healthEvent_fwEvent_felt (e : HealthEvent) (p : Nat) (d : Dev) : (healthEvent e (fwEvent p d)).felt = d.felt :=
  ((healthEvent_only e rfl (fwEvent_only p rfl (OnlyIn.refl [.host, .boot, .health, .sent] d))).keep .felt
    (by decide)).symm

/-- The saturation of a counter leaves Felt. -/
theorem satEvent_felt (bar : Nat) (before after : Counter) (d : Dev) : (satEvent bar before after d).felt = d.felt :=
  ((satEvent_only bar before after rfl (OnlyIn.refl [.host, .health, .sent] d)).keep .felt (by decide)).symm

/-- The reset of the safety processor pair leaves the fault in force. -/
theorem resetPair_stoppedBy {code : Nat} {d : Dev} (h : d.felt.StoppedBy code) (c : Nat) :
    (resetPair c d).felt.StoppedBy code := by
  unfold resetPair
  split
  · exact ⟨h.classV, h.lastCode, h.safeOk, h.pinA, h.pinB⟩
  · exact h

theorem stopSafeOk_not_running (f : FeltState) : (stopSafeOk f).safeOk ≠ .running := by
  unfold stopSafeOk
  split
  · simp
  · assumption

/-- A new condition leaves SAFE_OK and its pins. -/
theorem addCond_safeOk (f : FeltState) (code unit : Nat) (latched : Bool) :
    (f.addCond code unit latched).safeOk = f.safeOk ∧ (f.addCond code unit latched).pinA = f.pinA ∧
      (f.addCond code unit latched).pinB = f.pinB := by
  unfold FeltState.addCond
  split <;> exact ⟨rfl, rfl, rfl⟩

theorem raiseV_stoppedBy (code die unit arg : Nat) (latched : Bool) (condUnit : Nat) (d : Dev) :
    (raiseV code die unit arg latched condUnit d).felt.StoppedBy code := by
  unfold raiseV
  extract_lets c f0 f d1 d2 d3
  rw [healthEvent_fwEvent_felt]
  refine resetPair_stoppedBy ?_ code
  rw [abandonWarm_felt, sendNotice_felt, satEvent_felt]
  obtain ⟨hsafe, hA, hB⟩ := addCond_safeOk f0 code condUnit latched
  exact ⟨rfl, rfl, fun hrun => stopSafeOk_not_running d.felt (hsafe.symm.trans hrun), hA, hB⟩

/-- The detection of a class V fault leaves the time base and the plan. -/
theorem raiseV_time_plan (code die unit arg : Nat) (latched : Bool) (condUnit : Nat) (d : Dev) :
    (raiseV code die unit arg latched condUnit d).time = d.time ∧
      (raiseV code die unit arg latched condUnit d).plan = d.plan := by
  have honly := raiseV_only code die unit arg latched condUnit rfl
    (OnlyIn.refl [.host, .v0, .v1, .felt, .boot, .health, .sent] d)
  exact ⟨(honly.keep .time (by decide)).symm, (honly.keep .plan (by decide)).symm⟩

/-! ### The IOD's monitors (R54, R381, R386) -/

/-- The effect of a class V fault on the device: SAFE_OK stopped by it, device time, tick and mode as before. -/
def StopsSafeOk (code : Nat) (before after : Dev) : Prop :=
  after.felt.StoppedBy code ∧ after.time = before.time ∧ after.plan = before.plan

/-- A fault of the IOD stops SAFE_OK, whatever Felt's monitor has noted of it before. -/
theorem raiseIod_stopsSafeOk (code : Nat) (f : FeltState) (d : Dev) :
    StopsSafeOk code d (raiseIod code { d with felt := f }) :=
  ⟨raiseV_stoppedBy .., raiseV_time_plan ..⟩

theorem refclkLoss_stopsSafeOk {d : Dev} (h : d.felt.refclkLost = false) :
    StopsSafeOk 0x0003 d (refclkLoss d) := by
  rw [refclkLoss, if_neg (by simp [h])]
  exact raiseIod_stopsSafeOk ..

theorem tickIntervalTimeout_stopsSafeOk {d : Dev} {elapsed : Nat} (hbegun : d.time.begun = true)
    (hnew : d.felt.intervalFault = false) (hpast : d.time.minorNs < elapsed)
    (hband : outOfBand elapsed d.time.minorNs = true) :
    StopsSafeOk 0x0003 d (tickIntervalTimeout elapsed d) := by
  rw [tickIntervalTimeout, if_pos (by simp [hbegun, hnew, hpast, hband])]
  exact raiseIod_stopsSafeOk ..

/-- Settles O40: each of the four monitors raises its fault on the IOD, whose detection stops SAFE_OK. -/
theorem classVFaultsStopSafeOk : Obligations.ClassVFaultsStopSafeOk := by
  unfold Obligations.ClassVFaultsStopSafeOk
  intro s i code hfault
  have heffect : ∃ t, exec i s = .next t ∧ StopsSafeOk code s.dev t.dev := by
    rcases hfault with ⟨rfl, rfl⟩ | ⟨rfl, rfl⟩ | ⟨rfl, hthere, rfl⟩ | ⟨elapsed, rfl, hbegun, hnew, hpast, hband, rfl⟩
    · exact ⟨_, rfl, raiseIod_stopsSafeOk _ s.dev.felt s.dev⟩
    · exact ⟨_, rfl, raiseIod_stopsSafeOk _ s.dev.felt s.dev⟩
    · exact ⟨_, rfl, refclkLoss_stopsSafeOk hthere⟩
    · exact ⟨_, rfl, tickIntervalTimeout_stopsSafeOk hbegun hnew hpast hband⟩
  obtain ⟨t, ht, hfelt, htime, hplan⟩ := heffect
  exact ⟨t, ht, hfelt.classV, hfelt.lastCode, hfelt.safeOk, hfelt.pinA, hfelt.pinB, htime, by rw [hplan]⟩

end Sys2Proof.Machine
end

section
/-!
The release of planned windows (R27, R247, R428, R442): at a window's opening, after it has been held, and in a
transition tick.
-/

namespace Sys2Proof.Machine

open Sys2Proof

variable {d : Dev} {src : Source} {tick w : Nat} {r : WindowRec} {tr : TickRec}

/-! ### WINDOW_RELEASE -/

theorem windowRelease_transition (htick : d.tickRec tick = some tr) (htr : tr.transition = true) :
    windowRelease src tick w d = releaseTransition src tick w tr d := by
  simp [windowRelease, htick, htr]

section Planned

variable (htick : d.tickRec tick = some tr) (htr : tr.transition = false) (hrec : d.windowRec src tick w = some r)
  (hplanned : (d.win src tick w).phase = .planned) (hkind : r.kind ≠ .transmit)

include htick htr hrec

theorem windowRelease_early (hopens : d.opens src tick w r = false) : windowRelease src tick w d = d := by
  simp [windowRelease, htick, htr, hrec, hopens]

include hplanned hkind

theorem windowRelease_blocked {c : MissCause} (hopens : d.opens src tick w r = true)
    (hblocked : d.blocked src tick w r = some c) : windowRelease src tick w d = miss c src tick w d := by
  simp [windowRelease, htick, htr, hrec, hplanned, hkind, hopens, hblocked]

theorem windowRelease_busy (hopens : d.opens src tick w r = true) (hblocked : d.blocked src tick w r = none)
    (hbusy : d.coresBusy src tick r = true) :
    windowRelease src tick w d = d.setWin src tick w { d.win src tick w with phase := .held } := by
  simp [windowRelease, htick, htr, hrec, hplanned, hkind, hopens, hblocked, hbusy]

theorem windowRelease_now (hopens : d.opens src tick w r = true) (hblocked : d.blocked src tick w r = none)
    (hbusy : d.coresBusy src tick r = false) : windowRelease src tick w d = releaseNow src tick w r d := by
  simp [windowRelease, htick, htr, hrec, hplanned, hkind, hopens, hblocked, hbusy]

end Planned

/-! ### HELD_WINDOW_RELEASE -/

section Held

variable (hrec : d.windowRec src tick w = some r)
  (hheld : (d.win src tick w).phase = .held ∨ ((d.win src tick w).phase = .planned ∧ d.lateUnit tick r = true))
  (hopens : d.opens src tick w r = true) (hfreed : d.freed src tick r = true)

include hrec hheld hopens hfreed

theorem heldWindowRelease_blocked {c : MissCause} (hblocked : d.blocked src tick w r = some c) :
    heldWindowRelease src tick w d = miss c src tick w d := by
  rcases hheld with h | ⟨h, hlate⟩
  · simp [heldWindowRelease, hrec, h, hopens, hfreed, hblocked]
  · simp [heldWindowRelease, hrec, h, hlate, hopens, hfreed, hblocked]

theorem heldWindowRelease_now (hblocked : d.blocked src tick w r = none) :
    heldWindowRelease src tick w d = releaseNow src tick w r (bump (barTsq + 0x120) d.plan.heldRelease 1
      (fun c d => { d with plan := { d.plan with heldRelease := c } }) d) := by
  rcases hheld with h | ⟨h, hlate⟩
  · simp [heldWindowRelease, hrec, h, hopens, hfreed, hblocked]
  · simp [heldWindowRelease, hrec, h, hlate, hopens, hfreed, hblocked]

end Held

/-- Settles O13: each clause is one branch of a release. The transition tick's own rule and the marks at release are log
entries 147 and 145. -/
theorem windowsAreReleasedOrHeld : Obligations.WindowsAreReleasedOrHeld := by
  unfold Obligations.WindowsAreReleasedOrHeld
  refine ⟨fun s src tick w tr r htick htr hrec hplanned hkind =>
      ⟨fun hopens => ?_, fun hopens c hblocked => ?_, fun hopens hblocked hbusy => ?_, fun hopens hblocked hbusy => ?_⟩,
    fun s src tick w tr htick htr => ?_,
    fun s src tick w r hrec hheld hopens hfreed => ⟨fun c hblocked => ?_, fun hblocked => ?_⟩⟩
  · exact act_next (windowRelease_early htick htr hrec hopens)
  · exact act_next (windowRelease_blocked htick htr hrec hplanned hkind hopens hblocked)
  · exact act_next (windowRelease_busy htick htr hrec hplanned hkind hopens hblocked hbusy)
  · exact act_next (windowRelease_now htick htr hrec hplanned hkind hopens hblocked hbusy)
  · exact act_next (windowRelease_transition htick htr)
  · exact act_next (heldWindowRelease_blocked hrec hheld hopens hfreed hblocked)
  · exact act_next (heldWindowRelease_now hrec hheld hopens hfreed hblocked)

end Sys2Proof.Machine
end

section
/-!
The vehicle-time servo and the gPTP ports (R28 to R34, R36, R37, R495).
-/

namespace Sys2Proof.Machine

open Sys2Proof

/-! ### Valid pairs (R28 to R34, R495) -/

/-- The servo once a valid pair has come, before its sample is judged. -/
def ServoState.received (v : ServoState) (pair : SyncPair) (now : Nanos) : ServoState :=
  { v with lastSync := now,
           latest := some { at_ := pair.stamp, offset := pair.vehicleNs - (pair.stamp : Int), resid := 0 } }

/-- The servo as its sample is judged: a pair ends HOLDOVER (R31). -/
def ServoState.resumed (v : ServoState) : ServoState :=
  if v.state = .holdover then { v with state := .acquiring, lockRun := 0, outliers := 0 } else v

/-- The sample's offset against O_v. -/
def ServoState.residual (v : ServoState) (pair : SyncPair) : Int :=
  pair.vehicleNs - (pair.stamp : Int) - v.ov.getD (pair.vehicleNs - (pair.stamp : Int))

/-- The servo's state is no part of device time. -/
@[simp] theorem Dev_setServo_now (d : Dev) (v : ServoState) : (d.setServo v).now = d.now := rfl

section Pair

variable {d : Dev} {pair : SyncPair} (hup : d.v0.link = .up)

include hup

/-- The first valid pair captures O_v (R29). -/
theorem syncFollowUpReceived_freeRun (hfree : d.time.servo.state = .freeRun) :
    syncFollowUpReceived pair d = d.setServo { d.time.servo.received pair d.now with
      state := .acquiring, ov := some (pair.vehicleNs - (pair.stamp : Int)), err := 0,
      prev := some { at_ := pair.stamp, offset := pair.vehicleNs - (pair.stamp : Int), resid := 0 }, lockRun := 0,
      outliers := 0, fresh := true, steps := stepsSince pair.stamp d.time.freq d.time.servo.steps } := by
  simp [syncFollowUpReceived, hup, hfree, ServoState.received]

variable {v : ServoState} (hv : v = (d.time.servo.received pair d.now).resumed)
  (hstate : d.time.servo.state ≠ .freeRun)

include hv hstate

/-- Outside FREE_RUN the sample is kept while a capture is pending, and judged otherwise. -/
theorem syncFollowUpReceived_judged :
    syncFollowUpReceived pair d =
      if d.time.servo.capturePending = true then d.setServo v
      else if (d.setServo v).outlier pair.stamp (d.time.servo.residual pair) = true then
        if 4 ≤ v.outliers + 1 then vehicleStep (d.setServo v)
        else (d.setServo v).setServo
          (countLock d.now (d.time.servo.residual pair) { v with outliers := v.outliers + 1 })
      else acceptSample pair.stamp (pair.vehicleNs - (pair.stamp : Int)) (d.time.servo.residual pair)
        (d.setServo v) := by
  subst hv
  cases hs : d.time.servo.state with
  | freeRun => exact absurd hs hstate
  | acquiring => simp [syncFollowUpReceived, hup, hs, ServoState.received, ServoState.resumed, ServoState.residual]
  | locked => simp [syncFollowUpReceived, hup, hs, ServoState.received, ServoState.resumed, ServoState.residual]
  | holdover => simp [syncFollowUpReceived, hup, hs, ServoState.received, ServoState.resumed, ServoState.residual]

end Pair

/-- With a rate estimate a sample is an outlier where its innovation exceeds the step threshold (R33, R495). -/
theorem outlier_iff {d : Dev} {r : Int} {p : OffsetSample} (hprev : d.time.servo.prev = some p)
    (hrho : d.time.servo.rho = some r) (stamp : Nanos) (e : Int) :
    d.outlier stamp e = true ↔ stepNs d.image.link * 100000000000 <
      (innovation11 e p r (d.time.adjOver p.at_ stamp) stamp).natAbs := by
  simp [Dev.outlier, hprev, hrho]

/-! ### Announce, loss and saturation (R28, R30, R32, R33) -/

section Announce

variable {d : Dev} {gm : Nat} (hup : d.v0.link = .up)

include hup

theorem announceReceived_same (hgm : d.time.servo.gm = some gm) : announceReceived gm d = d := by
  simp [announceReceived, hup, hgm]

theorem announceReceived_first (hgm : d.time.servo.gm = none) :
    announceReceived gm d = d.setServo { d.time.servo with gm := some gm } := by
  simp [announceReceived, hup, hgm]

/-- A changed grandmaster clears the rate estimate, and is a step outside FREE_RUN. -/
theorem announceReceived_changed {g : Nat} (hgm : d.time.servo.gm = some g) (hne : g ≠ gm) :
    announceReceived gm d =
      if d.time.servo.state = .freeRun then
        d.setServo { d.time.servo with gm := some gm, rho := none, fresh := false }
      else vehicleStep (d.setServo { d.time.servo with gm := some gm, rho := none, fresh := false }) := by
  simp [announceReceived, hup, hgm, hne]

end Announce

theorem vehicleTimeLoss_due {d : Dev}
    (h : d.time.servo.lastSync + 3 * syncInterval d.image.link.logSync ≤ d.now ∨ d.v0.link ≠ .up ∨
      d.time.v0.asCapable = false) : vehicleTimeLoss d = loseVehicleTime d :=
  if_pos (by simpa [or_assoc] using h)

theorem servoSaturationSecond_due {d : Dev} (hsat : d.time.servo.saturated = true)
    (hstate : d.time.servo.state = .acquiring) (hdue : d.time.servo.satSince + secNs ≤ d.now) :
    servoSaturationSecond d =
      countSyncLoss (d.setServo { d.time.servo with satSince := d.time.servo.satSince + secNs }) :=
  if_pos (by simp [hsat, hstate, hdue])

/-- Settles O16: each clause is one case of the servo's judgement of a sample, or one of its events. An outlier
counts among the Syncs of the lock, or breaks their run, by log entry 195. -/
theorem vehicleTimeServo : Obligations.VehicleTimeServo := by
  unfold Obligations.VehicleTimeServo
  refine ⟨fun s pair hup hfree => ⟨_, act_next (syncFollowUpReceived_freeRun hup hfree), rfl, rfl, rfl, rfl, rfl⟩, ?_,
    fun d stamp e r p hprev hrho => outlier_iff hprev hrho stamp e,
    fun s gm hup => ⟨fun hgm => ?_, fun hgm => ?_, fun g hgm hne hfree => ?_, fun g hgm hne hstate => ?_⟩,
    fun s h => act_next (vehicleTimeLoss_due h),
    fun s hsat hstate hdue => act_next (servoSaturationSecond_due hsat hstate hdue)⟩
  · rintro s pair off e v1 v hup hstate rfl rfl rfl hv
    have hjudged := syncFollowUpReceived_judged hup hv hstate
    refine ⟨fun hpending => ?_, fun hpending hout hfew => ?_, fun hpending hout hmany => ?_, fun hpending hin => ?_⟩
    · exact act_next (by rw [hjudged, if_pos hpending])
    · exact act_next (by
        rw [hjudged, if_neg (by simp [hpending]), ServoState.residual, if_pos hout, if_neg (by omega)])
    · exact act_next (by
        rw [hjudged, if_neg (by simp [hpending]), ServoState.residual, if_pos hout, if_pos (by omega)])
    · exact act_next (by
        rw [hjudged, if_neg (by simp [hpending]), ServoState.residual, if_neg (by simp [hin])])
  · exact act_next (announceReceived_same hup hgm)
  · exact act_next (announceReceived_first hup hgm)
  · exact act_next (by rw [announceReceived_changed hup hgm hne, if_pos hfree])
  · exact act_next (by rw [announceReceived_changed hup hgm hne, if_neg hstate])

/-! ### The gPTP function of a port (R28, R29, R32, R36, R37) -/

theorem pdelayReqTimer_due {d : Dev} {p : GptpPort} (hruns : d.gptpRuns p = true)
    (hdue : (d.gptp p).lastReq + secNs ≤ d.now) :
    pdelayReqTimer p d = emit (.pdelayReq p) (d.setGptp p { d.gptp p with lastReq := d.now }) :=
  if_pos (by simp [hruns, hdue])

theorem pdelayReqReceived_runs {d : Dev} {p : GptpPort} (hruns : d.gptpRuns p = true) :
    pdelayReqReceived p d = emit (.pdelayResp p) d := if_pos hruns

/-- A response sets the port's delay and asCapable; asCapable becoming false on V0 loses vehicle time. -/
theorem pdelayRespReceived_runs {d : Dev} {p : GptpPort} (hruns : d.gptpRuns p = true) (linkDelay : Nat)
    (asCapable : Bool) :
    pdelayRespReceived p linkDelay asCapable d =
      if p = .v0 ∧ (d.gptp p).asCapable = true ∧ asCapable = false then
        loseVehicleTime (d.setGptp p { d.gptp p with linkDelay := linkDelay, asCapable := asCapable })
      else d.setGptp p { d.gptp p with linkDelay := linkDelay, asCapable := asCapable } := by
  cases p <;> simp [pdelayRespReceived, hruns]

theorem lidarGptpReceived_up {d : Dev} {n : Fin 8} (hup : (d.lidar n.val).link = .up) (kind : GptpKind) :
    lidarGptpReceived n kind d =
      satEvent (Config.barOf (1 + n.val)) (d.gptp (.lidar n)).ignored (d.gptp (.lidar n)).ignored.inc
        (d.setGptp (.lidar n) { d.gptp (.lidar n) with ignored := (d.gptp (.lidar n)).ignored.inc }) := if_pos hup

theorem v1GptpFrame_up {d : Dev} (hup : d.v1.link = .up) :
    v1GptpFrame d = satEvent (Config.barOf 0) d.time.v1Gptp d.time.v1Gptp.inc
      { d with time := { d.time with v1Gptp := d.time.v1Gptp.inc } } := if_pos hup

theorem lidarSyncSend_due {d : Dev} {n : Fin 8} (hruns : d.gptpRuns (.lidar n) = true)
    (hdue : (d.gptp (.lidar n)).lastSyncSent + d.lidarSyncNs n.val ≤ d.now) :
    lidarSyncSend n d = emit (.lidarSync n.val (d.now / secNs) (d.now % secNs))
      (d.setGptp (.lidar n) { d.gptp (.lidar n) with lastSyncSent := d.now }) :=
  if_pos (by simp [hruns, hdue])

theorem lidarAnnounceSend_due {d : Dev} {n : Fin 8} (hruns : d.gptpRuns (.lidar n) = true)
    (hdue : (d.gptp (.lidar n)).lastAnnounceSent + secNs ≤ d.now) :
    lidarAnnounceSend n d = emit (.lidarAnnounce n.val 246 248 0xA0)
      (d.setGptp (.lidar n) { d.gptp (.lidar n) with lastAnnounceSent := d.now }) :=
  if_pos (by simp [hruns, hdue])

/-- Settles O18: each command is the port's one effect where its gPTP function runs or its link is up. -/
theorem gptpPortsFollowTheirRoles : Obligations.GptpPortsFollowTheirRoles := by
  unfold Obligations.GptpPortsFollowTheirRoles
  exact ⟨fun s p hruns hdue => act_next (pdelayReqTimer_due hruns hdue),
    fun s p hruns => act_next (pdelayReqReceived_runs hruns),
    fun s p linkDelay asCapable hruns => act_next (pdelayRespReceived_runs hruns linkDelay asCapable),
    fun s n kind hup => act_next (lidarGptpReceived_up hup kind), fun s hup => act_next (v1GptpFrame_up hup)⟩

/-- Settles O17: the message carries the quotient and the remainder of device time by a second, whatever the servo
holds (R37); Announce, once a second with its fixed fields, carries no time (R36). -/
theorem lidarTimeIsDeviceTime : Obligations.LidarTimeIsDeviceTime := by
  unfold Obligations.LidarTimeIsDeviceTime
  exact ⟨fun s n hruns hdue => ⟨_, rfl, act_next (lidarSyncSend_due hruns hdue)⟩,
    fun s n hruns hdue => ⟨_, rfl, act_next (lidarAnnounceSend_due hruns hdue)⟩⟩

end Sys2Proof.Machine
end

section
/-!
The lidar ports (R36, R105 to R108).
-/

namespace Sys2Proof.Machine

open Sys2Proof

/-! ### Frames (R106 to R108) -/

section Frame

variable {d : Dev} {n : Fin 8} {frame : LidarFrame} {st : Nat} {e : StreamEntry} {f : LidarFields}
  (hentry : d.lidarEntry n.val = some (st, e, f)) (hup : (d.lidar n.val).link = .up)

include hentry hup

theorem lidarFrameReceived_badFcs (hfcs : frame.fcsOk = false) :
    lidarFrameReceived n frame d = dropFrame n.val d := by
  simp [lidarFrameReceived, hentry, hup, hfcs]

theorem lidarFrameReceived_elsewhere (hfcs : frame.fcsOk = true) (hport : frame.dest ≠ f.portMac)
    (hall : frame.dest ≠ 0xFFFFFFFFFFFF) (hgptp : frame.dest ≠ gptpMac) : lidarFrameReceived n frame d = d := by
  simp [lidarFrameReceived, hentry, hup, hfcs, hport, hall, hgptp]

theorem lidarFrameReceived_gptp (hfcs : frame.fcsOk = true) (htype : frame.etherType = 0x88F7) :
    lidarFrameReceived n frame d = d := by
  simp [lidarFrameReceived, hentry, hup, hfcs, htype]

/-- The port takes a frame for its own address, for all stations and for gPTP's group (R106). -/
def TakesDest (f : LidarFields) (dest : Nat) : Prop :=
  dest = f.portMac ∨ dest = 0xFFFFFFFFFFFF ∨ dest = gptpMac

variable (hfcs : frame.fcsOk = true) (hdest : TakesDest f frame.dest) (htype : frame.etherType ≠ 0x88F7)

include hfcs hdest htype

theorem lidarFrameReceived_noRoom (hfits : frame.fits = false) :
    lidarFrameReceived n frame d = dropFrame n.val d := by
  rcases hdest with h | h | h <;> simp [lidarFrameReceived, hentry, hup, hfcs, htype, h, hfits]

variable {q : ParserDesc} (hfits : frame.fits = true) (hparser : assoc f.parser d.image.parsers = some q)

include hfits hparser

theorem lidarFrameReceived_parsed {ps : List Decoded} (hdecode : decodePacket q frame = some ps) :
    lidarFrameReceived n frame d = takePacket st e f frame.arrival ps d := by
  rcases hdest with h | h | h <;>
    simp [lidarFrameReceived, hentry, hup, hfcs, htype, h, hfits, hparser, hdecode]

theorem lidarFrameReceived_rejected (hdecode : decodePacket q frame = none) :
    lidarFrameReceived n frame d = dropParse n.val d := by
  rcases hdest with h | h | h <;>
    simp [lidarFrameReceived, hentry, hup, hfcs, htype, h, hfits, hparser, hdecode]

end Frame

/-! ### The link (R105) -/

/-- A lost link retrains with asCapable false, and is counted. -/
def loseLidarLink (n : Fin 8) (d : Dev) : Dev :=
  bump (barLid n.val + 0x04) (d.lidar n.val).linkLoss 1
    (fun c d => modLidar n.val (fun x => { x with linkLoss := c }) d)
    (modLidar n.val (fun x => { x with link := .training, gptp := { x.gptp with asCapable := false } }) d)

theorem lidarLinkDown_up {d : Dev} {n : Fin 8} (hup : (d.lidar n.val).link = .up) :
    lidarLinkDown n d =
      conditionEvent (barLid n.val + 0x04) ((loseLidarLink n d).lidar n.val).linkLoss.val.toNat (loseLidarLink n d) :=
  if_neg (by simp [hup])

theorem lidarLinkDown_notUp {d : Dev} {n : Fin 8} (hdown : (d.lidar n.val).link ≠ .up) : lidarLinkDown n d = d :=
  if_pos hdown

theorem lidarLinkUp_training {d : Dev} {n : Fin 8} (htraining : (d.lidar n.val).link = .training) :
    lidarLinkUp n d = modLidar n.val (fun x => { x with link := .up }) d := if_pos htraining

/-- Settles O20: each clause is one branch of the port's reception of a frame, or a change of its link; none of
them asks for the stream's state (log entry 56). -/
theorem lidarPortsTakeFrames : Obligations.LidarPortsTakeFrames := by
  unfold Obligations.LidarPortsTakeFrames
  refine ⟨fun s n frame st e f hentry hup => ⟨fun hfcs => ?_, fun hfcs hdest => ⟨fun htype => ?_,
      fun htype hfits => ?_, fun q ps htype hfits hparser hdecode => ?_, fun q htype hfits hparser hdecode => ?_⟩,
      fun hfcs hport hall hgptp => ?_⟩,
    ?_, fun s n hdown => ?_, fun s n htraining => ?_⟩
  · exact act_next (lidarFrameReceived_badFcs hentry hup hfcs)
  · exact act_next (lidarFrameReceived_gptp hentry hup hfcs htype)
  · exact act_next (lidarFrameReceived_noRoom hentry hup hfcs hdest htype hfits)
  · exact act_next (lidarFrameReceived_parsed hentry hup hfcs hdest htype hfits hparser hdecode)
  · exact act_next (lidarFrameReceived_rejected hentry hup hfcs hdest htype hfits hparser hdecode)
  · exact act_next (lidarFrameReceived_elsewhere hentry hup hfcs hport hall hgptp)
  · rintro s n _ hup rfl
    exact act_next (lidarLinkDown_up hup)
  · exact act_next (lidarLinkDown_notUp hdown)
  · exact act_next (lidarLinkUp_training htraining)

end Sys2Proof.Machine
end

section
/-!
The inertial ports (R44, R45, R117, R118).
-/

namespace Sys2Proof.Machine

open Sys2Proof

/-! ### A port without a stream -/

section NoStream

variable {d : Dev} {n : Fin 4} (hnone : d.imuStream n.val = none)

include hnone

theorem imuSyncPulse_noStream : imuSyncPulse n d = d := by simp [imuSyncPulse, hnone]

theorem imuDrdyEdge_noStream : imuDrdyEdge n d = d := by simp [imuDrdyEdge, hnone]

theorem imuTransactionDone_noStream (payload : List Byte) : imuTransactionDone n payload d = d := by
  simp [imuTransactionDone, hnone]

theorem imuMissedSample_noStream : imuMissedSample n d = d := by simp [imuMissedSample, hnone]

end NoStream

section Stream

variable {d : Dev} {n : Fin 4} {k : Nat} {e : StreamEntry} {f : ImuFields}
  (hstream : d.imuStream n.val = some (k, e, f))

include hstream

/-! ### Sync pulses (R44) -/

/-- A pulse due and not yet given. -/
theorem imuSyncPulse_due {t : Nat} (hsync : f.syncMode = true) (hdue : d.pulseDue f = some t)
    (hnew : ∀ q, (d.imu n.val).pulse = some q → q < t) :
    imuSyncPulse n d = emit (.imuSync n.val (if f.syncWidthUs = 0 then 10 else f.syncWidthUs) f.syncPolHigh)
      (modImu n.val (fun x => { x with pulse := some t, pulseTaken := false }) d) := by
  cases hpulse : (d.imu n.val).pulse with
  | none => simp [imuSyncPulse, hstream, hdue, hsync, hpulse]
  | some q => simp [imuSyncPulse, hstream, hdue, hsync, hpulse, Nat.not_le.mpr (hnew q hpulse)]

theorem imuSyncPulse_idle (hidle : f.syncMode = false ∨ d.pulseDue f = none ∨
      ∃ t q, d.pulseDue f = some t ∧ (d.imu n.val).pulse = some q ∧ t ≤ q) : imuSyncPulse n d = d := by
  rcases hidle with hsync | hdue | ⟨t, q, hdue, hpulse, hgiven⟩
  · cases hdue : d.pulseDue f <;> simp [imuSyncPulse, hstream, hdue, hsync]
  · simp [imuSyncPulse, hstream, hdue]
  · simp [imuSyncPulse, hstream, hdue, hpulse, hgiven]

/-! ### DRDY edges (R45, R117) -/

/-- The sample time that a DRDY edge gives its transaction (R45, R117). -/
def edgeTime (n : Nat) (e : StreamEntry) (f : ImuFields) (d : Dev) : Option Int :=
  if f.syncMode then (drdyPulse f (d.imu n) d.now).map (fun t => (t : Int) + e.declLatNs)
  else some ((d.now : Int) - e.declLatNs)

/-- The device once a DRDY edge has taken its pulse, or has been counted as an orphan (R45). -/
def edgeSeen (n : Nat) (f : ImuFields) (d : Dev) : Dev :=
  if f.syncMode then
    if (drdyPulse f (d.imu n) d.now).isSome then modImu n (fun x => { x with pulseTaken := true }) d
    else bump (barImu n + 0x08) (d.imu n).orphan 1 (fun c d => modImu n (fun x => { x with orphan := c }) d) d
  else d

theorem imuDrdyEdge_starts (hfree : (d.imu n.val).trans = none) :
    imuDrdyEdge n d = emit (.spi n.val f.cmd f.rxLen) (modImu n.val (fun x => { x with
      trans := some ((edgeTime n.val e f d).map (·.toNat), (edgeSeen n.val f d).now) }) (edgeSeen n.val f d)) := by
  cases hsync : f.syncMode with
  | false => simp [imuDrdyEdge, hstream, hfree, edgeTime, edgeSeen, hsync]
  | true =>
    cases hpulse : drdyPulse f (d.imu n.val) d.now <;>
      simp [imuDrdyEdge, hstream, hfree, edgeTime, edgeSeen, hsync, hpulse]

theorem imuDrdyEdge_overrun (hbusy : (d.imu n.val).trans.isSome = true) :
    imuDrdyEdge n d = bump (barImu n.val + 0x0C) (d.imu n.val).overrun 1
      (fun c d => modImu n.val (fun x => { x with overrun := c }) d) (edgeSeen n.val f d) := by
  cases hsync : f.syncMode with
  | false => simp [imuDrdyEdge, hstream, hbusy, edgeSeen, hsync]
  | true =>
    cases hpulse : drdyPulse f (d.imu n.val) d.now <;>
      simp [imuDrdyEdge, hstream, hbusy, edgeSeen, hsync, hpulse]

/-! ### Transactions (R118) and missed samples (R45) -/

theorem imuTransactionDone_timed {t a : Nat} (htrans : (d.imu n.val).trans = some (some t, a)) (payload : List Byte) :
    imuTransactionDone n payload d =
      imuSample n.val k f t a payload (modImu n.val (fun x => { x with trans := none }) d) := by
  simp [imuTransactionDone, hstream, htrans]

theorem imuTransactionDone_untimed {a : Nat} (htrans : (d.imu n.val).trans = some (none, a)) (payload : List Byte) :
    imuTransactionDone n payload d = modImu n.val (fun x => { x with trans := none }) d := by
  simp [imuTransactionDone, hstream, htrans]

theorem imuTransactionDone_idle (htrans : (d.imu n.val).trans = none) (payload : List Byte) :
    imuTransactionDone n payload d = d := by
  simp [imuTransactionDone, hstream, htrans]

theorem imuMissedSample_due {t : Nat} (hpulse : (d.imu n.val).pulse = some t) (hsync : f.syncMode = true)
    (htaken : (d.imu n.val).pulseTaken = false) (hpast : secNs < 2 * (d.now - t) * f.syncRateHz) :
    imuMissedSample n d = bump (barImu n.val + 0x04) (d.imu n.val).missed 1
      (fun c d => modImu n.val (fun x => { x with missed := c, pulseTaken := true }) d) d := by
  simp [imuMissedSample, hstream, hpulse, hsync, htaken, halfPeriod, hpast]

theorem imuMissedSample_idle (hidle : f.syncMode = false ∨ (d.imu n.val).pulse = none ∨
      (d.imu n.val).pulseTaken = true ∨
      ∃ t, (d.imu n.val).pulse = some t ∧ 2 * (d.now - t) * f.syncRateHz ≤ secNs) : imuMissedSample n d = d := by
  cases hpulse : (d.imu n.val).pulse with
  | none => simp [imuMissedSample, hstream, hpulse]
  | some t =>
    rw [hpulse] at hidle
    rcases hidle with hsync | hno | htaken | ⟨t', ht, hin⟩
    · simp [imuMissedSample, hstream, hpulse, hsync]
    · cases hno
    · simp [imuMissedSample, hstream, hpulse, htaken]
    · cases ht
      simp [imuMissedSample, hstream, hpulse, halfPeriod, hin]

end Stream

/-- Settles O24: each clause is one case of a pulse, an edge, a transaction or a missed sample. -/
theorem imuPortsSampleAndCount : Obligations.ImuPortsSampleAndCount := by
  unfold Obligations.ImuPortsSampleAndCount
  refine ⟨fun s n k t e f hstream hsync hdue hnew => act_next (imuSyncPulse_due hstream hsync hdue hnew),
    fun s n k e f hstream hsync => ?_, ?_,
    fun s n k t a e f payload hstream htrans => act_next (imuTransactionDone_timed hstream htrans payload),
    fun s n k a e f payload hstream htrans => act_next (imuTransactionDone_untimed hstream htrans payload),
    fun s n k t e f hstream hpulse hsync htaken hpast =>
      act_next (imuMissedSample_due hstream hpulse hsync htaken hpast),
    fun s n payload hnone => ⟨act_next (imuSyncPulse_noStream hnone), act_next (imuDrdyEdge_noStream hnone),
      act_next (imuTransactionDone_noStream hnone payload), act_next (imuMissedSample_noStream hnone)⟩,
    fun s n k e f payload hstream => ⟨fun hidle => act_next (imuSyncPulse_idle hstream hidle),
      fun htrans => act_next (imuTransactionDone_idle hstream htrans payload),
      fun hidle => act_next (imuMissedSample_idle hstream hidle)⟩⟩
  · have hseen : edgeSeen n.val f s.dev = s.dev := by simp [edgeSeen, hsync]
    have htime : edgeTime n.val e f s.dev = some ((s.dev.now : Int) - e.declLatNs) := by simp [edgeTime, hsync]
    refine ⟨fun hfree => act_next ?_, fun hbusy => act_next ?_⟩
    · rw [imuDrdyEdge_starts hstream hfree, hseen, htime, Option.map_some]
    · rw [imuDrdyEdge_overrun hstream hbusy, hseen]
  · intro s n k e f time d1 hstream hsync hedge
    have hseen : edgeTime n.val e f s.dev = time ∧ edgeSeen n.val f s.dev = d1 := by
      rcases hedge with ⟨p, hpulse, rfl, rfl⟩ | ⟨hpulse, rfl, rfl⟩ <;> simp [edgeTime, edgeSeen, hsync, hpulse]
    obtain ⟨rfl, rfl⟩ := hseen
    exact ⟨fun hfree => act_next (imuDrdyEdge_starts hstream hfree),
      fun hbusy => act_next (imuDrdyEdge_overrun hstream hbusy)⟩

end Sys2Proof.Machine
end

section
/-!
The CAN buses and the GNSS port (R46 to R48, R120 to R124).
-/

namespace Sys2Proof.Machine

open Sys2Proof

/-! ### CAN (R46, R120, R121) -/

section Can

variable {d : Dev} {n : Fin 4}

/-- The bus's error state after a frame. -/
def noteBus (n : Nat) (frame : CanFrame) (d : Dev) : Dev :=
  modCan n (fun x => { x with rec_ := frame.rec_, errPassive := frame.errPassive }) d

theorem canFrameReceived_enabled {b : CanBus} (hbus : assoc n.val d.image.streams.buses = some b) (frame : CanFrame) :
    canFrameReceived n frame d = d.image.streams.entries.foldl (canDeliver n.val frame)
      (if b.restricted then emit (.canAck n.val) (noteBus n.val frame d) else noteBus n.val frame d) := by
  simp only [canFrameReceived, hbus]
  cases b.restricted <;> rfl

theorem canProtocolError_enabled (hbus : (assoc n.val d.image.streams.buses).isSome = true) (rec_ : BitVec 8)
    (errPassive : Bool) :
    canProtocolError n rec_ errPassive d = bump (barCan n.val + 0x04) (d.can n.val).proto 1
      (fun c d => modCan n.val (fun x => { x with proto := c, rec_ := rec_, errPassive := errPassive }) d) d :=
  if_neg (by simp [Option.isNone_iff_eq_none, Option.isSome_iff_ne_none.mp hbus])

theorem canFrameReceived_disabled (hbus : assoc n.val d.image.streams.buses = none) (frame : CanFrame) :
    canFrameReceived n frame d = d := by
  simp [canFrameReceived, hbus]

theorem canProtocolError_disabled (hbus : assoc n.val d.image.streams.buses = none) (rec_ : BitVec 8)
    (errPassive : Bool) : canProtocolError n rec_ errPassive d = d := by
  simp [canProtocolError, hbus]

end Can

/-! ### GNSS sentences (R123, R124) -/

/-- The framing errors before a sentence are counted. -/
def countFraming (q : Sentence) (d : Dev) : Dev :=
  if q.framingErrors = 0 then d
  else bump (barGnss + 0x04) d.ports.gnss.framing q.framingErrors
    (fun c d => modGnss (fun x => { x with framing := c }) d) d

/-- The fix that a sentence reports is noted. -/
def noteFix (q : Sentence) (d : Dev) : Dev :=
  match q.kind with
  | .gga => modGnss (fun x => { x with fixQuality := BitVec.ofNat 4 q.fixQuality }) d
  | .rmc => modGnss (fun x => { x with rmcValid := q.rmcActive }) d
  | _ => d

/-- A sentence reports that there is no fix. -/
def noFix (q : Sentence) : Bool :=
  match q.kind with
  | .gga => decide (q.fixQuality = 0)
  | .rmc => !q.rmcActive
  | _ => false

theorem gnssSentenceReceived_silent {d : Dev} (h : d.gnssStream = none ∨ d.image.streams.gnssEn = false)
    (q : Sentence) : gnssSentenceReceived q d = d := by
  cases hstream : d.gnssStream with
  | none => simp [gnssSentenceReceived, hstream]
  | some x =>
    have hoff := h.resolve_left (by simp [hstream])
    simp [gnssSentenceReceived, hstream, hoff]

section Sentences

variable {d : Dev} {q : Sentence} {n : Nat} {e : StreamEntry} {f : GnssFields}
  (hstream : d.gnssStream = some (n, e, f)) (hon : d.image.streams.gnssEn = true)

include hstream hon

theorem gnssSentenceReceived_otherKind (hkind : gnssEnabled f q.kind = false) :
    gnssSentenceReceived q d = countFraming q d := by
  simp [gnssSentenceReceived, hstream, hon, hkind, countFraming]

variable (hkind : gnssEnabled f q.kind = true)

include hkind

theorem gnssSentenceReceived_rejected (hbad : q.checksumOk = false ∨ 82 < q.length ∨ q.parsable = false) :
    gnssSentenceReceived q d = bump (barGnss + 0x08) (countFraming q d).ports.gnss.sentenceReject 1
      (fun c d => modGnss (fun x => { x with sentenceReject := c }) d) (countFraming q d) := by
  have hguard : (!q.checksumOk || decide (82 < q.length) || !q.parsable) = true := by
    simpa [or_assoc] using hbad
  simp only [gnssSentenceReceived, hstream, hon, hkind, hguard, countFraming, Bool.not_true, Bool.false_eq_true,
    if_false, if_true]

/-- A readable sentence of an enabled kind is a sample, and pairs with the PPS that waits. -/
theorem gnssSentenceReceived_taken (hsum : q.checksumOk = true) (hlength : q.length ≤ 82)
    (hparsable : q.parsable = true) :
    gnssSentenceReceived q d = gnssPair n f q (egoSample n
      ((noteFix q (countFraming q d)).corrected n ((q.stamp : Int) - e.declLatNs) q.stamp) q.stamp
      { stream := n, t := 0, arrival := 0, values := [], geo := if noFix q then [] else q.values }
      (noteFix q (countFraming q d))) := by
  have hguard : (!q.checksumOk || decide (82 < q.length) || !q.parsable) = false := by
    simp [hsum, hparsable, hlength]
  simp only [gnssSentenceReceived, hstream, hon, hkind, hguard, Bool.not_true, Bool.false_eq_true, if_false]
  rfl

end Sentences

/-! ### The PPS (R47, R48, R124) -/

theorem gnssUnpaired_time (d : Dev) : (gnssUnpaired d).time = d.time :=
  ((gnssUnpaired_only rfl (OnlyIn.refl [.ports, .host, .health, .sent] d)).keep .time (by decide)).symm

/-- A PPS edge publishes its stamp, and leaves the rest of the time base. -/
theorem gnssPpsEdge_time (d : Dev) :
    (gnssPpsEdge d).time = { d.time with ppsStamp := d.now, ppsMissing := false } := by
  dsimp only [gnssPpsEdge]
  split
  · split
    · exact gnssUnpaired_time _
    · rfl
  · rfl

theorem ppsMissingTimeout_due {d : Dev} (h : d.time.ppsStamp + 1200 * msNs ≤ d.now) :
    ppsMissingTimeout d = { d with time := { d.time with ppsMissing := true } } := if_pos (by simpa using h)

theorem ppsMissingTimeout_early {d : Dev} (h : d.now < d.time.ppsStamp + 1200 * msNs) : ppsMissingTimeout d = d :=
  if_neg (by simpa using h)

theorem gnssPairTimeout_due {d : Dev} {p : Nat} (hwaits : d.ports.gnss.pendingPps = some p)
    (h : p + secNs ≤ d.now) : gnssPairTimeout d = gnssUnpaired d := by
  simp [gnssPairTimeout, hwaits, h]

theorem gnssPairTimeout_early {d : Dev} {p : Nat} (hwaits : d.ports.gnss.pendingPps = some p)
    (h : d.now < p + secNs) : gnssPairTimeout d = d := by
  simp [gnssPairTimeout, hwaits, Nat.not_le.mpr h]

theorem gnssPairTimeout_idle {d : Dev} (h : d.ports.gnss.pendingPps = none) : gnssPairTimeout d = d := by
  simp [gnssPairTimeout, h]

/-- Settles O25: each clause is one case of a frame, a sentence, an edge or a timer. -/
theorem canAndGnssInputs : Obligations.CanAndGnssInputs := by
  unfold Obligations.CanAndGnssInputs
  refine ⟨?_, fun s n rec_ errPassive hbus => act_next (canProtocolError_enabled hbus rec_ errPassive), ?_,
    fun s => ⟨_, rfl, by simp [gnssPpsEdge_time]⟩, fun s h => act_next (ppsMissingTimeout_due h),
    fun s h => act_next (ppsMissingTimeout_early h),
    fun s p hwaits => ⟨fun h => act_next (gnssPairTimeout_due hwaits h),
      fun h => act_next (gnssPairTimeout_early hwaits h)⟩,
    fun s h => act_next (gnssPairTimeout_idle h),
    fun s n frame rec_ errPassive hbus => ⟨act_next (canFrameReceived_disabled hbus frame),
      act_next (canProtocolError_disabled hbus rec_ errPassive)⟩,
    fun s q h => act_next (gnssSentenceReceived_silent h q)⟩
  · rintro s n frame b _ hbus rfl
    have hframe := canFrameReceived_enabled hbus frame
    refine ⟨fun hrestricted => act_next ?_, fun hrestricted => act_next ?_⟩
    · rw [hframe, if_pos hrestricted]
      rfl
    · rw [hframe, if_neg (by simp [hrestricted])]
      rfl
  · rintro s q n e f _ d1 absent hstream hon rfl hd1 habsent
    have hfix : d1 = noteFix q (countFraming q s.dev) := by
      subst hd1
      unfold noteFix
      cases q.kind <;> rfl
    have hnone : absent = noFix q := by
      subst habsent
      unfold noFix
      cases q.kind <;> rfl
    subst hfix hnone
    exact ⟨fun hkind => act_next (gnssSentenceReceived_otherKind hstream hon hkind),
      fun hkind hbad => act_next (gnssSentenceReceived_rejected hstream hon hkind hbad),
      fun hkind hsum hlength hparsable =>
        act_next (gnssSentenceReceived_taken hstream hon hkind hsum hlength hparsable)⟩

end Sys2Proof.Machine
end

section
/-!
The camera ports' frames (R40, R63, R81 to R83, R87, R92 to R99): triggers, packets, Percale's bands and the exposure
loop.
-/

namespace Sys2Proof.Machine

open Sys2Proof

/-! ### Triggers (R40, R87, R92) -/

/-- The exposure and gain of a port's next frame. -/
def nextExposure (c : Nat) (r : CameraPort) (v : Nanos) (d : Dev) : Nat × Nat :=
  frameExposure d r (d.camera c) v (d.camera c).trigSecond

/-- t_trig of a port's next frame. -/
def nextTrigger (c : Nat) (r : CameraPort) (v : Nanos) (d : Dev) : Int :=
  trigAt r d.time.pNs v (d.camera c).trigSecond (nextExposure c r v d).1

/-- The frame after a port's next one comes next. -/
def advanceTrigger (c : Nat) (f : CameraFields) (d : Dev) : Dev :=
  modCamera c (fun y => { y with
    trigTick := (nextFrame f.framesPerTick (d.camera c).trigTick (d.camera c).trigSecond).1
    trigSecond := (nextFrame f.framesPerTick (d.camera c).trigTick (d.camera c).trigSecond).2 }) d

section Trigger

variable {d : Dev} {port : Fin 16} {r : CameraPort} {n : Nat} {e : StreamEntry} {f : CameraFields} {v : Nat}
  (hrec : d.camRec port.val = some r) (hstream : d.camStream port.val = some (n, e, f))
  (hvalid : d.validAt (d.camera port.val).trigTick = some v) (hbegun : d.time.begun = true)
  (hmode : (d.stream n).mode ≠ .disabled)
  (hdue : nextTrigger port.val r v d - halfPs r.uplinkLatNs ≤ halfPs d.now)

include hrec hstream hvalid hbegun hmode hdue

theorem triggerSend_due :
    triggerSend port d =
      if (d.camera port.val).link ≠ .up then
        bump (barCam port.val + 0x1C) (d.camera port.val).trigSkip 1
          (fun k d => modCamera port.val (fun y => { y with trigSkip := k }) d) (advanceTrigger port.val f d)
      else emit (.trigger port.val (nsOf (nextTrigger port.val r v d)) (if r.trigWidthUs = 0 then 10 else r.trigWidthUs))
        (modCamera port.val (fun q => { q with
          sent := q.sent ++ [((d.camera port.val).trigTick, (d.camera port.val).trigSecond, nextTrigger port.val r v d,
            (nextExposure port.val r v d).1)] }) (advanceTrigger port.val f d)) := by
  have hgo : ¬ (!d.time.begun || decide (halfPs d.now < nextTrigger port.val r v d - halfPs r.uplinkLatNs) ||
      decide ((d.stream n).mode = .disabled)) = true := by
    simp [hbegun, hmode, hdue]
  simp only [triggerSend, hrec, hstream, hvalid]
  exact if_neg hgo

end Trigger

/-! ### Packets (R81 to R83) -/

/-- A corrected header is counted. -/
def countCorrected (c : Nat) (pkt : CsiPacket) (d : Dev) : Dev :=
  if pkt.ecc = .corrected then
    bump (barCam c + 0x0C) (d.camera c).eccCorr 1 (fun k d => modCamera c (fun y => { y with eccCorr := k }) d) d
  else d

theorem csi2PacketReceived_notUp {d : Dev} {port : Fin 16} (hdown : (d.camera port.val).link ≠ .up) (pkt : CsiPacket) :
    csi2PacketReceived port pkt d = d := if_pos hdown

section Packet

variable {d : Dev} {port : Fin 16} {pkt : CsiPacket} {r : CameraPort} {n : Nat} {e : StreamEntry} {f : CameraFields}
  (hup : (d.camera port.val).link = .up) (hrec : d.camRec port.val = some r)
  (hstream : d.camStream port.val = some (n, e, f))

include hup hrec hstream

theorem csi2PacketReceived_uncorrectable (hecc : pkt.ecc = .uncorrectable) :
    csi2PacketReceived port pkt d = dropPacket port.val d := by
  simp [csi2PacketReceived, hup, hrec, hstream, hecc]

/-- A readable packet of a mapped channel goes by its data type. -/
theorem csi2PacketReceived_mapped {i : Nat} (hecc : pkt.ecc ≠ .uncorrectable)
    (hchannel : f.vcMap.findIdx? (· = pkt.vc) = some i) :
    csi2PacketReceived port pkt d =
      if pkt.dataType = 0x00 then
        (if i = 0 then frameStart port.val n f r pkt.arrival (countCorrected port.val pkt d)
        else countCorrected port.val pkt d)
      else if pkt.dataType = 0x01 then
        (if i + 1 = f.vcMap.length then frameEnd port.val f (countCorrected port.val pkt d)
        else countCorrected port.val pkt d)
      else if pkt.dataType = 0x02 || pkt.dataType = 0x03 then countCorrected port.val pkt d
      else if pkt.dataType = f.dataType then imageRow port.val n i e f r pkt (countCorrected port.val pkt d)
      else if pkt.dataType = 0x12 && pkt.crcOk then countCorrected port.val pkt d
      else dropPacket port.val (countCorrected port.val pkt d) := by
  simp only [csi2PacketReceived, hup, hrec, hstream, hecc, hchannel, countCorrected, ne_eq, not_true_eq_false, if_false]

end Packet

/-! ### Percale's bands (R94, R95) -/

/-- A band that was on time, not yet written, and whose rows have come is ready for its tick. -/
theorem ready_onTime {x : CamFrame} {f : CameraFields} {band tick : Nat} (hnew : x.done.contains band = false)
    (hneeded : x.hasNeeded f band = true) (htick : assoc band x.onTime = some tick) : x.ready f band = some tick := by
  rw [CamFrame.ready, hnew, hneeded, htick]
  rfl

/-- Of a frame of which no more comes every needed row has come. -/
theorem ready_ended (x : CamFrame) (f : CameraFields) (band : Nat) :
    CamFrame.ready { x with ended := true } f band = if x.done.contains band then none else assoc band x.onTime := by
  simp [CamFrame.ready, CamFrame.hasNeeded]

/-- A frame with no band ready offers Percale none. -/
theorem bind_ready_none {frame : Option CamFrame} {f : CameraFields} {band : Nat}
    (h : ∀ y, frame = some y → y.ready f band = none) :
    frame.bind (fun x => (x.ready f band).map (fun k => (x, k))) = none := by
  simpa using h

section Band

variable {d : Dev} {port : Fin 16} {band : Nat} {r : CameraPort} {n : Nat} {e : StreamEntry} {f : CameraFields}
  (hrec : d.camRec port.val = some r) (hstream : d.camStream port.val = some (n, e, f))

include hrec hstream

theorem percaleBandDone_current {x : CamFrame} {tick : Nat} (hframe : (d.camera port.val).frame = some x)
    (hready : x.ready f band = some tick) (dests : List (Nat × Nat)) :
    percaleBandDone port band dests d =
      modCamera port.val (fun y => { y with frame := some { x with done := band :: x.done } })
        (writeFrameBand port.val r f x band tick dests d) := by
  simp [percaleBandDone, hrec, hstream, hframe, hready]

variable (hcurrent : ∀ y, (d.camera port.val).frame = some y → y.ready f band = none)

include hcurrent

theorem percaleBandDone_previous {x : CamFrame} {tick : Nat} (hframe : (d.camera port.val).lastFrame = some x)
    (hnew : x.done.contains band = false) (htick : assoc band x.onTime = some tick) (dests : List (Nat × Nat)) :
    percaleBandDone port band dests d =
      modCamera port.val (fun y => { y with lastFrame := some { x with done := band :: x.done } })
        (writeFrameBand port.val r f x band tick dests d) := by
  have hready : CamFrame.ready { x with ended := true } f band = some tick := by
    rw [ready_ended, hnew, htick]
    rfl
  simp only [percaleBandDone, hrec, hstream, bind_ready_none hcurrent, hframe, Option.bind_some, hready,
    Option.map_some]

theorem percaleBandDone_idle
    (hlast : ∀ y, (d.camera port.val).lastFrame = some y → y.done.contains band = true ∨ assoc band y.onTime = none)
    (dests : List (Nat × Nat)) : percaleBandDone port band dests d = d := by
  have hprevious : (d.camera port.val).lastFrame.bind
      (fun x => (CamFrame.ready { x with ended := true } f band).map (fun k => (x, k))) = none := by
    cases hframe : (d.camera port.val).lastFrame with
    | none => rfl
    | some y =>
      rcases hlast y hframe with hdone | hlate
      · rw [Option.bind_some, ready_ended, if_pos hdone]
        rfl
      · simp [ready_ended, hlate]
  simp only [percaleBandDone, hrec, hstream, bind_ready_none hcurrent, hprevious]

end Band

/-! ### Statistics and the exposure loop (R96 to R99) -/

theorem statisticsComplete_idle {d : Dev} {port : Fin 16} (h : (d.camera port.val).frame = none ∨
      ∃ x, (d.camera port.val).frame = some x ∧ (x.triggered = false ∨ x.metered = true)) :
    statisticsComplete port d = d := by
  rcases h with hnone | ⟨x, hframe, hdone⟩
  · simp [statisticsComplete, hnone]
  · cases hrec : d.camRec port.val with
    | none => simp [statisticsComplete, hframe, hrec]
    | some r =>
      cases hstream : d.camStream port.val with
      | none => simp [statisticsComplete, hframe, hrec, hstream]
      | some y => rcases hdone with h | h <;> simp [statisticsComplete, hframe, hrec, hstream, h]

/-- The statistics of a frame are kept, once. -/
def keepStatistics (c : Nat) (r : CameraPort) (f : CameraFields) (x : CamFrame) (d : Dev) : Dev :=
  modCamera c (fun y => { y with stats := (rawFrame r f x).stats, frame := some { x with metered := true } }) d

theorem statisticsComplete_closed {d : Dev} {port : Fin 16} {x : CamFrame} {r : CameraPort} {n : Nat} {e : StreamEntry}
    {f : CameraFields} (hframe : (d.camera port.val).frame = some x) (hrec : d.camRec port.val = some r)
    (hstream : d.camStream port.val = some (n, e, f)) (htriggered : x.triggered = true) (hnew : x.metered = false)
    (hclosed : bandCount f ≤ x.closed.length) :
    statisticsComplete port d =
      loopDecision port.val r n e f (rawFrame r f x).stats (keepStatistics port.val r f x d) := by
  simp [statisticsComplete, hframe, hrec, hstream, htriggered, hnew, Nat.not_lt.mpr hclosed, keepStatistics]

/-- The exposure and gain that the loop wants for the next frame (R97). -/
def wantedExposure (r : CameraPort) (e : StreamEntry) (f : CameraFields) (stats : FrameStats) (s : CameraState) :
    Nat × Nat :=
  splitProduct r (expGate e f r) s.expNs s.gain
    (stepProduct (s.expNs * s.gain) r.targetLuma stats.metered r.stepEv16)

/-- The next white-balance gain of a colour (R99): kept where fewer than 16 zones have light, or of a camera without
colour. -/
def nextBalance (r : CameraPort) (f : CameraFields) (stats : FrameStats) (colour : List Nat) (gain : Nat) : Nat :=
  if zonesIn stats.zoneLuma < 16 ∨ f.cfa = 0 then gain
  else moveGain gain (grayGain (zoneSum stats.zoneLuma stats.zoneG) (zoneSum stats.zoneLuma colour)) r.wbStep

theorem loopDecision_taken {d : Dev} {c : Nat} {n : Nat} {r : CameraPort} {e : StreamEntry} {f : CameraFields}
    (stats : FrameStats) (hup : (d.camera c).link = .up) (hmode : (d.stream n).mode ≠ .disabled) :
    loopDecision c r n e f stats d =
      if (d.camera c).job = .idle then
        startExposure c r 0 (d.setCamera c { d.camera c with
          want := some (wantedExposure r e f stats (d.camera c))
          wbNextR := nextBalance r f stats stats.zoneR (d.camera c).wbNextR
          wbNextB := nextBalance r f stats stats.zoneB (d.camera c).wbNextB })
      else d.setCamera c { d.camera c with
        wantNext := some (wantedExposure r e f stats (d.camera c))
        wbNextR := nextBalance r f stats stats.zoneR (d.camera c).wbNextR
        wbNextB := nextBalance r f stats stats.zoneB (d.camera c).wbNextB } := by
  have hbalance (colour : List Nat) (gain : Nat) : nextBalance r f stats colour gain =
      if (decide (16 ≤ zonesIn stats.zoneLuma) && decide (f.cfa ≠ 0)) = true then
        moveGain gain (grayGain (zoneSum stats.zoneLuma stats.zoneG) (zoneSum stats.zoneLuma colour)) r.wbStep
      else gain := by
    unfold nextBalance
    split
    · next hfew => rw [if_neg (by simp; omega)]
    · next hlight => rw [if_pos (by simp; omega)]
  simp only [loopDecision, hup, hmode, hbalance, wantedExposure]
  rfl

/-- A dark frame moves the exposure-gain product up by the whole step (R97). -/
theorem stepProduct_dark (product target step : Nat) :
    stepProduct product target 0 step =
      divRound 21 (product * (2 ^ (step / 16) * (exp2At 256 (((step % 16 : Nat) * 2 ^ 252 : Nat) : Int)).toNat))
        (2 ^ 256) := by
  simp [stepProduct]

/-- The largest step of a white-balance gain, in 1/256 of a unit (R99). -/
theorem moveGain_bounds (gain target step : Nat) :
    256 * moveGain gain target step ≤ 256 * gain + gain * step ∧
      (256 * gain ≤ 256 * moveGain gain target step + gain * step ∨ moveGain gain target step = 0xFFFF) := by
  dsimp only [moveGain]
  generalize gain * step = p
  omega

/-- Settles O23: each clause is one case of a trigger, a packet, a band or the loop's decision. The first and
last mapped channel, the destinations as operands and the places of the power of 2 are log entries 50, 183 and 53. -/
theorem cameraFramesAreTriggeredAndTaken : Obligations.CameraFramesAreTriggeredAndTaken := by
  unfold Obligations.CameraFramesAreTriggeredAndTaken
  refine ⟨?_, fun s port pkt r n i e f hup hrec hstream => ⟨fun hecc => ?_, ?_⟩, ?_, ?_,
    fun s port pkt hdown => act_next (csi2PacketReceived_notUp hdown pkt),
    fun s port h => act_next (statisticsComplete_idle h), ?_, ?_, moveGain_bounds⟩
  · rintro s port r n e f v _ _ _ _ hrec hstream hvalid hbegun hmode rfl rfl hdue rfl rfl
    have hsend := triggerSend_due hrec hstream hvalid hbegun hmode hdue
    exact ⟨fun hup => act_next (by rw [hsend, if_neg (by simp [hup])]; rfl),
      fun hdown => act_next (by rw [hsend, if_pos hdown]; rfl)⟩
  · exact act_next (csi2PacketReceived_uncorrectable hup hrec hstream hecc)
  · rintro _ hecc hchannel rfl
    have hread := csi2PacketReceived_mapped hup hrec hstream hecc hchannel
    refine ⟨fun htype hfirst => ?_, fun htype hother => ?_, fun htype hlast => ?_, fun htype hother => ?_,
      fun htype => ?_, fun htype hlong => ?_, fun htype hembedded hcrc => ?_, fun htype hlong hbad => ?_⟩
    · exact act_next (by rw [hread, if_pos htype, if_pos hfirst]; rfl)
    · exact act_next (by rw [hread, if_pos htype, if_neg hother]; rfl)
    · exact act_next (by rw [hread, if_neg (by omega), if_pos htype, if_pos hlast]; rfl)
    · exact act_next (by rw [hread, if_neg (by omega), if_pos htype, if_neg hother]; rfl)
    · exact act_next (by rw [hread, if_neg (by omega), if_neg (by omega), if_pos (by simpa using htype)]; rfl)
    · exact act_next (by
        rw [hread, if_neg (by omega), if_neg (by omega), if_neg (by simp; omega), if_pos htype]
        rfl)
    · exact act_next (by
        rw [hread, if_neg (by omega), if_neg (by omega), if_neg (by simp; omega), if_neg htype,
          if_pos (by simp [hembedded, hcrc])]
        rfl)
    · exact act_next (by
        rw [hread, if_neg (by omega), if_neg (by omega), if_neg (by simp; omega), if_neg htype,
          if_neg (by simpa [imp_iff_not_or] using hbad)]
        rfl)
  · rintro s port band tick dests x r n e f _ hframe hrec hstream hnew hneeded htick rfl
    exact act_next (percaleBandDone_current hrec hstream hframe (ready_onTime hnew hneeded htick) dests)
  · intro s port band tick dests x r n e f raw hcurrent hrec hstream
    refine ⟨?_, fun hlast => act_next (percaleBandDone_idle hrec hstream hcurrent hlast dests)⟩
    rintro hframe hnew htick rfl
    exact act_next (percaleBandDone_previous hrec hstream hcurrent hframe hnew htick dests)
  · rintro s port x _ r n e f d1 _ _ _ hframe hrec hstream htriggered hnew hclosed rfl hd1 hup hmode rfl rfl rfl
    obtain rfl : d1 = keepStatistics port.val r f x s.dev := hd1
    have hloop := (statisticsComplete_closed hframe hrec hstream htriggered hnew hclosed).trans
      (loopDecision_taken _ hup hmode)
    exact ⟨fun hidle => act_next (by rw [hloop, if_pos hidle]; rfl),
      fun hbusy => act_next (by rw [hloop, if_neg hbusy]; rfl)⟩
  · rintro product target _ step rfl
    exact stepProduct_dark product target step

end Sys2Proof.Machine
end

section
/-!
The cold resets (R21, R407 to R411, R479, R481, R482, R486, R488, R494): what each leaves of the device.
-/

namespace Sys2Proof.Machine

open Sys2Proof

/-! ### What a reset keeps and loses -/

/-- A device right after a cold reset: device time 0, memory empty, SAFE_OK not started with both pins 0. -/
structure Dev.Fresh (d : Dev) : Prop where
  dev : d.time.dev = 0
  mem : d.mem = []
  safeOk : d.felt.safeOk = .notStarted
  pinA : d.felt.pinA = false
  pinB : d.felt.pinB = false

theorem fullReset_fresh (hint : Option Slot) (d : Dev) : (fullReset hint d).Fresh := ⟨rfl, rfl, rfl, rfl, rfl⟩

/-- A full device reset keeps the NVM with the fuses and the straps, and takes the boot hint. -/
theorem fullReset_boot (hint : Option Slot) (d : Dev) :
    (fullReset hint d).boot.nv = d.boot.nv ∧ (fullReset hint d).boot.bootHint = hint ∧
      (fullReset hint d).boot.strapTest = d.boot.strapTest := ⟨rfl, rfl, rfl⟩

/-- The NVM's resets are low for 100 µs where the reset begins (R488). -/
theorem fullReset_sent (hint : Option Slot) (d : Dev) : (fullReset hint d).sent = (emit (.nvReset 100) d).sent := rfl

/-- Where a full device reset leads: a strap or a reset input holds the device, a Retired one starts nothing, any other
begins phase 0 (R407, R494). -/
theorem fullReset_phase (hint : Option Slot) (d : Dev) :
    (fullReset hint d).boot.phase =
      if d.boot.strapTest || d.boot.thermTrip || !d.boot.porstHigh then .held
      else if d.boot.nv.lifecycle = .retired then .retired else .phase0 := rfl

theorem deviceReset_allowed {d : Dev} (hporst : d.boot.porstHigh = true) (htrip : d.boot.thermTrip = false) :
    deviceReset d = fullReset d.boot.bootHint d := if_neg (by simp [hporst, htrip])

theorem deviceReset_held {d : Dev} (h : d.boot.porstHigh = false ∨ d.boot.thermTrip = true) : deviceReset d = d :=
  if_pos (by simpa using h)

/-! ### The health deadline (R409, R411) -/

theorem healthDeadline_due {d : Dev} (hnow : 2000 * msNs ≤ d.now) (hsafe : d.felt.safeOk = .notStarted)
    (hphase : d.boot.phase ≠ .held) :
    healthDeadline d = fullReset (if d.boot.phase = .noImage then none else d.boot.bootHint) d :=
  if_pos (by simp [hnow, hsafe, hphase])

theorem healthDeadline_idle {d : Dev}
    (h : d.now < 2000 * msNs ∨ d.felt.safeOk ≠ .notStarted ∨ d.boot.phase = .held) : healthDeadline d = d := by
  refine if_neg fun hgo => ?_
  simp only [Bool.and_eq_true, decide_eq_true_eq] at hgo
  obtain ⟨⟨hnow, hsafe⟩, hphase⟩ := hgo
  rcases h with h | h | h
  · exact Nat.not_le.mpr h hnow
  · exact h hsafe
  · exact hphase h

/-! ### Power-on reset (R481, R482) -/

/-- A rail out at release changes the health records alone. -/
theorem railsOut_only (out : List (Fin 4)) (d : Dev) :
    OnlyIn [.health] d (out.foldl (fun d x => railOutAtRelease d x.val) d) :=
  OnlyIn.foldl (fun _ x => railOutAtRelease_only x.val rfl) (OnlyIn.refl _ d)

/-- The boot state after a power-on reset: the straps as sampled, the NVM as it was, and nothing else. -/
def powerOnBoot (profile test : Bool) (b : BootState) : BootState :=
  { phase := if test then .held else if b.nv.lifecycle = .retired then .retired else .phase0,
    strapNvProfile := profile, strapTest := test, trying := firstSlot b.nv none, nv := b.nv }

/-- A power-on reset leaves a fresh device with its boot state, whatever rails are out. -/
theorem powerOnReset_fresh_boot (profile t0 t1 : Bool) (out : List (Fin 4)) (d : Dev) :
    (powerOnReset profile t0 t1 out d).Fresh ∧
      (powerOnReset profile t0 t1 out d).boot = powerOnBoot profile (t0 || t1) d.boot := by
  unfold powerOnReset
  extract_lets test phase fresh fresh'
  have hfresh : fresh'.time = {} ∧ fresh'.mem = [] ∧ fresh'.felt = {} ∧
      fresh'.boot = powerOnBoot profile test d.boot := by
    unfold fresh'
    split <;> exact ⟨rfl, rfl, rfl, rfl⟩
  obtain ⟨htime, hmem, hfelt, hboot⟩ := hfresh
  have hrails := railsOut_only out fresh'
  have htime' := (hrails.keep .time (by decide)).symm.trans htime
  have hmem' := (hrails.keep .mem (by decide)).symm.trans hmem
  have hfelt' := (hrails.keep .felt (by decide)).symm.trans hfelt
  have hboot' := (hrails.keep .boot (by decide)).symm.trans hboot
  exact ⟨⟨by rw [htime'], hmem', by rw [hfelt'], by rw [hfelt'], by rw [hfelt']⟩, hboot'⟩

/-- Settles O44: each command is a cold reset, which starts a fresh device from what the NVM, the fuses and the straps
hold, or leaves the device as it is. Memory that lists nothing and the place of the NVM's reset pulse are log entries 5 and
220. -/
theorem resetsLoseAllButTheNvm : Obligations.ResetsLoseAllButTheNvm := by
  unfold Obligations.ResetsLoseAllButTheNvm
  refine ⟨fun s hporst htrip => ?_, fun s h => act_next (deviceReset_held h), fun s hnow hsafe hphase => ?_,
    fun s profile t0 t1 out => ?_, ?_, fun s h => act_next (healthDeadline_idle h)⟩
  · obtain ⟨hdev, hmem, hsafe, hA, hB⟩ := fullReset_fresh s.dev.boot.bootHint s.dev
    obtain ⟨hnv, hhint, hstrap⟩ := fullReset_boot s.dev.boot.bootHint s.dev
    refine ⟨_, act_next (deviceReset_allowed hporst htrip), rfl, hdev, hmem, hsafe, hA, hB, hnv, fullReset_sent _ _,
      hhint, hstrap, fun htest => ?_, fun htest hretired => ?_, fun htest hretired => ?_⟩
    · simp [fullReset_phase, htest]
    · simp [fullReset_phase, htest, htrip, hporst, hretired]
    · simp [fullReset_phase, htest, htrip, hporst, hretired]
  · have hreset := healthDeadline_due hnow hsafe hphase
    refine ⟨_, act_next hreset, rfl, rfl, rfl, fun himage => ?_, fun himage => ?_⟩
    · exact if_pos himage
    · exact if_neg himage
  · obtain ⟨hfresh, hboot⟩ := powerOnReset_fresh_boot profile t0 t1 out s.dev
    refine ⟨_, act_next rfl, hfresh.dev, hfresh.mem, hfresh.safeOk, hfresh.pinA, hfresh.pinB, ?_⟩
    dsimp only
    rw [hboot]
    exact ⟨rfl, rfl, rfl, rfl, fun htest => if_pos (by simpa using htest)⟩
  · rintro s _ rfl
    exact act_next rfl

end Sys2Proof.Machine
end

section
/-!
The ends of windows (R75, R248, R252, R261, R355, R362, R367, R382, R391): ASSEMBLY, STAGING, TRANSMIT, HOST and GOLDEN.
-/

namespace Sys2Proof.Machine

open Sys2Proof

/-- A window of a tick has ended. -/
def Dev.endWin (d : Dev) (src : Source) (tick w : Nat) : Dev :=
  d.setWin src tick w { d.win src tick w with phase := .ended }

variable {d : Dev} {tick w : Nat} {r : WindowRec}

/-! ### ASSEMBLY (R382) -/

/-- A window that has ended with its outputs completed. -/
def completeOutputs (src : Source) (tick w : Nat) (contents : List Delivered) (r : WindowRec) (d : Dev) : Dev :=
  r.outputs.foldl (completeOutput src tick contents) (d.endWin src tick w)

theorem assemblyComplete_main (hrec : d.windowRec .main tick w = some r) (hkind : r.kind = .assembly)
    (hrun : (d.win .main tick w).phase = .running) (contents : List Delivered) :
    assemblyComplete .main tick w contents d =
      r.outputs.foldl (selectOutput tick) (completeOutputs .main tick w contents r d) := by
  simp [assemblyComplete, hrec, hkind, hrun, completeOutputs, Dev.endWin]

theorem assemblyComplete_burlap (hrec : d.windowRec .burlap tick w = some r) (hkind : r.kind = .assembly)
    (hrun : (d.win .burlap tick w).phase = .running) (contents : List Delivered) :
    assemblyComplete .burlap tick w contents d =
      if r.outputs.any (fun k => decide ((completeOutputs .burlap tick w contents r d).candidate .burlap tick k =
          some true)) then
        burlapDelivers (completeOutputs .burlap tick w contents r d)
      else completeOutputs .burlap tick w contents r d := by
  simp only [assemblyComplete, hrec]
  exact if_neg (by simp [hkind, hrun])

/-! ### STAGING (R248, R252) -/

/-- A pending switch that has copied some more bytes, at most those of its target. -/
def PendingMode.copyMore (q : PendingMode) (m : ModeRec) (bytes : Nat) : PendingMode :=
  { q with copied := min m.stageBytes (q.copied + bytes) }

/-- The overlay of a pending switch is placed where its copy is complete (R252, log entry 143). -/
def takeIfCopied (q : PendingMode) (m : ModeRec) (d : Dev) : Dev :=
  if d.copied q then copyOverlay d.image m (fun _ => true) d else d

section Staging

variable (hrec : d.windowRec .main tick w = some r) (hkind : r.kind = .staging)
  (hrun : (d.win .main tick w).phase = .running) (hend : d.reached (d.plannedEnd tick r) = true)

include hrec hkind hrun hend

theorem stagingWindowEnd_none (hnone : (d.endWin .main tick w).copying tick = none) (bytes : Nat) :
    stagingWindowEnd tick w bytes d = d.endWin .main tick w := by
  rw [Dev.endWin] at hnone
  simp [stagingWindowEnd, hrec, hkind, hrun, hend, hnone, Dev.endWin]

theorem stagingWindowEnd_copying {q : PendingMode} {m : ModeRec}
    (hcopying : (d.endWin .main tick w).copying tick = some (q, m)) (bytes : Nat) :
    stagingWindowEnd tick w bytes d = takeIfCopied (q.copyMore m bytes) m
      { d.endWin .main tick w with
        plan := { (d.endWin .main tick w).plan with pending := some (q.copyMore m bytes) } } := by
  rw [Dev.endWin] at hcopying
  simp [stagingWindowEnd, hrec, hkind, hrun, hend, hcopying, Dev.endWin, takeIfCopied, PendingMode.copyMore]

end Staging

/-! ### TRANSMIT (R75, R261, R367) -/

theorem transmitWindow_opens {t : TickRec} (hrec : d.windowRec .main tick w = some r)
    (htick : d.tickRec tick = some t) (hkind : r.kind = .transmit) (hplanned : (d.win .main tick w).phase = .planned)
    (hstay : t.transition = false) (hopen : d.reached (d.opening tick r) = true) :
    transmitWindow tick w d = r.outputs.foldl (transmitOutput tick r.durNs t.mainRuns)
      (d.setWin .main tick w { d.win .main tick w with phase := .ended, released := d.now }) := by
  simp [transmitWindow, hrec, htick, hkind, hplanned, hstay, hopen]

/-! ### HOST (R355, R362) -/

/-- The results of a HOST window's ended queries are written, an OK one LATE more than 200 µs past the planned end. -/
def flushHostWindow (tick w : Nat) (e : Int) (d : Dev) : Dev :=
  flushWindow (winKey .main tick w) (decide (e + 200 * usNs < d.now)) d

/-- Past its planned end a running HOST window waits for its queries or ends, and any other aborts them. -/
theorem hostWindowEnd_past {e : Int} (hrec : d.windowRec .main tick w = some r) (hkind : r.kind = .host)
    (hend : d.plannedEnd tick r = some e) (hpast : e ≤ (d.now : Int)) :
    hostWindowEnd tick w d =
      if ((flushHostWindow tick w e d).win .main tick w).phase = .running then
        if ((flushHostWindow tick w e d).nextIn (winKey .main tick w)).isSome = true then flushHostWindow tick w e d
        else closeGroupFlags .main tick w
          ((stopWindow .main tick w (flushHostWindow tick w e d)).endWin .main tick w)
      else abortQueries (winKey .main tick w) (flushHostWindow tick w e d) := by
  have hgo : ¬ (r.kind ≠ .host || decide ((d.now : Int) < e)) = true := by simp [hkind, hpast]
  simp only [hostWindowEnd, hrec, hend]
  rw [if_neg hgo]
  split
  · next hrun => exact (if_pos hrun).symm
  · next hstopped => exact (if_neg hstopped).symm

/-! ### GOLDEN (R391) -/

theorem goldenBudgetTimer_due (hrec : d.windowRec .main tick w = some r) (hkind : r.kind = .golden)
    (hrun : (d.win .main tick w).phase = .running) (hend : d.reached (d.plannedEnd tick r) = true) :
    goldenBudgetTimer tick w d = ((goldenClusters tick).foldl (stopVisit tick) d).endWin .main tick w := by
  simp [goldenBudgetTimer, hrec, hkind, hrun, hend, Dev.endWin]

/-- Settles O15: each clause is one branch of a window's end. The outputs' contents and the bytes copied as operands are
log entries 111 and 143, the overlay placed whole with the copy's end log entry 143, and LATE judged by HOST_WINDOW_END
alone log entry 133. -/
theorem windowsEnd : Obligations.WindowsEnd := by
  unfold Obligations.WindowsEnd
  refine ⟨fun s tick w contents r hrec hkind hrun => act_next (assemblyComplete_main hrec hkind hrun contents), ?_, ?_,
    fun s tick w r t hrec htick hkind hplanned hstay hopen =>
      act_next (transmitWindow_opens hrec htick hkind hplanned hstay hopen), ?_,
    fun s tick w r hrec hkind hrun hend => ⟨_, rfl, act_next (goldenBudgetTimer_due hrec hkind hrun hend)⟩⟩
  · rintro s tick w contents r _ hrec hkind hrun rfl
    exact act_next (assemblyComplete_burlap hrec hkind hrun contents)
  · rintro s tick w bytes r _ q m hrec hkind hrun hend rfl
    exact ⟨fun hnone => act_next (stagingWindowEnd_none hrec hkind hrun hend hnone bytes),
      fun hcopying => ⟨_, _, rfl, rfl, act_next (stagingWindowEnd_copying hrec hkind hrun hend hcopying bytes)⟩⟩
  · rintro s tick w r e _ hrec hkind hend hpast rfl
    have hpastEnd := hostWindowEnd_past hrec hkind hend hpast
    exact ⟨fun hstopped => act_next (hpastEnd.trans (if_neg hstopped)),
      fun hrun hnone => ⟨_, rfl, act_next (hpastEnd.trans ((if_pos hrun).trans
        (if_neg (by simp [flushHostWindow, hnone]))))⟩,
      fun hrun hsome => act_next (hpastEnd.trans ((if_pos hrun).trans (if_pos hsome)))⟩

end Sys2Proof.Machine
end

section
/-!
Gates, slices and Tweed's insertions and releases (R72, R74, R94, R145, R148, R149, R166).
-/

namespace Sys2Proof.Machine

open Sys2Proof

variable {d : Dev}

/-! ### GATE_CLOSE (R72, R74) -/

section Gate

variable {stream : Fin 48} {e : StreamEntry} {j v : Nat} (hentry : d.entry stream.val = some e)
  (hvalid : d.nextValid (d.stream stream.val).nextGate = some (j, v))

include hentry hvalid

theorem gateClose_early (hearly : d.now < d.gateAt e v) : gateClose stream d = d := by
  simp [gateClose, hentry, hvalid, hearly]

variable (hgate : d.noGate stream.val j = false) (hdue : d.gateAt e v ≤ d.now)

include hgate hdue

theorem gateClose_point (hkind : e.kind = .point) :
    gateClose stream d = closePointGate stream.val j v e (closeGate stream.val j e v d) := by
  simp [gateClose, hentry, hvalid, hgate, hdue, hkind]

theorem gateClose_camera {f : CameraFields} (hkind : e.kind = .rowBand) (hsrc : e.src = .camera f) :
    gateClose stream d = buildBands j v e.port f (closeGate stream.val j e v d) := by
  simp [gateClose, hentry, hvalid, hgate, hdue, hkind, hsrc]

theorem gateClose_egoInput (hkind : e.kind = .egoInput) : gateClose stream d = closeGate stream.val j e v d := by
  simp [gateClose, hentry, hvalid, hgate, hdue, hkind]

end Gate

/-! ### SLICE_TIMER_EXPIRY (R145) -/

theorem sliceTimerExpiry_open {src : Source} {stream : Fin 48} {sl : Slice} {p : Point} {rest : List Point}
    (hslice : d.slice src stream.val = some sl) (hpoints : sl.points = p :: rest) :
    sliceTimerExpiry src stream d = if p.arrival + d.sliceNs ≤ d.now then closeSlice src stream.val d else d := by
  simp only [sliceTimerExpiry, hslice, hpoints]

/-! ### DEFERRED_INSERTION (R148) and TWEED_TABLE_RELEASE (R166) -/

theorem deferredInsertion_due {src : Source} (hmay : d.mayInsert src (d.engine src).tick = true)
    (hruns : d.engineRuns src = true) :
    deferredInsertion src d =
      (sortBy (fun a b : PointRec × Nat => decide (a.1.arrival < b.1.arrival))
        (((d.engine src).store (d.engine src).tick).zipIdx.filter
          (fun x => x.1.pending && decide (x.1.tick = (d.engine src).tick)))).foldl
        (fun d' x => insertPoint src (d.engine src).tick x.2 d') d :=
  if_pos (by simp [hmay, hruns])

theorem tweedTableRelease_done {src : Source} (hdone : d.tweedDone src (d.engine src).tick = true) :
    tweedTableRelease src d = modEngine src releaseTable d := if_pos hdone

/-- Settles O19: each command's effect at its instant; that a gate or a slice not yet due stays is log entry 2. -/
theorem gatesCloseAndTweedFollows : Obligations.GatesCloseAndTweedFollows := by
  unfold Obligations.GatesCloseAndTweedFollows
  refine ⟨?_, fun s src stream sl p rest hslice hpoints => ⟨fun hold => act_next ?_, fun hyoung => act_next ?_⟩, ?_,
    fun s src hdone => act_next (tweedTableRelease_done hdone)⟩
  · rintro s stream e j v _ hentry hvalid hgate rfl
    exact ⟨fun hearly => act_next (gateClose_early hentry hvalid hearly),
      fun hdue hkind => act_next (gateClose_point hentry hvalid hgate hdue hkind),
      fun f hdue hkind hsrc => act_next (gateClose_camera hentry hvalid hgate hdue hkind hsrc),
      fun hdue hkind => act_next (gateClose_egoInput hentry hvalid hgate hdue hkind)⟩
  · rw [sliceTimerExpiry_open hslice hpoints, if_pos hold]
  · rw [sliceTimerExpiry_open hslice hpoints, if_neg (Nat.not_le.mpr hyoung)]
  · rintro s src _ _ rfl hmay hruns rfl
    exact act_next (deferredInsertion_due hmay hruns)

end Sys2Proof.Machine
end

section
/-!
The camera ports' links and the absence of a stream (R71, R84, R85, R87).
-/

namespace Sys2Proof.Machine

open Sys2Proof

variable {d : Dev}

/-! ### Loss of lock (R85, R87) and training (R84) -/

section Link

variable {port : Fin 16}

/-- The bands begun that a loss of lock discards: those of a triggered frame that has not ended (R87, log entry 199). -/
def lostBands (c : Nat) (d : Dev) : Nat :=
  match d.camStream c, (d.camera c).frame with
  | some (_, _, f), some x => if x.triggered && !x.ended then (begunBands f x).length else 0
  | _, _ => 0

/-- A port that has lost its lock: it retrains, and has counted the loss. -/
def loseLock (c : Nat) (d : Dev) : Dev :=
  bump (barCam c + 0x04) (d.camera c).linkLoss 1 (fun k d => modCamera c (fun x => { x with linkLoss := k }) d)
    (beginTraining c (dropBands c (lostBands c d) d))

theorem linkLockLoss_linked (hlink : (d.camera port.val).link = .up ∨ (d.camera port.val).link = .init) :
    linkLockLoss port d =
      conditionEvent (barCam port.val + 0x04) ((loseLock port.val d).camera port.val).linkLoss.val.toNat
        (loseLock port.val d) :=
  if_neg (by rcases hlink with h | h <;> simp [h])

theorem retrainIntervalExpiry_due (hdown : (d.camera port.val).link = .down)
    (hretrain : (d.camera port.val).retrain = true) (hdue : (d.camera port.val).attemptBegan + 100 * msNs ≤ d.now) :
    retrainIntervalExpiry port d = beginTraining port.val d :=
  if_pos (by simp [hdown, hretrain, hdue])

theorem trainingSuccess_training {r : CameraPort} (hrec : d.camRec port.val = some r)
    (htraining : (d.camera port.val).link = .training) : trainingSuccess port d = beginInit port.val r d := by
  simp [trainingSuccess, hrec, htraining]

/-- A port whose attempt to train has failed: it is DOWN, and has counted the failure. -/
def failTraining (c : Nat) (d : Dev) : Dev :=
  bump (barCam c + 0x08) (d.camera c).trainFail 1 (fun k d => modCamera c (fun x => { x with trainFail := k }) d)
    (goDown c d)

theorem trainingTimeout_due (htraining : (d.camera port.val).link = .training)
    (hdue : (d.camera port.val).attemptBegan + 20 * msNs ≤ d.now) :
    trainingTimeout port d =
      if (d.camera port.val).trainReported = true then failTraining port.val d
      else conditionEvent (barCam port.val + 0x08) ((failTraining port.val d).camera port.val).trainFail.val.toNat
        (modCamera port.val (fun x => { x with trainReported := true }) (failTraining port.val d)) :=
  if_pos (by simp [htraining, hdue])

end Link

/-! ### Absence and the periods of a return (R71, R84) -/

section Absence

variable {stream : Fin 48} {e : StreamEntry} (hdue : d.absenceDue stream.val = true)
  (hentry : (enterReacquiring stream.val d).entry stream.val = some e)

include hdue hentry

theorem absenceTimeout_noCamera (hsrc : ∀ f, e.src ≠ .camera f) :
    absenceTimeout stream d = enterReacquiring stream.val d := by
  simp only [absenceTimeout, hdue, hentry]
  cases h : e.src with
  | camera f => exact absurd h (hsrc f)
  | _ => rfl

theorem absenceTimeout_camera {f : CameraFields} {r : CameraPort} (hsrc : e.src = .camera f)
    (hrec : (enterReacquiring stream.val d).camRec e.port = some r) :
    absenceTimeout stream d =
      if ((enterReacquiring stream.val d).camera e.port).link = .up then
        beginInit e.port r (enterReacquiring stream.val d)
      else enterReacquiring stream.val d := by
  simp [absenceTimeout, hdue, hentry, hsrc, hrec]

end Absence

theorem reacquisitionPeriodEnd_due {stream : Fin 48} {e : StreamEntry} {r : ReacqRun}
    (hentry : d.entry stream.val = some e) (hrun : (d.stream stream.val).run = some r)
    (hmode : (d.stream stream.val).mode = .reacquiring) (hpending : (d.stream stream.val).runDone = false)
    (hdue : r.periodStart + periodNs e ≤ d.now) :
    reacquisitionPeriodEnd stream d =
      if r.seen = true then d.setStream stream.val { d.stream stream.val with
        run := some { periodStart := r.periodStart + periodNs e, seen := false, done := r.done + 1 } }
      else d.setStream stream.val { d.stream stream.val with run := none } := by
  simp [reacquisitionPeriodEnd, hentry, hrun, hmode, hpending, hdue]

/-- Settles O21: each clause is one event of a port's link, or one case of a stream's absence and return. The bands
of a frame that was not triggered are not counted by log entry 199. -/
theorem cameraLinksTrainAndRecover : Obligations.CameraLinksTrainAndRecover := by
  unfold Obligations.CameraLinksTrainAndRecover
  refine ⟨?_, fun s port hdown hretrain hdue => act_next (retrainIntervalExpiry_due hdown hretrain hdue),
    fun s port r hrec htraining => act_next (trainingSuccess_training hrec htraining), ?_, ?_,
    fun s stream e r hentry hrun hmode hpending hdue => ⟨fun hseen => act_next ?_, fun hseen => act_next ?_⟩⟩
  · rintro s port _ _ hlink rfl rfl
    exact act_next (linkLockLoss_linked hlink)
  · rintro s port _ htraining hdue rfl
    have hfail := trainingTimeout_due htraining hdue
    exact ⟨fun hreported => act_next (hfail.trans (if_pos hreported)),
      fun hfirst => act_next (hfail.trans (if_neg (by simp [hfirst])))⟩
  · rintro s stream e _ hdue rfl hentry
    refine ⟨fun hsrc => act_next (absenceTimeout_noCamera hdue hentry hsrc), fun f r hsrc hrec => ?_⟩
    have hcamera := absenceTimeout_camera hdue hentry hsrc hrec
    exact ⟨fun hup => act_next (hcamera.trans (if_pos hup)), fun hdown => act_next (hcamera.trans (if_neg hdown))⟩
  · rw [reacquisitionPeriodEnd_due hentry hrun hmode hpending hdue, if_neg (by simp [hseen])]
  · rw [reacquisitionPeriodEnd_due hentry hrun hmode hpending hdue, if_pos hseen]

end Sys2Proof.Machine
end

section
/-!
The ends of the CCI tunnel's transactions (R86, R90, R98).
-/

namespace Sys2Proof.Machine

open Sys2Proof

/-- A port whose transaction was acknowledged: its run of CCI errors is over (R90). -/
def endErrorRun (c : Nat) (d : Dev) : Dev := modCamera c (fun x => { x with cciRun := 0 }) d

/-- The jobs that wait for an acknowledgement: all but the idle port and the wait of an entry of op 1 (R86, R90). -/
inductive AwaitsAck (r : CameraPort) : CciJob → Prop where
  | sentinel : AwaitsAck r .sentinel
  | entry {i : Nat} {e : InitEntry} (hentry : r.init[i]? = some e) (hop : e.op ≠ 1) : AwaitsAck r (.entry i)
  | exposure (j : Nat) : AwaitsAck r (.exposure j)

section Tunnel

variable {d : Dev} {port : Fin 16} {r : CameraPort} (hrec : d.camRec port.val = some r)

include hrec

/-! ### CCI_ACK (R86, R98) -/

theorem cciAck_sentinel (hjob : (d.camera port.val).job = .sentinel) (data : Nat) :
    cciAck port data d =
      if data % 256 = r.sentinelVal then startExposure port.val r 0 (endErrorRun port.val d)
      else startEntry port.val r 0 (endErrorRun port.val d) := by
  simp only [cciAck, hrec, hjob, endErrorRun]

theorem cciAck_entry {i : Nat} {e : InitEntry} (hjob : (d.camera port.val).job = .entry i)
    (hentry : r.init[i]? = some e) (hop : e.op ≠ 1) (data : Nat) :
    cciAck port data d =
      if e.op = 3 ∧ data ≠ e.value then cciError port.val r d
      else startEntry port.val r (i + 1) (endErrorRun port.val d) := by
  simp [cciAck, hrec, hjob, hentry, hop, endErrorRun]

theorem cciAck_exposure {j : Nat} (hjob : (d.camera port.val).job = .exposure j) (data : Nat) :
    cciAck port data d =
      if j < 3 then startExposure port.val r (j + 1) (endErrorRun port.val d)
      else endExposure port.val r (endErrorRun port.val d) := by
  simp only [cciAck, hrec, hjob, endErrorRun]

/-! ### CCI_TIMEOUT (R90) and INIT_WAIT_EXPIRY (R86) -/

theorem cciTimeout_awaited (hjob : AwaitsAck r (d.camera port.val).job) :
    cciTimeout port d =
      if d.now < (d.camera port.val).jobBegan + msNs then d else cciError port.val r d := by
  simp only [cciTimeout, hrec]
  cases hjob' : (d.camera port.val).job with
  | idle => rw [hjob'] at hjob; cases hjob
  | sentinel => simp
  | exposure j => simp
  | entry i =>
    rw [hjob'] at hjob
    cases hjob with
    | entry hentry hop => simp [hentry, hop]

theorem initWaitExpiry_due {i : Nat} {e : InitEntry} (hjob : (d.camera port.val).job = .entry i)
    (hentry : r.init[i]? = some e) (hop : e.op = 1) (hdue : (d.camera port.val).jobBegan + e.addr * usNs ≤ d.now) :
    initWaitExpiry port d = startEntry port.val r (i + 1) d := by
  simp [initWaitExpiry, hrec, hjob, hentry, hop, hdue]

end Tunnel

/-- Settles O22: each clause is one job's acknowledgement or the end of its time. Where the initialisation restarts
after an error is log entry 198. -/
theorem cciTransactionsEnd : Obligations.CciTransactionsEnd := by
  unfold Obligations.CciTransactionsEnd
  refine ⟨fun s port data i r e hrec hjob hentry hop => ?_, fun s port data r hrec hjob => ?_,
    fun s port data j r hrec hjob => ?_, fun s port r hrec hjob => ?_,
    fun s port i r e hrec hjob hentry => ⟨fun hop hlate => ?_, fun hop hdue => ?_⟩, fun s cam => act_next rfl⟩
  · have hack := cciAck_entry hrec hjob hentry hop data
    exact ⟨fun hgood => act_next (hack.trans (if_neg fun ⟨hverify, hother⟩ => hgood.elim (· hverify) hother)),
      fun hverify hother => act_next (hack.trans (if_pos ⟨hverify, hother⟩))⟩
  · have hack := cciAck_sentinel hrec hjob data
    exact ⟨fun hsame => act_next (hack.trans (if_pos hsame)), fun hother => act_next (hack.trans (if_neg hother))⟩
  · have hack := cciAck_exposure hrec hjob data
    exact ⟨fun hmore => act_next (hack.trans (if_pos hmore)),
      fun hlast => act_next (hack.trans (if_neg (Nat.not_lt.mpr hlast)))⟩
  · have hawaits : AwaitsAck r (s.dev.camera port.val).job := by
      rcases hjob with ⟨j, hjob⟩ | hjob <;> rw [hjob]
      · exact .exposure j
      · exact .sentinel
    have htimeout := cciTimeout_awaited hrec hawaits
    exact ⟨fun hlate => act_next (htimeout.trans (if_neg (Nat.not_lt.mpr hlate))),
      fun hearly => act_next (htimeout.trans (if_pos hearly))⟩
  · have hawaits : AwaitsAck r (s.dev.camera port.val).job := hjob ▸ .entry hentry hop
    exact act_next ((cciTimeout_awaited hrec hawaits).trans (if_neg (Nat.not_lt.mpr hlate)))
  · exact act_next (initWaitExpiry_due hrec hjob hentry hop hdue)

end Sys2Proof.Machine
end

section
/-!
The window timers (R168, R188, R246, R248, R250, R382): the layer watchdog, Tweed's step timer, Chambray's unit timer
and the assembly timer.
-/

namespace Sys2Proof.Machine

open Sys2Proof

variable {d : Dev} {src : Source} {tick w : Nat} {r : WindowRec}

/-! ### Before the expiry (R248) -/

section Early

variable (hrec : d.windowRec src tick w = some r) (hearly : d.reached (d.expiry tick r) = false)

include hrec hearly

theorem layerWatchdogExpiry_early : layerWatchdogExpiry src tick w d = d := by
  simp [layerWatchdogExpiry, hrec, hearly]

theorem tweedStepTimerExpiry_early : tweedStepTimerExpiry src tick w d = d := by
  simp [tweedStepTimerExpiry, hrec, hearly]

theorem assemblyTimerExpiry_early : assemblyTimerExpiry src tick w d = d := by
  simp [assemblyTimerExpiry, hrec, hearly]

end Early

theorem chambrayTimerExpiry_early (hrec : d.windowRec .main tick w = some r)
    (hearly : d.reached (d.expiry tick r) = false) : chambrayTimerExpiry tick w d = d := by
  simp [chambrayTimerExpiry, hrec, hearly]

/-! ### The layer watchdog (R248, R250) -/

/-- A window that has not ended overruns; the queries of a HOST window are aborted first. -/
theorem layerWatchdogExpiry_late (hrec : d.windowRec src tick w = some r)
    (htick : (d.tickRec tick).isSome = true) (hlate : d.reached (d.expiry tick r) = true)
    (hopen : (d.win src tick w).phase = .planned ∨ (d.win src tick w).phase = .held ∨
      (d.win src tick w).phase = .running)
    (hcores : kindOnCores r.kind = true) :
    layerWatchdogExpiry src tick w d =
      overrun src tick w r (if r.kind = .host then abortQueries (winKey src tick w) d else d) := by
  have hknown : (d.tickRec tick).isNone = false := by simpa [Option.isSome_iff_ne_none] using htick
  rcases hopen with hphase | hphase | hphase <;>
    simp [layerWatchdogExpiry, hrec, hphase, hcores, hlate, hknown]

/-! ### The restart of a die's partition -/

/-- The first partition of the die that meets a test restarts; where none does, nothing happens. -/
def restartWhere (x cause : Nat) (p : PartRec → Bool) (d : Dev) : Dev :=
  match d.parts.findIdx? p with
  | some i => restartPartition x i cause true d
  | none => d

theorem restartWhere_found {x cause i : Nat} {p : PartRec → Bool} (hpart : d.parts.findIdx? p = some i) :
    restartWhere x cause p d = restartPartition x i cause true d := by
  simp [restartWhere, hpart]

/-! ### Tweed's step timer (R168) -/

/-- The length of an engine's run of ticks with an overrun, once a step of this tick overruns: a further step of the
same tick does not lengthen it. -/
def TweedState.runWith (e : TweedState) (tick : Nat) : Nat :=
  match e.overrunTick with
  | some t => if t = tick then e.overrunRun else if t + 1 = tick then e.overrunRun + 1 else 1
  | none => 1

/-- An engine has had an overrun, and the tick of the last one meets a test. -/
def TweedState.lastOverrunIn (e : TweedState) (p : Nat → Bool) : Bool :=
  match e.overrunTick with
  | some t => p t
  | none => false

/-- The run in the words of the timer, which asks whether the last overrun was in this tick or in the one before. -/
theorem TweedState.runWith_eq (e : TweedState) (tick : Nat) :
    (if e.lastOverrunIn (fun t => t = tick) then e.overrunRun
      else if e.lastOverrunIn (fun t => t + 1 = tick) then e.overrunRun + 1 else 1) = e.runWith tick := by
  cases hlast : e.overrunTick <;> simp [TweedState.runWith, TweedState.lastOverrunIn, hlast]

/-- An engine's overrun is the third tick's in a row. -/
abbrev TweedState.ThirdWith (e : TweedState) (tick : Nat) : Prop := 3 ≤ e.runWith tick ∧ e.overrunTick ≠ some tick

theorem TweedState.thirdWith_iff (e : TweedState) (tick : Nat) :
    (decide (3 ≤ e.runWith tick) && !e.lastOverrunIn (fun t => t = tick)) = true ↔ e.ThirdWith tick := by
  cases hlast : e.overrunTick <;> simp [TweedState.ThirdWith, TweedState.lastOverrunIn, hlast]

/-- A late step leaves its engine a run of overruns, is counted in TWD_OVERRUN_COUNT, and its window is marked
missing. -/
def missLateStep (src : Source) (tick w run : Nat) (d : Dev) : Dev :=
  faultMiss .overrun src tick w
    (bumpTwd src 0x28 (·.overrun) (fun c e => { e with overrun := c }) 1
      (modEngine src (fun e => { e with overrunRun := run, overrunTick := some tick }) d))

/-- What a late step does: Burlap's is class V fault 0x0005, and at the third tick in a row, which ends the run, the
main engine's partition on M0 restarts. -/
def stopLateStep (src : Source) (tick w run : Nat) (r : WindowRec) (third : Prop) [Decidable third] (d : Dev) : Dev :=
  let d := missLateStep src tick w (if third then 0 else run) d
  match src with
  | .burlap => raiseV 0x0005 6 r.target w false 0 d
  | .main => if third then restartWhere 4 causeTweed (fun p => p.die = 4) d else d

theorem stopLateStep_congr {third third' : Prop} [Decidable third] [Decidable third'] (h : third ↔ third')
    (src : Source) (tick w run : Nat) (r : WindowRec) (d : Dev) :
    stopLateStep src tick w run r third d = stopLateStep src tick w run r third' d := by
  simp only [stopLateStep, h]

theorem tweedStepTimerExpiry_late (hrec : d.windowRec src tick w = some r) (hkind : r.kind = .tweed)
    (hrun : (d.win src tick w).phase = .running) (hlate : d.reached (d.expiry tick r) = true) :
    tweedStepTimerExpiry src tick w d =
      stopLateStep src tick w ((d.engine src).runWith tick) r ((d.engine src).ThirdWith tick) d := by
  rw [← stopLateStep_congr ((d.engine src).thirdWith_iff tick), ← TweedState.runWith_eq]
  simp only [tweedStepTimerExpiry, hrec]
  exact if_neg (by simp [hkind, hrun, hlate])

/-! ### Chambray's unit timer (R188) -/

/-- The overruns of a unit counted once more. -/
def countUnitOverrun (x : Nat) (d : Dev) : Dev :=
  bump (barChbOf x + 0x1C) (d.chb x).overrun 1 (fun c => modChb x (fun u => { u with overrun := c })) d

/-- The unit of a late window is freed, and the window marked missing; at the unit's third overrun in a row, which ends
the run, the die's partition with Chambray restarts. -/
def stopLateUnit (x tick w : Nat) (d : Dev) : Dev :=
  let run := (d.chb x).overrunRun + 1
  let d := modChb x (fun u => { u with state := .idle, overrunRun := if 3 ≤ run then 0 else run }) d
  let d := faultMiss .overrun .main tick w d
  if 3 ≤ run then restartWhere x causeChambray (fun p => p.die = x && p.chambray) d else d

theorem chbUnitOf_some {g : GridRec} {o : ChbRec} {rank x : Nat} (hgrid : d.gridAt tick = some g)
    (hop : gridOp g w = some (o, rank)) (hunit : o.units[rank]? = some x) : d.chbUnitOf tick w = some x := by
  simp [Dev.chbUnitOf, hgrid, hop, hunit]

theorem chambrayTimerExpiry_late {g : GridRec} {o : ChbRec} {rank x : Nat}
    (hrec : d.windowRec .main tick w = some r) (hkind : r.kind = .chambray)
    (hrun : (d.win .main tick w).phase = .running) (hlate : d.reached (d.expiry tick r) = true)
    (hgrid : d.gridAt tick = some g) (hop : gridOp g w = some (o, rank)) (hunit : o.units[rank]? = some x) :
    chambrayTimerExpiry tick w d = stopLateUnit x tick w (countUnitOverrun x
      (if o.op = .lift then stopLift (d.chbCtx tick w g o rank x) d else d)) := by
  have hx : (d.chbUnitOf tick w).getD 0 = x := by rw [chbUnitOf_some hgrid hop hunit, Option.getD_some]
  rw [chambrayTimerExpiry, hrec, hx]
  refine (if_neg (by simp [hkind, hrun, hlate])).trans ?_
  extract_lets unit dLift
  have hlift : dLift = if o.op = .lift then stopLift (d.chbCtx tick w g o rank x) d else d := by
    simp only [dLift, hgrid, hop, unit]
  rw [← hlift]
  -- with the stop of the LIFT opaque, the rest of the timer is `stopLateUnit` as it stands
  clear_value dLift
  rfl

/-! ### The assembly timer (R248, R382) -/

section Assembly

variable (hkind : r.kind = .assembly) (hlate : d.reached (d.expiry tick r) = true)

include hkind hlate

/-- A main window's outputs are selected at its expiry, whether or not the window runs. -/
theorem assemblyTimerExpiry_main (hrec : d.windowRec .main tick w = some r) :
    assemblyTimerExpiry .main tick w d = r.outputs.foldl (selectOutput tick)
      (if (d.win .main tick w).phase = .running then miss .overrun .main tick w (countWdg d) else d) := by
  simp only [assemblyTimerExpiry, hrec]
  rw [if_neg (by simp [hkind, hlate])]
  split
  · next hrun => rw [if_pos hrun]
  · next hidle => rw [if_neg hidle]

theorem assemblyTimerExpiry_burlap (hrec : d.windowRec .burlap tick w = some r)
    (hrun : (d.win .burlap tick w).phase = .running) :
    assemblyTimerExpiry .burlap tick w d =
      raiseV 0x0005 dieIod r.target w false 0 (miss .overrun .burlap tick w (countWdg d)) := by
  simp [assemblyTimerExpiry, hrec, hkind, hlate, hrun]

end Assembly

/-- Settles O14: each clause is one timer before its expiry, or its own effect from then on. -/
theorem watchdogsStopLateWindows : Obligations.WatchdogsStopLateWindows := by
  unfold Obligations.WatchdogsStopLateWindows
  refine ⟨fun s src tick w r hrec hearly => ⟨act_next (layerWatchdogExpiry_early hrec hearly),
      act_next (tweedStepTimerExpiry_early hrec hearly), act_next (assemblyTimerExpiry_early hrec hearly), ?_⟩,
    fun s src tick w r hrec htick hlate hopen => ⟨fun hcores => act_next ?_, fun hhost => act_next ?_⟩, ?_, ?_,
    fun s tick w r hrec hkind hlate => act_next (assemblyTimerExpiry_main hkind hlate hrec),
    fun s tick w r hrec hkind hlate hrun => act_next (assemblyTimerExpiry_burlap hkind hlate hrec hrun)⟩
  · rintro rfl
    exact act_next (chambrayTimerExpiry_early hrec hearly)
  · have hlayer := layerWatchdogExpiry_late hrec htick hlate hopen
    rcases hcores with hkind | hkind <;> simpa [hkind, kindOnCores] using hlayer
  · simpa [hhost, kindOnCores] using layerWatchdogExpiry_late hrec htick hlate hopen
  · rintro s src tick w run r d1 hrec hkind hrun hlate rfl rfl
    have hstop := tweedStepTimerExpiry_late hrec hkind hrun hlate
    refine ⟨?_, ?_, ?_⟩
    · rintro rfl
      exact act_next hstop
    · rintro rfl hfew
      exact act_next (hstop.trans (if_neg fun ⟨hthree, hother⟩ =>
        hfew.elim (Nat.not_lt.mpr hthree) hother))
    · rintro i rfl hthree hother hpart
      exact act_next (hstop.trans ((if_pos ⟨hthree, hother⟩).trans (restartWhere_found hpart)))
  · rintro s tick w x rank run r g o _ _ _ hrec hkind hrun hlate hgrid hop hunit rfl rfl rfl rfl
    have hstop := chambrayTimerExpiry_late hrec hkind hrun hlate hgrid hop hunit
    exact ⟨fun hfew => act_next (hstop.trans (if_neg (Nat.not_le.mpr hfew))),
      fun i hthree hpart => act_next (hstop.trans ((if_pos hthree).trans (restartWhere_found hpart)))⟩

end Sys2Proof.Machine
end

section
/-!
Scrub accesses, flit errors, link transactions and the reload of a Burlap cluster (R186, R207, R211, R426).
-/

namespace Sys2Proof.Machine

open Sys2Proof

variable {d : Dev}

/-! ### The scrubber (R207) -/

/-- The scrubber of a cluster goes on to the next line of a bank, and to the first one after the last. -/
def advanceScrub (cl bank : Nat) (d : Dev) : Dev :=
  d.modCluster cl (fun c => { c with scrub := bput 0 bank ((bget 0 bank c.scrub + 1) % bankLines bank) c.scrub })

theorem scrubAccess_powered {cl : Fin 132} (bank : Fin 288) (ecc : Ecc)
    (hstate : (d.cluster cl.val).state = .running ∨ (d.cluster cl.val).state = .golden) :
    scrubAccess cl bank ecc d = eccRead cl.val none ecc (advanceScrub cl.val bank.val d) := by
  rcases hstate with hrunning | hgolden
  · simp only [scrubAccess, hrunning, advanceScrub]
  · simp only [scrubAccess, hgolden, advanceScrub]

/-! ### The first expiry of a link transaction (R186, R426) -/

/-- A retry of a die's link transaction counted in its saturating counter. -/
def countLinkRetry (die : Nat) (d : Dev) : Dev :=
  satEvent (barTsq + 0x200 + 0x20 * die + 0x0C) (d.die die).linkRetry (d.die die).linkRetry.inc
    (d.setDie die { d.die die with linkRetry := (d.die die).linkRetry.inc })

/-- A retried remote addition counted on the Chambray unit that issued it. -/
def countRemoteRetry (x : Nat) (d : Dev) : Dev :=
  bump (barChbOf x + 0x28) (d.chb x).remoteRetry 1 (fun c => modChb x (fun u => { u with remoteRetry := c })) d

section FirstExpiry

variable {die : Fin 6} {tick w : Nat} {r : WindowRec} (part : Nat)

/-- The owning window is looked up once the retry has been counted: without one, the count is all. -/
theorem linkTransactionTimeout_first_noWindow (hrec : (countLinkRetry die.val d).windowRec .main tick w = none) :
    linkTransactionTimeout die part false tick w d = countLinkRetry die.val d := by
  rw [countLinkRetry] at hrec ⊢
  simp [linkTransactionTimeout, hrec]

theorem linkTransactionTimeout_first_lift {g : GridRec} {o : ChbRec} {rank : Nat}
    (hrec : (countLinkRetry die.val d).windowRec .main tick w = some r)
    (hgrid : (countLinkRetry die.val d).gridAt tick = some g) (hop : gridOp g w = some (o, rank))
    (hkind : r.kind = .chambray) (hlift : o.op = .lift) :
    linkTransactionTimeout die part false tick w d =
      countRemoteRetry (o.units.getD rank 0) (countLinkRetry die.val d) := by
  rw [countLinkRetry] at hrec hgrid ⊢
  simp [linkTransactionTimeout, countRemoteRetry, hrec, hgrid, hop, hkind, hlift]

/-- The retry of a window of another kind is counted on no Chambray unit, whatever the grid holds at its number. -/
theorem linkTransactionTimeout_first_notChambray
    (hrec : (countLinkRetry die.val d).windowRec .main tick w = some r) (hkind : r.kind ≠ .chambray) :
    linkTransactionTimeout die part false tick w d = countLinkRetry die.val d := by
  rw [countLinkRetry] at hrec ⊢
  simp only [linkTransactionTimeout, Bool.false_eq_true, if_false, hrec]
  split
  · next hwin _ =>
      cases hwin
      simp [hkind]
  · rfl

end FirstExpiry

/-! ### The reload of a Burlap cluster (R207) -/

theorem burlapClusterReloadDone_restarting {cl : Fin 4} (hstate : (d.cluster (128 + cl.val)).state = .restarting) :
    burlapClusterReloadDone cl d = (loadBurlapCluster d.image d (128 + cl.val)).modCluster (128 + cl.val)
      (fun c => { c with rejoin := true }) :=
  if_pos hstate

/-- Settles O35: a scrub access, a reload and the first expiry of a link transaction by their own cases; a flit error
and the expiry of the retry have one effect in every state. -/
theorem scrubbingLinksAndReloads : Obligations.ScrubbingLinksAndReloads := by
  unfold Obligations.ScrubbingLinksAndReloads
  refine ⟨fun s cl bank ecc hstate => act_next (scrubAccess_powered bank ecc hstate), fun s => act_next rfl,
    fun s die part tick w => act_next rfl, ?_,
    fun s cl hstate => act_next (burlapClusterReloadDone_restarting hstate)⟩
  rintro s die part tick w _ rfl
  exact ⟨fun hrec => act_next (linkTransactionTimeout_first_noWindow part hrec),
    fun r g o rank hrec hgrid hop hkind hlift =>
      act_next (linkTransactionTimeout_first_lift part hrec hgrid hop hkind hlift),
    fun r hrec hkind => act_next (linkTransactionTimeout_first_notChambray part hrec hkind)⟩

end Sys2Proof.Machine
end

section
/-!
Memory's canonical form over every step (R94, R210, R428): the files Sys2Proof/Laws/Kept<Part>.lean say what each
operation keeps, and a step is one command or one idle cycle.
-/

namespace Sys2Proof.Machine

open Sys2Proof

/-- Following memory's form, and nothing else. -/
def Keep.memForm : Keep :=
  { mem := true, pins := false, pos := none, plan := none, burnt := 0, retired := false }

theorem kept_memForm {d : Dev} : Kept Keep.memForm d ↔ memOk d.mem :=
  ⟨fun h => h.mem rfl, fun h => ⟨fun _ => h, nofun, nofun, nofun, Nat.zero_le _, nofun⟩⟩

/-- Every step keeps what is followed of the device, where its places in time and in its plan are not. -/
theorem step_kept {q : Keep} {s t : State} (hpos : q.pos = none) (hplan : q.plan = none) (h : Kept q s.dev)
    (hx : step s = .next t) : Kept q t.dev := by
  cases hqueue : s.pending with
  | nil =>
    rw [step_idle hqueue] at hx
    cases hx
    exact idleCycle_kept hpos h
  | cons i rest =>
    have hexec : exec i { s with pending := rest } = .next t := by simpa [step, hqueue] using hx
    exact exec_kept (s := { s with pending := rest }) (fun _ => hpos) (fun _ => hplan) h hexec

/-- Settles O4: memory's form is one of the things that every command and the idle cycle keep. That an unlisted byte reads
as 0 is log entry 5. -/
theorem everyStepKeepsMemoryCanonical : Obligations.EveryStepKeepsMemoryCanonical := by
  unfold Obligations.EveryStepKeepsMemoryCanonical
  intro s t hmem hx
  exact kept_memForm.mp (step_kept rfl rfl (kept_memForm.mpr hmem) hx)

end Sys2Proof.Machine
end

section
/-!
Which commands complete (R196, R200): a core's command waits with its core, five commands of a core stop at an address
without memory, and every other command is an effect.
-/

namespace Sys2Proof.Machine

open Sys2Proof

/-! ### Cores that do not run (R200, R428) -/

/-- A core's command on a core that does not run leaves the machine: its meaning is guarded by the core's running. -/
theorem exec_waits {i : Instr} {s : State} {cl : Fin 132} {co : Fin 64} (hcore : i.onCore = some (cl, co))
    (hwait : s.dev.coreRuns cl.val co.val = false) : exec i s = .next s := by
  have hstop : ¬ s.dev.coreRuns cl.val co.val = true := by simp [hwait]
  cases i with
  | ldv | stvm | mma | radd | dmaq =>
    cases hcore
    exact attempt_some (if_neg hstop)
  | wstart | endOp | wtally | signalOp | loopOp | loopx | endl | movi | addi | accz | accrd | accwr | accscl | vop
  | vcvt | vred | vfn | smax | sexp | srsc | smrg | dmaw | setc | rdnsw | undefinedOpcode =>
    cases hcore
    exact act_next (if_neg hstop)
  | _ => cases hcore

/-- Settles O33: a core's command on a core that does not run is one that waits. -/
theorem coresThatDoNotRunIgnoreInstructions : Obligations.CoresThatDoNotRunIgnoreInstructions := by
  unfold Obligations.CoresThatDoNotRunIgnoreInstructions
  exact fun s cl co i hwait hcore => exec_waits hcore hwait

theorem exec_idle {i : Instr} {s : State} (h : i.idle s.dev = true) : exec i s = .next s := by
  unfold Instr.idle at h
  split at h
  · next cl co hcore => exact exec_waits hcore (by simpa using h)
  · cases h

/-! ### The commands that may stop (R196) -/

/-- The access of a command that may name an address without memory; every other command has none. -/
def coreAccess : Instr → Option (Dev → Option Dev)
  | .ldv cl co v a imm ecc => some (ldv cl co v a imm ecc)
  | .stvm cl co v a m => some (stvm cl co v a m)
  | .mma cl co acc xa xb xk fmt subA subB ecc => some (mma cl co acc xa xb xk fmt subA subB ecc)
  | .radd cl co x v m => some (radd cl co x v m.mask m.ecc)
  | .dmaq cl co x => some (dmaq cl co x)
  | _ => none

theorem exec_of_access {i : Instr} {f : Dev → Option Dev} (h : coreAccess i = some f) (s : State) :
    exec i s = attempt f s := by
  unfold coreAccess at h
  split at h <;> cases h <;> rfl

/-- A command without an access is an effect on the device. -/
theorem exec_of_no_access {i : Instr} (h : coreAccess i = none) (s : State) : ∃ f, exec i s = act f s := by
  cases i with
  | ldv | stvm | mma | radd | dmaq => cases h
  | _ => exact ⟨_, rfl⟩

/-- A command without an access addresses no memory. -/
theorem reaches_of_no_access {i : Instr} (h : coreAccess i = none) (d : Dev) : i.reaches d = true := by
  cases i with
  | ldv | stvm | mma | radd | dmaq => cases h
  | _ => rfl

section Accesses

variable (cl : Fin 132) (co : Fin 64) (d : Dev)

theorem ldv_isSome (v : Fin 32) (a : Fin 16) (imm : Word) (ecc : Ecc) :
    (ldv cl co v a imm ecc d).isSome = ((Instr.ldv cl co v a imm ecc).reaches d || !d.coreRuns cl.val co.val) := by
  cases hrun : d.coreRuns cl.val co.val <;> simp [ldv, Instr.reaches, hrun]

theorem stvm_isSome (v : Fin 32) (a m : Fin 16) :
    (stvm cl co v a m d).isSome = ((Instr.stvm cl co v a m).reaches d || !d.coreRuns cl.val co.val) := by
  cases hrun : d.coreRuns cl.val co.val <;> simp [stvm, Instr.reaches, hrun]

/-- RADD reaches cluster SRAM only. -/
theorem radd_isSome (x : Fin 16) (v : Fin 32) (m : AddLanes) :
    (radd cl co x v m.mask m.ecc d).isSome =
      ((Instr.radd cl co x v m).reaches d || !d.coreRuns cl.val co.val) := by
  cases hrun : d.coreRuns cl.val co.val with
  | false => simp [radd, hrun]
  | true =>
    by_cases hlocal : ((d.core (coreKey cl.val co.val)).xr x).toNat < 0x1000000
    · simp [radd, Instr.reaches, hrun, hlocal, Nat.not_le.mpr hlocal]
    · simp [radd, Instr.reaches, hrun, hlocal, Nat.not_lt.mp hlocal]

/-- DMAQ reaches 8-byte-aligned addresses of cluster SRAM only. -/
theorem dmaq_isSome (x : Fin 16) :
    (dmaq cl co x d).isSome = ((Instr.dmaq cl co x).reaches d || !d.coreRuns cl.val co.val) := by
  cases hrun : d.coreRuns cl.val co.val with
  | false => simp [dmaq, hrun]
  | true =>
    by_cases hlocal : ((d.core (coreKey cl.val co.val)).xr x).toNat < 0x1000000
    · simp [dmaq, Instr.reaches, hrun, hlocal, Nat.not_le.mpr hlocal]
    · by_cases haligned : ((d.core (coreKey cl.val co.val)).xr x).toNat % 8 = 0 <;>
        simp [dmaq, Instr.reaches, hrun, hlocal, Nat.not_lt.mp hlocal, haligned]

/-- MMA needs both operands in memory where its formats are listed and K is above 0. -/
theorem mma_isSome (acc : Fin 8) (xa xb xk : Fin 16) (fmt : BitVec 6) (subA subB : Bool) (ecc : Ecc) :
    (mma cl co acc xa xb xk fmt subA subB ecc d).isSome =
      ((Instr.mma cl co acc xa xb xk fmt subA subB ecc).reaches d || !d.coreRuns cl.val co.val) := by
  cases hrun : d.coreRuns cl.val co.val with
  | false => simp [mma, hrun]
  | true =>
    cases hpair : fmtPair fmt subA subB with
    | none => simp only [mma, Instr.reaches, hrun, hpair, if_true, Option.isSome_some, Bool.true_or]
    | some p =>
      obtain ⟨fa, fb, fp⟩ := p
      by_cases hk : ((d.core (coreKey cl.val co.val)).xr xk).toInt ≤ 0
      · simp only [mma, Instr.reaches, hrun, hpair, hk, if_true, decide_true, Option.isSome_some, Bool.true_or]
      · simp only [mma, Instr.reaches, hrun, hpair, hk, if_true, if_false, decide_false, Bool.false_or,
          Bool.not_true, Bool.or_false]
        cases coreRange cl.val co.val _ (16 * rowStride fa _) with
        | none => rfl
        | some pa => cases coreRange cl.val co.val _ (8 * rowStride fb _) <;> rfl

end Accesses

/-- An access has its effect where the addressed memory exists, and on a core that does not run. -/
theorem access_isSome {i : Instr} {f : Dev → Option Dev} (h : coreAccess i = some f) (d : Dev) :
    (f d).isSome = (i.reaches d || i.idle d) := by
  cases i with
  | ldv => cases h; exact ldv_isSome ..
  | stvm => cases h; exact stvm_isSome ..
  | mma => cases h; exact mma_isSome ..
  | radd => cases h; exact radd_isSome ..
  | dmaq => cases h; exact dmaq_isSome ..
  | _ => cases h

theorem exec_completes {i : Instr} {s : State} (h : i.reaches s.dev = true) :
    ∃ t, exec i s = .next t ∧ t.pending = s.pending := by
  cases haccess : coreAccess i with
  | none =>
    obtain ⟨f, hf⟩ := exec_of_no_access haccess s
    exact ⟨_, hf, rfl⟩
  | some f =>
    obtain ⟨d, hd⟩ := Option.isSome_iff_exists.mp ((access_isSome haccess s.dev).trans (by simp [h]))
    exact ⟨_, (exec_of_access haccess s).trans (attempt_some hd), rfl⟩

theorem exec_stops {i : Instr} {s : State} (hreach : i.reaches s.dev = false) (hidle : i.idle s.dev = false) :
    exec i s = .fault .coreAddress := by
  cases haccess : coreAccess i with
  | none => exact absurd (reaches_of_no_access haccess s.dev) (by simp [hreach])
  | some f =>
    have hnone : f s.dev = none := by
      simpa [hreach, hidle] using access_isSome haccess s.dev
    exact (exec_of_access haccess s).trans (attempt_none hnone)

/-- Settles O2: what completes is an effect or an access that reaches memory, and what stops is an access that does not.
That RADD and DMAQ stop at a core-local address too, and DMAQ at one that is no multiple of 8, is the model's choice:
R200 and R230 name an aligned cluster address and give another no meaning. -/
theorem everyCommandCompletes : Obligations.EveryCommandCompletes := by
  unfold Obligations.EveryCommandCompletes
  exact fun i s => ⟨exec_completes, exec_idle, exec_stops⟩

end Sys2Proof.Machine
end

section
/-!
The instructions of a core that runs (R200): control flow, windows and tallies, and the accesses to memory.
-/

namespace Sys2Proof.Machine

open Sys2Proof

variable {cl : Fin 132} {co : Fin 64} {d : Dev} {c : CoreState}

/-! ### Instructions that change their core alone (R200, R201) -/

theorem coreOp_running {f : CoreState → CoreState} (hrun : d.coreRuns cl.val co.val = true)
    (hc : c = d.core (coreKey cl.val co.val)) :
    coreOp cl co f d = d.setCore (coreKey cl.val co.val) (f c).next := by
  subst hc
  exact if_pos hrun

theorem flag_nswIf (c : CoreState) (p : Prop) [Decidable p] (b : BitVec 8) :
    c.flag (nswIf (decide p) b) = if p then c.flag b else c := by
  by_cases hp : p <;> simp [CoreState.flag, nswIf, hp]

theorem loopTimes_of_inside {imm : Word} (hlo : 1 ≤ imm.toNat) (hhi : imm.toNat ≤ 65535) :
    loopTimes imm = imm.setWidth 16 := if_pos ⟨hlo, hhi⟩

section Loopx

variable {l : Fin 4} {a : Fin 16} {imm : Word} {c1 : CoreState} (hrun : d.coreRuns cl.val co.val = true)
  (hc : c = d.core (coreKey cl.val co.val))
  (hc1 : c1 = if imm.toNat < (c.xr a).toNat then c.flag nswLoopClamp else c)

include hrun hc hc1

theorem loopx_opens (hn : min (c.xr a).toNat imm.toNat ≠ 0) : loopx cl co l a imm d =
    d.setCore (coreKey cl.val co.val) (c1.openLoop l (BitVec.ofNat 16 (min (c.xr a).toNat imm.toNat))).next := by
  rw [loopx, coreOp_running hrun hc, if_neg hn, flag_nswIf, hc1]

theorem loopx_skips {e : Nat} (hn : min (c.xr a).toNat imm.toNat = 0)
    (he : matchEnd c1 l.val 2048 (c1.pc + 1) 0 = some e) :
    loopx cl co l a imm d = d.setCore (coreKey cl.val co.val) ({ c1 with pc := e } : CoreState).next := by
  rw [loopx, coreOp_running hrun hc, if_pos hn, flag_nswIf, ← hc1, he]

theorem loopx_unmatched (hn : min (c.xr a).toNat imm.toNat = 0)
    (he : matchEnd c1 l.val 2048 (c1.pc + 1) 0 = none) :
    loopx cl co l a imm d = d.setCore (coreKey cl.val co.val) c1.next := by
  rw [loopx, coreOp_running hrun hc, if_pos hn, flag_nswIf, ← hc1, he]

end Loopx

section Endl

variable {l : Fin 4} {n : BitVec 16} {c1 : CoreState} (hrun : d.coreRuns cl.val co.val = true)
  (hc : c = d.core (coreKey cl.val co.val)) (hn : n = bget 0#16 l.val c.lc - 1#16)
  (hc1 : c1 = { c with lc := bput 0 l.val n c.lc })

include hrun hc hn hc1

theorem endl_returns {start : Nat} {rest : List (Nat × Nat)} (hloop : c.loops = (start, l.val) :: rest)
    (hleft : n ≠ 0#16) : endl cl co l d = d.setCore (coreKey cl.val co.val) { c1 with pc := start } := by
  simp [endl, hrun, ← hc, ← hn, hloop, hleft, hc1]

theorem endl_closes {start : Nat} {rest : List (Nat × Nat)} (hloop : c.loops = (start, l.val) :: rest)
    (hlast : n = 0#16) :
    endl cl co l d = d.setCore (coreKey cl.val co.val) { c1 with pc := c1.pc + 1, loops := rest } := by
  simp [endl, hrun, ← hc, ← hn, hloop, hlast, hc1]

theorem endl_other (hloop : ∀ start rest, c.loops ≠ (start, l.val) :: rest) :
    endl cl co l d = d.setCore (coreKey cl.val co.val) c1.next := by
  subst hn hc1
  cases hopen : c.loops with
  | nil => simp [endl, hrun, ← hc, hopen]
  | cons x rest =>
    have hx : x.2 ≠ l.val := fun hx => hloop x.1 rest (by rw [hopen, ← hx])
    simp [endl, hrun, ← hc, hopen, hx]

end Endl

/-- Settles O26: each instruction is an effect on its core alone, LOOPX and ENDL by their own cases. A count of LOOP
outside 1 to 65,535 is log entry 65; a fifth open loop and LOOPX without a matching ENDL are log entry 214. -/
theorem coreScalarInstructions : Obligations.CoreScalarInstructions := by
  unfold Obligations.CoreScalarInstructions
  refine ⟨fun s cl co c hrun hc => ⟨?_, ?_, ?_, ?_, ?_⟩, fun imm => loopTimes_of_inside, ?_, ?_⟩
  · exact fun x imm => act_next (coreOp_running hrun hc)
  · exact fun x a imm => act_next (coreOp_running hrun hc)
  · exact fun imm => act_next (coreOp_running hrun hc)
  · exact fun x => act_next (coreOp_running hrun hc)
  · exact fun l imm => act_next (coreOp_running hrun hc)
  · exact fun s cl co c l a imm c1 hrun hc hc1 =>
      ⟨fun hn => act_next (loopx_opens hrun hc hc1 hn), fun e hn he => act_next (loopx_skips hrun hc hc1 hn he),
        fun hn he => act_next (loopx_unmatched hrun hc hc1 hn he)⟩
  · exact fun s cl co c l n c1 hrun hc hn hc1 =>
      ⟨fun start rest hloop hleft => act_next (endl_returns hrun hc hn hc1 hloop hleft),
        fun start rest hloop hlast => act_next (endl_closes hrun hc hn hc1 hloop hlast),
        fun hloop => act_next (endl_other hrun hc hn hc1 hloop)⟩

/-! ### Windows, tallies and transfers that a core waits for (R200, R205, R206) -/

section Running

variable (hrun : d.coreRuns cl.val co.val = true) (hc : c = d.core (coreKey cl.val co.val))

include hrun hc

theorem wstart_released {imm : Word} {key : Nat} (hwindow : c.window = some key) (hkey : key % 65536 = imm.toNat) :
    wstart cl co imm d = d.setCore (coreKey cl.val co.val) c.next := by
  simp [wstart, hrun, ← hc, hwindow, hkey]

theorem wstart_waits {imm : Word} (hwindow : ∀ key, c.window = some key → key % 65536 ≠ imm.toNat) :
    wstart cl co imm d = d.setCore (coreKey cl.val co.val) { c with run := .waiting (.window imm.toNat) } := by
  cases hin : c.window with
  | none => simp [wstart, hrun, ← hc, hin]
  | some key => simp [wstart, hrun, ← hc, hin, hwindow key hin]

theorem wtally_met {t : Fin 256} {imm : Word} (hmet : imm.toNat ≤ d.tally cl.val t.val) :
    wtally cl co t imm d = drain c.window (d.setCore (coreKey cl.val co.val) c.next) := by
  simp [wtally, hrun, ← hc, hmet]

theorem wtally_waits {t : Fin 256} {imm : Word} (hbelow : d.tally cl.val t.val < imm.toNat) :
    wtally cl co t imm d =
      d.setCore (coreKey cl.val co.val) { c with run := .waiting (.tally t.val imm.toNat) } := by
  simp [wtally, hrun, ← hc, Nat.not_le.mpr hbelow]

theorem dmaw_met {imm : Word} (hmet : d.outstanding cl.val co.val ≤ imm.toNat) :
    dmaw cl co imm d = d.setCore (coreKey cl.val co.val) c.next := by
  simp [dmaw, hrun, ← hc, hmet]

theorem dmaw_waits {imm : Word} (habove : imm.toNat < d.outstanding cl.val co.val) :
    dmaw cl co imm d = d.setCore (coreKey cl.val co.val) { c with run := .waiting (.dma imm.toNat) } := by
  simp [dmaw, hrun, ← hc, Nat.not_le.mpr habove]

theorem signalOp_named {x : Fin 16} {target : Nat} (hx : signalTarget (c.xr x) = some target) :
    signalOp cl co x d =
      incTally target ((c.xr x).toNat % 65536) (d.setCore (coreKey cl.val co.val) c.next) := by
  simp [signalOp, hrun, ← hc, hx]

theorem signalOp_unnamed {x : Fin 16} (hx : signalTarget (c.xr x) = none) :
    signalOp cl co x d = d.setCore (coreKey cl.val co.val) c.next := by
  simp [signalOp, hrun, ← hc, hx]

theorem endOp_noWindow (hwindow : c.window = none) :
    endOp cl co d = d.setCore (coreKey cl.val co.val) { c.next with window := none, run := .stopped } := by
  simp [endOp, hrun, ← hc, hwindow]

theorem endOp_window {key : Nat} (hwindow : c.window = some key) :
    endOp cl co d = closeFlags (winOfKey key).1 (winOfKey key).2.1
      (leaveWindow (coreKey cl.val co.val) key (c.nsw.getLsbD 0) (noteFlags (winOfKey key).2.1
        (d.setCore (coreKey cl.val co.val) { c.next with window := none, run := .stopped })
        (coreKey cl.val co.val))) cl.val := by
  simp [endOp, hrun, ← hc, hwindow]

theorem undefinedOpcode_noWindow (hwindow : c.window = none) : undefinedOpcode cl co d =
    d.setCore (coreKey cl.val co.val) { c.flag nswInvalid with run := .stopped } := by
  simp [undefinedOpcode, hrun, ← hc, hwindow]

theorem undefinedOpcode_overruns {d1 : Dev} {key : Nat} {r : WindowRec}
    (hd1 : d1 = d.setCore (coreKey cl.val co.val) { c.flag nswInvalid with run := .stopped })
    (hwindow : c.window = some key)
    (hrec : d1.windowRec (winOfKey key).1 (winOfKey key).2.1 (winOfKey key).2.2 = some r) :
    undefinedOpcode cl co d = overrun (winOfKey key).1 (winOfKey key).2.1 (winOfKey key).2.2 r d1 := by
  subst hd1
  simp [undefinedOpcode, hrun, ← hc, hwindow, hrec]

end Running

/-- Settles O27: each clause is one case of its instruction. SIGNAL without a named tally is log entry 68, the drain of
held additions at WTALLY (R219) log entry 69. -/
theorem coreWindowInstructions : Obligations.CoreWindowInstructions := by
  unfold Obligations.CoreWindowInstructions
  refine ⟨fun s cl co c hrun hc => ⟨?_, ?_, ?_, ?_, ?_, ?_, ?_, ?_⟩, ?_, ?_⟩
  · exact fun imm key hwindow hkey => act_next (wstart_released hrun hc hwindow hkey)
  · exact fun imm hwindow => act_next (wstart_waits hrun hc hwindow)
  · exact fun t imm hmet => act_next (wtally_met hrun hc hmet)
  · exact fun t imm hbelow => act_next (wtally_waits hrun hc hbelow)
  · exact fun imm hmet => act_next (dmaw_met hrun hc hmet)
  · exact fun imm habove => act_next (dmaw_waits hrun hc habove)
  · exact fun x target hx => act_next (signalOp_named hrun hc hx)
  · exact fun x hx => act_next (signalOp_unnamed hrun hc hx)
  · rintro s cl co c _ hrun hc rfl
    exact ⟨fun hwindow => act_next (endOp_noWindow hrun hc hwindow),
      fun key hwindow => act_next (endOp_window hrun hc hwindow)⟩
  · exact fun s cl co c d1 hrun hc hd1 =>
      ⟨fun hwindow => act_next ((undefinedOpcode_noWindow hrun hc hwindow).trans hd1.symm),
        fun key r hwindow hrec => act_next (undefinedOpcode_overruns hrun hc hd1 hwindow hrec)⟩

/-! ### Loads, stores, reduce-adds and descriptors (R196, R203, R204, R230) -/

section Running

variable (hrun : d.coreRuns cl.val co.val = true) (hc : c = d.core (coreKey cl.val co.val))

include hrun hc

theorem ldv_inside {v : Fin 32} {a : Fin 16} {imm : Word} {p : Nat} (ecc : Ecc)
    (hp : coreRange cl.val co.val (c.xr a + imm).toNat 64 = some p) :
    ldv cl co v a imm ecc d = some (eccRead cl.val c.window ecc (d.setCore (coreKey cl.val co.val)
      (c.setVec v.val (fun i => BitVec.ofNat 32 (d.readLe (p + 4 * i) 4))).next)) := by
  subst hc
  simp only [ldv, hrun, if_true, hp, Option.map_some]

theorem ldv_outside {v : Fin 32} {a : Fin 16} {imm : Word} (ecc : Ecc)
    (hp : coreRange cl.val co.val (c.xr a + imm).toNat 64 = none) : ldv cl co v a imm ecc d = none := by
  simp only [ldv, hrun, if_true, ← hc, hp, Option.map_none]

theorem stvm_outside {v : Fin 32} {a m : Fin 16}
    (hps : lanePlaces cl.val co.val (c.xr a).toNat (c.xr m) = none) : stvm cl co v a m d = none := by
  simp [stvm, hrun, ← hc, hps]

theorem radd_inside {x : Fin 16} {v : Fin 32} {m : Fin 16} (ecc : Ecc) {ps : List (Nat × Nat)}
    (hcluster : 0x1000000 ≤ (c.xr x).toNat)
    (hps : lanePlaces cl.val co.val (c.xr x).toNat (c.xr m) = some ps) :
    radd cl co x v m ecc d = some (eccRead cl.val c.window ecc (ps.foldl
      (fun e p => reduceAdd (d.fixedOrder cl.val co.val) c.window cl.val co.val p.2 (c.lane v.val p.1) e)
      (d.setCore (coreKey cl.val co.val) c.next))) := by
  simp [radd, hrun, ← hc, Nat.not_lt.mpr hcluster, hps]

theorem radd_local {x : Fin 16} {v : Fin 32} {m : Fin 16} (ecc : Ecc) (hlocal : (c.xr x).toNat < 0x1000000) :
    radd cl co x v m ecc d = none := by
  simp [radd, hrun, ← hc, hlocal]

section Dmaq

variable {x : Fin 16} {p : Nat} (haligned : (c.xr x).toNat % 8 = 0) (hcluster : 0x1000000 ≤ (c.xr x).toNat)
  (hp : coreRange cl.val co.val (c.xr x).toNat 0x40 = some p)

include haligned hcluster hp

theorem dmaq_queues (hroom : d.outstanding cl.val co.val < 8) :
    dmaq cl co x d = some (enqueue cl.val co.val p (d.setCore (coreKey cl.val co.val) c.next)) := by
  simp [dmaq, hrun, ← hc, haligned, Nat.not_lt.mpr hcluster, hp, hroom]

theorem dmaq_waits (hfull : 8 ≤ d.outstanding cl.val co.val) : dmaq cl co x d =
    some (d.setCore (coreKey cl.val co.val) { c with run := .waiting (.dmaQueue p) }) := by
  simp [dmaq, hrun, ← hc, haligned, Nat.not_lt.mpr hcluster, hp, Nat.not_lt.mpr hfull]

end Dmaq

theorem dmaq_unplaced {x : Fin 16} (hbad : (c.xr x).toNat % 8 ≠ 0 ∨ (c.xr x).toNat < 0x1000000) :
    dmaq cl co x d = none := by
  simp only [dmaq, hrun, ← hc, if_true]
  exact if_pos (by simpa using hbad)

end Running

/-- Settles O28: each access has its effect where its addresses exist and none where they do not. Additions held back in
fixed-order mode (R219) are log entry 69; the stop of RADD at a core-local address, and of DMAQ at such an address or a
misaligned one, is the model's choice. -/
theorem coreMemoryInstructions : Obligations.CoreMemoryInstructions := by
  unfold Obligations.CoreMemoryInstructions
  refine ⟨fun s cl co c v a imm ecc hrun hc => ⟨fun p hp => ?_, fun hp => ?_⟩,
    fun s cl co c v a m hrun hc => ⟨fun ps hps => ?_, fun hps => ?_⟩,
    fun s cl co c x v m hrun hc => ⟨fun ps hcluster hps => ?_, fun hlocal => ?_⟩,
    fun s cl co c x hrun hc => ⟨fun p haligned hcluster hp => ⟨fun hroom => ?_, fun hfull => ?_⟩, fun hbad => ?_⟩⟩
  · exact attempt_some (ldv_inside hrun hc ecc hp)
  · exact attempt_none (ldv_outside hrun hc ecc hp)
  · exact ⟨_, attempt_some (stvm_eq_storeLanes v hrun hc hps), rfl, fun b hb => byte_storeLanes_outside _ _ hb⟩
  · exact attempt_none (stvm_outside hrun hc hps)
  · exact attempt_some (radd_inside hrun hc m.ecc hcluster hps)
  · exact attempt_none (radd_local hrun hc m.ecc hlocal)
  · exact attempt_some (dmaq_queues hrun hc haligned hcluster hp hroom)
  · exact attempt_some (dmaq_waits hrun hc haligned hcluster hp hfull)
  · exact attempt_none (dmaq_unplaced hrun hc hbad)

end Sys2Proof.Machine
end

section
/-!
The matrix unit, the vector unit and the online-softmax instructions of a core that runs (R197 to R200, R213 to R217).
-/

namespace Sys2Proof.Machine

open Sys2Proof

variable {cl : Fin 132} {co : Fin 64} {d : Dev} {c : CoreState}

/-! ### MMA (R197, R213, R214) -/

section Mma

variable {acc : Fin 8} {xa xb xk : Fin 16} {fmt : BitVec 6} {subA subB : Bool} {ecc : Ecc} {fa fb : Format} {fp : Bool}
  (hrun : d.coreRuns cl.val co.val = true) (hc : c = d.core (coreKey cl.val co.val))

include hrun hc

theorem mma_unlisted (hpair : fmtPair fmt subA subB = none) : mma cl co acc xa xb xk fmt subA subB ecc d =
    some (d.setCore (coreKey cl.val co.val) (c.flag nswInvalid).next) := by
  simp [mma, hrun, ← hc, hpair]

variable (hpair : fmtPair fmt subA subB = some (fa, fb, fp))

include hpair

theorem mma_noSteps (hk : (c.xr xk).toInt ≤ 0) : mma cl co acc xa xb xk fmt subA subB ecc d =
    some (d.setCore (coreKey cl.val co.val) c.next) := by
  simp [mma, hrun, ← hc, hpair, hk]

variable (hk : 0 < (c.xr xk).toInt)

include hk

theorem mma_accumulates {pa pb : Nat}
    (ha : coreRange cl.val co.val (c.xr xa).toNat (16 * rowStride fa (c.xr xk).toNat) = some pa)
    (hb : coreRange cl.val co.val (c.xr xb).toNat (8 * rowStride fb (c.xr xk).toNat) = some pb) :
    mma cl co acc xa xb xk fmt subA subB ecc d = some (eccRead cl.val c.window ecc
      (d.setCore (coreKey cl.val co.val) (mmaCore d acc.val fa fb fp pa pb (c.xr xk).toNat c).next)) := by
  simp [mma, hrun, ← hc, hpair, Int.not_le.mpr hk, ha, hb]

theorem mma_outside
    (ha : coreRange cl.val co.val (c.xr xa).toNat (16 * rowStride fa (c.xr xk).toNat) = none) :
    mma cl co acc xa xb xk fmt subA subB ecc d = none := by
  simp [mma, hrun, ← hc, hpair, Int.not_le.mpr hk, ha]

end Mma

/-- Settles O30: the accumulator instructions are effects on their core alone, and each clause of MMA is one of its cases.
The distance of an operand's rows, rounded up to 8 bytes, is log entry 61; the stop is the model's. -/
theorem matrixUnitInstructions : Obligations.MatrixUnitInstructions := by
  unfold Obligations.MatrixUnitInstructions
  refine ⟨fun s cl co c hrun hc => ⟨?_, ?_, ?_, ?_⟩, fun s cl co c acc xa xb xk fmt subA subB ecc hrun hc =>
    ⟨fun hpair => ?_, fun fa fb fp hpair => ⟨fun hk => ?_, fun pa pb hk ha hb => ?_, fun hk ha => ?_⟩⟩⟩
  · exact fun a fp => act_next (coreOp_running hrun hc)
  · exact fun v a col => act_next (coreOp_running hrun hc)
  · exact fun a v col => act_next (coreOp_running hrun hc)
  · rintro a v _ rfl
    exact act_next (coreOp_running hrun hc)
  · exact attempt_some (mma_unlisted hrun hc hpair)
  · exact attempt_some (mma_noSteps hrun hc hpair hk)
  · exact attempt_some (mma_accumulates hrun hc hpair hk ha hb)
  · exact attempt_none (mma_outside hrun hc hpair hk ha)

/-! ### The vector unit (R198, R215 to R217) -/

section Vop

variable {op : VOp} {vd va vb vc : Fin 32} (hrun : d.coreRuns cl.val co.val = true)
  (hc : c = d.core (coreKey cl.val co.val)) (hgt : op ≠ .cmpgt) (hselect : op ≠ .select)

include hrun hc hgt hselect

/-- An operation that is neither cmpgt nor select works lane by lane, on INT32. -/
theorem vop_int_lanes : vop cl co op true vd va vb vc d = d.setCore (coreKey cl.val co.val) (c.setVec vd.val
    (fun i => vopInt op (c.lane va.val i) (c.lane vb.val i) (c.lane vc.val i))).next := by
  rw [vop, coreOp_running hrun hc]
  cases op with
  | cmpgt => exact absurd rfl hgt
  | select => exact absurd rfl hselect
  | _ => rfl

/-- An operation that is neither cmpgt nor select works lane by lane, on FP32. -/
theorem vop_fp_lanes : vop cl co op false vd va vb vc d = d.setCore (coreKey cl.val co.val) (c.setRes vd.val
    (fun i => vopFp op (c.lane va.val i) (c.lane vb.val i) (c.lane vc.val i))).next := by
  rw [vop, coreOp_running hrun hc]
  cases op with
  | cmpgt => exact absurd rfl hgt
  | select => exact absurd rfl hselect
  | _ => rfl

end Vop

section Vcvt

variable {vd va : Fin 32} {int sat : Bool} {f : Format} {shift : BitVec 8} (hrun : d.coreRuns cl.val co.val = true)
  (hc : c = d.core (coreKey cl.val co.val))

include hrun hc

theorem vcvt_block (hf : f.block = true) : vcvt cl co vd va int f sat shift d =
    d.setCore (coreKey cl.val co.val) (convBlock c vd.val va.val int f shift.toInt).next := by
  rw [vcvt, coreOp_running hrun hc, if_pos hf]

theorem vcvt_lanes (hf : f.block = false) : vcvt cl co vd va int f sat shift d =
    d.setCore (coreKey cl.val co.val) (convLanes c vd.val va.val int f sat shift.toInt).next := by
  rw [vcvt, coreOp_running hrun hc, if_neg (by simp [hf])]

end Vcvt

theorem vopInt_min_toInt (a b c : Word) : (vopInt .min a b c).toInt = min a.toInt b.toInt := by
  rw [vopInt]
  split
  · next h => exact (min_eq_left h).symm
  · next h => exact (min_eq_right (Int.le_of_not_le h)).symm

theorem vopInt_max_toInt (a b c : Word) : (vopInt .max a b c).toInt = max a.toInt b.toInt := by
  rw [vopInt]
  split
  · next h => exact (max_eq_right h).symm
  · next h => exact (max_eq_left (Int.le_of_not_le h)).symm

/-- Settles O31: each instruction is an effect on its core alone, VOP and VCVT by their two cases. The mask in lane 0 of Vc
and the lanes that a reduction keeps are log entry 63, VCVT to FP32, INT32 and UINT8 log entry 64. -/
theorem vectorUnitInstructions : Obligations.VectorUnitInstructions := by
  unfold Obligations.VectorUnitInstructions
  refine ⟨fun s cl co c hrun hc => ⟨?_, ?_, ?_, ?_, ?_, ?_, ?_, ?_, ?_⟩, fun a b c => ?_⟩
  · exact fun op vd va vb vc hgt hselect => act_next (vop_int_lanes hrun hc hgt hselect)
  · exact fun op vd va vb vc hgt hselect => act_next (vop_fp_lanes hrun hc hgt hselect)
  · exact fun int vd va vb vc => act_next (coreOp_running hrun hc)
  · exact fun int vd va vb vc => act_next (coreOp_running hrun hc)
  · exact fun vd va int f sat shift hf => act_next (vcvt_block hrun hc hf)
  · exact fun vd va int f sat shift hf => act_next (vcvt_lanes hrun hc hf)
  · exact fun vd va => act_next (coreOp_running hrun hc)
  · exact fun vd va => ⟨_, rfl, act_next (coreOp_running hrun hc)⟩
  · exact fun vd va f => act_next (coreOp_running hrun hc)
  · exact ⟨rfl, rfl, rfl, rfl, rfl, rfl, rfl, rfl, vopInt_min_toInt a b c, vopInt_max_toInt a b c⟩

/-! ### The online-softmax group (R199) -/

/-- A row whose scores so far are all masked has the rescale factor 1. -/
theorem rescale_masked (old scale : F32) : rescale old f32NegInf scale = { v := 0x3F800000 } := if_pos rfl

/-- Settles O32: each instruction is an effect on its core alone. Register numbers past 31 wrap (log entry 63). -/
theorem softmaxInstructions : Obligations.SoftmaxInstructions := by
  unfold Obligations.SoftmaxInstructions
  refine ⟨fun s cl co c hrun hc => ⟨?_, ?_, ?_, ?_⟩, fun old scale => ?_⟩
  · exact fun vd vs n => act_next (coreOp_running hrun hc)
  · exact fun vs vm vl n => act_next (coreOp_running hrun hc)
  · rintro va vm vd vl _ rfl
    exact act_next (coreOp_running hrun hc)
  · rintro vd vs _ _ _ _ _ _ rfl rfl rfl rfl rfl rfl
    exact act_next (coreOp_running hrun hc)
  · rw [rescale_masked]

end Sys2Proof.Machine
end

section
/-!
Transfers (R230 to R235): the start of a descriptor, the move of its data at completion, and the time-out.
-/

namespace Sys2Proof.Machine

open Sys2Proof

variable {cl : Fin 132} {n : Nat} {x : Transfer} {d : Dev}

/-! ### TRANSFER_START (R205, R207, R235) -/

section Start

variable {ecc : Ecc} (hnext : (d.cluster cl.val).dma.findIdx? (fun t => t.started.isNone) = some n)
  (hx : (d.cluster cl.val).dma[n]? = some x)

include hnext hx

theorem transferStart_lost (hecc : ecc = .uncorrectable) : transferStart cl ecc d =
    eccRead cl.val x.window ecc (releaseTransfer cl.val n x.core d) := by
  simp [transferStart, hnext, hx, hecc]

variable {d1 : Dev} (hecc : ecc ≠ .uncorrectable) (hd1 : d1 = eccRead cl.val x.window ecc d)

include hecc hd1

theorem transferStart_refused {code : Nat}
    (herr : transferError (d1.tableOf cl.val x.window) (d.readTransfer x.addr) = some code) :
    transferStart cl ecc d = refuseTransfer cl.val n x code d1 := by
  subst hd1
  simp [transferStart, hnext, hx, hecc, herr]

theorem transferStart_started {src dst : Tensor}
    (herr : transferError (d1.tableOf cl.val x.window) (d.readTransfer x.addr) = none)
    (hsrc : tensorOf (d1.tableOf cl.val x.window) (d.readTransfer x.addr).src = some src)
    (hdst : tensorOf (d1.tableOf cl.val x.window) (d.readTransfer x.addr).dst = some dst) :
    transferStart cl ecc d = d1.modCluster cl.val (fun c => { c with
      dma := setNth n { x with
        route := d1.routeOf x.window (d.readTransfer x.addr) src dst
        started := some (d.readTransfer x.addr, d1.now, d1.time.k) } c.dma }) := by
  subst hd1
  simp [transferStart, hnext, hx, hecc, herr, hsrc, hdst]

end Start

section Started

variable {t : TransferDesc} {since : Nanos} {k : Nat} (hx : (d.cluster cl.val).dma[n]? = some x)
  (hstarted : x.started = some (t, since, k))

include hx hstarted

/-! ### TRANSFER_COMPLETE (R206, R209, R232, R300) -/

theorem transferComplete_arrived {ecc : List Ecc} {d1 : Dev}
    (harrives : d.arrives cl.val n (d.tableOf cl.val x.window) t = true)
    (hd1 : d1 = releaseTransfer cl.val n x.core
      (moveData (d.moveCtx cl.val x) (d.tableOf cl.val x.window) t (fun _ => true) d)) :
    transferComplete cl n ecc d = ((readsOf t).zip ecc).foldl (tensorEcc (d.tableOf cl.val x.window) t x.window)
      (packetComplete (d.tableOf cl.val x.window) t.dst
        (if t.tallyEn = true then incTally (tallyCluster cl.val (d.tableOf cl.val x.window) t) t.tally d1 else d1)) := by
  subst hd1
  simp [transferComplete, hx, hstarted, harrives]

/-! ### TRANSFER_TIMEOUT (R205, R235, R320) -/

theorem transferTimeout_early (hearly : d.now < since + 100 * usNs) : transferTimeout cl n d = d := by
  simp [transferTimeout, hx, hstarted, hearly]

variable {d1 d2 : Dev} (hlate : since + 100 * usNs ≤ d.now)
  (hd1 : d1 = moveData (d.moveCtx cl.val x) (d.tableOf cl.val x.window) t (Config.landed d.freeCtr)
    { d with freeCtr := d.freeCtr + 1 })
  (hd2 : d2 = faultKey x.window (releaseTransfer cl.val n x.core
    (satEvent (barTwl cl.val + 4) (d1.cluster cl.val).timeout (d1.cluster cl.val).timeout.inc
      (d1.modCluster cl.val (fun c => { c with timeout := (d1.cluster cl.val).timeout.inc })))))

include hlate hd1 hd2

theorem transferTimeout_noPacket (hpacket : d2.packetUnit t.dst = none) : transferTimeout cl n d = d2 := by
  subst hd1 hd2
  simp [transferTimeout, hx, hstarted, Nat.not_lt.mpr hlate, hpacket]

theorem transferTimeout_packet {u : Nat} (hpacket : d2.packetUnit t.dst = some u) :
    transferTimeout cl n d = if (d2.srgUnit u).state = .fault then d2 else faultUnit u 3 false d2 := by
  subst hd1 hd2
  simp [transferTimeout, hx, hstarted, Nat.not_lt.mpr hlate, hpacket]

end Started

/-- Settles O34: each clause is one case of a start, a completion or a time-out. That the data moves at completion and
that an abandoned transfer has landed a free part of it is log entry 71, the order of the checks and their codes log
entry 72. -/
theorem transfersMoveDataAtCompletion : Obligations.TransfersMoveDataAtCompletion := by
  unfold Obligations.TransfersMoveDataAtCompletion
  refine ⟨fun s cl n x hnext hx => ⟨fun hecc => ?_, fun d1 hecc hd1 => ⟨fun code herr => ?_, ?_⟩⟩,
    fun s cl n ecc x t since k d1 hx hstarted harrives hd1 => ?_,
    fun s cl n x t since k d1 d2 hx hstarted => ⟨fun hearly => ?_, fun hlate hd1 hd2 =>
      ⟨fun hpacket => ?_, fun u hpacket => ?_⟩⟩⟩
  · exact act_next (transferStart_lost hnext hx hecc)
  · exact act_next (transferStart_refused hnext hx hecc hd1 herr)
  · exact fun src dst herr hsrc hdst => act_next (transferStart_started hnext hx hecc hd1 herr hsrc hdst)
  · exact act_next (transferComplete_arrived hx hstarted harrives hd1)
  · exact act_next (transferTimeout_early hx hstarted hearly)
  · exact act_next (transferTimeout_noPacket hx hstarted hlate hd1 hd2 hpacket)
  · exact act_next (transferTimeout_packet hx hstarted hlate hd1 hd2 hpacket)

end Sys2Proof.Machine
end

section
/-!
The end of a golden segment (R391, R392, R446): the signatures of the 64 cores against the segment's.
-/

namespace Sys2Proof.Machine

open Sys2Proof

variable {cl : Fin 132} {sigs : List (BitVec 64)} {roShift : BitVec 16} {d : Dev}

theorem goldenSegmentEnd_noVisit (hvisit : (d.golden cl.val).running = false) :
    goldenSegmentEnd cl sigs roShift d = d := by
  simp [goldenSegmentEnd, hvisit]

section Visit

variable {seg : GoldenSeg} {d0 : Dev} (hvisit : (d.golden cl.val).running = true)
  (hseg : d.image.safety.segs[(d.golden cl.val).seg]? = some seg)
  (hd0 : d0 = { d with health := { d.health with roShift := bput 0 cl.val roShift.toNat d.health.roShift } })

include hvisit hseg hd0

/-- A segment ends by the comparison of its signatures, once the oscillators' shift is recorded. -/
theorem goldenSegmentEnd_visit : goldenSegmentEnd cl sigs roShift d =
    if (List.range 64).all (fun co => decide (sigs[co]? = some seg.sig)) then
      if (d.golden cl.val).seg + 1 < d.image.safety.segs.length then
        startSegment cl.val ((d.golden cl.val).seg + 1)
          (d0.setGolden cl.val { d.golden cl.val with seg := (d.golden cl.val).seg + 1 })
      else endCondition 0x0008 cl.val
        (endVisit cl.val { d.golden cl.val with seg := 0, fails := 0, passed := true } d0)
    else failVisit cl.val d0 := by
  have himage : d0.image = d.image := by rw [hd0]; rfl
  rw [goldenSegmentEnd, if_neg (by simp [hvisit]), ← hd0]
  simp only [himage, hseg]

theorem goldenSegmentEnd_failed (hsigs : ∃ co, co < 64 ∧ sigs[co]? ≠ some seg.sig) :
    goldenSegmentEnd cl sigs roShift d = failVisit cl.val d0 := by
  rw [goldenSegmentEnd_visit hvisit hseg hd0, if_neg (by simpa using hsigs)]

variable (hsigs : ∀ co, co < 64 → sigs[co]? = some seg.sig)

include hsigs

theorem goldenSegmentEnd_goesOn (hmore : (d.golden cl.val).seg + 1 < d.image.safety.segs.length) :
    goldenSegmentEnd cl sigs roShift d = startSegment cl.val ((d.golden cl.val).seg + 1)
      (d0.setGolden cl.val { d.golden cl.val with seg := (d.golden cl.val).seg + 1 }) := by
  rw [goldenSegmentEnd_visit hvisit hseg hd0, if_pos (by simpa using hsigs), if_pos hmore]

theorem goldenSegmentEnd_passed (hlast : d.image.safety.segs.length ≤ (d.golden cl.val).seg + 1) :
    goldenSegmentEnd cl sigs roShift d = endCondition 0x0008 cl.val
      (endVisit cl.val { d.golden cl.val with seg := 0, fails := 0, passed := true } d0) := by
  rw [goldenSegmentEnd_visit hvisit hseg hd0, if_pos (by simpa using hsigs), if_neg (Nat.not_lt.mpr hlast)]

end Visit

/-- Settles O39: the comparison of the 64 signatures decides between the next segment, the pass and the failure. -/
theorem goldenVisitsPassOrFail : Obligations.GoldenVisitsPassOrFail := by
  unfold Obligations.GoldenVisitsPassOrFail
  exact ⟨fun s cl sigs roShift seg d0 hvisit hseg hd0 =>
      ⟨fun hsigs hmore => act_next (goldenSegmentEnd_goesOn hvisit hseg hd0 hsigs hmore),
        fun hsigs hlast => act_next (goldenSegmentEnd_passed hvisit hseg hd0 hsigs hlast),
        fun hsigs => act_next (goldenSegmentEnd_failed hvisit hseg hd0 hsigs)⟩,
    fun s cl sigs roShift hvisit => act_next (goldenSegmentEnd_noVisit hvisit)⟩

end Sys2Proof.Machine
end

section
/-!
The words of the opcode table and of the cores' instruction memories (R200).
-/

namespace Sys2Proof.Machine

open Sys2Proof

/-! ### The opcode table -/

theorem decodeTableWord_eq_none (nbits w : Nat) : decodeTableWord nbits w = none := rfl

theorem withFetchWord_eq_self (s : State) (nbits w : Nat) : s.withFetchWord nbits w = s := by
  rw [State.withFetchWord, decodeTableWord_eq_none]

/-! ### The fields of a core's word -/

theorem wordField_opcode (x : BitVec 64) : wordField x 0 8 = x.toNat % 2 ^ 8 := by
  simp [wordField]

theorem regField_eq_some {m : Nat} {x : BitVec 64} {i : Nat} {r : Fin m}
    (h : x.toNat / 2 ^ (8 + 5 * i) % 2 ^ 5 = r.val) : regField m x i = some r := by
  have hfield : wordField x (8 + 5 * i) 5 = r.val := h
  simp only [regField, hfield, r.isLt, dif_pos]

/-! ### The command that a word spells -/

section Word

variable {cl : Fin 132} {co : Fin 64} {side : CoreSide} {x : BitVec 64}

theorem coreCommand_of_unnamed (hop : opcodes.contains (x.toNat % 2 ^ 8) = false) :
    coreCommand cl co side x = some (.undefinedOpcode cl co) := by
  rw [coreCommand, wordField_opcode, hop]
  rfl

theorem coreCommand_of_named (hop : opcodes.contains (x.toNat % 2 ^ 8) = true) : coreCommand cl co side x =
    (flowWord cl co x).or ((scalarWord cl co side x).or ((macWord cl co side x).or (vectorWord cl co side x))) := by
  rw [coreCommand, wordField_opcode, hop]
  rfl

theorem coreCommand_of_flowWord {i : Instr} (hop : opcodes.contains (x.toNat % 2 ^ 8) = true)
    (hflow : flowWord cl co x = some i) : coreCommand cl co side x = some i := by
  rw [coreCommand_of_named hop, hflow, Option.some_or]

/-- No other opcode spells a loop or a wait. -/
theorem flowWord_eq_none (hop : x.toNat % 2 ^ 8 ∉ [0x01, 0x02, 0x03, 0x04, 0x08, 0x09, 0x0A]) :
    flowWord cl co x = none := by
  rw [flowWord, wordField_opcode]
  split <;> simp_all

theorem coreCommand_of_scalarWord {i : Instr} (hop : opcodes.contains (x.toNat % 2 ^ 8) = true)
    (hflow : x.toNat % 2 ^ 8 ∉ [0x01, 0x02, 0x03, 0x04, 0x08, 0x09, 0x0A])
    (hscalar : scalarWord cl co side x = some i) : coreCommand cl co side x = some i := by
  rw [coreCommand_of_named hop, flowWord_eq_none hflow, hscalar, Option.none_or, Option.some_or]

theorem coreCommand_wstart (hop : x.toNat % 2 ^ 8 = 0x01) :
    coreCommand cl co side x = some (.wstart cl co (immField x)) :=
  coreCommand_of_flowWord (by rw [hop]; rfl) (by simp only [flowWord, wordField_opcode, hop])

theorem coreCommand_endOp (hop : x.toNat % 2 ^ 8 = 0x02) : coreCommand cl co side x = some (.endOp cl co) :=
  coreCommand_of_flowWord (by rw [hop]; rfl) (by simp only [flowWord, wordField_opcode, hop])

theorem coreCommand_loopOp {l : Fin 4} (hop : x.toNat % 2 ^ 8 = 0x08) (hl : lcField x 0 = some l) :
    coreCommand cl co side x = some (.loopOp cl co l (immField x)) :=
  coreCommand_of_flowWord (by rw [hop]; rfl) (by simp only [flowWord, wordField_opcode, hop, hl, Option.map_some])

theorem coreCommand_movi {r : Fin 16} (hop : x.toNat % 2 ^ 8 = 0x0C) (hr : xField x 0 = some r) :
    coreCommand cl co side x = some (.movi cl co r (immField x)) :=
  coreCommand_of_scalarWord (by rw [hop]; rfl) (by rw [hop]; decide)
    (by simp only [scalarWord, wordField_opcode, hop, hr, Option.map_some])

theorem coreCommand_addi {r a : Fin 16} (hop : x.toNat % 2 ^ 8 = 0x0D) (hr : xField x 0 = some r)
    (ha : xField x 1 = some a) : coreCommand cl co side x = some (.addi cl co r a (immField x)) :=
  coreCommand_of_scalarWord (by rw [hop]; rfl) (by rw [hop]; decide)
    (by simp only [scalarWord, wordField_opcode, hop, hr, ha, Option.bind_some, Option.map_some])

theorem coreCommand_ldv {v : Fin 32} {a : Fin 16} (hop : x.toNat % 2 ^ 8 = 0x10) (hv : vField x 0 = some v)
    (ha : xField x 1 = some a) : coreCommand cl co side x = some (.ldv cl co v a (immField x) side.ecc) :=
  coreCommand_of_scalarWord (by rw [hop]; rfl) (by rw [hop]; decide)
    (by simp only [scalarWord, wordField_opcode, hop, hv, ha, Option.bind_some, Option.map_some])

end Word

/-- Settles O3: the table spells nothing, and a core's word is read by its opcode and the fields that the opcode names.
An opcode that no row of R200 names is log entry 222. -/
theorem wordsOfTheTableAndTheCores : Obligations.WordsOfTheTableAndTheCores := by
  unfold Obligations.WordsOfTheTableAndTheCores
  refine ⟨decodeTableWord_eq_none, withFetchWord_eq_self, ?_⟩
  rintro cl co side x _ rfl
  exact ⟨fun r hop hr => coreCommand_movi hop (regField_eq_some hr),
    fun r a hop hr ha => coreCommand_addi hop (regField_eq_some hr) (regField_eq_some ha),
    fun v a hop hv ha => coreCommand_ldv hop (regField_eq_some hv) (regField_eq_some ha),
    coreCommand_wstart, coreCommand_endOp,
    fun l hop hl => coreCommand_loopOp hop (regField_eq_some hl), coreCommand_of_unnamed⟩

end Sys2Proof.Machine
end

section
/-!
Where the narrow elements of a row lie, and what reading one gives (R226, R227).
-/

namespace Sys2Proof.Machine

open Sys2Proof

/-! ### The places of narrow elements (R226, R227) -/

/-- An element of a full line by its line, its block and its number within the block. -/
theorem lineIndex_parts {line block e : Nat} (hblock : block < 8) (he : e < 32) :
    (256 * line + 32 * block + e) / 256 = line ∧ (256 * line + 32 * block + e) % 256 / 32 = block ∧
      (256 * line + 32 * block + e) % 32 = e := by
  omega

theorem elemPlace_int4_pair (n : Nat) : elemPlace .int4 (2 * n) = (n, 0) ∧ elemPlace .int4 (2 * n + 1) = (n, 4) := by
  have hbyte : (2 * n + 1) / 2 = n := by omega
  simp [elemPlace, Format.block, Format.bits, hbyte]

theorem elemPlace_mxfp4 (line : Nat) {block e : Nat} (hblock : block < 8) (he : e < 32) :
    elemPlace .mxfp4 (256 * line + 32 * block + e) =
      (line * lineBytes .mxfp4 + 8 + block * blockBytes .mxfp4 + e / 2, 4 * (e % 2)) := by
  obtain ⟨hline, hbl, hel⟩ := lineIndex_parts (line := line) hblock he
  simp only [elemPlace, Format.block, Format.bits, if_true, hline, hbl, hel]

theorem elemPlace_mxfp4_pair (line : Nat) {block n : Nat} (hblock : block < 8) (hn : n < 16) :
    elemPlace .mxfp4 (256 * line + 32 * block + 2 * n) =
      (line * lineBytes .mxfp4 + 8 + block * blockBytes .mxfp4 + n, 0) ∧
    elemPlace .mxfp4 (256 * line + 32 * block + 2 * n + 1) =
      (line * lineBytes .mxfp4 + 8 + block * blockBytes .mxfp4 + n, 4) := by
  have hbyte : (2 * n + 1) / 2 = n := by omega
  rw [Nat.add_assoc _ (2 * n), elemPlace_mxfp4 line hblock (e := 2 * n) (by omega),
    elemPlace_mxfp4 line hblock (e := 2 * n + 1) (by omega)]
  simp [hbyte]

theorem elemPlace_sixBit {f : Format} (hbits : f.bits = 6) (hf : f.block = true) (line : Nat) {block n j : Nat}
    (hblock : block < 8) (hn : n < 8) (hj : j < 4) :
    elemPlace f (256 * line + 32 * block + 4 * n + j) =
      (line * lineBytes f + 8 + block * blockBytes f + 3 * n, 6 * j) := by
  obtain ⟨hline, hbl, he⟩ := lineIndex_parts (line := line) hblock (show 4 * n + j < 32 by omega)
  have hgroup : (4 * n + j) / 4 = n := by omega
  have hmember : (4 * n + j) % 4 = j := by omega
  simp only [elemPlace, hbits, hf, if_true, Nat.add_assoc _ (4 * n), hline, hbl, he, hgroup, hmember]

/-! ### Reading an element at its place (R227) -/

section Read

variable {d : Dev} {f : Format} {row i p : Nat}

/-- Two elements that share a byte. The upper four bits need no mask: a byte has no more. -/
theorem elem_of_nibblePair (hbits : f.bits = 4) (hplaces : elemPlace f i = (p, 0) ∧ elemPlace f (i + 1) = (p, 4)) :
    d.elem f row i = (d.byte (row + p)).toNat % 16 ∧ d.elem f row (i + 1) = (d.byte (row + p)).toNat / 16 := by
  obtain ⟨hlow, hhigh⟩ := hplaces
  have hnibble : (d.byte (row + p)).toNat / 16 < 16 := Nat.div_lt_of_lt_mul (d.byte (row + p)).isLt
  simp [Dev.elem, hbits, hlow, hhigh, Nat.mod_eq_of_lt hnibble]

theorem readLe_three (d : Dev) (a : Nat) :
    d.readLe a 3 = (d.byte a).toNat + 256 * (d.byte (a + 1)).toNat + 65536 * (d.byte (a + 2)).toNat := by
  have hbytes : d.bytes a 3 = [d.byte a, d.byte (a + 1), d.byte (a + 2)] := rfl
  simp only [Dev.readLe, hbytes, leNat]
  omega

theorem elem_of_sixBit {sh : Nat} (hbits : f.bits = 6) (hplace : elemPlace f i = (p, sh)) :
    d.elem f row i =
      ((d.byte (row + p)).toNat + 256 * (d.byte (row + p + 1)).toNat + 65536 * (d.byte (row + p + 2)).toNat) /
        2 ^ sh % 64 := by
  simp only [Dev.elem, hbits, hplace, readLe_three]

end Read

/-- Settles O55: each element is read at its place, which in a block format is found from its line and its block
(R226). -/
theorem narrowElementsArePacked : Obligations.NarrowElementsArePacked := by
  unfold Obligations.NarrowElementsArePacked
  refine ⟨fun d row n => elem_of_nibblePair rfl (elemPlace_int4_pair n), ?_, ?_⟩
  · rintro d row line block n _ hblock hn rfl
    rw [Nat.add_assoc row]
    exact elem_of_nibblePair rfl (elemPlace_mxfp4_pair line hblock hn)
  · rintro d f row line block n j _ hf hblock hn hj rfl
    have hbits : f.bits = 6 := by rcases hf with rfl | rfl <;> rfl
    have hblocks : f.block = true := by rcases hf with rfl | rfl <;> rfl
    rw [Nat.add_assoc row]
    exact elem_of_sixBit hbits (elemPlace_sixBit hbits hblocks line hblock hn hj)

end Sys2Proof.Machine
end

section
/-!
The frames of the vehicle controller (R254, R373 to R376): what a vehicle port answers to a frame that its checks accept
or reject, and the end of a consent.
-/

namespace Sys2Proof.Machine

open Sys2Proof

variable {port : Fin 2} {f : CtrlFrame} {c : Nat} {d : Dev}

/-! ### A vehicle port replaced -/

@[simp] theorem vport_setVport (d : Dev) (p : Nat) (v : VlkPort) : (d.setVport p v).vport p = v := by
  by_cases hp : p = 0 <;> simp [Dev.setVport, Dev.vport, hp]

@[simp] theorem setVport_ctrl (d : Dev) (p : Nat) (v : VlkPort) : (d.setVport p v).ctrl = d.ctrl :=
  ((Dev_setVport_only p v rfl (OnlyIn.refl [.v0, .v1] d)).keep .ctrl (by decide)).symm

@[simp] theorem setVport_time (d : Dev) (p : Nat) (v : VlkPort) : (d.setVport p v).time = d.time :=
  ((Dev_setVport_only p v rfl (OnlyIn.refl [.v0, .v1] d)).keep .time (by decide)).symm

@[simp] theorem setVport_boot (d : Dev) (p : Nat) (v : VlkPort) : (d.setVport p v).boot = d.boot :=
  ((Dev_setVport_only p v rfl (OnlyIn.refl [.v0, .v1] d)).keep .boot (by decide)).symm

/-! ### An accepted frame (R374, R377) -/

@[simp] theorem acceptFrame_ctrl (p : Nat) (f : CtrlFrame) (d : Dev) :
    (acceptFrame p f d).ctrl = { d.ctrl with silent := false, lastAccepted := d.now } := by
  simp [acceptFrame, Dev.now]

@[simp] theorem acceptFrame_vport (p : Nat) (f : CtrlFrame) (d : Dev) :
    (acceptFrame p f d).vport p = { d.vport p with rxSeq := f.seq, rxAny := true } :=
  vport_setVport d p _

@[simp] theorem acceptFrame_now (p : Nat) (f : CtrlFrame) (d : Dev) : (acceptFrame p f d).now = d.now :=
  congrArg TimeState.dev (setVport_time d p _)

@[simp] theorem acceptFrame_image (p : Nat) (f : CtrlFrame) (d : Dev) : (acceptFrame p f d).image = d.image :=
  congrArg BootState.image (setVport_boot d p _)

/-! ### The content of an accepted frame (R373, R376) -/

/-- A consent not processed before is in force for VALID_MS, cut to the image's CONSENT_MAX_MS (log entry 25). -/
theorem takeConsent_fresh {p : Nat} (hfresh : reqOrder d.ctrl.consentReqId f.word0 = .fresh)
    (hvalid : 0 < f.word1.toNat % 65536) (hmax : 0 < d.image.link.consentMaxMs) :
    takeConsent p f d = { d with ctrl := { d.ctrl with
      consentReqId := some f.word0
      consentUntil := some (d.now + min (f.word1.toNat % 65536) d.image.link.consentMaxMs * msNs) } } := by
  have hms : min (f.word1.toNat % 65536) d.image.link.consentMaxMs ≠ 0 := (lt_min hvalid hmax).ne'
  simp only [takeConsent, hfresh, if_neg hms]

@[simp] theorem takeHeartbeat_ctrl (p : Nat) (f : CtrlFrame) (d : Dev) : (takeHeartbeat p f d).ctrl = d.ctrl :=
  setVport_ctrl d p _

@[simp] theorem takeHeartbeat_vport (p : Nat) (f : CtrlFrame) (d : Dev) :
    (takeHeartbeat p f d).vport p = { d.vport p with echoSeq := f.word0, ctrlStatus := f.word1.setWidth 8 } :=
  vport_setVport d p _

/-! ### The checks of an arriving frame (R374) -/

section Arrives

variable (hlink : (d.vport port.val).link = .up) (hallowed : d.linkAllowed = true)

include hlink hallowed

/-- The guard of a frame's arrival fails on an up port that may carry content. -/
theorem linkCarries_guard : ¬ (decide ((d.vport port.val).link ≠ .up) || !d.linkAllowed) = true := by
  simp [hlink, hallowed]

theorem controllerFrame_accepted (take : Nat → CtrlFrame → Dev → Dev) (hcause : rejectCause d port.val f = none) :
    controllerFrame port f take d = take port.val f (acceptFrame port.val f d) := by
  rw [controllerFrame, if_neg (linkCarries_guard hlink hallowed), hcause]

theorem controllerFrame_rejected (take : Nat → CtrlFrame → Dev → Dev) (hcause : rejectCause d port.val f = some c) :
    controllerFrame port f take d = rejectFrame port.val c d := by
  rw [controllerFrame, if_neg (linkCarries_guard hlink hallowed), hcause]

theorem unacceptedControllerFrame_rejected (hcause : rejectCause d port.val f = some c) :
    unacceptedControllerFrame port f d = rejectFrame port.val c d := by
  rw [unacceptedControllerFrame, if_neg (linkCarries_guard hlink hallowed), hcause]

end Arrives

/-! ### Each command on a frame of its kind (R373) -/

theorem modeRequest_ofKind (hkind : f.msgId = 0x81) (d : Dev) :
    modeRequest port f d = controllerFrame port f takeModeRequest d := if_pos hkind

theorem warmStartConsent_ofKind (hkind : f.msgId = 0x82) (d : Dev) :
    warmStartConsent port f d = controllerFrame port f takeConsent d := if_pos hkind

theorem controllerHeartbeat_ofKind (hkind : f.msgId = 0x83) (d : Dev) :
    controllerHeartbeat port f d = controllerFrame port f takeHeartbeat d := if_pos hkind

/-! ### The end of a consent (R376) -/

theorem consentExpiry_due {t : Nanos} (huntil : d.ctrl.consentUntil = some t) (h : t ≤ d.now) :
    consentExpiry d = { d with ctrl := { d.ctrl with consentUntil := none } } := by
  simp only [consentExpiry, huntil, if_pos h]

theorem consentExpiry_early {t : Nanos} (huntil : d.ctrl.consentUntil = some t) (h : d.now < t) :
    consentExpiry d = d := by
  simp only [consentExpiry, huntil, if_neg (Nat.not_le.mpr h)]

/-- Settles O53: an accepted frame acts by its kind on the device that `acceptFrame` leaves, a rejected one is
`rejectFrame` alone. The cut of a consent to CONSENT_MAX_MS is log entry 25. -/
theorem controllerFramesAreChecked : Obligations.ControllerFramesAreChecked := by
  unfold Obligations.ControllerFramesAreChecked
  refine ⟨fun s port f hlink hallowed hcause => ⟨fun hkind => act_next ?_, fun hkind hfresh hvalid hmax => ?_,
      fun hkind => ?_⟩,
    fun s port f c hlink hallowed hcause =>
      ⟨act_next (unacceptedControllerFrame_rejected hlink hallowed hcause), fun hkind => act_next ?_⟩,
    fun s t huntil => ⟨fun h => act_next (consentExpiry_due huntil h),
      fun h => act_next (consentExpiry_early huntil h)⟩⟩
  · rw [modeRequest_ofKind hkind, controllerFrame_accepted hlink hallowed _ hcause]
  · refine ⟨_, act_next ((warmStartConsent_ofKind hkind s.dev).trans
      (controllerFrame_accepted hlink hallowed _ hcause)), ?_⟩
    rw [takeConsent_fresh (by simpa using hfresh) hvalid (by simpa using hmax)]
    simp
  · exact ⟨_, act_next ((controllerHeartbeat_ofKind hkind s.dev).trans
      (controllerFrame_accepted hlink hallowed _ hcause)), by simp⟩
  · rw [modeRequest_ofKind hkind, controllerFrame_rejected hlink hallowed _ hcause]

end Sys2Proof.Machine
end

section
/-!
The commands of a Damask half (R271 to R278, R283, R285, R288): what a half that serves answers to each, and the close
of an epoch.
-/

namespace Sys2Proof.Machine

open Sys2Proof

variable {half : Fin 2} {cmd : DmkCmd} {d : Dev}

/-! ### Serving a command (R272, R289) -/

section Serve

variable {f : Dev → DmkReply × Dev}

/-- A half that runs notes the issuer, then completes with what the command's effect replies. -/
theorem serveDmk_running {r : DmkReply} {d1 : Dev} (hrun : d.halfRuns half.val = true)
    (heffect : f (noteIssuer cmd d) = (r, d1)) :
    serveDmk half cmd f d = copyErrors half.val cmd r (reply cmd r d1) := by
  rw [serveDmk, if_pos hrun, heffect]

theorem serveDmk_restarting (hrun : d.halfRuns half.val = false) : serveDmk half cmd f d = d :=
  if_neg (Bool.eq_false_iff.mp hrun)

end Serve

/-- While the half's die restarts, a command of the half changes nothing, whichever it is. -/
theorem exec_damask_restarting {s : State} {i : Instr} (hrun : s.dev.halfRuns half.val = false)
    (hi : i ∈ [.create half cmd, .openView half cmd, .appendTok half cmd, .forkSeq half cmd, .freeSeq half cmd,
      .restore half cmd, .openQueue half cmd, .damaskReservedOp half cmd]) : exec i s = .next s := by
  simp only [List.mem_cons, List.not_mem_nil, or_false] at hi
  rcases hi with rfl | rfl | rfl | rfl | rfl | rfl | rfl | rfl <;> exact act_next (serveDmk_restarting hrun)

section Running

variable {d0 : Dev} (hrun : d.halfRuns half.val = true) (hd0 : d0 = noteIssuer cmd d)

include hrun

/-! ### FORK and reserved operations (R272, R277) -/

theorem forkSeq_running {r : DmkReply} {d1 : Dev}
    (hfork : forkOf half.val cmd (ownerOf cmd.issuer) (noteIssuer cmd d) = (r, d1)) :
    forkSeq half cmd d = copyErrors half.val cmd r (reply cmd r d1) :=
  serveDmk_running hrun hfork

theorem damaskReservedOp_running : damaskReservedOp half cmd d =
    copyErrors half.val cmd { status := .invalid, seq := cmd.seq }
      (reply cmd { status := .invalid, seq := cmd.seq } (noteIssuer cmd d)) :=
  serveDmk_running hrun rfl

include hd0

/-! ### CREATE (R271, R278) -/

section Create

variable {c : DmkClass} (hcls : d0.dmkClass cmd.cls = some c)

include hcls

theorem create_made {i : Nat} (hhalf : c.half = half.val) (hnew : d0.newIndex cmd.cls c = some i) :
    create half cmd d = copyErrors half.val cmd { status := .ok, seq := i } (reply cmd { status := .ok, seq := i }
      (setSeq i (some { cls := cmd.cls, half := half.val, owner := ownerOf cmd.issuer, pages := [], freeAt := none })
        d0)) := by
  subst hd0
  exact serveDmk_running hrun (by simp [hcls, hhalf, hnew])

theorem create_refused (hhalf : c.half = half.val) (hnew : d0.newIndex cmd.cls c = none) :
    create half cmd d = copyErrors half.val cmd { status := .refusedNoSeq } (reply cmd { status := .refusedNoSeq }
      (bumpDmk half.val 0x14 (·.createRefuse) (fun c x => { x with createRefuse := c }) 1 d0)) := by
  subst hd0
  exact serveDmk_running hrun (by simp [hcls, hhalf, hnew, refuseCreate])

theorem create_otherHalf (hhalf : c.half ≠ half.val) :
    create half cmd d = copyErrors half.val cmd { status := .invalid } (reply cmd { status := .invalid } d0) := by
  subst hd0
  exact serveDmk_running hrun (by simp [hcls, hhalf])

end Create

/-! ### FREE (R278) -/

theorem freeSeq_held {q : Sequence} (hseq : d0.seqIn half.val cmd.seq = some q) (hfree : q.freeAt = none) :
    freeSeq half cmd d = copyErrors half.val cmd { status := .ok, seq := cmd.seq }
      (reply cmd { status := .ok, seq := cmd.seq }
        (setSeq cmd.seq (some { q with freeAt := some (d0.epochOf cmd) }) d0)) := by
  subst hd0
  exact serveDmk_running hrun (by simp [hseq, hfree])

theorem freeSeq_invalid (hseq : d0.seqIn half.val cmd.seq = none) :
    freeSeq half cmd d = copyErrors half.val cmd { status := .invalid, seq := cmd.seq }
      (reply cmd { status := .invalid, seq := cmd.seq } d0) := by
  subst hd0
  exact serveDmk_running hrun (by simp [hseq])

/-! ### OPEN_VIEW and APPEND (R274 to R276, R280) -/

section Pages

variable {q : Sequence} {c : DmkClass} {r : DmkReply} {d1 : Dev} (hseq : d0.seqIn half.val cmd.seq = some q)
  (hcls : d0.dmkClass q.cls = some c)

include hseq hcls

theorem openView_lists {near shown : List PageEntry} {missing : Nat}
    (hnear : near = q.pages.filter (fun p => !beyond c (d0.epochOf cmd) p))
    (hshown : shown = near.filter (fun p => !p.dropped))
    (hmissing : missing = (near.filter (·.dropped)).foldl (fun n p => n + p.tokens) 0)
    (hr : r = { status := .ok, seq := cmd.seq, entries := shown.map viewEntry, missing := missing })
    (hd1 : d1 = noteMissingView cmd missing d0) :
    openView half cmd d = copyErrors half.val cmd r (reply cmd r (modHalf half.val (fun x => { x with
      pins := x.pins ++ (shown.map (fun p => (p.slot, d0.epochOf cmd))).filter (fun y => !x.pins.contains y),
      missing := bmod 0 (d0.epochOf cmd) (· + missing) x.missing,
      missingMain := bmod 0 (d0.epochOf cmd) (· + if d0.ofMain cmd then missing else 0) x.missingMain }) d1)) := by
  subst hd0 hnear hshown hmissing hr hd1
  exact serveDmk_running hrun (by simp only [hseq, hcls])

theorem appendTok_appends (hlow : 1 ≤ cmd.count) (hhigh : cmd.count ≤ 4096)
    (happend : appendTo half.val cmd q c d0 = (r, d1)) :
    appendTok half cmd d = copyErrors half.val cmd r (reply cmd r d1) := by
  subst hd0
  have hcount : ¬ (decide (cmd.count = 0) || decide (4096 < cmd.count)) = true := by simp; omega
  exact serveDmk_running hrun (by simp only [hseq, hcls, if_neg hcount, happend])

theorem appendTok_countInvalid (hcount : cmd.count = 0 ∨ 4096 < cmd.count) :
    appendTok half cmd d = copyErrors half.val cmd { status := .invalid, seq := cmd.seq }
      (reply cmd { status := .invalid, seq := cmd.seq } d0) := by
  subst hd0
  exact serveDmk_running hrun (by simp [hseq, hcls, hcount])

end Pages

/-! ### RESTORE (R283) -/

section Restore

variable {hit : Rebuild → Bool}
  (hhit : hit = (fun r => decide (r.number = cmd.entry) && decide (r.epoch = d0.epochOf cmd) && decide (r.seq = cmd.seq)))

include hhit

theorem restore_listed (hlisted : (d0.half half.val).rebuilds.any hit = true) :
    restore half cmd d = copyErrors half.val cmd { status := .ok, seq := cmd.seq }
      (reply cmd { status := .ok, seq := cmd.seq } (modHalf half.val (fun x => { x with
        rebuilds := x.rebuilds.map (fun r => if hit r then { r with restored := true } else r) }) d0)) := by
  subst hd0 hhit
  exact serveDmk_running hrun (if_pos hlisted)

theorem restore_invalid (hlisted : (d0.half half.val).rebuilds.any hit = false) :
    restore half cmd d = copyErrors half.val cmd { status := .invalid, seq := cmd.seq }
      (reply cmd { status := .invalid, seq := cmd.seq } d0) := by
  subst hd0 hhit
  exact serveDmk_running hrun (if_neg (Bool.eq_false_iff.mp hlisted))

end Restore

/-! ### OPEN_QUEUE (R283) -/

theorem openQueue_lists {m : ModeRec} {d1 : Dev} {x : List (List Byte) × Dev}
    (hd1 : d1 = modHalf half.val (fun y => if y.listedTick = d0.epochOf cmd then y
      else { y with listed := 0, listedTick := d0.epochOf cmd }) d0)
    (hmode : d1.modeAt cmd.tick = some m)
    (hx : x = listQueue half.val (d0.epochOf cmd)
      ((d1.queue half.val (d0.epochOf cmd)).take (m.recomputePages - (d1.half half.val).listed)) d1) :
    openQueue half cmd d = copyErrors half.val cmd { status := .ok, entries := x.1 }
      (reply cmd { status := .ok, entries := x.1 } x.2) := by
  subst hd0 hd1 hx
  exact serveDmk_running hrun (by simp only [hmode])

end Running

/-! ### The close of an epoch (R275) -/

theorem epochClose_due {d1 : Dev} (hdue : d.epochDue = true)
    (hd1 : d1 = closeHalf 1 d.damask.epoch (closeHalf 0 d.damask.epoch d)) :
    epochClose d = { d1 with damask := { d1.damask with
      epoch := d.damask.epoch + 1,
      issuers := d1.damask.issuers.filter (fun x => decide (d.damask.epoch < x.1)) } } := by
  rw [epochClose, if_pos hdue, hd1]

/-- Settles O36: each clause is one case of its command on a half that serves. That CREATE of a class outside the half
is INVALID is log entry 86, that a half whose die restarts serves nothing log entry 93. -/
theorem damaskSequenceCommands : Obligations.DamaskSequenceCommands := by
  unfold Obligations.DamaskSequenceCommands
  refine ⟨fun s half cmd d0 hrun hd0 => ⟨fun c i hcls hhalf hnew => ?_, fun c hcls hhalf hnew => ?_,
      fun c hcls hhalf => ?_⟩,
    fun s half cmd r d1 hrun hfork => ?_,
    fun s half cmd d0 hrun hd0 => ⟨fun q hseq hfree => ?_, fun hseq => ?_⟩,
    fun s half cmd hrun => ?_, fun s half cmd i hrun hi => ?_⟩
  · exact act_next (create_made hrun hd0 hcls hhalf hnew)
  · exact act_next (create_refused hrun hd0 hcls hhalf hnew)
  · exact act_next (create_otherHalf hrun hd0 hcls hhalf)
  · exact act_next (forkSeq_running hrun hfork)
  · exact act_next (freeSeq_held hrun hd0 hseq hfree)
  · exact act_next (freeSeq_invalid hrun hd0 hseq)
  · exact act_next (damaskReservedOp_running hrun)
  · exact exec_damask_restarting hrun hi

/-- Settles O37: each clause is one case of its command on a half that serves, or the close. That a COUNT above 4,096 and
an unknown ENTRY are INVALID is log entry 86, what an ENTRY means log entry 89, the close on both halves at once log
entry 91. -/
theorem damaskPageCommands : Obligations.DamaskPageCommands := by
  unfold Obligations.DamaskPageCommands
  refine ⟨fun s half cmd d0 q c hrun hd0 hseq hcls =>
      ⟨fun near shown missing r d1 hnear hshown hmissing hr hd1 => ?_, fun hlow hhigh r d1 happend => ?_,
        fun hcount => ?_⟩,
    fun s half cmd d0 hit hrun hd0 hhit => ⟨fun hlisted => ?_, fun hlisted => ?_⟩,
    fun s half cmd m d1 x hrun hd1 hmode hx => ?_, fun s d1 hdue hd1 => ?_⟩
  · exact act_next (openView_lists hrun hd0 hseq hcls hnear hshown hmissing hr hd1)
  · exact act_next (appendTok_appends hrun hd0 hseq hcls hlow hhigh happend)
  · exact act_next (appendTok_countInvalid hrun hd0 hseq hcls hcount)
  · exact act_next (restore_listed hrun hd0 hhit hlisted)
  · exact act_next (restore_invalid hrun hd0 hhit hlisted)
  · exact act_next (openQueue_lists hrun rfl hd1 hmode hx)
  · exact act_next (epochClose_due hdue hd1)

end Sys2Proof.Machine
end

section
/-!
The queries of a host port (R354, R355, R357): how the one in hand ends, and the forks that a port holds (R288).
-/

namespace Sys2Proof.Machine

open Sys2Proof

variable {port : Fin 4} {key : Nat} {w : Work} {d : Dev}

/-! ### READ_GRID (R354) -/

section ReadGrid

variable (hquery : d.currentQuery port.val 2 = some (key, w))

include hquery

theorem readGrid_frame {o : Output}
    (hframe : (d.newestFrame ((w.sub.arg 0).toNat % 65536) (d.keyOpening key)).bind d.gridOutput = some o) :
    readGrid port d = endQuery port.val key w (if o.payload = .missing then stDegraded else stOk)
      (frameBytes o false (validAtStart d o.quality)
        (payloadFor (some (regionOf (w.sub.arg 1) (w.sub.arg 2) (w.sub.arg 3))) o.payload)) d := by
  simp only [readGrid, hquery, hframe]

theorem readGrid_noFrame
    (hframe : (d.newestFrame ((w.sub.arg 0).toNat % 65536) (d.keyOpening key)).bind d.gridOutput = none) :
    readGrid port d = endQuery port.val key w stDegraded [] d := by
  simp only [readGrid, hquery, hframe]

end ReadGrid

theorem readGrid_noQuery (hquery : d.currentQuery port.val 2 = none) : readGrid port d = d := by
  simp only [readGrid, hquery]

/-! ### READ_TRACK (R354) -/

section ReadTrack

variable {src : Source} (hquery : d.currentQuery port.val 3 = some (key, w))
  (hsrc : src = (if (w.sub.arg 0).getLsbD 31 then .burlap else .main))

include hquery hsrc

theorem readTrack_noTrack
    (htrack : d.host.tracks.find? (fun h => decide (h.src = src) && h.alive && h.id = (w.sub.arg 0).toNat % 2 ^ 31) = none) :
    readTrack port d = endQuery port.val key w stInvalid [] d := by
  subst hsrc
  simp only [readTrack, hquery, htrack]

variable {h : TrackHistory}
  (htrack : d.host.tracks.find? (fun h => decide (h.src = src) && h.alive && h.id = (w.sub.arg 0).toNat % 2 ^ 31) = some h)

include htrack

theorem readTrack_records {es : List (Nanos × Nanos × ObjectRec)}
    (hes : es = h.records.filter (fun e => decide ((e.1 : Int) ≤ d.keyOpening key))) (hsome : es ≠ []) :
    readTrack port d = endQuery port.val key w stOk
      (w32 es.length ++ List.replicate 12 0 ++ es.flatMap (fun e => w64 e.2.1 ++ objectBytes src e.2.2)) d := by
  subst hsrc hes
  simp only [readTrack, hquery, htrack, List.isEmpty_iff, if_neg hsome]

theorem readTrack_noRecords (hnone : h.records.filter (fun e => decide ((e.1 : Int) ≤ d.keyOpening key)) = []) :
    readTrack port d = endQuery port.val key w stInvalid [] d := by
  subst hsrc
  simp only [readTrack, hquery, htrack, hnone, List.isEmpty_nil, if_true]

end ReadTrack

theorem readTrack_noQuery (hquery : d.currentQuery port.val 3 = none) : readTrack port d = d := by
  simp only [readTrack, hquery]

/-! ### RUN_MODEL (R354) -/

section RunModel

variable {data : List Byte} (hquery : d.currentQuery port.val 1 = some (key, w))

include hquery

theorem runModel_noModel (hmodel : d.image.host.models[(w.sub.arg 0).toNat % 256]? = none) :
    runModel port data d = endQuery port.val key w stInvalid [] d := by
  simp only [runModel, hquery, hmodel]

variable {m : HostModel} (hmodel : d.image.host.models[(w.sub.arg 0).toNat % 256]? = some m)

include hmodel

theorem runModel_noFrame (hframe : (d.newestFrame m.inProduct (d.keyOpening key)).bind d.gridOutput = none) :
    runModel port data d = endQuery port.val key w stDegraded [] d := by
  simp only [runModel, hquery, hmodel, hframe]

variable {o : Output} (hframe : (d.newestFrame m.inProduct (d.keyOpening key)).bind d.gridOutput = some o)

include hframe

theorem runModel_grid {g g' : GridData} {r : Region} (hgrid : o.payload = .grid g)
    (hr : r = regionOf (w.sub.arg 1) (w.sub.arg 2) 0)
    (hg' : g' = { g with
      product := 0x8000 + (w.sub.arg 0).toNat % 256, format := m.outFormat, channels := m.outCh }) :
    runModel port data d = endQuery port.val key w
      (if (bget {} key d.plan.windows : WinState).viewMissing || !(bget {} key d.plan.windows : WinState).zeroed.isEmpty
        then stDegraded else stOk)
      (frameBytes { o with seq := (drawFree d).1 } false (validAtStart d o.quality)
        (gridHead g' r.cf r.cc r.rf r.rc 0 m.outCh ++ data)) (drawFree d).2 := by
  subst hr hg'
  simp only [runModel, hquery, hmodel, hframe, hgrid]

theorem runModel_noGrid (hnone : ∀ g, o.payload ≠ .grid g) :
    runModel port data d = endQuery port.val key w stDegraded
      (frameBytes { o with seq := (drawFree d).1 } false (validAtStart d o.quality) []) (drawFree d).2 := by
  cases hpayload : o.payload with
  | grid g => exact absurd hpayload (hnone g)
  | _ => simp only [runModel, hquery, hmodel, hframe, hpayload]

end RunModel

theorem runModel_noQuery {data : List Byte} (hquery : d.currentQuery port.val 1 = none) : runModel port data d = d := by
  simp only [runModel, hquery]

/-! ### HOST_FORK (R288, R354, R355) -/

theorem hostFork_noQuery (hquery : d.currentQuery port.val 4 = none) : hostFork port d = d := by
  simp only [hostFork, hquery]

section HostFork

variable (hquery : d.currentQuery port.val 4 = some (key, w))

include hquery

theorem hostFork_restarting (hrun : d.fwRuns procHost = false) : hostFork port d = d := by
  simp [hostFork, hquery, hrun]

variable {q : Sequence} {r : HostPortRec} (hrun : d.fwRuns procHost = true) (hport : d.portRec port.val = some r)
  (hseq : d.seqOf (d.forkSource w.sub) = some q)

include hrun hport hseq

theorem hostFork_full (hfull : r.maxForks ≤ (d.port port.val).forks.length) :
    hostFork port d = endQuery port.val key w stRefused [] d := by
  simp [hostFork, hquery, hrun, hport, hseq, hfull]

variable {x : DmkReply × Dev} (hroom : (d.port port.val).forks.length < r.maxForks) (hhalf : d.halfRuns q.half = true)
  (hx : x = forkOf q.half (hostForkCmd port.val (d.forkSource w.sub) w.tick) (.session port.val) d)

include hroom hhalf hx

theorem hostFork_forked (hstatus : x.1.status = .ok) :
    hostFork port d = endQuery port.val key w stOk (w32 (x.1.seq % 4096) ++ List.replicate 12 0)
      (x.2.modPort port.val (fun h => { h with forks := h.forks ++ [x.1.seq] })) := by
  simp [hostFork, hquery, hrun, hport, hseq, Nat.not_le.mpr hroom, hhalf, ← hx, hstatus]

theorem hostFork_invalid (hstatus : x.1.status = .invalid) :
    hostFork port d = endQuery port.val key w stInvalid [] x.2 := by
  simp [hostFork, hquery, hrun, hport, hseq, Nat.not_le.mpr hroom, hhalf, ← hx, hstatus]

theorem hostFork_refused (hok : x.1.status ≠ .ok) (hinvalid : x.1.status ≠ .invalid) :
    hostFork port d = endQuery port.val key w stRefused [] x.2 := by
  cases hstatus : x.1.status with
  | ok => exact absurd hstatus hok
  | invalid => exact absurd hstatus hinvalid
  | _ => simp [hostFork, hquery, hrun, hport, hseq, Nat.not_le.mpr hroom, hhalf, ← hx, hstatus]

end HostFork

/-! ### FREE_FORK (R288, R354) -/

theorem freeFork_noQuery (hquery : d.currentQuery port.val 5 = none) : freeFork port d = d := by
  simp only [freeFork, hquery]

section FreeFork

variable (hquery : d.currentQuery port.val 5 = some (key, w))

include hquery

theorem freeFork_restarting (hrun : d.fwRuns procHost = false) : freeFork port d = d := by
  simp [freeFork, hquery, hrun]

variable {i : Nat} (hrun : d.fwRuns procHost = true) (hi : i = (w.sub.arg 0).toNat % 4096)

include hrun hi

theorem freeFork_held {q : Sequence} (hheld : (d.port port.val).forks.contains i = true) (hseq : d.seqOf i = some q)
    (hhalf : d.halfRuns q.half = true) :
    freeFork port d = endQuery port.val key w stOk []
      ((setSeq i (some { q with freeAt := some (d.epochOf (hostForkCmd port.val i w.tick)) }) d).modPort port.val
        (fun h => { h with forks := h.forks.filter (fun x => x ≠ i) })) := by
  subst hi
  simp only [freeFork, hquery, hrun, hheld, hseq, hhalf, Bool.not_true, Bool.false_eq_true, if_false]

theorem freeFork_notHeld (hheld : (d.port port.val).forks.contains i = false) :
    freeFork port d = endQuery port.val key w stInvalid [] d := by
  subst hi
  simp only [freeFork, hquery, hrun, hheld, Bool.not_true, Bool.false_eq_true, if_false]

end FreeFork

/-- Settles O50: each clause is one case of its query. DEGRADED without a newest frame is log entry 131, the free OUT_SEQ
of a model's frame log entry 132, INVALID for a track without records and the cut at the window's opening log entry 135. -/
theorem queriesAreAnswered : Obligations.QueriesAreAnswered := by
  unfold Obligations.QueriesAreAnswered
  refine ⟨fun s port key w hquery => ⟨fun o hframe => ?_, fun hframe => ?_⟩,
    fun s port key w src hquery hsrc => ⟨fun h es htrack hes hsome => ?_, fun htrack => ?_, fun h htrack hnone => ?_⟩,
    fun s port data key w hquery => ⟨fun hmodel => ?_, fun m hmodel => ⟨fun hframe => ?_,
      fun o g g' r hframe hgrid hr hg' => ?_, fun o hframe hnone => ?_⟩⟩,
    fun s port key w q r hquery hrun hport hseq => ⟨fun hfull => ?_, fun x hroom hhalf hx =>
      ⟨fun hstatus => ?_, fun hstatus => ?_, fun hok hinvalid => ?_⟩⟩,
    fun s port key w i hquery hrun hi => ⟨fun q hheld hseq hhalf => ?_, fun hheld => ?_⟩,
    fun s port key w hrun => ⟨fun hquery => act_next (hostFork_restarting hquery hrun),
      fun hquery => act_next (freeFork_restarting hquery hrun)⟩,
    fun s port data => ⟨fun hquery => act_next (runModel_noQuery hquery),
      fun hquery => act_next (readGrid_noQuery hquery), fun hquery => act_next (readTrack_noQuery hquery),
      fun hquery => act_next (hostFork_noQuery hquery), fun hquery => act_next (freeFork_noQuery hquery)⟩⟩
  · exact act_next (readGrid_frame hquery hframe)
  · exact act_next (readGrid_noFrame hquery hframe)
  · exact act_next (readTrack_records hquery hsrc htrack hes hsome)
  · exact act_next (readTrack_noTrack hquery hsrc htrack)
  · exact act_next (readTrack_noRecords hquery hsrc htrack hnone)
  · exact act_next (runModel_noModel hquery hmodel)
  · exact act_next (runModel_noFrame hquery hmodel hframe)
  · exact act_next (runModel_grid hquery hmodel hframe hgrid hr hg')
  · exact act_next (runModel_noGrid hquery hmodel hframe hnone)
  · exact act_next (hostFork_full hquery hrun hport hseq hfull)
  · exact act_next (hostFork_forked hquery hrun hport hseq hroom hhalf hx hstatus)
  · exact act_next (hostFork_invalid hquery hrun hport hseq hroom hhalf hx hstatus)
  · exact act_next (hostFork_refused hquery hrun hport hseq hroom hhalf hx hok hinvalid)
  · exact act_next (freeFork_held hquery hrun hi hheld hseq hhalf)
  · exact act_next (freeFork_notHeld hquery hrun hi hheld)

end Sys2Proof.Machine
end

section
/-!
The loop of a Serge solve (R303, R304): what one operation of it can do, what every run of it keeps, and how many
operations are left before its end; and what ends, stops or resets the unit that runs it (R307, R313, R320).
-/

namespace Sys2Proof.Machine

open Sys2Proof

/-! ### Comparisons of FP64 (R308) -/

theorem Dyadic.lt_irrefl (v : Dyadic) : v.lt v = false := by
  simp [Dyadic.lt, Dyadic.add, Dyadic.neg, shl]

theorem FpNum.le_refl {a : FpNum} (h : a ≠ .nan) : a.le a = true := by
  cases a with
  | nan => exact absurd rfl h
  | inf neg => cases neg <;> rfl
  | fin neg v => simp [FpNum.le, Dyadic.lt_irrefl]

/-- The larger of two values is not below the second, where that is a number: a NaN in the first place gives way. -/
theorem f64Le_f64Max_right (a : F64) {b : F64} (hb : f64Num b ≠ .nan) : f64Le b (f64Max a b) = true := by
  unfold f64Max
  split
  next h => exact h
  next => exact FpNum.le_refl hb

/-! ### What one operation of the loop can do (R303 to R305) -/

/-- λ raised at a flagged pivot, which is counted (R303, R304). -/
def SolveLoop.raise (s : SlotRec) (l : SolveLoop) : SolveLoop :=
  { l with regularised := true, lambda := f64Max (srgR.mul64 0x4010000000000000 l.lambda) (slotParam s 5),
           tries := l.tries + 1, flags := l.flags + 1 }

/-- An iteration begun (R303). -/
def SolveLoop.beginIteration (l : SolveLoop) : SolveLoop := { l with it := l.it + 1, tries := 0 }

/-- The moves of the loop of R303, whatever the arithmetic comes to: an evaluation, the start of an iteration, a
factorisation with or without a flagged pivot, a step taken or not, and an end at any of them. -/
inductive SolveMove (p : SrgProblem) (l : SolveLoop) : SolveLoop → Prop where
  | ended (e : SolveEnd) : SolveMove p l (l.finish e)
  | evaluated {c : F64} (hcost : evaluate p l.x = some c) (hphase : l.phase = .evaluate) :
    SolveMove p l { l with cost := c, phase := .assemble }
  | begun (hit : l.it < p.slot.maxIter) (hphase : l.phase = .assemble) :
    SolveMove p l { l.beginIteration with phase := .factor }
  | begunEnded (e : SolveEnd) (hit : l.it < p.slot.maxIter) (hphase : l.phase = .assemble) :
    SolveMove p l (l.beginIteration.finish e)
  | factored (hphase : l.phase = .factor) : SolveMove p l { l with phase := .step, factorAt := some (l.x, l.lambda) }
  | flagged (htries : l.tries + 1 ≠ 3) (hphase : l.phase = .factor) : SolveMove p l (l.raise p.slot)
  | flaggedEnded (e : SolveEnd) (hphase : l.phase = .factor) : SolveMove p l ((l.raise p.slot).finish e)
  | accepted {y : Bank (List F64)} {c : F64} (v : F64) (hcost : evaluate p y = some c) (hphase : l.phase = .step) :
    SolveMove p l { l with x := y, cost := c, lambda := f64Max v (lambdaFloor p.slot l.regularised), phase := .assemble }
  | acceptedEnded {y : Bank (List F64)} {c : F64} (e : SolveEnd) (hcost : evaluate p y = some c)
    (hphase : l.phase = .step) : SolveMove p l ({ l with x := y, cost := c }.finish e)
  | rejected (v : F64) (hphase : l.phase = .step) :
    SolveMove p l { l with lambda := f64Max v (lambdaFloor p.slot l.regularised), phase := .assemble }

section Moves

variable {p : SrgProblem} {left : Nat → Nat} {l l' : SolveLoop}

theorem solveEvaluate_move (hphase : l.phase = .evaluate) : SolveMove p l (solveEvaluate p l) := by
  unfold solveEvaluate
  split
  next c hcost => exact .evaluated hcost hphase
  next => exact .ended _

theorem solveAssemble_move (hphase : l.phase = .assemble) : SolveMove p l (solveAssemble p l) := by
  unfold solveAssemble
  split
  next => exact .ended _
  next hit =>
    have hlt : l.it < p.slot.maxIter := Nat.not_le.mp hit
    dsimp only
    split
    next => exact .begunEnded _ hlt hphase
    next =>
      split
      next => exact .begunEnded _ hlt hphase
      next => exact .begun hlt hphase

theorem solveFactor_move (hphase : l.phase = .factor) : SolveMove p l (solveFactor p left l) := by
  unfold solveFactor
  split
  next => exact .ended _
  next => exact .factored hphase
  next =>
    dsimp only
    split
    next => exact .flaggedEnded _ hphase
    next htries =>
      split
      next => exact .flaggedEnded _ hphase
      next => exact .flagged htries hphase

theorem solveStep_move (hphase : l.phase = .step) : SolveMove p l (solveStep p l) := by
  unfold solveStep
  dsimp only
  split
  next => exact .ended _
  next c hnew =>
    have hcost := (Option.ite_none_right_eq_some.mp hnew).2
    split
    next =>
      split
      next => exact .acceptedEnded _ hcost hphase
      next => exact .accepted _ hcost hphase
    next => exact .rejected _ hphase

theorem solveOp_move (p : SrgProblem) (left : Nat → Nat) (l : SolveLoop) : SolveMove p l (solveOp p left l) := by
  unfold solveOp
  split
  next hphase => exact solveEvaluate_move hphase
  next hphase => exact solveAssemble_move hphase
  next hphase => exact solveFactor_move hphase
  next hphase => exact solveStep_move hphase

/-! ### What every run of the loop keeps -/

/-- What every move keeps holds after any number of operations. -/
theorem solveOps_keeps {P : SolveLoop → Prop} (hkeeps : ∀ {l l'}, SolveMove p l l' → P l → P l') (n : Nat) (h : P l) :
    P (solveOps p left n l) := by
  induction n generalizing l with
  | zero => exact h
  | succ n ih =>
    unfold solveOps
    split
    next => exact h
    next => exact ih (hkeeps (solveOp_move p left l) h)

theorem SolveMove.it_le (h : SolveMove p l l') (hit : l.it ≤ p.slot.maxIter) : l'.it ≤ p.slot.maxIter := by
  cases h with
  | begun hlt | begunEnded _ hlt => exact hlt
  | _ => exact hit

/-- Once a pivot has been flagged λ is not below LAMBDA_REG (R304). -/
def SolveLoop.AboveFloor (s : SlotRec) (l : SolveLoop) : Prop :=
  l.regularised = true → f64Le (slotParam s 5) l.lambda = true

/-- The floor that a step puts under λ is LAMBDA_REG once a pivot has been flagged. -/
theorem f64Le_f64Max_lambdaFloor {s : SlotRec} (hreg : f64Num (slotParam s 5) ≠ .nan) (v : F64) {r : Bool}
    (hr : r = true) : f64Le (slotParam s 5) (f64Max v (lambdaFloor s r)) = true := by
  subst hr
  exact f64Le_f64Max_right v hreg

theorem SolveMove.aboveFloor (hreg : f64Num (slotParam p.slot 5) ≠ .nan) (h : SolveMove p l l')
    (hfloor : l.AboveFloor p.slot) : l'.AboveFloor p.slot := by
  cases h with
  | flagged | flaggedEnded => exact fun _ => f64Le_f64Max_right _ hreg
  | accepted v | rejected v => exact f64Le_f64Max_lambdaFloor hreg v
  | _ => exact hfloor

/-- Past the evaluation the cost that the loop holds is that of its iterate (R303). -/
def SolveLoop.CostHeld (p : SrgProblem) (l : SolveLoop) : Prop := l.phase ≠ .evaluate → evaluate p l.x = some l.cost

theorem SolveMove.costHeld (h : SolveMove p l l') (hheld : l.CostHeld p) : l'.CostHeld p := by
  cases h with
  | evaluated hcost | accepted _ hcost | acceptedEnded _ hcost => exact fun _ => hcost
  | ended | begunEnded | flagged | flaggedEnded => exact hheld
  | begun _ hphase | factored hphase | rejected _ hphase => exact fun _ => hheld (by simp [hphase])

/-! ### How many operations are left (R303, R304) -/

/-- At most as many operations are left before the end, of a loop that may run m iterations: five for each iteration not
yet begun, what the iteration in hand may still take, and the last assembly. -/
def SolveLoop.opsLeft (m : Nat) (l : SolveLoop) : Nat :=
  5 * (m - l.it) + match l.phase with
    | .evaluate | .step => 2
    | .assemble => 1
    | .factor => 5 - l.tries

/-- Between two factorisations of an iteration fewer than three pivots have been flagged in it (R303). -/
def SolveLoop.MayRetry (l : SolveLoop) : Prop := l.phase = .factor → l.tries < 3

theorem SolveLoop.opsLeft_pos {m : Nat} (h : l.MayRetry) : 0 < l.opsLeft m := by
  unfold SolveLoop.opsLeft
  cases hphase : l.phase with
  | factor => have := h hphase; dsimp only; omega
  | _ => dsimp only; omega

/-- A move that does not end the loop uses up one of the operations left. -/
theorem SolveMove.opsLeft_lt (h : SolveMove p l l') (hretry : l.MayRetry) (hrun : l'.ended = none) :
    l'.MayRetry ∧ l'.opsLeft p.slot.maxIter < l.opsLeft p.slot.maxIter := by
  cases h with
  | ended | begunEnded | flaggedEnded | acceptedEnded => cases hrun
  | evaluated _ hphase | accepted _ _ hphase | rejected _ hphase =>
    exact ⟨nofun, by simp only [SolveLoop.opsLeft, hphase]; omega⟩
  | begun hit hphase =>
    exact ⟨fun _ => Nat.succ_pos _, by simp only [SolveLoop.opsLeft, SolveLoop.beginIteration, hphase]; omega⟩
  | factored hphase =>
    have htries := hretry hphase
    exact ⟨nofun, by simp only [SolveLoop.opsLeft, hphase]; omega⟩
  | flagged hlast hphase =>
    have htries := hretry hphase
    exact ⟨fun _ => by simp only [SolveLoop.raise]; omega, by simp only [SolveLoop.opsLeft, SolveLoop.raise, hphase]; omega⟩

theorem solveOps_of_ended (n : Nat) (h : l.ended ≠ none) : solveOps p left n l = l := by
  cases n with
  | zero => rfl
  | succ n => exact if_pos (Option.isSome_iff_ne_none.mpr h)

/-- A loop given all the operations it has left comes to its end. -/
theorem solveOps_ended (n : Nat) (hretry : l.MayRetry) (hn : l.opsLeft p.slot.maxIter ≤ n) :
    (solveOps p left n l).ended ≠ none := by
  induction n generalizing l with
  | zero => exact absurd (SolveLoop.opsLeft_pos hretry) (Nat.not_lt.mpr hn)
  | succ n ih =>
    unfold solveOps
    split
    next hended => exact Option.isSome_iff_ne_none.mp hended
    next =>
      by_cases hrun : (solveOp p left l).ended = none
      · obtain ⟨hretry', hlt⟩ := (solveOp_move p left l).opsLeft_lt hretry hrun
        exact ih hretry' (by omega)
      · rwa [solveOps_of_ended n hrun]

end Moves

/-- Settles O60: every operation is one of the loop's moves; each uses up one of the operations left, and keeps the
bound of the iterations, the floor of λ and the cost of the iterate. An iteration counts when it begins (log entry
177). -/
theorem everySolveEndsWithinItsBound : Obligations.EverySolveEndsWithinItsBound := by
  unfold Obligations.EverySolveEndsWithinItsBound
  refine ⟨fun p left l hphase _ => ?_, fun p left n l hit => ?_, fun p left n l hreg hfloor => ?_,
    fun p left n l hheld => ?_⟩
  · exact solveOps_ended _ (by simp [SolveLoop.MayRetry, hphase]) (by simp only [SolveLoop.opsLeft, hphase]; omega)
  · exact solveOps_keeps SolveMove.it_le n hit
  · exact solveOps_keeps (P := (·.AboveFloor p.slot)) (SolveMove.aboveFloor hreg) n hfloor
  · exact solveOps_keeps (P := (·.CostHeld p)) SolveMove.costHeld n hheld

/-! ### The deadline of a running solve (R303, R307) -/

section Deadline

variable {unit : Fin 4} {g : Nat} {r : SlotRec} {d : Dev}
  (hstate : (d.srgUnit unit.val).state = .running) (hslot : (d.srgUnit unit.val).slotRunning = some g)
  (hrec : d.slotRec g = some r)

include hstate hslot hrec

theorem solveEnd_inTime (run : SolveRun) (hnow : d.now ≤ (d.srgSlot g).deadlineAt) :
    solveEnd unit run d = endSolve g r (d.wholeSolve g r run) d := by
  simp only [solveEnd, hstate, hslot, hrec, if_pos hnow]

theorem sergeDeadline_notStopped (hnow : (d.srgSlot g).deadlineAt ≤ d.now) :
    sergeDeadline unit none d =
      modUnit unit.val (fun u => { u with stopDue := some (u.stopDue.getD (d.srgSlot g).deadlineAt) }) d := by
  simp only [sergeDeadline, hstate, hslot, hrec, if_neg (Nat.not_lt.mpr hnow)]

/-- A unit that has stopped at the deadline pauses where its solve has a window left, the timer stopped its loop and the
warm start does not cut its window (R307, R414), and ends its solve otherwise. -/
theorem sergeDeadline_stopped (run : SolveRun) (hnow : (d.srgSlot g).deadlineAt ≤ d.now) :
    sergeDeadline unit (some run) d =
      if r.cls = .calib ∧ (d.srgSlot g).windowsUsed < r.spanWindows ∧ (d.cutSolve g r run).ended = .timer ∧
          d.cutAt ≠ some (d.srgSlot g).deadlineAt then
        pauseSolve g r (d.cutSolve g r run) d
      else endSolve g r (d.cutSolve g r run) d := by
  simp only [sergeDeadline, hstate, hslot, hrec, if_neg (Nat.not_lt.mpr hnow), Bool.and_eq_true, decide_eq_true_eq,
    and_assoc]

end Deadline

/-! ### Faults and the reset of a unit (R320) -/

section Faults

variable {unit : Fin 4} {d : Dev}

theorem sergeStopTimeout_due {t : Nanos} (hstop : (d.srgUnit unit.val).stopDue = some t) (hnow : t + 2 * usNs ≤ d.now) :
    sergeStopTimeout unit d = faultUnit unit.val 1 false d := by
  simp only [sergeStopTimeout, hstop, if_pos hnow]

theorem sergeUncorrectableSramError_notInFault (hstate : (d.srgUnit unit.val).state ≠ .fault) :
    sergeUncorrectableSramError unit d =
      faultUnit unit.val 2 false
        (bumpUnit unit.val 0x0C (·.eccUncorr) (fun c x => { x with eccUncorr := c }) 1 d) := if_neg hstate

theorem sergeUnitResetDone_resetting (hstate : (d.srgUnit unit.val).state = .resetting) :
    sergeUnitResetDone unit d =
      checkStructure unit.val (loadSlots unit.val (modUnit unit.val (fun x => { x with state := .idle })
        { d with recovery := { d.recovery with lastEnd := d.now } })) := if_neg (not_not_intro hstate)

end Faults

/-- Settles O38: each clause is one case of its command. That a window which the warm start cuts ends as at the solve's
last is log entry 170, that a loop which had ended before the deadline ends as it ended log entry 178. -/
theorem sergeSolvesEndOrFault : Obligations.SergeSolvesEndOrFault := by
  unfold Obligations.SergeSolvesEndOrFault
  refine ⟨fun s unit run g r hstate hslot hrec hnow => act_next (solveEnd_inTime hstate hslot hrec run hnow),
    fun s unit g r hstate hslot hrec hnow => ⟨act_next (sergeDeadline_notStopped hstate hslot hrec hnow),
      fun run => ⟨fun hcls hleft htimer hcut => act_next ?_, fun hends => act_next ?_⟩⟩,
    fun s unit t hstop hnow => act_next (sergeStopTimeout_due hstop hnow),
    fun s unit hstate => act_next (sergeUncorrectableSramError_notInFault hstate),
    fun s unit hstate => act_next (sergeUnitResetDone_resetting hstate)⟩
  · rw [sergeDeadline_stopped hstate hslot hrec run hnow, if_pos ⟨hcls, hleft, htimer, hcut⟩]
  · rw [sergeDeadline_stopped hstate hslot hrec run hnow, if_neg]
    rintro ⟨hcls, hleft, htimer, hcut⟩
    rcases hends with h | h | h | h
    · exact h hcls
    · exact Nat.not_lt.mpr h hleft
    · exact h htimer
    · exact hcut h

end Sys2Proof.Machine
end

section
/-!
What every command and every step keeps of the whole device: its frame (Instr.parts), the pins of SAFE_OK (R379, R384)
and the fuses (R406, R407).
-/

namespace Sys2Proof.Machine

open Sys2Proof

/-! ### The frame of every command -/

/-- A meaning that is an effect changes the parts that its effect changes. -/
theorem act_only {L : List Part} {f : Dev → Dev} {s t : State} (hf : OnlyIn L s.dev (f s.dev))
    (hx : act f s = .next t) : OnlyIn L s.dev t.dev := by
  cases hx
  exact hf

/-- A meaning whose access may fail changes the parts that its effect changes where it has one. -/
theorem attempt_only {L : List Part} {f : Dev → Option Dev} {s t : State}
    (hf : ∀ e, f s.dev = some e → OnlyIn L s.dev e) (hx : attempt f s = .next t) : OnlyIn L s.dev t.dev := by
  obtain ⟨d, hd, rfl⟩ := attempt_next hx
  exact hf d hd

/-- Every command changes only the parts that its row names. -/
theorem exec_only {i : Instr} {s t : State} (hx : exec i s = .next t) : OnlyIn i.parts s.dev t.dev := by
  cases i with
  | minorTickBoundary => exact act_only (minorTickBoundary_only (hL := rfl) (h := .refl ..) ..) hx
  | majorTickBoundary => exact act_only (majorTickBoundary_only (hL := rfl) (h := .refl ..) ..) hx
  | tickBroadcastArrival => exact act_only (tickBroadcastArrival_only (hL := rfl) (h := .refl ..) ..) hx
  | windowRelease => exact act_only (windowRelease_only (hL := rfl) (h := .refl ..) ..) hx
  | heldWindowRelease => exact act_only (heldWindowRelease_only (hL := rfl) (h := .refl ..) ..) hx
  | layerWatchdogExpiry => exact act_only (layerWatchdogExpiry_only (hL := rfl) (h := .refl ..) ..) hx
  | tweedStepTimerExpiry => exact act_only (tweedStepTimerExpiry_only (hL := rfl) (h := .refl ..) ..) hx
  | chambrayTimerExpiry => exact act_only (chambrayTimerExpiry_only (hL := rfl) (h := .refl ..) ..) hx
  | assemblyTimerExpiry => exact act_only (assemblyTimerExpiry_only (hL := rfl) (h := .refl ..) ..) hx
  | assemblyComplete => exact act_only (assemblyComplete_only (hL := rfl) (h := .refl ..) ..) hx
  | stagingWindowEnd => exact act_only (stagingWindowEnd_only (hL := rfl) (h := .refl ..) ..) hx
  | transmitWindow => exact act_only (transmitWindow_only (hL := rfl) (h := .refl ..) ..) hx
  | vlinkFrameDone => exact act_only (vlinkFrameDone_only (hL := rfl) (h := .refl ..) ..) hx
  | hostWindowEnd => exact act_only (hostWindowEnd_only (hL := rfl) (h := .refl ..) ..) hx
  | gateClose => exact act_only (gateClose_only (hL := rfl) (h := .refl ..) ..) hx
  | sliceTimerExpiry => exact act_only (sliceTimerExpiry_only (hL := rfl) (h := .refl ..) ..) hx
  | deferredInsertion => exact act_only (deferredInsertion_only (hL := rfl) (h := .refl ..) ..) hx
  | tweedTableRelease => exact act_only (tweedTableRelease_only (hL := rfl) (h := .refl ..) ..) hx
  | syncFollowUpReceived => exact act_only (syncFollowUpReceived_only (hL := rfl) (h := .refl ..) ..) hx
  | announceReceived => exact act_only (announceReceived_only (hL := rfl) (h := .refl ..) ..) hx
  | vehicleTimeLoss => exact act_only (vehicleTimeLoss_only (hL := rfl) (h := .refl ..) ..) hx
  | pdelayReqTimer => exact act_only (pdelayReqTimer_only (hL := rfl) (h := .refl ..) ..) hx
  | pdelayReqReceived => exact act_only (pdelayReqReceived_only (hL := rfl) (h := .refl ..) ..) hx
  | pdelayRespReceived => exact act_only (pdelayRespReceived_only (hL := rfl) (h := .refl ..) ..) hx
  | v1GptpFrame => exact act_only (v1GptpFrame_only (hL := rfl) (h := .refl ..) ..) hx
  | lidarSyncSend => exact act_only (lidarSyncSend_only (hL := rfl) (h := .refl ..) ..) hx
  | lidarAnnounceSend => exact act_only (lidarAnnounceSend_only (hL := rfl) (h := .refl ..) ..) hx
  | lidarGptpReceived => exact act_only (lidarGptpReceived_only (hL := rfl) (h := .refl ..) ..) hx
  | lidarFrameReceived => exact act_only (lidarFrameReceived_only (hL := rfl) (h := .refl ..) ..) hx
  | lidarLinkDown => exact act_only (lidarLinkDown_only (hL := rfl) (h := .refl ..) ..) hx
  | lidarLinkUp => exact act_only (lidarLinkUp_only (hL := rfl) (h := .refl ..) ..) hx
  | triggerSend => exact act_only (triggerSend_only (hL := rfl) (h := .refl ..) ..) hx
  | csi2PacketReceived => exact act_only (csi2PacketReceived_only (hL := rfl) (h := .refl ..) ..) hx
  | linkLockLoss => exact act_only (linkLockLoss_only (hL := rfl) (h := .refl ..) ..) hx
  | retrainIntervalExpiry => exact act_only (retrainIntervalExpiry_only (hL := rfl) (h := .refl ..) ..) hx
  | trainingSuccess => exact act_only (trainingSuccess_only (hL := rfl) (h := .refl ..) ..) hx
  | trainingTimeout => exact act_only (trainingTimeout_only (hL := rfl) (h := .refl ..) ..) hx
  | cciAck => exact act_only (cciAck_only (hL := rfl) (h := .refl ..) ..) hx
  | cciTimeout => exact act_only (cciTimeout_only (hL := rfl) (h := .refl ..) ..) hx
  | statisticsComplete => exact act_only (statisticsComplete_only (hL := rfl) (h := .refl ..) ..) hx
  | percaleBandDone => exact act_only (percaleBandDone_only (hL := rfl) (h := .refl ..) ..) hx
  | imuSyncPulse => exact act_only (imuSyncPulse_only (hL := rfl) (h := .refl ..) ..) hx
  | imuDrdyEdge => exact act_only (imuDrdyEdge_only (hL := rfl) (h := .refl ..) ..) hx
  | imuTransactionDone => exact act_only (imuTransactionDone_only (hL := rfl) (h := .refl ..) ..) hx
  | imuMissedSample => exact act_only (imuMissedSample_only (hL := rfl) (h := .refl ..) ..) hx
  | canFrameReceived => exact act_only (canFrameReceived_only (hL := rfl) (h := .refl ..) ..) hx
  | gnssSentenceReceived => exact act_only (gnssSentenceReceived_only (hL := rfl) (h := .refl ..) ..) hx
  | gnssPpsEdge => exact act_only (gnssPpsEdge_only (hL := rfl) (h := .refl ..) ..) hx
  | ppsMissingTimeout => exact act_only (ppsMissingTimeout_only (hL := rfl) (h := .refl ..) ..) hx
  | gnssPairTimeout => exact act_only (gnssPairTimeout_only (hL := rfl) (h := .refl ..) ..) hx
  | absenceTimeout => exact act_only (absenceTimeout_only (hL := rfl) (h := .refl ..) ..) hx
  | wstart => exact act_only (wstart_only (hL := rfl) (h := .refl ..) ..) hx
  | endOp => exact act_only (endOp_only (hL := rfl) (h := .refl ..) ..) hx
  | wtally => exact act_only (wtally_only (hL := rfl) (h := .refl ..) ..) hx
  | signalOp => exact act_only (signalOp_only (hL := rfl) (h := .refl ..) ..) hx
  | loopOp => exact act_only (loopOp_only (hL := rfl) (h := .refl ..) ..) hx
  | loopx => exact act_only (loopx_only (hL := rfl) (h := .refl ..) ..) hx
  | endl => exact act_only (endl_only (hL := rfl) (h := .refl ..) ..) hx
  | movi => exact act_only (movi_only (hL := rfl) (h := .refl ..) ..) hx
  | addi => exact act_only (addi_only (hL := rfl) (h := .refl ..) ..) hx
  | ldv => exact attempt_only (ldv_only _ _ _ _ _ _ rfl (.refl ..)) hx
  | stvm => exact attempt_only (stvm_only _ _ _ _ _ rfl (.refl ..)) hx
  | mma => exact attempt_only (mma_only _ _ _ _ _ _ _ _ _ _ rfl (.refl ..)) hx
  | accz => exact act_only (accz_only (hL := rfl) (h := .refl ..) ..) hx
  | accrd => exact act_only (accrd_only (hL := rfl) (h := .refl ..) ..) hx
  | accwr => exact act_only (accwr_only (hL := rfl) (h := .refl ..) ..) hx
  | accscl => exact act_only (accscl_only (hL := rfl) (h := .refl ..) ..) hx
  | vop => exact act_only (vop_only (hL := rfl) (h := .refl ..) ..) hx
  | vcvt => exact act_only (vcvt_only (hL := rfl) (h := .refl ..) ..) hx
  | vred => exact act_only (vred_only (hL := rfl) (h := .refl ..) ..) hx
  | vfn => exact act_only (vfn_only (hL := rfl) (h := .refl ..) ..) hx
  | smax => exact act_only (smax_only (hL := rfl) (h := .refl ..) ..) hx
  | sexp => exact act_only (sexp_only (hL := rfl) (h := .refl ..) ..) hx
  | srsc => exact act_only (srsc_only (hL := rfl) (h := .refl ..) ..) hx
  | smrg => exact act_only (smrg_only (hL := rfl) (h := .refl ..) ..) hx
  | dmaq => exact attempt_only (dmaq_only _ _ _ rfl (.refl ..)) hx
  | dmaw => exact act_only (dmaw_only (hL := rfl) (h := .refl ..) ..) hx
  | radd => exact attempt_only (radd_only _ _ _ _ _ _ rfl (.refl ..)) hx
  | setc => exact act_only (setc_only (hL := rfl) (h := .refl ..) ..) hx
  | rdnsw => exact act_only (rdnsw_only (hL := rfl) (h := .refl ..) ..) hx
  | undefinedOpcode => exact act_only (undefinedOpcode_only (hL := rfl) (h := .refl ..) ..) hx
  | transferStart => exact act_only (transferStart_only (hL := rfl) (h := .refl ..) ..) hx
  | transferComplete => exact act_only (transferComplete_only (hL := rfl) (h := .refl ..) ..) hx
  | transferTimeout => exact act_only (transferTimeout_only (hL := rfl) (h := .refl ..) ..) hx
  | scrubAccess => exact act_only (scrubAccess_only (hL := rfl) (h := .refl ..) ..) hx
  | burlapClusterReloadDone => exact act_only (burlapClusterReloadDone_only (hL := rfl) (h := .refl ..) ..) hx
  | linkTransactionTimeout => exact act_only (linkTransactionTimeout_only (hL := rfl) (h := .refl ..) ..) hx
  | flitCrcError => exact act_only (flitCrcError_only (hL := rfl) (h := .refl ..) ..) hx
  | create => exact act_only (create_only (hL := rfl) (h := .refl ..) ..) hx
  | openView => exact act_only (openView_only (hL := rfl) (h := .refl ..) ..) hx
  | appendTok => exact act_only (appendTok_only (hL := rfl) (h := .refl ..) ..) hx
  | forkSeq => exact act_only (forkSeq_only (hL := rfl) (h := .refl ..) ..) hx
  | freeSeq => exact act_only (freeSeq_only (hL := rfl) (h := .refl ..) ..) hx
  | restore => exact act_only (restore_only (hL := rfl) (h := .refl ..) ..) hx
  | openQueue => exact act_only (openQueue_only (hL := rfl) (h := .refl ..) ..) hx
  | damaskReservedOp => exact act_only (damaskReservedOp_only (hL := rfl) (h := .refl ..) ..) hx
  | epochClose => exact act_only (epochClose_only (hL := rfl) (h := .refl ..) ..) hx
  | solveEnd => exact act_only (solveEnd_only (hL := rfl) (h := .refl ..) ..) hx
  | sergeDeadline => exact act_only (sergeDeadline_only (hL := rfl) (h := .refl ..) ..) hx
  | sergeStopTimeout => exact act_only (sergeStopTimeout_only (hL := rfl) (h := .refl ..) ..) hx
  | sergeUnitResetDone => exact act_only (sergeUnitResetDone_only (hL := rfl) (h := .refl ..) ..) hx
  | goldenSegmentEnd => exact act_only (goldenSegmentEnd_only (hL := rfl) (h := .refl ..) ..) hx
  | goldenBudgetTimer => exact act_only (goldenBudgetTimer_only (hL := rfl) (h := .refl ..) ..) hx
  | resumeCountExpiry => exact act_only (resumeCountExpiry_only (hL := rfl) (h := .refl ..) ..) hx
  | selfCheckPass => exact act_only (selfCheckPass_only (hL := rfl) (h := .refl ..) ..) hx
  | lockstepMismatch => exact act_only (lockstepMismatch_only (hL := rfl) (h := .refl ..) ..) hx
  | refclkLoss => exact act_only (refclkLoss_only (hL := rfl) (h := .refl ..) ..) hx
  | fabricError => exact act_only (fabricError_only (hL := rfl) (h := .refl ..) ..) hx
  | fwWatchdogExpiry => exact act_only (fwWatchdogExpiry_only (hL := rfl) (h := .refl ..) ..) hx
  | reloadDone => exact act_only (reloadDone_only (hL := rfl) (h := .refl ..) ..) hx
  | restartTimeout => exact act_only (restartTimeout_only (hL := rfl) (h := .refl ..) ..) hx
  | dieAdmissionReport => exact act_only (dieAdmissionReport_only (hL := rfl) (h := .refl ..) ..) hx
  | admissionDeadline => exact act_only (admissionDeadline_only (hL := rfl) (h := .refl ..) ..) hx
  | healthDeadline => exact act_only (healthDeadline_only (hL := rfl) (h := .refl ..) ..) hx
  | powerOnReset => exact act_only (powerOnReset_only (hL := rfl) (h := .refl ..) ..) hx
  | deviceReset => exact act_only (deviceReset_only (hL := rfl) (h := .refl ..) ..) hx
  | sectionVerified => exact act_only (sectionVerified_only (hL := rfl) (h := .refl ..) ..) hx
  | phase0Loaded => exact act_only (phase0Loaded_only (hL := rfl) (h := .refl ..) ..) hx
  | slotVerified => exact act_only (slotVerified_only (hL := rfl) (h := .refl ..) ..) hx
  | imageBlockTimeout => exact act_only (imageBlockTimeout_only (hL := rfl) (h := .refl ..) ..) hx
  | warmReadDone => exact act_only (warmReadDone_only (hL := rfl) (h := .refl ..) ..) hx
  | dieReload => exact act_only (dieReload_only (hL := rfl) (h := .refl ..) ..) hx
  | sessionOpen => exact act_only (sessionOpen_only (hL := rfl) (h := .refl ..) ..) hx
  | sessionClose => exact act_only (sessionClose_only (hL := rfl) (h := .refl ..) ..) hx
  | attestReportDone => exact act_only (attestReportDone_only (hL := rfl) (h := .refl ..) ..) hx
  | attestTimeout => exact act_only (attestTimeout_only (hL := rfl) (h := .refl ..) ..) hx
  | hstHeartbeat => exact act_only (hstHeartbeat_only (hL := rfl) (h := .refl ..) ..) hx
  | hbWarn => exact act_only (hbWarn_only (hL := rfl) (h := .refl ..) ..) hx
  | heartbeatTimeout => exact act_only (heartbeatTimeout_only (hL := rfl) (h := .refl ..) ..) hx
  | hstSqTail => exact act_only (hstSqTail_only (hL := rfl) (h := .refl ..) ..) hx
  | hstCqHead => exact act_only (hstCqHead_only (hL := rfl) (h := .refl ..) ..) hx
  | hstSrCons => exact act_only (hstSrCons_only (hL := rfl) (h := .refl ..) ..) hx
  | hstIntStatus => exact act_only (hstIntStatus_only (hL := rfl) (h := .refl ..) ..) hx
  | registerWrite => exact act_only (registerWrite_only (hL := rfl) (h := .refl ..) ..) hx
  | pcieLinkEvent => exact act_only (pcieLinkEvent_only (hL := rfl) (h := .refl ..) ..) hx
  | dmaReadFault => exact act_only (dmaReadFault_only (hL := rfl) (h := .refl ..) ..) hx
  | submissionFetch => exact act_only (submissionFetch_only (hL := rfl) (h := .refl ..) ..) hx
  | runModel => exact act_only (runModel_only (hL := rfl) (h := .refl ..) ..) hx
  | readGrid => exact act_only (readGrid_only (hL := rfl) (h := .refl ..) ..) hx
  | readTrack => exact act_only (readTrack_only (hL := rfl) (h := .refl ..) ..) hx
  | hostFork => exact act_only (hostFork_only (hL := rfl) (h := .refl ..) ..) hx
  | freeFork => exact act_only (freeFork_only (hL := rfl) (h := .refl ..) ..) hx
  | subscribe => exact act_only (subscribe_only (hL := rfl) (h := .refl ..) ..) hx
  | unsubscribe => exact act_only (unsubscribe_only (hL := rfl) (h := .refl ..) ..) hx
  | attest => exact act_only (attest_only (hL := rfl) (h := .refl ..) ..) hx
  | privClaim => exact act_only (privClaim_only (hL := rfl) (h := .refl ..) ..) hx
  | privVerifyDone => exact act_only (privVerifyDone_only (hL := rfl) (h := .refl ..) ..) hx
  | stageWrite => exact act_only (stageWrite_only (hL := rfl) (h := .refl ..) ..) hx
  | stageCommit => exact act_only (stageCommit_only (hL := rfl) (h := .refl ..) ..) hx
  | stageCommitDone => exact act_only (stageCommitDone_only (hL := rfl) (h := .refl ..) ..) hx
  | setTraceMask => exact act_only (setTraceMask_only (hL := rfl) (h := .refl ..) ..) hx
  | warmStart => exact act_only (warmStart_only (hL := rfl) (h := .refl ..) ..) hx
  | unlistedOp => exact act_only (unlistedOp_only (hL := rfl) (h := .refl ..) ..) hx
  | modeRequest => exact act_only (modeRequest_only (hL := rfl) (h := .refl ..) ..) hx
  | warmStartConsent => exact act_only (warmStartConsent_only (hL := rfl) (h := .refl ..) ..) hx
  | controllerHeartbeat => exact act_only (controllerHeartbeat_only (hL := rfl) (h := .refl ..) ..) hx
  | ctrlSilenceTimeout => exact act_only (ctrlSilenceTimeout_only (hL := rfl) (h := .refl ..) ..) hx
  | consentExpiry => exact act_only (consentExpiry_only (hL := rfl) (h := .refl ..) ..) hx
  | vlinkLinkDown => exact act_only (vlinkLinkDown_only (hL := rfl) (h := .refl ..) ..) hx
  | tempSample => exact act_only (tempSample_only (hL := rfl) (h := .refl ..) ..) hx
  | thermalRestoreTimer => exact act_only (thermalRestoreTimer_only (hL := rfl) (h := .refl ..) ..) hx
  | railExcursion => exact act_only (railExcursion_only (hL := rfl) (h := .refl ..) ..) hx
  | railOvercurrent => exact act_only (railOvercurrent_only (hL := rfl) (h := .refl ..) ..) hx
  | railRestoreTimer => exact act_only (railRestoreTimer_only (hL := rfl) (h := .refl ..) ..) hx
  | vddXUndervoltageTimer => exact act_only (vddXUndervoltageTimer_only (hL := rfl) (h := .refl ..) ..) hx
  | memoryRailResetTimer => exact act_only (memoryRailResetTimer_only (hL := rfl) (h := .refl ..) ..) hx
  | limitWrite => exact act_only (limitWrite_only (hL := rfl) (h := .refl ..) ..) hx
  | emEstimatorSample => exact act_only (emEstimatorSample_only (hL := rfl) (h := .refl ..) ..) hx
  | eyeMarginSample => exact act_only (eyeMarginSample_only (hL := rfl) (h := .refl ..) ..) hx
  | canaryFailure => exact act_only (canaryFailure_only (hL := rfl) (h := .refl ..) ..) hx
  | wearRecordWrite => exact act_only (wearRecordWrite_only (hL := rfl) (h := .refl ..) ..) hx
  | lifePrediction => exact act_only (lifePrediction_only (hL := rfl) (h := .refl ..) ..) hx
  | tracePoint => exact act_only (tracePoint_only (hL := rfl) (h := .refl ..) ..) hx
  | tapInstruction => exact act_only (tapInstruction_only (hL := rfl) (h := .refl ..) ..) hx
  | tsqDevtimeLoRead => exact act_only (tsqDevtimeLoRead_only (hL := rfl) (h := .refl ..) ..) hx
  | tsqPpsStampLoRead => exact act_only (tsqPpsStampLoRead_only (hL := rfl) (h := .refl ..) ..) hx
  | musLastTimeLoRead => exact act_only (musLastTimeLoRead_only (hL := rfl) (h := .refl ..) ..) hx
  | exposureUsRead => exact act_only (exposureUsRead_only (hL := rfl) (h := .refl ..) ..) hx
  | tsqPendingKLoRead => exact act_only (tsqPendingKLoRead_only (hL := rfl) (h := .refl ..) ..) hx
  | srgCalGenRead => exact act_only (srgCalGenRead_only (hL := rfl) (h := .refl ..) ..) hx
  | lastEndLoRead => exact act_only (lastEndLoRead_only (hL := rfl) (h := .refl ..) ..) hx
  | vlinkLinkUp => exact act_only (vlinkLinkUp_only (hL := rfl) (h := .refl ..) ..) hx
  | refclkReturn => exact act_only (refclkReturn_only (hL := rfl) (h := .refl ..) ..) hx
  | tickIntervalTimeout => exact act_only (tickIntervalTimeout_only (hL := rfl) (h := .refl ..) ..) hx
  | servoSaturationSecond => exact act_only (servoSaturationSecond_only (hL := rfl) (h := .refl ..) ..) hx
  | reacquisitionPeriodEnd => exact act_only (reacquisitionPeriodEnd_only (hL := rfl) (h := .refl ..) ..) hx
  | initWaitExpiry => exact act_only (initWaitExpiry_only (hL := rfl) (h := .refl ..) ..) hx
  | canProtocolError => exact act_only (canProtocolError_only (hL := rfl) (h := .refl ..) ..) hx
  | unacceptedControllerFrame => exact act_only (unacceptedControllerFrame_only (hL := rfl) (h := .refl ..) ..) hx
  | sergeUncorrectableSramError => exact act_only (sergeUncorrectableSramError_only (hL := rfl) (h := .refl ..) ..) hx
  | stageWriteDone => exact act_only (stageWriteDone_only (hL := rfl) (h := .refl ..) ..) hx
  | firmwareRestartComplete => exact act_only (firmwareRestartComplete_only (hL := rfl) (h := .refl ..) ..) hx
  | porstNAsserted => exact act_only (porstNAsserted_only (hL := rfl) (h := .refl ..) ..) hx

/-- No command touches the queue: an effect and an access write the device alone. -/
theorem exec_pending {i : Instr} {s t : State} (hx : exec i s = .next t) : t.pending = s.pending := by
  cases haccess : coreAccess i with
  | none =>
    obtain ⟨f, hf⟩ := exec_of_no_access haccess s
    rw [hf] at hx
    cases hx
    rfl
  | some f =>
    rw [exec_of_access haccess] at hx
    obtain ⟨d, -, rfl⟩ := attempt_next hx
    rfl

/-- Settles O10: each command's effect changes the parts of its row, and none touches the queue. -/
theorem everyCommandKeepsItsFrame : Obligations.EveryCommandKeepsItsFrame := by
  unfold Obligations.EveryCommandKeepsItsFrame
  exact fun i s t hx => ⟨exec_only hx, exec_pending hx⟩

/-! ### The pins of SAFE_OK and the fuses over every step -/

/-- Following the pins of SAFE_OK, and nothing else. -/
def Keep.safePins : Keep :=
  { mem := false, pins := true, pos := none, plan := none, burnt := 0, retired := false }

theorem kept_safePins {s : State} : Kept Keep.safePins s.dev ↔ s.safePins :=
  ⟨fun h => h.pins rfl, fun h => ⟨nofun, fun _ => h, nofun, nofun, Nat.zero_le _, nofun⟩⟩

/-- Following the fuses from those of a device on, and nothing else. -/
def Keep.fuses (nv : NvState) : Keep :=
  { mem := false, pins := false, pos := none, plan := none, burnt := nv.rollbackCount
    retired := decide (nv.lifecycle = .retired) }

theorem kept_fuses {nv : NvState} {d : Dev} : Kept (Keep.fuses nv) d ↔
    nv.rollbackCount ≤ d.boot.nv.rollbackCount ∧ (nv.lifecycle = .retired → d.boot.nv.lifecycle = .retired) :=
  ⟨fun h => ⟨h.burnt, fun e => h.retired (decide_eq_true e)⟩,
    fun h => ⟨nofun, nofun, nofun, nofun, h.1, fun e => h.2 (of_decide_eq_true e)⟩⟩

/-- Settles O5: the rule of the pins is one of the things that every command and the idle cycle keep. -/
theorem everyStepKeepsSafeOkRule : Obligations.EveryStepKeepsSafeOkRule := by
  unfold Obligations.EveryStepKeepsSafeOkRule
  intro s t hpins hx
  exact kept_safePins.mp (step_kept rfl rfl (kept_safePins.mpr hpins) hx)

/-- Settles O7: the fuses that are burnt before a step are among the things that it keeps. -/
theorem fusesOnlyBurn : Obligations.FusesOnlyBurn := by
  unfold Obligations.FusesOnlyBurn
  intro s t hx
  exact kept_fuses.mp (step_kept rfl rfl (kept_fuses.mpr ⟨le_rfl, id⟩) hx)

/-- Settles O6: the state after reset is a device that lists nothing and has not started its pins (log entry 5). -/
theorem resetStateIsCanonical : Obligations.ResetStateIsCanonical := by
  unfold Obligations.ResetStateIsCanonical
  exact ⟨rfl, ⟨nofun, fun _ => ⟨rfl, rfl⟩⟩, rfl, rfl, rfl⟩

end Sys2Proof.Machine
end

section
/-!
Sessions of the host ports (R343, R345 to R353, R414, R422, R481): OPEN and CLOSE, the report, the heartbeat and its
timers, the events of the PCIe link, and the fetch of a submission.
-/

namespace Sys2Proof.Machine

open Sys2Proof

/-! ### OPEN and CLOSE (R345, R347, R362, R414) -/

section Answers

variable {port : Fin 4} {d : Dev} (hopen : d.barOpen = true) (hlink : (d.port port.val).linkUp = true)

include hopen hlink

theorem sessionOpen_notClosed (hstate : (d.port port.val).state ≠ .closed) :
    sessionOpen port d = countProto port.val d := by
  simp only [sessionOpen]
  rw [if_neg (answers_guard hopen hlink), if_pos hstate]

/-- OPEN of a closed port is refused where the port or its registers do not allow a session. -/
theorem sessionOpen_closed {r : HostPortRec} (hstate : (d.port port.val).state = .closed)
    (hwarm : d.warmRunning = false) (hrec : d.portRec port.val = some r) :
    sessionOpen port d =
      if !r.enable || !(d.port port.val).busMaster || !(d.port port.val).ringsOk ||
          decide ((d.port port.val).attestLen < reportLen) then
        d.setPort port.val { d.port port.val with closeReason := .config }
      else setSession port.val .attesting { d.setPort port.val { (d.port port.val).fresh with
          gen := (d.port port.val).gen + 1, openAt := d.now
          challenge := some (Config.challenge d.freeCtr % 2 ^ 256) } with freeCtr := d.freeCtr + 1 } := by
  simp only [sessionOpen, hrec]
  rw [if_neg (answers_guard hopen hlink), if_neg (not_not_intro hstate), if_neg (by simp [hwarm])]

theorem sessionOpen_warm (hstate : (d.port port.val).state = .closed) (hwarm : d.warmRunning = true) :
    sessionOpen port d = d.setPort port.val { d.port port.val with closeReason := .warmStart } := by
  simp only [sessionOpen]
  rw [if_neg (answers_guard hopen hlink), if_neg (not_not_intro hstate), if_pos hwarm]

theorem sessionClose_attesting (hstate : (d.port port.val).state = .attesting) :
    sessionClose port d = closeNow port.val (some .host) d := by
  simp only [sessionClose]
  rw [if_neg (answers_guard hopen hlink), hstate]

theorem sessionClose_open (hstate : (d.port port.val).state = .open_) :
    sessionClose port d = closing port.val .host d := by
  simp only [sessionClose]
  rw [if_neg (answers_guard hopen hlink), hstate]

theorem sessionClose_closed (hstate : (d.port port.val).state = .closed) :
    sessionClose port d = countProto port.val d := by
  simp only [sessionClose]
  rw [if_neg (answers_guard hopen hlink), hstate]

/-- CLOSE in CLOSING counts, but for the cycle of the heartbeat expiry that began it. -/
theorem sessionClose_closing (hstate : (d.port port.val).state = .closing)
    (hother : (d.port port.val).closeReason ≠ .heartbeat ∨ d.now ≠ (d.port port.val).hbAt + 500 * msNs) :
    sessionClose port d = countProto port.val d := by
  simp only [sessionClose]
  rw [if_neg (answers_guard hopen hlink), hstate]
  refine if_neg ?_
  simpa [imp_iff_not_or] using hother

/-! ### HST_HEARTBEAT (R345, R348) -/

theorem hstHeartbeat_answers (value : BitVec 32) :
    hstHeartbeat port value d = d.setPort port.val { d.port port.val with
      heartbeat := value
      hbAt := if (d.port port.val).state = .open_ then d.now else (d.port port.val).hbAt } := by
  simp only [hstHeartbeat]
  rw [if_neg (answers_guard hopen hlink)]

end Answers

section Silent

variable {port : Fin 4} {d : Dev} (hsilent : d.barOpen = false ∨ (d.port port.val).linkUp = false)

include hsilent

theorem sessionOpen_silent : sessionOpen port d = d := by rcases hsilent with h | h <;> simp [sessionOpen, h]

theorem sessionClose_silent : sessionClose port d = d := by rcases hsilent with h | h <;> simp [sessionClose, h]

theorem hstHeartbeat_silent (value : BitVec 32) : hstHeartbeat port value d = d := by
  rcases hsilent with h | h <;> simp [hstHeartbeat, h]

end Silent

/-! ### The report and the timers of a session (R346 to R348, R422) -/

section Timers

variable {port : Fin 4} {d : Dev}

/-- Where the housekeeping processor runs and the port can write, the report is made. -/
theorem report_guard (hruns : d.fwRuns procHkp = true) (hwrite : (d.port port.val).canWrite = true) :
    ¬ (!d.fwRuns procHkp || !(d.port port.val).canWrite) = true := by simp [hruns, hwrite]

theorem attestReportDone_attesting (hruns : d.fwRuns procHkp = true) (hwrite : (d.port port.val).canWrite = true)
    (hstate : (d.port port.val).state = .attesting) (htime : d.now < (d.port port.val).openAt + 400 * msNs) :
    attestReportDone port d = setSession port.val .open_
      ((writeReport port.val d).modPort port.val (fun h => { h with hbAt := (writeReport port.val d).now })) := by
  simp only [attestReportDone]
  rw [if_neg (report_guard hruns hwrite), hstate]
  exact if_pos htime

theorem attestReportDone_live {w : Work} (hruns : d.fwRuns procHkp = true) (hwrite : (d.port port.val).canWrite = true)
    (hstate : (d.port port.val).state = .open_ ∨ (d.port port.val).state = .closing)
    (hcmd : d.begunCommand port.val 0x12 = some w) :
    attestReportDone port d = finishCommand port.val w stOk [] (writeReport port.val d) := by
  simp only [attestReportDone]
  rw [if_neg (report_guard hruns hwrite), hcmd]
  rcases hstate with hstate | hstate <;> rw [hstate]

theorem attestTimeout_due (hstate : (d.port port.val).state = .attesting)
    (hdue : (d.port port.val).openAt + 400 * msNs ≤ d.now) :
    attestTimeout port d = closeNow port.val (some .attest) d := if_pos (by simp [hstate, hdue])

theorem attestTimeout_early
    (h : (d.port port.val).state ≠ .attesting ∨ d.now < (d.port port.val).openAt + 400 * msNs) :
    attestTimeout port d = d := if_neg (by simpa [imp_iff_not_or] using h)

theorem hbWarn_due (hstate : (d.port port.val).state = .open_) (hdue : (d.port port.val).hbAt + 300 * msNs ≤ d.now) :
    hbWarn port d = setInt port.val intHbWarn d := if_pos (by simp [hstate, hdue])

theorem hbWarn_early (h : (d.port port.val).state ≠ .open_ ∨ d.now < (d.port port.val).hbAt + 300 * msNs) :
    hbWarn port d = d := if_neg (by simpa [imp_iff_not_or] using h)

theorem heartbeatTimeout_due (hstate : (d.port port.val).state = .open_)
    (hdue : (d.port port.val).hbAt + 500 * msNs ≤ d.now) :
    heartbeatTimeout port d = closing port.val .heartbeat d := if_pos (by simp [hstate, hdue])

theorem heartbeatTimeout_early (h : (d.port port.val).state ≠ .open_ ∨ d.now < (d.port port.val).hbAt + 500 * msNs) :
    heartbeatTimeout port d = d := if_neg (by simpa [imp_iff_not_or] using h)

end Timers

/-- Settles O46: each clause is one command's case. That OPEN without Bus Master Enable is refused CONFIG is log entry
118, that OPEN and CLOSE in another state count as ignored log entry 119. -/
theorem sessionsOpenAndClose : Obligations.SessionsOpenAndClose := by
  unfold Obligations.SessionsOpenAndClose
  refine ⟨fun s port r hopen hlink => ⟨fun hstate => act_next (sessionOpen_notClosed hopen hlink hstate),
      fun hstate hwarm => act_next (sessionOpen_warm hopen hlink hstate hwarm),
      fun hstate hwarm hrec => ⟨fun henable hmaster hrings hlen => ⟨_, rfl, act_next ?_⟩, fun hconfig => act_next ?_⟩⟩,
    fun s port hopen hlink => ⟨fun hstate => act_next (sessionClose_attesting hopen hlink hstate),
      fun hstate => act_next (sessionClose_open hopen hlink hstate),
      fun hstate => act_next (sessionClose_closed hopen hlink hstate),
      fun hstate hother => act_next (sessionClose_closing hopen hlink hstate hother)⟩,
    fun s port hruns hwrite =>
      ⟨fun hstate htime => ⟨_, rfl, act_next (attestReportDone_attesting hruns hwrite hstate htime)⟩,
      fun w hstate hcmd => act_next (attestReportDone_live hruns hwrite hstate hcmd)⟩,
    fun s port hstate hdue => act_next (attestTimeout_due hstate hdue),
    fun s port h => act_next (attestTimeout_early h),
    fun s port hstate hdue => act_next (hbWarn_due hstate hdue),
    fun s port h => act_next (hbWarn_early h),
    fun s port hsilent => ⟨act_next (sessionOpen_silent hsilent), act_next (sessionClose_silent hsilent)⟩⟩
  · rw [sessionOpen_closed hopen hlink hstate hwarm hrec,
      if_neg (by simp [henable, hmaster, hrings, Nat.not_lt.mpr hlen])]
  · rw [sessionOpen_closed hopen hlink hstate hwarm hrec, if_pos (by simpa [or_assoc] using hconfig)]

/-- Settles O47: a write of HST_HEARTBEAT moves the timer in OPEN alone, and the timer closes an open session alone. -/
theorem heartbeatsKeepSessionsOpen : Obligations.HeartbeatsKeepSessionsOpen := by
  unfold Obligations.HeartbeatsKeepSessionsOpen
  refine ⟨fun s port value hopen hlink => ⟨fun hstate => act_next ?_, fun hstate => act_next ?_⟩,
    fun s port hstate hdue => act_next (heartbeatTimeout_due hstate hdue),
    fun s port h => act_next (heartbeatTimeout_early h),
    fun s port value hsilent => act_next (hstHeartbeat_silent hsilent value)⟩
  · rw [hstHeartbeat_answers hopen hlink, if_pos hstate]
  · rw [hstHeartbeat_answers hopen hlink, if_neg hstate]

/-! ### The PCIe link and read faults (R343, R347, R481) -/

section Link

variable {port : Fin 4} {d : Dev}

theorem dmaReadFault_linkDown (hlink : (d.port port.val).linkUp = false) : dmaReadFault port d = d := by
  simp [dmaReadFault, hlink]

/-- A read fault on a link that is up is reported, and ends an open session. -/
theorem dmaReadFault_linkUp (hlink : (d.port port.val).linkUp = true) :
    dmaReadFault port d = if (d.port port.val).state = .open_ then closing port.val .dma (emit (.aer port.val) d)
      else emit (.aer port.val) d := by
  simp [dmaReadFault, hlink]

/-- A hot reset, FLR, D3hot and the clearing of Bus Master Enable close the session and leave the link as it was. -/
theorem pcieLinkEvent_busMasterLost {e : PcieEvent}
    (he : e ∈ [PcieEvent.hotReset, .flr, .d3hot, .busMasterClear]) :
    pcieLinkEvent port e d =
      linkClose port.val (d.modPort port.val (fun h => { h with busMaster := false })) := by
  simp only [List.mem_cons, List.not_mem_nil, or_false] at he
  rcases he with rfl | rfl | rfl | rfl <;> rfl

end Link

/-! ### The fetch of a submission (R343, R352, R353) -/

section Fetch

variable {port : Fin 4} {d : Dev} (sub : Submission)

theorem submissionFetch_ready {h : HostPort} (hh : h = d.port port.val) (hstate : h.state = .open_)
    (hwrite : h.canWrite = true) (hruns : d.fwRuns procHost = true) (hwaits : h.sqHead ≠ h.sqTail)
    (hroom : h.roomForOne = true) :
    submissionFetch port sub d = takeSubmission port.val sub (writeBack port.val 0x00 (h.sqHead + 1)
      ((emit (.hostRead port.val (h.sqBase + 64 * (h.sqHead.toNat % 2 ^ h.sqSizeLog2)) 64) d).setPort port.val
        { h with sqHead := h.sqHead + 1, cqReserved := h.cqReserved + 1 })) := by
  subst hh
  exact if_neg (by simp [hstate, hwrite, hruns, hwaits, hroom])

theorem submissionFetch_notReady (h : (d.port port.val).state ≠ .open_ ∨ (d.port port.val).canWrite = false ∨
    d.fwRuns procHost = false ∨ (d.port port.val).sqHead = (d.port port.val).sqTail ∨
    (d.port port.val).roomForOne = false) : submissionFetch port sub d = d :=
  if_pos (by simpa [or_assoc] using h)

end Fetch

/-- Settles O49: each clause is one event's case. That the resets, D3hot and PERST_N leave Bus Master Enable clear is
log entry 121, what PERST_N keeps log entry 122. -/
theorem portEventsAndFetches : Obligations.PortEventsAndFetches := by
  unfold Obligations.PortEventsAndFetches
  refine ⟨fun s port => ⟨rfl, fun e he => act_next (pcieLinkEvent_busMasterLost he), rfl, rfl,
      fun hheld => act_next (if_neg hheld)⟩,
    fun s port hlink => act_next (dmaReadFault_linkDown hlink),
    fun s port hheld => act_next (if_pos hheld),
    fun s port hlink => ⟨fun hstate => act_next ?_, fun hstate => act_next ?_⟩,
    fun s port sub h hh hstate hwrite hruns hwaits hroom =>
      act_next (submissionFetch_ready sub hh hstate hwrite hruns hwaits hroom),
    fun s port sub h => act_next (submissionFetch_notReady sub h)⟩
  · rw [dmaReadFault_linkUp hlink, if_pos hstate]
  · rw [dmaReadFault_linkUp hlink, if_neg hstate]

end Sys2Proof.Machine
end

section
/-!
The commands of the host processor (R327, R343, R354, R358, R359, R362, R376, R407, R412 to R414, R420, R422):
subscriptions, attestation, privilege, the trace mask, staging and the warm start.
-/

namespace Sys2Proof.Machine

open Sys2Proof

variable {port : Fin 4} {d : Dev} {w : Work}

/-! ### Subscriptions and attestation (R327, R354, R358, R422) -/

theorem subscribe_other (h : d.headOp port.val 0x10 = none) : subscribe port d = d := by simp only [subscribe, h]

theorem subscribe_taken {st : BitVec 8} {ring : Nat} {sub : Subscription} (h : d.headOp port.val 0x10 = some w)
    (hsub : d.subscription port.val w.sub = (st, some (ring, sub))) :
    subscribe port d = finishCommand port.val w st []
      (d.modPort port.val (fun x => { x with subs := bmod [] ring (fun l => l ++ [sub]) x.subs })) := by
  simp only [subscribe, h, hsub]

theorem subscribe_refused {st : BitVec 8} (h : d.headOp port.val 0x10 = some w)
    (hsub : d.subscription port.val w.sub = (st, none)) :
    subscribe port d = finishCommand port.val w st [] d := by
  simp only [subscribe, h, hsub]

theorem unsubscribe_other (h : d.headOp port.val 0x11 = none) : unsubscribe port d = d := by
  simp only [unsubscribe, h]

theorem unsubscribe_ends (h : d.headOp port.val 0x11 = some w) :
    unsubscribe port d = finishCommand port.val w stOk [] (d.modPort port.val (fun x => { x with
      subs := bmod [] ((w.sub.arg 0).toNat % 16) (fun l => l.map (endSub d.nextMajor)) x.subs })) := by
  simp only [unsubscribe, h]

theorem attest_other (h : d.headOp port.val 0x12 = none) : attest port d = d := by simp only [attest, h]

theorem attest_begins (h : d.headOp port.val 0x12 = some w) : attest port d = startCommand port.val w.order d := by
  simp only [attest, h]

/-! ### An operation that R354 does not list -/

theorem unlistedOp_invalid (h : d.headCommand port.val = some w) (hlist : listedOps.contains w.sub.op.toNat = false)
    (hruns : d.fwRuns procHost = true) :
    unlistedOp port d = finishCommand port.val w stInvalid [] d := by
  simp only [unlistedOp, h]
  rw [if_neg (by simp only [hlist, hruns, Bool.not_true, Bool.or_self, Bool.false_eq_true, not_false_iff])]

theorem unlistedOp_listed (h : ∀ w, d.headCommand port.val = some w → listedOps.contains w.sub.op.toNat = true) :
    unlistedOp port d = d := by
  unfold unlistedOp
  split
  · exact if_pos (by rw [h _ ‹_›, Bool.true_or])
  · rfl

/-! ### Privilege (R343, R359) -/

theorem privClaim_other (h : d.headOp port.val 0x20 = none) : privClaim port d = d := by simp only [privClaim, h]

/-- On the privileged port, with room for key and signature, these are read; elsewhere the claim fails. -/
theorem privClaim_head (h : d.headOp port.val 0x20 = some w) :
    privClaim port d =
      if d.image.host.privPort = some port.val ∧ privBytes ≤ (w.sub.arg 2).toNat then
        emit (.hostRead port.val ((w.sub.arg 0).toNat + 2 ^ 32 * (w.sub.arg 1).toNat) privBytes)
          (startCommand port.val w.order d)
      else failClaim port.val w d := by
  simp only [privClaim, h, Bool.and_eq_true, decide_eq_true_eq]

theorem privVerifyDone_other (claim : PrivClaim) (h : d.begunCommand port.val 0x20 = none) :
    privVerifyDone port claim d = d := by simp only [privVerifyDone, h]

/-- Where key and signature hold the port has privilege, and otherwise the claim fails. -/
theorem privVerifyDone_begun (claim : PrivClaim) (h : d.begunCommand port.val 0x20 = some w)
    (hruns : d.fwRuns procHkp = true) :
    privVerifyDone port claim d =
      if claim.keyDigest = d.image.host.privKeyDigest ∧ claim.signatureHolds = true then
        finishCommand port.val w stOk [] (d.modPort port.val (fun x => { x with privileged := true }))
      else failClaim port.val w d := by
  simp only [privVerifyDone, h, hruns, Bool.not_true, Bool.false_eq_true, if_false, Bool.and_eq_true, decide_eq_true_eq]

section Privileged

variable {op : Nat} (f : Work → Dev → Dev)

theorem privileged_other (h : d.headOp port.val op = none) : privileged port.val op f d = d := by
  simp only [privileged, h]

theorem privileged_denied (h : d.headOp port.val op = some w) (hpriv : (d.port port.val).privileged = false) :
    privileged port.val op f d = finishCommand port.val w stNotPermitted [] d := by
  simp only [privileged, h, hpriv, Bool.false_eq_true, if_false]

theorem privileged_runs (h : d.headOp port.val op = some w) (hpriv : (d.port port.val).privileged = true) :
    privileged port.val op f d = f w d := by
  simp only [privileged, h, hpriv, if_true]

end Privileged

/-- Settles O51: each clause is one command's case. That UNSUBSCRIBE of a ring without a subscription completes OK is
log entry 227, the code of a failed claim's event log entry 137. -/
theorem hostCommandsComplete : Obligations.HostCommandsComplete := by
  unfold Obligations.HostCommandsComplete
  refine ⟨fun s port w h => ⟨fun st ring sub hsub => act_next (subscribe_taken h hsub),
      fun st hsub => act_next (subscribe_refused h hsub)⟩,
    fun s port w h => act_next (unsubscribe_ends h),
    fun s port w h => act_next (attest_begins h),
    fun s port w h => ⟨fun hport hroom => act_next ?_, fun hno => act_next ?_⟩,
    fun s port claim w h hruns => ⟨fun hkey hsig => act_next ?_, fun hno => act_next ?_⟩,
    fun s port w h => ⟨fun hpriv => act_next (privileged_denied _ h hpriv),
      fun hpriv first hfirst => act_next ?_⟩,
    fun s port w h hlist hruns => act_next (unlistedOp_invalid h hlist hruns),
    fun s port claim => ⟨fun h => act_next (subscribe_other h), fun h => act_next (unsubscribe_other h),
      fun h => act_next (attest_other h), fun h => act_next (privClaim_other h),
      fun h => act_next (privileged_other _ h), fun h => act_next (privVerifyDone_other claim h),
      fun h => act_next (unlistedOp_listed h)⟩⟩
  · rw [privClaim_head h, if_pos ⟨hport, hroom⟩]
  · rw [privClaim_head h, if_neg (by rw [not_and_or, Nat.not_le]; exact hno)]
  · rw [privVerifyDone_begun claim h hruns, if_pos ⟨hkey, hsig⟩]
  · rw [privVerifyDone_begun claim h hruns, if_neg (by rw [not_and_or, Bool.not_eq_true]; exact hno)]
  · subst hfirst
    exact privileged_runs _ h hpriv

/-! ### Staging (R354, R412, R413) -/

section Privilege

variable (hpriv : (d.port port.val).privileged = true)

include hpriv

theorem stageWrite_badArgs (h : d.headOp port.val 0x21 = some w)
    (hargs : stageArgsOk (w.sub.arg 0).toNat (w.sub.arg 1).toNat = false) :
    stageWrite port d = finishCommand port.val w stInvalid [] d := by
  simp only [stageWrite, privileged_runs _ h hpriv]
  rw [if_pos (by simp [hargs])]

theorem stageWrite_refused (h : d.headOp port.val 0x21 = some w)
    (hargs : stageArgsOk (w.sub.arg 0).toNat (w.sub.arg 1).toNat = true)
    (hbusy : d.stageBusy = true ∨ d.boot.nvStopped = true) :
    stageWrite port d = finishCommand port.val w stRefused [] d := by
  simp only [stageWrite, privileged_runs _ h hpriv]
  rw [if_neg (by simp [hargs]), if_pos (by simpa using hbusy)]

theorem stageWrite_begins (h : d.headOp port.val 0x21 = some w)
    (hargs : stageArgsOk (w.sub.arg 0).toNat (w.sub.arg 1).toNat = true) (hbusy : d.stageBusy = false)
    (hnv : d.boot.nvStopped = false) {e : Dev}
    (he : e = if d.boot.stageErased = true then d else eraseManifest d.stagedSlot d) :
    stageWrite port d =
      emit (.hostRead port.val ((w.sub.arg 2).toNat + 2 ^ 32 * (w.sub.arg 3).toNat) (w.sub.arg 1).toNat)
        (startCommand port.val w.order (((List.range ((w.sub.arg 1).toNat / 0x10000)).map
            (fun i => (w.sub.arg 0).toNat / 0x10000 + i)).foldl (eraseStripe d.stagedSlot)
          { e with boot := { e.boot with
            stageErased := true, stageVerified := false
            stage := .write port.val (w.sub.arg 0).toNat (w.sub.arg 1).toNat } })) := by
  subst he
  simp only [stageWrite, privileged_runs _ h hpriv]
  rw [if_neg (by simp [hargs]), if_neg (by simp [hbusy, hnv])]

theorem stageCommit_refused (h : d.headOp port.val 0x22 = some w) (hbusy : d.stageBusy = true) :
    stageCommit port d = finishCommand port.val w stRefused [] d := by
  simp only [stageCommit, privileged_runs _ h hpriv]
  rw [if_pos hbusy]

theorem stageCommit_begins (h : d.headOp port.val 0x22 = some w) (hbusy : d.stageBusy = false) :
    stageCommit port d =
      startCommand port.val w.order { d with boot := { d.boot with stage := .commit port.val } } := by
  simp only [stageCommit, privileged_runs _ h hpriv]
  rw [if_neg (by simp [hbusy])]

/-! ### Acceptance of a warm start (R376, R414) -/

theorem warmStart_notPermitted (h : d.headOp port.val 0x24 = some w)
    (hno : d.consentActive = false ∨ d.felt.classV = true) :
    warmStart port d = finishCommand port.val w stNotPermitted [] d := by
  simp only [warmStart, privileged_runs _ h hpriv]
  rw [if_pos (by simpa using hno)]

section Permitted

variable (h : d.headOp port.val 0x24 = some w) (hconsent : d.consentActive = true) (hfault : d.felt.classV = false)

include h hconsent hfault

theorem warmStart_refused (hbusy : d.stageBusy = true ∨ d.boot.warm ≠ .none) :
    warmStart port d = finishCommand port.val w stRefused [] d := by
  simp only [warmStart, privileged_runs _ h hpriv]
  rw [if_neg (by simp [hconsent, hfault]), if_pos (by simpa using hbusy)]

theorem warmStart_begins (hbusy : d.stageBusy = false) (hwarm : d.boot.warm = .none) {e : Dev}
    (he : e = finishCommand port.val w stOk [] d) :
    warmStart port d = [0, 1, 2, 3].foldl warmClose { e with
      ctrl := { e.ctrl with consentUntil := none }
      boot := { e.boot with warm := .reading e.warmSlot } } := by
  subst he
  simp only [warmStart, privileged_runs _ h hpriv]
  rw [if_neg (by simp [hconsent, hfault]), if_neg (by simp [hbusy, hwarm])]

end Permitted

end Privilege

/-! ### The ends of the staging commands (R407, R412, R413) -/

/-- Noting a slot's header, and burning the Retired fuse where the slot retires the device, leave the running image. -/
theorem headerNoted_image (sl : Slot) (r : SlotRead) (retire : Prop) [Decidable retire] (d : Dev) :
    (if retire then burnRetired (noteHeader sl r d) else noteHeader sl r d).image = d.image := by
  split <;> rfl

section Staged

variable (hruns : d.fwRuns procHkp = true)

include hruns

theorem stageWriteDone_programmed {p offset len : Nat} (head : List Byte) (hstage : d.boot.stage = .write p offset len)
    (hnv : d.boot.nvStopped = false) :
    stageWriteDone head d =
      finishStage p 0x21 [] (emit (.nvProgram d.stagedSlot.idx offset len) { d with boot := { d.boot with
        stage := .none
        nv := if offset = 0 then d.boot.nv.setHeader d.stagedSlot (headerRec head) else d.boot.nv } }) := by
  simp only [stageWriteDone, hstage]
  exact if_neg (by simp [hnv, hruns])

theorem stageCommitDone_ends {p : Nat} (r : SlotRead) (hstage : d.boot.stage = .commit p) :
    stageCommitDone r d =
      endCommit p (stageOutcome d.boot.nv d.image.manifest.serial r)
        (if stageOutcome d.boot.nv d.image.manifest.serial r = 8 then
          (badSection (phase0Parts ++ phase1Parts) r).getD 0 else 0)
        (headerRec r.manifest)
        (if retires d.boot.nv r = true then burnRetired (noteHeader d.stagedSlot r d)
          else noteHeader d.stagedSlot r d) := by
  simp only [stageCommitDone, hstage]
  rw [if_neg (by rw [hruns]; decide), headerNoted_image]

end Staged

/-- Settles O52: each clause is one command's case. That WARM_START during another, and staging during the boot read,
are refused is log entry 152, the fuse that a commit burns log entry 149. -/
theorem stagingAndWarmStartCommands : Obligations.StagingAndWarmStartCommands := by
  unfold Obligations.StagingAndWarmStartCommands
  refine ⟨fun s port w d1 h hpriv => ⟨fun hargs => act_next (stageWrite_badArgs hpriv h hargs),
      fun hargs hbusy => act_next (stageWrite_refused hpriv h hargs hbusy),
      fun hargs hbusy hnv hd1 => act_next (stageWrite_begins hpriv h hargs hbusy hnv hd1)⟩,
    fun s head p offset len hstage hnv hruns => act_next (stageWriteDone_programmed hruns head hstage hnv),
    fun s port w h hpriv => ⟨fun hbusy => act_next (stageCommit_refused hpriv h hbusy),
      fun hbusy => act_next (stageCommit_begins hpriv h hbusy)⟩,
    ?_,
    fun s port w h hpriv => ⟨fun hno => act_next (warmStart_notPermitted hpriv h hno),
      fun hconsent hfault hbusy => act_next (warmStart_refused hpriv h hconsent hfault hbusy),
      fun d1 hconsent hfault hbusy hwarm hd1 =>
        act_next (warmStart_begins hpriv h hconsent hfault hbusy hwarm hd1)⟩,
    fun s port w hpriv => ⟨fun h => act_next (by simp only [stageWrite, privileged_denied _ h hpriv]),
      fun h => act_next (by simp only [stageCommit, privileged_denied _ h hpriv]),
      fun h => act_next (by simp only [warmStart, privileged_denied _ h hpriv])⟩,
    fun s port => ⟨fun h => act_next (by simp only [stageWrite, privileged_other _ h]),
      fun h => act_next (by simp only [stageCommit, privileged_other _ h]),
      fun h => act_next (by simp only [warmStart, privileged_other _ h])⟩⟩
  intro s r p outcome sec hstage hruns houtcome hsec
  obtain rfl : outcome = stageOutcome s.dev.boot.nv s.dev.image.manifest.serial r := houtcome
  rw [hsec]
  exact act_next (stageCommitDone_ends hruns r hstage)

end Sys2Proof.Machine
end

section
/-!
Felt's resumption, the silence of the vehicle controller and the vehicle links (R254, R363, R368, R377, R384, R386, R387,
R396).
-/

namespace Sys2Proof.Machine

open Sys2Proof

/-! ### How a class V fault ends (R384, R387) -/

section Resume

variable {d : Dev}

/-- Where every condition has ended and the count has run out, the conditions clear and a stopped SAFE_OK runs. -/
theorem resumeCountExpiry_due (hfault : d.felt.classV = true) (hresuming : d.felt.resuming = true)
    (hleft : d.felt.resumeLeft = 0) (hended : d.felt.allEnded = true) {f : FeltState}
    (hf : f = { d.felt with classV := false, conditions := [], resuming := false }) :
    resumeCountExpiry d =
      clearNotices d.felt.conditions { d with felt := if f.safeOk = .stopped then runSafeOk f else f } := by
  subst hf
  exact if_pos (by simp [hfault, hresuming, hleft, hended])

theorem selfCheckPass_passes (hdue : d.felt.selfCheckDue = true) (hruns : d.pairRuns = true)
    (hgood : d.felt.goodInterval = true) (hclock : d.felt.refclkLost = false) :
    selfCheckPass d = endConditions 0x0003 (endConditions 0x0002 (endConditions 0x0001
      { d with felt := { d.felt with selfCheckDue := false } })) :=
  if_pos (by simp [hdue, hruns, hgood, hclock])

/-- The pair leaves its held reset by a restart of the safety processor. -/
theorem refclkReturn_held (hlost : d.felt.refclkLost = true) (hheld : d.felt.pairReset = true) :
    refclkReturn d = { d with
      felt := { d.felt with refclkLost := false, pairReset := false }
      boot := { d.boot with
        procs := bmod {} 1 (fun p => { p with restarting := true, restartBegan := d.now }) d.boot.procs } } := by
  simp only [refclkReturn, hlost, hheld, if_true]

theorem refclkReturn_notHeld (hlost : d.felt.refclkLost = true) (hheld : d.felt.pairReset = false) :
    refclkReturn d = { d with felt := { d.felt with refclkLost := false, pairReset := false } } := by
  simp only [refclkReturn, hlost, hheld, if_true, Bool.false_eq_true, if_false]

end Resume

/-- Settles O41: each clause is one command's case. That each ended condition has a CLEARED notice of its own is log
entry 18. -/
theorem classVEndsAfterCleanTicks : Obligations.ClassVEndsAfterCleanTicks := by
  unfold Obligations.ClassVEndsAfterCleanTicks
  refine ⟨fun s hfault hresuming hleft hended f hf => ⟨fun hstopped => act_next ?_, fun hstopped => act_next ?_⟩,
    fun s hdue hruns hgood hclock => act_next (selfCheckPass_passes hdue hruns hgood hclock),
    fun s hlost => ⟨fun hheld => act_next (refclkReturn_held hlost hheld),
      fun hheld => act_next (refclkReturn_notHeld hlost hheld)⟩⟩
  · rw [resumeCountExpiry_due hfault hresuming hleft hended hf, if_pos hstopped]
  · rw [resumeCountExpiry_due hfault hresuming hleft hended hf, if_neg hstopped]

/-! ### Silence of the controller (R254, R377) -/

section Silence

/-- A device whose controller has been silent for 20 ms. -/
def Dev.fallSilent (d : Dev) : Dev :=
  { d with
    ctrl := { d.ctrl with silent := true }
    felt := { d.felt with window := { d.felt.window with silent := true } } }

/-- The count of refused mode changes leaves the controller's state. -/
theorem countModeRefuse_ctrl (d : Dev) : (countModeRefuse d).ctrl = d.ctrl :=
  ((countModeRefuse_only rfl (OnlyIn.refl [.host, .plan, .health, .sent] d)).keep .ctrl (by decide)).symm

variable {d : Dev}

/-- A pending switch that a request started is cancelled and counted, with its status noted. -/
theorem cancelSwitch_request {q : PendingMode} (status : BitVec 8) (hpending : d.plan.pending = some q)
    (hreason : q.reason = .request) :
    cancelSwitch status d = { countModeRefuse { d with plan := { d.plan with pending := none } } with
      ctrl := { d.ctrl with lastReqStatus := status } } := by
  simp only [cancelSwitch, hpending, hreason, countModeRefuse_ctrl]

/-- 20 ms after the last accepted frame, in a device whose controller is not silent yet, the timeout is due. -/
structure Dev.SilenceDue (d : Dev) : Prop where
  new : d.ctrl.silent = false
  due : d.ctrl.lastAccepted + 20 * msNs ≤ d.now

theorem Dev.SilenceDue.guard (h : d.SilenceDue) :
    (!d.ctrl.silent && decide (d.ctrl.lastAccepted + 20 * msNs ≤ d.now)) = true := by
  simp [h.new, h.due]

/-- A switch that a search started, or none, goes ahead. -/
theorem ctrlSilenceTimeout_noRequest (h : d.SilenceDue)
    (hreason : ∀ q, d.plan.pending = some q → q.reason ≠ .request) : ctrlSilenceTimeout d = d.fallSilent := by
  rw [ctrlSilenceTimeout, if_pos h.guard]
  cases hpending : d.plan.pending with
  | none => simp only [hpending, Dev.fallSilent]
  | some q =>
    have hsearch : q.reason = .search := by
      cases hq : q.reason with
      | request => exact absurd hq (hreason q hpending)
      | search => rfl
    simp only [hpending, hsearch, Dev.fallSilent]

theorem ctrlSilenceTimeout_request {q : PendingMode} (h : d.SilenceDue) (hpending : d.plan.pending = some q)
    (hreason : q.reason = .request) :
    ctrlSilenceTimeout d =
      { countModeRefuse { d.fallSilent with plan := { d.fallSilent.plan with pending := none } } with
        ctrl := { d.ctrl with silent := true, lastReqStatus := stNotPermitted } } := by
  rw [ctrlSilenceTimeout, if_pos h.guard]
  simp only [hpending, hreason]
  exact cancelSwitch_request (d := d.fallSilent) stNotPermitted hpending hreason

theorem ctrlSilenceTimeout_early (h : d.ctrl.silent = true ∨ d.now < d.ctrl.lastAccepted + 20 * msNs) :
    ctrlSilenceTimeout d = d := if_neg (by simpa [imp_iff_not_or] using h)

end Silence

/-- Settles O54: silence begins on the device that the pending switch allows, and an accepted frame ends it on the
device that `acceptFrame` leaves. -/
theorem controllerSilence : Obligations.ControllerSilence := by
  unfold Obligations.ControllerSilence
  refine ⟨?_, fun s h => act_next (ctrlSilenceTimeout_early h), fun s port f hlink hallowed hcause =>
    ⟨by simp, by simp, fun hkind => act_next ?_, fun hkind => act_next ?_, fun hkind => act_next ?_⟩⟩
  · rintro s _ hnew hdue rfl
    exact ⟨fun h => act_next (ctrlSilenceTimeout_noRequest ⟨hnew, hdue⟩ h),
      fun q hpending hreason => act_next (ctrlSilenceTimeout_request ⟨hnew, hdue⟩ hpending hreason)⟩
  · rw [modeRequest_ofKind hkind, controllerFrame_accepted hlink hallowed _ hcause]
  · rw [warmStartConsent_ofKind hkind, controllerFrame_accepted hlink hallowed _ hcause]
  · rw [controllerHeartbeat_ofKind hkind, controllerFrame_accepted hlink hallowed _ hcause]

/-! ### Vehicle links (R363, R368, R386, R387, R396) -/

section Links

variable {port : Fin 2} {d : Dev}

/-- The loss of an up link is counted and raises a health event, V0's loses vehicle time, and one with the other link
down is class V fault 0x000A. -/
theorem vlinkLinkDown_up (hlink : (d.vport port.val).link = .up) {d1 d2 d3 : Dev}
    (h1 : d1 = satEvent (barVlk + 0x40 * port.val + 0x0C) (d.vport port.val).linkLoss (d.vport port.val).linkLoss.inc
      (d.setVport port.val { d.vport port.val with
        link := .training, linkLoss := (d.vport port.val).linkLoss.inc, sending := none, waiting := [] }))
    (h2 : d2 = conditionEvent (barVlk + 0x40 * port.val + 0x0C) (d.vport port.val).linkLoss.inc.val.toNat
      { d1 with felt := { d1.felt with window := { d1.felt.window with linkLoss := true } } })
    (h3 : d3 = if port.val = 0 then loseVehicleTime d2 else d2) :
    vlinkLinkDown port d = if (d3.vport (1 - port.val)).link = .up then d3 else raiseIod 0x000A d3 := by
  subst h3 h2 h1
  exact if_neg (not_not_intro hlink)

theorem vlinkLinkDown_notUp (hlink : (d.vport port.val).link ≠ .up) : vlinkLinkDown port d = d := if_pos hlink

theorem vlinkLinkUp_trained (hlink : (d.vport port.val).link ≠ .up) (hallowed : d.linkAllowed = true) :
    vlinkLinkUp port d = endConditions 0x000A
      (d.setVport port.val { d.vport port.val with link := .up, sending := none, waiting := [] }) :=
  if_neg (by simp [hlink, hallowed])

theorem vlinkLinkUp_idle (h : (d.vport port.val).link = .up ∨ d.linkAllowed = false) : vlinkLinkUp port d = d :=
  if_pos (by simpa using h)

theorem vlinkFrameDone_sending (h : (d.vport port.val).sending.isSome = true) :
    vlinkFrameDone port d =
      startFrame port.val (d.setVport port.val { d.vport port.val with sending := none }) := if_pos h

theorem vlinkFrameDone_idle (h : (d.vport port.val).sending = none) : vlinkFrameDone port d = d :=
  if_neg (by simp [h])

end Links

/-- Settles O56: each clause is one command's case. -/
theorem vehicleLinksAndFrames : Obligations.VehicleLinksAndFrames := by
  unfold Obligations.VehicleLinksAndFrames
  refine ⟨fun s port d1 d2 d3 hlink h1 h2 h3 => ⟨fun hother => act_next ?_, fun hother => act_next ?_⟩,
    fun s port hlink hallowed => act_next (vlinkLinkUp_trained hlink hallowed),
    fun s port h => act_next (vlinkFrameDone_sending h),
    fun s port => ⟨fun h => act_next (vlinkLinkDown_notUp h), fun h => act_next (vlinkLinkUp_idle h),
      fun h => act_next (vlinkFrameDone_idle h)⟩⟩
  · rw [vlinkLinkDown_up hlink h1 h2 h3, if_pos hother]
  · rw [vlinkLinkDown_up hlink h1 h2 h3, if_neg hother]

end Sys2Proof.Machine
end

section
/-!
Recovery of firmware processors, partitions and dies (R411, R414, R417, R418, R427, R428, R430, R433, R434, R487).
-/

namespace Sys2Proof.Machine

open Sys2Proof

/-! ### Watchdogs of the firmware processors (R418, R427) -/

section Watchdog

variable {p : FwProc} {d : Dev}

/-- The restarts of a processor in the last 1,000 ms, the one that begins now among them (R427). -/
def Dev.recentRestarts (d : Dev) (p : Nat) : List Nanos :=
  (d.now :: (d.proc p).recent).filter (fun t => decide (d.now < t + 1000 * msNs))

/-- A processor's restart begun, counted and logged; the safety pair's is a class V fault (R427). -/
def beginFwRestart (p : Nat) (d : Dev) : Dev :=
  let c := (d.proc p).restarts.inc
  let e := logWrite p (Config.severity 0x1000 (barFw p)).toNat (barFw p) [c.val.toNat]
    (satEvent (barFw p) (d.proc p).restarts c (modProc p (fun f => { f with
      restarting := true, restartBegan := d.now, recent := d.recentRestarts p, restarts := c }) d))
  if p = 1 then raiseV 0x0002 dieIod (Config.faultUnit 0x0002) (Config.faultArg 0x0002) false 0 e else e

/-- The health event and the fault record of repeated restarts, with the count that began them (R427, log entry 157). -/
def reportFwRestarts (p : Nat) (c : Counter) (d : Dev) : Dev :=
  healthEvent { code := 0x1000, severity := BitVec.ofNat 3 sevFault, unit := p, arg0 := barFw p, arg1 := c.val.toNat }
    (logWrite p sevFault (barFw p) [c.val.toNat] d)

/-- What the watchdog of a processor that runs does, by the number of its restarts in the last 1,000 ms. -/
theorem fwWatchdogExpiry_running (hruns : (d.proc p.val).restarting = false) (hheld : d.boot.phase ≠ .held)
    {e : Dev} (he : e = if 3 ≤ (d.recentRestarts p.val).length then
      reportFwRestarts p.val (d.proc p.val).restarts.inc (beginFwRestart p.val d) else beginFwRestart p.val d) :
    fwWatchdogExpiry p d =
      if 4 ≤ p.val ∧ 4 ≤ (d.recentRestarts p.val).length then restartDie (p.val - 4) causeSteward e else e := by
  subst he
  simp only [fwWatchdogExpiry, Bool.and_eq_true, decide_eq_true_eq]
  rw [if_neg (by simp [hruns, hheld])]
  rfl

theorem fwWatchdogExpiry_idle (h : (d.proc p.val).restarting = true ∨ d.boot.phase = .held) :
    fwWatchdogExpiry p d = d := if_pos (by simpa using h)

end Watchdog

/-! ### The end of a processor's restart (R417, R418) -/

section Restarted

/-- The tick processor decides the report of a die that waited for it. -/
def decideWaiting (d : Dev) (x : Nat) : Dev :=
  match (d.die x).report with
  | some r => decideReport x r.1 r.2 (d.modDie x (fun s => { s with report := none }))
  | none => d

variable {p : FwProc} {d : Dev}

theorem firmwareRestartComplete_running (h : (d.proc p.val).restarting = false) :
    firmwareRestartComplete p d = d := if_pos (by simp [h])

theorem firmwareRestartComplete_heldPair (hpair : p.val = 1) (hheld : d.felt.pairReset = true) :
    firmwareRestartComplete p d = d := if_pos (by simp [hpair, hheld])

/-- A processor that restarts runs again with its queue taken, and the tick processor then decides what waited. -/
theorem firmwareRestartComplete_restarting (h : (d.proc p.val).restarting = true)
    (hpair : p.val = 1 → d.felt.pairReset = false) {e : Dev}
    (he : e = modProc p.val (fun f => { f with restarting := false, queued := 0 }) d) :
    firmwareRestartComplete p d = if p.val ≠ 0 then e else (List.range 6).foldl decideWaiting e := by
  subst he
  rw [firmwareRestartComplete, if_neg (by simpa [h] using hpair)]
  rfl

end Restarted

/-- Settles O42: each clause is one count of the recent restarts, or one processor whose restart ends. That the event
is raised at the third restart within 1,000 ms and at each further one is log entry 157. -/
theorem firmwareProcessorsRestartAlone : Obligations.FirmwareProcessorsRestartAlone := by
  unfold Obligations.FirmwareProcessorsRestartAlone
  refine ⟨?_, fun s p h => act_next (fwWatchdogExpiry_idle h),
    fun s p h => act_next (firmwareRestartComplete_running h),
    fun s p h htick hpair => act_next ?_,
    fun s p h hpair hheld => act_next (firmwareRestartComplete_heldPair hpair hheld),
    fun s p h htick => act_next ?_⟩
  · intro s p recent d1 d2 d3 hruns hheld hrecent h1 h2 h3
    obtain rfl : recent = s.dev.recentRestarts p.val := hrecent
    obtain rfl : d2 = beginFwRestart p.val s.dev := by rw [h2, h1]; rfl
    obtain rfl : d3 = reportFwRestarts p.val (s.dev.proc p.val).restarts.inc (beginFwRestart p.val s.dev) := h3
    refine ⟨fun hfew => act_next ?_, fun hthree hnot => act_next ?_, fun hfour hsteward => act_next ?_⟩
    · rw [fwWatchdogExpiry_running hruns hheld rfl, if_neg (by omega), if_neg (by omega)]
    · rw [fwWatchdogExpiry_running hruns hheld rfl, if_neg (by omega), if_pos hthree]
    · rw [fwWatchdogExpiry_running hruns hheld rfl, if_pos ⟨hsteward, hfour⟩, if_pos (by omega)]
  · rw [firmwareRestartComplete_restarting h hpair rfl, if_pos htick]
  · exact (firmwareRestartComplete_restarting h (by omega) rfl).trans (if_neg (not_not_intro htick))

/-! ### Reloads and their timeouts (R417, R428, R433) -/

section Reload

variable {die : Fin 6} {d : Dev}

theorem reloadDone_die {r : DieRestart} (hruns : d.fwRuns (4 + die.val) = true) (hpower : d.powerOff die.val = false)
    (hrestart : (d.die die.val).restart = some r) (hphase : r.phase = .running) :
    reloadDone die 0xFF true d = loadDie d.image die.val (d.setDie die.val
      { d.die die.val with restart := some { r with phase := .reloaded d.now } }) := by
  simp only [reloadDone, hrestart]
  rw [if_neg (by simp [hruns, hpower]), if_pos trivial, if_neg (not_not_intro hphase), if_pos trivial]

/-- A partition whose copy had no uncorrectable error is loaded, and one whose copy had begins its sequence again. -/
theorem reloadDone_partition {part : Nat} {q : PartRestart} (hruns : d.fwRuns (4 + die.val) = true)
    (hpower : d.powerOff die.val = false) (hpart : part ≠ 0xFF)
    (hfind : (d.die die.val).parts.find? (fun r => decide (r.index = part) && decide (r.phase = .running)) = some q)
    (ok : Bool) :
    reloadDone die part ok d =
      if ok then loadPartition q.part (d.setDie die.val { d.die die.val with
        parts := (d.die die.val).parts.map (fun r => if r.index = part then { r with phase := .reloaded d.now } else r) })
      else resetPartition q.part d := by
  simp only [reloadDone, hfind]
  rw [if_neg (by simp [hruns, hpower]), if_neg hpart]

/-- A die restart 300 ms old is declared failed. -/
theorem restartTimeout_die {r : DieRestart} (hpower : d.powerOff die.val = false)
    (hrestart : (d.die die.val).restart = some r) :
    restartTimeout die 0xFF d = if r.since + 300 * msNs ≤ d.now then declareFailed die.val 0xFF d else d := by
  simp only [restartTimeout, hrestart, decide_eq_true_eq]
  rw [if_neg (by simp [hpower]), if_pos trivial]

theorem restartTimeout_partition {part : Nat} {q : PartRestart} (hpower : d.powerOff die.val = false)
    (hpart : part ≠ 0xFF) (hfind : (d.die die.val).parts.find? (fun r => decide (r.index = part)) = some q)
    (hold : q.since + 300 * msNs ≤ d.now) : restartTimeout die part d = declareFailed die.val part d := by
  simp only [restartTimeout, hfind, decide_eq_true_eq]
  rw [if_neg (by simp [hpower]), if_neg hpart, if_pos hold]

end Reload

/-! ### Admission (R411, R417, R434, R487) -/

section Admission

variable {die : Fin 6} {d : Dev}

/-- A report that is awaited is decided while the tick processor runs, and waits while it restarts. -/
theorem dieAdmissionReport_awaited (digestsOk versionOk epochOk : Bool) (fit : DieFit) {start ok : Bool} {e : Dev}
    (hstart : start = (decide ((d.die die.val).state = .awaiting) && (d.die die.val).reloaded &&
      decide (d.boot.phase = .verified)))
    (hawaited : start = true ∨ (d.die die.val).reportDue = true) (hruns : d.fwRuns (4 + die.val) = true)
    (hpower : d.powerOff die.val = false) (he : e = noteMemory die.val fit.memory start d)
    (hok : ok = (digestsOk && versionOk && epochOk && (decide (die.val < 4) || !e.memMismatch))) :
    dieAdmissionReport die digestsOk versionOk epochOk fit.latency fit.memory d =
      if e.fwRuns 0 then decideReport die.val ok fit.latency e
      else fwEvent 0 (e.modDie die.val (fun x => { x with report := some (ok, fit.latency) })) := by
  subst hok he
  simp only [dieAdmissionReport, ← hstart]
  rw [if_neg (by rcases hawaited with h | h <;> simp [h, hruns, hpower])]

theorem admissionDeadline_due (hawaits : d.awaits die.val = true) (hlimit : d.admissionLimit ≤ d.now)
    (hheld : d.boot.phase ≠ .held) :
    admissionDeadline die d = rejectDie die.val (d.modDie die.val (fun x => { x with
      restart := none, parts := [], reloaded := true, report := none })) :=
  if_pos (by simp [hawaits, hlimit, hheld])

end Admission

/-! ### The reload of a warm start (R414) -/

/-- In a warm start's reload a die with no old work left awaits admission, and is loaded with the new image by what
it holds. -/
theorem dieReload_ready {die : Fin 6} {since : Nanos} {b : Nat} {d e : Dev} (hwarm : d.boot.warm = .reload since b)
    (hnew : (d.die die.val).reloaded = false) (hin : (d.die die.val).state ≠ .out) (hwork : d.oldWork die.val = false)
    (hpower : d.powerOff die.val = false)
    (he : e = d.setDie die.val { d.die die.val with
      state := .awaiting, restart := none, parts := [], report := none, resync := true, reloaded := true }) :
    dieReload die d =
      if die.val < 4 then
        let cls := (List.range 32).map (fun c => 32 * die.val + c)
        let f := cls.foldl resetCluster e
        setUnitState die.val .idle (loadDie f.image die.val (cls.foldl (setClusters .running) f))
      else loadDie e.image die.val (emptyMemorySide die.val e) := by
  subst he
  simp only [dieReload, hwarm]
  rw [if_neg (by simp [hnew, hin, hwork, hpower])]

/-- Settles O43: each clause is one command's case. -/
theorem partitionsAndDiesRecover : Obligations.PartitionsAndDiesRecover := by
  unfold Obligations.PartitionsAndDiesRecover
  refine ⟨fun s die r hruns hpower hrestart hphase => act_next (reloadDone_die hruns hpower hrestart hphase),
    fun s die part q hruns hpower hpart hfind =>
      ⟨act_next (reloadDone_partition hruns hpower hpart hfind true),
        act_next (reloadDone_partition hruns hpower hpart hfind false)⟩,
    fun s die r hpower hrestart => ⟨fun hold => act_next ?_, fun hyoung => act_next ?_⟩,
    fun s die part q hpower hpart hfind hold => act_next (restartTimeout_partition hpower hpart hfind hold),
    fun s die digestsOk versionOk epochOk fit start ok d1 hstart hawaited hruns hpower hd1 hok =>
      ⟨fun htick => act_next ?_, fun htick => act_next ?_⟩,
    fun s die hawaits hlimit hheld => act_next (admissionDeadline_due hawaits hlimit hheld),
    fun s die since b d1 hwarm hnew hin hwork hpower hd1 =>
      ⟨fun hmemory => act_next ?_, fun hcompute d2 hd2 => act_next ?_⟩⟩
  · rw [restartTimeout_die hpower hrestart, if_pos hold]
  · rw [restartTimeout_die hpower hrestart, if_neg (Nat.not_le.mpr hyoung)]
  · rw [dieAdmissionReport_awaited _ _ _ fit hstart hawaited hruns hpower hd1 hok, if_pos htick]
  · rw [dieAdmissionReport_awaited _ _ _ fit hstart hawaited hruns hpower hd1 hok, if_neg (by simp [htick])]
  · rw [dieReload_ready hwarm hnew hin hwork hpower hd1, if_neg (Nat.not_lt.mpr hmemory)]
  · rw [dieReload_ready hwarm hnew hin hwork hpower hd1, if_pos hcompute, hd2]

end Sys2Proof.Machine
end

section
/-!
Slots, sections and blocks read at start-up and at a warm start (R401, R402, R405 to R410, R413, R414).
-/

namespace Sys2Proof.Machine

open Sys2Proof

variable {d : Dev}

/-! ### Phase 0 (R405 to R410) -/

theorem phase0Loaded_otherPhase (r : SlotRead) (hphase : d.boot.phase ≠ .phase0) : phase0Loaded r d = d :=
  if_pos hphase

section PhaseZero

variable {r : SlotRead} (hphase : d.boot.phase = .phase0)

include hphase

/-- A slot that retires the device burns the fuse, and the device is Retired. -/
theorem phase0Loaded_retires (hretires : retires d.boot.nv r = true) {e : Dev}
    (he : e = noteHeader d.boot.trying r d) :
    phase0Loaded r d = burnRetired { e with boot := { e.boot with phase := .retired } } := by
  subst he
  simp only [phase0Loaded]
  rw [if_neg (not_not_intro hphase), if_pos hretires]

variable (hretires : retires d.boot.nv r = false)

include hretires

theorem phase0Loaded_fails {c : Nat} (hcause : slotCause d.boot.nv phase0Parts r = some c) :
    phase0Loaded r d = failSlot c (noteHeader d.boot.trying r d) := by
  simp only [phase0Loaded, hcause]
  rw [if_neg (not_not_intro hphase), if_neg (by simp [hretires])]

theorem phase0Loaded_starts (hcause : slotCause d.boot.nv phase0Parts r = none) :
    phase0Loaded r d = startImage (imageOf phase0Parts r) (noteHeader d.boot.trying r d) := by
  simp only [phase0Loaded, hcause]
  rw [if_neg (not_not_intro hphase), if_neg (by simp [hretires])]

end PhaseZero

/-! ### Phase 1 (R405, R408 to R410) -/

theorem sectionVerified_notDue {id : BitVec 8} (bytes : List Byte) (digest : Nat)
    (h : d.boot.phase ≠ .phase1 ∨ d.fwRuns procHkp = false ∨ d.boot.sectionsVerified.contains id.toNat = true) :
    sectionVerified id bytes digest d = d := by
  rw [sectionVerified, if_pos (by simpa only [Bool.or_eq_true, decide_eq_true_eq, Bool.not_eq_true', or_assoc] using h)]

section PhaseOne

variable (hphase : d.boot.phase = .phase1) (hruns : d.fwRuns procHkp = true)

include hphase hruns

/-- In phase 1 a section of another digest than its entry's fails the slot, and one of the entry's comes into use, the
camera ports with theirs. -/
theorem sectionVerified_due {id : BitVec 8} (bytes : List Byte) (digest : Nat) {part i : Nat} {entry : SectionEntry}
    (hnew : d.boot.sectionsVerified.contains id.toNat = false)
    (hpart : phase1Parts.find? (fun p => decide (p.1 = id.toNat)) = some (id.toNat, part))
    (hplace : placeOf d.boot.image.manifest id.toNat part = some i)
    (hentry : d.boot.image.manifest.entries[i]? = some entry) {e : Dev}
    (he : e = { d with boot := { d.boot with
      sectionsVerified := id.toNat :: d.boot.sectionsVerified
      image := withSections d.boot.image [(i, bytes)] [id.toNat] } }) :
    sectionVerified id bytes digest d =
      if entry.digest ≠ digest then failSlot 8 d
      else if id.toNat = 0x11 then e.boot.image.cameras.foldl enableCamera e else e := by
  subst he
  simp only [sectionVerified, hpart, hplace, hentry, Option.map_some, ne_eq, Option.some.injEq]
  rw [if_neg (by rw [hnew]; simp [hphase, hruns])]

theorem slotVerified_bad (bad : BitVec 8) : slotVerified (some bad) d = failSlot 8 d := by
  rw [slotVerified, if_neg (by simp [hphase, hruns])]

theorem slotVerified_missing (h : phase1Parts.all (fun p => d.boot.sectionsVerified.contains p.1) = false) :
    slotVerified none d = d := by
  simp only [slotVerified, h]
  rw [if_neg (by simp [hphase, hruns])]
  rfl

theorem slotVerified_all (h : phase1Parts.all (fun p => d.boot.sectionsVerified.contains p.1) = true) :
    slotVerified none d = { d with boot := { d.boot with
      phase := .verified, prevImage := d.boot.image, fallbackEvent := d.boot.second || d.boot.bootHint.isSome
      slotFallback := d.boot.slotFallback || (d.boot.second || d.boot.bootHint.isSome) } } := by
  simp only [slotVerified, h]
  rw [if_neg (by simp [hphase, hruns])]
  rfl

end PhaseOne

/-! ### Blocks that are not read in time (R409) -/

theorem imageBlockTimeout_starting (hphase : d.boot.phase = .phase0 ∨ d.boot.phase = .phase1) :
    imageBlockTimeout d = failSlot 9 d := by
  rcases hphase with h | h <;> simp only [imageBlockTimeout, h]

theorem imageBlockTimeout_warm {sl : Slot} (hphase : d.boot.phase = .verified) (hwarm : d.boot.warm = .reading sl) :
    imageBlockTimeout d = failWarm sl 9 d := by
  simp only [imageBlockTimeout, hphase, hwarm]

theorem imageBlockTimeout_commit {p : Nat} (hphase : d.boot.phase = .verified) (hwarm : d.boot.warm = .none)
    (hstage : d.boot.stage = .commit p) :
    imageBlockTimeout d = endCommit p 9 0 (d.boot.nv.header d.stagedSlot) d := by
  simp only [imageBlockTimeout, hphase, hwarm, hstage]

/-! ### The read of a warm start (R407, R414) -/

section WarmRead

variable {r : SlotRead} {sl : Slot} {e : Dev} (hwarm : d.boot.warm = .reading sl) (hruns : d.fwRuns procHkp = true)
variable (he : e = if retires d.boot.nv r = true then burnRetired (noteHeader sl r d) else noteHeader sl r d)

include hwarm hruns he

theorem warmReadDone_fails {c : Nat} (hcause : slotCause d.boot.nv (phase0Parts ++ phase1Parts) r = some c) :
    warmReadDone r d = failWarm sl c e := by
  subst he
  simp only [warmReadDone, hwarm, hcause]
  rw [if_neg (by simp [hruns])]

theorem warmReadDone_verifies (hcause : slotCause d.boot.nv (phase0Parts ++ phase1Parts) r = none) {bc : Nanos}
    (hbc : bc = e.majorFrom (e.now + 2 * e.time.minorNs)) :
    warmReadDone r d = cutSolves bc { e with boot := { e.boot with
      warm := .changeover sl (imageOf (phase0Parts ++ phase1Parts) r) bc false } } := by
  subst hbc he
  simp only [warmReadDone, hwarm, hcause]
  rw [if_neg (by simp [hruns])]

end WarmRead

/-- Settles O45: each clause is one command's case in its phase. That a slot read by a warm start burns the Retired fuse
while the running image goes on is log entry 149, the header of a commit that a block timeout ends log entry 219. -/
theorem bootReadsVerifyOrFail : Obligations.BootReadsVerifyOrFail := by
  unfold Obligations.BootReadsVerifyOrFail
  refine ⟨?_, ?_, fun s id bytes digest h => act_next (sectionVerified_notDue bytes digest h),
    fun s hphase hruns => ⟨fun bad => act_next (slotVerified_bad hphase hruns bad),
      fun h => act_next (slotVerified_missing hphase hruns h), fun h => act_next (slotVerified_all hphase hruns h)⟩,
    fun s => ⟨fun hphase => act_next (imageBlockTimeout_starting hphase),
      fun sl hphase hwarm => act_next (imageBlockTimeout_warm hphase hwarm),
      fun p hphase hwarm hstage => act_next (imageBlockTimeout_commit hphase hwarm hstage)⟩, ?_⟩
  · rintro s check img r rfl
    exact ⟨fun hphase => act_next (phase0Loaded_otherPhase _ hphase),
      fun hphase hretires => ⟨_, rfl, act_next (phase0Loaded_retires hphase hretires rfl)⟩,
      fun c hphase hretires hcause => act_next (phase0Loaded_fails hphase hretires hcause),
      fun hphase hretires hcause => act_next (phase0Loaded_starts hphase hretires hcause)⟩
  · intro s id bytes digest part i entry hphase hruns hnew hpart hplace hentry
    refine ⟨fun hdigest => act_next ?_, fun d1 hdigest hd1 => ⟨fun hcamera => act_next ?_, fun hcamera => act_next ?_⟩⟩
    · rw [sectionVerified_due hphase hruns bytes digest hnew hpart hplace hentry rfl, if_pos hdigest]
    · rw [sectionVerified_due hphase hruns bytes digest hnew hpart hplace hentry hd1,
        if_neg (not_not_intro hdigest), if_pos hcamera]
    · rw [sectionVerified_due hphase hruns bytes digest hnew hpart hplace hentry hd1,
        if_neg (not_not_intro hdigest), if_neg hcamera]
  · rintro s check img r sl d1 rfl hwarm hruns hd1
    exact ⟨fun c hcause => act_next (warmReadDone_fails hwarm hruns hd1 hcause),
      fun bc hcause hbc => act_next (warmReadDone_verifies hwarm hruns hd1 hcause hbc)⟩

end Sys2Proof.Machine
end

section
/-!
Temperatures, rails and their limits (R441 to R445).
-/

namespace Sys2Proof.Machine

open Sys2Proof

variable {d : Dev}

/-! ### Temperature (R441, R442) -/

section Sample

/-- The readings of a sample that count: those of the sensors of a die that are not excluded (R441). -/
def Dev.sampled (d : Dev) (x : Nat) (sensors : List Int) : List (Nat × Int) :=
  validSensors (d.thermal x).sensorsOut (sensors.take (sensorCount x))

/-- The device with the sensors excluded that deviate (R441). -/
def excludeBad (x : Nat) (all : List (Nat × Int)) (d : Dev) : Dev :=
  (all.filter (sensorBad all)).foldl (fun d e => excludeSensor x e.1 d) d

variable {die : Die} {sensors : List Int} {all : List (Nat × Int)} (hheld : d.boot.phase ≠ .held)
variable (hall : all = d.sampled die.idx sensors)

include hheld hall

/-- The largest reading left is noted as Tj and acted on. -/
theorem tempSample_tj {tj : Int} (htj : maxReading ((all.filter (fun e => !sensorBad all e)).map (·.2)) = some tj) :
    tempSample die sensors d =
      if die.idx < 6 then actOnDie die.idx tj (noteTj die.idx tj (excludeBad die.idx all d))
      else actOnIod tj (noteTj die.idx tj (excludeBad die.idx all d)) := by
  unfold Dev.sampled at hall
  simp only [tempSample, ← hall, htj]
  exact if_neg hheld

/-- With no reading left a die acts as R441 says once its last sensor is excluded. -/
theorem tempSample_none (htj : maxReading ((all.filter (fun e => !sensorBad all e)).map (·.2)) = none) :
    tempSample die sensors d =
      if ((excludeBad die.idx all d).thermal die.idx).sensorsOut.length < sensorCount die.idx then
        excludeBad die.idx all d
      else noSensors die.idx (excludeBad die.idx all d) := by
  unfold Dev.sampled at hall
  simp only [tempSample, ← hall, htj]
  exact if_neg hheld

end Sample

/-- A criterion has held for a time: it is met since an instant that lies that far back. -/
def heldFor (now : Nanos) (since : Option Nanos) (n : Nat) : Bool :=
  match since with
  | some t => decide (t + n ≤ now)
  | none => false

/-- The criterion of a halving that has held 100 ms is noted, and that of a power removal that has held 1 s restores
the die unless its rail is out. -/
theorem thermalRestoreTimer_met (die : Die) {halveMet offMet : Bool} {d1 d2 : Dev}
    (hhalve : halveMet = ((d.thermal die.idx).halvedTemp && (d.thermal die.idx).tempMet.isNone &&
      heldFor d.now (d.thermal die.idx).coolHalve (100 * msNs)))
    (hoff : offMet = ((d.thermal die.idx).offTemp && heldFor d.now (d.thermal die.idx).coolOff (1000 * msNs)))
    (h1 : d1 = if halveMet = true then
        thermalEvent die.idx ((d.thermal die.idx).halveTh - 6) (d.thermal die.idx).tjNow false
          (d.setThermal die.idx { d.thermal die.idx with tempMet := some d.now })
      else d)
    (h2 : d2 = thermalEvent die.idx ((d.thermal die.idx).offTh - 25) (d.thermal die.idx).tjNow false
      (d1.setThermal die.idx { d1.thermal die.idx with offTemp := false })) :
    thermalRestoreTimer die d =
      if offMet = true then (if (d.thermal die.idx).offRail = true then d2 else restoreDie die.idx d2) else d1 := by
  subst h2 h1 hoff hhalve
  rfl

/-! ### Rails (R443) -/

section Rail

variable {rail : Fin 14} {mv current : Nat}

/-- An excursion counts and is reported; the reaction is that of the first while the rail is out. -/
theorem railExcursion_outside {d1 d2 : Dev} (hout : d.outside rail.val mv = true) (hheld : d.boot.phase ≠ .held)
    (h1 : d1 = satEvent (barHkp + 0x168) d.health.railFault d.health.railFault.inc
      { d with health := { d.health with railFault := d.health.railFault.inc } })
    (h2 : d2 = railEvent rail.val mv current (d1.setRail rail.val { d.rail rail.val with
      out := true
      underSince := if rail.val = 6 ∧ mv < (d1.windowOf rail.val).1 then some (d1.now - 10 * usNs) else none })) :
    railExcursion rail mv current d =
      if (d.rail rail.val).out = true then d2
      else if rail.val < 4 then removePower rail.val false (raiseH 0x0107 rail.val rail.val 2 d2)
      else raiseV 0x000B (if rail.val = 4 then 4 else if rail.val = 5 then 5 else dieIod) rail.val 3 false rail.val
        (if memoryRail rail.val = true
          then d2.setRail rail.val { d2.rail rail.val with resetAt := some (d2.now + 2 * msNs) } else d2) := by
  subst h2 h1
  simp only [railExcursion, Bool.and_eq_true, decide_eq_true_eq]
  exact if_neg (by simp [hout, hheld])

theorem railExcursion_idle (h : d.outside rail.val mv = false ∨ d.boot.phase = .held) :
    railExcursion rail mv current d = d := if_pos (by simpa using h)

theorem railRestoreTimer_notBack (h : (d.rail rail.val).out = false ∨ d.outside rail.val mv = true) :
    railRestoreTimer rail false mv current d = d := by
  rw [railRestoreTimer, if_neg Bool.false_ne_true]
  exact if_pos (by simpa using h)

/-- A rail back within its limits is reported, and restores what its excursion had stopped, but for a memory rail. -/
theorem railRestoreTimer_back {d1 : Dev} (hout : (d.rail rail.val).out = true)
    (hin : d.outside rail.val mv = false)
    (h1 : d1 = railEvent rail.val mv current
      (d.setRail rail.val { d.rail rail.val with out := false, underSince := none })) :
    railRestoreTimer rail false mv current d =
      if rail.val < 4 then
        (if (d1.thermal rail.val).offTemp = true then
          d1.setThermal rail.val { d1.thermal rail.val with offRail := false }
        else restoreDie rail.val (d1.setThermal rail.val { d1.thermal rail.val with offRail := false }))
      else if memoryRail rail.val = true then d1
      else endCondition 0x000B rail.val d1 := by
  subst h1
  rw [railRestoreTimer, if_neg Bool.false_ne_true]
  exact if_neg (by simp [hout, hin])

/-! ### Overcurrent (R443, R445) -/

theorem railRestoreTimer_currentMet (hrail : rail.val < 4) (hhalved : (d.thermal rail.val).halvedCurrent = true)
    (hcurrent : current + 50 < d.currentLimit rail.val) :
    railRestoreTimer rail true mv current d =
      (d.setRail rail.val { d.rail rail.val with overcurrent := false }).setThermal rail.val
        { d.thermal rail.val with currentMet := some ((d.thermal rail.val).currentMet.getD d.now) } := by
  rw [railRestoreTimer, if_pos rfl]
  refine (if_pos (by simp [hrail, hhalved, hcurrent])).trans ?_
  cases (d.thermal rail.val).currentMet <;> rfl

theorem railRestoreTimer_currentNotMet (h : 4 ≤ rail.val ∨ (d.thermal rail.val).halvedCurrent = false ∨
    d.currentLimit rail.val ≤ current + 50) : railRestoreTimer rail true mv current d = d := by
  rw [railRestoreTimer, if_pos rfl]
  refine if_neg ?_
  rcases h with h | h | h
  · simp [Nat.not_lt.mpr h]
  · simp [h]
  · simp [Nat.not_lt.mpr h]

end Rail

/-- Overcurrent halves the clock once. -/
theorem railOvercurrent_over {rail : Fin 4} {current : Nat} (hover : d.currentLimit rail.val < current)
    (hpower : d.powerOff rail.val = false) (hheld : d.boot.phase ≠ .held) :
    railOvercurrent rail current d =
      if (d.thermal rail.val).halvedCurrent = true then
        d.setThermal rail.val { d.thermal rail.val with currentMet := none }
      else halveClock rail.val false (raiseH 0x0106 rail.val rail.val 2
        (d.setRail rail.val { d.rail rail.val with overcurrent := true })) :=
  if_neg (by simp [Nat.not_le.mpr hover, hpower, hheld])

theorem railOvercurrent_idle {rail : Fin 4} {current : Nat}
    (h : current ≤ d.currentLimit rail.val ∨ d.powerOff rail.val = true ∨ d.boot.phase = .held) :
    railOvercurrent rail current d = d := if_pos (by simpa [or_assoc] using h)

/-! ### The resets of the rails (R443) -/

theorem vddXUndervoltageTimer_under {t : Nanos} (h : (d.rail 6).underSince = some t) :
    vddXUndervoltageTimer d = if t + msNs ≤ d.now then fullReset d.boot.bootHint d else d := by
  simp only [vddXUndervoltageTimer, h]

theorem memoryRailResetTimer_due {r : Nat} {t : Nanos} (hr : r ∈ [4, 5, 7, 8, 9])
    (hreset : (d.rail r).resetAt = some t) (hdue : t ≤ d.now) :
    memoryRailResetTimer d = fullReset d.boot.bootHint d :=
  if_pos (List.any_eq_true.mpr ⟨r, hr, by simp [hreset, hdue]⟩)

theorem memoryRailResetTimer_early (h : ∀ r ∈ [4, 5, 7, 8, 9], ∀ t, (d.rail r).resetAt = some t → d.now < t) :
    memoryRailResetTimer d = d := by
  refine if_neg fun hany => ?_
  obtain ⟨r, hr, hdue⟩ := List.any_eq_true.mp hany
  cases hreset : (d.rail r).resetAt with
  | none => simp [hreset] at hdue
  | some t => exact Nat.not_le.mpr (h r hr t hreset) (by simpa [hreset] using hdue)

/-! ### Limits (R444) -/

theorem limitWrite_refused {limit : Limit} {value : Nat} (h : limitAllowed limit value = false) :
    limitWrite limit value d =
      healthEvent { code := 0x3002, severity := Config.severity 0x3002 (Config.limitIndex limit), die := limitDie limit,
                    arg0 := Config.limitIndex limit, arg1 := value }
        (logWrite 3 (Config.severity 0x3002 (Config.limitIndex limit)).toNat 0x3002
          [Config.limitIndex limit, value] d) := if_neg (by simp [h])

/-- Settles O57: each clause is one command's case. That an excursion of a rail already out counts and is reported again
is log entry 35, that a write below 100 °C is ignored, logged and reported log entry 37. -/
theorem temperaturesRailsAndLimits : Obligations.TemperaturesRailsAndLimits := by
  unfold Obligations.TemperaturesRailsAndLimits
  refine ⟨?_, ?_, fun s rail mv current d1 d2 hout hheld h1 h2 =>
      ⟨fun hagain => act_next ?_, fun hfirst hcore => act_next ?_, fun hfirst hother => act_next ?_⟩,
    fun s rail mv current h => act_next (railExcursion_idle h),
    fun s rail current hover hpower hheld => ⟨fun hhalved => act_next ?_, fun hhalved => act_next ?_⟩,
    fun s rail current h => act_next (railOvercurrent_idle h),
    fun s rail mv current h => act_next (railRestoreTimer_notBack h), ?_, ?_,
    fun s t hunder => ⟨fun hdue => act_next ?_, fun hearly => act_next ?_⟩,
    fun s r t hr hreset hdue => act_next (memoryRailResetTimer_due hr hreset hdue),
    fun s h => act_next (memoryRailResetTimer_early h), ?_⟩
  · intro s die sensors all d1 hheld hall hd1
    obtain rfl : d1 = excludeBad die.idx all s.dev := hd1
    refine ⟨fun tj htj => ⟨fun hdie => act_next ?_, fun hiod => act_next ?_⟩,
      fun htj => ⟨fun hleft => act_next ?_, fun hnone => act_next ?_⟩⟩
    · rw [tempSample_tj hheld hall htj, if_pos hdie]
    · rw [tempSample_tj hheld hall htj, if_neg (Nat.not_lt.mpr hiod)]
    · rw [tempSample_none hheld hall htj, if_pos hleft]
    · rw [tempSample_none hheld hall htj, if_neg (Nat.not_lt.mpr hnone)]
  · intro s die d1 d2 halveMet offMet hhalve hoff h1 h2
    have hmet := thermalRestoreTimer_met die hhalve hoff h1 h2
    refine ⟨fun hno => act_next ?_, fun hyes hrail => act_next ?_, fun hyes hrail => act_next ?_⟩
    · rw [hmet, if_neg (by simp [hno])]
    · rw [hmet, if_pos hyes, if_pos hrail]
    · rw [hmet, if_pos hyes, if_neg (by simp [hrail])]
  · rw [railExcursion_outside hout hheld h1 h2, if_pos hagain]
  · rw [railExcursion_outside hout hheld h1 h2, if_neg (by simp [hfirst]), if_pos hcore]
  · rw [railExcursion_outside hout hheld h1 h2, if_neg (by simp [hfirst]), if_neg (Nat.not_lt.mpr hother)]
  · rw [railOvercurrent_over hover hpower hheld, if_pos hhalved]
  · rw [railOvercurrent_over hover hpower hheld, if_neg (by simp [hhalved])]
  · intro s rail mv current d1 d2 hout hin h1 h2
    have hback := railRestoreTimer_back hout hin h1
    rw [← h2] at hback
    refine ⟨fun hcore hoff => act_next ?_, fun hcore hoff => act_next ?_, fun hother hmem => act_next ?_,
      fun hother hmem => act_next ?_⟩
    · rw [hback, if_pos hcore, if_pos hoff]
    · rw [hback, if_pos hcore, if_neg (by simp [hoff])]
    · rw [hback, if_neg (Nat.not_lt.mpr hother), if_pos hmem]
    · rw [hback, if_neg (Nat.not_lt.mpr hother), if_neg (by simp [hmem])]
  · rintro s rail mv current d1 rfl
    refine ⟨fun hrail hhalved hcurrent => ⟨fun hnone => act_next ?_, fun t hmet => act_next ?_⟩,
      fun h => act_next (railRestoreTimer_currentNotMet h)⟩
    · rw [railRestoreTimer_currentMet hrail hhalved hcurrent, hnone]
      rfl
    · rw [railRestoreTimer_currentMet hrail hhalved hcurrent, hmet]
      rfl
  · rw [vddXUndervoltageTimer_under hunder, if_pos hdue]
  · rw [vddXUndervoltageTimer_under hunder, if_neg (Nat.not_le.mpr hearly)]
  · intro s limit value
    refine ⟨?_, ?_, ?_, ?_, ?_, fun h => act_next (limitWrite_refused h)⟩
    · rintro x rfl hlo hhi
      exact act_next (if_pos (by simp [limitAllowed, hlo, hhi]))
    · rintro x rfl hlo hhi
      exact act_next (if_pos (by simp [limitAllowed, hlo, hhi]))
    · rintro r rfl hmax
      exact act_next (if_pos (by simp [limitAllowed, hmax]))
    · rintro r rfl hmin
      exact act_next (if_pos (by simp [limitAllowed, hmin]))
    · rintro r rfl hmax
      exact act_next (if_pos (by simp [limitAllowed, hmax]))

end Sys2Proof.Machine
end

section
/-!
Wear: the estimators, eye margins, canaries, the wear record and the life prediction (R446 to R449).
-/

namespace Sys2Proof.Machine

open Sys2Proof

variable {d : Dev}

/-! ### Samples (R446) -/

/-- The margin of a link as it is sampled, modulo 256. -/
def setEyeMargin (link : EyeLink) (margin : Nat) (d : Dev) : Dev :=
  match link with
  | .camera n => d.setCamera n.val { d.camera n.val with eyeMargin := margin % 256 }
  | .lidar n => d.setLidar n.val { d.lidar n.val with eyeMargin := margin % 256 }
  | .vehicle n => d.setVport n.val { d.vport n.val with eyeMargin := margin % 256 }

/-- An eye sample sets its link's margin, and one below 30 per cent is kept as the link's low one. -/
theorem eyeMarginSample_eq (link : EyeLink) (margin : Nat) {e : Dev} (he : e = setEyeMargin link margin d) :
    eyeMarginSample link margin d =
      if margin < 30 then { e with health := { e.health with
        eyeLow := (link, margin) :: e.health.eyeLow.filter (fun x => x.1 ≠ link) } }
      else e := by
  subst he
  rfl

/-! ### The wear record (R447) -/

theorem wearRecordWrite_due (hwrite : d.canWriteNv = true) (hdue : d.health.lastWear + 600 ≤ d.health.operS) :
    wearRecordWrite d = writeWear d := if_pos (by simp [hwrite, hdue])

theorem wearRecordWrite_early (h : d.canWriteNv = false ∨ d.health.operS < d.health.lastWear + 600) :
    wearRecordWrite d = d := if_neg (by simpa [imp_iff_not_or] using h)

/-! ### The life prediction (R448, R449) -/

section Prediction

variable {m0 m1 : Nat}

theorem lifePrediction_early (h : d.health.predDue = false ∨ (bget {} 3 d.boot.procs : FwState).restarting = true) :
    lifePrediction m0 m1 d = d := if_pos (by simpa using h)

/-- The life of a mechanism published with its band, and its health event. -/
def publishLife (w : Nat × Damage) (d : Dev) : Dev :=
  healthEvent { code := 0x2000, severity := Config.severity 0x2000 0, arg0 := w.2.lifeH, arg1 := w.2.bandH w.1, arg2 := w.1 }
    { d with health := { d.health with
      lifeH := BitVec.ofNat 32 w.2.lifeH
      lifeBandH := BitVec.ofNat 32 (satTo 0xFFFFFFFF (w.2.bandH w.1))
      lifeMech := BitVec.ofNat 2 w.1
      predTime := d.now
      predicted := true
      predOper := d.health.operS } }

/-- Below 10,000 hours the warning is set and raises its event, once. -/
def warnLife (w : Nat × Damage) (d : Dev) : Dev :=
  if w.2.lifeH < 10000 && !d.health.lifeWarn then
    healthEvent { code := 0x2001, severity := 2, arg0 := w.2.lifeH, arg1 := w.2.bandH w.1, arg2 := w.1 }
      { d with health := { d.health with lifeWarn := true } }
  else d

theorem warnLife_eq (w : Nat × Damage) (d : Dev) :
    warnLife w d = if w.2.lifeH < 10000 ∧ d.health.lifeWarn = false then
      healthEvent { code := 0x2001, severity := 2, arg0 := w.2.lifeH, arg1 := w.2.bandH w.1, arg2 := w.1 }
        { d with health := { d.health with lifeWarn := true } }
    else d := by
  simp only [warnLife, Bool.and_eq_true, decide_eq_true_eq, Bool.not_eq_true']

/-- A prediction that is due counts, publishes and warns, and ends with the trend events and a wear record. -/
theorem lifePrediction_due (hdue : d.health.predDue = true)
    (hruns : (bget {} 3 d.boot.procs : FwState).restarting = false) {d1 e : Dev} {w : Nat × Damage}
    (h1 : d1 = satEvent (barHkp + 0x170) d.health.ddrCorr (Counter.add d.health.ddrCorr (m0 + m1))
      { d with health := { d.health with ddrCorr := Counter.add d.health.ddrCorr (m0 + m1) } })
    (hw : w = worstDamage d1.damages 0 (0, { num := 0, den := 1 }))
    (he : e = trends m0 m1 (warnLife w (publishLife w d1))) :
    lifePrediction m0 m1 d = if e.boot.nvStopped = true then e else writeWear e := by
  simp only [lifePrediction, ← h1, ← hw]
  rw [if_neg (by rw [hdue, hruns]; decide), he, warnLife, publishLife]

end Prediction

/-- Settles O58: each clause is one command's case. That a single sample below 30 per cent is kept is log entry 39, that
the counts of LPDDR5X errors come as operands log entry 40. -/
theorem wearIsRecorded : Obligations.WearIsRecorded := by
  unfold Obligations.WearIsRecorded
  refine ⟨fun s rail current temp => rfl, ?_, fun s cl => rfl,
    fun s hwrite hdue => act_next (wearRecordWrite_due hwrite hdue), fun s h => act_next (wearRecordWrite_early h),
    fun s m0 m1 h => act_next (lifePrediction_early h), ?_⟩
  · intro s link margin d1 hd1
    have hmargin : d1 = setEyeMargin link margin s.dev := by
      rcases hd1 with ⟨n, rfl, h⟩ | ⟨n, rfl, h⟩ | ⟨n, rfl, h⟩ <;> exact h
    refine ⟨fun hwide => act_next ?_, fun hlow => act_next ?_⟩
    · rw [eyeMarginSample_eq link margin hmargin, if_neg (Nat.not_lt.mpr hwide)]
    · rw [eyeMarginSample_eq link margin hmargin, if_pos hlow]
  · intro s m0 m1 life band w d1 d2 d3 hdue hruns h1 hw hlife hband h2 h3
    have hpublish : d2 = publishLife w d1 := by rw [h2, hlife, hband]; rfl
    have hwarn : d3 = warnLife w (publishLife w d1) := by rw [h3, hlife, hband, hpublish, warnLife_eq]
    have hend := lifePrediction_due hdue hruns h1 hw rfl
    rw [← hwarn] at hend
    refine ⟨fun hwrite => act_next ?_, fun hstopped => act_next ?_⟩
    · rw [hend, if_neg (by simp [hwrite])]
    · rw [hend, if_pos hstopped]

end Sys2Proof.Machine
end
